-- ==== Sys2Proof/Word.lean ====
section
/-! DEFINITION. Word types of the model and their plainest notions.  Numbers follow R6 to R8. -/

namespace Sys2Proof

/-- One byte. -/
abbrev Byte := BitVec 8
/-- A 32-bit register word, the default register width of R10. -/
abbrev Word := BitVec 32
/-- A 64-bit register or address. -/
abbrev DWord := BitVec 64
/-- The 256 data bits of a control-network packet (R163), also one link control block (R217). -/
abbrev Data256 := BitVec 256
/-- One 512-bit conduit word (R178); also one 64-byte stream descriptor (R131). -/
abbrev CWord := BitVec 512
/-- One 128-byte vector register (R105), command packet (R270) or APASS instruction (R44). -/
abbrev Data1024 := BitVec 1024
/-- One 256-byte flit (R218) or memory block (R189). -/
abbrev Data2048 := BitVec 2048

/-- What names a plan: its 16-bit handle (R279), or, with bit 16 set, a number of the model's own for a plan that
RUN_PLAN carries INLINE and that no handle names (R282). -/
abbrev PlanId := BitVec 17

end Sys2Proof
end

