-- ==== Sys2Proof/Syntax.lean ====
section
/-! DEFINITION. The commands of the block: one constructor of `Instr` for each row of
spec/opcode_table.json.  The rows give no bits and no operands; an operand here names the unit that
the step acts on, or carries what comes from outside the device (host data, line data, readings). -/

namespace Sys2Proof

/-- A stream slot: slot `s` of caldera `n` (R129), or one of the 32 command-processor slots (R293). -/
inductive SlotRef where
  | cal (n : Fin 64) (s : Fin 64)
  | cp (s : Fin 32)
deriving DecidableEq, Repr

/-- A check-value unit: two in each caldera, two in the configuration controller and four in the
management controller (text before R118). -/
inductive ChkRef where
  | cal (n : Fin 64) (u : Fin 2)
  | cfg (u : Fin 2)
  | mc (u : Fin 4)
deriving DecidableEq, Repr

/-- What PCIe answers to a device-issued read: the host's bytes, or an error or timeout (R147 check 5);
`none` when the step issues no host read. -/
inductive HostIO where
  | none
  | data (bytes : List Byte)
  | error
deriving DecidableEq, Repr

/-- A block of an access through a free hub whose first read mismatched: what the last read brought back, and whether
a re-read recovered it (R200). -/
structure BlockFail where
  block : Word
  stored : Word
  computed : Word
  recovered : Bool
  /-- Re-reads that mismatched before the one that recovered the block. -/
  missed : Fin 3 := 0
deriving DecidableEq, Repr

/-- The port at which a memory request arrives (R188). -/
inductive MemPort where
  | rt
  | free
deriving DecidableEq, Repr

/-- The outcome of one training step of a memory stack (R202). -/
inductive StackOutcome where
  | pass (rows : BitVec 18)
  | badBlock (block : Word) (stored computed : Word)
  | fail (cause : Fin 6)
deriving DecidableEq, Repr

/-- The outcome of one step of full port training (R214): skew and polarity are the
line's; `linkId` is the LINK_ID this side chooses. -/
inductive PortOutcome where
  | detect
  | frameLock
  | equalised (lane : Fin 4) (height width : Byte)
  | fecLock
  | deskewed (inverted : Vector Bool 4) (skew : Vector Byte 4)
  | linkUp (linkId : BitVec 16)
  | fail (cause : Fin 7)
deriving DecidableEq, Repr

/-- One reading of the monitors (R391). -/
inductive Sample where
  | caldera (n : Fin 64) (current : BitVec 16) (mv : BitVec 10)
  | junction (i : Fin 96) (temp : BitVec 16)
  | eye (port : Fin 12) (lane : Fin 4) (height width : Byte)
  | input (watts : BitVec 16)
deriving DecidableEq, Repr

/-- Why a squall begins: the caldera's current, in 10 mA, exceeds the limit, or a sensor reads 100 °C or more (R398). -/
inductive SquallCause where
  | current (reading : BitVec 16)
  | thermal
deriving DecidableEq, Repr

/-- How the second attempt of an AVSBus frame ends: without a good answer, with a rail's voltage in mV and current in
10 mA, or with the acknowledgement of a voltage write (R411). -/
inductive AvsAnswer where
  | none
  | reading (mv current : BitVec 16)
  | ack
deriving DecidableEq, Repr

/-- A hardened block of R353. -/
inductive HardRef where
  | microcode (n : Fin 64)
  | tables (n : Fin 64)
  | conduit (die : Bool)
deriving DecidableEq, Repr

/-- The direction of a gateway endpoint word (R320). -/
inductive GwDir where
  | intoRegion
  | outOfRegion (word : CWord)
deriving DecidableEq, Repr

/-- What a JTAG access does (R373, R380, R407). -/
inductive JtagOp where
  | idcode
  | bypass
  | debug (instr : BitVec 16)
  | lifecycle (target : BitVec 3) (tokenValid : Bool)
  /-- Boundary scan: the pins are sampled and, with values given, the outputs driven from the scan cells (R407). -/
  | boundary (drive : Option (BitVec 25))
deriving DecidableEq, Repr

/-- To whom what a check unit snoops belongs: a context's flits or blocks, the packet with a header, or nobody's
data. -/
inductive SnoopOrigin where
  | shared
  | context (ctx : Byte)
  | packet (header : Word)
deriving DecidableEq, Repr

/-- The bytes of a block that a check unit snoops, and whose they are. -/
structure Snooped where
  origin : SnoopOrigin
  bytes : List Byte
deriving DecidableEq, Repr

/-- A submission doorbell: the tail written, and the packets the host has put into the slots up to it. -/
structure Doorbell where
  tail : Word
  packets : List Data1024
deriving DecidableEq, Repr

/-- The size of an access of the host in bits (R261). -/
inductive AccessSize where
  | b8 | b16 | b32 | b64
deriving DecidableEq, Repr

/-- A read by the host at an address of BAR0. -/
structure HostRead where
  addr : Word
  size : AccessSize
deriving DecidableEq, Repr

/-- The commands.  A `cmd` operand is the serial number of a command packet (its place in doorbell
order, R266). -/
inductive Instr where
  -- levels and beats
  | beatBoundary (cycles : Vector Word 64)
  | holdEnd
  | geyserBlockSend
  | geyserCopySend
  | pulseEmission
  | stretchReceive
  | squallReceive
  | geyserReceive (port : Fin 12) (blk : Data256)
  | geyserTimeout
  -- matrix arrays
  | wload (cal : Fin 64) (tile : Fin 4)
  | wloadComplete (cal : Fin 64) (arr : Fin 16) (slotB : Bool)
  | relay (cal : Fin 64) (tile : Fin 4)
  | relayGranule (cal : Fin 64) (idx : Nat)
  | passIssue (cal : Fin 64) (tile : Fin 4)
  | rowAdmit (cal : Fin 64) (tile : Fin 4)
  | drainBlock (cal : Fin 64) (tile : Fin 4)
  | passCommit (cal : Fin 64) (tile : Fin 4)
  | preemptWaitExpiry (handle : PlanId)
  | sarm (cal : Fin 64)
  -- caldera power and pace
  | zeroingComplete (cal : Fin 64)
  | gate (cal : Fin 64) (withWake : Bool)
  | gateEffect (cal : Fin 64)
  | wake (cal : Fin 64)
  | wakePowerOn (cal : Fin 64)
  | paceMinClr (cal : Fin 64)
  -- vector-DSP unit
  | vld (cal : Fin 64)
  | vst (cal : Fin 64)
  | vadd (cal : Fin 64)
  | vsub (cal : Fin 64)
  | vmul (cal : Fin 64)
  | vfma (cal : Fin 64)
  | vmax (cal : Fin 64)
  | vmin (cal : Fin 64)
  | vcmul (cal : Fin 64)
  | vrsum (cal : Fin 64)
  | vrmax (cal : Fin 64)
  | vexp (cal : Fin 64)
  | vlog (cal : Fin 64)
  | vrsqrt (cal : Fin 64)
  | vrcp (cal : Fin 64)
  | vsigm (cal : Fin 64)
  | vtanh (cal : Fin 64)
  | vcvti (cal : Fin 64)
  | vcvto (cal : Fin 64)
  | vsrchmax (cal : Fin 64)
  | vsrchmin (cal : Fin 64)
  | chkf (cal : Fin 64)
  | agset (cal : Fin 64)
  | wbeat (cal : Fin 64)
  | wdrain (cal : Fin 64)
  | dspEnd (cal : Fin 64)
  | dspSeedWrite (cal : Fin 64) (value : Word)
  -- check units
  | chkData8 (unit : ChkRef) (value : Byte)
  | chkData16 (unit : ChkRef) (value : BitVec 16)
  | chkData32 (unit : ChkRef) (value : Word)
  | chkStart (unit : ChkRef) (ctl : Word)
  | chkFeed (unit : ChkRef)
  | chkSnoopBlock (unit : ChkRef) (block : Snooped) (tag carried : DWord)
  -- exception log
  | xlogPop (cal : Fin 64)
  | xlogClear (cal : Fin 64)
  -- streams
  | streamArm (slot : SlotRef) (word0 : Word)
  | armingComplete (slot : SlotRef)
  | demandFill (cal : Fin 64) (slot : Fin 64) (io : HostIO)
  | runAhead (cal : Fin 64) (slot : Fin 64) (io : HostIO)
  | streamTransfer (slot : SlotRef) (io : HostIO)
  | streamWdog (slot : SlotRef)
  | stagingSlotFree (cal : Fin 64) (pool : Fin 256)
  -- control network
  | nocRequest (node : BitVec 9) (route : BitVec 8) (kind : BitVec 4) (data : Data256)
  | nocHop (die : Bool) (x : Fin 8) (y : Fin 8)
  | nocDeliver (node : BitVec 9)
  | nocRspReceive (node : BitVec 9)
  | nocBusyRetry (node : BitVec 9) (tag : BitVec 10)
  | nocTimeoutExpiry (node : BitVec 9) (tag : BitVec 10)
  | nocRtWrite (die : Bool) (index : BitVec 8) (value : Word)
  | traceClear (die : Bool)
  -- conduits
  | conduitWord (cal : Fin 64) (port : Fin 5) (track : Fin 64)
  -- stacked memory
  | memRequest (stack : Fin 8) (ch : Fin 32) (port : MemPort)
  | memCommandIssue (stack : Fin 8) (ch : Fin 32)
  | memReadReturn (stack : Fin 8) (ch : Fin 32) (flip : Data2048) (flipCheck : Word)
  | memRereadReturn (stack : Fin 8) (ch : Fin 32) (flip : Data2048) (flipCheck : Word)
  | rowIdleExpiry (stack : Fin 8) (ch : Fin 32) (pc : Bool) (bank : Fin 16)
  | refreshDue (stack : Fin 8) (ch : Fin 32) (pc : Bool)
  | hbmTempPoll (stack : Fin 8) (temp : Byte) (hot : Bool)
  | stackTraining (stack : Fin 8) (outcome : StackOutcome)
  | hbmCntClr (stack : Fin 8)
  | bblPop
  | bblClear
  -- serial lanes and link layer
  | portTraining (port : Fin 12) (outcome : PortOutcome)
  | trainingFrame (port : Fin 12) (lane : Fin 4) (control status check : BitVec 16)
  | downRetry (port : Fin 12)
  /-- Clock recovery and the FEC have locked again on the lanes named, with the skew between them (R231). -/
  | fastRetrain (port : Fin 12) (locked : Vector Bool 4) (skew : Vector Byte 4)
  | fastRetrainFail (port : Fin 12)
  | laneLockLoss (port : Fin 12) (lane : Fin 4)
  | lnkEn (port : Fin 12) (en : Bool)
  | admitPort (port : Fin 12) (on : Bool)
  | conf (port : Fin 12) (on : Bool)
  | clrDegraded (port : Fin 12)
  | retrain (port : Fin 12)
  | fullTrain (port : Fin 12)
  | loop (port : Fin 12) (mode : BitVec 2)
  | prbsClr (port : Fin 12) (lane : Fin 4)
  | lnkCntClr (port : Fin 12)
  | fill (port : Fin 12) (blk : Data256) (aboveHalf belowHalf : Bool)
  | align (port : Fin 12) (lane : Fin 4) (blk : Data256)
  | linkUp (port : Fin 12) (blk : Data256)
  | pres (port : Fin 12) (blk : Data256)
  | presSend (port : Fin 12)
  | presTimeout (port : Fin 12)
  | rttReq (port : Fin 12) (blk : Data256)
  | rttRsp (port : Fin 12) (blk : Data256)
  | flitTransmit (port : Fin 12)
  | flitReceive (port : Fin 12) (flit : Data2048) (badBlock : Bool)
  | nackRepeat (port : Fin 12)
  | creditTimeout (port : Fin 12) (vc : Fin 4)
  | auth (port : Fin 12)
  | authTimeout (port : Fin 12)
  -- fabric
  | probeForward
  | probeIdentify
  | probeRead
  | probeWrite
  | probeSync
  | probeRspReceive
  | discoverTimeout (cmd : Nat)
  | fabIdWrite (value : Word)
  | mgmtRegRd
  | mgmtRegWr
  | mgmtRegRsp
  | mgmtTimeout (tag : BitVec 10)
  | mgmtCfg
  | mgmtMctp
  | mgmtEvent
  | freeWr (fails : List BlockFail)
  | freeRd (io : HostIO) (fails : List BlockFail)
  | freeRsp
  -- rings and command processing
  | sqTail (ring : Fin 64) (bell : Doorbell)
  | cqHead (ring : Fin 64) (value : Word)
  | sqEnable (ring : Fin 64) (ctl : Word)
  | sqDisable (ring : Fin 64)
  | cqEnable (ring : Fin 64) (ctl : Word)
  | cqDisable (ring : Fin 64)
  | commandFetch (ring : Fin 64) (packet : Data1024)
  | commandStart (ring : Fin 64)
  | completionWrite (ring : Fin 64)
  -- commands of R281
  | nop (cmd : Nat)
  | ctxCreate (cmd : Nat)
  | ctxDestroy (cmd : Nat)
  | mapPages (cmd : Nat) (list : List DWord)
  | unmapPages (cmd : Nat)
  | unmapDrainDone (cmd : Nat)
  | loadPlan (cmd : Nat) (image : List Byte)
  | runPlan (cmd : Nat) (image : List Byte)
  | abort (cmd : Nat)
  | resume (cmd : Nat)
  | copy (cmd : Nat)
  | loadLogic (cmd : Nat) (front : List Byte)
  | loadRegion (cmd : Nat) (front : List Byte)
  | frameRecord (record : List Byte)
  | loadCommit (trailer : List Byte)
  | cfgStreamTimeout
  | attest (cmd : Nat)
  | attestHoldTimeout (cmd : Nat)
  | keyImport (cmd : Nat) (wrapped : List Byte)
  | fabricDiscover (cmd : Nat)
  | fabricRouteSet (cmd : Nat) (entries : List DWord)
  | geyserSet (cmd : Nat)
  | fwUpdateBegin (cmd : Nat)
  | fwUpdateData (cmd : Nat) (data : List Byte)
  | fwUpdateCommit (cmd : Nat)
  | fwUpdateTimeout
  | telemetryRead (cmd : Nat)
  | powerCapSet (cmd : Nat)
  | setupWrite (cmd : Nat) (image : BitVec 32768)
  -- host and register accesses
  | bar4Read (offset : Word) (len : Nat) (io : HostIO) (fails : List BlockFail)
  | bar4Write (offset : Word) (bytes : List Byte) (fails : List BlockFail)
  | registerWrite (addr : Word) (size : AccessSize) (value : DWord)
  | broadcastWrite (addr : Word) (size : AccessSize) (value : DWord)
  | broadcastRead (read : HostRead)
  /-- The members in `lost` do not answer a host access at an address, or (none) the oldest request that waits at the
  fan-out unit; the timer of an access under way runs out. -/
  | fanoutTimeout (addr : Option Word) (lost : List Byte) (isRead : Bool) (size : AccessSize) (value : DWord)
  | doeMessage (object : List Byte)
  | functionLevelReset
  | glbResetWarm (value : Word)
  | glbResetCold (value : Word)
  | partitionReset (value : Word)
  | scrubWorkDone (ctx : Byte)
  -- programmable logic
  | plPacket (region : Fin 16)
  | plUserReg (region : Fin 16)
  | gatewayWord (region : Fin 16) (ep : Fin 16) (dir : GwDir)
  | gwResyncDone (region : Fin 16)
  | pllLock (k : Fin 8)
  | pllUnlock (k : Fin 8)
  -- configuration
  | cfgWrite (far : Word) (seg : Fin 32) (data : BitVec 128)
  | cfgRead (far : Word) (seg : Fin 32)
  | cfgScrub (far : Word) (inRef : Bool) (flip : List (Fin 4110))
  | fumaroleSweep
  | hardenedBlockCheck (block : HardRef) (flip : List Nat)
  -- power, bring-up and management
  | bringUpPhase
  | capControl (average : BitVec 16)
  | ilimStep
  | squallBegin (cal : Fin 64) (cause : SquallCause)
  | squallRailStep (die : Bool)
  | squallEnd (cal : Fin 64)
  | thermalTrip
  | evtPop
  | evtClear
  | telemetrySample (sample : Sample)
  | avsPoll (rail : Fin 13) (mv current : BitVec 16) (answered : Bool)
  | avsRetry (rail : Fin 13) (answer : AvsAnswer)
  | sidebandMessage (bytes : List Byte)
  | jtagAccess (op : JtagOp)
  | powerGood
  | powerLoss
  | coldResetPin (lowNs : Nat)
  | perst
  -- further events
  | freeRspTimeout (tag : BitVec 16)
  | pcieCompletionTimeout (slot : SlotRef)
  | badControlBlock (port : Fin 12) (blk : Data256)
  | uncorrectableCodeword (port : Fin 12) (corrected : Nat) (uncorrectable : Bool)
  | prbsCheckerLock (port : Fin 12) (lane : Fin 4) (bits : BitVec 31)
  | perstRelease
  | coldResetRelease
  | userLogicAnswer (region : Fin 16) (status : Byte) (data : BitVec 128)
  | flashOperationDone (readBackOk : Bool)
deriving DecidableEq, Repr

end Sys2Proof
end

