-- ==== Sys2Proof/Decode.lean ====
section
/-! DEFINITION. The command that a word spells by the opcode table's bits.  The table gives bits for
no row, so no word spells a command. -/

namespace Sys2Proof

/-- The command read from a word of the opcode table's bits: none, for the table numbers no bits. -/
def decodeTableWord (_nbits _w : Nat) : Option Instr := none

end Sys2Proof
end

