-- ==== Sys2Proof/Machine/Netlist.lean ====
section
/-! DEFINITION. The resources of one logic region as its LOGIC frames configure them: cells, flip-flops, carry chains
and block memories (R309, R311 to R314). -/

namespace Sys2Proof.Machine

/-- Signals that a gateway endpoint presents to the logic (R320, R322, R324). -/
inductive GwSig where
  | inData (bit : Fin 512) | inValid | outReady | bound
  | beat | beatLo (bit : Fin 16)
  | resync | resyncValid | resyncEp (bit : Fin 4) | resyncPos (bit : Fin 41)
deriving DecidableEq, Repr

/-- Outputs of a cell. -/
inductive CellOut where
  | o6 | o5 | sum | carry | ffa | ffb
deriving DecidableEq, Repr

/-- What drives an input: a constant, an output of a cell, a data output bit of a block memory's port, or a signal of
an endpoint (R310, R316). -/
inductive Src where
  | const (value : Bool)
  | cell (index : Nat) (out : CellOut)
  | mem (index : Nat) (portB : Bool) (bit : Nat)
  | gateway (ep : Fin 16) (sig : GwSig)
deriving DecidableEq, Repr

/-- The data input of a flip-flop (R312). -/
inductive FfData where
  | o6 | o5 | dx
deriving DecidableEq, Repr

/-- One flip-flop's configuration (R312). -/
structure FfCfg where
  data : FfData := .o6
  net : Fin 16 := 0
  ce : Src := .const true
  sr : Src := .const false
  async : Bool := false
  srval : Bool := false
  init : Bool := false
deriving DecidableEq, Repr

/-- One cell's configuration: its look-up table with the inputs A1 to A6, its bypass input and its flip-flops (R311,
R312). -/
structure CellCfg where
  split : Bool := false
  table : DWord := 0
  a : List Src := []
  dx : Src := .const false
  ffa : FfCfg := {}
  ffb : FfCfg := {}
deriving DecidableEq, Repr

/-- The read-during-write modes of a block memory port (R314). -/
inductive WriteMode where
  | writeFirst | readFirst | noChange
deriving DecidableEq, Repr

/-- The shapes of a block memory: depth × width (R314). -/
inductive BramShape where
  | x1 | x2 | x4 | x9 | x18 | x36
  /-- Simple dual-port, 512 × 72: port A writes and port B reads. -/
  | x72
deriving DecidableEq, Repr

def BramShape.width : BramShape → Nat
  | .x1 => 1 | .x2 => 2 | .x4 => 4 | .x9 => 9 | .x18 => 18 | .x36 => 36 | .x72 => 72

/-- The address bits of a shape: its depth is a power of two from 32,768 down to 512. -/
def BramShape.addrBits : BramShape → Nat
  | .x1 => 15 | .x2 => 14 | .x4 => 13 | .x9 => 12 | .x18 => 11 | .x36 => 10 | .x72 => 9

/-- One port of a block memory: its clock net, and what drives it (R314). -/
structure BramPort where
  net : Fin 16 := 0
  addr : List Src := []
  data : List Src := []
  we : Src := .const false
  en : Src := .const false
  mode : WriteMode := .writeFirst
  outReg : Bool := false
deriving DecidableEq, Repr

/-- One block memory: its shape, which both ports have (R314). -/
structure MemCfg where
  shape : BramShape := .x36
  a : BramPort := {}
  b : BramPort := {}
deriving DecidableEq, Repr

/-- A region's logic: its cells by column, cluster and place, the carry-in of each column, and its block memories. -/
structure Netlist where
  cells : List CellCfg := []
  columnCi : List Bool := []
  mems : List MemCfg := []
deriving DecidableEq, Repr, Inhabited

/-- What a block memory holds: its bits, and what each port's data output shows, before and after its output register. -/
structure MemState where
  bits : BitVec 36864 := 0
  outA : BitVec 72 := 0
  outB : BitVec 72 := 0
  regA : BitVec 72 := 0
  regB : BitVec 72 := 0
deriving DecidableEq, Repr

end Sys2Proof.Machine
end

