-- ==== Sys2Proof/Config.lean ====
section
/-! DEFINITION. What an implementation fixes and what the manual leaves open, as opaque constants:
nothing in Lean can evaluate them, so a claim about the model holds for every value of them. -/

namespace Sys2Proof.Config

/-- A value the manual leaves open, fresh at each use: applied to the counter `State.free` (log 3). -/
opaque freeValue : Nat → BitVec 512

/-- The fused floor pace in M steps/s before the bound of R17 is applied (log 4). -/
opaque fusedFloor : BitVec 16
/-- FAB_UID, fused at manufacture (R234, R259; log 4). -/
opaque fusedUid : BitVec 128
/-- The lifecycle state held in fuses (R380; log 4). -/
opaque fusedLifecycle : BitVec 3
/-- The number of burned security-version fuse bits at power-on (R382; log 4). -/
opaque fusedSvn : Nat

/-- Which of the results that R111 permits the DSP unit returns for a function, a lane type and an
operand: an index into the permitted results (log 5). -/
opaque dspPick : Nat → Nat → Word → Nat

/-- The secret number of an ECDSA signature by a private key over a hash (FIPS 186-5; log 6). -/
opaque signatureNonce : (key : Nat) → (digest : BitVec 384) → Nat
/-- The HKDF info of the key pair of a purpose: 0 DeviceID, 1 Alias, 2 Attestation, 3 key exchange (R377; log 6). -/
opaque keyPurpose : Nat → List Byte
/-- The second half of the XTS key that belongs to a model key of 256 bits, of which R374 and R376 say nothing (log 49). -/
opaque modelTweakKey : BitVec 256 → BitVec 256
/-- The logic-signing public key of slot 0, held in the boot ROM (R381; log 6). -/
opaque dorsekenLogicKey : BitVec 768
/-- The Dorseken firmware key whose hash the boot ROM holds (R381; log 6). -/
opaque dorsekenFirmwareKey : BitVec 768
/-- The unique device secret, fused and readable only by the boot ROM (R377; log 6). -/
opaque uniqueDeviceSecret : BitVec 384
/-- The AUTH payloads that carry a message of a step of R228 (log 25). -/
opaque authPack : (step : Nat) → (message : List Byte) → List (BitVec 1920)
/-- The message that AUTH payloads of a step carry; none while it is not whole (log 25). -/
opaque authUnpack : (step : Nat) → (payloads : List Byte) → Option (List Byte)
/-- What a DER certificate says: its signed bytes, its subject's public key, its signature, and the unique identity and the
security version that it certifies. -/
structure Certificate where
  body : List Byte
  key : BitVec 768
  sig : BitVec 768
  uid : BitVec 128
  svn : Byte
deriving DecidableEq, Repr

/-- The public keys of the Dorseken intermediates published under the fused root (R377; log 6). -/
opaque dorsekenIssuers : List (BitVec 768)
/-- The DeviceID certificate made at manufacture and kept in the certificate store (R377; log 6). -/
opaque deviceCertificate : List Byte
/-- The signed bytes of a certificate: its purpose, its subject's key, and the bytes its extensions carry (R377; log 6). -/
opaque certBody : (purpose : Nat) → (key : BitVec 768) → (extensions : List Byte) → List Byte
/-- A signed body and its signature as a DER certificate (log 6). -/
opaque certDer : (body : List Byte) → (sig : BitVec 768) → List Byte
/-- The certificates that a DER chain holds, in its order; none where it is no chain (log 6). -/
opaque certParse : List Byte → Option (List Certificate)
/-- The SHA-384 of the boot ROM, which layer 1 binds (R377; log 6). -/
opaque bootRomDigest : BitVec 384

/-- A block of the 25th save-area frame of a caldera, for the switch-out that wrote it: the manual names what the frame
holds and not its layout (R365; log 56). -/
opaque savedState : Nat → Nat → BitVec 2048
/-- The contents of the microcode stores and of the DSP function tables, which the bring-up firmware loads (R353; log 139). -/
opaque microcode : BitVec 524288
opaque functionTables : BitVec 262144
/-- The entries of an instruction queue section of a plan image, or of a fused stage's instruction block:
byte offset of the instruction, plan beat and instruction of each; none where the bytes hold no such list.  The manual names the
contents and not their layout (R283, R156; log 26). -/
opaque queueEntries : List Byte → Option (List (Nat × Nat × Data1024))

/-- The binding of a gateway endpoint that a region image makes: NET in [3:0], USED in [4], from the LOGIC frames
of the region and the endpoint's number.  The device database assigns the frame bits (R329, R330; log 27). -/
opaque gwBinding : List (Nat × BitVec 4096) → Nat → BitVec 5

/-- The logic that a region's LOGIC frames configure.  The device database assigns the frame bits (R330; log 87). -/
opaque netlist : List (Nat × BitVec 4096) → Machine.Netlist
/-- What a combinational loop of user logic settles to (log 87). -/
opaque loopValue : Bool
/-- The frequency in Hz of the user clock input that a PLL can select (R317; log 64). -/
opaque userClock : Nat → Nat

/-- The answer to a DOE object: DOE discovery, SPDM 1.3 or a secured SPDM message, for the digests that the device
measures and a free value that stands for the session (R264; log 28). -/
opaque doeAnswer : List (BitVec 384) → List Byte → BitVec 512 → List Byte

/-- What a setup copy of the boot flash holds after a program that was cut off or that read back wrong (R390, R403;
log 31). -/
opaque flashResidue : Nat → BitVec 32768
/-- What an image slot of the boot flash holds where an erase or a program was cut off (R400, R403; log 31). -/
opaque slotResidue : Nat → List Byte
/-- The MCTP packets that answer a message to this device which is no reading of a sensor, for a free value (R394; log 32). -/
opaque mctpAnswer : List Byte → BitVec 512 → List (List Byte)
/-- The routing-table entry that an MCTP packet of the bus owner sets: an EID and a fabric device ID (R394; log 32). -/
opaque mctpRoute : List Byte → Option (Nat × BitVec 10)
/-- The figure that a PLDM numeric sensor reports: telemetry group, byte offset and length in its body, and the size code;
and the state sensors: false PHASE, true SQUALL (R391, R394; log 32). -/
opaque pldmSensor : Nat → Option (Nat × Nat × Nat × Byte)
opaque pldmStateSensor : Nat → Option Bool
/-- The register request to a peer that a sideband packet makes the management controller send: the peer's fabric
device ID, and KIND, ADDR, LEN_M1 and DATA of its MGMT payload (R256; log 35). -/
opaque mctpRegister : List Byte → Option (BitVec 10 × BitVec 1920)
/-- How many requests the receive queue of a control-network interface holds (R171; log 33). -/
opaque nocQueue : Nat

/-- The image slot contents with which the boot flash is delivered: slot 0 A, 1 B, 2 golden (R354; log 7). -/
opaque deliveredImage : Nat → List Byte
/-- The pointer record with which a copy of the boot flash is delivered (R355; log 7). -/
opaque deliveredPointer : Nat → BitVec 128
/-- The setup record copy with which the boot flash is delivered (R388; log 7). -/
opaque deliveredSetup : Nat → BitVec 32768

end Sys2Proof.Config
end

