-- ==== Sys2Proof/Machine/Bits.lean ====
section
/-! DEFINITION. Bit fields, little-endian bytes (R7) and saturating counters. -/

namespace Sys2Proof.Machine

/-- The field of `k` bits whose lowest bit is `lo`. -/
def fld {n : Nat} (w : BitVec n) (lo k : Nat) : BitVec k := w.extractLsb' lo k

/-- A field as a number. -/
def nfld {n : Nat} (w : BitVec n) (lo k : Nat) : Nat := (w.extractLsb' lo k).toNat

/-- Bit `i`. -/
def bitAt {n : Nat} (w : BitVec n) (i : Nat) : Bool := w.getLsbD i

/-- The field at byte offset `off`, bits `lo` up, of `k` bits, in a little-endian record. -/
def rfld {n : Nat} (w : BitVec n) (off lo k : Nat) : BitVec k := w.extractLsb' (8 * off + lo) k

/-- The same field as a number. -/
def rnum {n : Nat} (w : BitVec n) (off lo k : Nat) : Nat := (rfld w off lo k).toNat

/-- A word with the field of `k` bits at `lo` replaced. -/
def putFld {n k : Nat} (w : BitVec n) (lo : Nat) (v : BitVec k) : BitVec n :=
  (w &&& ~~~(((BitVec.allOnes k).setWidth n) <<< lo)) ||| ((v.setWidth n) <<< lo)

/-- A value placed at bit `lo` of a wider record. -/
def at_ (n : Nat) {k : Nat} (lo : Nat) (v : BitVec k) : BitVec n := (v.setWidth n) <<< lo

/-- A number placed at bit `lo` of a record. -/
def natAt (n lo v : Nat) : BitVec n := BitVec.ofNat n (v <<< lo)

/-- One bit placed at bit `lo` of a record. -/
def flagAt (n lo : Nat) (b : Bool) : BitVec n := if b then BitVec.twoPow n lo else 0

/-- The bytes of a record, lowest first (R7). -/
def toBytes {n : Nat} (w : BitVec n) (len : Nat) : List Byte :=
  (List.range len).map (fun i => w.extractLsb' (8 * i) 8)

/-- A record read from bytes, lowest first; bytes beyond the list read 0. -/
def ofBytes (n : Nat) : List Byte → BitVec n
  | [] => 0
  | b :: bs => ((ofBytes n bs) <<< 8) ||| b.setWidth n

/-- A slice of a byte list. -/
def slice (l : List Byte) (off len : Nat) : List Byte := (l.drop off).take len

/-- A counter of `n` bits that saturates at its all-ones value. -/
def satInc {n : Nat} (w : BitVec n) : BitVec n := if w = BitVec.allOnes n then w else w + 1

/-- A saturating counter plus an amount. -/
def satAdd {n : Nat} (w : BitVec n) (k : Nat) : BitVec n :=
  if w.toNat + k < 2 ^ n then BitVec.ofNat n (w.toNat + k) else BitVec.allOnes n

/-- The larger of two words, unsigned. -/
def maxW {n : Nat} (a b : BitVec n) : BitVec n := if a.toNat < b.toNat then b else a

/-- The smaller of two words, unsigned. -/
def minW {n : Nat} (a b : BitVec n) : BitVec n := if b.toNat < a.toNat then b else a

/-- Clear in `old` every bit that is 1 in `w` (access type W1C of R10). -/
def w1c {n : Nat} (old w : BitVec n) : BitVec n := old &&& ~~~w

/-- A sticky flag under a write of bit `b` (W1C of R10). -/
def w1cBit (old b : Bool) : Bool := old && !b

/-- The number of set bits. -/
def popCount {n : Nat} (w : BitVec n) : Nat := ((List.range n).filter (fun i => w.getLsbD i)).length

/-- The positions of the set bits, ascending. -/
def setBits {n : Nat} (w : BitVec n) : List Nat := (List.range n).filter (fun i => w.getLsbD i)

/-- A number as an index below `n`, none beyond. -/
def fin? (n k : Nat) : Option (Fin n) := if h : k < n then some ⟨k, h⟩ else none

end Sys2Proof.Machine
end

