-- ==== Sys2Proof/Machine/Crypto.lean ====
section
/-! DEFINITION. The functions of other standards that the spec names: SHA-384 (FIPS 180-4), HKDF (RFC 5869), AES-256
(FIPS 197), XTS (IEEE 1619) and ECDSA and ECDH on P-384 (FIPS 186-5), as those standards define them (log 6). -/

namespace Sys2Proof.Machine

/-! ### SHA-384 and HKDF -/

/-- The 80 round constants of FIPS 180-4. -/
def shaK : List Nat :=
  [0x428A2F98D728AE22, 0x7137449123EF65CD, 0xB5C0FBCFEC4D3B2F, 0xE9B5DBA58189DBBC,
   0x3956C25BF348B538, 0x59F111F1B605D019, 0x923F82A4AF194F9B, 0xAB1C5ED5DA6D8118,
   0xD807AA98A3030242, 0x12835B0145706FBE, 0x243185BE4EE4B28C, 0x550C7DC3D5FFB4E2,
   0x72BE5D74F27B896F, 0x80DEB1FE3B1696B1, 0x9BDC06A725C71235, 0xC19BF174CF692694,
   0xE49B69C19EF14AD2, 0xEFBE4786384F25E3, 0x0FC19DC68B8CD5B5, 0x240CA1CC77AC9C65,
   0x2DE92C6F592B0275, 0x4A7484AA6EA6E483, 0x5CB0A9DCBD41FBD4, 0x76F988DA831153B5,
   0x983E5152EE66DFAB, 0xA831C66D2DB43210, 0xB00327C898FB213F, 0xBF597FC7BEEF0EE4,
   0xC6E00BF33DA88FC2, 0xD5A79147930AA725, 0x06CA6351E003826F, 0x142929670A0E6E70,
   0x27B70A8546D22FFC, 0x2E1B21385C26C926, 0x4D2C6DFC5AC42AED, 0x53380D139D95B3DF,
   0x650A73548BAF63DE, 0x766A0ABB3C77B2A8, 0x81C2C92E47EDAEE6, 0x92722C851482353B] ++
  [0xA2BFE8A14CF10364, 0xA81A664BBC423001, 0xC24B8B70D0F89791, 0xC76C51A30654BE30,
   0xD192E819D6EF5218, 0xD69906245565A910, 0xF40E35855771202A, 0x106AA07032BBD1B8,
   0x19A4C116B8D2D0C8, 0x1E376C085141AB53, 0x2748774CDF8EEB99, 0x34B0BCB5E19B48A8,
   0x391C0CB3C5C95A63, 0x4ED8AA4AE3418ACB, 0x5B9CCA4F7763E373, 0x682E6FF3D6B2B8A3,
   0x748F82EE5DEFB2FC, 0x78A5636F43172F60, 0x84C87814A1F0AB72, 0x8CC702081A6439EC,
   0x90BEFFFA23631E28, 0xA4506CEBDE82BDE9, 0xBEF9A3F7B2C67915, 0xC67178F2E372532B,
   0xCA273ECEEA26619C, 0xD186B8C721C0C207, 0xEADA7DD6CDE0EB1E, 0xF57D4F7FEE6ED178,
   0x06F067AA72176FBA, 0x0A637DC5A2C898A6, 0x113F9804BEF90DAE, 0x1B710B35131C471B,
   0x28DB77F523047D84, 0x32CAAB7B40C72493, 0x3C9EBE0A15C9BEBC, 0x431D67C49C100D4C,
   0x4CC5D4BECB3E42B6, 0x597F299CFC657E2A, 0x5FCB6FAB3AD6FAEC, 0x6C44198C4A475817]

/-- The initial hash value of SHA-384. -/
def shaInit : List DWord :=
  ([0xCBBB9D5DC1059ED8, 0x629A292A367CD507, 0x9159015A3070DD17, 0x152FECD8F70E5939,
   0x67332667FFC00B31, 0x8EB44A8768581511, 0xDB0C2E0D64F98FA7, 0x47B5481DBEFA4FA4] : List Nat).map (BitVec.ofNat 64)

/-- A number in big-endian bytes. -/
def beOfNat (len v : Nat) : List Byte := (toBytes (BitVec.ofNat (8 * len) v) len).reverse

/-- Big-endian bytes as a number. -/
def beNat (l : List Byte) : Nat := l.foldl (fun a b => 256 * a + b.toNat) 0

/-- Entry `i` of the words of a hash. -/
def shaAt (l : List DWord) (i : Nat) : DWord := (l[i]?).getD 0

/-- The message schedule: 16 words, the newest first, and the 64 that follow them. -/
def shaSchedule (b : List Byte) : List DWord :=
  let first := ((List.range 16).map (fun i => BitVec.ofNat 64 (beNat (slice b (8 * i) 8)))).reverse
  ((List.range 64).foldl (fun (w : List DWord) _ =>
    let x := shaAt w 14
    let y := shaAt w 1
    (((y.rotateRight 19 ^^^ y.rotateRight 61 ^^^ y >>> 6) + shaAt w 6 +
      (x.rotateRight 1 ^^^ x.rotateRight 8 ^^^ x >>> 7) + shaAt w 15) :: w)) first).reverse

/-- One round over the eight working words. -/
def shaRound (v : List DWord) (kw : Nat × DWord) : List DWord :=
  let a := shaAt v 0
  let e := shaAt v 4
  let t1 := shaAt v 7 + (e.rotateRight 14 ^^^ e.rotateRight 18 ^^^ e.rotateRight 41)
    + ((e &&& shaAt v 5) ^^^ (~~~e &&& shaAt v 6)) + BitVec.ofNat 64 kw.1 + kw.2
  let t2 := (a.rotateRight 28 ^^^ a.rotateRight 34 ^^^ a.rotateRight 39)
    + ((a &&& shaAt v 1) ^^^ (a &&& shaAt v 2) ^^^ (shaAt v 1 &&& shaAt v 2))
  [t1 + t2, a, shaAt v 1, shaAt v 2, shaAt v 3 + t1, e, shaAt v 5, shaAt v 6]

/-- One 128-byte block. -/
def shaBlock (h : List DWord) (b : List Byte) : List DWord :=
  List.zipWith (· + ·) h ((shaK.zip (shaSchedule b)).foldl shaRound h)

/-- The message with its padding. -/
def shaPad (m : List Byte) : List Byte :=
  m ++ [0x80#8] ++ List.replicate ((239 - m.length % 128) % 128) 0 ++ beOfNat 16 (8 * m.length)

/-- The bytes of SHA-384. -/
@[irreducible] def shaBytes (m : List Byte) : List Byte :=
  let p := shaPad m
  (((List.range (p.length / 128)).foldl (fun h i => shaBlock h (slice p (128 * i) 128)) shaInit).take 6).flatMap
    (fun w => beOfNat 8 w.toNat)

/-- SHA-384, its first byte lowest (R335). -/
@[irreducible] def sha384 (m : List Byte) : BitVec 384 := ofBytes 384 (shaBytes m)

/-- HMAC-SHA-384 under a key of at most 128 bytes. -/
def hmac384 (key m : List Byte) : List Byte :=
  let pad (x : Byte) : List Byte := (key ++ List.replicate (128 - key.length) 0).map (· ^^^ x)
  shaBytes (pad 0x5C#8 ++ shaBytes (pad 0x36#8 ++ m))

/-- HKDF-SHA-384: `len` bytes from a secret, a salt (empty: none) and an info string. -/
@[irreducible] def hkdf384 (secret salt info : List Byte) (len : Nat) : List Byte :=
  let prk := hmac384 salt secret
  (((List.range ((len + 47) / 48)).foldl (fun (x : List Byte × List Byte) i =>
    let t := hmac384 prk (x.2 ++ info ++ [BitVec.ofNat 8 (i + 1)])
    (x.1 ++ t, t)) ([], [])).1).take len

/-! ### AES-256 and XTS -/

/-- Twice an element of GF(2^8). -/
def aesDouble (a : Byte) : Byte := (a <<< 1) ^^^ (if bitAt a 7 then 0x1B#8 else 0)

/-- The product in GF(2^8). -/
def aesMul (a b : Byte) : Byte :=
  ((List.range 8).foldl (fun (x : Byte × Byte) i => (if bitAt b i then x.1 ^^^ x.2 else x.1, aesDouble x.2)) (0, a)).1

/-- The inverse in GF(2^8), which is the 254th power; 0 gives 0. -/
def aesInv (a : Byte) : Byte := (List.range 253).foldl (fun x _ => aesMul x a) a

/-- The S-box: the inverse, then the affine map. -/
def aesSub (a : Byte) : Byte :=
  let b := aesInv a
  b ^^^ b.rotateLeft 1 ^^^ b.rotateLeft 2 ^^^ b.rotateLeft 3 ^^^ b.rotateLeft 4 ^^^ 0x63#8

/-- The inverse of the S-box: the inverse affine map, then the inverse. -/
def aesUnsub (a : Byte) : Byte := aesInv (a.rotateLeft 1 ^^^ a.rotateLeft 3 ^^^ a.rotateLeft 6 ^^^ 0x05#8)

/-- A byte of a state or of a key. -/
def aesAt (l : List Byte) (i : Nat) : Byte := (l[i]?).getD 0

/-- The 60 words of the key schedule, each of four bytes. -/
def aesKeys (key : List Byte) : List (List Byte) :=
  (((List.range 52).foldl (fun (w : List (List Byte)) i =>
    let last := (w[0]?).getD []
    let t := if i % 8 = 0 then
        List.zipWith (· ^^^ ·) ((last.drop 1 ++ last.take 1).map aesSub)
          [(List.range (i / 8)).foldl (fun x _ => aesDouble x) 1, 0, 0, 0]
      else if i % 8 = 4 then last.map aesSub else last
    List.zipWith (· ^^^ ·) ((w[7]?).getD []) t :: w) ((List.range 8).map (fun i => slice key (4 * i) 4)).reverse)).reverse

/-- The round key of a round. -/
def aesKeyAt (w : List (List Byte)) (r : Nat) : List Byte := ((w.drop (4 * r)).take 4).flatten

def aesAdd (a b : List Byte) : List Byte := List.zipWith (· ^^^ ·) a b

/-- The rows of a state shifted to the left by their number times `by_`. -/
def aesShift (by_ : Nat) (l : List Byte) : List Byte :=
  (List.range 16).map (fun i => aesAt l (4 * ((i / 4 + by_ * (i % 4)) % 4) + i % 4))

/-- Each column times a circulant matrix, given by its first row. -/
def aesMix (c : List Byte) (l : List Byte) : List Byte :=
  (List.range 16).map (fun i =>
    (List.range 4).foldl (fun x j => x ^^^ aesMul (aesAt c ((j + 4 - i % 4) % 4)) (aesAt l (4 * (i / 4) + j))) 0)

/-- The cipher on 16 bytes. -/
@[irreducible] def aesEnc (key block : List Byte) : List Byte :=
  let w := aesKeys key
  let s := (List.range 13).foldl (fun s r => aesAdd (aesMix [2, 3, 1, 1] (aesShift 1 (s.map aesSub))) (aesKeyAt w (r + 1)))
    (aesAdd block (aesKeyAt w 0))
  aesAdd (aesShift 1 (s.map aesSub)) (aesKeyAt w 14)

/-- The inverse cipher. -/
@[irreducible] def aesDec (key block : List Byte) : List Byte :=
  let w := aesKeys key
  let s := (List.range 13).foldl (fun s r =>
      aesMix [14, 11, 13, 9] (aesAdd ((aesShift 3 s).map aesUnsub) (aesKeyAt w (13 - r))))
    (aesAdd block (aesKeyAt w 14))
  aesAdd ((aesShift 3 s).map aesUnsub) (aesKeyAt w 0)

/-- Bytes as a block, the first byte highest. -/
def beBits (n : Nat) (l : List Byte) : BitVec n := l.foldl (fun a b => (a <<< 8) ||| b.setWidth n) 0

/-- The 16 bytes of a block, the highest first. -/
def beBytes (b : BitVec 128) : List Byte := (toBytes b 16).reverse

/-- The AES-256 block cipher on a block whose first byte is highest, under a key whose first byte is highest. -/
def aes256 (key : BitVec 256) (block : BitVec 128) : BitVec 128 := beBits 128 (aesEnc (toBytes key 32).reverse (beBytes block))

/-- The 16 blocks of a 256-byte data unit, each under its own power of the tweak (IEEE 1619). -/
def xtsUnit (cipher : List Byte → List Byte → List Byte) (key : BitVec 512) (tweak : BitVec 128) (d : Data2048) : Data2048 :=
  let k := toBytes key 64
  let t0 : BitVec 128 := ofBytes 128 (aesEnc (k.drop 32) (toBytes tweak 16))
  ofBytes 2048 ((List.range 16).foldl (fun (x : List Byte × BitVec 128) i =>
    let t := toBytes x.2 16
    (x.1 ++ aesAdd (cipher (k.take 32) (aesAdd (toBytes (fld d (128 * i) 128 : BitVec 128) 16) t)) t,
     (x.2 <<< 1) ^^^ (if bitAt x.2 127 then 0x87#128 else 0))) ([], t0)).1

/-- AES-256-XTS of one data unit, its first byte lowest (R375). -/
@[irreducible] def xtsEnc (key : BitVec 512) (tweak : BitVec 128) (d : Data2048) : Data2048 := xtsUnit aesEnc key tweak d
@[irreducible] def xtsDec (key : BitVec 512) (tweak : BitVec 128) (d : Data2048) : Data2048 := xtsUnit aesDec key tweak d

/-! ### P-384 -/

def p384P : Nat := 0xFFFFFFFFFFFFFFFFFFFFFFFFFFFFFFFFFFFFFFFFFFFFFFFFFFFFFFFFFFFFFFFEFFFFFFFF0000000000000000FFFFFFFF
def p384N : Nat := 0xFFFFFFFFFFFFFFFFFFFFFFFFFFFFFFFFFFFFFFFFFFFFFFFFC7634D81F4372DDF581A0DB248B0A77AECEC196ACCC52973
def p384B : Nat := 0xB3312FA7E23EE7E4988E056BE3F82D19181D9C6EFE8141120314088F5013875AC656398D8A2ED19D2A85C8EDD3EC2AEF

/-- A point on the curve; none is the point at infinity. -/
abbrev Point := Option (Nat × Nat)

def p384G : Point := some (0xAA87CA22BE8B05378EB1C71EF320AD746E1D3B628BA79B9859F741E082542A385502F25DBF55296C3A545E3872760AB7, 0x3617DE4A96262C6F5D9E98BF9292DC29F8F41DBD289A147CE9DA3113B5F0B8C00A60B1CE1D7E819D7A431D7C90EA0E5F)

/-- A power modulo `m`, for exponents below 2^384. -/
def powMod (b e m : Nat) : Nat :=
  (List.range 384).reverse.foldl (fun x i => if e.testBit i then x * x % m * b % m else x * x % m) 1

/-- The inverse modulo a prime. -/
def invMod (a m : Nat) : Nat := powMod a (m - 2) m

/-- The sum of two points. -/
def ecAdd : Point → Point → Point
  | none, q => q
  | p, none => p
  | some (x1, y1), some (x2, y2) =>
    if x1 = x2 ∧ (y1 + y2) % p384P = 0 then none
    else
      let l := if x1 = x2 then (3 * x1 * x1 + (p384P - 3)) * invMod (2 * y1 % p384P) p384P % p384P
        else (y2 + p384P - y1) * invMod ((x2 + p384P - x1) % p384P) p384P % p384P
      let x3 := (l * l + 2 * p384P - x1 - x2) % p384P
      some (x3, (l * (x1 + p384P - x3) + p384P - y1) % p384P)

/-- A multiple of a point. -/
@[irreducible] def ecMul (k : Nat) (p : Point) : Point :=
  (List.range 384).reverse.foldl (fun q i => let d := ecAdd q q; if k.testBit i then ecAdd d p else d) none

/-- The point of a public key: X then Y, 48 big-endian bytes each, the first byte lowest (R388); none where it is not on
the curve. -/
def ecPoint (key : BitVec 768) : Point :=
  let b := toBytes key 96
  let x := beNat (b.take 48)
  let y := beNat (b.drop 48)
  if x < p384P ∧ y < p384P ∧ y * y % p384P = (x * x * x + (p384P - 3) * x + p384B) % p384P then some (x, y) else none

@[irreducible] def onP384 (key : BitVec 768) : Bool := (ecPoint key).isSome

/-- The coordinates of a point, 48 big-endian bytes each. -/
def pointBytes : Point → List Byte
  | none => List.replicate 96 0
  | some (x, y) => beOfNat 48 x ++ beOfNat 48 y

/-- The private key of a purpose, derived from a secret with HKDF-SHA-384 (R377): one to the order less one. -/
def privateKey (secret : BitVec 384) (purpose : List Byte) : Nat :=
  beNat (hkdf384 (toBytes secret 48) [] purpose 48) % (p384N - 1) + 1

def publicKey (d : Nat) : BitVec 768 := ofBytes 768 (pointBytes (ecMul d p384G))

/-- ECDSA verification of a signature, r then s, over a hash under a public key (FIPS 186-5). -/
@[irreducible] def ecdsaVerify (key : BitVec 768) (digest : BitVec 384) (sig : BitVec 768) : Bool :=
  let b := toBytes sig 96
  let r := beNat (b.take 48)
  let s := beNat (b.drop 48)
  let w := invMod s p384N
  decide (0 < r) && decide (r < p384N) && decide (0 < s) && decide (s < p384N) && (ecPoint key).isSome &&
  (match ecAdd (ecMul (beNat (toBytes digest 48) * w % p384N) p384G) (ecMul (r * w % p384N) (ecPoint key)) with
  | some (x, _) => x % p384N == r
  | none => false)

/-- An ECDSA signature by a private key, r then s; the secret number of each signature is free (log 6). -/
@[irreducible] def ecdsaSign (d : Nat) (digest : BitVec 384) : BitVec 768 :=
  let k := Config.signatureNonce d digest % (p384N - 1) + 1
  let r := (match ecMul k p384G with
    | some (x, _) => x % p384N
    | none => 0)
  ofBytes 768 (beOfNat 48 r ++ beOfNat 48 (invMod k p384N * (beNat (toBytes digest 48) + r * d) % p384N))

/-- The secret that a private key shares with a public key: the x coordinate; empty where the key is no point. -/
@[irreducible] def ecdhShared (d : Nat) (peer : BitVec 768) : List Byte :=
  match ecPoint peer with
  | none => []
  | some q => (match ecMul d (some q) with
    | some (x, _) => beOfNat 48 x
    | none => [])

end Sys2Proof.Machine
end

