-- ==== Sys2Proof/Machine/Table.lean ====
section
/-! DEFINITION. Sparse tables and byte memories in one canonical form, and update of unit arrays. -/

namespace Sys2Proof.Machine

/-- A sparse table: entries with strictly rising keys. -/
abbrev Tbl (α : Type) := List (Nat × α)

/-- The entry at key `k`, or `d` where none is listed. -/
def tget {α : Type} (d : α) : Tbl α → Nat → α
  | [], _ => d
  | (j, v) :: t, k => if j = k then v else tget d t k

/-- The entry at key `k` if one is listed. -/
def tfind {α : Type} : Tbl α → Nat → Option α
  | [], _ => none
  | (j, v) :: t, k => if j = k then some v else tfind t k

/-- The table without key `k`. -/
def tdel {α : Type} (t : Tbl α) (k : Nat) : Tbl α := t.filter (fun e => e.1 != k)

/-- Insert an entry before the first larger key. -/
def tins {α : Type} (k : Nat) (v : α) : Tbl α → Tbl α
  | [] => [(k, v)]
  | (j, w) :: t => if k < j then (k, v) :: (j, w) :: t else (j, w) :: tins k v t

/-- The table with entry `v` at key `k`. -/
def tput {α : Type} (t : Tbl α) (k : Nat) (v : α) : Tbl α := tins k v (tdel t k)

/-- Write a value, listing nothing where it equals the default of unlisted keys. -/
def tset {α : Type} [DecidableEq α] (d : α) (t : Tbl α) (k : Nat) (v : α) : Tbl α :=
  if v = d then tdel t k else tput t k v

/-- A byte memory: cells with strictly rising addresses, none holding what an unlisted address reads as. -/
abbrev Memory := List Host.Cell

/-- What an unlisted byte reads as (log 8). -/
def Memory.unlisted : Byte := 0

/-- Read one byte. -/
def mread (m : Memory) (a : Nat) : Byte := tget Memory.unlisted m a

/-- Write one byte, keeping the canonical form. -/
def mwrite (m : Memory) (a : Nat) (b : Byte) : Memory := tset Memory.unlisted m a b

/-- Read `n` bytes at ascending addresses from `a`. -/
def mreadN (m : Memory) (a n : Nat) : List Byte := (List.range n).map (fun i => mread m (a + i))

/-- Write bytes at ascending addresses from `a`. -/
def mwriteN (m : Memory) (a : Nat) : List Byte → Memory
  | [] => m
  | b :: bs => mwriteN (mwrite m a b) (a + 1) bs

/-- Clear the bytes of `n` addresses from `a`. -/
def mclear (m : Memory) (a n : Nat) : Memory := m.filter (fun c => c.1 < a || a + n ≤ c.1)

/-- Keys strictly rise. -/
def risingKeys {α : Type} : List (Nat × α) → Bool
  | [] => true
  | [_] => true
  | (j, _) :: (k, w) :: t => decide (j < k) && risingKeys ((k, w) :: t)

/-- The canonical form of a byte memory. -/
def Memory.wf (m : Memory) : Bool := risingKeys m && m.all (fun c => c.2 != Memory.unlisted)

/-- One element of a unit array replaced. -/
def vset {α : Type} {n : Nat} (v : Vector α n) (i : Fin n) (x : α) : Vector α n := v.set i.val x i.isLt

/-- One element of a unit array changed by a function. -/
def vmod {α : Type} {n : Nat} (v : Vector α n) (i : Fin n) (f : α → α) : Vector α n := vset v i (f v[i])

/-- A ring log of 64 slots (R125, R201, R396): the slot of the oldest record, the records from the
oldest on, and the count of dropped records. -/
structure RingLog (α : Type) where
  oldest : BitVec 6 := 0
  recs : List α := []
  drop : Word := 0
deriving DecidableEq, Repr

end Sys2Proof.Machine
end

