-- ==== Sys2Proof/Machine/State.lean ====
section
/-! DEFINITION. The machine state: every register, buffer, queue, counter, mode and pin the manual
gives the device, as plain data, and the state right after power-on.  A field's default is its reset
value; where the manual states none, the log entry named says so. -/

namespace Sys2Proof.Machine

/-- Why the machine stops with a fault. -/
inductive Fault where
  /-- Raised by a command whose payload has a length that no such step of the device can carry
  (`Instr.wellFormed` false). Safe: the environment cannot produce it. -/
  | illFormed
deriving DecidableEq, Repr

/-- Why a command has no meaning. -/
inductive Refusal where
  /-- A command whose meaning is not written. Safe. -/
  | notModelled (mnemonic : String)
deriving DecidableEq, Repr

/-! ### Streams -/

/-- Stream slot states (R136). -/
inductive StmState where
  | idle | armed | active | halted | paused
deriving DecidableEq, Repr

/-- A stream slot: registers of R159 and the transfer in progress. -/
structure Stream where
  st : StmState := .idle
  /-- The active descriptor (R131), with GEN and OWNER as the device sets them. -/
  desc : CWord := 0
  /-- Bytes of all the slot's armings that have completed: where its active arming, or its next one, starts in the stream
  that its armings make one after the other (R59, R137). -/
  base : Nat := 0
  /-- The shadow (R136): none when EMPTY. -/
  shadow : Option CWord := none
  /-- The write buffer of STM_DESC (R135). -/
  wbuf : CWord := 0
  gen : Byte := 0
  genDone : Byte := 0
  overrun : Bool := false
  descErr : Bool := false
  cause : BitVec 4 := 0
  savePos : Nat := 0
  vpn : BitVec 21 := 0
  /-- STM_IDLE.BEATS (R155). -/
  idle : BitVec 16 := 0
  /-- STM_STG: PAIR in [6:0], PAIR_VALID in [7]. -/
  stg : Byte := 0
  /-- Position of the next byte that the destination is to accept (R132); for a staging stream, of the
  next byte that its consumer has not read. -/
  pos : Nat := 0
  /-- Bytes that the source has delivered and that have not moved on, the position of the first of them
  (the next byte to be sent on), and the position up to which memory requests have been issued. -/
  inBuf : List Byte := []
  bufPos : Nat := 0
  /-- Words of a memory write that have not entered the slot's conduit endpoint (R130, R188). -/
  outWords : List CWord := []
  reqPos : Nat := 0
  /-- Counts halts and pauses, so that an access issued before one is discarded when it returns (R150). -/
  epoch : Nat := 0
  /-- A byte moved in the current beat (R155). -/
  moved : Bool := false
  /-- Run-ahead of this arming has stopped (R143). -/
  raStop : Bool := false
  /-- Context of the active arming and of the shadow (R135, R147). -/
  ctx : Option Byte := none
  shadowCtx : Option Byte := none
  /-- Serial number of the command that armed the slot or resumed it, and of the one that started the work
  (R271, R285). -/
  cmd : Option Nat := none
  work : Option Nat := none
  /-- The beat at which a RESUME restarts the halted stream of a COPY (R282, R285). -/
  resumeAt : Option DWord := none
  shadowCmd : Option Nat := none
  /-- Plan of a plan-owned arming, and the first and completion beat of R138. -/
  plan : Option PlanId := none
  shadowPlan : Option PlanId := none
  /-- Remote target of the shadow (R286). -/
  shadowRemote : Option (BitVec 10 × Byte) := none
  first : Nat := 0
  doneBeat : Nat := 0
  /-- Item of a fused chain that the arming and the shadow carry (R157). -/
  item : Nat := 0
  shadowItem : Nat := 0
  shadowFirst : Nat := 0
  shadowDone : Nat := 0
  /-- The record that VST stored through the generator: its address, bytes and stream position. -/
  agenQ : Option (DWord × List Byte × Nat) := none
  /-- Remote target of a command-processor slot (R286): peer ID and its context. -/
  remote : Option (BitVec 10 × Byte) := none
deriving DecidableEq, Repr

/-- A staging pool slot in use (R140 to R142): its stream, whether it was filled on demand, its fill
order, its records and those already read. -/
structure PoolSlot where
  idx : Nat
  owner : Nat
  demand : Bool
  order : Nat
  /-- Stream position of the first byte held and the bytes held, whole records. -/
  pos : Nat
  len : Nat
deriving DecidableEq, Repr

/-- What a word on the data path of a memory endpoint's reads carries, as the slot that sent the request knows it: the slot,
the stream position of its first byte, its bytes, and the slot's epoch when the request was issued (R189, R191). -/
structure LaneNote where
  who : SlotRef
  pos : Nat
  len : Nat
  epoch : Nat
deriving DecidableEq, Repr

/-- A conduit endpoint (R185): CDT_EP_CTL fields, the word held and CDT_EP_WORDS. -/
structure Endpoint where
  en : Bool := false
  out : Bool := false
  conduit : BitVec 12 := 0
  word : Option CWord := none
  words : DWord := 0
  /-- The words of memory reads that are on their way to this endpoint or held there, oldest first. -/
  coming : List LaneNote := []
deriving DecidableEq, Repr

/-! ### Arrays -/

/-- Weight slot states (R41). -/
inductive SlotState where
  | empty | loading | ready | pinned
deriving DecidableEq, Repr

/-- A weight slot with its block and the recorded source (R33, R39 to R41). -/
structure WSlot where
  st : SlotState := .empty
  fmt : BitVec 4 := 0
  kValid : Byte := 0
  blockId : Word := 0
  src : BitVec 24 := 0
  /-- The chain head's caldera for a relay-loaded slot, and whether the chain's head lies on another device. -/
  chain : Option (Fin 64) := none
  far : Bool := false
  image : List Byte := []
deriving DecidableEq, Repr

/-- An array: its two weight slots, its 512 accumulator rows of 64 FP32 values (key row × 64 + column),
its stochastic-rounding generator (R86) and its sticky flags (R71). -/
structure Arr where
  slotA : WSlot := {}
  slotB : WSlot := {}
  acc : Tbl Word := []
  gen : Word := 0x9E3779B9#32
  invalid : Bool := false
  sat : Bool := false
  flush : Bool := false
  fmtErr : Bool := false
deriving DecidableEq, Repr

/-- Pass states (R58). -/
inductive PassState where
  | feed | drain | held | commit | abandoned
deriving DecidableEq, Repr

/-- A zero-times-infinity occurrence (R90): row, K-group, caldera array index, column. -/
structure Occ where
  row : Nat
  kgroup : Nat
  arr : Nat
  col : Nat
deriving DecidableEq, Repr

/-- An issued pass that has not committed: its instruction, plan beat of issue, and its tentative work. -/
structure Pass where
  raw : Data1024
  /-- Issue order within the caldera, and that of the first pass of its chain (its own outside a chain). -/
  serial : Nat := 0
  chain : Nat := 0
  handle : PlanId
  issueBeat : Nat
  /-- Last plan beat of the pass, in which it commits. -/
  dueBeat : Nat
  st : PassState := .feed
  /-- Rows admitted and rows drained. -/
  rows : Nat := 0
  drained : Nat := 0
  gens : Vector Word 4 := Vector.replicate 4 0
  snaps : Vector Word 4 := Vector.replicate 4 0
  inv : BitVec 4 := 0
  sat : BitVec 4 := 0
  flush : BitVec 4 := 0
  occ : Option Occ := none
  occCnt : Nat := 0
  /-- Position in an accumulation chain (R90). -/
  chainPos : Nat := 0
  /-- Bytes of one of its activation rows. -/
  rowLen : Nat := 0
  /-- Where its rows start and end in the drain ring, and where they start in its two streams, counted over all their
  armings (R59, R63, R151). -/
  ringStart : Nat := 0
  ringStop : Nat := 0
  actStart : Nat := 0
  drainStart : Nat := 0
  /-- Abandoned by a fault, and not to be replayed before the RESUME (R67). -/
  parked : Bool := false
deriving DecidableEq, Repr

/-- A drain ring (R55, R57): its window and its write, committed and read positions, counted in bytes
since the plan was loaded. -/
structure DrainRing where
  base : BitVec 24
  len : BitVec 24
  wr : Nat := 0
  committed : Nat := 0
  rd : Nat := 0
  /-- Ends of the blocks written that the stream has not wholly moved, and the position up to which space and credits
  have come back (R57). -/
  blocks : List Nat := []
  freed : Nat := 0
  /-- The stream slot that empties it, when one does (TO_STREAM). -/
  stream : Option Nat := none
deriving DecidableEq, Repr

/-- An entry of the caldera's instruction queue with its plan beat (R283 section type 1). -/
structure QInstr where
  beat : Nat
  raw : Data1024
deriving DecidableEq, Repr

/-- A relay chain membership in progress (R42, R43): the instruction and the granules accepted and
forwarded. -/
structure Relay where
  raw : BitVec 256
  /-- Its place among the RELAYs of its caldera. -/
  idx : Nat := 0
  accepted : Nat := 0
  forwarded : Nat := 0
  image : List Byte := []
deriving DecidableEq, Repr

/-! ### Vector-DSP unit and check units -/

/-- An address generator (R114). -/
structure AddrGen where
  base : BitVec 40 := 0
  lenM1 : Word := 0
  ptr : Word := 0
  stride : Word := 1
  /-- DSP_AG_CTL[23:0]: ESIZE, CIRC, TARGET, STREAM. -/
  ctl : BitVec 24 := 4
deriving DecidableEq, Repr

/-- The vector-DSP unit (R105 to R117). -/
structure Dsp where
  v : Vector Data1024 32 := Vector.replicate 32 0
  ag : Vector AddrGen 16 := Vector.replicate 16 {}
  invalid : Bool := false
  sat : Bool := false
  flush : Bool := false
  fault : Bool := false
  faultCause : BitVec 4 := 0
  srchNone : Bool := false
  waiting : Bool := false
  busy : Bool := false
  mode : BitVec 3 := 0
  seed : Word := 0x9E3779B9#32
  pc : BitVec 24 := 0
  progBase : BitVec 24 := 0
  faultPc : BitVec 24 := 0
  faultAg : BitVec 4 := 0
  /-- Stopped by a fault until RESUME (R115). -/
  stopped : Bool := false
  /-- Boundaries a WBEAT still waits for. -/
  waitBeats : Nat := 0
  /-- Boundaries that opened, after a suspension in mid-beat, while the unit had not reached the WBEAT that waits for them. -/
  owed : Nat := 0
  /-- Rows drained by each tile since the unit's previous WDRAIN on it. -/
  rowsSince : Vector Int 4 := Vector.replicate 4 0
  /-- Progress of a search that waits: the elements examined, and the first considered one's value in FP32 and index
  (R113, R116). -/
  srch : Option (Nat × Option (Word × Nat)) := none
  /-- First zero-times-infinity product of the beat (DSP_PC and lane) and the further ones (R124). -/
  occ : Option (BitVec 24 × Nat) := none
  occCnt : Nat := 0
deriving DecidableEq, Repr

/-- An entry of a check unit's queue (R119). -/
inductive ChkEntry where
  | bytes (b : List Byte)
  /-- A write of one half of CHK_VALUE: whether the high one, and its word (R303). -/
  | half (hi : Bool) (w : Word)
  | ctl (c : Word)
deriving DecidableEq, Repr

/-- A check-value unit (R118 to R123). -/
structure Chk where
  poly : DWord := 0
  init : DWord := 0
  xorout : DWord := 0
  value : DWord := 0
  foldVal : DWord := 0
  ctl : BitVec 24 := 0x20
  queue : List ChkEntry := []
  overrun : Bool := false
  /-- Tag of the last snooped block (R120). -/
  tag : DWord := 0
  /-- Snooping has stopped and restarts only with START (R123). -/
  frozen : Bool := false
  paramErr : Bool := false
  mismatch : Word := 0
  count : DWord := 0
  blocks : Word := 0
deriving DecidableEq, Repr

/-! ### Calderas -/

/-- A squall in a caldera (R398). -/
structure Squall where
  thermal : Bool
  since : Nat
  entryCurrent : BitVec 16
  /-- Tick since which the current and the sensors have stayed below the thresholds that end it. -/
  calmSince : Option Nat := none
deriving DecidableEq, Repr

/-- One caldera: local memory, arrays, DSP unit, check units, exception log, streams, endpoints and
registers. -/
structure Caldera where
  gated : Bool := false
  gatePending : Bool := false
  waking : Bool := false
  zeroing : Bool := false
  fault : Bool := false
  xlogOvf : Bool := false
  accessRefused : Bool := false
  gateRefused : Bool := false
  -- pace (R19)
  paceLast : Word := 0
  paceMin : Word := 0xFFFFFFFF#32
  paceTotal : DWord := 0
  belowFloor : Bool := false
  squallLimit : Bool := false
  squall : Option Squall := none
  /-- The limiter inserted delays in the current beat. -/
  limited : Bool := false
  /-- CAL_IV (R405). -/
  current : BitVec 16 := 0
  mv : BitVec 10 := 0
  /-- The current itself, which the limiter judges also where CAL_IV shows 0 (R393, R398). -/
  amps : BitVec 16 := 0
  -- arrays and dispatcher
  sram : Memory := []
  arrs : Vector Arr 16 := Vector.replicate 16 {}
  segs : Vector DWord 32 := Vector.replicate 32 0
  queue : List QInstr := []
  passes : List Pass := []
  /-- Abandoned passes awaiting replay, in issue order (R63). -/
  replays : List Pass := []
  rings : List DrainRing := []
  relays : List Relay := []
  /-- The RELAYs issued since the plan was loaded, oldest first (R41). -/
  relayLog : List (BitVec 256) := []
  /-- Passes issued since the caldera last held no plan. -/
  issued : Nat := 0
  passCommits : DWord := 0
  passAbandons : Word := 0
  passReplays : Word := 0
  dsp : Dsp := {}
  chk : Vector Chk 2 := Vector.replicate 2 {}
  xlog : RingLog (BitVec 256) := {}
  -- streams
  streams : Vector Stream 64 := Vector.replicate 64 {}
  stgBase : BitVec 12 := 0
  stgShape : BitVec 20 := 0
  wdog : BitVec 16 := 0x03E8
  evictCnt : Word := 0
  pool : List PoolSlot := []
  fillOrder : Nat := 0
  -- conduits
  eps : Vector Endpoint 64 := Vector.replicate 64 {}
  /-- CDT_XP entries by 32 × port + track. -/
  xps : Tbl (BitVec 22) := []
  /-- Words held at the switch node's inputs, by 64 × port + track. -/
  held : Tbl CWord := []
  /-- Hardened content that the fumarole guards (R353): the microcode store and the DSP function tables, and the beats of
  their last matching comparisons. -/
  micro : BitVec 524288 := 0
  tables : BitVec 262144 := 0
  cleanMicro : DWord := 0
  cleanTables : DWord := 0
deriving DecidableEq, Repr

/-! ### Beats -/

/-- A pulse that has been announced or emitted and has not yet taken effect here (R244). -/
structure Pulse where
  beat : DWord
  due : Nat
  stretched : Bool := false
  handover : Option (BitVec 10) := none
  stop : Option (BitVec 2 × BitVec 16) := none
  period : BitVec 16
  srcId : BitVec 10 := 0
  /-- The pulse at which this device locks: the count is loaded with `beat` (R248). -/
  load : Bool := false
deriving DecidableEq, Repr

/-- A held boundary (R27): its beat number and the tick at which its pulse took effect. -/
structure Hold where
  beat : DWord
  since : Nat
  /-- Conditions of the beat that the held boundary closes (R30). -/
  cause : BitVec 6 := 0
  /-- A suspension took effect at the boundary: of a stopped plan only the passes of the closing beat keep it held
  (R31). -/
  quiet : Bool := false
  /-- The hold ends by a suspension: no STRETCH is sent (R252). -/
  mute : Bool := false
  /-- Its pulse took effect while an earlier boundary was held (R27). -/
  late : Bool := false
deriving DecidableEq, Repr

/-- The geyser source's engine (R27, R28, R245, R250, R254). -/
structure Source where
  /-- Tick of the last emission. -/
  lastEmit : Nat := 0
  /-- Largest hold and largest squall length reported for the next unemitted pulse. -/
  stretchS : Nat := 0
  squallL : Nat := 0
  /-- The same for the pulse after it: reports that arrived too late for the next (R245). -/
  stretchT : Nat := 0
  squallM : Nat := 0
  /-- The next pulse once its first copy has left, and whether the second has. -/
  announced : Option Pulse := none
  secondSent : Bool := false
  /-- GEYSER_SETs accepted and not yet in effect: beat, new period (0 = unchanged), new source. -/
  sets : List (DWord × BitVec 16 × Option (BitVec 10)) := []
  /-- Stop notices received and not yet placed (R254). -/
  notices : List (BitVec 2 × BitVec 16) := []
deriving DecidableEq, Repr

/-- The GLB block and the beat engine. -/
structure Glb where
  floorPace : BitVec 16
  beatCnt : DWord := 0
  period : BitVec 16 := 0x0200
  isSource : Bool := true
  beatLast : Word := 0
  stretchCnt : Word := 0
  holdCnt : Word := 0
  holdTicks : DWord := 0
  holdCause : BitVec 6 := 0
  preemptMax : Byte := 4
  beatStart : Nat := 0
  pulses : List Pulse := []
  holds : List Hold := []
  /-- Conditions of R30 seen so far in the beat in progress. -/
  conds : BitVec 6 := 0
  source : Source := {}
  -- register access (R301, R302, R306)
  groupMask : Vector DWord 16 := Vector.replicate 16 0
  accessErr : BitVec 6 := 0
  fanoutMember : Byte := 0
  accessAddr : Word := 0
  resetCause : BitVec 6 := 1
  scratch : Word := 0
  -- stream page table windows (R149)
  lookupVpn : BitVec 21 := 0
  sptFaultCnt : Word := 0
  bbl : RingLog (BitVec 256) := {}
deriving DecidableEq, Repr

/-! ### Control network -/

/-- A control-network packet in a mesh: header and data (R163), and where it is. -/
structure NPkt where
  hdr : Word
  data : Data256
  die : Bool
  x : Fin 8
  y : Fin 8
  /-- Arrival port in the order of R168; 5 = leaf injection. -/
  port : Fin 6
  hops : Nat := 0
deriving DecidableEq, Repr

/-- A request outstanding at its initiator (R170, R172). -/
structure NReq where
  tag : BitVec 10
  dst : BitVec 9
  hdr : Word
  data : Data256
  since : Nat
  /-- A BUSY answer arrived and the retry is due. -/
  busy : Bool := false
  /-- The packet has left its leaf; the timer runs from then, `since` (R172). -/
  sent : Bool := false
deriving DecidableEq, Repr

/-- A network interface: outstanding requests, next tag, tags lost to timeouts, and the packets
received and not yet handled. -/
structure Iface where
  out : List NReq := []
  nextTag : BitVec 10 := 0
  lost : List (BitVec 10) := []
  rxq : List (Word × Data256) := []
  /-- Completed requests: tag, status and data, oldest first. -/
  done : List (BitVec 10 × Byte × Data256) := []
deriving DecidableEq, Repr

/-- A broadcast or group access under way at the fan-out unit (R297 to R300): whether the host's own access asked for it or
a packet, the request, the nodes of its members, those that have not answered, what the answers so far give, and when the
member requests were sent. -/
structure FanJob where
  host : Bool
  hdr : Word
  data : Data256
  members : List (BitVec 9)
  waiting : List (BitVec 9)
  status : Nat
  value : BitVec 128
  since : Nat
deriving DecidableEq, Repr

/-- A REG_RD or REG_WR that the management controller performs (R256): its originator and tag, the accesses still to be
made (address, number of words, words to write), the largest status and the words read so far, the tag of the request that
is outstanding, and the GLB_RESET value that it has written. -/
structure MgJob where
  src : BitVec 10
  tag : BitVec 10
  write : Bool
  words : Nat
  left : List (Nat × Nat × List Word)
  status : Nat
  data : List Word
  asked : Option (BitVec 10)
  reset : Option Word
deriving DecidableEq, Repr

/-- What a reset that GLB_RESET starts waits for: the RSP of a control-network write, or the REG_RSP flit (R306). -/
inductive ResetAfter where
  | rsp (node : BitVec 9) (tag : BitVec 10)
  | flit (f : Data2048)
deriving DecidableEq, Repr

/-- A probe (R174, R177). -/
structure NProbe where
  ctl : Word := 0
  src : Word := 0
  dst : Word := 0
  lo : Word := 0
  hi : Word := 0
  count : DWord := 0
deriving DecidableEq, Repr

/-- The control network of one die. -/
structure NocDie where
  timeout : BitVec 24 := 0x002710
  tagExhaust : Bool := false
  refusedInj : Bool := false
  timeoutCnt : Word := 0
  lateCnt : Word := 0
  dropCnt : Word := 0
  probes : Vector NProbe 16 := Vector.replicate 16 {}
  wrap : Bool := false
  /-- Trace buffer records by slot (R175), next slot, and whether every slot holds data. -/
  trace : Tbl CWord := []
  wptr : BitVec 10 := 0
  full : Bool := false
  trcDrop : Word := 0
deriving DecidableEq, Repr

/-! ### Stacked memory -/

/-- A memory request in a controller (R189, R193, R196). -/
structure MemReq where
  id : Nat
  block : Word
  write : Bool
  spec : Bool
  first : Byte
  last : Byte
  data : Data2048
  port : MemPort
  who : Option SlotRef
  ctx : Byte
  /-- Stream position of its first byte, and the slot's epoch when it was issued. -/
  pos : Nat := 0
  epoch : Nat := 0
  /-- Virtual page of the access. -/
  vpn : BitVec 21 := 0
  /-- GEN of the arming that sent it. -/
  gen : Byte := 0
  /-- Arrival, in ticks. -/
  arrived : Nat
  /-- Re-reads made so far. -/
  rereads : Nat := 0
deriving DecidableEq, Repr

/-- A request word on a request lane or the free hub (R188, R189) with the data of a write. -/
structure LaneWord where
  stack : Fin 8
  ch : Fin 32
  port : MemPort
  word : DWord
  data : Data2048 := 0
  who : Option SlotRef := none
  ctx : Byte := 0xFF
  /-- Stream position of its first byte, and the slot's epoch when it was issued. -/
  pos : Nat := 0
  epoch : Nat := 0
  /-- Virtual page of the access. -/
  vpn : BitVec 21 := 0
  /-- GEN of the arming that sent it. -/
  gen : Byte := 0
deriving DecidableEq, Repr

/-- One controller (R187 to R196) with its counters (R206). -/
structure Chan where
  /-- The read buffer of the real-time port: words that wait to enter its conduit; and the words of its write buffer whose
  request has not been accepted (R194). -/
  rbuf : List (CWord × LaneNote) := []
  wdata : List CWord := []
  queue : List MemReq := []
  inflight : List MemReq := []
  /-- Open row of each bank, by 16 × pseudo-channel + bank; unlisted banks are closed. -/
  openRows : Tbl Nat := []
  /-- Tick at which the idle timer of each open bank expires (R192). -/
  rowDue : Tbl Nat := []
  /-- Per-bank refreshes due, postponed, and due with no postponement left, by pseudo-channel (R195). -/
  due : Vector Nat 2 := Vector.replicate 2 0
  postponed : Vector Nat 2 := Vector.replicate 2 0
  urgent : Vector Nat 2 := Vector.replicate 2 0
  /-- The real-time port is in panic for its read buffer, or for its write buffer (R194). -/
  panicRd : Bool := false
  panicWr : Bool := false
  rd : DWord := 0
  wr : DWord := 0
  rmw : Word := 0
  rowMiss : Word := 0
  firstFail : Word := 0
  rereadOk : Word := 0
  rereadFail : Word := 0
  panicCnt : Word := 0
  refPostponed : Word := 0
  rawWait : Word := 0
  badReq : Word := 0
deriving DecidableEq, Repr

/-- One memory stack (R186, R202, R205). -/
structure Stack where
  st : BitVec 2 := 0
  cause : BitVec 3 := 0
  attempts : BitVec 2 := 0
  step : BitVec 4 := 0
  temp : Byte := 0
  hot : Bool := false
  hotNow : Bool := false
  tempMax : Byte := 0
  idle : BitVec 10 := 0x040
  postMax : BitVec 4 := 4
  low : BitVec 7 := 0x10
  high : BitVec 7 := 0x20
  rows : BitVec 18 := 0
  ch : Vector Chan 32 := Vector.replicate 32 {}
  eps : Vector Endpoint 32 := Vector.replicate 32 {}
deriving DecidableEq, Repr

/-! ### Links -/

/-- What a port's transmitter has put on the line, oldest first. -/
inductive LineItem where
  | flit (f : Data2048)
  | ctl (b : Data256)
  /-- A training frame on one lane, with the state of the PRBS13 that fills it (R212). -/
  | frame (lane : Fin 4) (control status check : BitVec 16) (fill : BitVec 31)
  /-- PAM4 symbols of a test pattern on one lane (R216). -/
  | prbs (lane : Fin 4) (symbols : List (Fin 4))
deriving DecidableEq, Repr

/-- Port states (R226). -/
inductive PortState where
  | off | down | training | linked | admitted | degraded | retrain | disabled | test
deriving DecidableEq, Repr

/-- One lane of a port (R213, R216, R233). -/
structure Lane where
  cm3 : BitVec 4 := 0
  cm2 : BitVec 4 := 2
  cm1 : BitVec 6 := -8
  cp1 : BitVec 6 := -4
  c0 : BitVec 7 := 50
  rxReady : Bool := false
  partnerReady : Bool := false
  /-- Frames received and frames sent that carried RX_READY, and good frames received in a row (R214). -/
  readyFrames : Nat := 0
  sentReady : Nat := 0
  goodFrames : Nat := 0
  /-- The STATUS field of the next frame, and the PRBS13 that fills it (R212). -/
  answer : BitVec 16 := 0
  fillState : BitVec 31 := 0
  phys : BitVec 2 := 0
  inverted : Bool := false
  skew : Byte := 0
  eyeH : Byte := 0
  eyeW : Byte := 0
  eyeMinH : Byte := 0x0C
  eyeMinW : Byte := 0x20
  gen : BitVec 3 := 0
  chk : BitVec 3 := 0
  inv : Bool := false
  locked : Bool := false
  prbsState : BitVec 31 := 0
  /-- The tap or preset request that awaits its answer (R214 step 3). -/
  asked : BitVec 10 := 0
  /-- Marker count of the last ALIGN block (R211). -/
  mark : Option (BitVec 16) := none
  /-- Tick of the last ALIGN block (R211). -/
  lastMark : Nat := 0
  /-- State of the PRBS generator, and of its sequence where a near-end loop has brought it to the checker (R215, R216). -/
  genState : BitVec 31 := 0
  loopState : BitVec 31 := 0
  errs : BitVec 48 := 0
  bits : DWord := 0
deriving DecidableEq, Repr

/-- Counters of a port (R232). -/
structure PortCnt where
  txFlits : DWord := 0
  rxFlits : DWord := 0
  fecCorr : DWord := 0
  fecUncorr : Word := 0
  crcErr : Word := 0
  nackTx : Word := 0
  replay : Word := 0
  dup : Word := 0
  viol : Word := 0
  filterDrop : Word := 0
  preadmitDrop : Word := 0
  authFail : Word := 0
  retrains : Word := 0
  fillDel : Word := 0
  fillIns : Word := 0
  ctlBad : Word := 0
deriving DecidableEq, Repr

/-- One link port (R208 to R233). -/
structure Port where
  en : Bool := true
  admitOn : Bool := false
  conf : Bool := false
  encrypt : Bool := false
  loop : BitVec 2 := 0
  medium : Bool := false
  /-- The medium in use since the last full training. -/
  mediumNow : Bool := false
  st : PortState := .down
  authDone : Bool := false
  cause : BitVec 3 := 0
  event : BitVec 9 := 0
  txId : BitVec 16 := 0
  rxId : BitVec 16 := 0
  rtt : BitVec 16 := 0
  partner : DWord := 0
  partnerPort : BitVec 4 := 0
  presPeriod : BitVec 16 := 0x061B
  creditTo : BitVec 24 := 0x02625A
  errMax : BitVec 16 := 0x0040
  errWindow : BitVec 24 := 0x02625A
  retrainMax : BitVec 4 := 4
  violMax : Byte := 0x10
  minSvn : Byte := 0
  cnt : PortCnt := {}
  permit : Vector Word 32 := Vector.replicate 32 0
  lanes : Vector Lane 4 := Vector.replicate 4 {}
  eps : Vector Endpoint 8 := Vector.replicate 8 {}
  -- training
  step : Nat := 0
  /-- Tick from which the time limit of the step counts (R214). -/
  stepSince : Nat := 0
  attempts : Nat := 0
  afterFast : Bool := false
  /-- Steps 7 and 8 of training: this side's LINK_ID is chosen, the partner's is held, the round trip is
  measured, a PRES block has arrived (R214). -/
  linkUpTx : Bool := false
  linkUpRx : Bool := false
  rttOk : Bool := false
  /-- When the RTT_REQ that awaits its answer left. -/
  rttSince : Option Nat := none
  /-- Number of the last RTT_REQ sent (R217). -/
  rttNum : BitVec 16 := 0
  presOk : Bool := false
  prev : PortState := .down
  downSince : Nat := 0
  retrainSince : Nat := 0
  /-- Times of fast retrains, newest first (R230). -/
  retrainLog : List Nat := []
  errLog : List Nat := []
  violLog : List Nat := []
  -- presence and admission
  lastPres : Nat := 0
  lastPresSent : Nat := 0
  partnerBeat : Option DWord := none
  admittedIdent : Option DWord := none
  -- sequence, replay and credits (R221 to R224)
  txSeq : BitVec 12 := 0
  rxNext : BitVec 12 := 0
  replayBuf : List Data2048 := []
  resend : List Data2048 := []
  /-- The contexts for which flits of the replay buffer were sent, by SEQ (R367). -/
  sentFor : List (BitVec 12 × Byte) := []
  /-- Flits waiting to be sent: the port a forwarded one arrived on, none for one of this device (R23). -/
  txq : List (Option (Fin 12) × Data2048) := []
  /-- Bytes of each conduit endpoint that wait for their flit, and received ones that wait for their word. -/
  txBytes : Vector (List Byte) 8 := Vector.replicate 8 []
  rxBytes : Vector (List Byte) 8 := Vector.replicate 8 []
  /-- Of the received bytes, how many belong to each flit, oldest first. -/
  rxLens : Vector (List Nat) 8 := Vector.replicate 8 []
  /-- Flits that occupy a receive buffer, by virtual channel (R221). -/
  held : Vector Nat 4 := Vector.replicate 4 0
  credits : Vector Nat 4 := Vector.replicate 4 0
  owed : Vector Nat 4 := Vector.replicate 4 0
  starved : Vector (Option Nat) 4 := Vector.replicate 4 none
  ackDue : Bool := false
  nackDue : Bool := false
  nackSince : Option Nat := none
  rewind : Option (BitVec 12 × Nat) := none
  /-- Flit slots since a VC 2 flit, slots since any flit, flits since a FILL. -/
  sinceVc2 : Nat := 0
  sinceFlit : Nat := 0
  sinceFill : Nat := 0
  replaysInBeat : Nat := 0
  -- authentication (R228, R229)
  authStart : Option Nat := none
  authStep : Nat := 0
  /-- The ephemeral secret, and the AUTH payloads of each step: this side's and the partner's. -/
  authSecret : BitVec 384 := 0
  authMine : Vector (List Byte) 3 := Vector.replicate 3 []
  authTheirs : Vector (List Byte) 3 := Vector.replicate 3 []
  txKey : BitVec 256 := 0
  txSalt : BitVec 32 := 0
  rxKey : BitVec 256 := 0
  rxSalt : BitVec 32 := 0
  txIv : DWord := 0
  rxIv : DWord := 0
  sent : List LineItem := []
  /-- Blocks sent since the transmitter switched to blocks, and blocks to come of an uncorrectable codeword (R209). -/
  txBlocks : Nat := 0
  badLeft : Nat := 0
  /-- What a near-end loop has yet to bring to the port's receiver (R215). -/
  loopq : List LineItem := []
  /-- NACKs that arrived during a fast retrain, oldest first (R231). -/
  heldNack : List Data2048 := []
  /-- Blocks of the codeword that is being filled, how many codewords have gone since the transmitter switched to blocks,
  and the codewords on the line: lane and bits (R209). -/
  lineTail : List (Bool × Data256) := []
  lineNo : Nat := 0
  line : List (Fin 4 × BitVec 5440) := []
deriving DecidableEq, Repr

/-! ### Fabric -/

/-- A request to a peer that awaits its answer: tag, and the tick it was sent (R239, R256, R286). -/
structure Awaited where
  tag : Word
  since : Nat
  cmd : Nat := 0
  slot : Option SlotRef := none
  /-- The context whose stream asks. -/
  ctx : Option Byte := none
  len : Nat := 0
  write : Bool := false
  /-- The slot's epoch when the request left, and the page it names. -/
  epoch : Nat := 0
  vpn : BitVec 21 := 0
deriving DecidableEq, Repr

/-- The FAB block (R259), delivered flits awaiting their handler, and requests to peers. -/
structure Fab where
  id : BitVec 10 := 0
  idValid : Bool := false
  uid : BitVec 128
  mgrId : BitVec 10 := 0
  mgrValid : Bool := false
  inPort : BitVec 4 := 0
  inValid : Bool := false
  outMask : BitVec 12 := 0
  delay : BitVec 16 := 0x0100
  src : BitVec 10 := 0
  nextIn : BitVec 4 := 0
  nextInValid : Bool := false
  nextOut : BitVec 12 := 0
  nextArm : Bool := false
  geyserTo : Word := 0x09502F90#32
  probeTo : BitVec 24 := 0x02625A
  event : BitVec 7 := 0
  cfgOut : BitVec 12 := 0
  routeDrop : Word := 0
  probeDrop : Word := 0
  ignored : Word := 0
  miss : Word := 0
  fwdCnt : DWord := 0
  /-- FAB_ROUTE entries by destination. -/
  routes : Tbl (BitVec 52) := []
  /-- Flits delivered to this device and not yet handled: arrival port and flit. -/
  inbox : List (Fin 12 × Data2048) := []
  lastGeyser : Nat := 0
  probesOut : List Awaited := []
  mgmtOut : List Awaited := []
  freeOut : List Awaited := []
  freeTag : BitVec 16 := 0
  /-- REG_RSP payloads, MCTP packets and event records received, oldest first. -/
  mgmtIn : List (BitVec 1920) := []
  /-- The register access that the management controller performs (R256). -/
  job : Option MgJob := none
deriving DecidableEq, Repr

/-! ### Command processor -/

/-- A submission ring (R269). -/
structure SqRing where
  base : DWord := 0
  en : Bool := false
  log2 : BitVec 5 := 6
  cq : BitVec 6 := 0
  part : BitVec 4 := 8
  head : BitVec 16 := 0
  tail : BitVec 16 := 0
  dbErr : Bool := false
deriving DecidableEq, Repr

/-- A completion ring (R269). -/
structure CqRing where
  base : DWord := 0
  en : Bool := false
  log2 : BitVec 5 := 6
  vector : BitVec 7 := 0
  irqAll : Bool := false
  head : BitVec 16 := 0
  tail : BitVec 16 := 0
  phase : Bool := true
  dbErr : Bool := false
deriving DecidableEq, Repr

/-- Where a command stands (R271, R274, R276). -/
inductive CmdPhase where
  | submitted | fetched | started
  /-- Completed once with STREAM_FAULT or PLAN_SUSPENDED; its work is suspended and keeps the tag (R271). -/
  | suspended
  | finished
deriving DecidableEq, Repr

/-- An outstanding command (R271): its ring and slot, and its packet: the one that stood in its slot at the doorbell,
and from the fetch on the one that was read. -/
structure Cmd where
  serial : Nat
  ring : Fin 64
  slot : BitVec 16
  packet : Data1024 := 0
  phase : CmdPhase := .submitted
  /-- Tick at which the command started. -/
  startedAt : Nat := 0
  /-- How many commands started before it (R390). -/
  startNo : Nat := 0
  /-- Its effect has begun and a later event completes it. -/
  begun : Bool := false
  /-- An ATTEST that is held before its start (R379), and the tick since which it is. -/
  heldSince : Option Nat := none
  /-- Device memory addresses of the frames that an UNMAP_PAGES released and has yet to zero (R148). -/
  released : List Nat := []
deriving DecidableEq, Repr

/-- A completion that has arisen (R273). -/
structure Completion where
  cq : Fin 64
  serial : Nat
  ring : Fin 64
  tag : Word
  status : BitVec 16
  ctx : Byte
  detail : Word := 0
  result0 : Word := 0
  result1 : DWord := 0
  beat : DWord
  irq : Bool
  /-- For an ABORT, its target: the target's completion is written first (R291). -/
  after : Option Nat := none
deriving DecidableEq, Repr

/-- What the device sends to the host over PCIe, oldest first. -/
inductive PcieOut where
  /-- A memory write with its No Snoop and Relaxed Ordering attributes (R146). -/
  | write (addr : DWord) (bytes : List Byte) (ns rlx : Bool)
  /-- A memory read under a host window with its attributes; its completion comes with the same event (R146). -/
  | read (addr : DWord) (len : Nat) (ns rlx : Bool)
  | msix (vector : BitVec 7)
  /-- The answer to a host read. -/
  | readData (bytes : List Byte)
  /-- Unsupported Request, the answer to a host read of BAR0 of another size or alignment (R261). -/
  | unsupported
  /-- The status of a control-network access that the host issued (R302). -/
  | accessStatus (status : Byte)
  | doe (object : List Byte)
deriving DecidableEq, Repr

/-- The command processor. -/
structure CmdProc where
  sq : Vector SqRing 64 := Vector.replicate 64 {}
  cq : Vector CqRing 64 := Vector.replicate 64 {}
  ember : Bool := true
  ideActive : Bool := false
  fwOpen : Bool := false
  bar4Ctx : Byte := 0
  bar4Base : Byte := 0
  bar4En : Bool := false
  bar4Fail : Bool := false
  bar4Cause : BitVec 4 := 0
  bar4Vpn : BitVec 21 := 0
  cmds : List Cmd := []
  nextSerial : Nat := 0
  /-- Commands started so far. -/
  starts : Nat := 0
  waiting : List Completion := []
  /-- Completed tags, newest first: context of the tag space and tag (R290). -/
  recent : List (Byte × Word) := []
  streams : Vector Stream 32 := Vector.replicate 32 {}
  wdog : BitVec 16 := 0x03E8
  memId : Nat := 0
  out : List PcieOut := []
deriving DecidableEq, Repr

/-! ### Plans -/

/-- Run states of a loaded plan (R117, R153, R253, R284). -/
inductive PlanRun where
  /-- Loaded, its run not started. -/
  | loaded
  /-- Started; it waits for its calderas or its start beat. -/
  | waiting
  | running
  /-- The plan beat has stopped at a stop boundary; the wait of R65 runs. -/
  | stopping
  | suspended
deriving DecidableEq, Repr

/-- Why a plan stops (R289): a stream fault, or the PLAN_SUSPENDED reasons 1 to 5. -/
inductive StopReason where
  | streamFault | remote | geyserLost | fmtErr | dsp | preempt
deriving DecidableEq, Repr

/-- A plan resident or switched out on this device (R283, R363). -/
structure Plan where
  handle : PlanId
  ctx : Byte
  fplan : BitVec 16 := 0
  devices : Nat := 1
  pFloor : BitVec 16 := 850
  cals : DWord := 0
  beats : Nat := 1
  run : PlanRun := .loaded
  /-- The plan beat in progress. -/
  beat : Nat := 0
  /-- Start or resume beat; none when the next boundary starts it. -/
  start : Option DWord := none
  resuming : Bool := false
  resident : Bool := true
  /-- Command that carries the run: RUN_PLAN or RESUME. -/
  cmd : Option Nat := none
  /-- The RUN_PLAN that started the work: its tag names the work while it is suspended (R271, R285). -/
  work : Option Nat := none
  stop : Option StopReason := none
  /-- The next boundary that opens is the plan's stop boundary (R67, R254). -/
  stopDue : Bool := false
  /-- Caldera whose condition caused the stop (R289). -/
  stopCal : BitVec 6 := 0
  /-- The stop boundary B (R65), once it has passed. -/
  stopAt : Option DWord := none
  /-- GLB_PREEMPT_CFG.MAX as it stood at that boundary (R73). -/
  waitMax : Byte := 0
  /-- A stop notice was sent and its pulse is awaited (R254). -/
  noticed : Bool := false
  /-- Conduit setup: BAR0 address and value pairs (section type 4). -/
  conduits : List (Word × Word) := []
  /-- Fused chains: header and stage records (R156). -/
  chains : List (BitVec 128 × List (BitVec 256)) := []
  /-- INLINE result: host buffer, caldera, SRAM address, length (R282). -/
  inlineRes : Option (DWord × Fin 64 × BitVec 24 × BitVec 24) := none
  /-- A RUN_PLAN of another context with PREEMPT needs its calderas (R364). -/
  evict : Bool := false
  /-- Calderas in the save area while switched out (R365), and the word counts of the gateway endpoints of its
  conduits (R324). -/
  saved : List (Fin 64 × Caldera) := []
  savedGw : List (Fin 16 × Fin 16 × BitVec 41) := []
deriving DecidableEq, Repr

/-! ### Programmable logic and configuration -/

/-- A gateway endpoint of a region (R320, R329). -/
structure GwEp where
  net : BitVec 4 := 0
  used : Bool := false
  pos : BitVec 41 := 0
  /-- Word count at the end of the last completed arming (R324). -/
  armBase : BitVec 41 := 0
  inBuf : List CWord := []
  outBuf : List CWord := []
  ep : Endpoint := {}
deriving DecidableEq, Repr

/-- One logic region (R309 to R329, R345). -/
structure Region where
  cfg : BitVec 3 := 0
  digest : BitVec 384 := 0
  clkFault : Bool := false
  resync : Bool := false
  /-- Restart positions presented and not yet taken (R324). -/
  restarts : List (Fin 16 × BitVec 41) := []
  gw : Vector GwEp 16 := Vector.replicate 16 {}
  /-- The contexts that own the region, the one whose load came last first (R366). -/
  owners : List Byte := []
  /-- Requests handed to the user logic and not yet answered: header and data. -/
  handed : List (Word × Data256) := []
  /-- Packets received and not yet handled by the gateway. -/
  rxq : List (Word × Data256) := []
  /-- GW_BEAT_LO at the last boundary (R322). -/
  beatLo : BitVec 16 := 0
  /-- GW_BEAT of each endpoint: high from a beat boundary through the next edge of the endpoint's net (R322). -/
  gwBeat : BitVec 16 := 0
  /-- The endpoints whose plan is suspended, as the logic sees them since the last tick (R324). -/
  paused : BitVec 16 := 0
  /-- Flip-flops hold INIT and are held there (R340, R341). -/
  initHeld : Bool := true
  /-- The flip-flops: FFA of cell c at bit 2c, FFB at bit 2c + 1 (R309, R312). -/
  ffs : BitVec 196608 := 0
  /-- The block memories by number (R309, R314). -/
  mems : Tbl MemState := []
deriving DecidableEq, Repr

/-- One PLL (R317 to R319). -/
structure Pll where
  cfg : Word := 0
  outDiv : Word := 0
  locked : Bool := false
  unlock : Bool := false
  lockedOnce : Bool := false
  /-- How far each output stands in its clock cycle, in units of 1 / (D × O × 156,250,000) of a cycle (R317; log 87). -/
  phase : Vector Nat 4 := Vector.replicate 4 0
deriving DecidableEq, Repr

/-- A configuration load in progress (R338 to R348). -/
structure Load where
  full : Bool
  region : Fin 16
  /-- 0 PCIe, 1 forwarded, 2 flash. -/
  source : BitVec 2
  cmd : Option Nat := none
  length : Nat
  frames : Nat := 0
  masks : List Data1024 := []
  ranges : List (Word × Word) := []
  plls : List (Word × Word) := []
  digest : BitVec 384 := 0
  /-- Offset of the first frame record in the container. -/
  base : Nat := 0
  /-- Container bytes from offset 0x100 on, in arrival order (the body, R335), and the bytes received in all. -/
  body : List Byte := []
  got : Nat := 0
  /-- Frame records seen and applied on this device. -/
  seen : Nat := 0
  applied : Nat := 0
  /-- The point of no return has passed (R340). -/
  past : Bool := false
  /-- Staged GLOBAL frames of a full load (R340). -/
  staged : Tbl (BitVec 4096) := []
  touched : BitVec 16 := 0
  /-- The local outcome while a forwarding goes on: status, check and offset (R346). -/
  outcome : Option (Nat × Nat × Nat) := none
  forward : Bool := false
  /-- Bytes that wait for their packet, stream number, next SEQ, and tick of the last packet (R346, R347). -/
  out : List Byte := []
  stream : BitVec 16 := 0
  seq : Word := 0
  lastTick : Nat := 0
deriving DecidableEq, Repr

/-- The configuration controller and the CFG block (R330 to R358). -/
structure Cfg where
  /-- Frame data and check bits by frame address; unlisted frames read as zero. -/
  frames : Tbl (BitVec 4096) := []
  checks : Tbl (BitVec 14) := []
  /-- The reference store: GLOBAL frames by frame address, and the frames of the hardened blocks by `refBase` (R349,
  R353); and the frames in which a double error has been found, until a cold reset (R351). -/
  refStore : Tbl (BitVec 4096) := []
  refChecks : Tbl (BitVec 14) := []
  refBad : List Word := []
  /-- What the sweep in progress has checked, and the regions that have entered LOADING during it (R349, R352). -/
  covered : List Nat := []
  skipped : BitVec 16 := 0
  load : Option Load := none
  /-- The forwarded stream that is being received: its number, bytes not yet split into records, next SEQ and
  tick of its last packet (R347). -/
  fwd : List Byte := []
  fwdOpen : Option (BitVec 16) := none
  fwdSeq : Word := 0
  fwdTick : Nat := 0
  lastStatus : BitVec 16 := 0
  lastCheck : Byte := 0
  lastSource : BitVec 2 := 0
  lastFrames : Word := 0
  lastOffset : Word := 0
  cfgInPort : BitVec 4 := 0
  cfgInValid : Bool := false
  cfgInId : BitVec 10 := 0
  streamTo : BitVec 24 := 0x02625A
  inDrop : Word := 0
  event : BitVec 8 := 0
  boot : BitVec 10 := 0xC3
  outId : Vector (BitVec 10) 12 := Vector.replicate 12 0
  scrubEn : Bool := true
  isolateDed : Bool := true
  sweeps : Word := 0
  sbeCnt : Word := 0
  dedCnt : Word := 0
  sbeLast : Word := 0
  dedLast : Word := 0
  hardCnt : Word := 0
  hardLast : BitVec 17 := 0
  hardClean : DWord := 0
  hardReload : DWord := 0
  fullDigest : BitVec 384 := 0
  /-- Golden signatures of the hardened blocks (R353), by kind × 64 + unit. -/
  golden : Tbl (BitVec 384) := []
  cleanConduit : Vector DWord 2 := Vector.replicate 2 0
  chk : Vector Chk 2 := Vector.replicate 2 {}
  /-- The last CFG packet's answer: segment data or SCRUB outcome (R333). -/
  answer : BitVec 128 := 0
deriving DecidableEq, Repr

/-! ### Security -/

/-- One partition (R359, R383). -/
structure Part where
  cals : DWord := 0
  stackMask : Byte := 0
  regions : BitVec 16 := 0
  valid : Bool := false
  ports : BitVec 12 := 0
  first : BitVec 18 := 0
  last : BitVec 18 := 0
  resetting : Bool := false
deriving DecidableEq, Repr

/-- One context (R362, R363). -/
structure Ctx where
  part : Fin 8
  conf : Bool := false
  scrubbing : Bool := false
  /-- Serial number of the next command when the context entered SCRUBBING: an ABORT before it has its own outcome
  (R292). -/
  scrubFrom : Nat := 0
  modelKey : Option (BitVec 256) := none
  xtsKey : BitVec 512 := 0
  /-- Save-area frames: stack and frame (R365). -/
  saveArea : List (Fin 8 × Nat) := []
  /-- Calderas, regions and frames were counted for a scrub that is in progress. -/
  ember : Bool := false
deriving DecidableEq, Repr

/-- A scrub (R367 to R369): of one context, or of a partition's contexts. -/
structure Scrub where
  ctxs : List Byte
  part : Option (Fin 8)
  cmd : Option Nat
  /-- Start boundary and tick, once started, and the budget T in ns. -/
  startBeat : Option DWord := none
  startTick : Nat := 0
  budget : Nat := 0
  /-- Boundaries since the one at which it started (R368). -/
  beats : Nat := 0
  /-- The partition of the contexts (R371). -/
  home : Option (Fin 8) := none
  /-- Calderas that the contexts held when the scrub started, the stacks with their frames, and whether it blanks
  regions. -/
  cals : DWord := 0
  onStacks : Byte := 0
  blanks : Bool := false
  /-- Its work was not finished when the budget had passed (R369). -/
  late : Bool := false
deriving DecidableEq, Repr

/-- The SEC block and the keys of the device's identity (R377 to R383). -/
structure Sec where
  lifecycle : BitVec 3
  svn : Nat
  debugUsed : Bool := false
  event : BitVec 4 := 0
  refuseCnt : Word := 0
  lastRefuse : BitVec 16 := 0
  lastRefuseCtx : Byte := 0
  scrubBudget : DWord := 0
  scrubBeats : Word := 0
  keySlots : Byte := 1
  ownerKeys : Vector (BitVec 768) 8 := Vector.replicate 8 0
  parts : Vector Part 8 := Vector.replicate 8 {}
  /-- Contexts by ID. -/
  ctxs : Tbl Ctx := []
  scrubs : List Scrub := []
  /-- Nonces of the last 16 attestation reports, newest first (R374). -/
  nonces : List (BitVec 256) := []
  /-- Layer secrets CDI1 and CDI2 of this boot and the digests measured (R377). -/
  cdi1 : BitVec 384 := 0
  cdi2 : BitVec 384 := 0
  digests : Vector (BitVec 384) 3 := Vector.replicate 3 0
deriving DecidableEq, Repr

/-! ### Power, bring-up and management -/

/-- One rail as last read over AVSBus (R409, R411). -/
structure Rail where
  mv : BitVec 16 := 0
  current : BitVec 16 := 0
  /-- Voltage target in mV, rails 0 and 1 only. -/
  target : BitVec 16 := 750
  badSince : Option Nat := none
  /-- A read that had no good answer waits for its second attempt; tick of the last voltage write (R411). -/
  retry : Bool := false
  wrote : Option Nat := none
deriving DecidableEq, Repr

/-- A boot-flash copy of a pointer record: the record in use and where the next goes (R355, R402). -/
structure PtrCopy where
  record : BitVec 128
  half : Bool := false
  used : Nat := 1
deriving DecidableEq, Repr

/-- An operation on the boot flash in progress (R390, R400). -/
inductive FlashOp where
  | eraseSlot (cmd : Nat)
  | programData (cmd : Nat) (data : List Byte)
  | programSetup (cmd : Nat) (copy : Fin 2) (image : BitVec 32768) (tries : Nat)
deriving DecidableEq, Repr

/-- The boot flash (R354): slot contents, pointer copies and setup copies. -/
structure Flash where
  slots : Vector (Option (List Byte)) 3 := Vector.replicate 3 none
  ptrs : Vector PtrCopy 2
  setups : Vector (BitVec 32768) 2
  op : Option FlashOp := none
deriving DecidableEq, Repr

/-- An open firmware update (R400, R401). -/
structure FwUpdate where
  target : Fin 2
  total : Nat
  data : List Byte := []
  lastTick : Nat
deriving DecidableEq, Repr

/-- The PWR block and the management controller (R384 to R405). -/
structure Pwr where
  phase : BitVec 4 := 1
  /-- The work of phase 1 or of phase 8 is done, and the next phase waits for its entry condition (R384, R387). -/
  phaseDone : Bool := false
  setupDefaulted : Bool := false
  setupPending : Bool := false
  capLimiting : Bool := false
  bootFail : Bool := false
  updatePending : Bool := false
  event : BitVec 12 := 0
  cap : BitVec 16 := 1500
  vop : BitVec 10 := 750
  ilim : BitVec 16 := 0x09C4
  ilimEff : BitVec 16 := 0x09C4
  input : BitVec 16 := 0
  tjMax : BitVec 16 := 0
  squallCnt : Word := 0
  setupCopy : BitVec 2 := 3
  copyValid : BitVec 2 := 0
  setupGen : Word := 0
  /-- The setup record in force. -/
  setup : BitVec 32768 := 0
  temps : Vector (BitVec 16) 96 := Vector.replicate 96 0
  evlog : RingLog (BitVec 256) := {}
  rails : Vector Rail 13 := Vector.replicate 13 {}
  /-- Cap control (R397): since when the average exceeds the cap at 0.60 V, and since when it lies
  below 97 % of it. -/
  overSince : Option Nat := none
  underSince : Option Nat := none
  /-- The compute-rail target of the cap control in mV, and the ticks of the last step of the cap control, of the
  limit, and of each die's squall rail step (R397, R398). -/
  capTarget : BitVec 16 := 750
  capAt : Nat := 0
  ilimAt : Nat := 0
  railAt : Vector Nat 2 := Vector.replicate 2 0
  chk : Vector Chk 4 := Vector.replicate 4 {}
  flash : Flash
  update : Option FwUpdate := none
  lastNextDigest : BitVec 384 := 0
  /-- MCTP bridge entries: EID and fabric device ID (R394), and the PLDM event receiver. -/
  eids : Tbl (BitVec 10) := []
  /-- The endpoint ID that the bus owner has assigned (R388, R394). -/
  eid : Byte := 0
  pldmReceiver : Bool := false
  /-- Sideband packets sent, oldest first. -/
  sideband : List (List Byte) := []
  /-- AVSBus voltage writes sent, oldest first: rail and mV. -/
  avsOut : List (Fin 13 × BitVec 16) := []
  /-- The units have stopped raising requests (R399). -/
  tripped : Bool := false
deriving DecidableEq, Repr

/-- The pins that the manual gives a meaning (R407, R408): true is the level high. -/
structure Pins where
  pwrOk : Bool := false
  perstN : Bool := false
  coldRstN : Bool := true
  thermtripN : Bool := true
  /-- The JTAG port answers; false while a scrub holds TDO at high impedance (R370). -/
  tapOn : Bool := true
  tdo : List Word := []
  /-- The values that boundary scan drives, by scan cell (R407). -/
  scanDrive : Option (BitVec 25) := none
deriving DecidableEq, Repr

/-- The state of the block. -/
structure State where
  /-- Commands waiting, first in first out. -/
  pending : List Instr := []
  /-- Ticks of the link reference since power-on (log 2). -/
  now : Nat := 0
  /-- The model's own counter of free values drawn (log 3). -/
  free : Nat := 0
  glb : Glb
  cals : Vector Caldera 64 := Vector.replicate 64 {}
  /-- The stream page table by VPN (R145); unlisted entries read 0. -/
  spt : Tbl DWord := []
  noc : Vector NocDie 2 := Vector.replicate 2 {}
  /-- NOC_RT entries that differ from the reset values of R166. -/
  rt : Tbl (BitVec 13) := []
  ifaces : Tbl Iface := []
  mesh : List NPkt := []
  /-- The access at the fan-out unit whose members have not all answered (R297, R298). -/
  fan : Option FanJob := none
  /-- The PCIe function is in D3hot (R260); no row of the table carries the configuration write that moves it (log 106). -/
  d3hot : Bool := false
  /-- A value of GLB_RESET that acts once the answer to its write has been sent (R306). -/
  resetDue : Option (ResetAfter × Word) := none
  hbmStacks : Vector Stack 8 := Vector.replicate 8 {}
  /-- Request words under way to the controllers, oldest first (R188). -/
  lanes : List LaneWord := []
  /-- Stacked memory as stored, by device memory address (R146). -/
  hbm : Memory := []
  /-- The metadata bits of the 8 bursts of each block, by device memory address [39:8] (R186, R198); a block that is not
  listed has the check of its bytes (R202). -/
  hbmMeta : Tbl (Vector (BitVec 4) 8) := []
  ports : Vector Port 12 := Vector.replicate 12 {}
  fab : Fab
  cp : CmdProc := {}
  plans : List Plan := []
  regions : Vector Region 16 := Vector.replicate 16 {}
  plls : Vector Pll 8 := Vector.replicate 8 {}
  cfg : Cfg := {}
  sec : Sec
  pwr : Pwr
  pins : Pins := {}
deriving DecidableEq, Repr

/-- The fused floor pace: at least 850 M steps/s (R17). -/
def floorPaceFused : BitVec 16 :=
  if Config.fusedFloor.toNat < 850 then 850 else Config.fusedFloor

/-- The fused lifecycle state: one of the states of R380. -/
def lifecycleFused : BitVec 3 :=
  if 1 ≤ Config.fusedLifecycle.toNat ∧ Config.fusedLifecycle.toNat ≤ 4 then Config.fusedLifecycle else 2

/-- The fused security version: 0 to 128 (R382). -/
def svnFused : Nat := min 128 Config.fusedSvn

/-- The machine right after a power-on cold reset: every register at its reset value (R305), bring-up
in phase 1 (R384), the boot flash as delivered. -/
def State.reset : State :=
  { glb := { floorPace := floorPaceFused }
    fab := { uid := Config.fusedUid }
    sec := { lifecycle := lifecycleFused, svn := svnFused }
    pwr :=
      { flash :=
          { ptrs := Vector.ofFn (fun i : Fin 2 => { record := Config.deliveredPointer i.val })
            setups := Vector.ofFn (fun i : Fin 2 => Config.deliveredSetup i.val) } } }

end Sys2Proof.Machine
end

