-- ==== Sys2Proof/Machine/Identity.lean ====
section
/-! DEFINITION. The device's layered identity: layer secrets, key pairs and the certificate chain (R377; log 6). -/

namespace Sys2Proof.Machine

/-- A layer secret of R377: HKDF-SHA-384 from the outer secret, with what it binds as info (log 6). -/
def layerSecret (outer : BitVec 384) (bound : List Byte) : BitVec 384 := ofBytes 384 (hkdf384 (toBytes outer 48) [] bound 48)

/-- The private keys of the layers: Attestation and key exchange of the command processor, Alias of stage one. -/
def Sec.attestationKey (c : Sec) : Nat := privateKey c.cdi2 (Config.keyPurpose 2)
def Sec.exchangeKey (c : Sec) : Nat := privateKey c.cdi2 (Config.keyPurpose 3)
def Sec.aliasKey (c : Sec) : Nat := privateKey c.cdi1 (Config.keyPurpose 1)
def deviceKey : Nat := privateKey Config.uniqueDeviceSecret (Config.keyPurpose 0)

/-- A certificate of a purpose for a subject's private key, signed by its issuer's. -/
def issueCert (purpose issuer subject : Nat) (ext : List Byte) : List Byte :=
  let body := Config.certBody purpose (publicKey subject) ext
  Config.certDer body (ecdsaSign issuer (sha384 body))

/-- The chain of R378: DeviceID, Alias with its extensions, Attestation and key exchange. -/
def Sec.certChain (c : Sec) : List Byte :=
  Config.deviceCertificate
  ++ issueCert 1 deviceKey c.aliasKey (toBytes c.digests[(0 : Fin 3)] 48 ++ [BitVec.ofNat 8 c.svn] ++ toBytes c.lifecycle 1)
  ++ issueCert 2 c.aliasKey c.attestationKey []
  ++ issueCert 3 c.aliasKey c.exchangeKey []

/-- A certificate's signature verifies under a key. -/
def certSigned (key : BitVec 768) (c : Config.Certificate) : Bool := ecdsaVerify key (sha384 c.body) c.sig

/-- A chain verified to the fused Dorseken root: the unique identity that DeviceID certifies, the security version of Alias
and the Attestation key (R228). -/
def chainVerify (b : List Byte) : Option (BitVec 128 × Byte × BitVec 768) :=
  match Config.certParse b with
  | some (dev :: al :: att :: _) =>
    if Config.dorsekenIssuers.any (fun k => certSigned k dev) && certSigned dev.key al && certSigned al.key att then
      some (dev.uid, al.svn, att.key) else none
  | _ => none

/-- The private key of an ephemeral secret. -/
def ephemeralKey (secret : BitVec 384) : Nat := secret.toNat % (p384N - 1) + 1

/-- A public key as an uncompressed point of 97 bytes (R374). -/
def pointOut (key : BitVec 768) : List Byte := 4 :: toBytes key 96

/-- The public key of an uncompressed point; none where the bytes are no point of the curve. -/
def pointIn (b : List Byte) : Option (BitVec 768) :=
  let key : BitVec 768 := ofBytes 768 (slice b 1 96)
  if b.length = 97 ∧ b.head? = some 4 ∧ onP384 key then some key else none

/-- The wrap key of R374: ECDH with the key-exchange key, then HKDF-SHA-384 with the wrapped key's bytes as info. -/
def Sec.wrapKey (c : Sec) (point info : List Byte) : BitVec 256 :=
  beBits 256 (hkdf384 ((pointIn point).elim [] (ecdhShared c.exchangeKey)) [] info 32)

/-- The keys and salts of both directions from a shared secret and the transcript hash as salt: those of the side with the
lower unique identity first (R228 step 5; log 25). -/
def linkKeys (shared : List Byte) (salt : BitVec 384) : (BitVec 256 × BitVec 32) × (BitVec 256 × BitVec 32) :=
  let b := hkdf384 shared (toBytes salt 48) [] 72
  ((beBits 256 (slice b 0 32), ofBytes 32 (slice b 64 4)), (beBits 256 (slice b 32 32), ofBytes 32 (slice b 68 4)))

end Sys2Proof.Machine
end

