-- ==== Sys2Proof/Machine/Crc.lean ====
section
/-! DEFINITION. CRC-32C as the links, the memory and the records use it, and the general CRC engine of
the check units. -/

namespace Sys2Proof.Machine

/-- One bit step of CRC-32C in its reflected form (polynomial 0x1EDC6F41 reversed). -/
def crcBit (c : Word) : Word := if c.getLsbD 0 then (c >>> 1) ^^^ 0x82F63B78#32 else c >>> 1

/-- One byte fed to CRC-32C. -/
def crcByte (c : Word) (b : Byte) : Word :=
  crcBit (crcBit (crcBit (crcBit (crcBit (crcBit (crcBit (crcBit (c ^^^ b.setWidth 32))))))))

/-- CRC-32C of a byte sequence: initial value and final XOR all ones (R118). -/
def crc32c (bs : List Byte) : Word := ~~~(bs.foldl crcByte 0xFFFFFFFF#32)

/-- The parameters of a CRC of width 1 to 64 (R118). -/
structure CrcParam where
  width : Nat
  poly : Nat
  init : Nat
  xorout : Nat
  refin : Bool
  refout : Bool
deriving DecidableEq, Repr

/-- The low `w` bits of a number in reverse order. -/
def revBits (w v : Nat) : Nat :=
  (List.range w).foldl (fun a i => if v.testBit i then a + 2 ^ (w - 1 - i) else a) 0

/-- One bit fed to a CRC register, most significant end first. -/
def crcGenBit (p : CrcParam) (reg : Nat) (bit : Bool) : Nat :=
  let top := reg.testBit (p.width - 1)
  let sh := (reg * 2) % 2 ^ p.width
  if top != bit then sh ^^^ p.poly else sh

/-- One byte fed to a CRC register, its bits in the order REFIN states. -/
def crcGenByte (p : CrcParam) (reg : Nat) (b : Byte) : Nat :=
  let order := if p.refin then List.range 8 else (List.range 8).reverse
  order.foldl (fun r i => crcGenBit p r (b.getLsbD i)) reg

/-- The CRC value of a register: reflected where REFOUT says so, then XORed. -/
def crcGenFinal (p : CrcParam) (reg : Nat) : Nat :=
  (if p.refout then revBits p.width reg else reg) ^^^ p.xorout

end Sys2Proof.Machine
end

