-- ==== Sys2Proof/Machine/NumFmt.lean ====
section
/-! DEFINITION. Number formats, exact values and rounding (R74 to R88). -/

namespace Sys2Proof.Machine

/-- An exact value: a NaN, an infinity, or (−1)^neg · m · 2^e, where a zero keeps its sign. -/
inductive Num where
  | nan
  | inf (neg : Bool)
  | fin (neg : Bool) (m : Nat) (e : Int)
deriving DecidableEq, Repr

/-- How a format uses its top exponent field (R75). -/
inductive Special where
  /-- Infinity and NaN at the top exponent. -/
  | ieee
  /-- One NaN code, no infinity (E4M3). -/
  | e4m3
  /-- No special code. -/
  | none
  /-- Two's complement (MXINT8). -/
  | int
deriving DecidableEq, Repr

/-- A format of R74 to R76: its fields, bias, threshold T as `tm · 2^te`, largest finite code and emax. -/
structure Fmt where
  width : Nat
  mbits : Nat
  bias : Nat
  special : Special
  tm : Nat
  te : Int
  maxCode : Nat
  nanCode : Nat
  emax : Int
  mx : Bool
deriving DecidableEq, Repr

def fE4M3 : Fmt := ⟨8, 3, 7, .e4m3, 464, 0, 0x7E, 0x7F, 8, true⟩
def fE5M2 : Fmt := ⟨8, 2, 15, .ieee, 61440, 0, 0x7B, 0x7E, 15, true⟩
def fE3M2 : Fmt := ⟨6, 2, 3, .none, 30, 0, 0x1F, 0, 4, true⟩
def fE2M3 : Fmt := ⟨6, 3, 1, .none, 31, -2, 0x1F, 0, 2, true⟩
def fE2M1 : Fmt := ⟨4, 1, 1, .none, 7, 0, 0x7, 0, 2, true⟩
def fINT8 : Fmt := ⟨8, 6, 0, .int, 255, -7, 0x7F, 0, 0, true⟩
def fBF16 : Fmt := ⟨16, 7, 127, .ieee, 511, 119, 0x7F7F, 0x7FC0, 0, false⟩
def fFP16 : Fmt := ⟨16, 10, 15, .ieee, 65520, 0, 0x7BFF, 0x7E00, 0, false⟩
def fFP32 : Fmt := ⟨32, 23, 127, .ieee, 33554431, 103, 0x7F7FFFFF, 0x7FC00000, 0, false⟩

/-- The format of a 4-bit format code, none for a reserved code (R45). -/
def fmtOf (c : Nat) : Option Fmt :=
  if c = 0 then some fE4M3 else if c = 1 then some fE5M2 else if c = 2 then some fE3M2
  else if c = 3 then some fE2M3 else if c = 4 then some fE2M1 else if c = 5 then some fINT8
  else if c = 8 then some fBF16 else if c = 9 then some fFP16 else if c = 10 then some fFP32
  else none

/-- The exponent of the smallest normal value (R75). -/
def Fmt.emin (f : Fmt) : Int := 1 - (f.bias : Int)

/-- Exponent and mantissa field of a code. -/
def Fmt.expField (f : Fmt) (c : Nat) : Nat := (c % 2 ^ (f.width - 1)) / 2 ^ f.mbits
def Fmt.manField (f : Fmt) (c : Nat) : Nat := c % 2 ^ f.mbits
def Fmt.signBit (f : Fmt) (c : Nat) : Bool := (c % 2 ^ f.width) / 2 ^ (f.width - 1) == 1
/-- The all-ones exponent field. -/
def Fmt.expTop (f : Fmt) : Nat := 2 ^ (f.width - 1 - f.mbits) - 1

/-- The value of a code (R75). -/
def Fmt.value (f : Fmt) (c : Nat) : Num :=
  let e := f.expField c
  let m := f.manField c
  let s := f.signBit c
  let plain : Num :=
    if e = 0 then .fin s m (f.emin - f.mbits)
    else .fin s (m + 2 ^ f.mbits) ((e : Int) - f.bias - f.mbits)
  match f.special with
  | .ieee => if e = f.expTop then (if m = 0 then .inf s else .nan) else plain
  | .e4m3 => if e = f.expTop ∧ m = 7 then .nan else plain
  | .none => plain
  | .int =>
    let v := c % 256
    if v < 128 then .fin false v (-6) else .fin true (256 - v) (-6)

/-- Whether a code is a nonzero subnormal (R87); MXINT8 has none. -/
def Fmt.subnormal (f : Fmt) (c : Nat) : Bool :=
  f.special != .int && f.expField c == 0 && f.manField c != 0

/-- A subnormal input replaced by a zero of its sign under FLUSH_SUB, and whether it was (R87). -/
def Fmt.input (f : Fmt) (flush : Bool) (c : Nat) : Num × Bool :=
  if flush && f.subnormal c then (.fin (f.signBit c) 0 0, true) else (f.value c, false)

/-- The value of an E8M0 scale code (R78). -/
def scaleNum (x : Nat) : Num := if x = 0xFF then .nan else .fin false 1 ((x : Int) - 127)

def Num.isNan : Num → Bool
  | .nan => true
  | _ => false

def Num.isZero : Num → Bool
  | .fin _ m _ => m == 0
  | _ => false

def Num.isInf : Num → Bool
  | .inf _ => true
  | _ => false

def Num.isNeg : Num → Bool
  | .nan => false
  | .inf n => n
  | .fin n _ _ => n

def Num.neg : Num → Num
  | .nan => .nan
  | .inf n => .inf (!n)
  | .fin n m e => .fin (!n) m e

/-- Whether a product has one factor zero and the other infinite (R89). -/
def zeroTimesInf (a b : Num) : Bool := (a.isZero && b.isInf) || (a.isInf && b.isZero)

/-- The exact product. -/
def Num.mul : Num → Num → Num
  | .nan, _ => .nan
  | _, .nan => .nan
  | .inf a, .inf b => .inf (a != b)
  | .inf a, .fin b m _ => if m = 0 then .nan else .inf (a != b)
  | .fin a m _, .inf b => if m = 0 then .nan else .inf (a != b)
  | .fin a m e, .fin b n k => .fin (a != b) (m * n) (e + k)

/-- A signed mantissa. -/
def signedM (neg : Bool) (m : Nat) : Int := if neg then -(m : Int) else (m : Int)

/-- The exact sum, with the zero signs of IEEE 754-2019 addition under round to nearest (R82). -/
def Num.add : Num → Num → Num
  | .nan, _ => .nan
  | _, .nan => .nan
  | .inf a, .inf b => if a = b then .inf a else .nan
  | .inf a, .fin _ _ _ => .inf a
  | .fin _ _ _, .inf b => .inf b
  | .fin a m e, .fin b n k =>
    let lo := min e k
    let v := signedM a (m * 2 ^ (e - lo).toNat) + signedM b (n * 2 ^ (k - lo).toNat)
    if v = 0 then .fin (a && b) 0 lo else .fin (decide (v < 0)) v.natAbs lo

/-- Strict order of two values that are not NaN, signed zeros equal. -/
def Num.lt : Num → Num → Bool
  | .nan, _ => false
  | _, .nan => false
  | .inf a, .inf b => a && !b
  | .inf a, .fin _ _ _ => a
  | .fin _ _ _, .inf b => !b
  | .fin a m e, .fin b n k =>
    let lo := min e k
    decide (signedM a (m * 2 ^ (e - lo).toNat) < signedM b (n * 2 ^ (k - lo).toNat))

/-- IEEE 754-2019 maximum (R88). -/
def Num.max (a b : Num) : Num :=
  if a.isNan || b.isNan then .nan
  else if a.lt b then b else if b.lt a then a
  else if a.isNeg then b else a

/-- IEEE 754-2019 minimum (R88). -/
def Num.min (a b : Num) : Num :=
  if a.isNan || b.isNan then .nan
  else if a.lt b then a else if b.lt a then b
  else if a.isNeg then a else b

/-- `m · 2^e` at or above `n · 2^k`. -/
def geMag (m : Nat) (e : Int) (n : Nat) (k : Int) : Bool :=
  let lo := min e k
  decide (n * 2 ^ (k - lo).toNat ≤ m * 2 ^ (e - lo).toNat)

/-- The integer number of quanta 2^q that `m · 2^e` rounds to: to nearest, ties to even (R83), or
stochastically under a draw `r` (R86). -/
def roundUnits (m : Nat) (e q : Int) (draw : Option Word) : Nat :=
  if q ≤ e then m * 2 ^ (e - q).toNat
  else
    let k := (q - e).toNat
    let lo := m / 2 ^ k
    let frac := m % 2 ^ k
    match draw with
    | none =>
      if 2 * frac < 2 ^ k then lo
      else if 2 ^ k < 2 * frac then lo + 1
      else if lo % 2 = 0 then lo else lo + 1
    | some r => if r.toNat < frac * 2 ^ 32 / 2 ^ k then lo + 1 else lo

/-- A converted element: its code and whether it saturated or was flushed. -/
structure Conv where
  code : Nat
  sat : Bool := false
  flush : Bool := false
deriving DecidableEq, Repr

/-- A sign put on a magnitude code. -/
def Fmt.signed (f : Fmt) (neg : Bool) (c : Nat) : Nat :=
  if f.special = .int then (if neg then (256 - c) % 256 else c)
  else if neg then c + 2 ^ (f.width - 1) else c

/-- What a value at or beyond the threshold converts to (R84, R85). -/
def Fmt.overflow (f : Fmt) (neg ovf : Bool) : Conv :=
  if ovf then
    match f.special with
    | .ieee => { code := f.signed neg (f.expTop * 2 ^ f.mbits) }
    | .e4m3 => { code := f.nanCode }
    | _ => { code := f.signed neg f.maxCode, sat := true }
  else { code := f.signed neg f.maxCode, sat := true }

/-- Conversion of one exact value to a format under a rounding draw, OVF and FLUSH_SUB (R83 to R87). -/
def Fmt.convert (f : Fmt) (v : Num) (draw : Option Word) (ovf flush : Bool) : Conv :=
  match v with
  | .nan => { code := f.nanCode }
  | .inf neg => f.overflow neg ovf
  | .fin neg m e =>
    if m = 0 then { code := f.signed neg 0 }
    else if geMag m e f.tm f.te then f.overflow neg ovf
    else if f.special = .int then
      { code := f.signed neg (min f.maxCode (roundUnits m e (-6) draw)) }
    else
      let top : Int := (Nat.log2 m : Int) + e
      let qFree := top - f.mbits
      let qMin := f.emin - f.mbits
      if flush && decide (qFree < qMin) then
        let u := roundUnits m e qFree draw
        if geMag u qFree 1 f.emin then { code := f.signed neg (2 ^ f.mbits) }
        else { code := f.signed neg 0, flush := true }
      else
        let q := Max.max qFree qMin
        let u := roundUnits m e q draw
        let c := (q - qMin).toNat * 2 ^ f.mbits + u
        { code := f.signed neg (Nat.min c f.maxCode) }

/-- Rounding to FP32, to nearest, overflow to infinity, subnormals kept (R82). -/
def roundFP32 (v : Num) : Word := BitVec.ofNat 32 (fFP32.convert v none true false).code

/-- The value of an FP32 word. -/
def fp32 (w : Word) : Num := fFP32.value w.toNat

/-- One step of the stochastic-rounding generator (R86). -/
def xorshift (s : Word) : Word :=
  let a := s ^^^ (s <<< 13)
  let b := a ^^^ (a >>> 17)
  b ^^^ (b <<< 5)

/-- A generator load: zero gives the nonzero constant (R86). -/
def genLoad (s : Word) : Word := if s = 0 then 0x9E3779B9#32 else s

/-- The scale exponent of a group of FP32 values for an MX format: none when a value is NaN (R79). -/
def groupScale (f : Fmt) (vs : List Num) : Option Int :=
  if vs.any Num.isNan then none
  else
    let amax := vs.foldl (fun (a : Nat × Int) v => match v with
      | .fin _ m e => if geMag m e a.1 a.2 then (m, e) else a
      | _ => a) (0, 0)
    let x : Int :=
      if amax.1 = 0 then 0
      else
        let x0 := (Nat.log2 amax.1 : Int) + amax.2 - f.emax
        if geMag amax.1 (amax.2 - x0) f.tm f.te then x0 + 1 else x0
    some (Max.max (-127) (Min.min 127 x))

/-- A value divided by 2^x, exactly. -/
def Num.scaleDown (v : Num) (x : Int) : Num :=
  match v with
  | .fin n m e => .fin n m (e - x)
  | w => w

/-- What a conversion of several values leaves: codes in order, the scale codes, the generator and flags. -/
structure ConvRow where
  codes : List Nat := []
  scales : List Nat := []
  gen : Word
  sat : Bool := false
  flush : Bool := false
deriving DecidableEq, Repr

/-- One element converted with a generator: it draws once in a format narrower than FP32 under SROUND (R86). -/
def convDraw (f : Fmt) (sround ovf flush : Bool) (nanGroup : Bool) (acc : ConvRow) (v : Num) : ConvRow :=
  let g := if sround && f.width < 32 then xorshift acc.gen else acc.gen
  let draw := if sround && f.width < 32 then some g else none
  let c : Conv := if nanGroup then { code := f.nanCode } else f.convert v draw ovf flush
  { acc with codes := acc.codes ++ [c.code], gen := g, sat := acc.sat || c.sat, flush := acc.flush || c.flush }

/-- One MX group converted: its elements, then its scale (R79). -/
def convGroup (f : Fmt) (sround ovf flush : Bool) (acc : ConvRow) (vs : List Num) : ConvRow :=
  match groupScale f vs with
  | none =>
    let r := vs.foldl (convDraw f sround ovf flush true) acc
    { r with scales := r.scales ++ [0xFF] }
  | some x =>
    let r := (vs.map (·.scaleDown x)).foldl (convDraw f sround ovf flush false) acc
    { r with scales := r.scales ++ [(x + 127).toNat] }

end Sys2Proof.Machine
end

