-- ==== Sys2Proof/Machine/Operands.lean ====
section
/-! DEFINITION. Operand fields of the instructions, descriptors, packets and flits, at the places that
their layout tables state. -/

namespace Sys2Proof.Machine

/-! WLOAD (R40) and RELAY (R42), 32 bytes -/

def opOf {n : Nat} (raw : BitVec n) : Nat := rnum raw 0 0 8
def wlTile (raw : Data1024) : Nat := rnum raw 0 8 4
def wlArray (raw : Data1024) : Nat := rnum raw 0 12 2
def wlSlotB (raw : Data1024) : Bool := bitAt raw 14
def wlFmt (raw : Data1024) : Nat := rnum raw 0 16 4
def wlKValid (raw : Data1024) : Nat := rnum raw 0 20 8
def wlSrc (raw : Data1024) : Nat := rnum raw 4 0 24
def wlBlockId (raw : Data1024) : Word := rfld raw 8 0 32

def rlInEp (raw : BitVec 256) : Nat := rnum raw 0 8 6
def rlFromSram (raw : BitVec 256) : Bool := bitAt raw 14
def rlOutEp (raw : BitVec 256) : Nat := rnum raw 0 16 6
def rlForward (raw : BitVec 256) : Bool := bitAt raw 22
def rlToSram (raw : BitVec 256) : Bool := bitAt raw 23
def rlToSlot (raw : BitVec 256) : Bool := bitAt raw 24
def rlArray (raw : BitVec 256) : Nat := rnum raw 0 25 2
def rlTile (raw : BitVec 256) : Nat := rnum raw 0 27 2
def rlSlotB (raw : BitVec 256) : Bool := bitAt raw 29
def rlAddr (raw : BitVec 256) : Nat := rnum raw 4 0 24
def rlLen (raw : BitVec 256) : Nat := rnum raw 8 0 16
def rlFmt (raw : BitVec 256) : Nat := rnum raw 0xC 0 4
def rlKValid (raw : BitVec 256) : Nat := rnum raw 0xC 4 8
def rlBlockId (raw : BitVec 256) : Word := rfld raw 0x10 0 32

/-! APASS (R44), 128 bytes -/

def apTile (raw : Data1024) : Nat := rnum raw 0 8 4
def apArrEn (raw : Data1024) : BitVec 4 := rfld raw 0 12 4
def apAFmt (raw : Data1024) : Nat := rnum raw 0 16 4
def apOFmt (raw : Data1024) : Nat := rnum raw 0 20 4
def apStrict (raw : Data1024) : Bool := bitAt raw 24
def apSround (raw : Data1024) : Bool := bitAt raw 25
def apOvf (raw : Data1024) : Bool := bitAt raw 26
def apFlush (raw : Data1024) : Bool := bitAt raw 27
def apAccMode (raw : Data1024) : Nat := rnum raw 0 28 2
def apLast (raw : Data1024) : Bool := bitAt raw 30
def apMaxr (raw : Data1024) : Bool := bitAt raw 31
def apRows (raw : Data1024) : Nat := rnum raw 4 0 32 + 1
def apSlotB (raw : Data1024) (a : Nat) : Bool := bitAt raw (64 + a)
def apActStream (raw : Data1024) : Nat := rnum raw 8 8 6
def apAccBase (raw : Data1024) : Nat := rnum raw 8 16 9
def apDrainRows (raw : Data1024) : Nat := rnum raw 0xC 0 9 + 1
def apBeats (raw : Data1024) : Nat := rnum raw 0xC 16 8
def apSeedLoad (raw : Data1024) : Bool := bitAt raw 127
def apSeed (raw : Data1024) : Word := rfld raw 0x10 0 32
def apDrainBase (raw : Data1024) : BitVec 24 := rfld raw 0x14 0 24
def apDrainLen (raw : Data1024) : BitVec 24 := rfld raw 0x18 0 24
def apDrainStream (raw : Data1024) : Nat := rnum raw 0x18 24 6
def apToStream (raw : Data1024) : Bool := bitAt raw (8 * 0x18 + 30)
def apAccSrc (raw : Data1024) : Nat := rnum raw 0x1C 0 24
def apKMask (raw : Data1024) (a : Nat) : DWord := rfld raw (0x20 + 8 * a) 0 64
def apNMask (raw : Data1024) (a : Nat) : DWord := rfld raw (0x40 + 8 * a) 0 64
def apPassId (raw : Data1024) : Word := rfld raw 0x60 0 32

/-- The enabled arrays of a pass, ascending. -/
def apArrays (raw : Data1024) : List (Fin 4) := (List.finRange 4).filter (fun a => (apArrEn raw).getLsbD a.val)

/-- A pass without LAST of an accumulation chain: it drains nothing (R47, R48). -/
def apChainOpen (raw : Data1024) : Bool := apAccMode raw == 2 && !apLast raw

/-- Caldera array index of array `a` of tile `t`. -/
def arrIdx (t : Nat) (a : Fin 4) : Fin 16 := Fin.ofNat 16 (4 * t + a.val)

/-! SARM (R138) -/

def saStream (raw : Data1024) : Nat := rnum raw 0 8 6
def saStart (raw : Data1024) : Nat := rnum raw 0 16 8
def saDone (raw : Data1024) : Nat := rnum raw 0 24 8
def saDesc (raw : Data1024) : Nat := rnum raw 4 0 24

/-! Stream descriptors (R131) -/

def dSrcKind (d : CWord) : Nat := rnum d 0 0 4
def dDstKind (d : CWord) : Nat := rnum d 0 4 4
def dFmt (d : CWord) : Nat := rnum d 0 8 4
def dRaw (d : CWord) : Bool := bitAt d 12
def dNoScale (d : CWord) : Bool := bitAt d 13
def dPf (d : CWord) : Bool := bitAt d 14
def dArm (d : CWord) : Bool := bitAt d 26
def dSrcEp (d : CWord) : Nat := rnum d 4 0 6
def dDstEp (d : CWord) : Nat := rnum d 4 8 6
def dSrcAddr (d : CWord) : DWord := rfld d 8 0 64
def dDstAddr (d : CWord) : DWord := rfld d 0x10 0 64
def dDim0 (d : CWord) : Nat := rnum d 0x18 0 32 + 1
def dDim1 (d : CWord) : Nat := rnum d 0x1C 0 32 + 1
def dDim2 (d : CWord) : Nat := rnum d 0x20 0 32 + 1
def dDim3 (d : CWord) : Nat := rnum d 0x24 0 32 + 1
def dStride (d : CWord) (k : Nat) : Int := (rfld d (0x20 + 8 * k) 0 64).toInt
/-- Reserved bits that are set in a descriptor, by the byte they stand in. -/
def dReserved (d : CWord) : List (Bool × Nat) :=
  [(bitAt d 15, 1), (rnum d 3 3 5 != 0, 3), (rnum d 4 6 2 != 0, 4), (rnum d 5 6 2 != 0, 5), (rnum d 6 0 8 != 0, 6), (rnum d 7 0 8 != 0, 7)]

/-- Whether an element format code is an MX format. -/
def isMx (f : Nat) : Bool := f ≤ 5

/-- The record size (R133). -/
def recordBytes (fmt : Nat) (raw noscale : Bool) (n : Nat) : Nat :=
  if raw then n
  else if fmt = 4 then n / 2 + (if noscale then 0 else n / 32)
  else if fmt ≤ 5 then n + (if noscale then 0 else n / 32)
  else if fmt = 10 then 4 * n
  else 2 * n

/-- The record size of a descriptor. -/
def dRec (d : CWord) : Nat := recordBytes (dFmt d) (dRaw d) (dNoScale d) (dDim0 d)

/-- The total length of a descriptor (R132). -/
def dTotal (d : CWord) : Nat := dRec d * dDim1 d * dDim2 d * dDim3 d

/-- Whether the patterned end is the source (R132). -/
def dPatSrc (d : CWord) : Bool := dSrcKind d == 0 || dSrcKind d == 2 || dSrcKind d == 3

/-- A sum in 64-bit signed arithmetic (R132). -/
def wrap64 (x : Int) : Int := (BitVec.ofInt 64 x).toInt

/-- Where record `r` of the pattern starts behind BASE (R132). -/
def dRecOff (d : CWord) (r : Nat) : Int :=
  ((r % dDim1 d : Nat) : Int) * dStride d 1 + ((r / dDim1 d % dDim2 d : Nat) : Int) * dStride d 2
    + ((r / dDim1 d / dDim2 d % dDim3 d : Nat) : Int) * dStride d 3

/-- BASE of an end: ADDR, of which an SRAM end uses bits [23:0] (R130). -/
def dBase (d : CWord) (src : Bool) : Nat :=
  let a := (if src then dSrcAddr d else dDstAddr d).toNat
  if (if src then dSrcKind d else dDstKind d) = 0 then a % 2 ^ 24 else a

/-- The byte address at the patterned end of record `r`, 64-bit signed (R132). -/
def dRecAddr (d : CWord) (r : Nat) : Int := wrap64 ((dBase d (dPatSrc d) : Int) + dRecOff d r)

/-- The number of records of a descriptor. -/
def dRecords (d : CWord) : Nat := dDim1 d * dDim2 d * dDim3 d

/-- The address of byte `p` of the stream at an end: along the pattern, or dense, in 64-bit signed arithmetic
(R132). -/
def endAddr (d : CWord) (src : Bool) (p : Nat) : Int :=
  let rb := max 1 (dRec d)
  if src = dPatSrc d then wrap64 (dRecAddr d (p / rb) + ((p % rb : Nat) : Int)) else wrap64 ((dBase d src + p : Nat) : Int)

/-! DSP instructions (R107) -/

def dspOp (i : DWord) : Nat := rnum i 0 0 8
def dspVd (i : DWord) : Fin 32 := Fin.ofNat 32 (rnum i 0 8 5)
def dspVa (i : DWord) : Fin 32 := Fin.ofNat 32 (rnum i 0 13 5)
def dspVb (i : DWord) : Fin 32 := Fin.ofNat 32 (rnum i 0 18 5)
def dspVc (i : DWord) : Fin 32 := Fin.ofNat 32 (rnum i 0 23 5)
def dspType (i : DWord) : Nat := rnum i 0 28 2
def dspAg (i : DWord) : Fin 16 := Fin.ofNat 16 (rnum i 4 0 4)
def dspImm (i : DWord) : Nat := rnum i 4 8 24

/-! Command packets (R270) -/

def pkOpcode (p : Data1024) : Nat := rnum p 0 0 16
def pkParallel (p : Data1024) : Bool := bitAt p 16
def pkWait0 (p : Data1024) : Option Word := if bitAt p 17 then some (rfld p 8 0 32) else none
def pkWait1 (p : Data1024) : Option Word := if bitAt p 18 then some (rfld p 0xC 0 32) else none
def pkIrq (p : Data1024) : Bool := bitAt p 19
def pkCtx (p : Data1024) : Byte := rfld p 3 0 8
def pkTag (p : Data1024) : Word := rfld p 4 0 32

/-! Flits (R218) -/

def flDst (f : Data2048) : BitVec 10 := fld f 0 10
def flSrc (f : Data2048) : BitVec 10 := fld f 10 10
def flVc (f : Data2048) : Nat := nfld f 20 3
def flType (f : Data2048) : Nat := nfld f 23 5
def flSeq (f : Data2048) : BitVec 12 := fld f 28 12
def flBeat (f : Data2048) : BitVec 16 := fld f 40 16
def flEp (f : Data2048) : Nat := nfld f 56 3
def flShort (f : Data2048) : Bool := bitAt f 59
def flEnc (f : Data2048) : Bool := bitAt f 60
def flPayload (f : Data2048) : BitVec 1920 := fld f 64 1920
def flNext (f : Data2048) : BitVec 12 := rfld f 0xF8 0 12
def flNack (f : Data2048) : Bool := bitAt f (8 * 0xF8 + 12)
def flCvc (f : Data2048) : Nat := rnum f 0xF8 13 2
def flCred (f : Data2048) : Nat := rnum f 0xF8 15 8
def flCheck (f : Data2048) : Word := rfld f 0xFC 0 32

/-- A flit without its sequence number, beat, acknowledgement field and check. -/
def mkFlit (dst src : BitVec 10) (vc ty ep : Nat) (short : Bool) (payload : BitVec 1920) : Data2048 :=
  at_ 2048 0 dst ||| at_ 2048 10 src ||| natAt 2048 20 vc ||| natAt 2048 23 ty ||| natAt 2048 56 ep
    ||| flagAt 2048 59 short ||| at_ 2048 64 payload

end Sys2Proof.Machine
end

