-- ==== Sys2Proof/Machine/Ops.lean ====
section
/-! DEFINITION. The shared operations: access to units, host output, logs, management events, flits,
completions, stream access, the abandon of passes and the stop of plans. -/

namespace Sys2Proof.Machine

/-- What a meaning answers. -/
abbrev Out := Host.Outcome State Fault Refusal

/-- The supplies are up and no reset is held: the device acts. -/
def State.running (s : State) : Bool := s.pins.pwrOk && s.pins.coldRstN && !s.pwr.tripped

/-! ### Units -/

def State.modCal (s : State) (n : Fin 64) (f : Caldera → Caldera) : State := { s with cals := vmod s.cals n f }
def State.modStack (s : State) (k : Fin 8) (f : Stack → Stack) : State := { s with hbmStacks := vmod s.hbmStacks k f }
def State.modChan (s : State) (k : Fin 8) (c : Fin 32) (f : Chan → Chan) : State :=
  s.modStack k (fun st => { st with ch := vmod st.ch c f })
def State.modPort (s : State) (p : Fin 12) (f : Port → Port) : State := { s with ports := vmod s.ports p f }
/-- A region becomes isolated: its logic answers nothing any more, and what it has been handed times out (R326, R327;
log 132). -/
def Region.quiet (r : Region) : Region := { r with handed := [] }
def State.modRegion (s : State) (r : Fin 16) (f : Region → Region) : State := { s with regions := vmod s.regions r f }
def State.modNoc (s : State) (die : Bool) (f : NocDie → NocDie) : State :=
  { s with noc := vmod s.noc (if die then 1 else 0) f }
def State.modGlb (s : State) (f : Glb → Glb) : State := { s with glb := f s.glb }
def State.modFab (s : State) (f : Fab → Fab) : State := { s with fab := f s.fab }
def State.modCp (s : State) (f : CmdProc → CmdProc) : State := { s with cp := f s.cp }
def State.modCfg (s : State) (f : Cfg → Cfg) : State := { s with cfg := f s.cfg }
def State.modSec (s : State) (f : Sec → Sec) : State := { s with sec := f s.sec }
def State.modPwr (s : State) (f : Pwr → Pwr) : State := { s with pwr := f s.pwr }
def Caldera.modArr (c : Caldera) (a : Fin 16) (f : Arr → Arr) : Caldera := { c with arrs := vmod c.arrs a f }
def Caldera.modDsp (c : Caldera) (f : Dsp → Dsp) : Caldera := { c with dsp := f c.dsp }
def Port.modCnt (p : Port) (f : PortCnt → PortCnt) : Port := { p with cnt := f p.cnt }

/-- A free value: the value the manual leaves open, and the state with the counter advanced (log 3). -/
def State.draw (s : State) : BitVec 512 × State := (Config.freeValue s.free, { s with free := s.free + 1 })

/-- Something sent to the host over PCIe. -/
def State.emit (s : State) (o : PcieOut) : State := s.modCp (fun c => { c with out := c.out ++ [o] })

/-! ### Ring logs (R125, R201, R396) -/

/-- Append a record, or drop and count it when 64 are present. -/
def RingLog.push {α : Type} (l : RingLog α) (r : α) : RingLog α :=
  if 64 ≤ l.recs.length then { l with drop := satInc l.drop } else { l with recs := l.recs ++ [r] }

/-- Remove the oldest record; nothing on an empty log. -/
def RingLog.pop {α : Type} (l : RingLog α) : RingLog α :=
  match l.recs with
  | [] => l
  | _ :: t => { l with oldest := l.oldest + 1, recs := t }

/-- Remove every record and zero the drop count (log 15). -/
def RingLog.clear {α : Type} (l : RingLog α) : RingLog α :=
  { oldest := l.oldest + BitVec.ofNat 6 l.recs.length, recs := [], drop := 0 }

/-- The record in slot `i`, none when the slot holds no record. -/
def RingLog.slot {α : Type} (l : RingLog α) (i : BitVec 6) : Option α := l.recs[(i - l.oldest).toNat]?

/-- The HEAD register of a ring log: OLDEST and COUNT. -/
def RingLog.head {α : Type} (l : RingLog α) : Word := at_ 32 0 l.oldest ||| natAt 32 8 l.recs.length

/-! ### Words that events carry -/

def PortState.code : PortState → Nat
  | .off => 0 | .down => 1 | .training => 2 | .linked => 3 | .admitted => 4 | .degraded => 5
  | .retrain => 6 | .disabled => 7 | .test => 8

/-- LNK_STATE. -/
def Port.stateWord (p : Port) : Word :=
  natAt 32 0 p.st.code ||| flagAt 32 4 p.authDone ||| flagAt 32 5 (p.encrypt && p.authDone) ||| at_ 32 8 p.cause

/-- HBM_STATUS. -/
def Stack.statusWord (k : Stack) : Word :=
  at_ 32 0 k.st ||| at_ 32 2 k.cause ||| at_ 32 5 k.attempts ||| at_ 32 7 k.step ||| flagAt 32 11 (k.st == 3)

/-- HBM_TEMP. -/
def Stack.tempWord (k : Stack) : Word := at_ 32 0 k.temp ||| flagAt 32 8 k.hot ||| at_ 32 16 k.tempMax

/-- GLB_BEAT_CFG. -/
def Glb.beatCfg (g : Glb) : Word := at_ 32 0 g.period ||| flagAt 32 16 g.isSource

/-- CAL_IV (R405). -/
def Caldera.ivWord (c : Caldera) : Word := at_ 32 0 c.current ||| at_ 32 16 c.mv

/-- PWR_STATUS (R404). -/
def State.pwrStatus (s : State) : Word :=
  let p := s.pwr
  at_ 32 0 p.phase ||| flagAt 32 4 s.cp.ember ||| flagAt 32 5 p.setupDefaulted ||| flagAt 32 6 p.setupPending
    ||| flagAt 32 7 (s.cals.any (fun c => c.squall.isSome)) ||| flagAt 32 8 p.capLimiting ||| flagAt 32 9 p.bootFail
    ||| flagAt 32 10 p.updatePending

/-- SEC_LIFECYCLE. -/
def Sec.lifecycleWord (c : Sec) : Word :=
  at_ 32 0 c.lifecycle ||| natAt 32 8 c.svn ||| flagAt 32 16 (c.lifecycle == 1 || c.lifecycle == 3) ||| flagAt 32 17 c.debugUsed

/-! ### Flits to other devices (R23, R218, R240) -/

/-- The state whose services a port offers: during a fast retrain the state it returns to (R231; log 16). -/
def Port.eff (p : Port) : PortState := if p.st = .retrain then p.prev else p.st

/-- Whether the port carries every virtual channel (R226). -/
def Port.carries (p : Port) : Bool := p.eff == .admitted || p.eff == .degraded

/-- The first port of the route to a device, if the entry has one (R240, R259). -/
def State.routePort (s : State) (dst : BitVec 10) : Option (Fin 12) :=
  let e := tget (0 : BitVec 52) s.fab.routes dst.toNat
  let len := nfld e 0 4
  if len = 0 ∨ 12 < len then none else fin? 12 (nfld e 4 4)

/-- Queue a flit on a port, with the port it arrived on when it is forwarded. -/
def State.sendOn (s : State) (p : Fin 12) (arrival : Option (Fin 12)) (f : Data2048) : State :=
  s.modPort p (fun q => { q with txq := q.txq ++ [(arrival, f)] })

/-- Send a flit toward a device along its route, or drop and count it (R240): the state and whether it was dropped. -/
def State.sendTo (s : State) (arrival : Option (Fin 12)) (f : Data2048) : State × Bool :=
  match s.routePort (flDst f) with
  | some p =>
    if s.ports[p].carries ∧ some p ≠ arrival then (s.sendOn p arrival f, false)
    else (s.modFab (fun b => { b with routeDrop := satInc b.routeDrop }), true)
  | none => (s.modFab (fun b => { b with routeDrop := satInc b.routeDrop }), true)

/-! ### Management events (R395, R396) -/

/-- A management event record. -/
def mgmtRecord (s : State) (cls code unit sev : Nat) (d0 d1 : Word) : BitVec 256 :=
  natAt 256 0 cls ||| natAt 256 8 code ||| natAt 256 16 unit ||| natAt 256 24 sev
    ||| at_ 256 64 s.glb.beatCnt ||| at_ 256 128 d0 ||| at_ 256 160 d1
    ||| at_ 256 192 s.fab.id ||| flagAt 256 202 s.fab.idValid

/-- The MGMT payload of KIND EVENT that carries a record (R256). -/
def eventPayload (r : BitVec 256) : BitVec 1920 := natAt 1920 0 5 ||| natAt 1920 64 7 ||| at_ 1920 128 r

/-- A record logged, signalled and delivered, without the event that a dropped flit may raise: the
state and whether the flit was dropped. -/
def State.logEvent (s : State) (cls : Nat) (r : BitVec 256) : State × Bool :=
  let s1 := (s.modPwr (fun p => { p with evlog := p.evlog.push r })).emit (.msix (BitVec.ofNat 7 (63 + cls)))
  let s2 := if s1.pwr.pldmReceiver then s1.modPwr (fun p => { p with sideband := p.sideband ++ [toBytes r 32] }) else s1
  if s2.fab.mgrValid then
    if s2.fab.idValid ∧ s2.fab.mgrId = s2.fab.id then
      (s2.modFab (fun b => { b with mgmtIn := b.mgmtIn ++ [eventPayload r] }), false)
    else s2.sendTo none (mkFlit s2.fab.mgrId s2.fab.id 2 0x08 0 false (eventPayload r))
  else (s2, false)

/-- SEVERITY of a FABRIC event, by FAB_EVENT bit. -/
def fabSeverity (bit : Nat) : Nat := if bit = 2 ∨ bit = 4 then 0 else if bit = 1 then 2 else 1

/-- FAB_EVENT bit 5 after a dropped flit: set, and logged when it was clear. -/
def State.noteRouteDrop (s : State) : State :=
  if s.fab.event.getLsbD 5 then s
  else
    let s1 := s.modFab (fun b => { b with event := b.event ||| 0x20 })
    (s1.logEvent 6 (mgmtRecord s1 6 5 0 1 (s1.fab.event.setWidth 32) s1.glb.beatCfg)).1

/-- A management event raised (R395, R396). -/
def State.raise (s : State) (cls code unit sev : Nat) (d0 d1 : Word) : State :=
  let r := s.logEvent cls (mgmtRecord s cls code unit sev d0 d1)
  if r.2 then r.1.noteRouteDrop else r.1

/-- A FAB_EVENT bit set; a change from 0 to 1 raises an event. -/
def State.fabEvent (s : State) (bit unit : Nat) : State :=
  if s.fab.event.getLsbD bit then s
  else
    let s1 := s.modFab (fun b => { b with event := b.event ||| BitVec.twoPow 7 bit })
    s1.raise 6 bit unit (fabSeverity bit) (s1.fab.event.setWidth 32) s1.glb.beatCfg

/-- A PWR_EVENT bit set. -/
def State.pwrEvent (s : State) (bit unit sev : Nat) (d1 : Word) : State :=
  if s.pwr.event.getLsbD bit then s
  else
    let s1 := s.modPwr (fun p => { p with event := p.event ||| BitVec.twoPow 12 bit })
    s1.raise (if bit < 8 then 1 else 7) bit unit sev (s1.pwr.event.setWidth 32) d1

/-- SEVERITY of a LINK event, by LNK_EVENT bit. -/
def lnkSeverity (bit : Nat) : Nat := if bit = 2 then 0 else if bit = 3 ∨ bit = 5 ∨ bit = 6 then 2 else 1

/-- A LNK_EVENT bit of a port set. -/
def State.lnkEvent (s : State) (p : Fin 12) (bit : Nat) : State :=
  if s.ports[p].event.getLsbD bit then s
  else
    let s1 := s.modPort p (fun q => { q with event := q.event ||| BitVec.twoPow 9 bit })
    s1.raise 2 bit p.val (lnkSeverity bit) (s1.ports[p].event.setWidth 32) s1.ports[p].stateWord

/-- SEVERITY of a CONFIG event, by CFG_EVENT bit. -/
def cfgSeverity (bit : Nat) : Nat := if bit = 2 then 0 else if bit = 1 ∨ bit = 4 ∨ bit = 6 then 1 else 2

/-- A CFG_EVENT bit set. -/
def State.cfgEvent (s : State) (bit unit : Nat) (d1 : Word) : State :=
  if s.cfg.event.getLsbD bit then s
  else
    let s1 := s.modCfg (fun c => { c with event := c.event ||| BitVec.twoPow 8 bit })
    s1.raise 4 bit unit (cfgSeverity bit) (s1.cfg.event.setWidth 32) d1

/-- A SEC_EVENT bit set. -/
def State.secEvent (s : State) (bit unit : Nat) (d1 : Word) : State :=
  if s.sec.event.getLsbD bit then s
  else
    let s1 := s.modSec (fun c => { c with event := c.event ||| BitVec.twoPow 4 bit })
    s1.raise 5 bit unit (if bit = 3 then 0 else 1) (s1.sec.event.setWidth 32) d1

/-! ### Commands and completions (R268, R271, R273) -/

def State.findCmd (s : State) (serial : Nat) : Option Cmd := s.cp.cmds.find? (fun c => c.serial == serial)

def State.modCmd (s : State) (serial : Nat) (f : Cmd → Cmd) : State :=
  s.modCp (fun c => { c with cmds := c.cmds.map (fun k => if k.serial = serial then f k else k) })

/-- A completion that arises for a command, in the phase the command is left in; it waits to be written. -/
def State.completeTo (s : State) (serial : Nat) (phase : CmdPhase) (status : Nat) (detail r0 : Word) (r1 : DWord) : State :=
  match s.findCmd serial with
  | none => s
  | some k =>
    let c : Completion :=
      { cq := Fin.ofNat 64 s.cp.sq[k.ring].cq.toNat, serial := serial, ring := k.ring, tag := pkTag k.packet,
        status := BitVec.ofNat 16 status, ctx := pkCtx k.packet, detail := detail, result0 := r0, result1 := r1,
        beat := s.glb.beatCnt, irq := pkIrq k.packet }
    (s.modCmd serial (fun k => { k with phase := phase })).modCp (fun p => { p with waiting := p.waiting ++ [c] })

/-- A command completes and its work is finished. -/
def State.complete (s : State) (serial status : Nat) (detail r0 : Word) (r1 : DWord) : State :=
  s.completeTo serial .finished status detail r0 r1

/-- Work stops without being finished: the command that carries it completes; the one that started it keeps its
tag (R271, R285). -/
def State.stopWork (s : State) (serial : Nat) (work : Option Nat) (status : Nat) (detail r0 : Word) (r1 : DWord) : State :=
  s.completeTo serial (if work = some serial then .suspended else .finished) status detail r0 r1

/-- Work is finished or discarded: the tag of the command that started it is free once its own completion is
written (R271). -/
def State.freeTag (s : State) (w : Nat) : State :=
  if s.cp.waiting.any (fun c => c.serial == w) then s.modCmd w (fun k => { k with phase := .finished })
  else s.modCp (fun c => { c with cmds := c.cmds.filter (fun k => k.serial != w) })

/-- The same for work that another command carries. -/
def State.endWork (s : State) (work : Option Nat) (carrier : Nat) : State :=
  match work with
  | some w => if w = carrier then s else s.freeTag w
  | none => s

/-- Completion with OK and no results. -/
def State.completeOk (s : State) (serial : Nat) : State := s.complete serial 0 0 0 0

/-- BAD_PARAM: the packet offset of the field in error and the number of the failed check (R288). -/
def State.badParam (s : State) (serial check off : Nat) : State :=
  s.complete serial 0x12 (natAt 32 0 off ||| natAt 32 8 check) 0 0

/-- BAD_PARAM for host-memory data at a byte offset (R288). -/
def State.badData (s : State) (serial check off : Nat) : State :=
  s.complete serial 0x12 (natAt 32 0 0xFF ||| natAt 32 8 check) 0 (BitVec.ofNat 64 off)

/-- The state after a command that answers a next state. -/
def State.after (s : State) (f : State → Out) : State := match f s with
  | .next t => t
  | _ => s

/-! ### Scrubs that outlast their budget (R369) -/

/-- Work of a scrub goes on: a caldera is still zeroing, or a stack that the writes go to is training (R369). -/
def State.scrubWorks (s : State) (sc : Scrub) : Bool :=
  (List.finRange 64).any (fun n => sc.cals.getLsbD n.val && s.cals[n].zeroing)
    || (List.finRange 8).any (fun k => sc.onStacks.getLsbD k.val && s.hbmStacks[k].st == 1)

/-- The budget has passed: 64 ticks are 409.6 ns. -/
def Scrub.elapsed (sc : Scrub) (now : Nat) : Bool := decide (64 * sc.startTick + 10 * sc.budget ≤ 64 * now)

/-- Every running scrub whose budget has passed while its work goes on is marked late. -/
def State.noteLate (s : State) : State :=
  s.modSec (fun c => { c with scrubs := c.scrubs.map (fun x =>
    if x.startBeat.isSome && x.elapsed s.now && s.scrubWorks x then { x with late := true } else x) })

/-! ### Plans -/

def State.findPlan (s : State) (h : PlanId) : Option Plan := s.plans.find? (fun p => p.handle == h)

def State.modPlan (s : State) (h : PlanId) (f : Plan → Plan) : State :=
  { s with plans := s.plans.map (fun p => if p.handle = h then f p else p) }

/-- Whether the plan names a caldera. -/
def Plan.names (p : Plan) (n : Fin 64) : Bool := p.cals.getLsbD n.val

/-- Started and not suspended (CAL_STATUS.RUNNING, R126). -/
def Plan.started (p : Plan) : Bool := p.run == .waiting || p.run == .running || p.run == .stopping

/-- The resident plan on a caldera that has started, suspended or not (R117). -/
def State.planOn (s : State) (n : Fin 64) : Option Plan :=
  s.plans.find? (fun p => p.resident && p.names n && (p.started || p.run == .suspended))

/-- The caldera runs a plan (R117). -/
def State.runsPlan (s : State) (n : Fin 64) : Bool := (s.planOn n).isSome

/-- A loaded plan names the caldera (CAL_STATUS.PLAN). -/
def State.planNames (s : State) (n : Fin 64) : Bool := s.plans.any (fun p => p.names n)

/-- The context whose plan is loaded on the caldera (R363). -/
def State.calCtx (s : State) (n : Fin 64) : Option Byte :=
  (s.plans.find? (fun p => p.resident && p.names n)).map (·.ctx)

/-- The mode of a context (R372). -/
def State.ctxConf (s : State) (ctx : Byte) : Bool := ((tfind s.sec.ctxs ctx.toNat).map (·.conf)).getD false

/-- A resident plan of a confidential context names the caldera (R372). -/
def State.confCal (s : State) (n : Fin 64) : Bool := s.plans.any (fun p => p.resident && p.names n && s.ctxConf p.ctx)

/-- Bring-up has reached phase 5: every register window and the doorbells answer (R384, R385). -/
def State.serving (s : State) : Bool := decide (5 ≤ s.pwr.phase.toNat)

/-- A write to a CAL register beyond the public ones is refused: the window does not answer yet, or a confidential
context holds the caldera (R373, R385). -/
def State.calShut (s : State) (n : Fin 64) : Bool := !s.serving || s.confCal n

/-- The plan beat that is open on this device for a plan, `none` while nothing of it may issue. -/
def Plan.openBeat (p : Plan) : Option Nat := if p.run == .running then some p.beat else none

/-- STRETCH and SQUALL payload (R252). -/
def stretchPayload (beat : DWord) (ticks : Nat) (reporter : BitVec 10) (stop : Option (BitVec 2 × BitVec 16)) : BitVec 1920 :=
  at_ 1920 0 beat ||| natAt 1920 64 ticks ||| at_ 1920 96 reporter
    ||| (match stop with
        | some (k, h) => flagAt 1920 112 true ||| at_ 1920 113 k ||| at_ 1920 128 h
        | none => 0)

/-- A report flit to the geyser source: type 0x10 STRETCH or 0x11 SQUALL on VC 3 (R252). -/
def State.report (s : State) (ty : Nat) (payload : BitVec 1920) : State :=
  let r := s.sendTo none (mkFlit s.fab.src s.fab.id 3 ty 0 false payload)
  if r.2 then r.1.noteRouteDrop else r.1

/-- A device ID is this device's own. -/
def State.isMine (s : State) (n : BitVec 10) : Bool := s.fab.idValid && s.fab.id == n

/-- The other device that takes the source role over at a pulse. -/
def State.heirOf (s : State) (p : Pulse) : Option (BitVec 10) := p.handover.filter (fun n => !s.isMine n)

/-- The device to which this source hands its role over, from the first block of that pulse on until the pulse takes
effect (R250). -/
def State.heir (s : State) : Option (BitVec 10) :=
  if s.glb.isSource then (s.glb.source.announced.toList ++ s.glb.pulses).findSome? s.heirOf else none

/-- A flit to the source of the geyser beat, or to the device that takes its role over. -/
def State.forwardNotice (s : State) (n : BitVec 10) (payload : BitVec 1920) : State :=
  let r := s.sendTo none (mkFlit n s.fab.id 3 0x10 0 false payload)
  if r.2 then r.1.noteRouteDrop else r.1

/-- A stop notice reaches the source, which places it into a pulse, or passes it on once its role is leaving (R250, R254). -/
def State.placeNotice (s : State) (kind : BitVec 2) (fplan : BitVec 16) : State :=
  match s.heir with
  | some n => s.forwardNotice n (stretchPayload s.glb.beatCnt 0 s.fab.id (some (kind, fplan)))
  | none => s.modGlb (fun g => { g with source := { g.source with notices := g.source.notices ++ [(kind, fplan)] } })

/-- A stop notice for a spanning plan goes to the source (R254). -/
def State.sendStopNotice (s : State) (kind : BitVec 2) (fplan : BitVec 16) : State :=
  if s.glb.isSource then s.placeNotice kind fplan
  else s.report 0x10 (stretchPayload s.glb.beatCnt 0 s.fab.id (some (kind, fplan)))

/-- The plan beat stops at a boundary: nothing of the plan issues from here on, and the wait of R65 runs.  A
plan whose run has not opened its next beat stops where it stands. -/
def Plan.stopAtBoundary (p : Plan) (b : DWord) (max : Byte) : Plan :=
  { p with beat := if p.run = .running then p.beat + 1 else p.beat, run := .stopping, stopAt := some b, waitMax := max }

/-! ### The work of a plan beat (R26, R106, R138) -/

/-- The calderas that a plan names, ascending. -/
def Plan.calList (p : Plan) : List (Fin 64) := (List.finRange 64).filter p.names

/-- The last plan beat of a queued instruction. -/
def qDue (q : QInstr) : Nat := if opOf q.raw = 0x21 then q.beat + apBeats q.raw - 1 else q.beat

/-- An arming that counts as work of beat `b` or before has not completed. -/
def Stream.owes (t : Stream) (h : PlanId) (b : Nat) : Bool :=
  (t.plan == some h && t.st != .idle && decide (t.doneBeat ≤ b))
    || (t.shadowPlan == some h && t.shadow.isSome && decide (t.shadowDone ≤ b))

/-- The unit has reached the WBEAT or END that follows its work of the beat (R106). -/
def Dsp.beatDone (d : Dsp) : Bool := !d.busy || d.waiting

/-- A weight load by WLOAD is under way. -/
def Caldera.loading (c : Caldera) : Bool :=
  c.arrs.any (fun a => (a.slotA.st == .loading && a.slotA.chain.isNone) || (a.slotB.st == .loading && a.slotB.chain.isNone))

/-- The passes, DSP instructions and armings of beats up to `b` have committed or completed (R26, R291). -/
def Caldera.beatDone (c : Caldera) (h : PlanId) (b : Nat) : Bool :=
  c.queue.all (fun q => decide (b < qDue q) || !(opOf q.raw == 0x21 || opOf q.raw == 0x24))
    && c.passes.all (fun p => p.st == .held || decide (b < p.dueBeat))
    && c.replays.all (fun p => decide (b < p.dueBeat))
    && c.streams.all (fun t => !t.owes h b) && c.dsp.beatDone

/-- The weight loads of beats up to `b` are done too (R26). -/
def Caldera.loadsDone (c : Caldera) (b : Nat) : Bool :=
  c.queue.all (fun q => decide (b < q.beat) || opOf q.raw != 0x22) && !c.loading

/-- All work of a plan up to beat `b` is done on this device. -/
def State.workDone (s : State) (p : Plan) (b : Nat) : Bool :=
  p.calList.all (fun n => s.cals[n].beatDone p.handle b && s.cals[n].loadsDone b)

/-! ### What holds a boundary (R26, R27, R127) -/

/-- A caldera that a plan names is still waking. -/
def State.planWakes (s : State) (p : Plan) : Bool := p.calList.any (fun n => s.cals[n].waking)

/-- The plan's first beat, or that of its resumption, is due at the boundary that opens beat `b`. -/
def Plan.startsAt (p : Plan) (b : DWord) : Bool :=
  p.run == .waiting && !p.stopDue && p.resident && (p.start.map (fun x => decide (x.toNat ≤ b.toNat))).getD true

/-- Passes of the closing beat that a stopped plan still has. -/
def State.closingPasses (s : State) (p : Plan) : Bool :=
  p.calList.any (fun n => s.cals[n].passes.any (fun q => q.st != .held && decide (q.dueBeat + 1 ≤ p.beat)))

/-- Nothing of a plan keeps the boundary that opens beat `b` held; a stop that fell due during the hold leaves only
the closing beat's passes to wait for. -/
def State.planReady (s : State) (b : DWord) (quiet : Bool) (p : Plan) : Bool :=
  match p.run with
  | .running => p.stopDue || s.workDone p p.beat
  | .waiting => !(p.startsAt b && s.planWakes p)
  | .stopping => !(quiet && p.stopAt == some b && s.closingPasses p)
  | _ => true

/-- The device may open beat `b` (R26). -/
def State.ready (s : State) (b : DWord) (quiet : Bool) : Bool := s.plans.all (s.planReady b quiet)

/-- A plan with work or a wake that keeps the boundary opening beat `b` held; a stop that has fallen due keeps
nothing held but the passes of the closing beat. -/
def State.planHolds (s : State) (b : DWord) (p : Plan) : Bool :=
  match p.run with
  | .running => !p.stopDue && !s.workDone p p.beat
  | .waiting => p.startsAt b && s.planWakes p
  | _ => false

/-- A stop that falls due while a boundary is held takes effect at that boundary (R31), under GLB_PREEMPT_CFG.MAX as
it stands then (R73; log 91).  Where nothing else holds the boundary, the hold ends by the suspension (R252). -/
def State.stopIfHeld (s : State) (h : PlanId) : State :=
  match s.glb.holds, s.findPlan h with
  | k :: rest, some p =>
    let k1 := { k with quiet := true, mute := k.mute || s.plans.all (fun q => q.handle == h || !s.planHolds k.beat q) }
    if p.stopDue ∧ p.run = .running then
      (s.modPlan h (fun q => q.stopAtBoundary k.beat s.glb.preemptMax)).modGlb (fun g => { g with holds := k1 :: rest })
    else if p.stopDue ∧ s.planHolds k.beat { p with stopDue := false } then s.modGlb (fun g => { g with holds := k1 :: rest })
    else s
  | _, _ => s

/-- A started plan gets a stop that falls due at the next boundary, or, for a plan that spans devices,
at the boundary of its stop notice; a plan that is already stopping is left alone (R67, R254). -/
def State.planStop (s : State) (h : PlanId) (why : StopReason) (cal : Nat) : State :=
  match s.findPlan h with
  | none => s
  | some p =>
    if p.stop.isSome ∨ ¬(p.run = .running ∨ p.run = .waiting) then s
    else
      let notice := decide (1 < p.devices) && why != .remote && why != .geyserLost
      let s1 := s.modPlan h (fun q =>
        { q with stop := some why, stopCal := BitVec.ofNat 6 cal, noticed := notice, stopDue := !notice })
      if notice then s1.sendStopNotice (if why = .preempt then 2 else 1) p.fplan
      else s1.stopIfHeld h

/-! ### The abandon of passes (R59, R62) -/

/-- Whether two passes share an array. -/
def passShares (p q : Pass) : Bool := apTile p.raw == apTile q.raw && (apArrEn p.raw &&& apArrEn q.raw) != 0

/-- One round of the closure of R62: the chain of every struck pass, and every later pass that shares an
array with one. -/
def abandonRound (ps : List Pass) (hit : List Nat) : List Nat :=
  (ps.filter (fun p => hit.contains p.serial
    || ps.any (fun q => hit.contains q.serial && (q.chain == p.chain || (q.serial < p.serial && passShares q p))))).map (·.serial)

/-- The serials of the passes that an abandon of the struck ones takes with it. -/
def abandonSet (ps : List Pass) (struck : Pass → Bool) : List Nat :=
  ps.foldl (fun hit _ => abandonRound ps hit) ((ps.filter struck).map (·.serial))

/-- The drain ring of a pass. -/
def DrainRing.serves (r : DrainRing) (raw : Data1024) : Bool := r.base == apDrainBase raw && r.len == apDrainLen raw

/-- Bytes of a ring up to a position are moved on or committed: space and credits of the whole blocks among them come
back (R57; log 92). -/
def DrainRing.free (r : DrainRing) (upTo : Nat) : DrainRing :=
  { r with freed := (r.blocks.filter (· ≤ upTo)).foldl max r.freed, blocks := r.blocks.filter (upTo < ·) }

/-- The stream that empties a ring has moved `n` bytes more. -/
def DrainRing.moved (r : DrainRing) (n : Nat) : DrainRing := ({ r with rd := r.rd + n }).free (r.rd + n)

/-- The drain ring of a pass rewound to its position at issue (R59). -/
def rewindRing (rings : List DrainRing) (p : Pass) : List DrainRing :=
  if apChainOpen p.raw then rings
  else rings.map (fun r =>
    if r.serves p.raw then
      { r with wr := min r.wr p.ringStart, rd := if apToStream p.raw then min r.rd p.ringStart else r.rd
               freed := min r.freed p.ringStart, blocks := r.blocks.filter (· ≤ p.ringStart) }
    else r)

/-- A slot put back to position `p` of its arming. -/
def Stream.backTo (t : Stream) (p : Nat) : Stream :=
  if p < t.pos then { t with pos := p, bufPos := p, reqPos := p, inBuf := [], epoch := t.epoch + 1 } else t

/-- The drain stream of a pass rewound to its position at issue, within the arming that holds the pass's bytes (R59,
R137). -/
def rewindStream (ts : Vector Stream 64) (p : Pass) : Vector Stream 64 :=
  if apToStream p.raw && !apChainOpen p.raw then
    vmod ts (Fin.ofNat 64 (apDrainStream p.raw)) (fun t => t.backTo (p.drainStart - t.base))
  else ts

/-- The stream empties a drain ring: its source is SRAM and starts within the ring's window (R55). -/
def DrainRing.readBy (g : DrainRing) (d : CWord) : Bool :=
  dSrcKind d == 0 && decide ((g.base.toNat : Int) ≤ endAddr d true 0) && decide (endAddr d true 0 < g.base.toNat + g.len.toNat)

/-- The generators of a pass's arrays put back to its issue snapshot (R86). -/
def restoreGens (c : Caldera) (p : Pass) : Caldera :=
  (apArrays p.raw).foldl (fun c a => c.modArr (arrIdx (apTile p.raw) a) (fun r => { r with gen := p.snaps[a] })) c

/-- An abandoned pass as it awaits its replay: its tentative work is discarded. -/
def Pass.reset (p : Pass) : Pass :=
  { p with st := .abandoned, rows := 0, drained := 0, gens := p.snaps, inv := 0, sat := 0, flush := 0,
           occ := none, occCnt := 0 }

/-- An abandoned pass put among those that await their replay, in issue order (R63). -/
def insertPass (p : Pass) : List Pass → List Pass
  | [] => [p]
  | q :: qs => if p.serial < q.serial then p :: q :: qs else q :: insertPass p qs

/-- The passes that `struck` selects are abandoned with their chains and every later pass on their
arrays (R62): kept for replay, or discarded at an abort. -/
def Caldera.abandon (c : Caldera) (struck : Pass → Bool) (keep : Bool) : Caldera :=
  let hit := abandonSet c.passes struck
  let gone := c.passes.filter (fun p => hit.contains p.serial)
  let c1 := gone.reverse.foldl restoreGens c
  let drained := gone.foldl (fun (v : Vector Int 4) p =>
    vmod v (Fin.ofNat 4 (apTile p.raw)) (· + (p.drained : Int))) (Vector.replicate 4 0)
  { c1 with
    passes := c.passes.filter (fun p => !hit.contains p.serial)
    replays := if keep then gone.foldl (fun l p => insertPass p.reset l) c.replays else c.replays
    rings := gone.foldl rewindRing c1.rings
    streams := gone.foldl rewindStream c1.streams
    passAbandons := satAdd c1.passAbandons gone.length
    dsp := { c1.dsp with rowsSince := Vector.ofFn (fun i => c1.dsp.rowsSince[i] - drained[i]) } }

/-- A fault abandons passes: until the RESUME their tiles issue no further pass (R67). -/
def Caldera.faultAbandon (c : Caldera) (struck : Pass → Bool) : Caldera :=
  let c1 := c.abandon struck true
  { c1 with replays := c1.replays.map (fun r => { r with parked := r.parked || !c.replays.any (fun q => q.serial == r.serial) }) }

/-- CAL_ARR_STATUS: the two slots unpinned by an abort or left pinned by an abandon (R62). -/
def Caldera.unpin (c : Caldera) : Caldera :=
  { c with arrs := c.arrs.map (fun a =>
      { a with slotA := if a.slotA.st = .pinned then { a.slotA with st := .ready } else a.slotA
               slotB := if a.slotB.st = .pinned then { a.slotB with st := .ready } else a.slotB }) }

/-! ### Stream slots -/

def State.stm (s : State) : SlotRef → Stream
  | .cal n k => s.cals[n].streams[k]
  | .cp k => s.cp.streams[k]

def State.modStm (s : State) (r : SlotRef) (f : Stream → Stream) : State :=
  match r with
  | .cal n k => s.modCal n (fun c => { c with streams := vmod c.streams k f })
  | .cp k => s.modCp (fun c => { c with streams := vmod c.streams k f })

/-- Bytes put behind the delivered ones, and bytes taken from their front. -/
def State.feed (s : State) (r : SlotRef) (b : List Byte) : State :=
  s.modStm r (fun t => { t with inBuf := t.inBuf ++ b, moved := true })
def State.unfeed (s : State) (r : SlotRef) (n : Nat) : State :=
  s.modStm r (fun t => { t with inBuf := t.inBuf.drop n, bufPos := t.bufPos + n })

/-- Whether a pass takes its rows from a slot, or empties its drain ring through it. -/
def passFeeds (k : Nat) (p : Pass) : Bool := apActStream p.raw == k
def passDrains (k : Nat) (p : Pass) : Bool := apToStream p.raw && !apChainOpen p.raw && apDrainStream p.raw == k
def passUses (k : Nat) (p : Pass) : Bool := passFeeds k p || passDrains k p

/-- The committed position of a slot (R151): that of the oldest uncommitted pass at its issue, of a record of VST not
yet wholly stored, else the position reached. -/
def State.savedPos (s : State) (r : SlotRef) : Nat :=
  let t := s.stm r
  let here := match t.agenQ with
    | some (_, b, p) => if dDstKind t.desc = 5 ∧ t.pos < p + b.length then min p t.pos else t.pos
    | none => t.pos
  match r with
  | .cp _ => here
  | .cal n k =>
    let c := s.cals[n]
    (c.passes ++ c.replays).foldl (fun m p =>
      if passFeeds k.val p then min m (p.actStart - t.base)
      else if passDrains k.val p then min m (p.drainStart - t.base) else m) here

/-- No record of VST waits to be written. -/
def Stream.agenDone (t : Stream) : Bool :=
  match t.agenQ with
  | some (_, b, p) => decide (p + b.length ≤ t.pos)
  | none => true

/-- Causes that carry a VPN (R159): NOT_PRESENT, PERM, DATA and HOST. -/
def causeHasVpn (cause : Nat) : Bool := cause == 1 || cause == 2 || cause == 3 || cause == 4

/-- DETAIL of STREAM_FAULT (R289). -/
def faultDetail (cause : Nat) (vpn : BitVec 21) (r : SlotRef) : Word :=
  (if causeHasVpn cause then at_ 32 0 vpn else 0) ||| natAt 32 21 cause |||
    (match r with
    | .cal _ k => natAt 32 25 k.val
    | .cp k => natAt 32 25 k.val ||| flagAt 32 31 true)

/-- RESULT1 of STREAM_FAULT (R289). -/
def faultResult (pos : Nat) (r : SlotRef) : DWord :=
  natAt 64 0 (pos % 2 ^ 41) ||| (match r with
    | .cal n _ => natAt 64 41 n.val
    | .cp _ => 0)

/-- The pass that a fault of slot `k` at position `f` of its stream, counted over all its armings, strikes (R67): the oldest one whose rows it still feeds and
whose rows reach beyond `f`, and the oldest one whose drained bytes it has not all moved (log 93). -/
def Caldera.struck (c : Caldera) (k : Nat) (f : Nat) (p : Pass) : Bool :=
  let rowsEnd (q : Pass) : Nat := q.actStart + apRows q.raw * q.rowLen
  let feeds (q : Pass) : Bool := passFeeds k q && q.st == .feed && decide (f < rowsEnd q)
  let drains (q : Pass) : Bool := passDrains k q
    && (c.rings.find? (·.serves q.raw)).all (fun r => decide (r.rd < q.ringStop))
  (c.passes.find? feeds).any (fun q => q.serial == p.serial) || (c.passes.find? drains).any (fun q => q.serial == p.serial)

/-- A demand access fails: the stream halts with its cause, VPN and committed position; inside a plan the
pass it feeds or empties is abandoned and the plan stops, outside a plan its command completes with
STREAM_FAULT (R150, R152, R153, R67). -/
def State.haltStream (s : State) (r : SlotRef) (cause : Nat) (vpn : BitVec 21) : State :=
  let save := s.savedPos r
  let s1 := s.modStm r (fun t =>
    { t with st := .halted, cause := BitVec.ofNat 4 cause, savePos := save,
             vpn := if causeHasVpn cause then vpn else t.vpn,
             inBuf := [], outWords := [], epoch := t.epoch + 1 })
  let s2 := if cause = 1 ∨ cause = 2 ∨ cause = 5 then
      s1.modGlb (fun g => { g with sptFaultCnt := satInc g.sptFaultCnt }) else s1
  match r, (s.stm r).plan, (s.stm r).cmd with
  | .cal n k, some h, _ =>
    let f := (s.stm r).base + (s.stm r).bufPos + (s.stm r).inBuf.length
    (s2.modCal n (fun c => c.faultAbandon (c.struck k.val f))).planStop h .streamFault n.val
  | _, _, some serial =>
    s2.stopWork serial (s.stm r).work 0x20 (faultDetail cause vpn r) 0 (faultResult save r)
  | _, _, none => s2

end Sys2Proof.Machine
end

