-- ==== Sys2Proof/Machine/Conduit.lean ====
section
/-! DEFINITION. Conduits: endpoints, crosspoints and the movement of one word (R178 to R185). -/

namespace Sys2Proof.Machine

/-- A conduit endpoint of the device (R179). -/
inductive EpRef where
  | cal (n : Fin 64) (e : Fin 64)
  | stack (k : Fin 8) (e : Fin 32)
  | port (p : Fin 12) (e : Fin 8)
  | region (r : Fin 16) (e : Fin 16)
deriving DecidableEq, Repr

def State.endpoint (s : State) : EpRef → Endpoint
  | .cal n e => s.cals[n].eps[e]
  | .stack k e => s.hbmStacks[k].eps[e]
  | .port p e => s.ports[p].eps[e]
  | .region r e => s.regions[r].gw[e].ep

def State.modEp (s : State) (r : EpRef) (f : Endpoint → Endpoint) : State :=
  match r with
  | .cal n e => s.modCal n (fun c => { c with eps := vmod c.eps e f })
  | .stack k e => s.modStack k (fun c => { c with eps := vmod c.eps e f })
  | .port p e => s.modPort p (fun c => { c with eps := vmod c.eps e f })
  | .region r e => s.modRegion r (fun c => { c with gw := vmod c.gw e (fun g => { g with ep := f g.ep }) })

/-- A word taken into an endpoint, and counted (R185); and the endpoint's word taken by its consumer. -/
def Endpoint.put (e : Endpoint) (w : CWord) : Endpoint := { e with word := some w, words := satInc e.words }
def Endpoint.take (e : Endpoint) : Endpoint := { e with word := none, coming := e.coming.drop 1 }

/-- The endpoint belongs to a conduit as its source, or as a destination. -/
def Endpoint.source (e : Endpoint) : Bool := e.en && e.out
def Endpoint.dest (e : Endpoint) : Bool := e.en && !e.out

/-- What the far side of a switch node's port and track is (R179). -/
inductive Far where
  /-- An input of a neighbouring switch node. -/
  | node (n : Fin 64) (key : Nat)
  | ep (r : EpRef)
  | nothing
deriving DecidableEq, Repr

/-- Grid row and column of a caldera, and its die (R97, R162). -/
def calDie (n : Fin 64) : Nat := n.val / 32
def calRow (n : Fin 64) : Nat := n.val % 32 / 8
def calCol (n : Fin 64) : Nat := n.val % 8
def calAt (die row col : Nat) : Fin 64 := Fin.ofNat 64 (32 * die + 8 * row + col)

/-- Key of the word held at an input of a switch node. -/
def inKey (port track : Nat) : Nat := 64 * port + track

/-- The far side of port `p`, track `t` of the switch node of caldera `n` (R179). -/
def farSide (n : Fin 64) (p t : Nat) : Far :=
  let d := calDie n
  let r := calRow n
  let c := calCol n
  if p = 4 then .ep (.cal n (Fin.ofNat 64 t))
  else if 32 ≤ t then .nothing
  else if p = 0 then
    if 0 < r then .node (calAt d (r - 1) c) (inKey 1 t)
    else if t < 8 then .node (calAt (1 - d) 0 c) (inKey 0 t)
    else if t < 16 then .ep (.region (Fin.ofNat 16 (8 * d + c / 2)) (Fin.ofNat 16 (8 * (c % 2) + t - 8)))
    else .nothing
  else if p = 1 then
    if r < 3 then .node (calAt d (r + 1) c) (inKey 0 t)
    else if t < 8 then
      if 1 ≤ c ∧ c ≤ 6 then .ep (.port (Fin.ofNat 12 (6 * d + c - 1)) (Fin.ofNat 8 t)) else .nothing
    else if t < 16 then .ep (.region (Fin.ofNat 16 (8 * d + 4 + c / 2)) (Fin.ofNat 16 (8 * (c % 2) + t - 8)))
    else .nothing
  else if p = 2 then
    if 0 < c then .node (calAt d r (c - 1)) (inKey 3 t)
    else if t < 16 then .ep (.stack (Fin.ofNat 8 (4 * d + r / 2)) (Fin.ofNat 32 (16 * (r % 2) + t)))
    else .nothing
  else if p = 3 then
    if c < 7 then .node (calAt d r (c + 1)) (inKey 2 t)
    else if t < 16 then .ep (.stack (Fin.ofNat 8 (4 * d + 2 + r / 2)) (Fin.ofNat 32 (16 * (r % 2) + t)))
    else .nothing
  else .nothing

/-- The tracks of a port: 64 local, 32 between neighbours, 16 outward (R179). -/
def portTracks (n : Fin 64) (p : Nat) : Nat :=
  if p = 4 then 64
  else if (p = 0 ∧ calRow n = 0) ∨ (p = 1 ∧ calRow n = 3) ∨ (p = 2 ∧ calCol n = 0) ∨ (p = 3 ∧ calCol n = 7) then 16
  else if p < 4 then 32 else 0

/-! Fields of a crosspoint entry (R185), stored by output 32 × port + track. -/
def xpKey (port track : Nat) : Nat := 32 * port + track
def Caldera.xp (c : Caldera) (port track : Nat) : BitVec 22 := tget (0 : BitVec 22) c.xps (xpKey port track)
def xpValid (x : BitVec 22) : Bool := bitAt x 0
def xpInPort (x : BitVec 22) : Nat := nfld x 1 3
def xpInTrack (x : BitVec 22) : Nat := nfld x 4 6
def xpConduit (x : BitVec 22) : BitVec 12 := fld x 10 12

/-- The outputs of a switch node: port and track. -/
def nodeOutputs : List (Nat × Nat) :=
  (List.range 4).flatMap (fun p => (List.range 32).map (fun t => (p, t))) ++ (List.range 64).map (fun t => (4, t))

/-- The outputs that an input drives (R180). -/
def Caldera.drives (c : Caldera) (p t : Nat) : List (Nat × Nat) :=
  nodeOutputs.filter (fun o =>
    let x := c.xp o.1 o.2
    xpValid x && xpInPort x == p && xpInTrack x == t)

/-! ### The tree of a conduit (R180) -/

/-- The input of a switch node that an endpoint's track reaches: node, port and track (R179). -/
def epInput : EpRef → Fin 64 × Nat × Nat
  | .cal n e => (n, 4, e.val)
  | .stack k e =>
    let j := k.val % 4
    (calAt (k.val / 4) (2 * (j % 2) + e.val / 16) (if j < 2 then 0 else 7), if j < 2 then 2 else 3, e.val % 16)
  | .port p e => (calAt (p.val / 6) 3 (p.val % 6 + 1), 1, e.val)
  | .region r e =>
    let i := r.val % 8
    (calAt (r.val / 8) (if i < 4 then 0 else 3) (2 * (i % 4) + e.val / 8), if i < 4 then 0 else 1, 8 + e.val % 8)

/-- What a word at an input of a switch node passes on its way: the inputs of further nodes, and the destination
endpoints; a path passes at most `fuel` nodes. -/
def State.below (s : State) : Nat → Fin 64 → Nat → Nat → List Far
  | 0, _, _, _ => []
  | fuel + 1, n, p, t =>
    (s.cals[n].drives p t).flatMap (fun o =>
      match farSide n o.1 o.2 with
      | .node m key => Far.node m key :: s.below fuel m (key / 64) (key % 64)
      | .ep r => [.ep r]
      | .nothing => [])

/-- The tree of a source endpoint. -/
def State.conduitTree (s : State) (r : EpRef) : List Far :=
  let i := epInput r
  s.below 512 i.1 i.2.1 i.2.2

/-- The destination endpoints of a source endpoint's conduit. -/
def State.conduitDests (s : State) (r : EpRef) : List EpRef :=
  (s.conduitTree r).filterMap (fun f => match f with
    | .ep x => some x
    | _ => none)

/-- The source endpoint that drives an output of a switch node. -/
def State.above (s : State) : Nat → Fin 64 → Nat → Nat → Option EpRef
  | 0, _, _, _ => none
  | fuel + 1, n, p, t =>
    let x := s.cals[n].xp p t
    if !xpValid x then none
    else match farSide n (xpInPort x) (xpInTrack x) with
      | .ep r => some r
      | .node m key => s.above fuel m (key / 64) (key % 64)
      | .nothing => none

/-- The source endpoint of the conduit that a destination endpoint belongs to. -/
def State.conduitSource (s : State) (r : EpRef) : Option EpRef :=
  let i := epInput r
  s.above 512 i.1 i.2.1 i.2.2

/-- The other ends of the conduit that an endpoint belongs to: its source, or its destinations. -/
def State.conduitPeers (s : State) (r : EpRef) : List EpRef :=
  let e := s.endpoint r
  if !e.en then [] else if e.out then s.conduitDests r else (s.conduitSource r).toList

/-- A destination endpoint holds no word that its consumer has yet to take: a link port's consumer has them once the
flits that carry them are acknowledged. -/
def State.destDrained (s : State) (r : EpRef) : Bool :=
  (s.endpoint r).word.isNone && (match r with
    | .port p e =>
      let q : Port := s.ports[p]
      q.txBytes[e].isEmpty && (q.replayBuf ++ q.resend).all (fun f => flVc f != 0 || flEp f != e.val)
    | .region g e => s.regions[g].gw[e].inBuf.isEmpty
    | _ => true)

/-- Every word that a source endpoint has taken has reached the consumers (R26). -/
def State.conduitDrained (s : State) (r : EpRef) : Bool :=
  (s.endpoint r).word.isNone && (s.conduitTree r).all (fun f => match f with
    | .node m k => (tfind s.cals[m].held k).isNone
    | .ep x => s.destDrained x
    | .nothing => true)

/-- A region is isolated (R326, R345). -/
def Region.isolated (r : Region) : Bool := r.cfg != 2

/-- The gateway of an isolated region accepts no word and offers none (R326). -/
def State.epQuiet (s : State) : EpRef → Bool
  | .region r _ => s.regions[r].isolated
  | _ => false

/-- A word that waits at a region endpoint joins the four words of the inbound buffer (R320). -/
def GwEp.absorb (w : GwEp) : GwEp :=
  match w.ep.word with
  | some x => if w.ep.dest ∧ w.inBuf.length < 4 then { w with ep := { w.ep with word := none }, inBuf := w.inBuf ++ [x] } else w
  | none => w

/-- The oldest word of the outbound buffer becomes the endpoint's word (R320). -/
def GwEp.offer (w : GwEp) : GwEp :=
  match w.outBuf with
  | x :: xs => if w.ep.source ∧ w.ep.word = none then { w with ep := w.ep.put x, outBuf := xs } else w
  | [] => w

def State.modGw (s : State) (g e : Fin 16) (f : GwEp → GwEp) : State :=
  s.modRegion g (fun r => { r with gw := vmod r.gw e f })

/-- The word at an input of a switch node: one that the node holds, or one that the endpoint at the
input offers. -/
def State.inputWord (s : State) (n : Fin 64) (p t : Nat) : Option CWord :=
  match farSide n p t with
  | .ep r => if (s.endpoint r).source && !s.epQuiet r then (s.endpoint r).word else none
  | _ => tfind s.cals[n].held (inKey p t)

/-- A read request, a write that reads first, and a demand read. -/
def MemReq.partialWrite (r : MemReq) : Bool := r.write && !(r.first == 0 && r.last == 0xFF)
def MemReq.demandRead (r : MemReq) : Bool := !r.write && !r.spec
def MemReq.bytes (r : MemReq) : Nat := r.last.toNat + 1 - r.first.toNat

/-! ### The buffers of a real-time port (R194) -/

/-- Entries of 64 bytes that a request takes in a buffer of its port. -/
def MemReq.entries (r : MemReq) : Nat := (r.bytes + 63) / 64

/-- Free entries of the real-time port's write buffer: a write holds its entries until its block is written. -/
def Chan.writeFree (c : Chan) : Nat :=
  64 - (c.wdata.length + (((c.queue ++ c.inflight).filter (fun r => r.write && r.port == .rt)).map MemReq.entries).sum)

/-- A demand read of the real-time port is outstanding. -/
def Chan.readsOut (c : Chan) : Bool := (c.queue ++ c.inflight).any (fun r => r.port == .rt && r.demandRead)

/-- A port enters or leaves panic as its buffers stand; an entry is counted (R194). -/
def Chan.watch (c : Chan) (low high : Nat) : Chan :=
  let entries := c.rbuf.length
  let rd := if c.panicRd then c.readsOut && decide (entries ≤ high) else c.readsOut && decide (entries < low)
  let wr := if c.panicWr then decide (c.writeFree ≤ high) else decide (c.writeFree < low)
  { c with panicRd := rd, panicWr := wr,
           panicCnt := if (rd || wr) && !(c.panicRd || c.panicWr) then satInc c.panicCnt else c.panicCnt }

def State.watchPanic (s : State) (k : Fin 8) (ch : Fin 32) : State :=
  s.modStack k (fun st => { st with ch := vmod st.ch ch (fun c => c.watch st.low.toNat st.high.toNat) })

/-- Panic is tested again at every channel of a stack. -/
def State.watchStack (s : State) (k : Fin 8) : State := (List.finRange 32).foldl (fun s ch => s.watchPanic k ch) s

/-- The memory endpoint that serves a slot's requests: the one at the other end of the conduit that holds endpoint `k` of
the slot's caldera (R130, R191).  DESIGN CHOICE (log 120): of several in a branching conduit, the first in its tree. -/
def State.stackEnd (s : State) (n : Fin 64) (k : Fin 64) : Option (Fin 8 × Fin 32) :=
  (s.conduitPeers (.cal n k)).findSome? (fun r => match r with
    | .stack st i => some (st, i)
    | _ => none)

/-- The oldest word of a read buffer enters the port's endpoint; every destination of the conduit is to receive it (R182,
R194). -/
def State.offerStack (s : State) (k : Fin 8) (e : Fin 32) : State :=
  let ep : Endpoint := s.hbmStacks[k].eps[e]
  match (s.hbmStacks[k].ch[e]).rbuf with
  | x :: xs =>
    if ep.source ∧ ep.word = none then
      let s1 := s.modStack k (fun st => { st with ch := vmod st.ch e (fun c => { c with rbuf := xs }), eps := vmod st.eps e (fun p => p.put x.1) })
      ((s.conduitDests (.stack k e)).foldl (fun s d => s.modEp d (fun p => { p with coming := p.coming ++ [x.2] })) s1).watchPanic k e
    else s
  | [] => s

/-- A word of a write that has reached a memory endpoint joins the port's write buffer, which holds it until its request
comes; at an endpoint of the conduit that serves no request it goes no further (R188, R194; log 120). -/
def State.absorbStack (s : State) (k : Fin 8) (e : Fin 32) : State :=
  let ep : Endpoint := s.hbmStacks[k].eps[e]
  match ep.word, s.conduitSource (.stack k e) with
  | some w, some (.cal n i) =>
    if !ep.dest then s
    else if s.stackEnd n i ≠ some (k, e) then s.modEp (.stack k e) (fun p => { p with word := none })
    else if (s.hbmStacks[k].ch[e]).writeFree = 0 then s
    else
      (s.modStack k (fun st => { st with ch := vmod st.ch e (fun c => { c with wdata := c.wdata ++ [w] })
                                         eps := vmod st.eps e (fun p => { p with word := none }) })).watchPanic k e
  | _, _ => s

/-- A word that waits at a link endpoint joins the bytes of its flits (R220). -/
def Port.absorb (p : Port) (e : Fin 8) : Port :=
  if p.eps[e].dest ∧ p.txBytes[e].length < 240 then
    match p.eps[e].word with
    | some w => { p with eps := vmod p.eps e (fun x => { x with word := none }), txBytes := vmod p.txBytes e (· ++ toBytes w 64) }
    | none => p
  else p

/-- A flit leaves its receive buffer and its credit is to be returned (R221, R242). -/
def Port.release (p : Port) (vc : Fin 4) : Port :=
  if p.held[vc] = 0 then p else { p with held := vmod p.held vc (· - 1), owed := vmod p.owed vc (· + 1) }

/-- `n` bytes taken from the front of received flits: what is left of each, and how many are used up. -/
def takeLens : Nat → List Nat → List Nat × Nat
  | _, [] => ([], 0)
  | n, k :: l => if k ≤ n then let r := takeLens (n - k) l; (r.1, r.2 + 1) else ((k - n) :: l, 0)

/-- Received bytes become the next word of a link endpoint; a flit all of whose bytes are taken leaves its buffer
(R220, R221). -/
def Port.offer (p : Port) (e : Fin 8) : Port :=
  if p.eps[e].source ∧ p.eps[e].word = none ∧ 64 ≤ p.rxBytes[e].length then
    let l := takeLens 64 p.rxLens[e]
    (List.range l.2).foldl (fun (q : Port) _ => q.release 0)
      { p with eps := vmod p.eps e (fun x => x.put (ofBytes 512 (p.rxBytes[e].take 64))), rxBytes := vmod p.rxBytes e (·.drop 64)
               rxLens := vset p.rxLens e l.1 }
  else p

/-- The input is emptied. -/
def State.takeInput (s : State) (n : Fin 64) (p t : Nat) : State :=
  match farSide n p t with
  | .ep r =>
    let s1 := s.modEp r (fun e => { e with word := none })
    match r with
    | .port p e => s1.modPort p (fun q => q.offer e)
    | .region g e => s1.modGw g e GwEp.offer
    | .stack k e => s1.offerStack k e
    | .cal _ _ => s1
  | _ => s.modCal n (fun c => { c with held := tdel c.held (inKey p t) })

/-- Whether an output can take a word. -/
def State.outputFree (s : State) (n : Fin 64) (o : Nat × Nat) : Bool :=
  match farSide n o.1 o.2 with
  | .ep r => (s.endpoint r).dest && (s.endpoint r).word.isNone && !s.epQuiet r
  | .node m k => (tfind s.cals[m].held k).isNone
  | .nothing => false

/-- A word leaves through an output. -/
def State.pushOutput (w : CWord) (n : Fin 64) (s : State) (o : Nat × Nat) : State :=
  match farSide n o.1 o.2 with
  | .ep r =>
    let s1 := s.modEp r (fun e => e.put w)
    match r with
    | .port p e => s1.modPort p (fun q => q.absorb e)
    | .region g e => s1.modGw g e GwEp.absorb
    | .stack k e => s1.absorbStack k e
    | .cal _ _ => s1
  | .node m k => s.modCal m (fun c => { c with held := tput c.held k w })
  | .nothing => s

/-- CONDUIT_WORD: the word at an input of a switch node moves to every output that the input drives, once
every branch is free (R182). -/
def execConduitWord (cal : Fin 64) (port : Fin 5) (track : Fin 64) (s : State) : Out :=
  let outs := s.cals[cal].drives port.val track.val
  match s.inputWord cal port.val track.val with
  | none => .next s
  | some w =>
    if outs ≠ [] ∧ outs.all (s.outputFree cal) then
      .next (outs.foldl (State.pushOutput w cal) (s.takeInput cal port.val track.val))
    else .next s

/-! ### Check bits (R332) -/

/-- The code positions of the data bits: 1 to 4,109 without the powers of two. -/
def dataPositions : List Nat := (List.range 4110).filter (fun p => p != 0 && p != 2 ^ (Nat.log2 p))

/-- The XOR of the positions of the set data bits: c0 to c12. -/
def hamming (d : BitVec 4096) : BitVec 13 :=
  (List.zip (List.range 4096) dataPositions).foldl (fun c x => if d.getLsbD x.1 then c ^^^ BitVec.ofNat 13 x.2 else c) 0

/-- The parity of a record. -/
def parity {n : Nat} (w : BitVec n) : Bool := (setBits w).length % 2 == 1

/-- The 14 check bits of a frame. -/
def cfgFrameCheck (d : BitVec 4096) : BitVec 14 :=
  let c := hamming d
  c.setWidth 14 ||| flagAt 14 13 (parity d != parity c)

/-- The outcome of a check: 0 clean, 1 a single error, 2 a double error, with s. -/
def frameTest (d : BitVec 4096) (c : BitVec 14) : Nat × Nat :=
  let s := (hamming d ^^^ c.setWidth 13).toNat
  let p := parity d != parity c
  if s = 0 ∧ !p then (0, 0) else if p ∧ s ≤ 4109 then (1, s) else (2, s)

/-- A code position flipped in a frame and its check bits; 0 stands for c13. -/
def flipPos (x : BitVec 4096 × BitVec 14) (p : Nat) : BitVec 4096 × BitVec 14 :=
  if p = 0 then (x.1, x.2 ^^^ BitVec.twoPow 14 13)
  else match dataPositions.findIdx? (fun q => q == p) with
    | some j => (x.1 ^^^ BitVec.twoPow 4096 j, x.2)
    | none => (x.1, x.2 ^^^ BitVec.twoPow 14 (Nat.log2 p))

/-! ### Setup of conduits (R181, R185) -/

/-- The conduit of an endpoint ends at, or starts from, a logic region. -/
def State.conduitRegion (s : State) (r : EpRef) : Bool :=
  (s.conduitPeers r).any (fun x => match x with
    | .region _ _ => true
    | _ => false)

/-- A write of an endpoint's control word; the setup starts its word count again (R185). -/
def Endpoint.putCtl (e : Endpoint) (w : Word) : Endpoint :=
  { e with en := bitAt w 0, out := bitAt w 1, conduit := fld w 16 12, words := 0, coming := [] }

/-- CDT_EP_CTL as it reads. -/
def Endpoint.ctlWord (e : Endpoint) : Word :=
  flagAt 32 0 e.en ||| flagAt 32 1 e.out ||| flagAt 32 2 e.word.isSome ||| at_ 32 16 e.conduit

/-- A write of a crosspoint entry; one of an absent track is ignored (R185). -/
def Caldera.putXp (n : Fin 64) (c : Caldera) (key : Nat) (w : Word) : Caldera :=
  let p := min 4 (key / 32)
  if key - 32 * p < portTracks n p then { c with xps := tset (0 : BitVec 22) c.xps key (fld w 0 22) } else c

/-- The endpoint that a conduit section's BAR0 address names, if it names one. -/
def epOfAddr (a : Nat) : Option EpRef :=
  let o := fun (stride : Nat) => a % stride
  let inTab := fun (off n : Nat) => decide (0x8000 ≤ off ∧ off < 0x8000 + 16 * n ∧ off % 16 = 0)
  if 0x01000000 ≤ a ∧ a < 0x02000000 then
    if inTab (o 0x40000) 64 then
      some (.cal (Fin.ofNat 64 ((a - 0x01000000) / 0x40000)) (Fin.ofNat 64 ((o 0x40000 - 0x8000) / 16))) else none
  else if 0x00800000 ≤ a ∧ a < 0x00A00000 then
    if inTab (o 0x40000) 32 then
      some (.stack (Fin.ofNat 8 ((a - 0x00800000) / 0x40000)) (Fin.ofNat 32 ((o 0x40000 - 0x8000) / 16))) else none
  else if 0x00600000 ≤ a ∧ a < 0x006C0000 then
    if inTab (o 0x10000) 8 then
      some (.port (Fin.ofNat 12 ((a - 0x00600000) / 0x10000)) (Fin.ofNat 8 ((o 0x10000 - 0x8000) / 16))) else none
  else if 0x00C00000 ≤ a ∧ a < 0x00D00000 then
    if inTab (o 0x10000) 16 then
      some (.region (Fin.ofNat 16 ((a - 0x00C00000) / 0x10000)) (Fin.ofNat 16 ((o 0x10000 - 0x8000) / 16))) else none
  else none

/-- The crosspoint output that a conduit section's BAR0 address names: caldera and key 32 × port + track. -/
def xpOfAddr (a : Nat) : Option (Fin 64 × Nat) :=
  let off := a % 0x40000
  if 0x01000000 ≤ a ∧ a < 0x02000000 ∧ 0x9000 ≤ off ∧ off < 0x9000 + 4 * 192 ∧ off % 4 = 0 then
    some (Fin.ofNat 64 ((a - 0x01000000) / 0x40000), (off - 0x9000) / 4)
  else none

/-- One address and value pair of a plan's conduit setup written (R181, R283). -/
def State.writeConduit (s : State) (w : Word × Word) : State :=
  match epOfAddr w.1.toNat, xpOfAddr w.1.toNat with
  | some r, _ => s.modEp r (fun e => e.putCtl w.2)
  | none, some (n, k) => s.modCal n (fun c => c.putXp n k w.2)
  | none, none => s

/-- The endpoints that a setup names. -/
def setupEps (ws : List (Word × Word)) : List EpRef := ws.filterMap (fun w => epOfAddr w.1.toNat)

/-- The region endpoints of a plan's conduits. -/
def Plan.gwEps (p : Plan) : List (Fin 16 × Fin 16) :=
  (setupEps p.conduits).filterMap (fun r => match r with
    | .region g e => some (g, e)
    | _ => none)

/-- The inputs of switch nodes that a setup takes words from. -/
def setupInputs (ws : List (Word × Word)) : List (Fin 64 × Nat) :=
  ws.filterMap (fun w => (xpOfAddr w.1.toNat).map (fun x => (x.1, inKey (xpInPort (fld w.2 0 22)) (xpInTrack (fld w.2 0 22)))))

/-- Every word in flight in the conduits of a setup is discarded (R184). -/
def State.discardWords (s : State) (ws : List (Word × Word)) : State :=
  let s1 := (setupInputs ws).foldl (fun (s : State) x => s.modCal x.1 (fun c => { c with held := tdel c.held x.2 })) s
  (setupEps ws).foldl (fun s r =>
    let s2 := s.modEp r (fun e => { e with word := none, coming := [] })
    match r with
    | .port p e => s2.modPort p (fun q => (List.range q.rxLens[e].length).foldl (fun (q : Port) _ => q.release 0)
        { q with txBytes := vset q.txBytes e [], rxBytes := vset q.rxBytes e [], rxLens := vset q.rxLens e [] })
    | .region g e => s2.modRegion g (fun r => { r with gw := vmod r.gw e (fun w => { w with inBuf := [], outBuf := [] }) })
    | .stack k e =>
      { s2 with lanes := s2.lanes.filter (fun l => !(l.stack == k && l.ch == e && l.port == MemPort.rt)) }.modStack k (fun st =>
        { st with ch := vmod st.ch e (fun c => { c with rbuf := [], wdata := [] }) })
    | .cal _ _ => s2) s1

/-- The CDT_EP_CTL and CDT_XP registers of a die's conduit block, by their BAR0 addresses (R185, R353). -/
def conduitAddrs (die : Bool) : List Word :=
  let mine (n half : Nat) : List Nat := (List.range half).map (fun i => i + if die then n - half else 0)
  let eps (base stride n eps : Nat) : List Nat :=
    (mine n (n / 2)).flatMap (fun k => (List.range eps).map (fun e => base + stride * k + 0x8000 + 16 * e))
  ((mine 64 32).flatMap (fun n => (List.range 192).map (fun k => 0x01009000 + 0x40000 * n + 4 * k))
    ++ eps 0x01000000 0x40000 64 64 ++ eps 0x00800000 0x40000 8 32 ++ eps 0x00600000 0x10000 12 8 ++ eps 0x00C00000 0x10000 16 16).map
    (BitVec.ofNat 32)

/-- The setup that a register of a conduit block holds. -/
def State.conduitWord (s : State) (a : Word) : Word :=
  match epOfAddr a.toNat, xpOfAddr a.toNat with
  | some r, _ => let e := s.endpoint r
    flagAt 32 0 e.en ||| flagAt 32 1 e.out ||| at_ 32 16 e.conduit
  | none, some (n, k) => (tget (0 : BitVec 22) s.cals[n].xps k).setWidth 32
  | none, none => 0

/-- The setup of a register of a conduit block replaced; what moves through the conduit goes on (R353). -/
def State.putConduit (s : State) (w : Word × Word) : State :=
  match epOfAddr w.1.toNat, xpOfAddr w.1.toNat with
  | some r, _ => s.modEp r (fun e => { e with en := bitAt w.2 0, out := bitAt w.2 1, conduit := fld w.2 16 12 })
  | none, some (n, k) => s.modCal n (fun c => c.putXp n k w.2)
  | none, none => s

/-- What the conduit block of a die holds (R353): the registers that are not zero, with their addresses. -/
def State.conduitBlock (s : State) (die : Bool) : List (Word × Word) :=
  ((conduitAddrs die).map (fun a => (a, s.conduitWord a))).filter (fun w => w.2 != 0)

/-- A conduit block as bytes, eight for a register. -/
def conduitBytes (ws : List (Word × Word)) : List Byte := ws.flatMap (fun w => toBytes w.1 4 ++ toBytes w.2 4)
/-- The registers that such bytes name. -/
def conduitOf (b : List Byte) : List (Word × Word) :=
  (List.range (b.length / 8)).map (fun i => (ofBytes 32 (slice b (8 * i) 4), ofBytes 32 (slice b (8 * i + 4) 4)))

/-- Keys of the golden signatures: microcode and tables of a caldera, the conduit block of a die. -/
def microKey (n : Fin 64) : Nat := n.val
def tableKey (n : Fin 64) : Nat := 64 + n.val
def conduitKey (die : Bool) : Nat := 128 + die.toNat

/-- The key of a hardened block. -/
def hardKey : HardRef → Nat
  | .microcode n => microKey n
  | .tables n => tableKey n
  | .conduit d => conduitKey d

/-- The place of a hardened block in the reference store: its first frame; its frames follow (DESIGN CHOICE, log 135). -/
def refBase : HardRef → Nat
  | .microcode _ => 0xC0000000
  | .tables _ => 0xC0010000
  | .conduit d => 0xC0020000 + 0x10000 * d.toNat

/-- A hardened block's bytes put into the reference store, frame by frame (R353). -/
def Cfg.putRef (c : Cfg) (b : HardRef) (bytes : List Byte) : Cfg :=
  let other (k : Nat) : Bool := k / 0x10000 != refBase b / 0x10000
  (List.range ((bytes.length + 511) / 512)).foldl (fun c i =>
      let d : BitVec 4096 := ofBytes 4096 (slice bytes (512 * i) 512)
      { c with refStore := tput c.refStore (refBase b + i) d, refChecks := tput c.refChecks (refBase b + i) (cfgFrameCheck d) })
    { c with refStore := c.refStore.filter (fun x => other x.1), refChecks := c.refChecks.filter (fun x => other x.1) }

/-- The golden signatures and the reference copies of both conduit blocks captured (R353). -/
def State.captureConduits (s : State) : State :=
  let take (d : Bool) (c : Cfg) : Cfg :=
    let b := conduitBytes (s.conduitBlock d)
    let c1 := c.putRef (.conduit d) b
    { c1 with golden := tput c1.golden (conduitKey d) (sha384 b) }
  s.modCfg (fun c => take true (take false c))

/-- A plan's conduits written (R181). -/
def State.setupConduits (s : State) (ws : List (Word × Word)) : State :=
  if ws.isEmpty then s else (ws.foldl State.writeConduit s).captureConduits

/-- A plan's conduits cleared: words in flight, crosspoints and endpoints (R181, R325). -/
def State.clearConduits (s : State) (ws : List (Word × Word)) : State :=
  if ws.isEmpty then s
  else
    let s1 := (s.discardWords ws).setupConduits (ws.map (fun w => (w.1, 0)))
    (setupEps ws).foldl (fun s r =>
      let s2 := s.modEp r (fun _ => {})
      match r with
      | .region g e => s2.modRegion g (fun r => { r with gw := vmod r.gw e (fun w => { w with pos := 0, armBase := 0 }) })
      | _ => s2) s1

end Sys2Proof.Machine
end

