-- ==== Sys2Proof/Machine/Flags.lean ====
section
/-! DEFINITION. The arithmetic sticky flags (R89): merging at a commit (R60), setting by the DSP unit,
clearing by software (R91). -/

namespace Sys2Proof.Machine

/-- The pass-local flags of one array merged into its status at a commit: set flags stay set (R60, R91). -/
def Arr.mergeFlags (a : Arr) (inv sat fl : Bool) : Arr :=
  { a with invalid := a.invalid || inv, sat := a.sat || sat, flush := a.flush || fl }

/-- A write of CAL_ARR_STATUS: W1C of the four flags (R71). -/
def Arr.clearFlags (a : Arr) (w : Word) : Arr :=
  { a with invalid := w1cBit a.invalid (bitAt w 0), sat := w1cBit a.sat (bitAt w 1),
           flush := w1cBit a.flush (bitAt w 2), fmtErr := w1cBit a.fmtErr (bitAt w 3) }

/-- The flags of a completed DSP instruction set in DSP_STATUS (R89, R109). -/
def Dsp.setFlags (d : Dsp) (inv sat fl : Bool) : Dsp :=
  { d with invalid := d.invalid || inv, sat := d.sat || sat, flush := d.flush || fl }

/-- A write of DSP_STATUS: W1C of the three flags and FAULT. -/
def Dsp.clearFlags (d : Dsp) (w : Word) : Dsp :=
  { d with invalid := w1cBit d.invalid (bitAt w 0), sat := w1cBit d.sat (bitAt w 1),
           flush := w1cBit d.flush (bitAt w 2), fault := w1cBit d.fault (bitAt w 3) }

end Sys2Proof.Machine
end

