-- ==== Sys2Proof/Machine/Matrix.lean ====
section
/-! DEFINITION. What an array computes: one column of one row (R35, R36, R80 to R82, R92), and one
array's part of a drained row (R56). -/

namespace Sys2Proof.Machine

/-- Byte `i` of a list as a number. -/
def byteNat (l : List Byte) (i : Nat) : Nat := (l.getD i 0).toNat

/-- The code of element `k` in packed elements (R39). -/
def elemCode (f : Fmt) (l : List Byte) (k : Nat) : Nat :=
  if f.width = 4 then byteNat l (k / 2) / 16 ^ (k % 2) % 16
  else if f.width = 6 then byteNat l k % 64
  else if f.width = 8 then byteNat l k
  else if f.width = 16 then byteNat l (2 * k) + 256 * byteNat l (2 * k + 1)
  else byteNat l (4 * k) + 256 * byteNat l (4 * k + 1) + 65536 * byteNat l (4 * k + 2) + 16777216 * byteNat l (4 * k + 3)

/-- Bytes that `n` packed elements take (R39). -/
def elemBytes (f : Fmt) (n : Nat) : Nat :=
  if f.width = 4 then (n + 1) / 2 else if f.width ≤ 8 then n else n * f.width / 8

/-- Elements packed as R39 and R56 state. -/
def packCodes (f : Fmt) : List Nat → List Byte
  | [] => []
  | c :: cs =>
    if f.width = 4 then
      match cs with
      | [] => [BitVec.ofNat 8 c]
      | d :: ds => BitVec.ofNat 8 (c + 16 * d) :: packCodes f ds
    else toBytes (BitVec.ofNat 32 c) (Max.max 1 (f.width / 8)) ++ packCodes f cs

/-- The K of a block of a weight format (R34). -/
def blockK (wfmt : Nat) : Nat := if wfmt = 4 then 128 else 64

/-- Bytes of one column in a weight block image (R39). -/
def imageColBytes (wfmt : Nat) : Nat := if wfmt ≤ 5 then 64 else if wfmt = 10 then 256 else 128

/-- The size of a weight block image (R39). -/
def imageSize (wfmt : Nat) : Nat :=
  if wfmt = 4 then 4352 else if wfmt ≤ 5 then 4224 else if wfmt = 10 then 16384 else 8192

/-- Weight code `k` of column `n` and its group's scale code. -/
def weightCode (f : Fmt) (wfmt : Nat) (image : List Byte) (n k : Nat) : Nat :=
  elemCode f (slice image (n * imageColBytes wfmt) (imageColBytes wfmt)) k
def weightScale (wfmt : Nat) (image : List Byte) (n g : Nat) : Nat := byteNat image (4096 + n * (blockK wfmt / 32) + g)

/-- The length of an activation row of `k` elements (R39). -/
def rowBytes (afmt k : Nat) : Nat := recordBytes afmt false false k

/-- Whether the weight at `k` is fed: loaded, and its cell row unmasked (R34, R52). -/
def fedRow (wfmt : Nat) (kValid : Byte) (kMask : DWord) (k : Nat) : Bool :=
  decide (k < kValid.toNat) && kMask.getLsbD (if wfmt = 4 then k / 2 else k)

/-- The formats a pass may combine (R46). -/
def pairOk (wfmt afmt : Nat) (strict : Bool) : Bool :=
  if isMx wfmt then isMx afmt && !strict else wfmt == afmt && (wfmt == 8 || wfmt == 9 || wfmt == 10)

/-- What one column of one row yields: the accumulator, whether an input was flushed, and the K groups
with a product of zero and infinity. -/
structure ColRes where
  acc : Word
  flush : Bool := false
  occ : List Nat := []
deriving DecidableEq, Repr

/-- The fed terms of one K group: activation and weight after R87. -/
def groupTerms (slot : WSlot) (af wf : Fmt) (row : List Byte) (kMask : DWord) (flush : Bool) (n g : Nat) :
    List ((Num × Bool) × (Num × Bool)) :=
  (((List.range 32).map (32 * g + ·)).filter (fedRow slot.fmt.toNat slot.kValid kMask)).map (fun k =>
    (af.input flush (elemCode af row k), wf.input flush (weightCode wf slot.fmt.toNat slot.image n k)))

/-- Exact products summed in order. -/
def sumNums : List Num → Num
  | [] => .fin false 0 0
  | v :: vs => vs.foldl Num.add v

/-- The largest of several values (R88). -/
def maxNums : List Num → Num
  | [] => .inf true
  | v :: vs => vs.foldl Num.max v

/-- One group's contribution to an output element (R35, R36, R81). -/
def groupStep (slot : WSlot) (afmt : Nat) (af wf : Fmt) (row : List Byte) (kMask : DWord)
    (strict maxr flush : Bool) (n : Nat) (r : ColRes) (g : Nat) : ColRes :=
  let ts := groupTerms slot af wf row kMask flush n g
  if ts.isEmpty then r
  else
    let bad := ts.any (fun t => zeroTimesInf t.1.1 t.2.1)
    let fl := ts.any (fun t => t.1.2 || t.2.2)
    let sa := if isMx afmt then scaleNum (byteNat row (elemBytes af (blockK slot.fmt.toNat) + g)) else .fin false 1 0
    let sw := if isMx slot.fmt.toNat then scaleNum (weightScale slot.fmt.toNat slot.image n g) else .fin false 1 0
    let acc :=
      if strict then ts.foldl (fun a t => roundFP32 ((t.1.1.mul t.2.1).add (fp32 a))) r.acc
      else if maxr then
        roundFP32 ((fp32 r.acc).max (fp32 (roundFP32 (maxNums (ts.map (fun t => (sa.mul sw).mul (t.1.1.mul t.2.1)))))))
      else roundFP32 ((fp32 r.acc).add ((sa.mul sw).mul (sumNums (ts.map (fun t => t.1.1.mul t.2.1)))))
    { acc := acc, flush := r.flush || fl, occ := if bad then r.occ ++ [g] else r.occ }

/-- One column of one row, groups ascending (R35). -/
def column (slot : WSlot) (afmt : Nat) (row : List Byte) (kMask : DWord) (strict maxr flush : Bool) (n : Nat)
    (acc : Word) : ColRes :=
  match fmtOf afmt, fmtOf slot.fmt.toNat with
  | some af, some wf =>
    (List.range (blockK slot.fmt.toNat / 32)).foldl
      (groupStep slot afmt af wf row kMask strict maxr flush n) { acc := acc }
  | _, _ => { acc := acc }

/-- One array's part of a drained row: its bytes, and the generator and flags left (R56, R79, R83 to R87). -/
def drainArray (ofmt : Nat) (sround ovf flush : Bool) (cols : List (Nat × Word)) (gen : Word) : List Byte × ConvRow :=
  match fmtOf ofmt with
  | none => ([], { gen := gen })
  | some f =>
    if f.mx then
      let groups := [cols.filter (fun c => c.1 < 32), cols.filter (fun c => 32 ≤ c.1)].filter (fun g => !g.isEmpty)
      let r := groups.foldl (fun acc g => convGroup f sround ovf flush acc (g.map (fun c => fp32 c.2))) { gen := gen }
      (packCodes f r.codes ++ r.scales.map (BitVec.ofNat 8), r)
    else
      let r := (cols.map (fun c => fp32 c.2)).foldl
        (convDraw f sround (ovf || f.width == 32) flush false) { gen := gen }
      (packCodes f r.codes, r)

/-- The length of one drained row of a pass (R56). -/
def drainRowBytes (raw : Data1024) : Nat :=
  match fmtOf (apOFmt raw) with
  | none => 0
  | some f => ((apArrays raw).map (fun a =>
      let cols := setBits (apNMask raw a.val)
      elemBytes f cols.length + (if f.mx then
        (if cols.any (fun c => decide (c < 32)) then 1 else 0) + (if cols.any (fun c => decide (32 ≤ c)) then 1 else 0)
        else 0))).sum

/-- The rows of a pass that the drain of one block takes: from `d`, DRAIN_M1 + 1 rows or what is left. -/
def drainBlockRows (raw : Data1024) (d : Nat) : Nat := min (apDrainRows raw) (apRows raw - d)

end Sys2Proof.Machine
end

