-- ==== Sys2Proof/Machine/Arrays.lean ====
section
/-! DEFINITION. Weight loads, relay chains, and the life of an array pass up to its commit (R33 to R73). -/

namespace Sys2Proof.Machine

/-! ### The caldera's instruction queue (R49) -/

/-- The tile of a queued instruction; SARM belongs to no tile. -/
def instrTile (q : QInstr) : Option Nat :=
  if opOf q.raw = 0x22 then some (wlTile q.raw)
  else if opOf q.raw = 0x21 then some (apTile q.raw)
  else if opOf q.raw = 0x23 then some (rlTile (q.raw.setWidth 256))
  else none

/-- The first queued instruction of a tile. -/
def Caldera.nextOf (c : Caldera) (t : Fin 4) : Option QInstr := c.queue.find? (fun q => instrTile q == some t.val)

/-- The queue without its first instruction of a tile. -/
def dropFirst (t : Nat) : List QInstr → List QInstr
  | [] => []
  | q :: qs => if instrTile q == some t then qs else q :: dropFirst t qs

/-- A fault has abandoned a pass of the tile, which issues none before the RESUME (R67). -/
def Caldera.tileParked (c : Caldera) (t : Nat) : Bool := c.replays.any (fun r => r.parked && apTile r.raw == t)

/-- The abandoned passes that are to be replayed now, in issue order: those of tiles that no fault holds back (R63, R67). -/
def Caldera.due (c : Caldera) : List Pass := c.replays.filter (fun r => !c.tileParked (apTile r.raw))

/-- Whether an instruction of the tile that has not issued may issue now: the plan runs, no abandoned pass of the caldera
is to be replayed first, and no fault holds the tile back (R63, R67). -/
def State.mayIssue (s : State) (n : Fin 64) (t : Fin 4) (beat : Nat) : Bool :=
  match s.planOn n with
  | none => false
  | some p =>
    p.run == .running && decide (beat ≤ p.beat) && s.cals[n].due.isEmpty && !s.cals[n].tileParked t.val

/-- The weight slot of an array. -/
def Arr.slot (a : Arr) (b : Bool) : WSlot := if b then a.slotB else a.slotA
def Arr.setSlot (a : Arr) (b : Bool) (w : WSlot) : Arr := if b then { a with slotB := w } else { a with slotA := w }

/-- A slot that a load may take: READY or EMPTY (R41). -/
def WSlot.loadable (w : WSlot) : Bool := w.st == .ready || w.st == .empty

/-! ### WLOAD (R40, R41) -/

/-- A WLOAD issues: its slot enters LOADING with the block's description; BLOCK_ID is kept there and no register shows
it (R40; log 107). -/
def wloadStart (c : Caldera) (t : Fin 4) (raw : Data1024) : Caldera :=
  let i := arrIdx (wlTile raw) (Fin.ofNat 4 (wlArray raw))
  { c.modArr i (fun a => a.setSlot (wlSlotB raw)
      { a.slot (wlSlotB raw) with
        st := .loading, fmt := BitVec.ofNat 4 (wlFmt raw), kValid := BitVec.ofNat 8 (wlKValid raw),
        blockId := wlBlockId raw, src := BitVec.ofNat 24 (wlSrc raw), chain := none, far := false, image := [] })
    with queue := dropFirst t.val c.queue }

/-- WLOAD: the next instruction of a tile copies a block image into a weight slot; on a LOADING or
PINNED slot it waits (R40, R41). -/
def execWload (cal : Fin 64) (tile : Fin 4) (s : State) : Out :=
  let c := s.cals[cal]
  match c.nextOf tile with
  | none => .next s
  | some q =>
    let i := arrIdx (wlTile q.raw) (Fin.ofNat 4 (wlArray q.raw))
    if opOf q.raw = 0x22 ∧ s.mayIssue cal tile q.beat ∧ (c.arrs[i].slot (wlSlotB q.raw)).loadable then
      .next (s.modCal cal (fun c => wloadStart c tile q.raw))
    else .next s

/-- The image read into a slot: the slot is READY (R41). -/
def loadSlot (c : Caldera) (w : WSlot) : WSlot :=
  { w with st := .ready, image := mreadN c.sram w.src.toNat (imageSize w.fmt.toNat) }

/-- WLOAD_COMPLETE: the block image has entered the slot, which becomes READY (R40, R41). -/
def execWloadComplete (cal : Fin 64) (arr : Fin 16) (slotB : Bool) (s : State) : Out :=
  let w := s.cals[cal].arrs[arr].slot slotB
  if w.st = .loading ∧ w.chain = none then
    .next (s.modCal cal (fun c => c.modArr arr (fun a => a.setSlot slotB (loadSlot c w))))
  else .next s

/-! ### Relay chains (R42, R43) -/

/-- How many of the RELAYs before place `i` receive from the same endpoint as `raw`. -/
def inOrdinal (log : List (BitVec 256)) (i : Nat) (raw : BitVec 256) : Nat :=
  ((log.take i).filter (fun r => !rlFromSram r && rlInEp r == rlInEp raw)).length

/-- The `k`-th RELAY of a caldera that forwards to endpoint `e`, with its place. -/
def outRelay (log : List (BitVec 256)) (e k : Nat) : Option (BitVec 256 × Nat) :=
  (log.zipIdx.filter (fun x => rlForward x.1 && rlOutEp x.1 == e))[k]?

/-- The head of the relay chain that reaches the member at place `i` of a caldera: its caldera and SRAM address; none
where the chain comes from another device.  The k-th RELAY that receives from a conduit belongs to the k-th that
forwards into it (R41). -/
def relayHead (logs : Fin 64 → List (BitVec 256)) (source : EpRef → Option EpRef) :
    Nat → Fin 64 → Nat → BitVec 256 → Option (Fin 64 × Nat)
  | 0, _, _, _ => none
  | k + 1, n, i, raw =>
    if rlFromSram raw then some (n, rlAddr raw)
    else
      match source (.cal n (Fin.ofNat 64 (rlInEp raw))) with
      | some (.cal m e) =>
        match outRelay (logs m) e.val (inOrdinal (logs n) i raw) with
        | some x => relayHead logs source k m x.2 x.1
        | none => none
      | _ => none

/-- The head of a chain on this device, by the RELAYs that its calderas have issued. -/
def State.chainHead (s : State) (n : Fin 64) (i : Nat) (raw : BitVec 256) : Option (Fin 64 × Nat) :=
  relayHead (fun n => s.cals[n].relayLog) s.conduitSource 64 n i raw

/-- RELAY: the next instruction of a tile makes the caldera a member of a relay chain; with TO_SLOT on a
LOADING or PINNED slot it waits (R41, R42). -/
def execRelay (cal : Fin 64) (tile : Fin 4) (s : State) : Out :=
  let c := s.cals[cal]
  match c.nextOf tile with
  | none => .next s
  | some q =>
    let raw := q.raw.setWidth 256
    let i := arrIdx (rlTile raw) (Fin.ofNat 4 (rlArray raw))
    if opOf q.raw = 0x23 ∧ s.mayIssue cal tile q.beat
        ∧ (!rlToSlot raw || (c.arrs[i].slot (rlSlotB raw)).loadable) then
      .next (s.modCal cal (fun c =>
        let c1 := if rlToSlot raw then
            c.modArr i (fun a => a.setSlot (rlSlotB raw)
              { a.slot (rlSlotB raw) with
                st := .loading, fmt := BitVec.ofNat 4 (rlFmt raw), kValid := BitVec.ofNat 8 (rlKValid raw),
                blockId := rlBlockId raw, src := BitVec.ofNat 24 (rlAddr raw), chain := some cal, far := false, image := [] })
          else c
        { c1 with queue := dropFirst tile.val c1.queue, relays := c1.relays ++ [{ raw := raw, idx := c1.relayLog.length }]
                  relayLog := c1.relayLog ++ [raw] }))
    else .next s

/-- No earlier RELAY of the caldera has yet to accept from, or to forward into, the endpoint of the one at place `idx`:
granules leave in the order in which they arrived (R43). -/
def mayAccept (c : Caldera) (idx : Nat) (r : Relay) : Bool :=
  !(c.relays.take idx).any (fun q => !rlFromSram q.raw && rlInEp q.raw == rlInEp r.raw && decide (q.accepted < rlLen q.raw))
def mayForward (c : Caldera) (idx : Nat) (r : Relay) : Bool :=
  !(c.relays.take idx).any (fun q => rlForward q.raw && rlOutEp q.raw == rlOutEp r.raw && decide (q.forwarded < rlLen q.raw))

/-- The granule that the relay member at place `idx` would accept next (R42, R43). -/
def relayInput (c : Caldera) (idx : Nat) (r : Relay) : Option (List Byte) :=
  if rlLen r.raw ≤ r.accepted then none
  else if rlFromSram r.raw then some (mreadN c.sram (rlAddr r.raw + 64 * r.accepted) 64)
  else
    let ep := c.eps[Fin.ofNat 64 (rlInEp r.raw)]
    if ep.en && !ep.out && mayAccept c idx r then ep.word.map (fun w => toBytes w 64) else none

/-- A granule accepted into every local copy (R43); with the last one the slot is READY and keeps its chain's head
(R41). -/
def relayAccept (c : Caldera) (idx : Nat) (r : Relay) (g : List Byte) (head : Option (Fin 64 × Nat)) : Caldera :=
  let c1 := if rlToSram r.raw then { c with sram := mwriteN c.sram (rlAddr r.raw + 64 * r.accepted) g } else c
  let c2 := if rlFromSram r.raw then c1
    else { c1 with eps := vmod c1.eps (Fin.ofNat 64 (rlInEp r.raw)) Endpoint.take }
  let r1 := { r with accepted := r.accepted + 1, image := r.image ++ g }
  let c3 := { c2 with relays := c2.relays.set idx r1 }
  if rlToSlot r.raw ∧ r1.accepted = rlLen r.raw then
    let i := arrIdx (rlTile r.raw) (Fin.ofNat 4 (rlArray r.raw))
    c3.modArr i (fun a => a.setSlot (rlSlotB r.raw) 
      { a.slot (rlSlotB r.raw) with
        st := .ready, image := r1.image, far := head.isNone
        src := BitVec.ofNat 24 ((head.map (·.2)).getD (rlAddr r.raw)), chain := (head.map (·.1)).or (a.slot (rlSlotB r.raw)).chain })
  else c3

/-- A granule handed to the next member once its endpoint is free (R43). -/
def relayForward (c : Caldera) (idx : Nat) : Caldera :=
  match c.relays[idx]? with
  | none => c
  | some r =>
    let e := Fin.ofNat 64 (rlOutEp r.raw)
    if rlForward r.raw ∧ r.forwarded < r.accepted ∧ c.eps[e].en ∧ c.eps[e].out ∧ c.eps[e].word = none ∧ mayForward c idx r then
      { c with
        eps := vmod c.eps e (fun ep => { ep with word := some (ofBytes 512 (slice r.image (64 * r.forwarded) 64)), words := satInc ep.words })
        relays := c.relays.set idx { r with forwarded := r.forwarded + 1 } }
    else c

/-- A relay whose granules are all kept and, where it forwards, taken by the next member leaves: until then a suspension may
make it send some again (R184). -/
def State.relayDone (s : State) (n : Fin 64) (idx : Nat) : State :=
  match s.cals[n].relays[idx]? with
  | none => s
  | some r =>
    if r.accepted = rlLen r.raw ∧ (!rlForward r.raw ∨ (r.forwarded = rlLen r.raw ∧ s.conduitDrained (.cal n (Fin.ofNat 64 (rlOutEp r.raw))))) then
      s.modCal n (fun c => { c with relays := c.relays.eraseIdx idx })
    else s

/-- RELAY_GRANULE: a member accepts a granule into its copies and then forwards it; a granule that is
kept and not yet forwarded leaves first; two members of one caldera that share an endpoint take turns in the order of their
RELAYs (R43). -/
def execRelayGranule (cal : Fin 64) (idx : Nat) (s : State) : Out :=
  let c := s.cals[cal]
  match c.relays[idx]? with
  | none => .next s
  | some r =>
    if rlForward r.raw ∧ r.forwarded < r.accepted then
      .next ((s.modCal cal (fun c => relayForward c idx)).relayDone cal idx)
    else
      match relayInput c idx r with
      | none => .next (s.relayDone cal idx)
      | some g =>
        let head := s.chainHead cal r.idx r.raw
        .next ((s.modCal cal (fun c => relayForward (relayAccept c idx r g head) idx)).relayDone cal idx)

/-! ### Staged rows (R141) -/

/-- Bytes of one pool slot, and where the pool starts (R160). -/
def Caldera.poolSize (c : Caldera) : Nat := (nfld c.stgShape 0 12 + 1) * 64
def Caldera.poolAddr (c : Caldera) (i : Nat) : Nat := c.stgBase.toNat * 4096 + i * c.poolSize

/-- The staged bytes of a slot from a stream position on, if all are staged. -/
def stagedRead (c : Caldera) (k : Nat) : Nat → Nat → Nat → Option (List Byte)
  | 0, _, n => if n = 0 then some [] else none
  | fuel + 1, pos, n =>
    if n = 0 then some []
    else
      match c.pool.find? (fun p => p.owner == k && decide (p.pos ≤ pos) && decide (pos < p.pos + p.len)) with
      | none => none
      | some p =>
        let m := min n (p.pos + p.len - pos)
        (stagedRead c k fuel (pos + m) (n - m)).map (mreadN c.sram (c.poolAddr p.idx + (pos - p.pos)) m ++ ·)

/-- Staged bytes of the arming from a position on, and at the consumer's position. -/
def Caldera.stagedAt (c : Caldera) (k : Fin 64) (pos n : Nat) : Option (List Byte) := stagedRead c k.val (c.pool.length + 1) pos n
def Caldera.staged (c : Caldera) (k : Fin 64) (n : Nat) : Option (List Byte) := c.stagedAt k c.streams[k].pos n

/-- The consumer has read the staged bytes up to position `q`; the first one moves the slot from ARMED to ACTIVE (R136). -/
def Caldera.consumeTo (c : Caldera) (k : Fin 64) (q : Nat) : Caldera :=
  { c with
    streams := vmod c.streams k (fun t =>
      { t with pos := max t.pos q, moved := true, st := if t.st = .armed then .active else t.st }) }

/-- The consumer has read `n` staged bytes more. -/
def Caldera.consume (c : Caldera) (k : Fin 64) (n : Nat) : Caldera := c.consumeTo k (c.streams[k].pos + n)

/-! ### Issue of a pass (R49 to R51) -/

/-- Rows that the drain of a pass's chain has taken. -/
def chainDrained (c : Caldera) (p : Pass) : Nat :=
  (c.passes.filter (fun q => q.chain == p.chain)).foldl (fun m q => max m q.drained) 0

/-- Accumulator rows that a pass from row `d` on uses or may use (R55). -/
def accRows (raw : Data1024) (d : Nat) : List Nat :=
  (List.range (min (apRows raw - d) 512)).map (fun i => (apAccBase raw + d + i) % 512)

/-- The open accumulation chain that a CHAIN pass continues (R47). -/
def openChain (c : Caldera) (raw : Data1024) : Option Pass :=
  if apAccMode raw ≠ 2 then none
  else
    let same := c.passes.filter (fun p => apAccMode p.raw == 2 && apTile p.raw == apTile raw
      && apArrEn p.raw == apArrEn raw && apAccBase p.raw == apAccBase raw)
    match same.getLast? with
    | some p => if apLast p.raw then none else some p
    | none => none

/-- The drain ring of a pass as it stands; a ring not yet used is empty. -/
def ringOf (c : Caldera) (raw : Data1024) : DrainRing :=
  match c.rings.find? (fun r => r.base == apDrainBase raw && r.len == apDrainLen raw) with
  | some r => r
  | none => { base := apDrainBase raw, len := apDrainLen raw }

/-- The drain space that a pass needs to issue (R49). -/
def drainNeed (raw : Data1024) : Nat :=
  let blk := 2 * apDrainRows raw * drainRowBytes raw
  if apToStream raw then blk else min blk (apRows raw * drainRowBytes raw)

/-- Passes of a tile on one of its arrays that have issued and not committed. -/
def Caldera.onArray (c : Caldera) (tile : Nat) (a : Fin 4) : List Pass :=
  c.passes.filter (fun p => apTile p.raw == tile && (apArrEn p.raw).getLsbD a.val)

/-- A pass may not issue for its arrays: one still holds a pass in FEED, or two past it that are not HELD (R49, R51). -/
def Caldera.occupied (c : Caldera) (raw : Data1024) : Bool :=
  (apArrays raw).any (fun a =>
    let l := c.onArray (apTile raw) a
    l.any (fun p => p.st == .feed) || decide (1 < (l.filter (fun p => p.st != .held)).length))

/-- A record of an SRAM destination from `a` on, or a granule, meets the bytes from `lo` up to `hi`. -/
def meets (a : Int) (n lo hi : Nat) : Bool := decide (a < hi) && decide ((lo : Int) < a + n)

/-- A transfer in progress has yet to write a byte from `lo` up to `hi`: an arming whose first beat has opened, halted or
not (R67), or a RELAY that keeps a copy (log 94). -/
def Caldera.unwritten (c : Caldera) (beat lo hi : Nat) : Bool :=
  c.streams.any (fun t => (t.st == .armed || t.st == .active || t.st == .halted) && dDstKind t.desc == 0 && decide (t.first ≤ beat)
    && (List.range (dRecords t.desc)).any (fun r =>
      decide (t.pos < (r + 1) * dRec t.desc) && meets (endAddr t.desc false (r * dRec t.desc)) (dRec t.desc) lo hi))
  || c.relays.any (fun r => rlToSram r.raw && meets (rlAddr r.raw + 64 * r.accepted : Nat) (64 * (rlLen r.raw - r.accepted)) lo hi)

/-- The initial values of a pass's first 512 rows are not yet all resident at ACC_SRC (R49). -/
def Caldera.initialsDue (c : Caldera) (raw : Data1024) (beat : Nat) : Bool :=
  apAccMode raw == 1 && c.unwritten beat (apAccSrc raw) (apAccSrc raw + 256 * (apArrays raw).length * min 512 (apRows raw))

/-- Bytes that earlier passes have yet to drain into a pass's ring. -/
def ringPending (c : Caldera) (raw : Data1024) : Nat :=
  ((c.passes.filter (fun p => !apChainOpen p.raw && (ringOf c raw).serves p.raw)).map
    (fun p => (apRows p.raw - p.drained) * drainRowBytes p.raw)).sum

/-- Where the rows of a pass that issues now will start in its ring. -/
def ringEnd (c : Caldera) (raw : Data1024) : Nat := (ringOf c raw).wr + ringPending c raw

/-- Where the rows of a pass start in its ACT_STREAM, counted over all the slot's armings: a replay re-reads its own, and
any other pass follows the rows of every pass that issued before it (R59, R63). -/
def actBegin (c : Caldera) (raw : Data1024) (replay : Option Pass) : Nat :=
  let k := Fin.ofNat 64 (apActStream raw)
  match replay with
  | some r => r.actStart
  | none => (c.passes ++ c.replays).foldl (fun m q =>
      if passFeeds k.val q then max m (q.actStart + apRows q.raw * q.rowLen) else m) (c.streams[k].base + c.streams[k].pos)

/-- Where the rows of a pass will start in its DRAIN_STREAM, counted over all the slot's armings: in the active one where
that empties the ring, else in the next (R59, R137). -/
def drainBegin (c : Caldera) (raw : Data1024) : Nat :=
  let t := c.streams[Fin.ofNat 64 (apDrainStream raw)]
  let g := ringOf c raw
  (if t.st = .idle then t.base else if g.readBy t.desc then t.base + t.pos else t.base + dTotal t.desc) + (ringEnd c raw - g.rd)

/-- CAL_ISSUE_WAIT bits that an unmet issue condition sets in plan beat `beat`: OCCUPANCY, WEIGHTS, ACT, ACC, DRAIN (R49,
R72).  A credit of DRAIN_STREAM is the space of one block in the ring (R57; log 92), and a halted one has none to give
(R67).  DESIGN CHOICE (log 115): a pass that waits only for R51's cap of two passes past FEED shows OCCUPANCY, for which
R72 names no bit. -/
def issueWaits (c : Caldera) (raw : Data1024) (beat : Nat) (replay : Option Pass) : BitVec 6 :=
  let arrs := (apArrays raw).map (fun a => (a, arrIdx (apTile raw) a))
  let slots := arrs.map (fun p => c.arrs[p.2].slot (apSlotB raw p.1.val))
  let mine := c.passes.filter (fun p => apTile p.raw == apTile raw && (apArrEn p.raw &&& apArrEn raw) != 0)
  let wts := slots.any (fun w => w.st == .empty || w.st == .loading)
  let k := Fin.ofNat 64 (apActStream raw)
  let st := c.streams[k]
  let wf := (slots.head?.map (·.fmt.toNat)).getD 0
  let act := !((st.st == .armed || st.st == .active)
    && (c.stagedAt k (actBegin c raw replay - st.base) (rowBytes (apAFmt raw) (blockK wf))).isSome)
  let chain := (openChain c raw).map (·.chain)
  let want := accRows raw 0
  let acc := mine.any (fun p => some p.chain != chain && (accRows p.raw (chainDrained c p)).any want.contains)
  let r := ringOf c raw
  let drn := !apChainOpen raw && (decide (r.len.toNat < (r.wr - r.freed) + drainNeed raw)
    || (apToStream raw && c.streams[Fin.ofNat 64 (apDrainStream raw)].st == .halted))
  flagAt 6 1 (c.occupied raw) ||| flagAt 6 2 wts ||| flagAt 6 3 act ||| flagAt 6 4 (acc || c.initialsDue raw beat) ||| flagAt 6 5 drn

/-- A selected slot holds a block whose format the pass may not use, or two hold blocks of different formats (R50). -/
def fmtClash (c : Caldera) (raw : Data1024) : Bool :=
  let slots := (apArrays raw).map (fun a => c.arrs[arrIdx (apTile raw) a].slot (apSlotB raw a.val))
  let held := slots.filter (fun w => w.st == .ready || w.st == .pinned)
  held.any (fun w => !pairOk w.fmt.toNat (apAFmt raw) (apStrict raw) || some w.fmt != held.head?.map (·.fmt))

/-- Draws that a pass makes on one array: one for each element drained narrower than FP32 (R86). -/
def passDraws (raw : Data1024) (a : Fin 4) : Nat :=
  if !apSround raw || apChainOpen raw || apOFmt raw == 10 then 0
  else apRows raw * (setBits (apNMask raw a.val)).length

/-- A generator after several draws. -/
def advance : Nat → Word → Word
  | 0, g => g
  | k + 1, g => advance k (xorshift g)

/-- The state a pass's generators start from: the seed, the snapshot of a replay, or the array's (R86). -/
def startGens (c : Caldera) (raw : Data1024) (replay : Option Pass) : Vector Word 4 :=
  Vector.ofFn (fun a => match replay with
    | some p => p.snaps[a]
    | none =>
      if apSeedLoad raw then genLoad (apSeed raw ^^^ BitVec.ofNat 32 a.val)
      else c.arrs[arrIdx (apTile raw) a].gen)

/-- The length of the activation row of a pass. -/
def actRowBytes (c : Caldera) (raw : Data1024) : Nat :=
  let wf := ((apArrays raw).head?.map (fun a => (c.arrs[arrIdx (apTile raw) a].slot (apSlotB raw a.val)).fmt.toNat)).getD 0
  rowBytes (apAFmt raw) (blockK wf)

/-- Issue as one event: the pass enters FEED, its slots are pinned and its generators snapshotted (R58).  A replay keeps
its place in the issue order and in its chain (R63). -/
def issuePass (c : Caldera) (raw : Data1024) (handle : PlanId) (beat due : Nat) (replay : Option Pass) : Caldera :=
  let gens := startGens c raw replay
  let prev := openChain c raw
  let p : Pass :=
    { raw := raw, serial := (replay.map (·.serial)).getD c.issued
      chain := (replay.map (·.chain)).getD ((prev.map (·.chain)).getD c.issued), handle := handle
      issueBeat := beat, dueBeat := due, gens := gens, snaps := gens
      chainPos := (replay.map (·.chainPos)).getD ((prev.map (·.chainPos + 1)).getD 0)
      rowLen := actRowBytes c raw
      ringStart := (replay.map (·.ringStart)).getD (ringEnd c raw)
      ringStop := (replay.map (·.ringStop)).getD (ringEnd c raw + (if apChainOpen raw then 0 else apRows raw * drainRowBytes raw))
      actStart := actBegin c raw replay
      drainStart := (replay.map (·.drainStart)).getD (drainBegin c raw) }
  let c1 := (apArrays raw).foldl (fun c a => c.modArr (arrIdx (apTile raw) a) (fun r =>
    let w := r.slot (apSlotB raw a.val)
    { (r.setSlot (apSlotB raw a.val) { w with st := .pinned }) with gen := advance (passDraws raw a) gens[a] })) c
  let drain : Option Nat := if apToStream raw then some (apDrainStream raw) else none
  let rings : List DrainRing := if apChainOpen raw then c1.rings
    else if c1.rings.any (fun r => r.serves raw) then
      c1.rings.map (fun r => if r.serves raw then { r with stream := drain } else r)
    else c1.rings ++ [{ base := apDrainBase raw, len := apDrainLen raw, stream := drain }]
  { c1 with
    passes := c1.passes ++ [p], issued := if replay.isSome then c1.issued else c1.issued + 1, rings := rings }

/-- A SARM of an opened beat that has not yet taken effect: no pass of that beat issues before it (R138). -/
def Caldera.sarmDue (c : Caldera) (beat : Nat) : Bool := c.queue.any (fun q => opOf q.raw == 0x24 && decide (q.beat ≤ beat))

/-- A pass that the dispatcher may issue next: its instruction, its beats, and the abandoned pass that it replays. -/
structure Candidate where
  raw : Data1024
  beat : Nat
  due : Nat
  replay : Option Pass := none
deriving DecidableEq, Repr

/-- The first queued pass of a tile, as a candidate. -/
def Caldera.queuedPass (c : Caldera) (t : Fin 4) : Option Candidate :=
  match c.nextOf t with
  | some q => if opOf q.raw = 0x21 then some { raw := q.raw, beat := q.beat, due := q.beat + apBeats q.raw - 1 } else none
  | none => none

/-- A replay, as a candidate. -/
def Pass.again (r : Pass) : Candidate := { raw := r.raw, beat := r.issueBeat, due := r.dueBeat, replay := some r }

/-- The next pass of a tile that may issue: the oldest abandoned one before any other (R63), and none of a tile that a
fault holds back (R67). -/
def Caldera.candidate (c : Caldera) (t : Fin 4) : Option Candidate :=
  if c.tileParked t.val then none
  else match c.due with
    | [] => c.queuedPass t
    | r :: _ => if apTile r.raw = t.val then some r.again else none

/-- The caldera as a candidate finds it: its replay is no longer awaited. -/
def Caldera.without (c : Caldera) (d : Candidate) : Caldera :=
  match d.replay with
  | some r => { c with replays := c.replays.filter (fun q => q.serial != r.serial) }
  | none => c

/-- A candidate issues: it leaves the replays, where it counts as replayed, or the queue. -/
def Caldera.issue (c : Caldera) (t : Fin 4) (h : PlanId) (d : Candidate) : Caldera :=
  match d.replay with
  | some r =>
    let c1 := issuePass (c.without d) d.raw r.handle d.beat d.due (some r)
    { c1 with passReplays := satInc c1.passReplays }
  | none => { issuePass c d.raw h d.beat d.due none with queue := dropFirst t.val c.queue }

/-- FMT_ERR of every enabled array of a pass (R50). -/
def Caldera.fmtFail (c : Caldera) (raw : Data1024) : Caldera :=
  (apArrays raw).foldl (fun c a => c.modArr (arrIdx (apTile raw) a) (fun r => { r with fmtErr := true })) c

/-- PASS_ISSUE: the dispatcher issues the next pass of a tile once every condition of R49 holds, a replay before any
other pass (R63); a format clash sets FMT_ERR and stops the plan (R50). -/
def execPassIssue (cal : Fin 64) (tile : Fin 4) (s : State) : Out :=
  match s.planOn cal with
  | none => .next s
  | some p =>
    if p.run ≠ .running ∨ s.cals[cal].sarmDue p.beat then .next s
    else match s.cals[cal].candidate tile with
      | none => .next s
      | some d =>
        if p.beat < d.beat then .next s
        else if fmtClash s.cals[cal] d.raw then .next ((s.modCal cal (fun c => c.fmtFail d.raw)).planStop p.handle .fmtErr cal.val)
        else if issueWaits (s.cals[cal].without d) d.raw p.beat d.replay = 0 then .next (s.modCal cal (fun c => c.issue tile p.handle d))
        else .next s

/-- The next pass of a caldera: the oldest that awaits its replay, held back by a fault or not, else the first in the queue (log 95). -/
def Caldera.nextPass (c : Caldera) : Option Candidate :=
  match c.replays with
  | r :: _ => some r.again
  | [] => (c.queue.find? (fun q => opOf q.raw == 0x21)).map (fun q =>
      { raw := q.raw, beat := q.beat, due := q.beat + apBeats q.raw - 1 })

/-- CAL_ISSUE_WAIT: the issue conditions that the caldera's next pass does not meet (R72). -/
def State.issueWait (s : State) (n : Fin 64) : BitVec 6 :=
  match s.cals[n].nextPass with
  | none => 0
  | some d =>
    let open_ : Option Nat := (s.planOn n).bind (·.openBeat)
    flagAt 6 0 (!(open_.any (fun b => decide (d.beat ≤ b)))) ||| issueWaits (s.cals[n].without d) d.raw (open_.getD 0) d.replay

/-! ### Rows (R34, R37, R52, R53) -/

/-- The initial value of an accumulator for row `r`, column `n` of array number `j` of `e` enabled ones, and
whether it was flushed (R47, R87). -/
def initAcc (c : Caldera) (p : Pass) (a : Fin 4) (j e r n : Nat) : Word × Bool :=
  let here := tget (0 : Word) c.arrs[arrIdx (apTile p.raw) a].acc ((apAccBase p.raw + r) % 512 * 64 + n)
  if apAccMode p.raw = 1 then
    let w : Word := ofBytes 32 (mreadN c.sram (apAccSrc p.raw + 256 * e * r + 256 * j + 4 * n) 4)
    let v := fFP32.input (apFlush p.raw) w.toNat
    if v.2 then (roundFP32 v.1, true) else (w, false)
  else if apAccMode p.raw = 2 ∧ 0 < p.chainPos then (here, false)
  else (if apMaxr p.raw then 0xFF800000#32 else 0, false)

/-- The occurrence that comes first in the order of R90. -/
def Occ.before (x y : Occ) : Bool :=
  decide (x.row < y.row) || (x.row == y.row && (decide (x.kgroup < y.kgroup) || (x.kgroup == y.kgroup
    && (decide (x.arr < y.arr) || (x.arr == y.arr && decide (x.col < y.col))))))

/-- A further occurrence captured: the first is kept, the others are counted (R90). -/
def Pass.capture (p : Pass) (o : Occ) : Pass :=
  match p.occ with
  | none => { p with occ := some o }
  | some q => { p with occ := some (if o.before q then o else q), occCnt := p.occCnt + 1 }

/-- One column of a row admitted to array `a`. -/
def admitCol (row : List Byte) (a : Fin 4) (j e r : Nat) (cp : Caldera × Pass) (n : Nat) : Caldera × Pass :=
  let c := cp.1
  let p := cp.2
  let i := arrIdx (apTile p.raw) a
  let slot := c.arrs[i].slot (apSlotB p.raw a.val)
  let init := initAcc c p a j e r n
  let res := column slot (apAFmt p.raw) row (apKMask p.raw a.val) (apStrict p.raw) (apMaxr p.raw) (apFlush p.raw) n init.1
  let p1 := res.occ.foldl (fun p g => p.capture
    { row := r, kgroup := p.chainPos * (blockK slot.fmt.toNat / 32) + g, arr := i.val, col := n }) p
  (c.modArr i (fun x => { x with acc := tput x.acc ((apAccBase p.raw + r) % 512 * 64 + n) res.acc }),
   { p1 with
     inv := if res.occ.isEmpty then p1.inv else p1.inv ||| BitVec.twoPow 4 a.val
     flush := if res.flush || init.2 then p1.flush ||| BitVec.twoPow 4 a.val else p1.flush })

/-- One row admitted to every enabled array of the pass in lockstep (R37). -/
def admitRow (c : Caldera) (p : Pass) (row : List Byte) : Caldera × Pass :=
  let arrs := apArrays p.raw
  let r := p.rows
  let x := (List.zip (List.range arrs.length) arrs).foldl (fun cp ja =>
    (setBits (apNMask p.raw ja.2.val)).foldl (admitCol row ja.2 ja.1 arrs.length r) cp) (c, p)
  let p1 := { x.2 with rows := r + 1 }
  (x.1, { p1 with st := if p1.rows < apRows p.raw then .feed else if apChainOpen p.raw then .held else .drain })

/-- A pass replaced in its caldera, by its serial. -/
def Caldera.putPass (c : Caldera) (p : Pass) : Caldera :=
  { c with passes := c.passes.map (fun q => if q.serial = p.serial then p else q) }

/-- No earlier pass still feeds from the slot that a pass feeds from. -/
def Caldera.feedsNow (c : Caldera) (k : Fin 64) (p : Pass) : Bool :=
  (c.passes.find? (fun q => q.st == .feed && passFeeds k.val q)).all (fun q => q.serial == p.serial)

/-- ROW_ADMIT: the oldest feeding pass of a tile admits its next row when the row is staged and an accumulator
row is free (R37, R55, R57; log 96); it reads at its own place in the stream, behind every earlier pass that feeds from it
(R63); rows staged before its stream halted are admitted too (R67). -/
def execRowAdmit (cal : Fin 64) (tile : Fin 4) (s : State) : Out :=
  let c := s.cals[cal]
  match c.passes.find? (fun p => p.st == .feed && apTile p.raw == tile.val) with
  | none => .next s
  | some p =>
    let k := Fin.ofNat 64 (apActStream p.raw)
    let n := p.rowLen
    let place := p.actStart + p.rows * n - c.streams[k].base
    match c.stagedAt k place n with
    | none => .next s
    | some row =>
      if (c.streams[k].st = .armed ∨ c.streams[k].st = .active ∨ c.streams[k].st = .halted) ∧ p.rows - chainDrained c p < 512
          ∧ c.feedsNow k p then
        .next (s.modCal cal (fun c =>
          let x := admitRow (c.consumeTo k (place + n)) p row
          x.1.putPass x.2))
      else .next s

/-! ### Drain (R55 to R57) -/

/-- Bytes written to a ring from a position on (R55). -/
def ringWrite (m : Memory) (r : DrainRing) : Nat → List Byte → Memory
  | _, [] => m
  | w, b :: bs => ringWrite (mwrite m (r.base.toNat + w % (max 1 r.len.toNat)) b) r (w + 1) bs

/-- One row of a pass converted for the ring: its bytes, and the pass with its generators and flags. -/
def drainRow (c : Caldera) (p : Pass) (r : Nat) : List Byte × Pass :=
  (apArrays p.raw).foldl (fun x a =>
    let i := arrIdx (apTile p.raw) a
    let cols := (setBits (apNMask p.raw a.val)).map (fun n =>
      (n, tget (0 : Word) c.arrs[i].acc ((apAccBase p.raw + r) % 512 * 64 + n)))
    let d := drainArray (apOFmt p.raw) (apSround p.raw) (apOvf p.raw) (apFlush p.raw) cols x.2.gens[a]
    (x.1 ++ d.1,
     { x.2 with
       gens := vset x.2.gens a d.2.gen
       sat := if d.2.sat then x.2.sat ||| BitVec.twoPow 4 a.val else x.2.sat
       flush := if d.2.flush then x.2.flush ||| BitVec.twoPow 4 a.val else x.2.flush })) ([], p)

/-- Several rows converted in order. -/
def drainRows (c : Caldera) (p : Pass) (r n : Nat) : List Byte × Pass :=
  (List.range n).foldl (fun x i =>
    let d := drainRow c x.2 (r + i)
    (x.1 ++ d.1, d.2)) ([], p)

/-- The next drain block of a pass written to its ring; the rows it held are free. -/
def drainBlock (c : Caldera) (p : Pass) : Caldera :=
  let n := drainBlockRows p.raw p.drained
  let d := drainRows c p p.drained n
  let ring := ringOf c p.raw
  let p1 := { d.2 with drained := p.drained + n }
  let p2 := { p1 with st := if p1.drained = apRows p.raw then .commit else p1.st }
  let t := Fin.ofNat 4 (apTile p.raw)
  { c.putPass p2 with
    sram := ringWrite c.sram ring ring.wr d.1
    rings := c.rings.map (fun r => if r.base = ring.base ∧ r.len = ring.len then { r with wr := r.wr + d.1.length, blocks := r.blocks ++ [r.wr + d.1.length] } else r)
    dsp := { c.dsp with rowsSince := vmod c.dsp.rowsSince t (· + n) } }

/-- The pass of a tile that drains next. -/
def Caldera.draining (c : Caldera) (tile : Fin 4) : Option Pass :=
  c.passes.find? (fun p => apTile p.raw == tile.val && !apChainOpen p.raw && decide (p.drained < apRows p.raw))

/-- An earlier pass has rows that enter a pass's ring before its own (R57). -/
def Caldera.ringTaken (c : Caldera) (p : Pass) : Bool :=
  (c.passes ++ c.replays).any (fun q => decide (q.serial < p.serial) && !apChainOpen q.raw && (ringOf c p.raw).serves q.raw
    && decide (q.drained < apRows q.raw))

/-- The next block of a pass is complete, and its ring has no free space, or its stream no credit (R57). -/
def Caldera.blockReady (c : Caldera) (p : Pass) : Bool :=
  decide (p.drained + drainBlockRows p.raw p.drained ≤ p.rows) && !c.ringTaken p
def Caldera.ringRoom (c : Caldera) (p : Pass) : Bool :=
  decide (((ringOf c p.raw).wr - (ringOf c p.raw).freed) + drainBlockRows p.raw p.drained * drainRowBytes p.raw
    ≤ (ringOf c p.raw).len.toNat)

/-- A drain of a pass due by beat `b` waits for ring space or a credit (R57). -/
def Caldera.drainWaits (c : Caldera) (b : Nat) : Bool :=
  (List.finRange 4).any (fun t => (c.draining t).any (fun p => decide (p.dueBeat ≤ b) && c.blockReady p && !c.ringRoom p))

/-- DRAIN_BLOCK: the oldest draining pass of a tile converts its next complete block and writes it at the
next free position of its ring; without ring space or credit it waits (R55 to R57). -/
def execDrainBlock (cal : Fin 64) (tile : Fin 4) (s : State) : Out :=
  match s.cals[cal].draining tile with
  | none => .next s
  | some p =>
    if s.cals[cal].blockReady p ∧ s.cals[cal].ringRoom p then .next (s.modCal cal (fun c => drainBlock c p)) else .next s

/-! ### Commit (R60, R61, R90) -/

/-- A type-1 exception record (R90, R124). -/
def occRecord (s : State) (ctx : Byte) (o : Occ) (count : Nat) (first : Pass) : BitVec 256 :=
  natAt 256 0 1 ||| natAt 256 4 o.arr ||| natAt 256 16 (min count 65535) ||| natAt 256 32 o.row
    ||| natAt 256 64 o.col ||| natAt 256 96 o.kgroup ||| natAt 256 128 first.issueBeat
    ||| at_ 256 160 (apPassId first.raw) ||| at_ 256 192 (s.glb.beatCnt.setWidth 32) ||| at_ 256 224 ctx

/-- A record appended to a caldera's exception log, or dropped and counted (R125). -/
def Caldera.xlogAppend (c : Caldera) (r : BitVec 256) : Caldera :=
  { c with xlog := c.xlog.push r, xlogOvf := c.xlogOvf || decide (64 ≤ c.xlog.recs.length) }

/-- The occurrences of a chain's passes joined: the first of all, and the count of the others. -/
def chainOcc (ps : List Pass) : Option Occ × Nat :=
  let all := ps.filterMap (fun p => p.occ)
  let first := all.foldl (fun (m : Option Occ) o => match m with
    | none => some o
    | some q => some (if o.before q then o else q)) none
  (first, (ps.map (·.occCnt)).sum + (all.length - 1))

/-- The slots of committed passes unpinned where no other pass that has issued references them (R41). -/
def unpinPass (rest : List Pass) (c : Caldera) (p : Pass) : Caldera :=
  (apArrays p.raw).foldl (fun c a =>
    let b := apSlotB p.raw a.val
    let used := rest.any (fun q => apTile q.raw == apTile p.raw && (apArrEn q.raw).getLsbD a.val && apSlotB q.raw a.val == b)
    if used then c
    else c.modArr (arrIdx (apTile p.raw) a) (fun r =>
      let w := r.slot b
      r.setSlot b (if w.st = .pinned then { w with st := .ready } else w))) c

/-- Commit of a pass, or of its whole chain, as one event: flags, record, ring position and count, unpin (R60). -/
def commitPass (s : State) (cal : Fin 64) (p : Pass) (ctx : Byte) : State :=
  let c := s.cals[cal]
  let chain := c.passes.filter (fun q => q.chain == p.chain)
  let rest := c.passes.filter (fun q => q.chain != p.chain)
  let c1 := chain.foldl (fun c q => (apArrays q.raw).foldl (fun c a =>
    c.modArr (arrIdx (apTile q.raw) a) (fun r =>
      r.mergeFlags (q.inv.getLsbD a.val) (q.sat.getLsbD a.val) (q.flush.getLsbD a.val))) c) c
  let oc := chainOcc chain
  let c2 := match oc.1 with
    | some o => c1.xlogAppend (occRecord s ctx o oc.2 (chain.headD p))
    | none => c1
  let ring := ringOf c2 p.raw
  let c3 := { c2 with
    rings := c2.rings.map (fun r => if r.base = ring.base ∧ r.len = ring.len then
      if apToStream p.raw then { r with committed := p.ringStop }
      else ({ r with committed := p.ringStop, rd := max r.rd p.ringStop }).free p.ringStop
    else r)
    passCommits := satAdd c2.passCommits chain.length
    passes := rest }
  s.modCal cal (fun _ => chain.foldl (unpinPass (rest ++ c3.replays)) c3)

/-- The plan beat that a pass may count on for its commit: while the wait of R65 runs, the fabric beats
since the stop boundary count on (log 21). -/
def Plan.commitBeat (p : Plan) (beatCnt : DWord) : Nat :=
  match p.stopAt with
  | some b => p.beat + (beatCnt.toNat - b.toNat)
  | none => p.beat

/-- The pass of a tile that may commit: drained, in its last plan beat, the oldest on its arrays. -/
def committable (s : State) (cal : Fin 64) (tile : Fin 4) : Option Pass :=
  match s.planOn cal with
  | none => none
  | some pl =>
    let ps := s.cals[cal].passes
    ps.find? (fun p => p.st == .commit && apTile p.raw == tile.val && (pl.run == .running || pl.run == .stopping)
      && decide (p.dueBeat ≤ pl.commitBeat s.glb.beatCnt)
      && !ps.any (fun q => decide (q.serial < p.serial) && q.chain != p.chain && passShares q p))

/-- CAL_ARR_STATUS.STATE of an array: the state of its oldest uncommitted pass (R58). -/
def arrState (c : Caldera) (i : Fin 16) : Nat :=
  let on (p : Pass) : Bool := apTile p.raw == i.val / 4 && (apArrEn p.raw).getLsbD (i.val % 4)
  match c.passes.find? on with
  | some p => (match p.st with
    | .feed => 2 | .drain => 3 | .held => 4 | .commit => 5 | .abandoned => 6)
  | none =>
    if c.replays.any on then 6
    else match c.nextOf (Fin.ofNat 4 (i.val / 4)) with
      | some q => if opOf q.raw = 0x21 ∧ (apArrEn q.raw).getLsbD (i.val % 4) then 1 else 0
      | none => 0

end Sys2Proof.Machine
end

