-- ==== Sys2Proof/Machine/Gcm.lean ====
section
/-! DEFINITION. AES-256-GCM of NIST SP 800-38D over the AES-256 block cipher of FIPS 197 (R229, R374; log 6). -/

namespace Sys2Proof.Machine

/-- The product of two blocks in GF(2^128): bit 127 is the first bit, and the reduction is 0xE1 in the first byte. -/
def gfMul (x y : BitVec 128) : BitVec 128 :=
  ((List.range 128).foldl (fun (zv : BitVec 128 × BitVec 128) i =>
    (if bitAt x (127 - i) then zv.1 ^^^ zv.2 else zv.1,
     if bitAt zv.2 0 then (zv.2 >>> 1) ^^^ at_ 128 120 (0xE1#8) else zv.2 >>> 1)) (0, y)).1

/-- A byte string in blocks, the last one filled with zeros. -/
def gcmBlocks (l : List Byte) : List (BitVec 128) :=
  (List.range ((l.length + 15) / 16)).map (fun i =>
    let b := slice l (16 * i) 16
    beBits 128 (b ++ List.replicate (16 - b.length) 0))

/-- GHASH of additional data and ciphertext, closed by their lengths in bits. -/
def ghash (h : BitVec 128) (aad ct : List Byte) : BitVec 128 :=
  (gcmBlocks aad ++ gcmBlocks ct ++ [natAt 128 64 (8 * aad.length) ||| natAt 128 0 (8 * ct.length)]).foldl
    (fun y x => gfMul (y ^^^ x) h) 0

/-- The counter block of a 96-bit IV and a count. -/
def gcmCounter (iv : BitVec 96) (n : Nat) : BitVec 128 := at_ 128 32 (beBits 96 (toBytes iv 12)) ||| natAt 128 0 (n % 2 ^ 32)

/-- A byte string under the key stream from count 2 on. -/
def gcmCtr (key : BitVec 256) (iv : BitVec 96) (l : List Byte) : List Byte :=
  let stream := (List.range ((l.length + 15) / 16)).flatMap (fun i => beBytes (aes256 key (gcmCounter iv (i + 2))))
  List.zipWith (· ^^^ ·) l stream

/-- The tag, its first byte lowest. -/
def gcmTag (key : BitVec 256) (iv : BitVec 96) (aad ct : List Byte) : BitVec 128 :=
  ofBytes 128 (beBytes (aes256 key (gcmCounter iv 1) ^^^ ghash (aes256 key 0) aad ct))

/-- Seal: ciphertext and tag. -/
def gcmSeal (key : BitVec 256) (iv : BitVec 96) (aad pt : List Byte) : List Byte × BitVec 128 :=
  let ct := gcmCtr key iv pt
  (ct, gcmTag key iv aad ct)

/-- Open: the plaintext, or none on a tag failure. -/
def gcmOpen (key : BitVec 256) (iv : BitVec 96) (aad ct : List Byte) (tag : BitVec 128) : Option (List Byte) :=
  if gcmTag key iv aad ct = tag then some (gcmCtr key iv ct) else none

end Sys2Proof.Machine
end

