-- ==== Sys2Proof/Machine/DspFunc.lean ====
section
/-! DEFINITION. The six functions of the vector-DSP unit: the FP32 results that R111 permits, and the
one of them that the device returns (log 5). -/

namespace Sys2Proof.Machine

/-- Fixed-point values carry this many bits below the point. -/
def fxBits : Nat := 420

/-- One in fixed point. -/
def fxOne : Int := 2 ^ fxBits

/-- The product of two fixed-point values, rounded down. -/
def fxMul (a b : Int) : Int := (a * b) / fxOne

/-- `a ÷ b` in fixed point, rounded down. -/
def fxDiv (a b : Int) : Int := (a * fxOne) / b

/-- A signed dyadic as fixed point. -/
def fxOf (neg : Bool) (m : Nat) (e : Int) : Int :=
  let k := e + fxBits
  let v : Int := if 0 ≤ k then (m : Int) * 2 ^ k.toNat else (m : Int) / 2 ^ (-k).toNat
  if neg then -v else v

/-- The odd powers of the inverse hyperbolic tangent series: the sum of z^(2i+1)/(2i+1), `n` terms. -/
def atanhSeries (z2 : Int) : Nat → Nat → Int → Int
  | 0, _, _ => 0
  | n + 1, i, p => p / ((2 * i + 1 : Nat) : Int) + atanhSeries z2 n (i + 1) (fxMul p z2)

/-- The natural logarithm of 2 in fixed point: 2·atanh(1/3). -/
def fxLn2 : Int :=
  let z := fxOne / 3
  2 * atanhSeries (fxMul z z) 150 0 z

/-- The exponential series, `n` terms from term `i` whose value is `t`. -/
def expSeries (r : Int) : Nat → Nat → Int → Int
  | 0, _, _ => 0
  | n + 1, i, t => t + expSeries r n (i + 1) (fxMul t r / ((i + 1 : Nat) : Int))

/-- e^x in fixed point for x in fixed point. -/
def fxExp (x : Int) : Int :=
  let k := x / fxLn2
  let r := x - k * fxLn2
  let y := expSeries r 110 0 fxOne
  if 0 ≤ k then y * 2 ^ k.toNat else y / 2 ^ (-k).toNat

/-- ln of m · 2^e in fixed point, m not 0. -/
def fxLn (m : Nat) (e : Int) : Int :=
  let t := Nat.log2 m
  let v := fxOf false m (-(t : Int))
  let z := fxDiv (v - fxOne) (v + fxOne)
  2 * atanhSeries (fxMul z z) 140 0 z + ((t : Int) + e) * fxLn2

/-- The square root of a number by Newton's steps from above. -/
def natSqrt (n : Nat) : Nat → Nat → Nat
  | 0, x => x
  | k + 1, x =>
    let y := (x + n / x) / 2
    if y < x then natSqrt n k y else x

/-- 1 ÷ √(m · 2^e) in fixed point, m not 0. -/
def fxRsqrt (m : Nat) (e : Int) : Int :=
  -- √(2^(2·fxBits) ÷ (m·2^e))
  let q : Nat := 2 ^ (((2 * fxBits : Nat) : Int) - e).toNat / m
  ((natSqrt q 400 (2 ^ (Nat.log2 q / 2 + 1)) : Nat) : Int)

/-- The exact result of a function on a finite nonzero operand, in fixed point. -/
def fxFunc (op : Nat) (neg : Bool) (m : Nat) (e : Int) : Int :=
  let x := fxOf neg m e
  if op = 0x20 then fxExp x
  else if op = 0x21 then fxLn m e
  else if op = 0x22 then fxRsqrt m e
  else if op = 0x23 then (if neg then -1 else 1) * ((2 ^ ((fxBits : Int) - e).toNat / m : Nat) : Int)
  else if op = 0x24 then fxDiv fxOne (fxOne + fxExp (-x))
  else
    let t := fxExp (-(2 * fxOf false m e))
    (if neg then -1 else 1) * fxDiv (fxOne - t) (fxOne + t)

/-- The limit of a function for FP32 in ulps (R111). -/
def ulpLimit (op : Nat) : Nat := if op = 0x20 ∨ op = 0x21 then 2 else if op = 0x22 ∨ op = 0x23 then 1 else 3

/-- The special values of R111 for a NaN, an infinity, a zero or a negative operand. -/
def funcSpecial (op : Nat) (x : Num) : Option Word :=
  let nan := 0x7FC00000#32
  match x with
  | .nan => some nan
  | .inf neg =>
    some (if op = 0x20 then (if neg then 0 else 0x7F800000#32)
      else if op = 0x21 then (if neg then nan else 0x7F800000#32)
      else if op = 0x22 then (if neg then nan else 0)
      else if op = 0x23 then (if neg then 0x80000000#32 else 0)
      else if op = 0x24 then (if neg then 0 else 0x3F800000#32)
      else if neg then 0xBF800000#32 else 0x3F800000#32)
  | .fin neg m _ =>
    if m = 0 then
      some (if op = 0x20 then 0x3F800000#32
        else if op = 0x21 then 0xFF800000#32
        else if op = 0x22 ∨ op = 0x23 then (if neg then 0xFF800000#32 else 0x7F800000#32)
        else if op = 0x24 then 0x3F000000#32
        else if neg then 0x80000000#32 else 0)
    else if neg ∧ (op = 0x21 ∨ op = 0x22) then some nan
    else none

/-- Magnitude of an FP32 code in fixed point; the code past the largest finite one is 2^128. -/
def fxCode (c : Nat) : Int :=
  let e : Nat := c / 2 ^ 23
  let m : Nat := c % 2 ^ 23
  if e = 0 then fxOf false m (-149) else fxOf false (m + 2 ^ 23) ((e : Int) - 150)

/-- The FP32 codes whose error lies within a function's limit for the exact magnitude `y`: ulps of `y`,
with 2^-20 ulp allowed for the approximation of `y` itself. -/
def permitted (limit : Nat) (y : Int) : List Nat :=
  let near := (fFP32.convert (.fin false y.toNat (-(fxBits : Int))) none true false).code
  let top : Int := (Nat.log2 y.toNat : Int) - fxBits
  let ulp := fxOf false 1 (max (top - 23) (-149))
  ((List.range (4 * limit + 1)).filterMap (fun i =>
    if near + i < 2 * limit then none else some (near + i - 2 * limit))).filter (fun c =>
    decide (c ≤ 0x7F800000) && decide (((fxCode c - y).natAbs : Int) ≤ limit * ulp + ulp / 2 ^ 20))

/-- The FP32 result of a function: one of the results that R111 permits, the same on every run; a
negative result beyond the largest finite magnitude is -infinity (log 112). -/
def dspFunc (op ty : Nat) (x : Word) : Word :=
  match funcSpecial op (fp32 x) with
  | some w => w
  | none =>
    match fp32 x with
    | .fin neg m e =>
      -- far beyond the range of FP32 the result is fixed without a series
      if op = 0x20 ∧ geMag m e 1 10 then
        if neg then (permitted 2 0).getD (Config.dspPick op ty x % (permitted 2 0).length) 0 |> BitVec.ofNat 32
        else 0x7F800000#32
      else
        let y := if op = 0x24 ∧ geMag m e 1 10 then (if neg then 0 else fxOne)
          else if op = 0x25 ∧ geMag m e 1 10 then (if neg then -fxOne else fxOne)
          else fxFunc op neg m e
        let mag := (y.natAbs : Int)
        if fxCode 0x7F7FFFFF < mag then (if y < 0 then 0xFF800000#32 else 0x7F800000#32)
        else
          let cs := permitted (ulpLimit op) mag
          BitVec.ofNat 32 ((cs.getD (Config.dspPick op ty x % cs.length) 0) + (if y < 0 then 2 ^ 31 else 0))
    | _ => 0

end Sys2Proof.Machine
end

