-- ==== Sys2Proof/Machine/DspUnit.lean ====
section
/-! DEFINITION. The vector-DSP unit: its instructions, address generators, faults and generator
(R105 to R117). -/

namespace Sys2Proof.Machine

/-! ### Segments (R100) -/

/-- Whether `len` bytes at `a` lie wholly inside one valid segment with a permission bit. -/
def segOk (c : Caldera) (a len perm : Nat) : Bool :=
  c.segs.toList.any (fun g =>
    bitAt g 24 && bitAt g perm && decide (nfld g 0 12 * 4096 ≤ a)
      && decide (a + len ≤ nfld g 0 12 * 4096 + (nfld g 12 12 + 1) * 4096))

/-- 12 MiB, the size of a caldera's SRAM (R98). -/
def sramSize : Nat := 12582912

/-! ### Instruction fetch and completion -/

/-- The next instruction (R106). -/
def Dsp.fetch (c : Caldera) : DWord := ofBytes 64 (mreadN c.sram (c.dsp.progBase.toNat + 8 * c.dsp.pc.toNat) 8)

/-- Whether the unit executes: it is busy, does not wait, has no fault, and its plan's beat is open or in
the wait of R65 (R106, R116). -/
def State.dspRuns (s : State) (n : Fin 64) : Bool :=
  let d := s.cals[n].dsp
  d.busy && !d.waiting && !d.stopped &&
    (match s.planOn n with
    | some p => p.run == .running || p.run == .stopping
    | none => false)

/-- The instruction that the unit executes next, when its opcode is `op`. -/
def State.dspNext (s : State) (n : Fin 64) (op : Nat) : Option DWord :=
  let i := Dsp.fetch s.cals[n]
  if s.dspRuns n ∧ dspOp i = op then some i else none

/-- The instruction is done: the program counter advances. -/
def Dsp.advancePc (d : Dsp) : Dsp := { d with pc := d.pc + 1 }

/-- The unit stops before an instruction with a cause, its place and generator recorded, and the plan
stops at the next boundary (R115). -/
def State.dspFault (s : State) (n : Fin 64) (cause : Nat) (ag : Fin 16) : State :=
  let s1 := s.modCal n (fun c => { c with
    fault := true
    dsp := { c.dsp with fault := true, faultCause := BitVec.ofNat 4 cause, stopped := true,
                        faultPc := c.dsp.pc, faultAg := BitVec.ofNat 4 ag.val } })
  match s.planOn n with
  | some p => s1.planStop p.handle (if cause = 3 then .streamFault else .dsp) n.val
  | none => s1

/-! ### Lanes (R105) -/

/-- The format of a real lane type. -/
def laneFmt (ty : Nat) : Fmt := if ty = 0 then fFP32 else if ty = 1 then fBF16 else fFP16

/-- The number of lanes of a real lane type. -/
def laneCount (ty : Nat) : Nat := if ty = 0 then 32 else 64

/-- The code in a lane. -/
def lane (ty : Nat) (v : Data1024) (j : Nat) : Nat := nfld v (j * (laneFmt ty).width) (laneFmt ty).width

/-- The value in a lane. -/
def laneNum (ty : Nat) (v : Data1024) (j : Nat) : Num := (laneFmt ty).value (lane ty v j)

/-- A register from its lane codes. -/
def ofLanes (ty : Nat) (cs : List Nat) : Data1024 := ofBytes 1024 (packCodes (laneFmt ty) cs)

/-- A register with values in FP32 lanes 0 and 1 and zeros elsewhere. -/
def twoLanes (a b : Word) : Data1024 := at_ 1024 0 a ||| at_ 1024 32 b

/-- What the lanes of one instruction leave: codes, generator and flags. -/
structure LaneRes where
  codes : List Nat := []
  gen : Word
  inv : List Nat := []
  sat : Bool := false
  flush : Bool := false
deriving DecidableEq, Repr

/-- One result rounded into its lane: FP32 to nearest; BF16 and FP16 under DSP_MODE with one draw (R109). -/
def roundLane (mode : BitVec 3) (ty : Nat) (r : LaneRes) (v : Num) : LaneRes :=
  if ty = 0 then { r with codes := r.codes ++ [(roundFP32 v).toNat] }
  else
    let sr := mode.getLsbD 0
    let g := if sr then xorshift r.gen else r.gen
    let c := (laneFmt ty).convert v (if sr then some g else none) (mode.getLsbD 1) (mode.getLsbD 2)
    { r with codes := r.codes ++ [c.code], gen := g, sat := r.sat || c.sat, flush := r.flush || c.flush }

/-- The results of several instructions' occurrences of zero times infinity joined into the beat's first
and count: lowest DSP_PC, then lowest lane (R124). -/
def Dsp.capture (d : Dsp) (lanes : List Nat) : Dsp :=
  lanes.foldl (fun d j =>
    match d.occ with
    | none => { d with occ := some (d.pc, j) }
    | some (pc, k) =>
      let first := decide (d.pc.toNat < pc.toNat) || (d.pc == pc && decide (j < k))
      { d with occ := some (if first then (d.pc, j) else (pc, k)), occCnt := d.occCnt + 1 }) d

/-- An instruction's register result, flags, generator and occurrences written back, and the counter advanced. -/
def Dsp.finish (d : Dsp) (vd : Fin 32) (v : Data1024) (r : LaneRes) : Dsp :=
  (({ (d.capture r.inv) with v := vset d.v vd v, seed := r.gen }).setFlags (!r.inv.isEmpty) r.sat r.flush).advancePc

/-! ### Arithmetic on lanes (R93, R108, R109) -/

/-- One operation over all lanes of a type: `f` gives the exact value, `z` whether a product was zero
times infinity. -/
def laneOp (d : Dsp) (i : DWord) (f : Num → Num → Num → Num) (z : Num → Num → Bool) : Dsp :=
  let ty := dspType i
  let r := (List.range (laneCount ty)).foldl (fun r j =>
    let a := laneNum ty d.v[dspVa i] j
    let b := laneNum ty d.v[dspVb i] j
    let c := laneNum ty d.v[dspVc i] j
    let r1 := roundLane d.mode ty r (f a b c)
    if z a b then { r1 with inv := r1.inv ++ [j] } else r1) ({ gen := d.seed } : LaneRes)
  d.finish (dspVd i) (ofLanes ty r.codes) r

/-- A selection over all lanes, exact: nothing is rounded or drawn (R88). -/
def laneSelect (d : Dsp) (i : DWord) (f : Num → Num → Num) : Dsp :=
  let ty := dspType i
  let fm := laneFmt ty
  let cs := (List.range (laneCount ty)).map (fun j =>
    (fm.convert (f (laneNum ty d.v[dspVa i] j) (laneNum ty d.v[dspVb i] j)) none true false).code)
  d.finish (dspVd i) (ofLanes ty cs) { gen := d.seed }

/-- Run an instruction that works on registers alone. -/
def State.dspReg (s : State) (n : Fin 64) (op : Nat) (f : Dsp → DWord → Dsp) : Out :=
  match s.dspNext n op with
  | some i => .next (s.modCal n (fun c => c.modDsp (fun d => f d i)))
  | none => .next s

/-- VADD: lane sums (R108). -/
def execVadd (cal : Fin 64) (s : State) : Out :=
  s.dspReg cal 0x10 (fun d i => laneOp d i (fun a b _ => a.add b) (fun _ _ => false))

/-- VSUB: lane differences (R108). -/
def execVsub (cal : Fin 64) (s : State) : Out :=
  s.dspReg cal 0x11 (fun d i => laneOp d i (fun a b _ => a.add b.neg) (fun _ _ => false))

/-- VMUL: lane products (R108); zero times infinity sets INVALID (R89). -/
def execVmul (cal : Fin 64) (s : State) : Out :=
  s.dspReg cal 0x12 (fun d i => laneOp d i (fun a b _ => a.mul b) zeroTimesInf)

/-- VFMA: VA × VB + VC with one rounding (R108). -/
def execVfma (cal : Fin 64) (s : State) : Out :=
  s.dspReg cal 0x13 (fun d i => laneOp d i (fun a b c => (a.mul b).add c) zeroTimesInf)

/-- VMAX: lane maxima (R88, R108). -/
def execVmax (cal : Fin 64) (s : State) : Out := s.dspReg cal 0x14 (fun d i => laneSelect d i Num.max)

/-- VMIN: lane minima (R88, R108). -/
def execVmin (cal : Fin 64) (s : State) : Out := s.dspReg cal 0x15 (fun d i => laneSelect d i Num.min)

/-- One complex lane of VCMUL: both parts, and whether a product was zero times infinity (R109). -/
def cmulLane (a b : Data1024) (j : Nat) : Word × Word × Bool :=
  let ar := laneNum 0 a (2 * j)
  let ai := laneNum 0 a (2 * j + 1)
  let br := laneNum 0 b (2 * j)
  let bi := laneNum 0 b (2 * j + 1)
  if zeroTimesInf ar br || zeroTimesInf ai bi || zeroTimesInf ar bi || zeroTimesInf ai br then
    (0x7FC00000#32, 0x7FC00000#32, true)
  else (roundFP32 ((ar.mul br).add (ai.mul bi).neg), roundFP32 ((ar.mul bi).add (ai.mul br)), false)

/-- VCMUL: complex products, each part summed exactly and rounded once (R109). -/
def execVcmul (cal : Fin 64) (s : State) : Out :=
  s.dspReg cal 0x16 (fun d i =>
    let rs := (List.range 16).map (fun j => cmulLane d.v[dspVa i] d.v[dspVb i] j)
    d.finish (dspVd i) (ofLanes 0 (rs.flatMap (fun r => [r.1.toNat, r.2.1.toNat])))
      { gen := d.seed, inv := (List.range 16).filter (fun j => (rs.getD j (0, 0, false)).2.2) })

/-- Neighbours combined in pairs. -/
def pairUp (f : Word → Word → Word) : List Word → List Word
  | a :: b :: t => f a b :: pairUp f t
  | l => l

/-- The fixed binary tree of R110: `k` levels. -/
def treeReduce (f : Word → Word → Word) : Nat → List Word → List Word
  | 0, l => l
  | k + 1, l => treeReduce f k (pairUp f l)

/-- A lane reduction in FP32, its result in lane 0 (R110). -/
def laneReduce (d : Dsp) (i : DWord) (f : Word → Word → Word) : Dsp :=
  let ty := dspType i
  let l := (List.range (laneCount ty)).map (fun j => roundFP32 (laneNum ty d.v[dspVa i] j))
  let w := (treeReduce f 6 l).headD 0
  d.finish (dspVd i) (at_ 1024 0 w) { gen := d.seed }

/-- VRSUM: the sum of all lanes in the fixed tree, each addition rounded to FP32 (R110). -/
def execVrsum (cal : Fin 64) (s : State) : Out :=
  s.dspReg cal 0x18 (fun d i => laneReduce d i (fun a b => roundFP32 ((fp32 a).add (fp32 b))))

/-- VRMAX: the maximum of all lanes (R88, R110). -/
def execVrmax (cal : Fin 64) (s : State) : Out :=
  s.dspReg cal 0x19 (fun d i => laneReduce d i (fun a b => roundFP32 ((fp32 a).max (fp32 b))))

/-- A function of R111 on every lane: computed in FP32, then converted for BF16 and FP16. -/
def laneFunc (op : Nat) (d : Dsp) (i : DWord) : Dsp :=
  let ty := dspType i
  let r := (List.range (laneCount ty)).foldl (fun r j =>
    let y := dspFunc op ty (roundFP32 (laneNum ty d.v[dspVa i] j))
    roundLane d.mode ty r (fp32 y)) ({ gen := d.seed } : LaneRes)
  d.finish (dspVd i) (ofLanes ty r.codes) r

/-- VEXP: e^x (R111). -/
def execVexp (cal : Fin 64) (s : State) : Out := s.dspReg cal 0x20 (laneFunc 0x20)
/-- VLOG: ln x (R111). -/
def execVlog (cal : Fin 64) (s : State) : Out := s.dspReg cal 0x21 (laneFunc 0x21)
/-- VRSQRT: 1 ÷ √x (R111). -/
def execVrsqrt (cal : Fin 64) (s : State) : Out := s.dspReg cal 0x22 (laneFunc 0x22)
/-- VRCP: 1 ÷ x (R111). -/
def execVrcp (cal : Fin 64) (s : State) : Out := s.dspReg cal 0x23 (laneFunc 0x23)
/-- VSIGM: 1 ÷ (1 + e^−x) (R111). -/
def execVsigm (cal : Fin 64) (s : State) : Out := s.dspReg cal 0x24 (laneFunc 0x24)
/-- VTANH: tanh x (R111). -/
def execVtanh (cal : Fin 64) (s : State) : Out := s.dspReg cal 0x25 (laneFunc 0x25)

/-! ### Conversion (R112) -/

/-- VCVTI on one register: a packed row of format IMM[3:0] into FP32 lanes; DSP_MODE.FLUSH_SUB acts on the results
(R87, R109). -/
def cvtIn (d : Dsp) (i : DWord) : Dsp :=
  match fmtOf (dspImm i % 16) with
  | none => d.advancePc
  | some f =>
    let row := toBytes d.v[dspVa i] 128
    let sc := byteNat row (elemBytes f 32)
    let r := (List.range 32).foldl (fun r j =>
      let x := f.value (elemCode f row j)
      let y := fFP32.convert (if f.mx then (scaleNum sc).mul x else x) none true (d.mode.getLsbD 2)
      { r with codes := r.codes ++ [y.code], flush := r.flush || y.flush }) ({ gen := d.seed } : LaneRes)
    d.finish (dspVd i) (ofLanes 0 r.codes) r

/-- VCVTI: convert a packed row into FP32 lanes; a scale of 0xFF gives NaN in every lane (R112). -/
def execVcvti (cal : Fin 64) (s : State) : Out := s.dspReg cal 0x30 cvtIn

/-- VCVTO on one register: 32 FP32 lanes into a packed row of format IMM[3:0]. -/
def cvtOut (d : Dsp) (i : DWord) : Dsp :=
  let cols := (List.range 32).map (fun j => (j, (rfld d.v[dspVa i] (4 * j) 0 32 : Word)))
  let r := drainArray (dspImm i % 16) (d.mode.getLsbD 0) (d.mode.getLsbD 1) (d.mode.getLsbD 2) cols d.seed
  d.finish (dspVd i) (ofBytes 1024 r.1) { gen := r.2.gen, sat := r.2.sat, flush := r.2.flush }

/-- VCVTO: convert 32 FP32 lanes into a packed row, for an MX format under R79 (R112). -/
def execVcvto (cal : Fin 64) (s : State) : Out := s.dspReg cal 0x31 cvtOut

/-! ### Address generators (R114) -/

def AddrGen.esize (g : AddrGen) : Nat := max 1 (nfld g.ctl 0 16)
def AddrGen.circ (g : AddrGen) : Bool := bitAt g.ctl 16
def AddrGen.target (g : AddrGen) : Bool := bitAt g.ctl 17
def AddrGen.stream (g : AddrGen) : Fin 64 := Fin.ofNat 64 (nfld g.ctl 18 6)

/-- The pointer after one advance (R114). -/
def AddrGen.advance (g : AddrGen) : AddrGen :=
  if g.circ then
    { g with ptr := BitVec.ofInt 32 (((g.ptr.toNat : Int) + g.stride.toInt) % ((g.lenM1.toNat : Int) + 1)) }
  else { g with ptr := g.ptr + g.stride }

/-- The pointer after several advances. -/
def AddrGen.advanceN (g : AddrGen) : Nat → AddrGen
  | 0 => g
  | k + 1 => g.advance.advanceN k

/-- The address of the current record (R114). -/
def AddrGen.addr (g : AddrGen) : Nat := g.base.toNat + g.ptr.toNat * g.esize
/-- The SRAM address of the current record: the base is BASE[23:0]. -/
def AddrGen.sramAddr (g : AddrGen) : Nat := g.base.toNat % 2 ^ 24 + g.ptr.toNat * g.esize

/-- The fault of an access to the current SRAM record, if it has one: AG_RANGE 1 or SEG 2 (R115). -/
def agFault (c : Caldera) (g : AddrGen) (perm : Nat) : Option Nat :=
  if !g.circ && decide (g.lenM1.toNat < g.ptr.toNat) then some 1
  else if g.target then none
  else if sramSize < g.sramAddr + g.esize then some 1
  else if !segOk c g.sramAddr g.esize perm then some 2
  else none

/-- A record read at a generator: its bytes and the caldera after it, a fault, or a wait. -/
inductive AgRead where
  | data (bytes : List Byte) (c : Caldera)
  | fault (cause : Nat)
  | wait
deriving DecidableEq, Repr

/-- The record at generator `k` read and the generator advanced (R108, R114, R115). -/
def agRead (c : Caldera) (k : Fin 16) : AgRead :=
  let g := c.dsp.ag[k]
  match agFault c g 27 with
  | some f => .fault f
  | none =>
    let adv (c : Caldera) : Caldera := c.modDsp (fun d => { d with ag := vmod d.ag k AddrGen.advance })
    if g.target then
      let t := c.streams[g.stream]
      if t.st = .halted then .fault 3
      else match c.staged g.stream (dRec t.desc) with
        | some b => .data b (adv (c.consume g.stream (dRec t.desc)))
        | none => .wait
    else .data (mreadN c.sram g.sramAddr (min g.esize 128)) (adv c)

/-- VLD: the record at AG into VD, the bytes beyond it zero (R108, R115). -/
def execVld (cal : Fin 64) (s : State) : Out :=
  match s.dspNext cal 0x01 with
  | none => .next s
  | some i =>
    match agRead s.cals[cal] (dspAg i) with
    | .fault f => .next (s.dspFault cal f (dspAg i))
    | .wait => .next s
    | .data b c =>
      .next (s.modCal cal (fun _ => c.modDsp (fun d =>
        ({ d with v := vset d.v (dspVd i) (ofBytes 1024 (b.take (min c.dsp.ag[dspAg i].esize 128))) }).advancePc)))

/-- VST: bytes of VD as the record at AG (R108, R115); through a stream the record waits in its slot. -/
def execVst (cal : Fin 64) (s : State) : Out :=
  match s.dspNext cal 0x02 with
  | none => .next s
  | some i =>
    let c := s.cals[cal]
    let k := dspAg i
    let g := c.dsp.ag[k]
    let b := toBytes c.dsp.v[dspVd i] (min g.esize 128)
    match agFault c g 28 with
    | some f => .next (s.dspFault cal f k)
    | none =>
      let done (c : Caldera) : Caldera :=
        c.modDsp (fun d => ({ d with ag := vmod d.ag k AddrGen.advance }).advancePc)
      if g.target then
        let t := c.streams[g.stream]
        if t.st = .halted then .next (s.dspFault cal 3 k)
        else if t.agenDone ∧ (t.st = .armed ∨ t.st = .active) then
          .next (s.modCal cal (fun c => done { c with
            streams := vmod c.streams g.stream (fun t => { t with agenQ := some (BitVec.ofNat 64 g.addr, b, t.pos) }) }))
        else .next s
      else .next (s.modCal cal (fun c => done { c with sram := mwriteN c.sram g.sramAddr b }))

/-- AGSET: AG's pointer from FP32 lane 0 of VA; run-ahead data of its stream is dropped (R108, R143). -/
def execAgset (cal : Fin 64) (s : State) : Out :=
  match s.dspNext cal 0x48 with
  | none => .next s
  | some i =>
    .next (s.modCal cal (fun c =>
      let g := c.dsp.ag[dspAg i]
      let c1 := c.modDsp (fun d => ({ d with
        ag := vmod d.ag (dspAg i) (fun g => { g with ptr := rfld d.v[dspVa i] 0 0 32 }) }).advancePc)
      if g.target then
        { c1 with pool := c1.pool.filter (fun p => p.owner != g.stream.val || p.demand)
                  streams := vmod c1.streams g.stream (fun t => { t with inBuf := [], epoch := t.epoch + 1, reqPos := t.bufPos }) }
      else c1))

/-! ### Extreme search (R113) -/

/-- Whether one element comes before another in the search order; `mn` for VSRCHMIN. -/
def searchBefore (mn : Bool) (a : Num) (i : Nat) (b : Num) (j : Nat) : Bool :=
  if a.isNan then (!b.isNan || decide (i < j))
  else if b.isNan then false
  else
    let gt (x y : Num) : Bool := y.lt x || (!x.lt y && x.isZero && !x.isNeg && y.isNeg)
    let first := if mn then gt b a else gt a b
    let second := if mn then gt a b else gt b a
    first || (!second && decide (i < j))

/-- How far a search has come: the elements examined, and the first considered one among them. -/
structure SearchRun where
  cal : Caldera
  idx : Nat := 0
  best : Option (Num × Nat) := none
  /-- The fault or the wait that stops it. -/
  stop : Option AgRead := none
deriving DecidableEq, Repr

/-- One more element examined. -/
def searchBest (mn : Bool) (key : Option (Num × Nat)) (best : Option (Num × Nat)) (v : Num) (i : Nat) : Option (Num × Nat) :=
  let ok := match key with
    | some (x, j) => searchBefore mn x j v i
    | none => true
  if !ok then best
  else match best with
    | none => some (v, i)
    | some b => if searchBefore mn v i b.1 b.2 then some (v, i) else best

/-- Up to `n` further elements examined in the order AG advances. -/
def searchRead (f : Fmt) (mn : Bool) (key : Option (Num × Nat)) (k : Fin 16) : Nat → SearchRun → SearchRun
  | 0, r => r
  | n + 1, r =>
    match agRead r.cal k with
    | .data b c => searchRead f mn key k n { r with cal := c, idx := r.idx + 1, best := searchBest mn key r.best (f.value (elemCode f b 0)) r.idx }
    | x => { r with stop := some x }

/-- The progress that a search keeps while it waits, and when its plan is suspended (R113, R116). -/
def SearchRun.keep (r : SearchRun) : Caldera :=
  r.cal.modDsp (fun d => { d with srch := some (r.idx, r.best.map (fun b => (roundFP32 b.1, b.2))) })

/-- A search that has examined every element: its result (R113). -/
def SearchRun.result (r : SearchRun) (vd : Fin 32) : Caldera :=
  r.cal.modDsp (fun d =>
    let out := match r.best with
      | some (v, j) => twoLanes (roundFP32 v) (BitVec.ofNat 32 j)
      | none => twoLanes 0x7FC00000#32 0xFFFFFFFF#32
    ({ d with v := vset d.v vd out, srchNone := r.best.isNone, srch := none }).advancePc)

/-- A search instruction (R113): it examines the elements that it can read, from its saved progress on; the element
found and its index, or none. -/
def searchExec (cal : Fin 64) (op : Nat) (mn : Bool) (s : State) : Out :=
  match s.dspNext cal op with
  | none => .next s
  | some i =>
    let c := s.cals[cal]
    let key := if dspImm i % 2 = 1 then
        some (fp32 (rfld c.dsp.v[dspVa i] 0 0 32), rnum c.dsp.v[dspVa i] 4 0 32)
      else none
    let kept := c.dsp.srch.getD (0, none)
    let r := searchRead (laneFmt (dspType i)) mn key (dspAg i) (c.dsp.ag[dspAg i].lenM1.toNat + 1 - kept.1)
      { cal := c, idx := kept.1, best := kept.2.map (fun b => (fp32 b.1, b.2)) }
    match r.stop with
    | none => .next (s.modCal cal (fun _ => r.result (dspVd i)))
    | some (.fault x) => .next ((s.modCal cal (fun _ => r.keep)).dspFault cal x (dspAg i))
    | some _ => .next (s.modCal cal (fun _ => r.keep))

/-- VSRCHMAX: the greatest element in the search order (R113). -/
def execVsrchmax (cal : Fin 64) (s : State) : Out := searchExec cal 0x38 false s
/-- VSRCHMIN: the smallest element in the search order (R113). -/
def execVsrchmin (cal : Fin 64) (s : State) : Out := searchExec cal 0x39 true s

/-! ### Check feed, waits, end -/

/-- CHKF: lanes 0 to IMM[15:8] of VA enter a check unit's queue; without room the unit waits (R108, R119). -/
def execChkf (cal : Fin 64) (s : State) : Out :=
  match s.dspNext cal 0x40 with
  | none => .next s
  | some i =>
    let c := s.cals[cal]
    let u : Fin 2 := Fin.ofNat 2 (dspImm i % 2)
    let w := (laneFmt (dspType i)).width / 8
    let n := min (laneCount (dspType i)) (dspImm i / 256 % 256 + 1)
    if 64 < c.chk[u].queue.length + n then .next s
    else
      .next (s.modCal cal (fun c => { c with
        chk := vmod c.chk u (fun k => { k with queue := k.queue ++ (List.range n).map (fun j =>
          .bytes (toBytes (BitVec.ofNat 32 (lane (dspType i) c.dsp.v[dspVa i] j)) w)) })
        dsp := c.dsp.advancePc }))

/-- WDRAIN: go on once the tile has drained the named number of rows since the previous WDRAIN on it;
else wait (R108); rows beyond that number do not count for the next WDRAIN (log 98). -/
def execWdrain (cal : Fin 64) (s : State) : Out :=
  match s.dspNext cal 0x51 with
  | none => .next s
  | some i =>
    let t : Fin 4 := Fin.ofNat 4 (dspImm i % 4)
    if ((dspImm i / 4 : Nat) : Int) ≤ s.cals[cal].dsp.rowsSince[t] then
      .next (s.modCal cal (fun c => c.modDsp (fun d => ({ d with rowsSince := vset d.rowsSince t 0 }).advancePc)))
    else .next s

/-- The unit reached END: it is idle (R108). -/
def dspStop (s : State) (cal : Fin 64) : State := s.modCal cal (fun c => c.modDsp (fun d => { d with busy := false }))

/-- DSP_SEED_WRITE: a write of DSP_SEED; 0 loads the nonzero constant; dropped while the caldera runs a
plan, is gated or wakes (R109, R117, R128). -/
def execDspSeedWrite (cal : Fin 64) (value : Word) (s : State) : Out :=
  let c := s.cals[cal]
  if s.calShut cal then .next s
  else if s.runsPlan cal || c.gated || c.waking then
    .next (s.modCal cal (fun c => { c with accessRefused := true }))
  else .next (s.modCal cal (fun c => c.modDsp (fun d => { d with seed := genLoad value })))

end Sys2Proof.Machine
end

