-- ==== Sys2Proof/Machine/StackMem.lean ====
section
/-! DEFINITION. Stacked memory: requests, the controllers, block checks, the bad-block log, refresh and
training (R186 to R207). -/

namespace Sys2Proof.Machine

/-! ### Address mapping (R190) -/

/-- Bytes of one stack, and its frames. -/
def stackBytes : Nat := 72000000000
def stackFrames : Nat := 137329

/-- Bytes of a page and of a frame. -/
def pageBytes : Nat := 524288

/-- The place of a block: stack, channel, bank key (16 × pseudo-channel + bank), row and column block; `mapped`: its
offset lies within the stack. -/
structure BlockPlace where
  stack : Nat
  ch : Nat
  bank : Nat
  row : Nat
  colblk : Nat
  mapped : Bool
deriving DecidableEq, Repr

/-- Where a block of 256 bytes lies (R190). -/
def blockPlace (block : Word) : BlockPlace :=
  let dma := block.toNat * 256
  let o := dma % 2 ^ 37
  let f := o / 524288
  let b := o / 256 % 2048
  { stack := dma / 2 ^ 37, ch := f % 32,
    bank := 16 * (b % 2) + ((b / 8 % 16) ^^^ (b / 128 % 16)),
    row := f / 32 * 16 + b / 128 % 16
    colblk := b / 2 % 4, mapped := decide (o < stackBytes) }

/-- The column of 32-byte burst `k` of a block (R190). -/
def BlockPlace.col (p : BlockPlace) (k : Fin 8) : Nat := p.colblk * 8 + k.val

/-- The check of a block: CRC-32C over its stored bytes and the block tag (R198). -/
def blockCheck (block : Word) (stored : List Byte) : Word := crc32c (stored ++ toBytes block 4)

/-- The check bits that burst `k` of a block carries, and the check that eight bursts carry (R198). -/
def burstBits (check : Word) (k : Fin 8) : BitVec 4 := fld check (4 * k.val) 4
def burstCheck (m : Vector (BitVec 4) 8) : Word := (List.finRange 8).foldl (fun w k => w ||| at_ 32 (4 * k.val) m[k]) 0

/-- The metadata bits of a block with a given check. -/
def metaOf (check : Word) : Vector (BitVec 4) 8 := Vector.ofFn (burstBits check)

/-- The key under which a context's stacked pages are stored, for a confidential context (R375). -/
def State.memKey (s : State) (ctx : Byte) : Option (BitVec 512) :=
  match tfind s.sec.ctxs ctx.toNat with
  | some c => if c.conf then some c.xtsKey else none
  | none => none

/-- The tweak of a stacked block (R375). -/
def blockTweak (block : Word) : BitVec 128 := block.setWidth 128

/-- The 256 stored bytes of a block. -/
def State.storedBlock (s : State) (block : Word) : Data2048 := ofBytes 2048 (mreadN s.hbm (block.toNat * 256) 256)

/-- The check that a block's metadata bits hold; memory not listed holds that of its bytes (R198, R202). -/
def State.storedCheck (s : State) (block : Word) : Word :=
  match tfind s.hbmMeta block.toNat with
  | some m => burstCheck m
  | none => blockCheck block (toBytes (s.storedBlock block) 256)

/-- Blocks of `n` bytes from address `a` on are written as zero blocks with their checks. -/
def State.zeroBlocks (s : State) (a n : Nat) : State :=
  { s with hbm := mclear s.hbm a n, hbmMeta := s.hbmMeta.filter (fun e => decide (256 * e.1 + 256 ≤ a) || decide (a + n ≤ 256 * e.1)) }

/-- The device memory address of a frame. -/
def frameDma (f : Fin 8 × Nat) : Nat := f.1.val * 2 ^ 37 + f.2 * pageBytes

/-- A block as its context sees it. -/
def plainBlock (key : Option (BitVec 512)) (block : Word) (d : Data2048) : Data2048 :=
  match key with
  | some k => xtsDec k (blockTweak block) d
  | none => d

/-- A block as it is stored for its context. -/
def cipherBlock (key : Option (BitVec 512)) (block : Word) (d : Data2048) : Data2048 :=
  match key with
  | some k => xtsEnc k (blockTweak block) d
  | none => d

/-- A whole block written, encrypted where its context is confidential (R199, R375). -/
def State.storeBlock (s : State) (ctx : Byte) (block : Word) (d : Data2048) : State :=
  let e := cipherBlock (s.memKey ctx) block d
  { s with hbm := mwriteN s.hbm (block.toNat * 256) (toBytes e 256)
           hbmMeta := tput s.hbmMeta block.toNat (metaOf (blockCheck block (toBytes e 256))) }

/-- New bytes FIRST to LAST over an old block (R199). -/
def mergeBlock (old new : Data2048) (first last : Byte) : Data2048 :=
  ofBytes 2048 ((List.range 256).map (fun i =>
    if first.toNat ≤ i ∧ i ≤ last.toNat then fld new (8 * i) 8 else fld old (8 * i) 8))

/-! ### Request words (R189) -/

def rqBlock (w : DWord) : Word := fld w 0 32
def rqWrite (w : DWord) : Bool := bitAt w 32
def rqSpec (w : DWord) : Bool := bitAt w 33
def rqFirst (w : DWord) : Byte := fld w 34 8
def rqLast (w : DWord) : Byte := fld w 42 8
def rqBad (w : DWord) : Bool := decide ((rqLast w).toNat < (rqFirst w).toNat) || nfld w 50 14 != 0

/-- A request word from its fields. -/
def mkRequest (block : Word) (write spec : Bool) (first last : Nat) : DWord :=
  at_ 64 0 block ||| flagAt 64 32 write ||| flagAt 64 33 spec ||| natAt 64 34 first ||| natAt 64 42 last

/-- Whether a request was issued by its slot before the slot's last halt or pause. -/
def State.stale (s : State) (r : MemReq) : Bool :=
  match r.who with
  | some w => !r.write && (s.stm w).epoch != r.epoch
  | none => false

/-! ### Arrival of a request (R188, R189, R191, R196, R197) -/

/-- Whether two byte ranges of one block share a 64-byte granule. -/
def shareGranule (a b : MemReq) : Bool :=
  a.block == b.block && decide (a.first.toNat / 64 ≤ b.last.toNat / 64) && decide (b.first.toNat / 64 ≤ a.last.toNat / 64)

/-- Bytes accepted at the destination up to a position (R132); a drain ring gets its space back (R57). -/
def State.accepted (s : State) (r : SlotRef) (n : Nat) : State :=
  let s1 := s.modStm r (fun t =>
    { t with pos := t.pos + n, moved := true, st := if t.st = .armed then .active else t.st })
  match r with
  | .cp _ => s1
  | .cal c k => s1.modCal c (fun c =>
      { c with rings := c.rings.map (fun g => if g.stream = some k.val ∧ g.readBy c.streams[k].desc then g.moved n else g) })

/-- A word of fewer than 64 bytes; its other bits are open (log 3). -/
def State.openWord (s : State) (b : List Byte) : CWord × State :=
  if b.length < 64 then (let x := s.draw; (ofBytes 512 b ||| (x.1 <<< (8 * b.length)), x.2)) else (ofBytes 512 b, s)

/-- Bytes as the words of a conduit, the last one filled up with open bits. -/
def State.wordsOf : Nat → State → List Byte → List CWord × State
  | 0, s, _ => ([], s)
  | n + 1, s, b =>
    if b = [] then ([], s)
    else
      let x := s.openWord (b.take 64)
      let y := State.wordsOf n x.2 (b.drop 64)
      (x.1 :: y.1, y.2)

/-- The data of a write of the real-time port: the words of its write buffer that come first. -/
def Chan.writeData (c : Chan) (first bytes : Nat) : Data2048 :=
  (ofBytes 2048 ((c.wdata.flatMap (fun w => toBytes w 64)).take bytes)) <<< (8 * first)

/-- A request enters its controller's queue. -/
def Chan.enqueue (c : Chan) (r : MemReq) : Chan :=
  let raw := !r.write && (c.queue ++ c.inflight).any (fun q => q.write && shareGranule q r)
  { c with queue := c.queue ++ [r], rawWait := if raw then satInc c.rawWait else c.rawWait }

/-- MEM_REQUEST: the oldest request word under way to a port arrives: discarded as bad, refused outside
the port's channel or the stack, or queued (R189 to R191, R196).  A write of a real-time port waits until its words have
come over the conduit into the write buffer (R188, R194). -/
def execMemRequest (stack : Fin 8) (ch : Fin 32) (port : MemPort) (s : State) : Out :=
  match s.lanes.find? (fun l => l.stack == stack && l.ch == ch && l.port == port) with
  | none => .next s
  | some l =>
    let s0 := { s with lanes := s.lanes.erase l }
    let live := match l.who with
      | some w => (s.stm w).epoch == l.epoch
      | none => true
    if !live then .next s0
    else if rqBad l.word then
      let s1 := s0.modChan stack ch (fun c => { c with badReq := satInc c.badReq })
      .next (match l.who with
        | some w => s1.haltStream w 5 0
        | none => s1)
    else
      let p := blockPlace (rqBlock l.word)
      if !p.mapped ∨ (port = .rt ∧ (p.stack ≠ stack.val ∨ p.ch ≠ ch.val)) then
        .next (match l.who with
          | some w => s0.haltStream w 2 l.vpn
          | none => s0)
      else
        let c := s.hbmStacks[stack].ch[ch]
        let q : MemReq :=
          { id := s.cp.memId, block := rqBlock l.word, write := rqWrite l.word, spec := rqSpec l.word && !rqWrite l.word
            first := rqFirst l.word, last := rqLast l.word, data := l.data, port := port, who := l.who, ctx := l.ctx
            pos := l.pos, epoch := l.epoch, vpn := l.vpn, gen := l.gen, arrived := s.now }
        let words := if port = .rt ∧ q.write then q.entries else 0
        if c.wdata.length < words then .next s
        else
          let r := if words = 0 then q else { q with data := c.writeData q.first.toNat q.bytes }
          let s1 := (s0.modCp (fun c => { c with memId := c.memId + 1 })).modChan stack ch (fun c =>
            { c with wdata := c.wdata.drop words }.enqueue r)
          let s2 := match r.write, l.who with
            | true, some w => s1.accepted w r.bytes
            | _, _ => s1
          .next ((s2.watchPanic stack ch).absorbStack stack ch)

/-! ### Scheduling (R192 to R196) -/

/-- The read buffer has room for a read beside what it holds and what the reads under way will bring (R194; log 47). -/
def Chan.readRoom (c : Chan) (r : MemReq) : Bool :=
  r.write || r.port != .rt || decide (c.rbuf.length + ((c.inflight.filter (fun q => !q.write && q.port == .rt)).map MemReq.entries).sum
    + r.entries ≤ 64)

/-- Whether R196 lets a queued request issue: requests of one block of which one is a write go in order of arrival, each
after the one before has been done, which orders those of a granule and never mixes their commands; a read needs room
for its data. -/
def Chan.mayIssueReq (c : Chan) (r : MemReq) : Bool :=
  !(c.queue.any (fun q => decide (q.id < r.id) && (q.write || r.write) && q.block == r.block))
    && !(c.inflight.any (fun q => q.block == r.block && (q.write || r.write))) && c.readRoom r

/-- Whether a request finds its row open. -/
def Chan.rowHit (c : Chan) (r : MemReq) : Bool :=
  let p := blockPlace r.block
  tfind c.openRows p.bank == some p.row

/-- The first request in scheduling order: open rows first, then older, the real-time port first among
requests that arrived together (R193). -/
def Chan.pick (c : Chan) (rs : List MemReq) : Option MemReq :=
  let best := fun (l : List MemReq) => l.foldl (fun (m : Option MemReq) r => match m with
    | none => some r
    | some q => if r.arrived < q.arrived ∨ (r.arrived = q.arrived ∧ r.port = .rt ∧ q.port = .free)
        ∨ (r.arrived = q.arrived ∧ r.port = q.port ∧ r.id < q.id) then some r else some q) none
  match best (rs.filter c.rowHit) with
  | some r => some r
  | none => best rs

/-- The priority class of a request (R193); 1,024 controller clocks are 160 ticks. -/
def Chan.classOf (c : Chan) (now : Nat) (r : MemReq) : Nat :=
  if r.spec then 6
  else if r.port = .rt then (if c.panicRd || c.panicWr then 2 else 4)
  else if r.arrived + 160 ≤ now then 5 else 6

/-- The pseudo-channel with a refresh that can no longer be postponed, or, without panic, one that is due
(R195): class 1 or 3. -/
def Chan.refreshOf (c : Chan) (max : Nat) : Option (Fin 2 × Nat) :=
  match (List.finRange 2).find? (fun i => decide (max < c.postponed[i] ∨ 0 < c.urgent[i])) with
  | some i => some (i, 1)
  | none =>
    if c.panicRd || c.panicWr then none
    else match (List.finRange 2).find? (fun i => decide (0 < c.due[i] + c.postponed[i])) with
      | some i => some (i, 3)
      | none => none

/-- A bank's row is closed, and its idle timer stops. -/
def Chan.closeRow (c : Chan) (bank : Nat) : Chan := { c with openRows := tdel c.openRows bank, rowDue := tdel c.rowDue bank }

/-- A per-bank refresh issued: it closes the row of its bank, whose number the standard's order gives (a free value),
and one refresh waiting is done: the excess over the limit, one that could not be postponed, a postponed one, or one
that is due (R195). -/
def Chan.refresh (c : Chan) (i : Fin 2) (bank max : Nat) : Chan :=
  let c1 := c.closeRow (16 * i.val + bank)
  if max < c.postponed[i] then { c1 with postponed := vmod c.postponed i (· - 1) }
  else if 0 < c.urgent[i] then { c1 with urgent := vmod c.urgent i (· - 1) }
  else if 0 < c.postponed[i] then { c1 with postponed := vmod c.postponed i (· - 1) }
  else { c1 with due := vmod c.due i (· - 1) }

/-- The idle time of HBM_PAGE_CTL in ticks of 6.4 controller clocks. -/
def idleTicks (idle : Nat) : Nat := (10 * idle + 63) / 64

/-- A block's row is opened where it must be, which is counted; its idle timer restarts, and IDLE = 0 closes it again
(R192, R206). -/
def Chan.openRow (c : Chan) (now : Nat) (block : Word) (idle : Nat) : Chan :=
  let p := blockPlace block
  let c1 := if tfind c.openRows p.bank = some p.row then c else { c with rowMiss := satInc c.rowMiss }
  if idle = 0 then c1.closeRow p.bank
  else { c1 with openRows := tput c1.openRows p.bank p.row, rowDue := tput c1.rowDue p.bank (now + idleTicks idle) }

/-- A re-read of a block closes its bank's row and opens it again (R200). -/
def Chan.reopen (c : Chan) (now : Nat) (block : Word) (idle : Nat) : Chan :=
  (c.closeRow (blockPlace block).bank).openRow now block idle

/-- A request issued to the stack: a whole-block write is done; a read or a read-modify-write is under way. -/
def State.issueReq (s : State) (k : Fin 8) (ch : Fin 32) (r : MemReq) : State :=
  let s1 := s.modStack k (fun st => { st with ch := vmod st.ch ch (fun c =>
    { (c.openRow s.now r.block st.idle.toNat) with queue := c.queue.erase r }) })
  if r.write then
    if r.partialWrite then
      s1.modChan k ch (fun c => { c with rmw := satInc c.rmw, inflight := c.inflight ++ [r] })
    else (s1.storeBlock r.ctx r.block r.data).modChan k ch (fun c => { c with wr := satInc c.wr })
  else s1.modChan k ch (fun c => { c with inflight := c.inflight ++ [r] })

/-- MEM_COMMAND_ISSUE: a controller issues its next command by class (R193). -/
def execMemCommandIssue (stack : Fin 8) (ch : Fin 32) (s : State) : Out :=
  let st := s.hbmStacks[stack]
  let s0 := s.modChan stack ch (fun c => { c with queue := c.queue.filter (fun r => !s.stale r) })
  let c := s0.hbmStacks[stack].ch[ch]
  let ready := c.queue.filter c.mayIssueReq
  let cls := (List.range 7).find? (fun k => ready.any (fun r => c.classOf s.now r == k))
  let req := cls.bind (fun k => c.pick (ready.filter (fun r => c.classOf s.now r == k)))
  match c.refreshOf st.postMax.toNat, cls, req with
  | some (i, k), some q, some r =>
    if k < q then
      let d := s0.draw
      .next (d.2.modChan stack ch (fun c => c.refresh i (nfld d.1 0 4) st.postMax.toNat))
    else .next ((s0.issueReq stack ch r).watchPanic stack ch)
  | some (i, _), _, _ =>
    let d := s0.draw
    .next (d.2.modChan stack ch (fun c => c.refresh i (nfld d.1 0 4) st.postMax.toNat))
  | none, _, some r => .next ((s0.issueReq stack ch r).watchPanic stack ch)
  | none, _, none => .next (s0.watchPanic stack ch)

/-- ROW_IDLE_EXPIRY: a bank whose idle timer has reached IDLE has its row closed (R192). -/
def execRowIdleExpiry (stack : Fin 8) (ch : Fin 32) (pc : Bool) (bank : Fin 16) (s : State) : Out :=
  let b := 16 * pc.toNat + bank.val
  .next (s.modChan stack ch (fun c => if (tfind c.rowDue b).any (fun d => decide (d ≤ s.now)) then c.closeRow b else c))

/-- A refresh that falls due: postponed while a port is in panic and the allowance lasts; in panic without allowance it
can no longer be postponed (R195). -/
def Chan.refreshDue (c : Chan) (i : Fin 2) (max : Nat) : Chan :=
  if c.panicRd || c.panicWr then
    if c.postponed[i] < max then { c with postponed := vmod c.postponed i (· + 1), refPostponed := satInc c.refPostponed }
    else { c with urgent := vmod c.urgent i (· + 1) }
  else { c with due := vmod c.due i (· + 1) }

/-- REFRESH_DUE: a per-bank refresh falls due (R195). -/
def execRefreshDue (stack : Fin 8) (ch : Fin 32) (pc : Bool) (s : State) : Out :=
  let i : Fin 2 := if pc then 1 else 0
  .next (s.modStack stack (fun st => { st with ch := vmod st.ch ch (fun c => c.refreshDue i st.postMax.toNat) }))

/-! ### The bad-block log (R201) -/

/-- A bad-block log entry. -/
def bblEntry (s : State) (block stored computed : Word) (ctx : Byte) (op port : Nat) : BitVec 256 :=
  let hide := (s.memKey ctx).isSome
  at_ 256 0 block ||| at_ 256 32 (if hide then 0 else stored) ||| at_ 256 64 (if hide then 0 else computed)
    ||| at_ 256 96 ctx ||| natAt 256 104 op ||| natAt 256 106 port ||| at_ 256 128 s.glb.beatCnt

/-- One more failure in an entry's COUNT. -/
def bblCount (e : BitVec 256) : BitVec 256 := putFld e 112 (satInc (fld e 112 16))

/-- A failing block logged: counted in its entry, appended with a management event, or dropped (R201, R395). -/
def State.logBadBlock (s : State) (stack : Nat) (block stored computed : Word) (ctx : Byte) (op port : Nat) : State :=
  if s.glb.bbl.recs.any (fun e => fld e 0 32 == block) then
    s.modGlb (fun g => { g with bbl := { g.bbl with
      recs := g.bbl.recs.map (fun e => if fld e 0 32 = block then bblCount e else e) } })
  else
    let full := decide (64 ≤ s.glb.bbl.recs.length)
    let s1 := s.modGlb (fun g => { g with bbl := g.bbl.push (bblEntry s block stored computed ctx op port) })
    if full then s1 else s1.raise 3 2 stack 2 s1.glb.bbl.head block

/-! ### Returns (R199, R200) -/

/-- The read whose data may be delivered next: the oldest under way with no older read of its port queued (R189). -/
def Chan.due? (c : Chan) : Option MemReq :=
  c.inflight.find? (fun r => !(c.queue ++ c.inflight).any (fun q => decide (q.id < r.id) && !q.write && !r.write && q.port == r.port))

/-- Bytes of a read delivered: those of a free port to their slot, when it still waits for them; those of a real-time port
to its read buffer, from where they take the conduit (R161, R188, R194). -/
def State.deliver (s : State) (k : Fin 8) (ch : Fin 32) (r : MemReq) (plain : Data2048) : State :=
  let b := slice (toBytes plain 256) r.first.toNat r.bytes
  match r.who with
  | none => s
  | some w =>
    if r.port = .rt then
      let x := State.wordsOf 4 s b
      let note (i : Nat) : LaneNote := { who := w, pos := r.pos + 64 * i, len := min 64 (r.bytes - 64 * i), epoch := r.epoch }
      (x.2.modChan k ch (fun c => { c with rbuf := c.rbuf ++ x.1.zipIdx.map (fun y => (y.1, note y.2)) })).offerStack k ch
    else if (s.stm w).epoch = r.epoch ∧ (s.stm w).bufPos + (s.stm w).inBuf.length = r.pos then s.feed w b
    else s

/-- A verified block: delivered, or merged and written whole (R199, R200). -/
def State.goodReturn (s : State) (k : Fin 8) (ch : Fin 32) (r : MemReq) (stored : Data2048) : State :=
  let plain := plainBlock (s.memKey r.ctx) r.block stored
  let s1 := s.modChan k ch (fun c => { c with inflight := c.inflight.erase r })
  if r.write then
    (s1.storeBlock r.ctx r.block (mergeBlock plain r.data r.first r.last)).modChan k ch (fun c => { c with wr := satInc c.wr })
  else s1.deliver k ch r plain

/-- A read of a block is repeated: its row is closed and opened again, and the re-reads are counted (R200). -/
def State.reread (s : State) (k : Fin 8) (ch : Fin 32) (r : MemReq) : State :=
  s.modStack k (fun st => { st with ch := vmod st.ch ch (fun c =>
    { (c.reopen s.now r.block st.idle.toNat) with
      inflight := c.inflight.map (fun q => if q.id = r.id then { q with rereads := q.rereads + 1 } else q) }) })

/-- The write of a stream could not be done: the stream halts with cause DATA and, within the arming that sent the write,
goes back to it, also where its plan has been suspended since.  DESIGN CHOICE (log 121): a slot that has gone IDLE has no
stream left to halt, and one that is HALTED already keeps its cause (R199). -/
def State.writeLost (s : State) (w : SlotRef) (r : MemReq) : State :=
  let s1 := s.modStm w (fun t =>
    if t.gen = r.gen then { t with pos := min t.pos r.pos, savePos := min t.savePos r.pos } else t)
  if (s.stm w).st = .idle then s else if (s.stm w).st = .halted then s1 else s1.haltStream w 3 r.vpn

/-- A demand access that failed every re-read: logged, and its stream halted with cause DATA (R199 to R201). -/
def State.badReturn (s : State) (k : Fin 8) (ch : Fin 32) (r : MemReq) (storedCheck computed : Word) : State :=
  let s1 := s.modChan k ch (fun c =>
    { c with inflight := c.inflight.erase r, firstFail := satInc c.firstFail, rereadFail := satInc c.rereadFail })
  let s2 := s1.logBadBlock k.val r.block storedCheck computed r.ctx (if r.write then 1 else 0)
    (if r.port = .rt then ch.val else 32)
  match r.who with
  | some w =>
    if r.write then s2.writeLost w r else if (s2.stm w).epoch = r.epoch then s2.haltStream w 3 r.vpn else s2
  | none => s2

/-- What a read of a block brings back: its stored bytes and check with the bits that flipped. -/
def State.returned (s : State) (block : Word) (flip : Data2048) (flipCheck : Word) : Data2048 × Word :=
  (s.storedBlock block ^^^ flip, s.storedCheck block ^^^ flipCheck)

/-- Reads counted in HBM_CH_RD (R206). -/
def Chan.countRead (c : Chan) (r : MemReq) : Chan := if r.write then c else { c with rd := satInc c.rd }

/-- MEM_READ_RETURN: a block read returns and its check is compared: delivered, merged, or repeated; a
SPEC read that mismatches delivers nothing and stops its run-ahead (R143, R199, R200). -/
def execMemReadReturn (stack : Fin 8) (ch : Fin 32) (flip : Data2048) (flipCheck : Word) (s : State) : Out :=
  match s.hbmStacks[stack].ch[ch].due? with
  | none => .next s
  | some r =>
    if r.rereads ≠ 0 then .next s
    else
      let s0 := s.modChan stack ch (fun c => c.countRead r)
      let x := s.returned r.block flip flipCheck
      let good := blockCheck r.block (toBytes x.1 256) = x.2
      let s1 :=
        if s.stale r then s0.modChan stack ch (fun c => { c with inflight := c.inflight.erase r })
        else if good then s0.goodReturn stack ch r x.1
        else if r.spec then
          let s2 := s0.modChan stack ch (fun c => { c with inflight := c.inflight.erase r, firstFail := satInc c.firstFail })
          match r.who with
          | some w => s2.modStm w (fun t =>
              if t.epoch = r.epoch then { t with raStop := true, epoch := t.epoch + 1, reqPos := t.bufPos + t.inBuf.length } else t)
          | none => s2
        else s0.reread stack ch r
      .next (s1.watchPanic stack ch)

/-- MEM_REREAD_RETURN: a re-read returns: it delivers its data, is repeated, or after the third mismatch
fails the read (R200). -/
def execMemRereadReturn (stack : Fin 8) (ch : Fin 32) (flip : Data2048) (flipCheck : Word) (s : State) : Out :=
  match s.hbmStacks[stack].ch[ch].due? with
  | none => .next s
  | some r =>
    if r.rereads = 0 then .next s
    else
      let x := s.returned r.block flip flipCheck
      let computed := blockCheck r.block (toBytes x.1 256)
      let s1 :=
        if computed = x.2 then
          (s.goodReturn stack ch r x.1).modChan stack ch (fun c =>
            { c with firstFail := satInc c.firstFail, rereadOk := satInc c.rereadOk,
                     inflight := c.inflight.filter (fun q => q.id != r.id) })
        else if 3 ≤ r.rereads then s.badReturn stack ch r x.2 computed
        else s.reread stack ch r
      .next (s1.watchPanic stack ch)

/-! ### Whole accesses through a free hub (R188, R199, R200) -/

/-- A block of a free-hub access opens its row (R192, R206). -/
def State.openBlock (s : State) (k : Fin 8) (c : Fin 32) (block : Word) : State :=
  s.modStack k (fun st => { st with ch := vmod st.ch c (fun c => c.openRow s.now block st.idle.toNat) })

/-- A request of a controller runs to its end, its check matching: issued if it is queued, then delivered or merged
(R196, R199). -/
def State.serveNow (s : State) (k : Fin 8) (c : Fin 32) (r : MemReq) : State :=
  let queued := s.hbmStacks[k].ch[c].queue.contains r
  let s1 := if queued ∧ !s.stale r then s.issueReq k c r else s
  if s.stale r then
    s.modChan k c (fun c =>
      if queued then { c with queue := c.queue.erase r }
      else if c.inflight.contains r then { (if r.rereads = 0 then c.countRead r else c) with inflight := c.inflight.erase r } else c)
  else if s1.hbmStacks[k].ch[c].inflight.contains r then
    let s2 := s1.modChan k c (fun c =>
      if r.rereads = 0 then c.countRead r else { c with firstFail := satInc c.firstFail, rereadOk := satInc c.rereadOk })
    s2.goodReturn k c r (s2.storedBlock r.block)
  else s1

/-- A request put into a list in order of arrival. -/
def insertReq (r : MemReq) : List MemReq → List MemReq
  | [] => [r]
  | q :: l => if r.id ≤ q.id then r :: q :: l else q :: insertReq r l

/-- The requests of a controller, oldest first. -/
def Chan.requests (c : Chan) : List MemReq := (c.queue ++ c.inflight).foldr insertReq []

/-- Where a request of a controller for which `before` holds goes before an access, the controller's requests run to their
end first, oldest first. -/
def State.runRequests (s : State) (k : Fin 8) (c : Fin 32) (before : MemReq → Bool) : State :=
  let rs := s.hbmStacks[k].ch[c].requests
  if rs.any before then (rs.foldl (fun s r => s.serveNow k c r) s).watchPanic k c else s

/-- A free-hub access waits for what goes before it: an earlier request of its granules, and, for a read, every earlier read
of the free port with its re-reads; a read that waits behind a write of its granules is counted (R189, R196, R200, R206). -/
def State.hubSettle (s : State) (k : Fin 8) (c : Fin 32) (block : Word) (first n : Nat) (write : Bool) : State :=
  let x : MemReq :=
    { id := 0, block := block, write := write, spec := false, first := BitVec.ofNat 8 first, last := BitVec.ofNat 8 (first + n - 1)
      data := 0, port := .free, who := none, ctx := 0, arrived := 0 }
  let raw := !write && s.hbmStacks[k].ch[c].requests.any (fun q => q.write && shareGranule q x)
  (if raw then s.modChan k c (fun c => { c with rawWait := satInc c.rawWait }) else s).runRequests k c (fun q =>
    ((q.write || write) && shareGranule q x) || (!write && !q.write && q.port == .free))

/-- A block is read again `n` times by the free hub (R200). -/
def State.rereads (s : State) (k : Fin 8) (c : Fin 32) (block : Word) : Nat → State
  | 0 => s
  | n + 1 => (s.modStack k (fun st => { st with ch := vmod st.ch c (fun c => c.reopen s.now block st.idle.toNat) })).rereads k c block n

/-- A block whose first read mismatched: recovered by a re-read, or logged with no data (R199 to R201). -/
def State.hubMiss (s : State) (k : Fin 8) (c : Fin 32) (f : BlockFail) (ctx : Byte) (write : Bool) (good : Option (List Byte)) :
    State × Option (List Byte) :=
  if f.recovered then
    ((s.rereads k c f.block (f.missed.val + 1)).modChan k c (fun c =>
      { c with firstFail := satInc c.firstFail, rereadOk := satInc c.rereadOk }), good)
  else
    (((s.rereads k c f.block 3).modChan k c (fun c =>
      { c with firstFail := satInc c.firstFail, rereadFail := satInc c.rereadFail })).logBadBlock
      k.val f.block f.stored f.computed ctx (if write then 1 else 0) 32, none)

/-- The part of one block read through the free hub; no bytes where every re-read failed. -/
def State.hubRead (s : State) (ctx : Byte) (fails : List BlockFail) (a m : Nat) : State × Option (List Byte) :=
  let b : Word := BitVec.ofNat 32 (a / 256)
  let p := blockPlace b
  let k : Fin 8 := Fin.ofNat 8 p.stack
  let c : Fin 32 := Fin.ofNat 32 p.ch
  let s0 := s.hubSettle k c b (a % 256) m false
  let s1 := (s0.openBlock k c b).modChan k c (fun c => { c with rd := satInc c.rd })
  let bytes := slice (toBytes (plainBlock (s0.memKey ctx) b (s0.storedBlock b)) 256) (a % 256) m
  match fails.find? (fun f => f.block == b) with
  | none => (s1, some bytes)
  | some f => s1.hubMiss k c f ctx false (some bytes)

/-- The part of one block written through the free hub; nothing where its read-modify-write cannot read it. -/
def State.hubWrite (s : State) (ctx : Byte) (fails : List BlockFail) (a : Nat) (d : List Byte) : State × Option (List Byte) :=
  let b : Word := BitVec.ofNat 32 (a / 256)
  let p := blockPlace b
  let k : Fin 8 := Fin.ofNat 8 p.stack
  let c : Fin 32 := Fin.ofNat 32 p.ch
  let s0 := s.hubSettle k c b (a % 256) d.length true
  let s1 := s0.openBlock k c b
  let put (t : State) : State :=
    let old := plainBlock (s0.memKey ctx) b (s0.storedBlock b)
    let new : Data2048 := ofBytes 2048 d <<< (8 * (a % 256))
    (t.storeBlock ctx b (mergeBlock old new (BitVec.ofNat 8 (a % 256)) (BitVec.ofNat 8 (a % 256 + d.length - 1)))).modChan k c
      (fun c => { c with wr := satInc c.wr })
  if d.length = 256 then (put s1, some [])
  else
    let s2 := s1.modChan k c (fun c => { c with rmw := satInc c.rmw })
    match fails.find? (fun f => f.block == b) with
    | none => (put s2, some [])
    | some f =>
      let r := s2.hubMiss k c f ctx true (some [])
      (if r.2.isSome then put r.1 else r.1, r.2)

/-- Bytes read through the free hub, block by block; none where a block failed. -/
def State.hubReads (s : State) (ctx : Byte) (fails : List BlockFail) : Nat → Nat → Nat → State × Option (List Byte)
  | 0, _, _ => (s, some [])
  | n + 1, a, len =>
    if len = 0 then (s, some [])
    else
      let m := min len (256 - a % 256)
      let x := s.hubRead ctx fails a m
      let y := x.1.hubReads ctx fails n (a + m) (len - m)
      (y.1, do let u ← x.2; let v ← y.2; pure (u ++ v))

/-- Bytes written through the free hub, block by block; none where a block failed. -/
def State.hubWrites (s : State) (ctx : Byte) (fails : List BlockFail) : Nat → Nat → List Byte → State × Option (List Byte)
  | 0, _, _ => (s, some [])
  | n + 1, a, d =>
    if d = [] then (s, some [])
    else
      let m := min d.length (256 - a % 256)
      let x := s.hubWrite ctx fails a (d.take m)
      let y := x.1.hubWrites ctx fails n (a + m) (d.drop m)
      (y.1, do let _ ← x.2; let _ ← y.2; pure [])

/-- The most blocks that one access touches: 4096 bytes at any offset. -/
def hubFuel : Nat := 18

/-- The 2,048 blocks of a frame written in ascending order: each opens its row where it must (R192, R206). -/
def Chan.writeFrame (c : Chan) (now dma idle : Nat) : Chan :=
  let c1 := (List.range 2048).foldl (fun c i => c.openRow now (BitVec.ofNat 32 (dma / 256 + i)) idle) c
  { c1 with wr := satAdd c1.wr 2048 }

/-- What a controller holds for a frame runs to its end before the frame is zeroed: a write accepted before goes first
(R196). -/
def State.frameSettle (s : State) (dma : Nat) : State :=
  let p := blockPlace (BitVec.ofNat 32 (dma / 256))
  s.runRequests (Fin.ofNat 8 p.stack) (Fin.ofNat 32 p.ch) (fun q => q.block.toNat / 2048 == dma / 524288)

/-- A frame written whole by a context (R365, R375). -/
def State.saveFrame (s : State) (ctx : Byte) (f : Fin 8 × Nat) (d : Nat → Data2048) : State :=
  let dma := frameDma f
  let block (i : Nat) : Word := BitVec.ofNat 32 (dma / 256 + i)
  let e (i : Nat) : List Byte := toBytes (cipherBlock (s.memKey ctx) (block i) (d i)) 256
  let s1 : State := { s with
    hbm := (List.range 2048).foldl (fun m i => mwriteN m (dma + 256 * i) (e i)) s.hbm
    hbmMeta := (List.range 2048).foldl (fun m i => tput m (dma / 256 + i) (metaOf (blockCheck (block i) (e i)))) s.hbmMeta }
  s1.modStack f.1 (fun st => { st with ch := vmod st.ch (Fin.ofNat 32 (f.2 % 32)) (fun c => c.writeFrame s.now dma st.idle.toNat) })

/-- A frame read back by a context: its bytes. -/
def State.savedFrame (s : State) (ctx : Byte) (f : Fin 8 × Nat) : List Byte :=
  (List.range 2048).flatMap (fun i =>
    let block : Word := BitVec.ofNat 32 (frameDma f / 256 + i)
    toBytes (plainBlock (s.memKey ctx) block (s.storedBlock block)) 256)

/-- The controller's part in reading a frame: its rows and its count (R192, R206). -/
def State.countFrame (s : State) (f : Fin 8 × Nat) : State :=
  s.modStack f.1 (fun st => { st with ch := vmod st.ch (Fin.ofNat 32 (f.2 % 32)) (fun c =>
    let c1 := (List.range 2048).foldl (fun c i => c.openRow s.now (BitVec.ofNat 32 (frameDma f / 256 + i)) st.idle.toNat) c
    { c1 with rd := satAdd c1.rd 2048 }) })

/-- A frame written as zero blocks (R148, R366). -/
def State.zeroFrame (s : State) (dma : Nat) : State :=
  let p := blockPlace (BitVec.ofNat 32 (dma / 256))
  ((s.frameSettle dma).zeroBlocks dma pageBytes).modStack (Fin.ofNat 8 p.stack)
    (fun st => { st with ch := vmod st.ch (Fin.ofNat 32 p.ch) (fun c => c.writeFrame s.now dma st.idle.toNat) })

/-- A stack's frames belong to the partitions' memory ranges: it is not FAILED (R202). -/
def State.stackUsable (s : State) (k : Nat) : Bool := decide (k < 8) && s.hbmStacks[Fin.ofNat 8 k].st != 3

/-! ### Temperature, training and counters (R202 to R207) -/

/-- HBM_TEMP_POLL: the stack's readout; HOT is sticky and raises an event when it is set (R204, R395). -/
def execHbmTempPoll (stack : Fin 8) (temp : Byte) (hot : Bool) (s : State) : Out :=
  let was := s.hbmStacks[stack].hot
  let s1 := s.modStack stack (fun k =>
    { k with temp := temp, tempMax := maxW k.tempMax temp, hotNow := hot, hot := k.hot || hot })
  .next (if hot ∧ !was then s1.raise 3 1 stack.val 1 s1.hbmStacks[stack].tempWord 0 else s1)

/-- A stack starts training from step 1 with its controllers empty; a FAILED one does not (R202, R203). -/
def Stack.train (k : Stack) : Stack :=
  if k.st = 3 then k
  else { k with st := 1, cause := 0, attempts := 1, step := 1,
                ch := k.ch.map (fun c =>
                  { c with queue := [], inflight := [], openRows := [], rowDue := [], due := Vector.replicate 2 0,
                           postponed := Vector.replicate 2 0, urgent := Vector.replicate 2 0, panicRd := false, panicWr := false }) }

/-- The cause that a failing training step records (R202); 0 where the step has none. -/
def trainCause (step : Nat) : Nat :=
  match step with
  | 1 => 5 | 2 => 1 | 3 => 2 | 4 => 3 | 5 => 4 | 6 => 5 | 8 => 5 | _ => 0

/-- A training attempt ends: another one, or FAILED with an event after the third (R202). -/
def State.trainFail (s : State) (k : Fin 8) (cause : Nat) : State :=
  if s.hbmStacks[k].attempts.toNat < 3 then
    s.modStack k (fun t => { t with cause := BitVec.ofNat 3 cause, attempts := t.attempts + 1, step := 1 })
  else
    let s1 := s.modStack k (fun t => { t with cause := BitVec.ofNat 3 cause, st := 3 })
    s1.raise 3 0 k.val 2 s1.hbmStacks[k].statusWord 0

/-- Memory of one stack reads as zero (R202 step 8). -/
def State.clearStack (s : State) (k : Fin 8) : State := s.zeroBlocks (k.val * 2 ^ 37) (2 ^ 37)

/-- STACK_TRAINING: a stack finishes or fails one training step, or logs a block of the pattern test (R202).  DESIGN CHOICE
(log 122): the writes of steps 7 and 8 do not count in HBM_CH_WR. -/
def execStackTraining (stack : Fin 8) (outcome : StackOutcome) (s : State) : Out :=
  let k := s.hbmStacks[stack]
  if k.st ≠ 1 then .next s
  else
    match outcome with
    | .pass rows =>
      if k.step = 2 ∧ rows.toNat < 68672 then
        .next ((s.modStack stack (fun t => { t with rows := rows })).trainFail stack 1)
      else if k.step = 8 then
        .next ((s.noteLate.clearStack stack).modStack stack (fun t => { t with st := 2, cause := 0 }))
      else .next (s.modStack stack (fun t => { t with step := t.step + 1, rows := if t.step = 2 then rows else t.rows }))
    | .badBlock block stored computed =>
      if k.step = 7 then
        let d := s.draw
        .next (d.2.logBadBlock stack.val block stored computed 0xFF 2 (nfld d.1 0 6))
      else .next s
    | .fail cause =>
      if trainCause k.step.toNat = cause.val ∧ cause.val ≠ 0 then .next (s.noteLate.trainFail stack cause.val) else .next s

/-- HBM_CNT_CLR: every channel counter of the stack becomes zero (R206). -/
def execHbmCntClr (stack : Fin 8) (s : State) : Out :=
  if !s.serving then .next s else
  .next (s.modStack stack (fun k => { k with ch := k.ch.map (fun c =>
    { c with rd := 0, wr := 0, rmw := 0, rowMiss := 0, firstFail := 0, rereadOk := 0, rereadFail := 0,
             panicCnt := 0, refPostponed := 0, rawWait := 0, badReq := 0 }) }))

/-- BBL_POP: the oldest bad-block entry is removed (R201, R207). -/
def execBblPop (s : State) : Out := .next (s.modGlb (fun g => { g with bbl := g.bbl.pop }))

/-- BBL_CLEAR: every entry is removed and the drop count zeroed (R207). -/
def execBblClear (s : State) : Out := .next (s.modGlb (fun g => { g with bbl := g.bbl.clear }))

end Sys2Proof.Machine
end

