-- ==== Sys2Proof/Machine/Streams.lean ====
section
/-! DEFINITION. Streams: descriptors, arming, address translation, transfer and staging (R129 to R160). -/

namespace Sys2Proof.Machine

/-! ### Translation (R145 to R147, R191) -/

def spP (e : DWord) : Bool := bitAt e 0
def spR (e : DWord) : Bool := bitAt e 1
def spW (e : DWord) : Bool := bitAt e 2
def spEnc (e : DWord) : Bool := bitAt e 3
def spHost (e : DWord) : Bool := nfld e 4 2 == 1
def spCtx (e : DWord) : Byte := fld e 8 8
def spPage (e : DWord) : Nat := nfld e 19 45 * 524288

/-- Where an access goes, or the cause that stops it and its page. -/
inductive Xlat where
  | fault (cause : Nat) (vpn : BitVec 21)
  | stack (dma : Nat)
  | host (addr : Nat) (enc ns rlx : Bool)
deriving DecidableEq, Repr

/-- Checks 1 to 4 of R147 on one byte address for a context. -/
def State.xlate (s : State) (ctx : Option Byte) (a : Int) (write : Bool) : Xlat :=
  if a < 0 ∨ 2 ^ 40 ≤ a then .fault 5 0
  else
    let n := a.toNat
    let vpn : BitVec 21 := BitVec.ofNat 21 (n / 524288)
    let e := tget (0 : DWord) s.spt (n / 524288)
    if !spP e then .fault 1 vpn
    else if ctx ≠ some (spCtx e) then .fault 2 vpn
    else if !(if write then spW e else spR e) then .fault 2 vpn
    else if spHost e then .host (spPage e + n % 524288) (spEnc e) (bitAt e 6) (bitAt e 7)
    else .stack (spPage e + n % 524288)

/-- A slot's access: R147 and, for a caldera slot on a stacked page, the channel check of R191; a host
window page of a confidential context needs its model key (R376). -/
def State.streamXlate (s : State) (r : SlotRef) (a : Int) (write : Bool) : Xlat :=
  let ctx := (s.stm r).ctx
  let vpn : BitVec 21 := BitVec.ofInt 21 (a / 524288)
  match s.xlate ctx a write with
  | .stack dma =>
    match r with
    | .cp _ => .stack dma
    | .cal n k =>
      match s.stackEnd n k with
      | some (st, e) =>
        if dma / 2 ^ 37 = st.val ∧ dma % 2 ^ 37 / 524288 % 32 = e.val then .stack dma else .fault 2 vpn
      | none => .fault 2 vpn
  | .host h true ns rlx =>
    match ctx.bind (fun c => (tfind s.sec.ctxs c.toNat).bind (·.modelKey)) with
    | some _ => .host h true ns rlx
    | none => .fault 2 vpn
  | x => x

/-- The model key of a context, as the 512-bit key of XTS (R376; its second half is open, log 49). -/
def State.modelXts (s : State) (ctx : Option Byte) : BitVec 512 :=
  match ctx.bind (fun c => (tfind s.sec.ctxs c.toNat).bind (·.modelKey)) with
  | some k => at_ 512 0 k ||| at_ 512 256 (Config.modelTweakKey k)
  | none => 0

/-! ### Descriptors (R132, R134) -/

/-- The destination is staging: STAGE, or records read for an address generator (R140). -/
def dStaged (d : CWord) : Bool := dDstKind d == 4 || dSrcKind d == 5

/-- Whether record `r` of an SRAM end lies wholly within one segment with the permission (R134). -/
def recordSeg (c : Caldera) (d : CWord) (src : Bool) (r : Nat) : Bool :=
  let a := endAddr d src (r * dRec d)
  decide (0 ≤ a) && segOk c a.toNat (dRec d) (if src then 29 else 30)

/-- A format code of R45. -/
def fmtCodeOk (f : Nat) : Bool := f ≤ 5 || f == 8 || f == 9 || f == 10

/-- The pool slots of a pair exist (R140). -/
def Caldera.pairOk (c : Caldera) (k : Fin 64) : Bool :=
  bitAt c.streams[k].stg 7 && decide (2 * nfld c.streams[k].stg 0 7 + 1 ≤ nfld c.stgShape 12 8)

/-- The fields of a descriptor in error with their bytes. -/
def firstOff (l : List (Bool × Nat)) : Option Nat :=
  ((l.filter (fun x => x.1)).map (fun x => x.2)).foldl (fun (m : Option Nat) o => match m with
    | none => some o
    | some q => some (min q o)) none

/-- Reserved bits and reserved kind and format codes of a descriptor, by byte (R130, R131, R134). -/
def descValues (d : CWord) : List (Bool × Nat) :=
  (decide (5 < dSrcKind d) || decide (5 < dDstKind d), 0) :: (!dRaw d && !fmtCodeOk (dFmt d), 1) :: dReserved d

/-- The other rules of R134 that do not look at SRAM records, by the byte of the field in error; `cp` for a
command-processor slot, where STAGE and AGEN are invalid too (R286).  DESIGN CHOICE (log 117): so are SRAM and CONDUIT there,
ends that R130 gives only to a caldera. -/
def descRules (d : CWord) (cp : Bool) : List (Bool × Nat) :=
  let s := dSrcKind d
  let t := dDstKind d
  [(s == 4 || (s == 5 && t == 5) || (s == 1 && t == 1)
      || (if cp then s == 0 || s == 1 || s == 5 || t == 0 || t == 1 || t == 4 || t == 5 else s == 3 || t == 3), 0),
   (dRaw d && dNoScale d, 1),
   (dSrcKind d == 2 && nfld (dSrcAddr d) 40 24 != 0, 8), (dDstKind d == 2 && nfld (dDstAddr d) 40 24 != 0, 0x10),
   ((!dRaw d && isMx (dFmt d) && dDim0 d % 32 != 0) || decide (2 ^ 40 < dTotal d), 0x18)]

/-- The rules of R134 that do not look at SRAM records. -/
def descShapeBad (d : CWord) (cp : Bool) : Bool := (descValues d ++ descRules d cp).any (fun x => x.1)

/-- The rules of R134 in a caldera slot by the byte of the field in error: the shape, the first `n` records of an SRAM
end, the staging slot. -/
def descErrors (c : Caldera) (k : Fin 64) (d : CWord) (n : Nat) : List (Bool × Nat) :=
  descValues d ++ descRules d false
    ++ [(dSrcKind d == 0 && (List.range (min n (dRecords d))).any (fun r => !recordSeg c d true r), 8),
        (dDstKind d == 0 && (List.range (min n (dRecords d))).any (fun r => !recordSeg c d false r), 0x10),
        (dDstKind d == 4 && decide (c.poolSize < dRec d), 0x18), (dStaged d && !c.pairOk k, 0)]

/-- A descriptor is invalid in a caldera slot (R134). -/
def descBad (c : Caldera) (k : Fin 64) (d : CWord) (n : Nat) : Bool := (descErrors c k d n).any (fun x => x.1)

/-! ### Arming (R135 to R139) -/

/-- A submission: who owns it, for which context and command, or for which plan and beats. -/
structure Submit where
  desc : CWord
  owner : Nat
  ctx : Option Byte := none
  cmd : Option Nat := none
  plan : Option PlanId := none
  first : Nat := 0
  done : Nat := 0
  item : Nat := 0
  remote : Option (BitVec 10 × Byte) := none
deriving DecidableEq, Repr

/-- A descriptor with GEN, OWNER and ARM as the device sets them (R131). -/
def sealDesc (d : CWord) (gen : Byte) (owner : Nat) : CWord :=
  putFld (putFld (putFld d 16 gen) 24 (BitVec.ofNat 2 owner)) 26 (1#1)

/-- An arming becomes active (R137). -/
def Stream.activate (t : Stream) (x : Submit) : Stream :=
  { t with
    st := .armed, gen := t.gen + 1, desc := sealDesc x.desc (t.gen + 1) x.owner, pos := 0, inBuf := [], outWords := [], bufPos := 0
    reqPos := 0, epoch := t.epoch + 1, raStop := false, ctx := x.ctx, cmd := x.cmd, work := x.cmd, plan := x.plan, first := x.first
    doneBeat := x.done, item := x.item, remote := x.remote, agenQ := none, savePos := 0 }

/-- A valid submission: active, or into the shadow, or refused with REARM_OVERRUN (R137). -/
def Stream.submit (t : Stream) (x : Submit) : Stream :=
  if t.st = .idle then t.activate x
  else match t.shadow with
    | some _ => { t with overrun := true }
    | none =>
      { t with shadow := some (sealDesc x.desc (t.gen + 1) x.owner), shadowCtx := x.ctx, shadowCmd := x.cmd,
               shadowPlan := x.plan, shadowFirst := x.first, shadowDone := x.done, shadowItem := x.item, shadowRemote := x.remote }

/-- A submission tested under R134 first. -/
def State.submit (s : State) (r : SlotRef) (x : Submit) : State :=
  let bad := match r with
    | .cal n k => descBad s.cals[n] k x.desc 1
    | .cp _ => descShapeBad x.desc true
  s.modStm r (fun t => if bad then { t with descErr := true } else t.submit x)

/-- Whether a control-network write to a slot's registers is dropped (R117, R135). -/
def State.stmRefused (s : State) : SlotRef → Bool
  | .cal n _ => s.runsPlan n
  | .cp _ => false

/-- The context of an arming with OWNER 2 (R135). -/
def State.ownerCtx (s : State) : SlotRef → Option Byte
  | .cal n _ => s.calCtx n
  | .cp _ => none

/-- A write to a slot's registers does not reach them (R373, R385). -/
def State.stmShut (s : State) : SlotRef → Bool
  | .cal n _ => s.calShut n
  | .cp _ => !s.serving

/-- STREAM_ARM: a control-network write of word 0x00 of STM_DESC: with ARM = 1 the write buffer is submitted
with OWNER 2, else the word is stored (R135, R137). -/
def execStreamArm (slot : SlotRef) (word0 : Word) (s : State) : Out :=
  if s.stmShut slot then .next s
  else if s.stmRefused slot then
    match slot with
    | .cal n _ => .next (s.modCal n (fun c => { c with accessRefused := true }))
    | .cp _ => .next s
  else
    let s1 := s.modStm slot (fun t => { t with wbuf := putFld t.wbuf 0 word0 })
    if bitAt word0 26 then
      .next (s1.submit slot { desc := (s1.stm slot).wbuf, owner := 2, ctx := s.ownerCtx slot })
    else .next s1

/-- The beat in progress of the plan that owns an arming, when it runs. -/
def State.beatOf (s : State) (t : Stream) : Option Nat :=
  match t.plan with
  | none => none
  | some h => match s.findPlan h with
    | some p => if p.run = .running then some p.beat else if p.run = .stopping then some (p.beat - 1) else none
    | none => none

/-- The arming may move data on demand: no plan owns it, or its first beat has opened (R138, R142). -/
def State.demandOk (s : State) (t : Stream) : Bool :=
  (t.st == .armed || t.st == .active) &&
    (match t.plan, s.beatOf t with
    | none, _ => true
    | some _, some b => decide (t.first ≤ b)
    | some _, none => false)

/-- The first SARM in the queue of an opened beat. -/
def Caldera.firstSarm (c : Caldera) (beat : Nat) : Option QInstr :=
  c.queue.find? (fun q => opOf q.raw == 0x24 && decide (q.beat ≤ beat))

/-- SARM: the next SARM of an opened plan beat submits its descriptor with OWNER 0 (R138). -/
def execSarm (cal : Fin 64) (s : State) : Out :=
  match s.planOn cal with
  | none => .next s
  | some p =>
    if p.run ≠ .running then .next s
    else match s.cals[cal].firstSarm p.beat with
      | none => .next s
      | some q =>
        let k := Fin.ofNat 64 (saStream q.raw)
        let d : CWord := ofBytes 512 (mreadN s.cals[cal].sram (saDesc q.raw) 64)
        let first := q.beat + saStart q.raw
        let s1 := s.modCal cal (fun c => { c with queue := c.queue.erase q })
        .next (s1.submit (.cal cal k)
          { desc := d, owner := 0, ctx := some p.ctx, plan := some p.handle, first := first, done := first + saDone q.raw })

/-! ### Moving bytes (R130, R132, R147) -/

/-- What one attempt to move bytes gives. -/
inductive Move where
  | ok (s : State)
  | fault (cause : Nat) (vpn : BitVec 21)
  | wait
deriving DecidableEq, Repr

/-- A 256-byte unit of a confidential host window page (R376). -/
def hostUnits (dec : Bool) (key : BitVec 512) (dva : Nat) (b : List Byte) : List Byte :=
  (List.range ((b.length + 255) / 256)).flatMap (fun i =>
    let u : Data2048 := ofBytes 2048 (slice b (256 * i) 256)
    let tw : BitVec 128 := BitVec.ofNat 128 ((dva / 256 + i) % 2 ^ 32)
    toBytes (if dec then xtsDec key tw u else xtsEnc key tw u) 256)

/-- A FREE flit from this device to a peer (R258). -/
def freeFlit (s : State) (dst : BitVec 10) (ty : Nat) (dva : Nat) (ctx : Byte) (len : Nat) (tag : BitVec 16) (status : Nat)
    (data : List Byte) : Data2048 :=
  mkFlit dst s.fab.id 1 ty 0 false
    (natAt 1920 0 (dva % 2 ^ 40) ||| at_ 1920 40 ctx ||| natAt 1920 64 (len - 1) ||| at_ 1920 80 tag
      ||| natAt 1920 96 status ||| at_ 1920 128 (ofBytes 1792 data))

/-- A remote access sent: one FREE_WR or FREE_RD, which then awaits its FREE_RSP (R286). -/
def State.sendFree (s : State) (r : SlotRef) (peer : BitVec 10 × Byte) (dva len : Nat) (write : Bool) (data : List Byte) : State :=
  let tag := s.fab.freeTag
  let f := freeFlit s peer.1 (if write then 4 else 5) dva peer.2 len tag 0 data
  let a : Awaited :=
    { tag := tag.setWidth 32, since := s.now, slot := some r, ctx := (s.stm r).ctx, len := len, write := write
      epoch := (s.stm r).epoch, vpn := BitVec.ofNat 21 (dva / 524288) }
  let s1 := s.modFab (fun b => { b with freeTag := b.freeTag + 1, freeOut := b.freeOut ++ [a] })
  let x := s1.sendTo none f
  if x.2 then x.1.noteRouteDrop else x.1

/-- Whether a slot has a remote access outstanding. -/
def State.freeWaits (s : State) (r : SlotRef) : Bool := s.fab.freeOut.any (fun a => a.slot == some r && a.epoch == (s.stm r).epoch)

/-- An address that lies outside the virtual space of a peer (R147). -/
def dvaOut (a : Int) : Bool := decide (a < 0 ∨ 2 ^ 40 ≤ a)

/-- Host data as a step delivers it, of the length that was asked for. -/
def hostBytes (io : HostIO) (n : Nat) : Option (List Byte) :=
  match io with
  | .data b => if b.length = n then some b else none
  | _ => none

/-- Bytes fetched from a device virtual address: `n` bytes of one record from address `a` on are wanted
at stream position `f`. -/
def State.fetchDva (s : State) (r : SlotRef) (a : Int) (f n : Nat) (io : HostIO) (spec : Bool) : Move :=
  let t := s.stm r
  let inPage := min n (524288 - (a % 524288).toNat)
  match s.streamXlate r a false with
  | .fault c v => .fault c v
  | .stack dma =>
    if f < t.reqPos then .wait
    else
      let m := min inPage (256 - dma % 256)
      let p := blockPlace (BitVec.ofNat 32 (dma / 256))
      let w := mkRequest (BitVec.ofNat 32 (dma / 256)) false spec (dma % 256) (dma % 256 + m - 1)
      let l : LaneWord :=
        { stack := Fin.ofNat 8 p.stack, ch := Fin.ofNat 32 p.ch, word := w, who := some r, ctx := t.ctx.getD 0xFF
          port := match r with
            | .cal _ _ => .rt
            | .cp _ => .free
          pos := f, epoch := t.epoch, vpn := BitVec.ofInt 21 (a / 524288), gen := t.gen }
      .ok ({ s with lanes := s.lanes ++ [l] }.modStm r (fun t => { t with reqPos := f + m }))
  | .host h enc ns rlx =>
    let lead := if enc then (a % 256).toNat else 0
    let len := if enc then (lead + inPage + 255) / 256 * 256 else inPage
    match io with
    | .none => .wait
    | .error => .fault 4 (BitVec.ofInt 21 (a / 524288))
    | .data _ =>
      match hostBytes io len with
      | none => .wait
      | some b =>
        let plain := if enc then hostUnits true (s.modelXts t.ctx) (a.toNat - lead) b else b
        .ok ((s.emit (.read (BitVec.ofNat 64 (h - lead)) len ns rlx)).feed r (slice plain lead inPage))

/-- The generator that a slot serves (R114). -/
def Caldera.agenOf (c : Caldera) (k : Fin 64) : Option AddrGen :=
  c.dsp.ag.toList.find? (fun g => g.target && g.stream == k)

/-- A pass that has yet to issue, or to drain, will use a slot to empty a ring that the slot's arming reads (R57). -/
def Caldera.ringAwaited (c : Caldera) (k : Fin 64) : Bool :=
  let t := c.streams[k]
  let queued := (c.queue.filter (fun q => opOf q.raw == 0x21 && (t.plan.isNone || decide (q.beat ≤ t.doneBeat)))).map (·.raw)
  (queued ++ (c.passes ++ c.replays).map (·.raw)).any (fun raw =>
    apToStream raw && !apChainOpen raw && apDrainStream raw == k.val && (ringOf c raw).readBy t.desc)

/-- Bytes of a drain ring that a slot may read from its position on: none of a ring that no pass has written yet; a slot
whose arming reads no ring has no such bound (R57). -/
def Caldera.ringBytes (c : Caldera) (k : Fin 64) : Option Nat :=
  match c.rings.find? (fun g => g.stream == some k.val && g.readBy c.streams[k].desc) with
  | some g => some (g.wr - g.rd)
  | none => if c.ringAwaited k then some 0 else none

/-- A word of a memory read that has come to the slot's endpoint: its bytes join the delivered ones where the slot still waits
for them, and are dropped where the word is another slot's or comes too late (R150, R182). -/
def State.takeLane (s : State) (n k : Fin 64) : Option State :=
  let e : Endpoint := s.cals[n].eps[k]
  match e.word, e.coming with
  | some w, x :: _ =>
    let t := s.cals[n].streams[k]
    let s1 := s.modEp (.cal n k) Endpoint.take
    some (if x.who = .cal n k ∧ x.epoch = t.epoch ∧ x.pos = t.bufPos + t.inBuf.length then s1.feed (.cal n k) (toBytes w x.len) else s1)
  | _, _ => none

/-- A caldera slot whose source is device memory takes what has come for it, else asks for more (R130, R191). -/
def State.fetchMem (s : State) (r : SlotRef) (a : Int) (f n : Nat) (io : HostIO) (spec : Bool) : Move :=
  match r with
  | .cp _ => s.fetchDva r a f n io spec
  | .cal m k => match s.takeLane m k with
    | some s1 => .ok s1
    | none => s.fetchDva r a f n io spec

/-- The source delivers its next piece, at most `w` bytes of it where it needs no more. -/
def State.fill (s : State) (r : SlotRef) (io : HostIO) (spec : Bool) : Move :=
  let t := s.stm r
  let d := t.desc
  let f := t.bufPos + t.inBuf.length
  let rb := max 1 (dRec d)
  let rest := rb - f % rb
  if dTotal d ≤ f then .wait
  else match dSrcKind d, r with
    | 0, .cal n k =>
      let c := s.cals[n]
      if !recordSeg c d true (f / rb) then .fault 7 0
      else
        let n := match c.ringBytes k with
          | some b => min rest (t.pos + b - f)
          | none => rest
        if n = 0 then .wait else .ok (s.feed r (mreadN c.sram (endAddr d true f).toNat n))
    | 1, .cal n _ =>
      let e := s.cals[n].eps[Fin.ofNat 64 (dSrcEp d)]
      match e.dest, e.word with
      | true, some w =>
        let s1 := s.modEp (.cal n (Fin.ofNat 64 (dSrcEp d))) Endpoint.take
        .ok (s1.feed r (toBytes w (min 64 (dTotal d - f))))
      | _, _ => .wait
    | 2, _ =>
      match t.remote with
      | some peer =>
        if s.freeWaits r then .wait
        else if dvaOut (endAddr d true f) then .fault 5 0
        else .ok (s.sendFree r peer (endAddr d true f).toNat (min 224 rest) false [])
      | none => s.fetchMem r (endAddr d true f) f rest io spec
    | 3, .cp _ =>
      match io with
      | .none => .wait
      | .error => .fault 4 0
      | .data _ => match hostBytes io rest with
        | some b => .ok ((s.emit (.read (BitVec.ofInt 64 (endAddr d true f)) rest false false)).feed r b)
        | none => .wait
    | 5, .cal n k =>
      match s.cals[n].agenOf k with
      | none => .wait
      | some g =>
        let g1 := g.advanceN ((f - t.pos) / rb)
        if !g1.circ && decide (g1.lenM1.toNat < g1.ptr.toNat) then .wait
        else s.fetchMem r ((g1.addr + f % rb : Nat) : Int) f rest io spec
    | _, _ => .wait

/-- `n` bytes written to a device virtual address from stream position `b` on: to a controller, as a request word whose data
goes beside it, for a caldera slot as words of its conduit; or to host memory (R130, R188). -/
def State.storeDva (s : State) (r : SlotRef) (a : Int) (b : Nat) (data : List Byte) (whole : Nat) : Move :=
  let t := s.stm r
  let vpn : BitVec 21 := BitVec.ofInt 21 (a / 524288)
  match s.streamXlate r a true with
  | .fault c v => .fault c v
  | .stack dma =>
    let m := min data.length (min (524288 - dma % 524288) (256 - dma % 256))
    let p := blockPlace (BitVec.ofNat 32 (dma / 256))
    let w := mkRequest (BitVec.ofNat 32 (dma / 256)) true false (dma % 256) (dma % 256 + m - 1)
    let l : LaneWord :=
      { stack := Fin.ofNat 8 p.stack, ch := Fin.ofNat 32 p.ch, word := w, who := some r, ctx := t.ctx.getD 0xFF
        port := .free, pos := b, epoch := t.epoch, vpn := vpn, gen := t.gen }
    match r with
    | .cal _ _ =>
      let x := State.wordsOf 4 s (data.take m)
      .ok ((({ x.2 with lanes := x.2.lanes ++ [{ l with port := .rt }] } : State).modStm r (fun t => { t with outWords := x.1 })).unfeed r m)
    | .cp _ =>
      .ok ({ s with lanes := s.lanes ++ [{ l with data := (ofBytes 2048 (data.take m)) <<< (8 * (dma % 256)) }] }.unfeed r m)
  | .host h enc ns rlx =>
    if enc then
      if a % 256 ≠ 0 ∨ whole < 256 then .fault 2 vpn
      else if data.length < 256 then .wait
      else
        let e := hostUnits false (s.modelXts t.ctx) a.toNat (data.take 256)
        .ok (((s.unfeed r 256).emit (.write (BitVec.ofNat 64 h) e ns rlx)).accepted r 256)
    else
      let m := min data.length (524288 - (a % 524288).toNat)
      .ok (((s.unfeed r m).emit (.write (BitVec.ofNat 64 h) (data.take m) ns rlx)).accepted r m)

/-- The oldest word still to go out of a caldera's slot goes to its endpoint first; otherwise the slot makes its move. -/
def State.sendFirst (s : State) (r : SlotRef) (m : Move) : Move :=
  match r with
  | .cal n k =>
    (match s.cals[n].streams[k].outWords with
    | [] => m
    | w :: ws =>
      let e : Endpoint := s.cals[n].eps[k]
      if e.source ∧ e.word = none then
        .ok ((s.modEp (.cal n k) (fun p => p.put w)).modStm (.cal n k) (fun t => { t with outWords := ws }))
      else .wait)
  | .cp _ => m

/-- Delivered bytes move on to the destination. -/
def State.drain (s : State) (r : SlotRef) : Move :=
  let t := s.stm r
  let d := t.desc
  let rb := max 1 (dRec d)
  if t.bufPos < t.pos ∧ t.inBuf ≠ [] ∧ dDstKind d ≠ 2 then .ok (s.unfeed r (min (t.pos - t.bufPos) t.inBuf.length))
  else if t.inBuf = [] then .wait
  else
    let b := t.bufPos
    let rest := rb - b % rb
    let m := min t.inBuf.length rest
    match dDstKind d, r with
    | 0, .cal n _ =>
      if !recordSeg s.cals[n] d false (b / rb) then .fault 7 0
      else
        let s1 := s.modCal n (fun c => { c with sram := mwriteN c.sram (endAddr d false b).toNat (t.inBuf.take m) })
        .ok ((s1.unfeed r m).accepted r m)
    | 1, .cal n _ =>
      let e := EpRef.cal n (Fin.ofNat 64 (dDstEp d))
      let need := min 64 (dTotal d - b)
      if (s.endpoint e).source ∧ (s.endpoint e).word = none ∧ need ≤ t.inBuf.length then
        let x := s.draw
        let open_ : Bool := decide (need < 64) && !s.conduitRegion e
        let w : CWord := ofBytes 512 (t.inBuf.take need) ||| (if open_ then x.1 <<< (8 * need) else 0)
        let s1 := if open_ then x.2 else s
        .ok (((s1.modEp e (fun p => p.put w)).unfeed r need).accepted r need)
      else .wait
    | 2, _ =>
      match t.remote with
      | some peer =>
        if s.freeWaits r then .wait
        else if dvaOut (endAddr d false b) then .fault 5 0
        else
          let k := min 224 m
          .ok ((s.sendFree r peer (endAddr d false b).toNat k true (t.inBuf.take k)).unfeed r k)
      | none => s.storeDva r (endAddr d false b) b (t.inBuf.take m) rest
    | 3, .cp _ =>
      .ok (((s.unfeed r m).emit (.write (BitVec.ofInt 64 (endAddr d false b)) (t.inBuf.take m) false false)).accepted r m)
    | _, _ => .wait

/-- A record that VST stored through the slot's generator moves on (R108, R114). -/
def State.drainAgen (s : State) (r : SlotRef) : Move :=
  let t := s.stm r
  match t.agenQ with
  | none => .wait
  | some (a, b, p) =>
    if p + b.length ≤ t.bufPos then .wait
    else
      let left := b.drop (t.bufPos - p)
      match (s.modStm r (fun t => { t with inBuf := left })).storeDva r ((a.toNat + (t.bufPos - p) : Nat) : Int) t.bufPos left left.length with
      | .ok s1 => .ok (s1.modStm r (fun t => { t with inBuf := [] }))
      | x => x

/-- STREAM_TRANSFER: a slot moves its next bytes, up to a record, or waits; an access that fails halts it
(R132, R147, R150). -/
def execStreamTransfer (slot : SlotRef) (io : HostIO) (s : State) : Out :=
  let t := s.stm slot
  if !s.demandOk t ∨ dStaged t.desc then .next s
  else match s.sendFirst slot (if dDstKind t.desc = 5 then s.drainAgen slot else s.drain slot) with
    | .ok s1 => .next s1
    | .fault c v => .next (s.haltStream slot c v)
    | .wait =>
      if dDstKind t.desc = 5 ∨ t.outWords ≠ [] then .next s
      else match s.fill slot io false with
        | .fault c v => .next (s.haltStream slot c v)
        | .wait => .next s
        | .ok s1 =>
          match s1.drain slot with
          | .ok s2 => .next s2
          | .fault c v => .next (s1.haltStream slot c v)
          | .wait => .next s1

/-! ### Staging (R140 to R143) -/

/-- The position of the first byte that no pool slot of a stream covers. -/
def coverFrom (c : Caldera) (k : Nat) : Nat → Nat → Nat
  | 0, p => p
  | n + 1, p =>
    match c.pool.find? (fun q => q.owner == k && decide (q.pos ≤ p) && decide (p < q.pos + q.len)) with
    | some q => coverFrom c k n (q.pos + q.len)
    | none => p

/-- The fill position of a staging slot. -/
def Caldera.fillPos (c : Caldera) (k : Fin 64) : Nat := coverFrom c k.val (c.pool.length + 1) c.streams[k].pos

/-- A pool slot belongs to no reserved pair (R140). -/
def Caldera.shared (c : Caldera) (i : Nat) : Bool :=
  !(c.streams.toList.any (fun t => bitAt t.stg 7 && nfld t.stg 0 7 == i / 2))

/-- Pool slots that a stream may take: its own pair first, then shared ones (R141); item i of a fused stage starts with
slot 2p + (i mod 2) (R158). -/
def Caldera.ownSlots (c : Caldera) (k : Fin 64) : List Nat :=
  let p := nfld c.streams[k].stg 0 7
  let i := c.streams[k].item % 2
  [2 * p + i, 2 * p + (1 - i)] ++ (List.range (nfld c.stgShape 12 8 + 1)).filter c.shared

/-- The shared run-ahead slot of another stream that was filled most recently (R142). -/
def Caldera.victim (c : Caldera) (k : Fin 64) : Option PoolSlot :=
  c.pool.foldl (fun m q =>
    if q.owner ≠ k.val ∧ !q.demand ∧ c.shared q.idx then
      match m with
      | none => some q
      | some v => if v.order < q.order then some q else some v
    else m) none

/-- A whole record from the slot's buffer placed into pool slot `idx`, behind what it holds. -/
def Caldera.putRecord (c : Caldera) (k : Fin 64) (idx : Nat) (demand : Bool) : Caldera :=
  let t := c.streams[k]
  let rb := dRec t.desc
  let held := (c.pool.find? (fun q => q.idx == idx)).map (·.len)
  let off := held.getD 0
  { c with
    sram := mwriteN c.sram (c.poolAddr idx + off) (t.inBuf.take rb)
    fillOrder := c.fillOrder + 1
    pool := match held with
      | some _ => c.pool.map (fun q =>
          if q.idx = idx then { q with len := q.len + rb, demand := q.demand || demand, order := c.fillOrder } else q)
      | none => c.pool ++ [{ idx := idx, owner := k.val, demand := demand, order := c.fillOrder, pos := t.bufPos, len := rb }]
    streams := vmod c.streams k (fun t =>
      { t with inBuf := t.inBuf.drop rb, bufPos := t.bufPos + rb, moved := demand || t.moved,
               st := if demand ∧ t.st = .armed then .active else t.st }) }

/-- A slot of the stream has room for its next record; run-ahead records of an AGEN stream share no slot with demand
ones, because an AGSET drops them (R143). -/
def Caldera.joins (c : Caldera) (k : Fin 64) (demand : Bool) (q : PoolSlot) : Bool :=
  let t := c.streams[k]
  q.owner == k.val && q.pos + q.len == t.bufPos && decide (q.len + dRec t.desc ≤ c.poolSize)
    && (dSrcKind t.desc != 5 || q.demand == demand)

/-- A whole record placed: into the last slot of the stream with room, a free slot, or, on demand, a slot
taken from run-ahead data; `none` when none is to be had (R141, R142). -/
def Caldera.stage (c : Caldera) (k : Fin 64) (demand : Bool) : Option Caldera :=
  let t := c.streams[k]
  let rb := dRec t.desc
  match c.pool.find? (fun q => c.joins k demand q) with
  | some q => some (c.putRecord k q.idx demand)
  | none =>
    match (c.ownSlots k).find? (fun i => !(c.pool.any (fun q => q.idx == i))) with
    | some i => some (c.putRecord k i demand)
    | none =>
      match if demand then c.victim k else none with
      | some v => some ({ c with pool := c.pool.erase v, evictCnt := satInc c.evictCnt }.putRecord k v.idx demand)
      | none => none

/-- Whether the next record of a stream finds a place in the pool (R141, R142). -/
def Caldera.stageRoom (c : Caldera) (k : Fin 64) (demand : Bool) : Bool :=
  c.pool.any (c.joins k demand)
    || (c.ownSlots k).any (fun i => !(c.pool.any (fun q => q.idx == i))) || (demand && (c.victim k).isSome)

/-- The slot's buffer starts at the fill position; after an eviction it starts again there. -/
def Caldera.syncFill (c : Caldera) (k : Fin 64) : Caldera :=
  let f := c.fillPos k
  { c with streams := vmod c.streams k (fun t =>
      if t.bufPos = f then t else { t with inBuf := [], bufPos := f, reqPos := f, epoch := t.epoch + 1 }) }

/-- A record in the buffer is placed when it is whole. -/
def State.tryStage (s : State) (n : Fin 64) (k : Fin 64) (demand : Bool) : Option State :=
  let t := s.cals[n].streams[k]
  if dRec t.desc ≤ t.inBuf.length then (s.cals[n].stage k demand).map (fun c => s.modCal n (fun _ => c)) else none

/-- DEMAND_FILL: a staging stream whose first beat has opened moves records into the pool, or waits; an access
that fails halts it (R141, R142, R150). -/
def execDemandFill (cal : Fin 64) (slot : Fin 64) (io : HostIO) (s : State) : Out :=
  let t := s.cals[cal].streams[slot]
  if !s.demandOk t ∨ !dStaged t.desc then .next s
  else
    let s0 := s.modCal cal (fun c => c.syncFill slot)
    match s0.tryStage cal slot true with
    | some s1 => .next s1
    | none =>
      if dRec t.desc ≤ (s0.cals[cal].streams[slot]).inBuf.length ∨ !s0.cals[cal].stageRoom slot true then .next s0
      else match s0.fill (.cal cal slot) io false with
        | .fault c v => .next (s0.haltStream (.cal cal slot) c v)
        | .wait => .next s0
        | .ok s1 => .next ((s1.tryStage cal slot true).getD s1)

/-- RUN_AHEAD: a read ahead into staging, up to two plan beats before the first beat; it never faults, never
evicts, and stops at the first access that would fail (R143). -/
def execRunAhead (cal : Fin 64) (slot : Fin 64) (io : HostIO) (s : State) : Out :=
  let t := s.cals[cal].streams[slot]
  let k := dSrcKind t.desc
  let early := match s.beatOf t with
    | some b => decide (b < t.first) && decide (t.first ≤ b + 2)
    | none => false
  if t.st ≠ .armed ∨ !dPf t.desc ∨ !early ∨ !dStaged t.desc ∨ t.raStop ∨ !(k == 2 || k == 3 || k == 5) then .next s
  else
    let s0 := s.modCal cal (fun c => c.syncFill slot)
    match s0.tryStage cal slot false with
    | some s1 => .next s1
    | none =>
      if dRec t.desc ≤ (s0.cals[cal].streams[slot]).inBuf.length ∨ !s0.cals[cal].stageRoom slot false then .next s0
      else match s0.fill (.cal cal slot) io true with
        | .fault _ _ => .next (s0.modStm (.cal cal slot) (fun t => { t with raStop := true }))
        | .wait => .next s0
        | .ok s1 => .next ((s1.tryStage cal slot false).getD s1)

/-- STAGING_SLOT_FREE: a pool slot whose consumer has read its last record is free (R141). -/
def execStagingSlotFree (cal : Fin 64) (pool : Fin 256) (s : State) : Out :=
  .next (s.modCal cal (fun c => { c with pool := c.pool.filter (fun q =>
    q.idx != pool.val || (match fin? 64 q.owner with
      | some k => decide (c.streams[k].pos < q.pos + q.len)
      | none => false)) }))

/-! ### Completion of an arming (R137) -/

/-- The busy slots whose source is a destination endpoint of a conduit. -/
def State.receivers (s : State) (src : EpRef) : List (Fin 64 × Fin 64) :=
  (s.conduitDests src).flatMap (fun r => match r with
    | .cal n e => ((List.finRange 64).filter (fun k =>
        let t : Stream := s.cals[n].streams[k]
        t.st != .idle && dSrcKind t.desc == 1 && dSrcEp t.desc == e.val)).map (fun k => (n, k))
    | _ => [])

/-- The busy slots that feed a source endpoint. -/
def State.senders (s : State) (src : EpRef) : List (Fin 64 × Fin 64) :=
  match src with
  | .cal n e => ((List.finRange 64).filter (fun k =>
      let t : Stream := s.cals[n].streams[k]
      t.st != .idle && dDstKind t.desc == 1 && dDstEp t.desc == e.val)).map (fun k => (n, k))
  | _ => []

/-- The words that a slot has sent into its conduit have been acknowledged by their consumers (R26). -/
def State.wordsTaken (s : State) (r : SlotRef) : Bool :=
  match r with
  | .cal n _ =>
    let ep := EpRef.cal n (Fin.ofNat 64 (dDstEp (s.stm r).desc))
    dDstKind (s.stm r).desc != 1 || !(s.endpoint ep).source
      || (s.conduitDrained ep && (s.receivers ep).all (fun x => s.cals[x.1].streams[x.2].inBuf.isEmpty))
  | .cp _ => true

/-- The active arming holds some of `n` bytes from `start` on, counted over all the slot's armings. -/
def Stream.holds (t : Stream) (start n : Nat) : Bool := decide (start < t.base + dTotal t.desc) && decide (t.base < start + n)

/-- The active arming carried rows of a pass. -/
def Stream.carried (t : Stream) (k : Nat) (p : Pass) : Bool :=
  (passFeeds k p && t.holds p.actStart (apRows p.raw * p.rowLen))
    || (passDrains k p && t.holds p.drainStart (apRows p.raw * drainRowBytes p.raw))

/-- The active arming has delivered every byte, its consumers have acknowledged them, and every pass whose rows it
carried has committed. -/
def State.armFinished (s : State) (r : SlotRef) : Bool :=
  let t := s.stm r
  (t.st == .active || t.st == .armed) && decide (dTotal t.desc ≤ t.pos) && s.wordsTaken r &&
    (match r with
    | .cal n k => !((s.cals[n].passes ++ s.cals[n].replays).any (t.carried k.val))
    | .cp _ => true)

/-- The submission that a shadow holds. -/
def Stream.shadowSubmit (t : Stream) (d : CWord) : Submit :=
  { desc := d, owner := nfld d 24 2, ctx := t.shadowCtx, cmd := t.shadowCmd,
    plan := t.shadowPlan, first := t.shadowFirst, done := t.shadowDone, item := t.shadowItem, remote := t.shadowRemote }

/-- GEN_DONE takes the finished GEN; the shadow is promoted, or the slot goes IDLE (R137). -/
def Stream.finish (t : Stream) : Stream :=
  match t.shadow with
  | some d => { (t.activate (t.shadowSubmit d)) with genDone := t.gen, shadow := none, base := t.base + dTotal t.desc }
  | none => { t with genDone := t.gen, base := t.base + dTotal t.desc, st := .idle, desc := 0, inBuf := [], outWords := [], epoch := t.epoch + 1, plan := none, cmd := none, work := none, ctx := none }

/-- An arming completes: its slot, its pool slots and the command that armed it (R137, R281). -/
def State.armDone (s : State) (r : SlotRef) : State :=
  let t := s.stm r
  let s1 := s.modStm r Stream.finish
  let s2 := match r with
    | .cal n k => s1.modCal n (fun c => { c with pool := c.pool.filter (fun q => q.owner != k.val) })
    | .cp _ => s1
  match t.cmd with
  | some serial => (s2.complete serial 0 (at_ 32 0 t.gen) 0 (BitVec.ofNat 64 (dTotal t.desc))).endWork t.work serial
  | none => s2

/-! ### The watchdog (R155) and host timeouts (R260) -/

/-- A conduit that a slot's endpoint belongs to has an end outside the slot's caldera. -/
def State.peerOutside (s : State) (n : Fin 64) (e : Nat) : Bool :=
  (s.conduitPeers (.cal n (Fin.ofNat 64 e))).any (fun r => match r with
    | .cal m _ => m != n
    | _ => true)

/-- An end of a slot lies outside its caldera: DVA, HOST, AGEN, or a conduit with a partner that does. -/
def State.endOutside (s : State) (r : SlotRef) (src : Bool) : Bool :=
  let d := (s.stm r).desc
  let k := if src then dSrcKind d else dDstKind d
  k == 2 || k == 3 || k == 5 || (k == 1 && (match r with
    | .cal n _ => s.peerOutside n (if src then dSrcEp d else dDstEp d)
    | .cp _ => true))

/-- The address of the byte that a DVA or AGEN source is to deliver next. -/
def State.sourceAddr (s : State) (r : SlotRef) : Option Int :=
  let t := s.stm r
  let f := t.bufPos + t.inBuf.length
  let rb := max 1 (dRec t.desc)
  match dSrcKind t.desc, r with
  | 2, _ => some (endAddr t.desc true f)
  | 5, .cal n k => (s.cals[n].agenOf k).map (fun g => (((g.advanceN ((f - t.pos) / rb)).addr + f % rb : Nat) : Int))
  | _, _ => none

/-- The slot's next access reads host memory: a HOST end, or a page with a host window, and its page. -/
def State.hostRead (s : State) (r : SlotRef) : Option (BitVec 21) :=
  let t := s.stm r
  if dSrcKind t.desc = 3 then some 0
  else if t.remote = none ∧ t.bufPos + t.inBuf.length < dTotal t.desc then
    match s.sourceAddr r with
    | some a => (match s.streamXlate r a false with
      | .host _ _ _ _ => some (BitVec.ofInt 21 (a / 524288))
      | _ => none)
    | none => none
  else none

/-- The slot's next bytes go to a host window, and whether as 256-byte units of a confidential one (R376). -/
def State.destWindow (s : State) (r : SlotRef) : Option Bool :=
  let t := s.stm r
  if dDstKind t.desc = 2 ∧ t.remote = none then
    match s.streamXlate r (endAddr t.desc false t.bufPos) true with
    | .host _ enc _ _ => some enc
    | _ => none
  else none

/-- An end of a slot is host memory or a peer device, as things stand now (R30): HOST, a remote target, a host window, or a
conduit that leaves the device by a link port. -/
def State.endRemote (s : State) (r : SlotRef) (src : Bool) : Bool :=
  let d := (s.stm r).desc
  let k := if src then dSrcKind d else dDstKind d
  k == 3 || (k == 2 && (s.stm r).remote.isSome) || (if src then (s.hostRead r).isSome else (s.destWindow r).isSome)
    || (k == 1 && (match r with
      | .cal n _ => (s.conduitPeers (.cal n (Fin.ofNat 64 (if src then dSrcEp d else dDstEp d)))).any (fun p => match p with
        | .port _ _ => true
        | _ => false)
      | .cp _ => false))

/-- Bytes that the destination must have before it takes any. -/
def State.destUnit (s : State) (r : SlotRef) : Nat :=
  let t := s.stm r
  if dDstKind t.desc = 1 then min 64 (dTotal t.desc - t.bufPos) else if s.destWindow r = some true then 256 else 1

/-- The slot waits, and on an end for which `out` holds: on its destination where that has yet to acknowledge a byte or could
take what the buffer holds, on its source where the buffer holds less than the destination takes at once; a staging
slot waits on its source while its pool has room for its next record. -/
def State.waitsOn (s : State) (r : SlotRef) (out : Bool → Bool) : Bool :=
  let t := s.stm r
  let d := t.desc
  if dTotal d ≤ t.pos then !s.wordsTaken r && out false
  else if dStaged d then
    match r with
    | .cal n k => decide (s.cals[n].fillPos k < dTotal d) && decide (t.inBuf.length < dRec d) && s.cals[n].stageRoom k true
        && out true
    | .cp _ => false
  else if dDstKind d = 5 then !t.agenDone && out false
  else if t.bufPos < t.pos then out true
  else (decide (t.pos < t.bufPos) && out false)
    || (if t.inBuf.length < s.destUnit r then decide (t.bufPos + t.inBuf.length < dTotal d) && out true else out false)

/-- The slot waits on something outside its own caldera (R155), and on host memory or a peer device (R30). -/
def State.waitsOutside (s : State) (r : SlotRef) : Bool := s.waitsOn r (s.endOutside r)
def State.waitsRemote (s : State) (r : SlotRef) : Bool := s.waitsOn r (s.endRemote r)

/-- The no-progress count of a slot runs: while it is ACTIVE, and, so that it bounds a wait for the first byte too, from the
opening of its first beat (R32, R155; log 116). -/
def State.counts (s : State) (t : Stream) : Bool := t.st == .active || (t.st == .armed && s.demandOk t)

/-- One boundary of a slot's no-progress count; a plan that is suspended leaves it alone (R155). -/
def State.idleCount (s : State) (r : SlotRef) : State :=
  let t := s.stm r
  let held := match t.plan with
    | some h => (match s.findPlan h with
      | some p => p.run == .suspended
      | none => false)
    | none => false
  s.modStm r (fun t =>
    if t.moved then { t with idle := 0, moved := false }
    else if s.counts t ∧ !held ∧ s.waitsOutside r then { t with idle := satInc t.idle }
    else t)

/-- The no-progress limit of a slot. -/
def State.wdogLimit (s : State) : SlotRef → BitVec 16
  | .cal n _ => s.cals[n].wdog
  | .cp _ => s.cp.wdog

/-- STREAM_WDOG: the no-progress count has reached STM_WDOG and the stream halts with cause WDOG (R155). -/
def execStreamWdog (slot : SlotRef) (s : State) : Out :=
  let t := s.stm slot
  if s.counts t ∧ (s.wdogLimit slot).toNat ≤ t.idle.toNat then .next (s.haltStream slot 6 0) else .next s

/-- PCIE_COMPLETION_TIMEOUT: a device-issued read of a stream gets no completion and its stream halts with
cause HOST (R147, R260). -/
def execPcieCompletionTimeout (slot : SlotRef) (s : State) : Out :=
  if s.demandOk (s.stm slot) then
    match s.hostRead slot with
    | some v => .next (s.haltStream slot 4 v)
    | none => .next s
  else .next s

/-! ### Suspension, restart and abort (R137, R151, R153, R154) -/

/-- Words held at the inputs of switch nodes on the way from a conduit's source to an output. -/
def State.heldAbove (s : State) : Nat → Fin 64 → Nat → Nat → Nat
  | 0, _, _, _ => 0
  | fuel + 1, n, p, t =>
    let x := s.cals[n].xp p t
    if !xpValid x then 0
    else match farSide n (xpInPort x) (xpInTrack x) with
      | .node m key => (tfind s.cals[n].held (inKey (xpInPort x) (xpInTrack x))).toList.length + s.heldAbove fuel m (key / 64) (key % 64)
      | _ => 0

/-- Words under way to a destination of a conduit, the ones in the buffers of a port or a gateway included: those that a
suspension discards (R184, R324). -/
def State.underWay (s : State) (d : EpRef) : Nat :=
  let i := epInput d
  (s.endpoint d).word.toList.length + s.heldAbove 512 i.1 i.2.1 i.2.2 + (match d with
    | .port p e => ((s.ports[p]).txBytes[e].length + 63) / 64
    | .region g e => (s.regions[g].gw[e]).inBuf.length
    | _ => 0)

/-- The words of a source endpoint that have not come to the consumer furthest behind. -/
def State.inFlight (s : State) (src : EpRef) : Nat :=
  (s.endpoint src).word.toList.length + ((s.conduitDests src).map s.underWay).foldl max 0

/-- The position from which a conduit's words are sent again: that of the first word which did not reach every consumer, or
an earlier one where a slot at its ends starts again (R184). -/
def State.conduitPos (s : State) (src : EpRef) (p : Nat) : Nat :=
  let sent := (s.senders src).map (fun x => 64 * (((s.savedPos (.cal x.1 x.2)) + 63) / 64 - s.inFlight src))
  ((s.receivers src ++ s.senders src).map (fun x => s.savedPos (.cal x.1 x.2)) ++ sent).foldl min p

/-- The saved position of a slot at a suspension: a slot that feeds a conduit starts again where its
receivers do (R151, R184). -/
def State.suspendPos (s : State) (r : SlotRef) : Nat :=
  match r with
  | .cal n _ =>
    let ep := EpRef.cal n (Fin.ofNat 64 (dDstEp (s.stm r).desc))
    if dDstKind (s.stm r).desc = 1 ∧ (s.endpoint ep).source then s.conduitPos ep (s.savedPos r) else s.savedPos r
  | .cp _ => s.savedPos r

/-- Where the words of a slot's source conduit start again: at the start of a word (R324). -/
def State.sourcePos (s : State) (r : SlotRef) : Nat :=
  match r with
  | .cal n _ =>
    if dSrcKind (s.stm r).desc = 1 then
      match s.conduitSource (.cal n (Fin.ofNat 64 (dSrcEp (s.stm r).desc))) with
      | some src => s.conduitPos src (s.savedPos r) / 64 * 64
      | none => s.savedPos r
    else s.savedPos r
  | .cp _ => s.savedPos r

/-- Where a slot starts again: at its saved position, or, with words to send, at the start of the word that holds it (R324). -/
def Stream.startAgain (t : Stream) : Nat := if dDstKind t.desc = 1 then t.savePos / 64 * 64 else t.savePos

/-- The stream that empties a ring goes back over `n` bytes. -/
def DrainRing.back (r : DrainRing) (n : Nat) : DrainRing := { r with rd := r.rd - n, freed := min r.freed (r.rd - n) }

/-- A drain ring's reading position follows its stream back to where that starts again (R59, R184). -/
def Caldera.ringsBack (c : Caldera) (k : Fin 64) : Caldera :=
  let t := c.streams[k]
  { c with rings := c.rings.map (fun g => if t.st ≠ .idle ∧ g.stream = some k.val ∧ g.readBy t.desc then g.back (t.pos - t.startAgain) else g) }

/-- A busy slot at its plan's suspension: staging dropped, PAUSED unless HALTED (R153). -/
def State.pauseStream (s : State) (r : SlotRef) : State :=
  let save := s.suspendPos r
  let src := s.sourcePos r
  let s1 := s.modStm r (fun t =>
    if t.st = .idle then t
    else { t with st := if t.st = .halted then .halted else .paused, savePos := save, inBuf := [], outWords := [], reqPos := src,
                  epoch := t.epoch + 1, raStop := false })
  match r with
  | .cal n k => s1.modCal n (fun c => c.ringsBack k)
  | .cp _ => s1

/-- A PAUSED or HALTED slot restarts from its saved position with the arming it had (R152, R154). -/
def Stream.restart (t : Stream) (opened : Bool) : Stream :=
  if t.st = .paused ∨ t.st = .halted then
    let p := t.startAgain
    { t with st := if opened then .active else .armed, pos := p, bufPos := if dSrcKind t.desc = 1 then min t.reqPos p else p,
             reqPos := p, inBuf := [], outWords := [], epoch := t.epoch + 1, cause := 0, idle := 0, raStop := false, resumeAt := none }
  else t

/-- The slot of an aborted plan or command: IDLE with an empty shadow (R137). -/
def Stream.abort (t : Stream) : Stream :=
  { t with st := .idle, desc := 0, shadow := none, inBuf := [], outWords := [], agenQ := none, epoch := t.epoch + 1, plan := none, cmd := none,
           work := none, shadowPlan := none, shadowRemote := none, ctx := none, remote := none, resumeAt := none }

end Sys2Proof.Machine
end

