-- ==== Sys2Proof/Machine/Link.lean ====
section
/-! DEFINITION. The link ports: training, control blocks, states and admission, flits, sequence numbers,
replay, credits and authentication (R208 to R233). -/

namespace Sys2Proof.Machine

/-! ### Control blocks (R217) -/

def cbType (b : Data256) : Nat := nfld b 0 8

/-- The check of a control block under a LINK_ID (R217). -/
def cbCheck (b : Data256) (id : BitVec 16) : Word := crc32c (toBytes b 28 ++ [0, 0, fld id 0 8, fld id 8 8])

def cbGood (b : Data256) (id : BitVec 16) : Bool := cbCheck b id == rfld b 28 0 32

/-- A control block of a type with contents placed at byte 1. -/
def mkBlock (ty : Nat) (body : Data256) (id : BitVec 16) : Data256 :=
  let b := natAt 256 0 ty ||| (body <<< 8)
  b ||| at_ 256 224 (cbCheck b id)

/-! ### The line: blocks, codewords and alignment (R209 to R211) -/

/-- The blocks of what is on the line: the header bit, 1 for a data block, and 32 bytes (R209). -/
def LineItem.blocks : LineItem → List (Bool × Data256)
  | .flit f => (List.range 8).map (fun i => (true, fld f (256 * i) 256))
  | .ctl b => [(false, b)]
  | .frame _ _ _ _ _ => []
  | .prbs _ _ => []

/-- One 257-bit block, its header bit first. -/
def lineWord (x : Bool × Data256) : BitVec 257 := flagAt 257 0 x.1 ||| at_ 257 1 x.2

/-- The lane of a codeword: codeword c goes whole on lane c mod 4 (R209). -/
def codewordLane (c : Nat) : Nat := c % 4

/-! The RS(544,514) code of IEEE 802.3 (R209; log 130). -/

/-- The product in GF(2^10) over x^10 + x^3 + 1. -/
def gf10Mul (a b : BitVec 10) : BitVec 10 :=
  (List.range 10).foldr (fun i r =>
    let d := (r <<< 1) ^^^ (if bitAt r 9 then 9 else 0)
    if bitAt b i then d ^^^ a else d) 0

/-- The coefficients of (x + 1)(x + α)…(x + α^(n−1)), highest power first. -/
def rsGen : Nat → List (BitVec 10) × BitVec 10
  | 0 => ([1], 1)
  | n + 1 =>
    let r := rsGen n
    (List.zipWith (· ^^^ ·) (r.1 ++ [0]) (0 :: r.1.map (gf10Mul r.2)), gf10Mul r.2 2)

/-- The 30 parity symbols of a message, those of the highest power first. -/
def rsParity (m : List (BitVec 10)) : List (BitVec 10) :=
  let g := (rsGen 30).1.tail
  m.foldl (fun r x =>
    let f := x ^^^ r.headD 0
    List.zipWith (fun a c => a ^^^ gf10Mul f c) (r.tail ++ [0]) g) (List.replicate 30 0)

/-- The codeword of 20 blocks: the 5,140 bits of its message in the order sent, ten to a symbol, then the parity. -/
def rsCodeword (bs : List (Bool × Data256)) : BitVec 5440 :=
  let m : BitVec 5140 := bs.zipIdx.foldl (fun w x => w ||| at_ 5140 (257 * x.2) (lineWord x.1)) 0
  (rsParity ((List.range 514).map (fun i => fld m (10 * i) 10))).zipIdx.foldl (fun w x => w ||| at_ 5440 (5140 + 10 * x.2) x.1)
    (at_ 5440 0 m)

/-- An ALIGN block stands at place `n` of the block stream: the first block of codewords 1,024m to 1,024m + 3 (R211). -/
def alignDue (n : Nat) : Bool := n % 20 == 0 && decide (n / 20 % 1024 < 4)

/-- The ALIGN block of place `n`: its lane and marker count (R211, R217). -/
def alignBlock (n : Nat) (id : BitVec 16) : Data256 :=
  mkBlock 0x2D (natAt 256 0 (codewordLane (n / 20)) ||| natAt 256 8 (n / 20480 % 65536)) id

/-- The FILL block. -/
def fillBlock (id : BitVec 16) : Data256 := mkBlock 0x1E 0 id

/-- Something put on the line: every 20 blocks are one codeword (R209). -/
def Port.wire (p : Port) (x : LineItem) : Port :=
  let bs := p.lineTail ++ x.blocks
  if 20 ≤ bs.length then
    { p with sent := p.sent ++ [x], lineTail := bs.drop 20, lineNo := p.lineNo + 1
             line := p.line ++ [(Fin.ofNat 4 (codewordLane p.lineNo), rsCodeword (bs.take 20))] }
  else { p with sent := p.sent ++ [x], lineTail := bs }

/-- A test pattern. -/
def LineItem.isPrbs : LineItem → Bool
  | .prbs _ _ => true
  | _ => false

/-- What the line gets as a port sends something: FILL in a parallel loop, and in the far loop only test patterns
(R215, R216). -/
def Port.lineOut (p : Port) (x : LineItem) : Port :=
  if p.loop = 2 then (List.replicate (max 1 x.blocks.length) (LineItem.ctl (fillBlock p.txId))).foldl Port.wire p
  else if p.loop = 3 ∧ x.isPrbs = false then p
  else p.wire x

/-- Something leaves the transmitter: on the line, and in a near-end loop to the port's own receiver (R215). -/
def Port.emit (p : Port) (x : LineItem) : Port :=
  { p.lineOut x with
    txBlocks := p.txBlocks + x.blocks.length
    loopq := if (p.loop = 1 ∨ p.loop = 2) ∧ x.isPrbs = false then p.loopq ++ [x] else p.loopq }

/-- Room for `n` blocks in a row: ALIGN blocks stand where they are due, and FILL before one that would fall inside
(R211, R217). -/
def Port.space (p : Port) (n : Nat) : Nat → Port
  | 0 => p
  | k + 1 =>
    if alignDue p.txBlocks then (p.emit (.ctl (alignBlock p.txBlocks p.txId))).space n k
    else if (List.range n).any (fun j => alignDue (p.txBlocks + j)) then (p.emit (.ctl (fillBlock p.txId))).space n k
    else p

/-- Something put on the line. -/
def Port.send (p : Port) (x : LineItem) : Port :=
  if x.blocks.isEmpty then p.emit x else (p.space x.blocks.length 9).emit x
def Port.sendBlock (p : Port) (ty : Nat) (body : Data256) : Port := p.send (.ctl (mkBlock ty body p.txId))

/-- Two items of the line that a receiver cannot tell apart: the fill of a training frame carries nothing. -/
def LineItem.same : LineItem → LineItem → Bool
  | .frame l c s k _, .frame l' c' s' k' _ => l == l' && c == c' && s == s' && k == k'
  | x, y => x == y

/-- The generators of a port in TEST replace its lanes' symbols (R216). -/
def Port.prbsOn (p : Port) : Bool := p.st == .test && p.lanes.any (fun l => decide (0 < l.gen.toNat) && decide (l.gen.toNat < 7))

/-- Something arrives at a port's receiver, and whether it is delivered: in the far loop it goes back on its lane, in a
near-end loop only what the port itself has sent arrives (R215); the lanes of a port that is OFF are idle (R226). -/
def State.lineIn (s : State) (p : Fin 12) (x : LineItem) : State × Bool :=
  let q := s.ports[p]
  if q.st = .off then (s, false)
  else if q.loop = 0 then (s, true)
  else if q.loop = 3 then (if q.prbsOn then s else s.modPort p (fun q => { q with sent := q.sent ++ [x] }), false)
  else match q.loopq with
    | y :: l => if y.same x then (s.modPort p (fun q => { q with loopq := l }), true) else (s, false)
    | [] => (s, false)

/-- Blocks received: those of an uncorrectable codeword grow fewer (R209). -/
def State.tookBlocks (s : State) (p : Fin 12) (n : Nat) : State := s.modPort p (fun q => { q with badLeft := q.badLeft - n })

/-- A received control block that its check passes under a LINK_ID and no uncorrectable codeword carried (R209, R217). -/
def State.blockGood (s : State) (p : Fin 12) (b : Data256) (id : BitVec 16) : Bool := cbGood b id && s.ports[p].badLeft == 0

/-- A received control block with the type it must have: counted where its check fails (R217). -/
def State.withBlock (s : State) (p : Fin 12) (ty : Nat) (b : Data256) (f : State → State) : Out :=
  if cbType b ≠ ty then .next s
  else
    let x := s.lineIn p (.ctl b)
    if !x.2 then .next x.1
    else
      let s1 := x.1.tookBlocks p 1
      if s.blockGood p b s.ports[p].rxId then .next (f s1)
      else .next (s1.modPort p (fun q => q.modCnt (fun c => { c with ctlBad := satInc c.ctlBad })))

/-! ### State changes (R214, R226, R230, R231) -/

/-- The port has a link whose services run. -/
def Port.up (p : Port) : Bool := p.st == .linked || p.st == .admitted || p.st == .degraded

/-- Keys are discarded. -/
def Port.noKeys (p : Port) : Port :=
  { p with authDone := false, authStart := none, authStep := 0, authSecret := 0, authMine := Vector.replicate 3 []
           authTheirs := Vector.replicate 3 [], txKey := 0, txSalt := 0, rxKey := 0, rxSalt := 0, txIv := 0, rxIv := 0 }

/-- Full training starts from step 1: keys, replay buffer, sequence numbers, credits and LINK_IDs are
discarded (R214, R228, R231); a port in TEST trains there (R215). -/
def Port.train (p : Port) (now : Nat) (afterFast : Bool) : Port :=
  { p.noKeys with
    st := if p.st = .test then .test else .training, mediumNow := p.medium, step := 1, stepSince := now, attempts := 1
    afterFast := afterFast, linkUpTx := false, linkUpRx := false, rttOk := false, presOk := false, txId := 0, rxId := 0, txSeq := 0
    rxNext := 0, replayBuf := [], resend := [], credits := Vector.replicate 4 0, owed := Vector.replicate 4 0
    held := Vector.replicate 4 0, rxLens := Vector.replicate 8 [], starved := Vector.replicate 4 none, ackDue := false, nackDue := false
    nackSince := none, rewind := none, txBlocks := 0, badLeft := 0, loopq := [], heldNack := [], lineTail := [], lineNo := 0
    lanes := p.lanes.map (fun l => { l with
      rxReady := false, partnerReady := false, readyFrames := 0, sentReady := 0, goodFrames := 0, answer := 0, asked := 0, mark := none }) }

/-- The port enters DOWN (R226, R232). -/
def State.portDown (s : State) (p : Fin 12) : State :=
  (s.modPort p (fun q => { q.noKeys with st := .down, downSince := s.now })).lnkEvent p 0

/-- The port is taken out of service (R230). -/
def State.portDisable (s : State) (p : Fin 12) (event : Nat) : State :=
  (s.modPort p (fun q => { q with st := .disabled })).lnkEvent p event

/-- One second, 100 ms and 40 µs in ticks of 6.4 ns. -/
def secondTicks : Nat := 156250000
def tenthTicks : Nat := 15625000
def retrainTicks : Nat := 6250

/-- A fast retrain starts, or, beyond the retrains allowed in a second, the port is disabled (R230, R231). -/
def State.startRetrain (s : State) (p : Fin 12) (errorRate : Bool) : State :=
  let q := s.ports[p]
  if !q.up then s
  else
    let log := s.now :: q.retrainLog.filter (fun t => decide (s.now < t + secondTicks))
    let s1 := s.modPort p (fun q =>
      { (q.modCnt (fun c => { c with retrains := satInc c.retrains })) with
        st := .retrain, prev := q.st, retrainSince := s.now, retrainLog := log, presOk := false, rttOk := false, rttSince := none
        heldNack := [], lanes := q.lanes.map (fun l => { l with mark := none }) })
    let s2 := if errorRate then s1.lnkEvent p 2 else s1
    if q.retrainMax.toNat < log.length then s2.portDisable p 3 else s2

/-- One check error or uncorrectable codeword toward the error-rate retrain (R230). -/
def State.portError (s : State) (p : Fin 12) : State :=
  let q := s.ports[p]
  let log := s.now :: q.errLog.filter (fun t => decide (s.now < t + q.errWindow.toNat))
  let s1 := s.modPort p (fun q => { q with errLog := log })
  if q.errMax.toNat < log.length then (s1.modPort p (fun q => { q with errLog := [] })).startRetrain p true else s1

/-- One protocol violation (R230). -/
def State.portViolation (s : State) (p : Fin 12) : State :=
  let q := s.ports[p]
  let log := s.now :: q.violLog.filter (fun t => decide (s.now < t + q.errWindow.toNat))
  let s1 := s.modPort p (fun q => { (q.modCnt (fun c => { c with viol := satInc c.viol })) with violLog := log })
  if q.violMax.toNat < log.length then s1.portDisable p 5 else s1

/-- An authentication or tag failure (R230). -/
def State.portAuthFail (s : State) (p : Fin 12) : State :=
  (s.modPort p (fun q => q.modCnt (fun c => { c with authFail := satInc c.authFail }))).portDisable p 6

/-! ### Authentication (R228) -/

/-- A step's AUTH payloads queued, and kept for the transcript. -/
def State.sendAuth (s : State) (p : Fin 12) (step : Nat) (message : List Byte) : State :=
  let ps := Config.authPack step message
  let s1 := ps.foldl (fun (s : State) pl => s.sendOn p none (mkFlit 0 s.fab.id 2 0x0C 0 false pl)) s
  s1.modPort p (fun q => { q with authMine := vset q.authMine (Fin.ofNat 3 (step - 1)) (ps.flatMap (fun pl => toBytes pl 240)) })

/-- Authentication starts on a port: an ephemeral secret, and the nonce and certificate chain of step 1 (R228). -/
def State.startAuth (s : State) (p : Fin 12) : State :=
  if s.ports[p].authStart.isSome ∨ s.ports[p].authDone then s
  else
    let x := s.draw
    let y := x.2.draw
    (y.2.modPort p (fun q =>
      { q with authStart := some s.now, authStep := 1, authSecret := fld x.1 0 384, authMine := Vector.replicate 3 []
               authTheirs := Vector.replicate 3 [] })).sendAuth p 1 (toBytes y.1 32 ++ s.sec.certChain)

/-- The partner's message of a step, once it is whole. -/
def Port.peerMessage (p : Port) (step : Nat) : Option (List Byte) :=
  Config.authUnpack step p.authTheirs[(Fin.ofNat 3 (step - 1))]

/-- The partner's certified unique identity, once its chain has arrived. -/
def Port.peerUid (p : Port) : Option (BitVec 128) :=
  (p.peerMessage 1).bind (fun m => (chainVerify (m.drop 32)).map (·.1))

/-- This side has the lower unique identity; of a partner whose chain does not verify only the PRES identity is known
(R228). -/
def State.lowerSide (s : State) (p : Fin 12) : Bool := match s.ports[p].peerUid with
  | some u => decide (s.fab.uid.toNat < u.toNat)
  | none => decide ((s.fab.uid.setWidth 64 : DWord).toNat < s.ports[p].partner.toNat)

/-- The SHA-384 of the transcript that both sides sign: the payloads of steps 1 and 2, at each step those of the side
with the lower identity first (R228; log 25). -/
def State.authHash (s : State) (p : Fin 12) : BitVec 384 :=
  let q := s.ports[p]
  sha384 (([0, 1] : List (Fin 3)).flatMap (fun i =>
    if s.lowerSide p then q.authMine[i] ++ q.authTheirs[i] else q.authTheirs[i] ++ q.authMine[i]))

/-- The message that a side sends in a step after the first: its ephemeral public key, then its signature (R228). -/
def State.authMessage (s : State) (p : Fin 12) (step : Nat) : List Byte :=
  if step = 2 then pointOut (publicKey (ephemeralKey s.ports[p].authSecret))
  else toBytes (ecdsaSign s.sec.attestationKey (s.authHash p)) 96

/-- The partner's ephemeral public key, where its message of step 2 is a point of the curve. -/
def Port.peerKey (p : Port) : Option (BitVec 768) := (p.peerMessage 2).bind pointIn

/-- The partner's chain, security version, signature and identity verify (R228 step 4), and its ephemeral public key is a
point of the curve (DEDUCED: ECDH is defined with no other; log 25). -/
def State.authAccepts (s : State) (p : Fin 12) : Bool :=
  let q := s.ports[p]
  match q.peerMessage 1, q.peerMessage 3 with
  | some m, some sig =>
    (match chainVerify (m.drop 32) with
    | some (uid, svn, key) =>
      decide (q.minSvn.toNat ≤ svn.toNat) && ecdsaVerify key (s.authHash p) (ofBytes 768 sig) && uid.setWidth 64 == q.partner && q.peerKey.isSome
    | none => false)
  | _, _ => false

/-- The directional keys and salts: of this side's transmitter and receiver (R228 step 5). -/
def State.authKeys (s : State) (p : Fin 12) : (BitVec 256 × BitVec 32) × (BitVec 256 × BitVec 32) :=
  let q := s.ports[p]
  let k := linkKeys (q.peerKey.elim [] (ecdhShared (ephemeralKey q.authSecret))) (s.authHash p)
  if s.lowerSide p then k else (k.2, k.1)

/-- The first flit in the inbox that a test selects, and the inbox without it. -/
def takeFlit (f : Fin 12 × Data2048 → Bool) (l : List (Fin 12 × Data2048)) : Option (Fin 12 × Data2048) × List (Fin 12 × Data2048) :=
  match l.find? f with
  | some x => (some x, l.erase x)
  | none => (none, l)

/-- A flit taken out of the inbox leaves its receive buffer (R221). -/
def State.tookFlit (s : State) (inbox : List (Fin 12 × Data2048)) (p : Fin 12) (f : Data2048) : State :=
  (s.modFab (fun b => { b with inbox := inbox })).modPort p (fun q => q.release (Fin.ofNat 4 (flVc f)))

/-- AUTH: a received AUTH flit advances the exchange; at its end both sides hold keys, or it fails (R228). -/
def execAuth (port : Fin 12) (s : State) : Out :=
  let x := takeFlit (fun e => e.1 == port && flType e.2 == 0x0C) s.fab.inbox
  match x.1 with
  | none => .next s
  | some (_, f) =>
    let s0 := (s.tookFlit x.2 port f).startAuth port
    let i : Fin 3 := Fin.ofNat 3 (s0.ports[port].authStep - 1)
    let s1 := s0.modPort port (fun q => { q with authTheirs := vmod q.authTheirs i (· ++ toBytes (flPayload f) 240) })
    let q := s1.ports[port]
    if q.authDone ∨ (q.peerMessage q.authStep).isNone then .next s1
    else if q.authStep < 3 then
      .next ((s1.modPort port (fun q => { q with authStep := q.authStep + 1 })).sendAuth port (q.authStep + 1)
        (s1.authMessage port (q.authStep + 1)))
    else if s1.authAccepts port then
      let k := s1.authKeys port
      .next (s1.modPort port (fun q => { q with authDone := true, authStart := none, txKey := k.1.1, txSalt := k.1.2,
                                                rxKey := k.2.1, rxSalt := k.2.2, txIv := 0, rxIv := 0 }))
    else .next (s1.portAuthFail port)

/-- AUTH_TIMEOUT: authentication not completed within 100 ms counts as a failure (R228, R230). -/
def execAuthTimeout (port : Fin 12) (s : State) : Out :=
  match s.ports[port].authStart with
  | some t => if t + tenthTicks ≤ s.now ∧ s.ports[port].up then .next (s.portAuthFail port) else .next s
  | none => .next s

/-- CONF: a write of LNK_CTL.CONF; 1 on a LINKED port starts authentication (R228). -/
def execConf (port : Fin 12) (on : Bool) (s : State) : Out :=
  if !s.serving then .next s else
  let s1 := s.modPort port (fun q => { q with conf := on })
  .next (if on ∧ s.ports[port].st = .linked then s1.startAuth port else s1)

/-! ### Training (R212 to R214) -/

/-- A port that has finished training enters LINKED with the partner's buffers as credits (R214, R221). -/
def State.portLinked (s : State) (p : Fin 12) : State :=
  let s1 := s.modPort p (fun q =>
    { q with st := .linked, credits := #v[512, 256, 64, 16], lastPres := s.now, sinceVc2 := 0, sinceFlit := 0, sinceFill := 0
             lanes := q.lanes.map (fun l => { l with lastMark := s.now }) })
  if s1.ports[p].conf then s1.startAuth p else s1

/-- The port is being trained, on the line or against itself (R214, R215). -/
def Port.inTraining (p : Port) : Bool := p.st == .training || (p.st == .test && (p.loop == 1 || p.loop == 2) && decide (0 < p.step))

/-- The time that a step of training may take, in ticks of 6.4 ns; that of step 4 counts from the start of step 3 (R214). -/
def stepLimit (step : Nat) : Option Nat :=
  match step with
  | 1 => some 1562500 | 2 => some 312500 | 3 => some 7812500 | 4 => some 7812500 | 5 => some 156250 | 7 => some 156250 | _ => none

/-- The step has lasted longer than it may, or as long as it may. -/
def Port.late (p : Port) (now : Nat) : Bool := ((stepLimit p.step).map (fun l => decide (p.stepSince + l < now))).getD false
def Port.spent (p : Port) (now : Nat) : Bool := ((stepLimit p.step).map (fun l => decide (p.stepSince + l ≤ now))).getD true

/-- The next step of training begins. -/
def Port.toStep (p : Port) (now step : Nat) : Port := { p with step := step, stepSince := now }

/-- Equalisation ends when both sides of every lane have sent RX_READY in three frames (R214 step 4). -/
def Port.equalised (p : Port) (now : Nat) : Port :=
  if (p.step = 3 ∨ p.step = 4) ∧ p.lanes.all (fun l => l.rxReady && decide (3 ≤ l.sentReady) && decide (3 ≤ l.readyFrames)) then p.toStep now 5 else p

/-- Every lane has locked on an ALIGN block, and all hold the same marker count (R211, R214 steps 5 and 6). -/
def Port.locked (p : Port) : Bool := p.lanes.all (fun l => l.mark.isSome)
def Port.lined (p : Port) : Bool := p.lanes.all (fun l => l.mark.isSome && l.mark == p.lanes[0].mark)

/-- An RTT_REQ with the next number, sent now (R217, R225). -/
def Port.sendRtt (p : Port) (now : Nat) : Port :=
  { (p.sendBlock 0x66 (at_ 256 0 (p.rttNum + 1))) with rttSince := some now, rttNum := p.rttNum + 1 }

/-- Steps 7 and 8 of training, as far as what has arrived carries them. -/
def State.linkSteps (s : State) (p : Fin 12) : State :=
  let q := s.ports[p]
  let s1 := if q.step = 7 ∧ q.linkUpTx ∧ q.linkUpRx then
      s.modPort p (fun q => { q.sendRtt s.now with step := 8, stepSince := s.now })
    else s
  let q1 := s1.ports[p]
  if q1.step = 8 ∧ q1.rttOk ∧ q1.presOk ∧ q1.inTraining then s1.portLinked p else s1

/-- The step at which a failure cause can arise (R214). -/
def causeStep (cause : Nat) : List Nat :=
  match cause with
  | 1 => [1] | 2 => [2] | 3 => [3, 4] | 4 => [5] | 5 => [6] | 6 => [7] | _ => []

/-- A training attempt fails: another one, or after the third DOWN or DISABLED (R214, R230). -/
def State.trainingFail (s : State) (p : Fin 12) (cause : Nat) : State :=
  let q := s.ports[p]
  let s1 := s.modPort p (fun q => { q with cause := BitVec.ofNat 3 cause })
  if q.attempts < 3 then
    s1.modPort p (fun q => { (q.train s.now q.afterFast) with attempts := q.attempts + 1, cause := BitVec.ofNat 3 cause })
  else if q.afterFast ∧ cause ≠ 1 ∧ cause ≠ 2 then s1.portDisable p 3
  else s1.portDown p

/-- Preset P2 of every lane (R213, R214 step 2). -/
def Lane.preset (l : Lane) (k : Nat) : Lane :=
  match k with
  | 1 => { l with cm3 := 0, cm2 := 0, cm1 := 0, cp1 := 0, c0 := 64 }
  | 2 => { l with cm3 := 0, cm2 := 2, cm1 := -8, cp1 := -4, c0 := 50 }
  | 3 => { l with cm3 := 2, cm2 := 4, cm1 := -12, cp1 := -6, c0 := 40 }
  | _ => l

/-- The check field of a training frame (R212). -/
def frameCheck (control status : BitVec 16) : BitVec 16 :=
  let p : CrcParam := { width := 16, poly := 0x1021, init := 0xFFFF, xorout := 0, refin := false, refout := false }
  BitVec.ofNat 16 (crcGenFinal p ([fld control 8 8, fld control 0 8, fld status 8 8, fld status 0 8].foldl (crcGenByte p) p.init))

/-- PORT_TRAINING: one step of full training ends, in success within its time or with a cause (R214). -/
def execPortTraining (port : Fin 12) (outcome : PortOutcome) (s : State) : Out :=
  let q := s.ports[port]
  if !q.inTraining then .next s
  else match outcome with
    | .fail cause =>
      .next (if (causeStep cause.val).contains q.step ∧ q.spent s.now then s.trainingFail port cause.val else s)
    | o =>
      if q.late s.now then .next s
      else match o with
      | .detect => .next (if q.step = 1 then s.modPort port (fun q => q.toStep s.now 2) else s)
      | .frameLock =>
        .next (if q.step = 2 ∧ q.lanes.all (fun l => decide (3 ≤ l.goodFrames)) then
          s.modPort port (fun q => Port.toStep { q with lanes := q.lanes.map (fun l => l.preset 2) } s.now 3)
        else s)
      | .equalised lane h w =>
        .next (if q.step = 3 ∨ q.step = 4 then
          s.modPort port (fun q => Port.equalised { q with
            step := 4
            lanes := vmod q.lanes lane (fun l =>
              { l with eyeH := h, eyeW := w,
                       rxReady := l.rxReady || (decide (l.eyeMinH.toNat ≤ h.toNat) && decide (l.eyeMinW.toNat ≤ w.toNat)) }) } s.now)
          else s)
      | .fecLock => .next (if q.step = 5 ∧ q.locked then s.modPort port (fun q => q.toStep s.now 6) else s)
      | .deskewed inverted skew =>
        if q.step ≠ 6 then .next s
        else if skew.any (fun x => decide (200 < x.toNat)) then .next (s.trainingFail port 5)
        else if !q.lined then .next s
        else .next (s.modPort port (fun q => Port.toStep { q with
          lanes := Vector.ofFn (fun i => { q.lanes[i] with inverted := inverted[i], skew := skew[i] })
          } s.now 7))
      | .linkUp linkId =>
        if q.step = 7 then
          .next ((s.modPort port (fun q =>
            let q1 := { q with linkUpTx := true, txId := linkId }
            q1.sendBlock 0x33 (at_ 256 0 linkId ||| natAt 256 16 port.val))).linkSteps port)
        else .next s
      | .fail _ => .next s

/-- One tap under a request: its new value, and the answer 0, 1 or 2 (R212, R213). -/
def tapStep (lo hi v : Int) (req : Nat) : Int × Nat :=
  let n := if req = 1 then v + 1 else if req = 2 then v - 1 else v
  if req = 1 ∨ req = 2 then (if lo ≤ n ∧ n ≤ hi then (n, 1) else (v, 2)) else (v, 0)

/-- The taps of one lane under the requests of a frame: the lane and the answers [7:0].  Where requests of one frame only
together bring c(0) below 32, each of them that enlarges its tap is answered at limit (DESIGN CHOICE, log 50). -/
def Lane.taps (l : Lane) (control : BitVec 16) : Lane × Nat :=
  let t := [tapStep 0 6 l.cm3.toNat (nfld control 0 2), tapStep 0 8 l.cm2.toNat (nfld control 2 2),
            tapStep (-24) 0 l.cm1.toInt (nfld control 4 2), tapStep (-16) 0 l.cp1.toInt (nfld control 6 2)]
  let old : List Int := [l.cm3.toNat, l.cm2.toNat, l.cm1.toInt, l.cp1.toInt]
  let mag (v : Int) : Nat := v.natAbs
  let sum (xs : List Int) : Nat := (xs.map mag).sum
  let want := t.map (·.1)
  let t1 := if sum want ≤ 32 then t
    else (List.zip old t).map (fun x => if mag x.1 < mag x.2.1 then (x.1, 2) else x.2)
  let v := t1.map (·.1)
  ({ l with cm3 := BitVec.ofInt 4 (v.getD 0 0), cm2 := BitVec.ofInt 4 (v.getD 1 0), cm1 := BitVec.ofInt 6 (v.getD 2 0),
            cp1 := BitVec.ofInt 6 (v.getD 3 0), c0 := BitVec.ofNat 7 (64 - sum v) },
   (t1.map (·.2)).foldr (fun a m => a + 4 * m) 0)

/-- The request that a receiver puts into its next frame: none once it is ready or while an answer is outstanding, else
a preset, one tap up or down, or a hold; which one its equaliser chooses the manual leaves open (R212, R214 step 3;
log 3). -/
def Lane.request (l : Lane) (x : BitVec 4) : BitVec 10 :=
  if l.rxReady || l.asked != 0 then 0
  else if nfld x 0 3 < 4 then natAt 10 8 (nfld x 0 3)
  else natAt 10 (2 * (nfld x 0 3 - 4)) (if bitAt x 3 then 1 else 2)

/-- TRAINING_FRAME: a received frame: three good ones in a row lock the lane; then presets and tap requests are applied
or answered at limit in the next frame sent, and the answer to this side's request and RX_READY are noted; one whose check
fails is ignored (R212 to R214). -/
def execTrainingFrame (port : Fin 12) (lane : Fin 4) (control status check : BitVec 16) (s0 : State) : Out :=
  let a := s0.lineIn port (.frame lane control status check 0)
  let s := a.1
  let q := s.ports[port]
  let good : Bool := frameCheck control status == check
  if !a.2 ∨ !q.inTraining then .next s
  else if q.step = 2 then
    .next (s.modPort port (fun q => { q with
      lanes := vmod q.lanes lane (fun l => { l with goodFrames := if good then l.goodFrames + 1 else 0 }) }))
  else if !good ∨ q.step < 2 ∨ 4 < q.step then .next s
  else
    let l := q.lanes[lane]
    let preset := nfld control 8 2
    let r := if preset ≠ 0 then (l.preset preset, 0x100) else l.taps control
    let ready := bitAt control 10
    let l1 := { r.1 with
      partnerReady := r.1.partnerReady || ready, readyFrames := if ready then l.readyFrames + 1 else l.readyFrames
      asked := if status = 0 then l.asked else 0, answer := if r.2 = 0 then l.answer else BitVec.ofNat 16 r.2 }
    .next (s.modPort port (fun q => Port.equalised { q with lanes := vset q.lanes lane l1 } s.now))

/-- DOWN_RETRY: a port in DOWN retries full training every 100 ms (R226); ports train from phase 7 on (R384). -/
def execDownRetry (port : Fin 12) (s : State) : Out :=
  let q := s.ports[port]
  if 7 ≤ s.pwr.phase.toNat ∧ q.st = .down ∧ q.en ∧ q.downSince + tenthTicks ≤ s.now then .next (s.modPort port (fun q => q.train s.now false)) else .next s

/-! ### Acknowledgement (R221, R224, R225) -/

/-- t_replay in ticks (R225). -/
def Port.tReplay (p : Port) : Nat := p.rtt.toNat + 10

/-- Credits with those of flits that are to be sent again returned, where they are not returned already (R221). -/
def Port.creditsBack (p : Port) (fs : List Data2048) : Vector Nat 4 :=
  fs.foldl (fun v g => if p.resend.contains g then v else vmod v (Fin.ofNat 4 (flVc g)) (· + 1)) p.credits

/-- The oldest number that is not acknowledged. -/
def Port.oldest (p : Port) : BitVec 12 := p.txSeq - BitVec.ofNat 12 p.replayBuf.length

/-- The acknowledgement field of a received flit applied; `none` when it is a violation (R223 step 4, R224). -/
def Port.ackField (p : Port) (now : Nat) (f : Data2048) : Option Port :=
  let n := flNext f
  let k := (n - p.oldest).toNat
  let after := (n - p.txSeq).toNat
  if 1 ≤ after ∧ after ≤ 2047 then none
  else if flNack f ∧ p.replayBuf.length < k then none
  else
    let drop := if k ≤ p.replayBuf.length then k else 0
    let c := Fin.ofNat 4 (flCvc f)
    let p1 := { p with
      replayBuf := p.replayBuf.drop drop
      resend := p.resend.filter (fun g => (p.replayBuf.drop drop).any (fun h => flSeq h == flSeq g))
      credits := vmod p.credits c (· + flCred f) }
    let recent := match p.rewind with
      | some (m, t) => m == n && decide (now < t + p.tReplay)
      | none => false
    if flNack f ∧ !recent then
      some { p1 with
        resend := p1.replayBuf, rewind := some (n, now), replaysInBeat := p1.replaysInBeat + 1
        cnt := { p1.cnt with replay := satInc p1.cnt.replay }
        credits := p1.creditsBack p1.replayBuf }
    else some p1

/-- A PRES block of the port, sent now (R217). -/
def State.sendPres (s : State) (p : Fin 12) : State :=
  s.modPort p (fun q =>
    { (q.sendBlock 0x4B (at_ 256 0 (s.fab.uid.setWidth 64) ||| natAt 256 64 p.val ||| at_ 256 72 s.glb.beatCnt)) with
      lastPresSent := s.now })

/-- Steps 2 and 3 of a fast retrain begin once every lane has found its ALIGN blocks again: RTT_REQ and PRES leave
(R231). -/
def State.retrainExchange (s : State) (p : Fin 12) : State :=
  let q := s.ports[p]
  if q.st = .retrain ∧ q.lined ∧ q.rttSince = none ∧ q.rttOk = false then (s.modPort p (fun q => q.sendRtt s.now)).sendPres p else s

/-- NACKs applied in the order of their arrival. -/
def State.applyNacks (s : State) (p : Fin 12) (l : List Data2048) : State :=
  l.foldl (fun (s : State) f => match (s.ports[p] : Port).ackField s.now f with
    | some q => s.modPort p (fun _ => q)
    | none => s.portViolation p) s

/-- FAST_RETRAIN: a fast retrain completes within 40 µs: every lane has locked again, LNK_RTT is measured again and PRES
has been exchanged; the port returns to its state, every unacknowledged flit is sent again from the partner's NEXT on, on
the credits it has taken, and the NACKs that arrived in the retrain are applied (R231). -/
def execFastRetrain (port : Fin 12) (locked : Vector Bool 4) (skew : Vector Byte 4) (s : State) : Out :=
  let q := s.ports[port]
  if q.st = .retrain ∧ locked.all (fun b => b) ∧ skew.all (fun x => decide (x.toNat ≤ 200)) ∧ q.lined ∧ q.rttOk ∧ q.presOk
      ∧ s.now ≤ q.retrainSince + retrainTicks then
    .next ((s.modPort port (fun q =>
      { q with
        st := q.prev, resend := q.replayBuf, credits := q.creditsBack q.replayBuf, lastPres := s.now, nackDue := false
        nackSince := none, heldNack := []
        lanes := Vector.ofFn (fun i => { q.lanes[i] with skew := skew[i], lastMark := s.now }) })).applyNacks port q.heldNack)
  else .next s

/-- FAST_RETRAIN_FAIL: a fast retrain not done within 40 µs falls back to full training (R231). -/
def execFastRetrainFail (port : Fin 12) (s : State) : Out :=
  let q := s.ports[port]
  if q.st = .retrain ∧ q.retrainSince + retrainTicks ≤ s.now then .next (s.modPort port (fun q => q.train s.now true)) else .next s

/-- The ALIGN blocks of a lane follow one another every 6.55 µs (R211). -/
def markTicks : Nat := 1024

/-- LANE_LOCK_LOSS: a lane has missed three consecutive ALIGN blocks and its port enters RETRAIN (R211). -/
def execLaneLockLoss (port : Fin 12) (lane : Fin 4) (s : State) : Out :=
  if s.ports[port].lanes[lane].lastMark + 3 * markTicks ≤ s.now then .next (s.startRetrain port false) else .next s

/-! ### LNK_CTL -/

/-- LNK_EN: EN = 0 turns the port OFF from any state; EN = 1 starts a port that is OFF, which trains afresh with LOOP = 0:
what a stored LOOP does then the manual leaves open (R226, R230; DESIGN CHOICE, log 128). -/
def execLnkEn (port : Fin 12) (en : Bool) (s : State) : Out :=
  if !s.serving then .next s else
  .next (s.modPort port (fun q =>
    if !en then { q.noKeys with en := false, st := .off }
    else if q.st = .off then { (({ q with loop := 0 } : Port).train s.now false) with en := true, st := .training }
    else { q with en := true }))

/-- ADMIT: a write of LNK_CTL.ADMIT asks for admission, or withdraws it, at the next boundary (R227). -/
def execAdmitPort (port : Fin 12) (on : Bool) (s : State) : Out :=
  if !s.serving then .next s else .next (s.modPort port (fun q => { q with admitOn := on }))

/-- CLR_DEGRADED: a DEGRADED port returns to ADMITTED (R230). -/
def execClrDegraded (port : Fin 12) (s : State) : Out :=
  if !s.serving then .next s else
  .next (s.modPort port (fun q => if q.st = .degraded then { q with st := .admitted, starved := Vector.replicate 4 none } else q))

/-- RETRAIN: a write of LNK_CTL.RETRAIN starts a fast retrain unless one runs (R231). -/
def execRetrain (port : Fin 12) (s : State) : Out :=
  if !s.serving then .next s else .next (s.startRetrain port false)

/-- FULL_TRAIN: a write of LNK_CTL.FULL_TRAIN starts full training unless a retrain runs (R214, R231). -/
def execFullTrain (port : Fin 12) (s : State) : Out :=
  if !s.serving then .next s else
  let q := s.ports[port]
  if q.up ∨ q.st = .down then .next (s.modPort port (fun q => q.train s.now false)) else .next s

/-- LOOP: a loopback mode moves the port to TEST; LOOP = 0 moves it from TEST to DOWN; only while ADMIT = 0 and
in OFF, DOWN, LINKED or TEST (R215). -/
def execLoop (port : Fin 12) (mode : BitVec 2) (s : State) : Out :=
  if !s.serving then .next s else
  let q := s.ports[port]
  if q.admitOn ∨ !(q.st == .off || q.st == .down || q.st == .linked || q.st == .test) ∨ mode = q.loop then .next s
  else if mode = 0 then .next ((s.modPort port (fun q => { q with loop := 0 })).portDown port)
  else .next (s.modPort port (fun q =>
    { (({ q with loop := mode, st := .test } : Port).train s.now false) with
      step := if mode = 3 then 0 else 1, lanes := q.lanes.map (fun l =>
        { l with locked := false, rxReady := false, partnerReady := false, readyFrames := 0, sentReady := 0, goodFrames := 0, answer := 0
                 asked := 0, mark := none }) }))

/-- LNK_CNT_CLR: every counter of the port becomes zero (R232). -/
def execLnkCntClr (port : Fin 12) (s : State) : Out :=
  if !s.serving then .next s else .next (s.modPort port (fun q => { q with cnt := {} }))

/-! ### Test patterns (R216) -/

/-- Length and taps of a PRBS pattern. -/
def prbsTaps (k : Nat) : Option (Nat × List Nat) :=
  match k with
  | 1 => some (7, [7, 6]) | 2 => some (9, [9, 5]) | 3 => some (13, [13, 12, 2, 1]) | 4 => some (15, [15, 14])
  | 5 => some (23, [23, 18]) | 6 => some (31, [31, 28]) | _ => none

/-- The next bit of a sequence whose last bits are `st`, newest in bit 0. -/
def prbsNext (taps : List Nat) (st : BitVec 31) : Bool := taps.foldl (fun b t => b != st.getLsbD (t - 1)) false

/-- One received bit compared and counted. -/
def Lane.prbsBit (l : Lane) (taps : List Nat) (b : Bool) : Lane :=
  let want := prbsNext taps l.prbsState
  { l with prbsState := (l.prbsState <<< 1) ||| flagAt 31 0 want, bits := satInc l.bits,
           errs := if want == (b != l.inv) then l.errs else satInc l.errs }

/-- PRBS_CLR: the PRBS counters become zero and the checker synchronises again (R216). -/
def execPrbsClr (port : Fin 12) (lane : Fin 4) (s : State) : Out :=
  if !s.serving then .next s else
  .next (s.modPort port (fun q => { q with lanes := vmod q.lanes lane (fun l => { l with errs := 0, bits := 0, locked := false }) }))

/-- `n` further bits of a sequence, earliest first, and the state after them. -/
def prbsRun (taps : List Nat) (st : BitVec 31) : Nat → List Bool × BitVec 31
  | 0 => ([], st)
  | n + 1 =>
    let b := prbsNext taps st
    let r := prbsRun taps ((st <<< 1) ||| flagAt 31 0 b) n
    (b :: r.1, r.2)

/-- A generator that has no state yet starts from a state that is not zero; which one the manual leaves open (log 3). -/
def Lane.seed (l : Lane) (x : BitVec 31) : Lane :=
  if l.genState = 0 then { l with genState := x ||| 1, loopState := x ||| 1 } else l

/-- Pairs of bits, the first the most significant, Gray-coded to PAM4 levels (R216; log 103). -/
def grayPairs : List Bool → List (Fin 4)
  | a :: b :: l => (if a then (if b then 2 else 3) else if b then 1 else 0) :: grayPairs l
  | _ => []

/-- The symbols of one flit slot of 2.56 ns on a lane whose generator runs: 272 of them (R209, R216). -/
def Lane.genSlot (l : Lane) : Option (Lane × List (Fin 4)) :=
  (prbsTaps l.gen.toNat).map (fun t =>
    let r := prbsRun t.2 l.genState 544
    ({ l with genState := r.2 }, grayPairs (r.1.map (· != l.inv))))

/-- The bits that reach a checker: those of the line, or, in a near-end loop, the next ones of the lane's own generator
(R215). -/
def Lane.heard (l : Lane) (loop : BitVec 2) (bits : BitVec 31) : Option (Lane × List Bool) :=
  if loop = 1 ∨ loop = 2 then
    (prbsTaps l.gen.toNat).map (fun t =>
      let r := prbsRun t.2 l.loopState 31
      ({ l with loopState := r.2 }, r.1.map (· != l.inv)))
  else some (l, ((List.range 31).reverse).map (fun i => bits.getLsbD i))

/-- Bits at a checker: the first ones become its state, every later one is compared and counted. -/
def Lane.check (l : Lane) (n : Nat) (taps : List Nat) (bs : List Bool) : Lane :=
  if l.locked then bs.foldl (fun l b => l.prbsBit taps b) l
  else
    let load := (bs.take n).foldl (fun (v : BitVec 31) b => (v <<< 1) ||| flagAt 31 0 (b != l.inv)) 0
    (bs.drop n).foldl (fun l b => l.prbsBit taps b) { l with locked := true, prbsState := load }

/-- PRBS_CHECKER_LOCK: in TEST a checker loads the bits received first as its state and is LOCKED; it compares and
counts every later one, the earliest bit highest (R216). -/
def execPrbsCheckerLock (port : Fin 12) (lane : Fin 4) (bits : BitVec 31) (s : State) : Out :=
  let q := s.ports[port]
  match prbsTaps q.lanes[lane].chk.toNat with
  | none => .next s
  | some (n, taps) =>
    if q.st ≠ .test then .next s
    else
      let x := s.draw
      match (q.lanes[lane].seed (fld x.1 0 31)).heard q.loop bits with
      | none => .next s
      | some (l, bs) => .next (x.2.modPort port (fun q => { q with lanes := vset q.lanes lane (l.check n taps bs) }))

/-! ### Received control blocks -/

/-- FILL: a received FILL block is deleted above half full, or one more inserted below it (R210). -/
def execFill (port : Fin 12) (blk : Data256) (aboveHalf belowHalf : Bool) (s : State) : Out :=
  s.withBlock port 0x1E blk (fun s => s.modPort port (fun q => q.modCnt (fun c =>
    { c with fillDel := if aboveHalf then satInc c.fillDel else c.fillDel,
             fillIns := if belowHalf && !aboveHalf then satInc c.fillIns else c.fillIns })))

/-- ALIGN: a received ALIGN block names the partner's lane and its marker count; in a fast retrain the lanes lock on them
again (R211, R231). -/
def execAlign (port : Fin 12) (lane : Fin 4) (blk : Data256) (s : State) : Out :=
  s.withBlock port 0x2D blk (fun s => (s.modPort port (fun q =>
    { q with lanes := vmod q.lanes lane (fun l =>
        { l with phys := rfld blk 1 0 2, mark := some (rfld blk 2 0 16), lastMark := s.now }) })).retrainExchange port)

/-- LINK_UP: the partner's new LINK_ID and port number are held (R214, R217); its check is folded with the
LINK_ID that the block carries. -/
def execLinkUp (port : Fin 12) (blk : Data256) (s0 : State) : Out :=
  if cbType blk ≠ 0x33 then .next s0
  else
    let x := s0.lineIn port (.ctl blk)
    let s := x.1.tookBlocks port 1
    if !x.2 then .next x.1
    else if s0.blockGood port blk (rfld blk 1 0 16) then
      if s.ports[port].step = 7 ∧ s.ports[port].inTraining then
        .next ((s.modPort port (fun q =>
          { q with rxId := rfld blk 1 0 16, partnerPort := rfld blk 3 0 4, linkUpRx := true })).linkSteps port)
      else .next s
    else .next (s.modPort port (fun q => q.modCnt (fun c => { c with ctlBad := satInc c.ctlBad })))

/-- The port holds a link, or is past the exchange of LINK_IDs in its training: it takes PRES blocks and answers RTT
requests (R214, R217, R226). -/
def Port.linkUp (p : Port) : Bool := p.up || p.st == .retrain || (p.inTraining && decide (7 ≤ p.step))

/-- PRES: on a port that has its link, the partner's identity, port and beat count; an identity other than the one last
admitted clears ADMIT (R217, R227). -/
def execPres (port : Fin 12) (blk : Data256) (s : State) : Out :=
  s.withBlock port 0x4B blk (fun s =>
    if !s.ports[port].linkUp then s else
    let ident : DWord := rfld blk 1 0 64
    let s1 := s.modPort port (fun q =>
      { q with partner := ident, partnerPort := rfld blk 9 0 4, partnerBeat := some (rfld blk 10 0 64), lastPres := s.now, presOk := true })
    let q := s1.ports[port]
    let s2 := if q.admittedIdent.isSome ∧ q.admittedIdent ≠ some ident then
        (s1.modPort port (fun q => { q with
          admitOn := false, admittedIdent := none, prev := if q.st = .retrain then .linked else q.prev })).lnkEvent port 7
      else s1
    if q.inTraining then s2.linkSteps port else s2)

/-- PRES_SEND: the port sends a PRES block every PERIOD ticks (R230). -/
def execPresSend (port : Fin 12) (s : State) : Out :=
  let q := s.ports[port]
  if (q.up ∨ q.st = .retrain ∨ (q.inTraining ∧ q.step = 8)) ∧ q.lastPresSent + q.presPeriod.toNat ≤ s.now then
    .next (s.sendPres port)
  else .next s

/-- PRES_TIMEOUT: no valid PRES for four periods puts the port in DOWN (R230). -/
def execPresTimeout (port : Fin 12) (s : State) : Out :=
  let q := s.ports[port]
  if q.up ∧ q.lastPres + 4 * q.presPeriod.toNat ≤ s.now then .next (s.portDown port) else .next s

/-- RTT_REQ: the request number is echoed in RTT_RSP at the next block boundary (R217). -/
def execRttReq (port : Fin 12) (blk : Data256) (s : State) : Out :=
  s.withBlock port 0x66 blk (fun s => if !s.ports[port].linkUp then s else
    s.modPort port (fun q => q.sendBlock 0x67 (at_ 256 0 (rfld blk 1 0 16 : BitVec 16))))

/-- RTT_RSP: with the number of the last request, the ticks since it was sent set LNK_RTT (R225). -/
def execRttRsp (port : Fin 12) (blk : Data256) (s : State) : Out :=
  s.withBlock port 0x67 blk (fun s =>
    if rfld blk 1 0 16 ≠ s.ports[port].rttNum then s else
    match s.ports[port].rttSince with
    | some t => (s.modPort port (fun q => { q with rtt := BitVec.ofNat 16 (min 65535 (s.now - t)), rttOk := true, rttSince := none })).linkSteps port
    | none => s)

/-- BAD_CONTROL_BLOCK: a block that fails its check is counted; a good one of a reserved type is a
violation (R217). -/
def execBadControlBlock (port : Fin 12) (blk : Data256) (s0 : State) : Out :=
  let x := s0.lineIn port (.ctl blk)
  let s := x.1.tookBlocks port 1
  if !x.2 then .next x.1
  else if !s0.blockGood port blk s0.ports[port].rxId then
    .next (s.modPort port (fun q => q.modCnt (fun c => { c with ctlBad := satInc c.ctlBad })))
  else if [0x1E, 0x2D, 0x33, 0x4B, 0x55, 0x66, 0x67].contains (cbType blk) then .next s
  else .next (s.portViolation port)

/-- UNCORRECTABLE_CODEWORD: a codeword is decoded; corrected symbols are counted; one that cannot be corrected has its
20 blocks marked bad and counts toward the error-rate retrain (R209, R230). -/
def execUncorrectableCodeword (port : Fin 12) (corrected : Nat) (uncorrectable : Bool) (s : State) : Out :=
  let s1 := s.modPort port (fun q => q.modCnt (fun c =>
    { c with fecCorr := satAdd c.fecCorr corrected, fecUncorr := if uncorrectable then satInc c.fecUncorr else c.fecUncorr }))
  .next (if uncorrectable then (s1.modPort port (fun q => { q with badLeft := 20 })).portError port else s1)

/-! ### Transmission (R219 to R221, R229) -/

/-- VC of a flit type (R220). -/
def typeVc (ty : Nat) : Option Nat :=
  if ty = 1 then some 0
  else if ty = 4 ∨ ty = 5 ∨ ty = 6 then some 1
  else if ty = 8 ∨ ty = 9 ∨ ty = 0xA ∨ ty = 0xC then some 2
  else if ty = 0x10 ∨ ty = 0x11 then some 3
  else none

/-- The check of a flit under a LINK_ID (R219). -/
def flitCheck (f : Data2048) (id : BitVec 16) : Word :=
  crc32c (toBytes f 252 ++ toBytes (at_ 32 0 (flSeq f) ||| at_ 32 16 id) 4)

/-- The virtual channel whose credits go out next. -/
def Port.owedVc (p : Port) : Option (Fin 4) := (List.finRange 4).find? (fun v => decide (0 < p.owed[v]))

/-- The acknowledgement field and check put into a flit as it leaves, and the port after it (R219, R224). -/
def Port.depart (p : Port) (now : Nat) (f : Data2048) : Port :=
  let v := p.owedVc
  let k := match v with
    | some v => min 255 p.owed[v]
    | none => 0
  let w : Word := at_ 32 0 p.rxNext ||| flagAt 32 12 p.nackDue
    ||| (match v with
      | some v => natAt 32 13 v.val ||| natAt 32 15 k
      | none => 0)
  let g := putFld f 1984 w
  let h := putFld g 2016 (flitCheck g p.txId)
  { (p.send (.flit h)) with
    owed := match v with
      | some v => vmod p.owed v (· - k)
      | none => p.owed
    ackDue := false, nackDue := false, nackSince := if p.nackDue then some now else p.nackSince
    cnt := if p.nackDue then { p.cnt with nackTx := satInc p.cnt.nackTx } else p.cnt
    sinceFlit := 0, sinceFill := p.sinceFill + 1, sinceVc2 := if flVc f = 2 ∧ flType f ≠ 0 then 0 else p.sinceVc2 + 1 }

/-- Whether flits of this side are encrypted (R229). -/
def Port.encrypting (p : Port) : Bool := p.encrypt && p.authDone

/-- A flit sealed under the transmit key: 224 payload bytes, tag, ENC (R229); of a flit that fills all 240 bytes the last
16 are dropped, as the manual gives them no place (DESIGN CHOICE, log 129). -/
def Port.seal (p : Port) (f : Data2048) : Port × Data2048 :=
  let g := f ||| BitVec.twoPow 2048 60
  let x := gcmSeal p.txKey (at_ 96 0 p.txSalt ||| at_ 96 32 p.txIv) (toBytes g 8) (slice (toBytes f 256) 8 224)
  ({ p with txIv := p.txIv + 1 }, putFld g 64 ((ofBytes 1920 x.1) ||| at_ 1920 1792 x.2))

/-- A new flit leaves: it takes a sequence number and a credit, and is kept for replay (R220 to R222); one of
this device takes the beat (R23). -/
def Port.transmit (p : Port) (now : Nat) (beat : DWord) (own : Bool) (f : Data2048) : Port :=
  let f1 := putFld f 28 p.txSeq
  let f2 := if own then putFld f1 40 (beat.setWidth 16) else f1
  let x := if p.encrypting ∧ flType f ≠ 0x0C then p.seal f2 else (p, f2)
  let q := { x.1 with
    txSeq := p.txSeq + 1, replayBuf := p.replayBuf ++ [x.2]
    credits := vmod p.credits (Fin.ofNat 4 (flVc f)) (· - 1)
    cnt := { p.cnt with txFlits := satInc p.cnt.txFlits } }
  q.depart now x.2

/-- The context for whose work this device sends a flit: bytes of a conduit of its plan, a request of its stream, an answer
about its memory (R367). -/
def State.flitCtx (s : State) (p : Fin 12) (f : Data2048) : Option Byte :=
  if flSrc f ≠ s.fab.id then none
  else if flType f = 1 then
    (s.plans.find? (fun q => q.resident && (setupEps q.conduits).contains (.port p (Fin.ofNat 8 (flEp f))))).map (·.ctx)
  else if flType f = 4 ∨ flType f = 5 then
    (s.fab.freeOut.find? (fun a => a.tag == (rfld (flPayload f) 8 16 16 : BitVec 16).setWidth 32)).bind (·.ctx)
  else if flType f = 6 then some (rfld (flPayload f) 5 0 8)
  else none

/-- The context of the flit that is about to leave is kept beside the replay buffer, by its SEQ. -/
def Port.noteCtx (p : Port) (ctx : Option Byte) : Port :=
  let kept := p.sentFor.filter (fun x => p.replayBuf.any (fun f => flSeq f == x.1))
  { p with sentFor := match ctx with
      | some c => (p.txSeq, c) :: kept
      | none => kept }

/-- The first waiting flit of a virtual channel that the port's state lets go. -/
def Port.waitingFlit (p : Port) (vc : Nat) : Option (Option (Fin 12) × Data2048) :=
  p.txq.find? (fun e => flVc e.2 == vc && (p.carries || [9, 0xA, 0xC].contains (flType e.2)))

/-- The endpoint whose bytes fill the next SCHED flit: 240 of them (224 under encryption), or what is left. -/
def Port.schedEp (p : Port) : Option (Fin 8) :=
  let full := if p.encrypting then 224 else 240
  match (List.finRange 8).find? (fun e => decide (full ≤ p.txBytes[e].length)) with
  | some e => some e
  | none => (List.finRange 8).find? (fun e => !p.txBytes[e].isEmpty && p.eps[e].word.isNone)

/-- The SCHED flit of an endpoint toward a device (R218, R220). -/
def Port.schedFlit (p : Port) (src dst : BitVec 10) (e : Fin 8) : Data2048 :=
  let full := if p.encrypting then 224 else 240
  let b := p.txBytes[e].take full
  let pl : BitVec 1920 := ofBytes 1920 b ||| (if b.length < full then natAt 1920 (8 * (full - 1)) b.length else 0)
  mkFlit dst src 0 1 e.val (decide (b.length < full)) pl

/-- Credits remain for a virtual channel, and the window is open (R221, R222). -/
def Port.mayNew (p : Port) (vc : Fin 4) : Bool := decide (0 < p.credits[vc]) && decide (p.replayBuf.length < 2047)

/-- What the flit slot sends, in the order of R221. -/
inductive Slot where
  | replay | queued (vc : Fin 4) | sched (e : Fin 8) | null | fill
deriving DecidableEq, Repr

def Port.chooseSlot (p : Port) : Slot :=
  let ready (vc : Fin 4) : Bool := p.mayNew vc && (p.waitingFlit vc.val).isSome
  let sched := if p.carries ∧ p.mayNew 0 then p.schedEp else none
  if 256 ≤ p.sinceFill then .fill
  else if !p.resend.isEmpty then .replay
  else if ready 3 then .queued 3
  else if ready 2 ∧ 63 ≤ p.sinceVc2 then .queued 2
  else if ready 0 then .queued 0
  else match sched with
    | some e => .sched e
    | none =>
      if ready 2 then .queued 2
      else if ready 1 then .queued 1
      else if p.ackDue ∨ p.nackDue ∨ p.owedVc.isSome ∨ 64 ≤ p.sinceFlit then .null
      else .fill

/-- The time since which each virtual channel has waited without credits (R230). -/
def Port.watchCredits (p : Port) (now : Nat) : Port :=
  { p with starved := Vector.ofFn (fun v =>
      let waits := p.txq.any (fun e => flVc e.2 == v.val) || (v.val == 0 && p.txBytes.any (fun b => !b.isEmpty))
      if waits ∧ p.credits[v] = 0 then (match p.starved[v] with
        | some t => some t
        | none => some now) else none) }

/-- The port sends FILL and no flits: taken out of service, in a fast retrain, or from step 5 of training on (R214, R226). -/
def Port.fillOnly (p : Port) : Bool := p.st == .disabled || p.st == .retrain || (p.inTraining && decide (5 ≤ p.step))

/-- A FILL block in a flit slot. -/
def Port.fill (p : Port) : Port :=
  { (p.sendBlock 0x1E 0) with sinceFill := 0, sinceFlit := p.sinceFlit + 1, sinceVc2 := p.sinceVc2 + 1 }

/-- The lanes of a port in TEST whose generators run send their symbols (R216). -/
def Port.sendPrbs (p : Port) (x : BitVec 31) : Port :=
  (List.finRange 4).foldl (fun (p : Port) i =>
    match (p.lanes[i].seed x).genSlot with
    | some r => ({ p with lanes := vset p.lanes i r.1 } : Port).emit (.prbs i r.2)
    | none => p) p

/-- The 8,192 symbols of a training frame: the marker, the three fields most significant bit first as level 0 or 3, and
PRBS13 to the end; the PRBS13 after them (R212). -/
def frameSymbols (control status check : BitVec 16) (fill : BitVec 31) : List (Fin 4) × BitVec 31 :=
  let level (b : Bool) : Fin 4 := if b then 3 else 0
  let field (v : BitVec 16) : List (Fin 4) := (List.range 16).map (fun i => level (bitAt v (15 - i)))
  let r := prbsRun [13, 12, 2, 1] fill 16224
  (List.replicate 16 3 ++ List.replicate 16 0 ++ field control ++ field status ++ field check ++ grayPairs r.1, r.2)

/-- A lane sends one training frame: its request and RX_READY, and its answer to the last request (R212 to R214); where
the PRBS13 starts the manual leaves open (log 3). -/
def Port.sendFrame (p : Port) (i : Fin 4) (x : BitVec 17) : Port :=
  let l := p.lanes[i]
  let ask : BitVec 10 := if 3 ≤ p.step then l.request (fld x 0 4) else 0
  let c := flagAt 16 10 l.rxReady ||| at_ 16 0 ask
  let fill : BitVec 31 := if l.fillState = 0 then at_ 31 0 (fld x 4 13 : BitVec 13) ||| 1 else l.fillState
  ({ p with lanes := vset p.lanes i { l with
      asked := l.asked ||| ask, answer := 0, sentReady := if l.rxReady then l.sentReady + 1 else l.sentReady
      fillState := (frameSymbols c l.answer (frameCheck c l.answer) fill).2 } } : Port).emit
    (.frame i c l.answer (frameCheck c l.answer) fill)

/-- Every lane of a port in steps 1 to 4 of its training sends a training frame (R212, R214). -/
def Port.sendFrames (p : Port) (x : BitVec 512) (now : Nat) : Port :=
  ((List.finRange 4).foldl (fun (p : Port) i => p.sendFrame i (fld x (32 * i.val) 17)) p).equalised now

/-- The port's lanes send training frames. -/
def Port.framing (p : Port) : Bool := p.inTraining && decide (1 ≤ p.step) && decide (p.step ≤ 4)

/-- FLIT_TRANSMIT: one flit slot: the first ready flit by priority, or FILL; test patterns in TEST, and a training frame
on every lane in steps 1 to 4 of training (R210, R212, R216, R220 to R224, R226). -/
def execFlitTransmit (port : Fin 12) (s : State) : Out :=
  let q0 := s.ports[port]
  if q0.prbsOn then
    let x := s.draw
    .next (x.2.modPort port (fun q => q.sendPrbs (fld x.1 0 31)))
  else if q0.framing then
    let x := s.draw
    .next (x.2.modPort port (fun q => q.sendFrames x.1 s.now))
  else if q0.fillOnly then .next (s.modPort port Port.fill)
  else if !q0.up then .next s
  else
    let q := ((List.finRange 8).foldl (fun (q : Port) e => q.absorb e) q0).watchCredits s.now
    let s0 := s.modPort port (fun _ => q)
    let done (s : State) : Out := .next (s.modPort port (fun q => q.watchCredits s.now))
    match q.chooseSlot with
    | .replay =>
      match q.resend with
      | [] => done s0
      | f :: rest => done (s0.modPort port (fun q =>
          ({ q with resend := rest, credits := vmod q.credits (Fin.ofNat 4 (flVc f)) (· - 1) } : Port).depart s.now f))
    | .queued vc =>
      match q.waitingFlit vc.val with
      | none => done s0
      | some e =>
        let s1 := s0.modPort port (fun q =>
          (({ q with txq := q.txq.erase e } : Port).noteCtx (if e.1.isNone then s.flitCtx port e.2 else none)).transmit
            s.now s.glb.beatCnt e.1.isNone e.2)
        done (match e.1 with
          | some a => s1.modPort a (fun q => q.release vc)
          | none => s1)
    | .sched e =>
      let d := s0.draw
      let f := q.schedFlit s.fab.id (fld d.1 0 10) e
      done (d.2.modPort port (fun q =>
        (({ q with txBytes := vmod q.txBytes e (·.drop (if q.encrypting then 224 else 240)) } : Port).noteCtx (s.flitCtx port f)).transmit
          s.now s.glb.beatCnt true f))
    | .null => done (s0.modPort port (fun q => q.depart s.now (at_ 2048 28 q.txSeq)))
    | .fill => done (s0.modPort port Port.fill)

/-- NACK_REPEAT: t_replay has passed without the expected flit and the NACK is sent again (R224). -/
def execNackRepeat (port : Fin 12) (s : State) : Out :=
  let q := s.ports[port]
  match q.nackSince with
  | some t => if t + q.tReplay ≤ s.now then .next (s.modPort port (fun q => { q with nackDue := true, nackSince := none })) else .next s
  | none => .next s

/-- CREDIT_TIMEOUT: a virtual channel has waited without credits for LNK_CREDIT_TO ticks: DEGRADED (R230). -/
def execCreditTimeout (port : Fin 12) (vc : Fin 4) (s : State) : Out :=
  let q := s.ports[port].watchCredits s.now
  match q.starved[vc] with
  | some t =>
    if q.st = .admitted ∧ t + q.creditTo.toNat ≤ s.now then
      .next ((s.modPort port (fun q => { q with st := .degraded })).lnkEvent port 1)
    else .next s
  | none => .next s

/-! ### Reception (R223, R224) -/

/-- The NACK rule: one NACK until the expected flit arrives or t_replay passes (R224). -/
def Port.noteGap (p : Port) : Port := if p.nackSince.isSome then p else { p with nackDue := true }

/-- A header of R218 and R220 without reserved values; a NULL flit has no VC, and its VC bits may hold any value (DESIGN
CHOICE, log 126). -/
def headerOk (f : Data2048) : Bool :=
  nfld f 61 3 == 0 && nfld f 2007 9 == 0 && (flType f == 0 || typeVc (flType f) == some (flVc f))

/-- The flit opened under the receive key; `none` on a tag failure (R229). -/
def Port.unseal (p : Port) (f : Data2048) : Option (Port × Data2048) :=
  let b := toBytes f 256
  match gcmOpen p.rxKey (at_ 96 0 p.rxSalt ||| at_ 96 32 p.rxIv) (toBytes f 8) (slice b 8 224) (ofBytes 128 (slice b 232 16)) with
  | some pt =>
    some ({ p with rxIv := p.rxIv + 1 }, (putFld f 64 (ofBytes 1920 pt)) &&& ~~~(BitVec.twoPow 2048 60))
  | none => none

/-- The valid payload bytes of a flit that arrived in the clear or was opened (R218). -/
def flitBytes (f : Data2048) (sealed : Bool) : List Byte :=
  let full := if sealed then 224 else 240
  let b := slice (toBytes f 256) 8 full
  if flShort f then b.take (min (full - 1) (nfld f (64 + 8 * (full - 1)) 8)) else b

/-- A port that drops probes: authentication is required and not complete (R235). -/
def State.probeShut (s : State) (port : Fin 12) : Bool := s.ports[port].conf && !s.ports[port].authDone

/-- A probe dropped and counted (R235, R237). -/
def State.dropProbe (s : State) : State := s.modFab (fun b => { b with probeDrop := satInc b.probeDrop })

/-- A flit that passed every step reaches its handler, its endpoint, or its next hop (R220, R234, R235, R240); it holds its
receive buffer until it has left it (R221, R242). -/
def State.deliverFlit (s : State) (p : Fin 12) (f : Data2048) (sealed : Bool) : State :=
  let ty := flType f
  let vc : Fin 4 := Fin.ofNat 4 (flVc f)
  let hold (s : State) : State := s.modPort p (fun q => { q with held := vmod q.held vc (· + 1) })
  let inbox (s : State) : State := (hold s).modFab (fun b => { b with inbox := b.inbox ++ [(p, f)] })
  let ret (s : State) : State := s.modPort p (fun q => { q with owed := vmod q.owed vc (· + 1) })
  let s1 := s.modPort p (fun q => q.modCnt (fun c => { c with rxFlits := satInc c.rxFlits }))
  if (ty = 9 ∨ ty = 0xA) ∧ s.probeShut p then (ret s1).dropProbe
  else if ty = 9 ∨ ty = 0xA ∨ ty = 0xC then inbox s1
  else if !s.fab.idValid then ret s1
  else if flDst f = s.fab.id then
    if ty = 1 then
      let e : Fin 8 := Fin.ofNat 8 (flEp f)
      let b := flitBytes f sealed
      -- a flit for an endpoint of no conduit is dropped and counted (R370)
      if !((s.ports[p].eps[e] : Endpoint).en) then (ret s1).modSec (fun c => { c with refuseCnt := satInc c.refuseCnt })
      else (hold s1).modPort p (fun q =>
        ({ q with rxBytes := vmod q.rxBytes e (· ++ b), rxLens := vmod q.rxLens e (· ++ [b.length]) } : Port).offer e)
    else inbox s1
  else
    let x := (hold s1).sendTo (some p) f
    if x.2 then (x.1.modPort p (fun q => q.release vc)).noteRouteDrop else x.1.modFab (fun b => { b with fwdCnt := satInc b.fwdCnt })

/-- Steps 5 to 9 of R223 on a flit whose number is accepted; an encrypted flit that is not opened still counts in its
direction (R229).  One with ENC = 1 while the port holds no keys is taken as a protocol violation (DESIGN CHOICE,
log 127). -/
def State.screenFlit (s0 : State) (p : Fin 12) (f : Data2048) : State :=
  let s := if flEnc f ∧ !headerOk f then s0.modPort p (fun q => { q with rxIv := q.rxIv + 1 }) else s0
  let q := s.ports[p]
  let ret (s : State) : State := s.modPort p (fun q => { q with owed := vmod q.owed (Fin.ofNat 4 (flVc f)) (· + 1) })
  if !headerOk f then (ret s).portViolation p
  else if flEnc f ∧ !q.authDone then (ret s).portViolation p
  else if q.encrypting ∧ flType f ≠ 0x0C ∧ !flEnc f then s.portAuthFail p
  else
    match (if flEnc f then q.unseal f else some (q, f)) with
    | none => s.portAuthFail p
    | some (q1, g) =>
      let s1 := s.modPort p (fun _ => q1)
      if !q.carries ∧ !([9, 0xA, 0xC].contains (flType g)) then
        ret (s1.modPort p (fun q => q.modCnt (fun c => { c with preadmitDrop := satInc c.preadmitDrop })))
      else if !(q.permit[(Fin.ofNat 32 ((flSrc g).toNat / 32))]).getLsbD ((flSrc g).toNat % 32) then
        (ret (s1.modPort p (fun q => q.modCnt (fun c => { c with filterDrop := satInc c.filterDrop })))).lnkEvent p 4
      else if flBeat g - s.glb.beatCnt.setWidth 16 = 0x8000 then ((ret s1).lnkEvent p 8).startRetrain p false
      else s1.deliverFlit p g (flEnc f)

/-- FLIT_RECEIVE: a received flit is handled in the order of R223; in a fast retrain NACKs are kept (R231). -/
def execFlitReceive (port : Fin 12) (flit : Data2048) (badBlock : Bool) (s0 : State) : Out :=
  let x := s0.lineIn port (.flit flit)
  let s := x.1.tookBlocks port 8
  let q := s.ports[port]
  let bad : Bool := badBlock || decide (0 < x.1.ports[port].badLeft) || flitCheck flit q.rxId != flCheck flit
  if !x.2 then .next x.1
  else if q.st = .retrain then
    .next (if !bad && flNack flit then s.modPort port (fun q => { q with heldNack := q.heldNack ++ [flit] }) else s)
  else if !q.up then .next s
  else if bad then
    .next ((s.modPort port (fun q => (q.modCnt (fun c => { c with crcErr := satInc c.crcErr })).noteGap)).portError port)
  else
    let null := flType flit = 0
    let d := (flSeq flit - q.rxNext).toNat
    if !null ∧ 1 ≤ d ∧ d ≤ 2047 then .next (s.modPort port Port.noteGap)
    else if !null ∧ 2049 ≤ d then .next (s.modPort port (fun q => q.modCnt (fun c => { c with dup := satInc c.dup })))
    else if !null ∧ d = 2048 then .next (s.portViolation port)
    else
      let s1 := if null then s else s.modPort port (fun q =>
        { q with rxNext := q.rxNext + 1, ackDue := true, nackDue := false, nackSince := none })
      let s2 := match s1.ports[port].ackField s.now flit with
        | some q1 => s1.modPort port (fun _ => q1)
        | none => s1.portViolation port
      if null then .next (if headerOk flit then s2 else s2.portViolation port)
      else if s2.ports[port].st = .disabled then .next s2
      else .next (s2.screenFlit port flit)

/-! ### Admission at a boundary (R227) -/

/-- The difference of two beat counts lies within 32,767. -/
def beatsNear (a b : DWord) : Bool := (a.toNat - b.toNat) + (b.toNat - a.toNat) ≤ 32767

/-- ADMIT = 0 takes the port out of the fabric at the next boundary (R227). -/
def Port.leaving (p : Port) : Bool := (p.st == .admitted || p.st == .degraded) && !p.admitOn

/-- One port at a beat boundary: admitted once its conditions hold, or back to LINKED when ADMIT is 0. -/
def Port.atBoundary (p : Port) (beatCnt : DWord) : Port :=
  let q := { p with replaysInBeat := 0 }
  if p.st = .linked ∧ p.admitOn ∧ p.loop = 0 ∧ (!p.conf || p.authDone)
      ∧ (p.partnerBeat.map (fun b => beatsNear b beatCnt)).getD false then
    { q with st := .admitted, admittedIdent := some p.partner }
  else if p.leaving then { q with st := .linked, txq := p.txq.filter (fun e => flVc e.2 == 2), txBytes := Vector.replicate 8 [] }
  else q

/-- Flits of other ports that a port discards as it leaves the fabric give their receive buffers free (R227, R242). -/
def State.freeForwarded (s : State) (p : Fin 12) : State :=
  let q := s.ports[p]
  if q.leaving then
    (q.txq.filter (fun e => flVc e.2 != 2)).foldl (fun (s : State) e => match e.1 with
      | some a => s.modPort a (fun q => q.release (Fin.ofNat 4 (flVc e.2)))
      | none => s) s
  else s

end Sys2Proof.Machine
end

