-- ==== Sys2Proof/Machine/Geyser.lean ====
section
/-! DEFINITION. The geyser source and its tree: announcement, emission and reception of pulses, reports
and stop notices (R22 to R28, R243 to R254). -/

namespace Sys2Proof.Machine

/-! ### The next pulse of the source (R27, R28, R245) -/

/-- The beat that the last pulse known here opens, and the period of that beat. -/
def Glb.lastBeat (g : Glb) : DWord := ((g.pulses.getLast?).map (·.beat)).getD g.beatCnt
def Glb.lastPeriod (g : Glb) : BitVec 16 := ((g.pulses.getLast?).map (·.period)).getD g.period

/-- The emission tick of the next pulse: max(N, L) + S after the last emission (R27). -/
def Glb.nextEmission (g : Glb) : Nat :=
  match g.source.announced with
  | some p => p.due
  | none => g.source.lastEmit + max g.lastPeriod.toNat g.source.squallL + g.source.stretchS

/-- The next pulse as the source announces or emits it (R244, R250, R251, R254). -/
def Glb.nextPulse (g : Glb) (src : BitVec 10) : Pulse :=
  let beat := g.lastBeat + 1
  let mine := g.source.sets.filter (fun x => x.1 == beat)
  { beat := beat
    due := g.nextEmission
    stretched := decide (0 < g.source.stretchS) || decide (g.lastPeriod.toNat < g.source.squallL)
    handover := mine.findSome? (fun x => x.2.2)
    stop := g.source.notices.head?
    period := ((mine.filter (fun x => x.2.1 != 0)).getLast?.map (fun x => x.2.1)).getD g.lastPeriod
    srcId := src }

/-- A pulse announced: later reports count for the pulse after it, its stop notice is placed and its
settings are used (R245, R250, R254). -/
def Source.announce (o : Source) (p : Pulse) : Source :=
  { o with announced := some p, secondSent := false, notices := o.notices.drop 1, sets := o.sets.filter (fun x => x.1 != p.beat) }

/-- Contents of a GEYSER block, from byte 1 on (R244). -/
def geyserBody (p : Pulse) (remain : Nat) : Data256 :=
  flagAt 256 0 p.stretched ||| flagAt 256 1 p.handover.isSome ||| flagAt 256 2 p.stop.isSome
    ||| (match p.stop with
        | some (k, h) => at_ 256 3 k ||| at_ 256 144 h
        | none => 0)
    ||| at_ 256 8 p.srcId ||| at_ 256 24 p.beat ||| natAt 256 88 (remain % 2 ^ 24) ||| at_ 256 112 p.period
    ||| (match p.handover with
        | some n => at_ 256 128 n
        | none => 0)

/-- GEYSER blocks are sent on this port: it is an output port and admitted (R243). -/
def State.geyserOut (s : State) (p : Fin 12) : Bool :=
  s.fab.outMask.getLsbD p.val && (s.ports[p].st == .admitted || s.ports[p].st == .degraded)

/-- A GEYSER block on every output port (R243). -/
def State.sendGeyser (s : State) (body : Data256) : State :=
  (List.finRange 12).foldl (fun s p => if s.geyserOut p then s.modPort p (fun q => q.sendBlock 0x55 body) else s) s

/-- GEYSER_BLOCK_SEND: FAB_GEYSER_DELAY ticks before an emission the source sends the pulse's block; with an
empty OUT_MASK it sends none (R243, R245). -/
def execGeyserBlockSend (s : State) : Out :=
  if s.running ∧ s.glb.isSource ∧ s.fab.outMask ≠ 0 ∧ s.glb.source.announced = none
      ∧ s.glb.pulses.all (fun p => (s.heirOf p).isNone)
      ∧ s.glb.nextEmission ≤ s.now + s.fab.delay.toNat then
    let p := s.glb.nextPulse s.fab.id
    .next ((s.modGlb (fun g => { g with source := g.source.announce p })).sendGeyser
      (geyserBody p (16 * s.fab.delay.toNat)))
  else .next s

/-- GEYSER_COPY_SEND: the second copy, 16 ticks after the first, with REMAIN reduced by 256 (R245). -/
def execGeyserCopySend (s : State) : Out :=
  match s.glb.source.announced with
  | some p =>
    if s.glb.isSource ∧ !s.glb.source.secondSent ∧ p.due + 16 ≤ s.now + s.fab.delay.toNat then
      .next ((s.modGlb (fun g => { g with source := { g.source with secondSent := true } })).sendGeyser
        (geyserBody p (16 * s.fab.delay.toNat - 256)))
    else .next s
  | none => .next s

/-- PULSE_EMISSION: the source's next pulse takes effect at the source (R24, R245).  After the pulse that hands the role
over the source emits no more (R250). -/
def execPulseEmission (s : State) : Out :=
  let g := s.glb
  if s.running ∧ g.isSource ∧ g.pulses.all (fun p => (s.heirOf p).isNone) ∧ g.nextEmission ≤ s.now then
    let p := g.source.announced.getD (g.nextPulse s.fab.id)
    let o := if g.source.announced.isSome then g.source else g.source.announce p
    .next (s.modGlb (fun g => { g with
      pulses := g.pulses ++ [p]
      source := { o with announced := none, secondSent := false, lastEmit := p.due, stretchS := o.stretchT, squallL := o.squallM,
                         stretchT := 0, squallM := 0 } }))
  else .next s

/-! ### Reports (R27, R28, R250, R252) -/

/-- The source's next pulse takes no further report: its first copy has left, or the time of it has come; with an empty
OUT_MASK no copy leaves before the emission (R27, R243, R245). -/
def State.pulseFixed (s : State) : Bool :=
  s.glb.source.announced.isSome
    || decide (s.glb.nextEmission ≤ s.now + (if s.fab.outMask = 0 then 0 else s.fab.delay.toNat))

/-- A report reaches this source: a hold D, and a squall length L. -/
def State.applyReport (s : State) (d l : Nat) : State :=
  if s.heir.isSome then s.modFab (fun b => { b with ignored := satInc b.ignored })
  else if s.pulseFixed then
    s.modGlb (fun g => { g with source := { g.source with stretchT := max g.source.stretchT d, squallM := max g.source.squallM l } })
  else
    s.modGlb (fun g => { g with source := { g.source with stretchS := max g.source.stretchS d, squallL := max g.source.squallL l } })

/-- A hold of this device reported for its boundary (R27). -/
def State.reportHold (s : State) (beat : DWord) (d : Nat) : State :=
  if s.glb.isSource then s.applyReport d 0 else s.report 0x10 (stretchPayload beat d s.fab.id none)

/-- The squall length of this device reported for the next beat (R28). -/
def State.reportSquall (s : State) (l : Nat) : State :=
  if s.glb.isSource then s.applyReport 0 l else s.report 0x11 (stretchPayload s.glb.beatCnt l s.fab.id none)

/-- A STRETCH or SQUALL flit at a device that is, or was, the source. -/
def State.takeReport (s : State) (pl : BitVec 1920) (squall : Bool) : State :=
  let ticks := rnum pl 8 0 32
  let stop : Bool := !squall && bitAt pl 112
  if !s.glb.isSource then
    if stop then s.report 0x10 pl else s.modFab (fun b => { b with ignored := satInc b.ignored })
  else if stop then
    match s.heir with
    | some n => s.forwardNotice n pl
    | none => s.modGlb (fun g => { g with source := { g.source with notices := g.source.notices ++ [(fld pl 113 2, fld pl 128 16)] } })
  else if squall then s.applyReport 0 ticks
  else s.applyReport ticks 0

/-- STRETCH_RECEIVE: the source takes a hold D or a stop notice; after a hand-over reports are counted as
ignored and stop notices go on to the new source (R27, R250, R254). -/
def execStretchReceive (s : State) : Out :=
  let x := takeFlit (fun e => flType e.2 == 0x10) s.fab.inbox
  match x.1 with
  | none => .next s
  | some (p, f) => .next ((s.tookFlit x.2 p f).takeReport (flPayload f) false)

/-- SQUALL_RECEIVE: the source takes a squall length L (R28, R250). -/
def execSquallReceive (s : State) : Out :=
  let x := takeFlit (fun e => flType e.2 == 0x11) s.fab.inbox
  match x.1 with
  | none => .next s
  | some (p, f) => .next ((s.tookFlit x.2 p f).takeReport (flPayload f) true)

/-! ### Reception of pulses (R243, R246 to R249) -/

/-- Whether a plan runs on this device (R117). -/
def State.runsAnyPlan (s : State) : Bool := s.plans.any (fun p => p.resident && (p.started || p.run == .suspended))

/-- The pulse that a received block describes (R244). -/
def blockPulse (blk : Data256) (due : Nat) : Pulse :=
  { beat := rfld blk 4 0 64, due := due, stretched := bitAt blk 8
    handover := if bitAt blk 9 then some (rfld blk 17 0 10) else none
    stop := if bitAt blk 10 then some (fld blk 11 2, rfld blk 19 0 16) else none
    period := rfld blk 15 0 16, srcId := rfld blk 2 0 10 }

/-- Boundaries whose pulses did not arrive: each takes effect one tick before the next (R247). -/
def missedPulses (last : DWord) (p : Pulse) (period : BitVec 16) : Nat → List Pulse
  | 0 => []
  | k + 1 => { beat := last + 1, due := p.due, period := period } :: missedPulses (last + 1) { p with due := p.due + 1 } period k

/-- A valid block on the input port: the pulse is scheduled, the boundaries missed before it too, and the
block goes on down the tree (R246, R247, R248). -/
def State.actOnPulse (s : State) (port : Fin 12) (blk : Data256) : State :=
  let r : Int := (rnum blk 12 0 24 : Int) - 8 * (s.ports[port].rtt.toNat : Int)
  let due := s.now + ((r + 8) / 16).toNat
  let p := blockPulse blk due
  let fwd (s : State) : State := s.sendGeyser ((putFld blk 96 (BitVec.ofNat 24 r.toNat)) >>> 8 &&& (BitVec.allOnes 216).setWidth 256)
  let late (s : State) : State := if r ≤ 0 then s.fabEvent 0 port.val else s
  if s.glb.isSource then
    if s.runsAnyPlan then s.fabEvent 3 port.val
    else
      let s1 := s.modGlb (fun g => { g with
        isSource := false, pulses := g.pulses ++ [{ p with load := true }], source := {} })
      let s2 := s1.modFab (fun b => { b with src := p.srcId, lastGeyser := s.now })
      fwd (late (s2.fabEvent 2 port.val))
  else
    let last := s.glb.lastBeat
    let k := (p.beat - last).toNat
    if k = 0 ∨ 2 ^ 63 ≤ k then fwd (s.modFab (fun b => { b with lastGeyser := s.now }))
    else
      let ms := missedPulses last p s.glb.lastPeriod (k - 1)
      let s1 := s.modGlb (fun g => { g with pulses := g.pulses ++ ms ++ [{ p with due := due + (k - 1) }] })
      let s2 := s1.modFab (fun b => { b with miss := satAdd b.miss (k - 1), lastGeyser := s.now })
      fwd (late s2)

/-- GEYSER_RECEIVE: a GEYSER block arrives (R243, R246 to R248). -/
def execGeyserReceive (port : Fin 12) (blk : Data256) (s : State) : Out :=
  s.withBlock port 0x55 blk (fun s =>
    if !s.ports[port].carries then s
    else if s.fab.inValid ∧ s.fab.inPort.toNat = port.val then s.actOnPulse port blk
    else s.modFab (fun b => { b with ignored := satInc b.ignored }))

/-- A plan at the loss of the geyser beat: it stops at the next local boundary, which the notice that it has sent will not
name any more (R249). -/
def State.loseGeyser (s : State) (h : PlanId) : State :=
  match s.findPlan h with
  | some p =>
    if p.stop.isSome ∧ !p.stopDue ∧ (p.run = .running ∨ p.run = .waiting) then
      (s.modPlan h (fun q => { q with stopDue := true })).stopIfHeld h
    else s.planStop h .geyserLost 0
  | none => s

/-- GEYSER_TIMEOUT: no GEYSER block for FAB_GEYSER_TO ticks: the device is its own source, and its plans stop at
the next boundary (R24, R249). -/
def execGeyserTimeout (s : State) : Out :=
  if !s.glb.isSource ∧ s.fab.lastGeyser + s.fab.geyserTo.toNat ≤ s.now then
    let s1 := s.modGlb (fun g => { g with isSource := true, source := { lastEmit := s.now } })
    let s2 := s1.fabEvent 1 s.fab.inPort.toNat
    .next (s2.plans.foldl (fun s p => s.loseGeyser p.handle) s2)
  else .next s

end Sys2Proof.Machine
end

