-- ==== Sys2Proof/Machine/CalPower.lean ====
section
/-! DEFINITION. Power gating, wake and zeroing of a caldera (R103, R127, R128) and the pace minimum (R19). -/

namespace Sys2Proof.Machine

/-- A check unit at its reset state, but for its sticky flags (R12). -/
def Chk.sticky (k : Chk) : Chk := { overrun := k.overrun, paramErr := k.paramErr }

/-- What a zeroing does to one caldera; at a wake the exception log, its drop count and XLOG_OVF stay
(R103).  Cleared address generators and check units hold the reset values of their registers (log 111). -/
def Caldera.zeroed (c : Caldera) (wake : Bool) : Caldera :=
  { c with
    sram := []
    arrs := c.arrs.map (fun a =>
      { a with acc := [], slotA := {}, slotB := {}, gen := 0x9E3779B9#32 })
    dsp := { c.dsp with v := Vector.replicate 32 0, ag := Vector.replicate 16 {}, seed := 0x9E3779B9#32 }
    chk := c.chk.map Chk.sticky
    xlog := if wake then c.xlog else c.xlog.clear
    xlogOvf := wake && c.xlogOvf }

/-- ZEROING_COMPLETE: the zeroing engine finishes; a waking caldera is awake (R103, R127). -/
def execZeroingComplete (cal : Fin 64) (s : State) : Out :=
  let c := s.cals[cal]
  if c.zeroing then
    .next (s.noteLate.modCal cal (fun c => { c.zeroed c.waking with zeroing := false, waking := false }))
  else .next s

/-- The wake of a gated caldera begins; nothing on one that is not gated (R127). -/
def Caldera.startWake (c : Caldera) : Caldera :=
  if c.gated then { c with gated := false, waking := true } else c

/-- Whether a GATE request is refused (R127). -/
def State.gateRefused (s : State) (n : Fin 64) (withWake : Bool) : Bool :=
  let c := s.cals[n]
  withWake || s.plans.any (fun p => p.names n) || c.waking || c.zeroing

/-- GATE: a request to gate a caldera, accepted or refused with GATE_REFUSED; a WAKE in the same write
acts as it would alone (R127). -/
def execGate (cal : Fin 64) (withWake : Bool) (s : State) : Out :=
  if !s.serving then .next s else
  if s.gateRefused cal withWake then
    .next (s.modCal cal (fun c =>
      let c1 := { c with gateRefused := true }
      if withWake then c1.startWake else c1))
  else .next (s.modCal cal (fun c => { c with gatePending := !c.gated }))

/-- The registers of a DSP unit that gating neither keeps nor clears, at open values; its sticky flags stay (R12), and
the unit is idle (R127; log 24). -/
def Dsp.unkept (d : Dsp) (x : BitVec 512) : Dsp :=
  { d with
    faultCause := fld x 4 4, srchNone := bitAt x 8
    mode := fld x 16 3, pc := fld x 32 24, progBase := fld x 64 24, faultPc := fld x 96 24, faultAg := fld x 120 4
    waiting := false, busy := false, stopped := false, waitBeats := 0, owed := 0, srch := none, occ := none, occCnt := 0 }

/-- GATE_EFFECT: an accepted GATE takes effect and the caldera's contents are lost (R127; log 24). -/
def execGateEffect (cal : Fin 64) (s : State) : Out :=
  if s.cals[cal].gatePending then
    let x := s.draw
    .next (x.2.modCal cal (fun c =>
      { (c.zeroed true) with gated := true, gatePending := false, dsp := (c.zeroed true).dsp.unkept x.1 }))
  else .next s

/-- WAKE: a gated caldera's power switches turn on (R127). -/
def execWake (cal : Fin 64) (s : State) : Out :=
  if !s.serving then .next s else .next (s.modCal cal Caldera.startWake)

/-- WAKE_POWER_ON: the staged turn-on ends and the zeroing engine starts (R127). -/
def execWakePowerOn (cal : Fin 64) (s : State) : Out :=
  if s.cals[cal].waking then .next (s.modCal cal (fun c => { c with zeroing := true })) else .next s

/-- PACE_MIN_CLR: CAL_PACE_MIN becomes all ones (R19). -/
def execPaceMinClr (cal : Fin 64) (s : State) : Out :=
  if !s.serving then .next s else
  .next (s.modCal cal (fun c => { c with paceMin := 0xFFFFFFFF#32 }))

end Sys2Proof.Machine
end

