-- ==== Sys2Proof/Machine/PlanImage.lean ====
section
/-! DEFINITION. Plan images and the checks that LOAD_PLAN makes on them (R25, R42, R46, R48, R100, R101,
R106, R107, R134, R139, R140, R144, R156, R158, R181, R283, R326, R329, R373). -/

namespace Sys2Proof.Machine

/-- The first failed check of a list: the image offset of the field in error (R288). -/
def firstBad (l : List (Bool × Nat)) : Option Nat := (l.find? (fun x => x.1)).map (fun x => x.2)

/-! ### Header and sections (R283) -/

def imgWord (img : List Byte) (off : Nat) : Nat := (ofBytes 32 (slice img off 4)).toNat
def imgHalf (img : List Byte) (off : Nat) : Nat := (ofBytes 16 (slice img off 2)).toNat
def imgDWord (img : List Byte) (off : Nat) : DWord := ofBytes 64 (slice img off 8)

/-- A section entry, with the offset of the entry itself. -/
structure Sect where
  ty : Nat
  cal : Fin 64
  off : Nat
  len : Nat
  addr : Nat
  entry : Nat
  rsvd : Bool
deriving DecidableEq, Repr

def planSect (img : List Byte) (i : Nat) : Sect :=
  let e := 0x40 + 16 * i
  let w0 := imgWord img e
  let w3 := imgWord img (e + 12)
  { ty := w0 % 256, cal := Fin.ofNat 64 (w0 / 256), off := imgWord img (e + 4), len := imgWord img (e + 8), addr := w3 % 2 ^ 24
    entry := e, rsvd := decide (2 ^ 14 ≤ w0) || decide (2 ^ 24 ≤ w3) }

def planSects (img : List Byte) : List Sect := (List.range (imgHalf img 0x1C)).map (planSect img)

/-- The CRC-32C of the image with its CHECK field read as 0. -/
def planCheck (img : List Byte) : Word := crc32c (img.take 0x24 ++ [0, 0, 0, 0] ++ img.drop 0x28)

/-- Checks 1 to 4 of R283: header, floor pace, calderas in the partition, section entries. -/
def planHeadBad (img : List Byte) (len : Nat) (floor : BitVec 16) (part : DWord) : Option Nat :=
  let cals := imgDWord img 0x10
  let ss := planSects img
  let single := fun (x : Sect) => x.ty == 2 || x.ty == 6 || x.ty == 7
  firstBad ([
    (imgWord img 0 != 0x4C505642, 0), (imgHalf img 4 != 1, 4), (imgWord img 0x20 != len, 0x20),
    ((planCheck img).toNat != imgWord img 0x24, 0x24),
    (decide (imgHalf img 8 = 0 ∨ 1024 < imgHalf img 8 ∨ imgHalf img 0xA ≠ 0), 8), (imgHalf img 0xE != 0, 0xE),
    (imgWord img 0x18 == 0, 0x18), (imgHalf img 0x1E != 0, 0x1E), (decide (len < 0x40 + 16 * imgHalf img 0x1C), 0x1C),
    ((List.range 6).any (fun i => imgWord img (0x28 + 4 * i) != 0), 0x28),
    (decide (floor.toNat < imgHalf img 0xC), 0x0C), ((cals &&& ~~~part) != 0, 0x10)]
  ++ ss.flatMap (fun x => [
    (x.ty == 0 || decide (7 < x.ty) || x.rsvd, x.entry), (!cals.getLsbD x.cal.val, x.entry),
    (single x && ss.any (fun y => y.ty == x.ty && y.cal == x.cal && decide (y.entry < x.entry)), x.entry),
    (decide (len < x.off + x.len), x.entry + 4),
    (decide ((x.ty = 2 ∧ x.len ≠ 256) ∨ (x.ty = 4 ∧ x.len % 8 ≠ 0) ∨ (x.ty = 6 ∧ x.len ≠ 264) ∨ (x.ty = 7 ∧ x.len ≠ 396)), x.entry + 8),
    (x.ty == 3 && decide (sramSize < x.addr + x.len), x.entry + 12)]))

/-! ### What the sections hold -/

/-- An instruction of a plan with the image offset of it, or of the stage record that places it. -/
structure Placed where
  off : Nat
  q : QInstr
deriving DecidableEq, Repr

/-- The instructions of a queue section, none where it holds no list of them (log 26). -/
def sectQueue (img : List Byte) (x : Sect) : Option (List Placed) :=
  (Config.queueEntries (slice img x.off x.len)).map (List.map (fun e => { off := x.off + e.1, q := { beat := e.2.1, raw := e.2.2 } }))

/-- Pairs of a conduit section: BAR0 address and value. -/
def sectConduits (img : List Byte) (x : Sect) : List (Word × Word) :=
  (List.range (x.len / 8)).map (fun i => (BitVec.ofNat 32 (imgWord img (x.off + 8 * i)), BitVec.ofNat 32 (imgWord img (x.off + 8 * i + 4))))

/-- A fused chain with the image offset of its header (R156). -/
structure Chain where
  off : Nat
  hdr : BitVec 128
  stages : List (BitVec 256)
deriving DecidableEq, Repr

/-- The chains of a section: none where its bytes end inside one. -/
def sectChains (img : List Byte) : Nat → Nat → Nat → Option (List Chain)
  | 0, _, left => if left = 0 then some [] else none
  | k + 1, off, left =>
    if left = 0 then some []
    else if left < 16 then none
    else
      let n := imgWord img off % 16 + 1
      let size := 16 + 32 * n
      if left < size then none
      else (sectChains img k (off + size) (left - size)).map (fun l =>
        { off := off, hdr := ofBytes 128 (slice img off 16)
          stages := (List.range n).map (fun i => ofBytes 256 (slice img (off + 16 + 32 * i) 32)) } :: l)

def chPeriod (h : BitVec 128) : Nat := rnum h 4 0 8
def chStart (h : BitVec 128) : Nat := rnum h 8 0 32
def chItems (h : BitVec 128) : Nat := rnum h 0xC 0 32
def sgCal (g : BitVec 256) : Fin 64 := Fin.ofNat 64 (rnum g 0 0 6)
def sgIn (g : BitVec 256) : Fin 64 := Fin.ofNat 64 (rnum g 0 8 6)
def sgInEn (g : BitVec 256) : Bool := bitAt g 14
def sgOut (g : BitVec 256) : Fin 64 := Fin.ofNat 64 (rnum g 0 16 6)
def sgOutEn (g : BitVec 256) : Bool := bitAt g 22
def sgSpan (g : BitVec 256) : Nat := rnum g 0 24 8
def sgLag (g : BitVec 256) : Nat := rnum g 4 0 32
def sgInStep (g : BitVec 256) : Int := (rfld g 8 0 32 : Word).toInt
def sgOutStep (g : BitVec 256) : Int := (rfld g 0xC 0 32 : Word).toInt
def sgInDesc (g : BitVec 256) : Nat := rnum g 0x10 0 24
def sgOutDesc (g : BitVec 256) : Nat := rnum g 0x14 0 24
def sgBody (g : BitVec 256) : Nat := rnum g 0x18 0 24
def sgBodyLen (g : BitVec 256) : Nat := rnum g 0x1C 0 16

/-- The plan beat of item `i` at a stage (R157). -/
def itemBeat (h : BitVec 128) (g : BitVec 256) (i : Nat) : Nat := chStart h + sgLag g + i * chPeriod h

/-- The item of a stage that a plan beat opens, if one. -/
def itemAt (h : BitVec 128) (g : BitVec 256) (b : Nat) : Option Nat :=
  let t := b - itemBeat h g 0
  if itemBeat h g 0 ≤ b ∧ t % max 1 (chPeriod h) = 0 ∧ t / max 1 (chPeriod h) < chItems h then some (t / max 1 (chPeriod h)) else none

/-- A template with its patterned-end base advanced for an item (R157). -/
def itemDesc (d : CWord) (step : Int) (i : Nat) : CWord :=
  let adv := BitVec.ofInt 64 ((i : Int) * step * 64)
  if dPatSrc d then putFld d 64 (dSrcAddr d + adv) else putFld d 128 (dDstAddr d + adv)

/-- The instructions of a stage's block for one item, in plan beats relative to the item's (log 26). -/
def stageBody (c : Caldera) (g : BitVec 256) : Option (List QInstr) :=
  (Config.queueEntries (mreadN c.sram (sgBody g) (sgBodyLen g))).map (List.map (fun e => { beat := e.2.1, raw := e.2.2 }))

/-- An instruction placed behind every one of its plan beat and before. -/
def insertByBeat (x : QInstr) : List QInstr → List QInstr
  | [] => [x]
  | q :: qs => if x.beat < q.beat then x :: q :: qs else q :: insertByBeat x qs

def insertPlaced (x : Placed) : List Placed → List Placed
  | [] => [x]
  | q :: qs => if x.q.beat < q.q.beat then x :: q :: qs else q :: insertPlaced x qs

/-- Staging registers from a section, or their reset values (R283). -/
def putStaging (img : List Byte) (o : Option Nat) (c : Caldera) : Caldera :=
  { c with
    stgBase := (o.map (fun o => BitVec.ofNat 12 (imgWord img o))).getD 0
    stgShape := (o.map (fun o => BitVec.ofNat 20 (imgWord img (o + 4)))).getD 0
    streams := Vector.ofFn (fun k : Fin 64 =>
      { c.streams[k] with stg := (o.map (fun o => BitVec.ofNat 8 (imgWord img (o + 8 + 4 * k.val)))).getD 0 }) }

/-- DSP setup of a section: DSP_PROG_BASE, DSP_MODE, DSP_SEED, then the generators' registers. -/
def putDsp (img : List Byte) (o : Nat) (d : Dsp) : Dsp :=
  { d with
    progBase := BitVec.ofNat 24 (imgWord img o), mode := BitVec.ofNat 3 (imgWord img (o + 4))
    seed := genLoad (BitVec.ofNat 32 (imgWord img (o + 8))), pc := 0, busy := true, stopped := false, waiting := false, owed := 0
    srch := none, rowsSince := Vector.replicate 4 0, occ := none, occCnt := 0, fault := d.fault
    ag := Vector.ofFn (fun g : Fin 16 =>
      let a := o + 12 + 24 * g.val
      { base := (imgDWord img a).setWidth 40, lenM1 := BitVec.ofNat 32 (imgWord img (a + 8)), ptr := BitVec.ofNat 32 (imgWord img (a + 12))
        stride := BitVec.ofNat 32 (imgWord img (a + 16)), ctl := BitVec.ofNat 24 (imgWord img (a + 20)) }) }

/-- A caldera with the sections of a plan written into it, in the order of their entries (R283). -/
def installCal (img : List Byte) (n : Fin 64) (c : Caldera) : Caldera :=
  let ss := (planSects img).filter (fun x => x.cal == n)
  let seg := (ss.find? (fun x => x.ty == 2)).map (·.off)
  let c1 : Caldera := { c with
    segs := Vector.ofFn (fun i : Fin 32 => (seg.map (fun o => (imgDWord img (o + 8 * i.val)).setWidth 31 |>.setWidth 64)).getD 0)
    sram := (ss.filter (fun x => x.ty == 3)).foldl (fun m x => mwriteN m x.addr (slice img x.off x.len)) c.sram
    queue := (ss.filter (fun x => x.ty == 1)).flatMap (fun x => ((sectQueue img x).getD []).map (·.q))
    pool := [], rings := [] }
  let c2 := putStaging img ((ss.find? (fun x => x.ty == 6)).map (·.off)) c1
  match ss.find? (fun x => x.ty == 7) with
  | some x => { c2 with dsp := putDsp img x.off c2.dsp }
  | none => { c2 with dsp := { c2.dsp with busy := false, waiting := false, stopped := false, rowsSince := Vector.replicate 4 0 } }

def planConduits (img : List Byte) : List (Word × Word) :=
  ((planSects img).filter (fun x => x.ty == 4)).flatMap (sectConduits img)

def planChains (img : List Byte) : List Chain :=
  ((planSects img).filter (fun x => x.ty == 5)).flatMap (fun x => (sectChains img 65 x.off x.len).getD [])

/-! ### The whole schedule of a caldera -/

/-- The instructions of a caldera: its queue, with the blocks of its fused items in their places. -/
def planSchedule (img : List Byte) (n : Fin 64) (c : Caldera) : List Placed :=
  let base := ((planSects img).filter (fun x => x.ty == 1 && x.cal == n)).flatMap (fun x => (sectQueue img x).getD [])
  (planChains img).foldl (fun l ch =>
    (List.zip (List.range ch.stages.length) ch.stages).foldl (fun l kg =>
      let g := kg.2
      if sgCal g = n then
        (List.range (chItems ch.hdr)).foldl (fun l i =>
          ((stageBody c g).getD []).foldl (fun l q =>
            insertPlaced { off := ch.off + 16 + 32 * kg.1, q := { q with beat := itemBeat ch.hdr g i + q.beat } } l) l) l
      else l) l) base

/-- An arming of a plan: where the plan places it, its slot, beats and descriptor. -/
structure Arming where
  off : Nat
  beat : Nat
  slot : Fin 64
  first : Nat
  done : Nat
  desc : CWord
  /-- Image offset of the descriptor, where a section of the image carries it. -/
  descOff : Option Nat := none
deriving DecidableEq, Repr

/-- The image offset of the byte that a plan puts at an SRAM address of a caldera. -/
def imgOfSram (img : List Byte) (n : Fin 64) (a : Nat) : Option Nat :=
  ((planSects img).reverse.find? (fun x => x.ty == 3 && x.cal == n && decide (x.addr ≤ a ∧ a < x.addr + x.len))).map
    (fun x => x.off + (a - x.addr))

/-- The streams of a caldera's fused items (R157). -/
def fusedArmings (img : List Byte) (n : Fin 64) (c : Caldera) : List Arming :=
  (planChains img).flatMap (fun ch =>
    (List.zip (List.range ch.stages.length) ch.stages).flatMap (fun kg =>
      let g := kg.2
      let one (on : Bool) (slot : Fin 64) (at_ : Nat) (step : Int) : List Arming :=
        if on ∧ sgCal g = n then
          (List.range (chItems ch.hdr)).map (fun i =>
            { off := ch.off + 16 + 32 * kg.1, beat := itemBeat ch.hdr g i, slot := slot, first := itemBeat ch.hdr g i
              done := itemBeat ch.hdr g i + sgSpan g - 1, desc := itemDesc (ofBytes 512 (mreadN c.sram at_ 64)) step i
              descOff := imgOfSram img n at_ })
        else []
      one (sgInEn g) (sgIn g) (sgInDesc g) (sgInStep g) ++ one (sgOutEn g) (sgOut g) (sgOutDesc g) (sgOutStep g)))

/-- An arming placed behind every one of its plan beat and before. -/
def insertArming (x : Arming) : List Arming → List Arming
  | [] => [x]
  | q :: qs => if x.beat < q.beat then x :: q :: qs else q :: insertArming x qs

/-- The armings of a caldera in the order of their submission: in each beat its fused items' streams, and then its SARMs
(R138, R157; log 101). -/
def planArmings (img : List Byte) (n : Fin 64) (c : Caldera) (sched : List Placed) : List Arming :=
  let sarms : List Arming := (sched.filter (fun x => opOf x.q.raw == 0x24)).map (fun x =>
    let f := x.q.beat + saStart x.q.raw
    { off := x.off, beat := x.q.beat, slot := Fin.ofNat 64 (saStream x.q.raw), first := f, done := f + saDone x.q.raw
      desc := ofBytes 512 (mreadN c.sram (saDesc x.q.raw) 64), descOff := imgOfSram img n (saDesc x.q.raw) })
  (fusedArmings img n c ++ sarms).foldl (fun l a => insertArming a l) []

/-! ### One instruction (R42, R46, R48, R100) -/

/-- A range of SRAM reaches beyond 12 MiB, or does not lie in one segment with the permission. -/
def reachBad (c : Caldera) (a len perm : Nat) : Bool := decide (sramSize < a + len) || !segOk c a len perm

/-- An address range misaligned to 64 bytes, beyond SRAM, or outside every segment with the permission. -/
def rangeBad (c : Caldera) (a len perm : Nat) : Bool :=
  a % 64 != 0 || reachBad c a len perm

/-- The checks of one instruction: failing ones, with the offset of their field in it. -/
def instrChecks (c : Caldera) (beats : Nat) (q : QInstr) : List (Bool × Nat) :=
  let r := q.raw
  let rsv (off lo k : Nat) : Bool × Nat := (rnum r off lo k != 0, off)
  let tail (off n : Nat) : Bool × Nat := ((List.range n).any (fun i => rnum r (off + i) 0 8 != 0), off)
  if opOf r = 0x22 then
    [rsv 0 15 1, rsv 0 28 4, rsv 4 24 8, tail 0xC 116, (decide (3 < wlTile r), 1), (!fmtCodeOk (wlFmt r), 2),
     (wlKValid r == 0 || decide (blockK (wlFmt r) < wlKValid r), 2), (rangeBad c (wlSrc r) (imageSize (wlFmt r)) 25, 4)]
  else if opOf r = 0x23 then
    let x := r.setWidth 256
    [rsv 0 15 1, rsv 0 30 2, rsv 4 24 8, rsv 8 16 16, rsv 0xC 12 20, tail 0x14 108,
     (rlFromSram x && rlToSram x, 0), (rlLen x == 0, 8),
     (rlToSlot x && !fmtCodeOk (rlFmt x), 0xC),
     (rlToSlot x && (rlKValid x == 0 || decide (blockK (rlFmt x) < rlKValid x)), 0xC),
     (rlToSlot x && 64 * rlLen x != imageSize (rlFmt x), 8),
     (rlFromSram x && rangeBad c (rlAddr x) (64 * rlLen x) 29, 4), (rlToSram x && rangeBad c (rlAddr x) (64 * rlLen x) 30, 4)]
  else if opOf r = 0x24 then
    [rsv 0 14 2, rsv 4 24 8, tail 8 120, (rangeBad c (saDesc r) 64 29, 4)]
  else if opOf r = 0x21 then
    let open_ := apChainOpen r
    let en := apArrays r
    [rsv 8 4 4, rsv 8 14 2, rsv 8 25 7, rsv 0xC 9 7, rsv 0xC 24 7, rsv 0x14 24 8, rsv 0x18 31 1, rsv 0x1C 24 8, tail 0x64 28,
     (decide (3 < apTile r) || apArrEn r == 0, 1), (!fmtCodeOk (apAFmt r), 2), (!open_ && !fmtCodeOk (apOFmt r), 2),
     (apStrict r && (apMaxr r || !(apAFmt r == 8 || apAFmt r == 9 || apAFmt r == 10)), 3),
     (apAccMode r == 3 || (!apLast r && apAccMode r != 2), 3),
     (apBeats r == 0 || decide (beats < q.beat + apBeats r), 0xE)]
    ++ en.map (fun a => (apNMask r a.val == 0, 0x40 + 8 * a.val))
    ++ [(apAccMode r == 2 && decide (512 < apRows r), 4),
        (apAccMode r == 1 && reachBad c (apAccSrc r) (256 * en.length * apRows r) 25, 0x1C),
        (!open_ && ((apDrainBase r).toNat % 64 != 0 || !segOk c (apDrainBase r).toNat (apDrainLen r).toNat 26), 0x14),
        (!open_ && ((apDrainLen r).toNat % 64 != 0 || decide ((apDrainLen r).toNat < 2 * apDrainRows r * drainRowBytes r)), 0x18)]
  else [(true, 0)]

/-! ### The order of a caldera's instructions (R46, R48) -/

/-- Where a slot's block comes from: an SRAM address of the caldera, or the RELAY at a place among the caldera's own. -/
inductive LoadSrc where
  | sram (a : Nat)
  | relay (i : Nat) (raw : BitVec 256)
deriving DecidableEq, Repr

/-- What the walk over a schedule knows: formats and sources of loaded slots, open chains by tile, RELAYs met. -/
structure Walk where
  fmts : Tbl (Nat × LoadSrc) := []
  relays : Nat := 0
  chains : Tbl (Nat × BitVec 4 × Nat) := []
  bad : Option Nat := none
deriving DecidableEq, Repr

def slotKey (t a : Nat) (b : Bool) : Nat := 8 * t + 2 * a + b.toNat

/-- One instruction of the walk. -/
def walkStep (w : Walk) (x : Placed) : Walk :=
  let r := x.q.raw
  if w.bad.isSome then w
  else if opOf r = 0x22 then { w with fmts := tput w.fmts (slotKey (wlTile r) (wlArray r) (wlSlotB r)) (wlFmt r, .sram (wlSrc r)) }
  else if opOf r = 0x23 then
    let y := r.setWidth 256
    let w1 := { w with relays := w.relays + 1 }
    if rlToSlot y then
      { w1 with fmts := tput w.fmts (slotKey (rlTile y) (rlArray y) (rlSlotB y)) (rlFmt y, .relay w.relays y) }
    else w1
  else if opOf r = 0x21 then
    let fs := (apArrays r).map (fun a => (tfind w.fmts (slotKey (apTile r) a.val (apSlotB r a.val))).map (·.1))
    let clash := fs.any (fun f => match f with
      | none => false
      | some f => !pairOk f (apAFmt r) (apStrict r) || some f != (fs.head?.getD none))
    let ch := tfind w.chains (apTile r)
    let off (o : Nat) : Option Nat := some (x.off + o)
    let bad :=
      if fs.any Option.isNone then off 8
      else if clash then off 8
      else if apAccMode r = 2 then
        match ch with
        | some (rows, en, base) =>
          if rows ≠ apRows r then off 4 else if en ≠ apArrEn r then off 1 else if base ≠ apAccBase r then off 0xA else none
        | none => none
      else none
    let chains := if apAccMode r = 2 then
        (if apLast r then tdel w.chains (apTile r) else tput w.chains (apTile r) (apRows r, apArrEn r, apAccBase r))
      else w.chains
    { w with chains := chains, bad := bad }
  else w

/-- The walk up to an instruction, for what its slots then hold. -/
def walkBefore (sched : List Placed) (i : Nat) : Walk := (sched.take i).foldl walkStep {}

/-- The last plan beat of pass `i`, or of its chain's LAST pass: the beat of its commit (R60). -/
def commitBeat (sched : List Placed) (i : Nat) : Nat :=
  match sched[i]? with
  | none => 0
  | some x =>
    let due (x : Placed) : Nat := x.q.beat + apBeats x.q.raw - 1
    if apChainOpen x.q.raw then
      match (sched.drop i).find? (fun y => opOf y.q.raw == 0x21 && apTile y.q.raw == apTile x.q.raw && apAccMode y.q.raw == 2 && apLast y.q.raw) with
      | some y => due y
      | none => due x
    else due x

/-- The passes of a schedule with their places in it. -/
def schedPasses (sched : List Placed) : List (Nat × Placed) :=
  (List.zip (List.range sched.length) sched).filter (fun x => opOf x.2.q.raw == 0x21)

/-! ### Armings (R134, R139, R140, R144) -/

/-- A descriptor of a plan is invalid: every record is tested (R134). -/
def armingBad (c : Caldera) (a : Arming) : List (Bool × Nat) :=
  (descErrors c a.slot a.desc (dRecords a.desc)).map (fun x => (x.1, (a.descOff.map (· + x.2)).getD a.off))

/-- Bytes of a slot that a pass takes as its rows, or that its drain gives (R137). -/
def carriedBytes (sched : List Placed) (i : Nat) (r : Data1024) (k : Nat) : Nat :=
  let wf := ((apArrays r).head?.bind (fun a => tfind (walkBefore sched i).fmts (slotKey (apTile r) a.val (apSlotB r a.val)))).map (·.1)
  (if k = apActStream r then apRows r * rowBytes (apAFmt r) (blockK (wf.getD 0)) else 0)
    + (if apToStream r && !apChainOpen r && k == apDrainStream r then apRows r * drainRowBytes r else 0)

/-- The bytes of a slot that the passes of a schedule carry, in their order: the first byte of each, the byte after its
last, and the beat of its commit. -/
def passBytes (sched : List Placed) (k : Nat) : List (Nat × Nat × Nat) :=
  ((schedPasses sched).foldl (fun (x : Nat × List (Nat × Nat × Nat)) p =>
    let n := carriedBytes sched p.1 p.2.q.raw k
    (x.1 + n, x.2 ++ (if n = 0 then [] else [(x.1, x.1 + n, commitBeat sched p.1)]))) (0, [])).2

/-- R139 on the armings of one caldera, in the order of their submission: overlapping ones of a slot, and those that end
before the commit of a pass whose rows they carry. -/
def armingOrderBad (as : List Arming) (sched : List Placed) : List (Bool × Nat) :=
  let idx := List.zip (List.range as.length) as
  idx.flatMap (fun (x : Nat × Arming) =>
    let before : List Arming := (as.take x.1).filter (fun y => y.slot == x.2.slot)
    let lo := (before.map (fun y => dTotal y.desc)).sum
    [(decide (2 ≤ (before.filter (fun y => decide (x.2.beat ≤ y.done))).length), x.2.off),
     (before.any (fun y => decide (x.2.first < y.done)), x.2.off),
     ((passBytes sched x.2.slot.val).any (fun b =>
        decide (b.1 < lo + dTotal x.2.desc) && decide (lo < b.2.1) && decide (x.2.done < b.2.2)), x.2.off)])

/-- R140 on one caldera: pairs, pool and its segments; the offset is that of the staging section, or of
the caldera mask where there is none. -/
def stagingBad (c : Caldera) (as : List Arming) (off : Nat) : List (Bool × Nat) :=
  let mine := as.filter (fun a => dStaged a.desc)
  let pairs := (List.finRange 64).filter (fun k => bitAt c.streams[k].stg 7)
  let perms : List (Fin 64 × Nat) := mine.map (fun a => (a.slot, if dSrcKind a.desc = 5 then 27 else 25))
  let pool := List.range (nfld c.stgShape 12 8 + 1)
  pairs.map (fun k => (!c.pairOk k, off + 8 + 4 * k.val))
  ++ pairs.map (fun k => (pairs.any (fun j => decide (j.val < k.val) && nfld c.streams[j].stg 0 7 == nfld c.streams[k].stg 0 7), off + 8 + 4 * k.val))
  ++ mine.map (fun a => (!bitAt c.streams[a.slot].stg 7, a.off))
  ++ pool.map (fun i =>
    let owner : Option (Fin 64) := pairs.find? (fun k => nfld c.streams[k].stg 0 7 == i / 2)
    let need : List Nat := match owner with
      | some k => (perms.filter (fun (p : Fin 64 × Nat) => p.1 == k)).map (fun p => p.2)
      | none => perms.map (fun p => p.2)
    (!mine.isEmpty && !(c.segs.toList.any (fun g =>
      bitAt g 24 && bitAt g 30 && need.all (bitAt g) && decide (nfld g 0 12 * 4096 ≤ c.poolAddr i)
        && decide (c.poolAddr i + c.poolSize ≤ nfld g 0 12 * 4096 + (nfld g 12 12 + 1) * 4096))), off))

/-- The byte ranges of an end in device virtual memory: its records, or for an AGEN end all that the generators bound to
its slot can address (R114; log 102). -/
def dvaRanges (c : Caldera) (a : Arming) (src : Bool) : List (Int × Nat) :=
  let k := if src then dSrcKind a.desc else dDstKind a.desc
  if k = 2 then (List.range (dRecords a.desc)).map (fun i => (endAddr a.desc src (i * dRec a.desc), dRec a.desc))
  else if k = 5 then
    (c.dsp.ag.toList.filter (fun g => g.target && g.stream == a.slot)).map (fun g =>
      ((g.base.toNat : Int), (g.lenM1.toNat + 1) * g.esize))
  else []

def rangesMeet (x y : List (Int × Nat)) : Bool :=
  x.any (fun a => y.any (fun b => decide (a.1 < b.1 + (b.2 : Int)) && decide (b.1 < a.1 + (a.2 : Int))))

/-! ### Segments and their agents (R100, R101) -/

/-- Valid segments overlap or reach beyond 12 MiB; the offset is that of the segment section. -/
def segsBad (c : Caldera) (off : Nat) : List (Bool × Nat) :=
  let lo (g : DWord) : Nat := nfld g 0 12 * 4096
  let hi (g : DWord) : Nat := nfld g 0 12 * 4096 + (nfld g 12 12 + 1) * 4096
  (List.finRange 32).map (fun i =>
    let g : DWord := c.segs[i]
    (bitAt g 24 && (decide (sramSize < hi g) || (List.finRange 32).any (fun j =>
      let h : DWord := c.segs[j]
      decide (j.val < i.val) && bitAt h 24 && decide (lo g < hi h) && decide (lo h < hi g))), off + 8 * i.val))

/-- The valid segment that holds an address. -/
def segAt (c : Caldera) (a : Nat) : Option (Fin 32) :=
  (List.finRange 32).find? (fun i =>
    let g : DWord := c.segs[i]
    bitAt g 24 && decide (nfld g 0 12 * 4096 ≤ a) && decide (a < nfld g 0 12 * 4096 + (nfld g 12 12 + 1) * 4096))

/-- SRAM agents (R101). -/
inductive Agent where
  | feed (t : Nat) | drain (t : Nat) | dsp | endpoint (e : Nat) | load (a : Nat)
deriving DecidableEq, Repr

/-- An access of an agent to a segment in a range of plan beats, with what orders a drain ring's reader. -/
structure Access where
  seg : Fin 32
  who : Agent
  write : Bool
  lo : Nat
  hi : Nat
  off : Nat
  /-- For a drain: the slot that empties the ring under credits. -/
  credit : Option Nat := none
  /-- For the DSP unit: the tiles that its program awaits by WDRAIN. -/
  awaits : List Nat := []
  /-- A staging pool slot, written and read by handshake (R141). -/
  pool : Bool := false
deriving DecidableEq, Repr

def mkAccess (c : Caldera) (a : Nat) (who : Agent) (write : Bool) (lo hi off : Nat) (credit : Option Nat := none) : List Access :=
  match segAt c a with
  | some g => [{ seg := g, who := who, write := write, lo := lo, hi := hi, off := off, credit := credit }]
  | none => []

/-- The segments of the pool slots that a stream slot may use. -/
def poolSegs (c : Caldera) (k : Fin 64) : List (Fin 32) :=
  ((List.range (nfld c.stgShape 12 8 + 1)).filter (fun j => j / 2 == nfld c.streams[k].stg 0 7 || c.shared j)).filterMap
    (fun j => segAt c (c.poolAddr j))

/-- An agent's accesses to the staging pool for a stream slot. -/
def poolAccess (c : Caldera) (k : Fin 64) (who : Agent) (write : Bool) (lo hi off : Nat) : List Access :=
  (poolSegs c k).map (fun g => { seg := g, who := who, write := write, lo := lo, hi := hi, off := off, pool := true })

/-- The accesses to the staging pool: the streams that fill it, run-ahead included, and their consumers (R141, R143). -/
def stagingAccesses (c : Caldera) (sched : List Placed) (as : List Arming) : List Access :=
  (as.filter (fun a => dStaged a.desc)).flatMap (fun a =>
    poolAccess c a.slot (.endpoint a.slot.val) true (if dPf a.desc then a.first - 2 else a.first) a.done a.off
      ++ (if dSrcKind a.desc = 5 then poolAccess c a.slot .dsp false a.first a.done a.off else []))
  ++ (sched.filter (fun x => opOf x.q.raw == 0x21)).flatMap (fun x =>
    let k : Fin 64 := Fin.ofNat 64 (apActStream x.q.raw)
    if bitAt c.streams[k].stg 7 then poolAccess c k (.feed (apTile x.q.raw)) false x.q.beat (x.q.beat + apBeats x.q.raw - 1) x.off else [])

/-- The instructions from a place on, up to END or the end of SRAM. -/
def dspProgram (c : Caldera) : Nat → Nat → List DWord
  | 0, _ => []
  | k + 1, pc =>
    let i := Dsp.fetch { c with dsp := { c.dsp with pc := BitVec.ofNat 24 pc } }
    if dspOp i = 0x5F then [i] else i :: dspProgram c k (pc + 1)

/-- The tiles that a caldera's DSP program awaits. -/
def dspAwaits (c : Caldera) : List Nat :=
  ((dspProgram c ((sramSize - c.dsp.progBase.toNat) / 8) 0).filter (fun i => dspOp i == 0x51)).map (fun i => dspImm i % 4)

/-- A record, or the records, of SRAM that the DSP unit reads or writes in a plan beat, and the tiles that its program has
awaited before. -/
structure DspRef where
  write : Bool
  beat : Nat
  addr : Nat
  len : Nat
  awaits : List Nat
deriving DecidableEq, Repr

/-- The records of SRAM that `n` accesses of a generator in a row reach; one in linear mode beyond the last record faults
instead (R114, R115). -/
def agPlaces : Nat → AddrGen → List Nat
  | 0, _ => []
  | n + 1, g => (if !g.circ && decide (g.lenM1.toNat < g.ptr.toNat) then [] else [g.sramAddr]) ++ agPlaces n g.advance

/-- What a walk through a DSP program knows: the plan beat, the generators, those whose pointer an AGSET has made a run-time
value, the tiles awaited, and the data accesses so far. -/
structure DspWalk where
  beat : Nat := 0
  ag : Vector AddrGen 16
  loose : List (Fin 16) := []
  awaits : List Nat := []
  refs : List DspRef := []

/-- One instruction of the walk.  A generator that AGSET has set may stand at any of its records (log 54). -/
def dspWalkStep (w : DspWalk) (i : DWord) : DspWalk :=
  let o := dspOp i
  let k := dspAg i
  let g := w.ag[k]
  if o = 0x50 then { w with beat := w.beat + dspImm i }
  else if o = 0x51 then { w with awaits := dspImm i % 4 :: w.awaits }
  else if o = 0x48 then { w with loose := k :: w.loose }
  else if o = 0x01 ∨ o = 0x02 ∨ o = 0x38 ∨ o = 0x39 then
    let n := if o = 0x38 ∨ o = 0x39 then g.lenM1.toNat + 1 else 1
    let ref (a len : Nat) : DspRef := { write := o == 0x02, beat := w.beat, addr := a, len := len, awaits := w.awaits }
    let new := if g.target then []
      else if w.loose.contains k then [ref (g.base.toNat % 2 ^ 24) ((g.lenM1.toNat + 1) * g.esize)]
      else (agPlaces n g).map (fun a => ref a g.esize)
    { w with ag := vset w.ag k (g.advanceN n), refs := w.refs ++ new }
  else w

/-- The data accesses of a caldera's DSP program to SRAM: VLD, VST and the searches (R101). -/
def dspRefs (c : Caldera) : List DspRef :=
  ((dspProgram c ((sramSize - c.dsp.progBase.toNat) / 8) 0).foldl dspWalkStep { ag := c.dsp.ag }).refs

/-- The valid segments that a range of SRAM meets. -/
def segsOf (c : Caldera) (a n : Nat) : List (Fin 32) :=
  (List.finRange 32).filter (fun i =>
    let g : DWord := c.segs[i]
    bitAt g 24 && decide (nfld g 0 12 * 4096 < a + n) && decide (a < nfld g 0 12 * 4096 + (nfld g 12 12 + 1) * 4096))

/-- The accesses of a caldera's instructions, streams and DSP program. -/
def planAccesses (c : Caldera) (sched : List Placed) (as : List Arming) (beats : Nat) (dsp : Option Nat) : List Access :=
  sched.flatMap (fun x =>
    let r := x.q.raw
    let b := x.q.beat
    if opOf r = 0x22 then mkAccess c (wlSrc r) (.load (4 * wlTile r + wlArray r)) false b b x.off
    else if opOf r = 0x23 then
      let y := r.setWidth 256
      (if rlFromSram y then mkAccess c (rlAddr y) (.endpoint (rlOutEp y)) false b b x.off else [])
      ++ (if rlToSram y then mkAccess c (rlAddr y) (.endpoint (rlInEp y)) true b b x.off else [])
    else if opOf r = 0x21 then
      let hi := b + apBeats r - 1
      (if apAccMode r = 1 then mkAccess c (apAccSrc r) (.feed (apTile r)) false b hi x.off else [])
      ++ (if apChainOpen r then [] else
        mkAccess c (apDrainBase r).toNat (.drain (apTile r)) true b hi x.off (if apToStream r then some (apDrainStream r) else none))
    else [])
  ++ as.flatMap (fun a =>
    let sides := (if dSrcKind a.desc = 0 then [true] else []) ++ (if dDstKind a.desc = 0 then [false] else [])
    sides.flatMap (fun src => (List.range (dRecords a.desc)).flatMap (fun i =>
      mkAccess c (endAddr a.desc src (i * dRec a.desc)).toNat (.endpoint a.slot.val) (!src) a.first a.done a.off)))
  ++ (match dsp with
      | some off => (mkAccess c c.dsp.progBase.toNat .dsp false 0 (beats - 1) off).map (fun x => { x with awaits := dspAwaits c })
          ++ (dspRefs c).flatMap (fun r => (segsOf c r.addr r.len).map (fun g =>
            { seg := g, who := .dsp, write := r.write, lo := r.beat, hi := r.beat, off := off, awaits := r.awaits }))
      | none => [])
  ++ stagingAccesses c sched as

/-- A drain with a ring in the segment, and a reader that orders itself behind that drain (R101). -/
def ringOrdered (l : List Access) (x y : Access) : Bool :=
  match x.who, y.who with
  | .drain _, .endpoint e => !y.write && l.any (fun z => z.seg == x.seg && z.who == x.who && z.credit == some e)
  | .drain t, .dsp => !y.write && y.awaits.contains t
  | _, _ => false

/-- R101, first case: two agents on one segment in one beat, one of them writing. -/
def sharedBad (l : List Access) : List (Bool × Nat) :=
  l.map (fun x => (l.any (fun y =>
    x.seg == y.seg && x.who != y.who && (x.write || y.write) && decide (x.lo ≤ y.hi) && decide (y.lo ≤ x.hi)
      && decide (y.off ≤ x.off) && !(x.pool && y.pool) && !ringOrdered l x y && !ringOrdered l y x), x.off))

/-- The segments, by caldera, that a pass's weights and initial values lie in: a relayed block's source is the copy at
its chain's head (R41). -/
def passSources (get : Fin 64 → Caldera) (head : Fin 64 → Nat → BitVec 256 → Option (Fin 64 × Nat)) (n : Fin 64)
    (sched : List Placed) (i : Nat) (r : Data1024) : List (Fin 64 × Fin 32) :=
  let w := walkBefore sched i
  let at_ (m : Fin 64) (a : Nat) : Option (Fin 64 × Fin 32) := (segAt (get m) a).map (fun g => (m, g))
  let ws := (apArrays r).filterMap (fun a =>
    (tfind w.fmts (slotKey (apTile r) a.val (apSlotB r a.val))).bind (fun f => match f.2 with
      | .sram a => at_ n a
      | .relay i raw => (head n i raw).bind (fun x => at_ x.1 x.2)))
  ws ++ (if apAccMode r = 1 then (at_ n (apAccSrc r)).toList else [])

/-- The segments of a pass's activation staging area. -/
def passStaging (c : Caldera) (r : Data1024) : List (Fin 32) :=
  let k : Fin 64 := Fin.ofNat 64 (apActStream r)
  if bitAt c.streams[k].stg 7 then poolSegs c k else []

/-- R101, second case: a write into a source of a pass before its commit; into its staging area by another than the
streams that fill the pool. -/
def sourcesBad (get : Fin 64 → Caldera) (head : Fin 64 → Nat → BitVec 256 → Option (Fin 64 × Nat))
    (accs : List (Fin 64 × Access)) (n : Fin 64) (sched : List Placed) : List (Bool × Nat) :=
  (schedPasses sched).map (fun p =>
    let srcs := passSources get head n sched p.1 p.2.q.raw
    let stg := passStaging (get n) p.2.q.raw
    let hi := commitBeat sched p.1
    (accs.any (fun x => x.2.write && decide (x.2.lo ≤ hi) && decide (p.2.q.beat ≤ x.2.hi)
      && (srcs.contains (x.1, x.2.seg) || (x.1 == n && !x.2.pool && stg.contains x.2.seg))), p.2.off))

/-! ### Run-ahead (R144) -/

/-- The addresses of an SRAM end of an arming. -/
def sramRanges (a : Arming) (src : Bool) : List (Int × Nat) :=
  if (if src then dSrcKind a.desc else dDstKind a.desc) = 0 then
    (List.range (dRecords a.desc)).map (fun i => (endAddr a.desc src (i * dRec a.desc), dRec a.desc))
  else []

/-- What a plan writes to a caldera's SRAM, with the plan beats in which it may: streams, drains, relayed copies and VST. -/
def sramWrites (c : Caldera) (sched : List Placed) (as : List Arming) (dsp : Bool) : List (Nat × Nat × List (Int × Nat)) :=
  as.map (fun a => (a.first, a.done, sramRanges a false))
  ++ sched.map (fun x =>
    let r := x.q.raw
    let y := r.setWidth 256
    (x.q.beat, if opOf r = 0x21 then x.q.beat + apBeats r - 1 else x.q.beat,
      if opOf r = 0x21 ∧ !apChainOpen r then [(((apDrainBase r).toNat : Int), (apDrainLen r).toNat)]
      else if opOf r = 0x23 ∧ rlToSram y then [((rlAddr y : Int), 64 * rlLen y)] else []))
  ++ (if dsp then ((dspRefs c).filter (·.write)).map (fun r => (r.beat, r.beat, [((r.addr : Int), r.len)])) else [])

/-- A stream with PF = 1 reads what the plan writes in the two plan beats before its first beat (R144). -/
def runAheadBad (get : Fin 64 → Caldera) (arms : Fin 64 → List Arming) (writes : Fin 64 → List (Nat × Nat × List (Int × Nat)))
    (ns : List (Fin 64)) : List (Bool × Nat) :=
  let soon (a : Arming) (lo hi : Nat) : Bool := decide (lo < a.first) && decide (a.first ≤ hi + 2)
  ns.flatMap (fun n => ((arms n).filter (fun a => dPf a.desc)).map (fun a =>
    (ns.any (fun m => (arms m).any (fun w => soon a w.first w.done && rangesMeet (dvaRanges (get n) a true) (dvaRanges (get m) w false)))
      || (writes n).any (fun w => soon a w.1 w.2.1 && rangesMeet (sramRanges a true) w.2.2), a.off)))

/-! ### DSP programs (R106, R107) -/

/-- Whether a DSP instruction is refused (R107). -/
def dspInstrBad (i : DWord) : Bool :=
  let o := dspOp i
  let real := [0x10, 0x11, 0x12, 0x13, 0x14, 0x15, 0x18, 0x19, 0x20, 0x21, 0x22, 0x23, 0x24, 0x25, 0x38, 0x39, 0x40].contains o
  let plain := [0x01, 0x02, 0x30, 0x31, 0x48, 0x50, 0x51, 0x5F].contains o
  rnum i 0 30 2 != 0 || rnum i 4 4 4 != 0 || !(real || plain || o == 0x16) || (real && dspType i == 3) || (o == 0x16 && dspType i != 3)
    || ((o == 0x30 || o == 0x31) && (!fmtCodeOk (dspImm i % 16) || dspImm i % 16 == 10 || decide (16 ≤ dspImm i)))
    || (o == 0x50 && dspImm i == 0)

/-- Rows that passes of a tile drain by a plan beat. -/
def drainedBy (sched : List Placed) (t b : Nat) : Nat :=
  ((schedPasses sched).filter (fun p => apTile p.2.q.raw == t && !apChainOpen p.2.q.raw && decide (p.2.q.beat ≤ b))).foldl
    (fun n p => n + apRows p.2.q.raw) 0

/-- A WDRAIN that asks for more rows than its tile has drained (R106): plan beat and rows asked for so far. -/
def wdrainBad (sched : List Placed) : List DWord → Nat → Tbl Nat → Bool
  | [], _, _ => false
  | i :: is, b, seen =>
    if dspOp i = 0x50 then wdrainBad sched is (b + dspImm i) seen
    else if dspOp i = 0x51 then
      let t := dspImm i % 4
      let n := tget 0 seen t + dspImm i / 4
      decide (drainedBy sched t b < n) || wdrainBad sched is b (tput seen t n)
    else wdrainBad sched is b seen

/-- The DSP program of a caldera with a DSP section. -/
def dspBad (c : Caldera) (sched : List Placed) (off : Nat) : List (Bool × Nat) :=
  let base := c.dsp.progBase.toNat
  let is := dspProgram c ((sramSize - base) / 8) 0
  [(base % 8 != 0 || !segOk c base (8 * is.length) 27, off), (is.any dspInstrBad, off), (wdrainBad sched is 0 [], off)]

/-! ### Fused chains (R156, R158) -/

/-- The chain rules of R158 and the ranges of R156. -/
def chainBad (cals : DWord) (get : Fin 64 → Caldera) (ch : Chain) : List (Bool × Nat) :=
  let h := ch.hdr
  let sg := List.zip (List.range ch.stages.length) ch.stages
  [(rnum h 0 4 28 != 0 || rnum h 4 8 24 != 0, ch.off), (chPeriod h == 0, ch.off + 4), (chItems h == 0, ch.off + 0xC)]
  ++ sg.flatMap (fun x =>
    let g := x.2
    let o := ch.off + 16 + 32 * x.1
    let prev := ch.stages[x.1 - 1]?.getD 0
    let c := get (sgCal g)
    [(rnum g 0 6 2 != 0 || bitAt g 15 || bitAt g 23, o), (!cals.getLsbD (sgCal g).val, o), (sgSpan g == 0 || decide (chPeriod h < sgSpan g), o + 3),
     (if x.1 = 0 then sgLag g != 0 else decide (sgLag g < sgLag prev + sgSpan prev), o + 4),
     (rnum g 0x10 24 8 != 0 || (sgInEn g && rangeBad c (sgInDesc g) 64 29), o + 0x10),
     (rnum g 0x14 24 8 != 0 || (sgOutEn g && rangeBad c (sgOutDesc g) 64 29), o + 0x14),
     (rnum g 0x18 24 8 != 0 || (decide (0 < sgBodyLen g) && (stageBody c g).isNone), o + 0x18), (rnum g 0x1C 16 16 != 0, o + 0x1C),
     (x.1 != 0 && sgInEn g && (let d : CWord := ofBytes 512 (mreadN c.sram (sgInDesc g) 64)
        dDstKind d == 4 && decide (c.poolSize < dTotal d)), o)])

/-! ### Conduits (R181, R326, R329, R373) -/

/-- The setup of a switch node and its endpoints that a plan's pairs make: the last value written. -/
def setupXp (ws : List (Word × Word)) (n : Fin 64) (key : Nat) : Option (BitVec 22) :=
  (ws.reverse.find? (fun w => xpOfAddr w.1.toNat == some (n, key))).map (fun w => fld w.2 0 22)
def setupEp (ws : List (Word × Word)) (r : EpRef) : Option Word :=
  (ws.reverse.find? (fun w => epOfAddr w.1.toNat == some r)).map (·.2)

/-- The valid crosspoint outputs of a setup. -/
def setupXps (ws : List (Word × Word)) : List (Fin 64 × Nat × BitVec 22) :=
  ((ws.filterMap (fun w => xpOfAddr w.1.toNat)).dedup.filterMap (fun x => (setupXp ws x.1 x.2).map (fun v => (x.1, x.2, v)))).filter
    (fun x => xpValid x.2.2)

/-- The enabled endpoints of a setup, with their control words. -/
def setupEpList (ws : List (Word × Word)) : List (EpRef × Word) :=
  ((setupEps ws).dedup.filterMap (fun r => (setupEp ws r).map (fun v => (r, v)))).filter (fun x => bitAt x.2 0)

/-- Port and track of an output key. -/
def keyPort (k : Nat) : Nat := min 4 (k / 32)
def keyTrack (k : Nat) : Nat := k - 32 * keyPort k

/-- Where words of a conduit stand: an input of a switch node, or a destination endpoint. -/
inductive Spot where
  | input (n : Fin 64) (key : Nat)
  | dest (r : EpRef)
deriving DecidableEq, Repr

/-- Where an output leads. -/
def outSpot (n : Fin 64) (p t : Nat) : Option Spot :=
  match farSide n p t with
  | .ep r => some (.dest r)
  | .node m k => some (.input m k)
  | .nothing => none

/-- The input of a switch node at which an endpoint's words enter. -/
def epSpot (r : EpRef) : Spot :=
  let i := epInput r
  .input i.1 (inKey i.2.1 i.2.2)

/-- The spots that words at a spot move on to. -/
def spotNext (xps : List (Fin 64 × Nat × BitVec 22)) : Spot → List Spot
  | .input n k => (xps.filter (fun x => x.1 == n && inKey (xpInPort x.2.2) (xpInTrack x.2.2) == k)).filterMap (fun x => outSpot n (keyPort x.2.1) (keyTrack x.2.1))
  | .dest _ => []

/-- The spots of a conduit from its source on, as a list with every visit (a tree visits each once). -/
def conduitReach (xps : List (Fin 64 × Nat × BitVec 22)) : Nat → List Spot → List Spot
  | 0, _ => []
  | k + 1, l => if l.isEmpty then [] else l ++ conduitReach xps k (l.flatMap (spotNext xps))

/-- Whether a conduit's destination lies at or beyond a spot. -/
def reachesDest (xps : List (Fin 64 × Nat × BitVec 22)) (eps : List EpRef) (sp : Spot) : Bool :=
  (conduitReach xps 512 [sp]).any (fun x => match x with
    | .dest r => eps.contains r
    | _ => false)

/-- Whether a conduit's resources belong to a partition (R361), and a region or port may carry it. -/
def epAllowed (s : State) (part : Part) (conf : Bool) : EpRef → Bool
  | .cal n _ => part.cals.getLsbD n.val
  | .stack k _ => part.stackMask.getLsbD k.val && s.stackUsable k.val
  | .port p _ => part.ports.getLsbD p.val && (!conf || s.ports[p].encrypting)
  | .region r e => part.regions.getLsbD r.val && s.regions[r].cfg == 2 && s.regions[r].gw[e].used

/-- The source endpoint of the conduit of a plan's setup that an endpoint belongs to. -/
def planSource (ws : List (Word × Word)) (r : EpRef) : Option EpRef :=
  let eps := setupEpList ws
  match eps.find? (fun x => x.1 == r) with
  | some x => (eps.find? (fun y => bitAt y.2 1 && fld y.2 16 12 == (fld x.2 16 12 : BitVec 12))).map (·.1)
  | none => none

/-- An endpoint or an output is part of a conduit that is set up, or of one of a loaded plan (R181). -/
def State.epTaken (s : State) (r : EpRef) : Bool :=
  (s.endpoint r).en || s.plans.any (fun p => (setupEp p.conduits r).any (bitAt · 0))
def State.xpTaken (s : State) (n : Fin 64) (key : Nat) : Bool :=
  xpValid (s.cals[n].xp (keyPort key) (keyTrack key)) || s.plans.any (fun p => (setupXp p.conduits n key).any xpValid)

/-- An arming uses an endpoint against its direction: as a CONDUIT end, or, on a conduit to a memory stack, as the lane of
its slot's DVA or AGEN end (R130, R181). -/
def armDisagrees (a : Arming) (e : Nat) (out toStack : Bool) : Bool :=
  let dva (k : Nat) : Bool := k == 2 || k == 5
  (dSrcKind a.desc == 1 && dSrcEp a.desc == e && out) || (dDstKind a.desc == 1 && dDstEp a.desc == e && !out)
    || (toStack && a.slot.val == e && ((dva (dSrcKind a.desc) && out) || (dva (dDstKind a.desc) && !out)))

/-- The conduit rules on a plan's pairs; the offset of pair `i` of a section is given with it. -/
def conduitsBad (s : State) (part : Part) (conf : Bool) (ws : List (Word × Word)) (offs : List Nat) (calArms : Fin 64 → List Arming)
    (relays : Fin 64 → List (BitVec 256)) : List (Bool × Nat) :=
  let xps := setupXps ws
  let eps := setupEpList ws
  let id (w : Word) : BitVec 12 := fld w 16 12
  let dests (c : BitVec 12) : List EpRef := (eps.filter (fun x => id x.2 == c && !bitAt x.2 1)).map (·.1)
  let srcs (c : BitVec 12) : List EpRef := (eps.filter (fun x => id x.2 == c && bitAt x.2 1)).map (·.1)
  let own (c : BitVec 12) := xps.filter (fun x => xpConduit x.2.2 == c)
  let toStack (c : BitVec 12) : Bool := (srcs c ++ dests c).any (fun r => match r with
    | .stack _ _ => true
    | _ => false)
  let tree (c : BitVec 12) : List Spot :=
    match srcs c with
    | [r] => conduitReach (own c) 512 [epSpot r]
    | _ => []
  (List.zip ws offs).flatMap (fun x =>
    let w := x.1
    let o := x.2
    match epOfAddr w.1.toNat, xpOfAddr w.1.toNat with
    | none, none => [(true, o)]
    | some r, _ =>
      if !bitAt w.2 0 then [(fld w.2 2 14 != 0 || fld w.2 28 4 != 0, o + 4)]
      else
        let c := id w.2
        [(fld w.2 2 14 != 0 || fld w.2 28 4 != 0, o + 4), (!epAllowed s part conf r, o), (s.epTaken r, o),
         (decide ((srcs c).length ≠ 1) || decide (64 < (dests c).length), o + 4),
         (decide ((tree c).length ≠ (tree c).dedup.length) || (!bitAt w.2 1 && !(tree c).contains (.dest r)), o + 4),
         (match r with
          | .cal n e => (calArms n).any (fun a => armDisagrees a e.val (bitAt w.2 1) (toStack c))
              || (relays n).any (fun y => (!rlFromSram y && rlInEp y == e.val && bitAt w.2 1) || (rlForward y && rlOutEp y == e.val && !bitAt w.2 1))
          | _ => false, o + 4)]
    | none, some (n, k) =>
      let v : BitVec 22 := fld w.2 0 22
      if !xpValid v then [(fld w.2 22 10 != 0, o + 4)]
      else
        let c := xpConduit v
        let p := keyPort k
        let t := keyTrack k
        [(fld w.2 22 10 != 0, o + 4), (decide (portTracks n p ≤ t) || (outSpot n p t).isNone, o),
         (decide (portTracks n (xpInPort v) ≤ xpInTrack v) || farSide n (xpInPort v) (xpInTrack v) == .nothing, o + 4),
         (!part.cals.getLsbD n.val, o), (s.xpTaken n k, o),
         (!(tree c).contains (.input n (inKey (xpInPort v) (xpInTrack v))), o + 4),
         (match outSpot n p t with
          | some sp => !reachesDest (own c) (dests c) sp
          | none => true, o + 4)])

/-! ### All checks of LOAD_PLAN -/

/-- The calderas of a plan as its sections leave them. -/
def planCals (s : State) (img : List Byte) : Fin 64 → Caldera := fun n => installCal img n { s.cals[n] with sram := [] }

/-- Check 5 of R283. -/
def planRulesBad (s : State) (part : Part) (conf : Bool) (img : List Byte) : Option Nat :=
  let cals := imgDWord img 0x10
  let beats := imgWord img 0x18
  let ns := (List.finRange 64).filter (fun n => cals.getLsbD n.val)
  let ss := planSects img
  let get := planCals s img
  let secOff (n : Fin 64) (ty d : Nat) : Nat := ((ss.find? (fun x => x.ty == ty && x.cal == n)).map (·.off)).getD d
  let sched (n : Fin 64) := planSchedule img n (get n)
  let arms (n : Fin 64) := planArmings img n (get n) (sched n)
  let dsp (n : Fin 64) : Option Nat := (ss.find? (fun x => x.ty == 7 && x.cal == n)).map (·.off)
  let accs (n : Fin 64) : List Access := planAccesses (get n) (sched n) (arms n) beats (dsp n)
  let allAccs : List (Fin 64 × Access) := ns.flatMap (fun n => (accs n).map (fun x => (n, x)))
  let relays (n : Fin 64) : List (BitVec 256) :=
    ((sched n).filter (fun x => opOf x.q.raw == 0x23)).map (fun x => x.q.raw.setWidth 256)
  let head := relayHead relays (planSource (planConduits img)) 64
  let csecs := ss.filter (fun x => x.ty == 4)
  let offs := csecs.flatMap (fun x => (List.range (x.len / 8)).map (fun i => x.off + 8 * i))
  firstBad (
    (ss.map (fun x => (x.ty == 1 && (sectQueue img x).isNone || x.ty == 5 && (sectChains img 65 x.off x.len).isNone, x.off)))
    ++ [(decide (64 < (planChains img).length), 0x1C)]
    ++ ns.flatMap (fun n => segsBad (get n) (secOff n 2 0x10))
    ++ (planChains img).flatMap (chainBad cals get)
    ++ ns.flatMap (fun n => (sched n).flatMap (fun x => (instrChecks (get n) beats x.q).map (fun b => (b.1, x.off + b.2))))
    ++ ns.flatMap (fun n => match ((sched n).foldl walkStep {}).bad with
        | some o => [(true, o)]
        | none => [])
    ++ ns.flatMap (fun n => (arms n).flatMap (armingBad (get n)))
    ++ ns.flatMap (fun n => armingOrderBad (arms n) (sched n))
    ++ ns.flatMap (fun n => stagingBad (get n) (arms n) (secOff n 6 0x10))
    ++ runAheadBad get arms (fun n => sramWrites (get n) (sched n) (arms n) (dsp n).isSome) ns
    ++ ns.flatMap (fun n => sharedBad (accs n) ++ sourcesBad get head allAccs n (sched n) ++ (match dsp n with
          | some o => dspBad (get n) (sched n) o
          | none => []))
    ++ conduitsBad s part conf (planConduits img) offs arms relays)

/-- A partition in force: in ember mode only partition 0 exists, with calderas 0 to 7 (R360). -/
def State.part (s : State) (p : Fin 8) : Part :=
  if s.cp.ember then { cals := if p = 0 then 0xFF else 0, valid := p == 0, resetting := s.sec.parts[p].resetting }
  else s.sec.parts[p]

/-- The partition of a context. -/
def State.ctxPart (s : State) (ctx : Byte) : Part :=
  match tfind s.sec.ctxs ctx.toNat with
  | some c => s.part c.part
  | none => {}

/-- The first failed check of a plan image for a context: the offset of its field (R283, R288). -/
def State.planBad (s : State) (ctx : Byte) (img : List Byte) (len : Nat) : Option Nat :=
  match planHeadBad img len s.glb.floorPace (s.ctxPart ctx).cals with
  | some o => some o
  | none => planRulesBad s (s.ctxPart ctx) (s.ctxConf ctx) img

/-! ### The ember limits of an INLINE plan (R284) -/

/-- Formats of MXFP8 width or wider. -/
def emberFmt (f : Nat) : Bool := f == 0 || f == 1 || f == 5 || f == 8 || f == 9 || f == 10

/-- The offset of what an ember RUN_PLAN may not hold: another caldera, a DVA, HOST or CONDUIT stream end, a
narrower format. -/
def State.emberBad (s : State) (img : List Byte) : Option Nat :=
  let cals := imgDWord img 0x10
  let get := planCals s img
  let ns := (List.finRange 64).filter (fun n => cals.getLsbD n.val)
  firstBad ([((cals >>> 8) != 0, 0x10)]
    ++ ns.flatMap (fun n =>
      let sched := planSchedule img n (get n)
      sched.map (fun x =>
        let r := x.q.raw
        let y := r.setWidth 256
        (if opOf r = 0x22 then !emberFmt (wlFmt r)
         else if opOf r = 0x23 then rlToSlot y && !emberFmt (rlFmt y)
         else if opOf r = 0x21 then !emberFmt (apAFmt r) || (!apChainOpen r && !emberFmt (apOFmt r))
         else false, x.off))
      ++ (planArmings img n (get n) sched).map (fun a =>
        let out := fun (k : Nat) => k == 1 || k == 2 || k == 3
        (out (dSrcKind a.desc) || out (dDstKind a.desc) || (!dRaw a.desc && !emberFmt (dFmt a.desc)), a.off))))

end Sys2Proof.Machine
end

