-- ==== Sys2Proof/Machine/Plans.lean ====
section
/-! DEFINITION. The life of a loaded plan: its plan beats, suspension, restart, completion and unloading, and
the moves of calderas between contexts (R26, R31, R63 to R68, R116, R151 to R157, R253, R283 to R291, R363 to R365). -/

namespace Sys2Proof.Machine

/-- Every caldera of a plan changed. -/
def State.modCals (s : State) (p : Plan) (f : Fin 64 → Caldera → Caldera) : State :=
  p.calList.foldl (fun s n => s.modCal n (f n)) s

/-- The slots of a plan's armings, ascending by caldera and slot. -/
def State.planSlots (s : State) (p : Plan) : List (Fin 64 × Fin 64) :=
  p.calList.flatMap (fun n => ((List.finRange 64).filter (fun k => s.cals[n].streams[k].plan == some p.handle)).map (fun k => (n, k)))

/-! ### Relay chains at a suspension (R43, R184) -/

/-- The RELAYs of a caldera send again what a suspension discards: each endpoint's words under way, the last forwarded
first (R43, R184; log 55). -/
def Caldera.relaysBack (c : Caldera) (flight : Fin 64 → Nat) : Caldera :=
  { c with relays := (c.relays.foldr (fun r (a : List Relay × Tbl Nat) =>
      if rlForward r.raw then
        let e := rlOutEp r.raw
        let w := tget (flight (Fin.ofNat 64 e)) a.2 e
        ({ r with forwarded := r.forwarded - w } :: a.1, tput a.2 e (w - r.forwarded))
      else (r :: a.1, a.2)) ([], [])).1 }

/-- The slots whose streams feed a region endpoint, or take what it gives. -/
def State.slotsOn (s : State) (g e : Fin 16) : List (Fin 64 × Fin 64) :=
  let r := EpRef.region g e
  if (s.endpoint r).out then s.receivers r
  else match s.conduitSource r with
    | some x => s.senders x
    | none => []

/-- The restart position of a region endpoint: the words of completed armings and those of the saved position of
the stream at the other end. -/
def State.restartPos (s : State) (g : Fin 16) (e : Fin 16) : BitVec 41 :=
  let w : GwEp := s.regions[g].gw[e]
  let ps := (s.slotsOn g e).map (fun x => s.cals[x.1].streams[x.2].savePos / 64)
  w.armBase + BitVec.ofNat 41 (match ps with
    | [] => 0
    | a :: as => as.foldl min a)

/-- The words of a completed arming counted at the region endpoints of its conduits; of a fan-out's receivers
the first one counts. -/
def State.armGateway (s : State) (n k : Fin 64) : State :=
  let t : Stream := s.cals[n].streams[k]
  let words := (dTotal t.desc + 63) / 64
  let add (s : State) (r : EpRef) : State := match r with
    | .region g e => s.modGw g e (fun w => { w with armBase := w.armBase + BitVec.ofNat 41 words })
    | _ => s
  let dst := EpRef.cal n (Fin.ofNat 64 (dDstEp t.desc))
  let s1 := if dDstKind t.desc = 1 then (s.conduitDests dst).foldl add s else s
  match if dSrcKind t.desc = 1 then s.conduitSource (.cal n (Fin.ofNat 64 (dSrcEp t.desc))) else none with
  | some src => if (s.receivers src).head? = some (n, k) then add s1 src else s1
  | none => s1

/-- The gateways present the restart positions of a resumed plan's endpoints (R324). -/
def State.startResync (s : State) (p : Plan) : State :=
  p.gwEps.mergeSort (fun a b => decide (a.1.val * 16 + a.2.val ≤ b.1.val * 16 + b.2.val)) |>.foldl (fun s x =>
    let pos := s.restartPos x.1 x.2
    s.modRegion x.1 (fun r =>
      { r with
        resync := true
        restarts := r.restarts ++ [(x.2, pos)]
        gw := vmod r.gw x.2 (fun w => { w with pos := pos }) })) s

/-! ### DSP records at plan-beat boundaries (R124) -/

/-- A type-2 exception record. -/
def dspRecord (s : State) (ctx : Byte) (beat : Nat) (o : BitVec 24 × Nat) (count : Nat) : BitVec 256 :=
  natAt 256 0 2 ||| natAt 256 16 (min count 65535) ||| at_ 256 32 o.1 ||| natAt 256 64 o.2 ||| natAt 256 128 beat
    ||| at_ 256 192 (s.glb.beatCnt.setWidth 32) ||| at_ 256 224 ctx

/-- The records of the beat that closes. -/
def State.dspRecords (s : State) (p : Plan) (beat : Nat) : State :=
  s.modCals p (fun _ c => match c.dsp.occ with
    | some o => { c.xlogAppend (dspRecord s p.ctx beat o c.dsp.occCnt) with dsp := { c.dsp with occ := none, occCnt := 0 } }
    | none => c)

/-! ### Completion and unloading -/

/-- A caldera without the plan; it is zeroed (R103, R364). -/
def Caldera.clearPlan (h : PlanId) (c : Caldera) : Caldera :=
  { c with
    queue := [], passes := [], replays := [], rings := [], relays := [], issued := 0, relayLog := [], pool := [], fillOrder := 0
    streams := c.streams.map (fun t =>
      if t.plan = some h then t.abort
      else if t.shadowPlan = some h then { t with shadow := none, shadowPlan := none } else t)
    dsp := { c.dsp with busy := false, waiting := false, stopped := false, waitBeats := 0, owed := 0, srch := none
                        rowsSince := Vector.replicate 4 0, occ := none, occCnt := 0 }
    zeroing := true }

/-- A plan unloaded: its conduits are cleared and its calderas zeroed (R137, R181, R184, R279, R364). -/
def State.unload (s : State) (p : Plan) : State :=
  let s1 := if p.resident then (s.clearConduits p.conduits).modCals p (fun _ c => c.clearPlan p.handle) else s
  { s1 with plans := s1.plans.filter (fun q => q.handle != p.handle) }

/-- The result bytes of an INLINE plan go to the host (R282). -/
def State.inlineResult (s : State) (p : Plan) : State :=
  match p.inlineRes with
  | some (dst, n, a, len) => if len = 0 then s else s.emit (.write dst (mreadN s.cals[n].sram a.toNat len.toNat) false false)
  | none => s

/-- A plan whose final beat's work is done completes with OK and the beats it ran (R281, R291); its calderas' DSP records
of that beat are appended as it leaves them (R124; log 100). -/
def State.tryFinish (s : State) (h : PlanId) : State :=
  match s.findPlan h with
  | none => s
  | some p =>
    if p.run = .running ∧ p.beats ≤ p.beat + 1 ∧ p.calList.all (fun n => s.cals[n].beatDone p.handle (p.beats - 1)) then
      let s1 := (s.dspRecords p p.beat).inlineResult p
      let s2 := match p.cmd with
        | some serial => (s1.complete serial 0 0 (BitVec.ofNat 32 p.beats) 0).endWork p.work serial
        | none => s1
      s2.unload p
    else s

/-- A plan aborted: nothing of it is kept, and no replay follows (R62, R68, R116, R137). -/
def State.abortPlan (s : State) (h : PlanId) : State :=
  match s.findPlan h with
  | none => s
  | some p => ((if p.resident then s.modCals p (fun _ c => c.abandon (fun _ => true) false) else s)).unload p

/-! ### Suspension (R31, R65, R151, R153, R184, R289) -/

/-- DETAIL's reason of PLAN_SUSPENDED (R289). -/
def StopReason.code : StopReason → Nat
  | .streamFault => 0 | .remote => 1 | .geyserLost => 2 | .fmtErr => 3 | .dsp => 4 | .preempt => 5

/-- The completion of a run that stops: STREAM_FAULT for the lowest halted slot of the plan, else
PLAN_SUSPENDED with its reason (R153, R289). -/
def State.stopCompletion (s : State) (p : Plan) : State :=
  match p.cmd with
  | none => s
  | some serial =>
    let beat : Word := BitVec.ofNat 32 p.beat
    match (s.planSlots p).find? (fun x => s.cals[x.1].streams[x.2].st == .halted) with
    | some (n, k) =>
      let t : Stream := s.cals[n].streams[k]
      s.stopWork serial p.work 0x20 (faultDetail t.cause.toNat t.vpn (.cal n k)) beat (faultResult t.savePos (.cal n k))
    | none =>
      let why := p.stop.getD .remote
      let own : Bool := why == .fmtErr || why == .dsp
      s.stopWork serial p.work 0x21 (natAt 32 0 why.code) beat (if own then natAt 64 41 p.stopCal.toNat else 0)

/-- What a suspension does on the plan's calderas. -/
def State.haltPlan (s : State) (p : Plan) : State :=
  let s1 := s.modCals p (fun _ c => c.abandon (fun _ => true) true)
  let s2 := (s1.planSlots p).foldl (fun (s : State) x => s.pauseStream (.cal x.1 x.2)) s1
  let faulted (n : Fin 64) : Bool := (s.planSlots p).any (fun x => x.1 == n && s.cals[x.1].streams[x.2].st == .halted)
    || (p.stop == some .fmtErr && p.stopCal.toNat == n.val)
  let s3 := s2.modCals p (fun n c =>
    { c with
      pool := c.pool.filter (fun q => match fin? 64 q.owner with
        | some k => c.streams[k].plan != some p.handle
        | none => false)
      fault := c.fault || faulted n })
  let s4 := s3.modCals p (fun n c => c.relaysBack (fun e => s3.inFlight (.cal n e)))
  (s4.discardWords p.conduits).dspRecords p (p.beat - 1)

/-- The plan is suspended at its plan beat: passes that have not committed are abandoned, staged data and the
words in its conduits are dropped, slots pause, faulted calderas set FAULT (R65, R153, R184).  A plan that is
switched out has nothing on its calderas. -/
def State.suspendPlan (s : State) (h : PlanId) : State :=
  match s.findPlan h with
  | none => s
  | some p =>
    let s4 := if p.resident then s.haltPlan p else s
    (s4.stopCompletion p).modPlan h (fun q =>
      { q with run := .suspended, stop := none, stopDue := false, stopAt := none, noticed := false, cmd := none })

/-- Every pass that the plan issued before its stop boundary has committed (R65). -/
def State.passesDone (s : State) (p : Plan) : Bool := p.calList.all (fun n => s.cals[n].passes.isEmpty)

/-- A stopping plan whose passes have all committed is suspended at a boundary. -/
def State.trySuspend (s : State) (h : PlanId) : State :=
  match s.findPlan h with
  | some p => if p.run = .stopping ∧ s.passesDone p then s.suspendPlan h else s
  | none => s

/-- The boundary that opens beat B + MAX has come (R65). -/
def State.waitExpired (s : State) (p : Plan) : Bool :=
  match p.stopAt with
  | some b => p.run == .stopping && decide (b.toNat + p.waitMax.toNat ≤ s.glb.beatCnt.toNat)
  | none => false

/-- PREEMPT_WAIT_EXPIRY: at the boundary that opens beat B + MAX every pass of the plan that has not committed
is abandoned and the plan is suspended at the plan beat it had reached at B (R62, R65, R66). -/
def execPreemptWaitExpiry (handle : PlanId) (s : State) : Out :=
  match s.findPlan handle with
  | some p => if s.waitExpired p then .next (s.suspendPlan handle) else .next s
  | none => .next s

/-! ### Opening a plan beat (R26, R157) -/

/-- The items of fused chains that a plan beat opens: streams armed from their templates, and the instruction
blocks placed in the queues (R157). -/
def State.fusedItems (s : State) (p : Plan) (b : Nat) : State :=
  p.chains.foldl (fun s ch => ch.2.foldl (fun s g =>
    match itemAt ch.1 g b with
    | none => s
    | some i =>
      let n := sgCal g
      let arm (on : Bool) (slot : Fin 64) (at_ : Nat) (step : Int) (s : State) : State :=
        if on then
          s.submit (.cal n slot)
            { desc := itemDesc (ofBytes 512 (mreadN s.cals[n].sram at_ 64)) step i, owner := 0, ctx := some p.ctx, plan := some p.handle
              first := b, done := b + sgSpan g - 1, item := i }
        else s
      let s1 := arm (sgOutEn g) (sgOut g) (sgOutDesc g) (sgOutStep g) (arm (sgInEn g) (sgIn g) (sgInDesc g) (sgInStep g) s)
      s1.modCal n (fun c => { c with
        queue := ((stageBody c g).getD []).foldl (fun l q => insertByBeat { q with beat := b + q.beat } l) c.queue })) s) s

/-- A WBEAT counts one plan-beat boundary; one that opens while the unit is still on its way to its WBEAT, after a suspension
in mid-beat, counts for that WBEAT (R106, R116). -/
def Dsp.countBeat (d : Dsp) : Dsp :=
  if d.waiting then
    if d.waitBeats ≤ 1 then ({ d with waiting := false, waitBeats := 0 }).advancePc else { d with waitBeats := d.waitBeats - 1 }
  else if d.busy then { d with owed := d.owed + 1 }
  else d

/-- WBEAT is reached: the unit waits for `n` boundaries, less those that have opened already. -/
def Dsp.await (d : Dsp) (n : Nat) : Dsp :=
  if n ≤ d.owed then ({ d with owed := d.owed - n }).advancePc else { d with waiting := true, waitBeats := n - d.owed, owed := 0 }

/-- A plan beat opens. -/
def State.openPlanBeat (s : State) (p : Plan) (b : Nat) : State :=
  let s1 := s.modPlan p.handle (fun q => { q with run := .running, beat := b, start := none, resuming := false })
  let s2 := if b = 0 then s1 else s1.modCals p (fun _ c => { c with dsp := c.dsp.countBeat })
  (s2.fusedItems p b).tryFinish p.handle

/-- A slot that held a block at the suspension, reloaded from its recorded source; a chain whose head lies on another
device delivers the block it delivered before (R41; log 97). -/
def State.reloadSlot (s : State) (n : Fin 64) (w : WSlot) : WSlot :=
  if w.st = .ready ∨ w.st = .pinned then
    if w.far then { w with st := .ready } else loadSlot s.cals[w.chain.getD n] w
  else w

/-- A suspended plan starts again: slots reloaded, streams restarted from their saved positions, gateways
resynchronised, the DSP unit released (R41, R63, R116, R154, R324). -/
def State.restartPlan (s : State) (p : Plan) : State :=
  let slots := s.planSlots p
  let s1 := slots.foldl (fun (s : State) x =>
    let opened (t : Stream) : Bool := decide (0 < t.savePos) || decide (t.first < p.beat)
    s.modCal x.1 (fun c => { c with streams := vmod c.streams x.2 (fun t => t.restart (opened t)) })) s
  let s2 := s1.modCals p (fun n c =>
    { c with
      arrs := c.arrs.map (fun a => { a with slotA := s.reloadSlot n a.slotA, slotB := s.reloadSlot n a.slotB })
      replays := c.replays.map (fun r => { r with parked := false })
      dsp := { c.dsp with stopped := false } })
  if p.gwEps.isEmpty then s2 else s2.startResync p

/-- One plan at a boundary that opens beat `b` (R26, R65, R253, R285). -/
def State.openPlan (s : State) (b : DWord) (h : PlanId) : State :=
  match s.findPlan h with
  | none => s
  | some p =>
    match p.run with
    | .waiting =>
      if p.stopDue then s.suspendPlan h
      else if p.resident ∧ (p.start.map (fun x => decide (x.toNat ≤ b.toNat))).getD true then
        let s1 := if p.resuming then s.restartPlan p else s
        s1.openPlanBeat p p.beat
      else s
    | .running =>
      if p.stopDue then ((s.dspRecords p p.beat).modPlan h (fun q => q.stopAtBoundary b s.glb.preemptMax)).trySuspend h
      else
        let s1 := (s.dspRecords p p.beat).tryFinish h
        if (s1.findPlan h).isSome ∧ p.beat + 1 < p.beats then s1.openPlanBeat p (p.beat + 1) else s1
    | .stopping => s.trySuspend h
    | _ => s

/-! ### Starting and resuming a run (R127, R253, R284, R285) -/

/-- A run starts: the plan waits for its start beat and, where another context holds its calderas, for
them; gated calderas that it names wake. -/
def State.startRun (s : State) (h : PlanId) (serial : Nat) (start : DWord) : State :=
  match s.findPlan h with
  | none => s
  | some p =>
    (s.modCals p (fun _ c => c.startWake)).modPlan h (fun q =>
      { q with run := .waiting, beat := 0, start := some start, resuming := false, cmd := some serial, work := some serial })

/-- A suspended plan's run goes on under a RESUME. -/
def State.resumeRun (s : State) (h : PlanId) (serial : Nat) (start : DWord) : State :=
  s.modPlan h (fun q => { q with run := .waiting, start := some start, resuming := true, cmd := some serial })

/-! ### Calderas between contexts (R363 to R365) -/

/-- A resident plan of another context holds a caldera that the plan names. -/
def State.heldAgainst (s : State) (ctx : Byte) (cals : DWord) : Bool :=
  s.plans.any (fun q => q.resident && q.ctx != ctx && (q.cals &&& cals) != 0)

/-- A waiting plan that is switched out needs calderas of this one, which may leave them: it is suspended, or a
PREEMPT asks for them. -/
def State.mayEvict (s : State) (q : Plan) : Bool :=
  q.resident && (q.run == .suspended || (q.run == .loaded && q.evict))
    && s.plans.any (fun p => !p.resident && p.run == .waiting && p.ctx != q.ctx && (p.cals &&& q.cals) != 0)
    && q.calList.all (fun n => s.cals[n].relays.isEmpty && !s.cals[n].loading)

/-- A weight slot as the save area gives it back: without its block, which a chain from another device alone brings
again (R41, R365; log 97). -/
def WSlot.saved (w : WSlot) : WSlot := { w with image := if w.far then w.image else [] }

/-- A DSP unit read back; a sticky flag that is set stays set (R12, R365). -/
def Dsp.restoreFrom (d sv : Dsp) : Dsp :=
  { sv with invalid := d.invalid || sv.invalid, sat := d.sat || sv.sat, flush := d.flush || sv.flush, fault := d.fault || sv.fault }

/-- A check unit read back; a sticky flag that is set stays set (R12, R365). -/
def Chk.restoreFrom (k sv : Chk) : Chk := { sv with overrun := k.overrun || sv.overrun, paramErr := k.paramErr || sv.paramErr }

/-- A stream slot read back; a sticky flag that is set stays set (R12, R365). -/
def Stream.restoreFrom (t sv : Stream) : Stream := { sv with overrun := t.overrun || sv.overrun, descErr := t.descErr || sv.descErr }

/-- What the 25 frames of a caldera give back (R365); the array contents and weight slots were zeroed. -/
def Caldera.restoreFrom (c : Caldera) (sram : Memory) (sv : Caldera) : Caldera :=
  { c with
    sram := sram, segs := sv.segs, queue := sv.queue, passes := sv.passes, replays := sv.replays, rings := sv.rings
    relays := sv.relays, relayLog := sv.relayLog, issued := sv.issued, dsp := c.dsp.restoreFrom sv.dsp, chk := Vector.ofFn (fun i : Fin 2 => (c.chk[i] : Chk).restoreFrom sv.chk[i]), xlog := sv.xlog, xlogOvf := c.xlogOvf || sv.xlogOvf
    streams := Vector.ofFn (fun i : Fin 64 => (c.streams[i] : Stream).restoreFrom sv.streams[i]), stgBase := sv.stgBase, stgShape := sv.stgShape, pool := sv.pool, fillOrder := sv.fillOrder
    arrs := Vector.ofFn (fun i : Fin 16 =>
      { c.arrs[i] with
        slotA := sv.arrs[i].slotA.saved
        slotB := sv.arrs[i].slotB.saved
        gen := sv.arrs[i].gen }) }

/-- The 25 save-area frames of a caldera, for a context of its partition; none for a context made in ember mode (R365). -/
def State.saveArea (s : State) (ctx : Byte) (n : Fin 64) : List (Fin 8 × Nat) :=
  match tfind s.sec.ctxs ctx.toNat with
  | none => []
  | some x => (x.saveArea.drop (25 * ((setBits (s.sec.parts[x.part] : Part).cals).idxOf n.val))).take 25

/-- What a save-area frame of a caldera takes: the SRAM in the first 24, every other piece of state in the last. -/
def saveBlock (sram : Memory) (seed k i : Nat) : Data2048 :=
  if k < 24 then ofBytes 2048 (mreadN sram (524288 * k + 256 * i) 256) else Config.savedState seed i

/-- A caldera's state written to its save area (R365; log 56). -/
def State.saveCal (s : State) (ctx : Byte) (x : Fin 64 × Caldera) : State :=
  let d := s.draw
  ((s.saveArea ctx x.1).zipIdx).foldl (fun s f => s.saveFrame ctx f.1 (saveBlock x.2.sram d.1.toNat f.2)) d.2

/-- What a plan that is switched out keeps beside its save area: all but the SRAM. -/
def State.savedCal (s : State) (ctx : Byte) (x : Fin 64 × Caldera) : Fin 64 × Caldera :=
  if (s.saveArea ctx x.1).isEmpty then x else (x.1, { x.2 with sram := [] })

/-- The SRAM that a caldera's save area gives back. -/
def State.savedSram (s : State) (ctx : Byte) (x : Fin 64 × Caldera) : Memory :=
  let fs := s.saveArea ctx x.1
  if fs.isEmpty then x.2.sram
  else (((fs.take 24).flatMap (s.savedFrame ctx)).zipIdx.map (fun b => (b.2, b.1))).filter (fun c => c.2 != Memory.unlisted)

/-- A plan switched out: its calderas and conduits go to the save area and the calderas are zeroed (R365). -/
def State.switchOut (s : State) (q : Plan) : State :=
  let gw := q.gwEps.map (fun x => (x.1, x.2, (s.regions[x.1].gw[x.2] : GwEp).armBase))
  let cals := q.calList.map (fun n => (n, s.cals[n]))
  let s1 := ((cals.foldl (fun s x => s.saveCal q.ctx x) s).clearConduits q.conduits).modCals q (fun _ c => c.clearPlan q.handle)
  s1.modPlan q.handle (fun p => { p with resident := false, evict := false, saved := cals.map (s.savedCal q.ctx), savedGw := gw })

/-- A plan switched in: its save area is read back (R364, R365). -/
def State.switchIn (s : State) (p : Plan) : State :=
  let s1 := p.saved.foldl (fun (t : State) x =>
    ((s.saveArea p.ctx x.1).foldl State.countFrame t).modCal x.1 (fun c => c.restoreFrom (s.savedSram p.ctx x) x.2)) s
  let s2 := p.savedGw.foldl (fun (s : State) x => s.modRegion x.1 (fun r =>
    { r with gw := vmod r.gw x.2.1 (fun w => { w with armBase := x.2.2 }) })) (s1.setupConduits p.conduits)
  s2.modPlan p.handle (fun q => { q with resident := true, saved := [], savedGw := [] })

/-- A plan's calderas are awake and zeroed. -/
def State.calsReady (s : State) (cals : DWord) : Bool :=
  (List.finRange 64).all (fun n => !cals.getLsbD n.val || (!s.cals[n].zeroing && !s.cals[n].waking && !s.cals[n].gated))

/-- The moves of calderas at a boundary: plans that must leave are switched out, waiting ones switched in (R364). -/
def State.switchContexts (s : State) : State :=
  let s1 := s.plans.foldl (fun (s : State) q =>
    match s.findPlan q.handle with
    | some q => if s.mayEvict q then s.switchOut q else s
    | none => s) s
  s1.plans.foldl (fun (s : State) p =>
    match s.findPlan p.handle with
    | some p =>
      if !p.resident ∧ p.run = .waiting ∧ !s.heldAgainst p.ctx p.cals ∧ s.calsReady p.cals then s.switchIn p
      else s
    | none => s) s1

/-! ### Events that may end a run -/

/-- PASS_COMMIT: the oldest drained pass of a tile in its last plan beat commits, with its chain, as one
event; the commit of the final plan beat completes the run (R60, R61, R65, R66, R291). -/
def execPassCommit (cal : Fin 64) (tile : Fin 4) (s : State) : Out :=
  match committable s cal tile, s.planOn cal with
  | some p, some pl => .next ((commitPass s cal p pl.ctx).tryFinish pl.handle)
  | _, _ => .next s

/-- ARMING_COMPLETE: the active arming has moved its last byte, and every pass that it served has committed (R137). -/
def execArmingComplete (slot : SlotRef) (s : State) : Out :=
  if s.armFinished slot then
    match slot with
    | .cal n k =>
      let s1 := (s.armGateway n k).armDone slot
      match (s.stm slot).plan with
      | some h => .next (s1.tryFinish h)
      | none => .next s1
    | .cp _ => .next (s.armDone slot)
  else .next s

/-- WBEAT: wait for IMM further plan-beat boundaries (R106, R108). -/
def execWbeat (cal : Fin 64) (s : State) : Out :=
  match s.dspNext cal 0x50, s.planOn cal with
  | some i, some p =>
    .next ((s.modCal cal (fun c => c.modDsp (fun d => d.await (dspImm i)))).tryFinish p.handle)
  | _, _ => .next s

/-- END: the unit stops and is idle until the next plan is run (R108). -/
def execDspEnd (cal : Fin 64) (s : State) : Out :=
  match s.dspNext cal 0x5F, s.planOn cal with
  | some _, some p => .next ((dspStop s cal).tryFinish p.handle)
  | _, _ => .next s

end Sys2Proof.Machine
end

