-- ==== Sys2Proof/Machine/CheckUnit.lean ====
section
/-! DEFINITION. The check-value units (R118 to R123) and the exception log (R124, R125). -/

namespace Sys2Proof.Machine

def State.chk (s : State) : ChkRef → Chk
  | .cal n u => s.cals[n].chk[u]
  | .cfg u => s.cfg.chk[u]
  | .mc u => s.pwr.chk[u]

def State.modChk (s : State) (r : ChkRef) (f : Chk → Chk) : State :=
  match r with
  | .cal n u => s.modCal n (fun c => { c with chk := vmod c.chk u f })
  | .cfg u => s.modCfg (fun c => { c with chk := vmod c.chk u f })
  | .mc u => s.modPwr (fun c => { c with chk := vmod c.chk u f })

/-! Fields of CHK_CTL -/
def Chk.width (k : Chk) : Nat := nfld k.ctl 0 7
def Chk.widthOk (k : Chk) : Bool := decide (1 ≤ k.width) && decide (k.width ≤ 64)
def Chk.foldLen (k : Chk) : Nat := if nfld k.ctl 9 2 = 1 then 4 else if nfld k.ctl 9 2 = 2 then 8 else 0
def Chk.foldTag (k : Chk) : Bool := bitAt k.ctl 11
def Chk.src (k : Chk) : Nat := nfld k.ctl 12 3
def Chk.block (k : Chk) : Bool := bitAt k.ctl 15

/-- The parameters with every value masked to the width (R118). -/
def Chk.param (k : Chk) : CrcParam :=
  { width := k.width, poly := k.poly.toNat % 2 ^ k.width, init := k.init.toNat % 2 ^ k.width,
    xorout := k.xorout.toNat % 2 ^ k.width, refin := bitAt k.ctl 7, refout := bitAt k.ctl 8 }

/-- One byte fed: VALUE steps and the byte count grows (R118). -/
def Chk.feed (k : Chk) (b : Byte) : Chk :=
  { k with value := BitVec.ofNat 64 (crcGenByte k.param (k.value.toNat % 2 ^ k.width) b), count := k.count + 1 }

/-- The fold bytes, from FOLD_VAL or from a block's tag (R120). -/
def Chk.foldBytes (k : Chk) (tag : Option DWord) : List Byte :=
  toBytes (match tag with
    | some t => if k.foldTag then t else k.foldVal
    | none => k.foldVal) k.foldLen

/-- CHK_RESULT for a register value: fold, reflection, final XOR; 0 while WIDTH is 0 or above 64, for which R118 gives no
result (R118, R120; log 99). -/
def Chk.resultOf (k : Chk) (v : Nat) (tag : Option DWord) : DWord :=
  if k.widthOk then
    BitVec.ofNat 64 (crcGenFinal k.param ((k.foldBytes tag).foldl (crcGenByte k.param) (v % 2 ^ k.width)))
  else 0

/-- CHK_RESULT; in block snoop mode the tag is that of the snooped block (R120). -/
def Chk.result (k : Chk) : DWord := k.resultOf k.value.toNat (if k.block then some k.tag else none)

/-- START: INIT into VALUE, counts zero, snooping free to run (R121, R123; log 23). -/
def Chk.start (k : Chk) : Chk :=
  { k with value := BitVec.ofNat 64 (k.init.toNat % 2 ^ k.width), count := 0, mismatch := 0, blocks := 0, frozen := false }

/-- A write of CHK_CTL that takes effect: a width outside 1 to 64 sets PARAM_ERR, BLOCK on a source without a block
check is ignored and sets it, and a field with a reserved encoding keeps its value (R118, R122, R304). -/
def Chk.putCtl (k : Chk) (w : Word) : Chk :=
  let w1 := if nfld w 9 2 = 3 then putFld w 9 (fld k.ctl 9 2) else w
  let w2 := if 4 < nfld w 12 3 then putFld w1 12 (fld k.ctl 12 3) else w1
  let k1 := { k with ctl := fld w2 0 24 }
  let noBlock := k1.block && !(k1.src == 2 || k1.src == 3)
  let k2 := if noBlock then { k1 with ctl := putFld k1.ctl 15 (0#1) } else k1
  let k3 := if !k2.widthOk || (noBlock && k2.src != 0) then { k2 with paramErr := true } else k2
  if bitAt w 24 then k3.start else k3

/-- VALUE after a write of one half of it, masked to the width. -/
def Chk.halfValue (k : Chk) (hi : Bool) (w : Word) : DWord :=
  BitVec.ofNat 64 ((putFld k.value (if hi then 32 else 0) w).toNat % 2 ^ k.width)

/-- A byte of the queue as its turn comes: fed in feed mode; ignored with PARAM_ERR in a snoop mode, and not accepted
with an invalid width (R118, R119, R122). -/
def Chk.takeByte (k : Chk) (b : Byte) : Chk :=
  if k.src ≠ 0 then { k with paramErr := true } else if k.widthOk then k.feed b else k

/-- One step of the unit's queue: a byte, or a queued write in its place (R119). -/
def Chk.pump (k : Chk) : Chk :=
  match k.queue with
  | [] => k
  | .ctl w :: q => ({ k with queue := q }).putCtl w
  | .half hi w :: q => { k with queue := q, value := k.halfValue hi w }
  | .bytes [] :: q => { k with queue := q }
  | .bytes (b :: bs) :: q => ({ k with queue := if bs.isEmpty then q else .bytes bs :: q }).takeByte b

/-- Steps that an entry takes. -/
def ChkEntry.steps : ChkEntry → Nat
  | .bytes b => max 1 b.length
  | _ => 1

/-- Several steps of the queue. -/
def Chk.pumps (k : Chk) : Nat → Chk
  | 0 => k
  | n + 1 => k.pump.pumps n

/-- The unit after every entry that stands in its queue (R119). -/
def Chk.settle (k : Chk) : Chk := k.pumps ((k.queue.map ChkEntry.steps).sum)

/-- A full queue holds back the writer until its first entry has been processed (R119). -/
def Chk.makeRoom (k : Chk) : Chk :=
  match k.queue with
  | e :: _ => if 64 ≤ k.queue.length then k.pumps e.steps else k
  | [] => k

/-- A write enters the queue (R119). -/
def Chk.enqueue (k : Chk) (e : ChkEntry) : Chk :=
  let k1 := k.makeRoom
  { k1 with queue := k1.queue ++ [e] }

/-- A write of one half of CHK_VALUE, in its place in the queue (R119, R303). -/
def Chk.queueHalf (k : Chk) (hi : Bool) (w : Word) : Chk :=
  if k.queue.isEmpty then { k with value := k.halfValue hi w } else k.enqueue (.half hi w)

/-- A data write: it waits for its turn in the queue, and with an empty queue it is ignored at once in a snoop mode or
with an invalid width (R118, R119, R122). -/
def Chk.write (k : Chk) (b : List Byte) : Chk :=
  if k.queue.isEmpty ∧ k.src ≠ 0 then { k with paramErr := true }
  else if k.queue.isEmpty ∧ !k.widthOk then k
  else k.enqueue (.bytes b)

/-- Whether a write to the unit's registers is dropped: its caldera runs a plan, is gated or wakes (R117, R128). -/
def State.chkRefused (s : State) : ChkRef → Bool
  | .cal n _ => s.runsPlan n || s.cals[n].gated || s.cals[n].waking
  | _ => false

/-- A write to a unit of a caldera does not reach it (R373, R385). -/
def State.chkShut (s : State) : ChkRef → Bool
  | .cal n _ => s.calShut n
  | _ => false

/-- A write to a unit's register, or the refusal of it. -/
def State.chkWrite (s : State) (r : ChkRef) (f : Chk → Chk) : State :=
  if s.chkShut r then s
  else if s.chkRefused r then
    match r with
    | .cal n _ => s.modCal n (fun c => { c with accessRefused := true })
    | _ => s
  else s.modChk r f

/-- CHK_DATA8: one byte enters the queue (R119). -/
def execChkData8 (unit : ChkRef) (value : Byte) (s : State) : Out := .next (s.chkWrite unit (·.write [value]))

/-- CHK_DATA16: a half-word, least significant byte first (R119). -/
def execChkData16 (unit : ChkRef) (value : BitVec 16) (s : State) : Out :=
  .next (s.chkWrite unit (·.write (toBytes value 2)))

/-- CHK_DATA32: a word, least significant byte first (R119). -/
def execChkData32 (unit : ChkRef) (value : Word) (s : State) : Out :=
  .next (s.chkWrite unit (·.write (toBytes value 4)))

/-- A queued write of CHK_CTL; START in it loads INIT and clears the counts when it takes effect (R119, R121). -/
def Chk.queueCtl (k : Chk) (w : Word) : Chk := if k.queue.isEmpty then k.putCtl w else k.enqueue (.ctl w)

/-- CHK_START: a write of CHK_CTL with START (R121). -/
def execChkStart (unit : ChkRef) (ctl : Word) (s : State) : Out :=
  .next (s.chkWrite unit (·.queueCtl (ctl ||| 0x01000000#32)))

/-- CHK_FEED: the unit processes one queued byte or write (R118, R119). -/
def execChkFeed (unit : ChkRef) (s : State) : Out := .next (s.modChk unit Chk.pump)

/-- One step of a snooped bus (R122, R123): in stream mode the bytes enter VALUE, in block mode the block is
checked; more than 256 bytes stop the snoop. -/
def Chk.snoop (k : Chk) (bytes : List Byte) (tag carried : DWord) : Chk :=
  if k.src = 0 ∨ 4 < k.src ∨ !k.widthOk ∨ k.frozen then k
  else if k.block then
    if 256 < bytes.length then { k with overrun := true, frozen := true }
    else
      let k1 := bytes.foldl Chk.feed { k with value := BitVec.ofNat 64 (k.init.toNat % 2 ^ k.width) }
      let bad := k1.resultOf k1.value.toNat (some tag) ≠ BitVec.ofNat 64 (carried.toNat % 2 ^ k.width)
      { k1 with tag := tag, blocks := satInc k1.blocks, mismatch := if bad then satInc k1.mismatch else k1.mismatch }
  else
    let k1 := (bytes.take 256).foldl Chk.feed k
    if 256 < bytes.length then { k1 with overrun := true, frozen := true } else k1

/-- XLOG_POP: the oldest record of a caldera's exception log is removed (R125). -/
def execXlogPop (cal : Fin 64) (s : State) : Out :=
  if s.calShut cal then .next s else .next (s.modCal cal (fun c => { c with xlog := c.xlog.pop }))

/-- XLOG_CLEAR: every record is removed and the drop count zeroed (R125). -/
def execXlogClear (cal : Fin 64) (s : State) : Out :=
  if s.calShut cal then .next s else .next (s.modCal cal (fun c => { c with xlog := c.xlog.clear }))

end Sys2Proof.Machine
end

