-- ==== Sys2Proof/Machine/Cells.lean ====
section
/-! DEFINITION. User logic: cells, flip-flops, carry chains and block memories, and the clocks that drive them (R309 to
R318). -/

namespace Sys2Proof.Machine

/-! ### Cells and block memories (R311 to R315) -/

/-- O6 and O5 of a look-up table of 64 bits: whole, or split with A6 held at 1. -/
def lutOut (split : Bool) (table : DWord) (a : BitVec 6) : Bool × Bool :=
  if split then (table.getLsbD (32 + (a.setWidth 5).toNat), table.getLsbD (a.setWidth 5).toNat) else (table.getLsbD a.toNat, false)

/-- The controls of a flip-flop. -/
structure FfControl where
  sr : Bool
  async : Bool
  srval : Bool
  ce : Bool
  data : Bool
deriving DecidableEq, Repr

/-- A flip-flop between edges, and at an edge of its clock, in the priority of R312. -/
def ffHold (c : FfControl) (q : Bool) : Bool := if c.sr && c.async then c.srval else q
def ffEdge (c : FfControl) (q : Bool) : Bool := if c.sr then c.srval else if !c.ce then q else c.data

/-- Sum and carry-out of a cell: its O6, bypass input and carry-in (R313). -/
def carryCell (o6 dx ci : Bool) : Bool × Bool := (o6 != ci, if o6 then ci else dx)

/-- A chain of cells in ascending order: sums and the last carry. -/
def carryChain (ci : Bool) : List (Bool × Bool) → List Bool × Bool
  | [] => ([], ci)
  | (o6, dx) :: l =>
    let x := carryCell o6 dx ci
    let r := carryChain x.2 l
    (x.1 :: r.1, r.2)

/-- What a port's data output shows after its own write (R314). -/
def ownWriteOut (m : WriteMode) (old new shown : BitVec 72) : BitVec 72 :=
  match m with
  | .writeFirst => new
  | .readFirst => old
  | .noChange => shown

/-! ### Signals of a region -/

/-- Words may move at an endpoint: it is bound, and its plan neither suspended nor resynchronised (R320, R324, R326). -/
def Region.open_ (r : Region) (e : Fin 16) : Bool := r.gw[e].ep.en && !r.isolated && !r.resync && !r.paused.getLsbD e.val

/-- A signal that an endpoint presents to the logic. -/
def Region.sig (r : Region) (e : Fin 16) : GwSig → Bool
  | .inData i => ((r.gw[e].inBuf.head?).getD 0).getLsbD i.val
  | .inValid => r.open_ e && r.gw[e].ep.dest && !r.gw[e].inBuf.isEmpty
  | .outReady => r.open_ e && r.gw[e].ep.source && decide (r.gw[e].outBuf.length < 4)
  | .bound => r.gw[e].ep.en && !r.isolated
  | .beat => r.gwBeat.getLsbD e.val
  | .beatLo i => r.beatLo.getLsbD i.val
  | .resync => r.resync
  | .resyncValid => !r.restarts.isEmpty
  | .resyncEp i => ((r.restarts.head?).map (fun x => x.1.val.testBit i.val)).getD false
  | .resyncPos i => ((r.restarts.head?).map (fun x => x.2.getLsbD i.val)).getD false

/-- The stored value of a cell's flip-flop. -/
def Region.ff (r : Region) (cell : Nat) (b : Bool) : Bool := r.ffs.getLsbD (2 * cell + b.toNat)

/-- What a port's data output shows. -/
def Region.memOut (r : Region) (m : MemCfg) (i : Nat) (portB : Bool) : BitVec 72 :=
  let x : MemState := tget {} r.mems i
  if portB then (if m.b.outReg then x.regB else x.outB) else (if m.a.outReg then x.regA else x.outA)

/-- The value of a signal between clock edges: look-up tables (R311), carry chains, which run through the cells of a
column (R313), flip-flops with their asynchronous set-reset (R312), memory outputs and the endpoints' signals.  A loop of
more cells than `fuel` settles to `Config.loopValue`. -/
def Region.value (f : Netlist) (r : Region) : Nat → Src → Bool
  | 0, _ => Config.loopValue
  | fuel + 1, src =>
    let v := Region.value f r fuel
    match src with
    | .const b => b
    | .gateway e g => r.sig e g
    | .mem i b k => match f.mems[i]? with
      | some m => (r.memOut m i b).getLsbD k
      | none => false
    | .cell i o => match f.cells[i]? with
      | none => false
      | some c =>
        let lut := lutOut c.split c.table (BitVec.ofFnLE (fun k : Fin 6 => ((c.a[k.val]?).map v).getD false))
        let ci := if i % 1024 = 0 then (f.columnCi[i / 1024]?).getD false else v (.cell (i - 1) .carry)
        let ff (x : FfCfg) (b : Bool) : Bool :=
          ffHold { sr := x.async && v x.sr, async := x.async, srval := x.srval, ce := false, data := false } (r.ff i b)
        match o with
        | .o6 => lut.1
        | .o5 => lut.2
        | .sum => (carryCell lut.1 (v c.dx) ci).1
        | .carry => (carryCell lut.1 (v c.dx) ci).2
        | .ffa => ff c.ffa false
        | .ffb => ff c.ffb true

/-- The value of a signal: a path visits each output of each cell at most once. -/
def Region.read (f : Netlist) (r : Region) (src : Src) : Bool := r.value f (6 * f.cells.length + 2) src

/-! ### A clock edge -/

/-- A flip-flop at an edge of the net `net`, or held by its asynchronous set-reset (R312). -/
def Region.ffNext (f : Netlist) (r : Region) (net : Fin 16) (i : Nat) (c : CellCfg) (b : Bool) : Bool :=
  let x := if b then c.ffb else c.ffa
  if x.net = net then
    ffEdge { sr := r.read f x.sr, async := x.async, srval := x.srval, ce := r.read f x.ce
             data := match x.data with
               | .o6 => r.read f (.cell i .o6)
               | .o5 => r.read f (.cell i .o5)
               | .dx => r.read f c.dx } (r.ff i b)
  else r.read f (.cell i (if b then .ffb else .ffa))

/-- Signals as a number, the first its lowest bit. -/
def Region.readNat (f : Netlist) (r : Region) (l : List Src) : Nat :=
  l.foldr (fun x n => 2 * n + (r.read f x).toNat) 0

/-- The place of bit `k` of word `a` at a width: words of whole 9-bit bytes follow one another; at ×1, ×2 and ×4 the
ninth bits are left out (R314; log 87). -/
def memBit (width a k : Nat) : Nat :=
  if width % 9 = 0 then width * a + k
  else let n := width * a + k
       9 * (n / 8) + n % 8

/-- A word of a memory at a width, and the memory with it replaced. -/
def memWord (bits : BitVec 36864) (width a : Nat) : BitVec 72 :=
  (List.range width).foldl (fun w k => w ||| flagAt 72 k (bits.getLsbD (memBit width a k))) 0
def memPut (bits : BitVec 36864) (width a : Nat) (w : BitVec 72) : BitVec 36864 :=
  (List.range width).foldl (fun b k => putFld b (memBit width a k) (fld w k 1)) bits

/-- What a port does at an edge: whether it acts, its word's address, and the word that it writes. -/
structure PortAct where
  on : Bool
  addr : Nat
  write : Option (BitVec 72)
deriving DecidableEq, Repr

/-- A port at an edge of the net `net`; a simple dual-port memory's port A only writes and its port B only reads. -/
def Region.portAct (f : Netlist) (r : Region) (net : Fin 16) (z : BramShape) (p : BramPort) (mayWrite : Bool) : PortAct :=
  { on := p.net == net && r.read f p.en, addr := r.readNat f (p.addr.take z.addrBits)
    write := if mayWrite && r.read f p.we then some (BitVec.ofNat 72 (r.readNat f p.data)) else none }

/-- A port's data output after an edge (R314, R315). -/
def PortAct.out (x : PortAct) (z : BramShape) (p : BramPort) (bits : BitVec 36864) (shown : BitVec 72) : BitVec 72 :=
  if !x.on then shown
  else match x.write with
    | some w => ownWriteOut p.mode (memWord bits z.width x.addr) w shown
    | none => memWord bits z.width x.addr

/-- The memory's bits after a port's write. -/
def PortAct.store (x : PortAct) (z : BramShape) (bits : BitVec 36864) : BitVec 36864 :=
  match x.on, x.write with
  | true, some w => memPut bits z.width x.addr w
  | _, _ => bits

/-- A block memory at an edge of the net `net`: reads see the old words, and of two writes on a common clock port A's
word stays (R314, R315). -/
def Region.memEdge (f : Netlist) (r : Region) (net : Fin 16) (m : MemCfg) (i : Nat) : MemState :=
  let x : MemState := tget {} r.mems i
  let simple : Bool := m.shape == .x72
  let a := r.portAct f net m.shape m.a true
  let b := r.portAct f net m.shape m.b (!simple)
  { bits := a.store m.shape (b.store m.shape x.bits)
    outA := if simple then x.outA else a.out m.shape m.a x.bits x.outA, outB := b.out m.shape m.b x.bits x.outB
    regA := if m.a.net = net then x.outA else x.regA, regB := if m.b.net = net then x.outB else x.regB }

/-- One rising edge of a local net; GW_BEAT of the endpoints on the net has then been high for one clock (R322). -/
def Region.edge (f : Netlist) (r : Region) (net : Fin 16) : Region :=
  { r with
    gwBeat := (List.finRange 16).foldl (fun b e => if r.gw[e].net.toNat = net.val then putFld b e.val (0 : BitVec 1) else b) r.gwBeat
    ffs := f.cells.zipIdx.foldl (fun w x =>
      putFld w (2 * x.2) (BitVec.ofBool (r.ffNext f net x.2 x.1 true) ++ BitVec.ofBool (r.ffNext f net x.2 x.1 false))) r.ffs
    mems := f.mems.zipIdx.foldl (fun t x => tset {} t x.2 (r.memEdge f net x.1 x.2)) r.mems }

/-- The flip-flops hold what an asynchronous set-reset forces them to (R312). -/
def Region.latch (f : Netlist) (r : Region) : Region :=
  { r with
    ffs := f.cells.zipIdx.foldl (fun w x =>
      if x.1.ffa.async ∨ x.1.ffb.async then
        putFld w (2 * x.2) (BitVec.ofBool (r.read f (.cell x.2 .ffb)) ++ BitVec.ofBool (r.read f (.cell x.2 .ffa)))
      else w) r.ffs }

/-! ### The load of a region's logic (R312, R314, R330, R341) -/

/-- The flip-flops at their INIT values. -/
def Netlist.inits (f : Netlist) : BitVec 196608 :=
  f.cells.zipIdx.foldl (fun w x => putFld w (2 * x.2) (BitVec.ofBool x.1.ffb.init ++ BitVec.ofBool x.1.ffa.init)) 0

/-- The block memories at their initial contents: data bit j of the MEM frame of minor m is bit 4,096 × m + j (R330). -/
def memInits (frames : List (Nat × BitVec 4096)) : Tbl MemState :=
  frames.foldl (fun t x =>
    let i := x.1 / 2 ^ 16 % 2 ^ 10
    let m : MemState := tget {} t i
    tset {} t i { m with bits := putFld m.bits (4096 * (x.1 / 2 ^ 8 % 2 ^ 8)) x.2 }) []

/-! ### Clocks (R317 to R319) -/

def Pll.div (p : Pll) : Nat := nfld p.cfg 8 6
def Pll.out (p : Pll) (j : Nat) : Nat := nfld p.outDiv (8 * j) 8

/-- The PLL that drives a local net of a region's die, and the output. -/
def netPll (region : Fin 16) (net : Nat) : Fin 8 := Fin.ofNat 8 (4 * (region.val / 8) + net / 4)

/-- A local net runs. -/
def State.netRuns (s : State) (region : Fin 16) (net : Nat) : Bool :=
  let p : Pll := s.plls[netPll region net]
  p.locked && p.out (net % 4) != 0

/-- The frequency of a PLL's reference in Hz: the link reference, or its user clock input within the limits of R412
(R317). -/
def refHz (k : Fin 8) (user : Bool) : Nat :=
  if user then max 10000000 (min 800000000 (Config.userClock k.val)) else 156250000

/-- How far an output advances in a tick of 6.4 ns, and its cycle, in the same unit (R317). -/
def Pll.advance (p : Pll) (k : Fin 8) : Nat := refHz k (bitAt p.cfg 0) * nfld p.cfg 16 8
def Pll.cycle (p : Pll) (j : Nat) : Nat := 156250000 * p.div * p.out j

/-- Rising edges of an output in the next tick. -/
def Pll.edges (p : Pll) (k : Fin 8) (j : Fin 4) : Nat :=
  if p.locked && p.cycle j.val != 0 then (p.phase[j] + p.advance k) / p.cycle j.val else 0

/-- A PLL after a tick. -/
def Pll.tick (p : Pll) (k : Fin 8) : Pll :=
  if p.locked then { p with phase := Vector.ofFn (fun j : Fin 4 => if p.cycle j.val = 0 then 0 else (p.phase[j] + p.advance k) % p.cycle j.val) }
  else p

/-- Rising edges of a local net of a region in the next tick. -/
def State.netEdges (s : State) (r : Fin 16) (net : Fin 16) : Nat :=
  let k := netPll r net.val
  (s.plls[k] : Pll).edges k (Fin.ofNat 4 net.val)

/-- The LOGIC frames of a region that configuration memory lists, and its MEM frames. -/
def Cfg.logicFrames (c : Cfg) (r : Fin 16) : List (Nat × BitVec 4096) := c.frames.filter (fun x => x.1 / 2 ^ 26 == r.val)
def Cfg.memFrames (c : Cfg) (r : Fin 16) : List (Nat × BitVec 4096) := c.frames.filter (fun x => x.1 / 2 ^ 26 == 16 + r.val)

/-- The rising edges of a local net in the next tick: net, and the time of the edge as a fraction of the tick. -/
def State.netTimes (s : State) (r : Fin 16) (net : Fin 16) : List (Fin 16 × Nat × Nat) :=
  let k := netPll r net.val
  let p : Pll := s.plls[k]
  (List.range (s.netEdges r net)).map (fun i =>
    (net, (i + 1) * p.cycle (net.val % 4) - p.phase[(Fin.ofNat 4 net.val)], p.advance k))

/-- The endpoint belongs to a plan that is suspended, or that waits to be resumed. -/
def State.gwPaused (s : State) (g e : Fin 16) : Bool :=
  s.plans.any (fun p => p.resident && (p.run == .suspended || (p.run == .waiting && p.resuming)) && p.gwEps.contains (g, e))

/-- A region over a tick: the asynchronous set-resets, and the edges of its nets in the order of their times; those at one
time in ascending or descending order of the nets (R312, R315; log 87). -/
def State.regionTick (s : State) (up : Bool) (i : Fin 16) : Region :=
  let r : Region := s.regions[i]
  let nets := (List.finRange 16).filter (fun n => s.netEdges i n != 0)
  let f := Config.netlist (s.cfg.logicFrames i)
  if r.cfg = 2 ∧ !r.initHeld then
    let paused := (List.finRange 16).foldl (fun (b : BitVec 16) e => b ||| flagAt 16 e.val (s.gwPaused i e)) 0
    (((if up then nets else nets.reverse).flatMap (s.netTimes i)).mergeSort (fun a b => decide (a.2.1 * b.2.2 ≤ b.2.1 * a.2.2))).foldl
      (fun r n => (r.edge f n.1).latch f) (({ r with paused := paused } : Region).latch f)
  else r

/-- User logic over one tick of the link reference: every ACTIVE region and every PLL that is locked go on; which of two
clocks at one time comes first is open (R315, R323). -/
def State.logicTick (s : State) : State :=
  if s.plls.any (fun p => p.locked) then
    let x := s.draw
    { x.2 with regions := Vector.ofFn (fun i => s.regionTick (bitAt x.1 0) i), plls := Vector.ofFn (fun k => (s.plls[k] : Pll).tick k) }
  else { s with regions := Vector.ofFn (fun i => s.regionTick true i) }

end Sys2Proof.Machine
end

