-- ==== Sys2Proof/Machine/Rings.lean ====
section
/-! DEFINITION. Submission and completion rings, doorbells, the fetch, the checks and the start of commands, and
the writing of completions (R265 to R280, R288). -/

namespace Sys2Proof.Machine

/-! ### Ring registers (R265, R266, R269) -/

/-- Slots of a ring: LOG2_SIZE outside 6 to 16 counts as 6. -/
def ringSize (log2 : BitVec 5) : Nat := 2 ^ (if 6 ≤ log2.toNat ∧ log2.toNat ≤ 16 then log2.toNat else 6)
def SqRing.size (r : SqRing) : Nat := ringSize r.log2
def CqRing.size (r : CqRing) : Nat := ringSize r.log2

/-- The partition that an enabled ring is restricted to; none for an owner ring. -/
def SqRing.partition (r : SqRing) : Option Nat :=
  if r.part = 8 then none else if r.part.toNat < 8 then some r.part.toNat else some 0

/-- Slots submitted and not yet fetched. -/
def SqRing.unfetched (r : SqRing) : Nat := (r.size + r.tail.toNat - r.head.toNat) % r.size

def State.modSq (s : State) (q : Fin 64) (f : SqRing → SqRing) : State := s.modCp (fun c => { c with sq := vmod c.sq q f })
def State.modCq (s : State) (q : Fin 64) (f : CqRing → CqRing) : State := s.modCp (fun c => { c with cq := vmod c.cq q f })

/-- A write of CP_SQ_CTL (R265). -/
def SqRing.putCtl (r : SqRing) (w : Word) : SqRing :=
  if r.en then { r with en := bitAt w 0 }
  else
    let r1 := { r with log2 := fld w 1 5, cq := fld w 6 6, part := fld w 12 4 }
    if bitAt w 0 then { r1 with en := true, head := 0, tail := 0 } else r1

/-- A write of CP_CQ_CTL (R265). -/
def CqRing.putCtl (r : CqRing) (w : Word) : CqRing :=
  if r.en then { r with en := bitAt w 0 }
  else
    let r1 := { r with log2 := fld w 1 5, vector := if nfld w 6 7 < 72 then fld w 6 7 else r.vector, irqAll := bitAt w 13 }
    if bitAt w 0 then { r1 with en := true, head := 0, tail := 0, phase := true } else r1

/-- The commands of a ring that were submitted and never fetched leave when the ring is enabled anew. -/
def State.dropSubmitted (s : State) (q : Fin 64) : State :=
  s.modCp (fun c => { c with cmds := c.cmds.filter (fun k => !(k.ring == q && k.phase == .submitted)) })

/-- A write of CP_SQ_CTL of a ring. -/
def State.writeSqCtl (s : State) (q : Fin 64) (w : Word) : State :=
  let fresh : Bool := !s.cp.sq[q].en && bitAt w 0
  (if fresh then s.dropSubmitted q else s).modSq q (fun r => r.putCtl w)

/-- SQ_ENABLE: a write of CP_SQ_CTL with EN = 1; head and tail start at 0 (R265). -/
def execSqEnable (ring : Fin 64) (ctl : Word) (s : State) : Out :=
  if !s.serving then .next s else .next (s.writeSqCtl ring (ctl ||| 1))

/-- SQ_DISABLE: a write of EN = 0; fetching stops and fetched commands run on (R265). -/
def execSqDisable (ring : Fin 64) (s : State) : Out :=
  if !s.serving then .next s else .next (s.modSq ring (fun r => { r with en := false }))

/-- CQ_ENABLE: a write of CP_CQ_CTL with EN = 1; head and tail start at 0 and the phase at 1 (R265). -/
def execCqEnable (ring : Fin 64) (ctl : Word) (s : State) : Out :=
  if !s.serving then .next s else .next (s.modCq ring (fun r => r.putCtl (ctl ||| 1)))

/-- CQ_DISABLE: a write of EN = 0; the ring then counts as full (R265, R268). -/
def execCqDisable (ring : Fin 64) (s : State) : Out :=
  if !s.serving then .next s else .next (s.modCq ring (fun r => { r with en := false }))

/-- Commands made outstanding by a tail doorbell: `packets` are those that the host has in the slots, in slot order
(log 60). -/
def submitted (ring : Fin 64) (size : Nat) (packets : List Data1024) (first serial : Nat) : Nat → List Cmd
  | 0 => []
  | k + 1 =>
    { serial := serial, ring := ring, slot := BitVec.ofNat 16 (first % size), packet := packets.headD 0 }
      :: submitted ring size packets.tail (first + 1) (serial + 1) k

/-- SQ_TAIL: a doorbell submits packets, which hold their tags from here on, or is ignored and sets DB_ERR (R266,
R271). -/
def execSqTail (ring : Fin 64) (bell : Doorbell) (s : State) : Out :=
  if !s.serving then .next s else
  let r := s.cp.sq[ring]
  let n := (r.size + bell.tail.toNat - r.tail.toNat) % r.size
  if !r.en ∨ r.size ≤ bell.tail.toNat ∨ r.size - 1 < n + r.unfetched then .next (s.modSq ring (fun r => { r with dbErr := true }))
  else
    .next ((s.modSq ring (fun r => { r with tail := bell.tail.setWidth 16 })).modCp (fun c =>
      { c with cmds := c.cmds ++ submitted ring r.size bell.packets r.tail.toNat c.nextSerial n, nextSerial := c.nextSerial + n }))

/-- CQ_HEAD: a doorbell releases consumed slots, or is ignored and sets DB_ERR (R266, R268). -/
def execCqHead (ring : Fin 64) (value : Word) (s : State) : Out :=
  if !s.serving then .next s else
  let r := s.cp.cq[ring]
  if !r.en ∨ r.size ≤ value.toNat then .next (s.modCq ring (fun r => { r with dbErr := true }))
  else .next (s.modCq ring (fun r => { r with head := value.setWidth 16 }))

/-- The opcode of ABORT. -/
def opABORT : Nat := 0x32

/-- A command that has not started; a decoded ABORT has (R274, R278). -/
def Cmd.unstarted (k : Cmd) : Bool := k.phase == .submitted || (k.phase == .fetched && pkOpcode k.packet != opABORT)

/-- A ring's oldest command that has not started. -/
def State.oldestUnstarted (s : State) (ring : Fin 64) : Option Cmd := s.cp.cmds.find? (fun k => k.ring == ring && k.unstarted)

/-- The command whose packet is the next that a ring reads; none when that command was aborted. -/
def State.nextFetch (s : State) (ring : Fin 64) : Option Cmd :=
  s.cp.cmds.find? (fun k => k.ring == ring && k.phase == .submitted && k.slot == s.cp.sq[ring].head)

/-- A command lies at most eight slots behind the oldest unstarted one of its ring (R274). -/
def State.inWindow (s : State) (k : Cmd) : Bool :=
  let n := s.cp.sq[k.ring].size
  match s.oldestUnstarted k.ring with
  | some o => decide ((n + k.slot.toNat - o.slot.toNat) % n ≤ 8)
  | none => true

/-- The slot at a ring's head has been read. -/
def SqRing.passHead (r : SqRing) : SqRing := { r with head := BitVec.ofNat 16 ((r.head.toNat + 1) % r.size) }

/-- COMMAND_FETCH: the next submitted packet of a ring is read, once, while it lies at most eight slots behind the
oldest unstarted command; of an aborted command's packet nothing comes (R267, R274). -/
def execCommandFetch (ring : Fin 64) (packet : Data1024) (s : State) : Out :=
  if !s.cp.sq[ring].en ∨ s.cp.sq[ring].unfetched = 0 then .next s
  else match s.nextFetch ring with
    | none => .next (s.modSq ring SqRing.passHead)
    | some k =>
      if s.inWindow k then
        .next ((s.modCmd k.serial (fun c => { c with packet := packet, phase := .fetched })).modSq ring SqRing.passHead)
      else .next s

/-! ### Completions (R268, R269, R273) -/

/-- CP_CQ_STATUS.FULL: 1 while the ring is disabled, after reset too, as R268 has it; the register table gives reset 0
(log 109). -/
def CqRing.full (r : CqRing) : Bool := !r.en || (r.tail.toNat + 1) % r.size == r.head.toNat % r.size

/-- A completion entry as it is written (R273). -/
def Completion.entry (c : Completion) (phase : Bool) : BitVec 256 :=
  at_ 256 0 c.tag ||| at_ 256 32 c.status ||| flagAt 256 48 phase ||| natAt 256 49 c.ring.val ||| at_ 256 56 c.ctx
    ||| at_ 256 64 c.detail ||| at_ 256 96 c.result0 ||| at_ 256 128 c.result1 ||| at_ 256 192 c.beat

/-- The last 256 completed tags of each tag space, newest first (R290). -/
def noteTag (recent : List (Byte × Word)) (ctx : Byte) (tag : Word) : List (Byte × Word) :=
  let mine := (ctx, tag) :: recent.filter (fun x => x.1 == ctx)
  mine.take 256 ++ recent.filter (fun x => x.1 != ctx)

/-- A command's completion has been written. -/
def State.cmdDone (s : State) (k : Cmd) : Bool :=
  k.phase == .suspended && !s.cp.waiting.any (fun c => c.serial == k.serial)

/-- The completion of an ABORT waits for that of its target (R291). -/
def State.heldBack (s : State) (c : Completion) : Bool :=
  match c.after with
  | some t => s.cp.cmds.any (fun k => k.serial == t && !s.cmdDone k)
  | none => false

/-- The completions that may be written to a ring, oldest first. -/
def State.readyFor (s : State) (ring : Fin 64) : List Completion :=
  s.cp.waiting.filter (fun c => c.cq == ring && !s.heldBack c)

/-- COMPLETION_WRITE: the oldest completion waiting for a ring is written at its tail and signalled; while the
ring is full it waits (R268, R269). -/
def execCompletionWrite (ring : Fin 64) (s : State) : Out :=
  let r := s.cp.cq[ring]
  match (s.readyFor ring).head? with
  | none => .next s
  | some c =>
    if r.full then .next s
    else
      let s1 := s.emit (.write (r.base + BitVec.ofNat 64 (32 * r.tail.toNat)) (toBytes (c.entry r.phase) 32) false false)
      let s2 := if r.irqAll || c.irq || c.status != 0 then s1.emit (.msix r.vector) else s1
      let tail := (r.tail.toNat + 1) % r.size
      let s3 := s2.modCq ring (fun r => { r with tail := BitVec.ofNat 16 tail, phase := if tail = 0 then !r.phase else r.phase })
      .next (s3.modCp (fun p => { p with
        waiting := p.waiting.erase c
        recent := noteTag p.recent c.ctx c.tag
        cmds := p.cmds.filter (fun k => !(k.serial == c.serial && k.phase == .finished)) }))

/-! ### The opcodes (R281) -/

inductive CtxKind where
  | own | ownOrDevice | new | device
deriving DecidableEq, Repr

def opATTEST : Nat := 0x60

/-- The context rule and the ember availability of an opcode; none when it is not listed. -/
def opInfo (op : Nat) : Option (CtxKind × Bool) :=
  if op = 0x01 then some (.ownOrDevice, true) else if op = 0x10 then some (.new, true)
  else if op = 0x11 then some (.own, true) else if op = 0x20 ∨ op = 0x21 ∨ op = 0x30 then some (.own, false)
  else if op = 0x31 then some (.own, true) else if op = 0x32 then some (.ownOrDevice, true)
  else if op = 0x33 ∨ op = 0x40 then some (.own, false) else if op = 0x50 then some (.device, false)
  else if op = 0x51 then some (.own, false) else if op = 0x60 then some (.device, true)
  else if op = 0x61 then some (.own, false) else if op = 0x70 ∨ op = 0x71 ∨ op = 0x72 then some (.device, false)
  else if op = 0x80 ∨ op = 0x81 ∨ op = 0x82 ∨ op = 0x90 then some (.device, true)
  else if op = 0xA0 then some (.device, false) else if op = 0xF0 then some (.device, true) else none

/-- Parameter fields of an opcode: byte, lowest bit, width (R282). -/
def opFields (op : Nat) : List (Nat × Nat × Nat) :=
  if op = 0x10 then [(0x10, 0, 4)] else if op = 0x20 then [(0x10, 0, 21), (0x14, 0, 17), (0x18, 0, 64)]
  else if op = 0x21 then [(0x10, 0, 21), (0x14, 0, 17)] else if op = 0x30 then [(0x10, 0, 16), (0x18, 0, 64), (0x20, 0, 32)]
  else if op = 0x31 then
    [(0x10, 0, 16), (0x12, 0, 3), (0x18, 0, 64), (0x20, 0, 64), (0x28, 0, 32), (0x30, 0, 64), (0x38, 0, 30), (0x3C, 0, 24)]
  else if op = 0x32 then [(0x10, 0, 32), (0x14, 0, 1), (0x16, 0, 16)]
  else if op = 0x33 then [(0x10, 0, 32), (0x14, 0, 1), (0x18, 0, 64)]
  else if op = 0x40 then [(0x10, 0, 512), (0x50, 0, 11), (0x52, 0, 8), (0x54, 0, 5), (0x54, 7, 1)]
  else if op = 0x50 then [(0x18, 0, 64), (0x20, 0, 32), (0x24, 0, 1)]
  else if op = 0x51 then [(0x10, 0, 4), (0x18, 0, 64), (0x20, 0, 32), (0x24, 0, 1)]
  else if op = 0x60 then [(0x10, 0, 256), (0x30, 0, 64), (0x38, 0, 32)]
  else if op = 0x61 then [(0x10, 0, 4), (0x18, 0, 64), (0x20, 0, 32)]
  else if op = 0x70 then [(0x10, 0, 384), (0x40, 0, 64)]
  else if op = 0x71 then [(0x10, 0, 10), (0x12, 0, 11), (0x18, 0, 64)]
  else if op = 0x72 then [(0x10, 0, 16), (0x12, 0, 1), (0x14, 0, 10), (0x18, 0, 64)]
  else if op = 0x80 then [(0x10, 0, 4), (0x14, 0, 32)]
  else if op = 0x81 then [(0x14, 0, 32), (0x18, 0, 64), (0x20, 0, 32)]
  else if op = 0x90 then [(0x10, 0, 16), (0x18, 0, 64), (0x20, 0, 32)]
  else if op = 0xA0 then [(0x10, 0, 16)]
  else if op = 0xF0 then [(0x18, 0, 64), (0x20, 0, 32)]
  else []

/-- The host buffers of an opcode, which are 8-byte aligned (R282). -/
def opHosts (op : Nat) (p : Data1024) : List Nat :=
  if op = 0x20 ∨ op = 0x30 ∨ op = 0x50 ∨ op = 0x51 ∨ op = 0x61 ∨ op = 0x71 ∨ op = 0x81 ∨ op = 0x90 ∨ op = 0xF0 then [0x18]
  else if op = 0x31 then (if bitAt p 145 then [0x20, 0x30] else [])
  else if op = 0x60 then [0x30] else if op = 0x70 then [0x40] else []

/-- Parameter bits of a packet that no field of its opcode covers. -/
def spareBits (op : Nat) (p : Data1024) : Data1024 :=
  (opFields op).foldl (fun r f => putFld r (8 * f.1 + f.2.1) (0 : BitVec f.2.2)) (putFld (putFld p 0 (0 : BitVec 128)) 992 (0 : BitVec 32))

/-- Range rules of the parameters (R148, R282, R374): failing field offsets. -/
def rangeRules (op : Nat) (p : Data1024) : List (Bool × Nat) :=
  let n (off lo k : Nat) : Nat := rnum p off lo k
  if op = 0x20 ∨ op = 0x21 then
    [(n 0x14 0 17 == 0 || decide (65536 < n 0x14 0 17) || decide (2097152 < n 0x10 0 21 + n 0x14 0 17), 0x14)]
  else if op = 0x31 then [(bitAt p 145 && decide (sramSize < n 0x38 0 24 + n 0x3C 0 24), 0x38)]
  else if op = 0x32 then [(bitAt p 17 || bitAt p 18, 0x02)]
  else if op = 0x61 then [(n 0x10 0 4 != 0, 0x10), (n 0x20 0 32 != 228, 0x20)]
  else if op = 0x71 then [(n 0x12 0 11 == 0 || decide (1024 < n 0x12 0 11) || decide (1024 < n 0x10 0 10 + n 0x12 0 11), 0x12)]
  else if op = 0x81 then [(n 0x20 0 32 == 0 || decide (1048576 < n 0x20 0 32), 0x20)]
  else if op = 0xA0 then [(decide (n 0x10 0 16 < 600) || decide (1650 < n 0x10 0 16), 0x10)]
  else if op = 0xF0 then [(n 0x20 0 32 != 4096, 0x20)]
  else []

/-- Check 7: the lowest offset of a field in error (R275, R288). -/
def paramBad (op : Nat) (p : Data1024) : Option Nat :=
  let spare := ((List.range 124).filter (fun i => rnum (spareBits op p) i 0 8 != 0))
  let ranges := ((rangeRules op p).filter (fun x => x.1)).map (fun x => x.2)
  let hosts := (opHosts op p).filter (fun o => rnum p o 0 3 != 0)
  let values := if op = 0x40 then (descValues (rfld p 0x10 0 512)).map (fun x => (x.1, x.2 + 0x10)) else []
  firstOff ((spare ++ ranges ++ hosts).map (fun o => (true, o)) ++ values)

/-! ### The checks at start (R275) -/

/-- A packet whose CHECK fails (R272). -/
def checkBad (k : Cmd) : Bool :=
  let fold : Word := natAt 32 16 k.ring.val ||| k.slot.setWidth 32
  crc32c (toBytes k.packet 124 ++ toBytes fold 4) != rfld k.packet 0x7C 0 32

/-- Check 1: the packet's check over its first 124 bytes and the fold bytes of its ring and slot (R272), reserved
bits of the header, WAIT fields without their enable. -/
def packetBad (k : Cmd) : Bool :=
  let p := k.packet
  checkBad k || rnum p 2 4 4 != 0
    || (!bitAt p 17 && rnum p 8 0 32 != 0) || (!bitAt p 18 && rnum p 0xC 0 32 != 0)

/-- A context's row: present, and being scrubbed. -/
def State.ctx (s : State) (c : Byte) : Option Ctx := tfind s.sec.ctxs c.toNat

/-- What a check answers: a status with its DETAIL. -/
abbrev Verdict := Option (Nat × Word)

def badAt (check off : Nat) : Nat × Word := (0x12, natAt 32 0 off ||| natAt 32 8 check)

/-- Checks 2 and 3: a listed opcode, allowed in ember mode. -/
def State.checkOpcode (s : State) (k : Cmd) : Verdict :=
  match opInfo (pkOpcode k.packet) with
  | none => some (0x11, 0)
  | some (_, ember) => if s.cp.ember ∧ !ember then some (0x13, 0) else none

/-- Check 4: the kind of context, and the ring's partition (R265, R281, R362). -/
def State.checkCtxKind (s : State) (k : Cmd) : Verdict :=
  let c := pkCtx k.packet
  let part := s.cp.sq[k.ring].partition
  let bad := some (badAt 4 0x03)
  match opInfo (pkOpcode k.packet) with
  | none => none
  | some (kind, _) =>
    let elsewhere : Bool := match part, s.ctx c with
      | some q, some x => x.part.val != q
      | _, _ => false
    if c = 0xFF then
      if (kind = .device ∨ kind = .ownOrDevice) ∧ part = none then none else bad
    else match kind with
      | .device => bad
      | .new =>
        if (s.ctx c).isSome then bad
        else match part with
          | some q => if rnum k.packet 0x10 0 3 ≠ q then some (badAt 4 0x10) else none
          | none => none
      | _ => if elsewhere then bad else none

/-- Check 5: the context is not being scrubbed, exists, and is carried by IDE when confidential (R264); an ABORT that
was outstanding when the scrub came due passes (R292). -/
def State.checkCtxState (s : State) (k : Cmd) : Verdict :=
  let c := pkCtx k.packet
  if c = 0xFF then none
  else if (opInfo (pkOpcode k.packet)).map (·.1) = some .new then
    if s.sec.parts[Fin.ofNat 8 (rnum k.packet 0x10 0 3)].resetting then some (0x40, 0) else none
  else match s.ctx c with
    | none => some (0x41, 0)
    | some x =>
      if x.scrubbing ∧ !(pkOpcode k.packet == opABORT && decide (k.serial < x.scrubFrom)) then some (0x40, 0)
      else if x.conf ∧ !s.cp.ideActive then some (badAt 5 0x03) else none

/-- A command holds its tag, from the doorbell on: its completion is not written, or its work is suspended (R271). -/
def Cmd.holdsTag (k : Cmd) (c : Byte) (tag : Word) : Bool := pkCtx k.packet == c && pkTag k.packet == tag

/-- Another command held the tag of this one when it was submitted, or has started with it since (R271, R275). -/
def State.tagTaken (s : State) (k : Cmd) : Bool :=
  s.cp.cmds.any (fun x => x.serial != k.serial && x.holdsTag (pkCtx k.packet) (pkTag k.packet)
    && (decide (x.serial < k.serial) || (x.phase != .submitted && x.phase != .fetched)))

/-- The checks of R275 from 1 to 7 in their order. -/
def State.checks (s : State) (k : Cmd) : Verdict :=
  if packetBad k then some (0x10, k.slot.setWidth 32)
  else (s.checkOpcode k) <|> (s.checkCtxKind k) <|> (s.checkCtxState k)
    <|> (if s.tagTaken k then some (badAt 6 0x04) else none)
    <|> ((paramBad (pkOpcode k.packet) k.packet).map (badAt 7))

/-! ### The start (R276, R277) -/

/-- A wait on a tag is satisfied: no command of the tag space submitted earlier with that tag lacks its written
completion. -/
def State.waitMet (s : State) (k : Cmd) (tag : Word) : Bool :=
  s.cp.cmds.all (fun x => decide (k.serial ≤ x.serial) || !x.holdsTag (pkCtx k.packet) tag || s.cmdDone x)

/-- A fetched command may leave its ring's queue: the order of the ring, its waits, room on its completion ring. -/
def State.mayStart (s : State) (k : Cmd) : Bool :=
  let to_ : Fin 64 := Fin.ofNat 64 s.cp.sq[k.ring].cq.toNat
  let before := s.cp.cmds.filter (fun x => x.ring == k.ring && decide (x.serial < k.serial))
  let ordered := if pkParallel k.packet then before.all (fun x => x.phase != .submitted && x.phase != .fetched)
    else before.all s.cmdDone
  let waits := (pkWait0 k.packet).toList ++ (pkWait1 k.packet).toList
  ordered && !s.cp.cq[to_].full && (checkBad k || waits.all (s.waitMet k))

/-- A start counted; that of an FW_UPDATE_DATA or FW_UPDATE_COMMIT starts the 60 s of R401 again. -/
def State.noteStart (s : State) (serial : Nat) : State :=
  let s1 := s.modCp (fun c => { c with starts := c.starts + 1 })
  match s.findCmd serial with
  | some k =>
    if pkOpcode k.packet = 0x81 ∨ pkOpcode k.packet = 0x82 then
      s1.modPwr (fun p => { p with update := p.update.map (fun u => { u with lastTick := s.now }) })
    else s1
  | none => s1

/-- A command's start on the verdict of the checks: refused with its status, or running. -/
def State.startOn (s : State) (serial : Nat) : Verdict → State
  | some (st, detail) => s.complete serial st detail 0 0
  | none => (s.noteStart serial).modCmd serial (fun c => { c with phase := .started, startedAt := s.now, startNo := s.cp.starts })

/-- A command starts: refused by the first failing check, or running. -/
def State.startCmd (s : State) (k : Cmd) : State := s.startOn k.serial (s.checks k)

/-- COMMAND_START: the oldest unstarted command of a ring, an ABORT apart, starts once its order and its waits
allow; an ATTEST that reaches its start while an update is open is held (R276, R277, R379). -/
def execCommandStart (ring : Fin 64) (s : State) : Out :=
  match s.oldestUnstarted ring with
  | none => .next s
  | some k =>
    if k.phase = .fetched ∧ s.mayStart k then
      if pkOpcode k.packet = opATTEST ∧ s.cp.fwOpen ∧ !packetBad k then
        .next (s.modCmd k.serial (fun c => { c with heldSince := c.heldSince <|> some s.now }))
      else .next (s.startCmd k)
    else .next s

/-- The effect of a started command whose opcode is `op`; nothing on any other, or on one whose effect has begun. -/
def State.withCmd (s : State) (serial op : Nat) (f : Cmd → State) : Out :=
  match s.findCmd serial with
  | some k => if k.phase = .started ∧ pkOpcode k.packet = op ∧ !k.begun then .next (f k) else .next s
  | none => .next s

/-- The command's effect has begun. -/
def State.begin (s : State) (serial : Nat) : State := s.modCmd serial (fun c => { c with begun := true })

/-- NOP: completes with OK (R281). -/
def execNop (cmd : Nat) (s : State) : Out := s.withCmd cmd 0x01 (fun k => s.completeOk k.serial)

end Sys2Proof.Machine
end

