-- ==== Sys2Proof/Machine/ConfigLoad.lean ====
section
/-! DEFINITION. Configuration frames and their check bits, the checks and the course of a load, forwarding, and
the fumarole (R330 to R353). -/

namespace Sys2Proof.Machine

/-! ### Frame addresses (R330, R331) -/

def farClass (far : Word) : Nat := nfld far 30 2
def farRegion (far : Word) : Fin 16 := fld far 26 4 |>.toFin
def farMajor (far : Word) : Nat := nfld far 16 10
def farMinor (far : Word) : Nat := nfld far 8 8

/-- A valid frame address. -/
def farValid (far : Word) : Bool :=
  nfld far 0 8 == 0 &&
    (match farClass far with
    | 0 => decide (farMajor far < 96) && decide (farMinor far < 38)
    | 1 => decide (farMajor far < 768) && decide (farMinor far < 9)
    | 2 => nfld far 26 4 == 0 && decide (farMajor far < 2) && decide (farMinor far < 128)
    | _ => false)

/-! ### Frames in configuration memory (R333) -/

def Cfg.frame (c : Cfg) (far : Word) : BitVec 4096 := tget (0 : BitVec 4096) c.frames far.toNat
def Cfg.check (c : Cfg) (far : Word) : BitVec 14 := tget (0 : BitVec 14) c.checks far.toNat

/-- One segment written; segment 31 stores the check bits. -/
def Cfg.putSegment (c : Cfg) (far : Word) (seg : Nat) (data : BitVec 128) : Cfg :=
  let d := putFld (c.frame far) (128 * seg) data
  let c1 := { c with frames := tset (0 : BitVec 4096) c.frames far.toNat d }
  if seg = 31 then { c1 with checks := tset (0 : BitVec 14) c1.checks far.toNat (cfgFrameCheck d) } else c1

/-- A whole frame written: its 32 segments. -/
def Cfg.putFrame (c : Cfg) (far : Word) (d : BitVec 4096) : Cfg :=
  (List.range 32).foldl (fun c i => c.putSegment far i (fld d (128 * i) 128)) c

/-- The flip-flops of a region held in the INIT state of the logic that its frames hold now (R312, R340). -/
def State.holdInit (s : State) (r : Fin 16) : State :=
  s.modRegion r (fun x => { x with ffs := (Config.netlist (s.cfg.logicFrames r)).inits })

/-- A frame of a region that is LOADING has changed: its flip-flops stay in INIT (R340). -/
def State.frameChanged (s : State) (far : Word) : State :=
  if farClass far = 0 ∧ s.regions[farRegion far].cfg = 1 then s.holdInit (farRegion far) else s

/-- A frame written into configuration memory while a load runs (R340; log 133). -/
def State.putFrame (s : State) (far : Word) (d : BitVec 4096) : State := (s.modCfg (fun c => c.putFrame far d)).frameChanged far

/-- CFG_WRITE: a CFG WRITE packet writes one segment of a frame (R333). -/
def execCfgWrite (far : Word) (seg : Fin 32) (data : BitVec 128) (s : State) : Out :=
  if farValid far then .next ((s.modCfg (fun c => c.putSegment far seg.val data)).frameChanged far) else .next s

/-- CFG_READ: a CFG READ packet answers with one segment of a frame (R333). -/
def execCfgRead (far : Word) (seg : Fin 32) (s : State) : Out :=
  if farValid far then .next (s.modCfg (fun c => { c with answer := fld (c.frame far) (128 * seg.val) 128 })) else .next s

/-! ### Region states (R345) -/

/-- A region starts: INIT and the memories' contents are loaded and the hold released, the endpoints take the image's
bindings (R312, R314, R329, R341). -/
def Region.start (frames mems : List (Nat × BitVec 4096)) (r : Region) : Region :=
  { r with
    cfg := 2, initHeld := false, ffs := (Config.netlist frames).inits, mems := memInits mems
    gw := Vector.ofFn (fun e : Fin 16 =>
      let b := Config.gwBinding frames e.val
      { r.gw[e] with net := fld b 0 4, used := bitAt b 4 }) }

def State.modRegions (s : State) (f : Fin 16 → Region → Region) : State :=
  { s with regions := Vector.ofFn (fun i => f i s.regions[i]) }

/-- The regions that a load covers. -/
def Load.covers (l : Load) (r : Fin 16) : Bool := l.full || l.region == r

/-! ### Load records and outcome (R342, R344) -/

/-- CFG_LAST. -/
def Cfg.lastWord (c : Cfg) : Word := at_ 32 0 c.lastStatus ||| at_ 32 16 c.lastCheck ||| at_ 32 24 c.lastSource

/-- CFG_LAST and its companions take an outcome. -/
def Cfg.putLast (c : Cfg) (status check source frames off : Nat) : Cfg :=
  { c with lastStatus := BitVec.ofNat 16 status, lastCheck := BitVec.ofNat 8 check, lastSource := BitVec.ofNat 2 source,
           lastFrames := BitVec.ofNat 32 frames, lastOffset := BitVec.ofNat 32 off }

/-- CONFIG_ status codes (R287). -/
def stREJECTED : Nat := 0x30
def stWRONG : Nat := 0x31
def stTRUNCATED : Nat := 0x32
def stVIOLATION : Nat := 0x33
def stDIGEST : Nat := 0x34

/-- The management event of a forwarded outcome (R347, R395). -/
def State.forwardedEvent (s : State) (region : Nat) : State :=
  s.raise 4 17 region (if s.cfg.lastStatus = 0 then 0 else 2) s.cfg.lastWord s.cfg.lastFrames

/-- The command of a load completes and the load ends. -/
def State.endLoad (s : State) (l : Load) (o : Nat × Nat × Nat) : State :=
  let s1 := s.modCfg (fun c => { c with load := none })
  match l.cmd with
  | some serial => s1.complete serial o.1 (BitVec.ofNat 32 l.applied) (BitVec.ofNat 32 o.2.1) (BitVec.ofNat 64 o.2.2)
  | none => s1

/-- The stream being received is over on this device: its later packets are only forwarded (R339, R346). -/
def Cfg.closeStream (c : Cfg) : Cfg := { c with fwdOpen := none, fwd := [] }

/-- A load is running, local or forwarded (R338). -/
def Cfg.streaming (c : Cfg) : Bool := c.load.isSome || c.fwdOpen.isSome

/-- The local outcome of a load: a failure past the point of no return leaves its regions in REGION_FAILED; a forwarded
stream is over with it; while a local load still has bytes to forward, the completion waits (R342, R344, R346). -/
def State.settle (s : State) (l : Load) (status check off : Nat) : State :=
  let s1 := if status ≠ 0 ∧ l.past then
      s.modRegions (fun r x => if l.covers r then { x with cfg := 3, digest := 0 } else x) else s
  let s2 := s1.modCfg (fun c =>
    let c1 := c.putLast status check l.source.toNat l.applied off
    if l.source = 1 then c1.closeStream else c1)
  let s3 := if stREJECTED ≤ status ∧ status ≤ stDIGEST then s2.cfgEvent 0 l.region.val s2.cfg.lastWord else s2
  let s4 := if l.source = 1 then s3.forwardedEvent l.region.val else s3
  if l.forward ∧ l.source = 0 ∧ l.got < l.length ∧ check ≠ 6 ∧ status ≠ 2 then
    s4.modCfg (fun c => { c with load := some { l with outcome := some (status, check, off) } })
  else s4.endLoad l (status, check, off)

/-! ### Forwarding (R346) -/

/-- A CFG packet's payload. -/
def cfgPayload (stream : BitVec 16) (first last cancel : Bool) (seq : Word) (bytes : List Byte) : BitVec 1920 :=
  natAt 1920 0 3 ||| natAt 1920 64 ((8 + bytes.length) / 4 - 1) ||| at_ 1920 128 stream ||| flagAt 1920 144 first
    ||| flagAt 1920 145 last ||| flagAt 1920 146 cancel ||| at_ 1920 160 seq ||| at_ 1920 192 (ofBytes 1728 bytes)

/-- A CFG packet on every forwarding port. -/
def State.sendCfg (s : State) (pl : BitVec 1920) : State :=
  (List.finRange 12).foldl (fun s p =>
    if s.fab.cfgOut.getLsbD p.val ∧ s.ports[p].carries then
      s.sendOn p none (mkFlit s.cfg.outId[p] s.fab.id 2 0x08 0 false pl)
    else s) s

/-- Whole packets of 216 bytes leave; the last one takes the rest. -/
def State.sendChunks (s : State) (l : Load) (last : Bool) : Nat → State × Load
  | 0 => (s, l)
  | k + 1 =>
    if l.out = [] then (s, l)
    else if l.out.length ≤ 216 then
      if last then
        (s.sendCfg (cfgPayload l.stream (l.seq == 0) true false l.seq l.out), { l with out := [], seq := l.seq + 1 })
      else (s, l)
    else (s.sendCfg (cfgPayload l.stream (l.seq == 0) false false l.seq (l.out.take 216))).sendChunks
      { l with out := l.out.drop 216, seq := l.seq + 1 } last k

/-- Bytes of a local load received, counted and, with FORWARD = 1, sent on. -/
def State.takeBytes (s : State) (l : Load) (b : List Byte) : State × Load :=
  let l1 := { l with got := l.got + b.length }
  if l.forward ∧ l.source = 0 then
    s.sendChunks { l1 with out := l1.out ++ b } (decide (l1.length ≤ l1.got)) (l1.out.length + b.length)
  else (s, l1)

/-! ### Checks 1 to 4 (R317, R334 to R336, R339) -/

def hdMasks (h : List Byte) : Nat := imgWord h 0x18 % 128
def hdMaps (h : List Byte) : Nat := imgWord h 0x18 / 256 % 128
def hdFrames (h : List Byte) : Nat := imgWord h 0x14
def hdFull (h : List Byte) : Bool := imgWord h 4 / 65536 % 2 == 0
def hdRegion (h : List Byte) : Fin 16 := Fin.ofNat 16 (imgWord h 4 / 2 ^ 24)
def hdLength (h : List Byte) : Nat := imgWord h 0x10
/-- Bytes before the first frame record. -/
def hdFront (h : List Byte) : Nat := 0x100 + 128 * hdMasks h + 8 * hdMaps h
def hdPlls (h : List Byte) : List (Word × Word) :=
  (List.range 8).map (fun k => (BitVec.ofNat 32 (imgWord h (0x20 + 8 * k)), BitVec.ofNat 32 (imgWord h (0x24 + 8 * k))))

/-- PLL settings outside the limits of R317, for the frequency of the reference that they select. -/
def pllBad (k : Fin 8) (x : Word × Word) : Bool :=
  let d := nfld x.1 8 6
  let m := nfld x.1 16 8
  let f := refHz k (bitAt x.1 0)
  let outs := [nfld x.2 0 8, nfld x.2 8 8, nfld x.2 16 8, nfld x.2 24 8]
  (x.1 &&& 0xFF00C0FE#32) != 0 ||
    (d != 0 && (decide (32 < d) || decide (m < 8) || outs.any (fun o => o == 1 || decide (128 < o))
      || decide (f < 10000000 * d) || decide (500000000 * d < f) || decide (f * m < 1600000000 * d) || decide (3200000000 * d < f * m)
      || outs.any (fun o => o != 0 && decide (800000000 * d * o < f * m))))

/-- Settings of which some are outside the limits. -/
def pllsBad (l : List (Word × Word)) : Bool := l.zipIdx.any (fun x => pllBad (Fin.ofNat 8 x.2) x.1)

/-- Check 1. -/
def headerBad (h : List Byte) (full : Bool) (region : Fin 16) (len : Nat) : Bool :=
  let w1 := imgWord h 4
  let w6 := imgWord h 0x18
  (crc32c (h.take 0xFC)).toNat != imgWord h 0xFC || imgWord h 0 != 0x49415246 || w1 % 65536 != 1 || w1 / 2 ^ 17 % 128 != 0
    || decide (2 ^ 28 ≤ w1) || hdFull h != full || (if full then hdRegion h != 0 else hdRegion h != region)
    || w6 / 128 % 2 != 0 || w6 / 2 ^ 15 % 2 != 0 || decide (2 ^ 24 ≤ w6) || imgWord h 0x1C != 0
    || [0xF0, 0xF4, 0xF8].any (fun o => imgWord h o != 0)
    || hdLength h != len || hdLength h != hdFront h + 520 * hdFrames h + 32
    || decide (64 < hdMasks h) || decide (64 < hdMaps h) || (!full && hdMaps h == 0)
    || (if full then pllsBad (hdPlls h) else (hdPlls h).any (fun x => x.1 != 0 || x.2 != 0))

/-- GLB_IDCODE and GLB_STEP (R307). -/
def glbIdcode : Word := 0x472004D7#32
def glbStep : Word := 0x00000101#32

/-- Check 2. -/
def headerWrong (h : List Byte) : Bool :=
  imgWord h 8 != glbIdcode.toNat || imgHalf h 0xC != 1 || imgWord h 0xC / 65536 != glbStep.toNat

/-- The logic-signing key of a slot, when one is enrolled (R381). -/
def Sec.logicKey (c : Sec) (k : Nat) : Option (BitVec 768) :=
  if 8 ≤ k ∨ !c.keySlots.getLsbD k then none
  else some (if k = 0 then Config.dorsekenLogicKey else c.ownerKeys[Fin.ofNat 8 k])

/-- Check 3. -/
def headerUnsigned (c : Sec) (h : List Byte) : Bool :=
  match c.logicKey (imgWord h 0x18 / 65536 % 256) with
  | none => true
  | some k => !ecdsaVerify k (sha384 (h.take 0x90)) (ofBytes 768 (slice h 0x90 96))

def hdRanges (h : List Byte) : List (Word × Word) :=
  (List.range (hdMaps h)).map (fun i =>
    let o := 0x100 + 128 * hdMasks h + 8 * i
    (BitVec.ofNat 32 (imgWord h o), BitVec.ofNat 32 (imgWord h (o + 4))))

/-- A range that check 4 refuses. -/
def rangeRefused (full : Bool) (region : Fin 16) (r : Word × Word) : Bool :=
  let inside (far : Word) : Bool := full || (decide (farClass far < 2) && farRegion far == region)
  !farValid r.1 || !farValid r.2 || decide (r.2.toNat < r.1.toNat) || !inside r.1 || !inside r.2

/-- Checks 1 to 3, on the 256 bytes of the header: the failing status, check and offset. -/
def State.headFails (s : State) (h : List Byte) (full : Bool) (region : Fin 16) (len : Nat) : Option (Nat × Nat × Nat) :=
  if headerBad h full region len then some (stREJECTED, 1, 0)
  else if headerWrong h then some (stWRONG, 2, 0)
  else if headerUnsigned s.sec h then some (stDIGEST, 3, 0)
  else none

/-- Check 4, on the ranges: the failing status, check and offset. -/
def rangesFail (h : List Byte) (full : Bool) (region : Fin 16) : Option (Nat × Nat × Nat) :=
  (hdRanges h).zipIdx.findSome? (fun x =>
    if rangeRefused full region x.1 then some (if full then stREJECTED else stVIOLATION, 4, 0x100 + 128 * hdMasks h + 8 * x.2) else none)

/-- Checks 1 to 4 on the bytes before the first record, or as many of them as have arrived. -/
def State.frontFails (s : State) (h : List Byte) (full : Bool) (region : Fin 16) (len : Nat) : Option (Nat × Nat × Nat) :=
  if h.length < 0x100 then some (stTRUNCATED, 6, h.length)
  else match s.headFails h full region len with
    | some x => some x
    | none => if h.length < hdFront h then some (stTRUNCATED, 6, h.length) else rangesFail h full region

/-! ### The course of a load (R339 to R343, R348) -/

/-- The point of no return: the regions enter LOADING, isolated and held in INIT; a full image starts from zero
LOGIC and MEM frames; a sweep skips the regions from here on (R340, R352). -/
def State.passPoint (s : State) (l : Load) : State :=
  let s1 := s.modRegions (fun r x => if l.covers r then { x.quiet with cfg := 1, initHeld := true } else x)
  let s2 := s1.modCfg (fun c =>
    let c1 := if l.full then
        { c with frames := c.frames.filter (fun x => decide (2 ^ 31 ≤ x.1)), checks := c.checks.filter (fun x => decide (2 ^ 31 ≤ x.1)) }
      else c
    { c1 with load := some { l with past := true }, skipped := c1.skipped ||| (if l.full then BitVec.allOnes 16 else BitVec.twoPow 16 l.region) })
  ((List.finRange 16).filter l.covers).foldl State.holdInit s2

/-- A load begins with the bytes before its first frame record: checks 1 to 4, then the point of no return. -/
def State.beginLoad (s : State) (l0 : Load) (h : List Byte) : State :=
  let x := s.takeBytes l0 h
  let l := x.2
  match x.1.frontFails h l.full l.region l.length with
  | some (st, ch, off) => x.1.settle l st ch off
  | none =>
    x.1.passPoint
      { l with
        frames := hdFrames h, plls := hdPlls h, ranges := hdRanges h, digest := ofBytes 384 (slice h 0x60 48)
        masks := (List.range (hdMasks h)).map (fun i => ofBytes 1024 (slice h (0x100 + 128 * i) 128))
        base := hdFront h, body := h.drop 0x100 }

/-- The frame map covers an address (R336). -/
def Load.maps (l : Load) (far : Word) : Bool :=
  (l.full && l.ranges.isEmpty) || l.ranges.any (fun r => decide (r.1.toNat ≤ far.toNat) && decide (far.toNat ≤ r.2.toNat))

/-- Check 5 on a record. -/
def Load.recordBad (l : Load) (w0 w1 : Word) : Bool :=
  nfld w1 7 25 != 0 || !farValid w0 || !l.maps w0 || (!l.full && !(decide (farClass w0 < 2) && farRegion w0 == l.region))
    || (bitAt w1 6 && decide (l.masks.length ≤ nfld w1 0 6))

/-- A record's mask includes this device (R348). -/
def State.maskHits (s : State) (l : Load) (w1 : Word) : Bool :=
  !bitAt w1 6 || (s.fab.idValid && ((l.masks[nfld w1 0 6]?).getD 0).getLsbD s.fab.id.toNat)

/-- One frame record of the load in progress (R339 check 5, R340, R342). -/
def State.loadRecord (s : State) (l : Load) (b : List Byte) : State :=
  let w0 : Word := ofBytes 32 (slice b 0 4)
  let w1 : Word := ofBytes 32 (slice b 4 4)
  if l.recordBad w0 w1 then s.settle l stVIOLATION 5 (l.base + 520 * l.seen)
  else
    let l1 := { l with seen := l.seen + 1, body := l.body ++ b }
    if s.maskHits l w1 then
      let d : BitVec 4096 := ofBytes 4096 (slice b 8 512)
      let l2 := { l1 with applied := l.applied + 1, touched := if farClass w0 < 2 then l.touched ||| BitVec.twoPow 16 (farRegion w0).val else l.touched }
      if farClass w0 = 2 then s.modCfg (fun c => { c with load := some { l2 with staged := tput l2.staged w0.toNat d } })
      else (s.modCfg (fun c => { c with load := some l2 })).putFrame w0 d
    else s.modCfg (fun c => { c with load := some l1 })

/-- The trailer holds (R337, check 6). -/
def Load.trailerOk (l : Load) (b : List Byte) : Bool :=
  b.length == 32 && imgWord b 0 == 0x444E4546 && imgWord b 4 == l.frames && imgWord b 8 == l.length
    && (crc32c (b.take 0x1C)).toNat == imgWord b 0x1C

/-- The GLOBAL frames of a full image in the reference store, in the place of those before (R340, R349). -/
def Cfg.stageRef (c : Cfg) (l : Tbl (BitVec 4096)) : Cfg :=
  { c with
    refStore := l.foldl (fun t x => tput t x.1 x.2) (c.refStore.filter (fun x => decide (0xC0000000 ≤ x.1)))
    refChecks := l.foldl (fun t x => tput t x.1 (cfgFrameCheck x.2)) (c.refChecks.filter (fun x => decide (0xC0000000 ≤ x.1))) }

/-- Commit (R341): GLOBAL frames and PLL settings, INIT, region states, digests. -/
def State.commitLoad (s : State) (l : Load) : State :=
  let s1 := if l.full then
      let s2 := s.modCfg (fun c => l.staged.foldl (fun c x => c.putFrame (BitVec.ofNat 32 x.1) x.2) (c.stageRef l.staged))
      { s2 with plls := Vector.ofFn (fun i : Fin 8 =>
          let x := (l.plls[i.val]?).getD (0, 0)
          { s2.plls[i] with cfg := x.1, outDiv := x.2, locked := false, lockedOnce := false }) }
    else s
  let cfg := s1.cfg
  let s3 := s1.modRegions (fun r x =>
    if !l.covers r then x
    else if !l.full ∨ l.touched.getLsbD r.val then { x.start (cfg.logicFrames r) (cfg.memFrames r) with digest := if l.full then 0 else l.digest }
    else { x with cfg := 0, digest := 0, initHeld := false })
  let owner := l.cmd.bind (fun k => (s.findCmd k).map (fun c => pkCtx c.packet))
  let s4 := if l.full then s3.modCfg (fun c => { c with fullDigest := l.digest })
    else match owner with
      | some c => s3.modRegion l.region (fun r => { r with owners := c :: r.owners.filter (fun o => o != c) })
      | none => s3
  s4.settle l 0 0 0

/-- The trailer arrives: checks 6 and 7, then commit. -/
def State.loadTrailer (s : State) (l : Load) (b : List Byte) : State :=
  if !l.trailerOk b then s.settle l stTRUNCATED 6 l.got
  else if sha384 (l.body ++ b) ≠ l.digest then s.settle l stDIGEST 7 0x60
  else s.commitLoad l

/-- Whole records that have arrived on a forwarded stream, processed in order. -/
def State.eatRecords (s : State) : Nat → State
  | 0 => s
  | k + 1 =>
    match s.cfg.load with
    | some l =>
      if l.seen < l.frames ∧ 520 ≤ s.cfg.fwd.length then
        let b := s.cfg.fwd.take 520
        ((s.modCfg (fun c => { c with fwd := c.fwd.drop 520 })).loadRecord l b).eatRecords k
      else s
    | none => s

/-! ### Commands that load (R338) -/

/-- A conduit of a loaded plan reaches an endpoint of a region. -/
def State.regionInPlan (s : State) (r : Fin 16) : Bool := s.plans.any (fun p => p.gwEps.any (fun x => x.1 == r))

/-- A load that the command processor starts. -/
def State.cmdLoad (s : State) (k : Cmd) (full : Bool) : State × Load :=
  let fwd := bitAt k.packet (8 * 0x24)
  let x := if fwd then s.draw else (0, s)
  (x.2, { full := full, region := if full then 0 else Fin.ofNat 16 (rnum k.packet 0x10 0 4), source := 0, cmd := some k.serial
          length := rnum k.packet 0x20 0 32, forward := fwd, stream := fld x.1 0 16 })

/-- LOAD_LOGIC: a full image; it waits while a load runs, and is refused while a plan is loaded (R282, R338, R339). -/
def execLoadLogic (cmd : Nat) (front : List Byte) (s : State) : Out :=
  s.withCmd cmd 0x50 (fun k =>
    if s.cfg.streaming then s
    else if !s.plans.isEmpty then s.badParam k.serial 8 0
    else
      let x := (s.begin k.serial).cmdLoad k true
      x.1.beginLoad x.2 front)

/-- LOAD_REGION: a partial image for a region of the context's partition (R338, R339). -/
def execLoadRegion (cmd : Nat) (front : List Byte) (s : State) : Out :=
  s.withCmd cmd 0x51 (fun k =>
    let r : Fin 16 := Fin.ofNat 16 (rnum k.packet 0x10 0 4)
    if s.cfg.streaming then s
    else if !(s.ctxPart (pkCtx k.packet)).regions.getLsbD r.val ∨ s.regionInPlan r then s.badParam k.serial 8 0x10
    else
      let x := (s.begin k.serial).cmdLoad k false
      x.1.beginLoad x.2 front)

/-- FRAME_RECORD: the next frame record of the load is checked and applied; bytes that stop arriving fail check 6.
A forwarded stream's record comes from the bytes received (R339, R342, R346). -/
def execFrameRecord (record : List Byte) (s : State) : Out :=
  match s.cfg.load with
  | none => .next s
  | some l =>
    if l.source = 1 then .next (s.eatRecords 1)
    else
      let x := s.takeBytes l (record.take 520)
      match l.outcome with
      | some o =>
        if x.2.got < x.2.length then .next (x.1.modCfg (fun c => { c with load := some x.2 }))
        else .next (x.1.endLoad x.2 o)
      | none =>
        if l.frames ≤ l.seen then .next s
        else if record.length < 520 then .next (x.1.settle x.2 stTRUNCATED 6 x.2.got)
        else .next (x.1.loadRecord x.2 (record.take 520))

/-- LOAD_COMMIT: the trailer and the digest are checked and the load commits (R339, R341). -/
def execLoadCommit (trailer : List Byte) (s : State) : Out :=
  match s.cfg.load with
  | none => .next s
  | some l =>
    if l.source = 1 then
      if l.seen = l.frames ∧ 32 ≤ s.cfg.fwd.length then .next (s.loadTrailer { l with got := l.length } (s.cfg.fwd.take 32)) else .next s
    else if l.outcome.isSome ∨ l.seen < l.frames then .next s
    else
      let x := s.takeBytes l (trailer.take 32)
      .next (x.1.loadTrailer x.2 (trailer.take 32))

/-! ### Forwarded streams (R338, R343, R346, R347) -/

/-- The load of the stream being received: none is begun before its header has passed checks 1 to 3. -/
def State.streamLoad (s : State) : Load :=
  match s.cfg.load with
  | some l => if l.source = 1 then l else { full := true, region := 0, source := 1, length := 0 }
  | none => { full := true, region := 0, source := 1, length := 0, got := s.cfg.fwd.length }

/-- The stream being received, if there is one, ends at check 6. -/
def State.cutStream (s : State) : State :=
  if s.cfg.fwdOpen.isSome then s.settle s.streamLoad stTRUNCATED 6 s.streamLoad.got else s

/-- A stream is refused on this device; its packets are only forwarded (R338, R347). -/
def State.refuseStream (s : State) (region : Nat) : State :=
  let s1 := s.modCfg (fun c => c.closeStream.putLast stREJECTED 0 1 0 0)
  (s1.cfgEvent 1 region s1.cfg.lastWord).forwardedEvent region

/-- A stream whose header has arrived is refused or fails checks 1 to 3 at once; it begins once every byte before its
first record is there (R339, R347). -/
def State.openStream (s : State) : State :=
  let h := s.cfg.fwd
  if s.cfg.load.isSome ∨ h.length < 0x100 then s
  else
    let full := hdFull h
    let region := hdRegion h
    let l : Load := { full := full, region := if full then 0 else region, source := 1, length := hdLength h, got := h.length - hdFront h }
    if (full ∧ !s.plans.isEmpty) ∨ (!full ∧ s.regionInPlan region) then s.refuseStream region.val
    else match s.headFails h full l.region l.length with
      | some (st, ch, off) => s.settle l st ch off
      | none =>
        if h.length < hdFront h then s
        else (s.modCfg (fun c => { c with fwd := c.fwd.drop (hdFront h) })).beginLoad l (h.take (hdFront h))

/-- The last packet of a stream has come: every whole record and the trailer are processed, or the stream ends at check 6. -/
def State.lastBytes (s : State) : State :=
  let s1 := s.eatRecords (s.cfg.fwd.length / 520)
  match s1.cfg.load with
  | some l =>
    if l.source = 1 ∧ l.seen = l.frames ∧ 32 ≤ s1.cfg.fwd.length then s1.loadTrailer l (s1.cfg.fwd.take 32) else s1.cutStream
  | none => s1.cutStream

/-- Bytes of the stream being received (R347). -/
def State.streamBytes (s : State) (b : List Byte) (last : Bool) : State :=
  let s1 := s.modCfg (fun c => { c with
    fwd := c.fwd ++ b, fwdSeq := c.fwdSeq + 1, fwdTick := s.now, load := c.load.map (fun l => { l with got := l.got + b.length }) })
  let s2 := s1.openStream
  if last then s2.lastBytes else s2

/-- The number, flags and SEQ of a CFG packet, and its bytes (R346). -/
def cfgStream (pl : BitVec 1920) : BitVec 16 := rfld pl 0x10 0 16
def cfgFirst (pl : BitVec 1920) : Bool := bitAt pl 144
def cfgEnds (pl : BitVec 1920) : Bool := bitAt pl 145
def cfgCancel (pl : BitVec 1920) : Bool := bitAt pl 146
def cfgSeq (pl : BitVec 1920) : Word := rfld pl 0x14 0 32
def cfgBytes (pl : BitVec 1920) : List Byte := toBytes (rfld pl 0x18 0 1728) (4 * (rnum pl 8 0 6 + 1) - 8)

/-- A CFG packet of the stream being received: its bytes in SEQ order, or check 6 at a gap (R347). -/
def State.streamPacket (s : State) (pl : BitVec 1920) : State :=
  if cfgSeq pl = s.cfg.fwdSeq then s.streamBytes (cfgBytes pl) (cfgEnds pl) else s.cutStream

/-- A CFG packet that has come from the parent: sent on, then applied to its stream. A stream that begins while a load
runs is refused (R338, R346, R347). -/
def State.acceptCfg (s : State) (pl : BitVec 1920) : State :=
  let s0 := s.sendCfg pl
  if cfgCancel pl then if s0.cfg.fwdOpen = some (cfgStream pl) then s0.settle s0.streamLoad 2 0 0 else s0
  else if cfgFirst pl then
    let s1 := s0.cutStream
    if s1.cfg.streaming then s1.refuseStream (hdRegion (cfgBytes pl)).val
    else (s1.modCfg (fun c => { c with fwdOpen := some (cfgStream pl), fwd := [], fwdSeq := 0, fwdTick := s.now })).streamPacket pl
  else if s0.cfg.fwdOpen = some (cfgStream pl) then s0.streamPacket pl
  else s0

/-- A MGMT flit of a kind (R256). -/
def isMgmt (kind : Nat) (f : Data2048) : Bool := flType f == 0x08 && rnum (flPayload f) 0 0 4 == kind

/-- MGMT_CFG: a CFG packet is forwarded and applied when it comes from the parent, and else dropped and counted (R347). -/
def execMgmtCfg (s : State) : Out :=
  let x := takeFlit (fun e => isMgmt 3 e.2) s.fab.inbox
  match x.1 with
  | none => .next s
  | some (p, f) =>
    let s1 := s.tookFlit x.2 p f
    if s.cfg.cfgInValid ∧ s.cfg.cfgInPort.toNat = p.val ∧ s.cfg.cfgInId = flSrc f then .next (s1.acceptCfg (flPayload f))
    else .next (s1.modCfg (fun c => { c with inDrop := satInc c.inDrop }))

/-- CFG_STREAM_TIMEOUT: a forwarded stream pauses for more than CFG_STREAM_TO ticks and fails check 6 (R347). -/
def execCfgStreamTimeout (s : State) : Out :=
  if s.cfg.fwdOpen.isSome ∧ s.cfg.fwdTick + s.cfg.streamTo.toNat < s.now then
    .next s.cutStream
  else .next s

/-- An ABORT of a LOAD_REGION granted before its commit: the load stops, and forwarded devices are told (R343). -/
def State.abortLoad (s : State) (l : Load) : State :=
  let s1 := if l.past then s.modRegion l.region (fun r => { r with cfg := 3, digest := 0 }) else s
  let s2 := s1.modCfg (fun c => { c.putLast 2 0 0 l.applied 0 with load := none })
  if l.forward then s2.sendCfg (cfgPayload l.stream false false true l.seq []) else s2

/-! ### The fumarole (R349 to R353) -/

/-- A frame that a sweep covers: a LOGIC frame of an ACTIVE region that has not been LOADING during it, or a GLOBAL
frame (R349, R352). -/
def State.swept (s : State) (far : Word) : Bool :=
  farValid far && ((farClass far == 0 && s.regions[farRegion far].cfg == 2 && !s.cfg.skipped.getLsbD (farRegion far).val)
    || farClass far == 2)

/-- What stands for a frame of configuration memory, one of the reference store and a hardened block among the items of a
sweep. -/
def sweptFrame (far : Word) : Nat := far.toNat
def sweptRef (far : Word) : Nat := 2 ^ 33 + far.toNat
def sweptBlock (key : Nat) : Nat := 2 ^ 34 + key

/-- Everything that the sweep in progress must check before it ends (R349). -/
def State.sweepItems (s : State) : List Nat :=
  let logic : List Word := (List.range 16).flatMap (fun r => (List.range 96).flatMap (fun a => (List.range 38).map (fun m =>
    BitVec.ofNat 32 (2 ^ 26 * r + 2 ^ 16 * a + 2 ^ 8 * m))))
  let global : List Word := (List.range 2).flatMap (fun a => (List.range 128).map (fun m => BitVec.ofNat 32 (2 ^ 31 + 2 ^ 16 * a + 2 ^ 8 * m)))
  ((logic ++ global).filter s.swept).map sweptFrame ++ s.cfg.refStore.map (fun x => sweptRef (BitVec.ofNat 32 x.1))
    ++ s.cfg.golden.map (fun x => sweptBlock x.1)

/-- The sweep in progress has checked an item. -/
def State.cover (s : State) (k : Nat) : State := s.modCfg (fun c => { c with covered := k :: c.covered.filter (fun x => x != k) })

/-- A single error corrected: counted and recorded (R350). -/
def State.noteSbe (s : State) (far : Word) : State :=
  let s1 := s.modCfg (fun c => { c with sbeCnt := satInc c.sbeCnt, sbeLast := far })
  s1.cfgEvent 2 (farRegion far).val s1.cfg.sbeLast

/-- A double error: counted and recorded (R351). -/
def State.countDed (s : State) (far : Word) : State :=
  let s1 := s.modCfg (fun c => { c with dedCnt := satInc c.dedCnt, dedLast := far })
  s1.cfgEvent 3 (farRegion far).val s1.cfg.dedLast

/-- A double error of configuration memory; with ISOLATE_DED its regions fail (R351). -/
def State.noteDed (s : State) (far : Word) : State :=
  let s1 := s.countDed far
  if s1.cfg.isolateDed then
    s1.modRegions (fun r x =>
      if x.cfg = 2 ∧ (if farClass far = 0 then farRegion far = r else farMajor far = r.val / 8) then { x.quiet with cfg := 3 } else x)
  else s1

/-- A double error of the reference store: counted, and no hardened block is reloaded from the frame any more; no region
fails for it, as the frame that its logic runs on is another (R351; log 135). -/
def State.noteRefDed (s : State) (far : Word) : State :=
  ((s.countDed far).modCfg (fun c => { c with refBad := far :: c.refBad.filter (fun x => x != far) })).cfgEvent 5 0 0

/-- The check of a frame as upsets have left it: what it holds afterwards, with a single error corrected, and the outcome
of R332. -/
def checkFrame (x : BitVec 4096 × BitVec 14) (flip : List (Fin 4110)) : (BitVec 4096 × BitVec 14) × Nat × Nat :=
  let y := flip.foldl (fun x p => flipPos x p.val) x
  let r := frameTest y.1 y.2
  (if r.1 = 1 then flipPos y r.2 else y, r)

/-- The act of a frame's node on a SCRUB packet: check, correction and answer (R333, R350, R352). -/
def State.scrubFrame (s : State) (far : Word) (flip : List (Fin 4110)) : State × Nat × Nat :=
  let x := checkFrame (s.cfg.frame far, s.cfg.check far) flip
  (s.modCfg (fun c => { c with
    frames := tset (0 : BitVec 4096) c.frames far.toNat x.1.1, checks := tset (0 : BitVec 14) c.checks far.toNat x.1.2
    answer := natAt 128 0 x.2.1 ||| natAt 128 32 x.2.2 }), x.2)

/-- What the controller makes of the outcome. -/
def State.noteScrub (s : State) (far : Word) (outcome : Nat) : State :=
  if outcome = 0 then s else if outcome = 1 then s.noteSbe far else s.noteDed far

/-- A frame of the reference store checked and corrected (R349 to R351). -/
def State.scrubRef (s : State) (far : Word) (d : BitVec 4096) (flip : List (Fin 4110)) : State :=
  let x := checkFrame (d, tget (0 : BitVec 14) s.cfg.refChecks far.toNat) flip
  let s1 := s.modCfg (fun c => { c with refStore := tput c.refStore far.toNat x.1.1, refChecks := tput c.refChecks far.toNat x.1.2 })
  if x.2.1 = 0 then s1 else if x.2.1 = 1 then s1.noteSbe far else s1.noteRefDed far

/-- CFG_SCRUB: the sweep checks one frame, as upsets have left it, and corrects or reports it; a frame of the reference
store likewise (R332, R349 to R352). -/
def execCfgScrub (far : Word) (inRef : Bool) (flip : List (Fin 4110)) (s : State) : Out :=
  if !s.cfg.scrubEn then .next s
  else if inRef then
    match tfind s.cfg.refStore far.toNat with
    | none => .next s
    | some d => .next ((s.cover (sweptRef far)).scrubRef far d flip)
  else if !s.swept far then .next s
  else
    let r := (s.cover (sweptFrame far)).scrubFrame far flip
    .next (r.1.noteScrub far r.2.1)

/-- FUMAROLE_SWEEP: a sweep that has checked every item ends and the next begins (R349). -/
def execFumaroleSweep (s : State) : Out :=
  if s.cfg.scrubEn ∧ s.sweepItems.all s.cfg.covered.contains then
    .next (s.modCfg (fun c => { c with sweeps := satInc c.sweeps, covered := [], skipped := 0 }))
  else .next s

/-- The CFG_HARD_LAST of a hardened block, and its last matching beat. -/
def hardWord : HardRef → BitVec 17
  | .microcode n => natAt 17 8 n.val
  | .tables n => natAt 17 0 1 ||| natAt 17 8 n.val
  | .conduit d => natAt 17 0 2 ||| flagAt 17 16 d
def State.hardClean (s : State) : HardRef → DWord
  | .microcode n => s.cals[n].cleanMicro
  | .tables n => s.cals[n].cleanTables
  | .conduit d => s.cfg.cleanConduit[if d then (1 : Fin 2) else 0]
def State.putClean (s : State) : HardRef → State
  | .microcode n => s.modCal n (fun c => { c with cleanMicro := s.glb.beatCnt })
  | .tables n => s.modCal n (fun c => { c with cleanTables := s.glb.beatCnt })
  | .conduit d => s.modCfg (fun c => { c with cleanConduit := vset c.cleanConduit (if d then 1 else 0) s.glb.beatCnt })

/-- What a hardened block holds (R353). -/
def State.blockBytes (s : State) : HardRef → List Byte
  | .microcode n => toBytes s.cals[n].micro 65536
  | .tables n => toBytes s.cals[n].tables 32768
  | .conduit d => conduitBytes (s.conduitBlock d)

/-- An upset bit of a hardened block: a bit of the store, or bit i mod 32 of the register at BAR0 address i div 32 of a
conduit block. -/
def State.upset (s : State) (b : HardRef) (i : Nat) : State :=
  match b with
  | .microcode n => s.modCal n (fun c => { c with micro := c.micro ^^^ BitVec.twoPow 524288 i })
  | .tables n => s.modCal n (fun c => { c with tables := c.tables ^^^ BitVec.twoPow 262144 i })
  | .conduit d =>
    let a : Word := BitVec.ofNat 32 (i / 32)
    if (conduitAddrs d).contains a then s.putConduit (a, s.conduitWord a ^^^ BitVec.twoPow 32 (i % 32)) else s

/-- The frames of a hardened block in the reference store (R353). -/
def Cfg.refFrames (c : Cfg) (b : HardRef) : Tbl (BitVec 4096) := c.refStore.filter (fun x => x.1 / 0x10000 == refBase b / 0x10000)

/-- A hardened block takes what the reference store holds (R353). -/
def State.reload (s : State) (b : HardRef) : State :=
  let bytes := (s.cfg.refFrames b).flatMap (fun x => toBytes x.2 512)
  match b with
  | .microcode n => s.modCal n (fun c => { c with micro := ofBytes 524288 bytes })
  | .tables n => s.modCal n (fun c => { c with tables := ofBytes 262144 bytes })
  | .conduit d => (conduitOf bytes).foldl State.putConduit ((s.conduitBlock d).foldl (fun s w => s.putConduit (w.1, 0)) s)

/-- A reload counted, recorded and reported (R353). -/
def State.noteReload (s : State) (b : HardRef) : State :=
  let s1 := s.modCfg (fun c => { c with
    hardCnt := satInc c.hardCnt, hardLast := hardWord b, hardClean := s.hardClean b, hardReload := s.glb.beatCnt })
  s1.cfgEvent 4 0 (s1.cfg.hardLast.setWidth 32)

/-- HARDENED_BLOCK_CHECK: the hash of a block, as upsets have left it, meets its golden signature, or the block is
reloaded from the reference store and the reload recorded; not from a frame with a double error (R351, R353). -/
def execHardenedBlockCheck (block : HardRef) (flip : List Nat) (s : State) : Out :=
  match tfind s.cfg.golden (hardKey block) with
  | none => .next s
  | some g =>
    if !s.cfg.scrubEn then .next s
    else
      let s1 := (flip.foldl (fun s i => s.upset block i) s).cover (sweptBlock (hardKey block))
      if sha384 (s1.blockBytes block) = g then .next (s1.putClean block)
      else if (s1.cfg.refFrames block).any (fun x => s1.cfg.refBad.contains (BitVec.ofNat 32 x.1)) then .next s1
      else .next ((s1.reload block).noteReload block)

end Sys2Proof.Machine
end

