-- ==== Sys2Proof/WellFormed.lean ====
section
/-! DEFINITION. Which commands are well formed: the payloads that come from outside have the lengths
that such a step of the device carries. -/

namespace Sys2Proof

/-- The payload of a command has a length that the step can carry.  Every other operand is bounded by
its type. -/
def Instr.wellFormed : Instr → Bool
  -- the completer snoops one write of 1 to 4096 bytes (R298, R123)
  | .chkSnoopBlock _ block _ _ => 0 < block.bytes.length && block.bytes.length ≤ 4096
  -- a BAR 4 access moves 1 to 4096 bytes (R298)
  | .bar4Read _ len _ _ => 0 < len && len ≤ 4096
  | .bar4Write _ bytes _ => 0 < bytes.length && bytes.length ≤ 4096
  | _ => true

end Sys2Proof
end

