-- ==== Sys2Proof/Machine/Commands.lean ====
section
/-! DEFINITION. Commands on contexts, pages, plans and streams, ABORT and RESUME, BAR 4 and the DOE mailbox
(R148, R154, R263, R264, R278 to R292, R362, R365, R374). -/

namespace Sys2Proof.Machine

/-! ### Frames (R146, R148, R365) -/

/-- The stacked frame that an entry maps, by its device memory address. -/
def spFrame (e : DWord) : Option Nat := if spP e && nfld e 4 2 == 0 then some (spPage e) else none

/-- Every frame that counts as mapped. -/
def State.mappedFrames (s : State) : List Nat :=
  s.spt.filterMap (fun x => spFrame x.2) ++ s.sec.ctxs.flatMap (fun x => x.2.saveArea.map frameDma)

/-- The frames of a partition's ranges, those of FAILED stacks left out (R202). -/
def Part.frames (s : State) (p : Part) : List (Fin 8 × Nat) :=
  ((List.finRange 8).filter (fun k => p.stackMask.getLsbD k.val && s.stackUsable k.val)).flatMap (fun k =>
    (List.range (p.last.toNat + 1 - p.first.toNat)).map (fun i => (k, p.first.toNat + i)))

/-- Whether a frame lies in the ranges of a partition. -/
def Part.hasFrame (s : State) (p : Part) (dma : Nat) : Bool :=
  let f := dma % 2 ^ 37 / pageBytes
  s.stackUsable (dma / 2 ^ 37) && p.stackMask.getLsbD (dma / 2 ^ 37) && decide (p.first.toNat ≤ f) && decide (f ≤ p.last.toNat)

/-- `n` frames taken from a list; which ones the manual leaves open (log 3). -/
def takeFrames (s : State) : Nat → List (Fin 8 × Nat) → State × List (Fin 8 × Nat)
  | 0, _ => (s, [])
  | n + 1, l =>
    let x := s.draw
    let i := x.1.toNat % l.length
    match l[i]? with
    | none => (s, [])
    | some f =>
      let r := takeFrames x.2 n (l.eraseIdx i)
      (r.1, f :: r.2)

/-- The save area of a context in a partition: 25 frames for each of its calderas; none when they are lacking (R365). -/
def State.reserveArea (s : State) (p : Part) : Option (State × List (Fin 8 × Nat)) :=
  let used := s.mappedFrames
  let free := (p.frames s).filter (fun f => !used.contains (frameDma f))
  let n := 25 * popCount p.cals
  if free.length < n then none else some (takeFrames s n free)

/-! ### Contexts (R360, R362, R375, R386) -/

def State.putCtx (s : State) (c : Byte) (x : Ctx) : State := s.modSec (fun q => { q with ctxs := tput q.ctxs c.toNat x })

/-- Contexts of a partition. -/
def State.ctxsOf (s : State) (p : Fin 8) : Tbl Ctx := s.sec.ctxs.filter (fun x => x.2.part == p)

/-- CTX_CREATE: a context in a partition, with its save area and, when confidential, its memory key; while the partition
is RESETTING it waits, since the reset leaves no context in it (R371; DEDUCED, log 136). -/
def execCtxCreate (cmd : Nat) (s : State) : Out :=
  s.withCmd cmd 0x10 (fun k =>
    let p : Fin 8 := Fin.ofNat 8 (rnum k.packet 0x10 0 3)
    let conf := bitAt k.packet (8 * 0x10 + 3)
    let part := s.part p
    if part.resetting then s
    else if !part.valid ∨ 16 ≤ (s.ctxsOf p).length ∨ (conf ∧ !s.cp.ideActive) then s.badParam k.serial 8 0x10
    else
      match (if s.cp.ember then some (s, []) else s.reserveArea part) with
      | none => s.badParam k.serial 8 0x10
      | some (s1, area) =>
        let x := if conf then s1.draw else (0, s1)
        (x.2.putCtx (pkCtx k.packet) { part := p, conf := conf, xtsKey := x.1, saveArea := area, ember := s.cp.ember }).completeOk k.serial)

/-! ### Pages (R148) -/

/-- An entry of MAP_PAGES for a page that is refused, given the frames mapped before it. -/
def mapBad (s : State) (ctx : Byte) (vpn : Nat) (used : List Nat) (e : DWord) : Bool :=
  let part := s.ctxPart ctx
  spCtx e != ctx || (if spP e then
    nfld e 16 3 != 0 || decide (1 < nfld e 4 2) || spP (tget (0 : DWord) s.spt vpn) || (spEnc e != s.ctxConf ctx)
      || (nfld e 4 2 == 0 && (nfld e 40 24 != 0 || decide (137328 < nfld e 19 18) || used.contains (spPage e) || !part.hasFrame s (spPage e)))
  else (e &&& ~~~0xFF00#64) != 0)

/-- The index of the first refused entry of a list. -/
def mapScan (s : State) (ctx : Byte) : Nat → Nat → List Nat → List DWord → Option Nat
  | _, _, _, [] => none
  | i, vpn, used, e :: es =>
    if mapBad s ctx vpn used e then some i
    else mapScan s ctx (i + 1) (vpn + 1) ((spFrame e).toList ++ used) es

/-- Entries written from a page on; one with P = 0 leaves its page alone. -/
def mapWrite (t : Tbl DWord) : Nat → List DWord → Tbl DWord
  | _, [] => t
  | vpn, e :: es => mapWrite (if spP e then tput t vpn e else t) (vpn + 1) es

/-- MAP_PAGES: a list of entries is checked whole and then written. -/
def execMapPages (cmd : Nat) (list : List DWord) (s : State) : Out :=
  s.withCmd cmd 0x20 (fun k =>
    let vpn := rnum k.packet 0x10 0 21
    if list.length ≠ rnum k.packet 0x14 0 17 then s
    else match mapScan s (pkCtx k.packet) 0 vpn s.mappedFrames list with
      | some i => s.badData k.serial 8 (8 * i)
      | none => ({ s with spt := mapWrite s.spt vpn list }).completeOk k.serial)

/-- Whether a page lies in the range of an UNMAP_PAGES. -/
def inRange (p : Data1024) (vpn : Nat) : Bool := decide (rnum p 0x10 0 21 ≤ vpn) && decide (vpn < rnum p 0x10 0 21 + rnum p 0x14 0 17)

/-- UNMAP_PAGES: the entries of a range are cleared; the command waits for the accesses in flight. -/
def execUnmapPages (cmd : Nat) (s : State) : Out :=
  s.withCmd cmd 0x21 (fun k =>
    let gone := s.spt.filter (fun x => inRange k.packet x.1)
    { (s.modCmd k.serial (fun c => { c with begun := true, released := gone.filterMap (fun x => spFrame x.2) })) with
      spt := s.spt.filter (fun x => !inRange k.packet x.1) })

/-- An access to a page of the range is in flight. -/
def State.pagesBusy (s : State) (p : Data1024) : Bool :=
  s.lanes.any (fun l => inRange p l.vpn.toNat)
    || s.hbmStacks.any (fun k => k.ch.any (fun c => (c.queue ++ c.inflight).any (fun r => inRange p r.vpn.toNat)))

/-- UNMAP_DRAIN_DONE: no access to the pages is in flight; the released frames are zeroed and UNMAP_PAGES completes. -/
def execUnmapDrainDone (cmd : Nat) (s : State) : Out :=
  match s.findCmd cmd with
  | some k =>
    if k.phase = .started ∧ pkOpcode k.packet = 0x21 ∧ k.begun ∧ !s.pagesBusy k.packet then
      .next ((k.released.foldl State.zeroFrame s).completeOk k.serial)
    else .next s
  | none => .next s

/-! ### Loading plans (R283, R364) -/

/-- The plan that an image describes. -/
def planOf (h : PlanId) (ctx : Byte) (img : List Byte) : Plan :=
  { handle := h, ctx := ctx, fplan := BitVec.ofNat 16 (imgHalf img 6), devices := imgHalf img 8 % 2048
    pFloor := BitVec.ofNat 16 (imgHalf img 0xC), cals := imgDWord img 0x10, beats := imgWord img 0x18
    conduits := planConduits img, chains := (planChains img).map (fun c => (c.hdr, c.stages)) }

/-- A resident plan of the same context that has started holds a named caldera: its queue is in use. -/
def State.ownRuns (s : State) (ctx : Byte) (cals : DWord) : Bool :=
  s.plans.any (fun q => q.resident && q.ctx == ctx && (q.cals &&& cals) != 0 && (q.started || q.run == .suspended))

/-- The gated calderas of a mask begin to wake. -/
def State.wakeCals (s : State) (cals : DWord) : State :=
  { s with cals := Vector.ofFn (fun n => if cals.getLsbD n.val then s.cals[n].startWake else s.cals[n]) }

/-- A plan's sections written to its calderas, or to the save area where another context holds one. -/
def State.install (s : State) (p : Plan) (img : List Byte) : State :=
  if s.heldAgainst p.ctx p.cals then
    let cals := p.calList.map (fun n => (n, installCal img n {}))
    let s1 := cals.foldl (fun s x => s.saveCal p.ctx x) s
    { s1 with plans := s1.plans ++ [{ p with resident := false, saved := cals.map (s.savedCal p.ctx) }] }
  else
    let s1 := (s.modCals p (installCal img)).setupConduits p.conduits
    { s1 with plans := s1.plans ++ [p] }

/-- The calderas of a plan can take its sections now. -/
def State.mayInstall (s : State) (p : Plan) : Bool := s.heldAgainst p.ctx p.cals || (s.calsReady p.cals && !s.ownRuns p.ctx p.cals)

/-- LOAD_PLAN: the image is checked; gated calderas wake; then the plan is resident, or loaded and switched out. -/
def execLoadPlan (cmd : Nat) (image : List Byte) (s : State) : Out :=
  s.withCmd cmd 0x30 (fun k =>
    let h : PlanId := (rfld k.packet 0x10 0 16 : BitVec 16).setWidth 17
    let ctx := pkCtx k.packet
    let len := rnum k.packet 0x20 0 32
    if (s.findPlan h).isSome then s.badParam k.serial 8 0x10
    else if image.length ≠ len then s
    else match s.planBad ctx image len with
      | some o => s.badData k.serial 8 o
      | none =>
        let p := planOf h ctx image
        if s.mayInstall p then (s.install p image).complete k.serial 0 0 0 p.cals
        else if s.heldAgainst p.ctx p.cals then s else s.wakeCals p.cals)

/-! ### RUN_PLAN (R253, R282, R284, R386) -/

/-- The start beat of a RUN_PLAN or the resume beat of a RESUME; none when it has passed. -/
def State.startBeat (s : State) (now : Bool) (b : DWord) : Option DWord :=
  if now then some (s.glb.beatCnt + 1) else if b.toNat ≤ s.glb.beatCnt.toNat then none else some b

/-- With PREEMPT, the plans of other contexts that hold the calderas are stopped, or asked to leave (R65, R284, R364). -/
def State.preempt (s : State) (ctx : Byte) (cals : DWord) : State :=
  s.plans.foldl (fun (s : State) q =>
    if q.resident ∧ q.ctx ≠ ctx ∧ (q.cals &&& cals) ≠ 0 then
      (s.modPlan q.handle (fun p => { p with evict := true })).planStop q.handle .preempt 0
    else s) s

/-- A plan number that no plan uses, for an INLINE plan. -/
def State.inlineId (s : State) : PlanId :=
  let free := (List.range 65536).find? (fun i => (s.findPlan (BitVec.ofNat 17 (65536 + i))).isNone)
  BitVec.ofNat 17 (65536 + free.getD 0)

/-- A run begins under a RUN_PLAN. -/
def State.beginRun (s : State) (k : Cmd) (p : Plan) (start : DWord) : State :=
  let s1 := (s.startRun p.handle k.serial start).begin k.serial
  if bitAt k.packet (8 * 0x12 + 2) then s1.preempt p.ctx p.cals else s1

/-- The result bytes that an INLINE RUN_PLAN asks for. -/
def inlineWanted (p : Data1024) : Option (DWord × Fin 64 × BitVec 24 × BitVec 24) :=
  if rnum p 0x3C 0 24 = 0 then none
  else some (rfld p 0x30 0 64, (rfld p 0x3B 0 6 : BitVec 6).toFin, rfld p 0x38 0 24, rfld p 0x3C 0 24)

/-- RUN_PLAN of an image that the packet names. -/
def State.runInline (s : State) (k : Cmd) (image : List Byte) (start : DWord) : State :=
  let ctx := pkCtx k.packet
  let len := rnum k.packet 0x28 0 32
  let p : Plan := { (planOf s.inlineId ctx image) with inlineRes := inlineWanted k.packet }
  if image.length ≠ len then s
  else match (if s.cp.ember then s.emberBad image else none) <|> s.planBad ctx image len with
    | some o => s.badData k.serial 8 o
    | none =>
      if s.cp.ember ∧ s.heldAgainst ctx p.cals then s
      else if s.mayInstall p then (s.install p image).beginRun k p start
      else if s.heldAgainst ctx p.cals then s else s.wakeCals p.cals

/-- The plan of a context that a handle names and whose run has not started. -/
def State.loadedPlan (s : State) (ctx : Byte) (h : PlanId) : Option Plan :=
  (s.findPlan h).filter (fun p => p.ctx == ctx && p.run == .loaded)

/-- RUN_PLAN: a loaded plan, or an INLINE image, is started; the first field in error is answered (R284, R288). -/
def execRunPlan (cmd : Nat) (image : List Byte) (s : State) : Out :=
  s.withCmd cmd 0x31 (fun k =>
    let inl := bitAt k.packet (8 * 0x12 + 1)
    let p := if inl then none else s.loadedPlan (pkCtx k.packet) ((rfld k.packet 0x10 0 16 : BitVec 16).setWidth 17)
    if !inl ∧ p.isNone then s.badParam k.serial 8 0x10
    else if s.cp.ember ∧ (!inl ∨ bitAt k.packet (8 * 0x12 + 2)) then s.badParam k.serial 8 0x12
    else match s.startBeat (bitAt k.packet (8 * 0x12)) (rfld k.packet 0x18 0 64), p with
      | none, _ => s.badParam k.serial 8 0x18
      | some start, some p => s.beginRun k p start
      | some start, none => s.runInline k image start)

/-! ### COPY (R134, R286, R373) -/

/-- The slot of a COPY: the one it names, or any free one. -/
def State.copySlot (s : State) (p : Data1024) : Option (Fin 32) :=
  if bitAt p (8 * 0x54 + 7) then (List.finRange 32).find? (fun i => s.cp.streams[i].st == .idle) else some (rfld p 0x54 0 5 : BitVec 5).toFin

/-- COPY: a descriptor is submitted to a command-processor slot. -/
def execCopy (cmd : Nat) (s : State) : Out :=
  s.withCmd cmd 0x40 (fun k =>
    let d : CWord := rfld k.packet 0x10 0 512
    let ctx := pkCtx k.packet
    if s.ctxConf ctx ∧ (dSrcKind d = 3 ∨ dDstKind d = 3) then s.badParam k.serial 8 0x10
    else match s.copySlot k.packet with
      | none => s
      | some i =>
        let full := s.cp.streams[i].st != .idle && s.cp.streams[i].shadow.isSome
        let peer := if bitAt k.packet (8 * 0x50 + 10) then some (rfld k.packet 0x50 0 10, rfld k.packet 0x52 0 8) else none
        let s1 := s.submit (.cp i) { desc := d, owner := 1, ctx := some ctx, cmd := some k.serial, remote := peer }
        match firstOff (descRules d true) with
        | some o => s1.badParam k.serial 8 (0x10 + o)
        | none =>
        if full then s1.badParam k.serial 8 0x54
        else s1.begin k.serial)

/-! ### RESUME (R152, R154, R285) -/

/-- The suspended command of a tag space that a tag names. -/
def State.suspendedCmd (s : State) (ctx : Byte) (tag : Word) : Option Cmd :=
  s.cp.cmds.find? (fun x => x.phase == .suspended && x.holdsTag ctx tag)

/-- The suspended plan of a command's work. -/
def State.suspendedPlan (s : State) (work : Nat) : Option Plan := s.plans.find? (fun p => p.work == some work && p.run == .suspended)

/-- The halted stream of a command's work, unless a RESUME carries it already. -/
def State.haltedSlot (s : State) (work : Nat) : Option (Fin 32) :=
  (List.finRange 32).find? (fun i => s.cp.streams[i].work == some work && s.cp.streams[i].st == .halted && s.cp.streams[i].resumeAt.isNone)

/-- A stream halted beyond repair: cause RANGE or SEG. -/
def Stream.beyondRepair (t : Stream) : Bool := t.st == .halted && (t.cause == 5 || t.cause == 7)

/-- RESUME: suspended or halted work goes on under this command, at the next boundary or at its BEAT.  DEDUCED (log 118):
R154's sentence, that a RESUME which finds a slot halted with RANGE or SEG returns BAD_PARAM, holds for the halted stream of a
COPY too, which R152 would let fault once more with the same record. -/
def execResume (cmd : Nat) (s : State) : Out :=
  s.withCmd cmd 0x33 (fun k =>
    let notFound := s.complete k.serial 3 0 0 0
    match s.suspendedCmd (pkCtx k.packet) (rfld k.packet 0x10 0 32), s.startBeat (bitAt k.packet (8 * 0x14)) (rfld k.packet 0x18 0 64) with
    | none, _ => notFound
    | some w, beat =>
      match s.suspendedPlan w.serial, s.haltedSlot w.serial with
      | some p, _ =>
        let streams := (s.planSlots p).map (fun x => s.cals[x.1].streams[x.2])
          ++ p.saved.flatMap (fun x => x.2.streams.toList.filter (fun t => t.plan == some p.handle))
        if streams.any Stream.beyondRepair then s.badParam k.serial 8 0x10
        else match beat with
          | none => s.badParam k.serial 8 0x18
          | some b => (s.resumeRun p.handle k.serial b).begin k.serial
      | none, some i =>
        if (s.stm (.cp i)).beyondRepair then s.badParam k.serial 8 0x10
        else match beat with
          | none => s.badParam k.serial 8 0x18
          | some b => (s.modStm (.cp i) (fun t => { t with resumeAt := some b, cmd := some k.serial })).begin k.serial
      | none, none => notFound)

/-! ### ABORT (R62, R68, R278, R290 to R292) -/

/-- How an ABORT ends: its status, DETAIL and RESULT0. -/
abbrev AbortEnd := Nat × Word × Word

def abortDone (detail : Word) (beat : Nat) : AbortEnd := (4, detail, BitVec.ofNat 32 beat)

/-- The run of a plan stops: the command that carries it completes with ABORTED and the plan is unloaded. -/
def State.abortRun (s : State) (p : Plan) (serial : Nat) : State × AbortEnd :=
  (((s.complete serial 2 0 0 0).endWork p.work serial).abortPlan p.handle, abortDone 2 p.beat)

/-- A command that has not passed its point of decision completes with ABORTED. -/
def State.abortPlain (s : State) (serial : Nat) (detail : Word) : State × AbortEnd := (s.complete serial 2 0 0 0, abortDone detail 0)

/-- A slot whose active arming, or whose shadow, a command submitted. -/
def State.cmdSlot (s : State) (serial : Nat) : Option (Fin 32 × Bool) :=
  (List.finRange 32).findSome? (fun i =>
    let t : Stream := s.cp.streams[i]
    if t.st ≠ .idle ∧ t.cmd = some serial then some (i, false)
    else if t.shadow.isSome ∧ t.shadowCmd = some serial then some (i, true) else none)

/-- A started command whose effect stands out stops when its opcode is decided only later; every other is decided at
its start (R280, R281). -/
def State.abortUnbegun (s : State) (k : Cmd) : State × AbortEnd :=
  let op := pkOpcode k.packet
  if (op = 0x30 ∨ op = 0x31 ∨ op = 0x33 ∨ op = 0x40 ∨ op = 0x51) ∧ !k.begun then s.abortPlain k.serial 2 else (s, (1, 0, 0))

/-- A command-processor slot is aborted: it is IDLE with an empty shadow, and a COPY that waited there completes with
ABORTED (R137; log 105). -/
def State.abortSlot (s : State) (i : Fin 32) : State :=
  let t : Stream := s.cp.streams[i]
  let s1 := s.modStm (.cp i) Stream.abort
  match t.shadow, t.shadowCmd with
  | some _, some c => s1.complete c 2 0 0 0
  | _, _ => s1

/-- A started command stops, unless it has passed its point of decision. -/
def State.abortStarted (s : State) (k : Cmd) : State × AbortEnd :=
  let op := pkOpcode k.packet
  match s.plans.find? (fun p => p.cmd == some k.serial), s.cmdSlot k.serial, s.cfg.load with
  | some p, _, _ => s.abortRun p k.serial
  | none, some (i, shadow), _ =>
    if shadow then ((s.modStm (.cp i) (fun t => { t with shadow := none, shadowCmd := none })).complete k.serial 2 0 0 0, abortDone 2 0)
    else (((s.complete k.serial 2 0 0 0).endWork s.cp.streams[i].work k.serial).abortSlot i, abortDone 2 0)
  | none, none, some l =>
    if op = 0x51 then
      if l.cmd = some k.serial then
        if l.outcome.isSome then (s, (1, 0, 0)) else ((s.abortLoad l).complete k.serial 2 0 0 0, abortDone 2 0)
      else s.abortPlain k.serial 2
    else s.abortUnbegun k
  | none, none, none => s.abortUnbegun k

/-- Suspended work is discarded; its tag is free. -/
def State.abortSuspended (s : State) (w : Nat) : Option (State × AbortEnd) :=
  match s.suspendedPlan w, s.haltedSlot w with
  | some p, _ => some ((s.freeTag w).abortPlan p.handle, abortDone 0 p.beat)
  | none, some i => some ((s.freeTag w).abortSlot i, abortDone 0 0)
  | none, none => none

/-- The command that carries work which another command started. -/
def State.carrier (s : State) (w : Nat) : Option Cmd :=
  let serial := ((s.plans.find? (fun p => p.work == some w)).bind (·.cmd))
    <|> ((List.finRange 32).findSome? (fun i => if s.cp.streams[i].work = some w then s.cp.streams[i].cmd else none))
  serial.bind s.findCmd

/-- ABORT of one outstanding command. -/
def State.abortCmd (s : State) (k : Cmd) : State × AbortEnd :=
  match k.phase with
  | .submitted | .fetched => s.abortPlain k.serial 0
  | .started => s.abortStarted k
  | .finished => (s, (1, 0, 0))
  | .suspended =>
    match s.abortSuspended k.serial with
    | some r => r
    | none => match s.carrier k.serial with
      | some c => s.abortStarted c
      | none => (s, (1, 0, 0))

/-- ABORT of a plan by its handle. -/
def State.abortByPlan (s : State) (ctx : Byte) (h : PlanId) : State × AbortEnd :=
  match s.findPlan h with
  | none => (s, (3, 0, 0))
  | some p =>
    if ctx ≠ 0xFF ∧ p.ctx ≠ ctx then (s, (3, 0, 0))
    else match p.cmd with
      | some serial => s.abortRun p serial
      | none =>
        let s1 := match p.work with
          | some w => s.freeTag w
          | none => s
        (s1.abortPlan h, abortDone 0 p.beat)

/-- The target of an ABORT by its tag. -/
def State.abortByTag (s : State) (k : Cmd) (tag : Word) : Option (State × AbortEnd) :=
  let ctx := pkCtx k.packet
  match s.cp.cmds.find? (fun x => x.holdsTag ctx tag) with
  | some t => if pkOpcode t.packet = opABORT then none else some (s.abortCmd t)
  | none => some (if s.cp.recent.contains (ctx, tag) then (s, (1, 0, 0)) else (s, (3, 0, 0)))

/-- The command whose completion precedes an ABORT's: the one that the ABORT completes, or else the one with the
named tag (R291). -/
def State.abortTarget (s s1 : State) (k : Cmd) : Option Nat :=
  match (s1.cp.waiting.drop s.cp.waiting.length).head? with
  | some c => some c.serial
  | none =>
    if bitAt k.packet (8 * 0x14) then none
    else (s.cp.cmds.find? (fun x => x.holdsTag (pkCtx k.packet) (rfld k.packet 0x10 0 32))).map (·.serial)

/-- The waiting completion of a command is written after that of another. -/
def State.completesAfter (s : State) (serial : Nat) (target : Option Nat) : State :=
  s.modCp (fun p => { p with waiting := p.waiting.map (fun c => if c.serial = serial then { c with after := target } else c) })

/-- What an ABORT names: the plan of its own context, or the command of its tag. -/
def State.abortNamed (s : State) (k : Cmd) : Option (State × AbortEnd) :=
  if bitAt k.packet (8 * 0x14) then
    some (s.abortByPlan (pkCtx k.packet) ((rfld k.packet 0x16 0 16 : BitVec 16).setWidth 17))
  else s.abortByTag k (rfld k.packet 0x10 0 32)

/-- An ABORT that the checks let pass. -/
def State.abortGo (s : State) (k : Cmd) : Option (State × AbortEnd) → State
  | none => s.badParam k.serial 8 0x10
  | some (s1, st, detail, r0) => (s1.complete k.serial st detail r0 0).completesAfter k.serial (s.abortTarget s1 k)

/-- An ABORT on the verdict of the checks. -/
def State.abortOn (s : State) (k : Cmd) : Verdict → State
  | some (st, detail) => s.complete k.serial st detail 0 0
  | none => s.abortGo k (s.abortNamed k)

/-- ABORT: decoded and granted as one event; the target's completion comes first. -/
def execAbort (cmd : Nat) (s : State) : Out :=
  match s.findCmd cmd with
  | none => .next s
  | some k =>
    if k.phase ≠ .fetched ∨ pkOpcode k.packet ≠ opABORT then .next s
    else .next (s.abortOn k (s.checks k))

/-! ### CTX_DESTROY (R292, R366) -/

/-- Every outstanding command of the contexts, ABORTs and the command that asks apart, and all their suspended work
is aborted. -/
def State.abortAll (s : State) (ctxs : List Byte) (except : Option Nat) : State :=
  s.cp.cmds.foldl (fun (s : State) k =>
    if ctxs.contains (pkCtx k.packet) ∧ pkOpcode k.packet ≠ opABORT ∧ some k.serial ≠ except then
      match s.findCmd k.serial with
      | some k => (s.abortCmd k).1
      | none => s
    else s) s

/-- The contexts enter SCRUBBING, their work is aborted and a scrub is due (R292, R366, R371). -/
def State.beginScrub (s : State) (ctxs : List Byte) (part : Option (Fin 8)) (cmd : Option Nat) : State :=
  let s1 := s.modSec (fun c => { c with ctxs := c.ctxs.map (fun x =>
    (x.1, if ctxs.any (fun i => i.toNat == x.1) then { x.2 with scrubbing := true, scrubFrom := s.cp.nextSerial } else x.2)) })
  let home := match part with
    | some p => some p
    | none => ctxs.head?.bind (fun i => (s.ctx i).map (·.part))
  (s1.abortAll ctxs cmd).modSec (fun c => { c with scrubs := c.scrubs ++ [{ ctxs := ctxs, part := part, cmd := cmd, home := home }] })

/-- CTX_DESTROY: the context is SCRUBBING, its commands and suspended work are aborted, and its scrub is due; a second one,
which reaches check 5 after the start of the first, completes with CTX_SCRUBBING. -/
def execCtxDestroy (cmd : Nat) (s : State) : Out :=
  s.withCmd cmd 0x11 (fun k =>
    if ((s.ctx (pkCtx k.packet)).map (·.scrubbing)).getD false then s.complete k.serial 0x40 0 0 0
    else (s.begin k.serial).beginScrub [pkCtx k.packet] none (some k.serial))

/-! ### Keys, routes and the beat (R22, R240, R245, R250, R374) -/

/-- The model key that a wrapped key opens to. -/
def openKey (s : State) (b : List Byte) : Option (List Byte) :=
  let key := s.sec.wrapKey (slice b 0x40 97) (b.take 0x40)
  gcmOpen key (ofBytes 96 (slice b 0xA8 12)) (b.take 0xA8) (slice b 0xB4 32) (ofBytes 128 (slice b 0xD4 16))

/-- The wrapped key's fields in table order, with the check each meets. -/
def keyChecks (s : State) (p : Data1024) (b : List Byte) : List (Bool × Nat) :=
  let zero (o n : Nat) : Bool := (slice b o n).any (· != 0)
  [(imgWord b 0 != 0x59504B57, 0x00), (imgHalf b 4 != 1, 0x04),
   (imgHalf b 6 % 16 != rnum p 0x10 0 4, 0x06), (ofBytes 128 (slice b 8 16) != s.fab.uid, 0x08),
   (ofBytes 8 (slice b 0x18 1) != pkCtx p, 0x18), (!s.sec.nonces.contains (ofBytes 256 (slice b 0x20 32)), 0x20),
   ((pointIn (slice b 0x40 97)).isNone, 0x40), ((openKey s b).isNone, 0xD4),
   (imgHalf b 6 / 16 != 0, 0x06), (zero 0x19 7, 0x19), (zero 0xA1 7, 0xA1)]

/-- A failed import: BAD_PARAM at the field, and KEY_FAIL. -/
def State.keyFail (s : State) (k : Cmd) (off : Nat) : State :=
  let ctx := pkCtx k.packet
  (s.secEvent 2 ((tfind s.sec.ctxs ctx.toNat).map (·.part.val) |>.getD 0) (ctx.setWidth 32)).badData k.serial 8 off

/-- KEY_IMPORT: a wrapped model key is checked, opened and held. -/
def execKeyImport (cmd : Nat) (wrapped : List Byte) (s : State) : Out :=
  s.withCmd cmd 0x61 (fun k =>
    let ctx := pkCtx k.packet
    if !s.ctxConf ctx then s.badParam k.serial 8 0x03
    else if wrapped.length ≠ 228 then s
    else match firstBad (keyChecks s k.packet wrapped) with
      | some o => s.keyFail k o
      | none => match openKey s wrapped with
        | none => s
        | some key =>
          (s.modSec (fun c => { c with ctxs := c.ctxs.map (fun x =>
            (x.1, if x.1 = ctx.toNat then { x.2 with modelKey := some (ofBytes 256 key) } else x.2)) })).completeOk k.serial)

/-- FABRIC_ROUTE_SET: entries of the local route table are written. -/
def execFabricRouteSet (cmd : Nat) (entries : List DWord) (s : State) : Out :=
  s.withCmd cmd 0x71 (fun k =>
    if entries.length ≠ rnum k.packet 0x12 0 11 then s
    else
      (s.modFab (fun b => { b with routes :=
        ((List.range entries.length).zip entries).foldl (fun t x =>
          tset (0 : BitVec 52) t (rnum k.packet 0x10 0 10 + x.1) (fld x.2 0 52)) b.routes })).completeOk k.serial)

/-- The last beat whose pulse the source can no longer change. -/
def Glb.fixedBeat (g : Glb) : DWord := (g.source.announced.map (·.beat)).getD g.lastBeat

/-- GEYSER_SET: the source takes a new period or a hand-over for a coming beat. -/
def execGeyserSet (cmd : Nat) (s : State) : Out :=
  s.withCmd cmd 0x72 (fun k =>
    let n : BitVec 16 := rfld k.packet 0x10 0 16
    let beat : DWord := rfld k.packet 0x18 0 64
    let heir : Option (BitVec 10) := if bitAt k.packet (8 * 0x12) then some (rfld k.packet 0x14 0 10) else none
    if !s.glb.isSource then s.badParam k.serial 8 0x10
    else if n ≠ 0 ∧ (n.toNat < 64 ∨ n.toNat ≤ s.fab.delay.toNat) then s.badParam k.serial 8 0x10
    else if beat.toNat ≤ s.glb.fixedBeat.toNat then s.badParam k.serial 8 0x18
    else
      (s.modGlb (fun g => { g with source := { g.source with sets := g.source.sets ++ [(beat, n, heir)] } })).completeOk k.serial)

/-! ### BAR 4 (R263) -/

/-- The parts of an access by page: address and length. -/
def pageParts : Nat → Nat → Nat → List (Nat × Nat)
  | 0, _, _ => []
  | n + 1, a, len =>
    let m := min len (pageBytes - a % pageBytes)
    if len = 0 then [] else (a, m) :: pageParts n (a + m) (len - m)

/-- The device virtual address of a byte of BAR 4. -/
def State.bar4Addr (s : State) (offset : Word) : Nat := s.cp.bar4Base.toNat * 2 ^ 32 + offset.toNat

/-- Where one part of a BAR 4 access goes. -/
def State.bar4Xlate (s : State) (a : Nat) (write : Bool) : Xlat :=
  let vpn : BitVec 21 := BitVec.ofNat 21 (a / pageBytes)
  if !s.cp.bar4En then .fault 5 vpn
  else if s.ctxConf s.cp.bar4Ctx then .fault 2 vpn
  else match s.xlate (some s.cp.bar4Ctx) (a : Int) write with
    | .fault c _ => .fault c vpn
    | x => x

/-- The first part of an access that fails. -/
def firstFault : List (Xlat × Nat) → Option (Nat × BitVec 21)
  | [] => none
  | (.fault c v, _) :: _ => some (c, v)
  | _ :: xs => firstFault xs

/-- A failure recorded: cause and VPN of the first since FAIL was cleared. -/
def State.bar4Fails (s : State) (cause : Nat) (vpn : BitVec 21) : State :=
  if s.cp.bar4Fail then s else s.modCp (fun c => { c with bar4Fail := true, bar4Cause := BitVec.ofNat 4 cause, bar4Vpn := vpn })

/-- The parts of an access and where each goes. -/
def State.bar4Parts (s : State) (offset : Word) (len : Nat) (write : Bool) : List (Xlat × Nat) :=
  (pageParts 2 (s.bar4Addr offset) len).map (fun x => (s.bar4Xlate x.1 write, x.2))

/-- Bytes of an access that lie in host memory. -/
def hostLen (xs : List (Xlat × Nat)) : Nat := (xs.map (fun x => match x.1 with
  | .host _ _ _ _ => x.2
  | _ => 0)).sum

/-- The parts of a read carried out: its bytes, the host's taken from what PCIe delivered; a block that cannot be read
fails the access with cause DATA. -/
def State.bar4Get (s : State) (fails : List BlockFail) : List (Xlat × Nat) → List Byte → State × Option (List Byte)
  | [], _ => (s, some [])
  | (x, n) :: xs, h =>
    let r : State × Option (List Byte) := match x with
      | .stack dma => s.hubReads s.cp.bar4Ctx fails hubFuel dma n
      | .host a _ ns rlx => (s.emit (.read (BitVec.ofNat 64 a) n ns rlx), some (h.take n))
      | .fault _ _ => (s, none)
    let y := r.1.bar4Get fails xs (match x with
      | .host _ _ _ _ => h.drop n
      | _ => h)
    (y.1, do let u ← r.2; let v ← y.2; pure (u ++ v))

/-- The page of an access in which a block failed. -/
def State.bar4BadVpn (s : State) (offset : Word) (fails : List BlockFail) (xs : List (Xlat × Nat)) : BitVec 21 :=
  let hit (x : Xlat × Nat) : Bool := match x.1 with
    | .stack dma => fails.any (fun f => !f.recovered && decide (dma / 256 ≤ f.block.toNat ∧ f.block.toNat ≤ (dma + x.2 - 1) / 256))
    | _ => false
  BitVec.ofNat 21 (s.bar4Addr offset / pageBytes + (xs.takeWhile (fun x => !hit x)).length)

/-- A read whose parts all translate. -/
def State.bar4Serve (s : State) (offset : Word) (len : Nat) (fails : List BlockFail) (xs : List (Xlat × Nat)) (h : List Byte) : State :=
  let r := s.bar4Get fails xs h
  match r.2 with
  | some b => r.1.emit (.readData b)
  | none => (r.1.bar4Fails 3 (s.bar4BadVpn offset fails xs)).emit (.readData (List.replicate len 0xFF))

/-- BAR4_READ: a read of the window; one that fails a check, or a block of it that cannot be read, returns all ones. -/
def execBar4Read (offset : Word) (len : Nat) (io : HostIO) (fails : List BlockFail) (s : State) : Out :=
  if !(Instr.bar4Read offset len io fails).wellFormed then .fault .illFormed
  else
    let xs := s.bar4Parts offset len false
    let ones : PcieOut := .readData (List.replicate len 0xFF)
    match firstFault xs with
    | some (c, v) => .next ((s.bar4Fails c v).emit ones)
    | none =>
      if hostLen xs = 0 then .next (s.bar4Serve offset len fails xs [])
      else match io with
        | .none => .next s
        | .error => .next ((s.bar4Fails 4 (BitVec.ofNat 21 (s.bar4Addr offset / pageBytes))).emit ones)
        | .data b => if b.length = hostLen xs then .next (s.bar4Serve offset len fails xs b) else .next s

/-- The parts of a write carried out; a block that cannot be read for its read-modify-write keeps its bytes, and the
failure is answered. -/
def State.bar4Put (s : State) (fails : List BlockFail) : List (Xlat × Nat) → List Byte → State × Bool
  | [], _ => (s, true)
  | (x, n) :: xs, b =>
    let r : State × Bool := match x with
      | .stack dma => let w := s.hubWrites s.cp.bar4Ctx fails hubFuel dma (b.take n); (w.1, w.2.isSome)
      | .host a _ ns rlx => (s.emit (.write (BitVec.ofNat 64 a) (b.take n) ns rlx), true)
      | .fault _ _ => (s, false)
    let y := r.1.bar4Put fails xs (b.drop n)
    (y.1, r.2 && y.2)

/-- BAR4_WRITE: a write of the window; one that fails a check is dropped. -/
def execBar4Write (offset : Word) (bytes : List Byte) (fails : List BlockFail) (s : State) : Out :=
  if !(Instr.bar4Write offset bytes fails).wellFormed then .fault .illFormed
  else
    let xs := s.bar4Parts offset bytes.length true
    match firstFault xs with
    | some (c, v) => .next (s.bar4Fails c v)
    | none =>
      let r := s.bar4Put fails xs bytes
      .next (if r.2 then r.1 else r.1.bar4Fails 3 (s.bar4BadVpn offset fails xs))

/-! ### The DOE mailbox (R264) -/

/-- A region belongs to a partition that is being reset. -/
def State.regionResetting (s : State) (r : Fin 16) : Bool := s.sec.parts.any (fun p => p.resetting && p.regions.getLsbD r.val)

/-- The digests that ATTEST and the SPDM measurements report, in the order of the report (R264, R378). -/
def State.digests (s : State) : List (BitVec 384) :=
  [Config.bootRomDigest, s.sec.digests[(0 : Fin 3)], s.sec.digests[(1 : Fin 3)], s.sec.digests[(2 : Fin 3)], s.cfg.fullDigest]
    ++ (List.finRange 16).map (fun r => if s.regionResetting r then 0 else s.regions[r].digest)
    ++ [if s.pwr.updatePending then s.pwr.lastNextDigest else 0]

/-- DOE_MESSAGE: an object of at most 256 KiB is answered.  DOE discovery, SPDM and IDE key management stand in other
documents: the answer, and whether an IDE stream is then active, are free; the measurements in it are a function of
the digests that ATTEST reports (log 28). -/
def execDoeMessage (object : List Byte) (s : State) : Out :=
  if 262144 < object.length then .next s
  else
    let x := s.draw
    .next ((x.2.modCp (fun c => { c with ideActive := bitAt x.1 0 })).emit (.doe (Config.doeAnswer s.digests object x.1)))

end Sys2Proof.Machine
end

