-- ==== Sys2Proof/Machine/Noc.lean ====
section
/-! DEFINITION. The control network: nodes, routes, packets, routers, requests and their answers, probes and trace
(R161 to R177, R294, R302). -/

namespace Sys2Proof.Machine

/-! ### Nodes and routes (R162, R166, R294) -/

/-- A node address. -/
def nodeAt (die y x leaf : Nat) : BitVec 9 := BitVec.ofNat 9 (256 * die + 32 * y + 4 * x + leaf)
def nodeDie (n : BitVec 9) : Bool := bitAt n 8
def nodeY (n : BitVec 9) : Nat := nfld n 5 3
def nodeX (n : BitVec 9) : Nat := nfld n 2 3

def calNode (n : Nat) : BitVec 9 := nodeAt (n / 32) (n % 32 / 8 + 2) (n % 8) 0
def portNode (p : Nat) : BitVec 9 := nodeAt (p / 6) 7 (p % 6 + 1) 1
def stackNode (s : Nat) : BitVec 9 :=
  let j := s % 4
  if j < 2 then nodeAt (s / 4) (2 + 2 * j) 0 1 else nodeAt (s / 4) (2 * j - 2) 7 1
def regionNode (r : Nat) : BitVec 9 :=
  let i := r % 8
  if i < 4 then nodeAt (r / 8) 1 (2 * i) 0 else nodeAt (r / 8) 6 (2 * (i - 4)) 0
def glbNode : BitVec 9 := nodeAt 0 7 0 1
def pcieNode : BitVec 9 := nodeAt 0 7 0 2
def cpNode : BitVec 9 := nodeAt 0 7 0 3
def nocNode (die : Nat) : BitVec 9 := nodeAt die 7 7 1
def mcNode : BitVec 9 := nodeAt 0 7 7 2
def ccNode : BitVec 9 := nodeAt 0 7 7 3

/-- The fixed target of a route index; none for a reserved one and for those that partition owners set. -/
def rtTarget (i : Nat) : Option (BitVec 9) :=
  if i < 0x40 then some (calNode i)
  else if i < 0x4C then some (portNode (i - 0x40))
  else if 0x50 ≤ i ∧ i < 0x58 then some (stackNode (i - 0x50))
  else if 0x60 ≤ i ∧ i < 0x70 then some (regionNode (i - 0x60))
  else if i = 0x80 then some glbNode else if i = 0x81 then some pcieNode else if i = 0x82 then some cpNode
  else if i = 0x83 then some mcNode else if i = 0x84 then some ccNode
  else if i = 0x85 then some (nocNode 0) else if i = 0x86 then some (nocNode 1)
  else none

/-- The route index of a node. -/
def nodeIndex (n : BitVec 9) : Option Nat := (List.range 0x87).find? (fun i => rtTarget i == some n)

/-- The node of a die-bridge lane, and whether an address names a node (R162). -/
def laneNode (die lane : Nat) : BitVec 9 := nodeAt die 0 lane 1
def isNode (n : BitVec 9) : Bool :=
  (nodeIndex n).isSome || (List.range 16).any (fun i => laneNode (i / 8) (i % 8) == n)

/-- The reset value of a route entry. -/
def rtReset (i : Nat) : BitVec 13 :=
  match rtTarget i with
  | some n => at_ 13 0 n ||| natAt 13 10 (nodeX n)
  | none => 0

def State.rtEntry (s : State) (i : Nat) : BitVec 13 := (tfind s.rt i).getD (rtReset i)

/-- A route entry written for every interface (R166). -/
def State.writeRt (s : State) (i : Nat) (v : BitVec 13) : State :=
  { s with rt := if v = rtReset i then tdel s.rt i else tput s.rt i v }

/-- NOC_RT_WRITE: a write through either die's window updates the entry in every interface (R166). -/
def execNocRtWrite (_die : Bool) (index : BitVec 8) (value : Word) (s : State) : Out :=
  if !s.serving then .next s else
  .next (s.writeRt index.toNat (fld value 0 13))

/-- The route index that an address selects (R294). -/
def addrRoute (a : Nat) : Option Nat :=
  if a < 0x30000 then some 0x80 else if a < 0x40000 then some 0x82 else if a < 0x80000 then some 0x84
  else if a < 0x100000 then some (0x85 + (a - 0x80000) / 0x40000)
  else if a < 0x110000 then some 0x80
  else if 0x600000 ≤ a ∧ a < 0x6C0000 then some (0x40 + (a - 0x600000) / 0x10000)
  else if 0x6F0000 ≤ a ∧ a < 0x700000 then some 0x80
  else if 0x800000 ≤ a ∧ a < 0xA00000 then some (0x50 + (a - 0x800000) / 0x40000)
  else if 0xA00000 ≤ a ∧ a < 0xA40000 then some 0x80
  else if 0xC00000 ≤ a ∧ a < 0xD00000 then some (0x60 + (a - 0xC00000) / 0x10000)
  else if 0xD00000 ≤ a ∧ a < 0xD10000 then some 0x80
  else if 0x1000000 ≤ a ∧ a < 0x2000000 then some ((a - 0x1000000) / 0x40000)
  else if 0x2000000 ≤ a ∧ a < 0x2040000 then some 0x80
  else if 0x2100000 ≤ a ∧ a < 0x2500000 then some 0x80
  else none

/-! ### Packets (R163 to R165) -/

def hdDst (h : Word) : BitVec 9 := fld h 0 9
def hdSrc (h : Word) : BitVec 9 := fld h 9 9
def hdType (h : Word) : Nat := nfld h 18 4
def hdAge (h : Word) : Nat := nfld h 22 6
def hdYfirst (h : Word) : Bool := bitAt h 28
def hdLane (h : Word) : Nat := nfld h 29 3

def mkHeader (dst src : BitVec 9) (kind : Nat) (e : BitVec 13) : Word :=
  at_ 32 0 dst ||| at_ 32 9 src ||| natAt 32 18 kind ||| at_ 32 28 (fld e 9 1) ||| at_ 32 29 (fld e 10 3)

def npAddr (d : Data256) : Nat := rnum d 0 0 32
def npTag (d : Data256) : BitVec 10 := rfld d 4 0 10
def npLen (d : Data256) : Nat := rnum d 4 12 2 + 1
def npStatus (d : Data256) : Nat := rnum d 8 0 8
def npData (d : Data256) : BitVec 128 := rfld d 0x10 0 128

/-- An answer's data: the tag echoed, the length of the access, a status and up to four words (R165). -/
def rspData (tag : BitVec 10) (words status : Nat) (data : BitVec 128) : Data256 :=
  at_ 256 32 tag ||| natAt 256 44 ((words - 1) % 4) ||| natAt 256 64 status ||| at_ 256 128 data

/-! ### Interfaces -/

def State.iface (s : State) (n : BitVec 9) : Iface := tget ({} : Iface) s.ifaces n.toNat
def State.modIface (s : State) (n : BitVec 9) (f : Iface → Iface) : State := { s with ifaces := tput s.ifaces n.toNat (f (s.iface n)) }

/-- A packet waits at its leaf to be injected. -/
def State.injectPkt (s : State) (n : BitVec 9) (h : Word) (d : Data256) : State :=
  { s with mesh := s.mesh ++ [{ hdr := h, data := d, die := nodeDie n, x := Fin.ofNat 8 (nodeX n), y := Fin.ofNat 8 (nodeY n), port := 5 }] }

/-- The route entry of a node. -/
def State.nodeRoute (s : State) (n : BitVec 9) : BitVec 13 := match nodeIndex n with
  | some i => s.rtEntry i
  | none => 0

/-- The answer of a node to a request, with the path that a route entry gives. -/
def State.respondBy (s : State) (e : BitVec 13) (n : BitVec 9) (h : Word) (d : Data256) (status : Nat) (data : BitVec 128) : State :=
  s.injectPkt n (mkHeader (hdSrc h) n 8 e) (rspData (npTag d) (npLen d) status data)

/-- The answer of a node to a request: the RSP takes the route entry of its initiator. -/
def State.respond (s : State) (n : BitVec 9) (h : Word) (d : Data256) (status : Nat) (data : BitVec 128) : State :=
  s.respondBy (s.nodeRoute (hdSrc h)) n h d status data

/-! ### Accesses of the host (R261, R302) -/

/-- A failed BAR0 access recorded: its bit, and its address while none is held. -/
def State.accessFail (s : State) (bit : Nat) (addr : Word) : State :=
  s.modGlb (fun g =>
    let g1 := { g with accessErr := g.accessErr ||| BitVec.twoPow 6 bit }
    if bitAt g.accessErr 5 then g1 else { g1 with accessErr := g1.accessErr ||| 0x20, accessAddr := addr })

/-- The bit of GLB_ACCESS_ERR that a status sets. -/
def statusBit (status : Nat) : Option Nat :=
  if status = 1 then some 0 else if status = 3 then some 1 else if status = 4 then some 2 else if status = 0xF then some 3 else none

/-- What the host sees of an access of `n` words. -/
def State.hostOutcome (s : State) (write : Bool) (addr : Word) (n status : Nat) (data : BitVec 128) : State :=
  let s1 := match statusBit status with
    | some b => if status = 1 ∧ !write then s else s.accessFail b addr
    | none => s
  let s2 := s1.emit (.accessStatus (BitVec.ofNat 8 status))
  if write then s2
  else s2.emit (.readData (if status < 2 then toBytes data (4 * n) else List.replicate (4 * n) (if status = 0xF then 0xFF else 0)))

/-- A request of an interface completes. -/
def State.finishReq (s : State) (n : BitVec 9) (tag : BitVec 10) (kind addr words status : Nat) (data : Data256) : State :=
  let s1 := s.modIface n (fun i => { i with done := i.done ++ [(tag, BitVec.ofNat 8 status, data)] })
  if n = pcieNode ∧ kind < 2 then s1.hostOutcome (kind == 1) (BitVec.ofNat 32 addr) words status (npData data) else s1

/-! ### Requests (R164, R166, R170, R172, R173) -/

/-- Tags that an interface cannot issue now. -/
def Iface.used (i : Iface) : List (BitVec 10) := i.lost ++ i.out.map (·.tag)

/-- The next tag in ascending order that may be issued. -/
def Iface.freeTag (i : Iface) : Nat → BitVec 10 → BitVec 10
  | 0, t => t
  | n + 1, t => if i.used.contains t then i.freeTag n (t + 1) else t

/-- A logic region's node, and a link port's. -/
def regionOfNode (n : BitVec 9) : Option (Fin 16) := (List.finRange 16).find? (fun r => regionNode r.val == n)
def portOfNode (n : BitVec 9) : Option (Fin 12) := (List.finRange 12).find? (fun p => portNode p.val == n)

/-- An injection that R173 forbids. -/
def injectionRefused (n : BitVec 9) (kind route : Nat) : Bool :=
  if (portOfNode n).isSome then !(kind == 3 && (route == 0x83 || route == 0x84))
  else if (regionOfNode n).isSome then !(kind == 4 && decide (0xC0 ≤ route))
  else false

/-- The members of the broadcast or group window that an address falls in (R296, R301). -/
def State.fanTargets (s : State) (a : Nat) : List (BitVec 9) :=
  if 0x6F0000 ≤ a ∧ a < 0x700000 then (List.range 12).map portNode
  else if 0xA00000 ≤ a ∧ a < 0xA40000 then (List.range 8).map stackNode
  else if 0xD00000 ≤ a ∧ a < 0xD10000 then (List.range 16).map regionNode
  else if 0x2000000 ≤ a ∧ a < 0x2040000 then (List.range 64).map calNode
  else if 0x2100000 ≤ a ∧ a < 0x2500000 then
    ((List.range 64).filter (fun n => (s.glb.groupMask[Fin.ofNat 16 ((a - 0x2100000) / 0x40000)]).getLsbD n)).map calNode
  else []

/-- A request that an interface has outstanding keeps the next one to a node back: it goes to the same node, or it is a
write through a window that the node is a member of (R170, R298). -/
def State.keepsBack (s : State) (q : NReq) (dst : BitVec 9) : Bool :=
  q.dst == dst || (hdType q.hdr == 1 && (s.fanTargets (npAddr q.data)).contains dst)

/-- The interface of a node cannot issue a request to a node now: eight are outstanding, or one keeps it back (R170). -/
def State.mustWait (s : State) (node dst : BitVec 9) : Bool :=
  decide (8 ≤ (s.iface node).out.length) || (s.iface node).out.any (fun q => s.keepsBack q dst)

/-- What becomes of a request at its interface: it waits to be issued, it completes at once with a status, or it waits at
its leaf with a tag. -/
inductive Issued where
  | waits
  | ended (status : Nat) (s : State)
  | sent (tag : BitVec 10) (s : State)
deriving DecidableEq, Repr

/-- An interface forms the header from its route table, and the packet waits at its leaf (R164, R166, R170, R172, R173). -/
def State.issueNoc (s : State) (node : BitVec 9) (route k : Nat) (data : Data256) : Issued :=
  let die := nodeDie node
  let sel := if k < 2 then addrRoute (npAddr data) else some route
  if injectionRefused node k (sel.getD route) then
    .ended 4 (s.modNoc die (fun d => { d with dropCnt := satInc d.dropCnt, refusedInj := true }))
  else
    match sel with
    | none => .ended 3 s
    | some r =>
      let e := s.rtEntry r
      let dst : BitVec 9 := fld e 0 9
      let i := s.iface node
      if (r < 0xC0 ∧ (rtTarget r).isNone) ∨ (0xC0 ≤ r ∧ k ≠ 4) ∨ !isNode dst then .ended 3 s
      else if 1024 - i.used.length < 8 then
        .ended 0xF (s.modNoc die (fun d => { d with tagExhaust := true, timeoutCnt := satInc d.timeoutCnt }))
      else if s.mustWait node dst then .waits
      else
        let tag := i.freeTag 1024 i.nextTag
        let d := putFld data 32 tag
        let h := mkHeader dst node k e
        .sent tag ((s.modIface node (fun i =>
          { i with nextTag := tag + 1, out := i.out ++ [{ tag := tag, dst := dst, hdr := h, data := d, since := s.now }] })).injectPkt node h d)

/-- A region's gateway injects nothing while the region is isolated (R326). -/
def State.quietNode (s : State) (n : BitVec 9) : Bool := ((regionOfNode n).map (fun r => (s.regions[r]).isolated)).getD false

/-- NOC_REQUEST: an interface injects a request, or completes it at once (R164, R166, R170, R172, R173, R326). -/
def execNocRequest (node : BitVec 9) (route : BitVec 8) (kind : BitVec 4) (data : Data256) (s : State) : Out :=
  if kind = 8 ∨ (nodeIndex node).isNone ∨ s.quietNode node then .next s
  else match s.issueNoc node route.toNat kind.toNat data with
    | .waits => .next s
    | .ended status t =>
      .next (t.finishReq node (t.iface node).nextTag kind.toNat (npAddr data) (npLen data) status (rspData 0 (npLen data) status 0))
    | .sent _ t => .next t

/-- NOC_BUSY_RETRY: a request that was answered BUSY is injected again under its timer (R171). -/
def execNocBusyRetry (node : BitVec 9) (tag : BitVec 10) (s : State) : Out :=
  match (s.iface node).out.find? (fun q => q.tag == tag && q.busy) with
  | none => .next s
  | some q =>
    .next ((s.modIface node (fun i => { i with out := i.out.map (fun x => if x.tag = tag then { x with busy := false } else x) })).injectPkt
      node q.hdr q.data)

/-- The timer of an outstanding request starts as its packet leaves its leaf for the first time (R172). -/
def State.noteInjected (s : State) (p : NPkt) : State :=
  if p.port = 5 ∧ hdType p.hdr ≠ 8 then
    s.modIface (hdSrc p.hdr) (fun i => { i with
      out := i.out.map (fun q => if q.tag = npTag p.data ∧ q.sent = false then { q with sent := true, since := s.now } else q) })
  else s

/-! ### Confidential holders (R372) -/

/-- A confidential context owns the region. -/
def State.confRegion (s : State) (r : Fin 16) : Bool := s.regions[r].owners.any s.ctxConf
/-- A conduit of a confidential context's plan uses the port; DESIGN CHOICE (log 123): while the plan is switched out it
holds no port, as its conduits are not set up then. -/
def State.confPort (s : State) (p : Fin 12) : Bool :=
  s.plans.any (fun q => q.resident && s.ctxConf q.ctx && (setupEps q.conduits).any (fun e => match e with
    | .port x _ => x == p
    | _ => false))

/-- A node of a unit that a confidential context holds (R176). -/
def State.confNode (s : State) (n : BitVec 9) : Bool :=
  match nodeIndex n with
  | some i =>
    if i < 0x40 then s.confCal (Fin.ofNat 64 i)
    else if i < 0x4C then s.confPort (Fin.ofNat 12 (i - 0x40))
    else if 0x60 ≤ i ∧ i < 0x70 then s.confRegion (Fin.ofNat 16 (i - 0x60))
    else false
  | none => false

/-- A packet from or to a node that a confidential context holds (R176). -/
def State.confPacket (s : State) (h : Word) : Bool := s.confNode (hdSrc h) || s.confNode (hdDst h)

/-- What a snooping check unit does not see: flits and blocks of a confidential context, and packets that never match a
probe (R176, R373). -/
def State.snoopHidden (s : State) : SnoopOrigin → Bool
  | .shared => false
  | .context c => s.ctxConf c
  | .packet h => s.confPacket h

/-- CHK_SNOOP_BLOCK: a unit snoops one step of its bus (R122, R123; log 81). -/
def execChkSnoopBlock (unit : ChkRef) (block : Snooped) (tag carried : DWord) (s : State) : Out :=
  if !(Instr.chkSnoopBlock unit block tag carried).wellFormed then .fault .illFormed
  else if s.snoopHidden block.origin then .next s
  else .next (s.modChk unit (·.snoop block.bytes tag carried))

/-! ### Probes and trace (R174 to R176) -/

/-- Where a probe looks. -/
inductive ProbeAt where
  | arrival | eject | inject
deriving DecidableEq, Repr

def ProbeAt.code : ProbeAt → Nat
  | .arrival => 0 | .eject => 1 | .inject => 2

/-- A packet that a probe matches. -/
def NProbe.hits (q : NProbe) (p : NPkt) (at_ : ProbeAt) (x y : Nat) : Bool :=
  let m (w : Word) (v : BitVec 9) : Bool := (v ^^^ fld w 0 9) &&& fld w 16 9 == 0
  bitAt q.ctl 0 && nfld q.ctl 4 2 == at_.code && nfld q.ctl 8 6 == 8 * y + x && m q.src (hdSrc p.hdr) && m q.dst (hdDst p.hdr)
    && bitAt q.ctl (16 + hdType p.hdr)
    && (!bitAt q.ctl 2 || (decide (hdType p.hdr < 2) && decide (q.lo.toNat ≤ npAddr p.data) && decide (npAddr p.data ≤ q.hi.toNat)))

/-- A trace record. -/
def traceRecord (s : State) (p : NPkt) (probe x y : Nat) : CWord :=
  at_ 512 0 p.hdr ||| natAt 512 32 probe ||| natAt 512 40 x ||| natAt 512 44 y ||| natAt 512 48 p.port.val
    ||| at_ 512 64 (s.glb.beatCnt.setWidth 32) ||| natAt 512 96 (min 65535 (s.now - s.glb.beatStart)) ||| at_ 512 128 p.data

/-- A record stored, or dropped and counted. -/
def NocDie.trc (d : NocDie) (r : CWord) : NocDie :=
  if d.full ∧ !d.wrap then { d with trcDrop := satInc d.trcDrop }
  else { d with trace := tput d.trace d.wptr.toNat r, wptr := d.wptr + 1, full := d.full || d.wptr == 1023 }

/-- A match seen in a hop: die, probe, packet and router. -/
structure Seen where
  die : Bool
  probe : Nat
  pkt : NPkt
  x : Nat
  y : Nat

/-- The matches of one packet at one test point. -/
def State.seenBy (s : State) (die : Bool) (p : NPkt) (at_ : ProbeAt) (x y : Nat) : List Seen :=
  if s.confPacket p.hdr then []
  else
    let d : NocDie := s.noc[if die then (1 : Fin 2) else 0]
    ((List.finRange 16).filter (fun i => d.probes[i].hits p at_ x y)).map (fun i => { die := die, probe := i.val, pkt := p, x := x, y := y })

/-- The matches of a hop: every one counted; of those that trace, the lowest probe's record is kept (R175). -/
def State.applySeen (s : State) (l : List Seen) : State :=
  let s1 := l.foldl (fun (s : State) m => s.modNoc m.die (fun d =>
    { d with probes := vmod d.probes (Fin.ofNat 16 m.probe) (fun q => { q with count := satInc q.count }) })) s
  let traced (die : Bool) : List Seen := l.filter (fun m =>
    m.die == die && bitAt (s.noc[if die then (1 : Fin 2) else 0].probes[Fin.ofNat 16 m.probe]).ctl 1)
  let put (s : State) (die : Bool) : State :=
    match (traced die).mergeSort (fun a b => decide (a.probe ≤ b.probe)) with
    | [] => s
    | m :: rest => s.modNoc die (fun d =>
        let d1 := d.trc (traceRecord s m.pkt m.probe m.x m.y)
        { d1 with trcDrop := satAdd d1.trcDrop rest.length })
  put (put s1 false) true

/-- TRACE_CLEAR: the trace buffer is emptied and its drop count zeroed (R177). -/
def execTraceClear (die : Bool) (s : State) : Out :=
  if !s.serving then .next s else
  .next (s.modNoc die (fun d => { d with trace := [], wptr := 0, full := false, trcDrop := 0 }))

/-! ### Routers (R167 to R169) -/

/-- The mesh ports of a router by arrival order: toward y − 1, y + 1, x − 1, x + 1. -/
def meshPorts (x y : Nat) : List Nat :=
  (if 0 < y then [0] else []) ++ (if y < 7 then [1] else []) ++ (if 0 < x then [2] else []) ++ (if x < 7 then [3] else [])

/-- The router that a packet aims at in its die, and whether it leaves by the bridge there. -/
def NPkt.aim (p : NPkt) : Nat × Nat × Bool :=
  if nodeDie (hdDst p.hdr) = p.die then (nodeX (hdDst p.hdr), nodeY (hdDst p.hdr), false) else (hdLane p.hdr, 0, true)

/-- The productive mesh port of a packet. -/
def NPkt.productive (p : NPkt) : Option Nat :=
  let x := p.x.val
  let y := p.y.val
  let t := p.aim
  let col := if t.1 < x then some 2 else if x < t.1 then some 3 else none
  let row := if t.2.1 < y then some 0 else if y < t.2.1 then some 1 else none
  if hdYfirst p.hdr then row <|> col else col <|> row

/-- Priority order: higher AGE, lower SRC, arrival port. -/
def NPkt.before (a b : NPkt) : Bool :=
  if hdAge a.hdr ≠ hdAge b.hdr then decide (hdAge b.hdr < hdAge a.hdr)
  else if hdSrc a.hdr ≠ hdSrc b.hdr then decide ((hdSrc a.hdr).toNat < (hdSrc b.hdr).toNat)
  else decide (a.port.val ≤ b.port.val)

/-- A packet after one mesh hop through a port. -/
def NPkt.through (p : NPkt) (port : Nat) : NPkt :=
  let hops := p.hops + 1
  let q := { p with hops := hops, hdr := putFld p.hdr 22 (BitVec.ofNat 6 (min 63 (hops / 8))) }
  if port = 0 then { q with y := p.y - 1, port := 1 } else if port = 1 then { q with y := p.y + 1, port := 0 }
  else if port = 2 then { q with x := p.x - 1, port := 3 } else { q with x := p.x + 1, port := 2 }

/-- What is still free at a router in a hop, and what the hop has done. -/
structure HopState where
  s : State
  mesh : List Nat
  leaves : List Nat
  bridge : Bool
  seen : List Seen

/-- A packet leaves through a mesh port. -/
def HopState.moveTo (h : HopState) (p : NPkt) (port : Nat) : HopState :=
  let q := p.through port
  let inj := if p.port = 5 then h.s.seenBy p.die p .inject p.x.val p.y.val else []
  { h with
    s := { h.s with mesh := (h.s.mesh.erase p) ++ [q] }.noteInjected p
    mesh := h.mesh.erase port
    seen := h.seen ++ inj ++ h.s.seenBy q.die q .arrival q.x.val q.y.val }

/-- Any free mesh port; which one is free (log 3). -/
def HopState.deflect (h : HopState) (p : NPkt) : HopState :=
  let x := h.s.draw
  match h.mesh[x.1.toNat % h.mesh.length]? with
  | some port => { h with s := x.2 }.moveTo p port
  | none => h

/-- One packet served (R168). -/
def HopState.serve (h : HopState) (p : NPkt) : HopState :=
  let t := p.aim
  let here := decide (p.x.val = t.1 ∧ p.y.val = t.2.1)
  let leaf := nfld (hdDst p.hdr) 0 2
  if p.port ≠ 5 ∧ here ∧ !t.2.2 ∧ h.leaves.contains leaf then
    { h with
      s := { h.s with mesh := h.s.mesh.erase p }.modIface (hdDst p.hdr) (fun i => { i with rxq := i.rxq ++ [(p.hdr, p.data)] })
      leaves := h.leaves.erase leaf
      seen := h.seen ++ h.s.seenBy p.die p .eject p.x.val p.y.val }
  else if p.port ≠ 5 ∧ here ∧ t.2.2 ∧ h.bridge then
    let q := { p with die := !p.die, port := 4 }
    { h with
      s := { h.s with mesh := (h.s.mesh.erase p) ++ [q] }, bridge := false
      seen := h.seen ++ h.s.seenBy q.die q .arrival q.x.val q.y.val }
  else match p.productive with
    | some port => if h.mesh.contains port then h.moveTo p port else h.deflect p
    | none => h.deflect p

/-- The packets present at a router in a hop: the first of each arrival port and of each injecting leaf; those behind
it are still on their way (R168). -/
def presentPkts (l : List NPkt) : List NPkt :=
  l.foldl (fun a p => if a.any (fun q => q.port == p.port && (p.port != 5 || hdSrc q.hdr == hdSrc p.hdr)) then a else a ++ [p]) []

/-- NOC_HOP: every packet at a router leaves it in priority order; a leaf injects into a port that stays free
(R167, R168). -/
def execNocHop (die : Bool) (x y : Fin 8) (s : State) : Out :=
  let here := presentPkts (s.mesh.filter (fun p => p.die == die && p.x == x && p.y == y))
  let order := (here.filter (·.port != 5)).mergeSort NPkt.before ++ (here.filter (·.port == 5)).mergeSort NPkt.before
  let h := order.foldl HopState.serve { s := s, mesh := meshPorts x.val y.val, leaves := [0, 1, 2, 3], bridge := true, seen := [] }
  .next (h.s.applySeen h.seen)

end Sys2Proof.Machine
end

