-- ==== Sys2Proof/Machine/Logic.lean ====
section
/-! DEFINITION. Programmable logic as its gateways and PLLs show it (R317 to R329). -/

namespace Sys2Proof.Machine

/-! ### Clocks (R317 to R319) -/

/-- PLL_STATUS. -/
def Pll.status (p : Pll) : Word := flagAt 32 0 p.locked ||| flagAt 32 1 p.unlock

/-- PLL_LOCK: a configured PLL locks and its outputs start (R319). -/
def execPllLock (k : Fin 8) (s : State) : Out :=
  if s.plls[k].div = 0 then .next s
  else .next { s with plls := vmod s.plls k (fun p => { p with locked := true, lockedOnce := true, phase := Vector.replicate 4 0 }) }

/-- PLL_UNLOCK: a PLL loses lock: its nets stop, UNLOCK is set and an event is raised (R319, R329, R395). -/
def execPllUnlock (k : Fin 8) (s : State) : Out :=
  if !s.plls[k].locked then .next s
  else
    let s1 := { s with plls := vmod s.plls k (fun p => { p with locked := false, unlock := p.unlock || p.lockedOnce }) }
    let s2 := s1.modRegions (fun r x =>
      if x.gw.any (fun w => w.used && netPll r w.net.toNat == k && s.plls[k].out (w.net.toNat % 4) != 0) then { x with clkFault := true } else x)
    .next (s2.raise 4 16 k.val 2 (s2.cfg.event.setWidth 32) s2.plls[k].status)

/-! ### Gateway words (R320, R324) -/

/-- The endpoint's port may move a word. -/
def State.gwOpen (s : State) (g e : Fin 16) : Bool :=
  let r := s.regions[g]
  let w := r.gw[e]
  !r.isolated && !r.resync && w.ep.en && w.used && s.netRuns g w.net.toNat && !s.gwPaused g e

/-- GATEWAY_WORD: a word moves across an endpoint's port (R320, R324, R326). -/
def execGatewayWord (region : Fin 16) (ep : Fin 16) (dir : GwDir) (s : State) : Out :=
  let w := (s.regions[region].gw[ep]).absorb
  if !s.gwOpen region ep then .next s
  else match dir with
    | .intoRegion =>
      match w.inBuf with
      | _ :: rest =>
        if w.ep.dest then .next (s.modGw region ep (fun _ => ({ w with inBuf := rest, pos := w.pos + 1 } : GwEp).absorb)) else .next s
      | [] => .next s
    | .outOfRegion word =>
      if w.ep.source ∧ w.outBuf.length < 4 then
        .next (s.modGw region ep (fun _ => ({ w with outBuf := w.outBuf ++ [word], pos := w.pos + 1 } : GwEp).offer))
      else .next s

/-- GW_RESYNC_DONE: the user logic has taken the restart positions and words move again (R324). -/
def execGwResyncDone (region : Fin 16) (s : State) : Out :=
  if s.regions[region].resync then .next (s.modRegion region (fun r => { r with resync := false, restarts := [] })) else .next s

/-! ### Work of a context (R361) -/

/-- The context for whose work a node asks: that of the caldera, or of the region (log 29). -/
def State.nodeCtx (s : State) (n : BitVec 9) : Option Byte :=
  match nodeIndex n with
  | some i =>
    if i < 0x40 then s.calCtx (Fin.ofNat 64 i)
    else if 0x60 ≤ i ∧ i < 0x70 then (s.regions[Fin.ofNat 16 (i - 0x60)]).owners.head?
    else none
  | none => none

end Sys2Proof.Machine
end

