-- ==== Sys2Proof/Machine/RegRead.lean ====
section
/-! DEFINITION. What every register of BAR0 reads as (R10, R17 to R20, R24, R30, R71 to R73, R97, R100, R114, R117, R118
to R128, R149, R159, R160, R177, R185, R205 to R207, R232, R233, R259, R269, R293 to R295, R301 to R308, R319, R329,
R345, R358, R373, R383, R385, R404, R405). -/

namespace Sys2Proof.Machine

/-- Word `k` of a wider register. -/
def wd {n : Nat} (v : BitVec n) (k : Nat) : Word := v.extractLsb' (32 * k) 32

/-- The element and the offset within it of an address in a table of `n` elements of a stride. -/
def bank (off base stride n : Nat) : Option (Nat × Nat) :=
  if base ≤ off ∧ off < base + stride * n then some ((off - base) / stride, (off - base) % stride) else none

/-- A word of a table of registers: offset and value. -/
abbrev RegTab := List (Nat × Word)

/-- A 64-bit register as two words. -/
def reg64 (off : Nat) (v : DWord) : RegTab := [(off, wd v 0), (off + 4, wd v 1)]

/-- Whether a table lists an offset, and its word. -/
def look (off : Nat) (t : RegTab) : Option Word := (t.find? (fun x => x.1 == off)).map (·.2)

/-! ### Units that several windows share -/

/-- CDT_EP registers; the word count of a confidential holder reads 0 (R185, R373). -/
def Endpoint.regs (e : Endpoint) (hide : Bool) : RegTab := (0, e.ctlWord) :: reg64 8 (if hide then 0 else e.words)

/-- The registers of a check unit (R118 to R123). -/
def Chk.regs (k : Chk) : RegTab :=
  let z := k.settle
  reg64 0x00 k.poly ++ reg64 0x08 k.init ++ reg64 0x10 k.xorout ++ reg64 0x18 z.value ++ reg64 0x20 z.result ++ reg64 0x28 k.foldVal
    ++ [(0x30, k.ctl.setWidth 32), (0x34, 0), (0x38, 0), (0x3C, 0),
        (0x40, flagAt 32 0 (!k.queue.isEmpty || (k.src != 0 && !k.frozen)) ||| flagAt 32 1 k.overrun ||| flagAt 32 2 k.paramErr),
        (0x44, k.mismatch)]
    ++ reg64 0x48 z.count ++ [(0x50, k.blocks)]

/-- The code of a slot state (R136). -/
def StmState.code : StmState → Nat
  | .idle => 0 | .armed => 1 | .active => 2 | .halted => 3 | .paused => 4

/-- STM_STATUS. -/
def Stream.statusWord (t : Stream) : Word :=
  natAt 32 0 t.st.code ||| flagAt 32 3 t.shadow.isSome ||| flagAt 32 4 t.overrun ||| flagAt 32 5 t.descErr
    ||| at_ 32 8 t.cause ||| at_ 32 16 t.genDone

/-- STM_DESC: the active descriptor, 0 when the slot is IDLE. -/
def Stream.descRead (t : Stream) : CWord := if t.st = .idle then 0 else t.desc

/-- The status registers of a slot; STM_STG stands in calderas only (R159, R293). -/
def Stream.regs (t : Stream) (cp : Bool) : RegTab :=
  (0x00, t.statusWord) :: reg64 0x08 (natAt 64 0 (t.savePos % 2 ^ 41))
    ++ [(0x10, t.vpn.setWidth 32), (0x14, t.idle.setWidth 32)] ++ (if cp then [] else [(0x18, t.stg.setWidth 32)])

/-- STM_SUMMARY of a list of slots (R160). -/
def stmSummary (l : List Stream) : Word :=
  flagAt 32 0 (l.any (fun t => t.st == .halted)) ||| flagAt 32 1 (l.any (fun t => t.st == .paused))
    ||| flagAt 32 2 (l.any (fun t => t.overrun)) ||| flagAt 32 3 (l.any (fun t => t.st == .halted && t.cause == 6))

/-- Stream registers at the offsets of R159 within a caldera's window or the CP block. -/
def streamRead {n : Nat} (l : Vector Stream n) (cp : Bool) (off : Nat) : Option Word :=
  match bank off 0x4000 0x40 n, bank off 0x5000 0x40 n, bank off 0x6000 0x20 n with
  | some (i, o), _, _ => (l[i]?).map (fun t => wd t.descRead (o / 4))
  | none, some (i, o), _ => (l[i]?).map (fun t => wd (t.shadow.getD 0) (o / 4))
  | none, none, some (i, o) => (l[i]?).bind (fun t => look o (t.regs cp))
  | none, none, none => if off = 0x7014 then some (stmSummary l.toList) else none

/-! ### CAL (R19, R71, R72, R97, R100, R114, R117, R125 to R128, R159, R160, R185, R405) -/

/-- CAL_ID. -/
def calId (n : Fin 64) : Word := natAt 32 0 n.val ||| natAt 32 6 (calDie n) ||| natAt 32 8 (calRow n) ||| natAt 32 10 (calCol n)

/-- CAL_STATUS. -/
def State.calStatus (s : State) (n : Fin 64) : Word :=
  let c : Caldera := s.cals[n]
  let on (f : Plan → Bool) : Bool := s.plans.any (fun p => p.resident && p.names n && f p)
  flagAt 32 0 c.gated ||| flagAt 32 1 c.waking ||| flagAt 32 2 (s.planNames n) ||| flagAt 32 3 (on Plan.started)
    ||| flagAt 32 4 (on (fun p => p.run == .suspended)) ||| flagAt 32 5 c.fault ||| flagAt 32 6 (!c.xlog.recs.isEmpty)
    ||| flagAt 32 7 c.xlogOvf ||| flagAt 32 8 c.zeroing ||| flagAt 32 9 c.accessRefused

/-- CAL_ARR_STATUS of an array; TWO_IN_FLIGHT counts issued passes, not those that await a replay (R71; log 110). -/
def Caldera.arrStatus (c : Caldera) (i : Fin 16) : Word :=
  let a : Arr := c.arrs[i]
  let on (p : Pass) : Bool := apTile p.raw == i.val / 4 && (apArrEn p.raw).getLsbD (i.val % 4)
  let slot (w : WSlot) : Nat := match w.st with
    | .empty => 0 | .loading => 1 | .ready => 2 | .pinned => 3
  flagAt 32 0 a.invalid ||| flagAt 32 1 a.sat ||| flagAt 32 2 a.flush ||| flagAt 32 3 a.fmtErr ||| natAt 32 4 (arrState c i)
    ||| natAt 32 8 (slot a.slotA) ||| natAt 32 10 (slot a.slotB) ||| flagAt 32 12 (decide (2 ≤ (c.passes.filter on).length))

/-- CAL_PASS_CUR: the oldest pass that has not committed. -/
def Caldera.passCur (c : Caldera) : Word :=
  match (c.passes ++ c.replays).mergeSort (fun a b => decide (a.serial ≤ b.serial)) with
  | [] => 0
  | p :: _ => apPassId p.raw

/-- CAL_PACE_FLAG. -/
def Caldera.paceFlag (c : Caldera) : Word := flagAt 32 0 c.belowFloor ||| flagAt 32 1 c.squallLimit

/-- The next instruction of the unit is a WDRAIN that waits for its rows (R106). -/
def Dsp.drainWaits (d : Dsp) (i : DWord) : Bool :=
  dspOp i == 0x51 && decide (d.rowsSince[Fin.ofNat 4 (dspImm i % 4)] < ((dspImm i / 4 : Nat) : Int))

/-- DSP_STATUS. -/
def State.dspStatus (s : State) (n : Fin 64) : Word :=
  let c : Caldera := s.cals[n]
  let d := c.dsp
  let runs : Bool := s.plans.any (fun p => p.resident && p.names n && (p.run == .running || p.run == .stopping))
  flagAt 32 0 d.invalid ||| flagAt 32 1 d.sat ||| flagAt 32 2 d.flush ||| flagAt 32 3 d.fault ||| at_ 32 4 d.faultCause
    ||| flagAt 32 8 d.srchNone ||| flagAt 32 9 (d.waiting || (d.busy && runs && !d.stopped && d.drainWaits (Dsp.fetch c)))
    ||| flagAt 32 10 (d.busy && runs && !d.stopped)

/-- The registers of the DSP unit, the address generators and the check units: those that gating loses (R128). -/
def State.calUnitRead (s : State) (n : Fin 64) (off : Nat) : Option Word :=
  let c : Caldera := s.cals[n]
  let d := c.dsp
  match bank off 0x1100 0x20 16, bank off 0x2000 0x100 2 with
  | some (g, o), _ => (d.ag[g]?).bind (fun a =>
      look o (reg64 0 (a.base.setWidth 64) ++ [(8, a.lenM1), (0xC, a.ptr), (0x10, a.stride), (0x14, a.ctl.setWidth 32)]))
  | none, some (u, o) => (c.chk[u]?).bind (fun k => look o k.regs)
  | none, none =>
    look off ([(0x1000, s.dspStatus n), (0x1004, d.mode.setWidth 32), (0x1008, d.seed), (0x100C, d.pc.setWidth 32),
      (0x1010, d.progBase.setWidth 32), (0x1014, d.faultPc.setWidth 32 ||| at_ 32 24 d.faultAg)])

/-- The other registers of a CAL window. -/
def State.calRead (s : State) (n : Fin 64) (off : Nat) : Option Word :=
  let c : Caldera := s.cals[n]
  let head : RegTab :=
    [(0x00, calId n), (0x04, s.calStatus n), (0x08, 0), (0x0C, flagAt 32 0 c.gateRefused), (0x100, c.paceLast), (0x104, c.paceMin)]
      ++ reg64 0x108 c.paceTotal ++ [(0x110, c.paceFlag), (0x120, c.ivWord)]
      ++ reg64 0x440 c.passCommits ++ [(0x448, c.passAbandons), (0x44C, c.passReplays), (0x454, (s.issueWait n).setWidth 32), (0x458, c.passCur)]
      ++ [(0x3000, c.xlog.head), (0x3004, 0), (0x3008, c.xlog.drop)]
      ++ [(0x7000, c.stgBase.setWidth 32), (0x7004, c.stgShape.setWidth 32), (0x7010, c.wdog.setWidth 32), (0x7018, c.evictCnt)]
  match look off head with
  | some w => some w
  | none =>
    match bank off 0x400 4 16, bank off 0x800 8 32, bank off 0x3100 0x20 64, bank off 0x8000 0x10 64, bank off 0x9000 4 192 with
    | some (i, _), _, _, _, _ => some (c.arrStatus (Fin.ofNat 16 i))
    | none, some (i, o), _, _, _ => (c.segs[i]?).map (fun w => wd w (o / 4))
    | none, none, some (i, o), _, _ => some (wd ((c.xlog.slot (BitVec.ofNat 6 i)).getD 0) (o / 4))
    | none, none, none, some (i, o), _ => (c.eps[i]?).bind (fun e => look o (e.regs false))
    | none, none, none, none, some (k, _) => some ((tget (0 : BitVec 22) c.xps k).setWidth 32)
    | none, none, none, none, none => (streamRead c.streams false off) <|> (s.calUnitRead n off)

/-- The offsets of a CAL window that answer while a confidential context holds the caldera (R373). -/
def calPublic (off : Nat) : Bool := decide (off ≤ 0xC) || (decide (0x100 ≤ off) && decide (off ≤ 0x110))

/-- Offsets of the units that gating loses. -/
def calGatedOff (off : Nat) : Bool := decide (0x1000 ≤ off) && decide (off < 0x3000)

/-! ### HBM (R205, R206) -/

/-- The counters of a channel (R206). -/
def Chan.regs (c : Chan) : RegTab :=
  reg64 0x00 c.rd ++ reg64 0x08 c.wr
    ++ [(0x10, c.rmw), (0x14, c.rowMiss), (0x18, c.firstFail), (0x1C, c.rereadOk), (0x20, c.rereadFail), (0x24, c.panicCnt),
        (0x28, c.refPostponed), (0x2C, c.rawWait), (0x30, c.badReq),
        (0x34, flagAt 32 0 (c.panicRd || c.panicWr) ||| natAt 32 1 (max c.postponed[(0 : Fin 2)] c.postponed[(1 : Fin 2)]))]

/-- A conduit of a confidential context's plan uses the endpoint (R373). -/
def State.confEp (s : State) (r : EpRef) : Bool :=
  s.plans.any (fun q => q.resident && s.ctxConf q.ctx && (setupEps q.conduits).contains r)

/-- The registers of a memory stack. -/
def State.hbmRead (s : State) (k : Fin 8) (off : Nat) : Option Word :=
  let t : Stack := s.hbmStacks[k]
  let head : RegTab :=
    [(0x00, t.statusWord), (0x04, t.tempWord), (0x08, t.idle.setWidth 32), (0x0C, t.postMax.setWidth 32),
     (0x10, t.low.setWidth 32 ||| at_ 32 8 t.high), (0x14, t.rows.setWidth 32), (0x18, 0)]
  match bank off 0x1000 0x40 32, bank off 0x8000 0x10 32 with
  | some (i, o), _ => (t.ch[i]?).bind (fun c => look o c.regs)
  | none, some (i, o) => (t.eps[i]?).bind (fun e => look o (e.regs (s.confEp (.stack k (Fin.ofNat 32 i)))))
  | none, none => look off head

/-! ### LNK (R232, R233) -/

/-- The counters of a port. -/
def PortCnt.regs (c : PortCnt) : RegTab :=
  reg64 0x100 c.txFlits ++ reg64 0x108 c.rxFlits ++ reg64 0x110 c.fecCorr
    ++ [(0x118, c.fecUncorr), (0x11C, c.crcErr), (0x120, c.nackTx), (0x124, c.replay), (0x128, c.dup), (0x12C, c.viol), (0x130, c.filterDrop),
        (0x134, c.preadmitDrop), (0x138, c.authFail), (0x13C, c.retrains), (0x140, c.fillDel), (0x144, c.fillIns), (0x148, c.ctlBad)]

/-- LNK_EYE. -/
def Lane.eye (l : Lane) : Word := at_ 32 0 l.eyeH ||| at_ 32 8 l.eyeW

/-- The registers of a lane. -/
def Lane.regs (l : Lane) : RegTab :=
  [(0x00, at_ 32 0 l.cm3 ||| at_ 32 4 l.cm2 ||| at_ 32 8 l.cm1 ||| at_ 32 14 l.cp1 ||| at_ 32 20 l.c0),
   (0x04, flagAt 32 0 l.rxReady ||| flagAt 32 1 l.partnerReady ||| at_ 32 2 l.phys ||| flagAt 32 4 l.inverted ||| at_ 32 8 l.skew),
   (0x08, l.eye), (0x0C, at_ 32 0 l.eyeMinH ||| at_ 32 8 l.eyeMinW),
   (0x10, at_ 32 0 l.gen ||| at_ 32 4 l.chk ||| flagAt 32 7 l.inv ||| flagAt 32 9 l.locked)]
    ++ reg64 0x18 (l.errs.setWidth 64) ++ reg64 0x20 l.bits

/-- The registers of a link port. -/
def State.lnkRead (s : State) (p : Fin 12) (off : Nat) : Option Word :=
  let q : Port := s.ports[p]
  let head : RegTab :=
    [(0x00, flagAt 32 0 q.en ||| flagAt 32 1 q.admitOn ||| flagAt 32 2 q.conf ||| flagAt 32 3 q.encrypt ||| at_ 32 8 q.loop ||| flagAt 32 10 q.medium),
     (0x04, q.stateWord), (0x08, q.event.setWidth 32), (0x0C, at_ 32 0 q.txId ||| at_ 32 16 q.rxId), (0x10, q.rtt.setWidth 32)]
      ++ reg64 0x18 q.partner
      ++ [(0x20, q.partnerPort.setWidth 32), (0x24, q.presPeriod.setWidth 32), (0x28, q.creditTo.setWidth 32), (0x2C, q.errMax.setWidth 32),
          (0x30, q.errWindow.setWidth 32), (0x34, q.retrainMax.setWidth 32), (0x38, at_ 32 0 q.violMax ||| at_ 32 8 q.minSvn), (0x14C, 0)]
  match look off head, look off q.cnt.regs with
  | some w, _ => some w
  | none, some w => some (if s.confPort p then 0 else w)
  | none, none =>
    match bank off 0x200 4 32, bank off 0x400 0x40 4, bank off 0x8000 0x10 8 with
    | some (i, _), _, _ => q.permit[i]?
    | none, some (i, o), _ => (q.lanes[i]?).bind (fun l => look o l.regs)
    | none, none, some (i, o) => (q.eps[i]?).bind (fun e => look o (e.regs (s.confPort p)))
    | none, none, none => none

/-! ### PLR (R329, R345) -/

/-- The registers of a logic region; its user registers are the logic's (R328). -/
def State.plrRead (s : State) (r : Fin 16) (off : Nat) : Option Word :=
  let x : Region := s.regions[r]
  let head : RegTab :=
    [(0x00, natAt 32 0 r.val ||| natAt 32 4 (r.val / 8)),
     (0x04, flagAt 32 0 x.isolated ||| flagAt 32 1 x.resync ||| flagAt 32 2 x.clkFault ||| flagAt 32 3 (x.cfg == 3)),
     (0x08, x.cfg.setWidth 32)]
  match look off head, bank off 0x40 4 12, bank off 0x1000 0x10 16, bank off 0x8000 0x10 16 with
  | some w, _, _, _ => some w
  | none, some (i, _), _, _ => some (wd x.digest i)
  | none, none, some (i, o), _ => (x.gw[i]?).bind (fun g =>
      look o ((0, at_ 32 0 g.net ||| flagAt 32 4 g.used) :: reg64 8 (g.pos.setWidth 64)))
  | none, none, none, some (i, o) => (x.gw[i]?).bind (fun g => look o (g.ep.regs (s.confEp (.region r (Fin.ofNat 16 i)))))
  | none, none, none, none => none

/-! ### GLB (R17, R24, R30, R73, R149, R207, R301 to R308, R319) -/

/-- NOC_ERR of a die. -/
def NocDie.errWord (d : NocDie) : Word := flagAt 32 0 d.tagExhaust ||| flagAt 32 1 d.refusedInj

/-- GLB_ACCESS_ERR. -/
def Glb.accessErrWord (g : Glb) : Word := at_ 32 0 g.accessErr ||| at_ 32 8 g.fanoutMember

/-- GLB_STATUS. -/
def State.glbStatus (s : State) : Word :=
  flagAt 32 0 (s.cals.any (·.fault)) ||| flagAt 32 1 (s.cals.any (fun c => !c.xlog.recs.isEmpty || c.xlogOvf))
    ||| flagAt 32 2 (s.cals.any (fun c => c.arrs.any (fun a => a.invalid || a.sat || a.flush) || c.dsp.invalid || c.dsp.sat || c.dsp.flush))
    ||| flagAt 32 3 (s.cals.any (fun c => c.streams.any (fun t => t.st == .halted)) || s.cp.streams.any (fun t => t.st == .halted))
    ||| flagAt 32 4 (s.cals.any (fun c => c.belowFloor || c.squallLimit)) ||| flagAt 32 5 (s.glb.holdCause != 0)
    ||| flagAt 32 6 (s.ports.any (fun p => p.event != 0)) ||| flagAt 32 7 (s.hbmStacks.any (fun k => k.st == 3))
    ||| flagAt 32 8 (s.hbmStacks.any (·.hot)) ||| flagAt 32 9 (!s.glb.bbl.recs.isEmpty) ||| flagAt 32 10 (s.fab.event != 0)
    ||| flagAt 32 11 (s.noc.any (fun d => d.tagExhaust || d.refusedInj)) ||| flagAt 32 12 (s.glb.accessErr &&& 0x1F != 0)
    ||| flagAt 32 13 s.cp.ember

/-- SPT_LOOKUP_DATA: the entry at SPT_LOOKUP_VPN; 0 for one of a confidential context (R149). -/
def State.sptLookup (s : State) : DWord :=
  let e := tget (0 : DWord) s.spt s.glb.lookupVpn.toNat
  if s.ctxConf (spCtx e) then 0 else e

/-- A bad-block entry as it reads: the checks of a confidential context's block are hidden (R201). -/
def State.bblRead (s : State) (e : BitVec 256) : BitVec 256 :=
  if s.ctxConf (rfld e 0xC 0 8) then putFld e 32 (0 : BitVec 64) else e

/-- The registers of the GLB block. -/
def State.glbRead (s : State) (off : Nat) : Option Word :=
  let g := s.glb
  let head : RegTab :=
    [(0x00, glbIdcode), (0x04, glbStep), (0x10, s.glbStatus), (0x20, 0), (0x24, g.resetCause.setWidth 32), (0x30, g.accessErrWord),
     (0x34, g.accessAddr), (0x40, g.scratch)]
      ++ reg64 0x200 g.beatCnt
      ++ [(0x208, g.beatCfg), (0x20C, g.beatLast), (0x210, g.stretchCnt), (0x214, g.holdCnt)] ++ reg64 0x218 g.holdTicks
      ++ [(0x220, g.holdCause.setWidth 32), (0x240, g.floorPace.setWidth 32), (0x250, g.preemptMax.setWidth 32), (0x400, g.lookupVpn.setWidth 32)]
      ++ reg64 0x408 s.sptLookup ++ [(0x410, g.sptFaultCnt), (0x500, g.bbl.head), (0x504, 0), (0x508, g.bbl.drop)]
  match look off head, bank off 0x600 0x20 64, bank off 0x1000 8 16, bank off 0x2000 0x20 8 with
  | some w, _, _, _ => some w
  | none, some (i, o), _, _ => some (wd (((g.bbl.slot (BitVec.ofNat 6 i)).map s.bblRead).getD 0) (o / 4))
  | none, none, some (i, o), _ => (g.groupMask[i]?).map (fun m => wd m (o / 4))
  | none, none, none, some (i, o) => (s.plls[i]?).bind (fun p => look o ([(0, p.cfg), (4, p.outDiv), (8, p.status)]))
  | none, none, none, none => none

/-! ### NOC (R177) -/

/-- A record of the trace buffer. -/
def NocDie.record (d : NocDie) (k : Nat) : CWord := tget (0 : CWord) d.trace k

/-- The registers of a die's control network. -/
def State.nocRead (s : State) (die : Fin 2) (off : Nat) : Option Word :=
  let d : NocDie := s.noc[die]
  let head : RegTab :=
    [(0x00, d.timeout.setWidth 32), (0x04, d.errWord), (0x08, d.timeoutCnt), (0x0C, d.lateCnt), (0x10, d.dropCnt),
     (0x3000, flagAt 32 0 d.wrap), (0x3004, d.wptr.setWidth 32 ||| flagAt 32 10 d.full), (0x3008, d.trcDrop)]
  match look off head, bank off 0x1000 4 256, bank off 0x2000 0x40 16, bank off 0x10000 0x40 1024 with
  | some w, _, _, _ => some w
  | none, some (i, _), _, _ => some ((s.rtEntry i).setWidth 32)
  | none, none, some (i, o), _ => (d.probes[i]?).bind (fun q =>
      look o ([(0x00, q.ctl), (0x04, q.src), (0x08, q.dst), (0x0C, q.lo), (0x10, q.hi)] ++ reg64 0x18 q.count))
  | none, none, none, some (i, o) => some (wd (d.record i) (o / 4))
  | none, none, none, none => none

/-! ### FAB (R259) -/

/-- FAB_GEYSER_NEXT. -/
def Fab.nextWord (b : Fab) : Word := at_ 32 0 b.nextIn ||| flagAt 32 4 b.nextInValid ||| at_ 32 16 b.nextOut ||| flagAt 32 31 b.nextArm

/-- The registers of the FAB block. -/
def State.fabRead (s : State) (off : Nat) : Option Word :=
  let b := s.fab
  let head : RegTab :=
    [(0x00, at_ 32 0 b.id ||| flagAt 32 10 b.idValid), (0x10, wd b.uid 0), (0x14, wd b.uid 1), (0x18, wd b.uid 2), (0x1C, wd b.uid 3),
     (0x20, at_ 32 0 b.mgrId ||| flagAt 32 10 b.mgrValid), (0x30, at_ 32 0 b.inPort ||| flagAt 32 4 b.inValid ||| at_ 32 16 b.outMask),
     (0x34, b.delay.setWidth 32), (0x38, b.src.setWidth 32), (0x3C, b.nextWord), (0x40, b.geyserTo), (0x44, b.probeTo.setWidth 32),
     (0x48, b.event.setWidth 32), (0x4C, b.cfgOut.setWidth 32), (0x50, b.routeDrop), (0x54, b.probeDrop), (0x58, b.ignored), (0x5C, b.miss)]
      ++ reg64 0x60 b.fwdCnt
  match look off head, bank off 0x1000 8 1024 with
  | some w, _ => some w
  | none, some (i, o) => some (wd ((tget (0 : BitVec 52) b.routes i).setWidth 64) (o / 4))
  | none, none => none

/-! ### CP (R269, R293) -/

/-- The registers of the CP block. -/
def State.cpRead (s : State) (off : Nat) : Option Word :=
  let c := s.cp
  let head : RegTab :=
    [(0x00, flagAt 32 0 c.ember ||| flagAt 32 1 c.ideActive ||| flagAt 32 2 c.fwOpen),
     (0x10, at_ 32 0 c.bar4Ctx ||| at_ 32 8 c.bar4Base ||| flagAt 32 16 c.bar4En),
     (0x18, flagAt 32 0 c.bar4Fail ||| at_ 32 1 c.bar4Cause ||| at_ 32 11 c.bar4Vpn), (0x7010, c.wdog.setWidth 32)]
  match look off head, bank off 0x1000 0x20 64, bank off 0x2000 0x20 64 with
  | some w, _, _ => some w
  | none, some (i, o), _ => (c.sq[i]?).bind (fun q =>
      look o (reg64 0 q.base ++ [(8, flagAt 32 0 q.en ||| at_ 32 1 q.log2 ||| at_ 32 6 q.cq ||| at_ 32 12 q.part),
        (0xC, q.head.setWidth 32), (0x10, q.tail.setWidth 32), (0x14, flagAt 32 0 q.dbErr)]))
  | none, none, some (i, o) => (c.cq[i]?).bind (fun q =>
      look o (reg64 0 q.base ++ [(8, flagAt 32 0 q.en ||| at_ 32 1 q.log2 ||| at_ 32 6 q.vector ||| flagAt 32 13 q.irqAll),
        (0xC, q.head.setWidth 32), (0x10, q.tail.setWidth 32 ||| flagAt 32 16 q.phase),
        (0x14, flagAt 32 0 q.full ||| flagAt 32 1 q.dbErr)]))
  | none, none, none => streamRead c.streams true off

/-! ### CFG (R358) -/

/-- CFG_STATUS; of a forwarded stream whose header has not yet come, KIND reads none. -/
def Cfg.statusWord (c : Cfg) : Word :=
  match c.load with
  | none => if c.fwdOpen.isSome then flagAt 32 0 true ||| natAt 32 3 1 else 0
  | some l => flagAt 32 0 true ||| natAt 32 1 (if l.full then 1 else 2) ||| at_ 32 3 l.source ||| natAt 32 8 (if l.full then 0 else l.region.val)

/-- The registers of the CFG block. -/
def State.cfgRegRead (s : State) (off : Nat) : Option Word :=
  let c := s.cfg
  let head : RegTab :=
    [(0x00, c.statusWord), (0x04, c.lastWord), (0x08, c.lastFrames), (0x0C, c.lastOffset),
     (0x10, at_ 32 0 c.cfgInPort ||| flagAt 32 4 c.cfgInValid ||| at_ 32 16 c.cfgInId), (0x14, c.streamTo.setWidth 32), (0x18, c.inDrop),
     (0x1C, c.event.setWidth 32), (0x20, c.boot.setWidth 32), (0x100, flagAt 32 0 c.scrubEn ||| flagAt 32 1 c.isolateDed), (0x104, c.sweeps),
     (0x108, c.sbeCnt), (0x10C, c.dedCnt), (0x110, c.sbeLast), (0x114, c.dedLast), (0x118, c.hardCnt), (0x11C, c.hardLast.setWidth 32)]
      ++ reg64 0x120 c.hardClean ++ reg64 0x128 c.hardReload
  match look off head, bank off 0x40 4 12, bank off 0x200 4 12 with
  | some w, _, _ => some w
  | none, some (i, _), _ => (c.outId[i]?).map (·.setWidth 32)
  | none, none, some (i, _) => some (wd c.fullDigest i)
  | none, none, none => none

/-! ### SEC (R363, R383) -/

/-- Context states (R363). -/
def State.ctxState (s : State) (c : Byte) : Nat :=
  match s.ctx c with
  | none => 0
  | some x =>
    if x.scrubbing then 4 else if s.plans.any (fun p => p.ctx == c && p.resident) then 2
    else if s.plans.any (fun p => p.ctx == c) then 3 else 1

/-- SEC_CTX. -/
def State.secCtx (s : State) (c : Byte) : Word :=
  match s.ctx c with
  | none => 0
  | some x => natAt 32 0 (s.ctxState c) ||| natAt 32 3 x.part.val ||| flagAt 32 6 x.conf ||| flagAt 32 7 x.modelKey.isSome

/-- The registers of a partition. -/
def State.partRegs (s : State) (p : Fin 8) : RegTab :=
  let x : Part := s.sec.parts[p]
  reg64 0 x.cals ++ [(8, at_ 32 0 x.stackMask ||| at_ 32 8 x.regions ||| flagAt 32 24 x.valid), (0xC, x.ports.setWidth 32), (0x10, x.first.setWidth 32),
    (0x14, x.last.setWidth 32),
    (0x18, flagAt 32 0 x.resetting ||| natAt 32 1 (s.ctxsOf p).length ||| flagAt 32 6 ((s.ctxsOf p).any (fun e => e.2.conf)))]

/-- The registers of the SEC block. -/
def State.secRead (s : State) (off : Nat) : Option Word :=
  let c := s.sec
  let head : RegTab :=
    [(0x00, c.lifecycleWord), (0x04, c.event.setWidth 32), (0x08, c.refuseCnt), (0x0C, at_ 32 0 c.lastRefuse ||| at_ 32 16 c.lastRefuseCtx)]
      ++ reg64 0x10 c.scrubBudget ++ [(0x18, c.scrubBeats), (0x20, 0), (0x24, c.keySlots.setWidth 32)]
  match look off head, bank off 0x100 0x20 8, bank off 0x1000 4 255 with
  | some w, _, _ => some w
  | none, some (i, o), _ => look o (s.partRegs (Fin.ofNat 8 i))
  | none, none, some (i, _) => some (s.secCtx (BitVec.ofNat 8 i))
  | none, none, none => none

/-! ### PWR (R404) -/

/-- PWR_TJ: the highest reading now and since reset. -/
def Pwr.tjWord (p : Pwr) : Word :=
  let now := p.temps.foldl (fun (m : BitVec 16) t => if m.toInt < t.toInt then t else m) p.temps[(0 : Fin 96)]
  at_ 32 0 now ||| at_ 32 16 p.tjMax

/-- The registers of the PWR block. -/
def State.pwrRead (s : State) (off : Nat) : Option Word :=
  let p := s.pwr
  let head : RegTab :=
    [(0x00, s.pwrStatus), (0x04, p.event.setWidth 32), (0x08, p.cap.setWidth 32), (0x0C, p.vop.setWidth 32),
     (0x10, at_ 32 0 p.ilim ||| at_ 32 16 p.ilimEff), (0x14, p.input.setWidth 32), (0x18, p.tjWord), (0x1C, p.squallCnt),
     (0x20, at_ 32 0 p.setupCopy ||| at_ 32 2 p.copyValid), (0x24, p.setupGen), (0x400, p.evlog.head), (0x404, 0), (0x408, p.evlog.drop)]
  match look off head, bank off 0x100 4 96, bank off 0x500 0x20 64 with
  | some w, _, _ => some w
  | none, some (i, _), _ => (p.temps[i]?).map (·.setWidth 32)
  | none, none, some (i, o) => some (wd ((p.evlog.slot (BitVec.ofNat 6 i)).getD 0) (o / 4))
  | none, none, none => none

/-! ### The whole map (R294, R295, R373, R385) -/

/-- A register window: its block, and its unit. -/
inductive Win where
  | glb | pwr | sec | cp | cfg | fab
  | noc (die : Fin 2) | lnk (p : Fin 12) | hbm (k : Fin 8) | plr (r : Fin 16) | cal (n : Fin 64)
  | lnkAll | hbmAll | plrAll | calAll
  | calGroup (g : Fin 16)
deriving DecidableEq, Repr

/-- The window of a BAR0 address and the offset in it; none outside every window (R294). -/
def winOf (a : Nat) : Option (Win × Nat) :=
  if a < 0x10000 then some (.glb, a) else if a < 0x20000 then some (.pwr, a - 0x10000)
  else if a < 0x30000 then some (.sec, a - 0x20000) else if a < 0x40000 then some (.cp, a - 0x30000)
  else if a < 0x80000 then some (.cfg, a - 0x40000)
  else if a < 0x100000 then some (.noc (Fin.ofNat 2 ((a - 0x80000) / 0x40000)), (a - 0x80000) % 0x40000)
  else if a < 0x110000 then some (.fab, a - 0x100000)
  else if 0x600000 ≤ a ∧ a < 0x6C0000 then some (.lnk (Fin.ofNat 12 ((a - 0x600000) / 0x10000)), a % 0x10000)
  else if 0x6F0000 ≤ a ∧ a < 0x700000 then some (.lnkAll, a % 0x10000)
  else if 0x800000 ≤ a ∧ a < 0xA00000 then some (.hbm (Fin.ofNat 8 ((a - 0x800000) / 0x40000)), a % 0x40000)
  else if 0xA00000 ≤ a ∧ a < 0xA40000 then some (.hbmAll, a % 0x40000)
  else if 0xC00000 ≤ a ∧ a < 0xD00000 then some (.plr (Fin.ofNat 16 ((a - 0xC00000) / 0x10000)), a % 0x10000)
  else if 0xD00000 ≤ a ∧ a < 0xD10000 then some (.plrAll, a % 0x10000)
  else if 0x1000000 ≤ a ∧ a < 0x2000000 then some (.cal (Fin.ofNat 64 ((a - 0x1000000) / 0x40000)), a % 0x40000)
  else if 0x2000000 ≤ a ∧ a < 0x2040000 then some (.calAll, a % 0x40000)
  else if 0x2100000 ≤ a ∧ a < 0x2500000 then some (.calGroup (Fin.ofNat 16 ((a - 0x2100000) / 0x40000)), a % 0x40000)
  else none

/-- Whether a window answers in the present phase and lifecycle state (R380, R385). -/
def State.winOpen (s : State) (w : Win) (off : Nat) : Bool :=
  if s.pwr.phase.toNat < 2 then false
  else if s.sec.lifecycle = 4 then
    match w with
    | .glb => off == 0 || off == 4
    | .sec => off == 0
    | _ => false
  else if 5 ≤ s.pwr.phase.toNat then true
  else match w with
    | .glb | .pwr | .sec | .cfg => true
    | _ => false

/-- What a read of one word answers: its status and value (R171, R295, R373). -/
abbrev Answer := Nat × Word

/-- A register that stands, or ERR_DECODE. -/
def answer (w : Option Word) : Answer := match w with
  | some v => (0, v)
  | none => (3, 0)

/-- A read of one word of a unit's window; a fan-out window is no unit's. -/
def State.winRead (s : State) (w : Win) (off : Nat) : Answer :=
  if !s.winOpen w off then (3, 0)
  else match w with
    | .glb => answer (s.glbRead off)
    | .pwr => answer (s.pwrRead off)
    | .sec => answer (s.secRead off)
    | .cp => answer (s.cpRead off)
    | .cfg => answer (s.cfgRegRead off)
    | .fab => answer (s.fabRead off)
    | .noc d => answer (s.nocRead d off)
    | .lnk p => answer (s.lnkRead p off)
    | .hbm k => answer (s.hbmRead k off)
    | .plr r => if s.confRegion r ∧ 8 < off then (4, 0) else answer (s.plrRead r off)
    | .cal n =>
      if s.confCal n ∧ !calPublic off then (4, 0)
      else match s.calRead n off with
        | some v => (0, if (s.cals[n].gated || s.cals[n].waking) && calGatedOff off then 0 else v)
        | none => (3, 0)
    | .lnkAll | .hbmAll | .plrAll | .calAll | .calGroup _ => (3, 0)

/-- A read of one word at a BAR0 address, fan-out windows apart. -/
def State.readReg (s : State) (a : Nat) : Answer :=
  match winOf a with
  | some (w, off) => s.winRead w off
  | none => (3, 0)

end Sys2Proof.Machine
end

