-- ==== Sys2Proof/Machine/Setup.lean ====
section
/-! DEFINITION. The records of the boot flash: setup record, partition layout, pointer records, slot directories and
the choice between copies (R354 to R357, R359, R360, R381, R382, R388, R389, R402). -/

namespace Sys2Proof.Machine

/-! ### The newer of two copies (R355, R389) -/

/-- Copy 1 is used: it alone is valid, or its generation is newer in serial-number arithmetic. -/
def secondNewer (v0 v1 : Bool) (g0 g1 : Word) : Bool :=
  v1 && (!v0 || (g1 != g0 && decide ((g1 - g0).toNat < 2 ^ 31)))

/-- The copy used of two; none when neither is valid. -/
def chooseCopy (v0 v1 : Bool) (g0 g1 : Word) : Option (Fin 2) :=
  if secondNewer v0 v1 g0 g1 then some 1 else if v0 then some 0 else none

/-! ### The partition layout (R359, R360, R383) -/

/-- A partition record in the layout of SEC_PART. -/
def readPart (b : BitVec 192) : Part :=
  { cals := fld b 0 64, stackMask := fld b 64 8, regions := fld b 72 16, valid := bitAt b 88, ports := fld b 96 12
    first := fld b 128 18, last := fld b 160 18 }

/-- The frame range of a partition is one. -/
def Part.rangeOk (p : Part) : Bool := decide (p.first.toNat ≤ p.last.toNat) && decide (p.last.toNat ≤ 137328)

/-- Two partitions claim a resource both. -/
def Part.clash (p q : Part) : Bool :=
  p.cals &&& q.cals != 0 || p.regions &&& q.regions != 0 || p.ports &&& q.ports != 0
    || (p.stackMask &&& q.stackMask != 0 && decide (p.first.toNat ≤ q.last.toNat) && decide (q.first.toNat ≤ p.last.toNat))

/-- The first partition that breaks the layout. -/
def layoutBad (ps : Vector Part 8) : Option (Fin 8) :=
  (List.finRange 8).find? (fun i =>
    let p : Part := ps[i]
    p.valid && (!p.rangeOk || (List.finRange 8).any (fun j => decide (j < i) && (ps[j] : Part).valid && Part.clash ps[j] p)))

/-- The factory layout: partition 0 holds every resource. -/
def defaultLayout : Vector Part 8 :=
  Vector.ofFn (fun i : Fin 8 =>
    if i = 0 then
      { cals := BitVec.allOnes 64, stackMask := 0xFF, regions := 0xFFFF, valid := true, ports := 0xFFF, first := 0, last := 137328 }
    else {})

/-! ### The setup record (R388) -/

abbrev SetupRec := BitVec 32768

def suGen (r : SetupRec) : Word := rfld r 8 0 32
def suCap (r : SetupRec) : BitVec 16 := rfld r 0x10 0 16
def suI3c (r : SetupRec) : Bool := bitAt r (8 * 0x12 + 7)
def suMedium (r : SetupRec) : BitVec 12 := rfld r 0x14 0 12
def suVop (r : SetupRec) : BitVec 10 := rfld r 0x18 0 10
def suPart (r : SetupRec) (p : Nat) : Part := readPart (rfld r (0x40 + 0x20 * p) 0 192)
def suKey (r : SetupRec) (k : Nat) : BitVec 768 := rfld r (0x140 + 0x60 * (k - 1)) 0 768
def suCheck (r : SetupRec) : Word := rfld r 0xFFC 0 32

/-- CHECK of a record. -/
def suSum (r : SetupRec) : Word := crc32c (toBytes r 0xFFC)

/-- A copy is valid: MAGIC, VERSION and CHECK hold. -/
def suValid (r : SetupRec) : Bool := rnum r 0 0 32 == 0x50555453 && rnum r 4 0 16 == 1 && suSum r == suCheck r

def suCapOk (r : SetupRec) : Bool := suCap r == 0 || (decide (600 ≤ (suCap r).toNat) && decide ((suCap r).toNat ≤ 1650))
def suVopOk (r : SetupRec) : Bool := suVop r == 0 || (decide (600 ≤ (suVop r).toNat) && decide ((suVop r).toNat ≤ 850))
/-- The key of a slot is empty or a point on the curve. -/
def suKeyOk (r : SetupRec) (k : Nat) : Bool := suKey r k == 0 || onP384 (suKey r k)

/-- The layout of a record. -/
def suLayout (r : SetupRec) : Vector Part 8 := Vector.ofFn (fun i : Fin 8 => suPart r i.val)

/-- Every field of a record: byte, lowest bit and width. -/
def suFields : List (Nat × Nat × Nat) :=
  [(0, 0, 32), (4, 0, 16), (8, 0, 32), (0x10, 0, 32), (0x14, 0, 12), (0x18, 0, 10), (0xFFC, 0, 32)]
    ++ (List.range 8).flatMap (fun p =>
      let o := 0x40 + 0x20 * p
      [(o, 0, 64), (o + 8, 0, 25), (o + 0xC, 0, 12), (o + 0x10, 0, 18), (o + 0x14, 0, 18)])
    ++ (List.range 7).map (fun k => (0x140 + 0x60 * k, 0, 768))

/-- The first byte of a record that a reserved bit makes nonzero. -/
def suSpare (r : SetupRec) : Option Nat :=
  let rest := suFields.foldl (fun (w : SetupRec) f => putFld w (8 * f.1 + f.2.1) (0 : BitVec f.2.2)) r
  (List.range 4096).find? (fun i => rnum rest i 0 8 != 0)

/-- The checks of SETUP_WRITE in their order, each with the offset it reports (R390). -/
def suChecks (r : SetupRec) : List (Bool × Nat) :=
  [(rnum r 0 0 32 != 0x50555453, 0), (rnum r 4 0 16 != 1, 4), (suSum (putFld r 64 (0 : Word)) != suCheck r, 0xFFC),
   ((suSpare r).isSome, (suSpare r).getD 0), (!suCapOk r, 0x10), (!suVopOk r, 0x18),
   ((layoutBad (suLayout r)).isSome, 0x40 + 0x20 * ((layoutBad (suLayout r)).map (·.val)).getD 0)]
    ++ (List.range 7).map (fun k => (!suKeyOk r (k + 1), 0x140 + 0x60 * k))

/-- A record with GEN set and CHECK computed anew (R390). -/
def suSeal (r : SetupRec) (gen : Word) : SetupRec :=
  let r1 : SetupRec := putFld r 64 gen
  putFld r1 (8 * 0xFFC) (suSum r1)

/-- The setup copy in use. -/
def Flash.setupCopy (f : Flash) : Option (Fin 2) :=
  chooseCopy (suValid f.setups[(0 : Fin 2)]) (suValid f.setups[(1 : Fin 2)]) (suGen f.setups[(0 : Fin 2)]) (suGen f.setups[(1 : Fin 2)])

/-! ### Pointer records (R355, R402) -/

abbrev PtrRec := BitVec 128

def prGen (r : PtrRec) : Word := fld r 32 32
def prActive (r : PtrRec) : Nat := nfld r 64 1
def prAltValid (r : PtrRec) : Bool := bitAt r 65
def prAlt (r : PtrRec) : Nat := nfld r 66 1
def prValid (r : PtrRec) : Bool :=
  nfld r 0 32 == 0x52545042 && crc32c (toBytes r 12) == fld r 96 32 && (!prAltValid r || prAlt r != prActive r)

/-- A pointer record with its CHECK. -/
def mkPtr (gen : Word) (active : Nat) (alt : Option Nat) : PtrRec :=
  let r : PtrRec := natAt 128 0 0x52545042 ||| at_ 128 32 gen ||| natAt 128 64 (active % 2)
    ||| (match alt with
        | some a => flagAt 128 65 true ||| natAt 128 66 (a % 2)
        | none => 0)
  r ||| at_ 128 96 (crc32c (toBytes r 12))

/-- The pointer copy in use: the newer valid one. -/
def Flash.ptrCopy (f : Flash) : Option (Fin 2) :=
  let a : PtrCopy := f.ptrs[(0 : Fin 2)]
  let b : PtrCopy := f.ptrs[(1 : Fin 2)]
  chooseCopy (prValid a.record) (prValid b.record) (prGen a.record) (prGen b.record)

/-- The pointer record in use. -/
def Flash.pointer (f : Flash) : Option PtrRec := f.ptrCopy.map (fun i => (f.ptrs[i] : PtrCopy).record)

/-- Locations of 16 bytes in one half of a copy's area of 8 MiB (R354, R402). -/
def ptrHalf : Nat := 262144

/-- A record programmed into the next location of its copy; a full half first gives way to the other, erased. -/
def PtrCopy.program (c : PtrCopy) (r : PtrRec) : PtrCopy :=
  if ptrHalf ≤ c.used then { record := r, half := !c.half, used := 1 } else { c with record := r, used := c.used + 1 }

/-- A pointer record written to the copy not in use, with the next generation. -/
def Flash.writePtr (f : Flash) (active : Nat) (alt : Option Nat) : Flash :=
  let gen := (f.pointer.map prGen).getD 0 + 1
  let i : Fin 2 := if f.ptrCopy = some 0 then 1 else 0
  { f with ptrs := vmod f.ptrs i (fun c => c.program (mkPtr gen active alt)) }

/-! ### Slots and their directories (R356, R357, R382) -/

/-- Where the parts of the boot flash stand in its 1 GiB (R354): address and length of the image slots A and B and of
the golden image, of the two pointer copies, and of the two setup copies. -/
def flashSlot (i : Fin 3) : Nat × Nat := [(0x01000000, 0x10000000), (0x11000000, 0x10000000), (0x21000000, 0x1EF00000)].getD i.val (0, 0)
def flashPointer (i : Fin 2) : Nat × Nat := (0x00800000 * i.val, 0x00800000)
def flashSetup (i : Fin 2) : Nat × Nat := (0x3FF00000 + 0x80000 * i.val, 0x80000)

/-- The contents of a slot: 0 A, 1 B, 2 the golden image; what it holds ends with it. -/
def Flash.slot (f : Flash) (i : Fin 3) : List Byte := ((f.slots[i]).getD (Config.deliveredImage i.val)).take (flashSlot i).2

def drSvn (b : List Byte) : Nat := imgWord b 8 % 256
def drCount (b : List Byte) : Nat := imgWord b 0xC % 16
/-- An entry of a directory: type, offset, length, digest. -/
def drEntry (b : List Byte) (i : Nat) : Nat × Nat × Nat × BitVec 384 :=
  let o := 0x40 + 0x40 * i
  (imgWord b o % 256, imgWord b (o + 4), imgWord b (o + 8), ofBytes 384 (slice b (o + 0x10) 48))
/-- The data of the first entry of a type. -/
def drData (b : List Byte) (ty : Nat) : Option (List Byte) :=
  ((List.range (drCount b)).map (drEntry b)).findSome? (fun e => if e.1 = ty then some (slice b e.2.1 e.2.2.1) else none)
/-- The digest of the first entry of a type. -/
def drDigest (b : List Byte) (ty : Nat) : Option (BitVec 384) :=
  ((List.range (drCount b)).map (drEntry b)).findSome? (fun e => if e.1 = ty then some e.2.2.2 else none)

/-- The directory is signed by the firmware key (R381). -/
def drSigned (b : List Byte) : Bool :=
  ecdsaVerify Config.dorsekenFirmwareKey (sha384 (b.take 0x240)) (ofBytes 768 (slice b 0x240 96))

/-- MAGIC, VERSION and COUNT of a directory, with the offset that fails. -/
def drHeadBad (b : List Byte) : Option Nat :=
  firstBad [(imgWord b 0 != 0x544C5342, 0), (imgHalf b 4 != 1, 4), (drCount b == 0 || decide (8 < drCount b), 0xC)]

/-- A declared security version is refused (R382). -/
def svnRefused (fused declared : Nat) : Bool := decide (declared < fused) || decide (128 < declared)

/-- An entry matches its digest. -/
def drMatches (b : List Byte) (e : Nat × Nat × Nat × BitVec 384) : Bool := sha384 (slice b e.2.1 e.2.2.1) == e.2.2.2

/-- A slot passes phase 3: its directory verifies and entries of types 1 to 3 match their digests (R357, R382). -/
def slotBoots (svn : Nat) (b : List Byte) : Bool :=
  (drHeadBad b).isNone && drSigned b && !svnRefused svn (drSvn b)
    && [1, 2, 3].all (fun ty => (drDigest b ty).isSome)
    && ((List.range (drCount b)).map (drEntry b)).all (fun e => !(decide (1 ≤ e.1) && decide (e.1 ≤ 3)) || drMatches b e)

/-- The candidates of phase 3 in order (R357). -/
def Flash.candidates (f : Flash) : List (Fin 3) :=
  (match f.pointer with
    | some r => Fin.ofNat 3 (prActive r) :: (if prAltValid r then [Fin.ofNat 3 (prAlt r)] else [])
    | none => []) ++ [2]

end Sys2Proof.Machine
end

