-- ==== Sys2Proof/Machine/Manage.lean ====
section
/-! DEFINITION. Commands of the management side: TELEMETRY_READ, POWER_CAP_SET, SETUP_WRITE, the firmware update and
ATTEST (R374, R378, R379, R390 to R393, R397, R400, R401). -/

namespace Sys2Proof.Machine

/-- A command completes with INTERNAL_ERROR; an event is raised (R287, R395). -/
def State.internalError (s : State) (serial : Nat) : State :=
  match s.findCmd serial with
  | some k =>
    (s.complete serial 0xF0 0 0 0).raise 8 0 k.ring.val 2 (pkTag k.packet) (natAt 32 0 (pkOpcode k.packet) ||| at_ 32 24 (pkCtx k.packet))
  | none => s

/-! ### Telemetry (R391 to R393) -/

/-- Words as bytes. -/
def wordBytes (l : List Word) : List Byte := l.flatMap (fun w => toBytes w 4)
/-- Zeros up to a length. -/
def padTo (n : Nat) (l : List Byte) : List Byte := l ++ List.replicate (n - l.length) 0

/-- CAL_IV as reports show it (R393). -/
def State.ivShown (s : State) (n : Fin 64) : Word := if s.confCal n then 0 else s.cals[n].ivWord

/-- The words of a register range, by a reader; where none stands, 0. -/
def regWords (f : Nat → Option Word) (off n : Nat) : List Word := (List.range n).map (fun i => (f (off + 4 * i)).getD 0)

/-- A record of the LINKS group. -/
def State.linkRecord (s : State) (p : Fin 12) : List Byte :=
  padTo 128 (wordBytes ([s.ports[p].stateWord, s.ports[p].event.setWidth 32] ++ regWords (s.lnkRead p) 0x100 19
    ++ (List.finRange 4).map (fun l => (s.ports[p].lanes[l] : Lane).eye)))

/-- The body of a group, for a free value that stands for the regulators' temperatures, which nothing else reports
(log 30); none for a group that is not listed. -/
def State.telemetryBody (s : State) (group : Nat) (x : BitVec 512) : Option (List Byte) :=
  if group = 1 then
    let hot : Byte := s.hbmStacks.foldl (fun m k => maxW m k.temp) 0
    some (padTo 64 (wordBytes [s.pwrStatus, s.pwr.input.setWidth 32, s.pwr.cap.setWidth 32, s.pwr.tjWord, hot.setWidth 32, s.pwr.squallCnt,
      s.glb.stretchCnt, s.glb.holdCnt, s.glbStatus]))
  else if group = 2 then
    some ((List.finRange 64).flatMap (fun n => wordBytes
      [s.ivShown n, s.cals[n].paceLast, (s.pwr.temps[n.val]?.getD 0).setWidth 32, s.calStatus n]))
  else if group = 3 then
    some (s.pwr.temps.toList.flatMap (fun t => toBytes t 2) ++ s.hbmStacks.toList.flatMap (fun k => toBytes k.tempWord 4))
  else if group = 4 then
    some (s.hbmStacks.toList.flatMap (fun k => k.ch.toList.flatMap (fun c => wordBytes (regWords (fun o => look o c.regs) 0 16))))
  else if group = 5 then some ((List.finRange 12).flatMap s.linkRecord)
  else if group = 6 then
    some ((List.range 16).flatMap (fun i => match s.pwr.rails[i]? with
      | some r => wordBytes [BitVec.ofNat 32 i, r.mv.setWidth 32, r.current.setWidth 32, (fld x (16 * i) 16 : BitVec 16).setWidth 32]
      | none => List.replicate 16 0))
  else none

/-- TELEMETRY_READ: a header and the body of a group go to the host. -/
def execTelemetryRead (cmd : Nat) (s : State) : Out :=
  s.withCmd cmd 0x90 (fun k =>
    let group := rnum k.packet 0x10 0 16
    let x := s.draw
    match s.telemetryBody group x.1 with
    | none => s.badParam k.serial 8 0x10
    | some body =>
      let len := 16 + body.length
      if rnum k.packet 0x20 0 32 < len then s.badParam k.serial 8 0x20
      else
        let s1 := if group = 6 then x.2 else s
        let head : BitVec 128 := natAt 128 0 group ||| natAt 128 32 len ||| at_ 128 64 s.glb.beatCnt
        (s1.emit (.write (rfld k.packet 0x18 0 64) (toBytes head 16 ++ body) false false)).complete k.serial 0 0 (BitVec.ofNat 32 len) 0)

/-- POWER_CAP_SET: the cap in force until a reset. -/
def execPowerCapSet (cmd : Nat) (s : State) : Out :=
  s.withCmd cmd 0xA0 (fun k =>
    (s.modPwr (fun p => { p with cap := rfld k.packet 0x10 0 16 })).complete k.serial 0 0 (rfld k.packet 0x10 0 16 : BitVec 16).toNat 0)

/-! ### The setup record (R390) -/

/-- SETUP_WRITE: the image is checked; its program to the copy not in use begins, in the order in which the commands
started. The copy in use is the one that the last boot took, whatever has been written since. -/
def execSetupWrite (cmd : Nat) (image : BitVec 32768) (s : State) : Out :=
  s.withCmd cmd 0xF0 (fun k =>
    if s.pwr.flash.op.isSome ∨ s.cp.cmds.any (fun x => x.phase == .started && pkOpcode x.packet == 0xF0 && decide (x.startNo < k.startNo)) then s
    else match firstBad (suChecks image) with
      | some o => s.badData k.serial 8 o
      | none =>
        let gen : Word := if s.pwr.setupCopy = 3 then 1 else s.pwr.setupGen + 1
        let copy : Fin 2 := if s.pwr.setupCopy = 0 then 1 else 0
        (s.begin k.serial).modPwr (fun p => { p with flash := { p.flash with op := some (.programSetup k.serial copy (suSeal image gen) 0) } }))

/-! ### Firmware update (R400, R401) -/

/-- The slot that runs: CFG_BOOT.FW_SLOT. -/
def State.fwSlot (s : State) : Nat := nfld s.cfg.boot 4 2

/-- The slot that an update writes. -/
def State.updateTarget (s : State) : Fin 2 :=
  if s.fwSlot = 0 then 1 else if s.fwSlot = 1 then 0 else Fin.ofNat 2 ((s.pwr.flash.pointer.map prActive).getD 0)

/-- FW_UPDATE_BEGIN: an update opens; the pointer's ALT leaves the target; its erase begins. -/
def execFwUpdateBegin (cmd : Nat) (s : State) : Out :=
  s.withCmd cmd 0x80 (fun k =>
    let total := rnum k.packet 0x14 0 32
    if s.cp.fwOpen then s.badParam k.serial 8 0
    else if rnum k.packet 0x10 0 4 ≠ 0 then s.badParam k.serial 8 0x10
    else if total < 672 ∨ (flashSlot 0).2 < total then s.badParam k.serial 8 0x14
    else if s.pwr.flash.op.isSome then s
    else
      let t := s.updateTarget
      let f := match s.pwr.flash.pointer with
        | some r => if prAltValid r ∧ prAlt r = t.val then s.pwr.flash.writePtr (prActive r) none else s.pwr.flash
        | none => s.pwr.flash
      ((s.begin k.serial).modCp (fun c => { c with fwOpen := true })).modPwr (fun p =>
        { p with flash := { f with op := some (.eraseSlot k.serial) }, update := some { target := t, total := total, lastTick := s.now } }))

/-- The update closes without commit. -/
def State.rollBack (s : State) : State :=
  let s1 := (s.modCp (fun c => { c with fwOpen := false })).modPwr (fun p => { p with update := none })
  s1.pwrEvent 9 0 1 s1.pwrStatus

/-- FW_UPDATE_DATA: a chunk is programmed. -/
def execFwUpdateData (cmd : Nat) (data : List Byte) (s : State) : Out :=
  s.withCmd cmd 0x81 (fun k =>
    match s.pwr.update with
    | none => s.badParam k.serial 8 0
    | some u =>
      let off := rnum k.packet 0x14 0 32
      let len := rnum k.packet 0x20 0 32
      if s.pwr.flash.op.isSome then s
      else if off ≠ u.data.length then s.badParam k.serial 8 0x14
      else if u.total < off + len then s.badParam k.serial 8 0x20
      else if data.length ≠ len then s
      else
        (s.begin k.serial).modPwr (fun p =>
          { p with flash := { p.flash with op := some (.programData k.serial data) } }))

/-- The logic entry's checks 1 to 4 and 7 of R339, none of them applying a frame. -/
def State.logicEntryBad (s : State) (b : List Byte) : Option Nat :=
  match s.frontFails b true 0 b.length with
  | some (_, _, o) => some o
  | none => if sha384 (b.drop 0x100) ≠ ofBytes 384 (slice b 0x60 48) then some 0x60 else none

/-- The checks of FW_UPDATE_COMMIT in their order: the offset in the image that fails. -/
def State.commitBad (s : State) (u : FwUpdate) : Option Nat :=
  let b := u.data
  let es := (List.range (drCount b)).map (fun i => (0x40 + 0x40 * i, drEntry b i))
  if b.length ≠ u.total then some b.length
  else match drHeadBad b with
    | some o => some o
    | none =>
      if !drSigned b then some 0x240
      else if svnRefused s.sec.svn (drSvn b) then some 8
      else match firstBad (es.flatMap (fun e =>
          [(decide (u.total < e.2.2.1 + e.2.2.2.1), e.1 + 4), (!drMatches b e.2, e.1 + 0x10)])) with
        | some o => some o
        | none =>
          if [1, 2, 3].any (fun ty => (drDigest b ty).isNone) then some 0xC
          else match es.find? (fun (e : Nat × Nat × Nat × Nat × BitVec 384) => e.2.1 == 4) with
            | some e => (s.logicEntryBad (slice b e.2.2.1 e.2.2.2.1)).map (· + e.2.2.1)
            | none => none

/-- FW_UPDATE_COMMIT: the image is verified and the pointer record written, or the update is rolled back. -/
def execFwUpdateCommit (cmd : Nat) (s : State) : Out :=
  s.withCmd cmd 0x82 (fun k =>
    match s.pwr.update with
    | none => s.badParam k.serial 8 0
    | some u =>
      if s.pwr.flash.op.isSome then s
      else match s.commitBad u with
        | some o => (s.badData k.serial 8 o).rollBack
        | none =>
          let alt := if s.fwSlot < 2 then some s.fwSlot else none
          let s1 := (s.modCp (fun c => { c with fwOpen := false })).modPwr (fun p =>
            { p with
              flash := p.flash.writePtr u.target.val alt
              update := none
              updatePending := true
              lastNextDigest := sha384 (u.data.take 0x2A0) })
          (s1.complete k.serial 0 0 (BitVec.ofNat 32 (drSvn u.data)) 0).pwrEvent 8 0 0 s1.pwrStatus)

/-- Sixty seconds in ticks. -/
def updateTicks : Nat := 9375000000

/-- FW_UPDATE_TIMEOUT: sixty seconds without DATA or COMMIT roll the update back. -/
def execFwUpdateTimeout (s : State) : Out :=
  match s.pwr.update with
  | some u => if u.lastTick + updateTicks ≤ s.now then .next s.rollBack else .next s
  | none => .next s

/-- The flash is idle again. -/
def State.flashIdle (s : State) : State := s.modPwr (fun p => { p with flash := { p.flash with op := none } })

/-- The contents of the update's slot: what was programmed; the rest is erased. -/
def State.putSlot (s : State) : State :=
  match s.pwr.update with
  | some u => s.modPwr (fun p =>
      { p with flash := { p.flash with slots := vset p.flash.slots (Fin.ofNat 3 u.target.val) (some u.data) } })
  | none => s

/-- FLASH_OPERATION_DONE: an erase or a program has finished and, where it is read back, matches or not (R390, R400). -/
def execFlashOperationDone (readBackOk : Bool) (s : State) : Out :=
  match s.pwr.flash.op with
  | none => .next s
  | some (.eraseSlot cmd) => .next (s.flashIdle.putSlot.completeOk cmd)
  | some (.programData cmd data) =>
    if readBackOk then
      .next (((s.flashIdle.modPwr (fun p => { p with update := p.update.map (fun u => { u with data := u.data ++ data }) })).putSlot).completeOk cmd)
    else .next ((s.flashIdle.internalError cmd).rollBack)
  | some (.programSetup cmd copy image tries) =>
    if readBackOk then
      .next ((s.flashIdle.modPwr (fun p =>
        { p with flash := { p.flash with setups := vset p.flash.setups copy image }, setupPending := true })).completeOk cmd)
    else if tries = 0 then
      .next (s.modPwr (fun p => { p with flash := { p.flash with op := some (.programSetup cmd copy image 1) } }))
    else
      let x := s.draw
      .next ((x.2.flashIdle.modPwr (fun p =>
        { p with flash := { p.flash with setups := vset p.flash.setups copy (Config.flashResidue x.1.toNat) } })).internalError cmd)

/-! ### Attestation (R377 to R380) -/

/-- Some context is confidential: the JTAG port is restricted (R373). -/
def State.anyConf (s : State) : Bool := s.sec.ctxs.any (fun x => x.2.conf)

/-- A partition's record in the report. -/
def State.partReport (s : State) (p : Fin 8) : List Byte :=
  let x : Part := s.sec.parts[p]
  let l := s.ctxsOf p
  let count (n : Nat) : Nat := if x.resetting then 0 else n
  let st := if !x.valid then 0 else if x.resetting then 2 else 1
  let w : BitVec 256 := at_ 256 0 x.cals ||| at_ 256 64 x.stackMask ||| natAt 256 72 st ||| at_ 256 80 x.regions ||| at_ 256 96 x.ports
    ||| natAt 256 112 (count l.length) ||| natAt 256 120 (count (l.filter (fun e => e.2.conf)).length)
    ||| natAt 256 128 x.first.toNat ||| natAt 256 160 x.last.toNat
  toBytes w 32

/-- The certificate chain that a report carries: none in MANUFACTURE. -/
def State.reportChain (s : State) : List Byte := if s.sec.lifecycle = 1 then [] else s.sec.certChain

/-- LENGTH of a report. -/
def State.reportLen (s : State) : Nat := 0x580 + s.reportChain.length + 96

/-- The report without its signature. -/
def State.reportBody (s : State) (nonce : BitVec 256) (held : Bool) : List Byte :=
  let chain := s.reportChain
  let c := s.sec
  let head : BitVec 768 :=
    natAt 768 0 0x54525041 ||| natAt 768 32 1 ||| flagAt 768 48 s.pwr.setupDefaulted ||| flagAt 768 49 s.pwr.updatePending ||| flagAt 768 50 held
      ||| natAt 768 64 s.reportLen ||| natAt 768 96 chain.length ||| at_ 768 128 s.fab.uid ||| at_ 768 256 nonce
      ||| at_ 768 512 s.glb.beatCnt ||| at_ 768 576 glbIdcode ||| at_ 768 608 glbStep
      ||| natAt 768 640 c.svn ||| at_ 768 648 c.lifecycle ||| flagAt 768 656 (c.lifecycle == 1 || c.lifecycle == 3)
      ||| flagAt 768 657 c.debugUsed ||| flagAt 768 658 s.anyConf
      ||| (List.finRange 8).foldl (fun (w : BitVec 768) p => w ||| flagAt 768 (664 + p.val) ((s.ctxsOf p).any (fun e => e.2.conf))) 0
      ||| at_ 768 672 s.cfg.boot
  toBytes head 96 ++ s.digests.flatMap (fun d => toBytes d 48) ++ (List.finRange 8).flatMap s.partReport ++ chain

/-- The report with its signature; none in MANUFACTURE. -/
def State.report384 (s : State) (nonce : BitVec 256) (held : Bool) : List Byte :=
  let body := s.reportBody nonce held
  body ++ (if s.sec.lifecycle = 1 then List.replicate 96 0 else toBytes (ecdsaSign s.sec.attestationKey (sha384 body)) 96)

/-- ATTEST: a signed report goes to the host; its nonce is kept for KEY_IMPORT. -/
def execAttest (cmd : Nat) (s : State) : Out :=
  s.withCmd cmd opATTEST (fun k =>
    let nonce : BitVec 256 := rfld k.packet 0x10 0 256
    if s.sec.lifecycle = 3 then s.badParam k.serial 8 0
    else if rnum k.packet 0x38 0 32 < s.reportLen then s.badParam k.serial 8 0x38
    else
      ((s.emit (.write (rfld k.packet 0x30 0 64) (s.report384 nonce k.heldSince.isSome) false false)).modSec (fun c =>
        { c with nonces := (nonce :: c.nonces).take 16 })).complete k.serial 0 0 (BitVec.ofNat 32 s.reportLen) 0)

/-- Two seconds in ticks. -/
def holdTicks : Nat := 312500000

/-- ATTEST_HOLD_TIMEOUT: two seconds held by an open update: RETRY_LATER. -/
def execAttestHoldTimeout (cmd : Nat) (s : State) : Out :=
  match s.findCmd cmd with
  | some k =>
    match k.heldSince with
    | some t =>
      if k.phase = .fetched ∧ pkOpcode k.packet = opATTEST ∧ s.cp.fwOpen ∧ t + holdTicks ≤ s.now then .next (s.complete k.serial 0x50 0 0 0)
      else .next s
    | none => .next s
  | none => .next s

end Sys2Proof.Machine
end

