-- ==== Sys2Proof/Machine/PowerCtl.lean ====
section
/-! DEFINITION. Sensors, the power cap, squalls, the supply rails and the event log (R391, R393, R396 to R398,
R405, R409, R411). -/

namespace Sys2Proof.Machine

/-- 100 µs, 1 ms and 10 ms in ticks. -/
def ticks100us : Nat := 15625
def ticks1ms : Nat := 156250
def ticks10ms : Nat := 1562500

/-! ### Sensors (R391, R398, R404) -/

/-- The die of a sensor that belongs to no caldera. -/
def sensorDie (i : Nat) : Nat :=
  if i < 72 then 0 else if i < 80 then 1 else if i < 86 then 0 else if i < 92 then 1 else if i = 93 then 1 else 0

/-- The sensors whose readings count for a caldera: its own and the non-caldera ones of its die. -/
def sensorsOf (n : Fin 64) : List (Fin 96) :=
  (List.finRange 96).filter (fun i => i.val == n.val || (decide (64 ≤ i.val) && sensorDie i.val == calDie n))

/-- The release thresholds of a squall hold: the current below 90 % of the limit, the sensors below 97 °C. -/
def State.calm (s : State) (n : Fin 64) (current : BitVec 16) : Bool :=
  decide (10 * current.toNat < 9 * s.pwr.ilimEff.toNat)
    && (sensorsOf n).all (fun i => decide ((s.pwr.temps[i] : BitVec 16).toInt < 388))

/-- A caldera's squall follows its readings. -/
def Caldera.watchSquall (c : Caldera) (now : Nat) (calm : Bool) : Caldera :=
  { c with squall := c.squall.map (fun q => { q with calmSince := if calm then q.calmSince <|> some now else none }) }

/-- The sensor readings of every caldera in a squall considered anew. -/
def State.watchSqualls (s : State) : State :=
  { s with cals := Vector.ofFn (fun n => s.cals[n].watchSquall s.now (s.calm n s.cals[n].amps)) }

/-- TELEMETRY_SAMPLE: one reading of the monitors; a caldera of a confidential context reports none (R391, R393). -/
def execTelemetrySample (sample : Sample) (s : State) : Out :=
  match sample with
  | .caldera n current mv =>
    let hide := s.confCal n
    .next (s.modCal n (fun c =>
      { (c.watchSquall s.now (s.calm n current)) with
        amps := current, current := if hide then 0 else current, mv := if hide then 0 else mv }))
  | .junction i temp =>
    .next (s.modPwr (fun p =>
      { p with temps := vset p.temps i temp, tjMax := if p.tjMax.toInt < temp.toInt then temp else p.tjMax })).watchSqualls
  | .eye port lane h w => .next (s.modPort port (fun q => { q with lanes := vmod q.lanes lane (fun l => { l with eyeH := h, eyeW := w }) }))
  | .input watts => .next (s.modPwr (fun p => { p with input := watts }))

/-! ### The compute rails (R386, R397, R398, R411) -/

/-- A voltage write leaves over AVSBus. -/
def State.sendRail (s : State) (r : Fin 13) (mv : BitVec 16) : State := s.modPwr (fun p => { p with avsOut := p.avsOut ++ [(r, mv)] })

/-- A rail target sent over AVSBus; nothing is sent when it stands. -/
def State.setRail (s : State) (r : Fin 13) (mv : Nat) : State :=
  if (s.pwr.rails[r] : Rail).target.toNat = mv then s
  else (s.modPwr (fun p =>
    { p with rails := vmod p.rails r (fun x => { x with target := BitVec.ofNat 16 mv, wrote := some s.now }) })).sendRail r (BitVec.ofNat 16 mv)

/-- A squall is present on a die. -/
def State.dieSquall (s : State) (die : Nat) : Bool := (List.finRange 64).any (fun n => calDie n == die && s.cals[n].squall.isSome)

/-- The next target of a die's rail in the cycle of the cap control: the lower of two, and at most 5 mV upward. -/
def State.nextRail (s : State) (die : Fin 2) : Nat :=
  let now := (s.pwr.rails[(die.val : Nat)]'(by have := die.isLt; omega) : Rail).target.toNat
  let cap := if s.cp.ember then 600 else s.pwr.capTarget.toNat
  if s.dieSquall die.val then min now cap else min cap (now + 5)

/-- Both rails take their targets of the cycle. -/
def State.stepRails (s : State) : State := (s.setRail 0 (s.nextRail 0)).setRail 1 (s.nextRail 1)

/-- Both rails move to the operating voltage of the cap control, as at the ember exit; a rail that a squall holds lower
stays there (R387, R411). -/
def State.raiseRails (s : State) : State :=
  let to_ (r : Fin 13) (die : Nat) : Nat :=
    if s.dieSquall die then min (s.pwr.rails[r] : Rail).target.toNat s.pwr.capTarget.toNat else s.pwr.capTarget.toNat
  (s.setRail 0 (to_ 0 0)).setRail 1 (to_ 1 1)

/-! ### The power cap (R397) -/

/-- The target after one step of the cap control. -/
def capStep (average cap target vop : Nat) : Nat :=
  if cap < average then max 600 (target - 5)
  else if 100 * average < 97 * cap then min vop (target + 5)
  else min vop target

/-- CAP_CONTROL: every 100 µs the compute-rail targets follow the average input power. -/
def execCapControl (average : BitVec 16) (s : State) : Out :=
  let p := s.pwr
  if !s.running ∨ s.now < p.capAt + ticks100us then .next s
  else
    let cap := p.cap.toNat
    let t := capStep average.toNat cap p.capTarget.toNat (max 600 p.vop.toNat)
    let isOver := decide (cap < average.toNat) && (t == 600 || s.cp.ember)
    let under := decide (100 * average.toNat < 97 * cap)
    .next (s.modPwr (fun p =>
      { p with
        capAt := s.now
        capTarget := BitVec.ofNat 16 t
        overSince := if isOver then p.overSince <|> some s.now else none
        underSince := if under then p.underSince <|> some s.now else none })).stepRails

/-- A condition has held for 10 ms. -/
def held10ms (now : Nat) (since : Option Nat) : Bool := match since with
  | some t => decide (t + ticks10ms ≤ now)
  | none => false

/-- ILIM_STEP: every 1 ms the effective current limit falls, or rises back (R397). -/
def execIlimStep (s : State) : Out :=
  let p := s.pwr
  let step := p.ilim.toNat * 5 / 100
  if !s.running ∨ s.now < p.ilimAt + ticks1ms then .next s
  else if held10ms s.now p.overSince then
    let eff := max (p.ilim.toNat / 4) (p.ilimEff.toNat - step)
    let s1 := s.modPwr (fun p => { p with ilimAt := s.now, capLimiting := true, ilimEff := BitVec.ofNat 16 eff })
    .next (s1.pwrEvent 2 0 1 (s1.pwr.input.setWidth 32))
  else if p.capLimiting ∧ held10ms s.now p.underSince then
    let eff := min p.ilim.toNat (p.ilimEff.toNat + step)
    .next (s.modPwr (fun p => { p with ilimAt := s.now, ilimEff := BitVec.ofNat 16 eff, capLimiting := decide (eff ≠ p.ilim.toNat) }))
  else .next s

/-- A write of PWR_CAL_ILIM.LIMIT: the effective limit follows it unless the cap holds it lower. -/
def Pwr.putIlim (p : Pwr) (limit : BitVec 16) : Pwr :=
  { p with ilim := limit, ilimEff := if p.capLimiting then minW p.ilimEff limit else limit }

/-! ### Squalls (R398) -/

/-- The condition of a squall holds for a caldera: the current exceeds EFFECTIVE, or its own sensor or a non-caldera one of
its die reads 100 °C or more. -/
def State.squallDue (s : State) (n : Fin 64) : SquallCause → Bool
  | .current reading => decide (s.pwr.ilimEff.toNat < reading.toNat)
  | .thermal => (sensorsOf n).any (fun i => decide (400 ≤ (s.pwr.temps[i] : BitVec 16).toInt))

/-- The current at which a squall begins. -/
def squallEntry (c : Caldera) : SquallCause → BitVec 16
  | .current reading => reading
  | .thermal => c.amps

/-- SQUALL_BEGIN: a caldera's current or a sensor passes its threshold; the limiter inserts delays. -/
def execSquallBegin (cal : Fin 64) (cause : SquallCause) (s : State) : Out :=
  if !s.running ∨ s.cals[cal].squall.isSome ∨ !s.squallDue cal cause then .next s
  else
    let thermal : Bool := cause == .thermal
    let s1 := s.modCal cal (fun c =>
      { c with squall := some { thermal := thermal, since := s.now, entryCurrent := squallEntry c cause }, limited := true })
    let s2 := s1.modPwr (fun p => { p with squallCnt := satInc p.squallCnt })
    .next (s2.pwrEvent (if thermal then 1 else 0) cal.val 1 (s2.ivShown cal))

/-- The tick at which the squalls now present on a die began. -/
def State.squallStart (s : State) (die : Nat) : Option Nat :=
  ((List.finRange 64).filterMap (fun n => if calDie n = die then s.cals[n].squall.map (·.since) else none)).min?

/-- SQUALL_RAIL_STEP: the die's rail falls by 25 mV, first at the squall and then every 100 µs, never below 0.60 V. -/
def execSquallRailStep (die : Bool) (s : State) : Out :=
  let d : Fin 2 := if die then 1 else 0
  let r : Fin 13 := if die then 1 else 0
  match s.squallStart d.val with
  | none => .next s
  | some t =>
    let last := s.pwr.railAt[d]
    if s.running ∧ (last ≤ t ∨ last + ticks100us ≤ s.now + 1) then
      .next ((s.modPwr (fun p => { p with railAt := vset p.railAt d (s.now + 1) })).setRail r
        (max 600 ((s.pwr.rails[r] : Rail).target.toNat - 25)))
    else .next s

/-- SQUALL_END: after 100 µs below the release thresholds the squall ends. -/
def execSquallEnd (cal : Fin 64) (s : State) : Out :=
  match s.cals[cal].squall.bind (·.calmSince) with
  | some t => if t + ticks100us ≤ s.now then .next (s.modCal cal (fun c => { c with squall := none })) else .next s
  | none => .next s

/-! ### The event log (R396) -/

/-- EVT_POP: the oldest event record is removed. -/
def execEvtPop (s : State) : Out := .next (s.modPwr (fun p => { p with evlog := p.evlog.pop }))

/-- EVT_CLEAR: the event log is emptied and its drop count zeroed. -/
def execEvtClear (s : State) : Out := .next (s.modPwr (fun p => { p with evlog := p.evlog.clear }))

/-! ### AVSBus (R409, R411) -/

/-- Nominal voltage in mV and tolerance in percent of a rail that takes no target. -/
def railNominal (r : Nat) : Nat × Nat :=
  if r = 2 then (800, 3) else if r = 3 then (1050, 3) else if r = 4 then (750, 3) else if r = 5 then (1800, 5) else if r = 6 then (750, 3)
  else if r = 7 then (1200, 3) else if r = 8 then (800, 3) else if r = 9 then (1200, 3) else if r = 10 then (800, 3)
  else if r = 11 then (1200, 3) else (1800, 5)

/-- A reading lies in the rail's operating range. -/
def railInRange (r : Fin 13) (x : Rail) (mv : Nat) : Bool :=
  if r.val < 2 then
    decide (600 ≤ mv + 10) && decide (mv ≤ 860) && decide (x.target.toNat ≤ mv + 10) && decide (mv ≤ x.target.toNat + 10)
  else
    let n := railNominal r.val
    decide (n.1 * (100 - n.2) ≤ 100 * mv) && decide (100 * mv ≤ n.1 * (100 + n.2))

/-- The last reading of a rail, as its event shows it. -/
def Rail.word (x : Rail) : Word := at_ 32 0 x.mv ||| at_ 32 16 x.current

/-- RAIL_FAULT of a rail. -/
def State.railFault (s : State) (r : Fin 13) : State := s.pwrEvent 3 r.val 2 (s.pwr.rails[r] : Rail).word

/-- A reading of a rail; one out of range for 1 ms is a fault. -/
def State.takeReading (s : State) (r : Fin 13) (mv current : BitVec 16) : State :=
  let s1 := s.modPwr (fun p =>
    { p with rails := vmod p.rails r (fun x =>
        { x with
          mv := mv
          current := current
          retry := false
          badSince := if railInRange r x mv.toNat then none else x.badSince <|> some s.now }) })
  match (s1.pwr.rails[r] : Rail).badSince with
  | some t => if t + ticks1ms ≤ s.now then s1.railFault r else s1
  | none => s1

/-- AVS_POLL: a rail's voltage and current are read; a frame without a good answer is sent again. -/
def execAvsPoll (rail : Fin 13) (mv current : BitVec 16) (answered : Bool) (s : State) : Out :=
  if !s.running then .next s
  else if !answered then .next (s.modPwr (fun p => { p with rails := vmod p.rails rail (fun x => { x with retry := true }) }))
  else .next (s.takeReading rail mv current)

/-- 1 µs in ticks. -/
def ticks1us : Nat := 157

/-- AVS_RETRY: the second attempt of a frame, of a read or, within 1 µs of it, of a voltage write; its failure is a fault. -/
def execAvsRetry (rail : Fin 13) (answer : AvsAnswer) (s : State) : Out :=
  let x : Rail := s.pwr.rails[rail]
  if !s.running then .next s
  else if x.retry then
    match answer with
    | .reading mv current => .next (s.takeReading rail mv current)
    | _ => .next ((s.modPwr (fun p => { p with rails := vmod p.rails rail (fun x => { x with retry := false }) })).railFault rail)
  else match x.wrote with
    | some t =>
      if s.now ≤ t + ticks1us then
        let s1 := (s.modPwr (fun p => { p with rails := vmod p.rails rail (fun x => { x with wrote := none }) })).sendRail rail x.target
        .next (if answer = .ack then s1 else s1.railFault rail)
      else .next s
    | none => .next s

end Sys2Proof.Machine
end

