-- ==== Sys2Proof/Machine/Scrub.lean ====
section
/-! DEFINITION. The scrub of contexts, the partition reset and the resource moves that a beat boundary makes for them
(R305, R366 to R371, R387). -/

namespace Sys2Proof.Machine

/-! ### Flits of a context (R367) -/

/-- A flit of this device that waits at a port for one of the contexts. -/
def State.ownFlit (s : State) (ctxs : List Byte) (p : Fin 12) (e : Option (Fin 12) × Data2048) : Bool :=
  e.1.isNone && ((s.flitCtx p e.2).map ctxs.contains).getD false

/-- Flits of the contexts that have not been sent are discarded; the bytes of their conduits went with their plans (R367). -/
def State.dropFlits (s : State) (sc : Scrub) : State :=
  { s with ports := Vector.ofFn (fun p : Fin 12 =>
      let q : Port := s.ports[p]
      { q with txq := q.txq.filter (fun e => !s.ownFlit sc.ctxs p e) }) }

/-- A flit of the contexts waits, or stands unacknowledged (R367). -/
def State.flitsLeft (s : State) (sc : Scrub) : Bool :=
  (List.finRange 12).any (fun p =>
    let q : Port := s.ports[p]
    q.txq.any (s.ownFlit sc.ctxs p) || q.sentFor.any (fun x => sc.ctxs.contains x.2 && q.replayBuf.any (fun f => flSeq f == x.1)))

/-! ### What a scrub covers (R366) -/

/-- The calderas that resident plans of the contexts name. -/
def State.heldCals (s : State) (ctxs : List Byte) : DWord :=
  s.plans.foldl (fun w p => if p.resident && ctxs.contains p.ctx then w ||| p.cals else w) 0

/-- The stacked frames that the contexts map, with their save areas, as device memory addresses. -/
def State.ctxFrames (s : State) (ctxs : List Byte) : List Nat :=
  (s.spt.filter (fun x => ctxs.contains (spCtx x.2))).filterMap (fun x => spFrame x.2)
    ++ (s.sec.ctxs.filter (fun x => ctxs.any (fun c => c.toNat == x.1))).flatMap (fun x => x.2.saveArea.map frameDma)

/-- The regions that the contexts own. -/
def State.ownedRegions (s : State) (ctxs : List Byte) : List (Fin 16) :=
  (List.finRange 16).filter (fun r => (s.regions[r].owners).any ctxs.contains)

/-- The channel that a frame lies on, over the whole device (R187). -/
def frameChan (dma : Nat) : Nat := 32 * (dma / 2 ^ 37) + dma % 2 ^ 37 / pageBytes % 32

/-- The largest count of frames on one channel. -/
def maxOnChan (fs : List Nat) : Nat :=
  (List.range 256).foldl (fun m c => max m (fs.filter (fun d => frameChan d == c)).length) 0

/-- The budget T in ns for the amounts that the contexts hold (R368). -/
def State.scrubBudget (s : State) (ctxs : List Byte) : Nat :=
  let f := s.glb.floorPace.toNat
  let tCal := if s.heldCals ctxs = 0 then 0 else (3072000 + f - 1) / f
  let tMem := 16384 * maxOnChan (s.ctxFrames ctxs)
  let tPl := 64000000 * (((s.ownedRegions ctxs).length + 7) / 8)
  10000 + max tCal (max tMem tPl)

/-- A region blanked, with its LOGIC and MEM frames zero (R345, R366). -/
def State.blankRegion (s : State) (r : Fin 16) : State :=
  (s.modRegion r (fun x => { x.quiet with
      cfg := 0, digest := 0, initHeld := true, gw := x.gw.map (fun g => { g with net := 0, used := false }) })).modCfg (fun c =>
    let other (k : Nat) : Bool := !(decide (k < 2 ^ 31) && farRegion (BitVec.ofNat 32 k) == r)
    { c with frames := c.frames.filter (fun x => other x.1), checks := c.checks.filter (fun x => other x.1) })

/-- Everything that the contexts hold is removed: keys first, then plans and calderas, pages, frames, regions and the
marks in the bad-block log (R366). -/
def State.scrubEffects (s : State) (ctxs : List Byte) : State :=
  let mine (c : Byte) : Bool := ctxs.contains c
  let frames := s.ctxFrames ctxs
  let regions := s.ownedRegions ctxs
  let s1 := s.modSec (fun q => { q with ctxs := q.ctxs.map (fun x =>
    (x.1, if ctxs.any (fun c => c.toNat == x.1) then { x.2 with modelKey := none, xtsKey := 0 } else x.2)) })
  let s2 := (s1.plans.filter (fun p => mine p.ctx)).foldl (fun (s : State) p => s.abortPlan p.handle) s1
  let s3 : State := { s2 with
    spt := s2.spt.filter (fun x => !mine (spCtx x.2)) }
  let s4 := (regions.foldl State.blankRegion (frames.foldl State.zeroFrame s3)).modRegions (fun _ x =>
    { x with owners := x.owners.filter (fun c => !mine c) })
  s4.modGlb (fun g => { g with bbl := { g.bbl with recs := g.bbl.recs.map (fun e =>
    if mine (rfld e 0xC 0 8) then putFld (putFld e 32 (0 : BitVec 64)) 96 (0xFF : Byte) else e) } })

/-! ### Start and end (R367 to R370) -/

/-- A scrub that stands before another and shares a context with it, or scrubs a context of the partition that the other
resets, goes first (R371). -/
def State.scrubBehind (s : State) (sc : Scrub) : Bool :=
  (s.sec.scrubs.takeWhile (fun x => x != sc)).any (fun x => x.ctxs.any sc.ctxs.contains || (sc.part.isSome && x.home == sc.home))

/-- An ABORT that was outstanding when its context entered SCRUBBING and has not been decoded (R292). -/
def State.ownAbort (s : State) (k : Cmd) : Bool :=
  (k.phase == .submitted || k.phase == .fetched) && pkOpcode k.packet == opABORT
    && ((s.ctx (pkCtx k.packet)).map (fun x => decide (k.serial < x.scrubFrom))).getD false

/-- The conditions of R367. -/
def State.scrubReady (s : State) (sc : Scrub) : Bool :=
  sc.startBeat.isNone && !s.scrubBehind sc
    && !s.cp.cmds.any (fun k => (k.phase == .started || k.phase == .suspended || s.ownAbort k) && sc.ctxs.contains (pkCtx k.packet) && some k.serial != sc.cmd)
    && !s.flitsLeft sc
    && ((s.ownedRegions sc.ctxs).isEmpty ||
        (!s.cfg.streaming && !s.sec.scrubs.any (fun x => x.startBeat.isSome && x.blanks)))

/-- A scrub replaced in the list of those due and running. -/
def State.modScrub (s : State) (sc : Scrub) (f : Scrub → Scrub) : State :=
  s.modSec (fun c => { c with scrubs := c.scrubs.map (fun x => if x = sc then f x else x) })

/-- A scrub starts at a boundary (R366 to R368, R370). -/
def State.startScrub (s : State) (sc : Scrub) : State :=
  let s1 := s.modScrub sc (fun x =>
    { x with startBeat := some s.glb.beatCnt, startTick := s.now, budget := s.scrubBudget sc.ctxs, cals := s.heldCals sc.ctxs
             onStacks := (s.ctxFrames sc.ctxs).foldl (fun w d => w ||| BitVec.twoPow 8 (d / 2 ^ 37)) 0
             blanks := !(s.ownedRegions sc.ctxs).isEmpty })
  let s2 := s1.scrubEffects sc.ctxs
  { s2 with pins := { s2.pins with tapOn := false } }

/-- A condition may have kept the scrub's writes below the rate of its budget: on a stack that holds its frames the
increased refresh rate, a controller in panic or with refreshes postponed, or a load beside the blanking (R369). -/
def State.scrubImpaired (s : State) (sc : Scrub) : Bool :=
  (List.finRange 8).any (fun i =>
    let k : Stack := s.hbmStacks[i]
    sc.onStacks.getLsbD i.val && (k.hotNow || k.ch.any (fun c => c.panicRd || c.panicWr || c.postponed.any (fun n => 0 < n))))
    || (sc.blanks && s.cfg.streaming)

/-- One caldera after the partition reset class: the registers of its window take their reset values, the states of its
power and of its zeroing with them (R305). -/
def Caldera.partReset (c : Caldera) : Caldera :=
  { squall := c.squall, limited := c.limited, sram := c.sram, cleanMicro := c.cleanMicro, cleanTables := c.cleanTables
    arrs := c.arrs.map (fun a => { acc := a.acc }) }

/-- A port after a reset of its window: its medium is the setup record's, and it trains again (R305, R388). -/
def Port.windowReset (p : Port) (medium : Bool) (now : Nat) : Port :=
  { medium := medium, mediumNow := medium, downSince := now, sent := p.sent }

/-- A region after a reset of its window: its state and its logic stay, the bindings of its ports and the digest go with
the registers (R305, R329, R345). -/
def Region.partReset (r : Region) : Region :=
  { r with digest := 0, clkFault := false, resync := false, restarts := [], gw := Vector.replicate 16 {} }

/-- The partition reset class for the resources of a partition (R305). -/
def State.partitionClass (s : State) (p : Part) : State :=
  let medium := if s.pwr.setupDefaulted then 0 else suMedium s.pwr.setup
  { s with
    cals := Vector.ofFn (fun n : Fin 64 => if p.cals.getLsbD n.val then (s.cals[n] : Caldera).partReset else s.cals[n])
    ports := Vector.ofFn (fun q : Fin 12 =>
      if p.ports.getLsbD q.val then (s.ports[q] : Port).windowReset (medium.getLsbD q.val) s.now else s.ports[q])
    regions := Vector.ofFn (fun r : Fin 16 => if p.regions.getLsbD r.val then (s.regions[r] : Region).partReset else s.regions[r]) }

/-- A scrub ends: the contexts are gone, its command completes with the boundaries it lasted, and a partition reset
finishes (R292, R368, R371). -/
def State.endScrub (s : State) (sc : Scrub) : State :=
  let beats := BitVec.ofNat 32 sc.beats
  let s1 := s.modSec (fun c =>
    { c with
      scrubs := c.scrubs.filter (fun x => x != sc), scrubBudget := BitVec.ofNat 64 sc.budget, scrubBeats := beats
      ctxs := c.ctxs.filter (fun x => !sc.ctxs.any (fun i => i.toNat == x.1)) })
  let s2 : State := { s1 with pins := { s1.pins with tapOn := !s1.sec.scrubs.any (fun x => x.startBeat.isSome) } }
  let s3 := match sc.cmd with
    | some serial => s2.complete serial 0 0 beats 0
    | none => s2
  match sc.part with
  | some p => (s3.partitionClass s3.sec.parts[p]).modSec (fun c => { c with parts := vmod c.parts p (fun x => { x with resetting := false }) })
  | none => s3

/-- A scrub whose budget has passed ends, unless its writes were impaired and, as a free value has it, not finished
in time (R369). -/
def State.tryEndScrub (s : State) (sc : Scrub) : State :=
  if s.scrubImpaired sc then
    let d := s.draw
    if bitAt d.1 0 then d.2.modScrub sc (fun x => { x with late := true }) else d.2.endScrub sc
  else s.endScrub sc

/-- One scrub at a boundary: it starts once R367 permits, or ends once its budget has passed with its work done; one
that is late ends when its work does. -/
def State.scrubStep (s : State) (sc : Scrub) : State :=
  if sc.startBeat.isSome then
    let sc1 := { sc with beats := sc.beats + 1 }
    let s1 := s.modScrub sc (fun _ => sc1)
    if sc1.elapsed s1.now ∧ !sc1.late then s1.tryEndScrub sc1 else s1
  else
    let s1 := s.dropFlits sc
    if s1.scrubReady sc then s1.startScrub sc else s1

/-- Every scrub that is due or runs, in order. -/
def State.scrubBoundary (s : State) : State := s.noteLate.sec.scrubs.foldl State.scrubStep s.noteLate

/-- SCRUB_WORK_DONE: work that outlasted the budget finishes; the scrub ends with SCRUB_OVERRUN (R369). -/
def execScrubWorkDone (ctx : Byte) (s : State) : Out :=
  match s.sec.scrubs.find? (fun x => x.startBeat.isSome && x.ctxs.contains ctx) with
  | none => .next s
  | some sc =>
    if sc.late ∧ !s.scrubWorks sc then
      .next ((s.endScrub sc).secEvent 1 (((s.ctx ctx).map (fun x => x.part.val)).getD 0) (ctx.setWidth 32))
    else .next s

/-! ### Partition reset (R371) -/

/-- The CTX_DESTROY commands for contexts of a partition that have started and whose effect stands out take it: a
CTX_DESTROY is decided at its start (R281, R292). -/
def State.runDestroys (s : State) (p : Fin 8) : State :=
  s.cp.cmds.foldl (fun (s : State) k =>
    if k.phase = .started ∧ !k.begun ∧ pkOpcode k.packet = 0x11 ∧ ((s.ctx (pkCtx k.packet)).map (fun x => x.part == p)).getD false then
      s.after (execCtxDestroy k.serial)
    else s) s

/-- A write of SEC_PART_CTL: with its key and RESET = 1 the partition's contexts are destroyed and one scrub covers
them; ignored while the partition is RESETTING. A context that a CTX_DESTROY scrubs already is left to it (R371). -/
def State.partitionReset (s : State) (value : Word) : State :=
  let p : Fin 8 := Fin.ofNat 8 (nfld value 0 3)
  if nfld value 16 16 = 0xD05E ∧ bitAt value 3 ∧ !s.sec.parts[p].resetting then
    let s1 := (s.runDestroys p).modSec (fun c => { c with parts := vmod c.parts p (fun x => { x with resetting := true }) })
    s1.beginScrub (((s1.ctxsOf p).filter (fun x => !x.2.scrubbing)).map (fun x => BitVec.ofNat 8 x.1)) (some p) none
  else s

/-- PARTITION_RESET: a keyed write of SEC_PART_CTL. -/
def execPartitionReset (value : Word) (s : State) : Out :=
  if s.winOpen .sec 0x20 then .next (s.partitionReset value) else .next s

/-! ### Ember exit (R387) -/

/-- A context made in ember mode joins partition 0; without a save area it is scrubbed and lost. -/
def State.adoptCtx (s : State) (c : Byte) : State :=
  let part : Part := s.sec.parts[(0 : Fin 8)]
  let keep : Option (State × List (Fin 8 × Nat)) := if part.valid then s.reserveArea part else none
  match keep with
  | some (s1, area) => s1.modSec (fun q =>
      { q with ctxs := q.ctxs.map (fun x => if x.1 = c.toNat then (x.1, { x.2 with part := 0, saveArea := area, ember := false }) else x) })
  | none =>
    let s1 := (s.abortAll [c] none).scrubEffects [c]
    (s1.modSec (fun q => { q with ctxs := q.ctxs.filter (fun x => x.1 != c.toNat) })).pwrEvent 11 0 2 (c.setWidth 32)

/-- Ember mode ends at the first boundary after phase 8 at which no run of ember is in progress. -/
def State.emberExit (s : State) : State :=
  if s.cp.ember ∧ s.pwr.phase = 8 ∧ s.pwr.phaseDone ∧ !s.plans.any Plan.started then
    let s1 := (s.modCp (fun c => { c with ember := false })).modPwr (fun p => { p with phase := 9, phaseDone := false })
    let made := (s1.sec.ctxs.filter (fun x => x.2.ember && !x.2.scrubbing)).map (fun x => BitVec.ofNat 8 x.1)
    (made.foldl State.adoptCtx s1).raiseRails
  else s

end Sys2Proof.Machine
end

