-- ==== Sys2Proof/Machine/Beat.lean ====
section
/-! DEFINITION. Beat boundaries and holds (R19, R20, R23, R26 to R28, R30, R31, R65, R155, R227, R247 to R254, R322, R364, R367). -/

namespace Sys2Proof.Machine

/-! ### Pace (R19, R20) -/

/-- The floor test: `cycles` lie below the floor pace `f` over a beat of `len` ticks (R20). -/
def belowFloorTest (cycles f len : Nat) : Bool := decide (cycles * 1000000 < f * len * 6400)

/-- One caldera's pace registers at the close of a beat (R19, R20). -/
def Caldera.latchPace (c : Caldera) (cycles : Word) (f len : Nat) : Caldera :=
  let n : Word := if c.gated then 0 else cycles
  { c with
    paceLast := n
    paceMin := if 0 < n.toNat ∧ n.toNat < c.paceMin.toNat then n else c.paceMin
    paceTotal := c.paceTotal + n.setWidth 64
    belowFloor := c.belowFloor || (!c.gated && belowFloorTest n.toNat f len)
    squallLimit := c.squallLimit || c.limited
    limited := c.squall.isSome }

/-- The beat closes: its length, every caldera's pace. -/
def State.closeBeat (s : State) (due : Nat) (cycles : Vector Word 64) : State :=
  let len : Word := BitVec.ofNat 32 (due - s.glb.beatStart)
  { s with
    glb := { s.glb with beatLast := len, beatStart := due }
    cals := Vector.ofFn (fun n : Fin 64 => (s.cals[n] : Caldera).latchPace cycles[n] s.glb.floorPace.toNat len.toNat) }

/-! ### The pulse (R23, R30, R248, R250, R251) -/

/-- The registers that a pulse changes. -/
def Glb.takePulse (g : Glb) (p : Pulse) : Glb :=
  { g with
    pulses := g.pulses.drop 1
    beatCnt := if p.load then p.beat else g.beatCnt + 1
    period := p.period
    stretchCnt := if p.stretched then satInc g.stretchCnt else g.stretchCnt }

/-- The tree position that FAB_GEYSER_NEXT holds is taken (R250). -/
def Fab.takeNext (b : Fab) : Fab :=
  if b.nextArm then { b with inPort := b.nextIn, inValid := b.nextInValid, outMask := b.nextOut, nextArm := false } else b

/-- The source role moves to device `n` at a pulse; stop notices that the old source has not placed go on to the new one
(R250, R254). -/
def State.handOver (s : State) (p : Pulse) (n : BitVec 10) : State :=
  let s1 := s.modFab (fun b => { b.takeNext with src := n })
  if s.isMine n then
    if s.glb.isSource then s1 else s1.modGlb (fun g => { g with isSource := true, source := { lastEmit := p.due } })
  else if s.glb.isSource then
    let s2 := (s1.modFab (fun b => { b with lastGeyser := s.now })).modGlb (fun g => { g with isSource := false, source := {} })
    s.glb.source.notices.foldl (fun s x => s.forwardNotice n (stretchPayload s.glb.beatCnt 0 s.fab.id (some x))) s2
  else s1

/-- The stop notice of a pulse fixes this boundary as the stop boundary of the plans it names (R254). -/
def State.takeNotice (s : State) (kind : BitVec 2) (fplan : BitVec 16) : State :=
  let why : Option StopReason := if kind = 1 then some .remote else if kind = 2 then some .preempt else none
  match why with
  | none => s
  | some w => s.plans.foldl (fun (s : State) p =>
      if p.fplan = fplan ∧ (p.run = .running ∨ p.run = .waiting) ∧ !p.stopDue then
        (s.modPlan p.handle (fun q => { q with stop := some (q.stop.getD w), stopDue := true })).stopIfHeld p.handle
      else s) s

/-! ### Squall requests (R28) -/

/-- The beat length, in ticks, that one caldera needs: ceil(N × p_floor ÷ p_limited), its pace of the last beat in
M steps/s; an open value where that pace is 0. -/
def squallTerm (period pFloor last ticks open_ : Nat) : Nat :=
  if last = 0 then open_ else (period * pFloor * ticks * 64 + last * 10000 - 1) / (last * 10000)

/-- The terms of the squall-limited calderas that run a plan. -/
def State.squallTerms (s : State) (open_ : Nat) : List Nat :=
  (List.finRange 64).filterMap (fun n =>
    let c : Caldera := s.cals[n]
    if c.squall.isSome then
      (s.planOn n).map (fun p => squallTerm s.glb.period.toNat p.pFloor.toNat c.paceLast.toNat s.glb.beatLast.toNat open_)
    else none)

/-- The SQUALL request of a beat; none without a term. -/
def State.squallRequest (s : State) : State :=
  let x := s.draw
  match (s.squallTerms (rnum x.1 0 0 32)).max? with
  | none => s
  | some l => x.2.reportSquall l

/-! ### Holds (R26, R27, R30, R31, R127) -/

/-- A wake holds the boundary that opens plan beat 0 (R127). -/
def State.wakeHolds (s : State) (b : DWord) : Bool := s.plans.any (fun p => p.startsAt b && s.planWakes p)

/-- Work of the closing beat waits on host memory or a peer device. -/
def State.streamWaits (s : State) : Bool :=
  s.plans.any (fun p => p.run == .running && (s.planSlots p).any (fun x =>
    s.cals[x.1].streams[x.2].owes p.handle p.beat && s.waitsRemote (.cal x.1 x.2)))

/-- The conditions of R30 present in the beat, bits 0, 1 and 3. -/
def State.beatConds (s : State) : BitVec 6 :=
  flagAt 6 0 (s.ports.any (fun p =>
    decide (1 < p.replaysInBeat) || (p.st == .retrain && (p.prev == .admitted || p.prev == .degraded))))
    ||| flagAt 6 1 (s.cals.any (fun c => c.squall.isSome || c.limited)) ||| flagAt 6 3 s.streamWaits

/-- What keeps a boundary held that R30 calls STREAM_WAIT: an arming of the closing beat that has not completed (R138),
or a drain that waits for ring space or a credit (R57). -/
def State.holdConds (s : State) : BitVec 6 :=
  flagAt 6 3 (s.plans.any (fun p => p.run == .running && !p.stopDue && p.calList.any (fun n =>
    s.cals[n].streams.any (fun t => t.owes p.handle p.beat) || s.cals[n].drainWaits p.beat)))

/-- One tick of the link reference passes: user logic goes on, and the conditions of R30 that the tick
shows count for the beat in progress, or for the boundary that is held (log 2). -/
def State.tick (s : State) : State :=
  let s0 := s.logicTick
  let s1 : State := { s0 with now := s.now + 1 }
  s1.modGlb (fun g => match g.holds with
    | [] => { g with conds := g.conds ||| s.beatConds }
    | k :: rest => { g with holds := { k with cause := k.cause ||| s.beatConds ||| s.holdConds } :: rest })

/-- A caldera below its floor in the closed beat without the limiter acting: bit 2. -/
def State.floorCond (s : State) (cycles : Vector Word 64) (len : Nat) : BitVec 6 :=
  flagAt 6 2 ((List.finRange 64).any (fun n =>
    let c : Caldera := s.cals[n]
    !c.gated && !c.limited && belowFloorTest cycles[n].toNat s.glb.floorPace.toNat len))

/-- A halted stream of a COPY goes on at the beat that its RESUME names (R152, R282). -/
def Stream.resumeOn (t : Stream) (b : DWord) : Stream :=
  match t.resumeAt with
  | some r => if r.toNat ≤ b.toNat then t.restart true else t
  | none => t

/-- Every plan, and every COPY that a RESUME restarts, at an opening boundary. -/
def State.openPlans (s : State) (b : DWord) : State :=
  s.plans.foldl (fun s p => s.openPlan b p.handle) (s.modCp (fun c => { c with streams := c.streams.map (fun t => t.resumeOn b) }))

/-- A plan whose stop falls due at this boundary stops there, and a stopped plan whose passes have all committed is
suspended (R65, R67). -/
def State.stopPlans (s : State) (b : DWord) : State :=
  s.plans.foldl (fun (s : State) p =>
    match s.findPlan p.handle with
    | none => s
    | some p =>
      if p.run = .running ∧ p.stopDue then
        ((s.dspRecords p p.beat).modPlan p.handle (fun q => q.stopAtBoundary b s.glb.preemptMax)).trySuspend p.handle
      else s.trySuspend p.handle) s

/-- Waits of R65 that ended at an earlier boundary. -/
def State.forceWaits (s : State) : State :=
  s.plans.foldl (fun (s : State) p => if s.waitExpired p then s.suspendPlan p.handle else s) s

/-- The no-progress counts of all streams (R155). -/
def State.idleCounts (s : State) : State :=
  let busy (t : Stream) : Bool := t.moved || t.st == .active || t.st == .armed
  let s1 := (List.finRange 64).foldl (fun (s : State) n =>
    (List.finRange 64).foldl (fun (s : State) k =>
      if busy s.cals[n].streams[k] then s.idleCount (.cal n k) else s) s) s
  (List.finRange 32).foldl (fun (s : State) k => if busy s.cp.streams[k] then s.idleCount (.cp k) else s) s1

/-- The ports and the gateways at a boundary (R227, R322). -/
def State.portsBoundary (s : State) : State :=
  let s1 := (List.finRange 12).foldl State.freeForwarded s
  { s1 with
    ports := s1.ports.map (fun p => p.atBoundary s.glb.beatCnt)
    regions := s.regions.map (fun r => { r with beatLo := s.glb.beatCnt.setWidth 16, gwBeat := -1 }) }

/-- The boundary opens its beat, or is held. -/
def State.openOrHold (s : State) (cause : BitVec 6) : State :=
  let b := s.glb.beatCnt
  if s.glb.holds.isEmpty ∧ s.ready b false then (s.openPlans b).modGlb (fun g => { g with conds := 0 })
  else
    let late := !s.glb.holds.isEmpty
    let now_ := cause ||| s.glb.conds ||| s.holdConds ||| flagAt 6 5 (s.wakeHolds b)
    s.modGlb (fun g => { g with
      conds := 0
      holds := g.holds ++ [{ beat := b, since := g.beatStart, late := late, cause := if late then cause &&& 4 else now_ }] })

/-- A pulse takes effect: the beat closes and the next one opens, unless the device holds the boundary. -/
def State.boundary (s : State) (p : Pulse) (cycles : Vector Word 64) : State :=
  let s0 := s.forceWaits
  let cause := s0.beatConds ||| s0.floorCond cycles (p.due - s0.glb.beatStart)
  let s1 := ((s0.closeBeat p.due cycles).modGlb (fun g => g.takePulse p)).idleCounts
  let s2 := match p.handover with
    | some n => s1.handOver p n
    | none => s1
  let s3 := match p.stop with
    | some (k, h) => s2.takeNotice k h
    | none => s2
  let s4 := if s3.glb.holds.isEmpty then s3.stopPlans s3.glb.beatCnt else s3.plans.foldl (fun s q => s.trySuspend q.handle) s3
  ((s4.openOrHold cause).portsBoundary.squallRequest.scrubBoundary.emberExit).switchContexts

/-- BEAT_BOUNDARY: the next pulse takes effect; `cycles` are the pace-ring cycles of the beat that it closes (R19,
R23, R26, R27, R30). -/
def execBeatBoundary (cycles : Vector Word 64) (s : State) : Out :=
  match s.glb.pulses with
  | p :: _ => if s.running ∧ p.due ≤ s.now then .next (s.boundary p cycles) else .next s
  | [] => .next s

/-- The cause bits of a hold that ends: UNATTRIBUTED when no other applies (R30). -/
def holdCauseBits (c : BitVec 6) : BitVec 6 := if c &&& 0x2F = 0 then 0x10 else c &&& 0x2F

/-- The next held boundary after one has opened: its beat is observed from now on (R27, R30).  Where the one before was
held by a suspension alone, and no work holds this one, the suspension held it too (R31, R252). -/
def State.nextHold (s : State) (mute : Bool) : State :=
  match s.glb.holds with
  | [] => s
  | k :: rest =>
    { s with
      ports := s.ports.map (fun p => { p with replaysInBeat := 0 })
      glb := { s.glb with holds := { k with mute := k.mute || (mute && !s.plans.any (s.planHolds k.beat)), cause := k.cause ||| s.holdConds ||| flagAt 6 5 (s.wakeHolds k.beat) } :: rest } }

/-- A hold ends: it is counted and reported, and its beat opens. -/
def State.endHold (s : State) (k : Hold) (rest : List Hold) : State :=
  let d := s.now - k.since
  let bits := holdCauseBits (k.cause ||| s.beatConds)
  let s1 := s.modGlb (fun g =>
    { g with
      conds := 0, holds := rest, holdCnt := satInc g.holdCnt, holdTicks := satAdd g.holdTicks d, holdCause := g.holdCause ||| bits })
  let s2 := if k.mute then s1 else s1.reportHold k.beat d
  (s2.openPlans k.beat).nextHold k.mute

/-- HOLD_END: the device opens the beat whose boundary it has held longest once that beat's predecessor has no work
left, and reports the hold (R26, R27, R30, R252). -/
def execHoldEnd (s : State) : Out :=
  match s.glb.holds with
  | k :: rest => if s.ready k.beat k.quiet then .next (s.endHold k rest) else .next s
  | [] => .next s

end Sys2Proof.Machine
end

