-- ==== Sys2Proof/Machine/Reset.lean ====
section
/-! DEFINITION. The reset classes and what causes them, power loss and thermal trip (R23, R262, R305, R306, R345, R385,
R399, R401, R403, R408). -/

namespace Sys2Proof.Machine

/-! ### What every reset does -/

/-- A setup copy whose program was cut off: an open value that is no valid record, since the other copy is used (R389,
R403; log 31). -/
def brokenSetup (x : Nat) : SetupRec := if suValid (Config.flashResidue x) then BitVec.allOnes 32768 else Config.flashResidue x

/-- A boot-flash operation is cut off: what it was writing holds an open value (R390, R400, R403; log 31). -/
def State.cutFlash (s : State) : State :=
  match s.pwr.flash.op with
  | none => s
  | some op =>
    let x := s.draw
    let f := s.pwr.flash
    let slot (keep : List Byte) : Flash :=
      match s.pwr.update with
      | some u => { f with op := none, slots := vset f.slots (Fin.ofNat 3 u.target.val) (some (keep ++ Config.slotResidue x.1.toNat)) }
      | none => { f with op := none }
    let g := match op with
      | .eraseSlot _ => slot []
      | .programData _ _ => slot ((s.pwr.update.map (·.data)).getD [])
      | .programSetup _ copy _ _ => { f with op := none, setups := vset f.setups copy (brokenSetup x.1.toNat) }
    x.2.modPwr (fun p => { p with flash := g })

/-- A port that keeps nothing but the record of what it has sent. -/
def Port.afterReset (p : Port) (now : Nat) : Port := { sent := p.sent, downSince := now }

/-- Every register at its reset value: what stays is the flash, the fuses, the pins, CFG_BOOT, the waiting commands, and
the records of what has left the device (R305, R358). -/
def State.clear (s : State) : State :=
  let r := State.reset
  { pending := s.pending, now := s.now, free := s.free
    glb := { floorPace := s.glb.floorPace, beatStart := s.now, source := { lastEmit := s.now } }
    ports := Vector.ofFn (fun p : Fin 12 => (s.ports[p] : Port).afterReset s.now)
    fab := { uid := s.fab.uid, lastGeyser := s.now }
    cp := { out := s.cp.out }
    cfg := { boot := s.cfg.boot }
    sec := { r.sec with lifecycle := s.sec.lifecycle, svn := s.sec.svn }
    pwr := { flash := s.pwr.flash, sideband := s.pwr.sideband, avsOut := s.pwr.avsOut }
    pins := { s.pins with tapOn := true } }

/-- A cold reset by the cause of a GLB_RESET_CAUSE bit: bring-up starts at phase 1 (R305, R306). -/
def State.coldReset (s : State) (cause : Nat) : State :=
  let open_ := s.pwr.update.isSome
  let s1 := s.cutFlash.clear.modGlb (fun g => { g with resetCause := BitVec.twoPow 6 cause })
  if open_ then s1.pwrEvent 9 0 1 s1.pwrStatus else s1

/-- A stack after a warm reset: a FAILED one stays FAILED with its cause until a cold reset (R203). -/
def Stack.afterWarm (k : Stack) : Stack :=
  if k.st = 3 then { st := 3, cause := k.cause, attempts := k.attempts, step := k.step } else {}

/-- A warm reset: RWS fields, the beat count, the bad-block log and the reset causes stay, with the mark of a debug
instruction used since the cold reset; the stacks' contents are lost; bring-up goes on from phase 2 (R203, R305, R306,
R383, R385). -/
def State.warmReset (s : State) (cause : Nat) : State :=
  let open_ := s.pwr.update.isSome
  let early : Bool := s.pwr.phase == 1 && !s.pwr.phaseDone
  let s1 := s.cutFlash.clear
  let s2 : State := { s1 with
    glb := { s1.glb with beatCnt := s.glb.beatCnt, scratch := s.glb.scratch, bbl := s.glb.bbl
                         resetCause := s.glb.resetCause ||| BitVec.twoPow 6 cause }
    hbmStacks := s.hbmStacks.map Stack.afterWarm
    cfg := { s1.cfg with refBad := s.cfg.refBad }
    sec := { s1.sec with debugUsed := s.sec.debugUsed }
    pwr := { s1.pwr with phase := if early then 1 else 2 } }
  if open_ then s2.pwrEvent 9 0 1 s2.pwrStatus else s2

/-! ### Causes -/

/-- POWER_GOOD: PWR_OK rises: a cold reset, from which beats are counted; phase 1 starts. With COLD_RST_N low it is one
through that input too, and phase 1 starts at its release. A THERMTRIP_N that is low is released where VDD_AON fell in the
meantime, which no row tells: a free value says so (R23, R24, R305, R306, R399, R408; log 138). -/
def execPowerGood (s : State) : Out :=
  if s.pins.pwrOk then .next s
  else
    let d := if s.pwr.tripped then s.draw else (0, s)
    let still := s.pwr.tripped && !bitAt d.1 0
    let s1 := d.2.coldReset (if s.pins.coldRstN then 0 else 1)
    .next { s1 with pins := { s1.pins with pwrOk := true, thermtripN := !still }, pwr := { s1.pwr with tripped := still } }

/-- POWER_LOSS: PWR_OK falls; the volatile state is lost, and a THERMTRIP_N that is low stays low (R403, R408). -/
def execPowerLoss (s : State) : Out :=
  let s1 := s.cutFlash.clear
  .next
    { s1 with
      glb := { s1.glb with resetCause := 1 }
      cfg := {}
      pins := { s1.pins with pwrOk := false }
      pwr := { s1.pwr with tripped := s.pwr.tripped } }

/-- THERMAL_TRIP: a junction at 115 °C or more: every unit stops, THERMTRIP_N goes low, and what a power loss loses is
lost (R399, R403). -/
def execThermalTrip (s : State) : Out :=
  if s.running ∧ s.pwr.temps.any (fun t => decide (460 ≤ t.toInt)) then
    let s1 := s.cutFlash.clear
    .next
      { s1 with
        glb := { s1.glb with resetCause := 1 }
        cfg := {}
        pins := { s1.pins with thermtripN := false }
        pwr := { s1.pwr with tripped := true } }
  else .next s

/-- COLD_RESET_PIN: COLD_RST_N goes low and stays so for `lowNs`: from 10 µs on a cold reset, below 1 µs nothing, and
between them either; without power the pin alone is low (R408). -/
def execColdResetPin (lowNs : Nat) (s : State) : Out :=
  if lowNs < 1000 then .next s
  else if !s.pins.pwrOk then .next { s with pins := { s.pins with coldRstN := false } }
  else
    let x := s.draw
    let s0 := if 10000 ≤ lowNs then s else x.2
    if 10000 ≤ lowNs ∨ bitAt x.1 0 then
      let s1 := s0.coldReset 1
      .next { s1 with pins := { s1.pins with coldRstN := false }, pwr := { s1.pwr with tripped := s.pwr.tripped } }
    else .next s0

/-- COLD_RESET_RELEASE: phase 1 starts again, and the local beat with it (R24, R408). -/
def execColdResetRelease (s : State) : Out :=
  if s.pins.coldRstN then .next s
  else .next
    { s with
      pins := { s.pins with coldRstN := true }, pwr := { s.pwr with phase := 1, phaseDone := false }
      glb := { s.glb with beatStart := s.now, source := { s.glb.source with lastEmit := s.now } } }

/-- PERST: PERST_N goes low: a warm reset, unless COLD_RST_N is low (R305, R408). -/
def execPerst (s : State) : Out :=
  if !s.pins.perstN then .next s
  else
    let s1 := if s.running then s.warmReset 3 else s
    .next { s1 with pins := { s1.pins with perstN := false } }

/-- PERST_RELEASE: PERST_N rises; after phase 1 bring-up phase 2 starts (R384). -/
def execPerstRelease (s : State) : Out :=
  if s.pins.perstN then .next s
  else
    let s1 : State := { s with pins := { s.pins with perstN := true } }
    if s.running ∧ s.pwr.phase = 1 ∧ s.pwr.phaseDone then .next (s1.modPwr (fun p => { p with phase := 2, phaseDone := false }))
    else .next s1

/-- The host port is out of reset. -/
def State.portUp (s : State) : Bool := s.running && s.pins.perstN && decide (2 ≤ s.pwr.phase.toNat)

/-- The function takes memory accesses: the host port is out of reset, and the function in D0 (R260). -/
def State.hostUp (s : State) : Bool := s.portUp && !s.d3hot

/-- FUNCTION_LEVEL_RESET: a warm reset (R262). -/
def execFunctionLevelReset (s : State) : Out :=
  if s.portUp then .next (s.warmReset 4) else .next s

/-- A value of GLB_RESET that starts a reset: its key, and exactly one of WARM and COLD (R306). -/
def glbResets (value : Word) : Bool := nfld value 16 16 == 0xD05E && (bitAt value 0 != bitAt value 1)

/-- A write of GLB_RESET: with its key and exactly one of WARM and COLD (R306). -/
def State.glbReset (s : State) (value : Word) : State :=
  if nfld value 16 16 ≠ 0xD05E then s
  else match bitAt value 0, bitAt value 1 with
    | true, false => s.warmReset 5
    | false, true => s.coldReset 2
    | _, _ => s

/-- The answer that a reset waits for has gone: the initiator no longer waits for its RSP, or no port holds the flit
(R306). -/
def ResetAfter.gone (s : State) : ResetAfter → Bool
  | .rsp node tag => !(s.iface node).out.any (fun q => q.tag == tag)
  | .flit f => !s.ports.any (fun p => p.txq.any (fun e => e.2 == f))

/-- A reset that waits begins once the answer to its write has gone (R306). -/
def State.resetNow (s : State) : State := match s.resetDue with
  | some (w, v) => if w.gone s then ({ s with resetDue := none } : State).glbReset v else s
  | none => s

/-- GLB_RESET_WARM: a write of GLB_RESET that asks for a warm reset (R306). -/
def execGlbResetWarm (value : Word) (s : State) : Out :=
  if s.running ∧ s.winOpen .glb 0x20 then .next (s.glbReset value) else .next s

/-- GLB_RESET_COLD: a write of GLB_RESET that asks for a cold reset (R306). -/
def execGlbResetCold (value : Word) (s : State) : Out :=
  if s.running ∧ s.winOpen .glb 0x20 then .next (s.glbReset value) else .next s

end Sys2Proof.Machine
end

