-- ==== Sys2Proof/Machine/BringUp.lean ====
section
/-! DEFINITION. Bring-up: its phases, the choice of images and of the setup record, the logic load and the burning of
the security version (R353, R357, R359, R360, R377, R380 to R382, R384 to R389). -/

namespace Sys2Proof.Machine

/-! ### Phase 3: firmware (R357, R377) -/

/-- CFG_BOOT with the pointer copy in use and which copies are valid. -/
def bootPointer (f : Flash) (b : BitVec 10) : BitVec 10 :=
  let copy : BitVec 2 := match f.ptrCopy with
    | some i => BitVec.ofNat 2 i.val
    | none => 3
  let valid (i : Fin 2) : Bool := prValid (f.ptrs[i] : PtrCopy).record
  putFld b 0 (((if valid 1 then 1 else 0) : BitVec 1) ++ ((if valid 0 then 1 else 0) : BitVec 1) ++ copy)

/-- The candidates tried in order: the first that boots, and CFG_BOOT with the failures before it. -/
def tryImages (f : Flash) (svn : Nat) : List (Fin 3) → BitVec 10 → Option (Fin 3) × BitVec 10
  | [], b => (none, b)
  | i :: rest, b =>
    if slotBoots svn (f.slot i) then (some i, putFld b 4 (BitVec.ofNat 2 i.val))
    else tryImages f svn rest (if i.val < 2 then b ||| BitVec.twoPow 10 (8 + i.val) else b)

/-- The layer secrets of this boot and the digests measured (R377); none in RETURNED, where the device secret is
blocked (R380). -/
def State.measure (s : State) (b : List Byte) : State :=
  let d (ty : Nat) : BitVec 384 := (drDigest b ty).getD 0
  let cdi1 := layerSecret Config.uniqueDeviceSecret
    (toBytes Config.bootRomDigest 48 ++ toBytes (d 1) 48 ++ [BitVec.ofNat 8 s.sec.svn])
  let cdi2 := layerSecret cdi1 (toBytes (d 2) 48 ++ toBytes (d 3) 48)
  s.modSec (fun c => { c with
    digests := Vector.ofFn (fun i : Fin 3 => d (i.val + 1))
    cdi1 := if c.lifecycle = 3 then 0 else cdi1, cdi2 := if c.lifecycle = 3 then 0 else cdi2 })

/-- The firmware image is chosen; when every candidate fails, BOOT_FAIL is set and the phase stays (R357, R385). -/
def State.selectFirmware (s : State) : State :=
  let f := s.pwr.flash
  let r := tryImages f s.sec.svn f.candidates (bootPointer f 0xC3)
  let s1 := s.modCfg (fun c => { c with boot := r.2 })
  match r.1 with
  | none => s1.modPwr (fun p => { p with bootFail := true })
  | some i => (s1.measure (f.slot i)).modPwr (fun p => { p with phase := 4, updatePending := false, lastNextDigest := 0 })

/-! ### Phase 4: setup (R359, R360, R381, R389) -/

/-- The layout put in force: the record's, or the default where the record is defaulted or its layout is broken. -/
def State.putLayout (s : State) (record : Option SetupRec) : State :=
  match record with
  | some r =>
    if (layoutBad (suLayout r)).isNone then s.modSec (fun c => { c with parts := suLayout r })
    else (s.modSec (fun c => { c with parts := defaultLayout })).secEvent 0 0 0
  | none => (s.modSec (fun c => { c with parts := defaultLayout })).secEvent 0 0 0

/-- A field of a valid copy outside its range takes its default and is noted (R389). -/
def suFieldBad (r : SetupRec) : Bool :=
  !suCapOk r || !suVopOk r || ((List.range 7).any (fun k => !suKeyOk r (k + 1)))

/-- The values of the setup record applied: cap, operating voltage, media, owner keys (R381, R388, R389). -/
def State.applySetup (s : State) (record : Option SetupRec) : State :=
  let cap : BitVec 16 := match record with
    | some r => if suCapOk r ∧ suCap r ≠ 0 then suCap r else 1500
    | none => 1500
  let vop : BitVec 10 := match record with
    | some r => if suVopOk r ∧ suVop r ≠ 0 then suVop r else 750
    | none => 750
  let medium : BitVec 12 := (record.map suMedium).getD 0
  let key (k : Nat) : BitVec 768 := match record with
    | some r => if 1 ≤ k ∧ suKeyOk r k then suKey r k else 0
    | none => 0
  let s1 := s.modPwr (fun p =>
    { p with cap := cap, vop := vop, capTarget := vop.setWidth 16, setupDefaulted := record.isNone, setup := record.getD 0, setupPending := false })
  let s2 := s1.modSec (fun c => { c with
    ownerKeys := Vector.ofFn (fun i : Fin 8 => key i.val)
    keySlots := (List.range 7).foldl (fun (w : Byte) k => if key (k + 1) = 0 then w else w ||| BitVec.twoPow 8 (k + 1)) 1 })
  let s3 : State := { s2 with ports := Vector.ofFn (fun p : Fin 12 =>
    { (s2.ports[p] : Port) with medium := medium.getLsbD p.val, mediumNow := medium.getLsbD p.val }) }
  if (record.map suFieldBad).getD false then s3.pwrEvent 10 0 1 s3.pwrStatus else s3

/-- The setup record is chosen and takes effect. -/
def State.selectSetup (s : State) : State :=
  let f := s.pwr.flash
  let copy := f.setupCopy
  let record : Option SetupRec := copy.map (fun i => f.setups[i])
  let valid (i : Fin 2) : BitVec 1 := if suValid f.setups[i] then 1 else 0
  let s1 := s.modPwr (fun p => { p with
    setupCopy := match copy with
      | some i => BitVec.ofNat 2 i.val
      | none => 3
    copyValid := valid 1 ++ valid 0
    setupGen := (record.map suGen).getD 0 })
  (s1.applySetup record).putLayout record

/-! ### Phases 5 to 7 (R202, R214, R235, R353, R384, R386) -/

/-- The firmware loads microcode and function tables into every caldera and into the reference store, and captures the
golden signatures (R353). -/
def State.loadHardened (s : State) : State :=
  let m := toBytes Config.microcode 65536
  let t := toBytes Config.functionTables 32768
  let s1 : State := { s with cals := s.cals.map (fun c => { c with micro := Config.microcode, tables := Config.functionTables }) }
  (s1.modCfg (fun c => { (c.putRef (.microcode 0) m).putRef (.tables 0) t with
    golden := (List.finRange 64).foldl (fun g n => tput (tput g (microKey n) (sha384 m)) (tableKey n) (sha384 t)) c.golden })).captureConduits

/-- Ember mode starts: the hardened stores are loaded, calderas 8 to 63 are gated, 0 to 7 zeroing, the compute rails at
0.60 V. -/
def State.startEmber (s : State) : State :=
  let s1 := s.loadHardened
  let s2 : State := { s1 with cals := Vector.ofFn (fun n : Fin 64 =>
    if n.val < 8 then { (s1.cals[n] : Caldera) with zeroing := true } else { (s1.cals[n] : Caldera) with gated := true }) }
  (s2.modPwr (fun p => { p with phase := 5 })).stepRails

/-- Every stack starts training (R202). -/
def State.startMemory (s : State) : State :=
  ({ s with hbmStacks := s.hbmStacks.map Stack.train } : State).modPwr (fun p => { p with phase := 6 })

/-- LNK_PERMIT opens and every port that is enabled starts training (R214, R235). -/
def State.startLanes (s : State) : State :=
  ({ s with ports := s.ports.map (fun p =>
      let q := { p with permit := Vector.replicate 32 0xFFFFFFFF#32 }
      if q.en ∧ q.st = .down then q.train s.now false else q) } : State).modPwr (fun p => { p with phase := 7 })

/-! ### Phase 8: logic (R339, R357) -/

/-- The frame records of a container that starts at an offset, one by one while the load goes on. -/
def State.flashRecords (s : State) (b : List Byte) : List Nat → State
  | [] => s
  | off :: rest =>
    match s.cfg.load with
    | none => s
    | some l =>
      let x := slice b off 520
      let l1 := { l with got := off + x.length }
      (if x.length < 520 then s.settle l1 stTRUNCATED 6 l1.got else s.loadRecord l1 x).flashRecords b rest

/-- A full image loaded from the boot flash, whole (R338, R339, R357). -/
def State.flashLoad (s : State) (b : List Byte) : State :=
  let l : Load := { full := true, region := 0, source := 2, length := b.length, got := 0 }
  let front := hdFront b
  let s1 := s.beginLoad l (b.take front)
  let s2 := s1.flashRecords b ((List.range (hdFrames b)).map (fun i => front + 520 * i))
  match s2.cfg.load with
  | none => s2
  | some l => s2.loadTrailer { l with got := b.length } (slice b (front + 520 * hdFrames b) 32)

/-- The last load ended with OK. -/
def State.loadedOk (s : State) : Bool := s.cfg.load.isNone && s.cfg.lastStatus == 0

/-- A slot's logic entry loaded: the state after it, and whether it loaded. -/
def State.tryLogic (s : State) (slot : Fin 3) : State × Bool :=
  match drData (s.pwr.flash.slot slot) 4 with
  | none => (s, false)
  | some b =>
    let s1 := s.flashLoad b
    (s1, s1.loadedOk)

def State.putLogicSlot (s : State) (k : Nat) : State := s.modCfg (fun c => { c with boot := putFld c.boot 6 (BitVec.ofNat 2 k) })

/-- The logic image of the firmware's slot, else the golden one, else none and every region REGION_FAILED. -/
def State.selectLogic (s : State) : State :=
  let fw : Fin 3 := Fin.ofNat 3 s.fwSlot
  let x := s.tryLogic fw
  if x.2 then x.1.putLogicSlot fw.val
  else
    let y := if fw = 2 then (x.1, false) else x.1.tryLogic 2
    if y.2 then
      let s1 := y.1.putLogicSlot 2
      s1.cfgEvent 6 0 (s1.cfg.boot.setWidth 32)
    else
      let s1 := (y.1.modRegions (fun _ r => { r with cfg := 3, digest := 0 })).putLogicSlot 3
      s1.cfgEvent 7 0 (s1.cfg.boot.setWidth 32)

/-! ### Phase 9: the security version (R382) -/

/-- The version that phase 9 burns up to: the lower of the running slot's and the golden image's. -/
def State.svnTarget (s : State) : Nat := min (drSvn (s.pwr.flash.slot (Fin.ofNat 3 s.fwSlot))) (drSvn (s.pwr.flash.slot 2))

/-- One fuse bit is burned while the version lies below its target. -/
def State.burnSvn (s : State) : State :=
  if s.sec.svn < s.svnTarget ∧ s.sec.svn < 128 then
    let s1 := s.modSec (fun c => { c with svn := c.svn + 1 })
    s1.secEvent 3 0 s1.sec.lifecycleWord
  else s

/-! ### The sequence (R384, R385) -/

/-- BRING_UP_PHASE: the phase in progress completes, once its work is done, and the next one begins. In phase 9 one
fuse bit of the security version is burned.  A decommissioned device stops after phase 2 (R380). -/
def execBringUpPhase (s : State) : Out :=
  if !s.running then .next s
  else match s.pwr.phase.toNat with
    | 1 => .next (s.modPwr (fun p => if s.pins.perstN then { p with phase := 2, phaseDone := false } else { p with phaseDone := true }))
    | 2 => .next (if s.pins.perstN ∧ s.sec.lifecycle ≠ 4 then s.modPwr (fun p => { p with phase := 3 }) else s)
    | 3 => .next (if s.pwr.bootFail then s else s.selectFirmware)
    | 4 => .next s.selectSetup.startEmber
    | 5 => .next (if (List.finRange 8).any (fun n => (s.cals[(Fin.ofNat 64 n.val)] : Caldera).zeroing) then s else s.startMemory)
    | 6 => .next (if s.hbmStacks.any (fun k => k.st == 1) then s else s.startLanes)
    | 7 => .next (if s.ports.any (fun p => p.st == .training) then s else s.modPwr (fun p => { p with phase := 8, phaseDone := false }))
    | 8 => .next (if s.pwr.phaseDone ∨ s.cfg.streaming then s else s.selectLogic.modPwr (fun p => { p with phaseDone := true }))
    | 9 => .next s.burnSvn
    | _ => .next s

end Sys2Proof.Machine
end

