-- ==== Sys2Proof/Machine/RegWrite.lean ====
section
/-! DEFINITION. What a write to each register of BAR0 does (R10, R11, R117, R128, R135, R181, R294, R295, R298, R303,
R304, R306, R361, R371, R373, R385), and FAB_ID (R234). -/

namespace Sys2Proof.Machine

/-- What a write of one word does: the state after it and whether the member dropped it; none where no register
that takes writes stands. -/
abbrev Wr := Option (State × Bool)

def wrote (s : State) : Wr := some (s, false)

/-- The write is dropped and shown in ACCESS_REFUSED (R117, R128, R135). -/
def State.wrDrop (s : State) (n : Fin 64) : Wr := some (s.modCal n (fun c => { c with accessRefused := true }), true)

/-- A word of a register of 64 bits or more written in place. -/
def putHalf {n : Nat} (v : BitVec n) (k : Nat) (w : Word) : BitVec n := putFld v (32 * k) w

/-- Who writes: the host, a MGMT REG_WR whose source is the fabric's manager, or another initiator. -/
inductive Who where
  | host | manager | other
deriving DecidableEq, Repr

/-! ### CAL -/

/-- The DSP unit's registers and the address generators (R114, R117). -/
def Dsp.regWrite (d : Dsp) (off : Nat) (w : Word) : Dsp :=
  match bank off 0x1100 0x20 16 with
  | some (g, o) =>
    { d with ag := vmod d.ag (Fin.ofNat 16 g) (fun (a : AddrGen) =>
        if o = 0 then { a with base := putFld a.base 0 w }
        else if o = 4 then { a with base := putFld a.base 32 (fld w 0 8) }
        else if o = 8 then { a with lenM1 := w }
        else if o = 0xC then { a with ptr := w }
        else if o = 0x10 then { a with stride := w }
        else if o = 0x14 then { a with ctl := fld w 0 24 } else a) }
  | none =>
    if off = 0x1000 then d.clearFlags w
    else if off = 0x1004 then { d with mode := fld w 0 3 }
    else if off = 0x1008 then { d with seed := if w = 0 then 0x9E3779B9#32 else w }
    else if off = 0x100C then { d with pc := fld w 0 24 }
    else if off = 0x1010 then { d with progBase := fld w 0 24 } else d

/-- A check unit's registers (R118 to R123); CHK_COUNT is read-only, and a context's copy restores it (R121; log 113). -/
def Chk.regWrite (k : Chk) (o : Nat) (w : Word) : Chk :=
  if o < 8 then { k with poly := putHalf k.poly (o / 4) w }
  else if o < 0x10 then { k with init := putHalf k.init (o / 4 - 2) w }
  else if o < 0x18 then { k with xorout := putHalf k.xorout (o / 4 - 4) w }
  else if o < 0x20 then k.queueHalf (o == 0x1C) w
  else if o = 0x28 ∨ o = 0x2C then { k with foldVal := putHalf k.foldVal (o / 4 - 10) w }
  else if o = 0x30 then k.queueCtl w
  else if o = 0x34 then k.write (toBytes w 1)
  else if o = 0x38 then k.write (toBytes w 2)
  else if o = 0x3C then k.write (toBytes w 4)
  else if o = 0x40 then { k with overrun := w1cBit k.overrun (bitAt w 1), paramErr := w1cBit k.paramErr (bitAt w 2) }
  else k

/-- The registers that gating loses. -/
def Caldera.unitWrite (c : Caldera) (off : Nat) (w : Word) : Caldera :=
  match bank off 0x2000 0x100 2 with
  | some (u, o) => { c with chk := vmod c.chk (Fin.ofNat 2 u) (fun k => k.regWrite o w) }
  | none => { c with dsp := c.dsp.regWrite off w }

/-- A slot's status registers (R159). -/
def Stream.regWrite (t : Stream) (cp : Bool) (o : Nat) (w : Word) : Stream :=
  if o = 0 then { t with overrun := w1cBit t.overrun (bitAt w 4), descErr := w1cBit t.descErr (bitAt w 5) }
  else if o = 0x18 ∧ !cp then { t with stg := fld w 0 8 } else t

/-- A write to a slot's registers: word 0x00 of STM_DESC submits, the other words fill the write buffer (R135). -/
def State.streamWrite (s : State) (slot : Nat → SlotRef) (n : Nat) (cp : Bool) (off : Nat) (w : Word) : State :=
  match bank off 0x4000 0x40 n, bank off 0x6000 0x20 n with
  | some (i, o), _ =>
    if o = 0 then s.after (execStreamArm (slot i) w)
    else s.modStm (slot i) (fun t => { t with wbuf := putHalf t.wbuf (o / 4) w })
  | none, some (i, o) => s.modStm (slot i) (fun t => t.regWrite cp o w)
  | none, none => s

/-- A caldera's stream registers (R160). -/
def State.calStreamWrite (s : State) (n : Fin 64) (off : Nat) (w : Word) : State :=
  if off = 0x7000 then s.modCal n (fun c => { c with stgBase := fld w 0 12 })
  else if off = 0x7004 then s.modCal n (fun c => { c with stgShape := fld w 0 20 })
  else if off = 0x7010 then s.modCal n (fun c => { c with wdog := if nfld w 0 16 = 0 then c.wdog else fld w 0 16 })
  else s.streamWrite (fun i => .cal n (Fin.ofNat 64 i)) 64 false off w

/-- A crosspoint entry; an input port above 4 keeps the port that stood (R185, R304). -/
def Caldera.xpWrite (n : Fin 64) (c : Caldera) (key : Nat) (w : Word) : Caldera :=
  c.putXp n key (if 4 < nfld w 1 3 then putFld w 1 (fld (tget (0 : BitVec 22) c.xps key) 1 3) else w)

/-- A caldera's own registers: status, power, pace, array flags and the exception log (R19, R71, R125 to R128). -/
def State.calOwnWrite (s : State) (n : Fin 64) (off : Nat) (w : Word) : State :=
  if off = 0x04 then
    s.modCal n (fun c =>
      { c with
        fault := w1cBit c.fault (bitAt w 5), xlogOvf := w1cBit c.xlogOvf (bitAt w 7)
        accessRefused := w1cBit c.accessRefused (bitAt w 9) })
  else if off = 0x08 then
    if bitAt w 0 then s.after (execGate n (bitAt w 1)) else if bitAt w 1 then s.after (execWake n) else s
  else if off = 0x0C then s.modCal n (fun c => { c with gateRefused := w1cBit c.gateRefused (bitAt w 0) })
  else if off = 0x110 then
    let s1 := s.modCal n (fun c =>
      { c with belowFloor := w1cBit c.belowFloor (bitAt w 0), squallLimit := w1cBit c.squallLimit (bitAt w 1) })
    if bitAt w 2 then s1.after (execPaceMinClr n) else s1
  else if off = 0x3004 then
    s.modCal n (fun c =>
      let l := if bitAt w 0 then c.xlog.pop else c.xlog
      { c with xlog := if bitAt w 1 then l.clear else l })
  else match bank off 0x400 4 16 with
    | some (i, _) => s.modCal n (fun c => c.modArr (Fin.ofNat 16 i) (fun a => a.clearFlags w))
    | none => s

/-- The staging registers, which the control network writes only while no plan is loaded (R140). -/
def stagingOff (off : Nat) : Bool := off == 0x7000 || off == 0x7004 || (decide (0x6000 ≤ off ∧ off < 0x6800) && off % 0x20 == 0x18)

/-- A write of one word of a CAL window at which a register stands. -/
def State.calWrite (s : State) (n : Fin 64) (off : Nat) (w : Word) : Wr :=
  let c : Caldera := s.cals[n]
  if calGatedOff off then
    if s.runsPlan n || c.gated || c.waking then s.wrDrop n else wrote (s.modCal n (fun c => c.unitWrite off w))
  else if 0x4000 ≤ off ∧ off < 0x8000 then
    if s.runsPlan n || (stagingOff off && s.planNames n) then s.wrDrop n else wrote (s.calStreamWrite n off w)
  else if 0x8000 ≤ off then
    if s.planNames n then s.wrDrop n
    else match bank off 0x8000 0x10 64, bank off 0x9000 4 192 with
      | some (e, o), _ => wrote (if o = 0 then (s.modEp (.cal n (Fin.ofNat 64 e)) (fun x => x.putCtl w)).captureConduits else s)
      | none, some (k, _) => wrote (s.modCal n (fun c => c.xpWrite n k w)).captureConduits
      | none, none => wrote s
  else wrote (s.calOwnWrite n off w)

/-! ### HBM, LNK, PLR -/

/-- An endpoint's control word in a block other than a caldera. -/
def State.epWrite (s : State) (off n : Nat) (r : Nat → EpRef) (w : Word) : State :=
  match bank off 0x8000 0x10 n with
  | some (e, o) => if o = 0 then (s.modEp (r e) (fun x => x.putCtl w)).captureConduits else s
  | none => s

/-- A memory stack's registers (R205). -/
def State.hbmWrite (s : State) (k : Fin 8) (off : Nat) (w : Word) : State :=
  if off = 0x04 then s.modStack k (fun t => { t with hot := w1cBit t.hot (bitAt w 8) })
  else if off = 0x08 then s.modStack k (fun t => { t with idle := fld w 0 10 })
  else if off = 0x0C then s.modStack k (fun t => { t with postMax := if nfld w 0 4 ≤ 8 then fld w 0 4 else t.postMax })
  else if off = 0x10 then
    if nfld w 0 7 < nfld w 8 7 ∧ nfld w 8 7 ≤ 64 then (s.modStack k (fun t => { t with low := fld w 0 7, high := fld w 8 7 })).watchStack k else s
  else if off = 0x18 then if bitAt w 0 then s.after (execHbmCntClr k) else s
  else s.epWrite off 32 (fun e => .stack k (Fin.ofNat 32 e)) w

/-- LNK_CTL: each field acts as its own write; EN acts on a change (R226 to R232). -/
def State.lnkCtlWrite (s : State) (p : Fin 12) (w : Word) : State :=
  let put (b : Bool) (f : State → Out) (s : State) : State := if b then s.after f else s
  let s1 := put (bitAt w 0 != s.ports[p].en) (execLnkEn p (bitAt w 0)) s
  let s2 := (s1.after (execAdmitPort p (bitAt w 1))).after (execConf p (bitAt w 2))
  let s3 := s2.modPort p (fun q => { q with encrypt := bitAt w 3, medium := bitAt w 10 })
  let s4 := put (bitAt w 6) (execFullTrain p) (put (bitAt w 5) (execRetrain p) (put (bitAt w 4) (execClrDegraded p) s3))
  s4.after (execLoop p (fld w 8 2))

/-- LNK_PRBS_CTL; a reserved pattern keeps the one that stood (R216, R233). -/
def Lane.prbsWrite (l : Lane) (w : Word) : Lane :=
  { l with
    gen := if nfld w 0 3 = 7 then l.gen else fld w 0 3
    genState := if nfld w 0 3 = 7 ∨ nfld w 0 3 = l.gen.toNat then l.genState else 0
    chk := if nfld w 4 3 = 7 then l.chk else fld w 4 3
    inv := bitAt w 7 }

/-- A link port's registers (R232, R233). -/
def State.lnkWrite (s : State) (p : Fin 12) (off : Nat) (w : Word) : State :=
  let m (f : Port → Port) : State := s.modPort p f
  if off = 0x00 then s.lnkCtlWrite p w
  else if off = 0x08 then m (fun q => { q with event := w1c q.event (fld w 0 9) })
  else if off = 0x24 then m (fun q => { q with presPeriod := if nfld w 0 16 = 0 then q.presPeriod else fld w 0 16 })
  else if off = 0x28 then m (fun q => { q with creditTo := if nfld w 0 24 = 0 then q.creditTo else fld w 0 24 })
  else if off = 0x2C then m (fun q => { q with errMax := fld w 0 16 })
  else if off = 0x30 then m (fun q => { q with errWindow := if nfld w 0 24 = 0 then q.errWindow else fld w 0 24 })
  else if off = 0x34 then m (fun q => { q with retrainMax := fld w 0 4 })
  else if off = 0x38 then m (fun q => { q with violMax := fld w 0 8, minSvn := fld w 8 8 })
  else if off = 0x14C then if bitAt w 0 then s.after (execLnkCntClr p) else s
  else match bank off 0x200 4 32, bank off 0x400 0x40 4 with
    | some (i, _), _ => m (fun q => { q with permit := vset q.permit (Fin.ofNat 32 i) w })
    | none, some (i, o) =>
      let l : Fin 4 := Fin.ofNat 4 i
      if o = 0x0C then m (fun q => { q with lanes := vmod q.lanes l (fun x => { x with eyeMinH := fld w 0 8, eyeMinW := fld w 8 8 }) })
      else if o = 0x10 then
        let s1 := m (fun q => { q with lanes := vmod q.lanes l (fun x => x.prbsWrite w) })
        if bitAt w 8 then s1.after (execPrbsClr p l) else s1
      else s
    | none, none => s.epWrite off 8 (fun e => .port p (Fin.ofNat 8 e)) w

/-- A logic region's registers (R329). -/
def State.plrWrite (s : State) (r : Fin 16) (off : Nat) (w : Word) : State :=
  if off = 0x04 then s.modRegion r (fun x => { x with clkFault := w1cBit x.clkFault (bitAt w 2) })
  else s.epWrite off 16 (fun e => .region r (Fin.ofNat 16 e)) w

/-! ### GLB, NOC, FAB -/

/-- The GLB block's registers; GLB_RESET acts once the answer is sent (R306). -/
def State.glbWrite (s : State) (off : Nat) (w : Word) : State :=
  let m (f : Glb → Glb) : State := s.modGlb f
  if off = 0x30 then m (fun g => { g with accessErr := w1c g.accessErr (fld w 0 6) })
  else if off = 0x40 then m (fun g => { g with scratch := w })
  else if off = 0x220 then m (fun g => { g with holdCause := w1c g.holdCause (fld w 0 6) })
  else if off = 0x250 then m (fun g => { g with preemptMax := fld w 0 8 })
  else if off = 0x400 then m (fun g => { g with lookupVpn := fld w 0 21 })
  else if off = 0x504 then
    let s1 := if bitAt w 0 then s.after execBblPop else s
    if bitAt w 1 then s1.after execBblClear else s1
  else match bank off 0x1000 8 16, bank off 0x2000 0x20 8 with
    | some (g, o), _ => m (fun b => { b with groupMask := vmod b.groupMask (Fin.ofNat 16 g) (fun v => putHalf v (o / 4) w) })
    | none, some (k, o) =>
      if o = 8 then { s with plls := vmod s.plls (Fin.ofNat 8 k) (fun p => { p with unlock := w1cBit p.unlock (bitAt w 1) }) } else s
    | none, none => s

/-- A control-network probe's registers; PORT = 3 keeps the test point that stood (R177, R304). -/
def NProbe.regWrite (q : NProbe) (o : Nat) (w : Word) : NProbe :=
  let ends : Word := 0x01FF01FF#32
  if o = 0 then
    let w1 := if nfld w 4 2 = 3 then putFld w 4 (fld q.ctl 4 2) else w
    { q with ctl := w1 &&& 0xFFFF3F37#32 }
  else if o = 4 then { q with src := w &&& ends }
  else if o = 8 then { q with dst := w &&& ends }
  else if o = 0xC then { q with lo := w }
  else if o = 0x10 then { q with hi := w }
  else if o = 0x18 then { q with count := putFld q.count 0 (fld q.count 0 32 &&& ~~~w) }
  else if o = 0x1C then { q with count := putFld q.count 32 (fld q.count 32 32 &&& ~~~w) }
  else q

/-- The control network's registers of a die (R166, R177). -/
def State.nocWrite (s : State) (die : Fin 2) (off : Nat) (w : Word) : State :=
  let d : Bool := die.val == 1
  if off = 0 then s.modNoc d (fun x => { x with timeout := if nfld w 0 24 = 0 then x.timeout else fld w 0 24 })
  else if off = 4 then
    s.modNoc d (fun x => { x with tagExhaust := w1cBit x.tagExhaust (bitAt w 0), refusedInj := w1cBit x.refusedInj (bitAt w 1) })
  else if off = 0x3000 then
    let s1 := s.modNoc d (fun x => { x with wrap := bitAt w 0 })
    if bitAt w 1 then s1.after (execTraceClear d) else s1
  else match bank off 0x1000 4 256, bank off 0x2000 0x40 16 with
    | some (i, _), _ => s.after (execNocRtWrite d (BitVec.ofNat 8 i) w)
    | none, some (q, o) => s.modNoc d (fun x => { x with probes := vmod x.probes (Fin.ofNat 16 q) (fun p => p.regWrite o w) })
    | none, none => s

/-- FAB_ID_WRITE: a write of FAB_ID, refused with ID_REFUSED while a port is ADMITTED or DEGRADED or a plan is
loaded (R234). -/
def State.putFabId (s : State) (w : Word) : State :=
  if s.ports.any Port.carries || !s.plans.isEmpty then s.fabEvent 6 0
  else s.modFab (fun b => { b with id := fld w 0 10, idValid := bitAt w 10 })

/-- FAB_ID_WRITE. -/
def execFabIdWrite (value : Word) (s : State) : Out := if !s.serving then .next s else .next (s.putFabId value)

/-- The FAB block's registers (R259). -/
def State.fabWrite (s : State) (off : Nat) (w : Word) : State :=
  let m (f : Fab → Fab) : State := s.modFab f
  if off = 0x00 then s.putFabId w
  else if off = 0x20 then m (fun b => { b with mgrId := fld w 0 10, mgrValid := bitAt w 10 })
  else if off = 0x30 then m (fun b => { b with inPort := fld w 0 4, inValid := bitAt w 4, outMask := fld w 16 12 })
  else if off = 0x34 then m (fun b => { b with delay := fld w 0 16 })
  else if off = 0x3C then
    m (fun b => { b with nextIn := fld w 0 4, nextInValid := bitAt w 4, nextOut := fld w 16 12, nextArm := bitAt w 31 })
  else if off = 0x40 then m (fun b => { b with geyserTo := w })
  else if off = 0x44 then m (fun b => { b with probeTo := fld w 0 24 })
  else if off = 0x48 then m (fun b => { b with event := w1c b.event (fld w 0 7) })
  else if off = 0x4C then m (fun b => { b with cfgOut := fld w 0 12 })
  else match bank off 0x1000 8 1024 with
    | some (d, o) => m (fun b =>
        { b with
          routes := tset (0 : BitVec 52) b.routes d
            (fld (putFld ((tget (0 : BitVec 52) b.routes d).setWidth 64) (8 * o) w : DWord) 0 52) })
    | none => s

/-! ### CP, CFG, SEC, PWR -/

/-- A base address of a ring: 4 KiB aligned, kept while the ring is enabled (R265). -/
def putBase (en : Bool) (b : DWord) (k : Nat) (w : Word) : DWord :=
  if en then b else putHalf b k (if k = 0 then w &&& 0xFFFFF000#32 else w)

/-- The CP block's registers (R263, R265, R269, R293). -/
def State.cpWrite (s : State) (off : Nat) (w : Word) : State :=
  if off = 0x10 then s.modCp (fun c => { c with bar4Ctx := fld w 0 8, bar4Base := fld w 8 8, bar4En := bitAt w 16 })
  else if off = 0x18 then s.modCp (fun c => { c with bar4Fail := w1cBit c.bar4Fail (bitAt w 0) })
  else if off = 0x7010 then s.modCp (fun c => { c with wdog := if nfld w 0 16 = 0 then c.wdog else fld w 0 16 })
  else match bank off 0x1000 0x20 64, bank off 0x2000 0x20 64 with
    | some (q, o), _ =>
      let q : Fin 64 := Fin.ofNat 64 q
      if o < 8 then s.modSq q (fun r => { r with base := putBase r.en r.base (o / 4) w })
      else if o = 8 then s.writeSqCtl q w
      else if o = 0x14 then s.modSq q (fun r => { r with dbErr := w1cBit r.dbErr (bitAt w 0) }) else s
    | none, some (q, o) =>
      let q : Fin 64 := Fin.ofNat 64 q
      if o < 8 then s.modCq q (fun r => { r with base := putBase r.en r.base (o / 4) w })
      else if o = 8 then s.modCq q (fun r => r.putCtl w)
      else if o = 0x14 then s.modCq q (fun r => { r with dbErr := w1cBit r.dbErr (bitAt w 1) }) else s
    | none, none => s.streamWrite (fun i => .cp (Fin.ofNat 32 i)) 32 true off w

/-- The CFG block's registers (R358). -/
def State.cfgRegWrite (s : State) (off : Nat) (w : Word) : State :=
  let m (f : Cfg → Cfg) : State := s.modCfg f
  if off = 0x10 then m (fun c => { c with cfgInPort := fld w 0 4, cfgInValid := bitAt w 4, cfgInId := fld w 16 10 })
  else if off = 0x14 then m (fun c => { c with streamTo := if nfld w 0 24 = 0 then c.streamTo else fld w 0 24 })
  else if off = 0x1C then m (fun c => { c with event := w1c c.event (fld w 0 8) })
  else if off = 0x100 then m (fun c => { c with scrubEn := bitAt w 0, isolateDed := bitAt w 1 })
  else match bank off 0x40 4 12 with
    | some (p, _) => m (fun c => { c with outId := vset c.outId (Fin.ofNat 12 p) (fld w 0 10) })
    | none => s

/-- The SEC block's registers (R371, R383). -/
def State.secWrite (s : State) (who : Who) (off : Nat) (w : Word) : State :=
  if off = 0x04 then s.modSec (fun c => { c with event := w1c c.event (fld w 0 4) })
  else if off = 0x20 ∧ who ≠ .other then s.partitionReset w else s

/-- The PWR block's registers (R404). -/
def State.pwrWrite (s : State) (off : Nat) (w : Word) : State :=
  if off = 0x04 then s.modPwr (fun p => { p with event := w1c p.event (fld w 0 12) })
  else if off = 0x0C then
    s.modPwr (fun p => { p with vop := if 600 ≤ nfld w 0 10 ∧ nfld w 0 10 ≤ 850 then fld w 0 10 else p.vop })
  else if off = 0x10 then s.modPwr (fun p => p.putIlim (fld w 0 16))
  else if off = 0x404 then
    let s1 := if bitAt w 0 then s.after execEvtPop else s
    if bitAt w 1 then s1.after execEvtClear else s1
  else s

/-! ### The whole map -/

/-- A write of one word at which a register stands. -/
def State.putWord (s : State) (who : Who) (win : Win) (off : Nat) (w : Word) : State × Bool :=
  match win with
  | .glb => (s.glbWrite off w, false)
  | .pwr => (s.pwrWrite off w, false)
  | .sec => (s.secWrite who off w, false)
  | .cp => (s.cpWrite off w, false)
  | .cfg => (s.cfgRegWrite off w, false)
  | .fab => (s.fabWrite off w, false)
  | .noc d => (s.nocWrite d off w, false)
  | .lnk p => (s.lnkWrite p off w, false)
  | .hbm k => (s.hbmWrite k off w, false)
  | .plr r => (s.plrWrite r off w, false)
  | .cal n => (s.calWrite n off w).getD (s, false)
  | .lnkAll | .hbmAll | .plrAll | .calAll | .calGroup _ => (s, false)

/-- The order in which the words of one packet take effect: the word that submits a stream descriptor comes last, so
that all of them act together (R135, R303). -/
def packetOrder (win : Win) (off : Nat) (ws : List (Nat × Word)) : List (Nat × Word) :=
  let slots := match win with
    | .cal _ => 64
    | .cp => 32
    | _ => 0
  match bank off 0x4000 0x40 slots with
  | some (_, 0) => ws.drop 1 ++ ws.take 1
  | _ => ws

/-- A write of consecutive words in a unit's window: its status and the state after it. The first word decides
whether a register stands and answers; a dropped word makes the whole write WR_DROPPED. -/
def State.winWrite (s : State) (who : Who) (win : Win) (off : Nat) (ws : List Word) : Nat × State :=
  let first := s.winRead win off
  if first.1 ≠ 0 then (first.1, s)
  else
    let r := (packetOrder win off ((List.range ws.length).zip ws)).foldl (fun (r : Bool × State) x =>
      let o := off + 4 * x.1
      if (r.2.winRead win o).1 = 0 then
        let t := r.2.putWord who win o x.2
        (r.1 || t.2, t.1)
      else r) (false, s)
    (if r.1 then 1 else 0, r.2)

/-- What follows the answer of a write: GLB_RESET begins its reset (R306). -/
def State.afterWrite (s : State) (status a : Nat) (ws : List Word) : State :=
  if a = 0x20 ∧ status = 0 then s.glbReset (ws.getD 0 0) else s

end Sys2Proof.Machine
end

