-- ==== Sys2Proof/Machine/Fanout.lean ====
section
/-! DEFINITION. Accesses to BAR0 by address: unit windows, and the broadcast and group windows of the fan-out unit (R261,
R295 to R303). -/

namespace Sys2Proof.Machine

/-- The partition that holds the unit of a node. -/
def State.nodePart (s : State) (n : BitVec 9) : Option (Fin 8) :=
  match nodeIndex n with
  | none => none
  | some i =>
    (List.finRange 8).find? (fun p =>
      let x : Part := s.sec.parts[p]
      x.valid && (if i < 0x40 then x.cals.getLsbD i
        else if i < 0x4C then x.ports.getLsbD (i - 0x40)
        else decide (0x60 ≤ i) && decide (i < 0x70) && x.regions.getLsbD (i - 0x60)))

/-- A request of a context's work to another partition's unit (R361). -/
def State.foreign (s : State) (src dst : BitVec 9) : Bool :=
  match (s.nodeCtx src).bind (fun c => (tfind s.sec.ctxs c.toNat).map (·.part)), s.nodePart dst with
  | some p, some q => p != q
  | _, _ => false

/-- A register access lies in one aligned unit of 16 bytes, and its address belongs to the node. -/
def accessFits (n : BitVec 9) (d : Data256) : Bool :=
  npAddr d % 4 == 0 && decide (npAddr d % 16 / 4 + npLen d ≤ 4) && (addrRoute (npAddr d)).bind rtTarget == some n

/-- The words of a request. -/
def npWords (d : Data256) : List Word := (List.range (npLen d)).map (fun i => fld (npData d) (32 * i) 32)

/-- A window's offset that falls on user registers. -/
def userWin (win : Win) (off : Nat) : Option (Fin 16) := match win with
  | .plr r => if 0xC000 ≤ off then some r else none
  | _ => none

/-- A read of `n` words in a unit's window: status and data. -/
def State.unitRead (s : State) (win : Win) (off n : Nat) : Nat × BitVec 128 :=
  ((s.winRead win off).1, (List.range n).foldl (fun (v : BitVec 128) k => v ||| at_ 128 (32 * k) (s.winRead win (off + 4 * k)).2) 0)

/-- A read of `n` words at a BAR0 address of a unit's window. -/
def State.readAt (s : State) (a n : Nat) : Nat × BitVec 128 := match winOf a with
  | none => (3, 0)
  | some (win, off) => s.unitRead win off n

/-- A write of words at a BAR0 address of a unit's window: status and state. -/
def State.writeAt (s : State) (who : Who) (a : Nat) (ws : List Word) : Nat × State := match winOf a with
  | none => (3, s)
  | some (win, off) => s.winWrite who win off ws

/-- Who writes by a packet. -/
def whoOf (src : BitVec 9) : Who := if src = pcieNode then .host else if src = mcNode then .manager else .other

/-- The members of a broadcast or group window (R296, R301); none for a unit's window. -/
def State.members (s : State) (win : Win) : Option (List Win) := match win with
  | .lnkAll => some ((List.finRange 12).map .lnk)
  | .hbmAll => some ((List.finRange 8).map .hbm)
  | .plrAll => some ((List.finRange 16).map .plr)
  | .calAll => some ((List.finRange 64).map .cal)
  | .calGroup g => some (((List.finRange 64).filter (fun n => (s.glb.groupMask[g]).getLsbD n.val)).map .cal)
  | _ => none

/-- The node of a unit's window; the global node for the windows that are no unit's. -/
def Win.node : Win → BitVec 9
  | .lnk p => portNode p.val
  | .hbm k => stackNode k.val
  | .plr r => regionNode r.val
  | .cal n => calNode n.val
  | _ => glbNode

/-- The index of a unit's window within its kind. -/
def Win.index : Win → Nat
  | .lnk p => p.val
  | .hbm k => k.val
  | .plr r => r.val
  | .cal n => n.val
  | _ => 0

/-- Whether an address falls in a broadcast or group window. -/
def fanAddr (a : Nat) : Bool := match winOf a with
  | some (.lnkAll, _) | some (.hbmAll, _) | some (.plrAll, _) | some (.calAll, _) | some (.calGroup _, _) => true
  | _ => false

/-! ### The fan-out unit (R297 to R300) -/

/-- The register of a member that a broadcast or group address reaches. -/
def fanOffset (d : Data256) : Nat := ((winOf (npAddr d)).map (·.2)).getD 0

/-- The access reads. -/
def FanJob.reads (j : FanJob) : Bool := hdType j.hdr == 0

/-- A member's answer taken into an access (R298 to R300). -/
def FanJob.answered (j : FanJob) (m : BitVec 9) (status : Nat) (value : BitVec 128) : FanJob :=
  { j with waiting := j.waiting.erase m, status := max j.status status, value := j.value ||| value }

/-- The access on one member's registers, as a unicast access of the same initiator (R298, R299, R361). -/
def State.memberAccess (s : State) (j : FanJob) (m : Win) : State × Nat × BitVec 128 :=
  if s.foreign (hdSrc j.hdr) m.node then (s, 4, 0)
  else if j.reads then (s, s.unitRead m (fanOffset j.data) (npLen j.data))
  else
    let r := s.winWrite (whoOf (hdSrc j.hdr)) m (fanOffset j.data) (npWords j.data)
    (r.2, r.1, 0)

/-- The status with which a region's gateway answers a request itself: it comes from another partition, the region is
isolated, or the request is one to user registers from a confidential context that does not hold the region (R326, R328,
R361). -/
def State.gatewayRefuses (s : State) (r : Fin 16) (h : Word) : Option Nat :=
  if s.foreign (hdSrc h) (regionNode r.val) then some 4
  else if (s.regions[r]).isolated then some 3
  else if hdType h < 2 ∧ ((s.nodeCtx (hdSrc h)).map (fun c => s.ctxConf c && !(s.regions[r]).owners.contains c)).getD false then some 4
  else none

/-- The member request of an access: on registers it acts and is answered; on a region's user registers the gateway
answers it, or the request waits for the logic as one from the same initiator (R298, R328). -/
def fanOne (lost : List Byte) (x : State × FanJob) (m : Win) : State × FanJob :=
  let s := x.1
  let j := x.2
  if lost.contains (BitVec.ofNat 8 m.index) then x
  else match userWin m (fanOffset j.data) with
    | none =>
      let r := s.memberAccess j m
      (r.1, j.answered m.node r.2.1 r.2.2)
    | some r => match s.gatewayRefuses r j.hdr with
      | some st => (s, j.answered m.node st 0)
      | none => (s.modRegion r (fun q => { q with rxq := q.rxq ++ [(j.hdr, j.data)] }), j)

/-- An access whose members have all answered, or that waits for none: the unit answers its initiator (R298, R300, R302). -/
def State.fanEnd (s : State) (j : FanJob) : State :=
  let s1 : State := { s with fan := none }
  if j.host then s1.hostOutcome (!j.reads) (BitVec.ofNat 32 (npAddr j.data)) (npLen j.data) j.status j.value
  else s1.respond glbNode j.hdr j.data j.status j.value

/-- An access goes on, or ends once no member is waited for. -/
def State.fanSettle (s : State) (j : FanJob) : State := if j.waiting.isEmpty then s.fanEnd j else { s with fan := some j }

/-- The fan-out unit starts an access: every member gets its request; those in `lost` do not answer (R297, R298). -/
def State.fanStart (s : State) (host : Bool) (h : Word) (d : Data256) (lost : List Byte) : State :=
  let job (l : List (BitVec 9)) (status : Nat) : FanJob :=
    { host := host, hdr := h, data := d, members := l, waiting := l, status := status, value := 0, since := s.now }
  match winOf (npAddr d) with
  | none => s.fanEnd (job [] 3)
  | some (win, off) => match s.members win with
    | none => s.fanEnd (job [] 3)
    | some l =>
      if s.winOpen win off then
        let x := l.foldl (fanOne lost) (s, job (l.map Win.node) 0)
        x.1.fanSettle x.2
      else s.fanEnd (job [] 3)

/-- A member answers late, in its turn: the logic's or the gateway's answer to a request of the access under way. -/
def State.fanAnswer (s : State) (m : BitVec 9) (p : Word × Data256) (status : Nat) (value : BitVec 128) : State :=
  match s.fan with
  | some j => if (j.hdr, j.data) = p ∧ j.waiting.contains m then s.fanSettle (j.answered m status value) else s
  | none => s

/-- A member holds the reads that reach it: a write through its window is on, and the member has performed it (R298). -/
def State.readHeld (s : State) (m : BitVec 9) : Bool := match s.fan with
  | some j => !j.reads && j.members.contains m && !j.waiting.contains m
  | none => false

/-! ### Accesses of the host (R261, R302) -/

/-- Whether an address falls on a region's user registers, in its own window or by broadcast. -/
def userOff (a : Nat) : Bool := match winOf a with
  | some (.plr _, off) | some (.plrAll, off) => decide (0xC000 ≤ off)
  | _ => false

/-- The node that a register address selects (R166). -/
def State.addrNode (s : State) (a : Nat) : BitVec 9 := fld (((addrRoute a).map s.rtEntry).getD 0) 0 9

/-- An access that travels as a packet in the model: one of user registers, and one whose route entry has been given
another destination (R166, R328). -/
def State.byPacket (s : State) (a : Nat) : Bool :=
  s.serving && s.sec.lifecycle != 4 && (userOff a || ((addrRoute a).bind rtTarget).any (fun n => n != s.addrNode a))

/-- The bytes and the words of an access. -/
def accessBytes : AccessSize → Nat
  | .b8 => 1 | .b16 => 2 | .b32 => 4 | .b64 => 8
def accessWords : AccessSize → Nat
  | .b64 => 2 | _ => 1

/-- A size that the registers accept, and an address aligned to it, while the host port serves (R261). -/
def State.hostMay (s : State) (addr : Word) (size : AccessSize) : Bool :=
  s.hostUp && decide (4 ≤ accessBytes size) && addr.toNat % accessBytes size == 0

/-- The data of a request of `n` words at an address. -/
def reqData (a n : Nat) (ws : BitVec 128) : Data256 := natAt 256 0 a ||| natAt 256 44 (n - 1) ||| at_ 256 128 ws

/-- A host access of a unit's registers performed, with its outcome. -/
def State.hostUnit (s : State) (addr : Word) (isRead : Bool) (n : Nat) (value : DWord) : State :=
  if isRead then
    let r := s.readAt addr.toNat n
    s.hostOutcome false addr n r.1 r.2
  else
    let ws := npWords (reqData addr.toNat n (value.setWidth 128))
    let r := s.writeAt .host addr.toNat ws
    (r.2.hostOutcome true addr n r.1 0).afterWrite r.1 addr.toNat ws

/-- A host access of BAR0 as a request of the PCIe node: it waits while R170 holds it back, its members are busy with a
fan-out access, or the node holds its reads (R170, R297, R298, R302). -/
def State.hostAccess (s : State) (addr : Word) (isRead : Bool) (size : AccessSize) (value : DWord) : Out :=
  let a := addr.toNat
  let n := accessWords size
  let d := reqData a n (if isRead then 0 else value.setWidth 128)
  if s.byPacket a then execNocRequest pcieNode 0 (if isRead then 0 else 1) d s
  else if s.mustWait pcieNode (s.addrNode a) then .next s
  else if fanAddr a then
    if s.fan.isSome then .next s
    else .next (s.fanStart true (mkHeader glbNode pcieNode (if isRead then 0 else 1) 0) d [])
  else if isRead ∧ s.readHeld (s.addrNode a) then .next s
  else .next (s.hostUnit addr isRead n value)

/-- REGISTER_WRITE: a BAR0 write of the host, with its outcome; one of another size is dropped (R261, R302). -/
def execRegisterWrite (addr : Word) (size : AccessSize) (value : DWord) (s : State) : Out :=
  if s.hostMay addr size then s.hostAccess addr false size value else .next s

/-- BROADCAST_WRITE: a host write through a broadcast or group window acts on every member and is answered once (R296
to R298, R300). -/
def execBroadcastWrite (addr : Word) (size : AccessSize) (value : DWord) (s : State) : Out :=
  if s.hostMay addr size ∧ fanAddr addr.toNat then s.hostAccess addr false size value else .next s

/-- BROADCAST_READ: a host read of BAR0; through a broadcast or group window it returns the OR of the members' values
(R296, R299, R300), elsewhere the register, or 0 where none stands (R295, R302; log 124); one of another size or alignment, or in D3hot,
completes with Unsupported Request (R260, R261). -/
def execBroadcastRead (read : HostRead) (s : State) : Out :=
  if !s.portUp then .next s
  else if s.hostMay read.addr read.size then s.hostAccess read.addr true read.size 0
  else .next (s.emit .unsupported)

/-! ### Members that do not answer (R172, R300) -/

/-- The unit window of a node. -/
def nodeWin (n : BitVec 9) : Option Win := match nodeIndex n with
  | none => none
  | some i =>
    if i < 0x40 then some (.cal (Fin.ofNat 64 i)) else if i < 0x4C then some (.lnk (Fin.ofNat 12 (i - 0x40)))
    else if 0x50 ≤ i ∧ i < 0x58 then some (.hbm (Fin.ofNat 8 (i - 0x50)))
    else if 0x60 ≤ i ∧ i < 0x70 then some (.plr (Fin.ofNat 16 (i - 0x60)))
    else none

/-- A member's timer has run out: FANOUT_TIMEOUT is set, and the first member that it names is kept (R300). -/
def State.loseMember (s : State) (m : BitVec 9) : State :=
  s.modGlb (fun g =>
    if bitAt g.accessErr 4 then g
    else { g with accessErr := g.accessErr ||| 0x10, fanoutMember := BitVec.ofNat 8 (((nodeWin m).map Win.index).getD 0) })

/-- A write on a member that does not answer may have been performed (R172). -/
def State.lostWrite (s : State) (j : FanJob) (m : BitVec 9) : State :=
  let x := s.draw
  match nodeWin m with
  | some w => if !j.reads ∧ bitAt x.1 0 ∧ (userWin w (fanOffset j.data)).isNone then (x.2.memberAccess j w).1 else x.2
  | none => x.2

/-- The timers of the members that are still waited for have run out: each counts as WR_DROPPED and contributes all ones
to a read; a failed host access leaves its address (R300, R302). -/
def State.fanExpire (s : State) (j : FanJob) : State :=
  let s1 := j.waiting.foldl (fun (s : State) m => (s.lostWrite j m).loseMember m) s
  let s2 := if j.host then s1.accessFail 4 (BitVec.ofNat 32 (npAddr j.data)) else s1
  s2.fanEnd { j with waiting := [], status := max 1 j.status
                     value := if j.reads then BitVec.ofNat 128 (2 ^ (32 * npLen j.data) - 1) else 0 }

/-- A request that waits at the fan-out unit and reaches some of the members named. -/
def State.fanMeets (s : State) (lost : List Byte) (d : Data256) : Bool :=
  match winOf (npAddr d) with
  | none => false
  | some (win, off) => s.winOpen win off && ((s.members win).getD []).any (fun m => lost.contains (BitVec.ofNat 8 m.index))

/-- FANOUT_TIMEOUT: an access starts whose members `lost` do not answer; once half of NOC_TIMEOUT has passed since the
member requests were sent, the members that are still waited for are given up (R297, R300). -/
def execFanoutTimeout (addr : Option Word) (lost : List Byte) (isRead : Bool) (size : AccessSize) (value : DWord) (s : State) : Out :=
  match s.fan with
  | some j => if j.since + (s.noc[0] : NocDie).timeout.toNat / 2 ≤ s.now then .next (s.fanExpire j) else .next s
  | none => match addr with
    | some a =>
      let d := reqData a.toNat (accessWords size) (if isRead then 0 else value.setWidth 128)
      if !s.hostMay a size ∨ s.byPacket a.toNat ∨ s.mustWait pcieNode (s.addrNode a.toNat) ∨ !s.fanMeets lost d then .next s
      else .next (s.fanStart true (mkHeader glbNode pcieNode (if isRead then 0 else 1) 0) d lost)
    | none => match (s.iface glbNode).rxq.find? (fun p => decide (hdType p.1 < 2) && accessFits glbNode p.2 && fanAddr (npAddr p.2)) with
      | none => .next s
      | some p =>
        if s.fanMeets lost p.2 then
          .next ((s.modIface glbNode (fun i => { i with rxq := i.rxq.erase p })).fanStart false p.1 p.2 lost)
        else .next s

end Sys2Proof.Machine
end

