-- ==== Sys2Proof/Machine/Fabric.lean ====
section
/-! DEFINITION. Probes and discovery (R234 to R239), management packets between devices (R256, R394 to R396), and remote
accesses of device virtual memory (R258, R286, R370). -/

namespace Sys2Proof.Machine

/-! ### Probe payloads (R236) -/

def pbOp (p : BitVec 1920) : Nat := nfld p 0 4
def pbHops (p : BitVec 1920) : Nat := nfld p 4 4
def pbHop (p : BitVec 1920) : Nat := nfld p 8 4
def pbFollow (p : BitVec 1920) : Bool := bitAt p 12
def pbReq (p : BitVec 1920) : Word := rfld p 4 0 32
def pbRoute (p : BitVec 1920) (k : Nat) : Nat := nfld p (64 + 4 * k) 4
def pbBack (p : BitVec 1920) (k : Nat) : Nat := nfld p (128 + 4 * k) 4
def pbOrig (p : BitVec 1920) : BitVec 10 := rfld p 0x18 0 10
def pbOrigValid (p : BitVec 1920) : Bool := bitAt p (8 * 0x18 + 10)
def pbTarget (p : BitVec 1920) : BitVec 10 := rfld p 0x18 16 10
def pbBeat (p : BitVec 1920) : DWord := rfld p 0x20 0 64
def pbAddr (p : BitVec 1920) : Nat := rnum p 0x28 0 32
def pbData (p : BitVec 1920) : Word := rfld p 0x2C 0 32

def pbOK : Nat := 0
def pbNO_PORT : Nat := 1
def pbDENIED : Nat := 2
def pbLOOP : Nat := 3
def pbDECODE : Nat := 4

/-- The answer to a probe: bytes 0x00 to 0x1F copied, the status, and the fields that the operation defines. -/
def probeAnswer (p : BitVec 1920) (status : Nat) (fields : BitVec 1920) : BitVec 1920 :=
  putFld (at_ 1920 0 (fld p 0 256)) 16 (BitVec.ofNat 8 status) ||| fields

/-- The arrival port entered into BACK at the hop just taken (R237; log 36). -/
def probeArrived (p : BitVec 1920) (port : Fin 12) : BitVec 1920 :=
  if pbHop p = 0 ∨ 12 < pbHop p then p else putFld p (128 + 4 * (pbHop p - 1)) (BitVec.ofNat 4 port.val)

/-- What a device does with a probe (R234, R237). -/
inductive ProbeStep where
  | forward (port : Fin 12) (p : BitVec 1920)
  | answer (status : Nat)
  | perform (op : Nat)
deriving DecidableEq, Repr

/-- A port that a probe may leave by. -/
def State.probePort (s : State) (k : Nat) : Option (Fin 12) :=
  (fin? 12 k).bind (fun p => if s.ports[p].up then some p else none)

/-- The step of a probe on this device. -/
def State.probeStep (s : State) (p : BitVec 1920) : ProbeStep :=
  let hop := pbHop p
  if !pbFollow p then
    if hop < pbHops p then
      match s.probePort (pbRoute p hop) with
      | some q => .forward q (putFld p 8 (BitVec.ofNat 4 (hop + 1)))
      | none => .answer pbNO_PORT
    else .perform (pbOp p)
  else if !s.fab.idValid then .answer pbNO_PORT
  else if s.fab.id = pbTarget p then .perform (pbOp p)
  else if 12 ≤ hop then .answer pbLOOP
  else
    match (s.routePort (pbTarget p)).bind (fun q => s.probePort q.val) with
    | some q =>
      .forward q (putFld (putFld (putFld p (64 + 4 * hop) (BitVec.ofNat 4 q.val)) 8 (BitVec.ofNat 4 (hop + 1))) 4
        (BitVec.ofNat 4 (pbHops p + 1)))
    | none => .answer pbNO_PORT

/-- FABRIC_DISCOVER completes with the answer to its probe (R239). -/
def State.discovered (s : State) (p : BitVec 1920) : State :=
  match s.fab.probesOut.find? (fun a => a.tag == pbReq p) with
  | none => s
  | some a =>
    let s1 := s.modFab (fun b => { b with probesOut := b.probesOut.erase a })
    match s1.findCmd a.cmd with
    | none => s1
    | some k =>
      (s1.emit (.write (rfld k.packet 0x40 0 64) (toBytes p 240) false false)).complete a.cmd 0 0 (natAt 32 0 (nfld p 16 8)) 0

/-- A flit of the probe protocol put on a port, and counted as forwarded when it came from another device. -/
def State.passProbe (s : State) (arrival : Option (Fin 12)) (port : Fin 12) (f : Data2048) : State :=
  let s1 := s.sendOn port arrival f
  if arrival.isSome then s1.modFab (fun b => { b with fwdCnt := satInc b.fwdCnt }) else s1

/-- An answer on its way back: at HOP 0 it has reached its originator, else its flit leaves on the port at HOP − 1 with
the header it arrived with (R237, R240). -/
def State.probeBack (s : State) (arrival : Option (Fin 12)) (fl : Data2048) : State :=
  let p := flPayload fl
  let taken (s : State) : State := match arrival with
    | some a => s.modPort a (fun q => q.release (Fin.ofNat 4 (flVc fl)))
    | none => s
  if pbHop p = 0 then (taken s).discovered p
  else
    match (if pbHop p ≤ 12 then s.probePort (pbBack p (pbHop p - 1)) else none) with
    | some q => s.passProbe arrival q (putFld fl 64 (putFld p 8 (BitVec.ofNat 4 (pbHop p - 1))))
    | none => (taken s).dropProbe

/-- This device answers a probe. -/
def State.answerProbe (s : State) (p : BitVec 1920) (status : Nat) (fields : BitVec 1920) : State :=
  s.probeBack none (mkFlit 0 s.fab.id 2 0xA 0 false (probeAnswer p status fields))

/-! ### Probe operations (R238, R239) -/

/-- WRITE and SYNC are accepted from an originator that this rule admits (R239). -/
def State.probeMay (s : State) (p : BitVec 1920) : Bool :=
  !s.fab.mgrValid || (pbOrigValid p && pbOrig p == s.fab.mgrId)

/-- The window of an address that a probe may read: the FAB, LNK and GLB blocks. -/
def probeReads (a : Nat) : Bool := match winOf a with
  | some (.glb, _) | some (.fab, _) | some (.lnk _, _) => a % 4 == 0
  | _ => false

/-- The addresses at which a probe WRITE is accepted (R239). -/
def probeWrites (a : Nat) : Bool := a % 4 == 0 && (match winOf a with
  | some (.fab, off) =>
    off == 0 || off == 0x20 || (decide (0x30 ≤ off) && decide (off ≤ 0x40)) || off == 0x4C || off == 0x58 || off == 0x5C
      || (decide (0x1000 ≤ off) && decide (off < 0x3000))
  | some (.lnk _, off) => off == 0 || (decide (0x200 ≤ off) && decide (off < 0x280))
  | _ => false)

/-- The identity of this device as IDENTIFY answers it. -/
def State.identity (s : State) : BitVec 1920 :=
  let base : BitVec 1920 := at_ 1920 (8 * 0x30) s.fab.uid ||| at_ 1920 (8 * 0x40) s.fab.id ||| flagAt 1920 (8 * 0x40 + 10) s.fab.idValid
    ||| at_ 1920 (8 * 0x40 + 16) s.fab.mgrId ||| flagAt 1920 (8 * 0x40 + 26) s.fab.mgrValid
  (List.finRange 12).foldl (fun (v : BitVec 1920) p =>
    let q : Port := s.ports[p]
    let o := 8 * (0x48 + 10 * p.val)
    v ||| natAt 1920 o q.st.code ||| at_ 1920 (o + 8) q.partner ||| at_ 1920 (o + 72) q.partnerPort) base

/-- IDENTIFY. -/
def State.probeIdentify (s : State) (p : BitVec 1920) : State := s.answerProbe p pbOK s.identity

/-- READ. -/
def State.probeRead (s : State) (p : BitVec 1920) : State :=
  if !probeReads (pbAddr p) then s.answerProbe p pbDECODE 0
  else
    let r := s.readReg (pbAddr p)
    if r.1 = 0 then s.answerProbe p pbOK (at_ 1920 (8 * 0x2C) r.2) else s.answerProbe p pbDECODE 0

/-- WRITE; a refusal of FAB_ID answers DENIED (R234). -/
def State.probeWrite (s : State) (p : BitVec 1920) : State :=
  if !probeWrites (pbAddr p) then s.answerProbe p pbDECODE 0
  else if !s.probeMay p then s.answerProbe p pbDENIED 0
  else
    let refused := pbAddr p = 0x100000 ∧ (s.ports.any Port.carries || !s.plans.isEmpty)
    let r := s.writeAt .other (pbAddr p) [pbData p]
    r.2.answerProbe p (if r.1 ≠ 0 then pbDECODE else if refused then pbDENIED else pbOK) 0

/-- GLB_BEAT_CNT loaded: the pulses under way count on from it (R23, R238). -/
def Glb.loadBeat (g : Glb) (beat : DWord) : Glb :=
  let d := beat - g.beatCnt
  { g with
    beatCnt := beat
    pulses := g.pulses.map (fun x => { x with beat := x.beat + d })
    source := { g.source with announced := g.source.announced.map (fun x => { x with beat := x.beat + d }) } }

/-- SYNC; admitted at a device that is not its own source, or that runs a plan, it loads nothing and answers OK, as no
status is named for that (DESIGN CHOICE, log 131). -/
def State.probeSync (s : State) (p : BitVec 1920) : State :=
  if !s.probeMay p then s.answerProbe p pbDENIED 0
  else if s.glb.isSource ∧ !s.runsAnyPlan then
    ((s.modGlb (fun g => g.loadBeat (pbBeat p))).fabEvent 4 0).answerProbe p pbOK 0
  else s.answerProbe p pbOK 0

/-- The operation of a probe on this device. -/
def State.probeOp (s : State) (p : BitVec 1920) (op : Nat) : State :=
  if op = 0 then s.probeIdentify p else if op = 1 then s.probeRead p else if op = 2 then s.probeWrite p
  else if op = 3 then s.probeSync p else s.answerProbe p pbDECODE 0

/-- A probe in the inbox that this device performs with one of the listed operations. -/
def State.isProbeFor (s : State) (mine : Nat → Bool) (e : Fin 12 × Data2048) : Bool :=
  flType e.2 == 9 && (match s.probeStep (probeArrived (flPayload e.2) e.1) with
    | .perform op => mine op
    | _ => false)

/-- The first probe in the inbox of a kind performed. -/
def State.doProbe (s : State) (mine : Nat → Bool) (f : State → BitVec 1920 → State) : Out :=
  let x := takeFlit (s.isProbeFor mine) s.fab.inbox
  match x.1 with
  | none => .next s
  | some (port, fl) => .next (f (s.tookFlit x.2 port fl) (probeArrived (flPayload fl) port))

/-- PROBE_IDENTIFY. -/
def execProbeIdentify (s : State) : Out := s.doProbe (fun op => op == 0) State.probeIdentify
/-- PROBE_READ. -/
def execProbeRead (s : State) : Out := s.doProbe (fun op => op == 1) State.probeRead
/-- PROBE_WRITE. -/
def execProbeWrite (s : State) : Out := s.doProbe (fun op => op == 2) State.probeWrite
/-- PROBE_SYNC. -/
def execProbeSync (s : State) : Out := s.doProbe (fun op => op == 3) State.probeSync

/-- PROBE_FORWARD: the first probe in the inbox that this device does not perform is forwarded, or answered NO_PORT, LOOP
or DECODE (R234, R237). -/
def execProbeForward (s : State) : Out :=
  let x := takeFlit (fun e => flType e.2 == 9 && !s.isProbeFor (fun op => decide (op ≤ 3)) e) s.fab.inbox
  match x.1 with
  | none => .next s
  | some (port, fl) =>
    let p := probeArrived (flPayload fl) port
    match s.probeStep p with
    | .forward q p1 => .next ((s.modFab (fun b => { b with inbox := x.2 })).passProbe (some port) q (putFld fl 64 p1))
    | .answer st => .next ((s.tookFlit x.2 port fl).answerProbe p st 0)
    | .perform _ => .next ((s.tookFlit x.2 port fl).answerProbe p pbDECODE 0)

/-- PROBE_RSP_RECEIVE: an answer retraces its path, or completes FABRIC_DISCOVER (R237, R239). -/
def execProbeRspReceive (s : State) : Out :=
  let x := takeFlit (fun e => flType e.2 == 0xA) s.fab.inbox
  match x.1 with
  | none => .next s
  | some (port, fl) => .next ((s.modFab (fun b => { b with inbox := x.2 })).probeBack (some port) fl)

/-- FABRIC_DISCOVER: sends one probe, whose BEAT is the count as it leaves (R236, R239; log 36). -/
def execFabricDiscover (cmd : Nat) (s : State) : Out :=
  s.withCmd cmd 0x70 (fun k =>
    let p : BitVec 1920 := putFld (at_ 1920 0 (rfld k.packet 0x10 0 384)) (8 * 0x20) s.glb.beatCnt
    let s1 := (s.begin k.serial).modFab (fun b =>
      { b with probesOut := b.probesOut ++ [{ tag := pbReq p, since := s.now, cmd := k.serial }] })
    match s.probeStep p with
    | .forward q p1 => s1.passProbe none q (mkFlit 0 (pbOrig p) 2 9 0 false p1)
    | .answer st => s1.discovered (probeAnswer p st 0)
    | .perform op => s1.probeOp p op)

/-- DISCOVER_TIMEOUT: no answer within FAB_PROBE_TO completes FABRIC_DISCOVER with NOT_FOUND (R239). -/
def execDiscoverTimeout (cmd : Nat) (s : State) : Out :=
  match s.fab.probesOut.find? (fun a => a.cmd == cmd) with
  | none => .next s
  | some a =>
    if a.since + s.fab.probeTo.toNat ≤ s.now then
      .next ((s.modFab (fun b => { b with probesOut := b.probesOut.erase a })).complete cmd 3 0 0 0)
    else .next s

/-! ### Management packets (R256) -/

def mgTag (p : BitVec 1920) : BitVec 10 := fld p 4 10
def mgAddr (p : BitVec 1920) : Nat := rnum p 4 0 32
def mgWords (p : BitVec 1920) : Nat := rnum p 8 0 6 + 1
def mgData (p : BitVec 1920) : List Word := (List.range (mgWords p)).map (fun k => rfld p (0x10 + 4 * k) 0 32)

/-- A REG_RSP payload. -/
def regRsp (tag : BitVec 10) (words status : Nat) (data : List Word) : BitVec 1920 :=
  natAt 1920 0 2 ||| at_ 1920 4 tag ||| natAt 1920 64 (words - 1) ||| natAt 1920 72 status
    ||| (data.zipIdx).foldl (fun (v : BitVec 1920) x => v ||| at_ 1920 (8 * (0x10 + 4 * x.2)) x.1) 0

/-- A MGMT flit sent to a device. -/
def State.sendMgmt (s : State) (dst : BitVec 10) (p : BitVec 1920) : State :=
  let x := s.sendTo none (mkFlit dst s.fab.id 2 0x08 0 false p)
  if x.2 then x.1.noteRouteDrop else x.1

/-- A device that may access registers over MGMT packets. -/
def State.isManager (s : State) (src : BitVec 10) : Bool := s.fab.mgrValid && src == s.fab.mgrId

/-- The accesses that a register request makes: one for each unit of 16 bytes (R165). -/
def mgUnits (a n : Nat) (ws : List Word) : List (Nat × Nat × List Word) :=
  (List.range ((a + 4 * n + 15) / 16 - a / 16)).map (fun k =>
    let lo := max a (16 * (a / 16 + k))
    let len := (min (a + 4 * n) (16 * (a / 16 + k) + 16) - lo) / 4
    (lo, len, (ws.drop ((lo - a) / 4)).take len))

/-- The first access of a request is answered: its status and data are taken in. -/
def MgJob.took (j : MgJob) (status : Nat) (value : BitVec 128) : MgJob :=
  let len := (j.left.head?.map (·.2.1)).getD 0
  { j with
    left := j.left.tail, status := max j.status status, asked := none
    data := if j.write then [] else j.data ++ (List.range len).map (fun i => if status < 2 then fld value (32 * i) 32 else 0)
    reset := match j.left.head? with
      | some (a, _, ws) => if j.write ∧ status = 0 ∧ a = 0x20 ∧ (ws.head?.map glbResets).getD false then ws.head? else j.reset
      | none => j.reset }

/-- Every access of a request is answered: one REG_RSP with the largest status (log 125); a reset that it asked for
follows (R256, R306). -/
def State.mcEnd (s : State) (j : MgJob) : State :=
  let p := regRsp j.tag j.words j.status j.data
  let s1 := (s.modFab (fun b => { b with job := none })).sendMgmt j.src p
  match j.reset with
  | some w => { s1 with resetDue := some (.flit (mkFlit j.src s.fab.id 2 0x08 0 false p), w) }
  | none => s1

/-- The management controller makes the accesses of its request in turn, as far as they go now: each waits while R170
holds it back, and those through the fan-out unit and to user registers travel as packets (R170, R256, R297, R328). -/
def State.mcAdvance : Nat → State → State
  | 0, s => s
  | n + 1, s => match s.fab.job with
    | none => s
    | some j =>
      let keep (s : State) (j : MgJob) : State := s.modFab (fun b => { b with job := some j })
      match j.asked, j.left with
      | some _, _ => s
      | none, [] => s.mcEnd j
      | none, (a, len, ws) :: _ =>
        if s.byPacket a ∨ fanAddr a then
          match s.issueNoc mcNode 0 (if j.write then 1 else 0)
            (reqData a len (ws.zipIdx.foldl (fun (v : BitVec 128) x => v ||| at_ 128 (32 * x.2) x.1) 0)) with
          | .waits => s
          | .ended status t => State.mcAdvance n (keep t (j.took status 0))
          | .sent tag t => keep t { j with asked := some tag }
        else if s.mustWait mcNode (s.addrNode a) ∨ (j.write = false ∧ s.readHeld (s.addrNode a)) then s
        else if j.write then
          let r := s.writeAt .manager a ws
          State.mcAdvance n (keep r.2 (j.took r.1 0))
        else
          let r := s.readAt a len
          State.mcAdvance n (keep s (j.took r.1 r.2))

/-- The accesses of a request go on: at most 56 words lie in 15 units. -/
def State.mcRun (s : State) : State := State.mcAdvance 16 s

/-- The first MGMT flit of a kind in the inbox handled. -/
def State.takeMgmt (s : State) (kind : Nat) (f : State → Data2048 → State) : Out :=
  let x := takeFlit (fun e => isMgmt kind e.2) s.fab.inbox
  match x.1 with
  | none => .next s
  | some (port, fl) => .next (f (s.tookFlit x.2 port fl) fl)

/-- A REG_RD or REG_WR that has arrived: refused, or performed as control-network requests (R165, R256). -/
def State.regStart (write : Bool) (s : State) (fl : Data2048) : State :=
  let p := flPayload fl
  if !s.isManager (flSrc fl) then s.sendMgmt (flSrc fl) (regRsp (mgTag p) (mgWords p) 4 [])
  else if 56 < mgWords p ∨ mgAddr p % 4 ≠ 0 then s.sendMgmt (flSrc fl) (regRsp (mgTag p) (mgWords p) 3 [])
  else
    let job : MgJob :=
      { src := flSrc fl, tag := mgTag p, write := write, words := mgWords p
        left := mgUnits (mgAddr p) (mgWords p) (if write then mgData p else [])
        status := 0, data := [], asked := none, reset := none }
    (s.modFab (fun b => { b with job := some job })).mcRun

/-- A register request is taken up when the one before it has been answered. -/
def State.takeReg (s : State) (kind : Nat) (write : Bool) : Out :=
  if s.fab.job.isSome then .next s.mcRun else s.takeMgmt kind (State.regStart write)

/-- MGMT_REG_RD. -/
def execMgmtRegRd (s : State) : Out := s.takeReg 0 false

/-- MGMT_REG_WR. -/
def execMgmtRegWr (s : State) : Out := s.takeReg 1 true

/-- MGMT_REG_RSP: an answer completes the request of this device that carries its tag. -/
def execMgmtRegRsp (s : State) : Out :=
  s.takeMgmt 2 (fun s fl =>
    match s.fab.mgmtOut.find? (fun a => a.tag == (mgTag (flPayload fl)).setWidth 32) with
    | some a => s.modFab (fun b => { b with mgmtOut := b.mgmtOut.erase a, mgmtIn := b.mgmtIn ++ [flPayload fl] })
    | none => s)

/-- MGMT_TIMEOUT: a request without an answer completes with ERR_TIMEOUT after FAB_PROBE_TO. -/
def execMgmtTimeout (tag : BitVec 10) (s : State) : Out :=
  match s.fab.mgmtOut.find? (fun a => a.tag == tag.setWidth 32) with
  | none => .next s
  | some a =>
    if a.since + s.fab.probeTo.toNat ≤ s.now then
      .next (s.modFab (fun b => { b with mgmtOut := b.mgmtOut.erase a, mgmtIn := b.mgmtIn ++ [regRsp tag a.len 0xF []] }))
    else .next s

/-- MGMT_EVENT: an event record arrives at the device that manages its sender. -/
def execMgmtEvent (s : State) : Out :=
  s.takeMgmt 5 (fun s fl => s.modFab (fun b => { b with mgmtIn := b.mgmtIn ++ [flPayload fl] }))

/-! ### Remote accesses (R258, R286) -/

def frDva (p : BitVec 1920) : Nat := nfld p 0 40
def frCtx (p : BitVec 1920) : Byte := fld p 40 8
def frLen (p : BitVec 1920) : Nat := nfld p 64 8 + 1
def frTag (p : BitVec 1920) : BitVec 16 := fld p 80 16
def frStatus (p : BitVec 1920) : Nat := nfld p 96 4
def frData (p : BitVec 1920) : List Byte := slice (toBytes p 240) 0x10 (frLen p)

/-- The parts of a remote access: address, length and place of each page. -/
def State.freeParts (s : State) (p : BitVec 1920) (write : Bool) : List (Nat × Nat × Xlat) :=
  (pageParts 2 (frDva p) (frLen p)).map (fun x =>
    (x.1, x.2, match s.xlate (some (frCtx p)) (x.1 : Int) write with
      | .host h true ns rlx =>
        if write ∨ ((tfind s.sec.ctxs (frCtx p).toNat).bind (·.modelKey)).isNone then .fault 2 0 else .host h true ns rlx
      | y => y))

/-- The first check that fails, in address order. -/
def partsFault : List (Nat × Nat × Xlat) → Option Nat
  | [] => none
  | (_, _, .fault c _) :: _ => some c
  | _ :: xs => partsFault xs

/-- Bytes that a remote read asks of the host: whole units on an encrypted page (R376). -/
def partHost (x : Nat × Nat × Xlat) : Nat := match x.2.2 with
  | .host _ enc _ _ => if enc then (x.1 % 256 + x.2.1 + 255) / 256 * 256 else x.2.1
  | _ => 0

/-- The parts of a remote read carried out; no bytes where a block failed every re-read. -/
def State.freeGather (s : State) (ctx : Byte) (fails : List BlockFail) : List (Nat × Nat × Xlat) → List Byte → State × Option (List Byte)
  | [], _ => (s, some [])
  | (a, n, x) :: xs, h =>
    let k := partHost (a, n, x)
    let r : State × Option (List Byte) := match x with
      | .stack dma => s.hubReads ctx fails hubFuel dma n
      | .host _ enc _ _ => (s, some (if enc then slice (hostUnits true (s.modelXts (some ctx)) (a - a % 256) (h.take k)) (a % 256) n else h.take k))
      | .fault _ _ => (s, some [])
    let y := r.1.freeGather ctx fails xs (h.drop k)
    (y.1, do let u ← r.2; let v ← y.2; pure (u ++ v))

/-- The parts of a remote write carried out; whether every block could be written. -/
def State.freePut (s : State) (ctx : Byte) (fails : List BlockFail) : List (Nat × Nat × Xlat) → List Byte → State × Bool
  | [], _ => (s, true)
  | (_, n, x) :: xs, d =>
    let r : State × Bool := match x with
      | .stack dma => let w := s.hubWrites ctx fails hubFuel dma (d.take n); (w.1, w.2.isSome)
      | .host h _ ns rlx => (s.emit (.write (BitVec.ofNat 64 h) (d.take n) ns rlx), true)
      | .fault _ _ => (s, true)
    let y := r.1.freePut ctx fails xs (d.drop n)
    (y.1, r.2 && y.2)

/-- A port whose flits are encrypted. -/
def State.encActive (s : State) (p : Fin 12) : Bool := s.ports[p].encrypt && s.ports[p].authDone

/-- An access that the device refuses: its context does not exist or is being scrubbed, which is counted, or it is
confidential and a port on the way is not encrypted (R258, R370). -/
def State.freeDenied (s : State) (arrival : Fin 12) (fl : Data2048) : Option Bool :=
  match tfind s.sec.ctxs (frCtx (flPayload fl)).toNat with
  | none => some true
  | some c =>
    if c.scrubbing then some true
    else if c.conf ∧ !(s.encActive arrival && ((s.routePort (flSrc fl)).map s.encActive).getD false) then some false
    else none

/-- A refusal recorded (R370). -/
def State.noteRefusal (s : State) (ctx : Byte) : State :=
  s.modSec (fun c => { c with refuseCnt := satInc c.refuseCnt, lastRefuse := 0x0041, lastRefuseCtx := ctx })

/-- The FREE_RSP of a request. -/
def State.freeAnswer (s : State) (fl : Data2048) (status : Nat) (data : List Byte) : State :=
  let p := flPayload fl
  let x := s.sendTo none (freeFlit s (flSrc fl) 6 0 (frCtx p) (frLen p) (frTag p) status data)
  if x.2 then x.1.noteRouteDrop else x.1

/-- A remote read answered: its data, or DATA where a block failed (R200, R258). -/
def State.freeReadAnswer (s : State) (fl : Data2048) (fails : List BlockFail) (parts : List (Nat × Nat × Xlat)) (h : List Byte) : State :=
  let r := s.freeGather (frCtx (flPayload fl)) fails parts h
  match r.2 with
  | some b => r.1.freeAnswer fl 0 b
  | none => r.1.freeAnswer fl 3 []

/-- A remote access served; it waits in the inbox while the host has not delivered what it reads. -/
def State.serveFree (s : State) (write : Bool) (io : HostIO) (fails : List BlockFail) : Out :=
  let x := takeFlit (fun e => flType e.2 == (if write then 4 else 5)) s.fab.inbox
  match x.1 with
  | none => .next s
  | some (port, fl) =>
    let s1 := s.tookFlit x.2 port fl
    let p := flPayload fl
    match s.freeDenied port fl with
    | some counted => .next ((if counted then s1.noteRefusal (frCtx p) else s1).freeAnswer fl 6 [])
    | none =>
      let parts := s.freeParts p write
      if 224 < frLen p then .next (s1.freeAnswer fl 5 [])
      else match partsFault parts with
        | some c => .next (s1.freeAnswer fl c [])
        | none =>
          let need := (parts.map partHost).sum
          if write then
            let r := s1.freePut (frCtx p) fails parts (frData p)
            .next (r.1.freeAnswer fl (if r.2 then 0 else 3) [])
          else if need = 0 then .next (s1.freeReadAnswer fl fails parts [])
          else match io with
            | .none => .next s
            | .error => .next (s1.freeAnswer fl 4 [])
            | .data b => if b.length = need then .next (s1.freeReadAnswer fl fails parts b) else .next s

/-- FREE_WR. -/
def execFreeWr (fails : List BlockFail) (s : State) : Out := s.serveFree true .none fails
/-- FREE_RD. -/
def execFreeRd (io : HostIO) (fails : List BlockFail) (s : State) : Out := s.serveFree false io fails

/-- The fault cause of a FREE status (R286). -/
def freeCause (status : Nat) : Nat := if status = 6 then 2 else if 1 ≤ status ∧ status ≤ 5 then status else 4

/-- FREE_RSP: an answer moves its COPY on, or halts its stream with the cause of its status (R286). -/
def execFreeRsp (s : State) : Out :=
  let x := takeFlit (fun e => flType e.2 == 6) s.fab.inbox
  match x.1 with
  | none => .next s
  | some (port, fl) =>
    let s1 := s.tookFlit x.2 port fl
    let p := flPayload fl
    match s.fab.freeOut.find? (fun a => a.tag == (frTag p).setWidth 32) with
    | none => .next s1
    | some a =>
      let s2 := s1.modFab (fun b => { b with freeOut := b.freeOut.erase a })
      match a.slot with
      | none => .next s2
      | some r =>
        if a.epoch ≠ (s.stm r).epoch then .next s2
        else if frStatus p ≠ 0 then .next (s2.haltStream r (freeCause (frStatus p)) a.vpn)
        else if a.write then .next (s2.accepted r a.len)
        else .next (s2.feed r (slice (toBytes p 240) 0x10 a.len))

/-- FREE_RSP_TIMEOUT: a request without an answer within FAB_PROBE_TO halts its stream with cause HOST (R286). -/
def execFreeRspTimeout (tag : BitVec 16) (s : State) : Out :=
  match s.fab.freeOut.find? (fun a => a.tag == tag.setWidth 32) with
  | none => .next s
  | some a =>
    if a.since + s.fab.probeTo.toNat ≤ s.now then
      let s1 := s.modFab (fun b => { b with freeOut := b.freeOut.erase a })
      match a.slot with
      | some r => if a.epoch = (s.stm r).epoch then .next (s1.haltStream r 4 a.vpn) else .next s1
      | none => .next s1
    else .next s

end Sys2Proof.Machine
end

