-- ==== Sys2Proof/Machine/Deliver.lean ====
section
/-! DEFINITION. What a node does with the requests that reach it and with the answers to its own (R164, R165, R171, R172,
R295, R326 to R328, R333, R361). -/

namespace Sys2Proof.Machine

/-- A CFG packet from the configuration controller belongs to the node of its frame. -/
def cfgFits (n src : BitVec 9) (far : Word) : Bool :=
  src == ccNode && farValid far
    && (if farClass far < 2 then n == regionNode (farRegion far).val else n == nocNode (min 1 (farMajor far)))

/-- A request performed: the state, its status and the data of its answer. -/
def State.perform (s : State) (n : BitVec 9) (h : Word) (d : Data256) : State × Nat × BitVec 128 :=
  let k := hdType h
  if s.foreign (hdSrc h) n then (s, 4, 0)
  else if k = 0 then if accessFits n d then (s, s.readAt (npAddr d) (npLen d)) else (s, 3, 0)
  else if k = 1 then
    if accessFits n d then
      let r := s.writeAt (whoOf (hdSrc h)) (npAddr d) (npWords d)
      (r.2, r.1, 0)
    else (s, 3, 0)
  else if k = 2 then (s, 0, 0)
  else if k = 3 then (s, if n = mcNode ∨ n = ccNode ∨ (portOfNode n).isSome then 0 else 3, 0)
  else if k = 5 then
    let far : Word := rfld d 0 0 32
    let seg : Fin 32 := Fin.ofNat 32 (rnum d 0xC 0 5)
    let op := rnum d 0xC 8 2
    if !cfgFits n (hdSrc h) far ∨ op = 3 then (s, 3, 0)
    else if op = 0 then (s.after (execCfgWrite far seg (npData d)), 0, 0)
    else if op = 1 then
      let s1 := s.after (execCfgRead far seg)
      (s1, 0, s1.cfg.answer)
    else
      let r := s.scrubFrame far []
      (r.1.noteScrub far r.2.1, 0, r.1.cfg.answer)
  else (s, 3, 0)

/-- A request that a logic region's gateway takes: a PL packet, or an access of user registers. -/
def State.forLogic (s : State) (n : BitVec 9) (p : Word × Data256) : Option (Fin 16) :=
  match regionOfNode n with
  | some r =>
    if hdType p.1 = 4 ∨ (hdType p.1 < 2 ∧ accessFits n p.2 ∧ 0xC000 ≤ npAddr p.2 % 0x10000 ∧ s.winOpen (.plr r) 0xC000) then some r
    else none
  | none => none

/-- A request for the fan-out unit. -/
def forFan (n : BitVec 9) (p : Word × Data256) : Bool :=
  n == glbNode && decide (hdType p.1 < 2) && accessFits n p.2 && fanAddr (npAddr p.2)

/-- A request that waits in its queue: for the fan-out unit, or as a read that a member holds (R297, R298). -/
def State.reqWaits (s : State) (n : BitVec 9) (p : Word × Data256) : Bool :=
  (forFan n p && s.fan.isSome) || (hdType p.1 == 0 && s.readHeld n)

/-- A write of GLB_RESET that has been performed starts its reset once its RSP has arrived (R306). -/
def State.resetAfter (s : State) (p : Word × Data256) (status : Nat) : State :=
  if hdType p.1 = 1 ∧ status = 0 ∧ npAddr p.2 = 0x20 ∧ glbResets (fld (npData p.2) 0 32) then
    { s with resetDue := some (.rsp (hdSrc p.1) (npTag p.2), fld (npData p.2) 0 32) }
  else s

/-- A request performed and answered once: its RSP takes the route entry from before a write (R166, R171). -/
def State.serveNoc (s : State) (n : BitVec 9) (p : Word × Data256) : State :=
  let r := s.perform n p.1 p.2
  (r.1.respondBy (s.nodeRoute (hdSrc p.1)) n p.1 p.2 r.2.1 r.2.2).resetAfter p r.2.1

/-- NOC_DELIVER: the oldest request in a node's receive queue is performed and answered once; the newest is answered BUSY
when the queue is full (R171). -/
def execNocDeliver (node : BitVec 9) (s : State) : Out :=
  let reqs := (s.iface node).rxq.filter (fun p => hdType p.1 != 8)
  let without (p : Word × Data256) : State := s.modIface node (fun i => { i with rxq := i.rxq.erase p })
  if max 1 Config.nocQueue < reqs.length then
    match reqs.getLast? with
    | some q => .next ((without q).respond node q.1 q.2 2 0)
    | none => .next s
  else match reqs.find? (fun p => !s.reqWaits node p) with
    | none => .next s
    | some p =>
      if forFan node p then .next ((without p).fanStart false p.1 p.2 [])
      else match s.forLogic node p with
        | some r => .next ((without p).modRegion r (fun x => { x with rxq := x.rxq ++ [p] }))
        | none => .next ((without p).serveNoc node p)

/-! ### Answers at the initiator (R172) -/

/-- The management controller's request goes on as one of its accesses completes (R256). -/
def State.mcAnswered (s : State) (n : BitVec 9) (tag : BitVec 10) (status : Nat) (value : BitVec 128) : State :=
  match (if n = mcNode then s.fab.job else none) with
  | none => s
  | some j => if j.asked = some tag then (s.modFab (fun b => { b with job := some (j.took status value) })).mcRun else s.mcRun

/-- An outstanding request completes with a status and data. -/
def State.endReq (s : State) (n : BitVec 9) (q : NReq) (status : Nat) (data : Data256) : State :=
  ((s.modIface n (fun i => { i with out := i.out.erase q })).finishReq n q.tag (hdType q.hdr) (npAddr q.data) (npLen q.data) status
    data).mcAnswered n q.tag status (npData data)

/-- NOC_RSP_RECEIVE: an RSP completes its request; BUSY is retried; a late one is dropped and frees its tag (R172). -/
def execNocRspReceive (node : BitVec 9) (s : State) : Out :=
  let i := s.iface node
  match i.rxq.find? (fun p => hdType p.1 == 8) with
  | none => .next s
  | some p =>
    let s1 := s.modIface node (fun i => { i with rxq := i.rxq.erase p })
    match i.out.find? (fun q => q.tag == npTag p.2) with
    | none =>
      .next ((s1.modIface node (fun i => { i with lost := i.lost.erase (npTag p.2) })).modNoc (nodeDie node) (fun d =>
        { d with lateCnt := satInc d.lateCnt }))
    | some q =>
      if npStatus p.2 = 2 then
        .next (s1.modIface node (fun i => { i with out := i.out.map (fun x => if x.tag = q.tag then { x with busy := true } else x) }))
      else .next (s1.endReq node q (npStatus p.2) p.2)

/-- NOC_TIMEOUT_EXPIRY: a request whose timer has run out completes with ERR_TIMEOUT; its tag is held back (R172). -/
def execNocTimeoutExpiry (node : BitVec 9) (tag : BitVec 10) (s : State) : Out :=
  let d := s.noc[if nodeDie node then (1 : Fin 2) else 0]
  match (s.iface node).out.find? (fun q => q.tag == tag && q.sent) with
  | none => .next s
  | some q =>
    if q.since + d.timeout.toNat ≤ s.now then
      .next (((s.modIface node (fun i => { i with lost := i.lost ++ [tag] })).modNoc (nodeDie node) (fun d =>
        { d with timeoutCnt := satInc d.timeoutCnt })).endReq node q 0xF 0)
    else .next s

/-! ### The gateway's packets (R326 to R328) -/

/-- The answer of a region's gateway: to the fan-out unit for a member request, else by an RSP. -/
def State.gatewayAnswer (s : State) (r : Fin 16) (p : Word × Data256) (status : Nat) (data : BitVec 128) : State :=
  if hdType p.1 < 2 ∧ fanAddr (npAddr p.2) then s.fanAnswer (regionNode r.val) p status data
  else s.respond (regionNode r.val) p.1 p.2 status data

/-- The first packet of a kind at a region's gateway: handed to the logic in arrival order, or answered by the gateway. -/
def State.handPacket (s : State) (r : Fin 16) (mine : Word × Data256 → Bool) : Out :=
  match s.regions[r].rxq.find? mine with
  | none => .next s
  | some p =>
    let s1 := s.modRegion r (fun x => { x with rxq := x.rxq.erase p })
    match s.gatewayRefuses r p.1 with
    | some st => .next (s1.gatewayAnswer r p st 0)
    | none => .next (s1.modRegion r (fun x => { x with handed := x.handed ++ [p] }))

/-- PL_PACKET: a PL packet is handed to the region's logic, or answered ERR_DECODE while it is isolated. -/
def execPlPacket (region : Fin 16) (s : State) : Out := s.handPacket region (fun p => hdType p.1 == 4)

/-- PL_USER_REG: a register access to user offsets is handed to the logic, or answered by the gateway; a unicast read
waits while a broadcast write is under way (R298, R328). -/
def execPlUserReg (region : Fin 16) (s : State) : Out :=
  s.handPacket region (fun p =>
    decide (hdType p.1 < 2) && !(hdType p.1 == 0 && !fanAddr (npAddr p.2) && s.readHeld (regionNode region.val)))

/-- A status that the logic may give: one of R328 for a register access, and one that a packet may carry for a PL packet
(R171). -/
def logicStatus (h : Word) (status : Byte) : Bool :=
  status == 0 || status == 1 || status == 3 || (status == 4 && !decide (hdType h < 2))

/-- USER_LOGIC_ANSWER: the logic answers the oldest request it was handed, and the gateway sends the RSP; an isolated
region's logic answers nothing (R326). -/
def execUserLogicAnswer (region : Fin 16) (status : Byte) (data : BitVec 128) (s : State) : Out :=
  match s.regions[region].handed with
  | [] => .next s
  | p :: rest =>
    if s.regions[region].isolated ∨ !logicStatus p.1 status then .next s
    else .next ((s.modRegion region (fun r => { r with handed := rest })).gatewayAnswer region p status.toNat data)

end Sys2Proof.Machine
end

