-- ==== Sys2Proof/Machine/Mctp.lean ====
section
/-! DEFINITION. The MCTP bridge and the PLDM sensors of the management controller (R256, R388, R391, R394). The layout of
MCTP and PLDM messages is that of DSP0236, DSP0240 and DSP0248, which the manual cites and does not repeat (PRESUMED, log 32). -/

namespace Sys2Proof.Machine

/-! ### Packets -/

/-- The MCTP packet of a MGMT payload, and a payload that carries one, padded to whole words. -/
def mgMctp (p : BitVec 1920) : List Byte := slice (toBytes p 240) 0x10 (4 * mgWords p)
def mctpPayload (b : List Byte) : BitVec 1920 :=
  natAt 1920 0 4 ||| natAt 1920 64 ((b.length + 3) / 4 - 1) ||| at_ 1920 128 (ofBytes 1792 b)

/-- Byte `i` of a packet. -/
def mctpByte (b : List Byte) (i : Nat) : Byte := b.getD i 0

/-- The destination EID of an MCTP packet. -/
def mctpDst (b : List Byte) : Byte := mctpByte b 1

/-- The static EID of the setup record, 0 where the bus owner assigns one, and the EID that is in force (R388). -/
def Pwr.staticEid (p : Pwr) : Byte := rfld p.setup 0x10 24 8
def Pwr.ownEid (p : Pwr) : Byte := if p.staticEid = 0 then p.eid else p.staticEid

/-- A packet for this endpoint: for its EID, for the null EID, or a broadcast. -/
def Pwr.mctpHere (p : Pwr) (b : List Byte) : Bool := mctpDst b == 0 || mctpDst b == 0xFF || mctpDst b == p.ownEid

/-- The answer to a packet, with the header of MCTP: version, EIDs, a packet that is its message's first and last, tag. -/
def Pwr.mctpReply (p : Pwr) (b : List Byte) (body : List Byte) : List Byte :=
  [0x01, mctpByte b 2, p.ownEid, 0xC0 ||| (mctpByte b 3 &&& 0x07)] ++ body

/-! ### Control messages (DSP0236) -/

/-- Set Endpoint ID: accepted where the EID is not static, with the EID that is in force then. -/
def Pwr.setEid (p : Pwr) (b : List Byte) : Pwr :=
  if p.staticEid = 0 ∧ (mctpByte b 7 &&& 0x03).toNat < 2 then { p with eid := mctpByte b 8 } else p

/-- The body of a control answer: type, instance, command, then completion code 0 and its data. -/
def controlReply (b : List Byte) (data : List Byte) : List Byte := [0x00, mctpByte b 5 &&& 0x1F, mctpByte b 6, 0x00] ++ data

/-! ### PLDM (DSP0240, DSP0248) -/

/-- A PLDM request for platform monitoring and control, of a command. -/
def pldmIs (b : List Byte) (cmd : Byte) : Bool :=
  (mctpByte b 4 &&& 0x7F) == 1 && bitAt (mctpByte b 5) 7 && (mctpByte b 6 &&& 0x3F) == 2 && mctpByte b 7 == cmd

/-- The body of a PLDM answer: type, instance, PLDM type and command of the request, then completion code and data. -/
def pldmReply (b : List Byte) (code : Byte) (data : List Byte) : List Byte :=
  [0x01, mctpByte b 5 &&& 0x1F, mctpByte b 6, mctpByte b 7, code] ++ data

/-- The sensor that a request names. -/
def pldmSensorId (b : List Byte) : Nat := imgHalf b 8

/-- A numeric sensor's reading: the figure of R391 at its place in a telemetry group, as TELEMETRY_READ shows it. -/
def State.sensorBytes (s : State) (x : BitVec 512) (id : Nat) : Option (Byte × List Byte) :=
  (Config.pldmSensor id).bind (fun q => (s.telemetryBody q.1 x).map (fun body => (q.2.2.2, slice body q.2.1 q.2.2.1)))

/-- A state sensor's present state: PHASE, or SQUALL. -/
def State.sensorState (s : State) (id : Nat) : Option Byte :=
  (Config.pldmStateSensor id).map (fun squall =>
    if squall then (if s.cals.any (fun c => c.squall.isSome) then 1 else 0) else s.pwr.phase.setWidth 8)

/-! ### What this endpoint answers -/

/-- The answers to a packet for this endpoint. Readings come from the state; what a sensor's event fields say, and every
answer to another message, is open (log 32). -/
def State.mctpAnswers (s : State) (b : List Byte) (x : BitVec 512) : List (List Byte) :=
  if (mctpByte b 4 &&& 0x7F) == 0 && bitAt (mctpByte b 5) 7 && mctpByte b 6 == 1 then
    [s.pwr.mctpReply b (controlReply b [if s.pwr.staticEid = 0 then 0x00 else 0x10, s.pwr.ownEid, 0x00])]
  else if (mctpByte b 4 &&& 0x7F) == 0 && bitAt (mctpByte b 5) 7 && mctpByte b 6 == 2 then
    [s.pwr.mctpReply b (controlReply b [s.pwr.ownEid, if s.pwr.staticEid = 0 then 0x10 else 0x11, 0x00])]
  else if pldmIs b 0x11 then
    [s.pwr.mctpReply b (match s.sensorBytes x (pldmSensorId b) with
      | some (size, v) => pldmReply b 0 ([size, 0x00, fld x 0 8, fld x 8 8, fld x 16 8, fld x 24 8] ++ v)
      | none => pldmReply b 0x80 [])]
  else if pldmIs b 0x21 then
    [s.pwr.mctpReply b (match s.sensorState (pldmSensorId b) with
      | some v => pldmReply b 0 [0x01, 0x00, v, fld x 0 8, fld x 8 8]
      | none => pldmReply b 0x80 [])]
  else if pldmIs b 0x04 then [s.pwr.mctpReply b (pldmReply b 0 [])]
  else Config.mctpAnswer b x

/-- A packet for this endpoint: its EID, the routing table and the PLDM event receiver are set, a register request to a
peer leaves (log 35), and the answers leave by the way given. -/
def State.takeMctp (s : State) (b : List Byte) (back : State → List Byte → State) : State :=
  let s0 := if (mctpByte b 4 &&& 0x7F) == 0 && bitAt (mctpByte b 5) 7 && mctpByte b 6 == 1 then s.modPwr (·.setEid b) else s
  let s1 := match Config.mctpRoute b with
    | some (eid, dev) => s0.modPwr (fun p => { p with eids := tput p.eids eid dev })
    | none => s0
  let s2 := if pldmIs b 0x04 then s1.modPwr (fun p => { p with pldmReceiver := mctpByte b 8 != 0 }) else s1
  let s3 := match Config.mctpRegister b with
    | some (dev, p) =>
      let tag : BitVec 10 := BitVec.ofNat 10 (((s2.fab.mgmtOut.map (fun (a : Awaited) => a.tag.toNat + 1)).foldl max 0))
      let a : Awaited := { tag := tag.setWidth 32, since := s.now, len := mgWords p }
      (s2.modFab (fun f => { f with mgmtOut := f.mgmtOut ++ [a] })).sendMgmt dev (putFld p 4 tag)
    | none => s2
  let x := s3.draw
  (x.2.mctpAnswers b x.1).foldl back x.2

/-- A packet on the sideband. -/
def State.toSideband (s : State) (b : List Byte) : State := s.modPwr (fun p => { p with sideband := p.sideband ++ [b] })

/-- MGMT_MCTP: an MCTP packet from a peer: handled here and answered to that peer, passed on to the peer of its EID, or
bridged onto the sideband, where the other endpoints of its bus are (R256, R394). -/
def execMgmtMctp (s : State) : Out :=
  s.takeMgmt 4 (fun s fl =>
    let b := mgMctp (flPayload fl)
    if s.pwr.mctpHere b then s.takeMctp b (fun s r => s.sendMgmt (flSrc fl) (mctpPayload r))
    else match tfind s.pwr.eids (mctpDst b).toNat with
      | some dev => s.sendMgmt dev (flPayload fl)
      | none => s.toSideband b)

end Sys2Proof.Machine
end

