-- ==== Sys2Proof/Machine/Sideband.lean ====
section
/-! DEFINITION. The sideband (R394) and the JTAG port (R370, R373, R380, R407). -/

namespace Sys2Proof.Machine

/-- The packet error code of SMBus 3.x: CRC-8 with polynomial 0x07. -/
def pec (b : List Byte) : Byte :=
  BitVec.ofNat 8 (b.foldl (crcGenByte { width := 8, poly := 7, init := 0, xorout := 0, refin := false, refout := false }) 0)

/-- SMBUS_ADDR of the setup record in force. -/
def Pwr.smbusAddr (p : Pwr) : BitVec 7 := if rnum p.setup 0x10 16 7 = 0 then 0x4C else rfld p.setup 0x10 16 7
def Pwr.i3cEn (p : Pwr) : Bool := bitAt p.setup (8 * 0x10 + 23)

/-- The MCTP packet that a sideband write to this target carries: over SMBus after address, command code 0x0F, byte count
and source address, over I3C after the address; in front of the packet error code (log 37). -/
def Pwr.sidebandMctp (p : Pwr) (b : List Byte) : Option (List Byte) :=
  let body := b.take (b.length - 1)
  if b.length < 6 ∨ pec body ≠ b.getD (b.length - 1) 0 ∨ b.getD 0 0 ≠ at_ 8 1 p.smbusAddr then none
  else if b.getD 1 0 = 0x0F ∧ (b.getD 2 0).toNat + 4 = b.length ∧ 9 ≤ b.length then some (body.drop 4)
  else if p.i3cEn then some (body.drop 1)
  else none

/-- SIDEBAND_MESSAGE: an MCTP packet on the sideband is handled and answered here, or goes to the peer that its EID
names; one for another endpoint is left alone. -/
def execSidebandMessage (bytes : List Byte) (s : State) : Out :=
  if !s.running then .next s
  else match s.pwr.sidebandMctp bytes with
    | some m =>
      if s.pwr.mctpHere m then .next (s.takeMctp m State.toSideband)
      else match tfind s.pwr.eids (mctpDst m).toNat with
        | some dev => .next (s.sendMgmt dev (mctpPayload m))
        | none => .next s
    | none => .next s

/-! ### Output pins (R407, R408) -/

/-- The signals that the device drives (R407). -/
inductive OutPin where
  | pcieTx | linkTx (p : Fin 12) | xspiClk | xspiCsN | xspiRstN | xspiDq (i : Fin 8)
  | avsClk (b : Bool) | avsMdata (b : Bool) | sbScl | sbSda | sbAlertN | tdo | thermtripN
deriving DecidableEq, Repr

/-- What a pin shows: a level, an open drain released, high impedance, a quiet transmitter, or what its unit sends. -/
inductive PinLevel where
  | low | high | released | highZ | quiet | sending
deriving DecidableEq, Repr

/-- The reset state of an output. -/
def OutPin.reset : OutPin → PinLevel
  | .pcieTx | .linkTx _ => .quiet
  | .xspiCsN | .xspiRstN => .high
  | .xspiClk | .avsClk _ | .avsMdata _ => .low
  | .xspiDq _ | .tdo => .highZ
  | .sbScl | .sbSda | .sbAlertN | .thermtripN => .released

/-- An output: in its reset state before PWR_OK rises and while COLD_RST_N is low; THERMTRIP_N stays low after a trip, TDO
is held while a scrub runs, and SB_ALERT_N, to which the manual gives no use, stays released (R370, R399, R407, R408). -/
def State.outPin (s : State) (p : OutPin) : PinLevel :=
  if p = .thermtripN then (if s.pins.thermtripN then .released else .low)
  else if !s.pins.pwrOk ∨ !s.pins.coldRstN then p.reset
  else if p = .sbAlertN then .released
  else if p = .tdo ∧ !s.pins.tapOn then .highZ
  else match p with
    | .linkTx q => if s.ports[q].st == .off || s.ports[q].st == .down then .quiet else .sending
    | _ => .sending

/-- The scan cells of the LVCMOS and open-drain pins: an input's level, or an output (DESIGN CHOICE, log 137: their order). -/
def scanPins (s : State) : List (Option Bool × Option OutPin) :=
  [(some s.pins.perstN, none), (some s.pins.pwrOk, none), (some s.pins.coldRstN, none), (none, some .thermtripN),
   (none, some .xspiClk), (none, some .xspiCsN), (none, some .xspiRstN)]
  ++ (List.finRange 8).map (fun i => (none, some (.xspiDq i))) ++ [(none, none)]
  ++ [(none, some (.avsClk false)), (none, some (.avsMdata false)), (none, some (.avsClk true)), (none, some (.avsMdata true)),
      (none, none), (none, none), (none, some .sbScl), (none, some .sbSda), (none, some .sbAlertN)]

/-- What a scan cell samples; an input whose level no row gives, and a pin in use, shows an open level. -/
def State.scanBit (s : State) (open_ : Bool) : Option Bool × Option OutPin → Bool
  | (some b, _) => b
  | (none, some p) => match s.outPin p with
    | .low => false
    | .high | .released => true
    | _ => open_
  | (none, none) => open_

/-- The scan cells as they are sampled. -/
def State.scanCells (s : State) (x : BitVec 25) : Word :=
  (scanPins s).zipIdx.foldl (fun (w : Word) c => w ||| flagAt 32 c.2 (s.scanBit (bitAt x c.2) c.1)) 0

/-! ### JTAG -/

/-- What the JTAG port shifts out. -/
def State.shiftOut (s : State) (w : Word) : State := { s with pins := { s.pins with tdo := s.pins.tdo ++ [w] } }

/-- JTAG_ACCESS: IDCODE reads GLB_IDCODE and BYPASS a 0; with a confidential context every other instruction acts as
BYPASS, and so does debug where the lifecycle state does not permit it; boundary scan samples the pins and may drive the
outputs; a signed token moves the lifecycle state forward (log 38). -/
def execJtagAccess (op : JtagOp) (s : State) : Out :=
  if !s.running ∨ !s.pins.tapOn then .next s
  else match op with
    | .idcode => .next (s.shiftOut glbIdcode)
    | .bypass => .next (s.shiftOut 0)
    | .debug _ =>
      if !s.anyConf ∧ (s.sec.lifecycle = 1 ∨ s.sec.lifecycle = 3) then
        let x := s.draw
        .next ((x.2.modSec (fun c => { c with debugUsed := true })).shiftOut (fld x.1 0 32))
      else .next (s.shiftOut 0)
    | .lifecycle target tokenValid =>
      if !s.anyConf ∧ tokenValid ∧ s.sec.lifecycle.toNat < target.toNat ∧ target.toNat ≤ 4 then
        .next (s.modSec (fun c => { c with lifecycle := target }))
      else .next (s.shiftOut 0)
    | .boundary drive =>
      if s.anyConf then .next (s.shiftOut 0)
      else
        let x := s.draw
        .next ({ x.2 with pins := { x.2.pins with scanDrive := drive } }.shiftOut (s.scanCells (fld x.1 0 25)))

end Sys2Proof.Machine
end

