-- ==== Sys2Proof/Machine/Dispatch.lean ====
section
/-! DEFINITION. The meaning of each command: one arm per constructor of Instr. -/

namespace Sys2Proof.Machine

def exec (i : Instr) (s : State) : Host.Outcome State Fault Refusal :=
  match i with
  | .beatBoundary cycles => Sys2Proof.Machine.execBeatBoundary cycles s
  | .holdEnd => Sys2Proof.Machine.execHoldEnd s
  | .geyserBlockSend => Sys2Proof.Machine.execGeyserBlockSend s
  | .geyserCopySend => Sys2Proof.Machine.execGeyserCopySend s
  | .pulseEmission => Sys2Proof.Machine.execPulseEmission s
  | .stretchReceive => Sys2Proof.Machine.execStretchReceive s
  | .squallReceive => Sys2Proof.Machine.execSquallReceive s
  | .geyserReceive port blk => Sys2Proof.Machine.execGeyserReceive port blk s
  | .geyserTimeout => Sys2Proof.Machine.execGeyserTimeout s
  | .wload cal tile => Sys2Proof.Machine.execWload cal tile s
  | .wloadComplete cal arr slotB => Sys2Proof.Machine.execWloadComplete cal arr slotB s
  | .relay cal tile => Sys2Proof.Machine.execRelay cal tile s
  | .relayGranule cal idx => Sys2Proof.Machine.execRelayGranule cal idx s
  | .passIssue cal tile => Sys2Proof.Machine.execPassIssue cal tile s
  | .rowAdmit cal tile => Sys2Proof.Machine.execRowAdmit cal tile s
  | .drainBlock cal tile => Sys2Proof.Machine.execDrainBlock cal tile s
  | .passCommit cal tile => Sys2Proof.Machine.execPassCommit cal tile s
  | .preemptWaitExpiry handle => Sys2Proof.Machine.execPreemptWaitExpiry handle s
  | .sarm cal => Sys2Proof.Machine.execSarm cal s
  | .zeroingComplete cal => Sys2Proof.Machine.execZeroingComplete cal s
  | .gate cal withWake => Sys2Proof.Machine.execGate cal withWake s
  | .gateEffect cal => Sys2Proof.Machine.execGateEffect cal s
  | .wake cal => Sys2Proof.Machine.execWake cal s
  | .wakePowerOn cal => Sys2Proof.Machine.execWakePowerOn cal s
  | .paceMinClr cal => Sys2Proof.Machine.execPaceMinClr cal s
  | .vld cal => Sys2Proof.Machine.execVld cal s
  | .vst cal => Sys2Proof.Machine.execVst cal s
  | .vadd cal => Sys2Proof.Machine.execVadd cal s
  | .vsub cal => Sys2Proof.Machine.execVsub cal s
  | .vmul cal => Sys2Proof.Machine.execVmul cal s
  | .vfma cal => Sys2Proof.Machine.execVfma cal s
  | .vmax cal => Sys2Proof.Machine.execVmax cal s
  | .vmin cal => Sys2Proof.Machine.execVmin cal s
  | .vcmul cal => Sys2Proof.Machine.execVcmul cal s
  | .vrsum cal => Sys2Proof.Machine.execVrsum cal s
  | .vrmax cal => Sys2Proof.Machine.execVrmax cal s
  | .vexp cal => Sys2Proof.Machine.execVexp cal s
  | .vlog cal => Sys2Proof.Machine.execVlog cal s
  | .vrsqrt cal => Sys2Proof.Machine.execVrsqrt cal s
  | .vrcp cal => Sys2Proof.Machine.execVrcp cal s
  | .vsigm cal => Sys2Proof.Machine.execVsigm cal s
  | .vtanh cal => Sys2Proof.Machine.execVtanh cal s
  | .vcvti cal => Sys2Proof.Machine.execVcvti cal s
  | .vcvto cal => Sys2Proof.Machine.execVcvto cal s
  | .vsrchmax cal => Sys2Proof.Machine.execVsrchmax cal s
  | .vsrchmin cal => Sys2Proof.Machine.execVsrchmin cal s
  | .chkf cal => Sys2Proof.Machine.execChkf cal s
  | .agset cal => Sys2Proof.Machine.execAgset cal s
  | .wbeat cal => Sys2Proof.Machine.execWbeat cal s
  | .wdrain cal => Sys2Proof.Machine.execWdrain cal s
  | .dspEnd cal => Sys2Proof.Machine.execDspEnd cal s
  | .dspSeedWrite cal value => Sys2Proof.Machine.execDspSeedWrite cal value s
  | .chkData8 unit value => Sys2Proof.Machine.execChkData8 unit value s
  | .chkData16 unit value => Sys2Proof.Machine.execChkData16 unit value s
  | .chkData32 unit value => Sys2Proof.Machine.execChkData32 unit value s
  | .chkStart unit ctl => Sys2Proof.Machine.execChkStart unit ctl s
  | .chkFeed unit => Sys2Proof.Machine.execChkFeed unit s
  | .chkSnoopBlock unit block tag carried => Sys2Proof.Machine.execChkSnoopBlock unit block tag carried s
  | .xlogPop cal => Sys2Proof.Machine.execXlogPop cal s
  | .xlogClear cal => Sys2Proof.Machine.execXlogClear cal s
  | .streamArm slot word0 => Sys2Proof.Machine.execStreamArm slot word0 s
  | .armingComplete slot => Sys2Proof.Machine.execArmingComplete slot s
  | .demandFill cal slot io => Sys2Proof.Machine.execDemandFill cal slot io s
  | .runAhead cal slot io => Sys2Proof.Machine.execRunAhead cal slot io s
  | .streamTransfer slot io => Sys2Proof.Machine.execStreamTransfer slot io s
  | .streamWdog slot => Sys2Proof.Machine.execStreamWdog slot s
  | .stagingSlotFree cal pool => Sys2Proof.Machine.execStagingSlotFree cal pool s
  | .nocRequest node route kind data => Sys2Proof.Machine.execNocRequest node route kind data s
  | .nocHop die x y => Sys2Proof.Machine.execNocHop die x y s
  | .nocDeliver node => Sys2Proof.Machine.execNocDeliver node s
  | .nocRspReceive node => Sys2Proof.Machine.execNocRspReceive node s
  | .nocBusyRetry node tag => Sys2Proof.Machine.execNocBusyRetry node tag s
  | .nocTimeoutExpiry node tag => Sys2Proof.Machine.execNocTimeoutExpiry node tag s
  | .nocRtWrite die index value => Sys2Proof.Machine.execNocRtWrite die index value s
  | .traceClear die => Sys2Proof.Machine.execTraceClear die s
  | .conduitWord cal port track => Sys2Proof.Machine.execConduitWord cal port track s
  | .memRequest stack ch port => Sys2Proof.Machine.execMemRequest stack ch port s
  | .memCommandIssue stack ch => Sys2Proof.Machine.execMemCommandIssue stack ch s
  | .memReadReturn stack ch flip flipCheck => Sys2Proof.Machine.execMemReadReturn stack ch flip flipCheck s
  | .memRereadReturn stack ch flip flipCheck => Sys2Proof.Machine.execMemRereadReturn stack ch flip flipCheck s
  | .rowIdleExpiry stack ch pc bank => Sys2Proof.Machine.execRowIdleExpiry stack ch pc bank s
  | .refreshDue stack ch pc => Sys2Proof.Machine.execRefreshDue stack ch pc s
  | .hbmTempPoll stack temp hot => Sys2Proof.Machine.execHbmTempPoll stack temp hot s
  | .stackTraining stack outcome => Sys2Proof.Machine.execStackTraining stack outcome s
  | .hbmCntClr stack => Sys2Proof.Machine.execHbmCntClr stack s
  | .bblPop => Sys2Proof.Machine.execBblPop s
  | .bblClear => Sys2Proof.Machine.execBblClear s
  | .portTraining port outcome => Sys2Proof.Machine.execPortTraining port outcome s
  | .trainingFrame port lane control status check => Sys2Proof.Machine.execTrainingFrame port lane control status check s
  | .downRetry port => Sys2Proof.Machine.execDownRetry port s
  | .fastRetrain port rtt next => Sys2Proof.Machine.execFastRetrain port rtt next s
  | .fastRetrainFail port => Sys2Proof.Machine.execFastRetrainFail port s
  | .laneLockLoss port lane => Sys2Proof.Machine.execLaneLockLoss port lane s
  | .lnkEn port en => Sys2Proof.Machine.execLnkEn port en s
  | .admitPort port on => Sys2Proof.Machine.execAdmitPort port on s
  | .conf port on => Sys2Proof.Machine.execConf port on s
  | .clrDegraded port => Sys2Proof.Machine.execClrDegraded port s
  | .retrain port => Sys2Proof.Machine.execRetrain port s
  | .fullTrain port => Sys2Proof.Machine.execFullTrain port s
  | .loop port mode => Sys2Proof.Machine.execLoop port mode s
  | .prbsClr port lane => Sys2Proof.Machine.execPrbsClr port lane s
  | .lnkCntClr port => Sys2Proof.Machine.execLnkCntClr port s
  | .fill port blk aboveHalf belowHalf => Sys2Proof.Machine.execFill port blk aboveHalf belowHalf s
  | .align port lane blk => Sys2Proof.Machine.execAlign port lane blk s
  | .linkUp port blk => Sys2Proof.Machine.execLinkUp port blk s
  | .pres port blk => Sys2Proof.Machine.execPres port blk s
  | .presSend port => Sys2Proof.Machine.execPresSend port s
  | .presTimeout port => Sys2Proof.Machine.execPresTimeout port s
  | .rttReq port blk => Sys2Proof.Machine.execRttReq port blk s
  | .rttRsp port blk => Sys2Proof.Machine.execRttRsp port blk s
  | .flitTransmit port => Sys2Proof.Machine.execFlitTransmit port s
  | .flitReceive port flit badBlock => Sys2Proof.Machine.execFlitReceive port flit badBlock s
  | .nackRepeat port => Sys2Proof.Machine.execNackRepeat port s
  | .creditTimeout port vc => Sys2Proof.Machine.execCreditTimeout port vc s
  | .auth port => Sys2Proof.Machine.execAuth port s
  | .authTimeout port => Sys2Proof.Machine.execAuthTimeout port s
  | .probeForward => Sys2Proof.Machine.execProbeForward s
  | .probeIdentify => Sys2Proof.Machine.execProbeIdentify s
  | .probeRead => Sys2Proof.Machine.execProbeRead s
  | .probeWrite => Sys2Proof.Machine.execProbeWrite s
  | .probeSync => Sys2Proof.Machine.execProbeSync s
  | .probeRspReceive => Sys2Proof.Machine.execProbeRspReceive s
  | .discoverTimeout cmd => Sys2Proof.Machine.execDiscoverTimeout cmd s
  | .fabIdWrite value => Sys2Proof.Machine.execFabIdWrite value s
  | .mgmtRegRd => Sys2Proof.Machine.execMgmtRegRd s
  | .mgmtRegWr => Sys2Proof.Machine.execMgmtRegWr s
  | .mgmtRegRsp => Sys2Proof.Machine.execMgmtRegRsp s
  | .mgmtTimeout tag => Sys2Proof.Machine.execMgmtTimeout tag s
  | .mgmtCfg => Sys2Proof.Machine.execMgmtCfg s
  | .mgmtMctp => Sys2Proof.Machine.execMgmtMctp s
  | .mgmtEvent => Sys2Proof.Machine.execMgmtEvent s
  | .freeWr fails => Sys2Proof.Machine.execFreeWr fails s
  | .freeRd io fails => Sys2Proof.Machine.execFreeRd io fails s
  | .freeRsp => Sys2Proof.Machine.execFreeRsp s
  | .sqTail ring bell => Sys2Proof.Machine.execSqTail ring bell s
  | .cqHead ring value => Sys2Proof.Machine.execCqHead ring value s
  | .sqEnable ring ctl => Sys2Proof.Machine.execSqEnable ring ctl s
  | .sqDisable ring => Sys2Proof.Machine.execSqDisable ring s
  | .cqEnable ring ctl => Sys2Proof.Machine.execCqEnable ring ctl s
  | .cqDisable ring => Sys2Proof.Machine.execCqDisable ring s
  | .commandFetch ring packet => Sys2Proof.Machine.execCommandFetch ring packet s
  | .commandStart ring => Sys2Proof.Machine.execCommandStart ring s
  | .completionWrite ring => Sys2Proof.Machine.execCompletionWrite ring s
  | .nop cmd => Sys2Proof.Machine.execNop cmd s
  | .ctxCreate cmd => Sys2Proof.Machine.execCtxCreate cmd s
  | .ctxDestroy cmd => Sys2Proof.Machine.execCtxDestroy cmd s
  | .mapPages cmd list => Sys2Proof.Machine.execMapPages cmd list s
  | .unmapPages cmd => Sys2Proof.Machine.execUnmapPages cmd s
  | .unmapDrainDone cmd => Sys2Proof.Machine.execUnmapDrainDone cmd s
  | .loadPlan cmd image => Sys2Proof.Machine.execLoadPlan cmd image s
  | .runPlan cmd image => Sys2Proof.Machine.execRunPlan cmd image s
  | .abort cmd => Sys2Proof.Machine.execAbort cmd s
  | .resume cmd => Sys2Proof.Machine.execResume cmd s
  | .copy cmd => Sys2Proof.Machine.execCopy cmd s
  | .loadLogic cmd front => Sys2Proof.Machine.execLoadLogic cmd front s
  | .loadRegion cmd front => Sys2Proof.Machine.execLoadRegion cmd front s
  | .frameRecord record => Sys2Proof.Machine.execFrameRecord record s
  | .loadCommit trailer => Sys2Proof.Machine.execLoadCommit trailer s
  | .cfgStreamTimeout => Sys2Proof.Machine.execCfgStreamTimeout s
  | .attest cmd => Sys2Proof.Machine.execAttest cmd s
  | .attestHoldTimeout cmd => Sys2Proof.Machine.execAttestHoldTimeout cmd s
  | .keyImport cmd wrapped => Sys2Proof.Machine.execKeyImport cmd wrapped s
  | .fabricDiscover cmd => Sys2Proof.Machine.execFabricDiscover cmd s
  | .fabricRouteSet cmd entries => Sys2Proof.Machine.execFabricRouteSet cmd entries s
  | .geyserSet cmd => Sys2Proof.Machine.execGeyserSet cmd s
  | .fwUpdateBegin cmd => Sys2Proof.Machine.execFwUpdateBegin cmd s
  | .fwUpdateData cmd data => Sys2Proof.Machine.execFwUpdateData cmd data s
  | .fwUpdateCommit cmd => Sys2Proof.Machine.execFwUpdateCommit cmd s
  | .fwUpdateTimeout => Sys2Proof.Machine.execFwUpdateTimeout s
  | .telemetryRead cmd => Sys2Proof.Machine.execTelemetryRead cmd s
  | .powerCapSet cmd => Sys2Proof.Machine.execPowerCapSet cmd s
  | .setupWrite cmd image => Sys2Proof.Machine.execSetupWrite cmd image s
  | .bar4Read offset len io fails => Sys2Proof.Machine.execBar4Read offset len io fails s
  | .bar4Write offset bytes fails => Sys2Proof.Machine.execBar4Write offset bytes fails s
  | .registerWrite addr wide value => Sys2Proof.Machine.execRegisterWrite addr wide value s
  | .broadcastWrite addr wide value => Sys2Proof.Machine.execBroadcastWrite addr wide value s
  | .broadcastRead read => Sys2Proof.Machine.execBroadcastRead read s
  | .fanoutTimeout addr lost isRead wide value => Sys2Proof.Machine.execFanoutTimeout addr lost isRead wide value s
  | .doeMessage object => Sys2Proof.Machine.execDoeMessage object s
  | .functionLevelReset => Sys2Proof.Machine.execFunctionLevelReset s
  | .glbResetWarm value => Sys2Proof.Machine.execGlbResetWarm value s
  | .glbResetCold value => Sys2Proof.Machine.execGlbResetCold value s
  | .partitionReset value => Sys2Proof.Machine.execPartitionReset value s
  | .scrubWorkDone ctx => Sys2Proof.Machine.execScrubWorkDone ctx s
  | .plPacket region => Sys2Proof.Machine.execPlPacket region s
  | .plUserReg region => Sys2Proof.Machine.execPlUserReg region s
  | .gatewayWord region ep dir => Sys2Proof.Machine.execGatewayWord region ep dir s
  | .gwResyncDone region => Sys2Proof.Machine.execGwResyncDone region s
  | .pllLock k => Sys2Proof.Machine.execPllLock k s
  | .pllUnlock k => Sys2Proof.Machine.execPllUnlock k s
  | .cfgWrite far seg data => Sys2Proof.Machine.execCfgWrite far seg data s
  | .cfgRead far seg => Sys2Proof.Machine.execCfgRead far seg s
  | .cfgScrub far inRef flip => Sys2Proof.Machine.execCfgScrub far inRef flip s
  | .fumaroleSweep => Sys2Proof.Machine.execFumaroleSweep s
  | .hardenedBlockCheck block flip => Sys2Proof.Machine.execHardenedBlockCheck block flip s
  | .bringUpPhase => Sys2Proof.Machine.execBringUpPhase s
  | .capControl average => Sys2Proof.Machine.execCapControl average s
  | .ilimStep => Sys2Proof.Machine.execIlimStep s
  | .squallBegin cal cause => Sys2Proof.Machine.execSquallBegin cal cause s
  | .squallRailStep die => Sys2Proof.Machine.execSquallRailStep die s
  | .squallEnd cal => Sys2Proof.Machine.execSquallEnd cal s
  | .thermalTrip => Sys2Proof.Machine.execThermalTrip s
  | .evtPop => Sys2Proof.Machine.execEvtPop s
  | .evtClear => Sys2Proof.Machine.execEvtClear s
  | .telemetrySample sample => Sys2Proof.Machine.execTelemetrySample sample s
  | .avsPoll rail mv current answered => Sys2Proof.Machine.execAvsPoll rail mv current answered s
  | .avsRetry rail answer => Sys2Proof.Machine.execAvsRetry rail answer s
  | .sidebandMessage bytes => Sys2Proof.Machine.execSidebandMessage bytes s
  | .jtagAccess op => Sys2Proof.Machine.execJtagAccess op s
  | .powerGood => Sys2Proof.Machine.execPowerGood s
  | .powerLoss => Sys2Proof.Machine.execPowerLoss s
  | .coldResetPin lowNs => Sys2Proof.Machine.execColdResetPin lowNs s
  | .perst => Sys2Proof.Machine.execPerst s
  | .freeRspTimeout tag => Sys2Proof.Machine.execFreeRspTimeout tag s
  | .pcieCompletionTimeout slot => Sys2Proof.Machine.execPcieCompletionTimeout slot s
  | .badControlBlock port blk => Sys2Proof.Machine.execBadControlBlock port blk s
  | .uncorrectableCodeword port corrected uncorrectable => Sys2Proof.Machine.execUncorrectableCodeword port corrected uncorrectable s
  | .prbsCheckerLock port lane bits => Sys2Proof.Machine.execPrbsCheckerLock port lane bits s
  | .perstRelease => Sys2Proof.Machine.execPerstRelease s
  | .coldResetRelease => Sys2Proof.Machine.execColdResetRelease s
  | .userLogicAnswer region status data => Sys2Proof.Machine.execUserLogicAnswer region status data s
  | .flashOperationDone readBackOk => Sys2Proof.Machine.execFlashOperationDone readBackOk s

end Sys2Proof.Machine
end

