-- ==== Sys2Proof/Safety.lean ====
section
/-! DEFINITION. What a run keeps, and the frames that the statements are written with: which unit of the device a
command may change. -/

namespace Sys2Proof.Machine

/-- What every step keeps: the stacked memory stays in its canonical form (log 8), the bad-block log (R201) and the
event log (R396) hold at most 64 records, and the floor pace is at least 850 M steps/s (R17). -/
def State.Good (s : State) : Prop :=
  Memory.wf s.hbm = true ∧ s.glb.bbl.recs.length ≤ 64 ∧ s.pwr.evlog.recs.length ≤ 64 ∧ 850 ≤ s.glb.floorPace.toNat

/-- The registers that only a boundary, a hold's end, a loaded beat count or a reset changes: GLB_BEAT_CNT, PERIOD,
GLB_BEAT_LAST, GLB_STRETCH_CNT, GLB_HOLD_CNT and GLB_HOLD_TICKS. -/
def Glb.beats (g : Glb) : DWord × BitVec 16 × Word × Word × Word × DWord :=
  (g.beatCnt, g.period, g.beatLast, g.stretchCnt, g.holdCnt, g.holdTicks)

/-- The machine answers a next state. -/
def Completes (c : Instr) (s : State) : Prop := ∃ t, exec c s = .next t

/-- Nothing but caldera `n` differs between two states. -/
def OnlyCal (n : Fin 64) (s t : State) : Prop := t = s.modCal n (fun _ => t.cals[n])
/-- Nothing but port `p` differs. -/
def OnlyPort (p : Fin 12) (s t : State) : Prop := t = s.modPort p (fun _ => t.ports[p])
/-- Nothing but one memory stack differs. -/
def OnlyStack (k : Fin 8) (s t : State) : Prop := t = s.modStack k (fun _ => t.hbmStacks[k])
/-- Nothing but the vector-DSP unit of a caldera differs. -/
def OnlyDsp (n : Fin 64) (s t : State) : Prop := t = s.modCal n (fun c => { c with dsp := t.cals[n].dsp })
/-- Of a port, at most the flits that wait differ. -/
def QueuedOnly (p q : Port) : Prop := q = { p with txq := q.txq }
/-- What raising an event may change: the event registers of `t`'s own block apart, the management controller's log and
sideband, what goes to the host and what goes to the fabric. -/
def Raised (s t : State) : Prop :=
  t = { s with pwr := t.pwr, cp := t.cp, fab := t.fab, ports := t.ports }

/-- The commands that can change a beat register: a boundary, the end of a hold, the load of a beat count by PROBE
SYNC, and what can reset the device, a register write that reaches GLB_RESET included. -/
def beatCommand : Instr → Bool
  | .beatBoundary _ | .holdEnd | .probeSync | .fabricDiscover _ => true
  | .glbResetWarm _ | .glbResetCold _ | .functionLevelReset | .perst | .coldResetPin _ | .powerGood | .powerLoss | .thermalTrip => true
  | .registerWrite _ _ _ | .broadcastWrite _ _ _ | .mgmtRegWr | .nocDeliver _ => true
  | _ => false

end Sys2Proof.Machine
end

