-- ==== Sys2Proof/Certificates/Slice0/Obligations.lean ====
section
/-! DEFINITION. The statements for the provers. -/

open Sys2Proof Sys2Proof.Machine

/-- A step takes the command at the front of the queue and runs it on the state with the queue's rest (log 1). On an empty
queue a step lets one tick of 6.4 ns pass (the model's choice, log 2): the time advances, the conditions of the beat
or of the first held boundary are noted (R30), and the clocks and the logic of the regions run (log 87); nothing else
changes. A reset that waits for the answer to its register write then happens once that answer has left (R306). -/
def Obligations.StepRunsTheFrontCommand : Prop :=
  ((∀ (c : Instr) (s : State), step { s with pending := c :: s.pending } = exec c s) ∧
  (∀ (c : Instr) (rest : List Instr) (s : State), s.pending = c :: rest → step s = exec c { s with pending := rest })) ∧
  ((∀ s : State, s.pending = [] → step s = .next s.tick.resetNow) ∧
  (∀ s : State, s.resetDue = none → s.resetNow = s) ∧
  (∀ (s : State) (w : ResetAfter) (v : Word), s.resetDue = some (w, v) →
    (w.gone s = false → s.resetNow = s) ∧ (w.gone s = true → s.resetNow = ({ s with resetDue := none } : State).glbReset v)) ∧
  ∀ s : State, s.tick = { s with
        now := s.now + 1, regions := s.tick.regions, plls := s.tick.plls, free := s.tick.free
        glb := { s.glb with conds := s.tick.glb.conds, holds := s.tick.glb.holds } }
    ∧ s.tick.glb.holds.map (fun k => (k.beat, k.since)) = s.glb.holds.map (fun k => (k.beat, k.since))
    ∧ (∀ i : Fin 16, (s.regions[i]).cfg ≠ 2 ∨ (s.regions[i]).initHeld = true → s.tick.regions[i] = s.regions[i])
    ∧ (s.plls.any (fun p => p.locked) = false → s.tick.free = s.free ∧ s.tick.plls = s.plls
        ∧ ∀ i : Fin 16, s.tick.regions[i] = { s.regions[i] with ffs := (s.tick.regions[i]).ffs, paused := (s.tick.regions[i]).paused }))

/-- No command touches the queue, the time or the fused floor pace; only an idle step advances the time (logs 1 and 2). -/
def Obligations.CommandsLeaveQueueTimeAndFloor : Prop :=
  ∀ (c : Instr) (s t : State), exec c s = .next t →
    t.pending = s.pending ∧ t.now = s.now ∧ t.glb.floorPace = s.glb.floorPace

/-- Every other command leaves the beat count, the period, the last beat's length and the stretch and hold counters as
they are. -/
def Obligations.BeatRegistersChangeOnlyAtBeatCommands : Prop :=
  ∀ (c : Instr) (s t : State), beatCommand c = false → exec c s = .next t → t.glb.beats = s.glb.beats

/-- The state after reset meets the invariant. -/
def Obligations.ResetMeetsTheInvariant : Prop :=
 State.reset.Good

/-- Every step keeps the invariant: canonical stacked memory, the two logs within their 64 slots, the certified floor
pace. -/
def Obligations.EveryStepKeepsTheInvariant : Prop :=
  ∀ s t : State, s.Good → step s = .next t → t.Good

/-- After reset the device is its own geyser source with N = 512 and counts beats from zero (R24). Reset values that the
register tables state, in every group of registers. -/
def Obligations.ResetRegisterValues : Prop :=
  (State.reset.glb.isSource = true ∧ State.reset.glb.period = 512 ∧ State.reset.glb.beatCnt = 0
    ∧ State.reset.glb.beatLast = 0 ∧ State.reset.glb.beatCfg = 0x00010200) ∧
  ((∀ n : Fin 64, (State.reset.cals[n]).paceMin = 0xFFFFFFFF ∧ (State.reset.cals[n]).wdog = 0x03E8
    ∧ (State.reset.cals[n]).dsp.seed = 0x9E3779B9 ∧ (State.reset.cals[n]).passCommits = 0 ∧ (State.reset.cals[n]).xlog.recs = []) ∧
  (∀ k : Fin 8, (State.reset.hbmStacks[k]).idle = 0x040 ∧ (State.reset.hbmStacks[k]).postMax = 4
    ∧ (State.reset.hbmStacks[k]).low = 0x10 ∧ (State.reset.hbmStacks[k]).high = 0x20) ∧
  (∀ p : Fin 12, (State.reset.ports[p]).en = true ∧ (State.reset.ports[p]).admitOn = false ∧ (State.reset.ports[p]).st = .down
    ∧ (State.reset.ports[p]).creditTo = 0x02625A ∧ (State.reset.ports[p]).errMax = 0x40) ∧
  State.reset.fab.geyserTo = 0x09502F90 ∧ State.reset.fab.delay = 0x0100 ∧ State.reset.fab.idValid = false ∧
  State.reset.cp.ember = true ∧ State.reset.cfg.scrubEn = true ∧ State.reset.sec.scrubBeats = 0 ∧
  State.reset.pwr.phase = 1 ∧ State.reset.pwr.ilim = 0x09C4 ∧ State.reset.pwr.cap = 1500)

/-- BEAT_BOUNDARY: the next pulse, once due, takes effect: the count grows by one or is loaded, the pulse's period is in
force, the closed beat's length is held, a STRETCHED pulse is counted; with no pulse due, or before the device runs,
nothing happens. The closed beat's pace is latched, with its smallest value and its total, and judged against the
floor (R19, R20). A plan due to start begins its plan beat, unless the wake of a caldera holds the boundary; a plan
due to stop stops, and is suspended once its passes are done (R31). A context's plan that gives way is switched out; a
scrub that is ready starts, and one whose budget has run out ends with its length in boundaries (R366 to R369).
HOLD_END: a held boundary opens once the device is ready; the hold adds 1 to GLB_HOLD_CNT and its ticks to
GLB_HOLD_TICKS, puts the conditions of its beat, or UNATTRIBUTED, into GLB_HOLD_CAUSE, and changes neither the beat
count nor the period (R30). Completes (exec answers a next state with the own effect of the form): beatBoundary,
holdEnd. -/
def Obligations.BoundariesAndHolds : Prop :=
  ((∀ (s : State) (cycles : Vector Word 64) (p : Pulse) (ps : List Pulse), s.glb.pulses = p :: ps → p.due ≤ s.now →
    s.running = true → ∃ t, exec (.beatBoundary cycles) s = .next t
      ∧ t.glb.beatCnt = (if p.load then p.beat else s.glb.beatCnt + 1) ∧ t.glb.period = p.period
      ∧ t.glb.beatLast = BitVec.ofNat 32 (p.due - s.glb.beatStart)
      ∧ t.glb.stretchCnt = (if p.stretched then satInc s.glb.stretchCnt else s.glb.stretchCnt)
      ∧ t.glb.holdCnt = s.glb.holdCnt ∧ t.glb.holdTicks = s.glb.holdTicks) ∧
  (∀ (s : State) (cycles : Vector Word 64), s.running = false ∨ (∀ p ps, s.glb.pulses = p :: ps → s.now < p.due) →
    exec (.beatBoundary cycles) s = .next s) ∧
  (∀ (s : State) (cycles : Vector Word 64) (p : Pulse) (ps : List Pulse), s.glb.pulses = p :: ps → p.due ≤ s.now →
    s.running = true → p.handover = none → p.stop = none → s.plans = [] → s.sec.scrubs = [] → s.cp.ember = false →
    s.glb.holds = [] →
    ∃ t, exec (.beatBoundary cycles) s = .next t ∧ t.glb.holds = [] ∧ t.glb.beatStart = p.due ∧ ∀ n : Fin 64,
      let c : Caldera := s.cals[n]
      let d : Caldera := t.cals[n]
      let k : Word := if c.gated then 0 else cycles[n]
      d.paceLast = k ∧ d.paceTotal = c.paceTotal + k.setWidth 64
      ∧ d.paceMin = (if 0 < k.toNat ∧ k.toNat < c.paceMin.toNat then k else c.paceMin)
      ∧ d.belowFloor = (c.belowFloor || (!c.gated &&
          decide (k.toNat * 1000000 < s.glb.floorPace.toNat * t.glb.beatLast.toNat * 6400)))
      ∧ d.squallLimit = (c.squallLimit || c.limited)) ∧
  (∀ (s : State) (cycles : Vector Word 64) (p : Pulse) (ps : List Pulse) (q : Plan), s.glb.pulses = p :: ps → p.due ≤ s.now →
    s.running = true → p.handover = none → p.stop = none → p.load = false → s.plans = [q] → s.sec.scrubs = [] →
    s.cp.ember = false → s.glb.holds = [] → q.startsAt (s.glb.beatCnt + 1) = true → q.resuming = false → q.beat + 1 < q.beats →
    (s.planWakes q = false → ∃ t, exec (.beatBoundary cycles) s = .next t ∧ t.glb.holds = []
      ∧ (t.findPlan q.handle).map (fun r => (r.run, r.beat)) = some (.running, q.beat)) ∧
    (s.planWakes q = true → ∃ t, exec (.beatBoundary cycles) s = .next t ∧ t.findPlan q.handle = some q
      ∧ t.glb.holds.map (fun k => (k.beat, k.since, k.cause.getLsbD 5)) = [(s.glb.beatCnt + 1, p.due, true)])) ∧
  (∀ (s : State) (cycles : Vector Word 64) (p : Pulse) (ps : List Pulse) (q : Plan), s.glb.pulses = p :: ps → p.due ≤ s.now →
    s.running = true → p.handover = none → p.stop = none → s.plans = [q] → s.sec.scrubs = [] → s.cp.ember = false →
    s.glb.holds = [] → q.run = .running → q.stopDue = true →
    ∃ t r, exec (.beatBoundary cycles) s = .next t ∧ t.findPlan q.handle = some r ∧ r.beat = q.beat + 1 ∧ t.glb.holds = []
      ∧ (r.run = .suspended ∧ r.stopDue = false ∨ r.run = .stopping ∧ r.stopAt = some t.glb.beatCnt)) ∧
  (∀ (s : State) (q p : Plan), s.plans = [q, p] → q.handle ≠ p.handle → s.mayEvict q = true →
    ∃ r, s.switchContexts.findPlan q.handle = some r ∧ r.resident = false ∧ r.evict = false ∧ r.run = q.run) ∧
  (∀ (s : State) (sc : Scrub), s.sec.scrubs = [sc] → sc.startBeat = none → (s.dropFlits sc).scrubReady sc = true →
    ∃ x, s.scrubBoundary.sec.scrubs = [x] ∧ x.startBeat = some s.glb.beatCnt ∧ x.startTick = s.now ∧ x.beats = sc.beats
      ∧ x.ctxs = sc.ctxs ∧ s.scrubBoundary.pins.tapOn = false) ∧
  (∀ (s : State) (sc : Scrub), s.sec.scrubs = [sc] → sc.startBeat.isSome = true → sc.late = false → sc.cmd = none → sc.part = none →
    sc.elapsed s.now = true → s.scrubWorks sc = false → s.scrubImpaired sc = false →
    s.scrubBoundary.sec.scrubs = [] ∧ s.scrubBoundary.sec.scrubBeats = BitVec.ofNat 32 (sc.beats + 1)
      ∧ s.scrubBoundary.sec.scrubBudget = BitVec.ofNat 64 sc.budget ∧ s.scrubBoundary.pins.tapOn = true
      ∧ ∀ e ∈ s.scrubBoundary.sec.ctxs, ∀ i ∈ sc.ctxs, i.toNat ≠ e.1)) ∧
  ((∀ (s : State) (k : Hold) (rest : List Hold), s.glb.holds = k :: rest → s.ready k.beat k.quiet = true →
    ∃ t, exec .holdEnd s = .next t ∧ t.glb.holdCnt = satInc s.glb.holdCnt
      ∧ t.glb.holdTicks = satAdd s.glb.holdTicks (s.now - k.since)
      ∧ t.glb.holdCause = s.glb.holdCause ||| (if (k.cause ||| s.beatConds) &&& 0x2F = 0 then 0x10 else (k.cause ||| s.beatConds) &&& 0x2F)
      ∧ t.glb.beatCnt = s.glb.beatCnt ∧ t.glb.period = s.glb.period ∧ t.glb.stretchCnt = s.glb.stretchCnt) ∧
  (∀ (s : State) (k : Hold) (rest : List Hold), s.glb.holds = k :: rest → s.ready k.beat k.quiet = false →
    exec .holdEnd s = .next s))

/-- PULSE_EMISSION at a running source that has announced nothing, with no report, setting or notice: the next pulse opens
the next beat N ticks after the last emission and waits to take effect; nothing else changes. A source whose pulse
hands over to another device emits no more. GEYSER_BLOCK_SEND and GEYSER_COPY_SEND: FAB_GEYSER_DELAY ticks before an
emission a source with output ports sends the block of the pulse on each of them, and 16 ticks later a second copy
with REMAIN smaller by 256. STRETCH_RECEIVE and SQUALL_RECEIVE at a source whose next pulse is still open and hands
over to nobody: a hold D raises S, a squall length L raises the beat's length, the largest of each applies; the flit
leaves the inbox and its receive buffer. With no output port the pulse stays open until its emission (R27, R245).
GEYSER_RECEIVE of a good block that comes off the line: on a port that is not the input port it is only counted; on
the input port a block naming the next beat schedules its pulse R ÷ 16 ticks later, rounded to the nearest, where R is
REMAIN less half the round trip, and at once and LATE where R ≤ 0 (R246); a block that the line does not carry does
nothing there. GEYSER_TIMEOUT makes a device that is cut off its own source. Completes (exec answers a next state with
the own effect of the form): pulseEmission, geyserBlockSend, geyserCopySend, stretchReceive, squallReceive,
geyserReceive, geyserTimeout. -/
def Obligations.GeyserPulsesAndReports : Prop :=
  ((∀ s : State, s.running = true → s.glb.isSource = true → s.glb.source.announced = none → s.glb.source.stretchS = 0 →
    s.glb.source.squallL = 0 → s.glb.pulses = [] → s.glb.source.sets = [] → s.glb.source.notices = [] →
    s.glb.source.lastEmit + s.glb.period.toNat ≤ s.now →
    ∃ t, exec .pulseEmission s = .next t ∧ t = { s with glb := t.glb }
      ∧ t.glb.pulses = [{ beat := s.glb.beatCnt + 1, due := s.glb.source.lastEmit + s.glb.period.toNat, period := s.glb.period,
                          srcId := s.fab.id }]
      ∧ t.glb.source.lastEmit = s.glb.source.lastEmit + s.glb.period.toNat ∧ t.glb.beats = s.glb.beats) ∧
  (∀ s : State, s.running = true → s.glb.isSource = true → s.glb.pulses.all (fun p => (s.heirOf p).isNone) = true →
    s.glb.nextEmission ≤ s.now → ∃ t, exec .pulseEmission s = .next t
      ∧ t = { s with glb := t.glb } ∧ t.glb.source.lastEmit = s.glb.nextEmission
      ∧ t.glb.pulses = s.glb.pulses ++ [s.glb.source.announced.getD (s.glb.nextPulse s.fab.id)]) ∧
  (∀ s : State, s.running = false ∨ s.glb.isSource = false ∨ s.now < s.glb.nextEmission
      ∨ s.glb.pulses.any (fun p => (s.heirOf p).isSome) = true → exec .pulseEmission s = .next s)) ∧
  ((∀ s : State, s.running = true → s.glb.isSource = true → s.fab.outMask ≠ 0 → s.glb.source.announced = none →
    s.glb.pulses.all (fun p => (s.heirOf p).isNone) = true → s.glb.nextEmission ≤ s.now + s.fab.delay.toNat →
    ∃ t, exec .geyserBlockSend s = .next t ∧ t = { s with glb := t.glb, ports := t.ports }
      ∧ t.glb.source.announced = some (s.glb.nextPulse s.fab.id) ∧ t.glb.source.secondSent = false ∧ t.glb.beats = s.glb.beats
      ∧ ∀ p : Fin 12, t.ports[p] = if s.geyserOut p
          then (s.ports[p]).sendBlock 0x55 (geyserBody (s.glb.nextPulse s.fab.id) (16 * s.fab.delay.toNat)) else s.ports[p]) ∧
  (∀ (s : State) (p : Pulse), s.glb.source.announced = some p → s.glb.isSource = true → s.glb.source.secondSent = false →
    p.due + 16 ≤ s.now + s.fab.delay.toNat →
    ∃ t, exec .geyserCopySend s = .next t ∧ t = { s with glb := t.glb, ports := t.ports } ∧ t.glb.source.secondSent = true
      ∧ t.glb.source.announced = some p ∧ t.glb.beats = s.glb.beats
      ∧ ∀ q : Fin 12, t.ports[q] = if s.geyserOut q
          then (s.ports[q]).sendBlock 0x55 (geyserBody p (16 * s.fab.delay.toNat - 256)) else s.ports[q])) ∧
  ((∀ (s : State) (p : Fin 12) (f : Data2048) (rest : List (Fin 12 × Data2048)),
    takeFlit (fun e => flType e.2 == 0x10) s.fab.inbox = (some (p, f), rest) →
    s.glb.isSource = true → s.heir = none → s.glb.source.announced = none →
    s.now + (if s.fab.outMask = 0 then 0 else s.fab.delay.toNat) < s.glb.nextEmission →
    bitAt (flPayload f) 112 = false →
    exec .stretchReceive s = .next { s with
      fab := { s.fab with inbox := rest }, ports := (s.tookFlit rest p f).ports
      glb := { s.glb with source := { s.glb.source with
        stretchS := max s.glb.source.stretchS (rnum (flPayload f) 8 0 32), squallL := max s.glb.source.squallL 0 } } }) ∧
  (∀ (s : State) (p : Fin 12) (f : Data2048) (rest : List (Fin 12 × Data2048)),
    takeFlit (fun e => flType e.2 == 0x11) s.fab.inbox = (some (p, f), rest) →
    s.glb.isSource = true → s.heir = none → s.glb.source.announced = none →
    s.now + (if s.fab.outMask = 0 then 0 else s.fab.delay.toNat) < s.glb.nextEmission →
    exec .squallReceive s = .next { s with
      fab := { s.fab with inbox := rest }, ports := (s.tookFlit rest p f).ports
      glb := { s.glb with source := { s.glb.source with
        stretchS := max s.glb.source.stretchS 0, squallL := max s.glb.source.squallL (rnum (flPayload f) 8 0 32) } } }) ∧
  (∀ s : State, s.fab.inbox.any (fun e => flType e.2 == 0x10) = false → exec .stretchReceive s = .next s) ∧
  (∀ s : State, s.fab.inbox.any (fun e => flType e.2 == 0x11) = false → exec .squallReceive s = .next s)) ∧
  ((∀ (p : Fin 12) (x : LineItem) (s : State), ((s.ports[p]).st = .off → s.lineIn p x = (s, false))
    ∧ ((s.ports[p]).st ≠ .off → (s.ports[p]).loop = 0 → s.lineIn p x = (s, true))) ∧
  (∀ (s u : State) (p : Fin 12) (b : Data256), cbType b = 0x55 → s.lineIn p (.ctl b) = (u, true) → (s.ports[p]).badLeft = 0 →
    cbGood b (s.ports[p]).rxId = true → (s.ports[p]).carries = true → s.fab.inValid = false →
    exec (.geyserReceive p b) s = .next { u.tookBlocks p 1 with fab := { s.fab with ignored := satInc s.fab.ignored } }) ∧
  (∀ (s u : State) (p : Fin 12) (b : Data256), cbType b = 0x55 → s.lineIn p (.ctl b) = (u, true) → (s.ports[p]).badLeft = 0 →
    cbGood b (s.ports[p]).rxId = true → (s.ports[p]).carries = true → s.fab.inValid = true → s.fab.inPort.toNat = p.val →
    s.glb.isSource = false → (rfld b 4 0 64 : DWord) = s.glb.lastBeat + 1 →
    let r : Int := (rnum b 12 0 24 : Int) - 8 * ((s.ports[p]).rtt.toNat : Int)
    ∃ t, exec (.geyserReceive p b) s = .next t ∧ t.glb.beats = s.glb.beats ∧ t.fab.lastGeyser = s.now
      ∧ t.glb.pulses = s.glb.pulses ++ [blockPulse b (s.now + ((r + 8) / 16).toNat)] ∧ t.fab.miss = s.fab.miss
      ∧ (r ≤ 0 → t.fab.event.getLsbD 0 = true)) ∧
  (∀ (s u : State) (p : Fin 12) (b : Data256), cbType b = 0x55 → s.lineIn p (.ctl b) = (u, false) →
    exec (.geyserReceive p b) s = .next u) ∧
  (∀ s : State, s.glb.isSource = false → s.fab.lastGeyser + s.fab.geyserTo.toNat ≤ s.now → s.plans = [] →
    ∃ t, exec .geyserTimeout s = .next t ∧ t.glb.isSource = true ∧ t.glb.source.lastEmit = s.now
      ∧ t.fab.event.getLsbD 1 = true ∧ t.glb.beats = s.glb.beats))

/-- WLOAD and WLOAD_COMPLETE: the tile's next instruction, once its beat is open, puts its READY or EMPTY slot into
LOADING with the block's description; a LOADING or PINNED slot makes it wait; the load's end reads the image from SRAM
at SRC and leaves the slot READY. Nothing else changes. RELAY: the caldera becomes a member of the chain; with TO_SLOT
its slot enters LOADING, and a LOADING or PINNED slot makes it wait. RELAY_GRANULE: a member that has nothing waiting
to leave takes its next granule into its local copies, from its endpoint, which is emptied, or from SRAM; a kept
granule leaves first, on a free output endpoint; a member whose granules are all kept and forwarded leaves the chain;
the granule that fills a slot makes it READY, with the chain head's caldera and address as its recorded source (log
97). Of two members that share an endpoint the earlier one comes first; a member that forwards leaves once its last
granule has reached its conduit's ends. Completes (exec answers a next state with the own effect of the form): wload,
wloadComplete, relay, relayGranule. -/
def Obligations.WeightSlotsAndRelays : Prop :=
  ((∀ (n : Fin 64) (t : Fin 4) (s : State) (q : QInstr) (i : Fin 16), (s.cals[n]).nextOf t = some q → opOf q.raw = 0x22 →
    s.mayIssue n t q.beat = true → i = arrIdx (wlTile q.raw) (Fin.ofNat 4 (wlArray q.raw)) →
    ((((s.cals[n]).arrs[i]).slot (wlSlotB q.raw)).st = .ready ∨ (((s.cals[n]).arrs[i]).slot (wlSlotB q.raw)).st = .empty →
      exec (.wload n t) s = .next (s.modCal n (fun c => { c with
        arrs := vmod c.arrs i (fun a => a.setSlot (wlSlotB q.raw) { a.slot (wlSlotB q.raw) with
          st := .loading, fmt := BitVec.ofNat 4 (wlFmt q.raw), kValid := BitVec.ofNat 8 (wlKValid q.raw)
          blockId := wlBlockId q.raw, src := BitVec.ofNat 24 (wlSrc q.raw), chain := none, far := false, image := [] })
        queue := dropFirst t.val c.queue }))) ∧
    ((((s.cals[n]).arrs[i]).slot (wlSlotB q.raw)).st = .loading ∨ (((s.cals[n]).arrs[i]).slot (wlSlotB q.raw)).st = .pinned →
      exec (.wload n t) s = .next s)) ∧
  (∀ (n : Fin 64) (i : Fin 16) (b : Bool) (s : State), (((s.cals[n]).arrs[i]).slot b).st = .loading →
    (((s.cals[n]).arrs[i]).slot b).chain = none →
    exec (.wloadComplete n i b) s = .next (s.modCal n (fun c => c.modArr i (fun a => a.setSlot b { a.slot b with
      st := .ready, image := mreadN c.sram (a.slot b).src.toNat (imageSize (a.slot b).fmt.toNat) }))))) ∧
  (∀ (n : Fin 64) (t : Fin 4) (s : State) (q : QInstr) (raw : BitVec 256) (i : Fin 16), (s.cals[n]).nextOf t = some q →
    opOf q.raw = 0x23 → s.mayIssue n t q.beat = true → raw = q.raw.setWidth 256 →
    i = arrIdx (rlTile raw) (Fin.ofNat 4 (rlArray raw)) →
    (rlToSlot raw = false →
      exec (.relay n t) s = .next (s.modCal n (fun c => { c with
        queue := dropFirst t.val c.queue
        relays := c.relays ++ [{ raw := raw, idx := c.relayLog.length }], relayLog := c.relayLog ++ [raw] }))) ∧
    (rlToSlot raw = true → (((s.cals[n]).arrs[i]).slot (rlSlotB raw)).loadable = true →
      exec (.relay n t) s = .next (s.modCal n (fun c => { c with
        queue := dropFirst t.val c.queue
        relays := c.relays ++ [{ raw := raw, idx := c.relayLog.length }], relayLog := c.relayLog ++ [raw]
        arrs := vmod c.arrs i (fun a => a.setSlot (rlSlotB raw) { a.slot (rlSlotB raw) with
          st := .loading, fmt := BitVec.ofNat 4 (rlFmt raw), kValid := BitVec.ofNat 8 (rlKValid raw), blockId := rlBlockId raw
          src := BitVec.ofNat 24 (rlAddr raw), chain := some n, far := false, image := [] }) }))) ∧
    (rlToSlot raw = true → (((s.cals[n]).arrs[i]).slot (rlSlotB raw)).loadable = false → exec (.relay n t) s = .next s)) ∧
  (-- a member that only keeps: the granule at its endpoint goes to SRAM
  (∀ (n : Fin 64) (k : Nat) (s : State) (r : Relay) (e : Fin 64) (w : CWord), (s.cals[n]).relays[k]? = some r →
    rlForward r.raw = false → rlFromSram r.raw = false → rlToSlot r.raw = false → rlToSram r.raw = true →
    r.accepted < rlLen r.raw → e = Fin.ofNat 64 (rlInEp r.raw) → ((s.cals[n]).eps[e]).en = true → ((s.cals[n]).eps[e]).out = false →
    ((s.cals[n]).eps[e]).word = some w → mayAccept (s.cals[n]) k r = true →
    exec (.relayGranule n k) s = .next (s.modCal n (fun c => { c with
      sram := mwriteN c.sram (rlAddr r.raw + 64 * r.accepted) (toBytes w 64)
      eps := vmod c.eps e Endpoint.take
      relays := if r.accepted + 1 = rlLen r.raw then c.relays.eraseIdx k
        else c.relays.set k { r with accepted := r.accepted + 1, image := r.image ++ toBytes w 64 } }))) ∧
  -- the last granule fills the slot
  (∀ (n : Fin 64) (k : Nat) (s : State) (r : Relay) (e : Fin 64) (w : CWord) (m : Fin 64) (src : Nat),
    (s.cals[n]).relays[k]? = some r → s.chainHead n r.idx r.raw = some (m, src) →
    rlForward r.raw = false → rlFromSram r.raw = false → rlToSlot r.raw = true → rlToSram r.raw = false →
    r.accepted + 1 = rlLen r.raw → e = Fin.ofNat 64 (rlInEp r.raw) → ((s.cals[n]).eps[e]).en = true → ((s.cals[n]).eps[e]).out = false →
    ((s.cals[n]).eps[e]).word = some w → mayAccept (s.cals[n]) k r = true →
    exec (.relayGranule n k) s = .next (s.modCal n (fun c => { c with
      arrs := vmod c.arrs (arrIdx (rlTile r.raw) (Fin.ofNat 4 (rlArray r.raw))) (fun a => a.setSlot (rlSlotB r.raw)
        { a.slot (rlSlotB r.raw) with
          st := .ready, image := r.image ++ toBytes w 64, far := false, src := BitVec.ofNat 24 src, chain := some m })
      eps := vmod c.eps e Endpoint.take
      relays := c.relays.eraseIdx k }))) ∧
  -- a kept granule leaves before another is taken
  (∀ (n : Fin 64) (k : Nat) (s : State) (r : Relay) (e : Fin 64), (s.cals[n]).relays[k]? = some r → rlForward r.raw = true →
    r.forwarded < r.accepted → e = Fin.ofNat 64 (rlOutEp r.raw) → ((s.cals[n]).eps[e]).en = true → ((s.cals[n]).eps[e]).out = true →
    (((s.cals[n]).eps[e]).word = none → mayForward (s.cals[n]) k r = true →
      exec (.relayGranule n k) s = .next (s.modCal n (fun c => { c with
        eps := vmod c.eps e (fun x => x.put (ofBytes 512 (slice r.image (64 * r.forwarded) 64)))
        relays := c.relays.set k { r with forwarded := r.forwarded + 1 } }))) ∧
    (r.forwarded < rlLen r.raw → ((s.cals[n]).eps[e]).word.isSome = true ∨ mayForward (s.cals[n]) k r = false →
      exec (.relayGranule n k) s = .next s)) ∧
  -- a forwarding member takes a granule, from SRAM at a chain's head and else from its endpoint, and sends it on at once
  (∀ (n : Fin 64) (k : Nat) (s : State) (r : Relay) (o : Fin 64), (s.cals[n]).relays[k]? = some r → rlForward r.raw = true →
    rlToSlot r.raw = false → r.forwarded = r.accepted → r.accepted < rlLen r.raw → o = Fin.ofNat 64 (rlOutEp r.raw) →
    ((s.cals[n]).eps[o]).en = true → ((s.cals[n]).eps[o]).out = true → ((s.cals[n]).eps[o]).word = none →
    mayForward (s.cals[n]) k r = true → r.image.length = 64 * r.accepted →
    (rlFromSram r.raw = true → rlToSram r.raw = false → exec (.relayGranule n k) s = .next (s.modCal n (fun c =>
      let g := mreadN c.sram (rlAddr r.raw + 64 * r.accepted) 64
      { c with
        eps := vmod c.eps o (fun x => x.put (ofBytes 512 g))
        relays := c.relays.set k { r with accepted := r.accepted + 1, forwarded := r.forwarded + 1, image := r.image ++ g } }))) ∧
    (∀ (e : Fin 64) (w : CWord), rlFromSram r.raw = false → e = Fin.ofNat 64 (rlInEp r.raw) → ((s.cals[n]).eps[e]).en = true →
      ((s.cals[n]).eps[e]).out = false → ((s.cals[n]).eps[e]).word = some w → mayAccept (s.cals[n]) k r = true →
      exec (.relayGranule n k) s = .next (s.modCal n (fun c => { c with
        sram := if rlToSram r.raw then mwriteN c.sram (rlAddr r.raw + 64 * r.accepted) (toBytes w 64) else c.sram
        eps := vmod (vmod c.eps e Endpoint.take) o (fun x => x.put w)
        relays := c.relays.set k { r with accepted := r.accepted + 1, forwarded := r.forwarded + 1, image := r.image ++ toBytes w 64 } })))) ∧
  -- a member that has nothing more to take or to send leaves
  (∀ (n : Fin 64) (k : Nat) (s : State) (r : Relay), (s.cals[n]).relays[k]? = some r → rlForward r.raw = true →
    r.accepted = rlLen r.raw → r.forwarded = rlLen r.raw →
    (s.conduitDrained (.cal n (Fin.ofNat 64 (rlOutEp r.raw))) = true →
      exec (.relayGranule n k) s = .next (s.modCal n (fun c => { c with relays := c.relays.eraseIdx k }))) ∧
    (s.conduitDrained (.cal n (Fin.ofNat 64 (rlOutEp r.raw))) = false → exec (.relayGranule n k) s = .next s)))

/-- PASS_ISSUE: once every condition of R49 holds, the next pass enters FEED: it takes the next serial, its generators are
snapshotted, the slots it selects are PINNED, its instruction leaves the queue. Before its beat, and while a condition
does not hold, nothing changes, and CAL_ISSUE_WAIT of the caldera's first pass says which conditions do not hold (log
95; a pass that only the cap of two keeps shows OCCUPANCY, log 115). A format clash sets FMT_ERR on the pass's arrays,
issues nothing and stops the plan. A replay issues before any other pass of its caldera, from the snapshot of its
generators and in its place of the issue order and of its chain, and is counted; a tile that has no part in it issues
nothing meanwhile, nor does the tile of a pass that a fault has struck until the plan restarts (R67). Completes (exec
answers a next state with the own effect of the form): passIssue. -/
def Obligations.PassesIssueInOrder : Prop :=
  ((∀ (n : Fin 64) (t : Fin 4) (s : State) (pl : Plan) (q : QInstr), s.planOn n = some pl → (s.cals[n]).sarmDue pl.beat = false →
    (s.cals[n]).replays = [] → (s.cals[n]).nextOf t = some q → opOf q.raw = 0x21 → pl.run = .running →
    (pl.beat < q.beat → exec (.passIssue n t) s = .next s) ∧
    (q.beat ≤ pl.beat → issueWaits (s.cals[n]) q.raw pl.beat none ≠ 0 → fmtClash (s.cals[n]) q.raw = false →
      exec (.passIssue n t) s = .next s) ∧
    (q.beat ≤ pl.beat → issueWaits (s.cals[n]) q.raw pl.beat none = 0 → fmtClash (s.cals[n]) q.raw = false →
      ∃ (u : State) (p : Pass), exec (.passIssue n t) s = .next u ∧ OnlyCal n s u
        ∧ (u.cals[n]).passes = (s.cals[n]).passes ++ [p] ∧ p.raw = q.raw ∧ p.serial = (s.cals[n]).issued ∧ p.st = .feed
        ∧ p.issueBeat = q.beat ∧ p.dueBeat = q.beat + apBeats q.raw - 1 ∧ p.rows = 0 ∧ p.drained = 0 ∧ p.snaps = p.gens
        ∧ (u.cals[n]).issued = (s.cals[n]).issued + 1
        ∧ (u.cals[n]).queue = dropFirst t.val (s.cals[n]).queue ∧ (u.cals[n]).sram = (s.cals[n]).sram
        ∧ ∀ a ∈ apArrays q.raw, (((u.cals[n]).arrs[arrIdx (apTile q.raw) a]).slot (apSlotB q.raw a.val)).st = .pinned) ∧
    (q.beat ≤ pl.beat → fmtClash (s.cals[n]) q.raw = true → pl.stop = none → s.findPlan pl.handle = some pl →
      ∃ u, exec (.passIssue n t) s = .next u ∧ (u.cals[n]).passes = (s.cals[n]).passes ∧ (u.cals[n]).queue = (s.cals[n]).queue
        ∧ (u.findPlan pl.handle).map (·.stop) = some (some .fmtErr)
        ∧ ∀ a ∈ apArrays q.raw, ((u.cals[n]).arrs[arrIdx (apTile q.raw) a]).fmtErr = true)) ∧
  (∀ (n : Fin 64) (s : State) (pl : Plan) (q : QInstr), s.planOn n = some pl → pl.run = .running → (s.cals[n]).replays = [] →
    (s.cals[n]).queue.find? (fun q => opOf q.raw == 0x21) = some q →
    s.issueWait n = (if q.beat ≤ pl.beat then (0 : BitVec 6) else 1) ||| issueWaits (s.cals[n]) q.raw pl.beat none)) ∧
  ((∀ (n : Fin 64) (t : Fin 4) (s : State) (pl : Plan) (r : Pass) (rest : List Pass), s.planOn n = some pl →
    (s.cals[n]).sarmDue pl.beat = false → (s.cals[n]).replays = r :: rest → pl.run = .running →
    (s.cals[n]).tileParked t.val = false →
    apTile r.raw = t.val → r.issueBeat ≤ pl.beat → fmtClash (s.cals[n]) r.raw = false →
    issueWaits ((s.cals[n]).without r.again) r.raw pl.beat (some r) = 0 →
    ∃ (u : State) (p : Pass), exec (.passIssue n t) s = .next u ∧ OnlyCal n s u
      ∧ (u.cals[n]).passes = (s.cals[n]).passes ++ [p] ∧ p.raw = r.raw ∧ p.issueBeat = r.issueBeat ∧ p.dueBeat = r.dueBeat
      ∧ p.serial = r.serial ∧ p.chain = r.chain ∧ p.chainPos = r.chainPos
      ∧ p.st = .feed ∧ p.gens = r.snaps ∧ p.snaps = r.snaps
      ∧ (u.cals[n]).replays = (s.cals[n]).replays.filter (fun q => q.serial != r.serial) ∧ (u.cals[n]).queue = (s.cals[n]).queue
      ∧ (u.cals[n]).passReplays = satInc (s.cals[n]).passReplays) ∧
  (∀ (n : Fin 64) (t : Fin 4) (s : State) (pl : Plan) (r : Pass) (rest : List Pass), s.planOn n = some pl →
    (s.cals[n]).replays = r :: rest → (s.cals[n]).tileParked (apTile r.raw) = false → apTile r.raw ≠ t.val →
    exec (.passIssue n t) s = .next s) ∧
  (∀ (n : Fin 64) (t : Fin 4) (s : State), (s.cals[n]).tileParked t.val = true → exec (.passIssue n t) s = .next s))

/-- ROW_ADMIT: the feeding pass takes its next staged row, which the stream slot's position passes; every unmasked column
of every enabled array gets the row's sum over its K groups in order, from the pass's initial value, and every other
accumulator value stays; the last row leaves the pass HELD or draining. A pass 512 rows ahead of its drain waits, and
so does one whose stream still feeds an earlier pass. Completes (exec answers a next state with the own effect of the
form): rowAdmit. -/
def Obligations.RowsAccumulate : Prop :=
  ∀ (n : Fin 64) (t : Fin 4) (s : State) (p : Pass) (k : Fin 64) (row : List Byte) (place : Nat),
    (s.cals[n]).passes.find? (fun p => p.st == .feed && apTile p.raw == t.val) = some p → k = Fin.ofNat 64 (apActStream p.raw) →
    place = p.actStart + p.rows * p.rowLen - ((s.cals[n]).streams[k]).base →
    (s.cals[n]).stagedAt k place p.rowLen = some row →
    (((s.cals[n]).streams[k]).st = .armed ∨ ((s.cals[n]).streams[k]).st = .active ∨ ((s.cals[n]).streams[k]).st = .halted) →
    (p.rows < chainDrained (s.cals[n]) p + 512 → (s.cals[n]).feedsNow k p = true → ∃ (u : State) (p' : Pass), exec (.rowAdmit n t) s = .next u ∧ OnlyCal n s u
      ∧ p' ∈ (u.cals[n]).passes ∧ p'.serial = p.serial ∧ p'.raw = p.raw ∧ p'.rows = p.rows + 1 ∧ p'.drained = p.drained
      ∧ p'.st = (if p.rows + 1 < apRows p.raw then .feed else if apChainOpen p.raw then .held else .drain)
      ∧ ((u.cals[n]).streams[k]).pos = max ((s.cals[n]).streams[k]).pos (place + p.rowLen)
      ∧ (u.cals[n]).sram = (s.cals[n]).sram ∧ (u.cals[n]).queue = (s.cals[n]).queue
      ∧ (∀ (j : Nat) (a : Fin 4) (c : Nat), (apArrays p.raw)[j]? = some a → c ∈ setBits (apNMask p.raw a.val) →
          tget (0 : Word) ((u.cals[n]).arrs[arrIdx (apTile p.raw) a]).acc ((apAccBase p.raw + p.rows) % 512 * 64 + c) =
            (column (((s.cals[n]).arrs[arrIdx (apTile p.raw) a]).slot (apSlotB p.raw a.val)) (apAFmt p.raw) row
              (apKMask p.raw a.val) (apStrict p.raw) (apMaxr p.raw) (apFlush p.raw) c
              (initAcc (s.cals[n]) p a j (apArrays p.raw).length p.rows c).1).acc)
      ∧ (∀ (i : Fin 16) (x : Nat),
          (∀ a ∈ apArrays p.raw, ∀ c ∈ setBits (apNMask p.raw a.val),
            ¬(i = arrIdx (apTile p.raw) a ∧ x = (apAccBase p.raw + p.rows) % 512 * 64 + c)) →
          tget (0 : Word) ((u.cals[n]).arrs[i]).acc x = tget (0 : Word) ((s.cals[n]).arrs[i]).acc x)) ∧
    (chainDrained (s.cals[n]) p + 512 ≤ p.rows ∨ (s.cals[n]).feedsNow k p = false → exec (.rowAdmit n t) s = .next s)

/-- DRAIN_BLOCK: the oldest draining pass of a tile writes its next complete block of converted rows at the ring's write
position, which passes them; a pass whose rows are all drained may commit; before the block is complete, while an
earlier pass fills the ring, and without ring space it waits. PASS_COMMIT: the oldest pass that may commit leaves with
its chain; CAL_PASS_COMMITS grows by their number; their flags are merged into the array status; the ring's committed
position becomes the pass's end. A drained pass that is alone on a running plan's caldera may commit once its beat is
due. Before the plan's final beat nothing outside the caldera changes; in it the commit may end the plan's run. With
no pass to commit nothing happens. The commit of a chain that captured a product of zero and infinity appends one
record of type 1 with the first occurrence's place to the exception log, or counts it as dropped when 64 records are
present. Completes (exec answers a next state with the own effect of the form): drainBlock, passCommit. -/
def Obligations.PassesDrainAndCommit : Prop :=
  (∀ (n : Fin 64) (t : Fin 4) (s : State) (p : Pass) (b : Nat) (ring : DrainRing),
    (s.cals[n]).passes.find? (fun p => apTile p.raw == t.val && !apChainOpen p.raw && decide (p.drained < apRows p.raw)) = some p →
    b = drainBlockRows p.raw p.drained → ring = ringOf (s.cals[n]) p.raw → ring ∈ (s.cals[n]).rings →
    (p.drained + b ≤ p.rows → (s.cals[n]).ringTaken p = false →
      ring.wr - ring.freed + b * drainRowBytes p.raw ≤ ring.len.toNat →
      ∃ (u : State) (p' : Pass), exec (.drainBlock n t) s = .next u ∧ OnlyCal n s u
        ∧ p' ∈ (u.cals[n]).passes ∧ p'.serial = p.serial ∧ p'.drained = p.drained + b
        ∧ p'.st = (if p.drained + b = apRows p.raw then .commit else p.st)
        ∧ (u.cals[n]).sram = ringWrite (s.cals[n]).sram ring ring.wr (drainRows (s.cals[n]) p p.drained b).1
        ∧ (let w := ring.wr + (drainRows (s.cals[n]) p p.drained b).1.length
          ringOf (u.cals[n]) p.raw = { ring with wr := w, blocks := ring.blocks ++ [w] })
        ∧ (∀ r ∈ (s.cals[n]).rings, r.base ≠ ring.base ∨ r.len ≠ ring.len → r ∈ (u.cals[n]).rings)
        ∧ (u.cals[n]).arrs = (s.cals[n]).arrs ∧ (u.cals[n]).queue = (s.cals[n]).queue) ∧
    (p.rows < p.drained + b ∨ (s.cals[n]).ringTaken p = true
        ∨ ring.len.toNat < ring.wr - ring.freed + b * drainRowBytes p.raw →
      exec (.drainBlock n t) s = .next s)) ∧
  ((∀ (n : Fin 64) (t : Fin 4) (s : State) (pl : Plan) (p : Pass), committable s n t = some p → s.planOn n = some pl →
    ∃ u, exec (.passCommit n t) s = .next (u.tryFinish pl.handle) ∧ OnlyCal n s u
      ∧ (s.findPlan pl.handle = some pl → pl.beat + 1 < pl.beats → exec (.passCommit n t) s = .next u)
      ∧ (u.cals[n]).passes = (s.cals[n]).passes.filter (fun q => q.chain != p.chain)
      ∧ (u.cals[n]).passCommits = satAdd (s.cals[n]).passCommits ((s.cals[n]).passes.filter (fun q => q.chain == p.chain)).length
      ∧ (∀ (q : Pass) (a : Fin 4), q ∈ (s.cals[n]).passes → q.chain = p.chain → a ∈ apArrays q.raw →
          (q.inv.getLsbD a.val = true → ((u.cals[n]).arrs[arrIdx (apTile q.raw) a]).invalid = true)
          ∧ (q.sat.getLsbD a.val = true → ((u.cals[n]).arrs[arrIdx (apTile q.raw) a]).sat = true)
          ∧ (q.flush.getLsbD a.val = true → ((u.cals[n]).arrs[arrIdx (apTile q.raw) a]).flush = true))
      ∧ (∀ r ∈ (u.cals[n]).rings, r.base = apDrainBase p.raw → r.len = apDrainLen p.raw → r.committed = p.ringStop)
      ∧ (u.cals[n]).sram = (s.cals[n]).sram ∧ (u.cals[n]).queue = (s.cals[n]).queue ∧ (u.cals[n]).replays = (s.cals[n]).replays) ∧
  (∀ (n : Fin 64) (t : Fin 4) (s : State) (pl : Plan) (p : Pass), s.planOn n = some pl → pl.run = .running → (s.cals[n]).passes = [p] →
    p.st = .commit → apTile p.raw = t.val → p.dueBeat ≤ pl.commitBeat s.glb.beatCnt → committable s n t = some p) ∧
  (∀ (n : Fin 64) (t : Fin 4) (s : State), committable s n t = none → exec (.passCommit n t) s = .next s)) ∧
  (∀ (n : Fin 64) (s : State) (p : Pass) (ctx : Byte) (o : Occ), 
    (chainOcc ((s.cals[n]).passes.filter (fun q => q.chain == p.chain))).1 = some o → o.arr < 16 → o.row < 2 ^ 32 → o.col < 64 →
    ((s.cals[n]).xlog.recs.length < 64 → ∃ r, ((commitPass s n p ctx).cals[n]).xlog.recs = (s.cals[n]).xlog.recs ++ [r]
      ∧ ((commitPass s n p ctx).cals[n]).xlog.drop = (s.cals[n]).xlog.drop
      ∧ rnum r 0 0 4 = 1 ∧ rnum r 0 4 4 = o.arr ∧ rnum r 4 0 32 = o.row ∧ rnum r 8 0 6 = o.col) ∧
    (64 ≤ (s.cals[n]).xlog.recs.length → ((commitPass s n p ctx).cals[n]).xlog.recs = (s.cals[n]).xlog.recs
      ∧ ((commitPass s n p ctx).cals[n]).xlog.drop = satInc (s.cals[n]).xlog.drop ∧ ((commitPass s n p ctx).cals[n]).xlogOvf = true))

/-- GATE, WAKE and PACE_MIN_CLR. A GATE on a caldera that no loaded plan names and that neither wakes nor zeroes is
accepted; else, or with WAKE in the same write, GATE_REFUSED is set; WAKE starts the wake of a gated caldera and does
nothing on another; CAL_PACE_MIN becomes all ones. GATE_EFFECT, WAKE_POWER_ON and ZEROING_COMPLETE. A gated caldera
has lost its SRAM, accumulators, weight slots, DSP registers and check units but for their sticky bits, all of which
read as zeroed meanwhile (the model's choice, log 24), and keeps its exception log and its registers; the turn-on
starts the zeroing engine; the engine's end leaves SRAM zero, the slots EMPTY, the generators at the nonzero constant
and the caldera awake, and clears the exception log unless the caldera was waking. Completes (exec answers a next
state with the own effect of the form): gate, wake, paceMinClr, gateEffect, wakePowerOn, zeroingComplete. -/
def Obligations.GatingWakingAndZeroing : Prop :=
  (∀ (n : Fin 64) (s : State), 5 ≤ s.pwr.phase.toNat →
    (s.gateRefused n false = false → exec (.gate n false) s = .next (s.modCal n (fun c => { c with gatePending := !c.gated }))) ∧
    (s.gateRefused n false = true → exec (.gate n false) s = .next (s.modCal n (fun c => { c with gateRefused := true }))) ∧
    exec (.gate n true) s = .next (s.modCal n (fun c =>
      { c with gateRefused := true, gated := false, waking := c.waking || c.gated })) ∧
    exec (.wake n) s = .next (s.modCal n (fun c => { c with gated := false, waking := c.waking || c.gated })) ∧
    exec (.paceMinClr n) s = .next (s.modCal n (fun c => { c with paceMin := 0xFFFFFFFF }))) ∧
  ((∀ (n : Fin 64) (s : State), (s.cals[n]).gatePending = true → ∃ u, exec (.gateEffect n) s = .next u
    ∧ u = { s with cals := u.cals, free := s.free + 1 } ∧ (∀ m : Fin 64, m ≠ n → u.cals[m] = s.cals[m])
    ∧ (u.cals[n]).gated = true ∧ (u.cals[n]).gatePending = false ∧ (u.cals[n]).sram = [] ∧ (u.cals[n]).dsp.busy = false
    ∧ (∀ i : Fin 16, ((u.cals[n]).arrs[i]).acc = [] ∧ ((u.cals[n]).arrs[i]).slotA = {} ∧ ((u.cals[n]).arrs[i]).slotB = {}
        ∧ ((u.cals[n]).arrs[i]).invalid = ((s.cals[n]).arrs[i]).invalid)
    ∧ (∀ v : Fin 32, (u.cals[n]).dsp.v[v] = 0) ∧ (∀ g : Fin 16, (u.cals[n]).dsp.ag[g] = {})
    ∧ (∀ i : Fin 2, (u.cals[n]).chk[i] = { overrun := ((s.cals[n]).chk[i]).overrun, paramErr := ((s.cals[n]).chk[i]).paramErr })
    ∧ (u.cals[n]).xlog = (s.cals[n]).xlog ∧ (u.cals[n]).xlogOvf = (s.cals[n]).xlogOvf
    ∧ (u.cals[n]).passCommits = (s.cals[n]).passCommits ∧ (u.cals[n]).paceMin = (s.cals[n]).paceMin) ∧
  (∀ (n : Fin 64) (s : State), (s.cals[n]).waking = true →
    exec (.wakePowerOn n) s = .next (s.modCal n (fun c => { c with zeroing := true }))) ∧
  (∀ (n : Fin 64) (s : State), (s.cals[n]).zeroing = true → ∃ u, exec (.zeroingComplete n) s = .next u
    ∧ u = { s with cals := u.cals, sec := u.sec } ∧ (∀ m : Fin 64, m ≠ n → u.cals[m] = s.cals[m])
    ∧ (u.cals[n]).zeroing = false ∧ (u.cals[n]).waking = false ∧ (∀ a, mread (u.cals[n]).sram a = 0)
    ∧ (∀ i : Fin 16, ((u.cals[n]).arrs[i]).slotA.st = .empty ∧ ((u.cals[n]).arrs[i]).slotB.st = .empty
        ∧ ((u.cals[n]).arrs[i]).gen = 0x9E3779B9 ∧ ((u.cals[n]).arrs[i]).invalid = ((s.cals[n]).arrs[i]).invalid
        ∧ ∀ x, tget (0 : Word) ((u.cals[n]).arrs[i]).acc x = 0)
    ∧ (u.cals[n]).dsp.seed = 0x9E3779B9 ∧ (∀ v : Fin 32, (u.cals[n]).dsp.v[v] = 0)
    ∧ ((s.cals[n]).waking = true → (u.cals[n]).xlog = (s.cals[n]).xlog)
    ∧ ((s.cals[n]).waking = false → (u.cals[n]).xlog.recs = [] ∧ (u.cals[n]).xlog.drop = 0)))

/-- The instructions that work on registers alone: when the unit's next instruction has the opcode, only the DSP unit
changes; the destination register may change and no other; the generator addresses, the mode and the place of the
program stay, no flag is cleared, and the program counter advances. Without such an instruction nothing changes.
Completes (exec answers a next state with the own effect of the form): vadd, vsub, vmul, vfma, vmax, vmin, vcmul,
vrsum, vrmax, vexp, vlog, vrsqrt, vrcp, vsigm, vtanh, vcvti, vcvto. -/
def Obligations.DspRegisterInstructionsFrame : Prop :=
  ∀ e ∈ ([(Instr.vadd, 0x10), (Instr.vsub, 0x11), (Instr.vmul, 0x12), (Instr.vfma, 0x13), (Instr.vmax, 0x14), (Instr.vmin, 0x15),
      (Instr.vcmul, 0x16), (Instr.vrsum, 0x18), (Instr.vrmax, 0x19), (Instr.vexp, 0x20), (Instr.vlog, 0x21), (Instr.vrsqrt, 0x22),
      (Instr.vrcp, 0x23), (Instr.vsigm, 0x24), (Instr.vtanh, 0x25), (Instr.vcvti, 0x30), (Instr.vcvto, 0x31)] :
      List ((Fin 64 → Instr) × Nat)),
    ∀ (n : Fin 64) (s : State),
      (∀ i, s.dspNext n e.2 = some i → ∃ u, exec (e.1 n) s = .next u ∧ OnlyDsp n s u
        ∧ (u.cals[n]).dsp.pc = (s.cals[n]).dsp.pc + 1
        ∧ (∀ v : Fin 32, v ≠ dspVd i → (u.cals[n]).dsp.v[v] = (s.cals[n]).dsp.v[v])
        ∧ (u.cals[n]).dsp.ag = (s.cals[n]).dsp.ag ∧ (u.cals[n]).dsp.mode = (s.cals[n]).dsp.mode
        ∧ (u.cals[n]).dsp.progBase = (s.cals[n]).dsp.progBase ∧ (u.cals[n]).dsp.srchNone = (s.cals[n]).dsp.srchNone
        ∧ (u.cals[n]).dsp.fault = (s.cals[n]).dsp.fault ∧ (u.cals[n]).dsp.busy = (s.cals[n]).dsp.busy
        ∧ ((s.cals[n]).dsp.invalid = true → (u.cals[n]).dsp.invalid = true)
        ∧ ((s.cals[n]).dsp.sat = true → (u.cals[n]).dsp.sat = true)
        ∧ ((s.cals[n]).dsp.flush = true → (u.cals[n]).dsp.flush = true)) ∧
      (s.dspNext n e.2 = none → exec (e.1 n) s = .next s)

/-- VADD, VSUB, VMUL and VFMA: every lane is the exact value rounded once, FP32 to nearest without a draw, BF16 and FP16
under DSP_MODE with one draw for each lane in ascending order when SROUND is set. VMUL and VFMA: a lane that
multiplies zero by infinity sets INVALID in DSP_STATUS, and without one they leave it. Completes (exec answers a next
state with the own effect of the form): vadd, vsub, vmul, vfma. -/
def Obligations.DspArithmetic : Prop :=
  (∀ e ∈ ([(Instr.vadd, 0x10, fun a b _ => a.add b), (Instr.vsub, 0x11, fun a b _ => a.add b.neg),
      (Instr.vmul, 0x12, fun a b _ => a.mul b), (Instr.vfma, 0x13, fun a b c => (a.mul b).add c)] :
      List ((Fin 64 → Instr) × Nat × (Machine.Num → Machine.Num → Machine.Num → Machine.Num))),
    ∀ (n : Fin 64) (s : State) (i : DWord), s.dspNext n e.2.1 = some i → dspType i < 3 →
      ∃ u, exec (e.1 n) s = .next u ∧
        ∀ (j : Nat) (x : Machine.Num), j < laneCount (dspType i) →
          x = e.2.2 (laneNum (dspType i) (s.cals[n]).dsp.v[dspVa i] j) (laneNum (dspType i) (s.cals[n]).dsp.v[dspVb i] j)
            (laneNum (dspType i) (s.cals[n]).dsp.v[dspVc i] j) →
          (dspType i = 0 → lane 0 (u.cals[n]).dsp.v[dspVd i] j = (roundFP32 x).toNat
            ∧ (u.cals[n]).dsp.seed = (s.cals[n]).dsp.seed) ∧
          (dspType i ≠ 0 → (s.cals[n]).dsp.mode.getLsbD 0 = false → (u.cals[n]).dsp.seed = (s.cals[n]).dsp.seed
            ∧ lane (dspType i) (u.cals[n]).dsp.v[dspVd i] j =
              ((laneFmt (dspType i)).convert x none ((s.cals[n]).dsp.mode.getLsbD 1) ((s.cals[n]).dsp.mode.getLsbD 2)).code % 2 ^ 16) ∧
          (dspType i ≠ 0 → (s.cals[n]).dsp.mode.getLsbD 0 = true → (u.cals[n]).dsp.seed = advance 64 (s.cals[n]).dsp.seed
            ∧ lane (dspType i) (u.cals[n]).dsp.v[dspVd i] j =
              ((laneFmt (dspType i)).convert x (some (advance (j + 1) (s.cals[n]).dsp.seed)) ((s.cals[n]).dsp.mode.getLsbD 1)
                ((s.cals[n]).dsp.mode.getLsbD 2)).code % 2 ^ 16)) ∧
  (∀ e ∈ ([(Instr.vmul, 0x12), (Instr.vfma, 0x13)] : List ((Fin 64 → Instr) × Nat)),
    ∀ (n : Fin 64) (s : State) (i : DWord), s.dspNext n e.2 = some i →
      ∃ u, exec (e.1 n) s = .next u ∧ (u.cals[n]).dsp.invalid = ((s.cals[n]).dsp.invalid ||
        (List.range (laneCount (dspType i))).any (fun j => zeroTimesInf (laneNum (dspType i) (s.cals[n]).dsp.v[dspVa i] j)
          (laneNum (dspType i) (s.cals[n]).dsp.v[dspVb i] j))))

/-- VMAX and VMIN pick a lane value and round nothing; VCMUL forms both parts of each complex lane with one rounding each,
or NaN in both when one of its four products is zero times infinity; VRSUM and VRMAX leave the tree's result in FP32
lane 0 and zeros in the other lanes. None of them draws. VEXP, VLOG, VRSQRT, VRCP, VSIGM and VTANH on FP32 lanes: each
lane is the function of its lane, and the special values are those of every row of the table of R111: NaN, the
infinities, the zeros and the negative finite values. VCVTO to BF16 or FP16 writes 32 elements to bytes 0 to 63 and
zeros beyond; VCVTI gives each element of a BF16 or FP16 row as an FP32 lane, a subnormal one flushed under FLUSH_SUB
(DEDUCED, log 14), and an MX row whose scale is 0xFF as NaN in all 32 lanes. Completes (exec answers a next state with
the own effect of the form): vmax, vmin, vrsum, vrmax, vexp, vlog, vrsqrt, vrcp, vsigm, vtanh, vcmul, vcvto, vcvti. -/
def Obligations.DspSelectionFunctionsAndConversion : Prop :=
  ((∀ e ∈ ([(Instr.vmax, 0x14, Machine.Num.max), (Instr.vmin, 0x15, Machine.Num.min)] : List ((Fin 64 → Instr) × Nat × (Machine.Num → Machine.Num → Machine.Num))),
    ∀ (n : Fin 64) (s : State) (i : DWord), s.dspNext n e.2.1 = some i → dspType i < 3 → ∃ u, exec (e.1 n) s = .next u
      ∧ (u.cals[n]).dsp.seed = (s.cals[n]).dsp.seed ∧ ∀ j, j < laneCount (dspType i) →
        lane (dspType i) (u.cals[n]).dsp.v[dspVd i] j = ((laneFmt (dspType i)).convert
          (e.2.2 (laneNum (dspType i) (s.cals[n]).dsp.v[dspVa i] j) (laneNum (dspType i) (s.cals[n]).dsp.v[dspVb i] j))
          none true false).code % 2 ^ (laneFmt (dspType i)).width) ∧
  (∀ (n : Fin 64) (s : State) (i : DWord), s.dspNext n 0x16 = some i → ∃ u, exec (.vcmul n) s = .next u
    ∧ (u.cals[n]).dsp.seed = (s.cals[n]).dsp.seed ∧ ∀ j, j < 16 →
      lane 0 (u.cals[n]).dsp.v[dspVd i] (2 * j) = (cmulLane (s.cals[n]).dsp.v[dspVa i] (s.cals[n]).dsp.v[dspVb i] j).1.toNat
      ∧ lane 0 (u.cals[n]).dsp.v[dspVd i] (2 * j + 1) = (cmulLane (s.cals[n]).dsp.v[dspVa i] (s.cals[n]).dsp.v[dspVb i] j).2.1.toNat
      ∧ ((cmulLane (s.cals[n]).dsp.v[dspVa i] (s.cals[n]).dsp.v[dspVb i] j).2.2 = true → (u.cals[n]).dsp.invalid = true)) ∧
  (∀ e ∈ ([(Instr.vrsum, 0x18, fun a b => roundFP32 ((fp32 a).add (fp32 b))),
      (Instr.vrmax, 0x19, fun a b => roundFP32 ((fp32 a).max (fp32 b)))] : List ((Fin 64 → Instr) × Nat × (Word → Word → Word))),
    ∀ (n : Fin 64) (s : State) (i : DWord), s.dspNext n e.2.1 = some i → ∃ u, exec (e.1 n) s = .next u
      ∧ (u.cals[n]).dsp.seed = (s.cals[n]).dsp.seed
      ∧ lane 0 (u.cals[n]).dsp.v[dspVd i] 0 = ((treeReduce e.2.2 6 ((List.range (laneCount (dspType i))).map
          (fun j => roundFP32 (laneNum (dspType i) (s.cals[n]).dsp.v[dspVa i] j)))).headD 0).toNat
      ∧ ∀ j, 0 < j → j < 32 → lane 0 (u.cals[n]).dsp.v[dspVd i] j = 0)) ∧
  ((∀ e ∈ ([(Instr.vexp, 0x20), (Instr.vlog, 0x21), (Instr.vrsqrt, 0x22), (Instr.vrcp, 0x23), (Instr.vsigm, 0x24), (Instr.vtanh, 0x25)] :
      List ((Fin 64 → Instr) × Nat)),
    ∀ (n : Fin 64) (s : State) (i : DWord), s.dspNext n e.2 = some i → dspType i = 0 → ∃ u, exec (e.1 n) s = .next u
      ∧ ∀ j, j < 32 → lane 0 (u.cals[n]).dsp.v[dspVd i] j =
        (roundFP32 (fp32 (dspFunc e.2 0 (roundFP32 (laneNum 0 (s.cals[n]).dsp.v[dspVa i] j))))).toNat) ∧
  (∀ e ∈ ([(Instr.vexp, 0x20, 0x7F800000, 0x7F800000), (Instr.vexp, 0x20, 0xFF800000, 0), (Instr.vexp, 0x20, 0, 0x3F800000),
      (Instr.vexp, 0x20, 0x80000000, 0x3F800000), (Instr.vlog, 0x21, 0x7F800000, 0x7F800000), (Instr.vlog, 0x21, 0xFF800000, 0x7FC00000),
      (Instr.vlog, 0x21, 0, 0xFF800000), (Instr.vlog, 0x21, 0x80000000, 0xFF800000), (Instr.vrsqrt, 0x22, 0x7F800000, 0),
      (Instr.vrsqrt, 0x22, 0xFF800000, 0x7FC00000), (Instr.vrsqrt, 0x22, 0, 0x7F800000), (Instr.vrsqrt, 0x22, 0x80000000, 0xFF800000),
      (Instr.vrcp, 0x23, 0x7F800000, 0), (Instr.vrcp, 0x23, 0xFF800000, 0x80000000), (Instr.vrcp, 0x23, 0, 0x7F800000),
      (Instr.vrcp, 0x23, 0x80000000, 0xFF800000), (Instr.vsigm, 0x24, 0x7F800000, 0x3F800000), (Instr.vsigm, 0x24, 0xFF800000, 0),
      (Instr.vsigm, 0x24, 0, 0x3F000000), (Instr.vsigm, 0x24, 0x80000000, 0x3F000000), (Instr.vtanh, 0x25, 0x7F800000, 0x3F800000),
      (Instr.vtanh, 0x25, 0xFF800000, 0xBF800000), (Instr.vtanh, 0x25, 0, 0), (Instr.vtanh, 0x25, 0x80000000, 0x80000000)] :
      List ((Fin 64 → Instr) × Nat × Nat × Nat)),
    ∀ (n : Fin 64) (s : State) (i : DWord), s.dspNext n e.2.1 = some i → dspType i = 0 → ∃ u, exec (e.1 n) s = .next u
      ∧ ∀ j, j < 32 → lane 0 (s.cals[n]).dsp.v[dspVa i] j = e.2.2.1 → lane 0 (u.cals[n]).dsp.v[dspVd i] j = e.2.2.2) ∧
  (∀ e ∈ ([(Instr.vexp, 0x20, false), (Instr.vlog, 0x21, true), (Instr.vrsqrt, 0x22, true), (Instr.vrcp, 0x23, false),
      (Instr.vsigm, 0x24, false), (Instr.vtanh, 0x25, false)] : List ((Fin 64 → Instr) × Nat × Bool)),
    ∀ (n : Fin 64) (s : State) (i : DWord), s.dspNext n e.2.1 = some i → dspType i = 0 → ∃ u, exec (e.1 n) s = .next u
      ∧ ∀ (j x : Nat), j < 32 → x = lane 0 (s.cals[n]).dsp.v[dspVa i] j →
        (0x7F800000 < x ∧ x < 0x80000000 ∨ 0xFF800000 < x → lane 0 (u.cals[n]).dsp.v[dspVd i] j = 0x7FC00000) ∧
        (e.2.2 = true → 0x80000000 < x → x < 0xFF800000 → lane 0 (u.cals[n]).dsp.v[dspVd i] j = 0x7FC00000))) ∧
  ((∀ (n : Fin 64) (s : State) (i : DWord) (f : Fmt), s.dspNext n 0x31 = some i → (dspImm i % 16 = 8 ∨ dspImm i % 16 = 9) →
    fmtOf (dspImm i % 16) = some f → (s.cals[n]).dsp.mode.getLsbD 0 = false → ∃ u, exec (.vcvto n) s = .next u ∧ ∀ j, j < 32 →
      nfld (u.cals[n]).dsp.v[dspVd i] (16 * j) 16 =
        (f.convert (fp32 (rfld (s.cals[n]).dsp.v[dspVa i] (4 * j) 0 32)) none ((s.cals[n]).dsp.mode.getLsbD 1)
          ((s.cals[n]).dsp.mode.getLsbD 2)).code % 2 ^ 16
      ∧ nfld (u.cals[n]).dsp.v[dspVd i] (512 + 16 * j) 16 = 0) ∧
  (∀ (n : Fin 64) (s : State) (i : DWord) (f : Fmt), s.dspNext n 0x30 = some i → (dspImm i % 16 = 8 ∨ dspImm i % 16 = 9) →
    fmtOf (dspImm i % 16) = some f → ∃ u, exec (.vcvti n) s = .next u ∧ ∀ j, j < 32 →
      lane 0 (u.cals[n]).dsp.v[dspVd i] j =
        (fFP32.convert (f.value (nfld (s.cals[n]).dsp.v[dspVa i] (16 * j) 16)) none true ((s.cals[n]).dsp.mode.getLsbD 2)).code % 2 ^ 32) ∧
  (∀ (n : Fin 64) (s : State) (i : DWord) (f : Fmt), s.dspNext n 0x30 = some i → dspImm i % 16 ≤ 5 →
    fmtOf (dspImm i % 16) = some f → nfld (s.cals[n]).dsp.v[dspVa i] (8 * elemBytes f 32) 8 = 0xFF →
    ∃ u, exec (.vcvti n) s = .next u ∧ ∀ j, j < 32 → lane 0 (u.cals[n]).dsp.v[dspVd i] j = 0x7FC00000))

/-- VLD, VST and AGSET. A load from SRAM puts min(ESIZE, 128) bytes into VD and zeros beyond; a store writes that many
bytes of VD and changes no other byte; both advance the generator; AGSET sets its pointer from lane 0. A stream's
record moves the stream's position and SRAM stays. An address generator's advance: (PTR + STRIDE) mod (LEN_M1 + 1) in
circular mode, PTR + STRIDE in 32 bits in linear mode; a circular pointer within its length stays within it. A linear
access with PTR beyond LEN_M1, an SRAM record beyond 12 MiB, or one outside every segment with the permission, is not
performed: VLD and VST record the cause, DSP_PC and the generator, set FAULT in both status registers and stop the
unit with its registers and memory as they were; a permitted access does not fault. Completes (exec answers a next
state with the own effect of the form): vld, vst, agset. -/
def Obligations.DspMemoryInstructions : Prop :=
  ((∀ (n : Fin 64) (s : State) (i : DWord) (g : AddrGen), s.dspNext n 0x01 = some i → g = (s.cals[n]).dsp.ag[dspAg i] →
    agFault (s.cals[n]) g 27 = none → g.target = false → ∃ u, exec (.vld n) s = .next u ∧ OnlyDsp n s u
      ∧ (u.cals[n]).dsp = { (s.cals[n]).dsp with
          v := vset (s.cals[n]).dsp.v (dspVd i) (ofBytes 1024 (mreadN (s.cals[n]).sram g.sramAddr (min g.esize 128)))
          ag := vset (s.cals[n]).dsp.ag (dspAg i) g.advance, pc := (s.cals[n]).dsp.pc + 1 }) ∧
  (∀ (n : Fin 64) (s : State) (i : DWord) (g : AddrGen) (b : List Byte), s.dspNext n 0x01 = some i → g = (s.cals[n]).dsp.ag[dspAg i] →
    agFault (s.cals[n]) g 27 = none → g.target = true → ((s.cals[n]).streams[g.stream]).st ≠ .halted →
    (s.cals[n]).staged g.stream (dRec ((s.cals[n]).streams[g.stream]).desc) = some b → ∃ u, exec (.vld n) s = .next u ∧ OnlyCal n s u
      ∧ (u.cals[n]).dsp = { (s.cals[n]).dsp with
          v := vset (s.cals[n]).dsp.v (dspVd i) (ofBytes 1024 (b.take (min g.esize 128)))
          ag := vset (s.cals[n]).dsp.ag (dspAg i) g.advance, pc := (s.cals[n]).dsp.pc + 1 }
      ∧ (u.cals[n]).sram = (s.cals[n]).sram
      ∧ ((u.cals[n]).streams[g.stream]).pos = ((s.cals[n]).streams[g.stream]).pos + dRec ((s.cals[n]).streams[g.stream]).desc) ∧
  (∀ (n : Fin 64) (s : State) (i : DWord) (g : AddrGen), s.dspNext n 0x02 = some i → g = (s.cals[n]).dsp.ag[dspAg i] →
    agFault (s.cals[n]) g 28 = none → g.target = false → ∃ u, exec (.vst n) s = .next u ∧ OnlyCal n s u
      ∧ (u.cals[n]).dsp = { (s.cals[n]).dsp with
          ag := vset (s.cals[n]).dsp.ag (dspAg i) g.advance, pc := (s.cals[n]).dsp.pc + 1 }
      ∧ (∀ k, k < min g.esize 128 → mread (u.cals[n]).sram (g.sramAddr + k) = fld (s.cals[n]).dsp.v[dspVd i] (8 * k) 8)
      ∧ (∀ a, (a < g.sramAddr ∨ g.sramAddr + min g.esize 128 ≤ a) → mread (u.cals[n]).sram a = mread (s.cals[n]).sram a)
      ∧ (u.cals[n]).streams = (s.cals[n]).streams ∧ (u.cals[n]).arrs = (s.cals[n]).arrs ∧ (u.cals[n]).chk = (s.cals[n]).chk) ∧
  (∀ (n : Fin 64) (s : State) (i : DWord) (g : AddrGen), s.dspNext n 0x48 = some i → g = (s.cals[n]).dsp.ag[dspAg i] →
    ∃ u, exec (.agset n) s = .next u ∧ OnlyCal n s u ∧ (u.cals[n]).dsp = { (s.cals[n]).dsp with
        ag := vset (s.cals[n]).dsp.ag (dspAg i) { g with ptr := rfld (s.cals[n]).dsp.v[dspVa i] 0 0 32 }
        pc := (s.cals[n]).dsp.pc + 1 }
      ∧ (u.cals[n]).sram = (s.cals[n]).sram ∧ (g.target = false → OnlyDsp n s u))) ∧
  ((∀ g : AddrGen, g.circ = true → (g.advance.ptr.toNat : Int) = ((g.ptr.toNat : Int) + g.stride.toInt) % ((g.lenM1.toNat : Int) + 1)) ∧
  (∀ g : AddrGen, g.circ = false → g.advance.ptr = g.ptr + g.stride) ∧
  (∀ g : AddrGen, g.circ = true → g.advance.ptr.toNat ≤ g.lenM1.toNat) ∧
  (∀ g : AddrGen, g.advance.base = g.base ∧ g.advance.lenM1 = g.lenM1 ∧ g.advance.stride = g.stride ∧ g.advance.ctl = g.ctl)) ∧
  ((∀ (c : Caldera) (g : AddrGen) (perm : Nat), g.circ = false → g.lenM1.toNat < g.ptr.toNat → agFault c g perm = some 1) ∧
  (∀ (c : Caldera) (g : AddrGen) (perm : Nat), g.target = false → 12582912 < g.sramAddr + g.esize → agFault c g perm = some 1) ∧
  (∀ (c : Caldera) (g : AddrGen) (perm : Nat), (g.circ = true ∨ g.ptr.toNat ≤ g.lenM1.toNat) → g.target = false →
    g.sramAddr + g.esize ≤ 12582912 → agFault c g perm = if segOk c g.sramAddr g.esize perm then none else some 2) ∧
  (∀ (n : Fin 64) (s : State) (i : DWord) (f : Nat), s.dspNext n 0x01 = some i →
    agFault (s.cals[n]) (s.cals[n]).dsp.ag[dspAg i] 27 = some f → ∃ u, exec (.vld n) s = .next u ∧ (u.cals[n]).fault = true
      ∧ (u.cals[n]).sram = (s.cals[n]).sram ∧ (u.cals[n]).dsp = { (s.cals[n]).dsp with
          fault := true, faultCause := BitVec.ofNat 4 f, stopped := true, faultPc := (s.cals[n]).dsp.pc
          faultAg := BitVec.ofNat 4 (dspAg i).val }) ∧
  (∀ (n : Fin 64) (s : State) (i : DWord) (f : Nat), s.dspNext n 0x02 = some i →
    agFault (s.cals[n]) (s.cals[n]).dsp.ag[dspAg i] 28 = some f → ∃ u, exec (.vst n) s = .next u ∧ (u.cals[n]).fault = true
      ∧ (u.cals[n]).sram = (s.cals[n]).sram ∧ (u.cals[n]).dsp = { (s.cals[n]).dsp with
          fault := true, faultCause := BitVec.ofNat 4 f, stopped := true, faultPc := (s.cals[n]).dsp.pc
          faultAg := BitVec.ofNat 4 (dspAg i).val }))

/-- VSRCHMAX and VSRCHMIN examine the elements from the place that the search has reached on. When all have been read, the
first considered one in the search order gives its value to lane 0 and its index to lane 1; without one, the canonical
NaN, all ones and SRCH_NONE. The records are those that the generator addresses one after another, in SRAM or staged
on its stream. A record that is not staged leaves the search where it is, with what it has found. The five searches of
the manual's example. CHKF, WBEAT, WDRAIN, END and DSP_SEED_WRITE. CHKF puts lanes 0 to IMM[15:8] into a check unit's
queue when they fit and else waits; WBEAT waits for IMM boundaries, those that have passed the busy unit unawaited
counted (R106); WDRAIN goes on once the tile has drained the rows, and counts anew (log 98); END leaves the unit idle;
in the plan's final beat WBEAT and END may end its run, before it they do not; a seed of 0 becomes the nonzero
constant, and a write while a plan runs is refused. Completes (exec answers a next state with the own effect of the
form): vsrchmax, vsrchmin, chkf, wbeat, wdrain, dspEnd, dspSeedWrite. -/
def Obligations.DspSearchWaitsAndEnd : Prop :=
  ((∀ e ∈ ([(Instr.vsrchmax, 0x38, false), (Instr.vsrchmin, 0x39, true)] : List ((Fin 64 → Instr) × Nat × Bool)),
    ∀ (n : Fin 64) (s : State) (i : DWord) (kept : Nat × Option (Word × Nat)) (r : SearchRun), s.dspNext n e.2.1 = some i →
      kept = ((s.cals[n]).dsp.srch).getD (0, none) →
      r = searchRead (laneFmt (dspType i)) e.2.2 (if dspImm i % 2 = 1 then
            some (fp32 (rfld (s.cals[n]).dsp.v[dspVa i] 0 0 32), rnum (s.cals[n]).dsp.v[dspVa i] 4 0 32) else none)
          (dspAg i) (((s.cals[n]).dsp.ag[dspAg i]).lenM1.toNat + 1 - kept.1)
          { cal := s.cals[n], idx := kept.1, best := kept.2.map (fun b => (fp32 b.1, b.2)) } →
      (r.stop = none → ∃ u, exec (e.1 n) s = .next u ∧ OnlyCal n s u ∧ (u.cals[n]).dsp.pc = r.cal.dsp.pc + 1
        ∧ (u.cals[n]).dsp.srch = none ∧ (∀ v : Fin 32, v ≠ dspVd i → (u.cals[n]).dsp.v[v] = r.cal.dsp.v[v]) ∧
        (match r.best with
          | some (v, j) => lane 0 (u.cals[n]).dsp.v[dspVd i] 0 = (roundFP32 v).toNat
              ∧ lane 0 (u.cals[n]).dsp.v[dspVd i] 1 = j % 2 ^ 32 ∧ (u.cals[n]).dsp.srchNone = false
          | none => lane 0 (u.cals[n]).dsp.v[dspVd i] 0 = 0x7FC00000 ∧ lane 0 (u.cals[n]).dsp.v[dspVd i] 1 = 0xFFFFFFFF
              ∧ (u.cals[n]).dsp.srchNone = true)
        ∧ ∀ j, 1 < j → j < 32 → lane 0 (u.cals[n]).dsp.v[dspVd i] j = 0) ∧
      (r.stop = some .wait → ∃ u, exec (e.1 n) s = .next u ∧ OnlyCal n s u ∧ (u.cals[n]).dsp.pc = r.cal.dsp.pc
        ∧ (u.cals[n]).dsp.srch = some (r.idx, r.best.map (fun b => (roundFP32 b.1, b.2)))
        ∧ (u.cals[n]).dsp.v = r.cal.dsp.v ∧ (u.cals[n]).dsp.srchNone = r.cal.dsp.srchNone)) ∧
  (∀ (f : Fmt) (mn : Bool) (key : Option (Machine.Num × Nat)) (k : Fin 16) (m : Nat) (r : SearchRun) (g : AddrGen) (t : Stream)
      (es : List (List Byte)), r.stop = none → g = r.cal.dsp.ag[k] → t = r.cal.streams[g.stream] →
    es = (List.range m).map (fun j => if g.target then (r.cal.stagedAt g.stream (t.pos + j * dRec t.desc) (dRec t.desc)).getD []
      else mreadN r.cal.sram (g.advanceN j).sramAddr (min g.esize 128)) →
    (searchRead f mn key k m r).stop = none → (searchRead f mn key k m r).idx = r.idx + m
      ∧ (searchRead f mn key k m r).best =
          (es.zipIdx r.idx).foldl (fun b x => searchBest mn key b (f.value (elemCode f x.1 0)) x.2) r.best) ∧
  (∀ (mn : Bool) (key : Option (Machine.Num × Nat)) (es : List Machine.Num) (v : Machine.Num) (j : Nat),
    es.zipIdx.foldl (fun b x => searchBest mn key b x.1 x.2) none = some (v, j) →
      es[j]? = some v ∧ (∀ k, key = some k → searchBefore mn k.1 k.2 v j = true)) ∧
  (∀ (mn : Bool) (es : List Machine.Num), es ≠ [] → (es.zipIdx.foldl (fun b x => searchBest mn none b x.1 x.2) none).isSome = true) ∧
  (∀ (es : List Machine.Num) (look : Option (Machine.Num × Nat) → Option (Machine.Num × Nat)),
    es = ([0x40400000, 0x7FC00000, 0x40A00000, 0x40A00000, 0x80000000, 0] : List Word).map fp32 →
    look = (fun key => es.zipIdx.foldl (fun b x => searchBest false key b x.1 x.2) none) →
    look none = some (fp32 0x7FC00000, 1) ∧ look (some (fp32 0x7FC00000, 1)) = some (fp32 0x40A00000, 2)
    ∧ look (some (fp32 0x40A00000, 2)) = some (fp32 0x40A00000, 3) ∧ look (some (fp32 0x40A00000, 3)) = some (fp32 0x40400000, 0)
    ∧ look (some (fp32 0x40400000, 0)) = some (fp32 0, 5))) ∧
  ((∀ (n : Fin 64) (s : State) (i : DWord) (u : Fin 2) (m : Nat), s.dspNext n 0x40 = some i → u = Fin.ofNat 2 (dspImm i % 2) →
    m = min (laneCount (dspType i)) (dspImm i / 256 % 256 + 1) →
    (((s.cals[n]).chk[u]).queue.length + m ≤ 64 → exec (.chkf n) s = .next (s.modCal n (fun c => { c with
      chk := vmod c.chk u (fun k => { k with queue := k.queue ++ (List.range m).map (fun j => ChkEntry.bytes
        (toBytes (BitVec.ofNat 32 (lane (dspType i) c.dsp.v[dspVa i] j)) ((laneFmt (dspType i)).width / 8))) })
      dsp := { c.dsp with pc := c.dsp.pc + 1 } }))) ∧
    (64 < ((s.cals[n]).chk[u]).queue.length + m → exec (.chkf n) s = .next s)) ∧
  (∀ (n : Fin 64) (s : State) (i : DWord) (p : Plan), s.dspNext n 0x50 = some i → s.planOn n = some p →
    exec (.wbeat n) s = .next ((s.modCal n (fun c => { c with
      dsp := if dspImm i ≤ c.dsp.owed then { c.dsp with owed := c.dsp.owed - dspImm i, pc := c.dsp.pc + 1 }
        else { c.dsp with waiting := true, waitBeats := dspImm i - c.dsp.owed, owed := 0 } })).tryFinish p.handle)) ∧
  (∀ d : Dsp, (d.waiting = true → 1 < d.waitBeats → d.countBeat = { d with waitBeats := d.waitBeats - 1 })
    ∧ (d.waiting = true → d.waitBeats ≤ 1 → d.countBeat = { d with waiting := false, waitBeats := 0, pc := d.pc + 1 })
    ∧ (d.waiting = false → d.busy = true → d.countBeat = { d with owed := d.owed + 1 })
    ∧ (d.waiting = false → d.busy = false → d.countBeat = d)) ∧
  (∀ (n : Fin 64) (s : State) (i : DWord) (t : Fin 4), s.dspNext n 0x51 = some i → t = Fin.ofNat 4 (dspImm i % 4) →
    (((dspImm i / 4 : Nat) : Int) ≤ (s.cals[n]).dsp.rowsSince[t] → exec (.wdrain n) s = .next (s.modCal n (fun c => { c with
      dsp := { c.dsp with rowsSince := vset c.dsp.rowsSince t 0, pc := c.dsp.pc + 1 } }))) ∧
    ((s.cals[n]).dsp.rowsSince[t] < ((dspImm i / 4 : Nat) : Int) → exec (.wdrain n) s = .next s)) ∧
  (∀ (n : Fin 64) (s : State) (i : DWord) (p : Plan), s.dspNext n 0x5F = some i → s.planOn n = some p →
    exec (.dspEnd n) s = .next ((s.modCal n (fun c => { c with dsp := { c.dsp with busy := false } })).tryFinish p.handle)) ∧
  (∀ (s : State) (p : Plan), s.findPlan p.handle = some p → p.beat + 1 < p.beats → s.tryFinish p.handle = s) ∧
  (∀ (n : Fin 64) (s : State) (w : Word), s.calShut n = false →
    (s.runsPlan n = false → (s.cals[n]).gated = false → (s.cals[n]).waking = false → exec (.dspSeedWrite n w) s =
      .next (s.modCal n (fun c => { c with dsp := { c.dsp with seed := if w = 0 then 0x9E3779B9 else w } }))) ∧
    (s.runsPlan n = true ∨ (s.cals[n]).gated = true ∨ (s.cals[n]).waking = true →
      exec (.dspSeedWrite n w) s = .next (s.modCal n (fun c => { c with accessRefused := true })))) ∧
  (∀ (n : Fin 64) (s : State) (w : Word), s.calShut n = true → exec (.dspSeedWrite n w) s = .next s))

/-- CHK_DATA8, CHK_DATA16, CHK_DATA32 and CHK_START on a unit whose writes are not refused: in feed mode with a valid
width, and behind other entries in any, the bytes enter the queue, least significant first, at its end; a full queue
takes its first entry through the check before; on an empty queue PARAM_ERR is set in a snoop mode, and nothing enters
then or with an invalid width. START on an empty queue loads INIT and clears the counts, and a BLOCK that its SRC does
not have reads 0 and sets PARAM_ERR; behind other entries it waits its turn. A write to a caldera's unit while a plan
runs sets ACCESS_REFUSED and nothing else. CHK_FEED takes the first byte of the queue through the check and counts it,
or sets PARAM_ERR where SRC is not 0 by then; the standard checks of the manual's table over the nine bytes 0x31 to
0x39 give its CHK_RESULT values. CHK_SNOOP_BLOCK: in stream mode every byte of the step enters the check; in block
mode the block is checked from INIT, its tag kept, counted, and counted as a mismatch when its result differs from the
check it carries; more than 256 bytes set SNOOP_OVERRUN and stop the snoop, and a stopped unit stays as it is. Traffic
of a context in confidential mode, and a packet from or to a node that such a context holds, does not reach a unit.
XLOG_POP removes the oldest record and none from an empty log; XLOG_CLEAR removes all and zeroes the drop count. An
append to a full log is dropped and counted. Completes (exec answers a next state with the own effect of the form):
chkData8, chkData16, chkData32, chkStart, chkFeed, chkSnoopBlock, xlogPop, xlogClear. -/
def Obligations.CheckUnitsAndExceptionLog : Prop :=
  ((∀ e ∈ ([(fun r w => Instr.chkData8 r (w.setWidth 8), 1), (fun r w => Instr.chkData16 r (w.setWidth 16), 2),
      (fun r w => Instr.chkData32 r w, 4)] : List ((ChkRef → Word → Instr) × Nat)),
    ∀ (r : ChkRef) (w : Word) (s : State), s.chkShut r = false → s.chkRefused r = false →
      (((s.chk r).src = 0 ∧ (s.chk r).widthOk = true ∨ (s.chk r).queue ≠ []) → (s.chk r).queue.length < 64 →
        exec (e.1 r w) s = .next (s.modChk r (fun k => { k with queue := k.queue ++ [.bytes (toBytes w e.2)] }))) ∧
      (∀ x q, (s.chk r).queue = x :: q → 64 ≤ (s.chk r).queue.length →
        exec (e.1 r w) s = .next (s.modChk r (fun k => { k.pumps x.steps with
          queue := (k.pumps x.steps).queue ++ [.bytes (toBytes w e.2)] }))) ∧
      ((s.chk r).queue = [] → (s.chk r).src = 0 → (s.chk r).widthOk = false → exec (e.1 r w) s = .next s) ∧
      ((s.chk r).queue = [] → (s.chk r).src ≠ 0 → exec (e.1 r w) s = .next (s.modChk r (fun k => { k with paramErr := true })))) ∧
  (∀ (r : ChkRef) (w : Word) (s : State), s.chkShut r = false → s.chkRefused r = false → (s.chk r).queue = [] →
    ∃ u, exec (.chkStart r w) s = .next u ∧ (u.chk r).count = 0 ∧ (u.chk r).mismatch = 0 ∧ (u.chk r).blocks = 0
      ∧ (u.chk r).value.toNat = (s.chk r).init.toNat % 2 ^ (u.chk r).width ∧ (u.chk r).width = nfld w 0 7
      ∧ (bitAt w 15 = true → (nfld w 12 3 = 1 ∨ nfld w 12 3 = 4) → (u.chk r).block = false ∧ (u.chk r).paramErr = true)
      ∧ (u.chk r).poly = (s.chk r).poly ∧ (u.chk r).init = (s.chk r).init ∧ (u.chk r).xorout = (s.chk r).xorout
      ∧ u = s.modChk r (fun _ => u.chk r)) ∧
  (∀ (r : ChkRef) (w : Word) (s : State), s.chkShut r = false → s.chkRefused r = false → (s.chk r).queue ≠ [] →
    (s.chk r).queue.length < 64 → ∃ x : Word, x.getLsbD 24 = true ∧ exec (.chkStart r w) s =
      .next (s.modChk r (fun k => { k with queue := k.queue ++ [.ctl x] }))) ∧
  (∀ (n : Fin 64) (k : Fin 2) (s : State) (w : Word), s.calShut n = false → s.runsPlan n = true →
    ∀ c ∈ [Instr.chkData8 (.cal n k) (w.setWidth 8), Instr.chkData16 (.cal n k) (w.setWidth 16), Instr.chkData32 (.cal n k) w,
        Instr.chkStart (.cal n k) w],
      exec c s = .next (s.modCal n (fun c => { c with accessRefused := true })))) ∧
  ((∀ (r : ChkRef) (s : State) (b : Byte) (bs : List Byte) (q : List ChkEntry), (s.chk r).queue = .bytes (b :: bs) :: q →
    (s.chk r).src = 0 → (s.chk r).widthOk = true → ∃ u, exec (.chkFeed r) s = .next u ∧ u = s.modChk r (fun _ => u.chk r)
      ∧ u.chk r = { s.chk r with
          queue := if bs = [] then q else .bytes bs :: q
          value := BitVec.ofNat 64 (crcGenByte (s.chk r).param ((s.chk r).value.toNat % 2 ^ (s.chk r).width) b)
          count := (s.chk r).count + 1 }) ∧
  (∀ (r : ChkRef) (s : State) (b : Byte) (bs : List Byte) (q : List ChkEntry), (s.chk r).queue = .bytes (b :: bs) :: q →
    (s.chk r).src ≠ 0 → exec (.chkFeed r) s = .next (s.modChk r (fun k =>
      { k with queue := if bs = [] then q else .bytes bs :: q, paramErr := true }))) ∧
  (∀ (r : ChkRef) (s : State), (s.chk r).queue = [] → exec (.chkFeed r) s = .next s) ∧
  (∀ e ∈ ([(8, 0x07, 0, 0, 0, 0xF4), (16, 0x1021, 0xFFFF, 0, 0, 0x29B1), (32, 0x04C11DB7, 0xFFFFFFFF, 0x180, 0xFFFFFFFF, 0xCBF43926),
      (32, 0x1EDC6F41, 0xFFFFFFFF, 0x180, 0xFFFFFFFF, 0xE3069283),
      (64, 0x42F0E1EBA9EA3693, 0xFFFFFFFFFFFFFFFF, 0x180, 0xFFFFFFFFFFFFFFFF, 0x995DC9BBDF1939FA)] :
      List (BitVec 24 × DWord × DWord × BitVec 24 × DWord × DWord)),
    ((([0x31, 0x32, 0x33, 0x34, 0x35, 0x36, 0x37, 0x38, 0x39] : List Byte).foldl Chk.feed
      (Chk.start { poly := e.2.1, init := e.2.2.1, xorout := e.2.2.2.2.1, ctl := e.1 ||| e.2.2.2.1 })).result) = e.2.2.2.2.2) ∧
  (∀ (k : Chk) (bs cs : List Byte), (bs ++ cs).foldl Chk.feed k = cs.foldl Chk.feed (bs.foldl Chk.feed k)
    ∧ (bs.foldl Chk.feed k).count = k.count + BitVec.ofNat 64 bs.length)) ∧
  ((∀ (r : ChkRef) (o : SnoopOrigin) (bytes : List Byte) (tag carried : DWord) (s : State), 0 < bytes.length → bytes.length ≤ 4096 →
    s.snoopHidden o = false → ∃ u, exec (.chkSnoopBlock r ⟨o, bytes⟩ tag carried) s = .next u ∧ u = s.modChk r (fun _ => u.chk r) ∧
    ((s.chk r).frozen = true → u.chk r = s.chk r) ∧
    (1 ≤ (s.chk r).src → (s.chk r).src ≤ 4 → (s.chk r).widthOk = true → (s.chk r).frozen = false →
      ((s.chk r).block = false → bytes.length ≤ 256 → u.chk r = bytes.foldl Chk.feed (s.chk r)) ∧
      ((s.chk r).block = false → 256 < bytes.length →
        u.chk r = { ((bytes.take 256).foldl Chk.feed (s.chk r)) with overrun := true, frozen := true }) ∧
      ((s.chk r).block = true → 256 < bytes.length → u.chk r = { s.chk r with overrun := true, frozen := true }) ∧
      ((s.chk r).block = true → bytes.length ≤ 256 →
        (u.chk r).blocks = satInc (s.chk r).blocks ∧ (u.chk r).frozen = false ∧ (u.chk r).tag = tag
        ∧ (u.chk r).value = (bytes.foldl Chk.feed { s.chk r with value := BitVec.ofNat 64 ((s.chk r).init.toNat % 2 ^ (s.chk r).width) }).value
        ∧ (u.chk r).mismatch = (if ((u.chk r).resultOf (u.chk r).value.toNat (some tag)) = BitVec.ofNat 64 (carried.toNat % 2 ^ (s.chk r).width)
            then (s.chk r).mismatch else satInc (s.chk r).mismatch)))) ∧
  (∀ (r : ChkRef) (o : SnoopOrigin) (bytes : List Byte) (tag carried : DWord) (s : State), 0 < bytes.length → bytes.length ≤ 4096 →
    (∀ c, o = .context c → s.ctxConf c = true → exec (.chkSnoopBlock r ⟨o, bytes⟩ tag carried) s = .next s) ∧
    (∀ h, o = .packet h → (s.confNode (hdSrc h) = true ∨ s.confNode (hdDst h) = true) →
      exec (.chkSnoopBlock r ⟨o, bytes⟩ tag carried) s = .next s) ∧
    s.snoopHidden .shared = false)) ∧
  ((∀ (n : Fin 64) (s : State), s.calShut n = false →
    (∃ u, exec (.xlogPop n) s = .next u ∧ OnlyCal n s u ∧ (u.cals[n]).xlog.recs = (s.cals[n]).xlog.recs.tail
      ∧ (u.cals[n]).xlog.drop = (s.cals[n]).xlog.drop ∧ (u.cals[n]).sram = (s.cals[n]).sram
      ∧ (u.cals[n]).xlog.oldest = (if (s.cals[n]).xlog.recs = [] then (s.cals[n]).xlog.oldest else (s.cals[n]).xlog.oldest + 1)) ∧
    (∃ u, exec (.xlogClear n) s = .next u ∧ OnlyCal n s u ∧ (u.cals[n]).xlog.recs = [] ∧ (u.cals[n]).xlog.drop = 0
      ∧ (u.cals[n]).xlogOvf = (s.cals[n]).xlogOvf)) ∧
  (∀ (c : Caldera) (r : BitVec 256), (c.xlog.recs.length < 64 → (c.xlogAppend r).xlog.recs = c.xlog.recs ++ [r]
      ∧ (c.xlogAppend r).xlogOvf = c.xlogOvf) ∧
    (64 ≤ c.xlog.recs.length → (c.xlogAppend r).xlog.recs = c.xlog.recs ∧ (c.xlogAppend r).xlog.drop = satInc c.xlog.drop
      ∧ (c.xlogAppend r).xlogOvf = true)))

/-- STREAM_ARM: a write of word 0x00 without ARM only stores the word; with ARM the buffer is submitted with OWNER 2 and
the next GEN: it becomes active on an IDLE slot, waits in an empty shadow, or sets REARM_OVERRUN; a descriptor that
R134 refuses sets DESC_ERR. While a plan runs on the caldera the write is refused. SARM: the first SARM of an opened
beat leaves the queue and submits the descriptor in SRAM with OWNER 0, the plan's context and the beats of the
instruction; it arms an IDLE slot. ARMING_COMPLETE, STAGING_SLOT_FREE and STREAM_WDOG. A finished arming gives its GEN
to GEN_DONE; the shadow becomes active with the next GEN, or the slot goes IDLE; its pool slots are free; the last
arming of a plan's final beat may end its run. A pool slot is freed when its consumer has read its last record. A slot
whose no-progress count reaches the limit halts with cause WDOG. Completes (exec answers a next state with the own
effect of the form): streamArm, sarm, armingComplete, stagingSlotFree, streamWdog. -/
def Obligations.StreamArmings : Prop :=
  (∀ (n k : Fin 64) (s : State) (w : Word) (t : Stream), t = (s.cals[n]).streams[k] → s.calShut n = false →
    (s.runsPlan n = true → exec (.streamArm (.cal n k) w) s = .next (s.modCal n (fun c => { c with accessRefused := true }))) ∧
    (s.runsPlan n = false → bitAt w 26 = false → exec (.streamArm (.cal n k) w) s =
      .next (s.modStm (.cal n k) (fun t => { t with wbuf := putFld t.wbuf 0 w }))) ∧
    (s.runsPlan n = false → bitAt w 26 = true → ∃ u, exec (.streamArm (.cal n k) w) s = .next u ∧ OnlyCal n s u
      ∧ (u.cals[n]).sram = (s.cals[n]).sram ∧ (u.cals[n]).pool = (s.cals[n]).pool
      ∧ (∀ j : Fin 64, j ≠ k → (u.cals[n]).streams[j] = (s.cals[n]).streams[j])
      ∧ ((u.cals[n]).streams[k]).wbuf = putFld t.wbuf 0 w
      ∧ (descBad (s.cals[n]) k (putFld t.wbuf 0 w) 1 = true →
          (u.cals[n]).streams[k] = { t with wbuf := putFld t.wbuf 0 w, descErr := true })
      ∧ (descBad (s.cals[n]) k (putFld t.wbuf 0 w) 1 = false → t.st = .idle →
          ((u.cals[n]).streams[k]).st = .armed ∧ ((u.cals[n]).streams[k]).gen = t.gen + 1 ∧ ((u.cals[n]).streams[k]).pos = 0
          ∧ ((u.cals[n]).streams[k]).desc = sealDesc (putFld t.wbuf 0 w) (t.gen + 1) 2
          ∧ ((u.cals[n]).streams[k]).ctx = s.calCtx n ∧ ((u.cals[n]).streams[k]).genDone = t.genDone)
      ∧ (descBad (s.cals[n]) k (putFld t.wbuf 0 w) 1 = false → t.st ≠ .idle → t.shadow = none →
          ((u.cals[n]).streams[k]).shadow = some (sealDesc (putFld t.wbuf 0 w) (t.gen + 1) 2) ∧ ((u.cals[n]).streams[k]).st = t.st
          ∧ ((u.cals[n]).streams[k]).desc = t.desc ∧ ((u.cals[n]).streams[k]).gen = t.gen ∧ ((u.cals[n]).streams[k]).pos = t.pos)
      ∧ (descBad (s.cals[n]) k (putFld t.wbuf 0 w) 1 = false → t.st ≠ .idle → t.shadow.isSome = true →
          (u.cals[n]).streams[k] = { t with wbuf := putFld t.wbuf 0 w, overrun := true }))) ∧
  (∀ (n : Fin 64) (s : State) (p : Plan) (q : QInstr) (k : Fin 64) (d : CWord), s.planOn n = some p → p.run = .running →
    (s.cals[n]).firstSarm p.beat = some q → k = Fin.ofNat 64 (saStream q.raw) → d = ofBytes 512 (mreadN (s.cals[n]).sram (saDesc q.raw) 64) →
    ∃ u, exec (.sarm n) s = .next u ∧ OnlyCal n s u ∧ (u.cals[n]).queue = (s.cals[n]).queue.erase q
      ∧ (u.cals[n]).sram = (s.cals[n]).sram
      ∧ (∀ j : Fin 64, j ≠ k → (u.cals[n]).streams[j] = (s.cals[n]).streams[j])
      ∧ (descBad (s.cals[n]) k d 1 = true → (u.cals[n]).streams[k] = { (s.cals[n]).streams[k] with descErr := true })
      ∧ (descBad (s.cals[n]) k d 1 = false → ((s.cals[n]).streams[k]).st = .idle →
          ((u.cals[n]).streams[k]).st = .armed ∧ ((u.cals[n]).streams[k]).plan = some p.handle ∧ ((u.cals[n]).streams[k]).ctx = some p.ctx
          ∧ ((u.cals[n]).streams[k]).desc = sealDesc d (((s.cals[n]).streams[k]).gen + 1) 0
          ∧ ((u.cals[n]).streams[k]).first = q.beat + saStart q.raw
          ∧ ((u.cals[n]).streams[k]).doneBeat = q.beat + saStart q.raw + saDone q.raw)) ∧
  ((∀ (n k : Fin 64) (s : State) (t : Stream), t = (s.cals[n]).streams[k] → s.armFinished (.cal n k) = true → t.cmd = none →
    ∃ u, exec (.armingComplete (.cal n k)) s = .next (match t.plan with | some h => u.tryFinish h | none => u) ∧ u = { s with cals := u.cals, regions := u.regions }
      ∧ (∀ m : Fin 64, m ≠ n → u.cals[m] = s.cals[m]) ∧ (u.cals[n]).sram = (s.cals[n]).sram
      ∧ (u.cals[n]).pool = (s.cals[n]).pool.filter (fun q => q.owner != k.val)
      ∧ ((u.cals[n]).streams[k]).genDone = t.gen
      ∧ (t.shadow = none → ((u.cals[n]).streams[k]).st = .idle ∧ ((u.cals[n]).streams[k]).gen = t.gen)
      ∧ (∀ d, t.shadow = some d → ((u.cals[n]).streams[k]).st = .armed ∧ ((u.cals[n]).streams[k]).gen = t.gen + 1
          ∧ ((u.cals[n]).streams[k]).pos = 0 ∧ ((u.cals[n]).streams[k]).shadow = none)) ∧
  (∀ (r : SlotRef) (s : State), s.armFinished r = false → exec (.armingComplete r) s = .next s) ∧
  (∀ (n : Fin 64) (i : Fin 256) (s : State), ∃ u, exec (.stagingSlotFree n i) s = .next u ∧ OnlyCal n s u
    ∧ (u.cals[n]).streams = (s.cals[n]).streams ∧ (u.cals[n]).sram = (s.cals[n]).sram
    ∧ ∀ q, q ∈ (u.cals[n]).pool ↔ q ∈ (s.cals[n]).pool ∧ (q.idx = i.val → ∃ k : Fin 64, q.owner = k.val
        ∧ ((s.cals[n]).streams[k]).pos < q.pos + q.len)) ∧
  (∀ (n k : Fin 64) (s : State), ((s.cals[n]).streams[k]).st = .active → (s.cals[n]).wdog.toNat ≤ ((s.cals[n]).streams[k]).idle.toNat →
    ∃ u, exec (.streamWdog (.cal n k)) s = .next u ∧ ((u.cals[n]).streams[k]).st = .halted ∧ ((u.cals[n]).streams[k]).cause = 6
      ∧ ((u.cals[n]).streams[k]).savePos = s.savedPos (.cal n k) ∧ ((u.cals[n]).streams[k]).desc = ((s.cals[n]).streams[k]).desc
      ∧ u.glb.sptFaultCnt = s.glb.sptFaultCnt) ∧
  (∀ (r : SlotRef) (s : State), (s.stm r).idle.toNat < (s.wdogLimit r).toNat → exec (.streamWdog r) s = .next s))

/-- The checks of an access for a context: outside 2^40 bytes cause 5; a page that is not present cause 1; a page of
another context, or one without the permission, cause 2; else the page's own address, in the stacks or at the host.
STREAM_TRANSFER in a caldera. Delivered bytes enter an SRAM destination record by record and the position passes them,
no other byte of SRAM changes; a record outside every segment halts the slot with cause 7 and writes nothing; with
SRAM at both ends one step copies the rest of a record; a slot whose first beat has not opened moves nothing.
Completes (exec answers a next state with the own effect of the form): streamTransfer. -/
def Obligations.StreamTransfersAndTranslation : Prop :=
  (∀ (s : State) (ctx : Option Byte) (a : Int) (write : Bool),
    (a < 0 ∨ 2 ^ 40 ≤ a → s.xlate ctx a write = .fault 5 0) ∧
    (∀ e : DWord, 0 ≤ a → a < 2 ^ 40 → e = tget (0 : DWord) s.spt (a.toNat / 524288) →
      (spP e = false → s.xlate ctx a write = .fault 1 (BitVec.ofNat 21 (a.toNat / 524288))) ∧
      (spP e = true → ctx ≠ some (spCtx e) → s.xlate ctx a write = .fault 2 (BitVec.ofNat 21 (a.toNat / 524288))) ∧
      (spP e = true → ctx = some (spCtx e) → (if write then spW e else spR e) = false →
        s.xlate ctx a write = .fault 2 (BitVec.ofNat 21 (a.toNat / 524288))) ∧
      (spP e = true → ctx = some (spCtx e) → (if write then spW e else spR e) = true → spHost e = false →
        s.xlate ctx a write = .stack (nfld e 19 45 * 524288 + a.toNat % 524288)) ∧
      (spP e = true → ctx = some (spCtx e) → (if write then spW e else spR e) = true → spHost e = true →
        s.xlate ctx a write = .host (nfld e 19 45 * 524288 + a.toNat % 524288) (spEnc e) (bitAt e 6) (bitAt e 7)))) ∧
  ((∀ (n k : Fin 64) (io : HostIO) (s : State) (t : Stream) (m a : Nat), t = (s.cals[n]).streams[k] → s.demandOk t = true →
    dDstKind t.desc = 0 → dSrcKind t.desc ≠ 5 → t.outWords = [] → t.inBuf ≠ [] → t.bufPos = t.pos →
    m = min t.inBuf.length (max 1 (dRec t.desc) - t.pos % max 1 (dRec t.desc)) → a = (endAddr t.desc false t.pos).toNat →
    recordSeg (s.cals[n]) t.desc false (t.pos / max 1 (dRec t.desc)) = true →
    ∃ u, exec (.streamTransfer (.cal n k) io) s = .next u ∧ OnlyCal n s u
      ∧ (∀ i, i < m → mread (u.cals[n]).sram (a + i) = t.inBuf.getD i 0)
      ∧ (∀ x, (x < a ∨ a + m ≤ x) → mread (u.cals[n]).sram x = mread (s.cals[n]).sram x)
      ∧ ((u.cals[n]).streams[k]).pos = t.pos + m ∧ ((u.cals[n]).streams[k]).inBuf = t.inBuf.drop m
      ∧ (u.cals[n]).arrs = (s.cals[n]).arrs ∧ (u.cals[n]).dsp = (s.cals[n]).dsp
      ∧ ∀ j : Fin 64, j ≠ k → (u.cals[n]).streams[j] = (s.cals[n]).streams[j]) ∧
  (∀ (n k : Fin 64) (io : HostIO) (s : State) (t : Stream), t = (s.cals[n]).streams[k] → s.demandOk t = true →
    dDstKind t.desc = 0 → dSrcKind t.desc ≠ 5 → t.outWords = [] → t.inBuf ≠ [] → t.bufPos = t.pos →
    recordSeg (s.cals[n]) t.desc false (t.pos / max 1 (dRec t.desc)) = false →
    ∃ u, exec (.streamTransfer (.cal n k) io) s = .next u ∧ ((u.cals[n]).streams[k]).st = .halted
      ∧ ((u.cals[n]).streams[k]).cause = 7 ∧ ∀ m : Fin 64, (u.cals[m]).sram = (s.cals[m]).sram) ∧
  (∀ (n k : Fin 64) (io : HostIO) (s : State) (t : Stream) (m : Nat), t = (s.cals[n]).streams[k] → s.demandOk t = true →
    dDstKind t.desc = 0 → dSrcKind t.desc = 0 → t.outWords = [] → t.inBuf = [] → t.bufPos = t.pos → t.pos < dTotal t.desc → 0 < dRec t.desc →
    m = dRec t.desc - t.pos % dRec t.desc → (s.cals[n]).ringBytes k = none →
    recordSeg (s.cals[n]) t.desc true (t.pos / dRec t.desc) = true → recordSeg (s.cals[n]) t.desc false (t.pos / dRec t.desc) = true →
    ∃ u, exec (.streamTransfer (.cal n k) io) s = .next u ∧ OnlyCal n s u
      ∧ (u.cals[n]).sram = mwriteN (s.cals[n]).sram (endAddr t.desc false t.pos).toNat
          (mreadN (s.cals[n]).sram (endAddr t.desc true t.pos).toNat m)
      ∧ ((u.cals[n]).streams[k]).pos = t.pos + m ∧ ((u.cals[n]).streams[k]).inBuf = []) ∧
  (∀ (r : SlotRef) (io : HostIO) (s : State), s.demandOk (s.stm r) = false → exec (.streamTransfer r io) s = .next s))

/-- DEMAND_FILL and RUN_AHEAD: when the pool has room, a whole record that the slot holds enters it, the next record being
due behind it; one not yet held is fetched first. On demand a full pool gives up a run-ahead slot and the eviction is
counted; run-ahead never evicts, and where the manual gives it no work it does nothing. Completes (exec answers a next
state with the own effect of the form): demandFill, runAhead. -/
def Obligations.StagingPlacesRecords : Prop :=
  (∀ (n k : Fin 64) (io : HostIO) (s : State) (c : Caldera), c = (s.cals[n]).syncFill k →
    s.demandOk ((s.cals[n]).streams[k]) = true → dStaged ((s.cals[n]).streams[k]).desc = true →
    (dRec ((s.cals[n]).streams[k]).desc ≤ (c.streams[k]).inBuf.length → c.stageRoom k true = true →
      ∃ u, exec (.demandFill n k io) s = .next u ∧ OnlyCal n s u ∧ c.stage k true = some (u.cals[n])
        ∧ ((u.cals[n]).streams[k]).bufPos = (c.streams[k]).bufPos + dRec ((s.cals[n]).streams[k]).desc
        ∧ ((u.cals[n]).streams[k]).inBuf = (c.streams[k]).inBuf.drop (dRec ((s.cals[n]).streams[k]).desc)
        ∧ ((c.pool.map (·.idx)).Nodup → ∃ q ∈ (u.cals[n]).pool, q.owner = k.val
            ∧ q.pos + q.len = (c.streams[k]).bufPos + dRec ((s.cals[n]).streams[k]).desc)) ∧
    (c.stageRoom k true = false → exec (.demandFill n k io) s = .next (s.modCal n (fun c => c.syncFill k))) ∧
    ((c.streams[k]).inBuf.length < dRec ((s.cals[n]).streams[k]).desc → c.stageRoom k true = true →
      (∀ u, (s.modCal n (fun c => c.syncFill k)).fill (.cal n k) io false = .ok u →
        exec (.demandFill n k io) s = .next ((u.tryStage n k true).getD u)) ∧
      ((s.modCal n (fun c => c.syncFill k)).fill (.cal n k) io false = .wait →
        exec (.demandFill n k io) s = .next (s.modCal n (fun c => c.syncFill k))))) ∧
  (∀ (n k : Fin 64) (io : HostIO) (s : State) (c : Caldera) (b : Nat), c = (s.cals[n]).syncFill k →
    ((s.cals[n]).streams[k]).st = .armed → dPf ((s.cals[n]).streams[k]).desc = true → s.beatOf ((s.cals[n]).streams[k]) = some b →
    b < ((s.cals[n]).streams[k]).first → ((s.cals[n]).streams[k]).first ≤ b + 2 → dStaged ((s.cals[n]).streams[k]).desc = true →
    ((s.cals[n]).streams[k]).raStop = false → (dSrcKind ((s.cals[n]).streams[k]).desc = 2 ∨ dSrcKind ((s.cals[n]).streams[k]).desc = 3
      ∨ dSrcKind ((s.cals[n]).streams[k]).desc = 5) →
    (dRec ((s.cals[n]).streams[k]).desc ≤ (c.streams[k]).inBuf.length → c.stageRoom k false = true →
      ∃ u, exec (.runAhead n k io) s = .next u ∧ OnlyCal n s u ∧ c.stage k false = some (u.cals[n])
        ∧ (u.cals[n]).evictCnt = c.evictCnt ∧ ((u.cals[n]).streams[k]).st = .armed
        ∧ ∃ q ∈ (u.cals[n]).pool, q.owner = k.val ∧ q.pos + q.len = (c.streams[k]).bufPos + dRec ((s.cals[n]).streams[k]).desc) ∧
    (c.stageRoom k false = false → exec (.runAhead n k io) s = .next (s.modCal n (fun c => c.syncFill k)))) ∧
  (∀ (n k : Fin 64) (io : HostIO) (s : State), ((s.cals[n]).streams[k]).st ≠ .armed ∨ dPf ((s.cals[n]).streams[k]).desc = false
    ∨ ((s.cals[n]).streams[k]).raStop = true → exec (.runAhead n k io) s = .next s) ∧
  (∀ (c : Caldera) (k : Fin 64) (dem : Bool), c.pool = [] → c.stageRoom k dem = true) ∧
  (∀ (c d : Caldera) (k : Fin 64), c.stage k false = some d → d.evictCnt = c.evictCnt ∧ d.streams[k].st = c.streams[k].st
    ∧ ∀ q ∈ c.pool, ∃ q' ∈ d.pool, q'.idx = q.idx ∧ q'.owner = q.owner ∧ q'.pos = q.pos) ∧
  (∀ (c : Caldera) (k : Fin 64) (v : PoolSlot), (c.pool.map (·.idx)).Nodup → c.pool.any (c.joins k true) = false →
    (∀ i ∈ c.ownSlots k, ∃ q ∈ c.pool, q.idx = i) → c.victim k = some v →
    (v ∈ c.pool ∧ v.owner ≠ k.val ∧ v.demand = false ∧ c.shared v.idx = true
      ∧ ∀ q ∈ c.pool, q.owner ≠ k.val → q.demand = false → c.shared q.idx = true → q.order ≤ v.order) ∧
    ∃ d, c.stage k true = some d ∧ d.evictCnt = satInc c.evictCnt
      ∧ d.pool = c.pool.erase v ++ [⟨v.idx, k.val, true, c.fillOrder, (c.streams[k]).bufPos, dRec (c.streams[k]).desc⟩]
      ∧ d.sram = mwriteN c.sram (c.poolAddr v.idx) ((c.streams[k]).inBuf.take (dRec (c.streams[k]).desc))) ∧
  (∀ (c d : Caldera) (k : Fin 64), c.stage k true = some d →
    (c.pool.any (c.joins k true) = true ∨ ∃ i ∈ c.ownSlots k, ∀ q ∈ c.pool, q.idx ≠ i) → d.evictCnt = c.evictCnt) ∧
  (∀ (c d : Caldera) (k : Fin 64) (dem : Bool), c.stage k dem = some d → c.stageRoom k dem = true
      ∧ d.streams[k].bufPos = c.streams[k].bufPos + dRec c.streams[k].desc
      ∧ d.streams[k].inBuf = c.streams[k].inBuf.drop (dRec c.streams[k].desc))

/-- Node addresses and routes: the manual's two examples; the lane nodes of a die bridge are nodes; and at reset every
entry with a fixed target holds that node with YFIRST 0 and LANE equal to the target's router column. NOC_RT_WRITE
writes one entry for every interface and no other; TRACE_CLEAR empties the trace buffer of one die and zeroes its drop
count. NOC_REQUEST: with a tag to spare, fewer than eight requests outstanding, none to the same node and no broadcast
or group write that reaches it, one packet enters the mesh at the interface's router with the destination of the route
entry, and the interface keeps the request under a tag that it had not in use, its timer starting only once the packet
enters the mesh; an isolated region's node injects nothing; with eight outstanding, or one to that node or to a group
of it, it waits. An injection that R173 forbids enters no packet: NOC_DROP_CNT grows, REFUSED_INJ is set and the
source receives ERR_DENIED; a reserved route index gives ERR_DECODE; fewer than eight free tags give ERR_TIMEOUT and
TAG_EXHAUST. Completes (exec answers a next state with the own effect of the form): nocRtWrite, traceClear,
nocRequest. -/
def Obligations.NocRequestsAndRoutes : Prop :=
  (calNode 12 = 0x070 ∧ calNode 45 = 0x174 ∧ (∀ die lane, die < 2 → lane < 8 → isNode (laneNode die lane) = true) ∧
  (∀ (i : Nat) (n : BitVec 9), i < 256 → rtTarget i = some n → fld (State.reset.rtEntry i) 0 9 = n
    ∧ bitAt (State.reset.rtEntry i) 9 = false ∧ nfld (State.reset.rtEntry i) 10 3 = nodeX n) ∧
  (∀ (i j : Nat) (n : BitVec 9), rtTarget i = some n → rtTarget j = some n → i = j)) ∧
  ((∀ (die : Bool) (i : BitVec 8) (w : Word) (s : State), 5 ≤ s.pwr.phase.toNat → ∃ u, exec (.nocRtWrite die i w) s = .next u
    ∧ u = { s with rt := u.rt } ∧ u.rtEntry i.toNat = fld w 0 13 ∧ ∀ j, j ≠ i.toNat → u.rtEntry j = s.rtEntry j) ∧
  (∀ (die : Bool) (s : State), 5 ≤ s.pwr.phase.toNat → exec (.traceClear die) s =
    .next (s.modNoc die (fun d => { d with trace := [], wptr := 0, full := false, trcDrop := 0 })))) ∧
  (∀ (n : BitVec 9) (route : BitVec 8) (k : BitVec 4) (d : Data256) (s : State) (r : Nat) (dst : BitVec 9), k.toNat ≠ 8 →
    (nodeIndex n).isSome = true → injectionRefused n k.toNat r = false →
    (if k.toNat < 2 then addrRoute (npAddr d) else some route.toNat) = some r → dst = fld (s.rtEntry r) 0 9 →
    (s.quietNode n = true → exec (.nocRequest n route k d) s = .next s) ∧ (s.quietNode n = false →
    isNode dst = true → (r < 0xC0 ∧ (rtTarget r).isSome = true ∨ 0xC0 ≤ r ∧ k = 4) → (s.iface n).used.length ≤ 1016 →
    ((s.iface n).out.length < 8 → (∀ q ∈ (s.iface n).out, s.keepsBack q dst = false) →
      ∃ (u : State) (p : NPkt) (q : NReq), exec (.nocRequest n route k d) s = .next u
        ∧ u = { s with mesh := s.mesh ++ [p], ifaces := u.ifaces }
        ∧ (u.iface n).out = (s.iface n).out ++ [q] ∧ (u.iface n).rxq = (s.iface n).rxq ∧ (u.iface n).nextTag = q.tag + 1
        ∧ q.tag ∉ (s.iface n).used ∧ q.dst = dst ∧ q.sent = false ∧ q.hdr = p.hdr ∧ q.data = p.data
        ∧ hdDst p.hdr = dst ∧ hdSrc p.hdr = n ∧ hdType p.hdr = k.toNat ∧ hdAge p.hdr = 0 ∧ npTag p.data = q.tag
        ∧ npAddr p.data = npAddr d ∧ npData p.data = npData d ∧ p.port = 5 ∧ p.die = nodeDie n
        ∧ p.x.val = nodeX n ∧ p.y.val = nodeY n) ∧
    (8 ≤ (s.iface n).out.length ∨ (∃ q ∈ (s.iface n).out, s.keepsBack q dst = true) → exec (.nocRequest n route k d) s = .next s))) ∧
  ((∀ (n : BitVec 9) (route : BitVec 8) (k : BitVec 4) (d : Data256) (s : State), 2 ≤ k.toNat → k.toNat ≠ 8 →
    (nodeIndex n).isSome = true → s.quietNode n = false → injectionRefused n k.toNat route.toNat = true →
    ∃ u, exec (.nocRequest n route k d) s = .next u ∧ u.mesh = s.mesh
      ∧ (u.noc[if nodeDie n then (1 : Fin 2) else 0]).dropCnt = satInc (s.noc[if nodeDie n then (1 : Fin 2) else 0]).dropCnt
      ∧ (u.noc[if nodeDie n then (1 : Fin 2) else 0]).refusedInj = true
      ∧ ∃ x, (u.iface n).done = (s.iface n).done ++ [x] ∧ x.2.1 = 4) ∧
  (∀ (n : BitVec 9) (route : BitVec 8) (k : BitVec 4) (d : Data256) (s : State), 2 ≤ k.toNat → k.toNat ≠ 8 →
    (nodeIndex n).isSome = true → s.quietNode n = false → injectionRefused n k.toNat route.toNat = false → route.toNat < 0xC0 → rtTarget route.toNat = none →
    ∃ u, exec (.nocRequest n route k d) s = .next u ∧ u.mesh = s.mesh ∧ ∃ x, (u.iface n).done = (s.iface n).done ++ [x] ∧ x.2.1 = 3) ∧
  (∀ (n : BitVec 9) (route : BitVec 8) (k : BitVec 4) (d : Data256) (s : State), 2 ≤ k.toNat → k.toNat ≠ 8 →
    (nodeIndex n).isSome = true → s.quietNode n = false → injectionRefused n k.toNat route.toNat = false → route.toNat < 0xC0 →
    (rtTarget route.toNat).isSome = true → isNode (fld (s.rtEntry route.toNat) 0 9) = true → 1016 < (s.iface n).used.length →
    ∃ u, exec (.nocRequest n route k d) s = .next u ∧ u.mesh = s.mesh
      ∧ (u.noc[if nodeDie n then (1 : Fin 2) else 0]).tagExhaust = true
      ∧ ∃ x, (u.iface n).done = (s.iface n).done ++ [x] ∧ x.2.1 = 0xF))

/-- NOC_HOP. A packet alone at its target router goes to its leaf; alone elsewhere it takes its productive port and is one
hop older; a request that leaves its interface starts its timer then; a packet that is not at the router stays where
it is; nothing but packets, receive queues, probe counts and the free-value counter changes. Completes (exec answers a
next state with the own effect of the form): nocHop. -/
def Obligations.NocHopsMovePackets : Prop :=
  (∀ (die : Bool) (x y : Fin 8) (s : State), ∃ u, exec (.nocHop die x y) s = .next u
    ∧ u = { s with mesh := u.mesh, ifaces := u.ifaces, noc := u.noc, free := u.free }
    ∧ ∀ q ∈ s.mesh, ¬(q.die = die ∧ q.x = x ∧ q.y = y) → q ∈ u.mesh) ∧
  (∀ (die : Bool) (x y : Fin 8) (s : State) (p : NPkt), s.mesh.filter (fun p => p.die == die && p.x == x && p.y == y) = [p] →
    (p.port ≠ 5 → p.aim = (x.val, y.val, false) → ∃ u, exec (.nocHop die x y) s = .next u ∧ u.mesh = s.mesh.erase p
      ∧ (u.iface (hdDst p.hdr)).rxq = (s.iface (hdDst p.hdr)).rxq ++ [(p.hdr, p.data)]) ∧
    (∀ port, p.productive = some port → ∃ u, exec (.nocHop die x y) s = .next u ∧ u.mesh = s.mesh.erase p ++ [p.through port]
      ∧ (p.port ≠ 5 → u.ifaces = s.ifaces)
      ∧ (p.port = 5 → hdType p.hdr ≠ 8 → (nodeIndex (hdSrc p.hdr)).isSome = true → (u.iface (hdSrc p.hdr)).out =
          (s.iface (hdSrc p.hdr)).out.map (fun q => if q.tag = npTag p.data ∧ q.sent = false
            then { q with sent := true, since := s.now } else q))) ∧
    (p.port ≠ 5 → p.aim = (x.val, y.val, true) → ∃ u, exec (.nocHop die x y) s = .next u
      ∧ u.mesh = s.mesh.erase p ++ [{ p with die := !p.die, port := 4 }] ∧ u.ifaces = s.ifaces)) ∧
  (∀ (p : NPkt) (port : Nat), p.productive = some port →
    max (p.aim.1 - (p.through port).x.val) ((p.through port).x.val - p.aim.1) + max (p.aim.2.1 - (p.through port).y.val) ((p.through port).y.val - p.aim.2.1) + 1
      = max (p.aim.1 - p.x.val) (p.x.val - p.aim.1) + max (p.aim.2.1 - p.y.val) (p.y.val - p.aim.2.1))

/-- NOC_RSP_RECEIVE, NOC_BUSY_RETRY and NOC_TIMEOUT_EXPIRY. An answer completes its request with its status; BUSY marks it
for a retry, which injects the same packet again; a timer that has run out completes the request with ERR_TIMEOUT and
holds its tag back until the late answer, which is dropped and counted, gives it free. At the management controller's
node an answer to a register request of the fabric goes to that request too. NOC_DELIVER: the oldest request of a node
that need not wait is taken from its queue, performed once and answered with one RSP that echoes its tag; a register
read that fits is answered with the words read, a register write that fits is performed for its sender, its RSP going
by the route entry as it was before the write, and a write of GLB_RESET resets the device only once its RSP has left;
a request of another partition is answered ERR_DENIED, and an address the node does not hold ERR_DECODE; when the
queue is over its size the newest request is answered BUSY and not performed; a packet for a region's logic goes
there. Completes (exec answers a next state with the own effect of the form): nocRspReceive, nocBusyRetry,
nocTimeoutExpiry, nocDeliver. -/
def Obligations.NocAnswersOnce : Prop :=
  ((∀ (n : BitVec 9) (s : State) (p : Word × Data256) (q : NReq),
    (s.iface n).rxq.find? (fun p => hdType p.1 == 8) = some p → (s.iface n).out.find? (fun q => q.tag == npTag p.2) = some q →
    (npStatus p.2 ≠ 2 → ∃ u : State, exec (.nocRspReceive n) s = .next (u.mcAnswered n q.tag (npStatus p.2) (npData p.2))
      ∧ u.mesh = s.mesh ∧ u.rt = s.rt
      ∧ (n ≠ pcieNode → u = { s with ifaces := u.ifaces })
      ∧ (n = pcieNode → hdType q.hdr = 1 → npStatus p.2 = 0 → u.cp.out = s.cp.out ++ [.accessStatus 0] ∧ u.glb = s.glb)
      ∧ (n = pcieNode → hdType q.hdr = 1 → npStatus p.2 = 3 → u.glb.accessErr.getLsbD 1 = true)
      ∧ (u.iface n).out = (s.iface n).out.erase q ∧ (u.iface n).rxq = (s.iface n).rxq.erase p ∧ (u.iface n).lost = (s.iface n).lost
      ∧ (u.iface n).done = (s.iface n).done ++ [(q.tag, BitVec.ofNat 8 (npStatus p.2), p.2)]) ∧
    (npStatus p.2 = 2 → ∃ u, exec (.nocRspReceive n) s = .next u ∧ u = { s with ifaces := u.ifaces }
      ∧ (u.iface n).out = (s.iface n).out.map (fun x => if x.tag = q.tag then { x with busy := true } else x)
      ∧ (u.iface n).rxq = (s.iface n).rxq.erase p ∧ (u.iface n).done = (s.iface n).done)) ∧
  (∀ (n : BitVec 9) (s : State) (p : Word × Data256), (s.iface n).rxq.find? (fun p => hdType p.1 == 8) = some p →
    (∀ q ∈ (s.iface n).out, q.tag ≠ npTag p.2) → ∃ u, exec (.nocRspReceive n) s = .next u
      ∧ u = { s with ifaces := u.ifaces, noc := u.noc } ∧ (u.iface n).lost = (s.iface n).lost.erase (npTag p.2)
      ∧ (u.iface n).done = (s.iface n).done ∧ (u.noc[if nodeDie n then (1 : Fin 2) else 0]).lateCnt
          = satInc (s.noc[if nodeDie n then (1 : Fin 2) else 0]).lateCnt) ∧
  (∀ (n : BitVec 9) (tag : BitVec 10) (s : State) (q : NReq), (s.iface n).out.find? (fun q => q.tag == tag && q.busy) = some q →
    ∃ (u : State) (p : NPkt), exec (.nocBusyRetry n tag) s = .next u ∧ u = { s with mesh := s.mesh ++ [p], ifaces := u.ifaces }
      ∧ p.hdr = q.hdr ∧ p.data = q.data ∧ p.port = 5
      ∧ (u.iface n).out = (s.iface n).out.map (fun x => if x.tag = tag then { x with busy := false } else x)) ∧
  (∀ (n : BitVec 9) (tag : BitVec 10) (s : State) (q : NReq), (s.iface n).out.find? (fun q => q.tag == tag && q.sent) = some q →
    (q.since + (s.noc[if nodeDie n then (1 : Fin 2) else 0]).timeout.toNat ≤ s.now → ∃ u : State, exec (.nocTimeoutExpiry n tag) s = .next (u.mcAnswered n tag 0xF 0)
      ∧ (n ≠ pcieNode → u = { s with ifaces := u.ifaces, noc := u.noc }) ∧ (u.iface n).out = (s.iface n).out.erase q ∧ u.mesh = s.mesh
      ∧ (u.iface n).lost = (s.iface n).lost ++ [tag] ∧ (∃ x, (u.iface n).done = (s.iface n).done ++ [x] ∧ x.1 = tag ∧ x.2.1 = 0xF)
      ∧ (u.noc[if nodeDie n then (1 : Fin 2) else 0]).timeoutCnt = satInc (s.noc[if nodeDie n then (1 : Fin 2) else 0]).timeoutCnt) ∧
    (s.now < q.since + (s.noc[if nodeDie n then (1 : Fin 2) else 0]).timeout.toNat → exec (.nocTimeoutExpiry n tag) s = .next s)) ∧
  (∀ (n : BitVec 9) (tag : BitVec 10) (s : State), (∀ q ∈ (s.iface n).out, q.tag = tag → q.sent = false) →
    exec (.nocTimeoutExpiry n tag) s = .next s) ∧
  (∀ (n : BitVec 9) (tag : BitVec 10) (status : Nat) (v : BitVec 128) (s : State), n ≠ mcNode ∨ s.fab.job = none →
    s.mcAnswered n tag status v = s) ∧
  (∀ (tag : BitVec 10) (status : Nat) (v : BitVec 128) (s : State) (j : MgJob), s.fab.job = some j → j.asked = some tag →
    s.mcAnswered mcNode tag status v = (s.modFab (fun b => { b with job := some (j.took status v) })).mcRun)) ∧
  ((∀ (n : BitVec 9) (s : State) (p : Word × Data256) (s0 : State),
    ((s.iface n).rxq.filter (fun p => hdType p.1 != 8)).length ≤ max 1 Config.nocQueue →
    ((s.iface n).rxq.filter (fun p => hdType p.1 != 8)).find? (fun p => !s.reqWaits n p) = some p →
    forFan n p = false → s.forLogic n p = none → s0 = s.modIface n (fun i => { i with rxq := i.rxq.erase p }) →
    (hdType p.1 = 0 → accessFits n p.2 = true → s0.foreign (hdSrc p.1) n = false →
      (s0.readAt (npAddr p.2) (npLen p.2)).1 < 256 → ∃ (u : State) (a : NPkt),
      exec (.nocDeliver n) s = .next u ∧ u = { s0 with mesh := s0.mesh ++ [a] } ∧ hdType a.hdr = 8 ∧ hdDst a.hdr = hdSrc p.1
      ∧ hdSrc a.hdr = n ∧ npTag a.data = npTag p.2 ∧ npStatus a.data = (s0.readAt (npAddr p.2) (npLen p.2)).1
      ∧ npData a.data = (s0.readAt (npAddr p.2) (npLen p.2)).2 ∧ npLen a.data = npLen p.2) ∧
    (∀ (x : Nat × State), hdType p.1 = 1 → accessFits n p.2 = true → s0.foreign (hdSrc p.1) n = false →
      x = s0.writeAt (whoOf (hdSrc p.1)) (npAddr p.2) (npWords p.2) → x.1 < 256 →
      ∃ (u : State) (a : NPkt), exec (.nocDeliver n) s = .next (u.resetAfter p x.1)
        ∧ u = { x.2 with mesh := x.2.mesh ++ [a] } ∧ a.hdr = mkHeader (hdSrc p.1) n 8 (s0.nodeRoute (hdSrc p.1))
        ∧ hdType a.hdr = 8 ∧ hdDst a.hdr = hdSrc p.1 ∧ npTag a.data = npTag p.2 ∧ npStatus a.data = x.1) ∧
    (hdType p.1 < 2 → accessFits n p.2 = false → s0.foreign (hdSrc p.1) n = false → ∃ (u : State) (a : NPkt),
      exec (.nocDeliver n) s = .next u ∧ u = { s0 with mesh := s0.mesh ++ [a] } ∧ npTag a.data = npTag p.2 ∧ npStatus a.data = 3) ∧
    (s0.foreign (hdSrc p.1) n = true → ∃ (u : State) (a : NPkt),
      exec (.nocDeliver n) s = .next u ∧ u = { s0 with mesh := s0.mesh ++ [a] } ∧ npTag a.data = npTag p.2 ∧ npStatus a.data = 4)) ∧
  (∀ (s : State) (p : Word × Data256) (st : Nat),
    (hdType p.1 = 1 → st = 0 → npAddr p.2 = 0x20 → glbResets (fld (npData p.2) 0 32) = true →
      s.resetAfter p st = { s with resetDue := some (.rsp (hdSrc p.1) (npTag p.2), fld (npData p.2) 0 32) }) ∧
    (hdType p.1 ≠ 1 ∨ st ≠ 0 ∨ npAddr p.2 ≠ 0x20 ∨ glbResets (fld (npData p.2) 0 32) = false → s.resetAfter p st = s)) ∧
  (∀ (n : BitVec 9) (s : State) (q : Word × Data256), max 1 Config.nocQueue < ((s.iface n).rxq.filter (fun p => hdType p.1 != 8)).length →
    ((s.iface n).rxq.filter (fun p => hdType p.1 != 8)).getLast? = some q → ∃ (u : State) (a : NPkt), exec (.nocDeliver n) s = .next u
      ∧ u = { s.modIface n (fun i => { i with rxq := i.rxq.erase q }) with mesh := s.mesh ++ [a] }
      ∧ npTag a.data = npTag q.2 ∧ npStatus a.data = 2) ∧
  (∀ (n : BitVec 9) (s : State) (p : Word × Data256) (r : Fin 16),
    ((s.iface n).rxq.filter (fun p => hdType p.1 != 8)).length ≤ max 1 Config.nocQueue →
    ((s.iface n).rxq.filter (fun p => hdType p.1 != 8)).find? (fun p => !s.reqWaits n p) = some p →
    forFan n p = false → s.forLogic n p = some r →
    exec (.nocDeliver n) s = .next ((s.modIface n (fun i => { i with rxq := i.rxq.erase p })).modRegion r
      (fun x => { x with rxq := x.rxq ++ [p] }))) ∧
  (∀ (n : BitVec 9) (s : State), ((s.iface n).rxq.filter (fun p => hdType p.1 != 8)).length ≤ max 1 Config.nocQueue →
    (∀ p ∈ (s.iface n).rxq, hdType p.1 ≠ 8 → s.reqWaits n p = true) → exec (.nocDeliver n) s = .next s))

/-- CONDUIT_WORD: the word at an input moves to the outputs that the input drives once every branch is free, and to none
before; from one endpoint of a caldera to another it leaves the source empty and is counted at the destination, and a
word to two endpoints reaches both. Completes (exec answers a next state with the own effect of the form):
conduitWord. -/
def Obligations.ConduitWordsMove : Prop :=
  (∀ (n : Fin 64) (a b : Fin 64) (s : State) (w : CWord), (s.cals[n]).drives 4 a.val = [(4, b.val)] →
    ((s.cals[n]).eps[a]).en = true → ((s.cals[n]).eps[a]).out = true → ((s.cals[n]).eps[a]).word = some w →
    ((s.cals[n]).eps[b]).en = true → ((s.cals[n]).eps[b]).out = false →
    (((s.cals[n]).eps[b]).word = none → exec (.conduitWord n 4 a) s = .next (s.modCal n (fun c => { c with
      eps := vmod (vmod c.eps a (fun e => { e with word := none })) b (fun e => { e with word := some w, words := satInc e.words }) }))) ∧
    (((s.cals[n]).eps[b]).word.isSome = true → exec (.conduitWord n 4 a) s = .next s)) ∧
  (∀ (n : Fin 64) (a b c : Fin 64) (s : State) (w : CWord), (s.cals[n]).drives 4 a.val = [(4, b.val), (4, c.val)] → b ≠ c →
    ((s.cals[n]).eps[a]).en = true → ((s.cals[n]).eps[a]).out = true → ((s.cals[n]).eps[a]).word = some w →
    (∀ e ∈ [b, c], ((s.cals[n]).eps[e]).en = true ∧ ((s.cals[n]).eps[e]).out = false) →
    (((s.cals[n]).eps[b]).word = none → ((s.cals[n]).eps[c]).word = none → ∃ u, exec (.conduitWord n 4 a) s = .next u ∧ OnlyCal n s u
      ∧ ((u.cals[n]).eps[a]).word = none ∧ ((u.cals[n]).eps[b]).word = some w ∧ ((u.cals[n]).eps[c]).word = some w) ∧
    (((s.cals[n]).eps[b]).word.isSome = true ∨ ((s.cals[n]).eps[c]).word.isSome = true → exec (.conduitWord n 4 a) s = .next s)) ∧
  (∀ (n : Fin 64) (port : Fin 5) (t : Fin 64) (s : State), (s.cals[n]).drives port.val t.val = [] →
    exec (.conduitWord n port t) s = .next s) ∧
  (∀ (n : Fin 64) (port : Fin 5) (t : Fin 64) (s : State) (o : Nat × Nat), o ∈ (s.cals[n]).drives port.val t.val →
    s.outputFree n o = false → exec (.conduitWord n port t) s = .next s)

/-- The address mapping loses nothing: two blocks in one place are one block; every block has a stack below 8, a channel
below 32, a bank key below 32 and columns below 32, and lies in the memory when its offset is below 72,000,000,000
bytes. -/
def Obligations.BlockPlacesAreDistinct : Prop :=
  (∀ a b : Word, blockPlace a = blockPlace b → a = b) ∧
  (∀ a : Word, (blockPlace a).stack < 8 ∧ (blockPlace a).ch < 32 ∧ (blockPlace a).bank < 32 ∧ (∀ k : Fin 8, (blockPlace a).col k < 32)
    ∧ ((blockPlace a).mapped = true ↔ a.toNat * 256 % 2 ^ 37 < 72000000000))

/-- MEM_REQUEST: a good request word enters its controller's queue with its fields; a write of a real-time port takes its
data words from the port's write buffer, waits while they are not all there, and its bytes count as accepted at its
stream; a word with LAST below FIRST or a reserved bit is counted as bad and halts its stream with cause 5; a
caldera's word to another channel, or one outside the memory, halts it with cause 2. The data of a memory endpoint
travels on its conduit (R161, R178, R191, R194). A word that reaches the endpoint from the slot whose endpoint feeds
it enters the write buffer while one of its 64 entries is free, and stays on the conduit otherwise; a word of the read
buffer leaves onto the conduit once the endpoint is empty, and each destination learns whose data it is.
MEM_COMMAND_ISSUE on a controller with one request and no refresh waiting. A whole-block write puts its 256 bytes and
the check of them into memory, no other byte changes and HBM_CH_WR counts it; a write of less reads first and is
counted as a read-modify-write; a read for which the read buffer has room is under way, and one without waits;
requests whose stream no longer wants them open no row. A refresh that nothing outranks closes one row and is done;
with nothing to do only the watched levels move on. Completes (exec answers a next state with the own effect of the
form): memRequest, memCommandIssue. -/
def Obligations.MemoryRequestsAndCommands : Prop :=
  (∀ (k : Fin 8) (c : Fin 32) (port : MemPort) (s : State) (l : LaneWord), s.lanes.find? (fun l => l.stack == k && l.ch == c && l.port == port) = some l →
    (rqBad l.word = false → (blockPlace (rqBlock l.word)).mapped = true → port = .free →
      (∀ w, l.who = some w → (∃ i, w = .cp i) ∧ (s.stm w).epoch = l.epoch) → ∃ (u : State) (r : MemReq), exec (.memRequest k c port) s = .next u
      ∧ u = { s with lanes := s.lanes.erase l, cp := u.cp, hbmStacks := u.hbmStacks } ∧ u.cp.memId = s.cp.memId + 1
      ∧ ((u.hbmStacks[k]).ch[c]).queue = ((s.hbmStacks[k]).ch[c]).queue ++ [r] ∧ r.id = s.cp.memId
      ∧ r.block = fld l.word 0 32 ∧ r.write = bitAt l.word 32 ∧ r.first = fld l.word 34 8 ∧ r.last = fld l.word 42 8
      ∧ r.data = l.data ∧ r.who = l.who ∧ r.ctx = l.ctx ∧ r.arrived = s.now ∧ r.rereads = 0
      ∧ ((u.hbmStacks[k]).ch[c]).badReq = ((s.hbmStacks[k]).ch[c]).badReq) ∧
    (∀ n i : Fin 64, l.who = some (.cal n i) → ((s.cals[n]).streams[i]).epoch = l.epoch →
      (rqBad l.word = true → ∃ u, exec (.memRequest k c port) s = .next u ∧ ((u.cals[n]).streams[i]).st = .halted
        ∧ ((u.cals[n]).streams[i]).cause = 5 ∧ u.hbm = s.hbm
        ∧ ((u.hbmStacks[k]).ch[c]).badReq = satInc ((s.hbmStacks[k]).ch[c]).badReq ∧ ((u.hbmStacks[k]).ch[c]).queue = ((s.hbmStacks[k]).ch[c]).queue) ∧
      (rqBad l.word = false → ((blockPlace (rqBlock l.word)).mapped = false
          ∨ port = .rt ∧ ((blockPlace (rqBlock l.word)).stack ≠ k.val ∨ (blockPlace (rqBlock l.word)).ch ≠ c.val)) →
        ∃ u, exec (.memRequest k c port) s = .next u ∧ ((u.cals[n]).streams[i]).st = .halted ∧ ((u.cals[n]).streams[i]).cause = 2
          ∧ ((u.cals[n]).streams[i]).vpn = l.vpn ∧ u.hbm = s.hbm ∧ u.hbmStacks = s.hbmStacks) ∧
      (rqBad l.word = false → (blockPlace (rqBlock l.word)).mapped = true → rqWrite l.word = false →
        (port = .rt → (blockPlace (rqBlock l.word)).stack = k.val ∧ (blockPlace (rqBlock l.word)).ch = c.val) →
        ∃ (u : State) (r : MemReq), exec (.memRequest k c port) s = .next u ∧ u.cals = s.cals
          ∧ ((u.hbmStacks[k]).ch[c]).queue = ((s.hbmStacks[k]).ch[c]).queue ++ [r] ∧ r.write = false ∧ r.who = l.who
          ∧ r.block = fld l.word 0 32 ∧ r.first = fld l.word 34 8 ∧ r.last = fld l.word 42 8) ∧
      (∀ m : Nat, rqBad l.word = false → port = .rt → (blockPlace (rqBlock l.word)).mapped = true →
        (blockPlace (rqBlock l.word)).stack = k.val → (blockPlace (rqBlock l.word)).ch = c.val → rqWrite l.word = true →
        m = (rqLast l.word).toNat + 1 - (rqFirst l.word).toNat →
        (((s.hbmStacks[k]).ch[c]).wdata.length < (m + 63) / 64 → exec (.memRequest k c port) s = .next s) ∧
        ((m + 63) / 64 ≤ ((s.hbmStacks[k]).ch[c]).wdata.length →
          ∃ (u : State) (r : MemReq), exec (.memRequest k c port) s = .next u
            ∧ ((u.hbmStacks[k]).ch[c]).queue = ((s.hbmStacks[k]).ch[c]).queue ++ [r]
            ∧ r.data = ((s.hbmStacks[k]).ch[c]).writeData (rqFirst l.word).toNat m ∧ r.write = true
            ∧ (((s.hbmStacks[k]).eps[c]).word = none →
                ((u.hbmStacks[k]).ch[c]).wdata = ((s.hbmStacks[k]).ch[c]).wdata.drop ((m + 63) / 64))
            ∧ ((u.cals[n]).streams[i]).pos = ((s.cals[n]).streams[i]).pos + m)))) ∧
  ((∀ (k : Fin 8) (e : Fin 32) (s : State) (w : CWord) (n i : Fin 64), ((s.hbmStacks[k]).eps[e]).word = some w →
    ((s.hbmStacks[k]).eps[e]).dest = true → s.conduitSource (.stack k e) = some (.cal n i) → s.stackEnd n i = some (k, e) →
    (0 < ((s.hbmStacks[k]).ch[e]).writeFree → OnlyStack k s (s.absorbStack k e)
      ∧ (((s.absorbStack k e).hbmStacks[k]).eps[e]).word = none
      ∧ (((s.absorbStack k e).hbmStacks[k]).ch[e]).wdata = ((s.hbmStacks[k]).ch[e]).wdata ++ [w]
      ∧ (((s.absorbStack k e).hbmStacks[k]).ch[e]).queue = ((s.hbmStacks[k]).ch[e]).queue) ∧
    (((s.hbmStacks[k]).ch[e]).writeFree = 0 → s.absorbStack k e = s)) ∧
  (∀ (k : Fin 8) (e : Fin 32) (s : State), ((s.hbmStacks[k]).eps[e]).word = none → s.absorbStack k e = s) ∧
  (∀ (k : Fin 8) (e : Fin 32) (s : State) (x : CWord × LaneNote) (xs : List (CWord × LaneNote)),
    ((s.hbmStacks[k]).ch[e]).rbuf = x :: xs →
    (((s.hbmStacks[k]).eps[e]).source = true → ((s.hbmStacks[k]).eps[e]).word = none →
      (((s.offerStack k e).hbmStacks[k]).ch[e]).rbuf = xs
      ∧ (((s.offerStack k e).hbmStacks[k]).eps[e]).word = some x.1
      ∧ ∀ n i : Fin 64, EpRef.cal n i ∈ s.conduitDests (.stack k e) →
          x.2 ∈ (((s.offerStack k e).cals[n]).eps[i]).coming ∧ (((s.offerStack k e).cals[n]).eps[i]).word = ((s.cals[n]).eps[i]).word) ∧
    (((s.hbmStacks[k]).eps[e]).word.isSome = true → s.offerStack k e = s)) ∧
  (∀ (n k : Fin 64) (s : State) (w : CWord) (x : LaneNote) (xs : List LaneNote), ((s.cals[n]).eps[k]).word = some w →
    ((s.cals[n]).eps[k]).coming = x :: xs → ∃ u, s.takeLane n k = some u ∧ OnlyCal n s u ∧ ((u.cals[n]).eps[k]).word = none
      ∧ ((u.cals[n]).eps[k]).coming = xs
      ∧ (x.who = .cal n k → x.epoch = ((s.cals[n]).streams[k]).epoch →
          x.pos = ((s.cals[n]).streams[k]).bufPos + ((s.cals[n]).streams[k]).inBuf.length →
          ((u.cals[n]).streams[k]).inBuf = ((s.cals[n]).streams[k]).inBuf ++ toBytes w x.len))) ∧
  ((∀ (k : Fin 8) (c : Fin 32) (s : State) (r : MemReq), ((s.hbmStacks[k]).ch[c]).queue = [r] → ((s.hbmStacks[k]).ch[c]).inflight = [] →
    s.stale r = false → ((s.hbmStacks[k]).ch[c]).refreshOf (s.hbmStacks[k]).postMax.toNat = none →
    (r.write = true → r.first = 0 → r.last = 0xFF → s.memKey r.ctx = none → ∃ u, exec (.memCommandIssue k c) s = .next u
      ∧ u = { s with hbm := u.hbm, hbmMeta := u.hbmMeta, hbmStacks := u.hbmStacks } ∧ ((u.hbmStacks[k]).ch[c]).queue = []
      ∧ ((u.hbmStacks[k]).ch[c]).wr = satInc ((s.hbmStacks[k]).ch[c]).wr
      ∧ u.storedCheck r.block = blockCheck r.block (toBytes r.data 256)
      ∧ (∀ i, i < 256 → mread u.hbm (r.block.toNat * 256 + i) = fld r.data (8 * i) 8)
      ∧ (∀ a, (a < r.block.toNat * 256 ∨ r.block.toNat * 256 + 256 ≤ a) → mread u.hbm a = mread s.hbm a)) ∧
    (r.partialWrite = true → ∃ u, exec (.memCommandIssue k c) s = .next u ∧ u = { s with hbmStacks := u.hbmStacks }
      ∧ ((u.hbmStacks[k]).ch[c]).queue = [] ∧ ((u.hbmStacks[k]).ch[c]).inflight = [r]
      ∧ ((u.hbmStacks[k]).ch[c]).rmw = satInc ((s.hbmStacks[k]).ch[c]).rmw) ∧
    (r.write = false → ((s.hbmStacks[k]).ch[c]).readRoom r = true → ∃ u, exec (.memCommandIssue k c) s = .next u
      ∧ u = { s with hbmStacks := u.hbmStacks }
      ∧ ((u.hbmStacks[k]).ch[c]).queue = [] ∧ ((u.hbmStacks[k]).ch[c]).inflight = [r]
      ∧ ((u.hbmStacks[k]).ch[c]).rmw = ((s.hbmStacks[k]).ch[c]).rmw) ∧
    (r.write = false → ((s.hbmStacks[k]).ch[c]).readRoom r = false → exec (.memCommandIssue k c) s = .next (s.watchPanic k c))) ∧
  (∀ (c : Chan) (r : MemReq), c.readRoom r = false ↔ r.write = false ∧ r.port = .rt
    ∧ 64 < c.rbuf.length + ((c.inflight.filter (fun q => !q.write && q.port == .rt)).map (fun q => (q.bytes + 63) / 64)).sum + (r.bytes + 63) / 64) ∧
  (∀ (k : Fin 8) (c : Fin 32) (s : State), (∀ r ∈ ((s.hbmStacks[k]).ch[c]).queue, s.stale r = true) →
    ((s.hbmStacks[k]).ch[c]).refreshOf (s.hbmStacks[k]).postMax.toNat = none →
    exec (.memCommandIssue k c) s = .next ((s.modChan k c (fun c => { c with queue := [] })).watchPanic k c)) ∧
  (∀ (k : Fin 8) (c : Fin 32) (s : State) (i : Fin 2) (x : Nat), ((s.hbmStacks[k]).ch[c]).queue = [] →
    ((s.hbmStacks[k]).ch[c]).refreshOf (s.hbmStacks[k]).postMax.toNat = some (i, x) → ∃ (u : State) (bank : Nat),
      exec (.memCommandIssue k c) s = .next u ∧ bank < 16 ∧ u = { s with hbmStacks := u.hbmStacks, free := s.free + 1 }
      ∧ u.hbmStacks[k] = { (s.hbmStacks[k]) with ch := vmod (s.hbmStacks[k]).ch c (fun ch => ch.refresh i bank (s.hbmStacks[k]).postMax.toNat) }
      ∧ ((u.hbmStacks[k]).ch[c]).due[i] + ((u.hbmStacks[k]).ch[c]).postponed[i] + ((u.hbmStacks[k]).ch[c]).urgent[i] + 1
          = ((s.hbmStacks[k]).ch[c]).due[i] + ((s.hbmStacks[k]).ch[c]).postponed[i] + ((s.hbmStacks[k]).ch[c]).urgent[i]) ∧
  (∀ (k : Fin 8) (c : Fin 32) (s : State), ((s.hbmStacks[k]).ch[c]).queue = [] →
    ((s.hbmStacks[k]).ch[c]).refreshOf (s.hbmStacks[k]).postMax.toNat = none →
    exec (.memCommandIssue k c) s = .next (s.watchPanic k c)) ∧
  (∀ (k : Fin 8) (c : Fin 32) (s : State), OnlyStack k s (s.watchPanic k c)
    ∧ (((s.watchPanic k c).hbmStacks[k]).ch[c]) = { ((s.hbmStacks[k]).ch[c]) with
        panicRd := (((s.watchPanic k c).hbmStacks[k]).ch[c]).panicRd, panicWr := (((s.watchPanic k c).hbmStacks[k]).ch[c]).panicWr
        panicCnt := (((s.watchPanic k c).hbmStacks[k]).ch[c]).panicCnt }))

/-- MEM_READ_RETURN. A demand read whose check agrees gives its bytes FIRST to LAST to its slot: on the free port at once,
on a real-time port through the read buffer, 64 bytes to an entry; one that does not agree gives nothing, closes and
opens its row and is read again; a SPEC read that does not agree gives nothing and stops the run-ahead; a read-modify-
write puts the merged block and its check into memory. MEM_REREAD_RETURN. A re-read that agrees completes the read and
counts a recovered failure; one that does not is repeated; the third mismatch logs the block in the bad-block log,
counts it, and halts the slot with cause DATA and no data; where a partial write is lost so, its stream halts and goes
back to the record's place. A block check finds every change of the check itself and every single changed bit, and the
check of a written block agrees with what is read; burst k of a block carries the check's bits 4k to 4k + 3. Completes
(exec answers a next state with the own effect of the form): memReadReturn, memRereadReturn. -/
def Obligations.MemoryReadsAndChecks : Prop :=
  (∀ (k : Fin 8) (c : Fin 32) (s : State) (flip : Data2048) (fc : Word) (r : MemReq) (x : Data2048 × Word),
    ((s.hbmStacks[k]).ch[c]).due? = some r → r.rereads = 0 → s.stale r = false → x = s.returned r.block flip fc →
    (∀ n i : Fin 64, blockCheck r.block (toBytes x.1 256) = x.2 → r.write = false → r.who = some (.cal n i) → s.memKey r.ctx = none →
      (r.port = .free → ((s.cals[n]).streams[i]).epoch = r.epoch →
        ((s.cals[n]).streams[i]).bufPos + ((s.cals[n]).streams[i]).inBuf.length = r.pos →
        ∃ u, exec (.memReadReturn k c flip fc) s = .next u
          ∧ u = { s with cals := u.cals, hbmStacks := u.hbmStacks } ∧ OnlyCal n { s with hbmStacks := u.hbmStacks } u
          ∧ (∀ m j : Fin 64, (u.cals[m]).sram = (s.cals[m]).sram ∧ (¬(m = n ∧ j = i) → (u.cals[m]).streams[j] = (s.cals[m]).streams[j]))
          ∧ ((u.hbmStacks[k]).ch[c]).rd = satInc ((s.hbmStacks[k]).ch[c]).rd
          ∧ ((u.hbmStacks[k]).ch[c]).inflight = ((s.hbmStacks[k]).ch[c]).inflight.erase r
          ∧ (u.cals[n]).streams[i] = { ((s.cals[n]).streams[i]) with
              inBuf := ((s.cals[n]).streams[i]).inBuf ++ slice (toBytes x.1 256) r.first.toNat r.bytes, moved := true }) ∧
      (r.port = .rt → ∃ (t : State) (ws : List (CWord × LaneNote)), exec (.memReadReturn k c flip fc) s = .next ((t.offerStack k c).watchPanic k c)
          ∧ t = { s with hbmStacks := t.hbmStacks, free := t.free }
          ∧ ((t.hbmStacks[k]).ch[c]).rd = satInc ((s.hbmStacks[k]).ch[c]).rd
          ∧ ((t.hbmStacks[k]).ch[c]).inflight = ((s.hbmStacks[k]).ch[c]).inflight.erase r
          ∧ ((t.hbmStacks[k]).ch[c]).rbuf = ((s.hbmStacks[k]).ch[c]).rbuf ++ ws
          ∧ ws.map (fun y => (y.2.who, y.2.pos, y.2.len, y.2.epoch)) = (List.range ((r.bytes + 63) / 64)).map (fun j =>
              (SlotRef.cal n i, r.pos + 64 * j, min 64 (r.bytes - 64 * j), r.epoch))
          ∧ ∀ j b, b < 64 → 64 * j + b < r.bytes →
              fld ((ws.map (·.1)).getD j 0) (8 * b) 8 = (slice (toBytes x.1 256) r.first.toNat r.bytes).getD (64 * j + b) 0)) ∧
    (blockCheck r.block (toBytes x.1 256) ≠ x.2 → r.spec = false → ∃ u, exec (.memReadReturn k c flip fc) s = .next u
      ∧ u = { s with hbmStacks := u.hbmStacks }
      ∧ ((u.hbmStacks[k]).ch[c]).inflight = ((s.hbmStacks[k]).ch[c]).inflight.map (fun q => if q.id = r.id then { q with rereads := q.rereads + 1 } else q)
      ∧ ((u.hbmStacks[k]).ch[c]).openRows = (((s.hbmStacks[k]).ch[c]).reopen s.now r.block (s.hbmStacks[k]).idle.toNat).openRows) ∧
    (∀ n i : Fin 64, blockCheck r.block (toBytes x.1 256) ≠ x.2 → r.spec = true → r.who = some (.cal n i) →
      ((s.cals[n]).streams[i]).epoch = r.epoch →
      ∃ u, exec (.memReadReturn k c flip fc) s = .next u ∧ u.hbm = s.hbm ∧ ((u.cals[n]).streams[i]).raStop = true
        ∧ ((u.cals[n]).streams[i]).inBuf = ((s.cals[n]).streams[i]).inBuf ∧ ((u.cals[n]).streams[i]).st = ((s.cals[n]).streams[i]).st
        ∧ ((u.hbmStacks[k]).ch[c]).firstFail = satInc ((s.hbmStacks[k]).ch[c]).firstFail) ∧
    (blockCheck r.block (toBytes x.1 256) = x.2 → r.write = true → s.memKey r.ctx = none → ∃ u, exec (.memReadReturn k c flip fc) s = .next u
      ∧ u = { s with hbm := u.hbm, hbmMeta := u.hbmMeta, hbmStacks := u.hbmStacks }
      ∧ u.storedCheck r.block = blockCheck r.block (toBytes (u.storedBlock r.block) 256)
      ∧ ∀ i, i < 256 → mread u.hbm (r.block.toNat * 256 + i) =
          (if r.first.toNat ≤ i ∧ i ≤ r.last.toNat then fld r.data (8 * i) 8 else fld x.1 (8 * i) 8))) ∧
  (∀ (k : Fin 8) (c : Fin 32) (s : State) (flip : Data2048) (fc : Word) (r : MemReq) (x : Data2048 × Word),
    ((s.hbmStacks[k]).ch[c]).due? = some r → r.rereads ≠ 0 → x = s.returned r.block flip fc →
    (blockCheck r.block (toBytes x.1 256) = x.2 → ∃ u, exec (.memRereadReturn k c flip fc) s = .next u
      ∧ ((u.hbmStacks[k]).ch[c]).firstFail = satInc ((s.hbmStacks[k]).ch[c]).firstFail
      ∧ ((u.hbmStacks[k]).ch[c]).rereadOk = satInc ((s.hbmStacks[k]).ch[c]).rereadOk
      ∧ ((u.hbmStacks[k]).ch[c]).rereadFail = ((s.hbmStacks[k]).ch[c]).rereadFail
      ∧ (∀ q ∈ ((u.hbmStacks[k]).ch[c]).inflight, q.id ≠ r.id) ∧ u.glb = s.glb) ∧
    (blockCheck r.block (toBytes x.1 256) ≠ x.2 → r.rereads < 3 → ∃ u, exec (.memRereadReturn k c flip fc) s = .next u
      ∧ u = { s with hbmStacks := u.hbmStacks }
      ∧ ((u.hbmStacks[k]).ch[c]).inflight
          = ((s.hbmStacks[k]).ch[c]).inflight.map (fun q => if q.id = r.id then { q with rereads := q.rereads + 1 } else q)) ∧
    (∀ n i : Fin 64, blockCheck r.block (toBytes x.1 256) ≠ x.2 → 3 ≤ r.rereads → r.who = some (.cal n i) →
      s.glb.bbl.recs.length < 64 → (∀ e ∈ s.glb.bbl.recs, fld e 0 32 ≠ r.block) → ∃ (u : State) (e : BitVec 256),
        exec (.memRereadReturn k c flip fc) s = .next u ∧ u.hbm = s.hbm ∧ u.glb.bbl.recs = s.glb.bbl.recs ++ [e] ∧ fld e 0 32 = r.block
        ∧ ((u.hbmStacks[k]).ch[c]).rereadFail = satInc ((s.hbmStacks[k]).ch[c]).rereadFail
        ∧ (r.write = false → ((s.cals[n]).streams[i]).epoch = r.epoch → ((u.cals[n]).streams[i]).st = .halted
            ∧ ((u.cals[n]).streams[i]).cause = 3 ∧ ((u.cals[n]).streams[i]).vpn = r.vpn)
        ∧ (r.write = true → ((s.cals[n]).streams[i]).gen = r.gen → ((s.cals[n]).streams[i]).st ≠ .idle →
            ((s.cals[n]).streams[i]).st ≠ .halted → ((u.cals[n]).streams[i]).st = .halted ∧ ((u.cals[n]).streams[i]).cause = 3
            ∧ ((u.cals[n]).streams[i]).vpn = r.vpn ∧ ((u.cals[n]).streams[i]).pos ≤ r.pos ∧ ((u.cals[n]).streams[i]).savePos ≤ r.pos))) ∧
  ((∀ (s : State) (ctx : Byte) (b : Word) (d : Data2048) (t : State), t = s.storeBlock ctx b d →
    blockCheck b (toBytes (t.returned b 0 0).1 256) = (t.returned b 0 0).2 ∧
    (∀ fc : Word, fc ≠ 0 → blockCheck b (toBytes (t.returned b 0 fc).1 256) ≠ (t.returned b 0 fc).2) ∧
    (∀ i : Nat, i < 2048 →
      blockCheck b (toBytes (t.returned b (BitVec.twoPow 2048 i) 0).1 256) ≠ (t.returned b (BitVec.twoPow 2048 i) 0).2)) ∧
  (∀ (w : Word) (k : Fin 8), (metaOf w)[k] = fld w (4 * k.val) 4) ∧ (∀ w : Word, burstCheck (metaOf w) = w))

/-- An access starts its bank's idle timer, or closes the row with IDLE = 0; ROW_IDLE_EXPIRY closes the row of a bank
whose timer has run out and no other. REFRESH_DUE postpones the refresh in panic while the allowance lasts, then makes
it one that cannot wait, and out of panic makes it due; HBM_TEMP_POLL keeps the reading, its maximum and the sticky
HOT; HBM_CNT_CLR zeroes every channel counter; BBL_POP and BBL_CLEAR remove records. STACK_TRAINING: a passed step
leads to the next; step 8 zeroes the stack's memory, no other, and leaves it READY; a failed step, or a geometry with
too few rows in step 2, starts another attempt and after the third leaves the stack FAILED with the cause; step 7 logs
a failing block with OP = TEST; a stack that does not train is left alone. Completes (exec answers a next state with
the own effect of the form): rowIdleExpiry, refreshDue, hbmTempPoll, hbmCntClr, bblPop, bblClear, stackTraining. -/
def Obligations.StackHousekeepingAndTraining : Prop :=
  ((∀ (c : Chan) (now idle : Nat) (b : Word),
    (idle = 0 → tfind (c.openRow now b idle).openRows (blockPlace b).bank = none) ∧
    (idle ≠ 0 → tfind (c.openRow now b idle).openRows (blockPlace b).bank = some (blockPlace b).row
      ∧ tfind (c.openRow now b idle).rowDue (blockPlace b).bank = some (now + (10 * idle + 63) / 64)) ∧
    (∀ x, x ≠ (blockPlace b).bank → tfind (c.openRow now b idle).openRows x = tfind c.openRows x
      ∧ tfind (c.openRow now b idle).rowDue x = tfind c.rowDue x)) ∧
  (∀ (k : Fin 8) (c : Fin 32) (pc : Bool) (b : Fin 16) (s : State),
    (∀ d, tfind ((s.hbmStacks[k]).ch[c]).rowDue (16 * pc.toNat + b.val) = some d → d ≤ s.now →
      ∃ u, exec (.rowIdleExpiry k c pc b) s = .next u ∧ OnlyStack k s u
      ∧ tfind ((u.hbmStacks[k]).ch[c]).openRows (16 * pc.toNat + b.val) = none
      ∧ (∀ x, x ≠ 16 * pc.toNat + b.val → tfind ((u.hbmStacks[k]).ch[c]).openRows x = tfind ((s.hbmStacks[k]).ch[c]).openRows x)
      ∧ ((u.hbmStacks[k]).ch[c]).queue = ((s.hbmStacks[k]).ch[c]).queue) ∧
    ((∀ d, tfind ((s.hbmStacks[k]).ch[c]).rowDue (16 * pc.toNat + b.val) = some d → s.now < d) →
      exec (.rowIdleExpiry k c pc b) s = .next s)) ∧
  (∀ (k : Fin 8) (c : Fin 32) (pc : Bool) (i : Fin 2) (s : State), i = (if pc then 1 else 0) → ∃ u, exec (.refreshDue k c pc) s = .next u
    ∧ OnlyStack k s u ∧
    ((((s.hbmStacks[k]).ch[c]).panicRd = true ∨ ((s.hbmStacks[k]).ch[c]).panicWr = true) →
      (((s.hbmStacks[k]).ch[c]).postponed[i] < (s.hbmStacks[k]).postMax.toNat →
        ((u.hbmStacks[k]).ch[c]).postponed[i] = ((s.hbmStacks[k]).ch[c]).postponed[i] + 1
        ∧ ((u.hbmStacks[k]).ch[c]).refPostponed = satInc ((s.hbmStacks[k]).ch[c]).refPostponed
        ∧ ((u.hbmStacks[k]).ch[c]).urgent = ((s.hbmStacks[k]).ch[c]).urgent) ∧
      ((s.hbmStacks[k]).postMax.toNat ≤ ((s.hbmStacks[k]).ch[c]).postponed[i] →
        ((u.hbmStacks[k]).ch[c]).urgent[i] = ((s.hbmStacks[k]).ch[c]).urgent[i] + 1
        ∧ ((u.hbmStacks[k]).ch[c]).postponed = ((s.hbmStacks[k]).ch[c]).postponed)
      ∧ ((u.hbmStacks[k]).ch[c]).due = ((s.hbmStacks[k]).ch[c]).due) ∧
    ((((s.hbmStacks[k]).ch[c]).panicRd = false ∧ ((s.hbmStacks[k]).ch[c]).panicWr = false) →
      ((u.hbmStacks[k]).ch[c]).due[i] = ((s.hbmStacks[k]).ch[c]).due[i] + 1
      ∧ ((u.hbmStacks[k]).ch[c]).postponed = ((s.hbmStacks[k]).ch[c]).postponed
      ∧ ((u.hbmStacks[k]).ch[c]).urgent = ((s.hbmStacks[k]).ch[c]).urgent)) ∧
  (∀ (k : Fin 8) (t : Byte) (hot : Bool) (s : State), ∃ u, exec (.hbmTempPoll k t hot) s = .next u ∧ Raised (s.modStack k (fun _ => u.hbmStacks[k])) u
    ∧ u.hbmStacks[k] = { (s.hbmStacks[k]) with
        temp := t, tempMax := if (s.hbmStacks[k]).tempMax.toNat < t.toNat then t else (s.hbmStacks[k]).tempMax
        hotNow := hot, hot := (s.hbmStacks[k]).hot || hot }
    ∧ (hot = false → OnlyStack k s u)) ∧
  (∀ (k : Fin 8) (s : State), 5 ≤ s.pwr.phase.toNat → ∃ u, exec (.hbmCntClr k) s = .next u ∧ OnlyStack k s u
    ∧ ∀ c : Fin 32, (u.hbmStacks[k]).ch[c] = { ((s.hbmStacks[k]).ch[c]) with
        rd := 0, wr := 0, rmw := 0, rowMiss := 0, firstFail := 0, rereadOk := 0, rereadFail := 0, panicCnt := 0, refPostponed := 0
        rawWait := 0, badReq := 0 }) ∧
  (∀ s : State, exec .bblPop s = .next { s with glb := { s.glb with bbl := s.glb.bbl.pop } } ∧ s.glb.bbl.pop.recs = s.glb.bbl.recs.tail
    ∧ exec .bblClear s = .next { s with glb := { s.glb with bbl := s.glb.bbl.clear } } ∧ s.glb.bbl.clear.recs = [] ∧ s.glb.bbl.clear.drop = 0)) ∧
  ((∀ (k : Fin 8) (rows : BitVec 18) (s : State), (s.hbmStacks[k]).st = 1 → (s.hbmStacks[k]).step ≠ 8 →
    ((s.hbmStacks[k]).step = 2 → 68672 ≤ rows.toNat) → ∃ u, exec (.stackTraining k (.pass rows)) s = .next u ∧ OnlyStack k s u
      ∧ (u.hbmStacks[k]).step = (s.hbmStacks[k]).step + 1 ∧ (u.hbmStacks[k]).st = 1
      ∧ (u.hbmStacks[k]).rows = (if (s.hbmStacks[k]).step = 2 then rows else (s.hbmStacks[k]).rows)) ∧
  (∀ (k : Fin 8) (rows : BitVec 18) (s : State), (s.hbmStacks[k]).st = 1 → (s.hbmStacks[k]).step = 8 →
    ∃ u, exec (.stackTraining k (.pass rows)) s = .next u ∧ u = { s with hbm := u.hbm, hbmMeta := u.hbmMeta, hbmStacks := u.hbmStacks, sec := u.sec }
      ∧ (u.hbmStacks[k]).st = 2 ∧ (u.hbmStacks[k]).cause = 0
      ∧ ∀ a, mread u.hbm a = if k.val * 2 ^ 37 ≤ a ∧ a < (k.val + 1) * 2 ^ 37 then 0 else mread s.hbm a) ∧
  (∀ (k : Fin 8) (cause : Fin 6) (s : State), (s.hbmStacks[k]).st = 1 → cause.val ≠ 0 → trainCause (s.hbmStacks[k]).step.toNat = cause.val →
    ((s.hbmStacks[k]).attempts.toNat < 3 → ∃ u, exec (.stackTraining k (.fail cause)) s = .next u
      ∧ (u.hbmStacks[k]).st = 1 ∧ (u.hbmStacks[k]).step = 1 ∧ (u.hbmStacks[k]).attempts = (s.hbmStacks[k]).attempts + 1
      ∧ (u.hbmStacks[k]).cause.toNat = cause.val ∧ u.hbm = s.hbm) ∧
    (3 ≤ (s.hbmStacks[k]).attempts.toNat → ∃ u, exec (.stackTraining k (.fail cause)) s = .next u
      ∧ (u.hbmStacks[k]).st = 3 ∧ (u.hbmStacks[k]).cause.toNat = cause.val ∧ u.hbm = s.hbm)) ∧
  (∀ (k : Fin 8) (rows : BitVec 18) (s : State), (s.hbmStacks[k]).st = 1 → (s.hbmStacks[k]).step = 2 → rows.toNat < 68672 →
    (s.hbmStacks[k]).attempts.toNat < 3 → ∃ u, exec (.stackTraining k (.pass rows)) s = .next u ∧ OnlyStack k s u
      ∧ (u.hbmStacks[k]).st = 1 ∧ (u.hbmStacks[k]).step = 1 ∧ (u.hbmStacks[k]).cause = 1 ∧ (u.hbmStacks[k]).rows = rows
      ∧ (u.hbmStacks[k]).attempts = (s.hbmStacks[k]).attempts + 1) ∧
  (∀ (k : Fin 8) (b computed stored : Word) (s : State), (s.hbmStacks[k]).st = 1 → (s.hbmStacks[k]).step = 7 →
    s.glb.bbl.recs.length < 64 → (∀ e ∈ s.glb.bbl.recs, fld e 0 32 ≠ b) → ∃ (u : State) (e : BitVec 256),
      exec (.stackTraining k (.badBlock b stored computed)) s = .next u ∧ u.hbm = s.hbm ∧ (u.hbmStacks[k]).st = 1 ∧ (u.hbmStacks[k]).step = 7
      ∧ u.glb.bbl.recs = s.glb.bbl.recs ++ [e] ∧ fld e 0 32 = b) ∧
  (∀ (k : Fin 8) (o : StackOutcome) (s : State), (s.hbmStacks[k]).st ≠ 1 → exec (.stackTraining k o) s = .next s))

/-- PORT_TRAINING: each step that passes in its time leads to the next; a cause that the step can fail with, once its time
is spent, starts another attempt, and after the third leaves the port DOWN, or DISABLED after a fast retrain for a
cause other than 1 and 2; frame lock takes three good frames on every lane; a lane whose eye meets its minimum is
ready, and step 5 needs RX_READY sent and received three times on every lane; a skew beyond 200 fails with cause 5;
the LINK_UP blocks of both sides lead to step 8; a measured round trip with a PRES block leaves the port LINKED with
the partner's buffers as credits. TRAINING_FRAME: in step 2 good frames in a row are counted on their lane; during
equalisation a good frame off the line is kept for the answer on its lane: a preset sets the taps, a request moves one
tap by one step inside its range, and taps keep their ranges and, with c0, a sum of magnitudes of 64; a frame with a
bad check is not answered. In steps 1 to 4 a slot of the port sends one frame on every lane, with RX_READY and the
lane's answer; a frame is 8,192 symbols, its marker first. Completes (exec answers a next state with the own effect of
the form): portTraining, trainingFrame, flitTransmit. -/
def Obligations.PortTraining : Prop :=
  ((∀ (p : Fin 12) (s : State), (s.ports[p]).inTraining = true →
    ((s.ports[p]).step = 1 → s.now ≤ (s.ports[p]).stepSince + 1562500 →
      exec (.portTraining p .detect) s = .next (s.modPort p (fun q => { q with step := 2, stepSince := s.now }))) ∧
    ((s.ports[p]).step = 2 → s.now ≤ (s.ports[p]).stepSince + 312500 →
      ((∃ l : Fin 4, ((s.ports[p]).lanes[l]).goodFrames < 3) → exec (.portTraining p .frameLock) s = .next s) ∧
      ((∀ l : Fin 4, 3 ≤ ((s.ports[p]).lanes[l]).goodFrames) → ∃ u, exec (.portTraining p .frameLock) s = .next u ∧ OnlyPort p s u
      ∧ (u.ports[p]).step = 3 ∧ (u.ports[p]).stepSince = s.now ∧ (u.ports[p]).sent = (s.ports[p]).sent ∧ ∀ l : Fin 4, ((u.ports[p]).lanes[l]).cm2 = 2 ∧ ((u.ports[p]).lanes[l]).cm1 = -8 ∧ ((u.ports[p]).lanes[l]).cp1 = -4
        ∧ ((u.ports[p]).lanes[l]).c0 = 50)) ∧
    ((s.ports[p]).step = 5 → (∀ l : Fin 4, ((s.ports[p]).lanes[l]).mark.isSome = true) → s.now ≤ (s.ports[p]).stepSince + 156250 →
      exec (.portTraining p .fecLock) s = .next (s.modPort p (fun q => { q with step := 6, stepSince := s.now }))) ∧
    (∀ (l : Fin 4) (h w : Byte), (s.ports[p]).step = 3 ∨ (s.ports[p]).step = 4 → s.now ≤ (s.ports[p]).stepSince + 7812500 →
      ∃ u, exec (.portTraining p (.equalised l h w)) s = .next u ∧ OnlyPort p s u ∧ ((u.ports[p]).lanes[l]).eyeH = h
        ∧ ((u.ports[p]).lanes[l]).eyeW = w ∧ ((u.ports[p]).step = 4 ∨ (u.ports[p]).step = 5)
        ∧ ((u.ports[p]).step = 5 ↔ ∀ m : Fin 4, ((u.ports[p]).lanes[m]).rxReady = true ∧ 3 ≤ ((u.ports[p]).lanes[m]).sentReady
            ∧ 3 ≤ ((u.ports[p]).lanes[m]).readyFrames)
        ∧ (((s.ports[p]).lanes[l]).eyeMinH.toNat ≤ h.toNat → ((s.ports[p]).lanes[l]).eyeMinW.toNat ≤ w.toNat →
            ((u.ports[p]).lanes[l]).rxReady = true)
        ∧ ∀ m : Fin 4, m ≠ l → (u.ports[p]).lanes[m] = (s.ports[p]).lanes[m]) ∧
    (∀ (inv : Vector Bool 4) (sk : Vector Byte 4), (s.ports[p]).step = 6 →
      ((∀ l : Fin 4, sk[l].toNat ≤ 200) → (∀ l : Fin 4, ((s.ports[p]).lanes[l]).mark.isSome = true
          ∧ ((s.ports[p]).lanes[l]).mark = ((s.ports[p]).lanes[(0 : Fin 4)]).mark) →
        ∃ u, exec (.portTraining p (.deskewed inv sk)) s = .next u ∧ OnlyPort p s u
        ∧ (u.ports[p]).step = 7 ∧ (u.ports[p]).stepSince = s.now ∧ ∀ l : Fin 4, ((u.ports[p]).lanes[l]).phys = ((s.ports[p]).lanes[l]).phys
          ∧ ((u.ports[p]).lanes[l]).inverted = inv[l] ∧ ((u.ports[p]).lanes[l]).skew = sk[l]) ∧
      ((∃ l : Fin 4, 200 < sk[l].toNat) → (s.ports[p]).attempts < 3 → ∃ u, exec (.portTraining p (.deskewed inv sk)) s = .next u
        ∧ OnlyPort p s u ∧ (u.ports[p]).step = 1 ∧ (u.ports[p]).attempts = (s.ports[p]).attempts + 1 ∧ (u.ports[p]).cause = 5)) ∧
    (∀ id : BitVec 16, (s.ports[p]).step = 7 → s.now ≤ (s.ports[p]).stepSince + 156250 → ∃ u, exec (.portTraining p (.linkUp id)) s = .next u
      ∧ ((s.ports[p]).rttOk = false → OnlyPort p s u) ∧ (u.ports[p]).txId = id ∧ (u.ports[p]).linkUpTx = true
      ∧ (u.ports[p]).step = (if (s.ports[p]).linkUpRx then 8 else 7)) ∧
    ((s.ports[p]).step = 8 → (s.ports[p]).rttOk = true → (s.ports[p]).presOk = true →
      ((s.linkSteps p).ports[p]).st = .linked ∧ ((s.linkSteps p).ports[p]).credits = #v[512, 256, 64, 16]
      ∧ ((s.ports[p]).conf = false → OnlyPort p s (s.linkSteps p))
      ∧ ((s.ports[p]).conf = true → ((s.linkSteps p).ports[p]).authStart.isSome = true ∨ ((s.linkSteps p).ports[p]).authDone = true)) ∧
    ((s.ports[p]).step = 8 → (s.ports[p]).rttOk = false ∨ (s.ports[p]).presOk = false → s.linkSteps p = s) ∧
    (∀ c : Fin 7, (causeStep c.val).contains (s.ports[p]).step = true → (s.ports[p]).spent s.now = true →
      ((s.ports[p]).attempts < 3 → ∃ u, exec (.portTraining p (.fail c)) s = .next u ∧ OnlyPort p s u ∧ (u.ports[p]).st = (s.ports[p]).st
        ∧ (u.ports[p]).step = 1 ∧ (u.ports[p]).attempts = (s.ports[p]).attempts + 1 ∧ (u.ports[p]).cause.toNat = c.val) ∧
      (3 ≤ (s.ports[p]).attempts → (s.ports[p]).afterFast = false → ∃ u, exec (.portTraining p (.fail c)) s = .next u
        ∧ Raised (s.modPort p (fun _ => u.ports[p])) u ∧ (u.ports[p]).st = .down ∧ (u.ports[p]).downSince = s.now
        ∧ (u.ports[p]).event.getLsbD 0 = true) ∧
      (3 ≤ (s.ports[p]).attempts → (s.ports[p]).afterFast = true → c.val ≠ 1 → c.val ≠ 2 → ∃ u, exec (.portTraining p (.fail c)) s = .next u
        ∧ (u.ports[p]).st = .disabled ∧ (u.ports[p]).event.getLsbD 3 = true))) ∧
  (∀ (p : Fin 12) (o : PortOutcome) (s : State), (s.ports[p]).inTraining = false → exec (.portTraining p o) s = .next s) ∧
  (∀ (p : Fin 12) (o : PortOutcome) (s : State), (∀ c, o ≠ .fail c) → (s.ports[p]).late s.now = true →
    exec (.portTraining p o) s = .next s)) ∧
  ((∀ (p : Fin 12) (x : LineItem) (s : State), ((s.ports[p]).st ≠ .off → (s.ports[p]).loop = 0 → s.lineIn p x = (s, true))
    ∧ ((s.ports[p]).st = .off → s.lineIn p x = (s, false))) ∧
  (∀ (p : Fin 12) (l : Fin 4) (c st k : BitVec 16) (s v : State) (b : Bool), s.lineIn p (.frame l c st k 0) = (v, b) →
    (b = true → (s.ports[p]).inTraining = true → (s.ports[p]).step = 2 → exec (.trainingFrame p l c st k) s = .next (v.modPort p (fun q =>
      { q with lanes := vmod q.lanes l (fun x => { x with goodFrames := if frameCheck c st = k then x.goodFrames + 1 else 0 }) }))) ∧
    (b = true → (s.ports[p]).inTraining = true → ((s.ports[p]).step = 3 ∨ (s.ports[p]).step = 4) → frameCheck c st = k →
      ∃ u : State, exec (.trainingFrame p l c st k) s = .next u
      ∧ u = { s with ports := u.ports } ∧ (∀ q : Fin 12, q ≠ p → u.ports[q] = s.ports[q])
      ∧ (u.ports[p]).sent = (v.ports[p]).sent
      ∧ (∀ m : Fin 4, m ≠ l → (u.ports[p]).lanes[m] = (s.ports[p]).lanes[m])
      ∧ (bitAt c 10 = true → ((u.ports[p]).lanes[l]).partnerReady = true
          ∧ ((u.ports[p]).lanes[l]).readyFrames = ((s.ports[p]).lanes[l]).readyFrames + 1)
      ∧ (nfld c 8 2 = 1 → ((u.ports[p]).lanes[l]).c0 = 64 ∧ ((u.ports[p]).lanes[l]).cm1 = 0)
      ∧ (nfld c 8 2 = 2 → ((u.ports[p]).lanes[l]).c0 = 50 ∧ ((u.ports[p]).lanes[l]).cm1 = -8)
      ∧ (nfld c 8 2 = 3 → ((u.ports[p]).lanes[l]).c0 = 40 ∧ ((u.ports[p]).lanes[l]).cm1 = -12)
      ∧ (nfld c 8 2 ≠ 0 → ((u.ports[p]).lanes[l]).answer = 0x100)
      ∧ (nfld c 8 2 = 0 → (((s.ports[p]).lanes[l]).taps c).2 ≠ 0 →
          ((u.ports[p]).lanes[l]).answer = BitVec.ofNat 16 (((s.ports[p]).lanes[l]).taps c).2)
      ∧ (nfld c 0 10 = 0 → ((u.ports[p]).lanes[l]).cm3 = ((s.ports[p]).lanes[l]).cm3 ∧ ((u.ports[p]).lanes[l]).cm2 = ((s.ports[p]).lanes[l]).cm2
          ∧ ((u.ports[p]).lanes[l]).cm1 = ((s.ports[p]).lanes[l]).cm1 ∧ ((u.ports[p]).lanes[l]).cp1 = ((s.ports[p]).lanes[l]).cp1)) ∧
    (b = false ∨ (s.ports[p]).inTraining = false ∨ (s.ports[p]).step < 2 ∨ 4 < (s.ports[p]).step
      ∨ ((s.ports[p]).step ≠ 2 ∧ frameCheck c st ≠ k) → exec (.trainingFrame p l c st k) s = .next v)) ∧
  (∀ (p : Fin 12) (s : State), (s.ports[p]).prbsOn = false → (s.ports[p]).framing = true → (s.ports[p]).loop = 0 →
    ∃ (u : State) (xs : List LineItem), exec (.flitTransmit p) s = .next u ∧ u = { s with ports := u.ports, free := s.free + 1 }
      ∧ (∀ q : Fin 12, q ≠ p → u.ports[q] = s.ports[q]) ∧ (u.ports[p]).sent = (s.ports[p]).sent ++ xs ∧ xs.length = 4
      ∧ ∀ l : Fin 4, ∃ (c : BitVec 16) (f : BitVec 31), xs[l.val]? = some (.frame l c ((s.ports[p]).lanes[l]).answer
          (frameCheck c ((s.ports[p]).lanes[l]).answer) f) ∧ bitAt c 10 = ((s.ports[p]).lanes[l]).rxReady) ∧
  (∀ (c st k : BitVec 16) (f : BitVec 31), (frameSymbols c st k f).1.length = 8192
    ∧ (frameSymbols c st k f).1.take 32 = List.replicate 16 3 ++ List.replicate 16 0) ∧
  (∀ (lo hi v : Int) (req : Nat), lo ≤ v → v ≤ hi → lo ≤ (tapStep lo hi v req).1 ∧ (tapStep lo hi v req).1 ≤ hi
    ∧ (req = 1 → v < hi → tapStep lo hi v req = (v + 1, 1)) ∧ (req = 1 → v = hi → tapStep lo hi v req = (v, 2))
    ∧ (req = 2 → lo < v → tapStep lo hi v req = (v - 1, 1)) ∧ (req = 0 → tapStep lo hi v req = (v, 0))) ∧
  (∀ (l m : Lane) (c : BitVec 16), m = (l.taps c).1 → l.cm3.toNat ≤ 6 → l.cm2.toNat ≤ 8 → -24 ≤ l.cm1.toInt → l.cm1.toInt ≤ 0 →
    -16 ≤ l.cp1.toInt → l.cp1.toInt ≤ 0 → (l.cm3.toNat : Int) + l.cm2.toNat - l.cm1.toInt - l.cp1.toInt ≤ 32 →
    m.cm3.toNat ≤ 6 ∧ m.cm2.toNat ≤ 8 ∧ -24 ≤ m.cm1.toInt ∧ m.cm1.toInt ≤ 0 ∧ -16 ≤ m.cp1.toInt ∧ m.cp1.toInt ≤ 0
      ∧ (m.cm3.toNat : Int) + m.cm2.toNat - m.cm1.toInt - m.cp1.toInt ≤ 32
      ∧ (m.c0.toNat : Int) + m.cm3.toNat + m.cm2.toNat - m.cm1.toInt - m.cp1.toInt = 64))

/-- Retrains. DOWN_RETRY starts full training of an enabled port 100 ms after it went down; a fast retrain in time, with
the round trip measured and PRES exchanged, returns the port to its state and sends again every flit not acknowledged,
and the NACKs that arrived meanwhile are applied in order; one not done within 40 µs falls back to full training;
three missed ALIGN blocks of a lane or a write of RETRAIN start one; it forgets the markers and the measured round
trip, is counted, and beyond the retrains allowed in a second disables the port; FULL_TRAIN starts full training,
which discards keys, LINK_IDs, sequence numbers and credits. Completes (exec answers a next state with the own effect
of the form): downRetry, fastRetrain, fastRetrainFail, laneLockLoss, retrain, fullTrain. -/
def Obligations.RetrainsAndFullTraining : Prop :=
  (∀ (p : Fin 12) (s : State), 7 ≤ s.pwr.phase.toNat → (s.ports[p]).st = .down → (s.ports[p]).en = true →
    ((s.ports[p]).downSince + 15625000 ≤ s.now → exec (.downRetry p) s = .next (s.modPort p (fun q => q.train s.now false))) ∧
    (s.now < (s.ports[p]).downSince + 15625000 → exec (.downRetry p) s = .next s)) ∧
  (∀ (q : Port) (t : Nat) (b : Bool), (q.train t b).txId = 0 ∧ (q.train t b).rxId = 0 ∧ (q.train t b).txSeq = 0 ∧ (q.train t b).rxNext = 0
    ∧ (q.train t b).replayBuf = [] ∧ (q.train t b).credits = Vector.replicate 4 0 ∧ (q.train t b).authDone = false ∧ (q.train t b).txKey = 0
    ∧ (q.train t b).step = 1 ∧ (q.train t b).stepSince = t ∧ (q.train t b).attempts = 1 ∧ (q.train t b).cnt = q.cnt
    ∧ (q.train t b).permit = q.permit ∧ (q.train t b).eps = q.eps
    ∧ (q.train t b).st = (if q.st = .test then .test else .training)) ∧
  (∀ (p : Fin 12) (lk : Vector Bool 4) (sk : Vector Byte 4) (s : State), (s.ports[p]).st = .retrain →
    ((∀ l : Fin 4, lk[l] = true ∧ sk[l].toNat ≤ 200) → (s.ports[p]).lined = true → (s.ports[p]).rttOk = true → (s.ports[p]).presOk = true →
      s.now ≤ (s.ports[p]).retrainSince + 6250 → ∃ q : Port,
      exec (.fastRetrain p lk sk) s = .next ((s.modPort p (fun _ => q)).applyNacks p (s.ports[p]).heldNack)
      ∧ q.st = (s.ports[p]).prev ∧ q.rtt = (s.ports[p]).rtt ∧ q.replayBuf = (s.ports[p]).replayBuf ∧ q.resend = q.replayBuf
      ∧ q.txSeq = (s.ports[p]).txSeq ∧ q.rxNext = (s.ports[p]).rxNext ∧ q.heldNack = []
      ∧ q.credits = (s.ports[p]).creditsBack q.replayBuf ∧ ∀ l : Fin 4, (q.lanes[l]).skew = sk[l]) ∧
    ((∃ l : Fin 4, lk[l] = false ∨ 200 < sk[l].toNat) ∨ (s.ports[p]).lined = false ∨ (s.ports[p]).rttOk = false ∨ (s.ports[p]).presOk = false
      ∨ (s.ports[p]).retrainSince + 6250 < s.now → exec (.fastRetrain p lk sk) s = .next s)) ∧
  (∀ (p : Fin 12) (s : State) (f : Data2048) (l : List Data2048), s.applyNacks p [] = s
    ∧ s.applyNacks p (f :: l) = State.applyNacks (match (s.ports[p]).ackField s.now f with
        | some q => s.modPort p (fun _ => q)
        | none => s.portViolation p) p l) ∧
  (∀ (p : Fin 12) (s : State), (s.ports[p]).st = .retrain → (s.ports[p]).retrainSince + 6250 ≤ s.now →
    exec (.fastRetrainFail p) s = .next (s.modPort p (fun q => q.train s.now true))) ∧
  (∀ (p : Fin 12) (l : Fin 4) (s : State), (s.ports[p]).up = true →
    (((s.ports[p]).lanes[l]).lastMark + 3072 ≤ s.now → exec (.laneLockLoss p l) s = .next (s.startRetrain p false))
    ∧ (s.now < ((s.ports[p]).lanes[l]).lastMark + 3072 → exec (.laneLockLoss p l) s = .next s) ∧ (5 ≤ s.pwr.phase.toNat → exec (.retrain p) s = .next (s.startRetrain p false))
    ∧ (((s.ports[p]).retrainLog.filter (fun t => decide (s.now < t + 156250000))).length < (s.ports[p]).retrainMax.toNat →
        OnlyPort p s (s.startRetrain p false) ∧ ((s.startRetrain p false).ports[p]).st = .retrain
        ∧ ((s.startRetrain p false).ports[p]).prev = (s.ports[p]).st ∧ ((s.startRetrain p false).ports[p]).retrainSince = s.now
        ∧ ((s.startRetrain p false).ports[p]).rttOk = false ∧ ((s.startRetrain p false).ports[p]).presOk = false
        ∧ (∀ m : Fin 4, (((s.startRetrain p false).ports[p]).lanes[m]).mark = none)
        ∧ ((s.startRetrain p false).ports[p]).cnt.retrains = satInc (s.ports[p]).cnt.retrains)
    ∧ ((s.ports[p]).retrainMax.toNat ≤ ((s.ports[p]).retrainLog.filter (fun t => decide (s.now < t + 156250000))).length →
        ((s.startRetrain p false).ports[p]).st = .disabled ∧ ((s.startRetrain p false).ports[p]).event.getLsbD 3 = true)) ∧
  (∀ (p : Fin 12) (s : State), 5 ≤ s.pwr.phase.toNat → (s.ports[p]).up = true ∨ (s.ports[p]).st = .down →
    exec (.fullTrain p) s = .next (s.modPort p (fun q => q.train s.now false)))

/-- The fields of LNK_CTL and the lane counters: EN = 0 turns the port OFF and discards its keys, EN = 1 trains a port
that is OFF; ADMIT is kept for the next boundary; CONF = 1 on a LINKED port starts authentication with a nonce and the
certificate chain; CLR_DEGRADED returns a DEGRADED port to ADMITTED; a loopback mode moves an OFF, DOWN or LINKED port
to TEST, LOOP = 0 to DOWN; PRBS_CLR and LNK_CNT_CLR zero their counters. PRBS_CHECKER_LOCK on the line: a checker that
is not locked takes the first received bits as its state and counts the rest; a locked one counts 31 bits and an error
for each that differs from the sequence; in a near-end loop it hears its own lane's generator; outside TEST, with no
pattern selected, and in a near-end loop without a generator nothing happens. Completes (exec answers a next state
with the own effect of the form): lnkEn, admitPort, conf, clrDegraded, loop, prbsClr, lnkCntClr, prbsCheckerLock. -/
def Obligations.LinkControlAndPrbs : Prop :=
  (∀ (p : Fin 12) (s : State), 5 ≤ s.pwr.phase.toNat →
    (∃ u, exec (.lnkEn p false) s = .next u ∧ OnlyPort p s u ∧ (u.ports[p]).st = .off ∧ (u.ports[p]).en = false ∧ (u.ports[p]).txKey = 0
      ∧ (u.ports[p]).authDone = false ∧ (u.ports[p]).cnt = (s.ports[p]).cnt) ∧
    ((s.ports[p]).st = .off → ∃ u, exec (.lnkEn p true) s = .next u ∧ OnlyPort p s u ∧ (u.ports[p]).st = .training ∧ (u.ports[p]).en = true
      ∧ (u.ports[p]).step = 1) ∧
    ((s.ports[p]).st ≠ .off → exec (.lnkEn p true) s = .next (s.modPort p (fun q => { q with en := true }))) ∧
    (∀ on, exec (.admitPort p on) s = .next (s.modPort p (fun q => { q with admitOn := on }))) ∧
    (∀ on, (s.ports[p]).st ≠ .linked ∨ on = false → exec (.conf p on) s = .next (s.modPort p (fun q => { q with conf := on }))) ∧
    ((s.ports[p]).st = .linked → (s.ports[p]).authStart = none → (s.ports[p]).authDone = false → ∃ (u : State) (m : List Byte),
      exec (.conf p true) s = .next u ∧ u = { s with ports := u.ports, free := s.free + 2 } ∧ (∀ q : Fin 12, q ≠ p → u.ports[q] = s.ports[q])
      ∧ (u.ports[p]).conf = true ∧ (u.ports[p]).authStart = some s.now ∧ (u.ports[p]).authStep = 1
      ∧ m.length = 32 ∧ (u.ports[p]).txq = (s.ports[p]).txq
          ++ (Config.authPack 1 (m ++ s.sec.certChain)).map (fun pl => (none, mkFlit 0 s.fab.id 2 0x0C 0 false pl))) ∧
    ((s.ports[p]).st = .degraded → exec (.clrDegraded p) s =
      .next (s.modPort p (fun q => { q with st := .admitted, starved := Vector.replicate 4 none }))) ∧
    ((s.ports[p]).st ≠ .degraded → exec (.clrDegraded p) s = .next s) ∧
    (∀ m : BitVec 2, m ≠ 0 → m ≠ (s.ports[p]).loop → (s.ports[p]).admitOn = false →
      (s.ports[p]).st = .linked ∨ (s.ports[p]).st = .down ∨ (s.ports[p]).st = .off ∨ (s.ports[p]).st = .test →
      ∃ u, exec (.loop p m) s = .next u ∧ OnlyPort p s u ∧ (u.ports[p]).st = .test ∧ (u.ports[p]).loop = m) ∧
    ((s.ports[p]).st = .test → (s.ports[p]).loop ≠ 0 → (s.ports[p]).admitOn = false → ∃ u, exec (.loop p 0) s = .next u
      ∧ Raised (s.modPort p (fun _ => u.ports[p])) u ∧ (u.ports[p]).st = .down ∧ (u.ports[p]).loop = 0) ∧
    (∀ m, (s.ports[p]).admitOn = true → exec (.loop p m) s = .next s) ∧
    (∀ l : Fin 4, exec (.prbsClr p l) s = .next (s.modPort p (fun q =>
      { q with lanes := vmod q.lanes l (fun x => { x with errs := 0, bits := 0, locked := false }) }))) ∧
    exec (.lnkCntClr p) s = .next (s.modPort p (fun q => { q with cnt := {} }))) ∧
  ((∀ (p : Fin 12) (l : Fin 4) (bits : BitVec 31) (s : State) (n : Nat) (taps : List Nat), (s.ports[p]).st = .test → (s.ports[p]).loop = 0 ∨ (s.ports[p]).loop = 3 →
    prbsTaps (((s.ports[p]).lanes[l]).chk).toNat = some (n, taps) → ((s.ports[p]).lanes[l]).bits.toNat + 31 < 2 ^ 64 →
    ∃ u, exec (.prbsCheckerLock p l bits) s = .next u ∧ u = { s with ports := u.ports, free := s.free + 1 }
      ∧ (∀ q : Fin 12, q ≠ p → u.ports[q] = s.ports[q]) ∧ ((u.ports[p]).lanes[l]).locked = true
      ∧ (((s.ports[p]).lanes[l]).locked = false → ((u.ports[p]).lanes[l]).bits = ((s.ports[p]).lanes[l]).bits + BitVec.ofNat 64 (31 - n))
      ∧ (((s.ports[p]).lanes[l]).locked = true → ((u.ports[p]).lanes[l]).bits = ((s.ports[p]).lanes[l]).bits + 31)
      ∧ ((s.ports[p]).lanes[l]).errs.toNat ≤ ((u.ports[p]).lanes[l]).errs.toNat
      ∧ ∀ m : Fin 4, m ≠ l → (u.ports[p]).lanes[m] = (s.ports[p]).lanes[m]) ∧
  (∀ (p : Fin 12) (l : Fin 4) (bits : BitVec 31) (s : State) (n g : Nat × List Nat), (s.ports[p]).st = .test → (s.ports[p]).loop = 1 ∨ (s.ports[p]).loop = 2 →
    prbsTaps (((s.ports[p]).lanes[l]).chk).toNat = some n → prbsTaps (((s.ports[p]).lanes[l]).gen).toNat = some g →
    ∃ u, exec (.prbsCheckerLock p l bits) s = .next u ∧ u = { s with ports := u.ports, free := s.free + 1 }
      ∧ ((u.ports[p]).lanes[l]).locked = true
      ∧ (((s.ports[p]).lanes[l]).genState ≠ 0 → ((u.ports[p]).lanes[l]).loopState = (prbsRun g.2 ((s.ports[p]).lanes[l]).loopState 31).2)) ∧
  (∀ (taps : List Nat) (l : Lane) (b : Bool), (l.prbsBit taps b).errs = (if prbsNext taps l.prbsState = (b != l.inv) then l.errs else satInc l.errs)
    ∧ (l.prbsBit taps b).bits = satInc l.bits) ∧
  (∀ (p : Fin 12) (l : Fin 4) (bits : BitVec 31) (s : State), (s.ports[p]).st ≠ .test ∨ ((s.ports[p]).lanes[l]).chk = 0
    ∨ (((s.ports[p]).loop = 1 ∨ (s.ports[p]).loop = 2) ∧ ((s.ports[p]).lanes[l]).gen = 0) → exec (.prbsCheckerLock p l bits) s = .next s))

/-- Received control blocks. A block that a loop does not carry to the receiver does nothing there; one with a bad check
is counted and has no other effect; FILL is deleted or inserted; ALIGN names the partner's lane and its marker count,
and in a fast retrain the lanes' agreement sends RTT_REQ and PRES; LINK_UP in step 7 holds the partner's LINK_ID; PRES
on a link holds its identity and clears ADMIT when another device was admitted; RTT_REQ is echoed; RTT_RSP with the
number of the last request gives the round trip; a good block of a reserved type is a violation. A control block that
the device puts on the line passes the check under its LINK_ID and has its type; one changed in its check does not.
PRES_SEND sends the identity, the port and the beat count every PERIOD ticks, on a link, in a retrain and in step 8 of
training; PRES_TIMEOUT after four periods without a valid PRES puts the port in DOWN and discards its keys; corrected
symbols and uncorrectable codewords are counted, and the 20 blocks of such a codeword are bad. Completes (exec answers
a next state with the own effect of the form): fill, align, pres, rttReq, rttRsp, badControlBlock, linkUp, presSend,
presTimeout, uncorrectableCodeword. -/
def Obligations.ControlBlocksAndPresence : Prop :=
  ((∀ (p : Fin 12) (x : LineItem) (s : State), (s.ports[p]).st ≠ .off → (s.ports[p]).loop = 0 → s.lineIn p x = (s, true)) ∧
  (∀ (s : State) (p : Fin 12) (b : Data256) (id : BitVec 16), s.blockGood p b id = true ↔ cbGood b id = true ∧ (s.ports[p]).badLeft = 0) ∧
  (∀ e ∈ ([(fun p b => Instr.fill p b true false, 0x1E), (fun p b => Instr.align p 0 b, 0x2D), (Instr.pres, 0x4B), (Instr.rttReq, 0x66),
      (Instr.rttRsp, 0x67)] : List ((Fin 12 → Data256 → Instr) × Nat)),
    ∀ (p : Fin 12) (b : Data256) (s v : State) (on : Bool), s.lineIn p (.ctl b) = (v, on) →
      (cbType b = e.2 → on = true → s.blockGood p b (s.ports[p]).rxId = false → exec (e.1 p b) s =
        .next ((v.tookBlocks p 1).modPort p (fun q => { q with cnt := { q.cnt with ctlBad := satInc q.cnt.ctlBad } }))) ∧
      (cbType b = e.2 → on = false → exec (e.1 p b) s = .next v) ∧
      (cbType b ≠ e.2 → exec (e.1 p b) s = .next s)) ∧
  (∀ (p : Fin 12) (b : Data256) (s v w : State), s.lineIn p (.ctl b) = (v, true) → w = v.tookBlocks p 1 → s.blockGood p b (s.ports[p]).rxId = true →
    (∀ above below, cbType b = 0x1E → exec (.fill p b above below) s = .next (w.modPort p (fun q => { q with cnt := { q.cnt with
      fillDel := if above then satInc q.cnt.fillDel else q.cnt.fillDel
      fillIns := if below && !above then satInc q.cnt.fillIns else q.cnt.fillIns } }))) ∧
    (∀ l : Fin 4, cbType b = 0x2D → exec (.align p l b) s = .next ((w.modPort p (fun q =>
      { q with lanes := vmod q.lanes l (fun x => { x with phys := rfld b 1 0 2, mark := some (rfld b 2 0 16), lastMark := s.now }) })).retrainExchange p)) ∧
    (cbType b = 0x4B → (s.ports[p]).st = .linked ∨ (s.ports[p]).st = .admitted → ∃ u, exec (.pres p b) s = .next u
      ∧ (u.ports[p]).partner = rfld b 1 0 64 ∧ (u.ports[p]).partnerPort = rfld b 9 0 4 ∧ (u.ports[p]).partnerBeat = some (rfld b 10 0 64)
      ∧ (u.ports[p]).lastPres = s.now ∧ (u.ports[p]).st = (s.ports[p]).st
      ∧ ((s.ports[p]).admittedIdent = none ∨ (s.ports[p]).admittedIdent = some (rfld b 1 0 64) → OnlyPort p s u ∧ (u.ports[p]).admitOn = (s.ports[p]).admitOn)
      ∧ ((s.ports[p]).admittedIdent.isSome = true → (s.ports[p]).admittedIdent ≠ some (rfld b 1 0 64) → (u.ports[p]).admitOn = false
          ∧ (u.ports[p]).event.getLsbD 7 = true)) ∧
    (cbType b = 0x4B → (s.ports[p]).st = .retrain → (s.ports[p]).admittedIdent.isSome = true → (s.ports[p]).admittedIdent ≠ some (rfld b 1 0 64) →
      ∃ u, exec (.pres p b) s = .next u ∧ (u.ports[p]).admitOn = false ∧ (u.ports[p]).prev = .linked ∧ (u.ports[p]).st = .retrain
        ∧ (u.ports[p]).event.getLsbD 7 = true) ∧
    (cbType b = 0x4B → (s.ports[p]).linkUp = false → exec (.pres p b) s = .next w) ∧
    (cbType b = 0x66 → exec (.rttReq p b) s = .next (if (s.ports[p]).linkUp then
      w.modPort p (fun q => q.sendBlock 0x67 (at_ 256 0 (rfld b 1 0 16 : BitVec 16))) else w)) ∧
    (∀ t, cbType b = 0x67 → (s.ports[p]).rttNum = rfld b 1 0 16 → (s.ports[p]).rttSince = some t → ∃ u, exec (.rttRsp p b) s = .next (u.linkSteps p)
      ∧ u = w.modPort p (fun q => { q with rtt := BitVec.ofNat 16 (min 65535 (s.now - t)), rttOk := true, rttSince := none })
      ∧ ((s.ports[p]).step ≠ 7 → (s.ports[p]).step ≠ 8 → u.linkSteps p = u)) ∧
    (cbType b = 0x67 → (s.ports[p]).rttNum ≠ rfld b 1 0 16 → exec (.rttRsp p b) s = .next w) ∧
    (cbType b ∉ [0x1E, 0x2D, 0x33, 0x4B, 0x55, 0x66, 0x67] → ∃ u, exec (.badControlBlock p b) s = .next u
      ∧ (u.ports[p]).cnt.viol = satInc (s.ports[p]).cnt.viol
      ∧ ((s.ports[p]).violLog = [] → (s.ports[p]).violMax ≠ 0 → OnlyPort p s u ∧ (u.ports[p]).st = (s.ports[p]).st))) ∧
  (∀ (s : State) (p : Fin 12), ((s.ports[p]).st = .retrain → (s.ports[p]).lined = true → (s.ports[p]).rttSince = none → (s.ports[p]).rttOk = false →
      s.retrainExchange p = (s.modPort p (fun q => { (q.sendBlock 0x66 (at_ 256 0 (q.rttNum + 1))) with
        rttSince := some s.now, rttNum := q.rttNum + 1 })).sendPres p) ∧
    ((s.ports[p]).st ≠ .retrain ∨ (s.ports[p]).lined = false ∨ (s.ports[p]).rttSince.isSome = true ∨ (s.ports[p]).rttOk = true →
      s.retrainExchange p = s)) ∧
  (∀ (p : Fin 12) (b : Data256) (s v : State), s.lineIn p (.ctl b) = (v, true) → s.blockGood p b (s.ports[p]).rxId = false →
    exec (.badControlBlock p b) s = .next ((v.tookBlocks p 1).modPort p (fun q =>
      { q with cnt := { q.cnt with ctlBad := satInc q.cnt.ctlBad } }))) ∧
  (∀ (p : Fin 12) (b : Data256) (s v : State), s.lineIn p (.ctl b) = (v, true) → cbType b = 0x33 → s.blockGood p b (rfld b 1 0 16) = true →
    (s.ports[p]).inTraining = true → (s.ports[p]).step = 7 → ∃ u, exec (.linkUp p b) s = .next (u.linkSteps p)
      ∧ u = (v.tookBlocks p 1).modPort p (fun q => { q with rxId := rfld b 1 0 16, partnerPort := rfld b 3 0 4, linkUpRx := true })
      ∧ ((s.ports[p]).linkUpTx = false → u.linkSteps p = u)
      ∧ ((s.ports[p]).linkUpTx = true → ((u.linkSteps p).ports[p]).step = 8))) ∧
  (∀ (ty : Nat) (body : Data256) (id : BitVec 16), ty < 256 → body.toNat < 2 ^ 216 →
    cbGood (mkBlock ty body id) id = true ∧ cbType (mkBlock ty body id) = ty
    ∧ ∀ x : Word, x ≠ 0 → cbGood (mkBlock ty body id ^^^ at_ 256 224 x) id = false) ∧
  ((∀ (p : Fin 12) (s : State), (s.ports[p]).up = true ∨ (s.ports[p]).st = .retrain ∨ ((s.ports[p]).inTraining = true ∧ (s.ports[p]).step = 8) →
    ((s.ports[p]).lastPresSent + (s.ports[p]).presPeriod.toNat ≤ s.now → exec (.presSend p) s = .next (s.modPort p (fun q =>
      { (q.sendBlock 0x4B (at_ 256 0 (s.fab.uid.setWidth 64) ||| natAt 256 64 p.val ||| at_ 256 72 s.glb.beatCnt)) with lastPresSent := s.now }))) ∧
    (s.now < (s.ports[p]).lastPresSent + (s.ports[p]).presPeriod.toNat → exec (.presSend p) s = .next s)) ∧
  (∀ (p : Fin 12) (s : State), (s.ports[p]).up = true →
    ((s.ports[p]).lastPres + 4 * (s.ports[p]).presPeriod.toNat ≤ s.now → ∃ u, exec (.presTimeout p) s = .next u
      ∧ Raised (s.modPort p (fun _ => u.ports[p])) u ∧ (u.ports[p]).st = .down ∧ (u.ports[p]).authDone = false ∧ (u.ports[p]).rxKey = 0
      ∧ (u.ports[p]).event.getLsbD 0 = true) ∧
    (s.now < (s.ports[p]).lastPres + 4 * (s.ports[p]).presPeriod.toNat → exec (.presTimeout p) s = .next s)) ∧
  (∀ (p : Fin 12) (k : Nat) (s : State), exec (.uncorrectableCodeword p k false) s =
    .next (s.modPort p (fun q => { q with cnt := { q.cnt with fecCorr := satAdd q.cnt.fecCorr k } }))) ∧
  (∀ (p : Fin 12) (k : Nat) (s : State), (s.ports[p]).errLog = [] → (s.ports[p]).errMax ≠ 0 → ∃ u, exec (.uncorrectableCodeword p k true) s = .next u
    ∧ OnlyPort p s u ∧ (u.ports[p]).cnt.fecUncorr = satInc (s.ports[p]).cnt.fecUncorr ∧ (u.ports[p]).errLog = [s.now]
    ∧ (u.ports[p]).badLeft = 20 ∧ (u.ports[p]).st = (s.ports[p]).st))

/-- FLIT_TRANSMIT. In a flit slot a port whose link services run offers FILL after 256 flits without one, then what is to
be sent again, VC 3, a VC 2 flit that waited 63 flits, VC 0 with the SCHED flits of its endpoints, VC 2, VC 1, NULL
and FILL. A new flit takes the next sequence number and one credit of its virtual channel and is kept for replay; a
replayed one takes a credit and no new number; NULL and FILL take neither; a flit of another port leaves that port's
receive buffer. A DISABLED or retraining port, and one from step 5 of training on, sends FILL; TEST sends patterns;
training frames go in its steps 1 to 4; any other port sends nothing. Completes (exec answers a next state with the
own effect of the form): flitTransmit. -/
def Obligations.FlitsLeave : Prop :=
  (∀ (p : Fin 12) (s : State), (s.ports[p]).prbsOn = false →
    ((s.ports[p]).fillOnly = true → exec (.flitTransmit p) s = .next (s.modPort p (fun q =>
      { (q.sendBlock 0x1E 0) with sinceFill := 0, sinceFlit := q.sinceFlit + 1, sinceVc2 := q.sinceVc2 + 1 }))) ∧
    ((s.ports[p]).fillOnly = false → (s.ports[p]).up = false → (s.ports[p]).framing = false → exec (.flitTransmit p) s = .next s)) ∧
  (∀ (p : Fin 12) (s : State), (s.ports[p]).prbsOn = true → ∃ u, exec (.flitTransmit p) s = .next u
    ∧ u = { s with ports := u.ports, free := s.free + 1 } ∧ (∀ q : Fin 12, q ≠ p → u.ports[q] = s.ports[q])
    ∧ (u.ports[p]).st = .test ∧ (u.ports[p]).txSeq = (s.ports[p]).txSeq ∧ (u.ports[p]).replayBuf = (s.ports[p]).replayBuf) ∧
  (∀ (p : Fin 12) (s : State) (q : Port), (s.ports[p]).up = true →
    q = ((List.finRange 8).foldl (fun (q : Port) e => q.absorb e) s.ports[p]).watchCredits s.now →
    (q.chooseSlot = .fill → exec (.flitTransmit p) s = .next (s.modPort p (fun _ =>
      Port.watchCredits { (q.sendBlock 0x1E 0) with sinceFill := 0, sinceFlit := q.sinceFlit + 1, sinceVc2 := q.sinceVc2 + 1 } s.now))) ∧
    (∀ (f : Data2048) (rest : List Data2048), q.chooseSlot = .replay → q.resend = f :: rest → ∃ u, exec (.flitTransmit p) s = .next u ∧ OnlyPort p s u
      ∧ (u.ports[p]).resend = rest ∧ (u.ports[p]).txSeq = q.txSeq ∧ (u.ports[p]).replayBuf = q.replayBuf
      ∧ (u.ports[p]).credits = vmod q.credits (Fin.ofNat 4 (flVc f)) (· - 1)
      ∧ (q.loop = 0 → ∃ h, (u.ports[p]).sent.getLast? = some (.flit h) ∧ flSeq h = flSeq f)) ∧
    (∀ (vc : Fin 4) (f : Data2048), q.chooseSlot = .queued vc → q.waitingFlit vc.val = some (none, f) →
      ∃ u, exec (.flitTransmit p) s = .next u ∧ OnlyPort p s u
      ∧ (u.ports[p]).txq = q.txq.erase (none, f) ∧ (u.ports[p]).txSeq = q.txSeq + 1 ∧ (u.ports[p]).replayBuf.length = q.replayBuf.length + 1
      ∧ (u.ports[p]).credits[vc] = q.credits[vc] - 1 ∧ (u.ports[p]).cnt.txFlits = satInc q.cnt.txFlits ∧ (u.ports[p]).nackDue = false
      ∧ (q.loop = 0 → ∃ h, (u.ports[p]).sent.getLast? = some (.flit h) ∧ flSeq h = q.txSeq)) ∧
    (∀ (vc : Fin 4) (a : Fin 12) (f : Data2048), q.chooseSlot = .queued vc → q.waitingFlit vc.val = some (some a, f) → a ≠ p →
      ∃ u, exec (.flitTransmit p) s = .next u ∧ (u.ports[p]).txSeq = q.txSeq + 1 ∧ (u.ports[p]).replayBuf.length = q.replayBuf.length + 1
      ∧ u.ports[a] = (s.ports[a]).release vc ∧ ∀ b : Fin 12, b ≠ p → b ≠ a → u.ports[b] = s.ports[b]) ∧
    (∀ e : Fin 8, q.chooseSlot = .sched e → ∃ u, exec (.flitTransmit p) s = .next u ∧ u.free = s.free + 1
      ∧ (u.ports[p]).txBytes[e] = (q.txBytes[e]).drop (if q.encrypting then 224 else 240) ∧ (u.ports[p]).txSeq = q.txSeq + 1
      ∧ (u.ports[p]).replayBuf.length = q.replayBuf.length + 1 ∧ ∀ b : Fin 12, b ≠ p → u.ports[b] = s.ports[b]) ∧
    (q.chooseSlot = .null → ∃ u, exec (.flitTransmit p) s = .next u ∧ OnlyPort p s u ∧ (u.ports[p]).txSeq = q.txSeq
      ∧ (u.ports[p]).replayBuf = q.replayBuf ∧ (u.ports[p]).credits = q.credits ∧ (u.ports[p]).ackDue = false)) ∧
  (∀ (q : Port) (r : Fin 4 → Bool), r = (fun v => q.mayNew v && (q.waitingFlit v.val).isSome) →
    (256 ≤ q.sinceFill → q.chooseSlot = .fill) ∧
    (q.sinceFill < 256 → q.resend ≠ [] → q.chooseSlot = .replay) ∧
    (q.sinceFill < 256 → q.resend = [] →
      (r 3 = true → q.chooseSlot = .queued 3) ∧
      (r 3 = false → r 2 = true → 63 ≤ q.sinceVc2 → q.chooseSlot = .queued 2) ∧
      (r 3 = false → (r 2 = false ∨ q.sinceVc2 < 63) →
        (r 0 = true → q.chooseSlot = .queued 0) ∧
        (∀ e, r 0 = false → q.carries = true → q.mayNew 0 = true → q.schedEp = some e → q.chooseSlot = .sched e) ∧
        (r 0 = false → (q.carries = false ∨ q.mayNew 0 = false ∨ q.schedEp = none) →
          (r 2 = true → q.chooseSlot = .queued 2) ∧ (r 2 = false → r 1 = true → q.chooseSlot = .queued 1) ∧
          (r 2 = false → r 1 = false → q.chooseSlot = .null ∨ q.chooseSlot = .fill)))) ∧
    (∀ vc, q.chooseSlot = .queued vc → q.mayNew vc = true ∧ (q.waitingFlit vc.val).isSome = true) ∧
    (∀ e, q.chooseSlot = .sched e → q.mayNew 0 = true ∧ q.carries = true) ∧
    (∀ vc, q.mayNew vc = true → 0 < q.credits[vc] ∧ q.replayBuf.length < 2047))

/-- FLIT_RECEIVE, in the order of R223: a bad check, a bad block or one of a bad codeword is counted and asks for a
repeat; a flit ahead of the expected one is dropped and asks for a repeat; one behind is counted as a duplicate; the
expected one advances NEXT, its acknowledgement field is applied, and it is screened: before admission all but PROBE,
PROBE_RSP and AUTH are dropped, a source that is not permitted is dropped, a probe on a port that has to authenticate
first is dropped, and a flit that passes reaches its handler or its endpoint and holds its receive buffer till it
leaves. One for another device goes on as it arrived by the first port of its route, or is dropped and counted where
there is none, that port does not carry or it is the arrival port. In a fast retrain only NACKs are kept. Completes
(exec answers a next state with the own effect of the form): flitReceive. -/
def Obligations.FlitsArrive : Prop :=
  (∀ (p : Fin 12) (x : LineItem) (s : State), (s.ports[p]).st ≠ .off → (s.ports[p]).loop = 0 → s.lineIn p x = (s, true)) ∧
  (∀ (p : Fin 12) (f : Data2048) (bad on : Bool) (s v w : State), s.lineIn p (.flit f) = (v, on) → w = v.tookBlocks p 8 →
    (on = false → exec (.flitReceive p f bad) s = .next v) ∧
    (on = true → (s.ports[p]).up = false → (s.ports[p]).st ≠ .retrain → exec (.flitReceive p f bad) s = .next w) ∧
    (on = true → (s.ports[p]).st = .retrain →
      (bad = false → (s.ports[p]).badLeft = 0 → flitCheck f (s.ports[p]).rxId = flCheck f → flNack f = true →
        exec (.flitReceive p f bad) s = .next (w.modPort p (fun q => { q with heldNack := q.heldNack ++ [f] }))) ∧
      (bad = true ∨ 0 < (s.ports[p]).badLeft ∨ flitCheck f (s.ports[p]).rxId ≠ flCheck f ∨ flNack f = false →
        exec (.flitReceive p f bad) s = .next w)) ∧
    (on = true → (s.ports[p]).up = true → bad = true ∨ 0 < (s.ports[p]).badLeft ∨ flitCheck f (s.ports[p]).rxId ≠ flCheck f →
      (s.ports[p]).errLog = [] → (s.ports[p]).errMax ≠ 0 → ∃ u, exec (.flitReceive p f bad) s = .next u ∧ OnlyPort p s u
        ∧ (u.ports[p]).cnt.crcErr = satInc (s.ports[p]).cnt.crcErr ∧ (u.ports[p]).rxNext = (s.ports[p]).rxNext
        ∧ ((s.ports[p]).nackSince = none → (u.ports[p]).nackDue = true) ∧ (u.ports[p]).replayBuf = (s.ports[p]).replayBuf)) ∧
  (∀ (p : Fin 12) (f : Data2048) (s v w : State), s.lineIn p (.flit f) = (v, true) → w = v.tookBlocks p 8 → (s.ports[p]).up = true →
    (s.ports[p]).badLeft = 0 → flitCheck f (s.ports[p]).rxId = flCheck f →
    (flType f ≠ 0 → 1 ≤ (flSeq f - (s.ports[p]).rxNext).toNat → (flSeq f - (s.ports[p]).rxNext).toNat ≤ 2047 →
      exec (.flitReceive p f false) s = .next (w.modPort p Port.noteGap)) ∧
    (flType f ≠ 0 → 2049 ≤ (flSeq f - (s.ports[p]).rxNext).toNat → exec (.flitReceive p f false) s =
      .next (w.modPort p (fun q => { q with cnt := { q.cnt with dup := satInc q.cnt.dup } }))) ∧
    (flType f ≠ 0 → (flSeq f - (s.ports[p]).rxNext).toNat = 2048 → exec (.flitReceive p f false) s = .next (w.portViolation p)) ∧
    (∀ q1, flType f = 0 → headerOk f = true → (w.ports[p]).ackField s.now f = some q1 → exec (.flitReceive p f false) s =
      .next (w.modPort p (fun _ => q1))) ∧
    (∀ q1, flType f ≠ 0 → flSeq f = (s.ports[p]).rxNext → Port.ackField
        { w.ports[p] with rxNext := (s.ports[p]).rxNext + 1, ackDue := true, nackDue := false, nackSince := none } s.now f = some q1 →
      exec (.flitReceive p f false) s = .next ((w.modPort p (fun _ => q1)).screenFlit p f)
      ∧ q1.rxNext = (s.ports[p]).rxNext + 1 ∧ q1.ackDue = true)) ∧
  (∀ (p : Fin 12) (f : Data2048) (s : State), headerOk f = true → flEnc f = false → (s.ports[p]).encrypting = false →
    (∀ (v : Fin 4), v.val = flVc f →
    ((s.ports[p]).carries = false → flType f ∉ [9, 0xA, 0xC] → s.screenFlit p f = s.modPort p (fun q =>
      { q with cnt := { q.cnt with preadmitDrop := satInc q.cnt.preadmitDrop }, owed := vmod q.owed v (· + 1) })) ∧
    ((s.ports[p]).carries = true → ((s.ports[p]).permit[(Fin.ofNat 32 ((flSrc f).toNat / 32))]).getLsbD ((flSrc f).toNat % 32) = true →
      flBeat f - s.glb.beatCnt.setWidth 16 ≠ 0x8000 → s.screenFlit p f = s.deliverFlit p f false) ∧
    ((s.ports[p]).carries = true → ((s.ports[p]).permit[(Fin.ofNat 32 ((flSrc f).toNat / 32))]).getLsbD ((flSrc f).toNat % 32) = false →
      ((s.screenFlit p f).ports[p]).cnt.filterDrop = satInc (s.ports[p]).cnt.filterDrop ∧ ((s.screenFlit p f).ports[p]).event.getLsbD 4 = true
      ∧ (s.screenFlit p f).fab.inbox = s.fab.inbox) ∧
    (flType f = 9 ∨ flType f = 0xA → s.probeShut p = true → ∃ u, s.deliverFlit p f false = u ∧ u.fab.inbox = s.fab.inbox
      ∧ u.fab.probeDrop = satInc s.fab.probeDrop ∧ (u.ports[p]).owed = vmod (s.ports[p]).owed v (· + 1)) ∧
    (flType f = 0xC ∨ ((flType f = 9 ∨ flType f = 0xA) ∧ s.probeShut p = false)
        ∨ (s.fab.idValid = true ∧ flDst f = s.fab.id ∧ flType f ∈ [4, 5, 6, 8, 0x10, 0x11]) →
      ∃ u, s.deliverFlit p f false = u ∧ u.fab.inbox = s.fab.inbox ++ [(p, f)] ∧ (u.ports[p]).cnt.rxFlits = satInc (s.ports[p]).cnt.rxFlits
        ∧ (u.ports[p]).owed = (s.ports[p]).owed ∧ (u.ports[p]).held = vmod (s.ports[p]).held v (· + 1)) ∧
    (s.fab.idValid = true → flDst f ≠ s.fab.id → flType f ∉ [9, 0xA, 0xC] →
      (∀ q : Fin 12, s.routePort (flDst f) = some q → q ≠ p → (s.ports[q]).carries = true →
        ((s.deliverFlit p f false).ports[q]).txq = (s.ports[q]).txq ++ [(some p, f)]
        ∧ (s.deliverFlit p f false).fab = { s.fab with fwdCnt := satInc s.fab.fwdCnt }
        ∧ ((s.deliverFlit p f false).ports[p]).held = vmod (s.ports[p]).held v (· + 1)) ∧
      ((∀ q : Fin 12, s.routePort (flDst f) = some q → q = p ∨ (s.ports[q]).carries = false) →
        (s.deliverFlit p f false).fab.event.getLsbD 5 = true ∧ ((s.deliverFlit p f false).ports[p]).held = (s.ports[p]).held
        ∧ ((s.deliverFlit p f false).ports[p]).owed = vmod (s.ports[p]).owed v (· + 1)
        ∧ (s.fab.event.getLsbD 5 = true → (s.deliverFlit p f false).fab = { s.fab with routeDrop := satInc s.fab.routeDrop }
          ∧ ∀ q : Fin 12, ((s.deliverFlit p f false).ports[q]).txq = (s.ports[q]).txq))) ∧
    (∀ e : Fin 8, s.fab.idValid = true → flDst f = s.fab.id → flType f = 1 → flEp f = e.val → ((s.ports[p]).eps[e]).en = true →
      ((s.ports[p]).eps[e]).word.isSome = true → OnlyPort p s (s.deliverFlit p f false)
        ∧ ((s.deliverFlit p f false).ports[p]).rxBytes = vmod (s.ports[p]).rxBytes e (· ++ flitBytes f false)
        ∧ ((s.deliverFlit p f false).ports[p]).held = vmod (s.ports[p]).held v (· + 1))))

/-- NACK_REPEAT after t_replay asks again; CREDIT_TIMEOUT makes an ADMITTED port whose virtual channel has waited without
credits for LNK_CREDIT_TO ticks DEGRADED; AUTH_TIMEOUT after 100 ms and a failed exchange disable the port; an
incomplete message waits for the rest, a complete one of step 1 or 2 is answered with the next step's, and a completed
exchange that is accepted gives both directions their keys. An AUTH flit on a port that has not begun starts the
exchange. Completes (exec answers a next state with the own effect of the form): nackRepeat, creditTimeout,
authTimeout, auth. -/
def Obligations.RepeatsTimeoutsAndAuthentication : Prop :=
  (∀ (p : Fin 12) (s : State) (t : Nat), (s.ports[p]).nackSince = some t →
    (t + (s.ports[p]).tReplay ≤ s.now → exec (.nackRepeat p) s = .next (s.modPort p (fun q => { q with nackDue := true, nackSince := none }))) ∧
    (s.now < t + (s.ports[p]).tReplay → exec (.nackRepeat p) s = .next s)) ∧
  (∀ (p : Fin 12) (vc : Fin 4) (s : State),
    (∀ t, (s.ports[p]).starved[vc] = some t → (s.ports[p]).credits[vc] = 0 →
      (s.ports[p]).txq.any (fun e => flVc e.2 == vc.val) = true ∨ (vc = 0 ∧ (s.ports[p]).txBytes.any (fun b => !b.isEmpty) = true) →
      ((s.ports[p]).st = .admitted → t + (s.ports[p]).creditTo.toNat ≤ s.now → ∃ u, exec (.creditTimeout p vc) s = .next u
        ∧ Raised (s.modPort p (fun _ => u.ports[p])) u ∧ (u.ports[p]).st = .degraded ∧ (u.ports[p]).event.getLsbD 1 = true) ∧
      ((s.ports[p]).st ≠ .admitted ∨ s.now < t + (s.ports[p]).creditTo.toNat → exec (.creditTimeout p vc) s = .next s)) ∧
    (0 < (s.ports[p]).credits[vc] → exec (.creditTimeout p vc) s = .next s)) ∧
  (∀ (p : Fin 12) (s : State) (t : Nat), (s.ports[p]).authStart = some t → (s.ports[p]).up = true →
    (t + 15625000 ≤ s.now → ∃ u, exec (.authTimeout p) s = .next u ∧ Raised (s.modPort p (fun _ => u.ports[p])) u
      ∧ (u.ports[p]).st = .disabled ∧ (u.ports[p]).cnt.authFail = satInc (s.ports[p]).cnt.authFail ∧ (u.ports[p]).event.getLsbD 6 = true) ∧
    (s.now < t + 15625000 → exec (.authTimeout p) s = .next s)) ∧
  (∀ (p : Fin 12) (s v w : State) (f : Data2048) (rest : List (Fin 12 × Data2048)),
    takeFlit (fun e => e.1 == p && flType e.2 == 0x0C) s.fab.inbox = (some (p, f), rest) → v = (s.tookFlit rest p f).startAuth p →
    w = v.modPort p (fun q => { q with
      authTheirs := vmod q.authTheirs (Fin.ofNat 3 ((v.ports[p]).authStep - 1)) (· ++ toBytes (flPayload f) 240) }) →
    (∃ u, exec (.auth p) s = .next u ∧
      ((w.ports[p]).authDone = true ∨ (w.ports[p]).peerMessage (w.ports[p]).authStep = none → u = w) ∧
      ((w.ports[p]).authDone = false → ((w.ports[p]).peerMessage (w.ports[p]).authStep).isSome = true →
      ((w.ports[p]).authStep < 3 → OnlyPort p w u ∧ (u.ports[p]).authStep = (w.ports[p]).authStep + 1
        ∧ (u.ports[p]).txq = (w.ports[p]).txq ++ (Config.authPack ((w.ports[p]).authStep + 1) (w.authMessage p ((w.ports[p]).authStep + 1))).map
            (fun pl => (none, mkFlit 0 s.fab.id 2 0x0C 0 false pl))) ∧
      (3 ≤ (w.ports[p]).authStep → w.authAccepts p = true → OnlyPort p w u
        ∧ (u.ports[p]).authDone = true ∧ (u.ports[p]).txIv = 0 ∧ (u.ports[p]).rxIv = 0
        ∧ (((u.ports[p]).txKey, (u.ports[p]).txSalt), ((u.ports[p]).rxKey, (u.ports[p]).rxSalt)) = w.authKeys p
        ∧ (u.ports[p]).st = (s.ports[p]).st) ∧
      (3 ≤ (w.ports[p]).authStep → w.authAccepts p = false → (u.ports[p]).st = .disabled
        ∧ (u.ports[p]).cnt.authFail = satInc (s.ports[p]).cnt.authFail))) ∧
    w.fab.inbox = rest ∧
    ((s.ports[p]).authStart.isSome = true ∨ (s.ports[p]).authDone = true → v = s.tookFlit rest p f) ∧
    ((s.ports[p]).authStart = none → (s.ports[p]).authDone = false → (v.ports[p]).authStart = some s.now ∧ (v.ports[p]).authStep = 1))

/-- The step of a probe: a source-routed probe with hops left leaves by the port its list names and counts the hop; at its
last hop the device performs the operation; a FOLLOW probe is performed at its target and follows the route elsewhere,
recording it; no port, and the twelfth hop, are answered; one that names no operation is answered DECODE. An answer
steps back along BACK as it arrived but for its hop, to its originator, or is dropped where its port is not up.
Completes (exec answers a next state with the own effect of the form): probeForward, probeRspReceive. -/
def Obligations.ProbesTravel : Prop :=
  (∀ (p : BitVec 1920) (s : State),
    (∀ q, pbFollow p = false → pbHop p < pbHops p → s.probePort (pbRoute p (pbHop p)) = some q →
      s.probeStep p = .forward q (putFld p 8 (BitVec.ofNat 4 (pbHop p + 1)))) ∧
    (pbFollow p = false → pbHop p < pbHops p → s.probePort (pbRoute p (pbHop p)) = none → s.probeStep p = .answer pbNO_PORT) ∧
    (pbFollow p = false → pbHops p ≤ pbHop p → s.probeStep p = .perform (pbOp p)) ∧
    (pbFollow p = true → s.fab.idValid = true → s.fab.id = pbTarget p → s.probeStep p = .perform (pbOp p)) ∧
    (pbFollow p = true → s.fab.idValid = true → s.fab.id ≠ pbTarget p → 12 ≤ pbHop p → s.probeStep p = .answer pbLOOP) ∧
    (pbFollow p = true → s.fab.idValid = true → s.fab.id ≠ pbTarget p → pbHop p < 12 → pbHops p < 15 →
      (∀ q, s.routePort (pbTarget p) = some q → (s.ports[q]).up = true → ∃ p', s.probeStep p = .forward q p'
        ∧ pbRoute p' (pbHop p) = q.val ∧ pbHop p' = pbHop p + 1 ∧ pbHops p' = pbHops p + 1 ∧ pbFollow p' = true
        ∧ pbTarget p' = pbTarget p ∧ pbOp p' = pbOp p) ∧
      ((∀ q, s.routePort (pbTarget p) = some q → (s.ports[q]).up = false) → s.probeStep p = .answer pbNO_PORT)) ∧
    (∀ q, s.probePort q.val = some q ↔ (s.ports[q]).up = true)) ∧
  (∀ (a : Fin 12) (f : Data2048) (rest : List (Fin 12 × Data2048)) (s : State), s.fab.inbox = (a, f) :: rest → flType f = 9 →
    (∀ q p1, s.probeStep (probeArrived (flPayload f) a) = .forward q p1 → exec .probeForward s =
      .next ((s.modFab (fun b => { b with inbox := rest, fwdCnt := satInc b.fwdCnt })).modPort q (fun r =>
        { r with txq := r.txq ++ [(some a, putFld f 64 p1)] }))) ∧
    (∀ st, s.probeStep (probeArrived (flPayload f) a) = .answer st → exec .probeForward s =
      .next ((s.tookFlit rest a f).answerProbe (probeArrived (flPayload f) a) st 0)) ∧
    (∀ op, 3 < op → s.probeStep (probeArrived (flPayload f) a) = .perform op → exec .probeForward s =
      .next ((s.tookFlit rest a f).answerProbe (probeArrived (flPayload f) a) pbDECODE 0))) ∧
  (∀ (a : Fin 12) (f : Data2048) (rest : List (Fin 12 × Data2048)) (s : State), s.fab.inbox = (a, f) :: rest → flType f = 0xA →
    (∀ q, 1 ≤ pbHop (flPayload f) → pbHop (flPayload f) ≤ 12 →
      s.probePort (pbBack (flPayload f) (pbHop (flPayload f) - 1)) = some q → exec .probeRspReceive s =
        .next ((s.modFab (fun b => { b with inbox := rest, fwdCnt := satInc b.fwdCnt })).modPort q (fun r => { r with
          txq := r.txq ++ [(some a, putFld f 64 (putFld (flPayload f) 8 (BitVec.ofNat 4 (pbHop (flPayload f) - 1))))] }))) ∧
    (1 ≤ pbHop (flPayload f) → (12 < pbHop (flPayload f) ∨ s.probePort (pbBack (flPayload f) (pbHop (flPayload f) - 1)) = none) →
      exec .probeRspReceive s = .next ((s.tookFlit rest a f).modFab (fun b => { b with probeDrop := satInc b.probeDrop }))) ∧
    (pbHop (flPayload f) = 0 → exec .probeRspReceive s = .next ((s.tookFlit rest a f).discovered (flPayload f))))

/-- Probes performed here: IDENTIFY answers the identity; READ answers a readable register, and DECODE elsewhere; WRITE
and SYNC from an originator that is not the manager, once one is set, are DENIED; SYNC loads the beat count of an own
source that runs no plan. FABRIC_DISCOVER completes with NOT_FOUND when no answer came within FAB_PROBE_TO. FAB_ID
changes only with no port admitted and no plan loaded. Completes (exec answers a next state with the own effect of the
form): probeIdentify, probeRead, probeWrite, probeSync, discoverTimeout, fabIdWrite. -/
def Obligations.ProbesAct : Prop :=
  (∀ (a : Fin 12) (f : Data2048) (rest : List (Fin 12 × Data2048)) (s : State), s.fab.inbox = (a, f) :: rest → flType f = 9 →
    (s.probeStep (probeArrived (flPayload f) a) = .perform 0 → exec .probeIdentify s =
      .next ((s.tookFlit rest a f).answerProbe (probeArrived (flPayload f) a) pbOK s.identity)) ∧
    (s.probeStep (probeArrived (flPayload f) a) = .perform 1 →
      (probeReads (pbAddr (probeArrived (flPayload f) a)) = false → exec .probeRead s =
        .next ((s.tookFlit rest a f).answerProbe (probeArrived (flPayload f) a) pbDECODE 0)) ∧
      (probeReads (pbAddr (probeArrived (flPayload f) a)) = true → ∀ w,
        (s.tookFlit rest a f).readReg (pbAddr (probeArrived (flPayload f) a)) = (0, w) → exec .probeRead s =
        .next ((s.tookFlit rest a f).answerProbe (probeArrived (flPayload f) a) pbOK (at_ 1920 352 w)))) ∧
    (s.probeStep (probeArrived (flPayload f) a) = .perform 2 → probeWrites (pbAddr (probeArrived (flPayload f) a)) = true →
      (s.probeMay (probeArrived (flPayload f) a) = false → exec .probeWrite s =
        .next ((s.tookFlit rest a f).answerProbe (probeArrived (flPayload f) a) pbDENIED 0)) ∧
      (s.probeMay (probeArrived (flPayload f) a) = true → pbAddr (probeArrived (flPayload f) a) = 0x100020 → 5 ≤ s.pwr.phase.toNat → s.sec.lifecycle ≠ 4 →
        exec .probeWrite s = .next (((s.tookFlit rest a f).modFab (fun b =>
          { b with mgrId := fld (pbData (probeArrived (flPayload f) a)) 0 10, mgrValid := bitAt (pbData (probeArrived (flPayload f) a)) 10 })).answerProbe (probeArrived (flPayload f) a) pbOK 0))) ∧
    (s.probeStep (probeArrived (flPayload f) a) = .perform 3 →
      (s.probeMay (probeArrived (flPayload f) a) = false → exec .probeSync s =
        .next ((s.tookFlit rest a f).answerProbe (probeArrived (flPayload f) a) pbDENIED 0)) ∧
      (s.probeMay (probeArrived (flPayload f) a) = true → s.glb.isSource = true → s.runsAnyPlan = false → ∃ u, exec .probeSync s = .next u
        ∧ u.glb.beatCnt = pbBeat (probeArrived (flPayload f) a) ∧ u.fab.event.getLsbD 4 = true) ∧
      (s.probeMay (probeArrived (flPayload f) a) = true → s.glb.isSource = false ∨ s.runsAnyPlan = true → exec .probeSync s =
        .next ((s.tookFlit rest a f).answerProbe (probeArrived (flPayload f) a) pbOK 0)))) ∧
  (∀ (s : State) (p : BitVec 1920), s.probeMay p = true ↔ (s.fab.mgrValid = false ∨ (pbOrigValid p = true ∧ pbOrig p = s.fab.mgrId))) ∧
  (∀ (cmd : Nat) (s : State) (a : Awaited), s.fab.probesOut.find? (fun a => a.cmd == cmd) = some a →
    (a.since + s.fab.probeTo.toNat ≤ s.now → exec (.discoverTimeout cmd) s =
      .next ((s.modFab (fun b => { b with probesOut := b.probesOut.erase a })).complete cmd 3 0 0 0)) ∧
    (s.now < a.since + s.fab.probeTo.toNat → exec (.discoverTimeout cmd) s = .next s)) ∧
  (∀ (w : Word) (s : State), 5 ≤ s.pwr.phase.toNat →
    (s.ports.any Port.carries = false → s.plans = [] → ∃ u, exec (.fabIdWrite w) s = .next u ∧ u.fab.id = fld w 0 10 ∧ u.fab.idValid = bitAt w 10) ∧
    (s.ports.any Port.carries = true ∨ s.plans ≠ [] → ∃ u, exec (.fabIdWrite w) s = .next u ∧ u.fab.id = s.fab.id ∧ u.fab.idValid = s.fab.idValid))

/-- MGMT packets. A register access from a device other than the manager is answered ERR_PRIV, a misaligned one or one of
more than 56 words ERR_DECODE; any other is done in requests of at most 16 bytes each, one after the other, a request
that has to cross the control network waiting for its answer, and its REG_RSP carries the largest status and, after a
read, all its words; a reset it causes waits till that answer has left. While one is under way the next packet waits.
REG_RSP completes the request of its tag, and MGMT_TIMEOUT completes it with ERR_TIMEOUT after FAB_PROBE_TO; EVENT
records and the answers are kept for the management controller; an MCTP packet goes on to the device of its EID, one
of an unknown EID to the sideband. Completes (exec answers a next state with the own effect of the form): mgmtRegRd,
mgmtRegWr, mgmtRegRsp, mgmtEvent, mgmtMctp, mgmtTimeout. -/
def Obligations.ManagementPackets : Prop :=
  (∀ (a : Fin 12) (f : Data2048) (rest : List (Fin 12 × Data2048)) (s : State), s.fab.inbox = (a, f) :: rest →
    (∀ e ∈ ([(Instr.mgmtRegRd, 0, false), (.mgmtRegWr, 1, true)] : List (Instr × Nat × Bool)), isMgmt e.2.1 f = true → s.fab.job = none →
      (s.isManager (flSrc f) = false → exec e.1 s = .next ((s.tookFlit rest a f).sendMgmt (flSrc f)
        (regRsp (mgTag (flPayload f)) (mgWords (flPayload f)) 4 []))) ∧
      (s.isManager (flSrc f) = true → (mgAddr (flPayload f) % 4 ≠ 0 ∨ 56 < mgWords (flPayload f)) → exec e.1 s = .next ((s.tookFlit rest a f).sendMgmt
        (flSrc f) (regRsp (mgTag (flPayload f)) (mgWords (flPayload f)) 3 []))) ∧
      (s.isManager (flSrc f) = true → mgAddr (flPayload f) % 4 = 0 → mgWords (flPayload f) ≤ 56 → ∃ j : MgJob,
        exec e.1 s = .next (State.mcRun ((s.tookFlit rest a f).modFab (fun b => { b with job := some j })))
        ∧ j.src = flSrc f ∧ j.tag = mgTag (flPayload f) ∧ j.write = e.2.2 ∧ j.words = mgWords (flPayload f) ∧ j.status = 0 ∧ j.data = []
        ∧ j.left = mgUnits (mgAddr (flPayload f)) (mgWords (flPayload f)) (if e.2.2 then mgData (flPayload f) else [])
        ∧ j.asked = none ∧ j.reset = none)) ∧
    (s.fab.job.isSome = true → exec .mgmtRegRd s = .next s.mcRun ∧ exec .mgmtRegWr s = .next s.mcRun) ∧
    (isMgmt 2 f = true →
      (∀ x, s.fab.mgmtOut.find? (fun y => y.tag == (mgTag (flPayload f)).setWidth 32) = some x → exec .mgmtRegRsp s =
        .next ((s.tookFlit rest a f).modFab (fun b => { b with mgmtOut := b.mgmtOut.erase x, mgmtIn := b.mgmtIn ++ [flPayload f] }))) ∧
      (s.fab.mgmtOut.find? (fun y => y.tag == (mgTag (flPayload f)).setWidth 32) = none → exec .mgmtRegRsp s =
        .next (s.tookFlit rest a f))) ∧
    (isMgmt 5 f = true → exec .mgmtEvent s = .next ((s.tookFlit rest a f).modFab (fun b => { b with mgmtIn := b.mgmtIn ++ [flPayload f] }))) ∧
    (isMgmt 4 f = true → s.pwr.mctpHere (mgMctp (flPayload f)) = false →
      (∀ dev, tfind s.pwr.eids (mctpDst (mgMctp (flPayload f))).toNat = some dev → exec .mgmtMctp s =
        .next ((s.tookFlit rest a f).sendMgmt dev (flPayload f))) ∧
      (tfind s.pwr.eids (mctpDst (mgMctp (flPayload f))).toNat = none → exec .mgmtMctp s =
        .next ((s.tookFlit rest a f).modPwr (fun p => { p with sideband := p.sideband ++ [mgMctp (flPayload f)] }))))) ∧
  (∀ (a n : Nat) (ws : List Word), a % 4 = 0 → 1 ≤ n → ∀ x ∈ mgUnits a n ws,
    x.1 % 4 = 0 ∧ 1 ≤ x.2.1 ∧ (x.1 + 4 * x.2.1 - 1) / 16 = x.1 / 16 ∧ a ≤ x.1 ∧ x.1 + 4 * x.2.1 ≤ a + 4 * n) ∧
  (∀ (n : Nat) (s : State) (j : MgJob), s.fab.job = some j →
    (j.asked.isSome = true → s.mcAdvance (n + 1) = s) ∧
    (j.asked = none → j.left = [] → s.mcAdvance (n + 1) = s.mcEnd j) ∧
    (∀ x rest, j.asked = none → j.left = x :: rest → s.byPacket x.1 = false → fanAddr x.1 = false →
      s.mustWait mcNode (s.addrNode x.1) = false →
      (j.write = false → s.readHeld (s.addrNode x.1) = false → s.mcAdvance (n + 1) = State.mcAdvance n (s.modFab (fun b =>
        { b with job := some (j.took (s.readAt x.1 x.2.1).1 (s.readAt x.1 x.2.1).2) }))) ∧
      (j.write = true → s.mcAdvance (n + 1) = State.mcAdvance n ((s.writeAt .manager x.1 x.2.2).2.modFab (fun b =>
        { b with job := some (j.took (s.writeAt .manager x.1 x.2.2).1 0) })))) ∧
    (∀ x rest tag t, j.asked = none → j.left = x :: rest → s.byPacket x.1 = true ∨ fanAddr x.1 = true →
      s.issueNoc mcNode 0 (if j.write then 1 else 0) (reqData x.1 x.2.1
        (x.2.2.zipIdx.foldl (fun (v : BitVec 128) y => v ||| at_ 128 (32 * y.2) y.1) 0)) = .sent tag t →
      s.mcAdvance (n + 1) = t.modFab (fun b => { b with job := some { j with asked := some tag } }))) ∧
  (∀ (s : State) (j : MgJob), j.reset = none → s.mcEnd j = (s.modFab (fun b => { b with job := none })).sendMgmt j.src
    (regRsp j.tag j.words j.status j.data)) ∧
  (∀ (j : MgJob) (st : Nat) (v : BitVec 128), (j.took st v).status = max j.status st ∧ (j.took st v).left = j.left.tail
    ∧ (j.took st v).asked = none) ∧
  (∀ (tag : BitVec 10) (s : State) (x : Awaited), s.fab.mgmtOut.find? (fun y => y.tag == tag.setWidth 32) = some x →
    (x.since + s.fab.probeTo.toNat ≤ s.now → exec (.mgmtTimeout tag) s = .next (s.modFab (fun b =>
      { b with mgmtOut := b.mgmtOut.erase x, mgmtIn := b.mgmtIn ++ [regRsp tag x.len 0xF []] }))) ∧
    (s.now < x.since + s.fab.probeTo.toNat → exec (.mgmtTimeout tag) s = .next s))

/-- Remote accesses. A FREE_WR or FREE_RD for a context that does not exist or is being scrubbed is answered PERM and
counted; one that encryption does not protect for a confidential context PERM; one over 224 bytes RANGE; a page that
fails a check that check's status; else it is carried out and answered. The answer moves its stream on, or halts it
with the cause of its status; no answer within FAB_PROBE_TO halts it with HOST. Completes (exec answers a next state
with the own effect of the form): freeWr, freeRd, freeRsp, freeRspTimeout. -/
def Obligations.RemoteAccesses : Prop :=
  (∀ (a : Fin 12) (f : Data2048) (rest : List (Fin 12 × Data2048)) (s : State), s.fab.inbox = (a, f) :: rest →
    (∀ fails, flType f = 4 →
      (s.freeDenied a f = some true → exec (.freeWr fails) s = .next (((s.tookFlit rest a f).noteRefusal
        (frCtx (flPayload f))).freeAnswer f 6 [])) ∧
      (s.freeDenied a f = some false → exec (.freeWr fails) s = .next ((s.tookFlit rest a f).freeAnswer f 6 [])) ∧
      (s.freeDenied a f = none → 224 < frLen (flPayload f) → exec (.freeWr fails) s =
        .next ((s.tookFlit rest a f).freeAnswer f 5 [])) ∧
      (∀ c, s.freeDenied a f = none → frLen (flPayload f) ≤ 224 → partsFault (s.freeParts (flPayload f) true) = some c →
        exec (.freeWr fails) s = .next ((s.tookFlit rest a f).freeAnswer f c [])) ∧
      (∀ r, s.freeDenied a f = none → frLen (flPayload f) ≤ 224 → partsFault (s.freeParts (flPayload f) true) = none →
        (s.tookFlit rest a f).freePut (frCtx (flPayload f)) fails (s.freeParts (flPayload f) true) (frData (flPayload f)) = r →
        exec (.freeWr fails) s = .next (r.1.freeAnswer f (if r.2 then 0 else 3) []))) ∧
    (∀ io fails, flType f = 5 →
      (s.freeDenied a f = some true → exec (.freeRd io fails) s = .next (((s.tookFlit rest a f).noteRefusal
        (frCtx (flPayload f))).freeAnswer f 6 [])) ∧
      (s.freeDenied a f = some false → exec (.freeRd io fails) s = .next ((s.tookFlit rest a f).freeAnswer f 6 [])) ∧
      (s.freeDenied a f = none → 224 < frLen (flPayload f) → exec (.freeRd io fails) s =
        .next ((s.tookFlit rest a f).freeAnswer f 5 [])) ∧
      (∀ c, s.freeDenied a f = none → frLen (flPayload f) ≤ 224 → partsFault (s.freeParts (flPayload f) false) = some c →
        exec (.freeRd io fails) s = .next ((s.tookFlit rest a f).freeAnswer f c []))) ∧
    (∀ io fails, flType f = 5 → s.freeDenied a f = none → frLen (flPayload f) ≤ 224 → partsFault (s.freeParts (flPayload f) false) = none →
      (((s.freeParts (flPayload f) false).map partHost).sum = 0 → exec (.freeRd io fails) s =
        .next ((s.tookFlit rest a f).freeReadAnswer f fails (s.freeParts (flPayload f) false) [])) ∧
      (∀ b, ((s.freeParts (flPayload f) false).map partHost).sum ≠ 0 → io = .data b →
        b.length = ((s.freeParts (flPayload f) false).map partHost).sum → exec (.freeRd io fails) s =
        .next ((s.tookFlit rest a f).freeReadAnswer f fails (s.freeParts (flPayload f) false) b)) ∧
      (((s.freeParts (flPayload f) false).map partHost).sum ≠ 0 → io = .error → exec (.freeRd io fails) s =
        .next ((s.tookFlit rest a f).freeAnswer f 4 []))) ∧
    (∀ x r, flType f = 6 → s.fab.freeOut.find? (fun y => y.tag == (frTag (flPayload f)).setWidth 32) = some x → x.slot = some r →
      x.epoch = (s.stm r).epoch →
      (frStatus (flPayload f) ≠ 0 → exec .freeRsp s = .next (((s.tookFlit rest a f).modFab (fun b => { b with freeOut := b.freeOut.erase x })).haltStream r
        (freeCause (frStatus (flPayload f))) x.vpn)) ∧
      (frStatus (flPayload f) = 0 → x.write = true → exec .freeRsp s =
        .next (((s.tookFlit rest a f).modFab (fun b => { b with freeOut := b.freeOut.erase x })).accepted r x.len)) ∧
      (frStatus (flPayload f) = 0 → x.write = false → exec .freeRsp s =
        .next (((s.tookFlit rest a f).modFab (fun b => { b with freeOut := b.freeOut.erase x })).feed r (slice (toBytes (flPayload f) 240) 0x10 x.len))))) ∧
  (∀ (tag : BitVec 16) (s : State) (x : Awaited) (r : SlotRef), s.fab.freeOut.find? (fun y => y.tag == tag.setWidth 32) = some x → x.slot = some r →
    x.epoch = (s.stm r).epoch →
    (x.since + s.fab.probeTo.toNat ≤ s.now → exec (.freeRspTimeout tag) s =
      .next ((s.modFab (fun b => { b with freeOut := b.freeOut.erase x })).haltStream r 4 x.vpn)) ∧
    (s.now < x.since + s.fab.probeTo.toNat → exec (.freeRspTimeout tag) s = .next s))

/-- The ring registers and doorbells. EN = 1 of a disabled ring sets its size, its completion ring and partition, and
starts head and tail at 0 (the phase of a completion ring at 1); EN = 0 stops it and keeps the rest. A tail doorbell
submits the packets up to its value, each with what its slot holds then; on a disabled ring, beyond its size or beyond
its free slots it only sets DB_ERR. A head doorbell releases slots or sets DB_ERR. Completes (exec answers a next
state with the own effect of the form): sqEnable, sqDisable, cqEnable, cqDisable, sqTail, cqHead. -/
def Obligations.RingControlAndDoorbells : Prop :=
  ∀ (r : Fin 64) (w : Word) (ps : List Data1024) (s : State), 5 ≤ s.pwr.phase.toNat →
    ((s.cp.sq[r]).en = false → ∃ u, exec (.sqEnable r w) s = .next u ∧ (u.cp.sq[r]).en = true ∧ (u.cp.sq[r]).log2 = fld w 1 5
      ∧ (u.cp.sq[r]).cq = fld w 6 6 ∧ (u.cp.sq[r]).part = fld w 12 4 ∧ (u.cp.sq[r]).head = 0 ∧ (u.cp.sq[r]).tail = 0
      ∧ (u.cp.sq[r]).base = (s.cp.sq[r]).base ∧ (∀ k ∈ u.cp.cmds, k.ring = r → k.phase ≠ .submitted)
      ∧ (∀ k ∈ s.cp.cmds, k.ring ≠ r → k ∈ u.cp.cmds) ∧ ∀ q : Fin 64, q ≠ r → u.cp.sq[q] = s.cp.sq[q]) ∧
    ((s.cp.sq[r]).en = true → exec (.sqEnable r w) s = .next s) ∧
    exec (.sqDisable r) s = .next (s.modSq r (fun x => { x with en := false })) ∧
    ((s.cp.cq[r]).en = false → ∃ u, exec (.cqEnable r w) s = .next u ∧ u = s.modCq r (fun _ => u.cp.cq[r]) ∧ (u.cp.cq[r]).en = true
      ∧ (u.cp.cq[r]).log2 = fld w 1 5 ∧ (u.cp.cq[r]).head = 0 ∧ (u.cp.cq[r]).tail = 0 ∧ (u.cp.cq[r]).phase = true
      ∧ (u.cp.cq[r]).irqAll = bitAt w 13 ∧ (nfld w 6 7 < 72 → (u.cp.cq[r]).vector = fld w 6 7) ∧ (72 ≤ nfld w 6 7 → (u.cp.cq[r]).vector = (s.cp.cq[r]).vector)) ∧
    ((s.cp.cq[r]).en = true → exec (.cqEnable r w) s = .next s) ∧
    exec (.cqDisable r) s = .next (s.modCq r (fun x => { x with en := false })) ∧
    ((s.cp.sq[r]).en = false ∨ (s.cp.sq[r]).size ≤ w.toNat → exec (.sqTail r ⟨w, ps⟩) s = .next (s.modSq r (fun x => { x with dbErr := true }))) ∧
    (∀ n, (s.cp.sq[r]).en = true → w.toNat < (s.cp.sq[r]).size → n = ((s.cp.sq[r]).size + w.toNat - (s.cp.sq[r]).tail.toNat) % (s.cp.sq[r]).size →
      ((s.cp.sq[r]).size - 1 < n + (s.cp.sq[r]).unfetched → exec (.sqTail r ⟨w, ps⟩) s = .next (s.modSq r (fun x => { x with dbErr := true }))) ∧
      (n + (s.cp.sq[r]).unfetched ≤ (s.cp.sq[r]).size - 1 → ∃ (u : State) (l : List Cmd), exec (.sqTail r ⟨w, ps⟩) s = .next u
        ∧ (u.cp.sq[r]).tail = w.setWidth 16 ∧ u.cp.cmds = s.cp.cmds ++ l ∧ l.length = n ∧ u.cp.nextSerial = s.cp.nextSerial + n
        ∧ (∀ k ∈ l, k.ring = r ∧ k.phase = .submitted)
        ∧ ∀ (i : Nat) (k : Cmd), l[i]? = some k → k.slot.toNat = ((s.cp.sq[r]).tail.toNat + i) % (s.cp.sq[r]).size ∧ k.serial = s.cp.nextSerial + i
          ∧ k.packet = (ps[i]?).getD 0)) ∧
    ((s.cp.cq[r]).en = false ∨ (s.cp.cq[r]).size ≤ w.toNat → exec (.cqHead r w) s = .next (s.modCq r (fun x => { x with dbErr := true }))) ∧
    ((s.cp.cq[r]).en = true → w.toNat < (s.cp.cq[r]).size → exec (.cqHead r w) s = .next (s.modCq r (fun x => { x with head := w.setWidth 16 })))

/-- COMMAND_FETCH reads the packet at the head of an enabled ring that holds one, while it lies no more than eight slots
behind the oldest unstarted command of the ring; COMMAND_START starts the oldest unstarted command once it is fetched
and may start (a start of FW_UPDATE_DATA or FW_UPDATE_COMMIT restarts the time of an open update), or completes it
with the status of the first check that fails (an ATTEST of a sound packet waits while a firmware load is open);
COMPLETION_WRITE writes the oldest completion of a ring at its tail, signals it where asked, and waits while the ring
is full; a bad packet completes with BAD_PACKET and its slot. Completes (exec answers a next state with the own effect
of the form): commandFetch, commandStart, completionWrite. -/
def Obligations.CommandsStartAndComplete : Prop :=
  (∀ (r : Fin 64) (pk : Data1024) (k : Cmd) (s : State), (s.cp.sq[r]).en = true → (s.cp.sq[r]).head ≠ (s.cp.sq[r]).tail →
    (s.cp.sq[r]).head.toNat < (s.cp.sq[r]).size → (s.cp.sq[r]).tail.toNat < (s.cp.sq[r]).size →
    s.cp.cmds.find? (fun k => k.ring == r && k.phase == .submitted && k.slot == (s.cp.sq[r]).head) = some k →
    (∀ o, s.cp.cmds.find? (fun k => k.ring == r && (k.phase == .submitted || (k.phase == .fetched && pkOpcode k.packet != 0x32))) = some o →
      (((s.cp.sq[r]).size + k.slot.toNat - o.slot.toNat) % (s.cp.sq[r]).size ≤ 8 →
        exec (.commandFetch r pk) s = .next ((s.modCmd k.serial (fun c => { c with packet := pk, phase := .fetched })).modSq r (fun x =>
          { x with head := BitVec.ofNat 16 ((x.head.toNat + 1) % x.size) }))) ∧
      (8 < ((s.cp.sq[r]).size + k.slot.toNat - o.slot.toNat) % (s.cp.sq[r]).size → exec (.commandFetch r pk) s = .next s))) ∧
  (∀ (r : Fin 64) (pk : Data1024) (s : State), (s.cp.sq[r]).en = false → exec (.commandFetch r pk) s = .next s) ∧
  (∀ (r : Fin 64) (k : Cmd) (s : State),
    s.cp.cmds.find? (fun k => k.ring == r && (k.phase == .submitted || (k.phase == .fetched && pkOpcode k.packet != 0x32))) = some k →
    k.phase = .fetched → s.mayStart k = true →
    (s.checks k = none → pkOpcode k.packet ≠ 0x60 ∨ s.cp.fwOpen = false → exec (.commandStart r) s =
      .next ((s.noteStart k.serial).modCmd k.serial (fun c => { c with phase := .started, startedAt := s.now, startNo := s.cp.starts }))) ∧
    (∀ st d, s.checks k = some (st, d) → pkOpcode k.packet ≠ 0x60 ∨ s.cp.fwOpen = false → exec (.commandStart r) s =
      .next (s.complete k.serial st d 0 0)) ∧
    (pkOpcode k.packet = 0x60 → s.cp.fwOpen = true → packetBad k = false → ∃ u, exec (.commandStart r) s = .next u
      ∧ u.cp.waiting = s.cp.waiting ∧ ∀ c ∈ u.cp.cmds, c.serial = k.serial → c.heldSince.isSome = true)) ∧
  (∀ (serial : Nat) (k : Cmd) (s : State), s.findCmd serial = some k → (s.noteStart serial).cp = { s.cp with starts := s.cp.starts + 1 }
    ∧ (s.noteStart serial).pwr = { s.pwr with
        update := if pkOpcode k.packet = 0x81 ∨ pkOpcode k.packet = 0x82 then s.pwr.update.map (fun u => { u with lastTick := s.now })
          else s.pwr.update }) ∧
  (∀ (k : Cmd) (s : State), packetBad k = true → s.checks k = some (0x10, k.slot.setWidth 32)) ∧
  (∀ (r : Fin 64) (c : Completion) (s : State), (s.readyFor r).head? = some c →
    ((s.cp.cq[r]).full = true → exec (.completionWrite r) s = .next s) ∧
    ((s.cp.cq[r]).full = false → ∃ u, exec (.completionWrite r) s = .next u ∧ u = { s with cp := u.cp }
      ∧ u.cp.waiting = s.cp.waiting.erase c
      ∧ u.cp.out = s.cp.out ++ .write ((s.cp.cq[r]).base + BitVec.ofNat 64 (32 * (s.cp.cq[r]).tail.toNat)) (toBytes (c.entry (s.cp.cq[r]).phase) 32) false false
          :: (if (s.cp.cq[r]).irqAll || c.irq || c.status != 0 then [.msix (s.cp.cq[r]).vector] else [])
      ∧ (u.cp.cq[r]).tail = BitVec.ofNat 16 (((s.cp.cq[r]).tail.toNat + 1) % (s.cp.cq[r]).size)
      ∧ (u.cp.cq[r]).phase = (if ((s.cp.cq[r]).tail.toNat + 1) % (s.cp.cq[r]).size = 0 then !(s.cp.cq[r]).phase else (s.cp.cq[r]).phase)
      ∧ ∀ q : Fin 64, q ≠ r → u.cp.cq[q] = s.cp.cq[q])) ∧
  (∀ (s : State) (k : Cmd) (st : Nat) (d r0 : Word) (r1 : DWord), s.findCmd k.serial = some k → ∃ (u : State) (c : Completion),
    s.complete k.serial st d r0 r1 = u ∧ u = { s with cp := u.cp } ∧ u.cp.waiting = s.cp.waiting ++ [c] ∧ c.serial = k.serial
    ∧ c.tag = pkTag k.packet ∧ c.ctx = pkCtx k.packet ∧ c.status = BitVec.ofNat 16 st ∧ c.detail = d ∧ c.result0 = r0 ∧ c.result1 = r1
    ∧ c.beat = s.glb.beatCnt ∧ c.ring = k.ring ∧ u.cp.cq = s.cp.cq ∧ u.cp.sq = s.cp.sq ∧ u.cp.out = s.cp.out)

/-- Contexts and pages. CTX_CREATE adds a context of its partition, refused without a valid partition, room or, for a
confidential one, an active IDE stream, and waiting while its partition is being reset; CTX_DESTROY makes it SCRUBBING
and a scrub due, or answers CTX_SCRUBBING where it is already; MAP_PAGES writes its valid entries when all pass and
reports the first that does not; UNMAP_PAGES clears its range and completes once nothing of it is in flight. Completes
(exec answers a next state with the own effect of the form): nop, ctxCreate, ctxDestroy, mapPages, unmapPages,
unmapDrainDone. -/
def Obligations.ContextAndPageCommands : Prop :=
  (∀ (cmd : Nat) (s : State), (∀ k, s.findCmd cmd = some k → k.phase ≠ .started ∨ k.begun = true) →
    ∀ c ∈ [Instr.nop cmd, .ctxCreate cmd, .ctxDestroy cmd, .mapPages cmd [], .unmapPages cmd, .loadPlan cmd [], .runPlan cmd [], .resume cmd,
      .copy cmd, .keyImport cmd [], .fabricDiscover cmd, .fabricRouteSet cmd [], .geyserSet cmd],
      exec c s = .next s) ∧
  (∀ (cmd : Nat) (k : Cmd) (s : State), s.findCmd cmd = some k → k.phase = .started → k.begun = false →
    (pkOpcode k.packet = 0x01 → exec (.nop cmd) s = .next (s.completeOk k.serial)) ∧
    (pkOpcode k.packet = 0x10 → (s.part (Fin.ofNat 8 (rnum k.packet 0x10 0 3))).resetting = true → exec (.ctxCreate cmd) s = .next s) ∧
    (pkOpcode k.packet = 0x10 → (s.part (Fin.ofNat 8 (rnum k.packet 0x10 0 3))).resetting = false →
      ((s.part (Fin.ofNat 8 (rnum k.packet 0x10 0 3))).valid = false ∨ 16 ≤ (s.ctxsOf (Fin.ofNat 8 (rnum k.packet 0x10 0 3))).length
        ∨ (bitAt k.packet 131 = true ∧ s.cp.ideActive = false) → exec (.ctxCreate cmd) s = .next (s.badParam k.serial 8 0x10)) ∧
      ((s.part (Fin.ofNat 8 (rnum k.packet 0x10 0 3))).valid = true → (s.ctxsOf (Fin.ofNat 8 (rnum k.packet 0x10 0 3))).length < 16 →
        bitAt k.packet 131 = false → s.cp.ember = true → exec (.ctxCreate cmd) s = .next ((s.putCtx (pkCtx k.packet)
          { part := Fin.ofNat 8 (rnum k.packet 0x10 0 3), conf := false, xtsKey := 0, saveArea := [], ember := true }).completeOk k.serial)) ∧
      (∀ s1 area, (s.part (Fin.ofNat 8 (rnum k.packet 0x10 0 3))).valid = true → (s.ctxsOf (Fin.ofNat 8 (rnum k.packet 0x10 0 3))).length < 16 →
        bitAt k.packet 131 = false → s.cp.ember = false → s.reserveArea (s.part (Fin.ofNat 8 (rnum k.packet 0x10 0 3))) = some (s1, area) →
        exec (.ctxCreate cmd) s = .next ((s1.putCtx (pkCtx k.packet)
          { part := Fin.ofNat 8 (rnum k.packet 0x10 0 3), conf := false, xtsKey := 0, saveArea := area, ember := false }).completeOk k.serial))) ∧
    (pkOpcode k.packet = 0x11 → ((s.ctx (pkCtx k.packet)).map (·.scrubbing)).getD false = true → exec (.ctxDestroy cmd) s =
      .next (s.complete k.serial 0x40 0 0 0)) ∧
    (pkOpcode k.packet = 0x11 → ((s.ctx (pkCtx k.packet)).map (·.scrubbing)).getD false = false →
      exec (.ctxDestroy cmd) s = .next ((s.begin k.serial).beginScrub [pkCtx k.packet] none (some k.serial))) ∧
    (∀ l : List DWord, pkOpcode k.packet = 0x20 → l.length = rnum k.packet 0x14 0 17 →
      (∀ i, mapScan s (pkCtx k.packet) 0 (rnum k.packet 0x10 0 21) s.mappedFrames l = some i → exec (.mapPages cmd l) s =
        .next (s.badData k.serial 8 (8 * i))) ∧
      (mapScan s (pkCtx k.packet) 0 (rnum k.packet 0x10 0 21) s.mappedFrames l = none → exec (.mapPages cmd l) s =
        .next (({ s with spt := mapWrite s.spt (rnum k.packet 0x10 0 21) l }).completeOk k.serial))) ∧
    (pkOpcode k.packet = 0x21 → ∃ u, exec (.unmapPages cmd) s = .next u ∧ u = { s with spt := u.spt, cp := u.cp }
      ∧ u.spt = s.spt.filter (fun x => !inRange k.packet x.1) ∧ u.cp.waiting = s.cp.waiting
      ∧ ∀ c ∈ u.cp.cmds, c.serial = k.serial → c.begun = true)) ∧
  (∀ (cmd : Nat) (k : Cmd) (s : State), s.findCmd cmd = some k → k.phase = .started → pkOpcode k.packet = 0x21 → k.begun = true →
    (s.pagesBusy k.packet = true → exec (.unmapDrainDone cmd) s = .next s) ∧
    (s.pagesBusy k.packet = false → exec (.unmapDrainDone cmd) s = .next ((k.released.foldl State.zeroFrame s).completeOk k.serial))) ∧
  (∀ (s : State) (ctxs : List Byte) (part : Option (Fin 8)) (cmd : Option Nat), s.cp.cmds = [] → ∃ (u : State) (x : Scrub), s.beginScrub ctxs part cmd = u
    ∧ u = { s with sec := u.sec } ∧ u.sec.scrubs = s.sec.scrubs ++ [x] ∧ x.ctxs = ctxs ∧ x.part = part ∧ x.cmd = cmd
    ∧ ∀ i c, (i, c) ∈ u.sec.ctxs → (∃ b ∈ ctxs, b.toNat = i) → c.scrubbing = true)

/-- Plans. LOAD_PLAN of a used handle or a bad image is refused; a good one whose calderas can take it is resident, and
completes with its caldera mask; RUN_PLAN refuses a handle that names no loaded plan of its context, then a beat that
has passed, and else starts the plan at its start beat; RESUME of work that is not suspended is NOT_FOUND, and a
halted copy restarts at the next boundary or at BEAT. Completes (exec answers a next state with the own effect of the
form): loadPlan, runPlan, resume. -/
def Obligations.PlanCommands : Prop :=
  ∀ (cmd : Nat) (k : Cmd) (s : State), s.findCmd cmd = some k → k.phase = .started → k.begun = false →
    (∀ img : List Byte, pkOpcode k.packet = 0x30 →
      ((s.findPlan ((rfld k.packet 0x10 0 16 : BitVec 16).setWidth 17)).isSome = true → exec (.loadPlan cmd img) s = .next (s.badParam k.serial 8 0x10)) ∧
      ((s.findPlan ((rfld k.packet 0x10 0 16 : BitVec 16).setWidth 17)).isSome = false → img.length = rnum k.packet 0x20 0 32 →
        (∀ o, s.planBad (pkCtx k.packet) img (rnum k.packet 0x20 0 32) = some o → exec (.loadPlan cmd img) s = .next (s.badData k.serial 8 o)) ∧
        (∀ p, s.planBad (pkCtx k.packet) img (rnum k.packet 0x20 0 32) = none →
          p = planOf ((rfld k.packet 0x10 0 16 : BitVec 16).setWidth 17) (pkCtx k.packet) img →
          (s.mayInstall p = true → exec (.loadPlan cmd img) s = .next ((s.install p img).complete k.serial 0 0 0 p.cals)) ∧
          (s.mayInstall p = false → s.heldAgainst p.ctx p.cals = false → exec (.loadPlan cmd img) s = .next (s.wakeCals p.cals))))) ∧
    (∀ img : List Byte, pkOpcode k.packet = 0x31 →
      (bitAt k.packet 145 = false → s.findPlan ((rfld k.packet 0x10 0 16 : BitVec 16).setWidth 17) = none → exec (.runPlan cmd img) s =
        .next (s.badParam k.serial 8 0x10)) ∧
      (∀ p, bitAt k.packet 145 = false → s.findPlan ((rfld k.packet 0x10 0 16 : BitVec 16).setWidth 17) = some p →
        (p.ctx ≠ pkCtx k.packet ∨ p.run ≠ .loaded → exec (.runPlan cmd img) s = .next (s.badParam k.serial 8 0x10)) ∧
        (p.ctx = pkCtx k.packet → p.run = .loaded →
          (s.cp.ember = true → exec (.runPlan cmd img) s = .next (s.badParam k.serial 8 0x12)) ∧
          (s.cp.ember = false →
            (bitAt k.packet 144 = false → (rfld k.packet 0x18 0 64 : DWord).toNat ≤ s.glb.beatCnt.toNat → exec (.runPlan cmd img) s =
              .next (s.badParam k.serial 8 0x18)) ∧
            (bitAt k.packet 144 = false → s.glb.beatCnt.toNat < (rfld k.packet 0x18 0 64 : DWord).toNat → exec (.runPlan cmd img) s =
              .next (s.beginRun k p (rfld k.packet 0x18 0 64))) ∧
            (bitAt k.packet 144 = true → exec (.runPlan cmd img) s = .next (s.beginRun k p (s.glb.beatCnt + 1)))))) ∧
      (s.cp.ember = false → bitAt k.packet 145 = true →
        (bitAt k.packet 144 = false → (rfld k.packet 0x18 0 64 : DWord).toNat ≤ s.glb.beatCnt.toNat → exec (.runPlan cmd img) s =
          .next (s.badParam k.serial 8 0x18)) ∧
        (bitAt k.packet 144 = true → img.length = rnum k.packet 0x28 0 32 → ∀ o,
          s.planBad (pkCtx k.packet) img (rnum k.packet 0x28 0 32) = some o → exec (.runPlan cmd img) s = .next (s.badData k.serial 8 o))) ∧
      (s.cp.ember = true → bitAt k.packet 145 = true → bitAt k.packet 146 = false → bitAt k.packet 144 = true → img.length = rnum k.packet 0x28 0 32 →
        ∀ o, s.emberBad img = some o → exec (.runPlan cmd img) s = .next (s.badData k.serial 8 o))) ∧
    (pkOpcode k.packet = 0x33 → (s.suspendedCmd (pkCtx k.packet) (rfld k.packet 0x10 0 32) = none → exec (.resume cmd) s =
        .next (s.complete k.serial 3 0 0 0)) ∧
      (∀ w p, s.suspendedCmd (pkCtx k.packet) (rfld k.packet 0x10 0 32) = some w → s.suspendedPlan w.serial = some p → s.planSlots p = [] →
        p.saved = [] → bitAt k.packet 160 = true → exec (.resume cmd) s = .next ((s.resumeRun p.handle k.serial (s.glb.beatCnt + 1)).begin k.serial)) ∧
      (∀ w i, s.suspendedCmd (pkCtx k.packet) (rfld k.packet 0x10 0 32) = some w → s.suspendedPlan w.serial = none →
        s.haltedSlot w.serial = some i →
        ((s.cp.streams[i]).beyondRepair = true → exec (.resume cmd) s = .next (s.badParam k.serial 8 0x10)) ∧
        ((s.cp.streams[i]).beyondRepair = false →
          (bitAt k.packet 160 = true → exec (.resume cmd) s =
            .next ((s.modStm (.cp i) (fun t => { t with resumeAt := some (s.glb.beatCnt + 1), cmd := some k.serial })).begin k.serial)) ∧
          (bitAt k.packet 160 = false → (rfld k.packet 0x18 0 64 : DWord).toNat ≤ s.glb.beatCnt.toNat → exec (.resume cmd) s =
            .next (s.badParam k.serial 8 0x18)) ∧
          (bitAt k.packet 160 = false → s.glb.beatCnt.toNat < (rfld k.packet 0x18 0 64 : DWord).toNat → exec (.resume cmd) s =
            .next ((s.modStm (.cp i) (fun t => { t with resumeAt := some (rfld k.packet 0x18 0 64), cmd := some k.serial })).begin k.serial)))))

/-- COPY submits its descriptor to the slot it names or any free one, and is refused with the field in error or on a full
slot; ABORT of a command that has not started, fetched or not, completes it with ABORTED and itself, after that, with
ABORT_DONE, and nothing else is done; of one not found NOT_FOUND, of one completed already ALREADY_COMPLETE;
PREEMPT_WAIT_EXPIRY suspends a stopping plan whose MAX beats have run out: its passes that have not committed are
abandoned and wait for their replay; any other plan it leaves as it is. Completes (exec answers a next state with the
own effect of the form): copy, abort, preemptWaitExpiry. -/
def Obligations.CopyAbortAndPreemption : Prop :=
  (∀ (cmd : Nat) (k : Cmd) (s : State), s.findCmd cmd = some k → k.phase = .started → k.begun = false → pkOpcode k.packet = 0x40 →
    s.ctxConf (pkCtx k.packet) = false →
    (s.copySlot k.packet = none → exec (.copy cmd) s = .next s) ∧
    (∀ i s1, s.copySlot k.packet = some i → s1 = s.submit (.cp i)
        { desc := rfld k.packet 0x10 0 512, owner := 1, ctx := some (pkCtx k.packet), cmd := some k.serial, remote := if bitAt k.packet 650 then some (rfld k.packet 0x50 0 10, rfld k.packet 0x52 0 8) else none } →
      (∀ o, firstOff (descRules (rfld k.packet 0x10 0 512) true) = some o → exec (.copy cmd) s = .next (s1.badParam k.serial 8 (0x10 + o))) ∧
      (firstOff (descRules (rfld k.packet 0x10 0 512) true) = none →
        ((s.cp.streams[i]).st ≠ .idle → (s.cp.streams[i]).shadow.isSome = true → exec (.copy cmd) s = .next (s1.badParam k.serial 8 0x54)) ∧
        ((s.cp.streams[i]).st = .idle ∨ (s.cp.streams[i]).shadow = none → exec (.copy cmd) s = .next (s1.begin k.serial))))) ∧
  (∀ (cmd : Nat) (k : Cmd) (s : State), s.findCmd cmd = some k → k.phase = .fetched → pkOpcode k.packet = 0x32 →
    (∀ st d, s.checks k = some (st, d) → exec (.abort cmd) s = .next (s.complete k.serial st d 0 0)) ∧
    (s.checks k = none → bitAt k.packet 160 = false →
      (∀ t, s.cp.cmds.find? (fun x => x.holdsTag (pkCtx k.packet) (rfld k.packet 0x10 0 32)) = some t → pkOpcode t.packet ≠ 0x32 →
        t.phase = .submitted ∨ t.phase = .fetched →
        ∃ u, exec (.abort cmd) s = .next u ∧ u = { s with cp := u.cp } ∧ (s.findCmd t.serial = some t → t.serial ≠ k.serial →
          (∀ c ∈ s.cp.waiting, c.serial ≠ k.serial) →
          ∃ a b : Completion, u.cp.waiting = s.cp.waiting ++ [a, b] ∧ a.serial = t.serial ∧ a.status = 2
            ∧ b.serial = k.serial ∧ b.status = 4 ∧ b.detail = 0 ∧ b.after = some t.serial)) ∧
      (s.cp.cmds.find? (fun x => x.holdsTag (pkCtx k.packet) (rfld k.packet 0x10 0 32)) = none → ∃ u, exec (.abort cmd) s = .next u
        ∧ u = { s with cp := u.cp } ∧ ∃ c : Completion, c ∈ u.cp.waiting ∧ c.serial = k.serial
          ∧ c.status = (if s.cp.recent.contains (pkCtx k.packet, rfld k.packet 0x10 0 32) then 1 else 3)))) ∧
  (∀ (h : PlanId) (s : State) (p : Plan), s.findPlan h = some p →
    (∀ b, p.run = .stopping → p.stopAt = some b → b.toNat + p.waitMax.toNat ≤ s.glb.beatCnt.toNat →
      ∃ u, exec (.preemptWaitExpiry h) s = .next u ∧ u = s.suspendPlan h ∧ u.plans.length = s.plans.length
      ∧ (∀ q ∈ u.plans, q.handle = h → q.run = .suspended ∧ q.cmd = none ∧ q.stop = none ∧ q.stopAt = none)
      ∧ (∀ q ∈ u.plans, q.handle ≠ h → q ∈ s.plans)
      ∧ (p.resident = true → ∀ n : Fin 64, p.cals.getLsbD n.val = true → (u.cals[n]).passes = []
        ∧ ∀ x ∈ (s.cals[n]).passes, ∃ y ∈ (u.cals[n]).replays, y.raw = x.raw ∧ y.serial = x.serial)) ∧
    (p.run ≠ .stopping ∨ p.stopAt = none → exec (.preemptWaitExpiry h) s = .next s) ∧
    (∀ b, p.stopAt = some b → s.glb.beatCnt.toNat < b.toNat + p.waitMax.toNat → exec (.preemptWaitExpiry h) s = .next s))

/-- KEY_IMPORT, FABRIC_ROUTE_SET, GEYSER_SET and FABRIC_DISCOVER. A wrapped key is held when every field passes and it
opens, and refused at its first bad field; route entries are written in order; the source takes a new period for a
beat that is not yet fixed; FABRIC_DISCOVER sends its probe with the beat count as it leaves. Completes (exec answers
a next state with the own effect of the form): keyImport, fabricRouteSet, geyserSet, fabricDiscover. -/
def Obligations.KeyRouteAndBeatCommands : Prop :=
  ∀ (cmd : Nat) (k : Cmd) (s : State), s.findCmd cmd = some k → k.phase = .started → k.begun = false →
    (∀ b : List Byte, pkOpcode k.packet = 0x61 →
      (s.ctxConf (pkCtx k.packet) = false → exec (.keyImport cmd b) s = .next (s.badParam k.serial 8 0x03)) ∧
      (s.ctxConf (pkCtx k.packet) = true → b.length = 228 →
        (∀ o, firstBad (keyChecks s k.packet b) = some o → exec (.keyImport cmd b) s = .next (s.keyFail k o)) ∧
        ((∀ x ∈ keyChecks s k.packet b, x.2 ≠ 0xD4 → x.1 = false) → ∃ u, exec (.keyImport cmd b) s = .next u
          ∧ (openKey s b = none → u = s.keyFail k 0xD4)
          ∧ ∀ key, openKey s b = some key → u = { s with sec := u.sec, cp := u.cp } ∧ u.sec.ctxs = s.sec.ctxs.map (fun x =>
            (x.1, if x.1 = (pkCtx k.packet).toNat then { x.2 with modelKey := some (ofBytes 256 key) } else x.2))))) ∧
    (∀ es : List DWord, pkOpcode k.packet = 0x71 → es.length = rnum k.packet 0x12 0 11 → ∃ u, exec (.fabricRouteSet cmd es) s = .next u
      ∧ u = { s with fab := { s.fab with routes := u.fab.routes }, cp := u.cp } ∧ u.cp.waiting.length = s.cp.waiting.length + 1
      ∧ ∀ (i : Nat) (e : DWord), es[i]? = some e → tget (0 : BitVec 52) u.fab.routes (rnum k.packet 0x10 0 10 + i) = fld e 0 52) ∧
    (pkOpcode k.packet = 0x72 → (s.glb.isSource = false → exec (.geyserSet cmd) s = .next (s.badParam k.serial 8 0x10)) ∧
      (s.glb.isSource = true →
        ((rfld k.packet 0x10 0 16 : BitVec 16) ≠ 0 → (rfld k.packet 0x10 0 16 : BitVec 16).toNat < 64 → exec (.geyserSet cmd) s = .next (s.badParam k.serial 8 0x10)) ∧
        ((rfld k.packet 0x10 0 16 : BitVec 16) = 0 → (rfld k.packet 0x18 0 64 : DWord).toNat ≤ s.glb.fixedBeat.toNat →
          exec (.geyserSet cmd) s = .next (s.badParam k.serial 8 0x18)) ∧
        ((rfld k.packet 0x10 0 16 : BitVec 16) = 0 ∨ (64 ≤ (rfld k.packet 0x10 0 16 : BitVec 16).toNat ∧ s.fab.delay.toNat < (rfld k.packet 0x10 0 16 : BitVec 16).toNat) →
          s.glb.fixedBeat.toNat < (rfld k.packet 0x18 0 64 : DWord).toNat → ∃ (u : State) (h : Option (BitVec 10)), exec (.geyserSet cmd) s = .next u
            ∧ u.glb.source.sets = s.glb.source.sets ++ [(rfld k.packet 0x18 0 64, rfld k.packet 0x10 0 16, h)]
            ∧ (bitAt k.packet 144 = false → h = none) ∧ (bitAt k.packet 144 = true → h = some (rfld k.packet 0x14 0 10))
            ∧ u.glb.beatCnt = s.glb.beatCnt ∧ u.glb.period = s.glb.period))) ∧
    (pkOpcode k.packet = 0x70 → ∀ p : BitVec 1920, p = putFld (at_ 1920 0 (rfld k.packet 0x10 0 384)) 256 s.glb.beatCnt → ∀ q p1,
      s.probeStep p = .forward q p1 → ∃ u, exec (.fabricDiscover cmd) s = .next u
        ∧ (u.ports[q]).txq = (s.ports[q]).txq ++ [(none, mkFlit 0 (pbOrig p) 2 9 0 false p1)] ∧ (∀ r : Fin 12, r ≠ q → u.ports[r] = s.ports[r])
        ∧ ∃ a : Awaited, u.fab.probesOut = s.fab.probesOut ++ [a] ∧ a.tag = pbReq p ∧ a.since = s.now ∧ a.cmd = k.serial)

/-- BAR 4 and the DOE mailbox. A payload of a length that no access has is ill-formed; with the window disabled a read
returns all ones and a write is dropped, and the first failure is recorded with cause RANGE; an access whose parts
translate is carried out, one inside a host page as one request with the page's attributes; one of host memory takes
what the host delivered, and fails with HOST on an error; a read of a stream without a completion halts the stream
with HOST; a DOE object of at most 256 KiB is answered. Accesses of BAR0. Before the host port serves nothing happens;
a misaligned access, one of less than a word and one in D3hot is an Unsupported Request when it is a read and dropped
when it is a write; an access that has to reach its unit as a packet is a request of the PCIe port's interface, and
none goes past one outstanding to its unit; a write is carried out by the unit of its address and answered, a read
returns what R302 says of its status. A broadcast or group access is one job of the fan-out unit, which has one at a
time: each member that answers adds its status and its value, one of another partition is DENIED, and the answer
leaves once all have; until then a member that has taken a write holds reads back; members that do not answer in half
of NOC_TIMEOUT set FANOUT_TIMEOUT with the first of them, and a read then answers all ones with WR_DROPPED. Completes
(exec answers a next state with the own effect of the form): bar4Read, bar4Write, pcieCompletionTimeout, doeMessage,
broadcastRead, registerWrite, broadcastWrite, fanoutTimeout. -/
def Obligations.HostAccesses : Prop :=
  ((∀ (off : Word) (len : Nat) (io : HostIO) (fails : List BlockFail) (s : State),
    (¬ (0 < len ∧ len ≤ 4096) → exec (.bar4Read off len io fails) s = .fault .illFormed) ∧
    (0 < len → len ≤ 4096 →
      (∀ c v, firstFault (s.bar4Parts off len false) = some (c, v) → exec (.bar4Read off len io fails) s =
        .next ((s.bar4Fails c v).emit (.readData (List.replicate len 0xFF)))) ∧
      (firstFault (s.bar4Parts off len false) = none → hostLen (s.bar4Parts off len false) = 0 → exec (.bar4Read off len io fails) s =
        .next (s.bar4Serve off len fails (s.bar4Parts off len false) [])) ∧
      (∀ b, firstFault (s.bar4Parts off len false) = none → hostLen (s.bar4Parts off len false) ≠ 0 → b.length = hostLen (s.bar4Parts off len false) →
        exec (.bar4Read off len (.data b) fails) s = .next (s.bar4Serve off len fails (s.bar4Parts off len false) b)) ∧
      (firstFault (s.bar4Parts off len false) = none → hostLen (s.bar4Parts off len false) ≠ 0 → exec (.bar4Read off len .error fails) s =
        .next ((s.bar4Fails 4 (BitVec.ofNat 21 (s.bar4Addr off / 524288))).emit (.readData (List.replicate len 0xFF)))) ∧
      (s.cp.bar4En = false → firstFault (s.bar4Parts off len false) = some (5, BitVec.ofNat 21 (s.bar4Addr off / 524288))))) ∧
  (∀ (off : Word) (b : List Byte) (fails : List BlockFail) (s : State) (a : Nat) (e : DWord), 0 < b.length → b.length ≤ 4096 →
    s.cp.bar4En = true → s.ctxConf s.cp.bar4Ctx = false → a = s.cp.bar4Base.toNat * 2 ^ 32 + off.toNat → a % 524288 + b.length ≤ 524288 →
    e = tget (0 : DWord) s.spt (a / 524288) → bitAt e 0 = true → spCtx e = s.cp.bar4Ctx → nfld e 4 2 = 1 →
    (bitAt e 1 = true → exec (.bar4Read off b.length (.data b) fails) s =
      .next ((s.emit (.read (BitVec.ofNat 64 (spPage e + a % 524288)) b.length (bitAt e 6) (bitAt e 7))).emit (.readData b))) ∧
    (bitAt e 2 = true → exec (.bar4Write off b fails) s =
      .next (s.emit (.write (BitVec.ofNat 64 (spPage e + a % 524288)) b (bitAt e 6) (bitAt e 7))))) ∧
  (∀ (off : Word) (bytes : List Byte) (fails : List BlockFail) (s : State),
    (¬ (0 < bytes.length ∧ bytes.length ≤ 4096) → exec (.bar4Write off bytes fails) s = .fault .illFormed) ∧
    (0 < bytes.length → bytes.length ≤ 4096 →
      (∀ c v, firstFault (s.bar4Parts off bytes.length true) = some (c, v) → exec (.bar4Write off bytes fails) s = .next (s.bar4Fails c v)) ∧
      (∀ u, firstFault (s.bar4Parts off bytes.length true) = none → s.bar4Put fails (s.bar4Parts off bytes.length true) bytes = (u, true) →
        exec (.bar4Write off bytes fails) s = .next u))) ∧
  (∀ (c : Nat) (v : BitVec 21) (s : State), (s.cp.bar4Fail = true → s.bar4Fails c v = s) ∧ (s.cp.bar4Fail = false → s.bar4Fails c v =
    s.modCp (fun x => { x with bar4Fail := true, bar4Cause := BitVec.ofNat 4 c, bar4Vpn := v }))) ∧
  (∀ (r : SlotRef) (s : State) (v : BitVec 21), s.demandOk (s.stm r) = true → s.hostRead r = some v →
    exec (.pcieCompletionTimeout r) s = .next (s.haltStream r 4 v)) ∧
  (∀ (i : Fin 32) (s : State), (s.cp.streams[i]).st = .active → (s.cp.streams[i]).plan = none → dSrcKind (s.cp.streams[i]).desc = 3 →
    ∃ u, exec (.pcieCompletionTimeout (.cp i)) s = .next u ∧ u = s.haltStream (.cp i) 4 0
      ∧ (u.cp.streams[i]).st = .halted ∧ (u.cp.streams[i]).cause = 4) ∧
  (∀ (o : List Byte) (s : State), (262144 < o.length → exec (.doeMessage o) s = .next s) ∧
    (o.length ≤ 262144 → ∃ u a, exec (.doeMessage o) s = .next u ∧ u = { s with cp := u.cp, free := s.free + 1 } ∧ u.cp.out = s.cp.out ++ [.doe a]))) ∧
  ((∀ (a : Word) (z : AccessSize) (v : DWord) (s : State),
    (s.hostMay a z = true ↔ s.hostUp = true ∧ (z = .b32 ∧ a.toNat % 4 = 0 ∨ z = .b64 ∧ a.toNat % 8 = 0)) ∧
    (s.hostMay a z = false → exec (.registerWrite a z v) s = .next s ∧ exec (.broadcastWrite a z v) s = .next s) ∧
    (s.portUp = false → exec (.broadcastRead ⟨a, z⟩) s = .next s) ∧
    (s.portUp = true → s.hostMay a z = false → exec (.broadcastRead ⟨a, z⟩) s = .next (s.emit .unsupported)) ∧
    (s.hostMay a z = true → fanAddr a.toNat = false → exec (.broadcastWrite a z v) s = .next s) ∧
    (s.hostMay a z = true → fanAddr a.toNat = true → exec (.broadcastWrite a z v) s = exec (.registerWrite a z v) s) ∧
    (∀ n : Nat, s.hostMay a z = true → n = (if z = .b64 then 2 else 1) →
      (s.byPacket a.toNat = true →
        exec (.registerWrite a z v) s = exec (.nocRequest pcieNode 0 1 (natAt 256 0 a.toNat ||| natAt 256 44 (n - 1) ||| at_ 256 128 v)) s
        ∧ exec (.broadcastRead ⟨a, z⟩) s = exec (.nocRequest pcieNode 0 0 (natAt 256 0 a.toNat ||| natAt 256 44 (n - 1))) s) ∧
      (s.byPacket a.toNat = false → s.mustWait pcieNode (s.addrNode a.toNat) = true →
        exec (.registerWrite a z v) s = .next s ∧ exec (.broadcastRead ⟨a, z⟩) s = .next s) ∧
      (s.byPacket a.toNat = false → s.mustWait pcieNode (s.addrNode a.toNat) = false → fanAddr a.toNat = false →
        exec (.registerWrite a z v) s = .next (s.hostUnit a false n v)
        ∧ (s.readHeld (s.addrNode a.toNat) = true → exec (.broadcastRead ⟨a, z⟩) s = .next s)
        ∧ (s.readHeld (s.addrNode a.toNat) = false → exec (.broadcastRead ⟨a, z⟩) s =
            .next (s.hostOutcome false a n (s.readAt a.toNat n).1 (s.readAt a.toNat n).2))) ∧
      (s.byPacket a.toNat = false → s.mustWait pcieNode (s.addrNode a.toNat) = false → fanAddr a.toNat = true →
        (s.fan.isSome = true → exec (.broadcastWrite a z v) s = .next s ∧ exec (.broadcastRead ⟨a, z⟩) s = .next s) ∧
        (s.fan = none → exec (.broadcastWrite a z v) s =
            .next (s.fanStart true (mkHeader glbNode pcieNode 1 0) (reqData a.toNat n (v.setWidth 128)) [])
          ∧ exec (.broadcastRead ⟨a, z⟩) s = .next (s.fanStart true (mkHeader glbNode pcieNode 0 0) (reqData a.toNat n 0) []))))) ∧
  (∀ (w : DWord) (s : State), s.hostUp = true → s.sec.lifecycle ≠ 4 → s.byPacket 0x40 = false → s.mustWait pcieNode (s.addrNode 0x40) = false →
    ∃ u, exec (.registerWrite 0x40 .b32 w) s = .next u
    ∧ u = { s with glb := { s.glb with scratch := w.setWidth 32 }, cp := u.cp } ∧ u.cp.out = s.cp.out ++ [.accessStatus 0]) ∧
  (∀ (a : Word) (v : DWord) (s : State), s.hostMay a .b32 = true → winOf a.toNat = none → s.byPacket a.toNat = false →
    s.mustWait pcieNode (s.addrNode a.toNat) = false → ∃ u, exec (.registerWrite a .b32 v) s = .next u
    ∧ u.glb.accessErr.getLsbD 1 = true ∧ (bitAt s.glb.accessErr 5 = false → u.glb.accessAddr = a) ∧ u.cp.out = s.cp.out ++ [.accessStatus 3]) ∧
  (∀ (a : Word) (n : Nat) (x : BitVec 128) (s : State), n ≤ 4 → (s.hostOutcome false a n 0 x).cp.out = s.cp.out ++ [.accessStatus 0, .readData (toBytes x (4 * n))]
    ∧ (∀ st, st = 3 ∨ st = 4 → (s.hostOutcome false a n st x).cp.out = s.cp.out ++ [.accessStatus (BitVec.ofNat 8 st), .readData (List.replicate (4 * n) 0)])
    ∧ (s.hostOutcome false a n 0xF x).cp.out = s.cp.out ++ [.accessStatus 0xF, .readData (List.replicate (4 * n) 0xFF)]) ∧
  (∀ (host : Bool) (h : Word) (d : Data256) (lost : List Byte) (s : State) (win : Win) (off : Nat) (l : List Win),
    winOf (npAddr d) = some (win, off) → s.members win = some l → s.winOpen win off = true → ∃ j : FanJob,
      s.fanStart host h d lost = (l.foldl (fanOne lost) (s, j)).1.fanSettle (l.foldl (fanOne lost) (s, j)).2
      ∧ j.host = host ∧ j.hdr = h ∧ j.data = d ∧ j.members = l.map Win.node ∧ j.waiting = j.members ∧ j.status = 0 ∧ j.value = 0 ∧ j.since = s.now) ∧
  (∀ (lost : List Byte) (s : State) (j : FanJob) (m : Win),
    (lost.contains (BitVec.ofNat 8 m.index) = true → fanOne lost (s, j) m = (s, j)) ∧
    (lost.contains (BitVec.ofNat 8 m.index) = false → userWin m (fanOffset j.data) = none →
      (s.foreign (hdSrc j.hdr) m.node = true → fanOne lost (s, j) m = (s, j.answered m.node 4 0)) ∧
      (s.foreign (hdSrc j.hdr) m.node = false → j.reads = true → fanOne lost (s, j) m =
        (s, j.answered m.node (s.unitRead m (fanOffset j.data) (npLen j.data)).1 (s.unitRead m (fanOffset j.data) (npLen j.data)).2)) ∧
      (s.foreign (hdSrc j.hdr) m.node = false → j.reads = false → ∀ r, r = s.winWrite (whoOf (hdSrc j.hdr)) m (fanOffset j.data) (npWords j.data) →
        fanOne lost (s, j) m = (r.2, j.answered m.node r.1 0))) ∧
    (∀ r : Fin 16, lost.contains (BitVec.ofNat 8 m.index) = false → userWin m (fanOffset j.data) = some r → s.gatewayRefuses r j.hdr = none →
      fanOne lost (s, j) m = (s.modRegion r (fun q => { q with rxq := q.rxq ++ [(j.hdr, j.data)] }), j))) ∧
  (∀ (j : FanJob) (m : BitVec 9) (st : Nat) (v : BitVec 128), j.answered m st v =
    { j with waiting := j.waiting.erase m, status := max j.status st, value := j.value ||| v }) ∧
  (∀ (s : State) (j : FanJob), (j.waiting ≠ [] → s.fanSettle j = { s with fan := some j }) ∧
    (j.waiting = [] → j.host = true → s.fanSettle j = ({ s with fan := none } : State).hostOutcome (!j.reads) (BitVec.ofNat 32 (npAddr j.data))
      (npLen j.data) j.status j.value) ∧
    (j.waiting = [] → j.host = false → s.fanSettle j = ({ s with fan := none } : State).respond glbNode j.hdr j.data j.status j.value)) ∧
  (∀ (s : State) (m : BitVec 9), s.readHeld m = true ↔ ∃ j, s.fan = some j ∧ j.reads = false ∧ m ∈ j.members ∧ m ∉ j.waiting) ∧
  (∀ (a : Option Word) (lost : List Byte) (isRead : Bool) (z : AccessSize) (v : DWord) (s : State) (j : FanJob), s.fan = some j →
    (j.since + (s.noc[(0 : Fin 2)]).timeout.toNat / 2 ≤ s.now → exec (.fanoutTimeout a lost isRead z v) s = .next (s.fanExpire j)) ∧
    (s.now < j.since + (s.noc[(0 : Fin 2)]).timeout.toNat / 2 → exec (.fanoutTimeout a lost isRead z v) s = .next s)) ∧
  (∀ (a : Word) (lost : List Byte) (isRead : Bool) (z : AccessSize) (v : DWord) (s : State) (d : Data256), s.fan = none → s.hostMay a z = true →
    s.byPacket a.toNat = false → s.mustWait pcieNode (s.addrNode a.toNat) = false →
    d = reqData a.toNat (if z = .b64 then 2 else 1) (if isRead then 0 else v.setWidth 128) → s.fanMeets lost d = true →
    exec (.fanoutTimeout (some a) lost isRead z v) s = .next (s.fanStart true (mkHeader glbNode pcieNode (if isRead then 0 else 1) 0) d lost)) ∧
  (∀ (s : State) (j : FanJob) (m : BitVec 9) (rest : List (BitVec 9)), j.waiting = m :: rest → j.host = true → j.reads = true → j.status ≤ 1 →
    ∃ u, s.fanExpire j = u ∧ u.fan = none ∧ u.glb.accessErr.getLsbD 4 = true
      ∧ (bitAt s.glb.accessErr 4 = false → u.glb.fanoutMember = BitVec.ofNat 8 (((nodeWin m).map Win.index).getD 0))
      ∧ u.cp.out = s.cp.out ++ [.accessStatus 1, .readData (List.replicate (4 * npLen j.data) 0xFF)]))

/-- R332. Data bit j stands at the j-th code position from 1 on that is not a power of two, and the last position is
4,109; check bit i below 13 is the XOR of the data bits whose position has bit i set, and bit 13 the XOR of all data
bits and the other check bits; a check of stored bits compares the recomputed ones: s = 0 and even parity is clean,
odd parity with s up to 4,109 a single error at position s, which for 0 is bit 13, anything else a double error. So a
flip of any one code position of a frame is named, and flipping that position again restores frame and check. -/
def Obligations.FrameCheckCorrectsSingleErrors : Prop :=
  (dataPositions.length = 4096 ∧ dataPositions.Pairwise (· < ·) ∧
    ∀ p : Nat, p ∈ dataPositions ↔ 1 ≤ p ∧ p ≤ 4109 ∧ ∀ i : Nat, p ≠ 2 ^ i) ∧
  (∀ (d : BitVec 4096) (i : Nat), i < 13 → (cfgFrameCheck d).getLsbD i =
    (List.range 4096).foldl (fun b j => b != (d.getLsbD j && (dataPositions.getD j 0).testBit i)) false) ∧
  (∀ d : BitVec 4096, (cfgFrameCheck d).getLsbD 13 =
    (((List.range 4096).foldl (fun b j => b != d.getLsbD j) false) != ((List.range 13).foldl (fun b i => b != (cfgFrameCheck d).getLsbD i) false))) ∧
  (∀ (d : BitVec 4096) (c : BitVec 14) (s : Nat) (p : Bool), s = (((cfgFrameCheck d).setWidth 13 : BitVec 13) ^^^ c.setWidth 13).toNat →
    p = (((List.range 4096).foldl (fun b j => b != d.getLsbD j) false) != ((List.range 14).foldl (fun b i => b != c.getLsbD i) false)) →
    (s = 0 → p = false → frameTest d c = (0, 0)) ∧ (p = true → s ≤ 4109 → frameTest d c = (1, s)) ∧
    (s ≠ 0 ∧ p = false ∨ 4109 < s → frameTest d c = (2, s))) ∧
  (∀ (d : BitVec 4096) (p : Nat) (d' : BitVec 4096) (c' : BitVec 14), p < 4110 → flipPos (d, cfgFrameCheck d) p = (d', c') →
    frameTest d' c' = (1, p) ∧ flipPos (d', c') p = (d, cfgFrameCheck d))

/-- Frames and the fumarole. CFG_WRITE stores one segment of a valid frame address, and with segment 31 the check bits;
CFG_READ answers a segment; CFG_SCRUB, while enabled, covers its frame, counts a single error and corrects it, and
counts a double one, in the frames and in the reference store alike; FUMAROLE_SWEEP counts a sweep once every item has
been covered; a hardened block whose hash differs is counted, copied back from its reference frames and its reload
recorded, unless one of those frames is bad. Completes (exec answers a next state with the own effect of the form):
cfgWrite, cfgRead, cfgScrub, fumaroleSweep, hardenedBlockCheck. -/
def Obligations.FramesAndFumarole : Prop :=
  (∀ (far : Word) (seg : Fin 32) (x : BitVec 128) (s : State),
    (farValid far = false → exec (.cfgWrite far seg x) s = .next s ∧ exec (.cfgRead far seg) s = .next s) ∧
    (farValid far = true → ∃ u : State, exec (.cfgWrite far seg x) s = .next (u.frameChanged far)
      ∧ u = { s with cfg := { s.cfg with frames := u.cfg.frames, checks := u.cfg.checks } }
      ∧ u.cfg.frame far = putFld (s.cfg.frame far) (128 * seg.val) x ∧ (∀ g : Word, g ≠ far → u.cfg.frame g = s.cfg.frame g ∧ u.cfg.check g = s.cfg.check g)
      ∧ (seg.val ≠ 31 → u.cfg.check far = s.cfg.check far) ∧ (seg.val = 31 → u.cfg.check far = cfgFrameCheck (u.cfg.frame far))
      ∧ (farClass far ≠ 0 ∨ (s.regions[farRegion far]).cfg ≠ 1 → u.frameChanged far = u)
      ∧ (farClass far = 0 → (s.regions[farRegion far]).cfg = 1 → u.frameChanged far = u.modRegion (farRegion far) (fun r =>
          { r with ffs := (Config.netlist (u.cfg.logicFrames (farRegion far))).inits }))) ∧
    (farValid far = true → exec (.cfgRead far seg) s = .next (s.modCfg (fun c => { c with answer := fld (c.frame far) (128 * seg.val) 128 })))) ∧
  (∀ (far : Word) (s : State), s.cfg.scrubEn = true → s.swept far = true →
    (frameTest (s.cfg.frame far) (s.cfg.check far) = (0, 0) → ∃ u, exec (.cfgScrub far false []) s = .next u ∧ u.cfg.sbeCnt = s.cfg.sbeCnt
      ∧ u.cfg.dedCnt = s.cfg.dedCnt ∧ u.cfg.frame far = s.cfg.frame far ∧ u.cfg.event = s.cfg.event ∧ far.toNat ∈ u.cfg.covered) ∧
    (∀ p : Fin 4110, s.cfg.check far = cfgFrameCheck (s.cfg.frame far) → ∃ u, exec (.cfgScrub far false [p]) s = .next u
      ∧ u.cfg.sbeCnt = satInc s.cfg.sbeCnt ∧ u.cfg.sbeLast = far ∧ u.cfg.frame far = s.cfg.frame far ∧ u.cfg.check far = s.cfg.check far
      ∧ u.cfg.event.getLsbD 2 = true ∧ far.toNat ∈ u.cfg.covered) ∧
    (∀ (fl : List (Fin 4110)) (x : BitVec 4096 × BitVec 14) (k : Nat), fl.foldl (fun x p => flipPos x p.val) (s.cfg.frame far, s.cfg.check far) = x →
      frameTest x.1 x.2 = (2, k) → ∃ u, exec (.cfgScrub far false fl) s = .next u ∧ u.cfg.dedCnt = satInc s.cfg.dedCnt ∧ u.cfg.dedLast = far
        ∧ u.cfg.frame far = x.1 ∧ u.cfg.event.getLsbD 3 = true)) ∧
  (∀ (far : Word) (inRef : Bool) (fl : List (Fin 4110)) (s : State),
    (s.cfg.scrubEn = false → exec (.cfgScrub far inRef fl) s = .next s) ∧
    (s.swept far = false → exec (.cfgScrub far false fl) s = .next s) ∧
    (tfind s.cfg.refStore far.toNat = none → exec (.cfgScrub far true fl) s = .next s) ∧
    (∀ (d : BitVec 4096) (x : BitVec 4096 × BitVec 14) (k : Nat), s.cfg.scrubEn = true → tfind s.cfg.refStore far.toNat = some d →
      fl.foldl (fun x p => flipPos x p.val) (d, tget (0 : BitVec 14) s.cfg.refChecks far.toNat) = x → frameTest x.1 x.2 = (2, k) →
      ∃ u, exec (.cfgScrub far true fl) s = .next u ∧ u.cfg.dedCnt = satInc s.cfg.dedCnt ∧ u.cfg.dedLast = far ∧ far ∈ u.cfg.refBad
        ∧ u.cfg.frames = s.cfg.frames ∧ u.cfg.event.getLsbD 3 = true ∧ u.cfg.event.getLsbD 5 = true)) ∧
  (∀ s : State, (s.cfg.scrubEn = true → (∀ i ∈ s.sweepItems, i ∈ s.cfg.covered) → exec .fumaroleSweep s =
      .next (s.modCfg (fun c => { c with sweeps := satInc c.sweeps, covered := [], skipped := 0 }))) ∧
    (s.cfg.scrubEn = false ∨ (∃ i ∈ s.sweepItems, i ∉ s.cfg.covered) → exec .fumaroleSweep s = .next s)) ∧
  (∀ (b : HardRef) (g : BitVec 384) (fl : List Nat) (s s1 : State), tfind s.cfg.golden (hardKey b) = some g →
    (s.cfg.scrubEn = false → exec (.hardenedBlockCheck b fl) s = .next s) ∧
    (s.cfg.scrubEn = true → s1 = (fl.foldl (fun s i => s.upset b i) s).cover (2 ^ 34 + hardKey b) →
      (sha384 (s1.blockBytes b) = g → exec (.hardenedBlockCheck b fl) s = .next (s1.putClean b)) ∧
      (sha384 (s1.blockBytes b) ≠ g → (∃ x ∈ s1.cfg.refFrames b, BitVec.ofNat 32 x.1 ∈ s1.cfg.refBad) →
        exec (.hardenedBlockCheck b fl) s = .next s1) ∧
      (sha384 (s1.blockBytes b) ≠ g → (∀ x ∈ s1.cfg.refFrames b, BitVec.ofNat 32 x.1 ∉ s1.cfg.refBad) → ∃ u, exec (.hardenedBlockCheck b fl) s = .next u
        ∧ u.cfg.hardCnt = satInc s.cfg.hardCnt ∧ u.cfg.hardLast = hardWord b ∧ u.cfg.hardReload = s.glb.beatCnt ∧ u.cfg.event.getLsbD 4 = true
        ∧ (∀ n, b = .microcode n → u.blockBytes b = toBytes (ofBytes 524288 ((s1.cfg.refFrames b).flatMap (fun x => toBytes x.2 512))) 65536))))

/-- Loads. LOAD_LOGIC and LOAD_REGION wait while a load runs or a stream is open; LOAD_LOGIC is refused with a plan
loaded, LOAD_REGION for a region outside its partition or in a plan's conduits; a front that fails a check ends the
load with that status and no frame applied; past the point of no return the region is LOADING with its flip-flops at
INIT; a good frame record of a local load is applied, a short one fails check 6; the trailer commits or fails; a
stream that pauses too long fails; a CFG packet that is not from the parent is dropped and counted. Completes (exec
answers a next state with the own effect of the form): loadLogic, loadRegion, frameRecord, loadCommit,
cfgStreamTimeout, mgmtCfg. -/
def Obligations.LogicLoads : Prop :=
  (∀ (cmd : Nat) (k : Cmd) (h : List Byte) (s : State), s.findCmd cmd = some k → k.phase = .started → k.begun = false →
    (pkOpcode k.packet = 0x50 → (s.cfg.streaming = true → exec (.loadLogic cmd h) s = .next s) ∧
      (s.cfg.streaming = false → s.plans ≠ [] → exec (.loadLogic cmd h) s = .next (s.badParam k.serial 8 0)) ∧
      (∀ x, s.cfg.streaming = false → s.plans = [] → (s.begin k.serial).cmdLoad k true = x → exec (.loadLogic cmd h) s = .next (x.1.beginLoad x.2 h))) ∧
    (pkOpcode k.packet = 0x51 → s.cfg.streaming = true → exec (.loadRegion cmd h) s = .next s) ∧
    (s.cfg.streaming = true ↔ s.cfg.load.isSome = true ∨ s.cfg.fwdOpen.isSome = true) ∧
    (pkOpcode k.packet = 0x51 → s.cfg.streaming = false → ∀ r : Fin 16, r.val = rnum k.packet 0x10 0 4 →
      (((s.ctxPart (pkCtx k.packet)).regions).getLsbD r.val = false ∨ s.regionInPlan r = true → exec (.loadRegion cmd h) s = .next (s.badParam k.serial 8 0x10)) ∧
      (∀ x, ((s.ctxPart (pkCtx k.packet)).regions).getLsbD r.val = true → s.regionInPlan r = false → (s.begin k.serial).cmdLoad k false = x →
        exec (.loadRegion cmd h) s = .next (x.1.beginLoad x.2 h)))) ∧
  (∀ (l : Load) (h : List Byte) (s : State), l.forward = false →
    ∃ (u : State) (l1 : Load), s.beginLoad l h = u ∧
      (∀ st ch off, s.frontFails h l.full l.region l.length = some (st, ch, off) → u = s.settle l1 st ch off
        ∧ l1.past = l.past ∧ l1.applied = l.applied ∧ l1.cmd = l.cmd) ∧
      (s.frontFails h l.full l.region l.length = none → l.full = false → u.cfg.load = some l1 ∧ l1.past = true
        ∧ l1.frames = hdFrames h ∧ l1.seen = l.seen ∧ (u.regions[l.region]).cfg = 1 ∧ (u.regions[l.region]).initHeld = true
        ∧ (u.regions[l.region]).ffs = (Config.netlist (s.cfg.logicFrames l.region)).inits
        ∧ ∀ r : Fin 16, r ≠ l.region → u.regions[r] = s.regions[r])) ∧
  (∀ (l : Load) (b : List Byte) (s : State), s.cfg.load = some l → l.source = 0 → l.outcome = none → l.forward = false →
    (l.seen < l.frames → b.length < 520 → exec (.frameRecord b) s =
      .next (s.settle { l with got := l.got + b.length } 0x32 6 (l.got + b.length))) ∧
    (l.seen < l.frames → b.length = 520 → exec (.frameRecord b) s = .next (s.loadRecord { l with got := l.got + 520 } b)) ∧
    (l.frames ≤ l.seen → b.length = 32 → exec (.loadCommit b) s = .next (s.loadTrailer { l with got := l.got + 32 } b)) ∧
    (l.seen < l.frames → exec (.loadCommit b) s = .next s)) ∧
  (∀ (l : Load) (b : List Byte) (s : State),
    (l.trailerOk b = false → s.loadTrailer l b = s.settle l 0x32 6 l.got) ∧
    (l.trailerOk b = true → sha384 (l.body ++ b) ≠ l.digest → s.loadTrailer l b = s.settle l 0x34 7 0x60) ∧
    (l.trailerOk b = true → sha384 (l.body ++ b) = l.digest → s.loadTrailer l b = s.commitLoad l)) ∧
  (∀ s : State, s.cfg.fwdOpen.isSome = true →
    (s.cfg.fwdTick + s.cfg.streamTo.toNat < s.now → ∃ u, exec .cfgStreamTimeout s = .next u
      ∧ u = s.settle s.streamLoad 0x32 6 s.streamLoad.got ∧ u.cfg.fwdOpen = none) ∧
    (s.now ≤ s.cfg.fwdTick + s.cfg.streamTo.toNat → exec .cfgStreamTimeout s = .next s)) ∧
  (∀ (p : Fin 12) (f : Data2048) (rest : List (Fin 12 × Data2048)) (s : State), s.fab.inbox = (p, f) :: rest → isMgmt 3 f = true →
    (s.cfg.cfgInValid = false ∨ s.cfg.cfgInPort.toNat ≠ p.val ∨ s.cfg.cfgInId ≠ flSrc f → exec .mgmtCfg s =
      .next ((s.tookFlit rest p f).modCfg (fun c => { c with inDrop := satInc c.inDrop }))) ∧
    (s.cfg.cfgInValid = true → s.cfg.cfgInPort.toNat = p.val → s.cfg.cfgInId = flSrc f → exec .mgmtCfg s =
      .next ((s.tookFlit rest p f).acceptCfg (flPayload f))) ∧
    (s.tookFlit rest p f).fab = { s.fab with inbox := rest })

/-- Gateways and PLLs. A word crosses an open endpoint of its direction, and none of a closed one; a packet is handed to
the logic, or answered ERR_DECODE while the region is isolated and ERR_DENIED across partitions or, for a user
register, a confidential context that does not hold the region; the logic's answer leaves for the oldest request; the
end of a resync lets words move again; a configured PLL locks, one that loses lock sets UNLOCK and raises an event.
Completes (exec answers a next state with the own effect of the form): gatewayWord, plPacket, plUserReg,
userLogicAnswer, gwResyncDone, pllLock, pllUnlock. -/
def Obligations.GatewaysAndClocks : Prop :=
  (∀ (r e : Fin 16) (s : State), (s.gwOpen r e = false → ∀ d, exec (.gatewayWord r e d) s = .next s) ∧
    (∀ (w : GwEp) (x : CWord) (rest : List CWord), s.gwOpen r e = true → ((s.regions[r]).gw[e]).absorb = w → w.inBuf = x :: rest → w.ep.dest = true →
      exec (.gatewayWord r e .intoRegion) s = .next (s.modGw r e (fun _ => ({ w with inBuf := rest, pos := w.pos + 1 } : GwEp).absorb))) ∧
    (∀ (w : GwEp) (x : CWord), s.gwOpen r e = true → ((s.regions[r]).gw[e]).absorb = w → w.ep.source = true → w.outBuf.length < 4 →
      exec (.gatewayWord r e (.outOfRegion x)) s = .next (s.modGw r e (fun _ => ({ w with outBuf := w.outBuf ++ [x], pos := w.pos + 1 } : GwEp).offer)))) ∧
  (∀ (r : Fin 16) (h : Word) (d : Data256) (rest : List (Word × Data256)) (s : State), (s.regions[r]).rxq = (h, d) :: rest →
    (hdType h = 4 →
      (∀ st, s.gatewayRefuses r h = some st → exec (.plPacket r) s =
        .next ((s.modRegion r (fun x => { x with rxq := rest })).gatewayAnswer r (h, d) st 0)) ∧
      (s.gatewayRefuses r h = none → exec (.plPacket r) s =
        .next (s.modRegion r (fun x => { x with rxq := rest, handed := x.handed ++ [(h, d)] })))) ∧
    (hdType h < 2 → hdType h = 1 ∨ s.readHeld (regionNode r.val) = false →
      (∀ st, s.gatewayRefuses r h = some st → exec (.plUserReg r) s =
        .next ((s.modRegion r (fun x => { x with rxq := rest })).gatewayAnswer r (h, d) st 0)) ∧
      (s.gatewayRefuses r h = none → exec (.plUserReg r) s =
        .next (s.modRegion r (fun x => { x with rxq := rest, handed := x.handed ++ [(h, d)] }))))) ∧
  (∀ (r : Fin 16) (h : Word) (s : State),
    (s.foreign (hdSrc h) (regionNode r.val) = true → s.gatewayRefuses r h = some 4) ∧
    (s.foreign (hdSrc h) (regionNode r.val) = false →
      ((s.regions[r]).isolated = true → s.gatewayRefuses r h = some 3) ∧
      ((s.regions[r]).isolated = false → 2 ≤ hdType h ∨ s.nodeCtx (hdSrc h) = none → s.gatewayRefuses r h = none) ∧
      (∀ c, (s.regions[r]).isolated = false → hdType h < 2 → s.nodeCtx (hdSrc h) = some c → s.ctxConf c = true → c ∉ (s.regions[r]).owners →
        s.gatewayRefuses r h = some 4))) ∧
  (∀ (r : Fin 16) (h : Word) (d : Data256) (st : Nat) (v : BitVec 128) (s : State), 2 ≤ hdType h ∨ fanAddr (npAddr d) = false →
    s.gatewayAnswer r (h, d) st v = s.respond (regionNode r.val) h d st v) ∧
  (∀ (r : Fin 16) (st : Byte) (data : BitVec 128) (s : State), ((s.regions[r]).handed = [] → exec (.userLogicAnswer r st data) s = .next s) ∧
    (∀ h d rest, (s.regions[r]).handed = (h, d) :: rest → (s.regions[r]).isolated = true → exec (.userLogicAnswer r st data) s = .next s) ∧
    (∀ h d rest, (s.regions[r]).handed = (h, d) :: rest → (s.regions[r]).isolated = false → st = 0 ∨ st = 1 ∨ st = 3 ∨ (st = 4 ∧ 2 ≤ hdType h) →
      exec (.userLogicAnswer r st data) s = .next ((s.modRegion r (fun x => { x with handed := rest })).gatewayAnswer r (h, d) st.toNat data))) ∧
  (∀ (r : Fin 16) (s : State), ((s.regions[r]).resync = true → exec (.gwResyncDone r) s =
      .next (s.modRegion r (fun x => { x with resync := false, restarts := [] }))) ∧ ((s.regions[r]).resync = false → exec (.gwResyncDone r) s = .next s)) ∧
  (∀ (k : Fin 8) (s : State),
    ((s.plls[k]).div ≠ 0 → exec (.pllLock k) s = .next { s with plls := vmod s.plls k (fun p =>
      { p with locked := true, lockedOnce := true, phase := Vector.replicate 4 0 }) }) ∧
    ((s.plls[k]).div = 0 → exec (.pllLock k) s = .next s) ∧
    ((s.plls[k]).locked = false → exec (.pllUnlock k) s = .next s) ∧
    ((s.plls[k]).locked = true → (s.plls[k]).lockedOnce = true → ∃ u, exec (.pllUnlock k) s = .next u ∧ (u.plls[k]).locked = false ∧ (u.plls[k]).unlock = true
      ∧ (∀ j : Fin 8, j ≠ k → u.plls[j] = s.plls[j]) ∧ u.cals = s.cals))

/-- TELEMETRY_READ writes a header of 16 bytes and the group's body to the host (80 bytes for group 1, 1,040 for 2, 240
for 3), and is refused for a group that is not listed or too small a buffer; POWER_CAP_SET takes a cap; SETUP_WRITE
waits for the flash and for one that started before it, checks the image and begins a program of the copy the boot did
not use, with the next GEN; ATTEST writes a report over its nonce and keeps the nonce; an ATTEST held for two seconds
by an open update completes with RETRY_LATER. Completes (exec answers a next state with the own effect of the form):
telemetryRead, powerCapSet, setupWrite, attest, attestHoldTimeout. -/
def Obligations.TelemetryCapSetupAndAttestation : Prop :=
  (∀ (cmd : Nat) (k : Cmd) (s : State), s.findCmd cmd = some k → k.phase = .started → k.begun = false →
    (pkOpcode k.packet = 0x90 →
      (∀ b, s.telemetryBody (rnum k.packet 0x10 0 16) s.draw.1 = some b → 16 + b.length ≤ rnum k.packet 0x20 0 32 → rnum k.packet 0x10 0 16 ≠ 6 →
        ∃ h : List Byte, h.length = 16 ∧ exec (.telemetryRead cmd) s =
          .next ((s.emit (.write (rfld k.packet 0x18 0 64) (h ++ b) false false)).complete k.serial 0 0 (BitVec.ofNat 32 (16 + b.length)) 0)) ∧
      (∀ g n : Nat, rnum k.packet 0x10 0 16 = g → g = 1 ∧ n = 80 ∨ g = 2 ∧ n = 1040 ∨ g = 3 ∧ n = 240 → n ≤ rnum k.packet 0x20 0 32 →
        ∃ b : List Byte, b.length = n ∧ exec (.telemetryRead cmd) s =
          .next ((s.emit (.write (rfld k.packet 0x18 0 64) b false false)).complete k.serial 0 0 (BitVec.ofNat 32 n) 0)) ∧
      (∀ b, s.telemetryBody (rnum k.packet 0x10 0 16) s.draw.1 = some b → rnum k.packet 0x20 0 32 < 16 + b.length → exec (.telemetryRead cmd) s =
        .next (s.badParam k.serial 8 0x20)) ∧
      (s.telemetryBody (rnum k.packet 0x10 0 16) s.draw.1 = none → exec (.telemetryRead cmd) s = .next (s.badParam k.serial 8 0x10))) ∧
    (pkOpcode k.packet = 0xA0 → exec (.powerCapSet cmd) s =
      .next ((s.modPwr (fun p => { p with cap := rfld k.packet 0x10 0 16 })).complete k.serial 0 0 ((rfld k.packet 0x10 0 16 : BitVec 16).toNat) 0)) ∧
    (∀ img : BitVec 32768, pkOpcode k.packet = 0xF0 →
      (s.pwr.flash.op.isSome = true → exec (.setupWrite cmd img) s = .next s) ∧
      (∀ j ∈ s.cp.cmds, j.phase = .started → pkOpcode j.packet = 0xF0 → j.startNo < k.startNo → exec (.setupWrite cmd img) s = .next s) ∧
      (s.pwr.flash.op = none → (∀ j ∈ s.cp.cmds, j.phase = .started → pkOpcode j.packet = 0xF0 → k.startNo ≤ j.startNo) →
        (∀ o, firstBad (suChecks img) = some o → exec (.setupWrite cmd img) s = .next (s.badData k.serial 8 o)) ∧
        (firstBad (suChecks img) = none → ∃ (u : State) (copy : Fin 2) (r : SetupRec), exec (.setupWrite cmd img) s = .next u
          ∧ u.pwr.flash.op = some (.programSetup k.serial copy r 0) ∧ s.pwr.setupCopy.toNat ≠ copy.val ∧ u.pwr.flash.setups = s.pwr.flash.setups
          ∧ (s.pwr.setupCopy = 3 → r = suSeal img 1) ∧ (s.pwr.setupCopy ≠ 3 → r = suSeal img (s.pwr.setupGen + 1))))) ∧
    (∀ n : BitVec 256, pkOpcode k.packet = 0x60 → rfld k.packet 0x10 0 256 = n →
      (s.sec.lifecycle = 3 → exec (.attest cmd) s = .next (s.badParam k.serial 8 0)) ∧
      (s.sec.lifecycle ≠ 3 → rnum k.packet 0x38 0 32 < s.reportLen → exec (.attest cmd) s = .next (s.badParam k.serial 8 0x38)) ∧
      (s.sec.lifecycle ≠ 3 → s.reportLen ≤ rnum k.packet 0x38 0 32 → ∃ u, exec (.attest cmd) s = .next u
        ∧ u = { s with cp := u.cp, sec := { s.sec with nonces := (n :: s.sec.nonces).take 16 } }
        ∧ u.cp.out = s.cp.out ++ [.write (rfld k.packet 0x30 0 64) (s.report384 n k.heldSince.isSome) false false]))) ∧
  (∀ (cmd : Nat) (k : Cmd) (t : Nat) (s : State), s.findCmd cmd = some k → k.heldSince = some t → k.phase = .fetched → pkOpcode k.packet = 0x60 →
    s.cp.fwOpen = true → (t + 312500000 ≤ s.now → exec (.attestHoldTimeout cmd) s = .next (s.complete k.serial 0x50 0 0 0)) ∧
      (s.now < t + 312500000 → exec (.attestHoldTimeout cmd) s = .next s))

/-- The firmware update. BEGIN opens it for the slot not running and begins the erase; DATA programs the next chunk;
COMMIT verifies the image and makes its slot active at the next boot, or rolls back at the offset that fails; sixty
seconds without DATA or COMMIT roll back; a finished operation completes its command, and a setup record that reads
back twice wrong completes with INTERNAL_ERROR. Completes (exec answers a next state with the own effect of the form):
fwUpdateBegin, fwUpdateData, fwUpdateTimeout, flashOperationDone. -/
def Obligations.FirmwareUpdates : Prop :=
  (∀ (cmd : Nat) (k : Cmd) (s : State), s.findCmd cmd = some k → k.phase = .started → k.begun = false →
    (pkOpcode k.packet = 0x80 →
      (s.cp.fwOpen = true → exec (.fwUpdateBegin cmd) s = .next (s.badParam k.serial 8 0)) ∧
      (s.cp.fwOpen = false → rnum k.packet 0x10 0 4 = 0 → 672 ≤ rnum k.packet 0x14 0 32 → rnum k.packet 0x14 0 32 ≤ 268435456 → s.pwr.flash.op = none →
        ∃ (u : State) (x : FwUpdate), exec (.fwUpdateBegin cmd) s = .next u ∧ u.cp.fwOpen = true ∧ u.pwr.flash.op = some (.eraseSlot k.serial)
          ∧ u.pwr.update = some x ∧ x.total = rnum k.packet 0x14 0 32 ∧ x.data = [] ∧ x.lastTick = s.now
          ∧ (s.fwSlot = 0 → x.target = 1) ∧ (s.fwSlot = 1 → x.target = 0))) ∧
    (∀ (d : List Byte), pkOpcode k.packet = 0x81 → (s.pwr.update = none → exec (.fwUpdateData cmd d) s = .next (s.badParam k.serial 8 0)) ∧
      (∀ x, s.pwr.update = some x → s.pwr.flash.op = none →
        (rnum k.packet 0x14 0 32 ≠ x.data.length → exec (.fwUpdateData cmd d) s = .next (s.badParam k.serial 8 0x14)) ∧
        (rnum k.packet 0x14 0 32 = x.data.length → x.data.length + rnum k.packet 0x20 0 32 ≤ x.total → d.length = rnum k.packet 0x20 0 32 →
          ∃ u, exec (.fwUpdateData cmd d) s = .next u ∧ u.pwr.flash.op = some (.programData k.serial d)
            ∧ u.pwr.update = some x)) ∧
      (∀ x, s.pwr.update = some x → s.pwr.flash.op.isSome = true → exec (.fwUpdateData cmd d) s = .next s)) ∧
    (∀ x, pkOpcode k.packet = 0x82 → s.pwr.update = some x → s.pwr.flash.op = none → ∃ u, exec (.fwUpdateCommit cmd) s = .next u ∧
      (∀ o, s.commitBad x = some o → u = (s.badData k.serial 8 o).rollBack) ∧
      (s.commitBad x = none → u.pwr.updatePending = true ∧ u.pwr.update = none ∧ u.cp.fwOpen = false
        ∧ u.pwr.flash = s.pwr.flash.writePtr x.target.val (if s.fwSlot < 2 then some s.fwSlot else none) ∧ u.pwr.event.getLsbD 8 = true
        ∧ u.pwr.lastNextDigest = sha384 (x.data.take 0x2A0)))) ∧
  (∀ (n : Nat) (k : Cmd) (s : State), s.findCmd n = some k → pkOpcode k.packet = 0x81 ∨ pkOpcode k.packet = 0x82 →
    (s.noteStart n).pwr.update = s.pwr.update.map (fun x => { x with lastTick := s.now })) ∧
  (∀ (s : State), (s.rollBack).cp.fwOpen = false ∧ (s.rollBack).pwr.update = none ∧ (s.rollBack).pwr.event.getLsbD 9 = true) ∧
  (∀ (x : FwUpdate) (s : State), s.pwr.update = some x →
    (x.lastTick + 9375000000 ≤ s.now → exec .fwUpdateTimeout s = .next s.rollBack) ∧ (s.now < x.lastTick + 9375000000 → exec .fwUpdateTimeout s = .next s)) ∧
  (∀ (s : State), (s.pwr.flash.op = none → ∀ ok, exec (.flashOperationDone ok) s = .next s) ∧
    (∀ cmd, s.pwr.flash.op = some (.eraseSlot cmd) → ∀ ok, exec (.flashOperationDone ok) s = .next (s.flashIdle.putSlot.completeOk cmd)) ∧
    (∀ cmd d x, s.pwr.flash.op = some (.programData cmd d) → s.pwr.update = some x → ∃ u, exec (.flashOperationDone true) s = .next u
      ∧ u.pwr.update = some { x with data := x.data ++ d } ∧ u.pwr.flash.op = none
      ∧ u.pwr.flash.slots = vset s.pwr.flash.slots (Fin.ofNat 3 x.target.val) (some (x.data ++ d))) ∧
    (∀ cmd copy img t, s.pwr.flash.op = some (.programSetup cmd copy img t) →
      (∃ u, exec (.flashOperationDone true) s = .next u ∧ u.pwr.flash.setups = vset s.pwr.flash.setups copy img ∧ u.pwr.setupPending = true
        ∧ u.pwr.flash.op = none) ∧
      (t = 0 → ∃ u, exec (.flashOperationDone false) s = .next u ∧ u.pwr.flash.op = some (.programSetup cmd copy img 1)
        ∧ u.pwr.flash.setups = s.pwr.flash.setups) ∧
      (t ≠ 0 → ∃ u x, exec (.flashOperationDone false) s = .next u ∧ u.pwr.flash.op = none
        ∧ u.pwr.flash.setups = vset s.pwr.flash.setups copy (Config.flashResidue x) ∧ u.pwr.setupPending = s.pwr.setupPending)))

/-- R203. A warm reset loses the memory contents and leaves a FAILED stack FAILED with its cause; when the memory phase of
bring-up begins, every stack that is not FAILED trains from step 1 and a FAILED one is left as it is; a cold reset
leaves no stack FAILED, so that phase retries it. -/
def Obligations.WarmResetRetrainsStacks : Prop :=
  (∀ (c : Nat) (s : State) (k : Fin 8), (s.warmReset c).hbm = [] ∧
    ((s.hbmStacks[k]).st = 3 → ((s.warmReset c).hbmStacks[k]).st = 3 ∧ ((s.warmReset c).hbmStacks[k]).cause = (s.hbmStacks[k]).cause) ∧
    ((s.hbmStacks[k]).st ≠ 3 → ((s.warmReset c).hbmStacks[k]).st ≠ 3)) ∧
  (∀ s : State, s.running = true → s.pwr.phase = 5 → (∀ n : Fin 64, n.val < 8 → (s.cals[n]).zeroing = false) → ∃ u, exec .bringUpPhase s = .next u
    ∧ u = { s with hbmStacks := u.hbmStacks, pwr := { s.pwr with phase := 6 } } ∧ ∀ k : Fin 8,
      ((s.hbmStacks[k]).st ≠ 3 → (u.hbmStacks[k]).st = 1 ∧ (u.hbmStacks[k]).step = 1 ∧ (u.hbmStacks[k]).attempts = 1) ∧
      ((s.hbmStacks[k]).st = 3 → u.hbmStacks[k] = s.hbmStacks[k])) ∧
  (∀ (c : Nat) (s : State) (k : Fin 8), ((s.coldReset c).hbmStacks[k]).st = 0)

/-- R306. A write of GLB_RESET is answered OK and its reset begins after the answer, for a writer over the control network
once its RSP has arrived; with KEY = 0xD05E and exactly one of WARM and COLD it resets, any other write is ignored; a
cold reset leaves its own cause alone in GLB_RESET_CAUSE, a warm one sets its bit and keeps the others. Completes
(exec answers a next state with the own effect of the form): glbResetWarm, glbResetCold, registerWrite. -/
def Obligations.GlbResetStartsAReset : Prop :=
  (∀ (w : Word) (s : State), s.running = true → s.winOpen .glb 0x20 = true →
    exec (.glbResetWarm w) s = .next (s.glbReset w) ∧ exec (.glbResetCold w) s = .next (s.glbReset w)) ∧
  (∀ (v : DWord) (s : State), s.hostUp = true → s.sec.lifecycle ≠ 4 → s.byPacket 0x20 = false → s.mustWait pcieNode (s.addrNode 0x20) = false → exec (.registerWrite 0x20 .b32 v) s =
    .next ((s.emit (.accessStatus 0)).glbReset (v.setWidth 32))) ∧
  (∀ (p : Word × Data256) (s : State), hdType p.1 = 1 → npAddr p.2 = 0x20 → glbResets (fld (npData p.2) 0 32) = true →
    s.resetAfter p 0 = { s with resetDue := some (.rsp (hdSrc p.1) (npTag p.2), fld (npData p.2) 0 32) }) ∧
  (∀ (w : ResetAfter) (v : Word) (s : State), s.resetDue = some (w, v) → (w.gone s = false → s.resetNow = s) ∧
    (w.gone s = true → s.resetNow = ({ s with resetDue := none } : State).glbReset v)) ∧
  (∀ (w : Word) (s : State),
    (nfld w 16 16 = 0xD05E → bitAt w 0 = true → bitAt w 1 = false → s.glbReset w = s.warmReset 5) ∧
    (nfld w 16 16 = 0xD05E → bitAt w 0 = false → bitAt w 1 = true → s.glbReset w = s.coldReset 2) ∧
    (nfld w 16 16 ≠ 0xD05E ∨ bitAt w 0 = bitAt w 1 → s.glbReset w = s)) ∧
  (∀ (c : Nat) (s : State), (s.coldReset c).glb.resetCause = BitVec.twoPow 6 c ∧
    (s.warmReset c).glb.resetCause = s.glb.resetCause ||| BitVec.twoPow 6 c)

/-- What the resets leave. Every reset keeps the waiting commands, the fuses and the time; a warm one also the beat count,
GLB_SCRATCH and the bad-block log; a cold one starts from phase 1 with its cause alone. An FLR and PERST_N cause warm
resets; COLD_RST_N low for 10 µs a cold one, below 1 µs it is ignored (at PWR_OK low only the pin is noted); a power
loss and a thermal trip lose the volatile state, THERMTRIP_N going low at 115 °C; PWR_OK is a cold reset, of cause
COLD_PIN where COLD_RST_N is low, that starts phase 1 and frees THERMTRIP_N unless the trip still holds (log 138), and
a cold reset's beats are counted from it. A partition reset with its key marks the partition RESETTING and makes a
scrub of its contexts that none scrubs yet due; without the key, or while it is RESETTING, it is ignored. Work that
outlasts its budget ends the scrub with SCRUB_OVERRUN once it is done. Completes (exec answers a next state with the
own effect of the form): functionLevelReset, perst, perstRelease, coldResetPin, coldResetRelease, powerLoss,
powerGood, thermalTrip, partitionReset, scrubWorkDone. -/
def Obligations.ResetsAndScrubs : Prop :=
  ((∀ (c : Nat) (s : State), (s.warmReset c).pending = s.pending ∧ (s.warmReset c).now = s.now ∧ (s.warmReset c).glb.beatCnt = s.glb.beatCnt
    ∧ (s.warmReset c).glb.scratch = s.glb.scratch ∧ (s.warmReset c).glb.bbl = s.glb.bbl
    ∧ (s.warmReset c).plans = [] ∧ (s.warmReset c).cp.cmds = []
    ∧ (s.warmReset c).sec.lifecycle = s.sec.lifecycle ∧ (s.warmReset c).sec.svn = s.sec.svn ∧ (s.warmReset c).glb.floorPace = s.glb.floorPace) ∧
  (∀ (c : Nat) (s : State), (s.coldReset c).pending = s.pending ∧ (s.coldReset c).now = s.now ∧ (s.coldReset c).glb.beatCnt = 0
    ∧ (s.coldReset c).hbm = [] ∧ (s.coldReset c).glb.resetCause = BitVec.twoPow 6 c ∧ (s.coldReset c).pwr.phase = 1 ∧ (s.coldReset c).glb.scratch = 0
    ∧ (s.coldReset c).sec.lifecycle = s.sec.lifecycle ∧ (s.coldReset c).plans = []) ∧
  (∀ s : State, (s.portUp = true → exec .functionLevelReset s = .next (s.warmReset 4)) ∧ (s.portUp = false → exec .functionLevelReset s = .next s)) ∧
  (∀ s : State, s.pins.perstN = true → s.running = true → exec .perst s =
    .next { s.warmReset 3 with pins := { (s.warmReset 3).pins with perstN := false } }) ∧
  (∀ s : State, s.pins.perstN = false → (s.running = true → s.pwr.phase = 1 → s.pwr.phaseDone = true → ∃ u, exec .perstRelease s = .next u
      ∧ u = { s with pins := { s.pins with perstN := true }, pwr := { s.pwr with phase := 2, phaseDone := false } }) ∧
    (s.pwr.phase ≠ 1 → exec .perstRelease s = .next { s with pins := { s.pins with perstN := true } })) ∧
  (∀ (n : Nat) (s : State), s.pins.pwrOk = true → (n < 1000 → exec (.coldResetPin n) s = .next s) ∧
    (10000 ≤ n → ∃ u, exec (.coldResetPin n) s = .next u ∧ u.pins.coldRstN = false ∧ u.glb.resetCause = 2 ∧ u.pwr.phase = 1 ∧ u.hbm = []
      ∧ u.pwr.tripped = s.pwr.tripped)) ∧
  (∀ (n : Nat) (s : State), s.pins.pwrOk = false → 1000 ≤ n →
    exec (.coldResetPin n) s = .next { s with pins := { s.pins with coldRstN := false } }) ∧
  (∀ s : State, s.pins.coldRstN = false → exec .coldResetRelease s =
    .next { s with pins := { s.pins with coldRstN := true }, pwr := { s.pwr with phase := 1, phaseDone := false }
                   glb := { s.glb with beatStart := s.now, source := { s.glb.source with lastEmit := s.now } } }) ∧
  (∀ s : State, ∃ u, exec .powerLoss s = .next u ∧ u.pins.pwrOk = false ∧ u.hbm = [] ∧ u.plans = [] ∧ u.glb.beatCnt = 0 ∧ u.pwr.tripped = s.pwr.tripped) ∧
  (∀ s : State, s.pins.pwrOk = false → ∃ u, exec .powerGood s = .next u ∧ u.pins.pwrOk = true ∧ u.pins.thermtripN = !u.pwr.tripped ∧ u.pwr.phase = 1
    ∧ u.pwr.phaseDone = false ∧ (s.pwr.tripped = false → u.pwr.tripped = false) ∧ u.glb.resetCause = (if s.pins.coldRstN then 1 else 2) ∧ u.glb.beatCnt = 0 ∧ u.glb.beatStart = s.now
    ∧ u.glb.source.lastEmit = s.now ∧ u.hbm = [] ∧ u.plans = []) ∧
  (∀ s : State, (s.running = true → (∃ i : Fin 96, 460 ≤ (s.pwr.temps[i] : BitVec 16).toInt) → ∃ u, exec .thermalTrip s = .next u ∧ u.pins.thermtripN = false
      ∧ u.pwr.tripped = true ∧ u.running = false ∧ u.hbm = []) ∧
    ((∀ i : Fin 96, (s.pwr.temps[i] : BitVec 16).toInt < 460) → exec .thermalTrip s = .next s))) ∧
  ((∀ (w : Word) (s : State), s.winOpen .sec 0x20 = true → ∀ p : Fin 8, p.val = nfld w 0 3 →
    (nfld w 16 16 ≠ 0xD05E ∨ bitAt w 3 = false ∨ (s.sec.parts[p]).resetting = true → exec (.partitionReset w) s = .next s) ∧
    (nfld w 16 16 = 0xD05E → bitAt w 3 = true → (s.sec.parts[p]).resetting = false → s.cp.cmds = [] → ∃ (u : State) (x : Scrub),
      exec (.partitionReset w) s = .next u ∧ (u.sec.parts[p]).resetting = true ∧ u.sec.scrubs = s.sec.scrubs ++ [x] ∧ x.part = some p
        ∧ x.ctxs = ((s.ctxsOf p).filter (fun e => !e.2.scrubbing)).map (fun e => BitVec.ofNat 8 e.1) ∧ x.cmd = none ∧ x.startBeat = none)) ∧
  (∀ (c : Byte) (sc : Scrub) (s : State), s.sec.scrubs.find? (fun x => x.startBeat.isSome && x.ctxs.contains c) = some sc →
    (sc.late = false ∨ s.scrubWorks sc = true → exec (.scrubWorkDone c) s = .next s) ∧
    (sc.late = true → s.scrubWorks sc = false → ∃ u, exec (.scrubWorkDone c) s = .next u ∧ u.sec.event.getLsbD 1 = true
      ∧ sc ∉ u.sec.scrubs ∧ u.sec.scrubBudget = BitVec.ofNat 64 sc.budget ∧ ∀ e ∈ u.sec.ctxs, ∀ i ∈ sc.ctxs, i.toNat ≠ e.1)))

/-- Bring-up: phase 1 waits for PERST_N; a decommissioned device stops after phase 2; phase 3 without an image that boots
sets BOOT_FAIL and stays; phase 5 waits for the ember calderas, 6 for the stacks, 7 for the ports; phase 9 burns one
fuse bit toward its target. Completes (exec answers a next state with the own effect of the form): bringUpPhase. -/
def Obligations.BringUpPhases : Prop :=
  ∀ s : State, (s.running = false → exec .bringUpPhase s = .next s) ∧
    (s.running = true →
      (s.pwr.phase = 1 → (s.pins.perstN = true → exec .bringUpPhase s = .next (s.modPwr (fun p => { p with phase := 2, phaseDone := false }))) ∧
        (s.pins.perstN = false → exec .bringUpPhase s = .next (s.modPwr (fun p => { p with phaseDone := true })))) ∧
      (s.pwr.phase = 2 → (s.pins.perstN = true → s.sec.lifecycle ≠ 4 → exec .bringUpPhase s = .next (s.modPwr (fun p => { p with phase := 3 }))) ∧
        (s.sec.lifecycle = 4 → exec .bringUpPhase s = .next s)) ∧
      (s.pwr.phase = 3 → (s.pwr.bootFail = true → exec .bringUpPhase s = .next s) ∧
        (s.pwr.bootFail = false → ∃ u, exec .bringUpPhase s = .next u ∧
          ((∀ i ∈ s.pwr.flash.candidates, slotBoots s.sec.svn (s.pwr.flash.slot i) = false) → u.pwr.bootFail = true ∧ u.pwr.phase = 3) ∧
          ∀ i rest, s.pwr.flash.candidates = i :: rest → slotBoots s.sec.svn (s.pwr.flash.slot i) = true →
            u.pwr.phase = 4 ∧ u.pwr.updatePending = false ∧ (u.fwSlot = i.val) ∧ u.sec.digests[(0 : Fin 3)] = (drDigest (s.pwr.flash.slot i) 1).getD 0)) ∧
      (s.pwr.phase = 4 → ∃ u, exec .bringUpPhase s = .next u ∧ u.pwr.phase = 5 ∧ (∀ n : Fin 64, (n.val < 8 → (u.cals[n]).zeroing = true)
        ∧ (8 ≤ n.val → (u.cals[n]).gated = true)) ∧ (s.pwr.flash.setupCopy = none → u.pwr.setupDefaulted = true ∧ u.sec.parts = defaultLayout)) ∧
      (s.pwr.phase = 5 → (∀ n : Fin 64, n.val < 8 → (s.cals[n]).zeroing = false) → ∃ u, exec .bringUpPhase s = .next u ∧ u.pwr.phase = 6
        ∧ ∀ k : Fin 8, (s.hbmStacks[k]).st ≠ 3 → (u.hbmStacks[k]).st = 1) ∧
      (s.pwr.phase = 5 → (∃ n : Fin 64, n.val < 8 ∧ (s.cals[n]).zeroing = true) → exec .bringUpPhase s = .next s) ∧
      (s.pwr.phase = 6 → (∀ k : Fin 8, (s.hbmStacks[k]).st ≠ 1) → ∃ u, exec .bringUpPhase s = .next u ∧ u.pwr.phase = 7
        ∧ ∀ (p : Fin 12) (w : Fin 32), ((u.ports[p]).permit[w]) = 0xFFFFFFFF#32) ∧
      (s.pwr.phase = 7 → (∀ p : Fin 12, (s.ports[p]).st ≠ .training) → exec .bringUpPhase s = .next (s.modPwr (fun p => { p with phase := 8, phaseDone := false }))) ∧
      (s.pwr.phase = 8 → s.pwr.phaseDone = true → exec .bringUpPhase s = .next s) ∧
      (s.pwr.phase = 8 → s.pwr.phaseDone = false → exec .bringUpPhase s = .next (s.selectLogic.modPwr (fun p => { p with phaseDone := true }))) ∧
      (s.pwr.phase = 9 → (s.sec.svn < s.svnTarget → s.sec.svn < 128 → ∃ u, exec .bringUpPhase s = .next u ∧ u.sec.svn = s.sec.svn + 1 ∧ u.sec.event.getLsbD 3 = true) ∧
        (s.svnTarget ≤ s.sec.svn → exec .bringUpPhase s = .next s)))

/-- The power cap. Every 100 µs the target falls by 5 mV, not below 600, while the average passes the cap, and rises by 5
mV up to the operating voltage below 97 % of it, and each die's rail then steps by at most 5 mV upward to it; the
current limit falls by 5 % each ms, not below a quarter, after 10 ms at the lowest target, and rises back. Squalls and
rails. A squall begins on a caldera that has none, where the current passes the effective limit or one of its sensors
reads 100 °C, is counted and limits the pace; its die's rail falls by 25 mV at once and every 100 µs, not below 600
mV; it ends after 100 µs of calm. A rail whose reading lies out of range for 1 ms, or that does not answer twice, is a
fault; a voltage write that was not acknowledged is sent once more. Completes (exec answers a next state with the own
effect of the form): capControl, ilimStep, squallBegin, squallEnd, squallRailStep, avsPoll, avsRetry. -/
def Obligations.PowerCapSquallsAndRails : Prop :=
  ((∀ avg cap t v : Nat, (cap < avg → capStep avg cap t v = max 600 (t - 5)) ∧ (avg ≤ cap → 100 * avg < 97 * cap → capStep avg cap t v = min v (t + 5)) ∧
    (avg ≤ cap → 97 * cap ≤ 100 * avg → capStep avg cap t v = min v t)) ∧
  (∀ (avg : BitVec 16) (s : State), (s.running = false ∨ s.now < s.pwr.capAt + 15625 → exec (.capControl avg) s = .next s) ∧
    (s.running = true → s.pwr.capAt + 15625 ≤ s.now → ∃ u, exec (.capControl avg) s = .next u ∧ u = { s with pwr := u.pwr } ∧ u.pwr.capAt = s.now
      ∧ u.pwr.capTarget = BitVec.ofNat 16 (capStep avg.toNat s.pwr.cap.toNat s.pwr.capTarget.toNat (max 600 s.pwr.vop.toNat))
      ∧ (avg.toNat ≤ s.pwr.cap.toNat → u.pwr.overSince = none) ∧ u.pwr.cap = s.pwr.cap ∧ u.pwr.ilimEff = s.pwr.ilimEff
      ∧ ∀ (d : Fin 2) (r : Fin 13), r.val = d.val → ((u.pwr.rails[r] : Rail).target).toNat =
          (if s.dieSquall d.val then min ((s.pwr.rails[r] : Rail).target).toNat (if s.cp.ember then 600 else u.pwr.capTarget.toNat)
           else min (if s.cp.ember then 600 else u.pwr.capTarget.toNat) (((s.pwr.rails[r] : Rail).target).toNat + 5)) % 65536)) ∧
  (∀ s : State, (s.running = false ∨ s.now < s.pwr.ilimAt + 156250 → exec .ilimStep s = .next s) ∧
    (∀ t, s.running = true → s.pwr.ilimAt + 156250 ≤ s.now → s.pwr.overSince = some t → t + 1562500 ≤ s.now → ∃ u, exec .ilimStep s = .next u
      ∧ u.pwr.ilimEff = BitVec.ofNat 16 (max (s.pwr.ilim.toNat / 4) (s.pwr.ilimEff.toNat - s.pwr.ilim.toNat * 5 / 100)) ∧ u.pwr.capLimiting = true
      ∧ u.pwr.event.getLsbD 2 = true) ∧
    (∀ t, s.running = true → s.pwr.ilimAt + 156250 ≤ s.now → s.pwr.overSince = none → s.pwr.capLimiting = true → s.pwr.underSince = some t → t + 1562500 ≤ s.now →
      exec .ilimStep s = .next (s.modPwr (fun p => { p with
        ilimAt := s.now, ilimEff := BitVec.ofNat 16 (min s.pwr.ilim.toNat (s.pwr.ilimEff.toNat + s.pwr.ilim.toNat * 5 / 100))
        capLimiting := decide (min s.pwr.ilim.toNat (s.pwr.ilimEff.toNat + s.pwr.ilim.toNat * 5 / 100) ≠ s.pwr.ilim.toNat) }))))) ∧
  ((∀ (n : Fin 64) (s : State), ((s.cals[n]).squall.isSome = true ∨ s.running = false → ∀ z, exec (.squallBegin n z) s = .next s) ∧
    (∀ a : BitVec 16, a.toNat ≤ s.pwr.ilimEff.toNat → exec (.squallBegin n (.current a)) s = .next s) ∧
    ((∀ i ∈ sensorsOf n, (s.pwr.temps[i] : BitVec 16).toInt < 400) → exec (.squallBegin n .thermal) s = .next s) ∧
    (∀ a : BitVec 16, s.running = true → (s.cals[n]).squall = none → s.pwr.ilimEff.toNat < a.toNat → ∃ u, exec (.squallBegin n (.current a)) s = .next u
      ∧ u.pwr.squallCnt = satInc s.pwr.squallCnt
      ∧ u.cals[n] = { s.cals[n] with squall := some { thermal := false, since := s.now, entryCurrent := a }, limited := true }
      ∧ (∀ m : Fin 64, m ≠ n → u.cals[m] = s.cals[m]) ∧ u.pwr.event.getLsbD 0 = true) ∧
    (∀ i ∈ sensorsOf n, s.running = true → (s.cals[n]).squall = none → 400 ≤ (s.pwr.temps[i] : BitVec 16).toInt → ∃ u, exec (.squallBegin n .thermal) s = .next u
      ∧ u.pwr.squallCnt = satInc s.pwr.squallCnt
      ∧ u.cals[n] = { s.cals[n] with squall := some { thermal := true, since := s.now, entryCurrent := (s.cals[n]).amps }, limited := true }
      ∧ (∀ m : Fin 64, m ≠ n → u.cals[m] = s.cals[m]) ∧ u.pwr.event.getLsbD 1 = true)) ∧
  (∀ (n : Fin 64) (s : State), ((s.cals[n]).squall = none → exec (.squallEnd n) s = .next s) ∧
    (∀ q t, (s.cals[n]).squall = some q → q.calmSince = some t → (t + 15625 ≤ s.now → exec (.squallEnd n) s = .next (s.modCal n (fun c => { c with squall := none })))
      ∧ (s.now < t + 15625 → exec (.squallEnd n) s = .next s))) ∧
  (∀ (die : Bool) (d : Fin 2) (r : Fin 13) (s : State), d.val = (if die then 1 else 0) → r.val = (if die then 1 else 0) →
    (s.squallStart d.val = none → exec (.squallRailStep die) s = .next s) ∧
    (∀ t, s.squallStart d.val = some t → (s.running = true → s.pwr.railAt[d] ≤ t ∨ s.pwr.railAt[d] + 15625 ≤ s.now + 1 → ∃ u, exec (.squallRailStep die) s = .next u
        ∧ u = { s with pwr := u.pwr } ∧ ((u.pwr.rails[r] : Rail).target).toNat = max 600 (((s.pwr.rails[r] : Rail).target).toNat - 25) ∧ u.pwr.railAt[d] = s.now + 1) ∧
      (t < s.pwr.railAt[d] → s.now + 1 < s.pwr.railAt[d] + 15625 → exec (.squallRailStep die) s = .next s))) ∧
  (∀ (r : Fin 13) (mv cur : BitVec 16) (s : State), s.running = true →
    (exec (.avsPoll r mv cur false) s = .next (s.modPwr (fun p => { p with rails := vmod p.rails r (fun x => { x with retry := true }) }))) ∧
    (railInRange r s.pwr.rails[r] mv.toNat = true → ∃ u, exec (.avsPoll r mv cur true) s = .next u ∧ u = { s with pwr := { s.pwr with rails := u.pwr.rails } }
      ∧ (u.pwr.rails[r] : Rail) = { (s.pwr.rails[r] : Rail) with mv := mv, current := cur, retry := false, badSince := none }) ∧
    (∀ t, railInRange r s.pwr.rails[r] mv.toNat = false → (s.pwr.rails[r] : Rail).badSince = some t → t + 156250 ≤ s.now → ∃ u,
      exec (.avsPoll r mv cur true) s = .next u ∧ u.pwr.event.getLsbD 3 = true ∧ (u.pwr.rails[r] : Rail).mv = mv) ∧
    ((s.pwr.rails[r] : Rail).retry = false → (s.pwr.rails[r] : Rail).wrote = none → ∀ a, exec (.avsRetry r a) s = .next s) ∧
    ((s.pwr.rails[r] : Rail).retry = true → (∀ a, a = .ack ∨ a = .none → ∃ u, exec (.avsRetry r a) s = .next u ∧ u.pwr.event.getLsbD 3 = true
        ∧ (u.pwr.rails[r] : Rail).retry = false) ∧
      exec (.avsRetry r (.reading mv cur)) s = exec (.avsPoll r mv cur true) s) ∧
    (∀ t, (s.pwr.rails[r] : Rail).retry = false → (s.pwr.rails[r] : Rail).wrote = some t → s.now ≤ t + 156 →
      (∃ u, exec (.avsRetry r .ack) s = .next u ∧ (u.pwr.rails[r] : Rail).wrote = none
        ∧ u.pwr.avsOut = s.pwr.avsOut ++ [(r, (s.pwr.rails[r] : Rail).target)] ∧ u.pwr.event = s.pwr.event) ∧
      ∃ u, exec (.avsRetry r .none) s = .next u ∧ u.pwr.event.getLsbD 3 = true ∧ u.pwr.avsOut = s.pwr.avsOut ++ [(r, (s.pwr.rails[r] : Rail).target)])) ∧
  (∀ (r : Fin 13) (mv cur : BitVec 16) (b : Bool) (a : AvsAnswer) (s : State), s.running = false → exec (.avsPoll r mv cur b) s = .next s ∧
    exec (.avsRetry r a) s = .next s))

/-- The event log, the sensors, the sideband and JTAG. POP removes the oldest record, CLEAR all and the drop count; an
event beyond 64 records is dropped and counted; a sample sets its reading, and a caldera of a confidential context
reports zeros; IDCODE shifts out GLB_IDCODE; with a confidential context a debug instruction acts as BYPASS; a signed
token moves the lifecycle only forward, and a boundary scan drives the pins the scan names; a sideband write that
carries no MCTP packet does nothing. Completes (exec answers a next state with the own effect of the form): evtPop,
evtClear, telemetrySample, jtagAccess, sidebandMessage. -/
def Obligations.EventsSensorsSidebandAndJtag : Prop :=
  (∀ s : State, exec .evtPop s = .next (s.modPwr (fun p => { p with evlog := p.evlog.pop })) ∧
    exec .evtClear s = .next (s.modPwr (fun p => { p with evlog := p.evlog.clear }))) ∧
  (∀ (l : RingLog (BitVec 256)) (r : BitVec 256), (64 ≤ l.recs.length → (l.push r).recs = l.recs ∧ (l.push r).drop = satInc l.drop) ∧
    (l.recs.length < 64 → (l.push r).recs = l.recs ++ [r] ∧ (l.push r).oldest = l.oldest) ∧ (∀ x t, l.recs = x :: t → l.pop.recs = t ∧ l.pop.oldest = l.oldest + 1)
    ∧ l.clear.recs = [] ∧ l.clear.drop = 0) ∧
  (∀ (s : State), (∀ w, exec (.telemetrySample (.input w)) s = .next (s.modPwr (fun p => { p with input := w }))) ∧
    (∀ n cur mv, ∃ u, exec (.telemetrySample (.caldera n cur mv)) s = .next u ∧ OnlyCal n s u
      ∧ (s.confCal n = false → (u.cals[n]).current = cur ∧ (u.cals[n]).mv = mv) ∧ (s.confCal n = true → (u.cals[n]).current = 0 ∧ (u.cals[n]).mv = 0)) ∧
    (∀ i t, ∃ u, exec (.telemetrySample (.junction i t)) s = .next u ∧ u.pwr.temps = vset s.pwr.temps i t
      ∧ u.pwr.tjMax = (if s.pwr.tjMax.toInt < t.toInt then t else s.pwr.tjMax)) ∧
    (∀ p l h w, exec (.telemetrySample (.eye p l h w)) s = .next (s.modPort p (fun q => { q with lanes := vmod q.lanes l (fun x => { x with eyeH := h, eyeW := w }) })))) ∧
  (∀ s : State, s.running = true → s.pins.tapOn = true →
    exec (.jtagAccess .idcode) s = .next (s.shiftOut 0x472004D7#32) ∧ exec (.jtagAccess .bypass) s = .next (s.shiftOut 0) ∧
    (s.anyConf = true → ∀ i t, exec (.jtagAccess (.debug i)) s = .next (s.shiftOut 0) ∧ exec (.jtagAccess (.lifecycle t true)) s = .next (s.shiftOut 0)) ∧
    (∀ i, s.anyConf = false → s.sec.lifecycle = 1 ∨ s.sec.lifecycle = 3 → ∃ u, exec (.jtagAccess (.debug i)) s = .next u ∧ u.sec.debugUsed = true
      ∧ u = { s with sec := { s.sec with debugUsed := true }, pins := u.pins, free := s.free + 1 }) ∧
    (∀ t, s.anyConf = false → s.sec.lifecycle.toNat < t.toNat → t.toNat ≤ 4 → exec (.jtagAccess (.lifecycle t true)) s =
      .next (s.modSec (fun c => { c with lifecycle := t }))) ∧
    (∀ d, (s.anyConf = true → exec (.jtagAccess (.boundary d)) s = .next (s.shiftOut 0)) ∧
      (s.anyConf = false → ∃ u, exec (.jtagAccess (.boundary d)) s = .next u ∧ u.pins.scanDrive = d
        ∧ u = { s with pins := u.pins, free := s.free + 1 })) ∧
    (∀ t ok, t.toNat ≤ s.sec.lifecycle.toNat → exec (.jtagAccess (.lifecycle t ok)) s = .next (s.shiftOut 0))) ∧
  (∀ (s : State), (s.running = false ∨ s.pins.tapOn = false → ∀ op, exec (.jtagAccess op) s = .next s) ∧
    (∀ b, s.running = true → s.pwr.sidebandMctp b = none → exec (.sidebandMessage b) s = .next s) ∧
    (∀ b m dev, s.running = true → s.pwr.sidebandMctp b = some m → s.pwr.mctpHere m = false → tfind s.pwr.eids (mctpDst m).toNat = some dev → exec (.sidebandMessage b) s =
      .next (s.sendMgmt dev (mctpPayload m))))
end

