-- ==== Sys2Proof/Laws/State.lean ====
section
/-! SUPPORT. The fields of a state after each of its unit updates, and the elements of a unit array after an update. -/

namespace Sys2Proof.Machine

theorem vset_get_same {α : Type} {n : Nat} (v : Vector α n) (i : Fin n) (x : α) : (vset v i x)[i] = x := by
  simp [vset]

theorem vset_get_ne {α : Type} {n : Nat} (v : Vector α n) (i j : Fin n) (x : α) (h : j ≠ i) : (vset v i x)[j] = v[j] := by
  have : i.val ≠ j.val := fun e => h (Fin.ext e.symm)
  simp [vset, Vector.getElem_set_ne, this]

theorem vmod_get_same {α : Type} {n : Nat} (v : Vector α n) (i : Fin n) (f : α → α) : (vmod v i f)[i] = f v[i] :=
  vset_get_same v i _

theorem vmod_get_ne {α : Type} {n : Nat} (v : Vector α n) (i j : Fin n) (f : α → α) (h : j ≠ i) : (vmod v i f)[j] = v[j] :=
  vset_get_ne v i j _ h

@[simp] theorem vset_at_same {α : Type} {n : Nat} (v : Vector α n) (i : Fin n) (x : α) : (vset v i x)[i.val] = x :=
  vset_get_same v i x

@[simp] theorem vset_at_ne {α : Type} {n : Nat} (v : Vector α n) (i j : Fin n) (x : α) (h : j ≠ i) : (vset v i x)[j.val] = v[j.val] :=
  vset_get_ne v i j x h

@[simp] theorem vmod_at_same {α : Type} {n : Nat} (v : Vector α n) (i : Fin n) (f : α → α) : (vmod v i f)[i.val] = f v[i.val] :=
  vmod_get_same v i f

@[simp] theorem vmod_at_ne {α : Type} {n : Nat} (v : Vector α n) (i j : Fin n) (f : α → α) (h : j ≠ i) : (vmod v i f)[j.val] = v[j.val] :=
  vmod_get_ne v i j f h

theorem vset_vset {α : Type} {n : Nat} (v : Vector α n) (i : Fin n) (x y : α) : vset (vset v i x) i y = vset v i y := by
  simp [vset]

theorem vset_self {α : Type} {n : Nat} (v : Vector α n) (i : Fin n) : vset v i v[i] = v := by
  simp [vset]

theorem vmod_const {α : Type} {n : Nat} (v : Vector α n) (i : Fin n) (f : α → α) : vmod v i f = vset v i (f v[i]) := rfl

@[simp] theorem State.modCal_pending (s : State) (n : Fin 64) (f : Caldera → Caldera) : (s.modCal n f).pending = s.pending := rfl
@[simp] theorem State.modCal_now (s : State) (n : Fin 64) (f : Caldera → Caldera) : (s.modCal n f).now = s.now := rfl
@[simp] theorem State.modCal_free (s : State) (n : Fin 64) (f : Caldera → Caldera) : (s.modCal n f).free = s.free := rfl
@[simp] theorem State.modCal_glb (s : State) (n : Fin 64) (f : Caldera → Caldera) : (s.modCal n f).glb = s.glb := rfl
@[simp] theorem State.modCal_cals (s : State) (n : Fin 64) (f : Caldera → Caldera) : (s.modCal n f).cals = vmod s.cals n f := rfl
@[simp] theorem State.modCal_spt (s : State) (n : Fin 64) (f : Caldera → Caldera) : (s.modCal n f).spt = s.spt := rfl
@[simp] theorem State.modCal_noc (s : State) (n : Fin 64) (f : Caldera → Caldera) : (s.modCal n f).noc = s.noc := rfl
@[simp] theorem State.modCal_rt (s : State) (n : Fin 64) (f : Caldera → Caldera) : (s.modCal n f).rt = s.rt := rfl
@[simp] theorem State.modCal_ifaces (s : State) (n : Fin 64) (f : Caldera → Caldera) : (s.modCal n f).ifaces = s.ifaces := rfl
@[simp] theorem State.modCal_mesh (s : State) (n : Fin 64) (f : Caldera → Caldera) : (s.modCal n f).mesh = s.mesh := rfl
@[simp] theorem State.modCal_fan (s : State) (n : Fin 64) (f : Caldera → Caldera) : (s.modCal n f).fan = s.fan := rfl
@[simp] theorem State.modCal_d3hot (s : State) (n : Fin 64) (f : Caldera → Caldera) : (s.modCal n f).d3hot = s.d3hot := rfl
@[simp] theorem State.modCal_resetDue (s : State) (n : Fin 64) (f : Caldera → Caldera) : (s.modCal n f).resetDue = s.resetDue := rfl
@[simp] theorem State.modCal_hbmStacks (s : State) (n : Fin 64) (f : Caldera → Caldera) : (s.modCal n f).hbmStacks = s.hbmStacks := rfl
@[simp] theorem State.modCal_lanes (s : State) (n : Fin 64) (f : Caldera → Caldera) : (s.modCal n f).lanes = s.lanes := rfl
@[simp] theorem State.modCal_hbm (s : State) (n : Fin 64) (f : Caldera → Caldera) : (s.modCal n f).hbm = s.hbm := rfl
@[simp] theorem State.modCal_hbmMeta (s : State) (n : Fin 64) (f : Caldera → Caldera) : (s.modCal n f).hbmMeta = s.hbmMeta := rfl
@[simp] theorem State.modCal_ports (s : State) (n : Fin 64) (f : Caldera → Caldera) : (s.modCal n f).ports = s.ports := rfl
@[simp] theorem State.modCal_fab (s : State) (n : Fin 64) (f : Caldera → Caldera) : (s.modCal n f).fab = s.fab := rfl
@[simp] theorem State.modCal_cp (s : State) (n : Fin 64) (f : Caldera → Caldera) : (s.modCal n f).cp = s.cp := rfl
@[simp] theorem State.modCal_plans (s : State) (n : Fin 64) (f : Caldera → Caldera) : (s.modCal n f).plans = s.plans := rfl
@[simp] theorem State.modCal_regions (s : State) (n : Fin 64) (f : Caldera → Caldera) : (s.modCal n f).regions = s.regions := rfl
@[simp] theorem State.modCal_plls (s : State) (n : Fin 64) (f : Caldera → Caldera) : (s.modCal n f).plls = s.plls := rfl
@[simp] theorem State.modCal_cfg (s : State) (n : Fin 64) (f : Caldera → Caldera) : (s.modCal n f).cfg = s.cfg := rfl
@[simp] theorem State.modCal_sec (s : State) (n : Fin 64) (f : Caldera → Caldera) : (s.modCal n f).sec = s.sec := rfl
@[simp] theorem State.modCal_pwr (s : State) (n : Fin 64) (f : Caldera → Caldera) : (s.modCal n f).pwr = s.pwr := rfl
@[simp] theorem State.modCal_pins (s : State) (n : Fin 64) (f : Caldera → Caldera) : (s.modCal n f).pins = s.pins := rfl

@[simp] theorem State.modStack_pending (s : State) (k : Fin 8) (f : Stack → Stack) : (s.modStack k f).pending = s.pending := rfl
@[simp] theorem State.modStack_now (s : State) (k : Fin 8) (f : Stack → Stack) : (s.modStack k f).now = s.now := rfl
@[simp] theorem State.modStack_free (s : State) (k : Fin 8) (f : Stack → Stack) : (s.modStack k f).free = s.free := rfl
@[simp] theorem State.modStack_glb (s : State) (k : Fin 8) (f : Stack → Stack) : (s.modStack k f).glb = s.glb := rfl
@[simp] theorem State.modStack_cals (s : State) (k : Fin 8) (f : Stack → Stack) : (s.modStack k f).cals = s.cals := rfl
@[simp] theorem State.modStack_spt (s : State) (k : Fin 8) (f : Stack → Stack) : (s.modStack k f).spt = s.spt := rfl
@[simp] theorem State.modStack_noc (s : State) (k : Fin 8) (f : Stack → Stack) : (s.modStack k f).noc = s.noc := rfl
@[simp] theorem State.modStack_rt (s : State) (k : Fin 8) (f : Stack → Stack) : (s.modStack k f).rt = s.rt := rfl
@[simp] theorem State.modStack_ifaces (s : State) (k : Fin 8) (f : Stack → Stack) : (s.modStack k f).ifaces = s.ifaces := rfl
@[simp] theorem State.modStack_mesh (s : State) (k : Fin 8) (f : Stack → Stack) : (s.modStack k f).mesh = s.mesh := rfl
@[simp] theorem State.modStack_fan (s : State) (k : Fin 8) (f : Stack → Stack) : (s.modStack k f).fan = s.fan := rfl
@[simp] theorem State.modStack_d3hot (s : State) (k : Fin 8) (f : Stack → Stack) : (s.modStack k f).d3hot = s.d3hot := rfl
@[simp] theorem State.modStack_resetDue (s : State) (k : Fin 8) (f : Stack → Stack) : (s.modStack k f).resetDue = s.resetDue := rfl
@[simp] theorem State.modStack_hbmStacks (s : State) (k : Fin 8) (f : Stack → Stack) : (s.modStack k f).hbmStacks = vmod s.hbmStacks k f := rfl
@[simp] theorem State.modStack_lanes (s : State) (k : Fin 8) (f : Stack → Stack) : (s.modStack k f).lanes = s.lanes := rfl
@[simp] theorem State.modStack_hbm (s : State) (k : Fin 8) (f : Stack → Stack) : (s.modStack k f).hbm = s.hbm := rfl
@[simp] theorem State.modStack_hbmMeta (s : State) (k : Fin 8) (f : Stack → Stack) : (s.modStack k f).hbmMeta = s.hbmMeta := rfl
@[simp] theorem State.modStack_ports (s : State) (k : Fin 8) (f : Stack → Stack) : (s.modStack k f).ports = s.ports := rfl
@[simp] theorem State.modStack_fab (s : State) (k : Fin 8) (f : Stack → Stack) : (s.modStack k f).fab = s.fab := rfl
@[simp] theorem State.modStack_cp (s : State) (k : Fin 8) (f : Stack → Stack) : (s.modStack k f).cp = s.cp := rfl
@[simp] theorem State.modStack_plans (s : State) (k : Fin 8) (f : Stack → Stack) : (s.modStack k f).plans = s.plans := rfl
@[simp] theorem State.modStack_regions (s : State) (k : Fin 8) (f : Stack → Stack) : (s.modStack k f).regions = s.regions := rfl
@[simp] theorem State.modStack_plls (s : State) (k : Fin 8) (f : Stack → Stack) : (s.modStack k f).plls = s.plls := rfl
@[simp] theorem State.modStack_cfg (s : State) (k : Fin 8) (f : Stack → Stack) : (s.modStack k f).cfg = s.cfg := rfl
@[simp] theorem State.modStack_sec (s : State) (k : Fin 8) (f : Stack → Stack) : (s.modStack k f).sec = s.sec := rfl
@[simp] theorem State.modStack_pwr (s : State) (k : Fin 8) (f : Stack → Stack) : (s.modStack k f).pwr = s.pwr := rfl
@[simp] theorem State.modStack_pins (s : State) (k : Fin 8) (f : Stack → Stack) : (s.modStack k f).pins = s.pins := rfl

@[simp] theorem State.modPort_pending (s : State) (p : Fin 12) (f : Port → Port) : (s.modPort p f).pending = s.pending := rfl
@[simp] theorem State.modPort_now (s : State) (p : Fin 12) (f : Port → Port) : (s.modPort p f).now = s.now := rfl
@[simp] theorem State.modPort_free (s : State) (p : Fin 12) (f : Port → Port) : (s.modPort p f).free = s.free := rfl
@[simp] theorem State.modPort_glb (s : State) (p : Fin 12) (f : Port → Port) : (s.modPort p f).glb = s.glb := rfl
@[simp] theorem State.modPort_cals (s : State) (p : Fin 12) (f : Port → Port) : (s.modPort p f).cals = s.cals := rfl
@[simp] theorem State.modPort_spt (s : State) (p : Fin 12) (f : Port → Port) : (s.modPort p f).spt = s.spt := rfl
@[simp] theorem State.modPort_noc (s : State) (p : Fin 12) (f : Port → Port) : (s.modPort p f).noc = s.noc := rfl
@[simp] theorem State.modPort_rt (s : State) (p : Fin 12) (f : Port → Port) : (s.modPort p f).rt = s.rt := rfl
@[simp] theorem State.modPort_ifaces (s : State) (p : Fin 12) (f : Port → Port) : (s.modPort p f).ifaces = s.ifaces := rfl
@[simp] theorem State.modPort_mesh (s : State) (p : Fin 12) (f : Port → Port) : (s.modPort p f).mesh = s.mesh := rfl
@[simp] theorem State.modPort_fan (s : State) (p : Fin 12) (f : Port → Port) : (s.modPort p f).fan = s.fan := rfl
@[simp] theorem State.modPort_d3hot (s : State) (p : Fin 12) (f : Port → Port) : (s.modPort p f).d3hot = s.d3hot := rfl
@[simp] theorem State.modPort_resetDue (s : State) (p : Fin 12) (f : Port → Port) : (s.modPort p f).resetDue = s.resetDue := rfl
@[simp] theorem State.modPort_hbmStacks (s : State) (p : Fin 12) (f : Port → Port) : (s.modPort p f).hbmStacks = s.hbmStacks := rfl
@[simp] theorem State.modPort_lanes (s : State) (p : Fin 12) (f : Port → Port) : (s.modPort p f).lanes = s.lanes := rfl
@[simp] theorem State.modPort_hbm (s : State) (p : Fin 12) (f : Port → Port) : (s.modPort p f).hbm = s.hbm := rfl
@[simp] theorem State.modPort_hbmMeta (s : State) (p : Fin 12) (f : Port → Port) : (s.modPort p f).hbmMeta = s.hbmMeta := rfl
@[simp] theorem State.modPort_ports (s : State) (p : Fin 12) (f : Port → Port) : (s.modPort p f).ports = vmod s.ports p f := rfl
@[simp] theorem State.modPort_fab (s : State) (p : Fin 12) (f : Port → Port) : (s.modPort p f).fab = s.fab := rfl
@[simp] theorem State.modPort_cp (s : State) (p : Fin 12) (f : Port → Port) : (s.modPort p f).cp = s.cp := rfl
@[simp] theorem State.modPort_plans (s : State) (p : Fin 12) (f : Port → Port) : (s.modPort p f).plans = s.plans := rfl
@[simp] theorem State.modPort_regions (s : State) (p : Fin 12) (f : Port → Port) : (s.modPort p f).regions = s.regions := rfl
@[simp] theorem State.modPort_plls (s : State) (p : Fin 12) (f : Port → Port) : (s.modPort p f).plls = s.plls := rfl
@[simp] theorem State.modPort_cfg (s : State) (p : Fin 12) (f : Port → Port) : (s.modPort p f).cfg = s.cfg := rfl
@[simp] theorem State.modPort_sec (s : State) (p : Fin 12) (f : Port → Port) : (s.modPort p f).sec = s.sec := rfl
@[simp] theorem State.modPort_pwr (s : State) (p : Fin 12) (f : Port → Port) : (s.modPort p f).pwr = s.pwr := rfl
@[simp] theorem State.modPort_pins (s : State) (p : Fin 12) (f : Port → Port) : (s.modPort p f).pins = s.pins := rfl

@[simp] theorem State.modRegion_pending (s : State) (r : Fin 16) (f : Region → Region) : (s.modRegion r f).pending = s.pending := rfl
@[simp] theorem State.modRegion_now (s : State) (r : Fin 16) (f : Region → Region) : (s.modRegion r f).now = s.now := rfl
@[simp] theorem State.modRegion_free (s : State) (r : Fin 16) (f : Region → Region) : (s.modRegion r f).free = s.free := rfl
@[simp] theorem State.modRegion_glb (s : State) (r : Fin 16) (f : Region → Region) : (s.modRegion r f).glb = s.glb := rfl
@[simp] theorem State.modRegion_cals (s : State) (r : Fin 16) (f : Region → Region) : (s.modRegion r f).cals = s.cals := rfl
@[simp] theorem State.modRegion_spt (s : State) (r : Fin 16) (f : Region → Region) : (s.modRegion r f).spt = s.spt := rfl
@[simp] theorem State.modRegion_noc (s : State) (r : Fin 16) (f : Region → Region) : (s.modRegion r f).noc = s.noc := rfl
@[simp] theorem State.modRegion_rt (s : State) (r : Fin 16) (f : Region → Region) : (s.modRegion r f).rt = s.rt := rfl
@[simp] theorem State.modRegion_ifaces (s : State) (r : Fin 16) (f : Region → Region) : (s.modRegion r f).ifaces = s.ifaces := rfl
@[simp] theorem State.modRegion_mesh (s : State) (r : Fin 16) (f : Region → Region) : (s.modRegion r f).mesh = s.mesh := rfl
@[simp] theorem State.modRegion_fan (s : State) (r : Fin 16) (f : Region → Region) : (s.modRegion r f).fan = s.fan := rfl
@[simp] theorem State.modRegion_d3hot (s : State) (r : Fin 16) (f : Region → Region) : (s.modRegion r f).d3hot = s.d3hot := rfl
@[simp] theorem State.modRegion_resetDue (s : State) (r : Fin 16) (f : Region → Region) : (s.modRegion r f).resetDue = s.resetDue := rfl
@[simp] theorem State.modRegion_hbmStacks (s : State) (r : Fin 16) (f : Region → Region) : (s.modRegion r f).hbmStacks = s.hbmStacks := rfl
@[simp] theorem State.modRegion_lanes (s : State) (r : Fin 16) (f : Region → Region) : (s.modRegion r f).lanes = s.lanes := rfl
@[simp] theorem State.modRegion_hbm (s : State) (r : Fin 16) (f : Region → Region) : (s.modRegion r f).hbm = s.hbm := rfl
@[simp] theorem State.modRegion_hbmMeta (s : State) (r : Fin 16) (f : Region → Region) : (s.modRegion r f).hbmMeta = s.hbmMeta := rfl
@[simp] theorem State.modRegion_ports (s : State) (r : Fin 16) (f : Region → Region) : (s.modRegion r f).ports = s.ports := rfl
@[simp] theorem State.modRegion_fab (s : State) (r : Fin 16) (f : Region → Region) : (s.modRegion r f).fab = s.fab := rfl
@[simp] theorem State.modRegion_cp (s : State) (r : Fin 16) (f : Region → Region) : (s.modRegion r f).cp = s.cp := rfl
@[simp] theorem State.modRegion_plans (s : State) (r : Fin 16) (f : Region → Region) : (s.modRegion r f).plans = s.plans := rfl
@[simp] theorem State.modRegion_regions (s : State) (r : Fin 16) (f : Region → Region) : (s.modRegion r f).regions = vmod s.regions r f := rfl
@[simp] theorem State.modRegion_plls (s : State) (r : Fin 16) (f : Region → Region) : (s.modRegion r f).plls = s.plls := rfl
@[simp] theorem State.modRegion_cfg (s : State) (r : Fin 16) (f : Region → Region) : (s.modRegion r f).cfg = s.cfg := rfl
@[simp] theorem State.modRegion_sec (s : State) (r : Fin 16) (f : Region → Region) : (s.modRegion r f).sec = s.sec := rfl
@[simp] theorem State.modRegion_pwr (s : State) (r : Fin 16) (f : Region → Region) : (s.modRegion r f).pwr = s.pwr := rfl
@[simp] theorem State.modRegion_pins (s : State) (r : Fin 16) (f : Region → Region) : (s.modRegion r f).pins = s.pins := rfl

@[simp] theorem State.modNoc_pending (s : State) (d : Bool) (f : NocDie → NocDie) : (s.modNoc d f).pending = s.pending := rfl
@[simp] theorem State.modNoc_now (s : State) (d : Bool) (f : NocDie → NocDie) : (s.modNoc d f).now = s.now := rfl
@[simp] theorem State.modNoc_free (s : State) (d : Bool) (f : NocDie → NocDie) : (s.modNoc d f).free = s.free := rfl
@[simp] theorem State.modNoc_glb (s : State) (d : Bool) (f : NocDie → NocDie) : (s.modNoc d f).glb = s.glb := rfl
@[simp] theorem State.modNoc_cals (s : State) (d : Bool) (f : NocDie → NocDie) : (s.modNoc d f).cals = s.cals := rfl
@[simp] theorem State.modNoc_spt (s : State) (d : Bool) (f : NocDie → NocDie) : (s.modNoc d f).spt = s.spt := rfl
@[simp] theorem State.modNoc_noc (s : State) (d : Bool) (f : NocDie → NocDie) : (s.modNoc d f).noc = vmod s.noc (if d then 1 else 0) f := rfl
@[simp] theorem State.modNoc_rt (s : State) (d : Bool) (f : NocDie → NocDie) : (s.modNoc d f).rt = s.rt := rfl
@[simp] theorem State.modNoc_ifaces (s : State) (d : Bool) (f : NocDie → NocDie) : (s.modNoc d f).ifaces = s.ifaces := rfl
@[simp] theorem State.modNoc_mesh (s : State) (d : Bool) (f : NocDie → NocDie) : (s.modNoc d f).mesh = s.mesh := rfl
@[simp] theorem State.modNoc_fan (s : State) (d : Bool) (f : NocDie → NocDie) : (s.modNoc d f).fan = s.fan := rfl
@[simp] theorem State.modNoc_d3hot (s : State) (d : Bool) (f : NocDie → NocDie) : (s.modNoc d f).d3hot = s.d3hot := rfl
@[simp] theorem State.modNoc_resetDue (s : State) (d : Bool) (f : NocDie → NocDie) : (s.modNoc d f).resetDue = s.resetDue := rfl
@[simp] theorem State.modNoc_hbmStacks (s : State) (d : Bool) (f : NocDie → NocDie) : (s.modNoc d f).hbmStacks = s.hbmStacks := rfl
@[simp] theorem State.modNoc_lanes (s : State) (d : Bool) (f : NocDie → NocDie) : (s.modNoc d f).lanes = s.lanes := rfl
@[simp] theorem State.modNoc_hbm (s : State) (d : Bool) (f : NocDie → NocDie) : (s.modNoc d f).hbm = s.hbm := rfl
@[simp] theorem State.modNoc_hbmMeta (s : State) (d : Bool) (f : NocDie → NocDie) : (s.modNoc d f).hbmMeta = s.hbmMeta := rfl
@[simp] theorem State.modNoc_ports (s : State) (d : Bool) (f : NocDie → NocDie) : (s.modNoc d f).ports = s.ports := rfl
@[simp] theorem State.modNoc_fab (s : State) (d : Bool) (f : NocDie → NocDie) : (s.modNoc d f).fab = s.fab := rfl
@[simp] theorem State.modNoc_cp (s : State) (d : Bool) (f : NocDie → NocDie) : (s.modNoc d f).cp = s.cp := rfl
@[simp] theorem State.modNoc_plans (s : State) (d : Bool) (f : NocDie → NocDie) : (s.modNoc d f).plans = s.plans := rfl
@[simp] theorem State.modNoc_regions (s : State) (d : Bool) (f : NocDie → NocDie) : (s.modNoc d f).regions = s.regions := rfl
@[simp] theorem State.modNoc_plls (s : State) (d : Bool) (f : NocDie → NocDie) : (s.modNoc d f).plls = s.plls := rfl
@[simp] theorem State.modNoc_cfg (s : State) (d : Bool) (f : NocDie → NocDie) : (s.modNoc d f).cfg = s.cfg := rfl
@[simp] theorem State.modNoc_sec (s : State) (d : Bool) (f : NocDie → NocDie) : (s.modNoc d f).sec = s.sec := rfl
@[simp] theorem State.modNoc_pwr (s : State) (d : Bool) (f : NocDie → NocDie) : (s.modNoc d f).pwr = s.pwr := rfl
@[simp] theorem State.modNoc_pins (s : State) (d : Bool) (f : NocDie → NocDie) : (s.modNoc d f).pins = s.pins := rfl

@[simp] theorem State.modGlb_pending (s : State) (f : Glb → Glb) : (s.modGlb f).pending = s.pending := rfl
@[simp] theorem State.modGlb_now (s : State) (f : Glb → Glb) : (s.modGlb f).now = s.now := rfl
@[simp] theorem State.modGlb_free (s : State) (f : Glb → Glb) : (s.modGlb f).free = s.free := rfl
@[simp] theorem State.modGlb_glb (s : State) (f : Glb → Glb) : (s.modGlb f).glb = f s.glb := rfl
@[simp] theorem State.modGlb_cals (s : State) (f : Glb → Glb) : (s.modGlb f).cals = s.cals := rfl
@[simp] theorem State.modGlb_spt (s : State) (f : Glb → Glb) : (s.modGlb f).spt = s.spt := rfl
@[simp] theorem State.modGlb_noc (s : State) (f : Glb → Glb) : (s.modGlb f).noc = s.noc := rfl
@[simp] theorem State.modGlb_rt (s : State) (f : Glb → Glb) : (s.modGlb f).rt = s.rt := rfl
@[simp] theorem State.modGlb_ifaces (s : State) (f : Glb → Glb) : (s.modGlb f).ifaces = s.ifaces := rfl
@[simp] theorem State.modGlb_mesh (s : State) (f : Glb → Glb) : (s.modGlb f).mesh = s.mesh := rfl
@[simp] theorem State.modGlb_fan (s : State) (f : Glb → Glb) : (s.modGlb f).fan = s.fan := rfl
@[simp] theorem State.modGlb_d3hot (s : State) (f : Glb → Glb) : (s.modGlb f).d3hot = s.d3hot := rfl
@[simp] theorem State.modGlb_resetDue (s : State) (f : Glb → Glb) : (s.modGlb f).resetDue = s.resetDue := rfl
@[simp] theorem State.modGlb_hbmStacks (s : State) (f : Glb → Glb) : (s.modGlb f).hbmStacks = s.hbmStacks := rfl
@[simp] theorem State.modGlb_lanes (s : State) (f : Glb → Glb) : (s.modGlb f).lanes = s.lanes := rfl
@[simp] theorem State.modGlb_hbm (s : State) (f : Glb → Glb) : (s.modGlb f).hbm = s.hbm := rfl
@[simp] theorem State.modGlb_hbmMeta (s : State) (f : Glb → Glb) : (s.modGlb f).hbmMeta = s.hbmMeta := rfl
@[simp] theorem State.modGlb_ports (s : State) (f : Glb → Glb) : (s.modGlb f).ports = s.ports := rfl
@[simp] theorem State.modGlb_fab (s : State) (f : Glb → Glb) : (s.modGlb f).fab = s.fab := rfl
@[simp] theorem State.modGlb_cp (s : State) (f : Glb → Glb) : (s.modGlb f).cp = s.cp := rfl
@[simp] theorem State.modGlb_plans (s : State) (f : Glb → Glb) : (s.modGlb f).plans = s.plans := rfl
@[simp] theorem State.modGlb_regions (s : State) (f : Glb → Glb) : (s.modGlb f).regions = s.regions := rfl
@[simp] theorem State.modGlb_plls (s : State) (f : Glb → Glb) : (s.modGlb f).plls = s.plls := rfl
@[simp] theorem State.modGlb_cfg (s : State) (f : Glb → Glb) : (s.modGlb f).cfg = s.cfg := rfl
@[simp] theorem State.modGlb_sec (s : State) (f : Glb → Glb) : (s.modGlb f).sec = s.sec := rfl
@[simp] theorem State.modGlb_pwr (s : State) (f : Glb → Glb) : (s.modGlb f).pwr = s.pwr := rfl
@[simp] theorem State.modGlb_pins (s : State) (f : Glb → Glb) : (s.modGlb f).pins = s.pins := rfl

@[simp] theorem State.modFab_pending (s : State) (f : Fab → Fab) : (s.modFab f).pending = s.pending := rfl
@[simp] theorem State.modFab_now (s : State) (f : Fab → Fab) : (s.modFab f).now = s.now := rfl
@[simp] theorem State.modFab_free (s : State) (f : Fab → Fab) : (s.modFab f).free = s.free := rfl
@[simp] theorem State.modFab_glb (s : State) (f : Fab → Fab) : (s.modFab f).glb = s.glb := rfl
@[simp] theorem State.modFab_cals (s : State) (f : Fab → Fab) : (s.modFab f).cals = s.cals := rfl
@[simp] theorem State.modFab_spt (s : State) (f : Fab → Fab) : (s.modFab f).spt = s.spt := rfl
@[simp] theorem State.modFab_noc (s : State) (f : Fab → Fab) : (s.modFab f).noc = s.noc := rfl
@[simp] theorem State.modFab_rt (s : State) (f : Fab → Fab) : (s.modFab f).rt = s.rt := rfl
@[simp] theorem State.modFab_ifaces (s : State) (f : Fab → Fab) : (s.modFab f).ifaces = s.ifaces := rfl
@[simp] theorem State.modFab_mesh (s : State) (f : Fab → Fab) : (s.modFab f).mesh = s.mesh := rfl
@[simp] theorem State.modFab_fan (s : State) (f : Fab → Fab) : (s.modFab f).fan = s.fan := rfl
@[simp] theorem State.modFab_d3hot (s : State) (f : Fab → Fab) : (s.modFab f).d3hot = s.d3hot := rfl
@[simp] theorem State.modFab_resetDue (s : State) (f : Fab → Fab) : (s.modFab f).resetDue = s.resetDue := rfl
@[simp] theorem State.modFab_hbmStacks (s : State) (f : Fab → Fab) : (s.modFab f).hbmStacks = s.hbmStacks := rfl
@[simp] theorem State.modFab_lanes (s : State) (f : Fab → Fab) : (s.modFab f).lanes = s.lanes := rfl
@[simp] theorem State.modFab_hbm (s : State) (f : Fab → Fab) : (s.modFab f).hbm = s.hbm := rfl
@[simp] theorem State.modFab_hbmMeta (s : State) (f : Fab → Fab) : (s.modFab f).hbmMeta = s.hbmMeta := rfl
@[simp] theorem State.modFab_ports (s : State) (f : Fab → Fab) : (s.modFab f).ports = s.ports := rfl
@[simp] theorem State.modFab_fab (s : State) (f : Fab → Fab) : (s.modFab f).fab = f s.fab := rfl
@[simp] theorem State.modFab_cp (s : State) (f : Fab → Fab) : (s.modFab f).cp = s.cp := rfl
@[simp] theorem State.modFab_plans (s : State) (f : Fab → Fab) : (s.modFab f).plans = s.plans := rfl
@[simp] theorem State.modFab_regions (s : State) (f : Fab → Fab) : (s.modFab f).regions = s.regions := rfl
@[simp] theorem State.modFab_plls (s : State) (f : Fab → Fab) : (s.modFab f).plls = s.plls := rfl
@[simp] theorem State.modFab_cfg (s : State) (f : Fab → Fab) : (s.modFab f).cfg = s.cfg := rfl
@[simp] theorem State.modFab_sec (s : State) (f : Fab → Fab) : (s.modFab f).sec = s.sec := rfl
@[simp] theorem State.modFab_pwr (s : State) (f : Fab → Fab) : (s.modFab f).pwr = s.pwr := rfl
@[simp] theorem State.modFab_pins (s : State) (f : Fab → Fab) : (s.modFab f).pins = s.pins := rfl

@[simp] theorem State.modCp_pending (s : State) (f : CmdProc → CmdProc) : (s.modCp f).pending = s.pending := rfl
@[simp] theorem State.modCp_now (s : State) (f : CmdProc → CmdProc) : (s.modCp f).now = s.now := rfl
@[simp] theorem State.modCp_free (s : State) (f : CmdProc → CmdProc) : (s.modCp f).free = s.free := rfl
@[simp] theorem State.modCp_glb (s : State) (f : CmdProc → CmdProc) : (s.modCp f).glb = s.glb := rfl
@[simp] theorem State.modCp_cals (s : State) (f : CmdProc → CmdProc) : (s.modCp f).cals = s.cals := rfl
@[simp] theorem State.modCp_spt (s : State) (f : CmdProc → CmdProc) : (s.modCp f).spt = s.spt := rfl
@[simp] theorem State.modCp_noc (s : State) (f : CmdProc → CmdProc) : (s.modCp f).noc = s.noc := rfl
@[simp] theorem State.modCp_rt (s : State) (f : CmdProc → CmdProc) : (s.modCp f).rt = s.rt := rfl
@[simp] theorem State.modCp_ifaces (s : State) (f : CmdProc → CmdProc) : (s.modCp f).ifaces = s.ifaces := rfl
@[simp] theorem State.modCp_mesh (s : State) (f : CmdProc → CmdProc) : (s.modCp f).mesh = s.mesh := rfl
@[simp] theorem State.modCp_fan (s : State) (f : CmdProc → CmdProc) : (s.modCp f).fan = s.fan := rfl
@[simp] theorem State.modCp_d3hot (s : State) (f : CmdProc → CmdProc) : (s.modCp f).d3hot = s.d3hot := rfl
@[simp] theorem State.modCp_resetDue (s : State) (f : CmdProc → CmdProc) : (s.modCp f).resetDue = s.resetDue := rfl
@[simp] theorem State.modCp_hbmStacks (s : State) (f : CmdProc → CmdProc) : (s.modCp f).hbmStacks = s.hbmStacks := rfl
@[simp] theorem State.modCp_lanes (s : State) (f : CmdProc → CmdProc) : (s.modCp f).lanes = s.lanes := rfl
@[simp] theorem State.modCp_hbm (s : State) (f : CmdProc → CmdProc) : (s.modCp f).hbm = s.hbm := rfl
@[simp] theorem State.modCp_hbmMeta (s : State) (f : CmdProc → CmdProc) : (s.modCp f).hbmMeta = s.hbmMeta := rfl
@[simp] theorem State.modCp_ports (s : State) (f : CmdProc → CmdProc) : (s.modCp f).ports = s.ports := rfl
@[simp] theorem State.modCp_fab (s : State) (f : CmdProc → CmdProc) : (s.modCp f).fab = s.fab := rfl
@[simp] theorem State.modCp_cp (s : State) (f : CmdProc → CmdProc) : (s.modCp f).cp = f s.cp := rfl
@[simp] theorem State.modCp_plans (s : State) (f : CmdProc → CmdProc) : (s.modCp f).plans = s.plans := rfl
@[simp] theorem State.modCp_regions (s : State) (f : CmdProc → CmdProc) : (s.modCp f).regions = s.regions := rfl
@[simp] theorem State.modCp_plls (s : State) (f : CmdProc → CmdProc) : (s.modCp f).plls = s.plls := rfl
@[simp] theorem State.modCp_cfg (s : State) (f : CmdProc → CmdProc) : (s.modCp f).cfg = s.cfg := rfl
@[simp] theorem State.modCp_sec (s : State) (f : CmdProc → CmdProc) : (s.modCp f).sec = s.sec := rfl
@[simp] theorem State.modCp_pwr (s : State) (f : CmdProc → CmdProc) : (s.modCp f).pwr = s.pwr := rfl
@[simp] theorem State.modCp_pins (s : State) (f : CmdProc → CmdProc) : (s.modCp f).pins = s.pins := rfl

@[simp] theorem State.modCfg_pending (s : State) (f : Cfg → Cfg) : (s.modCfg f).pending = s.pending := rfl
@[simp] theorem State.modCfg_now (s : State) (f : Cfg → Cfg) : (s.modCfg f).now = s.now := rfl
@[simp] theorem State.modCfg_free (s : State) (f : Cfg → Cfg) : (s.modCfg f).free = s.free := rfl
@[simp] theorem State.modCfg_glb (s : State) (f : Cfg → Cfg) : (s.modCfg f).glb = s.glb := rfl
@[simp] theorem State.modCfg_cals (s : State) (f : Cfg → Cfg) : (s.modCfg f).cals = s.cals := rfl
@[simp] theorem State.modCfg_spt (s : State) (f : Cfg → Cfg) : (s.modCfg f).spt = s.spt := rfl
@[simp] theorem State.modCfg_noc (s : State) (f : Cfg → Cfg) : (s.modCfg f).noc = s.noc := rfl
@[simp] theorem State.modCfg_rt (s : State) (f : Cfg → Cfg) : (s.modCfg f).rt = s.rt := rfl
@[simp] theorem State.modCfg_ifaces (s : State) (f : Cfg → Cfg) : (s.modCfg f).ifaces = s.ifaces := rfl
@[simp] theorem State.modCfg_mesh (s : State) (f : Cfg → Cfg) : (s.modCfg f).mesh = s.mesh := rfl
@[simp] theorem State.modCfg_fan (s : State) (f : Cfg → Cfg) : (s.modCfg f).fan = s.fan := rfl
@[simp] theorem State.modCfg_d3hot (s : State) (f : Cfg → Cfg) : (s.modCfg f).d3hot = s.d3hot := rfl
@[simp] theorem State.modCfg_resetDue (s : State) (f : Cfg → Cfg) : (s.modCfg f).resetDue = s.resetDue := rfl
@[simp] theorem State.modCfg_hbmStacks (s : State) (f : Cfg → Cfg) : (s.modCfg f).hbmStacks = s.hbmStacks := rfl
@[simp] theorem State.modCfg_lanes (s : State) (f : Cfg → Cfg) : (s.modCfg f).lanes = s.lanes := rfl
@[simp] theorem State.modCfg_hbm (s : State) (f : Cfg → Cfg) : (s.modCfg f).hbm = s.hbm := rfl
@[simp] theorem State.modCfg_hbmMeta (s : State) (f : Cfg → Cfg) : (s.modCfg f).hbmMeta = s.hbmMeta := rfl
@[simp] theorem State.modCfg_ports (s : State) (f : Cfg → Cfg) : (s.modCfg f).ports = s.ports := rfl
@[simp] theorem State.modCfg_fab (s : State) (f : Cfg → Cfg) : (s.modCfg f).fab = s.fab := rfl
@[simp] theorem State.modCfg_cp (s : State) (f : Cfg → Cfg) : (s.modCfg f).cp = s.cp := rfl
@[simp] theorem State.modCfg_plans (s : State) (f : Cfg → Cfg) : (s.modCfg f).plans = s.plans := rfl
@[simp] theorem State.modCfg_regions (s : State) (f : Cfg → Cfg) : (s.modCfg f).regions = s.regions := rfl
@[simp] theorem State.modCfg_plls (s : State) (f : Cfg → Cfg) : (s.modCfg f).plls = s.plls := rfl
@[simp] theorem State.modCfg_cfg (s : State) (f : Cfg → Cfg) : (s.modCfg f).cfg = f s.cfg := rfl
@[simp] theorem State.modCfg_sec (s : State) (f : Cfg → Cfg) : (s.modCfg f).sec = s.sec := rfl
@[simp] theorem State.modCfg_pwr (s : State) (f : Cfg → Cfg) : (s.modCfg f).pwr = s.pwr := rfl
@[simp] theorem State.modCfg_pins (s : State) (f : Cfg → Cfg) : (s.modCfg f).pins = s.pins := rfl

@[simp] theorem State.modSec_pending (s : State) (f : Sec → Sec) : (s.modSec f).pending = s.pending := rfl
@[simp] theorem State.modSec_now (s : State) (f : Sec → Sec) : (s.modSec f).now = s.now := rfl
@[simp] theorem State.modSec_free (s : State) (f : Sec → Sec) : (s.modSec f).free = s.free := rfl
@[simp] theorem State.modSec_glb (s : State) (f : Sec → Sec) : (s.modSec f).glb = s.glb := rfl
@[simp] theorem State.modSec_cals (s : State) (f : Sec → Sec) : (s.modSec f).cals = s.cals := rfl
@[simp] theorem State.modSec_spt (s : State) (f : Sec → Sec) : (s.modSec f).spt = s.spt := rfl
@[simp] theorem State.modSec_noc (s : State) (f : Sec → Sec) : (s.modSec f).noc = s.noc := rfl
@[simp] theorem State.modSec_rt (s : State) (f : Sec → Sec) : (s.modSec f).rt = s.rt := rfl
@[simp] theorem State.modSec_ifaces (s : State) (f : Sec → Sec) : (s.modSec f).ifaces = s.ifaces := rfl
@[simp] theorem State.modSec_mesh (s : State) (f : Sec → Sec) : (s.modSec f).mesh = s.mesh := rfl
@[simp] theorem State.modSec_fan (s : State) (f : Sec → Sec) : (s.modSec f).fan = s.fan := rfl
@[simp] theorem State.modSec_d3hot (s : State) (f : Sec → Sec) : (s.modSec f).d3hot = s.d3hot := rfl
@[simp] theorem State.modSec_resetDue (s : State) (f : Sec → Sec) : (s.modSec f).resetDue = s.resetDue := rfl
@[simp] theorem State.modSec_hbmStacks (s : State) (f : Sec → Sec) : (s.modSec f).hbmStacks = s.hbmStacks := rfl
@[simp] theorem State.modSec_lanes (s : State) (f : Sec → Sec) : (s.modSec f).lanes = s.lanes := rfl
@[simp] theorem State.modSec_hbm (s : State) (f : Sec → Sec) : (s.modSec f).hbm = s.hbm := rfl
@[simp] theorem State.modSec_hbmMeta (s : State) (f : Sec → Sec) : (s.modSec f).hbmMeta = s.hbmMeta := rfl
@[simp] theorem State.modSec_ports (s : State) (f : Sec → Sec) : (s.modSec f).ports = s.ports := rfl
@[simp] theorem State.modSec_fab (s : State) (f : Sec → Sec) : (s.modSec f).fab = s.fab := rfl
@[simp] theorem State.modSec_cp (s : State) (f : Sec → Sec) : (s.modSec f).cp = s.cp := rfl
@[simp] theorem State.modSec_plans (s : State) (f : Sec → Sec) : (s.modSec f).plans = s.plans := rfl
@[simp] theorem State.modSec_regions (s : State) (f : Sec → Sec) : (s.modSec f).regions = s.regions := rfl
@[simp] theorem State.modSec_plls (s : State) (f : Sec → Sec) : (s.modSec f).plls = s.plls := rfl
@[simp] theorem State.modSec_cfg (s : State) (f : Sec → Sec) : (s.modSec f).cfg = s.cfg := rfl
@[simp] theorem State.modSec_sec (s : State) (f : Sec → Sec) : (s.modSec f).sec = f s.sec := rfl
@[simp] theorem State.modSec_pwr (s : State) (f : Sec → Sec) : (s.modSec f).pwr = s.pwr := rfl
@[simp] theorem State.modSec_pins (s : State) (f : Sec → Sec) : (s.modSec f).pins = s.pins := rfl

@[simp] theorem State.modPwr_pending (s : State) (f : Pwr → Pwr) : (s.modPwr f).pending = s.pending := rfl
@[simp] theorem State.modPwr_now (s : State) (f : Pwr → Pwr) : (s.modPwr f).now = s.now := rfl
@[simp] theorem State.modPwr_free (s : State) (f : Pwr → Pwr) : (s.modPwr f).free = s.free := rfl
@[simp] theorem State.modPwr_glb (s : State) (f : Pwr → Pwr) : (s.modPwr f).glb = s.glb := rfl
@[simp] theorem State.modPwr_cals (s : State) (f : Pwr → Pwr) : (s.modPwr f).cals = s.cals := rfl
@[simp] theorem State.modPwr_spt (s : State) (f : Pwr → Pwr) : (s.modPwr f).spt = s.spt := rfl
@[simp] theorem State.modPwr_noc (s : State) (f : Pwr → Pwr) : (s.modPwr f).noc = s.noc := rfl
@[simp] theorem State.modPwr_rt (s : State) (f : Pwr → Pwr) : (s.modPwr f).rt = s.rt := rfl
@[simp] theorem State.modPwr_ifaces (s : State) (f : Pwr → Pwr) : (s.modPwr f).ifaces = s.ifaces := rfl
@[simp] theorem State.modPwr_mesh (s : State) (f : Pwr → Pwr) : (s.modPwr f).mesh = s.mesh := rfl
@[simp] theorem State.modPwr_fan (s : State) (f : Pwr → Pwr) : (s.modPwr f).fan = s.fan := rfl
@[simp] theorem State.modPwr_d3hot (s : State) (f : Pwr → Pwr) : (s.modPwr f).d3hot = s.d3hot := rfl
@[simp] theorem State.modPwr_resetDue (s : State) (f : Pwr → Pwr) : (s.modPwr f).resetDue = s.resetDue := rfl
@[simp] theorem State.modPwr_hbmStacks (s : State) (f : Pwr → Pwr) : (s.modPwr f).hbmStacks = s.hbmStacks := rfl
@[simp] theorem State.modPwr_lanes (s : State) (f : Pwr → Pwr) : (s.modPwr f).lanes = s.lanes := rfl
@[simp] theorem State.modPwr_hbm (s : State) (f : Pwr → Pwr) : (s.modPwr f).hbm = s.hbm := rfl
@[simp] theorem State.modPwr_hbmMeta (s : State) (f : Pwr → Pwr) : (s.modPwr f).hbmMeta = s.hbmMeta := rfl
@[simp] theorem State.modPwr_ports (s : State) (f : Pwr → Pwr) : (s.modPwr f).ports = s.ports := rfl
@[simp] theorem State.modPwr_fab (s : State) (f : Pwr → Pwr) : (s.modPwr f).fab = s.fab := rfl
@[simp] theorem State.modPwr_cp (s : State) (f : Pwr → Pwr) : (s.modPwr f).cp = s.cp := rfl
@[simp] theorem State.modPwr_plans (s : State) (f : Pwr → Pwr) : (s.modPwr f).plans = s.plans := rfl
@[simp] theorem State.modPwr_regions (s : State) (f : Pwr → Pwr) : (s.modPwr f).regions = s.regions := rfl
@[simp] theorem State.modPwr_plls (s : State) (f : Pwr → Pwr) : (s.modPwr f).plls = s.plls := rfl
@[simp] theorem State.modPwr_cfg (s : State) (f : Pwr → Pwr) : (s.modPwr f).cfg = s.cfg := rfl
@[simp] theorem State.modPwr_sec (s : State) (f : Pwr → Pwr) : (s.modPwr f).sec = s.sec := rfl
@[simp] theorem State.modPwr_pwr (s : State) (f : Pwr → Pwr) : (s.modPwr f).pwr = f s.pwr := rfl
@[simp] theorem State.modPwr_pins (s : State) (f : Pwr → Pwr) : (s.modPwr f).pins = s.pins := rfl

@[simp] theorem State.draw_pending (s : State) : s.draw.2.pending = s.pending := rfl
@[simp] theorem State.draw_now (s : State) : s.draw.2.now = s.now := rfl
@[simp] theorem State.draw_free (s : State) : s.draw.2.free = s.free + 1 := rfl
@[simp] theorem State.draw_glb (s : State) : s.draw.2.glb = s.glb := rfl
@[simp] theorem State.draw_cals (s : State) : s.draw.2.cals = s.cals := rfl
@[simp] theorem State.draw_spt (s : State) : s.draw.2.spt = s.spt := rfl
@[simp] theorem State.draw_noc (s : State) : s.draw.2.noc = s.noc := rfl
@[simp] theorem State.draw_rt (s : State) : s.draw.2.rt = s.rt := rfl
@[simp] theorem State.draw_ifaces (s : State) : s.draw.2.ifaces = s.ifaces := rfl
@[simp] theorem State.draw_mesh (s : State) : s.draw.2.mesh = s.mesh := rfl
@[simp] theorem State.draw_fan (s : State) : s.draw.2.fan = s.fan := rfl
@[simp] theorem State.draw_d3hot (s : State) : s.draw.2.d3hot = s.d3hot := rfl
@[simp] theorem State.draw_resetDue (s : State) : s.draw.2.resetDue = s.resetDue := rfl
@[simp] theorem State.draw_hbmStacks (s : State) : s.draw.2.hbmStacks = s.hbmStacks := rfl
@[simp] theorem State.draw_lanes (s : State) : s.draw.2.lanes = s.lanes := rfl
@[simp] theorem State.draw_hbm (s : State) : s.draw.2.hbm = s.hbm := rfl
@[simp] theorem State.draw_hbmMeta (s : State) : s.draw.2.hbmMeta = s.hbmMeta := rfl
@[simp] theorem State.draw_ports (s : State) : s.draw.2.ports = s.ports := rfl
@[simp] theorem State.draw_fab (s : State) : s.draw.2.fab = s.fab := rfl
@[simp] theorem State.draw_cp (s : State) : s.draw.2.cp = s.cp := rfl
@[simp] theorem State.draw_plans (s : State) : s.draw.2.plans = s.plans := rfl
@[simp] theorem State.draw_regions (s : State) : s.draw.2.regions = s.regions := rfl
@[simp] theorem State.draw_plls (s : State) : s.draw.2.plls = s.plls := rfl
@[simp] theorem State.draw_cfg (s : State) : s.draw.2.cfg = s.cfg := rfl
@[simp] theorem State.draw_sec (s : State) : s.draw.2.sec = s.sec := rfl
@[simp] theorem State.draw_pwr (s : State) : s.draw.2.pwr = s.pwr := rfl
@[simp] theorem State.draw_pins (s : State) : s.draw.2.pins = s.pins := rfl

@[simp] theorem State.emit_pending (s : State) (o : PcieOut) : (s.emit o).pending = s.pending := rfl
@[simp] theorem State.emit_now (s : State) (o : PcieOut) : (s.emit o).now = s.now := rfl
@[simp] theorem State.emit_free (s : State) (o : PcieOut) : (s.emit o).free = s.free := rfl
@[simp] theorem State.emit_glb (s : State) (o : PcieOut) : (s.emit o).glb = s.glb := rfl
@[simp] theorem State.emit_cals (s : State) (o : PcieOut) : (s.emit o).cals = s.cals := rfl
@[simp] theorem State.emit_spt (s : State) (o : PcieOut) : (s.emit o).spt = s.spt := rfl
@[simp] theorem State.emit_noc (s : State) (o : PcieOut) : (s.emit o).noc = s.noc := rfl
@[simp] theorem State.emit_rt (s : State) (o : PcieOut) : (s.emit o).rt = s.rt := rfl
@[simp] theorem State.emit_ifaces (s : State) (o : PcieOut) : (s.emit o).ifaces = s.ifaces := rfl
@[simp] theorem State.emit_mesh (s : State) (o : PcieOut) : (s.emit o).mesh = s.mesh := rfl
@[simp] theorem State.emit_fan (s : State) (o : PcieOut) : (s.emit o).fan = s.fan := rfl
@[simp] theorem State.emit_d3hot (s : State) (o : PcieOut) : (s.emit o).d3hot = s.d3hot := rfl
@[simp] theorem State.emit_resetDue (s : State) (o : PcieOut) : (s.emit o).resetDue = s.resetDue := rfl
@[simp] theorem State.emit_hbmStacks (s : State) (o : PcieOut) : (s.emit o).hbmStacks = s.hbmStacks := rfl
@[simp] theorem State.emit_lanes (s : State) (o : PcieOut) : (s.emit o).lanes = s.lanes := rfl
@[simp] theorem State.emit_hbm (s : State) (o : PcieOut) : (s.emit o).hbm = s.hbm := rfl
@[simp] theorem State.emit_hbmMeta (s : State) (o : PcieOut) : (s.emit o).hbmMeta = s.hbmMeta := rfl
@[simp] theorem State.emit_ports (s : State) (o : PcieOut) : (s.emit o).ports = s.ports := rfl
@[simp] theorem State.emit_fab (s : State) (o : PcieOut) : (s.emit o).fab = s.fab := rfl
@[simp] theorem State.emit_cp (s : State) (o : PcieOut) : (s.emit o).cp = { s.cp with out := s.cp.out ++ [o] } := rfl
@[simp] theorem State.emit_plans (s : State) (o : PcieOut) : (s.emit o).plans = s.plans := rfl
@[simp] theorem State.emit_regions (s : State) (o : PcieOut) : (s.emit o).regions = s.regions := rfl
@[simp] theorem State.emit_plls (s : State) (o : PcieOut) : (s.emit o).plls = s.plls := rfl
@[simp] theorem State.emit_cfg (s : State) (o : PcieOut) : (s.emit o).cfg = s.cfg := rfl
@[simp] theorem State.emit_sec (s : State) (o : PcieOut) : (s.emit o).sec = s.sec := rfl
@[simp] theorem State.emit_pwr (s : State) (o : PcieOut) : (s.emit o).pwr = s.pwr := rfl
@[simp] theorem State.emit_pins (s : State) (o : PcieOut) : (s.emit o).pins = s.pins := rfl

end Sys2Proof.Machine
end

