-- ==== Sys2Proof/Laws/Events.lean ====
section
/-! SUPPORT. What sending a flit and raising an event change, said once for each shared operation. -/

namespace Sys2Proof.Machine

/-! ### Frames joined -/

theorem Raised.refl (s : State) : Raised s s := rfl

theorem Raised.trans {s t u : State} (h : Raised s t) (k : Raised t u) : Raised s u := by
  unfold Raised at *
  rw [k, h]

theorem Raised.of_ports_fab {s t : State} (h : t = { s with fab := t.fab, ports := t.ports }) : Raised s t := by
  unfold Raised
  rw [h]

theorem Raised.modFab (s : State) (f : Fab → Fab) : Raised s (s.modFab f) := rfl
theorem Raised.modPwr (s : State) (f : Pwr → Pwr) : Raised s (s.modPwr f) := rfl
theorem Raised.modPort (s : State) (p : Fin 12) (f : Port → Port) : Raised s (s.modPort p f) := rfl

theorem Raised.glb {s t : State} (h : Raised s t) : t.glb = s.glb := by rw [h]
theorem Raised.now {s t : State} (h : Raised s t) : t.now = s.now := by rw [h]
theorem Raised.cals {s t : State} (h : Raised s t) : t.cals = s.cals := by rw [h]
theorem Raised.plans {s t : State} (h : Raised s t) : t.plans = s.plans := by rw [h]
theorem Raised.sec {s t : State} (h : Raised s t) : t.sec = s.sec := by rw [h]
theorem Raised.cfg {s t : State} (h : Raised s t) : t.cfg = s.cfg := by rw [h]
theorem Raised.hbm {s t : State} (h : Raised s t) : t.hbm = s.hbm := by rw [h]
theorem Raised.hbmStacks {s t : State} (h : Raised s t) : t.hbmStacks = s.hbmStacks := by rw [h]
theorem Raised.regions {s t : State} (h : Raised s t) : t.regions = s.regions := by rw [h]
theorem Raised.pending {s t : State} (h : Raised s t) : t.pending = s.pending := by rw [h]

/-! ### Flits (R240) -/

theorem sendTo_frame (s : State) (a : Option (Fin 12)) (f : Data2048) :
    (s.sendTo a f).1 = { s with fab := (s.sendTo a f).1.fab, ports := (s.sendTo a f).1.ports } := by
  unfold State.sendTo
  split
  · split <;> rfl
  · rfl

theorem sendTo_fab_event (s : State) (a : Option (Fin 12)) (f : Data2048) : (s.sendTo a f).1.fab.event = s.fab.event := by
  unfold State.sendTo
  split
  · split <;> rfl
  · rfl

/-- A sent flit changes of a port at most the flits that wait. -/
theorem sendTo_port (s : State) (a : Option (Fin 12)) (f : Data2048) (p : Fin 12) :
    QueuedOnly s.ports[p] (s.sendTo a f).1.ports[p] := by
  unfold State.sendTo
  split
  · rename_i q _
    split
    · by_cases h : p = q
      · subst h
        simp [State.sendOn, QueuedOnly]
      · simp [State.sendOn, QueuedOnly, h]
    · rfl
  · rfl

theorem QueuedOnly.refl (p : Port) : QueuedOnly p p := rfl
theorem QueuedOnly.trans {p q r : Port} (h : QueuedOnly p q) (k : QueuedOnly q r) : QueuedOnly p r := by
  unfold QueuedOnly at *
  rw [k, h]

/-! ### Events (R395, R396) -/

theorem logEvent_frame (s : State) (cls : Nat) (r : BitVec 256) : Raised s (s.logEvent cls r).1 := by
  unfold State.logEvent
  extract_lets s1 s2
  have h1 : Raised s s1 := rfl
  have h2 : Raised s1 s2 := by
    by_cases h : s1.pwr.pldmReceiver = true
    · simp only [s2, h, if_true]; rfl
    · simp only [s2, h]; rfl
  have h3 := h1.trans h2
  clear_value s2
  split
  · split
    · exact h3.trans rfl
    · exact h3.trans (Raised.of_ports_fab (sendTo_frame _ _ _))
  · exact h3

theorem logEvent_fab_event (s : State) (cls : Nat) (r : BitVec 256) : (s.logEvent cls r).1.fab.event = s.fab.event := by
  unfold State.logEvent
  extract_lets s1 s2
  have h2 : s2.fab = s.fab := by
    by_cases h : s1.pwr.pldmReceiver = true
    · simp only [s2, h, if_true]; rfl
    · simp only [s2, h]; rfl
  clear_value s2
  split
  · split
    · simp [h2]
    · rw [sendTo_fab_event, h2]
  · rw [h2]

/-- A record is pushed on the event log. -/
theorem logEvent_evlog (s : State) (cls : Nat) (r : BitVec 256) : (s.logEvent cls r).1.pwr.evlog = s.pwr.evlog.push r := by
  unfold State.logEvent
  extract_lets s1 s2
  have h2 : s2.pwr.evlog = s.pwr.evlog.push r := by
    by_cases h : s1.pwr.pldmReceiver = true
    · simp only [s2, h, if_true]; rfl
    · simp only [s2, h]; rfl
  clear_value s2
  split
  · split
    · exact h2
    · rw [sendTo_frame]; exact h2
  · exact h2

/-- Of a port, logging an event changes at most the flits that wait. -/
theorem logEvent_port (s : State) (cls : Nat) (r : BitVec 256) (p : Fin 12) :
    QueuedOnly s.ports[p] (s.logEvent cls r).1.ports[p] := by
  unfold State.logEvent
  extract_lets s1 s2
  have h2 : s2.ports[p] = s.ports[p] := by
    by_cases h : s1.pwr.pldmReceiver = true
    · simp only [s2, h, if_true]; rfl
    · simp only [s2, h]; rfl
  clear_value s2
  split
  · split
    · simp [QueuedOnly, ← h2]
    · rw [← h2]; exact sendTo_port _ _ _ _
  · rw [h2]; rfl

theorem noteRouteDrop_frame (s : State) : Raised s s.noteRouteDrop := by
  unfold State.noteRouteDrop
  split
  · exact Raised.refl s
  · exact Raised.trans (Raised.modFab _ _) (logEvent_frame _ _ _)

theorem noteRouteDrop_event (s : State) (i : Nat) (h : s.fab.event.getLsbD i = true) : s.noteRouteDrop.fab.event.getLsbD i = true := by
  unfold State.noteRouteDrop
  split
  · exact h
  · dsimp only
    rw [logEvent_fab_event]
    simp [BitVec.getLsbD_or, h]

theorem noteRouteDrop_port (s : State) (p : Fin 12) :
    QueuedOnly s.ports[p] s.noteRouteDrop.ports[p] := by
  unfold State.noteRouteDrop
  split
  · rfl
  · exact logEvent_port _ _ _ p

theorem raise_frame (s : State) (cls code unit sev : Nat) (d0 d1 : Word) : Raised s (s.raise cls code unit sev d0 d1) := by
  unfold State.raise
  dsimp only
  split
  · exact (logEvent_frame _ _ _).trans (noteRouteDrop_frame _)
  · exact logEvent_frame _ _ _

theorem raise_event (s : State) (cls code unit sev : Nat) (d0 d1 : Word) (i : Nat) (h : s.fab.event.getLsbD i = true) :
    (s.raise cls code unit sev d0 d1).fab.event.getLsbD i = true := by
  unfold State.raise
  dsimp only
  split
  · exact noteRouteDrop_event _ _ (by rw [logEvent_fab_event]; exact h)
  · rw [logEvent_fab_event]; exact h

theorem raise_port (s : State) (cls code unit sev : Nat) (d0 d1 : Word) (p : Fin 12) :
    QueuedOnly s.ports[p] (s.raise cls code unit sev d0 d1).ports[p] := by
  unfold State.raise
  dsimp only
  split
  · exact (logEvent_port s cls _ p).trans (noteRouteDrop_port _ p)
  · exact logEvent_port s cls _ p

/-- A FAB_EVENT bit: it is set, and what else changes is the raising of its event. -/
theorem fabEvent_frame (s : State) (bit unit : Nat) : Raised s (s.fabEvent bit unit) := by
  unfold State.fabEvent
  split
  · exact Raised.refl s
  · exact Raised.trans (Raised.modFab _ _) (raise_frame _ _ _ _ _ _ _)

theorem fabEvent_set (s : State) (bit unit : Nat) (hb : bit < 7) : (s.fabEvent bit unit).fab.event.getLsbD bit = true := by
  unfold State.fabEvent
  split
  · assumption
  · exact raise_event _ _ _ _ _ _ _ _ (by simp [hb])

/-- A LNK_EVENT bit of a port. -/
theorem lnkEvent_frame (s : State) (p : Fin 12) (bit : Nat) : Raised s (s.lnkEvent p bit) := by
  unfold State.lnkEvent
  split
  · exact Raised.refl s
  · exact Raised.trans (Raised.modPort _ _ _) (raise_frame _ _ _ _ _ _ _)

/-- The port with an event bit set. -/
def Port.flagged (p : Port) (bit : Nat) : Port := { p with event := p.event ||| BitVec.twoPow 9 bit }

theorem Port.flagged_self (p : Port) (bit : Nat) (h : p.event.getLsbD bit = true) : p.flagged bit = p := by
  have : p.event ||| BitVec.twoPow 9 bit = p.event := by
    apply BitVec.eq_of_getLsbD_eq
    intro i hi
    simp only [BitVec.getLsbD_or, BitVec.getLsbD_twoPow]
    by_cases e : bit = i
    · subst e; simp only [h, Bool.true_or]
    · simp [e]
  simp [Port.flagged, this]

/-- Of its port it changes the event register and the flits that wait. -/
theorem lnkEvent_port (s : State) (p : Fin 12) (bit : Nat) :
    QueuedOnly ((s.ports[p]).flagged bit) (s.lnkEvent p bit).ports[p] := by
  unfold State.lnkEvent
  split
  · rename_i h
    rw [Port.flagged_self _ _ h]; rfl
  · have e : (s.ports[p]).flagged bit = (s.modPort p (fun q => q.flagged bit)).ports[p] := by
      rw [State.modPort_ports, vmod_get_same]
    rw [e]
    exact raise_port _ _ _ _ _ _ _ p

/-- Of another port it changes at most the flits that wait. -/
theorem lnkEvent_other (s : State) (p r : Fin 12) (bit : Nat) (hr : r ≠ p) :
    QueuedOnly s.ports[r] (s.lnkEvent p bit).ports[r] := by
  unfold State.lnkEvent
  split
  · rfl
  · have e : s.ports[r] = (s.modPort p (fun q => q.flagged bit)).ports[r] := by
      rw [State.modPort_ports, vmod_get_ne _ _ _ _ hr]
    rw [e]
    exact raise_port _ _ _ _ _ _ _ r

theorem pwrEvent_frame (s : State) (bit unit sev : Nat) (d1 : Word) : Raised s (s.pwrEvent bit unit sev d1) := by
  unfold State.pwrEvent
  split
  · exact Raised.refl s
  · exact Raised.trans (Raised.modPwr _ _) (raise_frame _ _ _ _ _ _ _)

theorem cfgEvent_frame (s : State) (bit unit : Nat) (d1 : Word) :
    Raised { s with cfg := { s.cfg with event := (s.cfgEvent bit unit d1).cfg.event } } (s.cfgEvent bit unit d1) := by
  unfold State.cfgEvent
  split
  · rfl
  · refine Raised.trans ?_ (raise_frame _ _ _ _ _ _ _)
    rw [(raise_frame _ _ _ _ _ _ _).cfg]
    rfl

theorem secEvent_frame (s : State) (bit unit : Nat) (d1 : Word) :
    Raised { s with sec := { s.sec with event := (s.secEvent bit unit d1).sec.event } } (s.secEvent bit unit d1) := by
  unfold State.secEvent
  split
  · rfl
  · refine Raised.trans ?_ (raise_frame _ _ _ _ _ _ _)
    rw [(raise_frame _ _ _ _ _ _ _).sec]
    rfl

end Sys2Proof.Machine
end

