-- ==== Sys2Proof/Laws/Memory.lean ====
section
/-! SUPPORT. Sparse tables and byte memories: what a read gives after a write, and that every operation keeps the
canonical form. -/

namespace Sys2Proof.Machine

variable {α : Type}

/-! ### Keys of a table -/

/-- Every key of a table lies above a bound. -/
def above (k : Nat) (t : Tbl α) : Prop := ∀ e ∈ t, k < e.1

theorem risingKeys_cons (e : Nat × α) (t : Tbl α) : risingKeys (e :: t) = true ↔ above e.1 t ∧ risingKeys t = true := by
  induction t generalizing e with
  | nil => simp [risingKeys, above]
  | cons f t ih =>
    obtain ⟨j, v⟩ := e
    obtain ⟨k, w⟩ := f
    simp only [risingKeys, Bool.and_eq_true, decide_eq_true_eq, above, List.mem_cons, forall_eq_or_imp]
    constructor
    · rintro ⟨h, r⟩
      refine ⟨⟨h, fun e he => ?_⟩, r⟩
      have := ((ih (k, w)).1 r).1 e he
      exact Nat.lt_trans h this
    · rintro ⟨⟨h, _⟩, r⟩
      exact ⟨h, r⟩

theorem risingKeys_filter (p : Nat × α → Bool) (t : Tbl α) (h : risingKeys t = true) : risingKeys (t.filter p) = true := by
  induction t with
  | nil => rfl
  | cons e t ih =>
    obtain ⟨ha, hr⟩ := (risingKeys_cons e t).1 h
    rw [List.filter_cons]
    split
    · exact (risingKeys_cons _ _).2 ⟨fun x hx => ha x (List.mem_of_mem_filter hx), ih hr⟩
    · exact ih hr

theorem mem_tins (k : Nat) (v : α) (t : Tbl α) (e : Nat × α) (h : e ∈ tins k v t) : e = (k, v) ∨ e ∈ t := by
  induction t with
  | nil => simpa [tins] using h
  | cons f t ih =>
    obtain ⟨j, w⟩ := f
    unfold tins at h
    split at h
    · simpa using h
    · rcases List.mem_cons.1 h with h | h
      · exact .inr (by simp [h])
      · rcases ih h with h | h
        · exact .inl h
        · exact .inr (by simp [h])

theorem risingKeys_tins (k : Nat) (v : α) (t : Tbl α) (h : risingKeys t = true) (hk : ∀ e ∈ t, e.1 ≠ k) :
    risingKeys (tins k v t) = true := by
  induction t with
  | nil => rfl
  | cons f t ih =>
    obtain ⟨j, w⟩ := f
    obtain ⟨ha, hr⟩ := (risingKeys_cons _ _).1 h
    have hj : j ≠ k := hk (j, w) (by simp)
    unfold tins
    split
    · rename_i hlt
      refine (risingKeys_cons _ _).2 ⟨fun e he => ?_, h⟩
      rcases List.mem_cons.1 he with rfl | he
      · exact hlt
      · exact Nat.lt_trans hlt (ha e he)
    · rename_i hlt
      refine (risingKeys_cons _ _).2 ⟨fun e he => ?_, ih hr (fun e he => hk e (by simp [he]))⟩
      rcases mem_tins k v t e he with rfl | he
      · show j < k
        omega
      · exact ha e he

theorem tdel_ne (t : Tbl α) (k : Nat) : ∀ e ∈ tdel t k, e.1 ≠ k := by
  intro e he
  have := List.of_mem_filter he
  simpa using this

theorem risingKeys_tdel (t : Tbl α) (k : Nat) (h : risingKeys t = true) : risingKeys (tdel t k) = true :=
  risingKeys_filter _ t h

theorem risingKeys_tput (t : Tbl α) (k : Nat) (v : α) (h : risingKeys t = true) : risingKeys (tput t k v) = true :=
  risingKeys_tins k v _ (risingKeys_tdel t k h) (tdel_ne t k)

/-! ### Reading a table after a change -/

theorem tget_tins (d : α) (k : Nat) (v : α) (t : Tbl α) (j : Nat) (hk : ∀ e ∈ t, e.1 ≠ k) :
    tget d (tins k v t) j = if j = k then v else tget d t j := by
  induction t with
  | nil => simp [tins, tget, eq_comm]
  | cons f t ih =>
    obtain ⟨i, w⟩ := f
    have hi : i ≠ k := hk (i, w) (by simp)
    have ih' := ih (fun e he => hk e (by simp [he]))
    unfold tins
    split
    · by_cases h : j = k
      · simp [tget, h]
      · have : ¬k = j := fun e => h e.symm
        simp [tget, h, this]
    · by_cases hij : i = j
      · subst hij
        simp [tget, hi]
      · simp [tget, hij, ih']

theorem tget_tdel (d : α) (t : Tbl α) (k j : Nat) : tget d (tdel t k) j = if j = k then d else tget d t j := by
  induction t with
  | nil => simp [tdel, tget]
  | cons f t ih =>
    obtain ⟨i, w⟩ := f
    unfold tdel at ih ⊢
    rw [List.filter_cons]
    by_cases h : i = k
    · subst h
      simp only [bne_self_eq_false, Bool.false_eq_true, if_false, ih]
      by_cases hj : j = i
      · simp [hj]
      · have hi : ¬i = j := fun e => hj e.symm
        simp [hj, hi, tget]
    · simp only [bne_iff_ne, ne_eq, h, not_false_eq_true, if_true]
      by_cases hij : i = j
      · subst hij
        simp [tget, h]
      · simp [tget, hij, ih]

theorem tget_tput (d : α) (t : Tbl α) (k : Nat) (v : α) (j : Nat) : tget d (tput t k v) j = if j = k then v else tget d t j := by
  unfold tput
  rw [tget_tins d k v _ j (tdel_ne t k), tget_tdel]
  split <;> rfl

theorem tget_tset [DecidableEq α] (d : α) (t : Tbl α) (k : Nat) (v : α) (j : Nat) :
    tget d (tset d t k v) j = if j = k then v else tget d t j := by
  unfold tset
  split
  · rename_i h
    rw [tget_tdel, h]
  · rw [tget_tput]

/-! ### Memory: a read after a write, and a write elsewhere -/

theorem mread_mwrite (m : Memory) (a : Nat) (b : Byte) (x : Nat) : mread (mwrite m a b) x = if x = a then b else mread m x :=
  tget_tset _ _ _ _ _

theorem mread_mwriteN_out (m : Memory) (a : Nat) (l : List Byte) (x : Nat) (h : x < a ∨ a + l.length ≤ x) :
    mread (mwriteN m a l) x = mread m x := by
  induction l generalizing m a with
  | nil => rfl
  | cons b l ih =>
    have hl : (b :: l).length = l.length + 1 := rfl
    rw [mwriteN, ih _ _ (by omega), mread_mwrite, if_neg (by omega)]

theorem mread_mwriteN_in (m : Memory) (a : Nat) (l : List Byte) (i : Nat) (h : i < l.length) :
    mread (mwriteN m a l) (a + i) = l[i] := by
  induction l generalizing m a i with
  | nil => exact absurd h (Nat.not_lt_zero i)
  | cons b l ih =>
    rw [mwriteN]
    cases i with
    | zero =>
      rw [mread_mwriteN_out _ _ _ _ (.inl (by omega)), mread_mwrite, if_pos (by omega)]
      rfl
    | succ i =>
      have := ih (mwrite m a b) (a + 1) i (by simpa using h)
      rw [show a + (i + 1) = a + 1 + i by omega, this]
      rfl

/-! ### Every memory operation keeps the canonical form -/

theorem Memory.wf_iff (m : Memory) : m.wf = true ↔ risingKeys m = true ∧ ∀ c ∈ m, c.2 ≠ Memory.unlisted := by
  simp [Memory.wf]

theorem mwrite_wf (m : Memory) (a : Nat) (b : Byte) (h : m.wf = true) : (mwrite m a b).wf = true := by
  obtain ⟨hr, hv⟩ := (Memory.wf_iff m).1 h
  have hd : ∀ c ∈ tdel m a, c.2 ≠ Memory.unlisted := fun c hc => hv c (List.mem_of_mem_filter hc)
  refine (Memory.wf_iff _).2 ?_
  unfold mwrite tset
  split
  · exact ⟨risingKeys_tdel m a hr, hd⟩
  · rename_i hb
    refine ⟨risingKeys_tput m a b hr, fun c hc => ?_⟩
    rcases mem_tins a b _ c hc with rfl | hc
    · exact hb
    · exact hd c hc

theorem mwriteN_wf (m : Memory) (a : Nat) (l : List Byte) (h : m.wf = true) : (mwriteN m a l).wf = true := by
  induction l generalizing m a with
  | nil => exact h
  | cons b l ih => exact ih _ _ (mwrite_wf m a b h)

theorem mwriteN_foldl_wf (g : Nat → Nat) (e : Nat → List Byte) (l : List Nat) (m : Memory) (h : m.wf = true) :
    (l.foldl (fun m i => mwriteN m (g i) (e i)) m).wf = true := by
  induction l generalizing m with
  | nil => exact h
  | cons i l ih => exact ih _ (mwriteN_wf _ _ _ h)

theorem mclear_wf (m : Memory) (a n : Nat) (h : m.wf = true) : (mclear m a n).wf = true := by
  obtain ⟨hr, hv⟩ := (Memory.wf_iff m).1 h
  exact (Memory.wf_iff _).2 ⟨risingKeys_filter _ m hr, fun c hc => hv c (List.mem_of_mem_filter hc)⟩

end Sys2Proof.Machine
end

