-- ==== Sys2Proof/Laws/Keeps.lean ====
section
/-! SUPPORT. What every operation and every command keeps: the queue, the time, the canonical form of the stacked memory,
the bounds of the two logs, the floor pace and the beat registers.  The definitions and their plain lemmas. -/

namespace Sys2Proof.Machine

/-- What a shared operation keeps, said of the few parts of the state it is about: the queue, the canonical form of the
stacked memory, the 64 slots of the bad-block log and of the event log, the time, the floor pace and, with `b`, the beat
registers. -/
structure Kept (b : Bool) (r : State) (pending : List Instr) (hbm : Memory) (bbl : RingLog (BitVec 256)) (ev : RingLog (BitVec 256))
    (now : Nat) (floor : BitVec 16) (beats : DWord × BitVec 16 × Word × Word × Word × DWord) : Prop where
  pending : pending = r.pending
  hbm : Memory.wf r.hbm = true → Memory.wf hbm = true
  bbl : r.glb.bbl.recs.length ≤ 64 → bbl.recs.length ≤ 64
  ev : r.pwr.evlog.recs.length ≤ 64 → ev.recs.length ≤ 64
  now : now = r.now
  floor : floor = r.glb.floorPace
  beats : b = true → beats = (r.glb.beatCnt, r.glb.period, r.glb.beatLast, r.glb.stretchCnt, r.glb.holdCnt, r.glb.holdTicks)
/-- `s` keeps of `r` what `Kept` says. -/
def Keeps (b : Bool) (r s : State) : Prop := Kept b r s.pending s.hbm s.glb.bbl s.pwr.evlog s.now s.glb.floorPace (s.glb.beatCnt, s.glb.period, s.glb.beatLast, s.glb.stretchCnt, s.glb.holdCnt, s.glb.holdTicks)
/-- The same of an outcome: its next state keeps it. -/
def KeepsOut (b : Bool) (r : State) : Out → Prop
  | .next t => Keeps b r t
  | _ => True
/-- The same of a stream or conduit move. -/
def KeepsMove (b : Bool) (r : State) : Move → Prop
  | .ok t => Keeps b r t
  | _ => True
theorem keepsOut_next {bb : Bool} {r t : State} (h : Keeps bb r t) : KeepsOut bb r (.next t) := h
theorem keepsOut_fault {bb : Bool} {r : State} {x} : KeepsOut bb r (.fault x) := trivial
theorem keepsMove_ok {bb : Bool} {r t : State} (h : Keeps bb r t) : KeepsMove bb r (.ok t) := h
@[simp] theorem keepsOut_next_iff {bb : Bool} {r t : State} : KeepsOut bb r (.next t) = Keeps bb r t := propext ⟨id, id⟩
@[simp] theorem keepsOut_fault_iff {bb : Bool} {r : State} {x} : KeepsOut bb r (.fault x) = True := propext ⟨fun _ => trivial, fun _ => trivial⟩
@[simp] theorem keepsOut_ref_iff {bb : Bool} {r : State} {x} : KeepsOut bb r (.refused x) = True := propext ⟨fun _ => trivial, fun _ => trivial⟩
@[simp] theorem keepsMove_ok_iff {bb : Bool} {r t : State} : KeepsMove bb r (.ok t) = Keeps bb r t := propext ⟨id, id⟩
@[simp] theorem keepsMove_w {bb : Bool} {r : State} : KeepsMove bb r .wait = True := propext ⟨fun _ => trivial, fun _ => trivial⟩
@[simp] theorem keepsMove_f {bb : Bool} {r : State} {c v} : KeepsMove bb r (.fault c v) = True := propext ⟨fun _ => trivial, fun _ => trivial⟩
theorem keeps_refl {bb : Bool} (r : State) : Keeps bb r r := ⟨rfl, id, id, id, rfl, rfl, fun _ => rfl⟩
@[simp] theorem kept_eta {bb : Bool} {r s : State} : Kept bb r s.pending s.hbm s.glb.bbl s.pwr.evlog s.now s.glb.floorPace (s.glb.beatCnt, s.glb.period, s.glb.beatLast, s.glb.stretchCnt, s.glb.holdCnt, s.glb.holdTicks) = Keeps bb r s := propext ⟨id, id⟩
@[simp] theorem keeps_mk {bb : Bool} {r : State} {a b c d e f g h i j j2 j3 j4 k l m m2 n o p q u v w w2 x y} :
  Keeps bb r (State.mk a b c d e f g h i j j2 j3 j4 k l m m2 n o p q u v w w2 x y) = Kept bb r a m d.bbl x.evlog b d.floorPace (d.beatCnt, d.period, d.beatLast, d.stretchCnt, d.holdCnt, d.holdTicks) := propext ⟨id, id⟩
theorem keeps_hbm {bb : Bool} {r s : State} (h : Keeps bb r s) (m : Memory) (hm : Memory.wf s.hbm = true → Memory.wf m = true) : Keeps bb r { s with hbm := m } :=
  ⟨h.pending, fun x => hm (h.hbm x), h.bbl, h.ev, h.now, h.floor, h.beats⟩
theorem push_len {α} (l : RingLog α) (x : α) (h : l.recs.length ≤ 64) : (l.push x).recs.length ≤ 64 := by
  unfold RingLog.push; split
  · exact h
  · simp; omega
theorem pop_len {α} (l : RingLog α) (h : l.recs.length ≤ 64) : (l.pop).recs.length ≤ 64 := by
  unfold RingLog.pop; split
  · exact h
  · rename_i h'; rw [h'] at h; simp at h ⊢; omega
theorem keeps_bbl {bb : Bool} {r s : State} (h : Keeps bb r s) (b : RingLog (BitVec 256)) (hm : s.glb.bbl.recs.length ≤ 64 → b.recs.length ≤ 64) : Keeps bb r { s with glb := { s.glb with bbl := b } } :=
  ⟨h.pending, h.hbm, fun x => hm (h.bbl x), h.ev, h.now, h.floor, h.beats⟩
theorem keeps_ev {bb : Bool} {r s : State} (h : Keeps bb r s) (b : RingLog (BitVec 256)) (hm : s.pwr.evlog.recs.length ≤ 64 → b.recs.length ≤ 64) : Keeps bb r { s with pwr := { s.pwr with evlog := b } } :=
  ⟨h.pending, h.hbm, h.bbl, fun x => hm (h.ev x), h.now, h.floor, h.beats⟩
theorem keeps_foldl {bb : Bool} {r : State} {α} (f : State → α → State) (hf : ∀ s a, Keeps bb r s → Keeps bb r (f s a)) (l : List α) (s : State) (h : Keeps bb r s) : Keeps bb r (l.foldl f s) := by
  induction l generalizing s with
  | nil => exact h
  | cons a l ih => exact ih _ (hf _ _ h)
theorem keepsMove_get {bb : Bool} {r t : State} {m : Move} (e : m = .ok t) (h : KeepsMove bb r m) : Keeps bb r t := by subst e; exact h
theorem keeps_optGet {bb : Bool} {r t : State} {o : Option State} (e : o = some t) (h : ∀ t, o = some t → Keeps bb r t) : Keeps bb r t := h _ e
theorem keeps_cut {bb : Bool} {r : State} {P : Prop} (x : State) (h : Keeps bb r x) (k : Keeps bb r x → P) : P := k h
theorem keeps_optGet2 {bb : Bool} {r : State} {α} {t : State × α} {o : Option (State × α)} (e : o = some t) (h : ∀ t, o = some t → Keeps bb r t.1) : Keeps bb r t.1 := h _ e
theorem keepsMove_fault {bb : Bool} {r : State} {a b} : KeepsMove bb r (.fault a b) := trivial
theorem keepsMove_wait {bb : Bool} {r : State} : KeepsMove bb r .wait := trivial
theorem keeps_isFun {α β : Type} {P : Prop} (_ : α → β) (h : P) : P := h
theorem keeps_getD {bb : Bool} {r s : State} {o : Option State} (h : ∀ t, o = some t → Keeps bb r t) (hs : Keeps bb r s) : Keeps bb r (o.getD s) := by
  cases o with
  | none => exact hs
  | some t => exact h t rfl
theorem keeps_getD1 {bb : Bool} {r : State} {α} {s : State × α} {o : Option (State × α)} (h : ∀ t, o = some t → Keeps bb r t.1) (hs : Keeps bb r s.1) : Keeps bb r (o.getD s).1 := by
  cases o with
  | none => exact hs
  | some t => exact h t rfl
theorem keeps_foldl1 {bb : Bool} {r : State} {α β} (f : State × β → α → State × β) (hf : ∀ p a, Keeps bb r p.1 → Keeps bb r (f p a).1) (l : List α) (p : State × β) (h : Keeps bb r p.1) : Keeps bb r (l.foldl f p).1 := by
  induction l generalizing p with
  | nil => exact h
  | cons a l ih => exact ih _ (hf _ _ h)
theorem keeps_foldl2 {bb : Bool} {r : State} {α β} (f : β × State → α → β × State) (hf : ∀ p a, Keeps bb r p.2 → Keeps bb r (f p a).2) (l : List α) (p : β × State) (h : Keeps bb r p.2) : Keeps bb r (l.foldl f p).2 := by
  induction l generalizing p with
  | nil => exact h
  | cons a l ih => exact ih _ (hf _ _ h)
theorem keeps_cut1 {bb : Bool} {r : State} {P : Prop} {α} (x : State × α) (h : Keeps bb r x.1) (k : Keeps bb r x.1 → P) : P := k h
theorem keeps_cut2 {bb : Bool} {r : State} {P : Prop} {α} (x : α × State) (h : Keeps bb r x.2) (k : Keeps bb r x.2 → P) : P := k h
theorem keeps_isPwr {P : Prop} (_ : Pwr) (h : P) : P := h
theorem map_len {α} (l : RingLog α) (f : α → α) (h : l.recs.length ≤ 64) : (l.recs.map f).length ≤ 64 := by simpa using h
theorem keeps_ite {bb : Bool} {r : State} {c : Prop} [Decidable c] {a b : State} (h : c → Keeps bb r a) (k : ¬c → Keeps bb r b) : Keeps bb r (if c then a else b) := by
  split
  · exact h ‹_›
  · exact k ‹_›
theorem keepsOut_ite {bb : Bool} {r : State} {c : Prop} [Decidable c] {a b : Out} (h : c → KeepsOut bb r a) (k : ¬c → KeepsOut bb r b) : KeepsOut bb r (if c then a else b) := by
  split
  · exact h ‹_›
  · exact k ‹_›
theorem keepsMove_ite {bb : Bool} {r : State} {c : Prop} [Decidable c] {a b : Move} (h : c → KeepsMove bb r a) (k : ¬c → KeepsMove bb r b) : KeepsMove bb r (if c then a else b) := by
  split
  · exact h ‹_›
  · exact k ‹_›
theorem kept_false {r s : State} {x} : Kept false r s.pending s.hbm s.glb.bbl s.pwr.evlog s.now s.glb.floorPace x = Keeps false r s :=
  propext ⟨fun h => ⟨h.1, h.2, h.3, h.4, h.5, h.6, fun e => nomatch e⟩, fun h => ⟨h.1, h.2, h.3, h.4, h.5, h.6, fun e => nomatch e⟩⟩

end Sys2Proof.Machine
end

