-- ==== Sys2Proof/Laws/KeepsUnits.lean ====
section
/-! SUPPORT. What every operation and every command keeps: the queue, the time, the canonical form of the stacked memory,
the bounds of the two logs, the floor pace and the beat registers.  The shared operations, the calderas, the conduits, the stacked memory and the streams. -/

namespace Sys2Proof.Machine

theorem keeps_modCal {bb : Bool} {q0 : State} (s : State) (n : Fin 64) (f : Caldera → Caldera) (hs : Keeps bb q0 s) : Keeps bb q0 (State.modCal s n f) := by
  unfold State.modCal
  (repeat' first
      | (simp only [keeps_mk, kept_eta]; with_reducible assumption))

theorem keeps_modStack {bb : Bool} {q0 : State} (s : State) (k : Fin 8) (f : Stack → Stack) (hs : Keeps bb q0 s) : Keeps bb q0 (State.modStack s k f) := by
  unfold State.modStack
  (repeat' first
      | (simp only [keeps_mk, kept_eta]; with_reducible assumption))

theorem keeps_modChan {bb : Bool} {q0 : State} (s : State) (k : Fin 8) (c : Fin 32) (f : Chan → Chan) (hs : Keeps bb q0 s) : Keeps bb q0 (State.modChan s k c f) := by
  unfold State.modChan
  (repeat' first
      | with_reducible assumption
      | with_reducible apply keeps_modStack)

theorem keeps_modPort {bb : Bool} {q0 : State} (s : State) (p : Fin 12) (f : Port → Port) (hs : Keeps bb q0 s) : Keeps bb q0 (State.modPort s p f) := by
  unfold State.modPort
  (repeat' first
      | (simp only [keeps_mk, kept_eta]; with_reducible assumption))

theorem keeps_modRegion {bb : Bool} {q0 : State} (s : State) (r : Fin 16) (f : Region → Region) (hs : Keeps bb q0 s) : Keeps bb q0 (State.modRegion s r f) := by
  unfold State.modRegion
  (repeat' first
      | (simp only [keeps_mk, kept_eta]; with_reducible assumption))

theorem keeps_modNoc {bb : Bool} {q0 : State} (s : State) (die : Bool) (f : NocDie → NocDie) (hs : Keeps bb q0 s) : Keeps bb q0 (State.modNoc s die f) := by
  unfold State.modNoc
  (repeat' first
      | (simp only [keeps_mk, kept_eta]; with_reducible assumption))

theorem keeps_modFab {bb : Bool} {q0 : State} (s : State) (f : Fab → Fab) (hs : Keeps bb q0 s) : Keeps bb q0 (State.modFab s f) := by
  unfold State.modFab
  (repeat' first
      | (simp only [keeps_mk, kept_eta]; with_reducible assumption))

theorem keeps_modCp {bb : Bool} {q0 : State} (s : State) (f : CmdProc → CmdProc) (hs : Keeps bb q0 s) : Keeps bb q0 (State.modCp s f) := by
  unfold State.modCp
  (repeat' first
      | (simp only [keeps_mk, kept_eta]; with_reducible assumption))

theorem keeps_modCfg {bb : Bool} {q0 : State} (s : State) (f : Cfg → Cfg) (hs : Keeps bb q0 s) : Keeps bb q0 (State.modCfg s f) := by
  unfold State.modCfg
  (repeat' first
      | (simp only [keeps_mk, kept_eta]; with_reducible assumption))

theorem keeps_modSec {bb : Bool} {q0 : State} (s : State) (f : Sec → Sec) (hs : Keeps bb q0 s) : Keeps bb q0 (State.modSec s f) := by
  unfold State.modSec
  (repeat' first
      | (simp only [keeps_mk, kept_eta]; with_reducible assumption))

theorem keeps_draw {bb : Bool} {q0 : State} (s : State) (hs : Keeps bb q0 s) : Keeps bb q0 (State.draw s).2 := by
  unfold State.draw
  (repeat' first
      | (simp only [keeps_mk, kept_eta]; with_reducible assumption))

theorem keeps_emit {bb : Bool} {q0 : State} (s : State) (o : PcieOut) (hs : Keeps bb q0 s) : Keeps bb q0 (State.emit s o) := by
  unfold State.emit
  (repeat' first
      | with_reducible assumption
      | with_reducible apply keeps_modCp)

theorem keeps_sendOn {bb : Bool} {q0 : State} (s : State) (p : Fin 12) (arrival : Option (Fin 12)) (f : Data2048) (hs : Keeps bb q0 s) : Keeps bb q0 (State.sendOn s p arrival f) := by
  unfold State.sendOn
  (repeat' first
      | with_reducible assumption
      | with_reducible apply keeps_modPort)

theorem keeps_sendTo {bb : Bool} {q0 : State} (s : State) (arrival : Option (Fin 12)) (f : Data2048) (hs : Keeps bb q0 s) : Keeps bb q0 (State.sendTo s arrival f).1 := by
  unfold State.sendTo
  (repeat' first
      | with_reducible assumption
      | with_reducible apply keeps_sendOn
      | with_reducible apply keeps_modFab
      | split)

theorem keeps_logEvent {bb : Bool} {q0 : State} (s : State) (cls : ℕ) (r : BitVec 256) (hs : Keeps bb q0 s) : Keeps bb q0 (State.logEvent s cls r).1 := by
  unfold State.logEvent
  have h1 : Keeps bb q0 (s.modPwr (fun p => { p with evlog := p.evlog.push r })) := keeps_ev hs _ (push_len _ _)
  generalize (s.modPwr (fun p => { p with evlog := p.evlog.push r })) = s1 at *
  clear hs
  (repeat' first
      | (extract_lets +onlyGivenNames x; first
          | (with_reducible refine keeps_cut (bb := bb) (r := q0) x ?_ (fun hx => ?_); (on_goal 2 => clear_value x); (on_goal 1 => (unfold x; clear x)))
          )
      | with_reducible assumption
      | with_reducible apply keeps_emit
      | with_reducible apply keeps_modFab
      | with_reducible apply keeps_sendTo
      | split
      | (simp only [keeps_mk, kept_eta, State.modPwr]; with_reducible assumption))

theorem keeps_noteRouteDrop {bb : Bool} {q0 : State} (s : State) (hs : Keeps bb q0 s) : Keeps bb q0 (State.noteRouteDrop s) := by
  unfold State.noteRouteDrop
  (repeat' first
      | with_reducible assumption
      | with_reducible apply keeps_modFab
      | with_reducible apply keeps_logEvent
      | with_reducible refine keeps_ite (fun _ => ?_) (fun _ => ?_))

theorem keeps_raise {bb : Bool} {q0 : State} (s : State) (cls : ℕ) (code : ℕ) (unit : ℕ) (sev : ℕ) (d0 : Word) (d1 : Word) (hs : Keeps bb q0 s) : Keeps bb q0 (State.raise s cls code unit sev d0 d1) := by
  unfold State.raise
  (repeat' first
      | with_reducible assumption
      | with_reducible apply keeps_logEvent
      | with_reducible apply keeps_noteRouteDrop
      | with_reducible refine keeps_ite (fun _ => ?_) (fun _ => ?_))

theorem keeps_fabEvent {bb : Bool} {q0 : State} (s : State) (bit : ℕ) (unit : ℕ) (hs : Keeps bb q0 s) : Keeps bb q0 (State.fabEvent s bit unit) := by
  unfold State.fabEvent
  (repeat' first
      | with_reducible assumption
      | with_reducible apply keeps_modFab
      | with_reducible apply keeps_raise
      | with_reducible refine keeps_ite (fun _ => ?_) (fun _ => ?_))

theorem keeps_pwrEvent {bb : Bool} {q0 : State} (s : State) (bit : ℕ) (unit : ℕ) (sev : ℕ) (d1 : Word) (hs : Keeps bb q0 s) : Keeps bb q0 (State.pwrEvent s bit unit sev d1) := by
  unfold State.pwrEvent
  (repeat' first
      | with_reducible assumption
      | with_reducible apply keeps_raise
      | with_reducible refine keeps_ite (fun _ => ?_) (fun _ => ?_)
      | (simp only [keeps_mk, kept_eta, State.modPwr]; with_reducible assumption))

theorem keeps_lnkEvent {bb : Bool} {q0 : State} (s : State) (p : Fin 12) (bit : ℕ) (hs : Keeps bb q0 s) : Keeps bb q0 (State.lnkEvent s p bit) := by
  unfold State.lnkEvent
  (repeat' first
      | with_reducible assumption
      | with_reducible apply keeps_modPort
      | with_reducible apply keeps_raise
      | with_reducible refine keeps_ite (fun _ => ?_) (fun _ => ?_))

theorem keeps_cfgEvent {bb : Bool} {q0 : State} (s : State) (bit : ℕ) (unit : ℕ) (d1 : Word) (hs : Keeps bb q0 s) : Keeps bb q0 (State.cfgEvent s bit unit d1) := by
  unfold State.cfgEvent
  (repeat' first
      | with_reducible assumption
      | with_reducible apply keeps_modCfg
      | with_reducible apply keeps_raise
      | with_reducible refine keeps_ite (fun _ => ?_) (fun _ => ?_))

theorem keeps_secEvent {bb : Bool} {q0 : State} (s : State) (bit : ℕ) (unit : ℕ) (d1 : Word) (hs : Keeps bb q0 s) : Keeps bb q0 (State.secEvent s bit unit d1) := by
  unfold State.secEvent
  (repeat' first
      | with_reducible assumption
      | with_reducible apply keeps_modSec
      | with_reducible apply keeps_raise
      | with_reducible refine keeps_ite (fun _ => ?_) (fun _ => ?_))

theorem keeps_modCmd {bb : Bool} {q0 : State} (s : State) (serial : ℕ) (f : Cmd → Cmd) (hs : Keeps bb q0 s) : Keeps bb q0 (State.modCmd s serial f) := by
  unfold State.modCmd
  (repeat' first
      | with_reducible assumption
      | with_reducible apply keeps_modCp)

theorem keeps_completeTo {bb : Bool} {q0 : State} (s : State) (serial : ℕ) (phase : CmdPhase) (status : ℕ) (detail : Word) (r0 : Word) (r1 : DWord) (hs : Keeps bb q0 s) : Keeps bb q0 (State.completeTo s serial phase status detail r0 r1) := by
  unfold State.completeTo
  (repeat' first
      | with_reducible assumption
      | with_reducible apply keeps_modCp
      | with_reducible apply keeps_modCmd
      | split)

theorem keeps_complete {bb : Bool} {q0 : State} (s : State) (serial : ℕ) (status : ℕ) (detail : Word) (r0 : Word) (r1 : DWord) (hs : Keeps bb q0 s) : Keeps bb q0 (State.complete s serial status detail r0 r1) := by
  unfold State.complete
  (repeat' first
      | with_reducible assumption
      | with_reducible apply keeps_completeTo)

theorem keeps_stopWork {bb : Bool} {q0 : State} (s : State) (serial : ℕ) (work : Option ℕ) (status : ℕ) (detail : Word) (r0 : Word) (r1 : DWord) (hs : Keeps bb q0 s) : Keeps bb q0 (State.stopWork s serial work status detail r0 r1) := by
  unfold State.stopWork
  (repeat' first
      | with_reducible assumption
      | with_reducible apply keeps_completeTo)

theorem keeps_freeTag {bb : Bool} {q0 : State} (s : State) (w : ℕ) (hs : Keeps bb q0 s) : Keeps bb q0 (State.freeTag s w) := by
  unfold State.freeTag
  (repeat' first
      | with_reducible assumption
      | with_reducible apply keeps_modCmd
      | with_reducible apply keeps_modCp
      | with_reducible refine keeps_ite (fun _ => ?_) (fun _ => ?_))

theorem keeps_endWork {bb : Bool} {q0 : State} (s : State) (work : Option ℕ) (carrier : ℕ) (hs : Keeps bb q0 s) : Keeps bb q0 (State.endWork s work carrier) := by
  unfold State.endWork
  (repeat' first
      | with_reducible assumption
      | with_reducible apply keeps_freeTag
      | split)

theorem keeps_completeOk {bb : Bool} {q0 : State} (s : State) (serial : ℕ) (hs : Keeps bb q0 s) : Keeps bb q0 (State.completeOk s serial) := by
  unfold State.completeOk
  (repeat' first
      | with_reducible assumption
      | with_reducible apply keeps_complete)

theorem keeps_badParam {bb : Bool} {q0 : State} (s : State) (serial : ℕ) (check : ℕ) (off : ℕ) (hs : Keeps bb q0 s) : Keeps bb q0 (State.badParam s serial check off) := by
  unfold State.badParam
  (repeat' first
      | with_reducible assumption
      | with_reducible apply keeps_complete)

theorem keeps_badData {bb : Bool} {q0 : State} (s : State) (serial : ℕ) (check : ℕ) (off : ℕ) (hs : Keeps bb q0 s) : Keeps bb q0 (State.badData s serial check off) := by
  unfold State.badData
  (repeat' first
      | with_reducible assumption
      | with_reducible apply keeps_complete)

theorem keeps_after {bb : Bool} {q0 : State} (s : State) (f : State → Out) (hs : Keeps bb q0 s) (hf : ∀ t, Keeps bb q0 t → KeepsOut bb q0 (f t)) : Keeps bb q0 (State.after s f) := by
  have h := hf s hs
  unfold State.after
  generalize f s = o at h
  cases o with
  | next t => exact h
  | fault _ => exact hs
  | refused _ => exact hs

theorem keeps_noteLate {bb : Bool} {q0 : State} (s : State) (hs : Keeps bb q0 s) : Keeps bb q0 (State.noteLate s) := by
  unfold State.noteLate
  (repeat' first
      | with_reducible assumption
      | with_reducible apply keeps_modSec)

theorem keeps_modPlan {bb : Bool} {q0 : State} (s : State) (h : PlanId) (f : Plan → Plan) (hs : Keeps bb q0 s) : Keeps bb q0 (State.modPlan s h f) := by
  unfold State.modPlan
  (repeat' first
      | (simp only [keeps_mk, kept_eta]; with_reducible assumption))

theorem keeps_report {bb : Bool} {q0 : State} (s : State) (ty : ℕ) (payload : BitVec 1920) (hs : Keeps bb q0 s) : Keeps bb q0 (State.report s ty payload) := by
  unfold State.report
  (repeat' first
      | with_reducible assumption
      | with_reducible apply keeps_sendTo
      | with_reducible apply keeps_noteRouteDrop
      | with_reducible refine keeps_ite (fun _ => ?_) (fun _ => ?_))

theorem keeps_forwardNotice {bb : Bool} {q0 : State} (s : State) (n : BitVec 10) (payload : BitVec 1920) (hs : Keeps bb q0 s) : Keeps bb q0 (State.forwardNotice s n payload) := by
  unfold State.forwardNotice
  (repeat' first
      | with_reducible assumption
      | with_reducible apply keeps_sendTo
      | with_reducible apply keeps_noteRouteDrop
      | with_reducible refine keeps_ite (fun _ => ?_) (fun _ => ?_))

theorem keeps_placeNotice {bb : Bool} {q0 : State} (s : State) (kind : BitVec 2) (fplan : BitVec 16) (hs : Keeps bb q0 s) : Keeps bb q0 (State.placeNotice s kind fplan) := by
  unfold State.placeNotice
  (repeat' first
      | with_reducible assumption
      | with_reducible apply keeps_forwardNotice
      | split
      | (simp only [keeps_mk, kept_eta, State.modGlb]; with_reducible assumption))

theorem keeps_sendStopNotice {bb : Bool} {q0 : State} (s : State) (kind : BitVec 2) (fplan : BitVec 16) (hs : Keeps bb q0 s) : Keeps bb q0 (State.sendStopNotice s kind fplan) := by
  unfold State.sendStopNotice
  (repeat' first
      | with_reducible assumption
      | with_reducible apply keeps_placeNotice
      | with_reducible apply keeps_report
      | with_reducible refine keeps_ite (fun _ => ?_) (fun _ => ?_))

theorem keeps_stopIfHeld {bb : Bool} {q0 : State} (s : State) (h : PlanId) (hs : Keeps bb q0 s) : Keeps bb q0 (State.stopIfHeld s h) := by
  unfold State.stopIfHeld
  (repeat' first
      | with_reducible assumption
      | with_reducible apply keeps_modPlan
      | split
      | (simp only [keeps_mk, kept_eta, State.modGlb]))

theorem keeps_planStop {bb : Bool} {q0 : State} (s : State) (h : PlanId) (why : StopReason) (cal : ℕ) (hs : Keeps bb q0 s) : Keeps bb q0 (State.planStop s h why cal) := by
  unfold State.planStop
  (repeat' first
      | (extract_lets +onlyGivenNames x; first
          | (with_reducible refine keeps_cut (bb := bb) (r := q0) x ?_ (fun hx => ?_); (on_goal 2 => clear_value x); (on_goal 1 => (unfold x; clear x)))
          | clear_value x
          )
      | with_reducible assumption
      | with_reducible apply keeps_modPlan
      | with_reducible apply keeps_sendStopNotice
      | with_reducible apply keeps_stopIfHeld
      | split)

theorem keeps_modStm {bb : Bool} {q0 : State} (s : State) (r : SlotRef) (f : Stream → Stream) (hs : Keeps bb q0 s) : Keeps bb q0 (State.modStm s r f) := by
  unfold State.modStm
  (repeat' first
      | with_reducible assumption
      | with_reducible apply keeps_modCal
      | with_reducible apply keeps_modCp
      | split)

theorem keeps_feed {bb : Bool} {q0 : State} (s : State) (r : SlotRef) (b : List Byte) (hs : Keeps bb q0 s) : Keeps bb q0 (State.feed s r b) := by
  unfold State.feed
  (repeat' first
      | with_reducible assumption
      | with_reducible apply keeps_modStm)

theorem keeps_unfeed {bb : Bool} {q0 : State} (s : State) (r : SlotRef) (n : ℕ) (hs : Keeps bb q0 s) : Keeps bb q0 (State.unfeed s r n) := by
  unfold State.unfeed
  (repeat' first
      | with_reducible assumption
      | with_reducible apply keeps_modStm)

theorem keeps_haltStream {bb : Bool} {q0 : State} (s : State) (r : SlotRef) (cause : ℕ) (vpn : BitVec 21) (hs : Keeps bb q0 s) : Keeps bb q0 (State.haltStream s r cause vpn) := by
  unfold State.haltStream
  (repeat' first
      | (extract_lets +onlyGivenNames x; first
          | (with_reducible refine keeps_cut (bb := bb) (r := q0) x ?_ (fun hx => ?_); (on_goal 2 => clear_value x); (on_goal 1 => (unfold x; clear x)))
          | clear_value x
          )
      | with_reducible assumption
      | with_reducible apply keeps_modStm
      | with_reducible apply keeps_planStop
      | with_reducible apply keeps_modCal
      | with_reducible apply keeps_stopWork
      | split
      | (simp only [keeps_mk, kept_eta, State.modGlb]; with_reducible assumption))

theorem keeps_modEp {bb : Bool} {q0 : State} (s : State) (r : EpRef) (f : Endpoint → Endpoint) (hs : Keeps bb q0 s) : Keeps bb q0 (State.modEp s r f) := by
  unfold State.modEp
  (repeat' first
      | with_reducible assumption
      | with_reducible apply keeps_modCal
      | with_reducible apply keeps_modStack
      | with_reducible apply keeps_modPort
      | with_reducible apply keeps_modRegion
      | split)

theorem keeps_modGw {bb : Bool} {q0 : State} (s : State) (g : Fin 16) (e : Fin 16) (f : GwEp → GwEp) (hs : Keeps bb q0 s) : Keeps bb q0 (State.modGw s g e f) := by
  unfold State.modGw
  (repeat' first
      | with_reducible assumption
      | with_reducible apply keeps_modRegion)

theorem keeps_watchPanic {bb : Bool} {q0 : State} (s : State) (k : Fin 8) (ch : Fin 32) (hs : Keeps bb q0 s) : Keeps bb q0 (State.watchPanic s k ch) := by
  unfold State.watchPanic
  (repeat' first
      | with_reducible assumption
      | with_reducible apply keeps_modStack)

theorem keeps_watchStack {bb : Bool} {q0 : State} (s : State) (k : Fin 8) (hs : Keeps bb q0 s) : Keeps bb q0 (State.watchStack s k) := by
  unfold State.watchStack
  (repeat' first
      | with_reducible assumption
      | with_reducible apply keeps_watchPanic
      | with_reducible refine keeps_foldl _ (fun _ _ _ => ?_) _ _ ?_)

theorem keeps_offerStack {bb : Bool} {q0 : State} (s : State) (k : Fin 8) (e : Fin 32) (hs : Keeps bb q0 s) : Keeps bb q0 (State.offerStack s k e) := by
  unfold State.offerStack
  (repeat' first
      | (extract_lets +onlyGivenNames x; first
          | (with_reducible refine keeps_cut (bb := bb) (r := q0) x ?_ (fun hx => ?_); (on_goal 2 => clear_value x); (on_goal 1 => (unfold x; clear x)))
          | clear_value x
          )
      | with_reducible assumption
      | with_reducible apply keeps_modStack
      | with_reducible apply keeps_watchPanic
      | with_reducible apply keeps_modEp
      | with_reducible refine keeps_foldl _ (fun _ _ _ => ?_) _ _ ?_
      | split)

theorem keeps_absorbStack {bb : Bool} {q0 : State} (s : State) (k : Fin 8) (e : Fin 32) (hs : Keeps bb q0 s) : Keeps bb q0 (State.absorbStack s k e) := by
  unfold State.absorbStack
  (repeat' first
      | (extract_lets +onlyGivenNames x; first
          | clear_value x
          )
      | with_reducible assumption
      | with_reducible apply keeps_modEp
      | with_reducible apply keeps_watchPanic
      | with_reducible apply keeps_modStack
      | split)

theorem keeps_takeInput {bb : Bool} {q0 : State} (s : State) (n : Fin 64) (p : ℕ) (t : ℕ) (hs : Keeps bb q0 s) : Keeps bb q0 (State.takeInput s n p t) := by
  unfold State.takeInput
  (repeat' first
      | with_reducible assumption
      | with_reducible apply keeps_modEp
      | with_reducible apply keeps_modPort
      | with_reducible apply keeps_modGw
      | with_reducible apply keeps_offerStack
      | with_reducible apply keeps_modCal
      | split)

theorem keeps_pushOutput {bb : Bool} {q0 : State} (w : CWord) (n : Fin 64) (s : State) (o : ℕ × ℕ) (hs : Keeps bb q0 s) : Keeps bb q0 (State.pushOutput w n s o) := by
  unfold State.pushOutput
  (repeat' first
      | with_reducible assumption
      | with_reducible apply keeps_modEp
      | with_reducible apply keeps_modPort
      | with_reducible apply keeps_modGw
      | with_reducible apply keeps_absorbStack
      | with_reducible apply keeps_modCal
      | split)

theorem keeps_execConduitWord {bb : Bool} {q0 : State} (cal : Fin 64) (port : Fin 5) (track : Fin 64) (s : State) (hs : Keeps bb q0 s) : KeepsOut bb q0 (execConduitWord cal port track s) := by
  unfold execConduitWord
  (repeat' first
      | extract_lets
      | with_reducible assumption
      | with_reducible refine keepsOut_next ?_
      | with_reducible apply keeps_pushOutput
      | with_reducible apply keeps_takeInput
      | with_reducible refine keeps_foldl _ (fun _ _ _ => ?_) _ _ ?_
      | split)

theorem keeps_writeConduit {bb : Bool} {q0 : State} (s : State) (w : Word × Word) (hs : Keeps bb q0 s) : Keeps bb q0 (State.writeConduit s w) := by
  unfold State.writeConduit
  (repeat' first
      | with_reducible assumption
      | with_reducible apply keeps_modEp
      | with_reducible apply keeps_modCal
      | split)

theorem keeps_discardWords {bb : Bool} {q0 : State} (s : State) (ws : List (Word × Word)) (hs : Keeps bb q0 s) : Keeps bb q0 (State.discardWords s ws) := by
  unfold State.discardWords
  (repeat' first
      | (extract_lets +onlyGivenNames x; first
          | (with_reducible refine keeps_cut (bb := bb) (r := q0) x ?_ (fun hx => ?_); (on_goal 2 => clear_value x); (on_goal 1 => (unfold x; clear x)))
          )
      | with_reducible assumption
      | with_reducible apply keeps_modCal
      | with_reducible apply keeps_modEp
      | with_reducible apply keeps_modPort
      | with_reducible apply keeps_modRegion
      | with_reducible apply keeps_modStack
      | with_reducible refine keeps_foldl _ (fun _ _ _ => ?_) _ _ ?_
      | split
      | (simp only [keeps_mk, kept_eta]; with_reducible assumption))

theorem keeps_putConduit {bb : Bool} {q0 : State} (s : State) (w : Word × Word) (hs : Keeps bb q0 s) : Keeps bb q0 (State.putConduit s w) := by
  unfold State.putConduit
  (repeat' first
      | with_reducible assumption
      | with_reducible apply keeps_modEp
      | with_reducible apply keeps_modCal
      | split)

theorem keeps_captureConduits {bb : Bool} {q0 : State} (s : State) (hs : Keeps bb q0 s) : Keeps bb q0 (State.captureConduits s) := by
  unfold State.captureConduits
  (repeat' first
      | with_reducible assumption
      | with_reducible apply keeps_modCfg)

theorem keeps_setupConduits {bb : Bool} {q0 : State} (s : State) (ws : List (Word × Word)) (hs : Keeps bb q0 s) : Keeps bb q0 (State.setupConduits s ws) := by
  unfold State.setupConduits
  (repeat' first
      | with_reducible assumption
      | with_reducible apply keeps_captureConduits
      | with_reducible apply keeps_writeConduit
      | with_reducible refine keeps_foldl _ (fun _ _ _ => ?_) _ _ ?_
      | with_reducible refine keeps_ite (fun _ => ?_) (fun _ => ?_))

theorem keeps_clearConduits {bb : Bool} {q0 : State} (s : State) (ws : List (Word × Word)) (hs : Keeps bb q0 s) : Keeps bb q0 (State.clearConduits s ws) := by
  unfold State.clearConduits
  (repeat' first
      | with_reducible assumption
      | with_reducible apply keeps_setupConduits
      | with_reducible apply keeps_discardWords
      | with_reducible apply keeps_modEp
      | with_reducible apply keeps_modRegion
      | with_reducible refine keeps_foldl _ (fun _ _ _ => ?_) _ _ ?_
      | split)

theorem keeps_execWload {bb : Bool} {q0 : State} (cal : Fin 64) (tile : Fin 4) (s : State) (hs : Keeps bb q0 s) : KeepsOut bb q0 (execWload cal tile s) := by
  unfold execWload
  dsimp only
  repeat' first | exact keepsOut_next hs | exact keepsOut_next (keeps_modCal _ _ _ hs) | with_reducible refine keepsOut_ite (fun _ => ?_) (fun _ => ?_) | split

theorem keeps_execWloadComplete {bb : Bool} {q0 : State} (cal : Fin 64) (arr : Fin 16) (slotB : Bool) (s : State) (hs : Keeps bb q0 s) : KeepsOut bb q0 (execWloadComplete cal arr slotB s) := by
  unfold execWloadComplete
  (repeat' first
      | with_reducible assumption
      | with_reducible refine keepsOut_next ?_
      | with_reducible apply keeps_modCal
      | with_reducible refine keepsOut_ite (fun _ => ?_) (fun _ => ?_))

theorem keeps_execRelay {bb : Bool} {q0 : State} (cal : Fin 64) (tile : Fin 4) (s : State) (hs : Keeps bb q0 s) : KeepsOut bb q0 (execRelay cal tile s) := by
  unfold execRelay
  dsimp only
  repeat' first | exact keepsOut_next hs | exact keepsOut_next (keeps_modCal _ _ _ hs) | with_reducible refine keepsOut_ite (fun _ => ?_) (fun _ => ?_) | split

theorem keeps_relayDone {bb : Bool} {q0 : State} (s : State) (n : Fin 64) (idx : ℕ) (hs : Keeps bb q0 s) : Keeps bb q0 (State.relayDone s n idx) := by
  unfold State.relayDone
  (repeat' first
      | with_reducible assumption
      | with_reducible apply keeps_modCal
      | split)

theorem keeps_execRelayGranule {bb : Bool} {q0 : State} (cal : Fin 64) (idx : ℕ) (s : State) (hs : Keeps bb q0 s) : KeepsOut bb q0 (execRelayGranule cal idx s) := by
  unfold execRelayGranule
  (repeat' first
      | (extract_lets +onlyGivenNames x; first
          | clear_value x
          )
      | with_reducible assumption
      | with_reducible refine keepsOut_next ?_
      | with_reducible apply keeps_relayDone
      | with_reducible apply keeps_modCal
      | split)

theorem keeps_execPassIssue {bb : Bool} {q0 : State} (cal : Fin 64) (tile : Fin 4) (s : State) (hs : Keeps bb q0 s) : KeepsOut bb q0 (execPassIssue cal tile s) := by
  unfold execPassIssue
  (repeat' first
      | extract_lets
      | with_reducible assumption
      | with_reducible refine keepsOut_next ?_
      | with_reducible apply keeps_modCal
      | with_reducible apply keeps_planStop
      | split)

theorem keeps_execRowAdmit {bb : Bool} {q0 : State} (cal : Fin 64) (tile : Fin 4) (s : State) (hs : Keeps bb q0 s) : KeepsOut bb q0 (execRowAdmit cal tile s) := by
  unfold execRowAdmit
  dsimp only
  repeat' first | exact keepsOut_next hs | exact keepsOut_next (keeps_modCal _ _ _ hs) | with_reducible refine keepsOut_ite (fun _ => ?_) (fun _ => ?_) | split

theorem keeps_execDrainBlock {bb : Bool} {q0 : State} (cal : Fin 64) (tile : Fin 4) (s : State) (hs : Keeps bb q0 s) : KeepsOut bb q0 (execDrainBlock cal tile s) := by
  unfold execDrainBlock
  (repeat' first
      | extract_lets
      | with_reducible assumption
      | with_reducible refine keepsOut_next ?_
      | with_reducible apply keeps_modCal
      | split)

theorem keeps_commitPass {bb : Bool} {q0 : State} (s : State) (cal : Fin 64) (p : Pass) (ctx : Byte) (hs : Keeps bb q0 s) : Keeps bb q0 (commitPass s cal p ctx) := by
  unfold commitPass
  (repeat' first
      | with_reducible assumption
      | with_reducible apply keeps_modCal)

theorem keeps_dspFault {bb : Bool} {q0 : State} (s : State) (n : Fin 64) (cause : ℕ) (ag : Fin 16) (hs : Keeps bb q0 s) : Keeps bb q0 (State.dspFault s n cause ag) := by
  unfold State.dspFault
  (repeat' first
      | with_reducible assumption
      | with_reducible apply keeps_modCal
      | with_reducible apply keeps_planStop
      | split)

theorem keeps_dspReg {bb : Bool} {q0 : State} (s : State) (n : Fin 64) (op : ℕ) (f : Dsp → DWord → Dsp) (hs : Keeps bb q0 s) : KeepsOut bb q0 (State.dspReg s n op f) := by
  unfold State.dspReg
  (repeat' first
      | with_reducible assumption
      | with_reducible refine keepsOut_next ?_
      | with_reducible apply keeps_modCal
      | split)

theorem keeps_execVadd {bb : Bool} {q0 : State} (cal : Fin 64) (s : State) (hs : Keeps bb q0 s) : KeepsOut bb q0 (execVadd cal s) := by
  unfold execVadd
  (repeat' first
      | with_reducible assumption
      | with_reducible apply keeps_dspReg)

theorem keeps_execVsub {bb : Bool} {q0 : State} (cal : Fin 64) (s : State) (hs : Keeps bb q0 s) : KeepsOut bb q0 (execVsub cal s) := by
  unfold execVsub
  (repeat' first
      | with_reducible assumption
      | with_reducible apply keeps_dspReg)

theorem keeps_execVmul {bb : Bool} {q0 : State} (cal : Fin 64) (s : State) (hs : Keeps bb q0 s) : KeepsOut bb q0 (execVmul cal s) := by
  unfold execVmul
  (repeat' first
      | with_reducible assumption
      | with_reducible apply keeps_dspReg)

theorem keeps_execVfma {bb : Bool} {q0 : State} (cal : Fin 64) (s : State) (hs : Keeps bb q0 s) : KeepsOut bb q0 (execVfma cal s) := by
  unfold execVfma
  (repeat' first
      | with_reducible assumption
      | with_reducible apply keeps_dspReg)

theorem keeps_execVmax {bb : Bool} {q0 : State} (cal : Fin 64) (s : State) (hs : Keeps bb q0 s) : KeepsOut bb q0 (execVmax cal s) := by
  unfold execVmax
  (repeat' first
      | with_reducible assumption
      | with_reducible apply keeps_dspReg)

theorem keeps_execVmin {bb : Bool} {q0 : State} (cal : Fin 64) (s : State) (hs : Keeps bb q0 s) : KeepsOut bb q0 (execVmin cal s) := by
  unfold execVmin
  (repeat' first
      | with_reducible assumption
      | with_reducible apply keeps_dspReg)

theorem keeps_execVcmul {bb : Bool} {q0 : State} (cal : Fin 64) (s : State) (hs : Keeps bb q0 s) : KeepsOut bb q0 (execVcmul cal s) := by
  unfold execVcmul
  (repeat' first
      | with_reducible assumption
      | with_reducible apply keeps_dspReg)

theorem keeps_execVrsum {bb : Bool} {q0 : State} (cal : Fin 64) (s : State) (hs : Keeps bb q0 s) : KeepsOut bb q0 (execVrsum cal s) := by
  unfold execVrsum
  (repeat' first
      | with_reducible assumption
      | with_reducible apply keeps_dspReg)

theorem keeps_execVrmax {bb : Bool} {q0 : State} (cal : Fin 64) (s : State) (hs : Keeps bb q0 s) : KeepsOut bb q0 (execVrmax cal s) := by
  unfold execVrmax
  (repeat' first
      | with_reducible assumption
      | with_reducible apply keeps_dspReg)

theorem keeps_execVexp {bb : Bool} {q0 : State} (cal : Fin 64) (s : State) (hs : Keeps bb q0 s) : KeepsOut bb q0 (execVexp cal s) := by
  unfold execVexp
  (repeat' first
      | with_reducible assumption
      | with_reducible apply keeps_dspReg)

theorem keeps_execVlog {bb : Bool} {q0 : State} (cal : Fin 64) (s : State) (hs : Keeps bb q0 s) : KeepsOut bb q0 (execVlog cal s) := by
  unfold execVlog
  (repeat' first
      | with_reducible assumption
      | with_reducible apply keeps_dspReg)

theorem keeps_execVrsqrt {bb : Bool} {q0 : State} (cal : Fin 64) (s : State) (hs : Keeps bb q0 s) : KeepsOut bb q0 (execVrsqrt cal s) := by
  unfold execVrsqrt
  (repeat' first
      | with_reducible assumption
      | with_reducible apply keeps_dspReg)

theorem keeps_execVrcp {bb : Bool} {q0 : State} (cal : Fin 64) (s : State) (hs : Keeps bb q0 s) : KeepsOut bb q0 (execVrcp cal s) := by
  unfold execVrcp
  (repeat' first
      | with_reducible assumption
      | with_reducible apply keeps_dspReg)

theorem keeps_execVsigm {bb : Bool} {q0 : State} (cal : Fin 64) (s : State) (hs : Keeps bb q0 s) : KeepsOut bb q0 (execVsigm cal s) := by
  unfold execVsigm
  (repeat' first
      | with_reducible assumption
      | with_reducible apply keeps_dspReg)

theorem keeps_execVtanh {bb : Bool} {q0 : State} (cal : Fin 64) (s : State) (hs : Keeps bb q0 s) : KeepsOut bb q0 (execVtanh cal s) := by
  unfold execVtanh
  (repeat' first
      | with_reducible assumption
      | with_reducible apply keeps_dspReg)

theorem keeps_execVcvti {bb : Bool} {q0 : State} (cal : Fin 64) (s : State) (hs : Keeps bb q0 s) : KeepsOut bb q0 (execVcvti cal s) := by
  unfold execVcvti
  (repeat' first
      | with_reducible assumption
      | with_reducible apply keeps_dspReg)

theorem keeps_execVcvto {bb : Bool} {q0 : State} (cal : Fin 64) (s : State) (hs : Keeps bb q0 s) : KeepsOut bb q0 (execVcvto cal s) := by
  unfold execVcvto
  (repeat' first
      | with_reducible assumption
      | with_reducible apply keeps_dspReg)

theorem keeps_execVld {bb : Bool} {q0 : State} (cal : Fin 64) (s : State) (hs : Keeps bb q0 s) : KeepsOut bb q0 (execVld cal s) := by
  unfold execVld
  (repeat' first
      | with_reducible assumption
      | with_reducible refine keepsOut_next ?_
      | with_reducible apply keeps_dspFault
      | with_reducible apply keeps_modCal
      | split)

theorem keeps_execVst {bb : Bool} {q0 : State} (cal : Fin 64) (s : State) (hs : Keeps bb q0 s) : KeepsOut bb q0 (execVst cal s) := by
  unfold execVst
  dsimp only
  repeat' first | exact keepsOut_next hs | exact keepsOut_next (keeps_modCal _ _ _ hs) | exact keepsOut_next (keeps_dspFault _ _ _ _ hs) | with_reducible refine keepsOut_ite (fun _ => ?_) (fun _ => ?_) | split

theorem keeps_execAgset {bb : Bool} {q0 : State} (cal : Fin 64) (s : State) (hs : Keeps bb q0 s) : KeepsOut bb q0 (execAgset cal s) := by
  unfold execAgset
  (repeat' first
      | with_reducible assumption
      | with_reducible refine keepsOut_next ?_
      | with_reducible apply keeps_modCal
      | split)

theorem keeps_searchExec {bb : Bool} {q0 : State} (cal : Fin 64) (op : ℕ) (mn : Bool) (s : State) (hs : Keeps bb q0 s) : KeepsOut bb q0 (searchExec cal op mn s) := by
  unfold searchExec
  (repeat' first
      | extract_lets
      | with_reducible assumption
      | with_reducible refine keepsOut_next ?_
      | with_reducible apply keeps_dspFault
      | with_reducible apply keeps_modCal
      | split)

theorem keeps_execVsrchmax {bb : Bool} {q0 : State} (cal : Fin 64) (s : State) (hs : Keeps bb q0 s) : KeepsOut bb q0 (execVsrchmax cal s) := by
  unfold execVsrchmax
  (repeat' first
      | with_reducible assumption
      | with_reducible apply keeps_searchExec)

theorem keeps_execVsrchmin {bb : Bool} {q0 : State} (cal : Fin 64) (s : State) (hs : Keeps bb q0 s) : KeepsOut bb q0 (execVsrchmin cal s) := by
  unfold execVsrchmin
  (repeat' first
      | with_reducible assumption
      | with_reducible apply keeps_searchExec)

theorem keeps_execChkf {bb : Bool} {q0 : State} (cal : Fin 64) (s : State) (hs : Keeps bb q0 s) : KeepsOut bb q0 (execChkf cal s) := by
  unfold execChkf
  dsimp only
  repeat' first | exact keepsOut_next hs | exact keepsOut_next (keeps_modCal _ _ _ hs) | with_reducible refine keepsOut_ite (fun _ => ?_) (fun _ => ?_) | split

theorem keeps_execWdrain {bb : Bool} {q0 : State} (cal : Fin 64) (s : State) (hs : Keeps bb q0 s) : KeepsOut bb q0 (execWdrain cal s) := by
  unfold execWdrain
  dsimp only
  repeat' first | exact keepsOut_next hs | exact keepsOut_next (keeps_modCal _ _ _ hs) | with_reducible refine keepsOut_ite (fun _ => ?_) (fun _ => ?_) | split

theorem keeps_dspStop {bb : Bool} {q0 : State} (s : State) (cal : Fin 64) (hs : Keeps bb q0 s) : Keeps bb q0 (dspStop s cal) := by
  unfold dspStop
  (repeat' first
      | with_reducible assumption
      | with_reducible apply keeps_modCal)

theorem keeps_execDspSeedWrite {bb : Bool} {q0 : State} (cal : Fin 64) (value : Word) (s : State) (hs : Keeps bb q0 s) : KeepsOut bb q0 (execDspSeedWrite cal value s) := by
  unfold execDspSeedWrite
  (repeat' first
      | with_reducible assumption
      | with_reducible refine keepsOut_next ?_
      | with_reducible apply keeps_modCal
      | with_reducible refine keepsOut_ite (fun _ => ?_) (fun _ => ?_))

theorem keeps_zeroBlocks {bb : Bool} {q0 : State} (s : State) (a : ℕ) (n : ℕ) (hs : Keeps bb q0 s) : Keeps bb q0 (State.zeroBlocks s a n) := by
  unfold State.zeroBlocks
  exact ⟨hs.pending, fun h => mclear_wf _ _ _ (hs.hbm h), hs.bbl, hs.ev, hs.now, hs.floor, hs.beats⟩

theorem keeps_storeBlock {bb : Bool} {q0 : State} (s : State) (ctx : Byte) (block : Word) (d : Data2048) (hs : Keeps bb q0 s) : Keeps bb q0 (State.storeBlock s ctx block d) := by
  unfold State.storeBlock
  exact keeps_hbm hs _ (mwriteN_wf _ _ _)

theorem keeps_accepted {bb : Bool} {q0 : State} (s : State) (r : SlotRef) (n : ℕ) (hs : Keeps bb q0 s) : Keeps bb q0 (State.accepted s r n) := by
  unfold State.accepted
  (repeat' first
      | with_reducible assumption
      | with_reducible apply keeps_modStm
      | with_reducible apply keeps_modCal
      | split)

theorem keeps_openWord {bb : Bool} {q0 : State} (s : State) (b : List Byte) (hs : Keeps bb q0 s) : Keeps bb q0 (State.openWord s b).2 := by
  unfold State.openWord
  (repeat' first
      | with_reducible assumption
      | with_reducible apply keeps_draw
      | split)

theorem keeps_wordsOf {bb : Bool} {q0 : State} (a : ℕ) (a2 : State) (a3 : List Byte) (ha2 : Keeps bb q0 a2) : Keeps bb q0 (State.wordsOf a a2 a3).2 := by
  induction a generalizing a2 a3 with
  | zero => unfold State.wordsOf; (repeat' first
      | assumption)
  | succ n ih => unfold State.wordsOf; (repeat' first
      | with_reducible assumption
      | with_reducible apply ih
      | with_reducible apply keeps_openWord
      | split)

theorem keeps_execMemRequest {bb : Bool} {q0 : State} (stack : Fin 8) (ch : Fin 32) (port : MemPort) (s : State) (hs : Keeps bb q0 s) : KeepsOut bb q0 (execMemRequest stack ch port s) := by
  unfold execMemRequest
  (repeat' first
      | (extract_lets +onlyGivenNames x; first
          | (with_reducible refine keeps_cut (bb := bb) (r := q0) x ?_ (fun hx => ?_); (on_goal 2 => clear_value x); (on_goal 1 => (unfold x; clear x)))
          | clear_value x
          )
      | with_reducible assumption
      | with_reducible refine keepsOut_next ?_
      | with_reducible apply keeps_modChan
      | with_reducible apply keeps_haltStream
      | with_reducible apply keeps_modCp
      | with_reducible apply keeps_accepted
      | with_reducible apply keeps_absorbStack
      | with_reducible apply keeps_watchPanic
      | split
      | (simp only [keeps_mk, kept_eta]; with_reducible assumption))

theorem keeps_issueReq {bb : Bool} {q0 : State} (s : State) (k : Fin 8) (ch : Fin 32) (r : MemReq) (hs : Keeps bb q0 s) : Keeps bb q0 (State.issueReq s k ch r) := by
  unfold State.issueReq
  (repeat' first
      | with_reducible assumption
      | with_reducible apply keeps_modStack
      | with_reducible apply keeps_modChan
      | with_reducible apply keeps_storeBlock
      | with_reducible refine keeps_ite (fun _ => ?_) (fun _ => ?_))

theorem keeps_execMemCommandIssue {bb : Bool} {q0 : State} (stack : Fin 8) (ch : Fin 32) (s : State) (hs : Keeps bb q0 s) : KeepsOut bb q0 (execMemCommandIssue stack ch s) := by
  unfold execMemCommandIssue
  (repeat' first
      | (extract_lets +onlyGivenNames x; first
          | (with_reducible refine keeps_cut (bb := bb) (r := q0) x ?_ (fun hx => ?_); (on_goal 2 => clear_value x); (on_goal 1 => (unfold x; clear x)))
          | (with_reducible refine keeps_cut2 (bb := bb) (r := q0) x ?_ (fun hx => ?_); (on_goal 2 => clear_value x); (on_goal 1 => (unfold x; clear x)))
          | clear_value x
          )
      | with_reducible assumption
      | with_reducible refine keepsOut_next ?_
      | with_reducible apply keeps_draw
      | with_reducible apply keeps_modChan
      | with_reducible apply keeps_watchPanic
      | with_reducible apply keeps_issueReq
      | split)

theorem keeps_execRowIdleExpiry {bb : Bool} {q0 : State} (stack : Fin 8) (ch : Fin 32) (pc : Bool) (bank : Fin 16) (s : State) (hs : Keeps bb q0 s) : KeepsOut bb q0 (execRowIdleExpiry stack ch pc bank s) := by
  unfold execRowIdleExpiry
  (repeat' first
      | with_reducible assumption
      | with_reducible refine keepsOut_next ?_
      | with_reducible apply keeps_modChan)

theorem keeps_execRefreshDue {bb : Bool} {q0 : State} (stack : Fin 8) (ch : Fin 32) (pc : Bool) (s : State) (hs : Keeps bb q0 s) : KeepsOut bb q0 (execRefreshDue stack ch pc s) := by
  unfold execRefreshDue
  (repeat' first
      | with_reducible assumption
      | with_reducible refine keepsOut_next ?_
      | with_reducible apply keeps_modStack)

theorem keeps_logBadBlock {bb : Bool} {q0 : State} (s : State) (stack : ℕ) (block : Word) (stored : Word) (computed : Word) (ctx : Byte) (op : ℕ) (port : ℕ) (hs : Keeps bb q0 s) : Keeps bb q0 (State.logBadBlock s stack block stored computed ctx op port) := by
  unfold State.logBadBlock
  split
  · exact keeps_bbl hs _ (fun h => by simpa using h)
  · have h1 := keeps_bbl hs _ (push_len _ (bblEntry s block stored computed ctx op port))
    dsimp only
    split
    · exact h1
    · exact keeps_raise _ _ _ _ _ _ _ h1

theorem keeps_deliver {bb : Bool} {q0 : State} (s : State) (k : Fin 8) (ch : Fin 32) (r : MemReq) (plain : Data2048) (hs : Keeps bb q0 s) : Keeps bb q0 (State.deliver s k ch r plain) := by
  unfold State.deliver
  (repeat' first
      | with_reducible assumption
      | with_reducible apply keeps_wordsOf
      | with_reducible apply keeps_offerStack
      | with_reducible apply keeps_modChan
      | with_reducible apply keeps_feed
      | split)

theorem keeps_goodReturn {bb : Bool} {q0 : State} (s : State) (k : Fin 8) (ch : Fin 32) (r : MemReq) (stored : Data2048) (hs : Keeps bb q0 s) : Keeps bb q0 (State.goodReturn s k ch r stored) := by
  unfold State.goodReturn
  (repeat' first
      | with_reducible assumption
      | with_reducible apply keeps_modChan
      | with_reducible apply keeps_storeBlock
      | with_reducible apply keeps_deliver
      | with_reducible apply keeps_carry
      | with_reducible refine keeps_ite (fun _ => ?_) (fun _ => ?_))

theorem keeps_reread {bb : Bool} {q0 : State} (s : State) (k : Fin 8) (ch : Fin 32) (r : MemReq) (hs : Keeps bb q0 s) : Keeps bb q0 (State.reread s k ch r) := by
  unfold State.reread
  (repeat' first
      | with_reducible assumption
      | with_reducible apply keeps_modStack)

theorem keeps_writeLost {bb : Bool} {q0 : State} (s : State) (w : SlotRef) (r : MemReq) (hs : Keeps bb q0 s) : Keeps bb q0 (State.writeLost s w r) := by
  unfold State.writeLost
  (repeat' first
      | with_reducible assumption
      | with_reducible apply keeps_modStm
      | with_reducible apply keeps_haltStream
      | with_reducible refine keeps_ite (fun _ => ?_) (fun _ => ?_))

theorem keeps_badReturn {bb : Bool} {q0 : State} (s : State) (k : Fin 8) (ch : Fin 32) (r : MemReq) (storedCheck : Word) (computed : Word) (hs : Keeps bb q0 s) : Keeps bb q0 (State.badReturn s k ch r storedCheck computed) := by
  unfold State.badReturn
  (repeat' first
      | extract_lets
      | with_reducible assumption
      | with_reducible apply keeps_modChan
      | with_reducible apply keeps_logBadBlock
      | with_reducible apply keeps_writeLost
      | with_reducible apply keeps_haltStream
      | split)

theorem keeps_execMemReadReturn {bb : Bool} {q0 : State} (stack : Fin 8) (ch : Fin 32) (flip : Data2048) (flipCheck : Word) (s : State) (hs : Keeps bb q0 s) : KeepsOut bb q0 (execMemReadReturn stack ch flip flipCheck s) := by
  unfold execMemReadReturn
  (repeat' first
      | with_reducible assumption
      | with_reducible refine keepsOut_next ?_
      | with_reducible apply keeps_modChan
      | with_reducible apply keeps_goodReturn
      | with_reducible apply keeps_modStm
      | with_reducible apply keeps_reread
      | with_reducible apply keeps_watchPanic
      | split)

theorem keeps_execMemRereadReturn {bb : Bool} {q0 : State} (stack : Fin 8) (ch : Fin 32) (flip : Data2048) (flipCheck : Word) (s : State) (hs : Keeps bb q0 s) : KeepsOut bb q0 (execMemRereadReturn stack ch flip flipCheck s) := by
  unfold execMemRereadReturn
  (repeat' first
      | with_reducible assumption
      | with_reducible refine keepsOut_next ?_
      | with_reducible apply keeps_modChan
      | with_reducible apply keeps_goodReturn
      | with_reducible apply keeps_badReturn
      | with_reducible apply keeps_reread
      | with_reducible apply keeps_watchPanic
      | split)

theorem keeps_openBlock {bb : Bool} {q0 : State} (s : State) (k : Fin 8) (c : Fin 32) (block : Word) (hs : Keeps bb q0 s) : Keeps bb q0 (State.openBlock s k c block) := by
  unfold State.openBlock
  (repeat' first
      | with_reducible assumption
      | with_reducible apply keeps_modStack)

theorem keeps_serveNow {bb : Bool} {q0 : State} (s : State) (k : Fin 8) (c : Fin 32) (r : MemReq) (hs : Keeps bb q0 s) : Keeps bb q0 (State.serveNow s k c r) := by
  unfold State.serveNow
  (repeat' first
      | with_reducible assumption
      | with_reducible apply keeps_issueReq
      | with_reducible apply keeps_modChan
      | with_reducible apply keeps_goodReturn
      | with_reducible refine keeps_ite (fun _ => ?_) (fun _ => ?_))

theorem keeps_runRequests {bb : Bool} {q0 : State} (s : State) (k : Fin 8) (c : Fin 32) (before : MemReq → Bool) (hs : Keeps bb q0 s) : Keeps bb q0 (State.runRequests s k c before) := by
  unfold State.runRequests
  (repeat' first
      | with_reducible assumption
      | with_reducible apply keeps_watchPanic
      | with_reducible apply keeps_serveNow
      | with_reducible refine keeps_foldl _ (fun _ _ _ => ?_) _ _ ?_
      | with_reducible refine keeps_ite (fun _ => ?_) (fun _ => ?_))

theorem keeps_hubSettle {bb : Bool} {q0 : State} (s : State) (k : Fin 8) (c : Fin 32) (block : Word) (first : ℕ) (n : ℕ) (write : Bool) (hs : Keeps bb q0 s) : Keeps bb q0 (State.hubSettle s k c block first n write) := by
  unfold State.hubSettle
  (repeat' first
      | with_reducible assumption
      | with_reducible apply keeps_runRequests
      | with_reducible apply keeps_modChan
      | with_reducible refine keeps_ite (fun _ => ?_) (fun _ => ?_))

theorem keeps_rereads {bb : Bool} {q0 : State} (s : State) (k : Fin 8) (c : Fin 32) (block : Word) (a : ℕ) (hs : Keeps bb q0 s) : Keeps bb q0 (State.rereads s k c block a) := by
  induction a generalizing s with
  | zero => exact hs
  | succ n ih => exact ih _ (keeps_modStack _ _ _ hs)

theorem keeps_hubMiss {bb : Bool} {q0 : State} (s : State) (k : Fin 8) (c : Fin 32) (f : BlockFail) (ctx : Byte) (write : Bool) (good : Option (List Byte)) (hs : Keeps bb q0 s) : Keeps bb q0 (State.hubMiss s k c f ctx write good).1 := by
  unfold State.hubMiss
  (repeat' first
      | with_reducible assumption
      | with_reducible apply keeps_modChan
      | with_reducible apply keeps_rereads
      | with_reducible apply keeps_logBadBlock
      | split)

theorem keeps_hubRead {bb : Bool} {q0 : State} (s : State) (ctx : Byte) (fails : List BlockFail) (a : ℕ) (m : ℕ) (hs : Keeps bb q0 s) : Keeps bb q0 (State.hubRead s ctx fails a m).1 := by
  unfold State.hubRead
  (repeat' first
      | (extract_lets +onlyGivenNames x; first
          | (with_reducible refine keeps_cut (bb := bb) (r := q0) x ?_ (fun hx => ?_); (on_goal 2 => clear_value x); (on_goal 1 => (unfold x; clear x)))
          | clear_value x
          )
      | with_reducible assumption
      | with_reducible apply keeps_hubSettle
      | with_reducible apply keeps_modChan
      | with_reducible apply keeps_openBlock
      | with_reducible apply keeps_hubMiss
      | split)

theorem keeps_hubWrite {bb : Bool} {q0 : State} (s : State) (ctx : Byte) (fails : List BlockFail) (a : ℕ) (d : List Byte) (hs : Keeps bb q0 s) : Keeps bb q0 (State.hubWrite s ctx fails a d).1 := by
  unfold State.hubWrite
  (repeat' first
      | (extract_lets +onlyGivenNames x; first
          | (with_reducible refine keeps_cut (bb := bb) (r := q0) x ?_ (fun hx => ?_); (on_goal 2 => clear_value x); (on_goal 1 => (unfold x; clear x)))
          | (with_reducible refine keeps_cut1 (bb := bb) (r := q0) x ?_ (fun hx => ?_); (on_goal 2 => clear_value x); (on_goal 1 => (unfold x; clear x)))
          | (with_reducible refine keeps_isFun x ?_; unfold x; clear x)
          | clear_value x
          )
      | with_reducible assumption
      | with_reducible apply keeps_hubSettle
      | with_reducible apply keeps_openBlock
      | with_reducible apply keeps_modChan
      | with_reducible apply keeps_storeBlock
      | with_reducible apply keeps_hubMiss
      | split)

theorem keeps_hubReads {bb : Bool} {q0 : State} (s : State) (ctx : Byte) (fails : List BlockFail) (a : ℕ) (a5 : ℕ) (a6 : ℕ) (hs : Keeps bb q0 s) : Keeps bb q0 (State.hubReads s ctx fails a a5 a6).1 := by
  induction a generalizing s a5 a6 with
  | zero => unfold State.hubReads; (repeat' first
      | assumption)
  | succ n ih => unfold State.hubReads; (repeat' first
      | with_reducible assumption
      | with_reducible apply ih
      | with_reducible apply keeps_hubRead
      | split)

theorem keeps_hubWrites {bb : Bool} {q0 : State} (s : State) (ctx : Byte) (fails : List BlockFail) (a : ℕ) (a5 : ℕ) (a6 : List Byte) (hs : Keeps bb q0 s) : Keeps bb q0 (State.hubWrites s ctx fails a a5 a6).1 := by
  induction a generalizing s a5 a6 with
  | zero => unfold State.hubWrites; (repeat' first
      | assumption)
  | succ n ih => unfold State.hubWrites; (repeat' first
      | with_reducible assumption
      | with_reducible apply ih
      | with_reducible apply keeps_hubWrite
      | split)

theorem keeps_frameSettle {bb : Bool} {q0 : State} (s : State) (dma : ℕ) (hs : Keeps bb q0 s) : Keeps bb q0 (State.frameSettle s dma) := by
  unfold State.frameSettle
  (repeat' first
      | with_reducible assumption
      | with_reducible apply keeps_runRequests)

theorem keeps_saveFrame {bb : Bool} {q0 : State} (s : State) (ctx : Byte) (f : Fin 8 × ℕ) (d : ℕ → Data2048) (hs : Keeps bb q0 s) : Keeps bb q0 (State.saveFrame s ctx f d) := by
  unfold State.saveFrame
  generalize List.range 2048 = l
  extract_lets dma block e s1
  have h1 : Keeps bb q0 s1 :=
    ⟨hs.pending, fun h => mwriteN_foldl_wf _ _ _ _ (hs.hbm h), hs.bbl, hs.ev, hs.now, hs.floor, hs.beats⟩
  clear_value s1
  exact keeps_modStack _ _ _ h1

theorem keeps_countFrame {bb : Bool} {q0 : State} (s : State) (f : Fin 8 × ℕ) (hs : Keeps bb q0 s) : Keeps bb q0 (State.countFrame s f) := by
  unfold State.countFrame
  (repeat' first
      | with_reducible assumption
      | with_reducible apply keeps_modStack)

theorem keeps_zeroFrame {bb : Bool} {q0 : State} (s : State) (dma : ℕ) (hs : Keeps bb q0 s) : Keeps bb q0 (State.zeroFrame s dma) := by
  unfold State.zeroFrame
  exact keeps_modStack _ _ _ (keeps_zeroBlocks _ _ _ (keeps_frameSettle _ _ hs))

theorem keeps_execHbmTempPoll {bb : Bool} {q0 : State} (stack : Fin 8) (temp : Byte) (hot : Bool) (s : State) (hs : Keeps bb q0 s) : KeepsOut bb q0 (execHbmTempPoll stack temp hot s) := by
  unfold execHbmTempPoll
  (repeat' first
      | with_reducible assumption
      | with_reducible refine keepsOut_next ?_
      | with_reducible apply keeps_modStack
      | with_reducible apply keeps_raise
      | with_reducible refine keeps_ite (fun _ => ?_) (fun _ => ?_))

theorem keeps_trainFail {bb : Bool} {q0 : State} (s : State) (k : Fin 8) (cause : ℕ) (hs : Keeps bb q0 s) : Keeps bb q0 (State.trainFail s k cause) := by
  unfold State.trainFail
  (repeat' first
      | with_reducible assumption
      | with_reducible apply keeps_modStack
      | with_reducible apply keeps_raise
      | with_reducible refine keeps_ite (fun _ => ?_) (fun _ => ?_))

theorem keeps_clearStack {bb : Bool} {q0 : State} (s : State) (k : Fin 8) (hs : Keeps bb q0 s) : Keeps bb q0 (State.clearStack s k) := by
  unfold State.clearStack
  exact keeps_hbm hs _ (mclear_wf _ _ _)

theorem keeps_execStackTraining {bb : Bool} {q0 : State} (stack : Fin 8) (outcome : StackOutcome) (s : State) (hs : Keeps bb q0 s) : KeepsOut bb q0 (execStackTraining stack outcome s) := by
  unfold execStackTraining
  (repeat' first
      | (extract_lets +onlyGivenNames x; first
          | (with_reducible refine keeps_cut2 (bb := bb) (r := q0) x ?_ (fun hx => ?_); (on_goal 2 => clear_value x); (on_goal 1 => (unfold x; clear x)))
          | clear_value x
          )
      | with_reducible assumption
      | with_reducible refine keepsOut_next ?_
      | with_reducible apply keeps_draw
      | with_reducible apply keeps_trainFail
      | with_reducible apply keeps_modStack
      | with_reducible apply keeps_clearStack
      | with_reducible apply keeps_noteLate
      | with_reducible apply keeps_logBadBlock
      | split)

theorem keeps_execHbmCntClr {bb : Bool} {q0 : State} (stack : Fin 8) (s : State) (hs : Keeps bb q0 s) : KeepsOut bb q0 (execHbmCntClr stack s) := by
  unfold execHbmCntClr
  (repeat' first
      | with_reducible assumption
      | with_reducible refine keepsOut_next ?_
      | with_reducible apply keeps_modStack
      | with_reducible refine keepsOut_ite (fun _ => ?_) (fun _ => ?_))

theorem keeps_execBblPop {bb : Bool} {q0 : State} (s : State) (hs : Keeps bb q0 s) : KeepsOut bb q0 (execBblPop s) := by
  unfold execBblPop
  exact keeps_bbl hs _ (pop_len _)

theorem keeps_execBblClear {bb : Bool} {q0 : State} (s : State) (hs : Keeps bb q0 s) : KeepsOut bb q0 (execBblClear s) := by
  unfold execBblClear
  exact keeps_bbl hs _ (fun _ => Nat.zero_le _)

theorem keeps_submit {bb : Bool} {q0 : State} (s : State) (r : SlotRef) (x : Submit) (hs : Keeps bb q0 s) : Keeps bb q0 (State.submit s r x) := by
  unfold State.submit
  (repeat' first
      | with_reducible assumption
      | with_reducible apply keeps_modStm)

theorem keeps_execStreamArm {bb : Bool} {q0 : State} (slot : SlotRef) (word0 : Word) (s : State) (hs : Keeps bb q0 s) : KeepsOut bb q0 (execStreamArm slot word0 s) := by
  unfold execStreamArm
  (repeat' first
      | with_reducible assumption
      | with_reducible refine keepsOut_next ?_
      | with_reducible apply keeps_modCal
      | with_reducible apply keeps_modStm
      | with_reducible apply keeps_submit
      | split)

theorem keeps_execSarm {bb : Bool} {q0 : State} (cal : Fin 64) (s : State) (hs : Keeps bb q0 s) : KeepsOut bb q0 (execSarm cal s) := by
  unfold execSarm
  (repeat' first
      | with_reducible assumption
      | with_reducible refine keepsOut_next ?_
      | with_reducible apply keeps_modCal
      | with_reducible apply keeps_submit
      | split)

theorem keeps_sendFree {bb : Bool} {q0 : State} (s : State) (r : SlotRef) (peer : BitVec 10 × Byte) (dva : ℕ) (len : ℕ) (write : Bool) (data : List Byte) (hs : Keeps bb q0 s) : Keeps bb q0 (State.sendFree s r peer dva len write data) := by
  unfold State.sendFree
  (repeat' first
      | with_reducible assumption
      | with_reducible apply keeps_modFab
      | with_reducible apply keeps_sendTo
      | with_reducible apply keeps_noteRouteDrop
      | with_reducible refine keeps_ite (fun _ => ?_) (fun _ => ?_))

theorem keeps_fetchDva {bb : Bool} {q0 : State} (s : State) (r : SlotRef) (a : ℤ) (f : ℕ) (n : ℕ) (io : HostIO) (spec : Bool) (hs : Keeps bb q0 s) : KeepsMove bb q0 (State.fetchDva s r a f n io spec) := by
  unfold State.fetchDva
  (repeat' first
      | (extract_lets +onlyGivenNames x; first
          | clear_value x
          )
      | with_reducible assumption
      | with_reducible refine keepsMove_ok ?_
      | with_reducible exact keepsMove_fault
      | with_reducible exact keepsMove_wait
      | with_reducible apply keeps_modStm
      | with_reducible apply keeps_feed
      | with_reducible apply keeps_emit
      | split
      | (simp only [keeps_mk, kept_eta]; with_reducible assumption))

theorem keeps_takeLane {bb : Bool} {q0 : State} (s : State) (n : Fin 64) (k : Fin 64) (hs : Keeps bb q0 s) : ∀ t, State.takeLane s n k = some t → Keeps bb q0 t := by
  intro t ht
  unfold State.takeLane at ht
  revert ht
  repeat' first | split | (intro ht; first | (cases ht; done) | (injection ht with ht; subst ht)) | extract_lets x
  all_goals (repeat' first
      | with_reducible assumption
      | with_reducible apply keeps_modEp
      | with_reducible apply keeps_feed)

theorem keeps_fetchMem {bb : Bool} {q0 : State} (s : State) (r : SlotRef) (a : ℤ) (f : ℕ) (n : ℕ) (io : HostIO) (spec : Bool) (hs : Keeps bb q0 s) : KeepsMove bb q0 (State.fetchMem s r a f n io spec) := by
  unfold State.fetchMem
  (repeat' first
      | with_reducible assumption
      | with_reducible refine keepsMove_ok ?_
      | with_reducible apply keeps_fetchDva
      | (with_reducible refine keeps_optGet (by assumption) ?_; with_reducible refine keeps_takeLane _ _ _ ?_)
      | split)

theorem keeps_fill {bb : Bool} {q0 : State} (s : State) (r : SlotRef) (io : HostIO) (spec : Bool) (hs : Keeps bb q0 s) : KeepsMove bb q0 (State.fill s r io spec) := by
  unfold State.fill
  dsimp only
  repeat' first | with_reducible assumption | with_reducible exact keepsMove_fault | with_reducible exact keepsMove_wait | with_reducible apply keeps_fetchMem | with_reducible apply keeps_emit | with_reducible refine keepsMove_ok ?_ | with_reducible apply keeps_feed | with_reducible apply keeps_sendFree | with_reducible apply keeps_modEp | with_reducible refine keepsMove_ite (fun _ => ?_) (fun _ => ?_) | split

theorem keeps_storeDva {bb : Bool} {q0 : State} (s : State) (r : SlotRef) (a : ℤ) (b : ℕ) (data : List Byte) (whole : ℕ) (hs : Keeps bb q0 s) : KeepsMove bb q0 (State.storeDva s r a b data whole) := by
  unfold State.storeDva
  (repeat' first
      | (extract_lets +onlyGivenNames x; first
          | (with_reducible refine keeps_cut (bb := bb) (r := q0) x ?_ (fun hx => ?_); (on_goal 2 => clear_value x); (on_goal 1 => (unfold x; clear x)))
          )
      | with_reducible assumption
      | with_reducible refine keepsMove_ok ?_
      | with_reducible exact keepsMove_fault
      | with_reducible exact keepsMove_wait
      | with_reducible apply keeps_wordsOf
      | with_reducible apply keeps_unfeed
      | with_reducible apply keeps_modStm
      | with_reducible apply keeps_accepted
      | with_reducible apply keeps_emit
      | split
      | (simp only [keeps_mk, kept_eta]; with_reducible assumption))

theorem keeps_sendFirst {bb : Bool} {q0 : State} (s : State) (r : SlotRef) (m : Move) (hs : Keeps bb q0 s) (hm : KeepsMove bb q0 m) : KeepsMove bb q0 (State.sendFirst s r m) := by
  unfold State.sendFirst
  split
  · split
    · exact hm
    · exact keepsMove_ite (fun _ => keeps_modStm _ _ _ (keeps_modEp _ _ _ hs)) (fun _ => keepsMove_wait)
  · exact hm

theorem keeps_drain {bb : Bool} {q0 : State} (s : State) (r : SlotRef) (hs : Keeps bb q0 s) : KeepsMove bb q0 (State.drain s r) := by
  unfold State.drain
  (repeat' first
      | (extract_lets +onlyGivenNames x; first
          | (with_reducible refine keeps_cut (bb := bb) (r := q0) x ?_ (fun hx => ?_); (on_goal 2 => clear_value x); (on_goal 1 => (unfold x; clear x)))
          | (with_reducible refine keeps_cut2 (bb := bb) (r := q0) x ?_ (fun hx => ?_); (on_goal 2 => clear_value x); (on_goal 1 => (unfold x; clear x)))
          | clear_value x
          )
      | with_reducible assumption
      | with_reducible refine keepsMove_ok ?_
      | with_reducible exact keepsMove_fault
      | with_reducible exact keepsMove_wait
      | with_reducible apply keeps_draw
      | with_reducible apply keeps_unfeed
      | with_reducible apply keeps_modCal
      | with_reducible apply keeps_accepted
      | with_reducible apply keeps_modEp
      | with_reducible apply keeps_sendFree
      | with_reducible apply keeps_storeDva
      | with_reducible apply keeps_emit
      | split)

theorem keeps_drainAgen {bb : Bool} {q0 : State} (s : State) (r : SlotRef) (hs : Keeps bb q0 s) : KeepsMove bb q0 (State.drainAgen s r) := by
  unfold State.drainAgen
  (repeat' first
      | extract_lets
      | with_reducible assumption
      | with_reducible refine keepsMove_ok ?_
      | with_reducible exact keepsMove_wait
      | with_reducible apply keeps_storeDva
      | (with_reducible refine keepsMove_get (by assumption) ?_; with_reducible apply keeps_storeDva)
      | with_reducible apply keeps_modStm
      | split)

theorem keeps_execStreamTransfer {bb : Bool} {q0 : State} (slot : SlotRef) (io : HostIO) (s : State) (hs : Keeps bb q0 s) : KeepsOut bb q0 (execStreamTransfer slot io s) := by
  unfold execStreamTransfer
  (repeat' first
      | (extract_lets +onlyGivenNames x; first
          | clear_value x
          )
      | with_reducible assumption
      | with_reducible refine keepsOut_next ?_
      | (with_reducible refine keepsMove_get (by assumption) ?_; with_reducible apply keeps_sendFirst)
      | with_reducible apply keeps_drainAgen
      | with_reducible apply keeps_drain
      | (with_reducible refine keepsMove_get (by assumption) ?_; with_reducible apply keeps_drain)
      | with_reducible apply keeps_haltStream
      | (with_reducible refine keepsMove_get (by assumption) ?_; with_reducible apply keeps_fill)
      | split)

theorem keeps_tryStage {bb : Bool} {q0 : State} (s : State) (n : Fin 64) (k : Fin 64) (demand : Bool) (hs : Keeps bb q0 s) : ∀ t, State.tryStage s n k demand = some t → Keeps bb q0 t := by
  intro t ht
  unfold State.tryStage at ht
  dsimp only at ht
  split at ht
  · obtain ⟨c, _, rfl⟩ := Option.map_eq_some_iff.mp ht
    exact keeps_modCal _ _ _ hs
  · cases ht

theorem keeps_execDemandFill {bb : Bool} {q0 : State} (cal : Fin 64) (slot : Fin 64) (io : HostIO) (s : State) (hs : Keeps bb q0 s) : KeepsOut bb q0 (execDemandFill cal slot io s) := by
  unfold execDemandFill
  (repeat' first
      | (extract_lets +onlyGivenNames x; first
          | (with_reducible refine keeps_cut (bb := bb) (r := q0) x ?_ (fun hx => ?_); (on_goal 2 => clear_value x); (on_goal 1 => (unfold x; clear x)))
          | clear_value x
          )
      | with_reducible assumption
      | with_reducible refine keepsOut_next ?_
      | with_reducible apply keeps_modCal
      | (with_reducible refine keeps_optGet (by assumption) ?_; with_reducible refine keeps_tryStage _ _ _ _ ?_)
      | with_reducible refine keeps_tryStage _ _ _ _ ?_
      | with_reducible apply keeps_watchSlot
      | (with_reducible refine keepsMove_get (by assumption) ?_; with_reducible apply keeps_fill)
      | with_reducible apply keeps_haltStream
      | with_reducible refine keeps_getD ?_ ?_
      | split)

theorem keeps_execRunAhead {bb : Bool} {q0 : State} (cal : Fin 64) (slot : Fin 64) (io : HostIO) (s : State) (hs : Keeps bb q0 s) : KeepsOut bb q0 (execRunAhead cal slot io s) := by
  unfold execRunAhead
  (repeat' first
      | (extract_lets +onlyGivenNames x; first
          | (with_reducible refine keeps_cut (bb := bb) (r := q0) x ?_ (fun hx => ?_); (on_goal 2 => clear_value x); (on_goal 1 => (unfold x; clear x)))
          | clear_value x
          )
      | with_reducible assumption
      | with_reducible refine keepsOut_next ?_
      | with_reducible apply keeps_modCal
      | (with_reducible refine keeps_optGet (by assumption) ?_; with_reducible refine keeps_tryStage _ _ _ _ ?_)
      | with_reducible refine keeps_tryStage _ _ _ _ ?_
      | with_reducible apply keeps_watchSlot
      | (with_reducible refine keepsMove_get (by assumption) ?_; with_reducible apply keeps_fill)
      | with_reducible apply keeps_modStm
      | with_reducible refine keeps_getD ?_ ?_
      | split)

theorem keeps_execStagingSlotFree {bb : Bool} {q0 : State} (cal : Fin 64) (pool : Fin 256) (s : State) (hs : Keeps bb q0 s) : KeepsOut bb q0 (execStagingSlotFree cal pool s) := by
  unfold execStagingSlotFree
  (repeat' first
      | with_reducible assumption
      | with_reducible refine keepsOut_next ?_
      | with_reducible apply keeps_modCal)

theorem keeps_armDone {bb : Bool} {q0 : State} (s : State) (r : SlotRef) (hs : Keeps bb q0 s) : Keeps bb q0 (State.armDone s r) := by
  unfold State.armDone
  (repeat' first
      | (extract_lets +onlyGivenNames x; first
          | (with_reducible refine keeps_cut (bb := bb) (r := q0) x ?_ (fun hx => ?_); (on_goal 2 => clear_value x); (on_goal 1 => (unfold x; clear x)))
          | clear_value x
          )
      | with_reducible assumption
      | with_reducible apply keeps_modStm
      | with_reducible apply keeps_modCal
      | with_reducible apply keeps_endWork
      | with_reducible apply keeps_complete
      | split)

theorem keeps_idleCount {bb : Bool} {q0 : State} (s : State) (r : SlotRef) (hs : Keeps bb q0 s) : Keeps bb q0 (State.idleCount s r) := by
  unfold State.idleCount
  (repeat' first
      | with_reducible assumption
      | with_reducible apply keeps_modStm)

theorem keeps_execStreamWdog {bb : Bool} {q0 : State} (slot : SlotRef) (s : State) (hs : Keeps bb q0 s) : KeepsOut bb q0 (execStreamWdog slot s) := by
  unfold execStreamWdog
  (repeat' first
      | with_reducible assumption
      | with_reducible refine keepsOut_next ?_
      | with_reducible apply keeps_haltStream
      | with_reducible refine keepsOut_ite (fun _ => ?_) (fun _ => ?_))

theorem keeps_execPcieCompletionTimeout {bb : Bool} {q0 : State} (slot : SlotRef) (s : State) (hs : Keeps bb q0 s) : KeepsOut bb q0 (execPcieCompletionTimeout slot s) := by
  unfold execPcieCompletionTimeout
  (repeat' first
      | with_reducible assumption
      | with_reducible refine keepsOut_next ?_
      | with_reducible apply keeps_haltStream
      | split)

theorem keeps_pauseStream {bb : Bool} {q0 : State} (s : State) (r : SlotRef) (hs : Keeps bb q0 s) : Keeps bb q0 (State.pauseStream s r) := by
  unfold State.pauseStream
  (repeat' first
      | with_reducible assumption
      | with_reducible apply keeps_modStm
      | with_reducible apply keeps_modCal
      | split)

end Sys2Proof.Machine
end

