-- ==== Sys2Proof/Laws/KeepsLink.lean ====
section
/-! SUPPORT. What every operation and every command keeps: the queue, the time, the canonical form of the stacked memory,
the bounds of the two logs, the floor pace and the beat registers.  The links, the geyser, the power of a caldera, the plans and the rings. -/

namespace Sys2Proof.Machine

theorem keeps_lineIn {bb : Bool} {q0 : State} (s : State) (p : Fin 12) (x : LineItem) (hs : Keeps bb q0 s) : Keeps bb q0 (State.lineIn s p x).1 := by
  unfold State.lineIn
  (repeat' first
      | (extract_lets +onlyGivenNames x; first
          | clear_value x
          )
      | with_reducible assumption
      | with_reducible apply keeps_modPort
      | split)

theorem keeps_tookBlocks {bb : Bool} {q0 : State} (s : State) (p : Fin 12) (n : ℕ) (hs : Keeps bb q0 s) : Keeps bb q0 (State.tookBlocks s p n) := by
  unfold State.tookBlocks
  (repeat' first
      | with_reducible assumption
      | with_reducible apply keeps_modPort)

theorem keeps_withBlock {bb : Bool} {q0 : State} (s : State) (p : Fin 12) (ty : ℕ) (b : Data256) (f : State → State) (hs : Keeps bb q0 s) (hf : ∀ t, Keeps bb q0 t → Keeps bb q0 (f t)) : KeepsOut bb q0 (State.withBlock s p ty b f) := by
  unfold State.withBlock
  (repeat' first
      | with_reducible assumption
      | with_reducible refine keepsOut_next ?_
      | with_reducible apply hf
      | with_reducible apply keeps_lineIn
      | with_reducible apply keeps_tookBlocks
      | with_reducible apply keeps_modPort
      | with_reducible refine keepsOut_ite (fun _ => ?_) (fun _ => ?_))

theorem keeps_portDown {bb : Bool} {q0 : State} (s : State) (p : Fin 12) (hs : Keeps bb q0 s) : Keeps bb q0 (State.portDown s p) := by
  unfold State.portDown
  (repeat' first
      | with_reducible assumption
      | with_reducible apply keeps_lnkEvent
      | with_reducible apply keeps_modPort)

theorem keeps_portDisable {bb : Bool} {q0 : State} (s : State) (p : Fin 12) (event : ℕ) (hs : Keeps bb q0 s) : Keeps bb q0 (State.portDisable s p event) := by
  unfold State.portDisable
  (repeat' first
      | with_reducible assumption
      | with_reducible apply keeps_lnkEvent
      | with_reducible apply keeps_modPort)

theorem keeps_startRetrain {bb : Bool} {q0 : State} (s : State) (p : Fin 12) (errorRate : Bool) (hs : Keeps bb q0 s) : Keeps bb q0 (State.startRetrain s p errorRate) := by
  unfold State.startRetrain
  (repeat' first
      | with_reducible assumption
      | with_reducible apply keeps_modPort
      | with_reducible apply keeps_lnkEvent
      | with_reducible apply keeps_portDisable
      | with_reducible refine keeps_ite (fun _ => ?_) (fun _ => ?_))

theorem keeps_portError {bb : Bool} {q0 : State} (s : State) (p : Fin 12) (hs : Keeps bb q0 s) : Keeps bb q0 (State.portError s p) := by
  unfold State.portError
  (repeat' first
      | with_reducible assumption
      | with_reducible apply keeps_modPort
      | with_reducible apply keeps_startRetrain
      | with_reducible refine keeps_ite (fun _ => ?_) (fun _ => ?_))

theorem keeps_portViolation {bb : Bool} {q0 : State} (s : State) (p : Fin 12) (hs : Keeps bb q0 s) : Keeps bb q0 (State.portViolation s p) := by
  unfold State.portViolation
  (repeat' first
      | with_reducible assumption
      | with_reducible apply keeps_modPort
      | with_reducible apply keeps_portDisable
      | with_reducible refine keeps_ite (fun _ => ?_) (fun _ => ?_))

theorem keeps_portAuthFail {bb : Bool} {q0 : State} (s : State) (p : Fin 12) (hs : Keeps bb q0 s) : Keeps bb q0 (State.portAuthFail s p) := by
  unfold State.portAuthFail
  (repeat' first
      | with_reducible assumption
      | with_reducible apply keeps_portDisable
      | with_reducible apply keeps_modPort)

theorem keeps_sendAuth {bb : Bool} {q0 : State} (s : State) (p : Fin 12) (step : ℕ) (message : List Byte) (hs : Keeps bb q0 s) : Keeps bb q0 (State.sendAuth s p step message) := by
  unfold State.sendAuth
  (repeat' first
      | with_reducible assumption
      | with_reducible apply keeps_sendOn
      | with_reducible apply keeps_modPort
      | with_reducible refine keeps_foldl _ (fun _ _ _ => ?_) _ _ ?_)

theorem keeps_startAuth {bb : Bool} {q0 : State} (s : State) (p : Fin 12) (hs : Keeps bb q0 s) : Keeps bb q0 (State.startAuth s p) := by
  unfold State.startAuth
  (repeat' first
      | with_reducible assumption
      | with_reducible apply keeps_draw
      | with_reducible apply keeps_sendAuth
      | with_reducible apply keeps_modPort
      | with_reducible refine keeps_ite (fun _ => ?_) (fun _ => ?_))

theorem keeps_tookFlit {bb : Bool} {q0 : State} (s : State) (inbox : List (Fin 12 × Data2048)) (p : Fin 12) (f : Data2048) (hs : Keeps bb q0 s) : Keeps bb q0 (State.tookFlit s inbox p f) := by
  unfold State.tookFlit
  (repeat' first
      | with_reducible assumption
      | with_reducible apply keeps_modPort
      | with_reducible apply keeps_modFab)

theorem keeps_execAuth {bb : Bool} {q0 : State} (port : Fin 12) (s : State) (hs : Keeps bb q0 s) : KeepsOut bb q0 (execAuth port s) := by
  unfold execAuth
  (repeat' first
      | (extract_lets +onlyGivenNames x; first
          | (with_reducible refine keeps_cut (bb := bb) (r := q0) x ?_ (fun hx => ?_); (on_goal 2 => clear_value x); (on_goal 1 => (unfold x; clear x)))
          | clear_value x
          )
      | with_reducible assumption
      | with_reducible refine keepsOut_next ?_
      | with_reducible apply keeps_startAuth
      | with_reducible apply keeps_tookFlit
      | with_reducible apply keeps_modPort
      | with_reducible apply keeps_sendAuth
      | with_reducible apply keeps_portAuthFail
      | split)

theorem keeps_execAuthTimeout {bb : Bool} {q0 : State} (port : Fin 12) (s : State) (hs : Keeps bb q0 s) : KeepsOut bb q0 (execAuthTimeout port s) := by
  unfold execAuthTimeout
  (repeat' first
      | with_reducible assumption
      | with_reducible refine keepsOut_next ?_
      | with_reducible apply keeps_portAuthFail
      | split)

theorem keeps_execConf {bb : Bool} {q0 : State} (port : Fin 12) (on : Bool) (s : State) (hs : Keeps bb q0 s) : KeepsOut bb q0 (execConf port on s) := by
  unfold execConf
  (repeat' first
      | with_reducible assumption
      | with_reducible refine keepsOut_next ?_
      | with_reducible apply keeps_modPort
      | with_reducible apply keeps_startAuth
      | with_reducible refine keeps_ite (fun _ => ?_) (fun _ => ?_)
      | with_reducible refine keepsOut_ite (fun _ => ?_) (fun _ => ?_))

theorem keeps_portLinked {bb : Bool} {q0 : State} (s : State) (p : Fin 12) (hs : Keeps bb q0 s) : Keeps bb q0 (State.portLinked s p) := by
  unfold State.portLinked
  (repeat' first
      | with_reducible assumption
      | with_reducible apply keeps_modPort
      | with_reducible apply keeps_startAuth
      | with_reducible refine keeps_ite (fun _ => ?_) (fun _ => ?_))

theorem keeps_linkSteps {bb : Bool} {q0 : State} (s : State) (p : Fin 12) (hs : Keeps bb q0 s) : Keeps bb q0 (State.linkSteps s p) := by
  unfold State.linkSteps
  (repeat' first
      | with_reducible assumption
      | with_reducible apply keeps_modPort
      | with_reducible apply keeps_portLinked
      | with_reducible refine keeps_ite (fun _ => ?_) (fun _ => ?_))

theorem keeps_trainingFail {bb : Bool} {q0 : State} (s : State) (p : Fin 12) (cause : ℕ) (hs : Keeps bb q0 s) : Keeps bb q0 (State.trainingFail s p cause) := by
  unfold State.trainingFail
  (repeat' first
      | with_reducible assumption
      | with_reducible apply keeps_modPort
      | with_reducible apply keeps_portDisable
      | with_reducible apply keeps_portDown
      | with_reducible refine keeps_ite (fun _ => ?_) (fun _ => ?_))

theorem keeps_execPortTraining {bb : Bool} {q0 : State} (port : Fin 12) (outcome : PortOutcome) (s : State) (hs : Keeps bb q0 s) : KeepsOut bb q0 (execPortTraining port outcome s) := by
  unfold execPortTraining
  (repeat' first
      | extract_lets
      | with_reducible assumption
      | with_reducible refine keepsOut_next ?_
      | with_reducible apply keeps_modPort
      | with_reducible apply keeps_trainingFail
      | with_reducible apply keeps_linkSteps
      | split)

theorem keeps_execTrainingFrame {bb : Bool} {q0 : State} (port : Fin 12) (lane : Fin 4) (control : BitVec 16) (status : BitVec 16) (check : BitVec 16) (s0 : State) (hs0 : Keeps bb q0 s0) : KeepsOut bb q0 (execTrainingFrame port lane control status check s0) := by
  unfold execTrainingFrame
  (repeat' first
      | with_reducible assumption
      | with_reducible refine keepsOut_next ?_
      | with_reducible apply keeps_draw
      | with_reducible apply keeps_lineIn
      | with_reducible apply keeps_modPort
      | with_reducible refine keepsOut_ite (fun _ => ?_) (fun _ => ?_))

theorem keeps_execDownRetry {bb : Bool} {q0 : State} (port : Fin 12) (s : State) (hs : Keeps bb q0 s) : KeepsOut bb q0 (execDownRetry port s) := by
  unfold execDownRetry
  (repeat' first
      | with_reducible assumption
      | with_reducible refine keepsOut_next ?_
      | with_reducible apply keeps_modPort
      | with_reducible refine keepsOut_ite (fun _ => ?_) (fun _ => ?_))

theorem keeps_sendPres {bb : Bool} {q0 : State} (s : State) (p : Fin 12) (hs : Keeps bb q0 s) : Keeps bb q0 (State.sendPres s p) := by
  unfold State.sendPres
  (repeat' first
      | with_reducible assumption
      | with_reducible apply keeps_modPort)

theorem keeps_retrainExchange {bb : Bool} {q0 : State} (s : State) (p : Fin 12) (hs : Keeps bb q0 s) : Keeps bb q0 (State.retrainExchange s p) := by
  unfold State.retrainExchange
  (repeat' first
      | with_reducible assumption
      | with_reducible apply keeps_sendPres
      | with_reducible apply keeps_modPort
      | with_reducible refine keeps_ite (fun _ => ?_) (fun _ => ?_))

theorem keeps_applyNacks {bb : Bool} {q0 : State} (s : State) (p : Fin 12) (l : List Data2048) (hs : Keeps bb q0 s) : Keeps bb q0 (State.applyNacks s p l) := by
  unfold State.applyNacks
  (repeat' first
      | with_reducible assumption
      | with_reducible apply keeps_modPort
      | with_reducible apply keeps_portViolation
      | with_reducible refine keeps_foldl _ (fun _ _ _ => ?_) _ _ ?_
      | split)

theorem keeps_execFastRetrain {bb : Bool} {q0 : State} (port : Fin 12) (locked : Vector Bool 4) (skew : Vector Byte 4) (s : State) (hs : Keeps bb q0 s) : KeepsOut bb q0 (execFastRetrain port locked skew s) := by
  unfold execFastRetrain
  (repeat' first
      | with_reducible assumption
      | with_reducible refine keepsOut_next ?_
      | with_reducible apply keeps_applyNacks
      | with_reducible apply keeps_modPort
      | with_reducible refine keepsOut_ite (fun _ => ?_) (fun _ => ?_))

theorem keeps_execFastRetrainFail {bb : Bool} {q0 : State} (port : Fin 12) (s : State) (hs : Keeps bb q0 s) : KeepsOut bb q0 (execFastRetrainFail port s) := by
  unfold execFastRetrainFail
  (repeat' first
      | with_reducible assumption
      | with_reducible refine keepsOut_next ?_
      | with_reducible apply keeps_modPort
      | with_reducible refine keepsOut_ite (fun _ => ?_) (fun _ => ?_))

theorem keeps_execLaneLockLoss {bb : Bool} {q0 : State} (port : Fin 12) (lane : Fin 4) (s : State) (hs : Keeps bb q0 s) : KeepsOut bb q0 (execLaneLockLoss port lane s) := by
  unfold execLaneLockLoss
  (repeat' first
      | with_reducible assumption
      | with_reducible refine keepsOut_next ?_
      | with_reducible apply keeps_startRetrain
      | with_reducible refine keepsOut_ite (fun _ => ?_) (fun _ => ?_))

theorem keeps_execLnkEn {bb : Bool} {q0 : State} (port : Fin 12) (en : Bool) (s : State) (hs : Keeps bb q0 s) : KeepsOut bb q0 (execLnkEn port en s) := by
  unfold execLnkEn
  (repeat' first
      | with_reducible assumption
      | with_reducible refine keepsOut_next ?_
      | with_reducible apply keeps_modPort
      | with_reducible refine keepsOut_ite (fun _ => ?_) (fun _ => ?_))

theorem keeps_execAdmitPort {bb : Bool} {q0 : State} (port : Fin 12) (on : Bool) (s : State) (hs : Keeps bb q0 s) : KeepsOut bb q0 (execAdmitPort port on s) := by
  unfold execAdmitPort
  (repeat' first
      | with_reducible assumption
      | with_reducible refine keepsOut_next ?_
      | with_reducible apply keeps_modPort
      | with_reducible refine keepsOut_ite (fun _ => ?_) (fun _ => ?_))

theorem keeps_execClrDegraded {bb : Bool} {q0 : State} (port : Fin 12) (s : State) (hs : Keeps bb q0 s) : KeepsOut bb q0 (execClrDegraded port s) := by
  unfold execClrDegraded
  (repeat' first
      | with_reducible assumption
      | with_reducible refine keepsOut_next ?_
      | with_reducible apply keeps_modPort
      | with_reducible refine keepsOut_ite (fun _ => ?_) (fun _ => ?_))

theorem keeps_execRetrain {bb : Bool} {q0 : State} (port : Fin 12) (s : State) (hs : Keeps bb q0 s) : KeepsOut bb q0 (execRetrain port s) := by
  unfold execRetrain
  (repeat' first
      | with_reducible assumption
      | with_reducible refine keepsOut_next ?_
      | with_reducible apply keeps_startRetrain
      | with_reducible refine keepsOut_ite (fun _ => ?_) (fun _ => ?_))

theorem keeps_execFullTrain {bb : Bool} {q0 : State} (port : Fin 12) (s : State) (hs : Keeps bb q0 s) : KeepsOut bb q0 (execFullTrain port s) := by
  unfold execFullTrain
  (repeat' first
      | with_reducible assumption
      | with_reducible refine keepsOut_next ?_
      | with_reducible apply keeps_modPort
      | with_reducible refine keepsOut_ite (fun _ => ?_) (fun _ => ?_))

theorem keeps_execLoop {bb : Bool} {q0 : State} (port : Fin 12) (mode : BitVec 2) (s : State) (hs : Keeps bb q0 s) : KeepsOut bb q0 (execLoop port mode s) := by
  unfold execLoop
  (repeat' first
      | with_reducible assumption
      | with_reducible refine keepsOut_next ?_
      | with_reducible apply keeps_portDown
      | with_reducible apply keeps_modPort
      | with_reducible refine keepsOut_ite (fun _ => ?_) (fun _ => ?_))

theorem keeps_execLnkCntClr {bb : Bool} {q0 : State} (port : Fin 12) (s : State) (hs : Keeps bb q0 s) : KeepsOut bb q0 (execLnkCntClr port s) := by
  unfold execLnkCntClr
  (repeat' first
      | with_reducible assumption
      | with_reducible refine keepsOut_next ?_
      | with_reducible apply keeps_modPort
      | with_reducible refine keepsOut_ite (fun _ => ?_) (fun _ => ?_))

theorem keeps_execPrbsClr {bb : Bool} {q0 : State} (port : Fin 12) (lane : Fin 4) (s : State) (hs : Keeps bb q0 s) : KeepsOut bb q0 (execPrbsClr port lane s) := by
  unfold execPrbsClr
  (repeat' first
      | with_reducible assumption
      | with_reducible refine keepsOut_next ?_
      | with_reducible apply keeps_modPort
      | with_reducible refine keepsOut_ite (fun _ => ?_) (fun _ => ?_))

theorem keeps_execPrbsCheckerLock {bb : Bool} {q0 : State} (port : Fin 12) (lane : Fin 4) (bits : BitVec 31) (s : State) (hs : Keeps bb q0 s) : KeepsOut bb q0 (execPrbsCheckerLock port lane bits s) := by
  unfold execPrbsCheckerLock
  (repeat' first
      | (extract_lets +onlyGivenNames x; first
          | (with_reducible refine keeps_cut2 (bb := bb) (r := q0) x ?_ (fun hx => ?_); (on_goal 2 => clear_value x); (on_goal 1 => (unfold x; clear x)))
          | clear_value x
          )
      | with_reducible assumption
      | with_reducible refine keepsOut_next ?_
      | with_reducible apply keeps_draw
      | with_reducible apply keeps_modPort
      | split)

theorem keeps_execFill {bb : Bool} {q0 : State} (port : Fin 12) (blk : Data256) (aboveHalf : Bool) (belowHalf : Bool) (s : State) (hs : Keeps bb q0 s) : KeepsOut bb q0 (execFill port blk aboveHalf belowHalf s) := by
  unfold execFill
  (repeat' first
      | with_reducible assumption
      | with_reducible apply keeps_withBlock
      | with_reducible apply keeps_modPort
      | with_reducible intro _)

theorem keeps_execAlign {bb : Bool} {q0 : State} (port : Fin 12) (lane : Fin 4) (blk : Data256) (s : State) (hs : Keeps bb q0 s) : KeepsOut bb q0 (execAlign port lane blk s) := by
  unfold execAlign
  (repeat' first
      | with_reducible assumption
      | with_reducible apply keeps_withBlock
      | with_reducible apply keeps_retrainExchange
      | with_reducible apply keeps_modPort
      | with_reducible intro _)

theorem keeps_execLinkUp {bb : Bool} {q0 : State} (port : Fin 12) (blk : Data256) (s0 : State) (hs0 : Keeps bb q0 s0) : KeepsOut bb q0 (execLinkUp port blk s0) := by
  unfold execLinkUp
  (repeat' first
      | with_reducible assumption
      | with_reducible refine keepsOut_next ?_
      | with_reducible apply keeps_lineIn
      | with_reducible apply keeps_tookBlocks
      | with_reducible apply keeps_linkSteps
      | with_reducible apply keeps_modPort
      | with_reducible refine keepsOut_ite (fun _ => ?_) (fun _ => ?_))

theorem keeps_execPres {bb : Bool} {q0 : State} (port : Fin 12) (blk : Data256) (s : State) (hs : Keeps bb q0 s) : KeepsOut bb q0 (execPres port blk s) := by
  unfold execPres
  apply keeps_withBlock _ _ _ _ _ hs
  intro t ht
  (repeat' first
      | with_reducible assumption
      | with_reducible apply keeps_modPort
      | with_reducible apply keeps_lnkEvent
      | with_reducible apply keeps_linkSteps
      | with_reducible refine keeps_ite (fun _ => ?_) (fun _ => ?_))

theorem keeps_execPresSend {bb : Bool} {q0 : State} (port : Fin 12) (s : State) (hs : Keeps bb q0 s) : KeepsOut bb q0 (execPresSend port s) := by
  unfold execPresSend
  (repeat' first
      | with_reducible assumption
      | with_reducible refine keepsOut_next ?_
      | with_reducible apply keeps_sendPres
      | with_reducible refine keepsOut_ite (fun _ => ?_) (fun _ => ?_))

theorem keeps_execPresTimeout {bb : Bool} {q0 : State} (port : Fin 12) (s : State) (hs : Keeps bb q0 s) : KeepsOut bb q0 (execPresTimeout port s) := by
  unfold execPresTimeout
  (repeat' first
      | with_reducible assumption
      | with_reducible refine keepsOut_next ?_
      | with_reducible apply keeps_portDown
      | with_reducible refine keepsOut_ite (fun _ => ?_) (fun _ => ?_))

theorem keeps_execRttReq {bb : Bool} {q0 : State} (port : Fin 12) (blk : Data256) (s : State) (hs : Keeps bb q0 s) : KeepsOut bb q0 (execRttReq port blk s) := by
  unfold execRttReq
  (repeat' first
      | with_reducible assumption
      | with_reducible apply keeps_withBlock
      | with_reducible apply keeps_modPort
      | with_reducible refine keeps_ite (fun _ => ?_) (fun _ => ?_)
      | with_reducible intro _)

theorem keeps_execRttRsp {bb : Bool} {q0 : State} (port : Fin 12) (blk : Data256) (s : State) (hs : Keeps bb q0 s) : KeepsOut bb q0 (execRttRsp port blk s) := by
  unfold execRttRsp
  (repeat' first
      | with_reducible assumption
      | with_reducible apply keeps_withBlock
      | with_reducible apply keeps_linkSteps
      | with_reducible apply keeps_modPort
      | with_reducible intro _
      | split)

theorem keeps_execBadControlBlock {bb : Bool} {q0 : State} (port : Fin 12) (blk : Data256) (s0 : State) (hs0 : Keeps bb q0 s0) : KeepsOut bb q0 (execBadControlBlock port blk s0) := by
  unfold execBadControlBlock
  (repeat' first
      | with_reducible assumption
      | with_reducible refine keepsOut_next ?_
      | with_reducible apply keeps_lineIn
      | with_reducible apply keeps_tookBlocks
      | with_reducible apply keeps_modPort
      | with_reducible apply keeps_portViolation
      | with_reducible refine keepsOut_ite (fun _ => ?_) (fun _ => ?_))

theorem keeps_execUncorrectableCodeword {bb : Bool} {q0 : State} (port : Fin 12) (corrected : ℕ) (uncorrectable : Bool) (s : State) (hs : Keeps bb q0 s) : KeepsOut bb q0 (execUncorrectableCodeword port corrected uncorrectable s) := by
  unfold execUncorrectableCodeword
  (repeat' first
      | with_reducible assumption
      | with_reducible refine keepsOut_next ?_
      | with_reducible apply keeps_modPort
      | with_reducible apply keeps_portError
      | with_reducible refine keeps_ite (fun _ => ?_) (fun _ => ?_))

theorem keeps_execFlitTransmit {bb : Bool} {q0 : State} (port : Fin 12) (s : State) (hs : Keeps bb q0 s) : KeepsOut bb q0 (execFlitTransmit port s) := by
  unfold execFlitTransmit
  (repeat' first
      | (extract_lets +onlyGivenNames x; first
          | (with_reducible refine keeps_cut (bb := bb) (r := q0) x ?_ (fun hx => ?_); (on_goal 2 => clear_value x); (on_goal 1 => (unfold x; clear x)))
          | (with_reducible refine keeps_cut2 (bb := bb) (r := q0) x ?_ (fun hx => ?_); (on_goal 2 => clear_value x); (on_goal 1 => (unfold x; clear x)))
          | (with_reducible refine keeps_isFun x ?_; unfold x; clear x)
          | clear_value x
          )
      | with_reducible assumption
      | with_reducible refine keepsOut_next ?_
      | with_reducible apply keeps_draw
      | with_reducible apply keeps_modPort
      | split)

theorem keeps_execNackRepeat {bb : Bool} {q0 : State} (port : Fin 12) (s : State) (hs : Keeps bb q0 s) : KeepsOut bb q0 (execNackRepeat port s) := by
  unfold execNackRepeat
  (repeat' first
      | extract_lets
      | with_reducible assumption
      | with_reducible refine keepsOut_next ?_
      | with_reducible apply keeps_modPort
      | split)

theorem keeps_execCreditTimeout {bb : Bool} {q0 : State} (port : Fin 12) (vc : Fin 4) (s : State) (hs : Keeps bb q0 s) : KeepsOut bb q0 (execCreditTimeout port vc s) := by
  unfold execCreditTimeout
  (repeat' first
      | extract_lets
      | with_reducible assumption
      | with_reducible refine keepsOut_next ?_
      | with_reducible apply keeps_lnkEvent
      | with_reducible apply keeps_modPort
      | split)

theorem keeps_dropProbe {bb : Bool} {q0 : State} (s : State) (hs : Keeps bb q0 s) : Keeps bb q0 (State.dropProbe s) := by
  unfold State.dropProbe
  (repeat' first
      | with_reducible assumption
      | with_reducible apply keeps_modFab)

theorem keeps_deliverFlit {bb : Bool} {q0 : State} (s : State) (p : Fin 12) (f : Data2048) (sealed : Bool) (hs : Keeps bb q0 s) : Keeps bb q0 (State.deliverFlit s p f sealed) := by
  unfold State.deliverFlit
  dsimp only
  repeat' first | with_reducible assumption | with_reducible apply keeps_modPort | with_reducible apply keeps_modFab | with_reducible apply keeps_modSec | with_reducible apply keeps_dropProbe | with_reducible apply keeps_noteRouteDrop | with_reducible apply keeps_sendTo | with_reducible refine keeps_ite (fun _ => ?_) (fun _ => ?_)

theorem keeps_screenFlit {bb : Bool} {q0 : State} (s0 : State) (p : Fin 12) (f : Data2048) (hs0 : Keeps bb q0 s0) : Keeps bb q0 (State.screenFlit s0 p f) := by
  unfold State.screenFlit
  (repeat' first
      | (extract_lets +onlyGivenNames x; first
          | (with_reducible refine keeps_cut (bb := bb) (r := q0) x ?_ (fun hx => ?_); (on_goal 2 => clear_value x); (on_goal 1 => (unfold x; clear x)))
          | (with_reducible refine keeps_isFun x ?_; unfold x; clear x)
          | clear_value x
          )
      | with_reducible assumption
      | with_reducible apply keeps_modPort
      | with_reducible apply keeps_portViolation
      | with_reducible apply keeps_portAuthFail
      | with_reducible apply keeps_lnkEvent
      | with_reducible apply keeps_startRetrain
      | with_reducible apply keeps_deliverFlit
      | split)

theorem keeps_execFlitReceive {bb : Bool} {q0 : State} (port : Fin 12) (flit : Data2048) (badBlock : Bool) (s0 : State) (hs0 : Keeps bb q0 s0) : KeepsOut bb q0 (execFlitReceive port flit badBlock s0) := by
  unfold execFlitReceive
  (repeat' first
      | with_reducible assumption
      | with_reducible refine keepsOut_next ?_
      | with_reducible apply keeps_lineIn
      | with_reducible apply keeps_tookBlocks
      | with_reducible apply keeps_modPort
      | with_reducible apply keeps_portError
      | with_reducible apply keeps_portViolation
      | with_reducible apply keeps_screenFlit
      | with_reducible refine keepsOut_ite (fun _ => ?_) (fun _ => ?_)
      | split)

theorem keeps_freeForwarded {bb : Bool} {q0 : State} (s : State) (p : Fin 12) (hs : Keeps bb q0 s) : Keeps bb q0 (State.freeForwarded s p) := by
  unfold State.freeForwarded
  (repeat' first
      | (extract_lets +onlyGivenNames x; first
          | clear_value x
          )
      | with_reducible assumption
      | with_reducible apply keeps_modPort
      | with_reducible refine keeps_foldl _ (fun _ _ _ => ?_) _ _ ?_
      | split)

theorem keeps_sendGeyser {bb : Bool} {q0 : State} (s : State) (body : Data256) (hs : Keeps bb q0 s) : Keeps bb q0 (State.sendGeyser s body) := by
  unfold State.sendGeyser
  (repeat' first
      | with_reducible assumption
      | with_reducible apply keeps_modPort
      | with_reducible refine keeps_foldl _ (fun _ _ _ => ?_) _ _ ?_
      | with_reducible refine keeps_ite (fun _ => ?_) (fun _ => ?_))

theorem keeps_execGeyserBlockSend {bb : Bool} {q0 : State} (s : State) (hs : Keeps bb q0 s) : KeepsOut bb q0 (execGeyserBlockSend s) := by
  unfold execGeyserBlockSend
  (repeat' first
      | with_reducible assumption
      | with_reducible refine keepsOut_next ?_
      | with_reducible apply keeps_sendGeyser
      | with_reducible refine keepsOut_ite (fun _ => ?_) (fun _ => ?_)
      | (simp only [keeps_mk, kept_eta, State.modGlb]; with_reducible assumption))

theorem keeps_execGeyserCopySend {bb : Bool} {q0 : State} (s : State) (hs : Keeps bb q0 s) : KeepsOut bb q0 (execGeyserCopySend s) := by
  unfold execGeyserCopySend
  (repeat' first
      | with_reducible assumption
      | with_reducible refine keepsOut_next ?_
      | with_reducible apply keeps_sendGeyser
      | split
      | (simp only [keeps_mk, kept_eta, State.modGlb]; with_reducible assumption))

theorem keeps_execPulseEmission {bb : Bool} {q0 : State} (s : State) (hs : Keeps bb q0 s) : KeepsOut bb q0 (execPulseEmission s) := by
  unfold execPulseEmission
  (repeat' first
      | with_reducible assumption
      | with_reducible refine keepsOut_next ?_
      | with_reducible refine keepsOut_ite (fun _ => ?_) (fun _ => ?_)
      | (simp only [keeps_mk, kept_eta, State.modGlb]; with_reducible assumption))

theorem keeps_applyReport {bb : Bool} {q0 : State} (s : State) (d : ℕ) (l : ℕ) (hs : Keeps bb q0 s) : Keeps bb q0 (State.applyReport s d l) := by
  unfold State.applyReport
  (repeat' first
      | with_reducible assumption
      | with_reducible apply keeps_modFab
      | with_reducible refine keeps_ite (fun _ => ?_) (fun _ => ?_)
      | (simp only [keeps_mk, kept_eta, State.modGlb]; with_reducible assumption))

theorem keeps_reportHold {bb : Bool} {q0 : State} (s : State) (beat : DWord) (d : ℕ) (hs : Keeps bb q0 s) : Keeps bb q0 (State.reportHold s beat d) := by
  unfold State.reportHold
  (repeat' first
      | with_reducible assumption
      | with_reducible apply keeps_applyReport
      | with_reducible apply keeps_report
      | with_reducible refine keeps_ite (fun _ => ?_) (fun _ => ?_))

theorem keeps_reportSquall {bb : Bool} {q0 : State} (s : State) (l : ℕ) (hs : Keeps bb q0 s) : Keeps bb q0 (State.reportSquall s l) := by
  unfold State.reportSquall
  (repeat' first
      | with_reducible assumption
      | with_reducible apply keeps_applyReport
      | with_reducible apply keeps_report
      | with_reducible refine keeps_ite (fun _ => ?_) (fun _ => ?_))

theorem keeps_takeReport {bb : Bool} {q0 : State} (s : State) (pl : BitVec 1920) (squall : Bool) (hs : Keeps bb q0 s) : Keeps bb q0 (State.takeReport s pl squall) := by
  unfold State.takeReport
  (repeat' first
      | (extract_lets +onlyGivenNames x; first
          | clear_value x
          )
      | with_reducible assumption
      | with_reducible apply keeps_report
      | with_reducible apply keeps_modFab
      | with_reducible apply keeps_forwardNotice
      | with_reducible apply keeps_applyReport
      | split
      | (simp only [keeps_mk, kept_eta, State.modGlb]; with_reducible assumption))

theorem keeps_execStretchReceive {bb : Bool} {q0 : State} (s : State) (hs : Keeps bb q0 s) : KeepsOut bb q0 (execStretchReceive s) := by
  unfold execStretchReceive
  (repeat' first
      | (extract_lets +onlyGivenNames x; first
          | clear_value x
          )
      | with_reducible assumption
      | with_reducible refine keepsOut_next ?_
      | with_reducible apply keeps_takeReport
      | with_reducible apply keeps_tookFlit
      | split)

theorem keeps_execSquallReceive {bb : Bool} {q0 : State} (s : State) (hs : Keeps bb q0 s) : KeepsOut bb q0 (execSquallReceive s) := by
  unfold execSquallReceive
  (repeat' first
      | (extract_lets +onlyGivenNames x; first
          | clear_value x
          )
      | with_reducible assumption
      | with_reducible refine keepsOut_next ?_
      | with_reducible apply keeps_takeReport
      | with_reducible apply keeps_tookFlit
      | split)

theorem keeps_actOnPulse {bb : Bool} {q0 : State} (s : State) (port : Fin 12) (blk : Data256) (hs : Keeps bb q0 s) : Keeps bb q0 (State.actOnPulse s port blk) := by
  unfold State.actOnPulse
  (repeat' first
      | with_reducible assumption
      | with_reducible apply keeps_sendGeyser
      | with_reducible apply keeps_fabEvent
      | with_reducible apply keeps_modFab
      | with_reducible refine keeps_ite (fun _ => ?_) (fun _ => ?_)
      | (simp only [keeps_mk, kept_eta, State.modGlb]; with_reducible assumption))

theorem keeps_execGeyserReceive {bb : Bool} {q0 : State} (port : Fin 12) (blk : Data256) (s : State) (hs : Keeps bb q0 s) : KeepsOut bb q0 (execGeyserReceive port blk s) := by
  unfold execGeyserReceive
  (repeat' first
      | with_reducible assumption
      | with_reducible apply keeps_withBlock
      | with_reducible apply keeps_actOnPulse
      | with_reducible apply keeps_modFab
      | with_reducible refine keeps_ite (fun _ => ?_) (fun _ => ?_)
      | with_reducible intro _)

theorem keeps_loseGeyser {bb : Bool} {q0 : State} (s : State) (h : PlanId) (hs : Keeps bb q0 s) : Keeps bb q0 (State.loseGeyser s h) := by
  unfold State.loseGeyser
  (repeat' first
      | with_reducible assumption
      | with_reducible apply keeps_stopIfHeld
      | with_reducible apply keeps_modPlan
      | with_reducible apply keeps_planStop
      | split)

theorem keeps_execGeyserTimeout {bb : Bool} {q0 : State} (s : State) (hs : Keeps bb q0 s) : KeepsOut bb q0 (execGeyserTimeout s) := by
  unfold execGeyserTimeout
  (repeat' first
      | with_reducible assumption
      | with_reducible refine keepsOut_next ?_
      | with_reducible apply keeps_fabEvent
      | with_reducible apply keeps_loseGeyser
      | with_reducible refine keeps_foldl _ (fun _ _ _ => ?_) _ _ ?_
      | with_reducible refine keepsOut_ite (fun _ => ?_) (fun _ => ?_)
      | (simp only [keeps_mk, kept_eta, State.modGlb]; with_reducible assumption))

theorem keeps_execZeroingComplete {bb : Bool} {q0 : State} (cal : Fin 64) (s : State) (hs : Keeps bb q0 s) : KeepsOut bb q0 (execZeroingComplete cal s) := by
  unfold execZeroingComplete
  (repeat' first
      | with_reducible assumption
      | with_reducible refine keepsOut_next ?_
      | with_reducible apply keeps_modCal
      | with_reducible apply keeps_noteLate
      | with_reducible refine keepsOut_ite (fun _ => ?_) (fun _ => ?_))

theorem keeps_execGate {bb : Bool} {q0 : State} (cal : Fin 64) (withWake : Bool) (s : State) (hs : Keeps bb q0 s) : KeepsOut bb q0 (execGate cal withWake s) := by
  unfold execGate
  (repeat' first
      | with_reducible assumption
      | with_reducible refine keepsOut_next ?_
      | with_reducible apply keeps_modCal
      | with_reducible refine keepsOut_ite (fun _ => ?_) (fun _ => ?_))

theorem keeps_execGateEffect {bb : Bool} {q0 : State} (cal : Fin 64) (s : State) (hs : Keeps bb q0 s) : KeepsOut bb q0 (execGateEffect cal s) := by
  unfold execGateEffect
  (repeat' first
      | with_reducible assumption
      | with_reducible refine keepsOut_next ?_
      | with_reducible apply keeps_draw
      | with_reducible apply keeps_modCal
      | with_reducible refine keepsOut_ite (fun _ => ?_) (fun _ => ?_))

theorem keeps_execWake {bb : Bool} {q0 : State} (cal : Fin 64) (s : State) (hs : Keeps bb q0 s) : KeepsOut bb q0 (execWake cal s) := by
  unfold execWake
  (repeat' first
      | with_reducible assumption
      | with_reducible refine keepsOut_next ?_
      | with_reducible apply keeps_modCal
      | with_reducible refine keepsOut_ite (fun _ => ?_) (fun _ => ?_))

theorem keeps_execWakePowerOn {bb : Bool} {q0 : State} (cal : Fin 64) (s : State) (hs : Keeps bb q0 s) : KeepsOut bb q0 (execWakePowerOn cal s) := by
  unfold execWakePowerOn
  (repeat' first
      | with_reducible assumption
      | with_reducible refine keepsOut_next ?_
      | with_reducible apply keeps_modCal
      | with_reducible refine keepsOut_ite (fun _ => ?_) (fun _ => ?_))

theorem keeps_execPaceMinClr {bb : Bool} {q0 : State} (cal : Fin 64) (s : State) (hs : Keeps bb q0 s) : KeepsOut bb q0 (execPaceMinClr cal s) := by
  unfold execPaceMinClr
  (repeat' first
      | with_reducible assumption
      | with_reducible refine keepsOut_next ?_
      | with_reducible apply keeps_modCal
      | with_reducible refine keepsOut_ite (fun _ => ?_) (fun _ => ?_))

theorem keeps_modCals {bb : Bool} {q0 : State} (s : State) (p : Plan) (f : Fin 64 → Caldera → Caldera) (hs : Keeps bb q0 s) : Keeps bb q0 (State.modCals s p f) := by
  unfold State.modCals
  (repeat' first
      | with_reducible assumption
      | with_reducible apply keeps_modCal
      | with_reducible refine keeps_foldl _ (fun _ _ _ => ?_) _ _ ?_)

theorem keeps_armGateway {bb : Bool} {q0 : State} (s : State) (n : Fin 64) (k : Fin 64) (hs : Keeps bb q0 s) : Keeps bb q0 (State.armGateway s n k) := by
  unfold State.armGateway
  extract_lets t words add dst s1
  have ha : ∀ (s : State) (r : EpRef), Keeps bb q0 s → Keeps bb q0 (add s r) := by
    intro s r hs
    unfold add
    split
    · exact keeps_modGw _ _ _ _ hs
    · exact hs
  have h1 : Keeps bb q0 s1 := keeps_ite (fun _ => keeps_foldl _ (fun _ _ h => ha _ _ h) _ _ hs) (fun _ => hs)
  clear_value s1
  split
  · exact keeps_ite (fun _ => ha _ _ h1) (fun _ => h1)
  · exact h1

theorem keeps_startResync {bb : Bool} {q0 : State} (s : State) (p : Plan) (hs : Keeps bb q0 s) : Keeps bb q0 (State.startResync s p) := by
  unfold State.startResync
  (repeat' first
      | with_reducible assumption
      | with_reducible apply keeps_modRegion
      | with_reducible refine keeps_foldl _ (fun _ _ _ => ?_) _ _ ?_)

theorem keeps_dspRecords {bb : Bool} {q0 : State} (s : State) (p : Plan) (beat : ℕ) (hs : Keeps bb q0 s) : Keeps bb q0 (State.dspRecords s p beat) := by
  unfold State.dspRecords
  (repeat' first
      | with_reducible assumption
      | with_reducible apply keeps_modCals)

theorem keeps_unload {bb : Bool} {q0 : State} (s : State) (p : Plan) (hs : Keeps bb q0 s) : Keeps bb q0 (State.unload s p) := by
  unfold State.unload
  (repeat' first
      | (extract_lets +onlyGivenNames x; first
          | (with_reducible refine keeps_cut (bb := bb) (r := q0) x ?_ (fun hx => ?_); (on_goal 2 => clear_value x); (on_goal 1 => (unfold x; clear x)))
          )
      | with_reducible assumption
      | with_reducible apply keeps_modCals
      | with_reducible apply keeps_clearConduits
      | with_reducible refine keeps_ite (fun _ => ?_) (fun _ => ?_)
      | (simp only [keeps_mk, kept_eta]; with_reducible assumption))

theorem keeps_inlineResult {bb : Bool} {q0 : State} (s : State) (p : Plan) (hs : Keeps bb q0 s) : Keeps bb q0 (State.inlineResult s p) := by
  unfold State.inlineResult
  (repeat' first
      | with_reducible assumption
      | with_reducible apply keeps_emit
      | split)

theorem keeps_tryFinish {bb : Bool} {q0 : State} (s : State) (h : PlanId) (hs : Keeps bb q0 s) : Keeps bb q0 (State.tryFinish s h) := by
  unfold State.tryFinish
  (repeat' first
      | with_reducible assumption
      | with_reducible apply keeps_inlineResult
      | with_reducible apply keeps_dspRecords
      | with_reducible apply keeps_endWork
      | with_reducible apply keeps_complete
      | with_reducible apply keeps_unload
      | split)

theorem keeps_abortPlan {bb : Bool} {q0 : State} (s : State) (h : PlanId) (hs : Keeps bb q0 s) : Keeps bb q0 (State.abortPlan s h) := by
  unfold State.abortPlan
  (repeat' first
      | with_reducible assumption
      | with_reducible apply keeps_unload
      | with_reducible apply keeps_modCals
      | split)

theorem keeps_stopCompletion {bb : Bool} {q0 : State} (s : State) (p : Plan) (hs : Keeps bb q0 s) : Keeps bb q0 (State.stopCompletion s p) := by
  unfold State.stopCompletion
  (repeat' first
      | with_reducible assumption
      | with_reducible apply keeps_stopWork
      | split)

theorem keeps_haltPlan {bb : Bool} {q0 : State} (s : State) (p : Plan) (hs : Keeps bb q0 s) : Keeps bb q0 (State.haltPlan s p) := by
  unfold State.haltPlan
  (repeat' first
      | with_reducible assumption
      | with_reducible apply keeps_modCals
      | with_reducible apply keeps_pauseStream
      | with_reducible apply keeps_dspRecords
      | with_reducible apply keeps_discardWords
      | with_reducible refine keeps_foldl _ (fun _ _ _ => ?_) _ _ ?_)

theorem keeps_suspendPlan {bb : Bool} {q0 : State} (s : State) (h : PlanId) (hs : Keeps bb q0 s) : Keeps bb q0 (State.suspendPlan s h) := by
  unfold State.suspendPlan
  (repeat' first
      | with_reducible assumption
      | with_reducible apply keeps_haltPlan
      | with_reducible apply keeps_modPlan
      | with_reducible apply keeps_stopCompletion
      | split)

theorem keeps_trySuspend {bb : Bool} {q0 : State} (s : State) (h : PlanId) (hs : Keeps bb q0 s) : Keeps bb q0 (State.trySuspend s h) := by
  unfold State.trySuspend
  (repeat' first
      | with_reducible assumption
      | with_reducible apply keeps_suspendPlan
      | split)

theorem keeps_execPreemptWaitExpiry {bb : Bool} {q0 : State} (handle : PlanId) (s : State) (hs : Keeps bb q0 s) : KeepsOut bb q0 (execPreemptWaitExpiry handle s) := by
  unfold execPreemptWaitExpiry
  (repeat' first
      | with_reducible assumption
      | with_reducible refine keepsOut_next ?_
      | with_reducible apply keeps_suspendPlan
      | split)

theorem keeps_fusedItems {bb : Bool} {q0 : State} (s : State) (p : Plan) (b : ℕ) (hs : Keeps bb q0 s) : Keeps bb q0 (State.fusedItems s p b) := by
  unfold State.fusedItems
  (repeat' first
      | with_reducible assumption
      | with_reducible apply keeps_submit
      | with_reducible apply keeps_modCal
      | with_reducible refine keeps_foldl _ (fun _ _ _ => ?_) _ _ ?_
      | with_reducible refine keeps_ite (fun _ => ?_) (fun _ => ?_)
      | split)

theorem keeps_openPlanBeat {bb : Bool} {q0 : State} (s : State) (p : Plan) (b : ℕ) (hs : Keeps bb q0 s) : Keeps bb q0 (State.openPlanBeat s p b) := by
  unfold State.openPlanBeat
  (repeat' first
      | with_reducible assumption
      | with_reducible apply keeps_modPlan
      | with_reducible apply keeps_modCals
      | with_reducible apply keeps_tryFinish
      | with_reducible apply keeps_fusedItems
      | with_reducible refine keeps_ite (fun _ => ?_) (fun _ => ?_))

theorem keeps_restartPlan {bb : Bool} {q0 : State} (s : State) (p : Plan) (hs : Keeps bb q0 s) : Keeps bb q0 (State.restartPlan s p) := by
  unfold State.restartPlan
  (repeat' first
      | with_reducible assumption
      | with_reducible apply keeps_modCal
      | with_reducible apply keeps_modCals
      | with_reducible apply keeps_startResync
      | with_reducible refine keeps_foldl _ (fun _ _ _ => ?_) _ _ ?_
      | with_reducible refine keeps_ite (fun _ => ?_) (fun _ => ?_))

theorem keeps_openPlan {bb : Bool} {q0 : State} (s : State) (b : DWord) (h : PlanId) (hs : Keeps bb q0 s) : Keeps bb q0 (State.openPlan s b h) := by
  unfold State.openPlan
  (repeat' first
      | (extract_lets +onlyGivenNames x; first
          | (with_reducible refine keeps_cut (bb := bb) (r := q0) x ?_ (fun hx => ?_); (on_goal 2 => clear_value x); (on_goal 1 => (unfold x; clear x)))
          )
      | with_reducible assumption
      | with_reducible apply keeps_suspendPlan
      | with_reducible apply keeps_restartPlan
      | with_reducible apply keeps_openPlanBeat
      | with_reducible apply keeps_trySuspend
      | with_reducible apply keeps_modPlan
      | with_reducible apply keeps_dspRecords
      | with_reducible apply keeps_tryFinish
      | split)

theorem keeps_startRun {bb : Bool} {q0 : State} (s : State) (h : PlanId) (serial : ℕ) (start : DWord) (hs : Keeps bb q0 s) : Keeps bb q0 (State.startRun s h serial start) := by
  unfold State.startRun
  (repeat' first
      | with_reducible assumption
      | with_reducible apply keeps_modPlan
      | with_reducible apply keeps_modCals
      | split)

theorem keeps_resumeRun {bb : Bool} {q0 : State} (s : State) (h : PlanId) (serial : ℕ) (start : DWord) (hs : Keeps bb q0 s) : Keeps bb q0 (State.resumeRun s h serial start) := by
  unfold State.resumeRun
  (repeat' first
      | with_reducible assumption
      | with_reducible apply keeps_modPlan)

theorem keeps_saveCal {bb : Bool} {q0 : State} (s : State) (ctx : Byte) (x : Fin 64 × Caldera) (hs : Keeps bb q0 s) : Keeps bb q0 (State.saveCal s ctx x) := by
  unfold State.saveCal
  (repeat' first
      | with_reducible assumption
      | with_reducible apply keeps_draw
      | with_reducible apply keeps_saveFrame
      | with_reducible refine keeps_foldl _ (fun _ _ _ => ?_) _ _ ?_)

theorem keeps_switchOut {bb : Bool} {q0 : State} (s : State) (q : Plan) (hs : Keeps bb q0 s) : Keeps bb q0 (State.switchOut s q) := by
  unfold State.switchOut
  (repeat' first
      | with_reducible assumption
      | with_reducible apply keeps_modCals
      | with_reducible apply keeps_clearConduits
      | with_reducible apply keeps_saveCal
      | with_reducible apply keeps_modPlan
      | with_reducible refine keeps_foldl _ (fun _ _ _ => ?_) _ _ ?_)

theorem keeps_switchIn {bb : Bool} {q0 : State} (s : State) (p : Plan) (hs : Keeps bb q0 s) : Keeps bb q0 (State.switchIn s p) := by
  unfold State.switchIn
  (repeat' first
      | with_reducible assumption
      | with_reducible apply keeps_modCal
      | with_reducible apply keeps_countFrame
      | with_reducible apply keeps_modRegion
      | with_reducible apply keeps_setupConduits
      | with_reducible apply keeps_modPlan
      | with_reducible refine keeps_foldl _ (fun _ _ _ => ?_) _ _ ?_)

theorem keeps_switchContexts {bb : Bool} {q0 : State} (s : State) (hs : Keeps bb q0 s) : Keeps bb q0 (State.switchContexts s) := by
  unfold State.switchContexts
  (repeat' first
      | with_reducible assumption
      | with_reducible apply keeps_switchOut
      | with_reducible apply keeps_switchIn
      | with_reducible refine keeps_foldl _ (fun _ _ _ => ?_) _ _ ?_
      | split)

theorem keeps_execPassCommit {bb : Bool} {q0 : State} (cal : Fin 64) (tile : Fin 4) (s : State) (hs : Keeps bb q0 s) : KeepsOut bb q0 (execPassCommit cal tile s) := by
  unfold execPassCommit
  (repeat' first
      | with_reducible assumption
      | with_reducible refine keepsOut_next ?_
      | with_reducible apply keeps_tryFinish
      | with_reducible apply keeps_commitPass
      | split)

theorem keeps_execArmingComplete {bb : Bool} {q0 : State} (slot : SlotRef) (s : State) (hs : Keeps bb q0 s) : KeepsOut bb q0 (execArmingComplete slot s) := by
  unfold execArmingComplete
  (repeat' first
      | with_reducible assumption
      | with_reducible refine keepsOut_next ?_
      | with_reducible apply keeps_armDone
      | with_reducible apply keeps_armGateway
      | with_reducible apply keeps_tryFinish
      | split)

theorem keeps_execWbeat {bb : Bool} {q0 : State} (cal : Fin 64) (s : State) (hs : Keeps bb q0 s) : KeepsOut bb q0 (execWbeat cal s) := by
  unfold execWbeat
  (repeat' first
      | with_reducible assumption
      | with_reducible refine keepsOut_next ?_
      | with_reducible apply keeps_tryFinish
      | with_reducible apply keeps_modCal
      | split)

theorem keeps_execDspEnd {bb : Bool} {q0 : State} (cal : Fin 64) (s : State) (hs : Keeps bb q0 s) : KeepsOut bb q0 (execDspEnd cal s) := by
  unfold execDspEnd
  (repeat' first
      | with_reducible assumption
      | with_reducible refine keepsOut_next ?_
      | with_reducible apply keeps_tryFinish
      | with_reducible apply keeps_dspStop
      | split)

theorem keeps_modSq {bb : Bool} {q0 : State} (s : State) (q : Fin 64) (f : SqRing → SqRing) (hs : Keeps bb q0 s) : Keeps bb q0 (State.modSq s q f) := by
  unfold State.modSq
  (repeat' first
      | with_reducible assumption
      | with_reducible apply keeps_modCp)

theorem keeps_modCq {bb : Bool} {q0 : State} (s : State) (q : Fin 64) (f : CqRing → CqRing) (hs : Keeps bb q0 s) : Keeps bb q0 (State.modCq s q f) := by
  unfold State.modCq
  (repeat' first
      | with_reducible assumption
      | with_reducible apply keeps_modCp)

theorem keeps_dropSubmitted {bb : Bool} {q0 : State} (s : State) (q : Fin 64) (hs : Keeps bb q0 s) : Keeps bb q0 (State.dropSubmitted s q) := by
  unfold State.dropSubmitted
  (repeat' first
      | with_reducible assumption
      | with_reducible apply keeps_modCp)

theorem keeps_writeSqCtl {bb : Bool} {q0 : State} (s : State) (q : Fin 64) (w : Word) (hs : Keeps bb q0 s) : Keeps bb q0 (State.writeSqCtl s q w) := by
  unfold State.writeSqCtl
  (repeat' first
      | with_reducible assumption
      | with_reducible apply keeps_modSq
      | with_reducible apply keeps_dropSubmitted
      | with_reducible refine keeps_ite (fun _ => ?_) (fun _ => ?_))

theorem keeps_execSqEnable {bb : Bool} {q0 : State} (ring : Fin 64) (ctl : Word) (s : State) (hs : Keeps bb q0 s) : KeepsOut bb q0 (execSqEnable ring ctl s) := by
  unfold execSqEnable
  (repeat' first
      | with_reducible assumption
      | with_reducible refine keepsOut_next ?_
      | with_reducible apply keeps_writeSqCtl
      | with_reducible refine keepsOut_ite (fun _ => ?_) (fun _ => ?_))

theorem keeps_execSqDisable {bb : Bool} {q0 : State} (ring : Fin 64) (s : State) (hs : Keeps bb q0 s) : KeepsOut bb q0 (execSqDisable ring s) := by
  unfold execSqDisable
  (repeat' first
      | with_reducible assumption
      | with_reducible refine keepsOut_next ?_
      | with_reducible apply keeps_modSq
      | with_reducible refine keepsOut_ite (fun _ => ?_) (fun _ => ?_))

theorem keeps_execCqEnable {bb : Bool} {q0 : State} (ring : Fin 64) (ctl : Word) (s : State) (hs : Keeps bb q0 s) : KeepsOut bb q0 (execCqEnable ring ctl s) := by
  unfold execCqEnable
  (repeat' first
      | with_reducible assumption
      | with_reducible refine keepsOut_next ?_
      | with_reducible apply keeps_modCq
      | with_reducible refine keepsOut_ite (fun _ => ?_) (fun _ => ?_))

theorem keeps_execCqDisable {bb : Bool} {q0 : State} (ring : Fin 64) (s : State) (hs : Keeps bb q0 s) : KeepsOut bb q0 (execCqDisable ring s) := by
  unfold execCqDisable
  (repeat' first
      | with_reducible assumption
      | with_reducible refine keepsOut_next ?_
      | with_reducible apply keeps_modCq
      | with_reducible refine keepsOut_ite (fun _ => ?_) (fun _ => ?_))

theorem keeps_execSqTail {bb : Bool} {q0 : State} (ring : Fin 64) (bell : Doorbell) (s : State) (hs : Keeps bb q0 s) : KeepsOut bb q0 (execSqTail ring bell s) := by
  unfold execSqTail
  (repeat' first
      | with_reducible assumption
      | with_reducible refine keepsOut_next ?_
      | with_reducible apply keeps_modSq
      | with_reducible apply keeps_modCp
      | with_reducible refine keepsOut_ite (fun _ => ?_) (fun _ => ?_))

theorem keeps_execCqHead {bb : Bool} {q0 : State} (ring : Fin 64) (value : Word) (s : State) (hs : Keeps bb q0 s) : KeepsOut bb q0 (execCqHead ring value s) := by
  unfold execCqHead
  (repeat' first
      | with_reducible assumption
      | with_reducible refine keepsOut_next ?_
      | with_reducible apply keeps_modCq
      | with_reducible refine keepsOut_ite (fun _ => ?_) (fun _ => ?_))

theorem keeps_execCommandFetch {bb : Bool} {q0 : State} (ring : Fin 64) (packet : Data1024) (s : State) (hs : Keeps bb q0 s) : KeepsOut bb q0 (execCommandFetch ring packet s) := by
  unfold execCommandFetch
  (repeat' first
      | extract_lets
      | with_reducible assumption
      | with_reducible refine keepsOut_next ?_
      | with_reducible apply keeps_modSq
      | with_reducible apply keeps_modCmd
      | split)

theorem keeps_execCompletionWrite {bb : Bool} {q0 : State} (ring : Fin 64) (s : State) (hs : Keeps bb q0 s) : KeepsOut bb q0 (execCompletionWrite ring s) := by
  unfold execCompletionWrite
  (repeat' first
      | (extract_lets +onlyGivenNames x; first
          | (with_reducible refine keeps_cut (bb := bb) (r := q0) x ?_ (fun hx => ?_); (on_goal 2 => clear_value x); (on_goal 1 => (unfold x; clear x)))
          | clear_value x
          )
      | with_reducible assumption
      | with_reducible refine keepsOut_next ?_
      | with_reducible apply keeps_emit
      | with_reducible apply keeps_modCq
      | with_reducible apply keeps_modCp
      | split)

theorem keeps_noteStart {bb : Bool} {q0 : State} (s : State) (serial : ℕ) (hs : Keeps bb q0 s) : Keeps bb q0 (State.noteStart s serial) := by
  unfold State.noteStart
  (repeat' first
      | (extract_lets +onlyGivenNames x; first
          | (with_reducible refine keeps_cut (bb := bb) (r := q0) x ?_ (fun hx => ?_); (on_goal 2 => clear_value x); (on_goal 1 => (unfold x; clear x)))
          )
      | with_reducible assumption
      | with_reducible apply keeps_modCp
      | split
      | (simp only [keeps_mk, kept_eta, State.modPwr]; with_reducible assumption))

theorem keeps_startOn {bb : Bool} {q0 : State} (s : State) (serial : ℕ) (a : Verdict) (hs : Keeps bb q0 s) : Keeps bb q0 (State.startOn s serial a) := by
  unfold State.startOn
  (repeat' first
      | with_reducible assumption
      | with_reducible apply keeps_complete
      | with_reducible apply keeps_modCmd
      | with_reducible apply keeps_noteStart
      | split)

theorem keeps_startCmd {bb : Bool} {q0 : State} (s : State) (k : Cmd) (hs : Keeps bb q0 s) : Keeps bb q0 (State.startCmd s k) := by
  unfold State.startCmd
  (repeat' first
      | with_reducible assumption
      | with_reducible apply keeps_startOn)

theorem keeps_execCommandStart {bb : Bool} {q0 : State} (ring : Fin 64) (s : State) (hs : Keeps bb q0 s) : KeepsOut bb q0 (execCommandStart ring s) := by
  unfold execCommandStart
  (repeat' first
      | with_reducible assumption
      | with_reducible refine keepsOut_next ?_
      | with_reducible apply keeps_modCmd
      | with_reducible apply keeps_startCmd
      | split)

theorem keeps_withCmd {bb : Bool} {q0 : State} (s : State) (serial : ℕ) (op : ℕ) (f : Cmd → State) (hs : Keeps bb q0 s) (hf : ∀ k, Keeps bb q0 (f k)) : KeepsOut bb q0 (State.withCmd s serial op f) := by
  unfold State.withCmd
  (repeat' first
      | with_reducible assumption
      | with_reducible refine keepsOut_next ?_
      | with_reducible apply hf
      | split)

theorem keeps_begin {bb : Bool} {q0 : State} (s : State) (serial : ℕ) (hs : Keeps bb q0 s) : Keeps bb q0 (State.begin s serial) := by
  unfold State.begin
  (repeat' first
      | with_reducible assumption
      | with_reducible apply keeps_modCmd)

theorem keeps_execNop {bb : Bool} {q0 : State} (cmd : ℕ) (s : State) (hs : Keeps bb q0 s) : KeepsOut bb q0 (execNop cmd s) := by
  unfold execNop
  (repeat' first
      | with_reducible assumption
      | with_reducible apply keeps_withCmd
      | with_reducible apply keeps_completeOk
      | with_reducible intro _)

end Sys2Proof.Machine
end

