-- ==== Sys2Proof/Laws/KeepsConfig.lean ====
section
/-! SUPPORT. What every operation and every command keeps: the queue, the time, the canonical form of the stacked memory,
the bounds of the two logs, the floor pace and the beat registers.  Configuration and the commands of the queues. -/

namespace Sys2Proof.Machine

theorem keeps_holdInit {bb : Bool} {q0 : State} (s : State) (r : Fin 16) (hs : Keeps bb q0 s) : Keeps bb q0 (State.holdInit s r) := by
  unfold State.holdInit
  (repeat' first
      | with_reducible assumption
      | with_reducible apply keeps_modRegion)

theorem keeps_frameChanged {bb : Bool} {q0 : State} (s : State) (far : Word) (hs : Keeps bb q0 s) : Keeps bb q0 (State.frameChanged s far) := by
  unfold State.frameChanged
  (repeat' first
      | with_reducible assumption
      | with_reducible apply keeps_holdInit
      | with_reducible refine keeps_ite (fun _ => ?_) (fun _ => ?_))

theorem keeps_putFrame {bb : Bool} {q0 : State} (s : State) (far : Word) (d : BitVec 4096) (hs : Keeps bb q0 s) : Keeps bb q0 (State.putFrame s far d) := by
  unfold State.putFrame
  (repeat' first
      | with_reducible assumption
      | with_reducible apply keeps_frameChanged
      | with_reducible apply keeps_modCfg)

theorem keeps_execCfgWrite {bb : Bool} {q0 : State} (far : Word) (seg : Fin 32) (data : BitVec 128) (s : State) (hs : Keeps bb q0 s) : KeepsOut bb q0 (execCfgWrite far seg data s) := by
  unfold execCfgWrite
  (repeat' first
      | with_reducible assumption
      | with_reducible refine keepsOut_next ?_
      | with_reducible apply keeps_frameChanged
      | with_reducible apply keeps_modCfg
      | with_reducible refine keepsOut_ite (fun _ => ?_) (fun _ => ?_))

theorem keeps_execCfgRead {bb : Bool} {q0 : State} (far : Word) (seg : Fin 32) (s : State) (hs : Keeps bb q0 s) : KeepsOut bb q0 (execCfgRead far seg s) := by
  unfold execCfgRead
  (repeat' first
      | with_reducible assumption
      | with_reducible refine keepsOut_next ?_
      | with_reducible apply keeps_modCfg
      | with_reducible refine keepsOut_ite (fun _ => ?_) (fun _ => ?_))

theorem keeps_modRegions {bb : Bool} {q0 : State} (s : State) (f : Fin 16 → Region → Region) (hs : Keeps bb q0 s) : Keeps bb q0 (State.modRegions s f) := by
  unfold State.modRegions
  (repeat' first
      | (simp only [keeps_mk, kept_eta]; with_reducible assumption))

theorem keeps_forwardedEvent {bb : Bool} {q0 : State} (s : State) (region : ℕ) (hs : Keeps bb q0 s) : Keeps bb q0 (State.forwardedEvent s region) := by
  unfold State.forwardedEvent
  (repeat' first
      | with_reducible assumption
      | with_reducible apply keeps_raise)

theorem keeps_endLoad {bb : Bool} {q0 : State} (s : State) (l : Load) (o : ℕ × ℕ × ℕ) (hs : Keeps bb q0 s) : Keeps bb q0 (State.endLoad s l o) := by
  unfold State.endLoad
  (repeat' first
      | with_reducible assumption
      | with_reducible apply keeps_modCfg
      | with_reducible apply keeps_complete
      | split)

theorem keeps_settle {bb : Bool} {q0 : State} (s : State) (l : Load) (status : ℕ) (check : ℕ) (off : ℕ) (hs : Keeps bb q0 s) : Keeps bb q0 (State.settle s l status check off) := by
  unfold State.settle
  (repeat' first
      | with_reducible assumption
      | with_reducible apply keeps_modRegions
      | with_reducible apply keeps_modCfg
      | with_reducible apply keeps_cfgEvent
      | with_reducible apply keeps_forwardedEvent
      | with_reducible apply keeps_endLoad
      | with_reducible refine keeps_ite (fun _ => ?_) (fun _ => ?_))

theorem keeps_sendCfg {bb : Bool} {q0 : State} (s : State) (pl : BitVec 1920) (hs : Keeps bb q0 s) : Keeps bb q0 (State.sendCfg s pl) := by
  unfold State.sendCfg
  (repeat' first
      | with_reducible assumption
      | with_reducible apply keeps_sendOn
      | with_reducible refine keeps_foldl _ (fun _ _ _ => ?_) _ _ ?_
      | with_reducible refine keeps_ite (fun _ => ?_) (fun _ => ?_))

theorem keeps_sendChunks {bb : Bool} {q0 : State} (s : State) (l : Load) (last : Bool) (a : ℕ) (hs : Keeps bb q0 s) : Keeps bb q0 (State.sendChunks s l last a).1 := by
  induction a generalizing s l with
  | zero => unfold State.sendChunks; (repeat' first
      | assumption)
  | succ n ih => unfold State.sendChunks; (repeat' first
      | with_reducible assumption
      | with_reducible apply ih
      | with_reducible apply keeps_sendCfg
      | split)

theorem keeps_takeBytes {bb : Bool} {q0 : State} (s : State) (l : Load) (b : List Byte) (hs : Keeps bb q0 s) : Keeps bb q0 (State.takeBytes s l b).1 := by
  unfold State.takeBytes
  (repeat' first
      | with_reducible assumption
      | with_reducible apply keeps_sendChunks
      | split
      | (simp only))

theorem keeps_passPoint {bb : Bool} {q0 : State} (s : State) (l : Load) (hs : Keeps bb q0 s) : Keeps bb q0 (State.passPoint s l) := by
  unfold State.passPoint
  (repeat' first
      | with_reducible assumption
      | with_reducible apply keeps_modRegions
      | with_reducible apply keeps_modCfg
      | with_reducible apply keeps_holdInit
      | with_reducible refine keeps_foldl _ (fun _ _ _ => ?_) _ _ ?_)

theorem keeps_beginLoad {bb : Bool} {q0 : State} (s : State) (l0 : Load) (h : List Byte) (hs : Keeps bb q0 s) : Keeps bb q0 (State.beginLoad s l0 h) := by
  unfold State.beginLoad
  (repeat' first
      | (extract_lets +onlyGivenNames x; first
          | (with_reducible refine keeps_cut1 (bb := bb) (r := q0) x ?_ (fun hx => ?_); (on_goal 2 => clear_value x); (on_goal 1 => (unfold x; clear x)))
          | clear_value x
          )
      | with_reducible assumption
      | with_reducible apply keeps_takeBytes
      | with_reducible apply keeps_settle
      | with_reducible apply keeps_passPoint
      | split)

theorem keeps_loadRecord {bb : Bool} {q0 : State} (s : State) (l : Load) (b : List Byte) (hs : Keeps bb q0 s) : Keeps bb q0 (State.loadRecord s l b) := by
  unfold State.loadRecord
  (repeat' first
      | with_reducible assumption
      | with_reducible apply keeps_settle
      | with_reducible apply keeps_modCfg
      | with_reducible apply keeps_putFrame
      | with_reducible refine keeps_ite (fun _ => ?_) (fun _ => ?_))

theorem keeps_commitLoad {bb : Bool} {q0 : State} (s : State) (l : Load) (hs : Keeps bb q0 s) : Keeps bb q0 (State.commitLoad s l) := by
  unfold State.commitLoad
  (repeat' first
      | (extract_lets +onlyGivenNames x; first
          | (with_reducible refine keeps_cut (bb := bb) (r := q0) x ?_ (fun hx => ?_); (on_goal 2 => clear_value x); (on_goal 1 => (unfold x; clear x)))
          )
      | with_reducible assumption
      | with_reducible apply keeps_modCfg
      | with_reducible apply keeps_modRegions
      | with_reducible apply keeps_modRegion
      | with_reducible apply keeps_settle
      | split
      | (simp only [keeps_mk, kept_eta]; with_reducible assumption))

theorem keeps_loadTrailer {bb : Bool} {q0 : State} (s : State) (l : Load) (b : List Byte) (hs : Keeps bb q0 s) : Keeps bb q0 (State.loadTrailer s l b) := by
  unfold State.loadTrailer
  (repeat' first
      | with_reducible assumption
      | with_reducible apply keeps_settle
      | with_reducible apply keeps_commitLoad
      | with_reducible refine keeps_ite (fun _ => ?_) (fun _ => ?_))

theorem keeps_eatRecords {bb : Bool} {q0 : State} (s : State) (a : ℕ) (hs : Keeps bb q0 s) : Keeps bb q0 (State.eatRecords s a) := by
  induction a generalizing s with
  | zero => unfold State.eatRecords; (repeat' first
      | assumption)
  | succ n ih => unfold State.eatRecords; (repeat' first
      | with_reducible assumption
      | with_reducible apply ih
      | with_reducible apply keeps_loadRecord
      | with_reducible apply keeps_modCfg
      | split)

theorem keeps_cmdLoad {bb : Bool} {q0 : State} (s : State) (k : Cmd) (full : Bool) (hs : Keeps bb q0 s) : Keeps bb q0 (State.cmdLoad s k full).1 := by
  unfold State.cmdLoad
  (repeat' first
      | (extract_lets +onlyGivenNames x; first
          | (with_reducible refine keeps_cut2 (bb := bb) (r := q0) x ?_ (fun hx => ?_); (on_goal 2 => clear_value x); (on_goal 1 => (unfold x; clear x)))
          | clear_value x
          )
      | with_reducible assumption
      | with_reducible apply keeps_draw
      | split)

theorem keeps_execLoadLogic {bb : Bool} {q0 : State} (cmd : ℕ) (front : List Byte) (s : State) (hs : Keeps bb q0 s) : KeepsOut bb q0 (execLoadLogic cmd front s) := by
  unfold execLoadLogic
  (repeat' first
      | with_reducible assumption
      | with_reducible apply keeps_withCmd
      | with_reducible apply keeps_badParam
      | with_reducible apply keeps_cmdLoad
      | with_reducible apply keeps_begin
      | with_reducible apply keeps_beginLoad
      | with_reducible refine keeps_ite (fun _ => ?_) (fun _ => ?_)
      | with_reducible intro _)

theorem keeps_execLoadRegion {bb : Bool} {q0 : State} (cmd : ℕ) (front : List Byte) (s : State) (hs : Keeps bb q0 s) : KeepsOut bb q0 (execLoadRegion cmd front s) := by
  unfold execLoadRegion
  (repeat' first
      | with_reducible assumption
      | with_reducible apply keeps_withCmd
      | with_reducible apply keeps_badParam
      | with_reducible apply keeps_cmdLoad
      | with_reducible apply keeps_begin
      | with_reducible apply keeps_beginLoad
      | with_reducible refine keeps_ite (fun _ => ?_) (fun _ => ?_)
      | with_reducible intro _)

theorem keeps_execFrameRecord {bb : Bool} {q0 : State} (record : List Byte) (s : State) (hs : Keeps bb q0 s) : KeepsOut bb q0 (execFrameRecord record s) := by
  unfold execFrameRecord
  (repeat' first
      | extract_lets
      | with_reducible assumption
      | with_reducible refine keepsOut_next ?_
      | with_reducible apply keeps_eatRecords
      | with_reducible apply keeps_takeBytes
      | with_reducible apply keeps_modCfg
      | with_reducible apply keeps_endLoad
      | with_reducible apply keeps_settle
      | with_reducible apply keeps_loadRecord
      | split)

theorem keeps_execLoadCommit {bb : Bool} {q0 : State} (trailer : List Byte) (s : State) (hs : Keeps bb q0 s) : KeepsOut bb q0 (execLoadCommit trailer s) := by
  unfold execLoadCommit
  (repeat' first
      | with_reducible assumption
      | with_reducible refine keepsOut_next ?_
      | with_reducible apply keeps_loadTrailer
      | with_reducible apply keeps_takeBytes
      | split)

theorem keeps_cutStream {bb : Bool} {q0 : State} (s : State) (hs : Keeps bb q0 s) : Keeps bb q0 (State.cutStream s) := by
  unfold State.cutStream
  (repeat' first
      | with_reducible assumption
      | with_reducible apply keeps_settle
      | split)

theorem keeps_refuseStream {bb : Bool} {q0 : State} (s : State) (region : ℕ) (hs : Keeps bb q0 s) : Keeps bb q0 (State.refuseStream s region) := by
  unfold State.refuseStream
  (repeat' first
      | with_reducible assumption
      | with_reducible apply keeps_modCfg
      | with_reducible apply keeps_forwardedEvent
      | with_reducible apply keeps_cfgEvent)

theorem keeps_openStream {bb : Bool} {q0 : State} (s : State) (hs : Keeps bb q0 s) : Keeps bb q0 (State.openStream s) := by
  unfold State.openStream
  (repeat' first
      | (extract_lets +onlyGivenNames x; first
          | clear_value x
          )
      | with_reducible assumption
      | with_reducible apply keeps_refuseStream
      | with_reducible apply keeps_settle
      | with_reducible apply keeps_beginLoad
      | with_reducible apply keeps_modCfg
      | split)

theorem keeps_lastBytes {bb : Bool} {q0 : State} (s : State) (hs : Keeps bb q0 s) : Keeps bb q0 (State.lastBytes s) := by
  unfold State.lastBytes
  (repeat' first
      | extract_lets
      | with_reducible assumption
      | with_reducible apply keeps_eatRecords
      | with_reducible apply keeps_loadTrailer
      | with_reducible apply keeps_cutStream
      | split)

theorem keeps_streamBytes {bb : Bool} {q0 : State} (s : State) (b : List Byte) (last : Bool) (hs : Keeps bb q0 s) : Keeps bb q0 (State.streamBytes s b last) := by
  unfold State.streamBytes
  (repeat' first
      | with_reducible assumption
      | with_reducible apply keeps_modCfg
      | with_reducible apply keeps_openStream
      | with_reducible apply keeps_lastBytes
      | with_reducible refine keeps_ite (fun _ => ?_) (fun _ => ?_))

theorem keeps_streamPacket {bb : Bool} {q0 : State} (s : State) (pl : BitVec 1920) (hs : Keeps bb q0 s) : Keeps bb q0 (State.streamPacket s pl) := by
  unfold State.streamPacket
  (repeat' first
      | with_reducible assumption
      | with_reducible apply keeps_streamBytes
      | with_reducible apply keeps_cutStream
      | with_reducible refine keeps_ite (fun _ => ?_) (fun _ => ?_))

theorem keeps_acceptCfg {bb : Bool} {q0 : State} (s : State) (pl : BitVec 1920) (hs : Keeps bb q0 s) : Keeps bb q0 (State.acceptCfg s pl) := by
  unfold State.acceptCfg
  (repeat' first
      | with_reducible assumption
      | with_reducible apply keeps_sendCfg
      | with_reducible apply keeps_settle
      | with_reducible apply keeps_cutStream
      | with_reducible apply keeps_refuseStream
      | with_reducible apply keeps_streamPacket
      | with_reducible apply keeps_modCfg
      | with_reducible refine keeps_ite (fun _ => ?_) (fun _ => ?_))

theorem keeps_execMgmtCfg {bb : Bool} {q0 : State} (s : State) (hs : Keeps bb q0 s) : KeepsOut bb q0 (execMgmtCfg s) := by
  unfold execMgmtCfg
  (repeat' first
      | (extract_lets +onlyGivenNames x; first
          | (with_reducible refine keeps_cut (bb := bb) (r := q0) x ?_ (fun hx => ?_); (on_goal 2 => clear_value x); (on_goal 1 => (unfold x; clear x)))
          | clear_value x
          )
      | with_reducible assumption
      | with_reducible refine keepsOut_next ?_
      | with_reducible apply keeps_tookFlit
      | with_reducible apply keeps_acceptCfg
      | with_reducible apply keeps_modCfg
      | split)

theorem keeps_execCfgStreamTimeout {bb : Bool} {q0 : State} (s : State) (hs : Keeps bb q0 s) : KeepsOut bb q0 (execCfgStreamTimeout s) := by
  unfold execCfgStreamTimeout
  (repeat' first
      | with_reducible assumption
      | with_reducible refine keepsOut_next ?_
      | with_reducible apply keeps_modCfg
      | with_reducible apply keeps_cutStream
      | with_reducible refine keepsOut_ite (fun _ => ?_) (fun _ => ?_))

theorem keeps_abortLoad {bb : Bool} {q0 : State} (s : State) (l : Load) (hs : Keeps bb q0 s) : Keeps bb q0 (State.abortLoad s l) := by
  unfold State.abortLoad
  (repeat' first
      | with_reducible assumption
      | with_reducible apply keeps_modRegion
      | with_reducible apply keeps_modCfg
      | with_reducible apply keeps_sendCfg
      | with_reducible refine keeps_ite (fun _ => ?_) (fun _ => ?_))

theorem keeps_cover {bb : Bool} {q0 : State} (s : State) (k : ℕ) (hs : Keeps bb q0 s) : Keeps bb q0 (State.cover s k) := by
  unfold State.cover
  (repeat' first
      | with_reducible assumption
      | with_reducible apply keeps_modCfg)

theorem keeps_noteSbe {bb : Bool} {q0 : State} (s : State) (far : Word) (hs : Keeps bb q0 s) : Keeps bb q0 (State.noteSbe s far) := by
  unfold State.noteSbe
  (repeat' first
      | with_reducible assumption
      | with_reducible apply keeps_modCfg
      | with_reducible apply keeps_cfgEvent)

theorem keeps_countDed {bb : Bool} {q0 : State} (s : State) (far : Word) (hs : Keeps bb q0 s) : Keeps bb q0 (State.countDed s far) := by
  unfold State.countDed
  (repeat' first
      | with_reducible assumption
      | with_reducible apply keeps_modCfg
      | with_reducible apply keeps_cfgEvent)

theorem keeps_noteDed {bb : Bool} {q0 : State} (s : State) (far : Word) (hs : Keeps bb q0 s) : Keeps bb q0 (State.noteDed s far) := by
  unfold State.noteDed
  (repeat' first
      | with_reducible assumption
      | with_reducible apply keeps_countDed
      | with_reducible apply keeps_modRegions
      | with_reducible refine keeps_ite (fun _ => ?_) (fun _ => ?_))

theorem keeps_noteRefDed {bb : Bool} {q0 : State} (s : State) (far : Word) (hs : Keeps bb q0 s) : Keeps bb q0 (State.noteRefDed s far) := by
  unfold State.noteRefDed
  (repeat' first
      | with_reducible assumption
      | with_reducible apply keeps_cfgEvent
      | with_reducible apply keeps_modCfg
      | with_reducible apply keeps_countDed)

theorem keeps_scrubFrame {bb : Bool} {q0 : State} (s : State) (far : Word) (flip : List (Fin 4110)) (hs : Keeps bb q0 s) : Keeps bb q0 (State.scrubFrame s far flip).1 := by
  unfold State.scrubFrame
  (repeat' first
      | with_reducible assumption
      | with_reducible apply keeps_modCfg)

theorem keeps_noteScrub {bb : Bool} {q0 : State} (s : State) (far : Word) (outcome : ℕ) (hs : Keeps bb q0 s) : Keeps bb q0 (State.noteScrub s far outcome) := by
  unfold State.noteScrub
  (repeat' first
      | with_reducible assumption
      | with_reducible apply keeps_noteSbe
      | with_reducible apply keeps_noteDed
      | with_reducible refine keeps_ite (fun _ => ?_) (fun _ => ?_))

theorem keeps_scrubRef {bb : Bool} {q0 : State} (s : State) (far : Word) (d : BitVec 4096) (flip : List (Fin 4110)) (hs : Keeps bb q0 s) : Keeps bb q0 (State.scrubRef s far d flip) := by
  unfold State.scrubRef
  (repeat' first
      | with_reducible assumption
      | with_reducible apply keeps_modCfg
      | with_reducible apply keeps_noteSbe
      | with_reducible apply keeps_noteRefDed
      | with_reducible refine keeps_ite (fun _ => ?_) (fun _ => ?_))

theorem keeps_execCfgScrub {bb : Bool} {q0 : State} (far : Word) (inRef : Bool) (flip : List (Fin 4110)) (s : State) (hs : Keeps bb q0 s) : KeepsOut bb q0 (execCfgScrub far inRef flip s) := by
  unfold execCfgScrub
  (repeat' first
      | with_reducible assumption
      | with_reducible refine keepsOut_next ?_
      | with_reducible apply keeps_scrubRef
      | with_reducible apply keeps_cover
      | with_reducible apply keeps_scrubFrame
      | with_reducible apply keeps_noteScrub
      | split)

theorem keeps_execFumaroleSweep {bb : Bool} {q0 : State} (s : State) (hs : Keeps bb q0 s) : KeepsOut bb q0 (execFumaroleSweep s) := by
  unfold execFumaroleSweep
  (repeat' first
      | with_reducible assumption
      | with_reducible refine keepsOut_next ?_
      | with_reducible apply keeps_modCfg
      | with_reducible refine keepsOut_ite (fun _ => ?_) (fun _ => ?_))

theorem keeps_putClean {bb : Bool} {q0 : State} (s : State) (a : HardRef) (hs : Keeps bb q0 s) : Keeps bb q0 (State.putClean s a) := by
  unfold State.putClean
  (repeat' first
      | with_reducible assumption
      | with_reducible apply keeps_modCal
      | with_reducible apply keeps_modCfg
      | split)

theorem keeps_upset {bb : Bool} {q0 : State} (s : State) (b : HardRef) (i : ℕ) (hs : Keeps bb q0 s) : Keeps bb q0 (State.upset s b i) := by
  unfold State.upset
  (repeat' first
      | (extract_lets +onlyGivenNames x; first
          | clear_value x
          )
      | with_reducible assumption
      | with_reducible apply keeps_modCal
      | with_reducible apply keeps_putConduit
      | split)

theorem keeps_reload {bb : Bool} {q0 : State} (s : State) (b : HardRef) (hs : Keeps bb q0 s) : Keeps bb q0 (State.reload s b) := by
  unfold State.reload
  (repeat' first
      | with_reducible assumption
      | with_reducible apply keeps_modCal
      | with_reducible apply keeps_putConduit
      | with_reducible refine keeps_foldl _ (fun _ _ _ => ?_) _ _ ?_
      | split)

theorem keeps_noteReload {bb : Bool} {q0 : State} (s : State) (b : HardRef) (hs : Keeps bb q0 s) : Keeps bb q0 (State.noteReload s b) := by
  unfold State.noteReload
  (repeat' first
      | with_reducible assumption
      | with_reducible apply keeps_modCfg
      | with_reducible apply keeps_cfgEvent)

theorem keeps_execHardenedBlockCheck {bb : Bool} {q0 : State} (block : HardRef) (flip : List ℕ) (s : State) (hs : Keeps bb q0 s) : KeepsOut bb q0 (execHardenedBlockCheck block flip s) := by
  unfold execHardenedBlockCheck
  (repeat' first
      | extract_lets
      | with_reducible assumption
      | with_reducible refine keepsOut_next ?_
      | with_reducible apply keeps_cover
      | with_reducible apply keeps_upset
      | with_reducible apply keeps_putClean
      | with_reducible apply keeps_noteReload
      | with_reducible apply keeps_reload
      | with_reducible refine keeps_foldl _ (fun _ _ _ => ?_) _ _ ?_
      | split)

theorem keeps_takeFrames {bb : Bool} {q0 : State} (s : State) (a : ℕ) (a3 : List (Fin 8 × ℕ)) (hs : Keeps bb q0 s) : Keeps bb q0 (takeFrames s a a3).1 := by
  induction a generalizing s a3 with
  | zero => unfold takeFrames; (repeat' first
      | assumption)
  | succ n ih => unfold takeFrames; (repeat' first
      | (extract_lets +onlyGivenNames x; first
          | (with_reducible refine keeps_cut1 (bb := bb) (r := q0) x ?_ (fun hx => ?_); (on_goal 2 => clear_value x); (on_goal 1 => (unfold x; clear x)))
          | (with_reducible refine keeps_cut2 (bb := bb) (r := q0) x ?_ (fun hx => ?_); (on_goal 2 => clear_value x); (on_goal 1 => (unfold x; clear x)))
          | clear_value x
          )
      | with_reducible assumption
      | with_reducible apply keeps_draw
      | with_reducible apply ih
      | split)

theorem keeps_reserveArea {bb : Bool} {q0 : State} (s : State) (p : Part) (hs : Keeps bb q0 s) : ∀ t, State.reserveArea s p = some t → Keeps bb q0 t.1 := by
  intro t ht
  unfold State.reserveArea at ht
  revert ht
  repeat' first | split | (intro ht; first | (cases ht; done) | (injection ht with ht; subst ht)) | extract_lets x
  all_goals (repeat' first
      | with_reducible assumption
      | with_reducible apply keeps_takeFrames)

theorem keeps_putCtx {bb : Bool} {q0 : State} (s : State) (c : Byte) (x : Ctx) (hs : Keeps bb q0 s) : Keeps bb q0 (State.putCtx s c x) := by
  unfold State.putCtx
  (repeat' first
      | with_reducible assumption
      | with_reducible apply keeps_modSec)

theorem keeps_execCtxCreate {bb : Bool} {q0 : State} (cmd : ℕ) (s : State) (hs : Keeps bb q0 s) : KeepsOut bb q0 (execCtxCreate cmd s) := by
  unfold execCtxCreate
  refine keeps_withCmd _ _ _ _ hs (fun k => ?_)
  extract_lets p conf part
  refine keeps_ite (fun _ => hs) (fun _ => ?_)
  refine keeps_ite (fun _ => keeps_badParam _ _ _ _ hs) (fun _ => ?_)
  have hk : ∀ t, (if s.cp.ember = true then some (s, []) else s.reserveArea part) = some t → Keeps bb q0 t.1 := by
    intro t ht
    split at ht
    · cases ht; exact hs
    · exact keeps_reserveArea _ _ hs _ ht
  generalize (if s.cp.ember = true then some (s, []) else s.reserveArea part) = o at hk
  rcases o with _ | ⟨s1, area⟩
  · exact keeps_badParam _ _ _ _ hs
  · have h1 : Keeps bb q0 s1 := hk _ rfl
    dsimp only
    refine keeps_completeOk _ _ (keeps_putCtx _ _ _ ?_)
    split
    · exact keeps_draw _ h1
    · exact h1

theorem keeps_execMapPages {bb : Bool} {q0 : State} (cmd : ℕ) (list : List DWord) (s : State) (hs : Keeps bb q0 s) : KeepsOut bb q0 (execMapPages cmd list s) := by
  unfold execMapPages
  (repeat' first
      | extract_lets
      | with_reducible assumption
      | with_reducible apply keeps_withCmd
      | with_reducible apply keeps_badData
      | with_reducible apply keeps_completeOk
      | with_reducible intro _
      | split
      | (simp only [keeps_mk, kept_eta]; with_reducible assumption))

theorem keeps_execUnmapPages {bb : Bool} {q0 : State} (cmd : ℕ) (s : State) (hs : Keeps bb q0 s) : KeepsOut bb q0 (execUnmapPages cmd s) := by
  unfold execUnmapPages
  (repeat' first
      | (extract_lets +onlyGivenNames x; first
          | (with_reducible refine keeps_cut (bb := bb) (r := q0) x ?_ (fun hx => ?_); (on_goal 2 => clear_value x); (on_goal 1 => (unfold x; clear x)))
          | clear_value x
          )
      | with_reducible assumption
      | with_reducible apply keeps_withCmd
      | with_reducible apply keeps_modCmd
      | with_reducible intro _
      | (simp only [keeps_mk, kept_eta]; with_reducible assumption))

theorem keeps_execUnmapDrainDone {bb : Bool} {q0 : State} (cmd : ℕ) (s : State) (hs : Keeps bb q0 s) : KeepsOut bb q0 (execUnmapDrainDone cmd s) := by
  unfold execUnmapDrainDone
  (repeat' first
      | with_reducible assumption
      | with_reducible refine keepsOut_next ?_
      | with_reducible apply keeps_completeOk
      | with_reducible apply keeps_zeroFrame
      | with_reducible refine keeps_foldl _ (fun _ _ _ => ?_) _ _ ?_
      | split)

theorem keeps_wakeCals {bb : Bool} {q0 : State} (s : State) (cals : DWord) (hs : Keeps bb q0 s) : Keeps bb q0 (State.wakeCals s cals) := by
  unfold State.wakeCals
  (repeat' first
      | (simp only [keeps_mk, kept_eta]; with_reducible assumption))

theorem keeps_install {bb : Bool} {q0 : State} (s : State) (p : Plan) (img : List Byte) (hs : Keeps bb q0 s) : Keeps bb q0 (State.install s p img) := by
  unfold State.install
  (repeat' first
      | (extract_lets +onlyGivenNames x; first
          | (with_reducible refine keeps_cut (bb := bb) (r := q0) x ?_ (fun hx => ?_); (on_goal 2 => clear_value x); (on_goal 1 => (unfold x; clear x)))
          | clear_value x
          )
      | with_reducible assumption
      | with_reducible apply keeps_saveCal
      | with_reducible apply keeps_setupConduits
      | with_reducible apply keeps_modCals
      | with_reducible refine keeps_foldl _ (fun _ _ _ => ?_) _ _ ?_
      | with_reducible refine keeps_ite (fun _ => ?_) (fun _ => ?_)
      | (simp only [keeps_mk, kept_eta]; with_reducible assumption))

theorem keeps_execLoadPlan {bb : Bool} {q0 : State} (cmd : ℕ) (image : List Byte) (s : State) (hs : Keeps bb q0 s) : KeepsOut bb q0 (execLoadPlan cmd image s) := by
  unfold execLoadPlan
  (repeat' first
      | extract_lets
      | with_reducible assumption
      | with_reducible apply keeps_withCmd
      | with_reducible apply keeps_badParam
      | with_reducible apply keeps_badData
      | with_reducible apply keeps_complete
      | with_reducible apply keeps_install
      | with_reducible apply keeps_wakeCals
      | with_reducible intro _
      | split)

theorem keeps_preempt {bb : Bool} {q0 : State} (s : State) (ctx : Byte) (cals : DWord) (hs : Keeps bb q0 s) : Keeps bb q0 (State.preempt s ctx cals) := by
  unfold State.preempt
  (repeat' first
      | with_reducible assumption
      | with_reducible apply keeps_planStop
      | with_reducible apply keeps_modPlan
      | with_reducible refine keeps_foldl _ (fun _ _ _ => ?_) _ _ ?_
      | with_reducible refine keeps_ite (fun _ => ?_) (fun _ => ?_))

theorem keeps_beginRun {bb : Bool} {q0 : State} (s : State) (k : Cmd) (p : Plan) (start : DWord) (hs : Keeps bb q0 s) : Keeps bb q0 (State.beginRun s k p start) := by
  unfold State.beginRun
  (repeat' first
      | with_reducible assumption
      | with_reducible apply keeps_begin
      | with_reducible apply keeps_startRun
      | with_reducible apply keeps_preempt
      | with_reducible refine keeps_ite (fun _ => ?_) (fun _ => ?_))

theorem keeps_runInline {bb : Bool} {q0 : State} (s : State) (k : Cmd) (image : List Byte) (start : DWord) (hs : Keeps bb q0 s) : Keeps bb q0 (State.runInline s k image start) := by
  unfold State.runInline
  (repeat' first
      | extract_lets
      | with_reducible assumption
      | with_reducible apply keeps_badData
      | with_reducible apply keeps_beginRun
      | with_reducible apply keeps_install
      | with_reducible apply keeps_wakeCals
      | split)

theorem keeps_execRunPlan {bb : Bool} {q0 : State} (cmd : ℕ) (image : List Byte) (s : State) (hs : Keeps bb q0 s) : KeepsOut bb q0 (execRunPlan cmd image s) := by
  unfold execRunPlan
  (repeat' first
      | extract_lets
      | with_reducible assumption
      | with_reducible apply keeps_withCmd
      | with_reducible apply keeps_badParam
      | with_reducible apply keeps_runInline
      | with_reducible apply keeps_beginRun
      | with_reducible intro _
      | split)

theorem keeps_execCopy {bb : Bool} {q0 : State} (cmd : ℕ) (s : State) (hs : Keeps bb q0 s) : KeepsOut bb q0 (execCopy cmd s) := by
  unfold execCopy
  (repeat' first
      | (extract_lets +onlyGivenNames x; first
          | (with_reducible refine keeps_cut (bb := bb) (r := q0) x ?_ (fun hx => ?_); (on_goal 2 => clear_value x); (on_goal 1 => (unfold x; clear x)))
          | clear_value x
          )
      | with_reducible assumption
      | with_reducible apply keeps_withCmd
      | with_reducible apply keeps_badParam
      | with_reducible apply keeps_submit
      | with_reducible apply keeps_begin
      | with_reducible intro _
      | split)

theorem keeps_execResume {bb : Bool} {q0 : State} (cmd : ℕ) (s : State) (hs : Keeps bb q0 s) : KeepsOut bb q0 (execResume cmd s) := by
  unfold execResume
  (repeat' first
      | (extract_lets +onlyGivenNames x; first
          | (with_reducible refine keeps_cut (bb := bb) (r := q0) x ?_ (fun hx => ?_); (on_goal 2 => clear_value x); (on_goal 1 => (unfold x; clear x)))
          | clear_value x
          )
      | with_reducible assumption
      | with_reducible apply keeps_withCmd
      | with_reducible apply keeps_complete
      | with_reducible apply keeps_badParam
      | with_reducible apply keeps_begin
      | with_reducible apply keeps_resumeRun
      | with_reducible apply keeps_modStm
      | with_reducible intro _
      | split)

theorem keeps_abortRun {bb : Bool} {q0 : State} (s : State) (p : Plan) (serial : ℕ) (hs : Keeps bb q0 s) : Keeps bb q0 (State.abortRun s p serial).1 := by
  unfold State.abortRun
  (repeat' first
      | with_reducible assumption
      | with_reducible apply keeps_abortPlan
      | with_reducible apply keeps_endWork
      | with_reducible apply keeps_complete)

theorem keeps_abortPlain {bb : Bool} {q0 : State} (s : State) (serial : ℕ) (detail : Word) (hs : Keeps bb q0 s) : Keeps bb q0 (State.abortPlain s serial detail).1 := by
  unfold State.abortPlain
  (repeat' first
      | with_reducible assumption
      | with_reducible apply keeps_complete)

theorem keeps_abortUnbegun {bb : Bool} {q0 : State} (s : State) (k : Cmd) (hs : Keeps bb q0 s) : Keeps bb q0 (State.abortUnbegun s k).1 := by
  unfold State.abortUnbegun
  (repeat' first
      | (extract_lets +onlyGivenNames x; first
          | clear_value x
          )
      | with_reducible assumption
      | with_reducible apply keeps_abortPlain
      | split)

theorem keeps_abortSlot {bb : Bool} {q0 : State} (s : State) (i : Fin 32) (hs : Keeps bb q0 s) : Keeps bb q0 (State.abortSlot s i) := by
  unfold State.abortSlot
  (repeat' first
      | (extract_lets +onlyGivenNames x; first
          | (with_reducible refine keeps_cut (bb := bb) (r := q0) x ?_ (fun hx => ?_); (on_goal 2 => clear_value x); (on_goal 1 => (unfold x; clear x)))
          | clear_value x
          )
      | with_reducible assumption
      | with_reducible apply keeps_modStm
      | with_reducible apply keeps_complete
      | split)

theorem keeps_abortStarted {bb : Bool} {q0 : State} (s : State) (k : Cmd) (hs : Keeps bb q0 s) : Keeps bb q0 (State.abortStarted s k).1 := by
  unfold State.abortStarted
  (repeat' first
      | (extract_lets +onlyGivenNames x; first
          | clear_value x
          )
      | with_reducible assumption
      | with_reducible apply keeps_abortRun
      | with_reducible apply keeps_complete
      | with_reducible apply keeps_modStm
      | with_reducible apply keeps_abortSlot
      | with_reducible apply keeps_endWork
      | with_reducible apply keeps_abortLoad
      | with_reducible apply keeps_abortPlain
      | with_reducible apply keeps_abortUnbegun
      | split)

theorem keeps_abortSuspended {bb : Bool} {q0 : State} (s : State) (w : ℕ) (hs : Keeps bb q0 s) : ∀ t, State.abortSuspended s w = some t → Keeps bb q0 t.1 := by
  intro t ht
  unfold State.abortSuspended at ht
  revert ht
  repeat' first | split | (intro ht; first | (cases ht; done) | (injection ht with ht; subst ht)) | extract_lets x
  all_goals (repeat' first
      | with_reducible assumption
      | with_reducible apply keeps_abortPlan
      | with_reducible apply keeps_freeTag
      | with_reducible apply keeps_abortSlot)

theorem keeps_abortCmd {bb : Bool} {q0 : State} (s : State) (k : Cmd) (hs : Keeps bb q0 s) : Keeps bb q0 (State.abortCmd s k).1 := by
  unfold State.abortCmd
  (repeat' first
      | with_reducible assumption
      | with_reducible apply keeps_abortPlain
      | with_reducible apply keeps_abortStarted
      | (with_reducible refine keeps_optGet2 (by assumption) ?_; with_reducible refine keeps_abortSuspended _ _ ?_)
      | split)

theorem keeps_abortByPlan {bb : Bool} {q0 : State} (s : State) (ctx : Byte) (h : PlanId) (hs : Keeps bb q0 s) : Keeps bb q0 (State.abortByPlan s ctx h).1 := by
  unfold State.abortByPlan
  (repeat' first
      | with_reducible assumption
      | with_reducible apply keeps_abortRun
      | with_reducible apply keeps_freeTag
      | with_reducible apply keeps_abortPlan
      | split)

theorem keeps_abortByTag {bb : Bool} {q0 : State} (s : State) (k : Cmd) (tag : Word) (hs : Keeps bb q0 s) : ∀ t, State.abortByTag s k tag = some t → Keeps bb q0 t.1 := by
  intro t ht
  unfold State.abortByTag at ht
  revert ht
  repeat' first | split | (intro ht; first | (cases ht; done) | (injection ht with ht; subst ht)) | extract_lets x
  all_goals (repeat' first
      | with_reducible assumption
      | with_reducible apply keeps_abortCmd)

theorem keeps_completesAfter {bb : Bool} {q0 : State} (s : State) (serial : ℕ) (target : Option ℕ) (hs : Keeps bb q0 s) : Keeps bb q0 (State.completesAfter s serial target) := by
  unfold State.completesAfter
  (repeat' first
      | with_reducible assumption
      | with_reducible apply keeps_modCp)

theorem keeps_abortNamed {bb : Bool} {q0 : State} (s : State) (k : Cmd) (hs : Keeps bb q0 s) : ∀ t, State.abortNamed s k = some t → Keeps bb q0 t.1 := by
  intro t ht
  unfold State.abortNamed at ht
  split at ht
  · cases ht; exact keeps_abortByPlan _ _ _ hs
  · exact keeps_abortByTag _ _ _ hs _ ht

theorem keeps_abortGo {bb : Bool} {q0 : State} (s : State) (k : Cmd) (a : Option (State × AbortEnd)) (hs : Keeps bb q0 s) (ho : ∀ t, a = some t → Keeps bb q0 t.1) : Keeps bb q0 (State.abortGo s k a) := by
  unfold State.abortGo
  split
  · exact keeps_badParam _ _ _ _ hs
  · exact keeps_completesAfter _ _ _ (keeps_complete _ _ _ _ _ _ (ho _ rfl))

theorem keeps_abortOn {bb : Bool} {q0 : State} (s : State) (k : Cmd) (a : Verdict) (hs : Keeps bb q0 s) : Keeps bb q0 (State.abortOn s k a) := by
  unfold State.abortOn
  split
  · exact keeps_complete _ _ _ _ _ _ hs
  · exact keeps_abortGo _ _ _ hs (keeps_abortNamed _ _ hs)

theorem keeps_execAbort {bb : Bool} {q0 : State} (cmd : ℕ) (s : State) (hs : Keeps bb q0 s) : KeepsOut bb q0 (execAbort cmd s) := by
  unfold execAbort
  (repeat' first
      | with_reducible assumption
      | with_reducible refine keepsOut_next ?_
      | with_reducible apply keeps_abortOn
      | split)

theorem keeps_abortAll {bb : Bool} {q0 : State} (s : State) (ctxs : List Byte) (except : Option ℕ) (hs : Keeps bb q0 s) : Keeps bb q0 (State.abortAll s ctxs except) := by
  unfold State.abortAll
  (repeat' first
      | with_reducible assumption
      | with_reducible apply keeps_abortCmd
      | with_reducible refine keeps_foldl _ (fun _ _ _ => ?_) _ _ ?_
      | split)

theorem keeps_beginScrub {bb : Bool} {q0 : State} (s : State) (ctxs : List Byte) (part : Option (Fin 8)) (cmd : Option ℕ) (hs : Keeps bb q0 s) : Keeps bb q0 (State.beginScrub s ctxs part cmd) := by
  unfold State.beginScrub
  (repeat' first
      | with_reducible assumption
      | with_reducible apply keeps_modSec
      | with_reducible apply keeps_abortAll)

theorem keeps_execCtxDestroy {bb : Bool} {q0 : State} (cmd : ℕ) (s : State) (hs : Keeps bb q0 s) : KeepsOut bb q0 (execCtxDestroy cmd s) := by
  unfold execCtxDestroy
  (repeat' first
      | with_reducible assumption
      | with_reducible apply keeps_withCmd
      | with_reducible apply keeps_complete
      | with_reducible apply keeps_beginScrub
      | with_reducible apply keeps_begin
      | with_reducible refine keeps_ite (fun _ => ?_) (fun _ => ?_)
      | with_reducible intro _)

theorem keeps_keyFail {bb : Bool} {q0 : State} (s : State) (k : Cmd) (off : ℕ) (hs : Keeps bb q0 s) : Keeps bb q0 (State.keyFail s k off) := by
  unfold State.keyFail
  (repeat' first
      | with_reducible assumption
      | with_reducible apply keeps_badData
      | with_reducible apply keeps_secEvent)

theorem keeps_execKeyImport {bb : Bool} {q0 : State} (cmd : ℕ) (wrapped : List Byte) (s : State) (hs : Keeps bb q0 s) : KeepsOut bb q0 (execKeyImport cmd wrapped s) := by
  unfold execKeyImport
  (repeat' first
      | extract_lets
      | with_reducible assumption
      | with_reducible apply keeps_withCmd
      | with_reducible apply keeps_badParam
      | with_reducible apply keeps_keyFail
      | with_reducible apply keeps_completeOk
      | with_reducible apply keeps_modSec
      | with_reducible intro _
      | split)

theorem keeps_execFabricRouteSet {bb : Bool} {q0 : State} (cmd : ℕ) (entries : List DWord) (s : State) (hs : Keeps bb q0 s) : KeepsOut bb q0 (execFabricRouteSet cmd entries s) := by
  unfold execFabricRouteSet
  (repeat' first
      | with_reducible assumption
      | with_reducible apply keeps_withCmd
      | with_reducible apply keeps_completeOk
      | with_reducible apply keeps_modFab
      | with_reducible refine keeps_ite (fun _ => ?_) (fun _ => ?_)
      | with_reducible intro _)

theorem keeps_execGeyserSet {bb : Bool} {q0 : State} (cmd : ℕ) (s : State) (hs : Keeps bb q0 s) : KeepsOut bb q0 (execGeyserSet cmd s) := by
  unfold execGeyserSet
  (repeat' first
      | with_reducible assumption
      | with_reducible apply keeps_withCmd
      | with_reducible apply keeps_badParam
      | with_reducible apply keeps_completeOk
      | with_reducible refine keeps_ite (fun _ => ?_) (fun _ => ?_)
      | with_reducible intro _
      | (simp only [keeps_mk, kept_eta, State.modGlb]; with_reducible assumption))

theorem keeps_bar4Fails {bb : Bool} {q0 : State} (s : State) (cause : ℕ) (vpn : BitVec 21) (hs : Keeps bb q0 s) : Keeps bb q0 (State.bar4Fails s cause vpn) := by
  unfold State.bar4Fails
  (repeat' first
      | with_reducible assumption
      | with_reducible apply keeps_modCp
      | with_reducible refine keeps_ite (fun _ => ?_) (fun _ => ?_))

theorem keeps_bar4Get {bb : Bool} {q0 : State} (s : State) (fails : List BlockFail) (a : List (Xlat × ℕ)) (a4 : List Byte) (hs : Keeps bb q0 s) : Keeps bb q0 (State.bar4Get s fails a a4).1 := by
  induction a generalizing s a4 with
  | nil => unfold State.bar4Get; (repeat' first
      | assumption)
  | cons y ys ih => unfold State.bar4Get; (repeat' first
      | with_reducible apply ih
      | with_reducible apply keeps_hubReads
      | split
      | assumption)

theorem keeps_bar4Serve {bb : Bool} {q0 : State} (s : State) (offset : Word) (len : ℕ) (fails : List BlockFail) (xs : List (Xlat × ℕ)) (h : List Byte) (hs : Keeps bb q0 s) : Keeps bb q0 (State.bar4Serve s offset len fails xs h) := by
  unfold State.bar4Serve
  (repeat' first
      | extract_lets
      | with_reducible assumption
      | with_reducible apply keeps_bar4Get
      | with_reducible apply keeps_emit
      | with_reducible apply keeps_bar4Fails
      | split)

theorem keeps_execBar4Read {bb : Bool} {q0 : State} (offset : Word) (len : ℕ) (io : HostIO) (fails : List BlockFail) (s : State) (hs : Keeps bb q0 s) : KeepsOut bb q0 (execBar4Read offset len io fails s) := by
  unfold execBar4Read
  (repeat' first
      | extract_lets
      | with_reducible assumption
      | with_reducible refine keepsOut_next ?_
      | with_reducible exact keepsOut_fault
      | with_reducible apply keeps_emit
      | with_reducible apply keeps_bar4Fails
      | with_reducible apply keeps_bar4Serve
      | split)

theorem keeps_bar4Put {bb : Bool} {q0 : State} (s : State) (fails : List BlockFail) (a : List (Xlat × ℕ)) (a4 : List Byte) (hs : Keeps bb q0 s) : Keeps bb q0 (State.bar4Put s fails a a4).1 := by
  induction a generalizing s a4 with
  | nil => unfold State.bar4Put; (repeat' first
      | assumption)
  | cons y ys ih => unfold State.bar4Put; (repeat' first
      | with_reducible apply ih
      | with_reducible apply keeps_hubWrites
      | split
      | assumption)

theorem keeps_execBar4Write {bb : Bool} {q0 : State} (offset : Word) (bytes : List Byte) (fails : List BlockFail) (s : State) (hs : Keeps bb q0 s) : KeepsOut bb q0 (execBar4Write offset bytes fails s) := by
  unfold execBar4Write
  (repeat' first
      | (extract_lets +onlyGivenNames x; first
          | (with_reducible refine keeps_cut1 (bb := bb) (r := q0) x ?_ (fun hx => ?_); (on_goal 2 => clear_value x); (on_goal 1 => (unfold x; clear x)))
          | clear_value x
          )
      | with_reducible assumption
      | with_reducible refine keepsOut_next ?_
      | with_reducible exact keepsOut_fault
      | with_reducible apply keeps_bar4Fails
      | with_reducible apply keeps_bar4Put
      | split)

theorem keeps_execDoeMessage {bb : Bool} {q0 : State} (object : List Byte) (s : State) (hs : Keeps bb q0 s) : KeepsOut bb q0 (execDoeMessage object s) := by
  unfold execDoeMessage
  (repeat' first
      | with_reducible assumption
      | with_reducible refine keepsOut_next ?_
      | with_reducible apply keeps_draw
      | with_reducible apply keeps_emit
      | with_reducible apply keeps_modCp
      | with_reducible refine keepsOut_ite (fun _ => ?_) (fun _ => ?_))

end Sys2Proof.Machine
end

