-- ==== Sys2Proof/Laws/KeepsNet.lean ====
section
/-! SUPPORT. What every operation and every command keeps: the queue, the time, the canonical form of the stacked memory,
the bounds of the two logs, the floor pace and the beat registers.  The control network, user logic, checks, management and power. -/

namespace Sys2Proof.Machine

theorem keeps_logicTick {bb : Bool} {q0 : State} (s : State) (hs : Keeps bb q0 s) : Keeps bb q0 (State.logicTick s) := by
  unfold State.logicTick
  (repeat' first
      | (extract_lets +onlyGivenNames x; first
          | (with_reducible refine keeps_cut2 (bb := bb) (r := q0) x ?_ (fun hx => ?_); (on_goal 2 => clear_value x); (on_goal 1 => (unfold x; clear x)))
          )
      | with_reducible assumption
      | with_reducible apply keeps_draw
      | with_reducible refine keeps_ite (fun _ => ?_) (fun _ => ?_)
      | (simp only [keeps_mk, kept_eta]; with_reducible assumption))

theorem keeps_modChk {bb : Bool} {q0 : State} (s : State) (r : ChkRef) (f : Chk → Chk) (hs : Keeps bb q0 s) : Keeps bb q0 (State.modChk s r f) := by
  unfold State.modChk
  (repeat' first
      | with_reducible assumption
      | with_reducible apply keeps_modCal
      | with_reducible apply keeps_modCfg
      | split
      | (simp only [keeps_mk, kept_eta, State.modPwr]; with_reducible assumption))

theorem keeps_chkWrite {bb : Bool} {q0 : State} (s : State) (r : ChkRef) (f : Chk → Chk) (hs : Keeps bb q0 s) : Keeps bb q0 (State.chkWrite s r f) := by
  unfold State.chkWrite
  (repeat' first
      | with_reducible assumption
      | with_reducible apply keeps_modCal
      | with_reducible apply keeps_modChk
      | split)

theorem keeps_execChkData8 {bb : Bool} {q0 : State} (unit : ChkRef) (value : Byte) (s : State) (hs : Keeps bb q0 s) : KeepsOut bb q0 (execChkData8 unit value s) := by
  unfold execChkData8
  (repeat' first
      | with_reducible assumption
      | with_reducible refine keepsOut_next ?_
      | with_reducible apply keeps_chkWrite)

theorem keeps_execChkData16 {bb : Bool} {q0 : State} (unit : ChkRef) (value : BitVec 16) (s : State) (hs : Keeps bb q0 s) : KeepsOut bb q0 (execChkData16 unit value s) := by
  unfold execChkData16
  (repeat' first
      | with_reducible assumption
      | with_reducible refine keepsOut_next ?_
      | with_reducible apply keeps_chkWrite)

theorem keeps_execChkData32 {bb : Bool} {q0 : State} (unit : ChkRef) (value : Word) (s : State) (hs : Keeps bb q0 s) : KeepsOut bb q0 (execChkData32 unit value s) := by
  unfold execChkData32
  (repeat' first
      | with_reducible assumption
      | with_reducible refine keepsOut_next ?_
      | with_reducible apply keeps_chkWrite)

theorem keeps_execChkStart {bb : Bool} {q0 : State} (unit : ChkRef) (ctl : Word) (s : State) (hs : Keeps bb q0 s) : KeepsOut bb q0 (execChkStart unit ctl s) := by
  unfold execChkStart
  (repeat' first
      | with_reducible assumption
      | with_reducible refine keepsOut_next ?_
      | with_reducible apply keeps_chkWrite)

theorem keeps_execChkFeed {bb : Bool} {q0 : State} (unit : ChkRef) (s : State) (hs : Keeps bb q0 s) : KeepsOut bb q0 (execChkFeed unit s) := by
  unfold execChkFeed
  (repeat' first
      | with_reducible assumption
      | with_reducible refine keepsOut_next ?_
      | with_reducible apply keeps_modChk)

theorem keeps_execXlogPop {bb : Bool} {q0 : State} (cal : Fin 64) (s : State) (hs : Keeps bb q0 s) : KeepsOut bb q0 (execXlogPop cal s) := by
  unfold execXlogPop
  (repeat' first
      | with_reducible assumption
      | with_reducible refine keepsOut_next ?_
      | with_reducible apply keeps_modCal
      | with_reducible refine keepsOut_ite (fun _ => ?_) (fun _ => ?_))

theorem keeps_execXlogClear {bb : Bool} {q0 : State} (cal : Fin 64) (s : State) (hs : Keeps bb q0 s) : KeepsOut bb q0 (execXlogClear cal s) := by
  unfold execXlogClear
  (repeat' first
      | with_reducible assumption
      | with_reducible refine keepsOut_next ?_
      | with_reducible apply keeps_modCal
      | with_reducible refine keepsOut_ite (fun _ => ?_) (fun _ => ?_))

theorem keeps_writeRt {bb : Bool} {q0 : State} (s : State) (i : ℕ) (v : BitVec 13) (hs : Keeps bb q0 s) : Keeps bb q0 (State.writeRt s i v) := by
  unfold State.writeRt
  (repeat' first
      | (simp only [keeps_mk, kept_eta]; with_reducible assumption))

theorem keeps_execNocRtWrite {bb : Bool} {q0 : State} (_die : Bool) (index : BitVec 8) (value : Word) (s : State) (hs : Keeps bb q0 s) : KeepsOut bb q0 (execNocRtWrite _die index value s) := by
  unfold execNocRtWrite
  (repeat' first
      | with_reducible assumption
      | with_reducible refine keepsOut_next ?_
      | with_reducible apply keeps_writeRt
      | with_reducible refine keepsOut_ite (fun _ => ?_) (fun _ => ?_))

theorem keeps_modIface {bb : Bool} {q0 : State} (s : State) (n : BitVec 9) (f : Iface → Iface) (hs : Keeps bb q0 s) : Keeps bb q0 (State.modIface s n f) := by
  unfold State.modIface
  (repeat' first
      | (simp only [keeps_mk, kept_eta]; with_reducible assumption))

theorem keeps_injectPkt {bb : Bool} {q0 : State} (s : State) (n : BitVec 9) (h : Word) (d : Data256) (hs : Keeps bb q0 s) : Keeps bb q0 (State.injectPkt s n h d) := by
  unfold State.injectPkt
  (repeat' first
      | (simp only [keeps_mk, kept_eta]; with_reducible assumption))

theorem keeps_respondBy {bb : Bool} {q0 : State} (s : State) (e : BitVec 13) (n : BitVec 9) (h : Word) (d : Data256) (status : ℕ) (data : BitVec 128) (hs : Keeps bb q0 s) : Keeps bb q0 (State.respondBy s e n h d status data) := by
  unfold State.respondBy
  (repeat' first
      | with_reducible assumption
      | with_reducible apply keeps_injectPkt)

theorem keeps_respond {bb : Bool} {q0 : State} (s : State) (n : BitVec 9) (h : Word) (d : Data256) (status : ℕ) (data : BitVec 128) (hs : Keeps bb q0 s) : Keeps bb q0 (State.respond s n h d status data) := by
  unfold State.respond
  (repeat' first
      | with_reducible assumption
      | with_reducible apply keeps_respondBy)

theorem keeps_accessFail {bb : Bool} {q0 : State} (s : State) (bit : ℕ) (addr : Word) (hs : Keeps bb q0 s) : Keeps bb q0 (State.accessFail s bit addr) := by
  unfold State.accessFail
  (repeat' first
      | with_reducible assumption
      | split
      | (simp only [keeps_mk, kept_eta, State.modGlb]))

theorem keeps_hostOutcome {bb : Bool} {q0 : State} (s : State) (write : Bool) (addr : Word) (n : ℕ) (status : ℕ) (data : BitVec 128) (hs : Keeps bb q0 s) : Keeps bb q0 (State.hostOutcome s write addr n status data) := by
  unfold State.hostOutcome
  (repeat' first
      | with_reducible assumption
      | with_reducible apply keeps_accessFail
      | with_reducible apply keeps_emit
      | split)

theorem keeps_finishReq {bb : Bool} {q0 : State} (s : State) (n : BitVec 9) (tag : BitVec 10) (kind : ℕ) (addr : ℕ) (words : ℕ) (status : ℕ) (data : Data256) (hs : Keeps bb q0 s) : Keeps bb q0 (State.finishReq s n tag kind addr words status data) := by
  unfold State.finishReq
  (repeat' first
      | with_reducible assumption
      | with_reducible apply keeps_modIface
      | with_reducible apply keeps_hostOutcome
      | with_reducible refine keeps_ite (fun _ => ?_) (fun _ => ?_))

/-- What a request's issue keeps, whichever way it goes. -/
def KeepsIssued (b : Bool) (r : State) : Issued → Prop
  | .waits => True
  | .ended _ t => Keeps b r t
  | .sent _ t => Keeps b r t

theorem keeps_ended {bb : Bool} {r t : State} {i : Issued} {a} (e : i = .ended a t) (h : KeepsIssued bb r i) : Keeps bb r t := by subst e; exact h

theorem keeps_sent {bb : Bool} {r t : State} {i : Issued} {a} (e : i = .sent a t) (h : KeepsIssued bb r i) : Keeps bb r t := by subst e; exact h

theorem keeps_issueNoc {bb : Bool} {q0 : State} (s : State) (node : BitVec 9) (route k : Nat) (data : Data256) (hs : Keeps bb q0 s) :
    KeepsIssued bb q0 (s.issueNoc node route k data) := by
  unfold State.issueNoc
  dsimp only
  repeat' split
  all_goals first
    | exact trivial
    | exact hs

theorem keeps_execNocRequest {bb : Bool} {q0 : State} (node : BitVec 9) (route : BitVec 8) (kind : BitVec 4) (data : Data256) (s : State) (hs : Keeps bb q0 s) : KeepsOut bb q0 (execNocRequest node route kind data s) := by
  unfold execNocRequest
  (repeat' first
      | with_reducible assumption
      | with_reducible refine keepsOut_next ?_
      | (with_reducible refine keeps_ended (by assumption) ?_; with_reducible apply keeps_issueNoc)
      | (with_reducible refine keeps_sent (by assumption) ?_; with_reducible apply keeps_issueNoc)
      | with_reducible apply keeps_finishReq
      | split)

theorem keeps_execNocBusyRetry {bb : Bool} {q0 : State} (node : BitVec 9) (tag : BitVec 10) (s : State) (hs : Keeps bb q0 s) : KeepsOut bb q0 (execNocBusyRetry node tag s) := by
  unfold execNocBusyRetry
  (repeat' first
      | with_reducible assumption
      | with_reducible refine keepsOut_next ?_
      | with_reducible apply keeps_injectPkt
      | with_reducible apply keeps_modIface
      | split)

theorem keeps_noteInjected {bb : Bool} {q0 : State} (s : State) (p : NPkt) (hs : Keeps bb q0 s) : Keeps bb q0 (State.noteInjected s p) := by
  unfold State.noteInjected
  (repeat' first
      | with_reducible assumption
      | with_reducible apply keeps_modIface
      | with_reducible refine keeps_ite (fun _ => ?_) (fun _ => ?_))

theorem keeps_execChkSnoopBlock {bb : Bool} {q0 : State} (unit : ChkRef) (block : Snooped) (tag : DWord) (carried : DWord) (s : State) (hs : Keeps bb q0 s) : KeepsOut bb q0 (execChkSnoopBlock unit block tag carried s) := by
  unfold execChkSnoopBlock
  (repeat' first
      | with_reducible assumption
      | with_reducible refine keepsOut_next ?_
      | with_reducible exact keepsOut_fault
      | with_reducible apply keeps_modChk
      | with_reducible refine keepsOut_ite (fun _ => ?_) (fun _ => ?_))

theorem keeps_applySeen {bb : Bool} {q0 : State} (s : State) (l : List Seen) (hs : Keeps bb q0 s) : Keeps bb q0 (State.applySeen s l) := by
  unfold State.applySeen
  (repeat' first
      | (extract_lets +onlyGivenNames x; first
          | (with_reducible refine keeps_cut (bb := bb) (r := q0) x ?_ (fun hx => ?_); (on_goal 2 => clear_value x); (on_goal 1 => (unfold x; clear x)))
          | (with_reducible refine keeps_isFun x ?_; unfold x; clear x)
          )
      | with_reducible assumption
      | with_reducible apply keeps_modNoc
      | with_reducible refine keeps_foldl _ (fun _ _ _ => ?_) _ _ ?_
      | split)

theorem keeps_execTraceClear {bb : Bool} {q0 : State} (die : Bool) (s : State) (hs : Keeps bb q0 s) : KeepsOut bb q0 (execTraceClear die s) := by
  unfold execTraceClear
  (repeat' first
      | with_reducible assumption
      | with_reducible refine keepsOut_next ?_
      | with_reducible apply keeps_modNoc
      | with_reducible refine keepsOut_ite (fun _ => ?_) (fun _ => ?_))

theorem keeps_serve {bb : Bool} {q0 : State} (h : HopState) (p : NPkt) (hs : Keeps bb q0 h.s) : Keeps bb q0 (h.serve p).s := by
  have mv : ∀ (h : HopState) p port, Keeps bb q0 h.s → Keeps bb q0 (h.moveTo p port).s := by
    intro h p port hs
    unfold HopState.moveTo
    exact keeps_noteInjected _ _ hs
  have df : ∀ (h : HopState) p, Keeps bb q0 h.s → Keeps bb q0 (h.deflect p).s := by
    intro h p hs
    unfold HopState.deflect
    dsimp only
    split
    · exact mv _ _ _ (keeps_draw _ hs)
    · exact hs
  unfold HopState.serve
  dsimp only
  split
  · exact keeps_modIface _ _ _ hs
  · split
    · exact hs
    · split
      · split
        · exact mv _ _ _ hs
        · exact df _ _ hs
      · exact df _ _ hs

theorem keeps_execNocHop {bb : Bool} {q0 : State} (die : Bool) (x : Fin 8) (y : Fin 8) (s : State) (hs : Keeps bb q0 s) : KeepsOut bb q0 (execNocHop die x y s) := by
  have fl : ∀ (l : List NPkt) (h : HopState), Keeps bb q0 h.s → Keeps bb q0 (l.foldl HopState.serve h).s := by
    intro l
    induction l with
    | nil => exact fun _ h => h
    | cons a l ih => exact fun h hh => ih _ (keeps_serve h a hh)
  unfold execNocHop
  extract_lets here order h
  exact keepsOut_next (keeps_applySeen _ _ (fl _ _ hs))

theorem keeps_execPllLock {bb : Bool} {q0 : State} (k : Fin 8) (s : State) (hs : Keeps bb q0 s) : KeepsOut bb q0 (execPllLock k s) := by
  unfold execPllLock
  (repeat' first
      | with_reducible assumption
      | with_reducible refine keepsOut_next ?_
      | with_reducible refine keepsOut_ite (fun _ => ?_) (fun _ => ?_)
      | (simp only [keeps_mk, kept_eta]; with_reducible assumption))

theorem keeps_execPllUnlock {bb : Bool} {q0 : State} (k : Fin 8) (s : State) (hs : Keeps bb q0 s) : KeepsOut bb q0 (execPllUnlock k s) := by
  unfold execPllUnlock
  (repeat' first
      | with_reducible assumption
      | with_reducible refine keepsOut_next ?_
      | with_reducible apply keeps_modRegions
      | with_reducible apply keeps_raise
      | with_reducible refine keepsOut_ite (fun _ => ?_) (fun _ => ?_)
      | (simp only [keeps_mk, kept_eta]; with_reducible assumption))

theorem keeps_execGatewayWord {bb : Bool} {q0 : State} (region : Fin 16) (ep : Fin 16) (dir : GwDir) (s : State) (hs : Keeps bb q0 s) : KeepsOut bb q0 (execGatewayWord region ep dir s) := by
  unfold execGatewayWord
  (repeat' first
      | extract_lets
      | with_reducible assumption
      | with_reducible refine keepsOut_next ?_
      | with_reducible apply keeps_modGw
      | split)

theorem keeps_execGwResyncDone {bb : Bool} {q0 : State} (region : Fin 16) (s : State) (hs : Keeps bb q0 s) : KeepsOut bb q0 (execGwResyncDone region s) := by
  unfold execGwResyncDone
  (repeat' first
      | with_reducible assumption
      | with_reducible refine keepsOut_next ?_
      | with_reducible apply keeps_modRegion
      | with_reducible refine keepsOut_ite (fun _ => ?_) (fun _ => ?_))

theorem keeps_internalError {bb : Bool} {q0 : State} (s : State) (serial : ℕ) (hs : Keeps bb q0 s) : Keeps bb q0 (State.internalError s serial) := by
  unfold State.internalError
  (repeat' first
      | with_reducible assumption
      | with_reducible apply keeps_raise
      | with_reducible apply keeps_complete
      | split)

theorem keeps_execTelemetryRead {bb : Bool} {q0 : State} (cmd : ℕ) (s : State) (hs : Keeps bb q0 s) : KeepsOut bb q0 (execTelemetryRead cmd s) := by
  unfold execTelemetryRead
  (repeat' first
      | (extract_lets +onlyGivenNames x; first
          | (with_reducible refine keeps_cut (bb := bb) (r := q0) x ?_ (fun hx => ?_); (on_goal 2 => clear_value x); (on_goal 1 => (unfold x; clear x)))
          | (with_reducible refine keeps_cut2 (bb := bb) (r := q0) x ?_ (fun hx => ?_); (on_goal 2 => clear_value x); (on_goal 1 => (unfold x; clear x)))
          | clear_value x
          )
      | with_reducible assumption
      | with_reducible apply keeps_draw
      | with_reducible apply keeps_withCmd
      | with_reducible apply keeps_badParam
      | with_reducible apply keeps_complete
      | with_reducible apply keeps_emit
      | with_reducible intro _
      | split)

theorem keeps_execPowerCapSet {bb : Bool} {q0 : State} (cmd : ℕ) (s : State) (hs : Keeps bb q0 s) : KeepsOut bb q0 (execPowerCapSet cmd s) := by
  unfold execPowerCapSet
  (repeat' first
      | with_reducible assumption
      | with_reducible apply keeps_withCmd
      | with_reducible apply keeps_complete
      | with_reducible intro _
      | (simp only [keeps_mk, kept_eta, State.modPwr]; with_reducible assumption))

theorem keeps_execSetupWrite {bb : Bool} {q0 : State} (cmd : ℕ) (image : BitVec 32768) (s : State) (hs : Keeps bb q0 s) : KeepsOut bb q0 (execSetupWrite cmd image s) := by
  unfold execSetupWrite
  (repeat' first
      | with_reducible assumption
      | with_reducible apply keeps_withCmd
      | with_reducible apply keeps_badData
      | with_reducible apply keeps_begin
      | with_reducible intro _
      | split
      | (simp only [keeps_mk, kept_eta, State.modPwr]))

theorem keeps_execFwUpdateBegin {bb : Bool} {q0 : State} (cmd : ℕ) (s : State) (hs : Keeps bb q0 s) : KeepsOut bb q0 (execFwUpdateBegin cmd s) := by
  unfold execFwUpdateBegin
  (repeat' first
      | with_reducible assumption
      | with_reducible apply keeps_withCmd
      | with_reducible apply keeps_badParam
      | with_reducible apply keeps_modCp
      | with_reducible apply keeps_begin
      | with_reducible refine keeps_ite (fun _ => ?_) (fun _ => ?_)
      | with_reducible intro _
      | (simp only [keeps_mk, kept_eta, State.modPwr]))

theorem keeps_rollBack {bb : Bool} {q0 : State} (s : State) (hs : Keeps bb q0 s) : Keeps bb q0 (State.rollBack s) := by
  unfold State.rollBack
  (repeat' first
      | with_reducible assumption
      | with_reducible apply keeps_modCp
      | with_reducible apply keeps_pwrEvent
      | (simp only [keeps_mk, kept_eta, State.modPwr]))

theorem keeps_execFwUpdateData {bb : Bool} {q0 : State} (cmd : ℕ) (data : List Byte) (s : State) (hs : Keeps bb q0 s) : KeepsOut bb q0 (execFwUpdateData cmd data s) := by
  unfold execFwUpdateData
  (repeat' first
      | with_reducible assumption
      | with_reducible apply keeps_withCmd
      | with_reducible apply keeps_badParam
      | with_reducible apply keeps_begin
      | with_reducible intro _
      | split
      | (simp only [keeps_mk, kept_eta, State.modPwr]))

theorem keeps_execFwUpdateCommit {bb : Bool} {q0 : State} (cmd : ℕ) (s : State) (hs : Keeps bb q0 s) : KeepsOut bb q0 (execFwUpdateCommit cmd s) := by
  unfold execFwUpdateCommit
  (repeat' first
      | with_reducible assumption
      | with_reducible apply keeps_withCmd
      | with_reducible apply keeps_badParam
      | with_reducible apply keeps_rollBack
      | with_reducible apply keeps_badData
      | with_reducible apply keeps_modCp
      | with_reducible apply keeps_pwrEvent
      | with_reducible apply keeps_complete
      | with_reducible intro _
      | split
      | (simp only [keeps_mk, kept_eta, State.modPwr]))

theorem keeps_execFwUpdateTimeout {bb : Bool} {q0 : State} (s : State) (hs : Keeps bb q0 s) : KeepsOut bb q0 (execFwUpdateTimeout s) := by
  unfold execFwUpdateTimeout
  (repeat' first
      | with_reducible assumption
      | with_reducible refine keepsOut_next ?_
      | with_reducible apply keeps_rollBack
      | split)

theorem keeps_flashIdle {bb : Bool} {q0 : State} (s : State) (hs : Keeps bb q0 s) : Keeps bb q0 (State.flashIdle s) := by
  unfold State.flashIdle
  (repeat' first
      | (simp only [keeps_mk, kept_eta, State.modPwr]; with_reducible assumption))

theorem keeps_putSlot {bb : Bool} {q0 : State} (s : State) (hs : Keeps bb q0 s) : Keeps bb q0 (State.putSlot s) := by
  unfold State.putSlot
  (repeat' first
      | with_reducible assumption
      | split
      | (simp only [keeps_mk, kept_eta, State.modPwr]; with_reducible assumption))

theorem keeps_execFlashOperationDone {bb : Bool} {q0 : State} (readBackOk : Bool) (s : State) (hs : Keeps bb q0 s) : KeepsOut bb q0 (execFlashOperationDone readBackOk s) := by
  unfold execFlashOperationDone
  (repeat' first
      | with_reducible assumption
      | with_reducible refine keepsOut_next ?_
      | with_reducible apply keeps_draw
      | with_reducible apply keeps_completeOk
      | with_reducible apply keeps_putSlot
      | with_reducible apply keeps_flashIdle
      | with_reducible apply keeps_rollBack
      | with_reducible apply keeps_internalError
      | split
      | (simp only [keeps_mk, kept_eta, State.modPwr]))

theorem keeps_execAttest {bb : Bool} {q0 : State} (cmd : ℕ) (s : State) (hs : Keeps bb q0 s) : KeepsOut bb q0 (execAttest cmd s) := by
  unfold execAttest
  (repeat' first
      | with_reducible assumption
      | with_reducible apply keeps_withCmd
      | with_reducible apply keeps_badParam
      | with_reducible apply keeps_complete
      | with_reducible apply keeps_modSec
      | with_reducible apply keeps_emit
      | with_reducible refine keeps_ite (fun _ => ?_) (fun _ => ?_)
      | with_reducible intro _)

theorem keeps_execAttestHoldTimeout {bb : Bool} {q0 : State} (cmd : ℕ) (s : State) (hs : Keeps bb q0 s) : KeepsOut bb q0 (execAttestHoldTimeout cmd s) := by
  unfold execAttestHoldTimeout
  (repeat' first
      | with_reducible assumption
      | with_reducible refine keepsOut_next ?_
      | with_reducible apply keeps_complete
      | split)

theorem keeps_watchSqualls {bb : Bool} {q0 : State} (s : State) (hs : Keeps bb q0 s) : Keeps bb q0 (State.watchSqualls s) := by
  unfold State.watchSqualls
  (repeat' first
      | (simp only [keeps_mk, kept_eta]; with_reducible assumption))

theorem keeps_execTelemetrySample {bb : Bool} {q0 : State} (sample : Sample) (s : State) (hs : Keeps bb q0 s) : KeepsOut bb q0 (execTelemetrySample sample s) := by
  unfold execTelemetrySample
  (repeat' first
      | with_reducible assumption
      | with_reducible refine keepsOut_next ?_
      | with_reducible apply keeps_modCal
      | with_reducible apply keeps_watchSqualls
      | with_reducible apply keeps_modPort
      | split
      | (simp only [keeps_mk, kept_eta, State.modPwr]; with_reducible assumption))

theorem keeps_sendRail {bb : Bool} {q0 : State} (s : State) (r : Fin 13) (mv : BitVec 16) (hs : Keeps bb q0 s) : Keeps bb q0 (State.sendRail s r mv) := by
  unfold State.sendRail
  (repeat' first
      | (simp only [keeps_mk, kept_eta, State.modPwr]; with_reducible assumption))

theorem keeps_setRail {bb : Bool} {q0 : State} (s : State) (r : Fin 13) (mv : ℕ) (hs : Keeps bb q0 s) : Keeps bb q0 (State.setRail s r mv) := by
  unfold State.setRail
  (repeat' first
      | with_reducible assumption
      | with_reducible apply keeps_sendRail
      | with_reducible refine keeps_ite (fun _ => ?_) (fun _ => ?_)
      | (simp only [keeps_mk, kept_eta, State.modPwr]; with_reducible assumption))

theorem keeps_stepRails {bb : Bool} {q0 : State} (s : State) (hs : Keeps bb q0 s) : Keeps bb q0 (State.stepRails s) := by
  unfold State.stepRails
  (repeat' first
      | with_reducible assumption
      | with_reducible apply keeps_setRail)

theorem keeps_raiseRails {bb : Bool} {q0 : State} (s : State) (hs : Keeps bb q0 s) : Keeps bb q0 (State.raiseRails s) := by
  unfold State.raiseRails
  (repeat' first
      | with_reducible assumption
      | with_reducible apply keeps_setRail)

theorem keeps_execCapControl {bb : Bool} {q0 : State} (average : BitVec 16) (s : State) (hs : Keeps bb q0 s) : KeepsOut bb q0 (execCapControl average s) := by
  unfold execCapControl
  (repeat' first
      | with_reducible assumption
      | with_reducible refine keepsOut_next ?_
      | with_reducible apply keeps_stepRails
      | with_reducible refine keepsOut_ite (fun _ => ?_) (fun _ => ?_)
      | (simp only [keeps_mk, kept_eta, State.modPwr]; with_reducible assumption))

theorem keeps_execIlimStep {bb : Bool} {q0 : State} (s : State) (hs : Keeps bb q0 s) : KeepsOut bb q0 (execIlimStep s) := by
  unfold execIlimStep
  (repeat' first
      | with_reducible assumption
      | with_reducible refine keepsOut_next ?_
      | with_reducible apply keeps_pwrEvent
      | with_reducible refine keepsOut_ite (fun _ => ?_) (fun _ => ?_)
      | (simp only [keeps_mk, kept_eta, State.modPwr]; with_reducible assumption))

theorem keeps_execSquallBegin {bb : Bool} {q0 : State} (cal : Fin 64) (cause : SquallCause) (s : State) (hs : Keeps bb q0 s) : KeepsOut bb q0 (execSquallBegin cal cause s) := by
  unfold execSquallBegin
  (repeat' first
      | (extract_lets +onlyGivenNames x; first
          | (with_reducible refine keeps_cut (bb := bb) (r := q0) x ?_ (fun hx => ?_); (on_goal 2 => clear_value x); (on_goal 1 => (unfold x; clear x)))
          | clear_value x
          )
      | with_reducible assumption
      | with_reducible refine keepsOut_next ?_
      | with_reducible apply keeps_modCal
      | with_reducible apply keeps_pwrEvent
      | with_reducible refine keepsOut_ite (fun _ => ?_) (fun _ => ?_)
      | (simp only [keeps_mk, kept_eta, State.modPwr]; with_reducible assumption))

theorem keeps_execSquallRailStep {bb : Bool} {q0 : State} (die : Bool) (s : State) (hs : Keeps bb q0 s) : KeepsOut bb q0 (execSquallRailStep die s) := by
  unfold execSquallRailStep
  (repeat' first
      | with_reducible assumption
      | with_reducible refine keepsOut_next ?_
      | with_reducible apply keeps_setRail
      | split
      | (simp only [keeps_mk, kept_eta, State.modPwr]))

theorem keeps_execSquallEnd {bb : Bool} {q0 : State} (cal : Fin 64) (s : State) (hs : Keeps bb q0 s) : KeepsOut bb q0 (execSquallEnd cal s) := by
  unfold execSquallEnd
  (repeat' first
      | with_reducible assumption
      | with_reducible refine keepsOut_next ?_
      | with_reducible apply keeps_modCal
      | split)

theorem keeps_execEvtPop {bb : Bool} {q0 : State} (s : State) (hs : Keeps bb q0 s) : KeepsOut bb q0 (execEvtPop s) := by
  unfold execEvtPop
  exact keepsOut_next (keeps_ev hs _ (pop_len _))

theorem keeps_execEvtClear {bb : Bool} {q0 : State} (s : State) (hs : Keeps bb q0 s) : KeepsOut bb q0 (execEvtClear s) := by
  unfold execEvtClear
  exact keepsOut_next (keeps_ev hs _ (fun _ => Nat.zero_le _))

theorem keeps_railFault {bb : Bool} {q0 : State} (s : State) (r : Fin 13) (hs : Keeps bb q0 s) : Keeps bb q0 (State.railFault s r) := by
  unfold State.railFault
  (repeat' first
      | with_reducible assumption
      | with_reducible apply keeps_pwrEvent)

theorem keeps_takeReading {bb : Bool} {q0 : State} (s : State) (r : Fin 13) (mv : BitVec 16) (current : BitVec 16) (hs : Keeps bb q0 s) : Keeps bb q0 (State.takeReading s r mv current) := by
  unfold State.takeReading
  (repeat' first
      | (extract_lets +onlyGivenNames x; first
          | (with_reducible refine keeps_cut (bb := bb) (r := q0) x ?_ (fun hx => ?_); (on_goal 2 => clear_value x); (on_goal 1 => (unfold x; clear x)))
          )
      | with_reducible assumption
      | with_reducible apply keeps_railFault
      | split
      | (simp only [keeps_mk, kept_eta, State.modPwr]; with_reducible assumption))

theorem keeps_execAvsPoll {bb : Bool} {q0 : State} (rail : Fin 13) (mv : BitVec 16) (current : BitVec 16) (answered : Bool) (s : State) (hs : Keeps bb q0 s) : KeepsOut bb q0 (execAvsPoll rail mv current answered s) := by
  unfold execAvsPoll
  (repeat' first
      | with_reducible assumption
      | with_reducible refine keepsOut_next ?_
      | with_reducible apply keeps_takeReading
      | with_reducible refine keepsOut_ite (fun _ => ?_) (fun _ => ?_)
      | (simp only [keeps_mk, kept_eta, State.modPwr]; with_reducible assumption))

theorem keeps_execAvsRetry {bb : Bool} {q0 : State} (rail : Fin 13) (answer : AvsAnswer) (s : State) (hs : Keeps bb q0 s) : KeepsOut bb q0 (execAvsRetry rail answer s) := by
  unfold execAvsRetry
  (repeat' first
      | (extract_lets +onlyGivenNames x; first
          | (with_reducible refine keeps_cut (bb := bb) (r := q0) x ?_ (fun hx => ?_); (on_goal 2 => clear_value x); (on_goal 1 => (unfold x; clear x)))
          | clear_value x
          )
      | with_reducible assumption
      | with_reducible refine keepsOut_next ?_
      | with_reducible apply keeps_takeReading
      | with_reducible apply keeps_railFault
      | with_reducible apply keeps_sendRail
      | split
      | (simp only [keeps_mk, kept_eta, State.modPwr]; with_reducible assumption))

theorem keeps_dropFlits {bb : Bool} {q0 : State} (s : State) (sc : Scrub) (hs : Keeps bb q0 s) : Keeps bb q0 (State.dropFlits s sc) := by
  unfold State.dropFlits
  (repeat' first
      | (simp only [keeps_mk, kept_eta]; with_reducible assumption))

theorem keeps_blankRegion {bb : Bool} {q0 : State} (s : State) (r : Fin 16) (hs : Keeps bb q0 s) : Keeps bb q0 (State.blankRegion s r) := by
  unfold State.blankRegion
  (repeat' first
      | with_reducible assumption
      | with_reducible apply keeps_modCfg
      | with_reducible apply keeps_modRegion)

theorem keeps_scrubEffects {bb : Bool} {q0 : State} (s : State) (ctxs : List Byte) (hs : Keeps bb q0 s) : Keeps bb q0 (State.scrubEffects s ctxs) := by
  unfold State.scrubEffects
  refine keeps_bbl ?_ _ (map_len _ _)
  (repeat' first
      | with_reducible assumption
      | with_reducible apply keeps_modSec
      | with_reducible apply keeps_abortPlan
      | with_reducible apply keeps_modRegions
      | with_reducible apply keeps_blankRegion
      | with_reducible apply keeps_zeroFrame
      | with_reducible refine keeps_foldl _ (fun _ _ _ => ?_) _ _ ?_
      | (simp only [keeps_mk, kept_eta]))

theorem keeps_modScrub {bb : Bool} {q0 : State} (s : State) (sc : Scrub) (f : Scrub → Scrub) (hs : Keeps bb q0 s) : Keeps bb q0 (State.modScrub s sc f) := by
  unfold State.modScrub
  (repeat' first
      | with_reducible assumption
      | with_reducible apply keeps_modSec)

theorem keeps_startScrub {bb : Bool} {q0 : State} (s : State) (sc : Scrub) (hs : Keeps bb q0 s) : Keeps bb q0 (State.startScrub s sc) := by
  unfold State.startScrub
  (repeat' first
      | (extract_lets +onlyGivenNames x; first
          | (with_reducible refine keeps_cut (bb := bb) (r := q0) x ?_ (fun hx => ?_); (on_goal 2 => clear_value x); (on_goal 1 => (unfold x; clear x)))
          )
      | with_reducible assumption
      | with_reducible apply keeps_modScrub
      | with_reducible apply keeps_scrubEffects
      | (simp only [keeps_mk, kept_eta]; with_reducible assumption))

theorem keeps_partitionClass {bb : Bool} {q0 : State} (s : State) (p : Part) (hs : Keeps bb q0 s) : Keeps bb q0 (State.partitionClass s p) := by
  unfold State.partitionClass
  (repeat' first
      | (simp only [keeps_mk, kept_eta]; with_reducible assumption))

theorem keeps_endScrub {bb : Bool} {q0 : State} (s : State) (sc : Scrub) (hs : Keeps bb q0 s) : Keeps bb q0 (State.endScrub s sc) := by
  unfold State.endScrub
  (repeat' first
      | (extract_lets +onlyGivenNames x; first
          | (with_reducible refine keeps_cut (bb := bb) (r := q0) x ?_ (fun hx => ?_); (on_goal 2 => clear_value x); (on_goal 1 => (unfold x; clear x)))
          | clear_value x
          )
      | with_reducible assumption
      | with_reducible apply keeps_modSec
      | with_reducible apply keeps_complete
      | with_reducible apply keeps_partitionClass
      | split
      | (simp only [keeps_mk, kept_eta]; with_reducible assumption))

theorem keeps_tryEndScrub {bb : Bool} {q0 : State} (s : State) (sc : Scrub) (hs : Keeps bb q0 s) : Keeps bb q0 (State.tryEndScrub s sc) := by
  unfold State.tryEndScrub
  (repeat' first
      | with_reducible assumption
      | with_reducible apply keeps_draw
      | with_reducible apply keeps_modScrub
      | with_reducible apply keeps_endScrub
      | with_reducible refine keeps_ite (fun _ => ?_) (fun _ => ?_))

theorem keeps_scrubStep {bb : Bool} {q0 : State} (s : State) (sc : Scrub) (hs : Keeps bb q0 s) : Keeps bb q0 (State.scrubStep s sc) := by
  unfold State.scrubStep
  (repeat' first
      | with_reducible assumption
      | with_reducible apply keeps_modScrub
      | with_reducible apply keeps_tryEndScrub
      | with_reducible apply keeps_dropFlits
      | with_reducible apply keeps_startScrub
      | with_reducible refine keeps_ite (fun _ => ?_) (fun _ => ?_))

theorem keeps_scrubBoundary {bb : Bool} {q0 : State} (s : State) (hs : Keeps bb q0 s) : Keeps bb q0 (State.scrubBoundary s) := by
  unfold State.scrubBoundary
  (repeat' first
      | with_reducible assumption
      | with_reducible apply keeps_scrubStep
      | with_reducible apply keeps_noteLate
      | with_reducible refine keeps_foldl _ (fun _ _ _ => ?_) _ _ ?_)

theorem keeps_execScrubWorkDone {bb : Bool} {q0 : State} (ctx : Byte) (s : State) (hs : Keeps bb q0 s) : KeepsOut bb q0 (execScrubWorkDone ctx s) := by
  unfold execScrubWorkDone
  (repeat' first
      | with_reducible assumption
      | with_reducible refine keepsOut_next ?_
      | with_reducible apply keeps_secEvent
      | with_reducible apply keeps_endScrub
      | split)

theorem keeps_runDestroys {bb : Bool} {q0 : State} (s : State) (p : Fin 8) (hs : Keeps bb q0 s) : Keeps bb q0 (State.runDestroys s p) := by
  unfold State.runDestroys
  (repeat' first
      | with_reducible assumption
      | with_reducible apply keeps_after
      | with_reducible apply keeps_execCtxDestroy
      | with_reducible refine keeps_foldl _ (fun _ _ _ => ?_) _ _ ?_
      | with_reducible refine keeps_ite (fun _ => ?_) (fun _ => ?_))

theorem keeps_partitionReset {bb : Bool} {q0 : State} (s : State) (value : Word) (hs : Keeps bb q0 s) : Keeps bb q0 (State.partitionReset s value) := by
  unfold State.partitionReset
  (repeat' first
      | with_reducible assumption
      | with_reducible apply keeps_modSec
      | with_reducible apply keeps_runDestroys
      | with_reducible apply keeps_beginScrub
      | with_reducible refine keeps_ite (fun _ => ?_) (fun _ => ?_))

theorem keeps_execPartitionReset {bb : Bool} {q0 : State} (value : Word) (s : State) (hs : Keeps bb q0 s) : KeepsOut bb q0 (execPartitionReset value s) := by
  unfold execPartitionReset
  (repeat' first
      | with_reducible assumption
      | with_reducible refine keepsOut_next ?_
      | with_reducible apply keeps_partitionReset
      | with_reducible refine keepsOut_ite (fun _ => ?_) (fun _ => ?_))

theorem keeps_adoptCtx {bb : Bool} {q0 : State} (s : State) (c : Byte) (hs : Keeps bb q0 s) : Keeps bb q0 (State.adoptCtx s c) := by
  unfold State.adoptCtx
  extract_lets part keep
  have hk : ∀ t, keep = some t → Keeps bb q0 t.1 := by
    intro t ht
    by_cases hv : part.valid = true
    · have : s.reserveArea part = some t := by simpa [keep, hv] using ht
      exact keeps_reserveArea _ _ hs _ this
    · simp [keep, hv] at ht
  clear_value keep
  rcases keep with _ | ⟨s1, area⟩
  · exact keeps_pwrEvent _ _ _ _ _ (keeps_modSec _ _ (keeps_scrubEffects _ _ (keeps_abortAll _ _ _ hs)))
  · exact keeps_modSec _ _ (hk _ rfl)

theorem keeps_emberExit {bb : Bool} {q0 : State} (s : State) (hs : Keeps bb q0 s) : Keeps bb q0 (State.emberExit s) := by
  unfold State.emberExit
  (repeat' first
      | with_reducible assumption
      | with_reducible apply keeps_modCp
      | with_reducible apply keeps_raiseRails
      | with_reducible apply keeps_adoptCtx
      | with_reducible refine keeps_foldl _ (fun _ _ _ => ?_) _ _ ?_
      | with_reducible refine keeps_ite (fun _ => ?_) (fun _ => ?_)
      | (simp only [keeps_mk, kept_eta, State.modPwr]))

end Sys2Proof.Machine
end

