-- ==== Sys2Proof/Laws/KeepsDevice.lean ====
section
/-! SUPPORT. What every operation and every command keeps: the queue, the time, the canonical form of the stacked memory,
the bounds of the two logs, the floor pace and the beat registers.  The beat, resets, registers, the fabric and the sideband. -/

namespace Sys2Proof.Machine

theorem keeps_closeBeat {q0 : State} (s : State) (due : ℕ) (cycles : Vector Word 64) (hs : Keeps false q0 s) : Keeps false q0 (State.closeBeat s due cycles) := by
  unfold State.closeBeat
  (repeat' first
      | (simp only [keeps_mk, kept_false]; with_reducible assumption))

theorem keeps_handOver {bb : Bool} {q0 : State} (s : State) (p : Pulse) (n : BitVec 10) (hs : Keeps bb q0 s) : Keeps bb q0 (State.handOver s p n) := by
  unfold State.handOver
  (repeat' first
      | with_reducible assumption
      | with_reducible apply keeps_modFab
      | with_reducible apply keeps_forwardNotice
      | with_reducible refine keeps_foldl _ (fun _ _ _ => ?_) _ _ ?_
      | with_reducible refine keeps_ite (fun _ => ?_) (fun _ => ?_)
      | (simp only [keeps_mk, kept_eta, State.modGlb]))

theorem keeps_takeNotice {bb : Bool} {q0 : State} (s : State) (kind : BitVec 2) (fplan : BitVec 16) (hs : Keeps bb q0 s) : Keeps bb q0 (State.takeNotice s kind fplan) := by
  unfold State.takeNotice
  (repeat' first
      | with_reducible assumption
      | with_reducible apply keeps_stopIfHeld
      | with_reducible apply keeps_modPlan
      | with_reducible refine keeps_foldl _ (fun _ _ _ => ?_) _ _ ?_
      | split)

theorem keeps_squallRequest {bb : Bool} {q0 : State} (s : State) (hs : Keeps bb q0 s) : Keeps bb q0 (State.squallRequest s) := by
  unfold State.squallRequest
  (repeat' first
      | extract_lets
      | with_reducible assumption
      | with_reducible apply keeps_draw
      | with_reducible apply keeps_reportSquall
      | split)

theorem keeps_openPlans {bb : Bool} {q0 : State} (s : State) (b : DWord) (hs : Keeps bb q0 s) : Keeps bb q0 (State.openPlans s b) := by
  unfold State.openPlans
  (repeat' first
      | with_reducible assumption
      | with_reducible apply keeps_openPlan
      | with_reducible apply keeps_modCp
      | with_reducible refine keeps_foldl _ (fun _ _ _ => ?_) _ _ ?_)

theorem keeps_stopPlans {bb : Bool} {q0 : State} (s : State) (b : DWord) (hs : Keeps bb q0 s) : Keeps bb q0 (State.stopPlans s b) := by
  unfold State.stopPlans
  (repeat' first
      | with_reducible assumption
      | with_reducible apply keeps_trySuspend
      | with_reducible apply keeps_modPlan
      | with_reducible apply keeps_dspRecords
      | with_reducible refine keeps_foldl _ (fun _ _ _ => ?_) _ _ ?_
      | split)

theorem keeps_forceWaits {bb : Bool} {q0 : State} (s : State) (hs : Keeps bb q0 s) : Keeps bb q0 (State.forceWaits s) := by
  unfold State.forceWaits
  (repeat' first
      | with_reducible assumption
      | with_reducible apply keeps_suspendPlan
      | with_reducible refine keeps_foldl _ (fun _ _ _ => ?_) _ _ ?_
      | with_reducible refine keeps_ite (fun _ => ?_) (fun _ => ?_))

theorem keeps_idleCounts {bb : Bool} {q0 : State} (s : State) (hs : Keeps bb q0 s) : Keeps bb q0 (State.idleCounts s) := by
  unfold State.idleCounts
  (repeat' first
      | with_reducible assumption
      | with_reducible apply keeps_idleCount
      | with_reducible refine keeps_foldl _ (fun _ _ _ => ?_) _ _ ?_
      | with_reducible refine keeps_ite (fun _ => ?_) (fun _ => ?_))

theorem keeps_portsBoundary {bb : Bool} {q0 : State} (s : State) (hs : Keeps bb q0 s) : Keeps bb q0 (State.portsBoundary s) := by
  unfold State.portsBoundary
  (repeat' first
      | (extract_lets +onlyGivenNames x; first
          | (with_reducible refine keeps_cut (bb := bb) (r := q0) x ?_ (fun hx => ?_); (on_goal 2 => clear_value x); (on_goal 1 => (unfold x; clear x)))
          )
      | with_reducible assumption
      | with_reducible apply keeps_freeForwarded
      | with_reducible refine keeps_foldl _ (fun _ _ _ => ?_) _ _ ?_
      | (simp only [keeps_mk, kept_eta]; with_reducible assumption))

theorem keeps_openOrHold {bb : Bool} {q0 : State} (s : State) (cause : BitVec 6) (hs : Keeps bb q0 s) : Keeps bb q0 (State.openOrHold s cause) := by
  unfold State.openOrHold
  (repeat' first
      | with_reducible assumption
      | with_reducible apply keeps_openPlans
      | with_reducible refine keeps_ite (fun _ => ?_) (fun _ => ?_)
      | (simp only [keeps_mk, kept_eta, State.modGlb]))

theorem keeps_boundary {q0 : State} (s : State) (p : Pulse) (cycles : Vector Word 64) (hs : Keeps false q0 s) : Keeps false q0 (State.boundary s p cycles) := by
  unfold State.boundary
  (repeat' first
      | with_reducible assumption
      | with_reducible apply keeps_forceWaits
      | with_reducible apply keeps_idleCounts
      | with_reducible apply keeps_closeBeat
      | with_reducible apply keeps_handOver
      | with_reducible apply keeps_takeNotice
      | with_reducible apply keeps_stopPlans
      | with_reducible apply keeps_trySuspend
      | with_reducible apply keeps_switchContexts
      | with_reducible apply keeps_emberExit
      | with_reducible apply keeps_scrubBoundary
      | with_reducible apply keeps_squallRequest
      | with_reducible apply keeps_portsBoundary
      | with_reducible apply keeps_openOrHold
      | with_reducible refine keeps_foldl _ (fun _ _ _ => ?_) _ _ ?_
      | split
      | (simp only [keeps_mk, kept_false, State.modGlb, Glb.takePulse]))

theorem keeps_execBeatBoundary {q0 : State} (cycles : Vector Word 64) (s : State) (hs : Keeps false q0 s) : KeepsOut false q0 (execBeatBoundary cycles s) := by
  unfold execBeatBoundary
  (repeat' first
      | with_reducible assumption
      | with_reducible refine keepsOut_next ?_
      | with_reducible apply keeps_boundary
      | split)

theorem keeps_nextHold {bb : Bool} {q0 : State} (s : State) (mute : Bool) (hs : Keeps bb q0 s) : Keeps bb q0 (State.nextHold s mute) := by
  unfold State.nextHold
  (repeat' first
      | with_reducible assumption
      | split
      | (simp only [keeps_mk, kept_eta]; with_reducible assumption))

theorem keeps_endHold {q0 : State} (s : State) (k : Hold) (rest : List Hold) (hs : Keeps false q0 s) : Keeps false q0 (State.endHold s k rest) := by
  unfold State.endHold
  (repeat' first
      | with_reducible assumption
      | with_reducible apply keeps_reportHold
      | with_reducible apply keeps_nextHold
      | with_reducible apply keeps_openPlans
      | with_reducible refine keeps_ite (fun _ => ?_) (fun _ => ?_)
      | (simp only [keeps_mk, kept_false, State.modGlb]; with_reducible assumption))

theorem keeps_execHoldEnd {q0 : State} (s : State) (hs : Keeps false q0 s) : KeepsOut false q0 (execHoldEnd s) := by
  unfold execHoldEnd
  (repeat' first
      | with_reducible assumption
      | with_reducible refine keepsOut_next ?_
      | with_reducible apply keeps_endHold
      | split)

theorem keeps_cutFlash {bb : Bool} {q0 : State} (s : State) (hs : Keeps bb q0 s) : Keeps bb q0 (State.cutFlash s) := by
  unfold State.cutFlash
  (repeat' first
      | (extract_lets +onlyGivenNames x; first
          | (with_reducible refine keeps_cut2 (bb := bb) (r := q0) x ?_ (fun hx => ?_); (on_goal 2 => clear_value x); (on_goal 1 => (unfold x; clear x)))
          )
      | with_reducible assumption
      | with_reducible apply keeps_draw
      | split
      | (simp only [keeps_mk, kept_eta, State.modPwr]; with_reducible assumption))

theorem keeps_clear {q0 : State} (s : State) (hs : Keeps false q0 s) : Keeps false q0 (State.clear s) := by
  unfold State.clear
  exact ⟨hs.pending, fun _ => rfl, fun _ => Nat.zero_le _, fun _ => Nat.zero_le _, hs.now, hs.floor, fun h => nomatch h⟩

theorem keeps_coldReset {q0 : State} (s : State) (cause : ℕ) (hs : Keeps false q0 s) : Keeps false q0 (State.coldReset s cause) := by
  unfold State.coldReset
  (repeat' first
      | with_reducible assumption
      | with_reducible apply keeps_clear
      | with_reducible apply keeps_cutFlash
      | with_reducible apply keeps_pwrEvent
      | with_reducible refine keeps_ite (fun _ => ?_) (fun _ => ?_)
      | (simp only [keeps_mk, kept_false, State.modGlb]))

theorem keeps_warmReset {q0 : State} (s : State) (cause : ℕ) (hs : Keeps false q0 s) : Keeps false q0 (State.warmReset s cause) := by
  unfold State.warmReset
  have h1 : Keeps false q0 s.cutFlash.clear := keeps_clear _ (keeps_cutFlash _ hs)
  dsimp only
  split
  · refine keeps_pwrEvent _ _ _ _ _ ?_
    exact ⟨h1.pending, h1.hbm, hs.bbl, h1.ev, h1.now, h1.floor, fun h => nomatch h⟩
  · exact ⟨h1.pending, h1.hbm, hs.bbl, h1.ev, h1.now, h1.floor, fun h => nomatch h⟩

theorem keeps_execPowerGood {q0 : State} (s : State) (hs : Keeps false q0 s) : KeepsOut false q0 (execPowerGood s) := by
  unfold execPowerGood
  (repeat' first
      | (extract_lets +onlyGivenNames x; first
          | (with_reducible refine keeps_cut (bb := false) (r := q0) x ?_ (fun hx => ?_); (on_goal 2 => clear_value x); (on_goal 1 => (unfold x; clear x)))
          | (with_reducible refine keeps_cut2 (bb := false) (r := q0) x ?_ (fun hx => ?_); (on_goal 2 => clear_value x); (on_goal 1 => (unfold x; clear x)))
          | (with_reducible refine keeps_isPwr x ?_; unfold x; clear x)
          | clear_value x
          )
      | with_reducible assumption
      | with_reducible refine keepsOut_next ?_
      | with_reducible apply keeps_draw
      | with_reducible apply keeps_coldReset
      | split
      | (simp only [keeps_mk, kept_false]; with_reducible assumption))

theorem keeps_execPowerLoss {q0 : State} (s : State) (hs : Keeps false q0 s) : KeepsOut false q0 (execPowerLoss s) := by
  unfold execPowerLoss
  (repeat' first
      | (extract_lets +onlyGivenNames x; first
          | (with_reducible refine keeps_cut (bb := false) (r := q0) x ?_ (fun hx => ?_); (on_goal 2 => clear_value x); (on_goal 1 => (unfold x; clear x)))
          )
      | with_reducible assumption
      | with_reducible refine keepsOut_next ?_
      | with_reducible apply keeps_clear
      | with_reducible apply keeps_cutFlash
      | (simp only [keeps_mk, kept_false]; with_reducible assumption))

theorem keeps_execThermalTrip {q0 : State} (s : State) (hs : Keeps false q0 s) : KeepsOut false q0 (execThermalTrip s) := by
  unfold execThermalTrip
  (repeat' first
      | (extract_lets +onlyGivenNames x; first
          | (with_reducible refine keeps_cut (bb := false) (r := q0) x ?_ (fun hx => ?_); (on_goal 2 => clear_value x); (on_goal 1 => (unfold x; clear x)))
          )
      | with_reducible assumption
      | with_reducible refine keepsOut_next ?_
      | with_reducible apply keeps_clear
      | with_reducible apply keeps_cutFlash
      | with_reducible refine keepsOut_ite (fun _ => ?_) (fun _ => ?_)
      | (simp only [keeps_mk, kept_false]; with_reducible assumption))

theorem keeps_execColdResetPin {q0 : State} (lowNs : ℕ) (s : State) (hs : Keeps false q0 s) : KeepsOut false q0 (execColdResetPin lowNs s) := by
  unfold execColdResetPin
  (repeat' first
      | (extract_lets +onlyGivenNames x; first
          | (with_reducible refine keeps_cut (bb := false) (r := q0) x ?_ (fun hx => ?_); (on_goal 2 => clear_value x); (on_goal 1 => (unfold x; clear x)))
          )
      | with_reducible assumption
      | with_reducible refine keepsOut_next ?_
      | with_reducible apply keeps_draw
      | with_reducible apply keeps_coldReset
      | with_reducible refine keeps_ite (fun _ => ?_) (fun _ => ?_)
      | with_reducible refine keepsOut_ite (fun _ => ?_) (fun _ => ?_)
      | (simp only [keeps_mk, kept_false]; with_reducible assumption))

theorem keeps_execColdResetRelease {bb : Bool} {q0 : State} (s : State) (hs : Keeps bb q0 s) : KeepsOut bb q0 (execColdResetRelease s) := by
  unfold execColdResetRelease
  (repeat' first
      | with_reducible assumption
      | with_reducible refine keepsOut_next ?_
      | with_reducible refine keepsOut_ite (fun _ => ?_) (fun _ => ?_)
      | (simp only [keeps_mk, kept_eta]; with_reducible assumption))

theorem keeps_execPerst {q0 : State} (s : State) (hs : Keeps false q0 s) : KeepsOut false q0 (execPerst s) := by
  unfold execPerst
  (repeat' first
      | (extract_lets +onlyGivenNames x; first
          | (with_reducible refine keeps_cut (bb := false) (r := q0) x ?_ (fun hx => ?_); (on_goal 2 => clear_value x); (on_goal 1 => (unfold x; clear x)))
          )
      | with_reducible assumption
      | with_reducible refine keepsOut_next ?_
      | with_reducible apply keeps_warmReset
      | with_reducible refine keeps_ite (fun _ => ?_) (fun _ => ?_)
      | with_reducible refine keepsOut_ite (fun _ => ?_) (fun _ => ?_)
      | (simp only [keeps_mk, kept_false]; with_reducible assumption))

theorem keeps_execPerstRelease {bb : Bool} {q0 : State} (s : State) (hs : Keeps bb q0 s) : KeepsOut bb q0 (execPerstRelease s) := by
  unfold execPerstRelease
  (repeat' first
      | with_reducible assumption
      | with_reducible refine keepsOut_next ?_
      | with_reducible refine keepsOut_ite (fun _ => ?_) (fun _ => ?_)
      | (simp only [keeps_mk, kept_eta, State.modPwr]; with_reducible assumption))

theorem keeps_execFunctionLevelReset {q0 : State} (s : State) (hs : Keeps false q0 s) : KeepsOut false q0 (execFunctionLevelReset s) := by
  unfold execFunctionLevelReset
  (repeat' first
      | with_reducible assumption
      | with_reducible refine keepsOut_next ?_
      | with_reducible apply keeps_warmReset
      | with_reducible refine keepsOut_ite (fun _ => ?_) (fun _ => ?_))

theorem keeps_glbReset {q0 : State} (s : State) (value : Word) (hs : Keeps false q0 s) : Keeps false q0 (State.glbReset s value) := by
  unfold State.glbReset
  (repeat' first
      | with_reducible assumption
      | with_reducible apply keeps_warmReset
      | with_reducible apply keeps_coldReset
      | split)

theorem keeps_resetNow {q0 : State} (s : State) (hs : Keeps false q0 s) : Keeps false q0 (State.resetNow s) := by
  unfold State.resetNow
  (repeat' first
      | with_reducible assumption
      | with_reducible apply keeps_glbReset
      | split
      | (simp only [keeps_mk, kept_false]; with_reducible assumption))

theorem keeps_execGlbResetWarm {q0 : State} (value : Word) (s : State) (hs : Keeps false q0 s) : KeepsOut false q0 (execGlbResetWarm value s) := by
  unfold execGlbResetWarm
  (repeat' first
      | with_reducible assumption
      | with_reducible refine keepsOut_next ?_
      | with_reducible apply keeps_glbReset
      | with_reducible refine keepsOut_ite (fun _ => ?_) (fun _ => ?_))

theorem keeps_execGlbResetCold {q0 : State} (value : Word) (s : State) (hs : Keeps false q0 s) : KeepsOut false q0 (execGlbResetCold value s) := by
  unfold execGlbResetCold
  (repeat' first
      | with_reducible assumption
      | with_reducible refine keepsOut_next ?_
      | with_reducible apply keeps_glbReset
      | with_reducible refine keepsOut_ite (fun _ => ?_) (fun _ => ?_))

theorem keeps_measure {bb : Bool} {q0 : State} (s : State) (b : List Byte) (hs : Keeps bb q0 s) : Keeps bb q0 (State.measure s b) := by
  unfold State.measure
  (repeat' first
      | with_reducible assumption
      | with_reducible apply keeps_modSec)

theorem keeps_selectFirmware {bb : Bool} {q0 : State} (s : State) (hs : Keeps bb q0 s) : Keeps bb q0 (State.selectFirmware s) := by
  unfold State.selectFirmware
  (repeat' first
      | with_reducible assumption
      | with_reducible apply keeps_modCfg
      | with_reducible apply keeps_measure
      | split
      | (simp only [keeps_mk, kept_eta, State.modPwr]))

theorem keeps_putLayout {bb : Bool} {q0 : State} (s : State) (record : Option SetupRec) (hs : Keeps bb q0 s) : Keeps bb q0 (State.putLayout s record) := by
  unfold State.putLayout
  (repeat' first
      | with_reducible assumption
      | with_reducible apply keeps_modSec
      | with_reducible apply keeps_secEvent
      | split)

theorem keeps_applySetup {bb : Bool} {q0 : State} (s : State) (record : Option SetupRec) (hs : Keeps bb q0 s) : Keeps bb q0 (State.applySetup s record) := by
  unfold State.applySetup
  (repeat' first
      | (extract_lets +onlyGivenNames x; first
          | (with_reducible refine keeps_cut (bb := bb) (r := q0) x ?_ (fun hx => ?_); (on_goal 2 => clear_value x); (on_goal 1 => (unfold x; clear x)))
          | clear_value x
          )
      | with_reducible assumption
      | with_reducible apply keeps_modSec
      | with_reducible apply keeps_pwrEvent
      | with_reducible refine keeps_ite (fun _ => ?_) (fun _ => ?_)
      | (simp only [keeps_mk, kept_eta, State.modPwr]; with_reducible assumption))

theorem keeps_selectSetup {bb : Bool} {q0 : State} (s : State) (hs : Keeps bb q0 s) : Keeps bb q0 (State.selectSetup s) := by
  unfold State.selectSetup
  (repeat' first
      | with_reducible assumption
      | with_reducible apply keeps_putLayout
      | with_reducible apply keeps_applySetup
      | (simp only [keeps_mk, kept_eta, State.modPwr]; with_reducible assumption))

theorem keeps_loadHardened {bb : Bool} {q0 : State} (s : State) (hs : Keeps bb q0 s) : Keeps bb q0 (State.loadHardened s) := by
  unfold State.loadHardened
  (repeat' first
      | with_reducible assumption
      | with_reducible apply keeps_captureConduits
      | with_reducible apply keeps_modCfg
      | (simp only [keeps_mk, kept_eta]; with_reducible assumption))

theorem keeps_startEmber {bb : Bool} {q0 : State} (s : State) (hs : Keeps bb q0 s) : Keeps bb q0 (State.startEmber s) := by
  unfold State.startEmber
  (repeat' first
      | (extract_lets +onlyGivenNames x; first
          | (with_reducible refine keeps_cut (bb := bb) (r := q0) x ?_ (fun hx => ?_); (on_goal 2 => clear_value x); (on_goal 1 => (unfold x; clear x)))
          )
      | with_reducible assumption
      | with_reducible apply keeps_loadHardened
      | with_reducible apply keeps_stepRails
      | (simp only [keeps_mk, kept_eta, State.modPwr]; with_reducible assumption))

theorem keeps_startMemory {bb : Bool} {q0 : State} (s : State) (hs : Keeps bb q0 s) : Keeps bb q0 (State.startMemory s) := by
  unfold State.startMemory
  (repeat' first
      | (simp only [keeps_mk, kept_eta, State.modPwr]; with_reducible assumption))

theorem keeps_startLanes {bb : Bool} {q0 : State} (s : State) (hs : Keeps bb q0 s) : Keeps bb q0 (State.startLanes s) := by
  unfold State.startLanes
  (repeat' first
      | (simp only [keeps_mk, kept_eta, State.modPwr]; with_reducible assumption))

theorem keeps_flashRecords {bb : Bool} {q0 : State} (s : State) (b : List Byte) (a : List ℕ) (hs : Keeps bb q0 s) : Keeps bb q0 (State.flashRecords s b a) := by
  induction a generalizing s with
  | nil => unfold State.flashRecords; (repeat' first
      | assumption)
  | cons y ys ih => unfold State.flashRecords; (repeat' first
      | with_reducible assumption
      | with_reducible apply ih
      | with_reducible apply keeps_settle
      | with_reducible apply keeps_loadRecord
      | split)

theorem keeps_flashLoad {bb : Bool} {q0 : State} (s : State) (b : List Byte) (hs : Keeps bb q0 s) : Keeps bb q0 (State.flashLoad s b) := by
  unfold State.flashLoad
  (repeat' first
      | (extract_lets +onlyGivenNames x; first
          | (with_reducible refine keeps_cut (bb := bb) (r := q0) x ?_ (fun hx => ?_); (on_goal 2 => clear_value x); (on_goal 1 => (unfold x; clear x)))
          | clear_value x
          )
      | with_reducible assumption
      | with_reducible apply keeps_beginLoad
      | with_reducible apply keeps_flashRecords
      | with_reducible apply keeps_loadTrailer
      | split)

theorem keeps_tryLogic {bb : Bool} {q0 : State} (s : State) (slot : Fin 3) (hs : Keeps bb q0 s) : Keeps bb q0 (State.tryLogic s slot).1 := by
  unfold State.tryLogic
  (repeat' first
      | with_reducible assumption
      | with_reducible apply keeps_flashLoad
      | split)

theorem keeps_putLogicSlot {bb : Bool} {q0 : State} (s : State) (k : ℕ) (hs : Keeps bb q0 s) : Keeps bb q0 (State.putLogicSlot s k) := by
  unfold State.putLogicSlot
  (repeat' first
      | with_reducible assumption
      | with_reducible apply keeps_modCfg)

theorem keeps_selectLogic {bb : Bool} {q0 : State} (s : State) (hs : Keeps bb q0 s) : Keeps bb q0 (State.selectLogic s) := by
  unfold State.selectLogic
  (repeat' first
      | (extract_lets +onlyGivenNames x; first
          | (with_reducible refine keeps_cut (bb := bb) (r := q0) x ?_ (fun hx => ?_); (on_goal 2 => clear_value x); (on_goal 1 => (unfold x; clear x)))
          | (with_reducible refine keeps_cut1 (bb := bb) (r := q0) x ?_ (fun hx => ?_); (on_goal 2 => clear_value x); (on_goal 1 => (unfold x; clear x)))
          | clear_value x
          )
      | with_reducible assumption
      | with_reducible apply keeps_tryLogic
      | with_reducible apply keeps_putLogicSlot
      | with_reducible apply keeps_cfgEvent
      | with_reducible apply keeps_modRegions
      | split)

theorem keeps_burnSvn {bb : Bool} {q0 : State} (s : State) (hs : Keeps bb q0 s) : Keeps bb q0 (State.burnSvn s) := by
  unfold State.burnSvn
  (repeat' first
      | with_reducible assumption
      | with_reducible apply keeps_modSec
      | with_reducible apply keeps_secEvent
      | with_reducible refine keeps_ite (fun _ => ?_) (fun _ => ?_))

theorem keeps_execBringUpPhase {bb : Bool} {q0 : State} (s : State) (hs : Keeps bb q0 s) : KeepsOut bb q0 (execBringUpPhase s) := by
  unfold execBringUpPhase
  (repeat' first
      | with_reducible assumption
      | with_reducible refine keepsOut_next ?_
      | with_reducible apply keeps_selectFirmware
      | with_reducible apply keeps_startEmber
      | with_reducible apply keeps_selectSetup
      | with_reducible apply keeps_startMemory
      | with_reducible apply keeps_startLanes
      | with_reducible apply keeps_selectLogic
      | with_reducible apply keeps_burnSvn
      | split
      | (simp only [keeps_mk, kept_eta, State.modPwr]))

theorem keeps_streamWrite {bb : Bool} {q0 : State} (s : State) (slot : ℕ → SlotRef) (n : ℕ) (cp : Bool) (off : ℕ) (w : Word) (hs : Keeps bb q0 s) : Keeps bb q0 (State.streamWrite s slot n cp off w) := by
  unfold State.streamWrite
  (repeat' first
      | with_reducible assumption
      | with_reducible apply keeps_after
      | with_reducible apply keeps_execStreamArm
      | with_reducible apply keeps_modStm
      | split)

theorem keeps_calStreamWrite {bb : Bool} {q0 : State} (s : State) (n : Fin 64) (off : ℕ) (w : Word) (hs : Keeps bb q0 s) : Keeps bb q0 (State.calStreamWrite s n off w) := by
  unfold State.calStreamWrite
  (repeat' first
      | with_reducible assumption
      | with_reducible apply keeps_modCal
      | with_reducible apply keeps_streamWrite
      | with_reducible refine keeps_ite (fun _ => ?_) (fun _ => ?_))

theorem keeps_calOwnWrite {bb : Bool} {q0 : State} (s : State) (n : Fin 64) (off : ℕ) (w : Word) (hs : Keeps bb q0 s) : Keeps bb q0 (State.calOwnWrite s n off w) := by
  unfold State.calOwnWrite
  (repeat' first
      | with_reducible assumption
      | with_reducible apply keeps_modCal
      | with_reducible apply keeps_after
      | with_reducible apply keeps_execGate
      | with_reducible apply keeps_execWake
      | with_reducible apply keeps_execPaceMinClr
      | split)

theorem keeps_epWrite {bb : Bool} {q0 : State} (s : State) (off : ℕ) (n : ℕ) (r : ℕ → EpRef) (w : Word) (hs : Keeps bb q0 s) : Keeps bb q0 (State.epWrite s off n r w) := by
  unfold State.epWrite
  (repeat' first
      | with_reducible assumption
      | with_reducible apply keeps_captureConduits
      | with_reducible apply keeps_modEp
      | split)

theorem keeps_hbmWrite {bb : Bool} {q0 : State} (s : State) (k : Fin 8) (off : ℕ) (w : Word) (hs : Keeps bb q0 s) : Keeps bb q0 (State.hbmWrite s k off w) := by
  unfold State.hbmWrite
  (repeat' first
      | with_reducible assumption
      | with_reducible apply keeps_modStack
      | with_reducible apply keeps_watchStack
      | with_reducible apply keeps_after
      | with_reducible apply keeps_execHbmCntClr
      | with_reducible apply keeps_epWrite
      | with_reducible refine keeps_ite (fun _ => ?_) (fun _ => ?_))

theorem keeps_lnkCtlWrite {bb : Bool} {q0 : State} (s : State) (p : Fin 12) (w : Word) (hs : Keeps bb q0 s) : Keeps bb q0 (State.lnkCtlWrite s p w) := by
  unfold State.lnkCtlWrite
  (repeat' first
      | with_reducible assumption
      | with_reducible apply keeps_after
      | with_reducible apply keeps_execLnkEn
      | with_reducible apply keeps_execAdmitPort
      | with_reducible apply keeps_execConf
      | with_reducible apply keeps_modPort
      | with_reducible apply keeps_execFullTrain
      | with_reducible apply keeps_execRetrain
      | with_reducible apply keeps_execClrDegraded
      | with_reducible apply keeps_execLoop
      | with_reducible refine keeps_ite (fun _ => ?_) (fun _ => ?_))

theorem keeps_lnkWrite {bb : Bool} {q0 : State} (s : State) (p : Fin 12) (off : ℕ) (w : Word) (hs : Keeps bb q0 s) : Keeps bb q0 (State.lnkWrite s p off w) := by
  unfold State.lnkWrite
  (repeat' first
      | with_reducible assumption
      | with_reducible apply keeps_modPort
      | with_reducible apply keeps_lnkCtlWrite
      | with_reducible apply keeps_after
      | with_reducible apply keeps_execLnkCntClr
      | with_reducible apply keeps_execPrbsClr
      | with_reducible apply keeps_epWrite
      | with_reducible refine keeps_ite (fun _ => ?_) (fun _ => ?_)
      | split)

theorem keeps_plrWrite {bb : Bool} {q0 : State} (s : State) (r : Fin 16) (off : ℕ) (w : Word) (hs : Keeps bb q0 s) : Keeps bb q0 (State.plrWrite s r off w) := by
  unfold State.plrWrite
  (repeat' first
      | with_reducible assumption
      | with_reducible apply keeps_modRegion
      | with_reducible apply keeps_epWrite
      | with_reducible refine keeps_ite (fun _ => ?_) (fun _ => ?_))

theorem keeps_glbWrite {bb : Bool} {q0 : State} (s : State) (off : ℕ) (w : Word) (hs : Keeps bb q0 s) : Keeps bb q0 (State.glbWrite s off w) := by
  unfold State.glbWrite
  (repeat' first
      | with_reducible assumption
      | with_reducible apply keeps_after
      | with_reducible apply keeps_execBblPop
      | with_reducible apply keeps_execBblClear
      | split
      | (simp only [keeps_mk, kept_eta, State.modGlb]; with_reducible assumption))

theorem keeps_nocWrite {bb : Bool} {q0 : State} (s : State) (die : Fin 2) (off : ℕ) (w : Word) (hs : Keeps bb q0 s) : Keeps bb q0 (State.nocWrite s die off w) := by
  unfold State.nocWrite
  (repeat' first
      | with_reducible assumption
      | with_reducible apply keeps_modNoc
      | with_reducible apply keeps_after
      | with_reducible apply keeps_execTraceClear
      | with_reducible apply keeps_execNocRtWrite
      | split)

theorem keeps_putFabId {bb : Bool} {q0 : State} (s : State) (w : Word) (hs : Keeps bb q0 s) : Keeps bb q0 (State.putFabId s w) := by
  unfold State.putFabId
  (repeat' first
      | with_reducible assumption
      | with_reducible apply keeps_fabEvent
      | with_reducible apply keeps_modFab
      | with_reducible refine keeps_ite (fun _ => ?_) (fun _ => ?_))

theorem keeps_execFabIdWrite {bb : Bool} {q0 : State} (value : Word) (s : State) (hs : Keeps bb q0 s) : KeepsOut bb q0 (execFabIdWrite value s) := by
  unfold execFabIdWrite
  (repeat' first
      | with_reducible assumption
      | with_reducible refine keepsOut_next ?_
      | with_reducible apply keeps_putFabId
      | with_reducible refine keepsOut_ite (fun _ => ?_) (fun _ => ?_))

theorem keeps_fabWrite {bb : Bool} {q0 : State} (s : State) (off : ℕ) (w : Word) (hs : Keeps bb q0 s) : Keeps bb q0 (State.fabWrite s off w) := by
  unfold State.fabWrite
  (repeat' first
      | with_reducible assumption
      | with_reducible apply keeps_modFab
      | with_reducible apply keeps_putFabId
      | with_reducible refine keeps_ite (fun _ => ?_) (fun _ => ?_)
      | split)

theorem keeps_cpWrite {bb : Bool} {q0 : State} (s : State) (off : ℕ) (w : Word) (hs : Keeps bb q0 s) : Keeps bb q0 (State.cpWrite s off w) := by
  unfold State.cpWrite
  (repeat' first
      | with_reducible assumption
      | with_reducible apply keeps_modCp
      | with_reducible apply keeps_modSq
      | with_reducible apply keeps_writeSqCtl
      | with_reducible apply keeps_modCq
      | with_reducible apply keeps_streamWrite
      | split)

theorem keeps_cfgRegWrite {bb : Bool} {q0 : State} (s : State) (off : ℕ) (w : Word) (hs : Keeps bb q0 s) : Keeps bb q0 (State.cfgRegWrite s off w) := by
  unfold State.cfgRegWrite
  (repeat' first
      | with_reducible assumption
      | with_reducible apply keeps_modCfg
      | split)

theorem keeps_secWrite {bb : Bool} {q0 : State} (s : State) (who : Who) (off : ℕ) (w : Word) (hs : Keeps bb q0 s) : Keeps bb q0 (State.secWrite s who off w) := by
  unfold State.secWrite
  (repeat' first
      | with_reducible assumption
      | with_reducible apply keeps_modSec
      | with_reducible apply keeps_partitionReset
      | with_reducible refine keeps_ite (fun _ => ?_) (fun _ => ?_))

theorem keeps_pwrWrite {bb : Bool} {q0 : State} (s : State) (off : ℕ) (w : Word) (hs : Keeps bb q0 s) : Keeps bb q0 (State.pwrWrite s off w) := by
  unfold State.pwrWrite
  (repeat' first
      | with_reducible apply keeps_after
      | with_reducible apply keeps_execEvtPop
      | with_reducible apply keeps_execEvtClear
      | with_reducible refine keeps_ite (fun _ => ?_) (fun _ => ?_)
      | assumption)

theorem keeps_wrDrop {bb : Bool} {q0 : State} (s : State) (n : Fin 64) (hs : Keeps bb q0 s) : ∀ t, State.wrDrop s n = some t → Keeps bb q0 t.1 := by
  intro t h
  unfold State.wrDrop at h
  injection h with h
  subst h
  exact keeps_modCal _ _ _ hs

theorem keeps_wrote {bb : Bool} {q0 : State} (s : State) (hs : Keeps bb q0 s) : ∀ t, wrote s = some t → Keeps bb q0 t.1 := by
  intro t h
  unfold wrote at h
  injection h with h
  subst h
  exact hs

theorem keeps_calWrite {bb : Bool} {q0 : State} (s : State) (n : Fin 64) (off : ℕ) (w : Word) (hs : Keeps bb q0 s) : ∀ t, State.calWrite s n off w = some t → Keeps bb q0 t.1 := by
  unfold State.calWrite
  dsimp only
  (repeat' first
      | with_reducible assumption
      | with_reducible apply keeps_wrDrop
      | with_reducible apply keeps_wrote
      | with_reducible apply keeps_modCal
      | with_reducible apply keeps_captureConduits
      | with_reducible apply keeps_modEp
      | with_reducible apply keeps_calStreamWrite
      | with_reducible apply keeps_calOwnWrite
      | split)

theorem keeps_putWord {bb : Bool} {q0 : State} (s : State) (who : Who) (win : Win) (off : ℕ) (w : Word) (hs : Keeps bb q0 s) : Keeps bb q0 (State.putWord s who win off w).1 := by
  unfold State.putWord
  cases win
  case cal n => exact keeps_getD1 (keeps_calWrite _ _ _ _ hs) hs
  all_goals (repeat' first
      | with_reducible assumption
      | with_reducible apply keeps_glbWrite
      | with_reducible apply keeps_pwrWrite
      | with_reducible apply keeps_secWrite
      | with_reducible apply keeps_cpWrite
      | with_reducible apply keeps_cfgRegWrite
      | with_reducible apply keeps_fabWrite
      | with_reducible apply keeps_nocWrite
      | with_reducible apply keeps_lnkWrite
      | with_reducible apply keeps_hbmWrite
      | with_reducible apply keeps_plrWrite)

theorem keeps_winWrite {bb : Bool} {q0 : State} (s : State) (who : Who) (win : Win) (off : ℕ) (ws : List Word) (hs : Keeps bb q0 s) : Keeps bb q0 (State.winWrite s who win off ws).2 := by
  unfold State.winWrite
  (repeat' first
      | (extract_lets +onlyGivenNames x; first
          | (with_reducible refine keeps_cut1 (bb := bb) (r := q0) x ?_ (fun hx => ?_); (on_goal 2 => clear_value x); (on_goal 1 => (unfold x; clear x)))
          | (with_reducible refine keeps_cut2 (bb := bb) (r := q0) x ?_ (fun hx => ?_); (on_goal 2 => clear_value x); (on_goal 1 => (unfold x; clear x)))
          | clear_value x
          )
      | with_reducible assumption
      | with_reducible apply keeps_putWord
      | with_reducible refine keeps_foldl2 _ (fun _ _ _ => ?_) _ _ ?_
      | split)

theorem keeps_afterWrite {q0 : State} (s : State) (status : ℕ) (a : ℕ) (ws : List Word) (hs : Keeps false q0 s) : Keeps false q0 (State.afterWrite s status a ws) := by
  unfold State.afterWrite
  (repeat' first
      | with_reducible assumption
      | with_reducible apply keeps_glbReset
      | with_reducible refine keeps_ite (fun _ => ?_) (fun _ => ?_))

theorem keeps_writeAt {bb : Bool} {q0 : State} (s : State) (who : Who) (a : ℕ) (ws : List Word) (hs : Keeps bb q0 s) : Keeps bb q0 (State.writeAt s who a ws).2 := by
  unfold State.writeAt
  (repeat' first
      | with_reducible assumption
      | with_reducible apply keeps_winWrite
      | split)

theorem keeps_memberAccess {bb : Bool} {q0 : State} (s : State) (j : FanJob) (m : Win) (hs : Keeps bb q0 s) : Keeps bb q0 (State.memberAccess s j m).1 := by
  unfold State.memberAccess
  (repeat' first
      | with_reducible assumption
      | with_reducible apply keeps_winWrite
      | split)

theorem keeps_fanEnd {bb : Bool} {q0 : State} (s : State) (j : FanJob) (hs : Keeps bb q0 s) : Keeps bb q0 (State.fanEnd s j) := by
  unfold State.fanEnd
  (repeat' first
      | with_reducible assumption
      | with_reducible apply keeps_hostOutcome
      | with_reducible apply keeps_respond
      | with_reducible refine keeps_ite (fun _ => ?_) (fun _ => ?_)
      | (simp only [keeps_mk, kept_eta]; with_reducible assumption))

theorem keeps_fanSettle {bb : Bool} {q0 : State} (s : State) (j : FanJob) (hs : Keeps bb q0 s) : Keeps bb q0 (State.fanSettle s j) := by
  unfold State.fanSettle
  (repeat' first
      | with_reducible assumption
      | with_reducible apply keeps_fanEnd
      | with_reducible refine keeps_ite (fun _ => ?_) (fun _ => ?_)
      | (simp only [keeps_mk, kept_eta]; with_reducible assumption))

theorem keeps_fanOne {bb : Bool} {q0 : State} (lost : List Byte) (x : State × FanJob) (m : Win) (hs : Keeps bb q0 x.1) :
    Keeps bb q0 (fanOne lost x m).1 := by
  unfold fanOne
  dsimp only
  repeat' first
    | with_reducible assumption
    | with_reducible exact keeps_modRegion _ _ _ hs
    | with_reducible exact keeps_memberAccess _ _ _ hs
    | split

theorem keeps_fanStart {bb : Bool} {q0 : State} (s : State) (host : Bool) (h : Word) (d : Data256) (lost : List Byte) (hs : Keeps bb q0 s) : Keeps bb q0 (State.fanStart s host h d lost) := by
  unfold State.fanStart
  dsimp only
  repeat' first
    | with_reducible assumption
    | with_reducible apply keeps_fanEnd
    | with_reducible apply keeps_fanSettle
    | with_reducible refine keeps_foldl1 _ (fun _ _ _ => ?_) _ _ ?_
    | (with_reducible apply keeps_fanOne; with_reducible assumption)
    | split

theorem keeps_fanAnswer {bb : Bool} {q0 : State} (s : State) (m : BitVec 9) (p : Word × Data256) (status : ℕ) (value : BitVec 128) (hs : Keeps bb q0 s) : Keeps bb q0 (State.fanAnswer s m p status value) := by
  unfold State.fanAnswer
  (repeat' first
      | with_reducible assumption
      | with_reducible apply keeps_fanSettle
      | split)

theorem keeps_hostUnit {q0 : State} (s : State) (addr : Word) (isRead : Bool) (n : ℕ) (value : DWord) (hs : Keeps false q0 s) : Keeps false q0 (State.hostUnit s addr isRead n value) := by
  unfold State.hostUnit
  (repeat' first
      | with_reducible assumption
      | with_reducible apply keeps_hostOutcome
      | with_reducible apply keeps_writeAt
      | with_reducible apply keeps_afterWrite
      | with_reducible refine keeps_ite (fun _ => ?_) (fun _ => ?_))

theorem keeps_hostAccess {q0 : State} (s : State) (addr : Word) (isRead : Bool) (size : AccessSize) (value : DWord) (hs : Keeps false q0 s) : KeepsOut false q0 (State.hostAccess s addr isRead size value) := by
  unfold State.hostAccess
  (repeat' first
      | with_reducible assumption
      | with_reducible refine keepsOut_next ?_
      | with_reducible apply keeps_execNocRequest
      | with_reducible apply keeps_fanStart
      | with_reducible apply keeps_hostUnit
      | with_reducible refine keepsOut_ite (fun _ => ?_) (fun _ => ?_))

theorem keeps_execRegisterWrite {q0 : State} (addr : Word) (size : AccessSize) (value : DWord) (s : State) (hs : Keeps false q0 s) : KeepsOut false q0 (execRegisterWrite addr size value s) := by
  unfold execRegisterWrite
  (repeat' first
      | with_reducible assumption
      | with_reducible refine keepsOut_next ?_
      | with_reducible apply keeps_hostAccess
      | with_reducible refine keepsOut_ite (fun _ => ?_) (fun _ => ?_))

theorem keeps_execBroadcastWrite {q0 : State} (addr : Word) (size : AccessSize) (value : DWord) (s : State) (hs : Keeps false q0 s) : KeepsOut false q0 (execBroadcastWrite addr size value s) := by
  unfold execBroadcastWrite
  (repeat' first
      | with_reducible assumption
      | with_reducible refine keepsOut_next ?_
      | with_reducible apply keeps_hostAccess
      | with_reducible refine keepsOut_ite (fun _ => ?_) (fun _ => ?_))

theorem keeps_execBroadcastRead {q0 : State} (read : HostRead) (s : State) (hs : Keeps false q0 s) : KeepsOut false q0 (execBroadcastRead read s) := by
  unfold execBroadcastRead
  (repeat' first
      | with_reducible assumption
      | with_reducible refine keepsOut_next ?_
      | with_reducible apply keeps_hostAccess
      | with_reducible apply keeps_emit
      | with_reducible refine keepsOut_ite (fun _ => ?_) (fun _ => ?_))

theorem keeps_loseMember {bb : Bool} {q0 : State} (s : State) (m : BitVec 9) (hs : Keeps bb q0 s) : Keeps bb q0 (State.loseMember s m) := by
  unfold State.loseMember
  (repeat' first
      | with_reducible assumption
      | split
      | (simp only [keeps_mk, kept_eta, State.modGlb]))

theorem keeps_lostWrite {bb : Bool} {q0 : State} (s : State) (j : FanJob) (m : BitVec 9) (hs : Keeps bb q0 s) : Keeps bb q0 (State.lostWrite s j m) := by
  unfold State.lostWrite
  (repeat' first
      | (extract_lets +onlyGivenNames x; first
          | (with_reducible refine keeps_cut2 (bb := bb) (r := q0) x ?_ (fun hx => ?_); (on_goal 2 => clear_value x); (on_goal 1 => (unfold x; clear x)))
          )
      | with_reducible assumption
      | with_reducible apply keeps_draw
      | with_reducible apply keeps_memberAccess
      | split)

theorem keeps_fanExpire {bb : Bool} {q0 : State} (s : State) (j : FanJob) (hs : Keeps bb q0 s) : Keeps bb q0 (State.fanExpire s j) := by
  unfold State.fanExpire
  (repeat' first
      | with_reducible assumption
      | with_reducible apply keeps_loseMember
      | with_reducible apply keeps_lostWrite
      | with_reducible apply keeps_accessFail
      | with_reducible apply keeps_fanEnd
      | with_reducible refine keeps_foldl _ (fun _ _ _ => ?_) _ _ ?_
      | with_reducible refine keeps_ite (fun _ => ?_) (fun _ => ?_))

theorem keeps_execFanoutTimeout {bb : Bool} {q0 : State} (addr : Option Word) (lost : List Byte) (isRead : Bool) (size : AccessSize) (value : DWord) (s : State) (hs : Keeps bb q0 s) : KeepsOut bb q0 (execFanoutTimeout addr lost isRead size value s) := by
  unfold execFanoutTimeout
  (repeat' first
      | (extract_lets +onlyGivenNames x; first
          | clear_value x
          )
      | with_reducible assumption
      | with_reducible refine keepsOut_next ?_
      | with_reducible apply keeps_fanExpire
      | with_reducible apply keeps_fanStart
      | with_reducible apply keeps_modIface
      | split)

theorem keeps_discovered {bb : Bool} {q0 : State} (s : State) (p : BitVec 1920) (hs : Keeps bb q0 s) : Keeps bb q0 (State.discovered s p) := by
  unfold State.discovered
  (repeat' first
      | extract_lets
      | with_reducible assumption
      | with_reducible apply keeps_modFab
      | with_reducible apply keeps_complete
      | with_reducible apply keeps_emit
      | split)

theorem keeps_passProbe {bb : Bool} {q0 : State} (s : State) (arrival : Option (Fin 12)) (port : Fin 12) (f : Data2048) (hs : Keeps bb q0 s) : Keeps bb q0 (State.passProbe s arrival port f) := by
  unfold State.passProbe
  (repeat' first
      | with_reducible assumption
      | with_reducible apply keeps_sendOn
      | with_reducible apply keeps_modFab
      | with_reducible refine keeps_ite (fun _ => ?_) (fun _ => ?_))

theorem keeps_probeBack {bb : Bool} {q0 : State} (s : State) (arrival : Option (Fin 12)) (fl : Data2048) (hs : Keeps bb q0 s) : Keeps bb q0 (State.probeBack s arrival fl) := by
  unfold State.probeBack
  (repeat' first
      | (extract_lets +onlyGivenNames x; first
          | (with_reducible refine keeps_isFun x ?_; unfold x; clear x)
          | clear_value x
          )
      | with_reducible assumption
      | with_reducible apply keeps_modPort
      | with_reducible apply keeps_discovered
      | with_reducible apply keeps_passProbe
      | with_reducible apply keeps_dropProbe
      | split)

theorem keeps_answerProbe {bb : Bool} {q0 : State} (s : State) (p : BitVec 1920) (status : ℕ) (fields : BitVec 1920) (hs : Keeps bb q0 s) : Keeps bb q0 (State.answerProbe s p status fields) := by
  unfold State.answerProbe
  (repeat' first
      | with_reducible assumption
      | with_reducible apply keeps_probeBack)

theorem keeps_probeIdentify {bb : Bool} {q0 : State} (s : State) (p : BitVec 1920) (hs : Keeps bb q0 s) : Keeps bb q0 (State.probeIdentify s p) := by
  unfold State.probeIdentify
  (repeat' first
      | with_reducible assumption
      | with_reducible apply keeps_answerProbe)

theorem keeps_probeRead {bb : Bool} {q0 : State} (s : State) (p : BitVec 1920) (hs : Keeps bb q0 s) : Keeps bb q0 (State.probeRead s p) := by
  unfold State.probeRead
  (repeat' first
      | with_reducible assumption
      | with_reducible apply keeps_answerProbe
      | with_reducible refine keeps_ite (fun _ => ?_) (fun _ => ?_))

theorem keeps_probeWrite {bb : Bool} {q0 : State} (s : State) (p : BitVec 1920) (hs : Keeps bb q0 s) : Keeps bb q0 (State.probeWrite s p) := by
  unfold State.probeWrite
  (repeat' first
      | with_reducible assumption
      | with_reducible apply keeps_answerProbe
      | with_reducible apply keeps_writeAt
      | with_reducible refine keeps_ite (fun _ => ?_) (fun _ => ?_))

theorem keeps_probeSync {q0 : State} (s : State) (p : BitVec 1920) (hs : Keeps false q0 s) : Keeps false q0 (State.probeSync s p) := by
  unfold State.probeSync
  (repeat' first
      | with_reducible assumption
      | with_reducible apply keeps_answerProbe
      | with_reducible apply keeps_fabEvent
      | with_reducible refine keeps_ite (fun _ => ?_) (fun _ => ?_)
      | (simp only [keeps_mk, kept_false, State.modGlb, Glb.loadBeat]; with_reducible assumption))

theorem keeps_probeOp {q0 : State} (s : State) (p : BitVec 1920) (op : ℕ) (hs : Keeps false q0 s) : Keeps false q0 (State.probeOp s p op) := by
  unfold State.probeOp
  (repeat' first
      | with_reducible assumption
      | with_reducible apply keeps_probeIdentify
      | with_reducible apply keeps_probeRead
      | with_reducible apply keeps_probeWrite
      | with_reducible apply keeps_probeSync
      | with_reducible apply keeps_answerProbe
      | with_reducible refine keeps_ite (fun _ => ?_) (fun _ => ?_))

theorem keeps_doProbe {bb : Bool} {q0 : State} (s : State) (mine : ℕ → Bool) (f : State → BitVec 1920 → State) (hs : Keeps bb q0 s) (hf : ∀ t p, Keeps bb q0 t → Keeps bb q0 (f t p)) : KeepsOut bb q0 (State.doProbe s mine f) := by
  unfold State.doProbe
  (repeat' first
      | (extract_lets +onlyGivenNames x; first
          | clear_value x
          )
      | with_reducible assumption
      | with_reducible refine keepsOut_next ?_
      | with_reducible apply hf
      | with_reducible apply keeps_tookFlit
      | split)

theorem keeps_execProbeIdentify {bb : Bool} {q0 : State} (s : State) (hs : Keeps bb q0 s) : KeepsOut bb q0 (execProbeIdentify s) := by
  unfold execProbeIdentify
  (repeat' first
      | with_reducible assumption
      | with_reducible apply keeps_doProbe
      | with_reducible apply keeps_probeIdentify)

theorem keeps_execProbeRead {bb : Bool} {q0 : State} (s : State) (hs : Keeps bb q0 s) : KeepsOut bb q0 (execProbeRead s) := by
  unfold execProbeRead
  (repeat' first
      | with_reducible assumption
      | with_reducible apply keeps_doProbe
      | with_reducible apply keeps_probeRead)

theorem keeps_execProbeWrite {bb : Bool} {q0 : State} (s : State) (hs : Keeps bb q0 s) : KeepsOut bb q0 (execProbeWrite s) := by
  unfold execProbeWrite
  (repeat' first
      | with_reducible assumption
      | with_reducible apply keeps_doProbe
      | with_reducible apply keeps_probeWrite)

theorem keeps_execProbeSync {q0 : State} (s : State) (hs : Keeps false q0 s) : KeepsOut false q0 (execProbeSync s) := by
  unfold execProbeSync
  (repeat' first
      | with_reducible assumption
      | with_reducible apply keeps_doProbe
      | with_reducible apply keeps_probeSync)

theorem keeps_execProbeForward {bb : Bool} {q0 : State} (s : State) (hs : Keeps bb q0 s) : KeepsOut bb q0 (execProbeForward s) := by
  unfold execProbeForward
  (repeat' first
      | (extract_lets +onlyGivenNames x; first
          | clear_value x
          )
      | with_reducible assumption
      | with_reducible refine keepsOut_next ?_
      | with_reducible apply keeps_passProbe
      | with_reducible apply keeps_modFab
      | with_reducible apply keeps_answerProbe
      | with_reducible apply keeps_tookFlit
      | split)

theorem keeps_execProbeRspReceive {bb : Bool} {q0 : State} (s : State) (hs : Keeps bb q0 s) : KeepsOut bb q0 (execProbeRspReceive s) := by
  unfold execProbeRspReceive
  (repeat' first
      | (extract_lets +onlyGivenNames x; clear_value x)
      | with_reducible assumption
      | with_reducible refine keepsOut_next ?_
      | with_reducible apply keeps_modFab
      | with_reducible apply keeps_dropProbe
      | with_reducible apply keeps_probeBack
      | split)

theorem keeps_execFabricDiscover {q0 : State} (cmd : ℕ) (s : State) (hs : Keeps false q0 s) : KeepsOut false q0 (execFabricDiscover cmd s) := by
  unfold execFabricDiscover
  (repeat' first
      | (extract_lets +onlyGivenNames x; first
          | (with_reducible refine keeps_cut (bb := false) (r := q0) x ?_ (fun hx => ?_); (on_goal 2 => clear_value x); (on_goal 1 => (unfold x; clear x)))
          | clear_value x
          )
      | with_reducible assumption
      | with_reducible apply keeps_withCmd
      | with_reducible apply keeps_modFab
      | with_reducible apply keeps_begin
      | with_reducible apply keeps_passProbe
      | with_reducible apply keeps_discovered
      | with_reducible apply keeps_probeOp
      | with_reducible intro _
      | split)

theorem keeps_execDiscoverTimeout {bb : Bool} {q0 : State} (cmd : ℕ) (s : State) (hs : Keeps bb q0 s) : KeepsOut bb q0 (execDiscoverTimeout cmd s) := by
  unfold execDiscoverTimeout
  (repeat' first
      | with_reducible assumption
      | with_reducible refine keepsOut_next ?_
      | with_reducible apply keeps_complete
      | with_reducible apply keeps_modFab
      | split)

theorem keeps_sendMgmt {bb : Bool} {q0 : State} (s : State) (dst : BitVec 10) (p : BitVec 1920) (hs : Keeps bb q0 s) : Keeps bb q0 (State.sendMgmt s dst p) := by
  unfold State.sendMgmt
  (repeat' first
      | with_reducible assumption
      | with_reducible apply keeps_sendTo
      | with_reducible apply keeps_noteRouteDrop
      | with_reducible refine keeps_ite (fun _ => ?_) (fun _ => ?_))

theorem keeps_mcEnd {bb : Bool} {q0 : State} (s : State) (j : MgJob) (hs : Keeps bb q0 s) : Keeps bb q0 (State.mcEnd s j) := by
  unfold State.mcEnd
  (repeat' first
      | (extract_lets +onlyGivenNames x; first
          | (with_reducible refine keeps_cut (bb := bb) (r := q0) x ?_ (fun hx => ?_); (on_goal 2 => clear_value x); (on_goal 1 => (unfold x; clear x)))
          | clear_value x
          )
      | with_reducible assumption
      | with_reducible apply keeps_sendMgmt
      | with_reducible apply keeps_modFab
      | split
      | (simp only [keeps_mk, kept_eta]; with_reducible assumption))

theorem keeps_mcAdvance {bb : Bool} {q0 : State} (a : ℕ) (a2 : State) (ha2 : Keeps bb q0 a2) : Keeps bb q0 (State.mcAdvance a a2) := by
  induction a generalizing a2 with
  | zero => exact ha2
  | succ n ih =>
    have ke : ∀ (s : State) (j : MgJob), Keeps bb q0 s → Keeps bb q0 (s.modFab (fun b => { b with job := some j })) := fun s j h => keeps_modFab _ _ h
    unfold State.mcAdvance
    dsimp only
    repeat' first
      | with_reducible assumption
      | with_reducible apply ih
      | with_reducible apply ke
      | with_reducible apply keeps_mcEnd
      | with_reducible apply keeps_writeAt
      | (with_reducible refine keeps_ended (by assumption) ?_; with_reducible apply keeps_issueNoc)
      | (with_reducible refine keeps_sent (by assumption) ?_; with_reducible apply keeps_issueNoc)
      | split

theorem keeps_mcRun {bb : Bool} {q0 : State} (s : State) (hs : Keeps bb q0 s) : Keeps bb q0 (State.mcRun s) := by
  unfold State.mcRun
  (repeat' first
      | with_reducible assumption
      | with_reducible apply keeps_mcAdvance)

theorem keeps_takeMgmt {bb : Bool} {q0 : State} (s : State) (kind : ℕ) (f : State → Data2048 → State) (hs : Keeps bb q0 s) (hf : ∀ t p, Keeps bb q0 t → Keeps bb q0 (f t p)) : KeepsOut bb q0 (State.takeMgmt s kind f) := by
  unfold State.takeMgmt
  (repeat' first
      | (extract_lets +onlyGivenNames x; first
          | clear_value x
          )
      | with_reducible assumption
      | with_reducible refine keepsOut_next ?_
      | with_reducible apply hf
      | with_reducible apply keeps_tookFlit
      | split)

theorem keeps_regStart {bb : Bool} {q0 : State} (write : Bool) (s : State) (fl : Data2048) (hs : Keeps bb q0 s) : Keeps bb q0 (State.regStart write s fl) := by
  unfold State.regStart
  (repeat' first
      | with_reducible assumption
      | with_reducible apply keeps_sendMgmt
      | with_reducible apply keeps_mcRun
      | with_reducible apply keeps_modFab
      | with_reducible refine keeps_ite (fun _ => ?_) (fun _ => ?_))

theorem keeps_takeReg {bb : Bool} {q0 : State} (s : State) (kind : ℕ) (write : Bool) (hs : Keeps bb q0 s) : KeepsOut bb q0 (State.takeReg s kind write) := by
  unfold State.takeReg
  (repeat' first
      | with_reducible assumption
      | with_reducible refine keepsOut_next ?_
      | with_reducible apply keeps_mcRun
      | with_reducible apply keeps_takeMgmt
      | with_reducible apply keeps_regStart
      | with_reducible refine keepsOut_ite (fun _ => ?_) (fun _ => ?_))

theorem keeps_execMgmtRegRd {bb : Bool} {q0 : State} (s : State) (hs : Keeps bb q0 s) : KeepsOut bb q0 (execMgmtRegRd s) := by
  unfold execMgmtRegRd
  (repeat' first
      | with_reducible assumption
      | with_reducible apply keeps_takeReg)

theorem keeps_execMgmtRegWr {bb : Bool} {q0 : State} (s : State) (hs : Keeps bb q0 s) : KeepsOut bb q0 (execMgmtRegWr s) := by
  unfold execMgmtRegWr
  (repeat' first
      | with_reducible assumption
      | with_reducible apply keeps_takeReg)

theorem keeps_execMgmtRegRsp {bb : Bool} {q0 : State} (s : State) (hs : Keeps bb q0 s) : KeepsOut bb q0 (execMgmtRegRsp s) := by
  unfold execMgmtRegRsp
  (repeat' first
      | with_reducible assumption
      | with_reducible apply keeps_takeMgmt
      | with_reducible apply keeps_modFab
      | with_reducible intro _
      | split)

theorem keeps_execMgmtTimeout {bb : Bool} {q0 : State} (tag : BitVec 10) (s : State) (hs : Keeps bb q0 s) : KeepsOut bb q0 (execMgmtTimeout tag s) := by
  unfold execMgmtTimeout
  (repeat' first
      | with_reducible assumption
      | with_reducible refine keepsOut_next ?_
      | with_reducible apply keeps_modFab
      | split)

theorem keeps_execMgmtEvent {bb : Bool} {q0 : State} (s : State) (hs : Keeps bb q0 s) : KeepsOut bb q0 (execMgmtEvent s) := by
  unfold execMgmtEvent
  (repeat' first
      | with_reducible assumption
      | with_reducible apply keeps_takeMgmt
      | with_reducible apply keeps_modFab
      | with_reducible intro _)

theorem keeps_freeGather {bb : Bool} {q0 : State} (s : State) (ctx : Byte) (fails : List BlockFail) (a : List (ℕ × ℕ × Xlat)) (a5 : List Byte) (hs : Keeps bb q0 s) : Keeps bb q0 (State.freeGather s ctx fails a a5).1 := by
  induction a generalizing s a5 with
  | nil => unfold State.freeGather; (repeat' first
      | assumption)
  | cons y ys ih => unfold State.freeGather; (repeat' first
      | with_reducible assumption
      | with_reducible apply ih
      | with_reducible apply keeps_hubReads
      | split)

theorem keeps_freePut {bb : Bool} {q0 : State} (s : State) (ctx : Byte) (fails : List BlockFail) (a : List (ℕ × ℕ × Xlat)) (a5 : List Byte) (hs : Keeps bb q0 s) : Keeps bb q0 (State.freePut s ctx fails a a5).1 := by
  induction a generalizing s a5 with
  | nil => unfold State.freePut; (repeat' first
      | assumption)
  | cons y ys ih => unfold State.freePut; (repeat' first
      | with_reducible apply ih
      | with_reducible apply keeps_hubWrites
      | split
      | assumption)

theorem keeps_noteRefusal {bb : Bool} {q0 : State} (s : State) (ctx : Byte) (hs : Keeps bb q0 s) : Keeps bb q0 (State.noteRefusal s ctx) := by
  unfold State.noteRefusal
  (repeat' first
      | with_reducible assumption
      | with_reducible apply keeps_modSec)

theorem keeps_freeAnswer {bb : Bool} {q0 : State} (s : State) (fl : Data2048) (status : ℕ) (data : List Byte) (hs : Keeps bb q0 s) : Keeps bb q0 (State.freeAnswer s fl status data) := by
  unfold State.freeAnswer
  (repeat' first
      | with_reducible assumption
      | with_reducible apply keeps_sendTo
      | with_reducible apply keeps_noteRouteDrop
      | with_reducible refine keeps_ite (fun _ => ?_) (fun _ => ?_))

theorem keeps_freeReadAnswer {bb : Bool} {q0 : State} (s : State) (fl : Data2048) (fails : List BlockFail) (parts : List (ℕ × ℕ × Xlat)) (h : List Byte) (hs : Keeps bb q0 s) : Keeps bb q0 (State.freeReadAnswer s fl fails parts h) := by
  unfold State.freeReadAnswer
  (repeat' first
      | extract_lets
      | with_reducible assumption
      | with_reducible apply keeps_freeGather
      | with_reducible apply keeps_freeAnswer
      | split)

theorem keeps_serveFree {bb : Bool} {q0 : State} (s : State) (write : Bool) (io : HostIO) (fails : List BlockFail) (hs : Keeps bb q0 s) : KeepsOut bb q0 (State.serveFree s write io fails) := by
  unfold State.serveFree
  (repeat' first
      | (extract_lets +onlyGivenNames x; first
          | (with_reducible refine keeps_cut (bb := bb) (r := q0) x ?_ (fun hx => ?_); (on_goal 2 => clear_value x); (on_goal 1 => (unfold x; clear x)))
          | (with_reducible refine keeps_cut1 (bb := bb) (r := q0) x ?_ (fun hx => ?_); (on_goal 2 => clear_value x); (on_goal 1 => (unfold x; clear x)))
          | clear_value x
          )
      | with_reducible assumption
      | with_reducible refine keepsOut_next ?_
      | with_reducible apply keeps_tookFlit
      | with_reducible apply keeps_freeAnswer
      | with_reducible apply keeps_noteRefusal
      | with_reducible apply keeps_freePut
      | with_reducible apply keeps_freeReadAnswer
      | split)

theorem keeps_execFreeWr {bb : Bool} {q0 : State} (fails : List BlockFail) (s : State) (hs : Keeps bb q0 s) : KeepsOut bb q0 (execFreeWr fails s) := by
  unfold execFreeWr
  (repeat' first
      | with_reducible assumption
      | with_reducible apply keeps_serveFree)

theorem keeps_execFreeRd {bb : Bool} {q0 : State} (io : HostIO) (fails : List BlockFail) (s : State) (hs : Keeps bb q0 s) : KeepsOut bb q0 (execFreeRd io fails s) := by
  unfold execFreeRd
  (repeat' first
      | with_reducible assumption
      | with_reducible apply keeps_serveFree)

theorem keeps_execFreeRsp {bb : Bool} {q0 : State} (s : State) (hs : Keeps bb q0 s) : KeepsOut bb q0 (execFreeRsp s) := by
  unfold execFreeRsp
  (repeat' first
      | (extract_lets +onlyGivenNames x; first
          | (with_reducible refine keeps_cut (bb := bb) (r := q0) x ?_ (fun hx => ?_); (on_goal 2 => clear_value x); (on_goal 1 => (unfold x; clear x)))
          | clear_value x
          )
      | with_reducible assumption
      | with_reducible refine keepsOut_next ?_
      | with_reducible apply keeps_tookFlit
      | with_reducible apply keeps_modFab
      | with_reducible apply keeps_haltStream
      | with_reducible apply keeps_accepted
      | with_reducible apply keeps_feed
      | split)

theorem keeps_execFreeRspTimeout {bb : Bool} {q0 : State} (tag : BitVec 16) (s : State) (hs : Keeps bb q0 s) : KeepsOut bb q0 (execFreeRspTimeout tag s) := by
  unfold execFreeRspTimeout
  (repeat' first
      | with_reducible assumption
      | with_reducible refine keepsOut_next ?_
      | with_reducible apply keeps_modFab
      | with_reducible apply keeps_haltStream
      | split)

theorem keeps_perform {bb : Bool} {q0 : State} (s : State) (n : BitVec 9) (h : Word) (d : Data256) (hs : Keeps bb q0 s) : Keeps bb q0 (State.perform s n h d).1 := by
  unfold State.perform
  (repeat' first
      | (extract_lets +onlyGivenNames x; first
          | (with_reducible refine keeps_cut (bb := bb) (r := q0) x ?_ (fun hx => ?_); (on_goal 2 => clear_value x); (on_goal 1 => (unfold x; clear x)))
          | (with_reducible refine keeps_cut1 (bb := bb) (r := q0) x ?_ (fun hx => ?_); (on_goal 2 => clear_value x); (on_goal 1 => (unfold x; clear x)))
          | (with_reducible refine keeps_cut2 (bb := bb) (r := q0) x ?_ (fun hx => ?_); (on_goal 2 => clear_value x); (on_goal 1 => (unfold x; clear x)))
          | clear_value x
          )
      | with_reducible assumption
      | with_reducible apply keeps_writeAt
      | with_reducible apply keeps_after
      | with_reducible apply keeps_execCfgWrite
      | with_reducible apply keeps_execCfgRead
      | with_reducible apply keeps_scrubFrame
      | with_reducible apply keeps_noteScrub
      | split)

theorem keeps_resetAfter {bb : Bool} {q0 : State} (s : State) (p : Word × Data256) (status : ℕ) (hs : Keeps bb q0 s) : Keeps bb q0 (State.resetAfter s p status) := by
  unfold State.resetAfter
  (repeat' first
      | with_reducible assumption
      | with_reducible refine keeps_ite (fun _ => ?_) (fun _ => ?_)
      | (simp only [keeps_mk, kept_eta]; with_reducible assumption))

theorem keeps_serveNoc {bb : Bool} {q0 : State} (s : State) (n : BitVec 9) (p : Word × Data256) (hs : Keeps bb q0 s) : Keeps bb q0 (State.serveNoc s n p) := by
  unfold State.serveNoc
  (repeat' first
      | with_reducible assumption
      | with_reducible apply keeps_perform
      | with_reducible apply keeps_resetAfter
      | with_reducible apply keeps_respondBy)

theorem keeps_execNocDeliver {bb : Bool} {q0 : State} (node : BitVec 9) (s : State) (hs : Keeps bb q0 s) : KeepsOut bb q0 (execNocDeliver node s) := by
  unfold execNocDeliver
  (repeat' first
      | (extract_lets +onlyGivenNames x; first
          | (with_reducible refine keeps_isFun x ?_; unfold x; clear x)
          | clear_value x
          )
      | with_reducible assumption
      | with_reducible refine keepsOut_next ?_
      | with_reducible apply keeps_modIface
      | with_reducible apply keeps_respond
      | with_reducible apply keeps_fanStart
      | with_reducible apply keeps_modRegion
      | with_reducible apply keeps_serveNoc
      | split)

theorem keeps_mcAnswered {bb : Bool} {q0 : State} (s : State) (n : BitVec 9) (tag : BitVec 10) (status : ℕ) (value : BitVec 128) (hs : Keeps bb q0 s) : Keeps bb q0 (State.mcAnswered s n tag status value) := by
  unfold State.mcAnswered
  (repeat' first
      | with_reducible assumption
      | with_reducible apply keeps_mcRun
      | with_reducible apply keeps_modFab
      | split)

theorem keeps_endReq {bb : Bool} {q0 : State} (s : State) (n : BitVec 9) (q : NReq) (status : ℕ) (data : Data256) (hs : Keeps bb q0 s) : Keeps bb q0 (State.endReq s n q status data) := by
  unfold State.endReq
  (repeat' first
      | with_reducible assumption
      | with_reducible apply keeps_mcAnswered
      | with_reducible apply keeps_finishReq
      | with_reducible apply keeps_modIface)

theorem keeps_execNocRspReceive {bb : Bool} {q0 : State} (node : BitVec 9) (s : State) (hs : Keeps bb q0 s) : KeepsOut bb q0 (execNocRspReceive node s) := by
  unfold execNocRspReceive
  (repeat' first
      | (extract_lets +onlyGivenNames x; first
          | (with_reducible refine keeps_cut (bb := bb) (r := q0) x ?_ (fun hx => ?_); (on_goal 2 => clear_value x); (on_goal 1 => (unfold x; clear x)))
          | clear_value x
          )
      | with_reducible assumption
      | with_reducible refine keepsOut_next ?_
      | with_reducible apply keeps_modIface
      | with_reducible apply keeps_modNoc
      | with_reducible apply keeps_endReq
      | split)

theorem keeps_execNocTimeoutExpiry {bb : Bool} {q0 : State} (node : BitVec 9) (tag : BitVec 10) (s : State) (hs : Keeps bb q0 s) : KeepsOut bb q0 (execNocTimeoutExpiry node tag s) := by
  unfold execNocTimeoutExpiry
  (repeat' first
      | (extract_lets +onlyGivenNames x; first
          | clear_value x
          )
      | with_reducible assumption
      | with_reducible refine keepsOut_next ?_
      | with_reducible apply keeps_endReq
      | with_reducible apply keeps_modNoc
      | with_reducible apply keeps_modIface
      | split)

theorem keeps_gatewayAnswer {bb : Bool} {q0 : State} (s : State) (r : Fin 16) (p : Word × Data256) (status : ℕ) (data : BitVec 128) (hs : Keeps bb q0 s) : Keeps bb q0 (State.gatewayAnswer s r p status data) := by
  unfold State.gatewayAnswer
  (repeat' first
      | with_reducible assumption
      | with_reducible apply keeps_fanAnswer
      | with_reducible apply keeps_respond
      | with_reducible refine keeps_ite (fun _ => ?_) (fun _ => ?_))

theorem keeps_handPacket {bb : Bool} {q0 : State} (s : State) (r : Fin 16) (mine : Word × Data256 → Bool) (hs : Keeps bb q0 s) : KeepsOut bb q0 (State.handPacket s r mine) := by
  unfold State.handPacket
  (repeat' first
      | with_reducible assumption
      | with_reducible refine keepsOut_next ?_
      | with_reducible apply keeps_modRegion
      | with_reducible apply keeps_gatewayAnswer
      | split)

theorem keeps_execPlPacket {bb : Bool} {q0 : State} (region : Fin 16) (s : State) (hs : Keeps bb q0 s) : KeepsOut bb q0 (execPlPacket region s) := by
  unfold execPlPacket
  (repeat' first
      | with_reducible assumption
      | with_reducible apply keeps_handPacket)

theorem keeps_execPlUserReg {bb : Bool} {q0 : State} (region : Fin 16) (s : State) (hs : Keeps bb q0 s) : KeepsOut bb q0 (execPlUserReg region s) := by
  unfold execPlUserReg
  (repeat' first
      | with_reducible assumption
      | with_reducible apply keeps_handPacket)

theorem keeps_execUserLogicAnswer {bb : Bool} {q0 : State} (region : Fin 16) (status : Byte) (data : BitVec 128) (s : State) (hs : Keeps bb q0 s) : KeepsOut bb q0 (execUserLogicAnswer region status data s) := by
  unfold execUserLogicAnswer
  (repeat' first
      | with_reducible assumption
      | with_reducible refine keepsOut_next ?_
      | with_reducible apply keeps_gatewayAnswer
      | with_reducible apply keeps_modRegion
      | split)

theorem keeps_takeMctp {bb : Bool} {q0 : State} (s : State) (b : List Byte) (back : State → List Byte → State) (hs : Keeps bb q0 s) (hf : ∀ t p, Keeps bb q0 t → Keeps bb q0 (back t p)) : Keeps bb q0 (State.takeMctp s b back) := by
  have he : ∀ (q : Pwr) (b : List Byte), (q.setEid b).evlog = q.evlog := by
    intro q b
    unfold Pwr.setEid
    split <;> rfl
  have h1 : Keeps bb q0 (s.modPwr (fun q => q.setEid b)) :=
    ⟨hs.pending, hs.hbm, hs.bbl, fun h => by simpa only [State.modPwr, he] using hs.ev h, hs.now, hs.floor, hs.beats⟩
  unfold State.takeMctp
  (repeat' first
      | (extract_lets +onlyGivenNames x; first
          | (with_reducible refine keeps_cut (bb := bb) (r := q0) x ?_ (fun hx => ?_); (on_goal 2 => clear_value x); (on_goal 1 => (unfold x; clear x)))
          )
      | with_reducible assumption
      | with_reducible apply keeps_draw
      | with_reducible apply hf
      | with_reducible apply keeps_sendMgmt
      | with_reducible apply keeps_modFab
      | with_reducible refine keeps_foldl _ (fun _ _ _ => ?_) _ _ ?_
      | split
      | (simp only [keeps_mk, kept_eta, State.modPwr]; with_reducible assumption))

theorem keeps_toSideband {bb : Bool} {q0 : State} (s : State) (b : List Byte) (hs : Keeps bb q0 s) : Keeps bb q0 (State.toSideband s b) := by
  unfold State.toSideband
  (repeat' first
      | (simp only [keeps_mk, kept_eta, State.modPwr]; with_reducible assumption))

theorem keeps_execMgmtMctp {bb : Bool} {q0 : State} (s : State) (hs : Keeps bb q0 s) : KeepsOut bb q0 (execMgmtMctp s) := by
  unfold execMgmtMctp
  (repeat' first
      | (extract_lets +onlyGivenNames x; first
          | clear_value x
          )
      | with_reducible assumption
      | with_reducible apply keeps_takeMgmt
      | with_reducible apply keeps_takeMctp
      | with_reducible apply keeps_sendMgmt
      | with_reducible apply keeps_toSideband
      | with_reducible intro _
      | split)

theorem keeps_execSidebandMessage {bb : Bool} {q0 : State} (bytes : List Byte) (s : State) (hs : Keeps bb q0 s) : KeepsOut bb q0 (execSidebandMessage bytes s) := by
  unfold execSidebandMessage
  (repeat' first
      | with_reducible assumption
      | with_reducible refine keepsOut_next ?_
      | with_reducible apply keeps_takeMctp
      | with_reducible apply keeps_toSideband
      | with_reducible apply keeps_sendMgmt
      | split)

theorem keeps_shiftOut {bb : Bool} {q0 : State} (s : State) (w : Word) (hs : Keeps bb q0 s) : Keeps bb q0 (State.shiftOut s w) := by
  unfold State.shiftOut
  (repeat' first
      | (simp only [keeps_mk, kept_eta]; with_reducible assumption))

theorem keeps_execJtagAccess {bb : Bool} {q0 : State} (op : JtagOp) (s : State) (hs : Keeps bb q0 s) : KeepsOut bb q0 (execJtagAccess op s) := by
  unfold execJtagAccess
  (repeat' first
      | (extract_lets +onlyGivenNames x; first
          | (with_reducible refine keeps_cut (bb := bb) (r := q0) x ?_ (fun hx => ?_); (on_goal 2 => clear_value x); (on_goal 1 => (unfold x; clear x)))
          )
      | with_reducible assumption
      | with_reducible refine keepsOut_next ?_
      | with_reducible apply keeps_draw
      | with_reducible apply keeps_shiftOut
      | with_reducible apply keeps_modSec
      | split
      | (simp only [keeps_mk, kept_eta]; with_reducible assumption))

end Sys2Proof.Machine
end

