-- ==== Sys2Proof/Laws/KeepsExec.lean ====
section
/-! SUPPORT. What every command keeps, one case per command. -/

namespace Sys2Proof.Machine

theorem keeps_exec (c : Instr) (s : State) : KeepsOut false s (exec c s) := by
  have h : Keeps false s s := keeps_refl s
  cases c with
  | beatBoundary _ => simp only [exec]; exact keeps_execBeatBoundary _ _ h
  | holdEnd  => simp only [exec]; exact keeps_execHoldEnd _ h
  | geyserBlockSend  => simp only [exec]; exact keeps_execGeyserBlockSend _ h
  | geyserCopySend  => simp only [exec]; exact keeps_execGeyserCopySend _ h
  | pulseEmission  => simp only [exec]; exact keeps_execPulseEmission _ h
  | stretchReceive  => simp only [exec]; exact keeps_execStretchReceive _ h
  | squallReceive  => simp only [exec]; exact keeps_execSquallReceive _ h
  | geyserReceive _ _ => simp only [exec]; exact keeps_execGeyserReceive _ _ _ h
  | geyserTimeout  => simp only [exec]; exact keeps_execGeyserTimeout _ h
  | wload _ _ => simp only [exec]; exact keeps_execWload _ _ _ h
  | wloadComplete _ _ _ => simp only [exec]; exact keeps_execWloadComplete _ _ _ _ h
  | relay _ _ => simp only [exec]; exact keeps_execRelay _ _ _ h
  | relayGranule _ _ => simp only [exec]; exact keeps_execRelayGranule _ _ _ h
  | passIssue _ _ => simp only [exec]; exact keeps_execPassIssue _ _ _ h
  | rowAdmit _ _ => simp only [exec]; exact keeps_execRowAdmit _ _ _ h
  | drainBlock _ _ => simp only [exec]; exact keeps_execDrainBlock _ _ _ h
  | passCommit _ _ => simp only [exec]; exact keeps_execPassCommit _ _ _ h
  | preemptWaitExpiry _ => simp only [exec]; exact keeps_execPreemptWaitExpiry _ _ h
  | sarm _ => simp only [exec]; exact keeps_execSarm _ _ h
  | zeroingComplete _ => simp only [exec]; exact keeps_execZeroingComplete _ _ h
  | gate _ _ => simp only [exec]; exact keeps_execGate _ _ _ h
  | gateEffect _ => simp only [exec]; exact keeps_execGateEffect _ _ h
  | wake _ => simp only [exec]; exact keeps_execWake _ _ h
  | wakePowerOn _ => simp only [exec]; exact keeps_execWakePowerOn _ _ h
  | paceMinClr _ => simp only [exec]; exact keeps_execPaceMinClr _ _ h
  | vld _ => simp only [exec]; exact keeps_execVld _ _ h
  | vst _ => simp only [exec]; exact keeps_execVst _ _ h
  | vadd _ => simp only [exec]; exact keeps_execVadd _ _ h
  | vsub _ => simp only [exec]; exact keeps_execVsub _ _ h
  | vmul _ => simp only [exec]; exact keeps_execVmul _ _ h
  | vfma _ => simp only [exec]; exact keeps_execVfma _ _ h
  | vmax _ => simp only [exec]; exact keeps_execVmax _ _ h
  | vmin _ => simp only [exec]; exact keeps_execVmin _ _ h
  | vcmul _ => simp only [exec]; exact keeps_execVcmul _ _ h
  | vrsum _ => simp only [exec]; exact keeps_execVrsum _ _ h
  | vrmax _ => simp only [exec]; exact keeps_execVrmax _ _ h
  | vexp _ => simp only [exec]; exact keeps_execVexp _ _ h
  | vlog _ => simp only [exec]; exact keeps_execVlog _ _ h
  | vrsqrt _ => simp only [exec]; exact keeps_execVrsqrt _ _ h
  | vrcp _ => simp only [exec]; exact keeps_execVrcp _ _ h
  | vsigm _ => simp only [exec]; exact keeps_execVsigm _ _ h
  | vtanh _ => simp only [exec]; exact keeps_execVtanh _ _ h
  | vcvti _ => simp only [exec]; exact keeps_execVcvti _ _ h
  | vcvto _ => simp only [exec]; exact keeps_execVcvto _ _ h
  | vsrchmax _ => simp only [exec]; exact keeps_execVsrchmax _ _ h
  | vsrchmin _ => simp only [exec]; exact keeps_execVsrchmin _ _ h
  | chkf _ => simp only [exec]; exact keeps_execChkf _ _ h
  | agset _ => simp only [exec]; exact keeps_execAgset _ _ h
  | wbeat _ => simp only [exec]; exact keeps_execWbeat _ _ h
  | wdrain _ => simp only [exec]; exact keeps_execWdrain _ _ h
  | dspEnd _ => simp only [exec]; exact keeps_execDspEnd _ _ h
  | dspSeedWrite _ _ => simp only [exec]; exact keeps_execDspSeedWrite _ _ _ h
  | chkData8 _ _ => simp only [exec]; exact keeps_execChkData8 _ _ _ h
  | chkData16 _ _ => simp only [exec]; exact keeps_execChkData16 _ _ _ h
  | chkData32 _ _ => simp only [exec]; exact keeps_execChkData32 _ _ _ h
  | chkStart _ _ => simp only [exec]; exact keeps_execChkStart _ _ _ h
  | chkFeed _ => simp only [exec]; exact keeps_execChkFeed _ _ h
  | chkSnoopBlock _ _ _ _ => simp only [exec]; exact keeps_execChkSnoopBlock _ _ _ _ _ h
  | xlogPop _ => simp only [exec]; exact keeps_execXlogPop _ _ h
  | xlogClear _ => simp only [exec]; exact keeps_execXlogClear _ _ h
  | streamArm _ _ => simp only [exec]; exact keeps_execStreamArm _ _ _ h
  | armingComplete _ => simp only [exec]; exact keeps_execArmingComplete _ _ h
  | demandFill _ _ _ => simp only [exec]; exact keeps_execDemandFill _ _ _ _ h
  | runAhead _ _ _ => simp only [exec]; exact keeps_execRunAhead _ _ _ _ h
  | streamTransfer _ _ => simp only [exec]; exact keeps_execStreamTransfer _ _ _ h
  | streamWdog _ => simp only [exec]; exact keeps_execStreamWdog _ _ h
  | stagingSlotFree _ _ => simp only [exec]; exact keeps_execStagingSlotFree _ _ _ h
  | nocRequest _ _ _ _ => simp only [exec]; exact keeps_execNocRequest _ _ _ _ _ h
  | nocHop _ _ _ => simp only [exec]; exact keeps_execNocHop _ _ _ _ h
  | nocDeliver _ => simp only [exec]; exact keeps_execNocDeliver _ _ h
  | nocRspReceive _ => simp only [exec]; exact keeps_execNocRspReceive _ _ h
  | nocBusyRetry _ _ => simp only [exec]; exact keeps_execNocBusyRetry _ _ _ h
  | nocTimeoutExpiry _ _ => simp only [exec]; exact keeps_execNocTimeoutExpiry _ _ _ h
  | nocRtWrite die index value => simp only [exec]; exact keeps_execNocRtWrite die index value s h
  | traceClear _ => simp only [exec]; exact keeps_execTraceClear _ _ h
  | conduitWord _ _ _ => simp only [exec]; exact keeps_execConduitWord _ _ _ _ h
  | memRequest _ _ _ => simp only [exec]; exact keeps_execMemRequest _ _ _ _ h
  | memCommandIssue _ _ => simp only [exec]; exact keeps_execMemCommandIssue _ _ _ h
  | memReadReturn _ _ _ _ => simp only [exec]; exact keeps_execMemReadReturn _ _ _ _ _ h
  | memRereadReturn _ _ _ _ => simp only [exec]; exact keeps_execMemRereadReturn _ _ _ _ _ h
  | rowIdleExpiry _ _ _ _ => simp only [exec]; exact keeps_execRowIdleExpiry _ _ _ _ _ h
  | refreshDue _ _ _ => simp only [exec]; exact keeps_execRefreshDue _ _ _ _ h
  | hbmTempPoll _ _ _ => simp only [exec]; exact keeps_execHbmTempPoll _ _ _ _ h
  | stackTraining _ _ => simp only [exec]; exact keeps_execStackTraining _ _ _ h
  | hbmCntClr _ => simp only [exec]; exact keeps_execHbmCntClr _ _ h
  | bblPop  => simp only [exec]; exact keeps_execBblPop _ h
  | bblClear  => simp only [exec]; exact keeps_execBblClear _ h
  | portTraining _ _ => simp only [exec]; exact keeps_execPortTraining _ _ _ h
  | trainingFrame _ _ _ _ _ => simp only [exec]; exact keeps_execTrainingFrame _ _ _ _ _ _ h
  | downRetry _ => simp only [exec]; exact keeps_execDownRetry _ _ h
  | fastRetrain _ _ _ => simp only [exec]; exact keeps_execFastRetrain _ _ _ _ h
  | fastRetrainFail _ => simp only [exec]; exact keeps_execFastRetrainFail _ _ h
  | laneLockLoss _ _ => simp only [exec]; exact keeps_execLaneLockLoss _ _ _ h
  | lnkEn _ _ => simp only [exec]; exact keeps_execLnkEn _ _ _ h
  | admitPort _ _ => simp only [exec]; exact keeps_execAdmitPort _ _ _ h
  | conf _ _ => simp only [exec]; exact keeps_execConf _ _ _ h
  | clrDegraded _ => simp only [exec]; exact keeps_execClrDegraded _ _ h
  | retrain _ => simp only [exec]; exact keeps_execRetrain _ _ h
  | fullTrain _ => simp only [exec]; exact keeps_execFullTrain _ _ h
  | loop _ _ => simp only [exec]; exact keeps_execLoop _ _ _ h
  | prbsClr _ _ => simp only [exec]; exact keeps_execPrbsClr _ _ _ h
  | lnkCntClr _ => simp only [exec]; exact keeps_execLnkCntClr _ _ h
  | fill _ _ _ _ => simp only [exec]; exact keeps_execFill _ _ _ _ _ h
  | align _ _ _ => simp only [exec]; exact keeps_execAlign _ _ _ _ h
  | linkUp _ _ => simp only [exec]; exact keeps_execLinkUp _ _ _ h
  | pres _ _ => simp only [exec]; exact keeps_execPres _ _ _ h
  | presSend _ => simp only [exec]; exact keeps_execPresSend _ _ h
  | presTimeout _ => simp only [exec]; exact keeps_execPresTimeout _ _ h
  | rttReq _ _ => simp only [exec]; exact keeps_execRttReq _ _ _ h
  | rttRsp _ _ => simp only [exec]; exact keeps_execRttRsp _ _ _ h
  | flitTransmit _ => simp only [exec]; exact keeps_execFlitTransmit _ _ h
  | flitReceive _ _ _ => simp only [exec]; exact keeps_execFlitReceive _ _ _ _ h
  | nackRepeat _ => simp only [exec]; exact keeps_execNackRepeat _ _ h
  | creditTimeout _ _ => simp only [exec]; exact keeps_execCreditTimeout _ _ _ h
  | auth _ => simp only [exec]; exact keeps_execAuth _ _ h
  | authTimeout _ => simp only [exec]; exact keeps_execAuthTimeout _ _ h
  | probeForward  => simp only [exec]; exact keeps_execProbeForward _ h
  | probeIdentify  => simp only [exec]; exact keeps_execProbeIdentify _ h
  | probeRead  => simp only [exec]; exact keeps_execProbeRead _ h
  | probeWrite  => simp only [exec]; exact keeps_execProbeWrite _ h
  | probeSync  => simp only [exec]; exact keeps_execProbeSync _ h
  | probeRspReceive  => simp only [exec]; exact keeps_execProbeRspReceive _ h
  | discoverTimeout _ => simp only [exec]; exact keeps_execDiscoverTimeout _ _ h
  | fabIdWrite _ => simp only [exec]; exact keeps_execFabIdWrite _ _ h
  | mgmtRegRd  => simp only [exec]; exact keeps_execMgmtRegRd _ h
  | mgmtRegWr  => simp only [exec]; exact keeps_execMgmtRegWr _ h
  | mgmtRegRsp  => simp only [exec]; exact keeps_execMgmtRegRsp _ h
  | mgmtTimeout _ => simp only [exec]; exact keeps_execMgmtTimeout _ _ h
  | mgmtCfg  => simp only [exec]; exact keeps_execMgmtCfg _ h
  | mgmtMctp  => simp only [exec]; exact keeps_execMgmtMctp _ h
  | mgmtEvent  => simp only [exec]; exact keeps_execMgmtEvent _ h
  | freeWr _ => simp only [exec]; exact keeps_execFreeWr _ _ h
  | freeRd _ _ => simp only [exec]; exact keeps_execFreeRd _ _ _ h
  | freeRsp  => simp only [exec]; exact keeps_execFreeRsp _ h
  | sqTail _ _ => simp only [exec]; exact keeps_execSqTail _ _ _ h
  | cqHead _ _ => simp only [exec]; exact keeps_execCqHead _ _ _ h
  | sqEnable _ _ => simp only [exec]; exact keeps_execSqEnable _ _ _ h
  | sqDisable _ => simp only [exec]; exact keeps_execSqDisable _ _ h
  | cqEnable _ _ => simp only [exec]; exact keeps_execCqEnable _ _ _ h
  | cqDisable _ => simp only [exec]; exact keeps_execCqDisable _ _ h
  | commandFetch _ _ => simp only [exec]; exact keeps_execCommandFetch _ _ _ h
  | commandStart _ => simp only [exec]; exact keeps_execCommandStart _ _ h
  | completionWrite _ => simp only [exec]; exact keeps_execCompletionWrite _ _ h
  | nop _ => simp only [exec]; exact keeps_execNop _ _ h
  | ctxCreate _ => simp only [exec]; exact keeps_execCtxCreate _ _ h
  | ctxDestroy _ => simp only [exec]; exact keeps_execCtxDestroy _ _ h
  | mapPages _ _ => simp only [exec]; exact keeps_execMapPages _ _ _ h
  | unmapPages _ => simp only [exec]; exact keeps_execUnmapPages _ _ h
  | unmapDrainDone _ => simp only [exec]; exact keeps_execUnmapDrainDone _ _ h
  | loadPlan _ _ => simp only [exec]; exact keeps_execLoadPlan _ _ _ h
  | runPlan _ _ => simp only [exec]; exact keeps_execRunPlan _ _ _ h
  | abort _ => simp only [exec]; exact keeps_execAbort _ _ h
  | resume _ => simp only [exec]; exact keeps_execResume _ _ h
  | copy _ => simp only [exec]; exact keeps_execCopy _ _ h
  | loadLogic _ _ => simp only [exec]; exact keeps_execLoadLogic _ _ _ h
  | loadRegion _ _ => simp only [exec]; exact keeps_execLoadRegion _ _ _ h
  | frameRecord _ => simp only [exec]; exact keeps_execFrameRecord _ _ h
  | loadCommit _ => simp only [exec]; exact keeps_execLoadCommit _ _ h
  | cfgStreamTimeout  => simp only [exec]; exact keeps_execCfgStreamTimeout _ h
  | attest _ => simp only [exec]; exact keeps_execAttest _ _ h
  | attestHoldTimeout _ => simp only [exec]; exact keeps_execAttestHoldTimeout _ _ h
  | keyImport _ _ => simp only [exec]; exact keeps_execKeyImport _ _ _ h
  | fabricDiscover _ => simp only [exec]; exact keeps_execFabricDiscover _ _ h
  | fabricRouteSet _ _ => simp only [exec]; exact keeps_execFabricRouteSet _ _ _ h
  | geyserSet _ => simp only [exec]; exact keeps_execGeyserSet _ _ h
  | fwUpdateBegin _ => simp only [exec]; exact keeps_execFwUpdateBegin _ _ h
  | fwUpdateData _ _ => simp only [exec]; exact keeps_execFwUpdateData _ _ _ h
  | fwUpdateCommit _ => simp only [exec]; exact keeps_execFwUpdateCommit _ _ h
  | fwUpdateTimeout  => simp only [exec]; exact keeps_execFwUpdateTimeout _ h
  | telemetryRead _ => simp only [exec]; exact keeps_execTelemetryRead _ _ h
  | powerCapSet _ => simp only [exec]; exact keeps_execPowerCapSet _ _ h
  | setupWrite _ _ => simp only [exec]; exact keeps_execSetupWrite _ _ _ h
  | bar4Read _ _ _ _ => simp only [exec]; exact keeps_execBar4Read _ _ _ _ _ h
  | bar4Write _ _ _ => simp only [exec]; exact keeps_execBar4Write _ _ _ _ h
  | registerWrite _ _ _ => simp only [exec]; exact keeps_execRegisterWrite _ _ _ _ h
  | broadcastWrite _ _ _ => simp only [exec]; exact keeps_execBroadcastWrite _ _ _ _ h
  | broadcastRead _ => simp only [exec]; exact keeps_execBroadcastRead _ _ h
  | fanoutTimeout _ _ _ _ _ => simp only [exec]; exact keeps_execFanoutTimeout _ _ _ _ _ _ h
  | doeMessage _ => simp only [exec]; exact keeps_execDoeMessage _ _ h
  | functionLevelReset  => simp only [exec]; exact keeps_execFunctionLevelReset _ h
  | glbResetWarm _ => simp only [exec]; exact keeps_execGlbResetWarm _ _ h
  | glbResetCold _ => simp only [exec]; exact keeps_execGlbResetCold _ _ h
  | partitionReset _ => simp only [exec]; exact keeps_execPartitionReset _ _ h
  | scrubWorkDone _ => simp only [exec]; exact keeps_execScrubWorkDone _ _ h
  | plPacket _ => simp only [exec]; exact keeps_execPlPacket _ _ h
  | plUserReg _ => simp only [exec]; exact keeps_execPlUserReg _ _ h
  | gatewayWord _ _ _ => simp only [exec]; exact keeps_execGatewayWord _ _ _ _ h
  | gwResyncDone _ => simp only [exec]; exact keeps_execGwResyncDone _ _ h
  | pllLock _ => simp only [exec]; exact keeps_execPllLock _ _ h
  | pllUnlock _ => simp only [exec]; exact keeps_execPllUnlock _ _ h
  | cfgWrite _ _ _ => simp only [exec]; exact keeps_execCfgWrite _ _ _ _ h
  | cfgRead _ _ => simp only [exec]; exact keeps_execCfgRead _ _ _ h
  | cfgScrub _ _ _ => simp only [exec]; exact keeps_execCfgScrub _ _ _ _ h
  | fumaroleSweep  => simp only [exec]; exact keeps_execFumaroleSweep _ h
  | hardenedBlockCheck _ _ => simp only [exec]; exact keeps_execHardenedBlockCheck _ _ _ h
  | bringUpPhase  => simp only [exec]; exact keeps_execBringUpPhase _ h
  | capControl _ => simp only [exec]; exact keeps_execCapControl _ _ h
  | ilimStep  => simp only [exec]; exact keeps_execIlimStep _ h
  | squallBegin _ _ => simp only [exec]; exact keeps_execSquallBegin _ _ _ h
  | squallRailStep _ => simp only [exec]; exact keeps_execSquallRailStep _ _ h
  | squallEnd _ => simp only [exec]; exact keeps_execSquallEnd _ _ h
  | thermalTrip  => simp only [exec]; exact keeps_execThermalTrip _ h
  | evtPop  => simp only [exec]; exact keeps_execEvtPop _ h
  | evtClear  => simp only [exec]; exact keeps_execEvtClear _ h
  | telemetrySample _ => simp only [exec]; exact keeps_execTelemetrySample _ _ h
  | avsPoll _ _ _ _ => simp only [exec]; exact keeps_execAvsPoll _ _ _ _ _ h
  | avsRetry _ _ => simp only [exec]; exact keeps_execAvsRetry _ _ _ h
  | sidebandMessage _ => simp only [exec]; exact keeps_execSidebandMessage _ _ h
  | jtagAccess _ => simp only [exec]; exact keeps_execJtagAccess _ _ h
  | powerGood  => simp only [exec]; exact keeps_execPowerGood _ h
  | powerLoss  => simp only [exec]; exact keeps_execPowerLoss _ h
  | coldResetPin _ => simp only [exec]; exact keeps_execColdResetPin _ _ h
  | perst  => simp only [exec]; exact keeps_execPerst _ h
  | freeRspTimeout _ => simp only [exec]; exact keeps_execFreeRspTimeout _ _ h
  | pcieCompletionTimeout _ => simp only [exec]; exact keeps_execPcieCompletionTimeout _ _ h
  | badControlBlock _ _ => simp only [exec]; exact keeps_execBadControlBlock _ _ _ h
  | uncorrectableCodeword _ _ _ => simp only [exec]; exact keeps_execUncorrectableCodeword _ _ _ _ h
  | prbsCheckerLock _ _ _ => simp only [exec]; exact keeps_execPrbsCheckerLock _ _ _ _ h
  | perstRelease  => simp only [exec]; exact keeps_execPerstRelease _ h
  | coldResetRelease  => simp only [exec]; exact keeps_execColdResetRelease _ h
  | userLogicAnswer _ _ _ => simp only [exec]; exact keeps_execUserLogicAnswer _ _ _ _ h
  | flashOperationDone _ => simp only [exec]; exact keeps_execFlashOperationDone _ _ h

end Sys2Proof.Machine
end

