-- ==== Sys2Proof/Tests/Slice0.lean ====
section
/-! SUPPORT. Tests: ill-formed commands, the spec's worked examples, single steps, and for each statement
a small state in which its hypotheses hold together, clause by clause. -/

open Sys2Proof Sys2Proof.Machine

namespace Sys2Proof.Tests

-- One theorem after the other: what the kernel evaluates here is held in memory one at a time.
set_option Elab.async false

/-! ### Small states for the witnesses -/

/-- A word from pairs of a bit place and a value. -/
def bits (n : Nat) (l : List (Nat × Nat)) : BitVec n := BitVec.ofNat n (l.foldl (fun a e => a ||| e.2 <<< e.1) 0)
/-- The state after reset in full service, in lifecycle state PRODUCTION. -/
def ws : State := { State.reset with
  pwr := { State.reset.pwr with phase := 9 }
  cp := { State.reset.cp with ember := false }
  sec := { State.reset.sec with lifecycle := 2, svn := 0 } }
/-- Full service with one caldera changed. -/
def wc (n : Fin 64) (f : Caldera → Caldera) : State := ws.modCal n f
/-- Full service with one port changed. -/
def wq (n : Fin 12) (f : Port → Port) : State := ws.modPort n f
/-- Full service with one stack changed. -/
def wk (n : Fin 8) (f : Stack → Stack) : State := ws.modStack n f
/-- A plan of context 0 on every caldera, its beat 1 of 4 open. -/
def wpl : Plan := { handle := 1, ctx := 0, cals := 0xFFFFFFFFFFFFFFFF, beats := 4, beat := 1, run := .running }
/-- The state with that plan. -/
def wrun (s : State) : State := { s with plans := [wpl] }
/-- An array pass on array 0 of tile 0: MXFP8 rows of stream 0, one row, one beat, a drain ring of 4,096 bytes. -/
def wap : Data1024 := bits 1024 [(0, 0x21), (12, 1), (20, 10), (112, 1), (160, 0x8000), (192, 0x1000), (256, 0xFFFFFFFFFFFFFFFF), (512, 0xFFFFFFFFFFFFFFFF)]
/-- A caldera in which that pass may issue: its weights are READY and one row is staged. -/
def wpass (c : Caldera) : Caldera := { c with
  queue := [{ beat := 1, raw := wap }]
  arrs := vmod c.arrs 0 (fun a => { a with slotA := { st := .ready } })
  streams := vmod c.streams 0 (fun t => { t with st := .armed })
  stgShape := 1
  pool := [{ idx := 0, owner := 0, demand := true, order := 0, pos := 0, len := 66 }] }
/-- The pass once issued. -/
def wps : Pass := { raw := wap, handle := 1, issueBeat := 1, dueBeat := 1 }
/-- A running plan, and one DSP instruction at the unit's program counter. -/
def wdsp (i : Nat) (f : Caldera → Caldera) : State :=
  wrun (wc 3 (fun c => f { c with sram := mwriteN [] 0 (toBytes (BitVec.ofNat 64 i) 8), dsp := { c.dsp with busy := true } }))
/-- A segment of 16 KiB that permits everything. -/
def wseg : DWord := bits 64 [(12, 0xFFF), (24, 0xFFFFFFFFFF)]
/-- A generator that reads stream 0. -/
def wagS : AddrGen := { ctl := 0x20004 }
/-- Caldera 3 with stream slot 0 set. -/
def wst (t : Stream) (f : Caldera → Caldera) : State := wc 3 (fun c => f { c with streams := vmod c.streams 0 (fun _ => t) })
/-- Full service with one request in the queue of a controller. -/
def wch (f : Chan → Chan) : State := wk 2 (fun k => { k with ch := vmod k.ch 1 f })
/-- A request of caldera 3's stream slot 0. -/
def wrq : MemReq := { id := 0, block := 0, write := false, spec := false, first := 0, last := 255, data := 0, port := .rt, who := some (.cal 3 0), ctx := 0, arrived := 0 }
/-- A packet at the router of caldera 10 on die N that is to leave there. -/
def wpk : NPkt := { hdr := mkHeader (calNode 10) pcieNode 3 0, data := 0, die := false, x := 2, y := 3, port := 0 }
/-- A request outstanding with tag 0. -/
def wnq : NReq := { tag := 0, dst := glbNode, hdr := 0, data := 0, since := 0, sent := true }
/-- A response to it with a status. -/
def wrsp (status : Nat) : Word × Data256 := (mkHeader pcieNode glbNode 8 0, rspData 0 0 status 0)
/-- Caldera 3 runs a plan of a context of partition 0; region 0 belongs to partition 1. -/
def wforeign : State := { wrun ws with sec := { ws.sec with
  ctxs := [(0, { part := 0 })]
  parts := vmod ws.sec.parts 1 (fun p => { p with valid := true, regions := 1 }) } }
/-- Full service with a flit delivered at port 0. -/
def win (f : Data2048) : State := { ws with fab := { ws.fab with inbox := [(0, f)] } }
/-- The same with port 0 changed. -/
def winq (f : Data2048) (g : Port → Port) : State := (win f).modPort 0 g
/-- The same with the FAB block changed. -/
def winf (f : Data2048) (g : Fab → Fab) : State := (win f).modFab g
/-- A flit with its check for LINK_ID 0. -/
def wfl (f : Data2048) : Data2048 := f ||| at_ 2048 2016 (flitCheck f 0)
/-- A PROBE, a PROBE_RSP, a MGMT and three FREE flits with a payload. -/
def wpr (l : List (Nat × Nat)) : Data2048 := mkFlit 0 0 2 9 0 false (bits 1920 l)
def wpa (l : List (Nat × Nat)) : Data2048 := mkFlit 0 0 2 10 0 false (bits 1920 l)
def wmg (l : List (Nat × Nat)) : Data2048 := mkFlit 0 0 2 8 0 false (bits 1920 l)
def wfr (ty : Nat) (l : List (Nat × Nat)) : Data2048 := mkFlit 0 0 1 ty 0 false (bits 1920 l)
/-- A delivered FREE flit, a context 0 and a page table. -/
def wfree (f : Data2048) (t : Tbl DWord) : State := { win f with spt := t, sec := { ws.sec with ctxs := [(0, { part := 0 })] } }
/-- An admitted port with one credit on each channel. -/
def wup (q : Port) : Port := { q with st := .admitted, credits := Vector.replicate 4 1 }
/-- Full service with submission ring 63, or completion ring 63, set. -/
def wsq (r : SqRing) : State := { ws with cp := { ws.cp with sq := vmod ws.cp.sq 63 (fun _ => r) } }
def wcq (r : CqRing) : State := { ws with cp := { ws.cp with cq := vmod ws.cp.cq 63 (fun _ => r) } }

/-- A command packet, without and with its check for ring 0, slot 0. -/
def wpkt (op : Nat) (l : List (Nat × Nat)) : Data1024 := bits 1024 ((0, op) :: l)
def wgood (op : Nat) (l : List (Nat × Nat)) : Data1024 :=
  wpkt op l ||| at_ 1024 992 (crc32c (toBytes (wpkt op l) 124 ++ toBytes (0 : Word) 4))
/-- A started command of context 0, number 7 on ring 0. -/
def wcm (op : Nat) (l : List (Nat × Nat)) : Cmd := { serial := 7, ring := 0, slot := 0, packet := wpkt op l, phase := .started }
/-- The same, its effect begun. -/
def wcb (op : Nat) (l : List (Nat × Nat)) : Cmd := { wcm op l with begun := true }
/-- A fetched command with a good check. -/
def wcf (op : Nat) (l : List (Nat × Nat)) : Cmd := { serial := 7, ring := 0, slot := 0, packet := wgood op l, phase := .fetched }
/-- Contexts 0 and 1 of partition 0, the second confidential. -/
def wsec : Sec := { ws.sec with
  ctxs := [(0, { part := 0 }), (1, { part := 0, conf := true })]
  parts := vmod ws.sec.parts 0 (fun p => { p with valid := true }) }
/-- Full service with those contexts and one command. -/
def wcs (k : Cmd) : State := { ws with sec := wsec, cp := { ws.cp with cmds := [k], cq := vmod ws.cp.cq 0 (fun r => { r with en := true }) } }
/-- The device powered, PERST# high, in a phase of bring-up. -/
def wph (n : BitVec 4) : State := { ws with pins := { pwrOk := true, perstN := true }, pwr := { ws.pwr with phase := n } }
/-- A suspended RUN_PLAN, number 3, tag 0, beside a command. -/
def wsusp (k : Cmd) : State := { wcs k with cp := { ws.cp with cmds := [k, { wcm 49 [] with serial := 3, phase := .suspended }] } }
/-- A completion for ring 63 that waits, and a state with it. -/
def wcompl : Completion := { cq := 63, serial := 7, ring := 0, tag := 0, status := 0, ctx := 0, beat := 0, irq := false }
def wwait (r : CqRing) : State := { wcq r with cp := { (wcq r).cp with waiting := [wcompl] } }
theorem wtake (s : State) (l : List (Fin 8 × Nat)) : ∀ n, n = 0 → takeFrames s n l = (s, []) := fun _ h => h ▸ rfl
/-- An ABORT of tag 5. -/
def wab : Cmd := wcf 50 [(128, 5)]
/-- A fetched NOP with tag 5. -/
def wtgt : Cmd := { serial := 3, ring := 0, slot := 0, packet := wpkt 1 [(32, 5)], phase := .fetched }
/-- A plan image of 64 bytes without sections, for caldera 0, with one beat. -/
def wimg0 : BitVec 512 := bits 512 [(0, 0x4C505642), (32, 1), (64, 1), (128, 1), (192, 1), (256, 64)]
def wimg : List Byte := toBytes (wimg0 ||| at_ 512 288 (crc32c (toBytes wimg0 64))) 64
/-- A LOAD_PLAN of it. -/
def wld : Cmd := wcm 48 [(128, 1), (256, 64)]
/-- The state for it: partition 0 has caldera 0. -/
def wlds : State := { wcs wld with sec := { wsec with parts := vmod wsec.parts 0 (fun p => { p with cals := 1 }) } }
/-- A started command of context 1, which is confidential. -/
def wkey : Cmd := wcm 97 [(24, 1)]
/-- A FABRIC_DISCOVER of one hop through port 0, and its state with that port up. -/
def wdis : Cmd := wcm 112 [(132, 1)]
def wdiss : State := { wcs wdis with ports := (wq 0 wup).ports }
def wdisp : BitVec 1920 := putFld (at_ 1920 0 (rfld wdis.packet 16 0 384 : BitVec 384)) 256 wdiss.glb.beatCnt
/-- Powered, PERST# high, in service. -/
def wr : State := wph 9
/-- The BAR4 window open on context 0, and a page table. -/
def wbar (t : Tbl DWord) : State := { wcs (wcm 1 []) with spt := t, cp := { ws.cp with bar4En := true } }
/-- A load with one frame record to come, and the state with it. -/
def wload : Load := { full := false, region := 15, source := 0, length := 808, frames := 1 }
def wlo (l : Load) : State := { ws with cfg := { ws.cfg with load := some l } }
/-- Its trailer. -/
def wtr0 : BitVec 256 := bits 256 [(0, 0x444E4546), (32, 1), (64, 808)]
def wtr : List Byte := toBytes (wtr0 ||| at_ 256 224 (crc32c (toBytes wtr0 28))) 32
/-- A LOAD_REGION of region 15, and its state with the region in partition 0. -/
def wlr : Cmd := wcm 81 [(128, 15)]
def wlrs : State := { wcs wlr with sec := { wsec with parts := vmod wsec.parts 0 (fun p => { p with regions := 0x8000 }) } }
/-- Region 15 in service with gateway endpoint 15 set, its net's clock running. -/
def wgw (w : GwEp) : State := { ws with
  regions := vmod ws.regions 15 (fun r => { r with cfg := 2, gw := vmod r.gw 15 (fun _ => w) })
  plls := Vector.replicate 8 { locked := true, outDiv := 0x01010101 } }
/-- Region 15 with a packet received. -/
def wrx (cfg : BitVec 3) (h : Word) : State := { ws with regions := vmod ws.regions 15 (fun r => { r with cfg := cfg, rxq := [(h, 0)] }) }
/-- The boot flash with an operation, and an update. -/
def wfls (s : State) (o : Option FlashOp) (x : Option FwUpdate) : State := { s with pwr := { s.pwr with flash := { s.pwr.flash with op := o }, update := x } }
/-- An update of one byte, none of it received. -/
def wupd : FwUpdate := { target := 0, total := 1, lastTick := 0 }
/-- A held ATTEST. -/
def watt : Cmd := { wcf 96 [] with heldSince := some 0 }
def watts (now : Nat) : State := { wcs watt with cp := { (wcs watt).cp with fwOpen := true }, now := now }
/-- A phase with three equal firmware slots of nine bytes that declare an SVN, and blank pointers. -/
def wslots (n : BitVec 4) (svn : Byte) : State := { wph n with pwr := { (wph n).pwr with
  flash := { (wph n).pwr.flash with slots := Vector.replicate 3 (some [0, 0, 0, 0, 0, 0, 0, 0, svn]), ptrs := Vector.replicate 2 { record := 0 } } } }
/-- Rail 12 or a squall of caldera 63. -/
def wrail (x : Rail) : State := { wr with pwr := { wr.pwr with rails := vmod wr.pwr.rails 12 (fun _ => x) } }
def wsq1 (q : Squall) (now : Nat) : State := { wr.modCal 63 (fun c => { c with squall := some q }) with now := now }
/-- A squall that has been calm since tick 0. -/
def wcalm : Squall := { thermal := false, since := 0, entryCurrent := 0, calmSince := some 0 }
/-- A scrub of context 0 that has started. -/
def wscr (late : Bool) : Scrub := { ctxs := [0], part := none, cmd := none, startBeat := some 0, late := late }
def wscrs (late : Bool) : State := { ws with sec := { ws.sec with scrubs := [wscr late] } }
/-- The JTAG port on, in a lifecycle state. -/
def wtap (lc : BitVec 3) : State := { wr with sec := { wr.sec with lifecycle := lc } }
/-- A sideband block write with an MCTP packet to endpoint 8. -/
def wsmb : List Byte := [0x98, 0x0F, 5, 0, 1, 8, 0, 0]
/-- The cap control's state. -/
def wpw (now : Nat) (f : Pwr → Pwr) : State := { wr with now := now, pwr := f wr.pwr }
theorem wfold (l : List Nat) : ∀ b, l.foldl (fun b j => b != (0 : BitVec 4096).getLsbD j) b = b := by
  induction l with
  | nil => exact fun b => rfl
  | cons x t ih => intro b; simp only [List.foldl_cons]; rw [show ((b != (0 : BitVec 4096).getLsbD x)) = b by simp]; exact ih b
theorem wham : hamming 0 = 0 := by
  unfold hamming
  generalize List.zip _ _ = l
  induction l with
  | nil => rfl
  | cons x t ih => simp
theorem wpar : parity (0 : BitVec 4096) = false := by simp [parity, setBits]
theorem wfc : cfgFrameCheck 0 = 0 := by simp only [cfgFrameCheck, wham, wpar]; decide
/-- A REG_RD of one word at GLB_SCRATCH, in progress, its request out under tag 0. -/
def wjob : MgJob := { src := 5, tag := 1, write := false, words := 1, left := [(0x40, 1, [])], status := 0, data := [], asked := some 0, reset := none }
/-- A read of a broadcast window of the host, of the calderas, that one member has still to answer. -/
def wfanj : FanJob := { host := true, hdr := mkHeader glbNode pcieNode 0 0, data := 0x2000000, members := [calNode 0], waiting := [calNode 0], status := 0, value := 0, since := 0 }
/-- Cluster 0's track 0 from its conduit endpoint 0 to endpoint 0 of stack 0, and back from there; each end set as given. -/
def wcon (w : Endpoint → Endpoint) (f : Stack → Stack) : State :=
  (ws.modCal 0 (fun c => { c with xps := [(64, 9), (128, 5)], eps := vmod c.eps 0 w })).modStack 0 f
/-- A note of a word for slot 0 of caldera 3. -/
def wnote : LaneNote := { who := .cal 3 0, pos := 0, len := 64, epoch := 0 }
/-- The check over n zero bytes, each step's value forced before the next. -/
def zrun : Nat → Word → Word
  | 0, c => c
  | n + 1, c => match (crcByte c 0).toNat with
    | 0 => zrun n 0
    | m + 1 => zrun n (BitVec.ofNat 32 (m + 1))
theorem zrun_eq (n : Nat) (c : Word) : zrun n c = (List.replicate n (0 : Byte)).foldl crcByte c := by
  induction n generalizing c with
  | zero => rfl
  | succ n ih =>
    rw [List.replicate_succ, List.foldl_cons, ← ih, zrun]
    split <;> rename_i h
    · rw [BitVec.eq_of_toNat_eq (x := crcByte c 0) (y := 0) h]
    · exact congrArg (zrun n) (by rw [← Nat.succ_eq_add_one, ← h, BitVec.ofNat_toNat, BitVec.setWidth_eq])
/-- A setup image of zeros but for its magic number, its version and its CHECK. -/
def wset : BitVec 32768 := bits 32768 [(0, 0x50555453), (32, 1), (32736, 3888856874)]
theorem wset_bytes : toBytes wset 4092 = toBytes (0x150555453 : DWord) 8 ++ List.replicate 4084 0 := by
  have h : toBytes wset 4092 = toBytes wset 8 ++ (List.range 4084).map (fun i => wset.extractLsb' (8 * (8 + i)) 8) := by
    rw [toBytes, show 4092 = 8 + 4084 from rfl, List.range_add, List.map_append, List.map_map]; rfl
  rw [h, show toBytes wset 8 = toBytes (0x150555453 : DWord) 8 by decide +kernel]
  refine congrArg _ (List.eq_replicate_iff.mpr ⟨by simp, fun b hb => ?_⟩)
  obtain ⟨i, hi, rfl⟩ := List.mem_map.mp hb
  have hi := List.mem_range.mp hi
  have hw : wset.toNat = 2 ^ (8 * (8 + i)) * (2 ^ 8 * (2 ^ (8 * (4083 - i)) * 3888856874)) + 0x150555453 := by
    rw [show wset.toNat = 2 ^ 32736 * 3888856874 + 0x150555453 by decide +kernel, ← Nat.mul_assoc, ← Nat.mul_assoc, ← Nat.pow_add, ← Nat.pow_add,
      show 8 * (8 + i) + 8 + 8 * (4083 - i) = 32736 by omega]
  apply BitVec.eq_of_toNat_eq
  rw [BitVec.extractLsb'_toNat, hw, Nat.shiftRight_eq_div_pow, Nat.mul_add_div (Nat.two_pow_pos _),
    Nat.div_eq_of_lt (Nat.lt_of_lt_of_le (by decide) (Nat.pow_le_pow_right (by decide) (show 64 ≤ 8 * (8 + i) by omega))), Nat.add_zero, Nat.mul_mod_right]
  rfl
theorem wset_sum : suSum wset = suCheck wset := by
  rw [suSum, wset_bytes, crc32c, List.foldl_append, ← zrun_eq]; decide +kernel
theorem wset_good : firstBad (suChecks wset) = none := by
  simp only [suChecks, show putFld wset 64 (0 : Word) = wset by decide +kernel, wset_sum, bne_self_eq_false]; decide +kernel
theorem wneg (x : BitVec 384) : x ≠ ~~~ x := fun h => absurd (congrArg (fun x : BitVec 384 => x.getLsbD 0) h) (by simp)
theorem wsweep (s : State) (l : List Nat) : State.sweepItems { s with cfg := { s.cfg with covered := l } } = s.sweepItems := by
  have h : State.swept { s with cfg := { s.cfg with covered := l } } = s.swept := by funext f; simp only [State.swept]
  simp only [State.sweepItems, h]
/-- A wrapped key for context 1 under the nonce 0, with the base point of P-384, and its state. -/
def wkeyb : List Byte := toBytes (bits 512 [(0, 0x59504B57), (32, 1), (192, 1)]) 64 ++ [4]
  ++ (toBytes (BitVec.ofNat 384 0xAA87CA22BE8B05378EB1C71EF320AD746E1D3B628BA79B9859F741E082542A385502F25DBF55296C3A545E3872760AB7) 48).reverse
  ++ (toBytes (BitVec.ofNat 384 0x3617DE4A96262C6F5D9E98BF9292DC29F8F41DBD289A147CE9DA3113B5F0B8C00A60B1CE1D7E819D7A431D7C90EA0E5F) 48).reverse
  ++ List.replicate 67 0
def wkeys : State := { wcs wkey with sec := { wsec with nonces := [0] }, fab := { ws.fab with uid := 0 } }
theorem wkey_good : ∀ x ∈ keyChecks wkeys wkey.packet wkeyb, x.2 ≠ 212 → x.1 = false := by
  intro x hx h
  simp only [keyChecks, List.mem_cons, List.not_mem_nil, or_false] at hx
  rcases hx with rfl | rfl | rfl | rfl | rfl | rfl | rfl | rfl | rfl | rfl | rfl <;>
    first | exact absurd rfl h | decide +kernel


/-! ### Well-formed commands -/

/-- What a step's next state holds, if it answers one. -/
def next? {α : Type} (o : Out) (f : State → α) : Option α :=
  match o with
  | .next t => some (f t)
  | _ => none
/-- Whether a step stops because its command is ill formed. -/
def isIllFormed : Out → Bool
  | .fault .illFormed => true
  | _ => false

theorem smoke_chkSnoopBlock : (Instr.chkSnoopBlock (.cfg 0) ⟨.shared, []⟩ 0 0).wellFormed = false ∧
    isIllFormed (exec (.chkSnoopBlock (.cfg 0) ⟨.shared, []⟩ 0 0) ws) = true := by decide +kernel
theorem smoke_bar4Read : (Instr.bar4Read 0 0 .none []).wellFormed = false ∧ (Instr.bar4Read 0 4097 .none []).wellFormed = false ∧
    isIllFormed (exec (.bar4Read 0 4097 .none []) ws) = true := by decide +kernel
theorem smoke_bar4Write : (Instr.bar4Write 0 [] []).wellFormed = false ∧ isIllFormed (exec (.bar4Write 0 [] []) ws) = true := by
  decide +kernel
theorem smoke_bar4Write_long : (Instr.bar4Write 0 (List.replicate 4097 0) []).wellFormed = false := by decide +kernel

/-! ### The spec's worked examples -/

/-- The bytes "123456789" of the example under R118. -/
def nine : List Byte := [0x31, 0x32, 0x33, 0x34, 0x35, 0x36, 0x37, 0x38, 0x39]
/-- A check over them. -/
def nineOf (p : CrcParam) : Nat := crcGenFinal p (nine.foldl (crcGenByte p) p.init)

theorem test_check_crc8 : nineOf ⟨8, 0x07, 0, 0, false, false⟩ = 0xF4 := by decide +kernel
theorem test_check_crc16 : nineOf ⟨16, 0x1021, 0xFFFF, 0, false, false⟩ = 0x29B1 := by decide +kernel
theorem test_check_crc32 : nineOf ⟨32, 0x04C11DB7, 0xFFFFFFFF, 0xFFFFFFFF, true, true⟩ = 0xCBF43926 := by decide +kernel
theorem test_check_crc32c : nineOf ⟨32, 0x1EDC6F41, 0xFFFFFFFF, 0xFFFFFFFF, true, true⟩ = 0xE3069283 := by decide +kernel
theorem test_check_crc64 : nineOf ⟨64, 0x42F0E1EBA9EA3693, 2 ^ 64 - 1, 2 ^ 64 - 1, true, true⟩ = 0x995DC9BBDF1939FA := by decide +kernel
theorem test_crc32c_check : crc32c nine = 0xE3069283 := by decide +kernel

/-- The table of worked conversions under R86. -/
theorem test_convert_e2m1 : (fE2M1.convert (fp32 0x40A00000) none false false).code = 6 ∧
    (fE2M1.convert (fp32 0x40200000) none false false).code = 4 ∧
    fE2M1.convert (fp32 0x40E00000) none true false = { code := 7, sat := true } ∧
    (fE2M1.convert (fp32 0x40DCCCCD) none true false).sat = false := by decide +kernel
theorem test_convert_e4m3 : fE4M3.convert (fp32 0x43E60000) none false false = { code := 0x7E } ∧
    fE4M3.convert (fp32 0x43E80000) none false false = { code := 0x7E, sat := true } ∧
    (fE4M3.convert (fp32 0x43E80000) none true false).code = 0x7F ∧
    fE4M3.convert (fp32 0x3A800000) none false false = { code := 0 } ∧
    fE4M3.convert (fp32 0x3B800000) none false true = { code := 0, flush := true } := by decide +kernel
theorem test_convert_e5m2 : fE5M2.convert (fp32 0x47700000) none false false = { code := 0x7B, sat := true } ∧
    fE5M2.convert (fp32 0x47700000) none true false = { code := 0x7C } := by decide +kernel
theorem test_convert_bf16 : (fBF16.convert (fp32 0x3F808000) none false false).code = 0x3F80 ∧
    (fBF16.convert (fp32 0x3F818000) none false false).code = 0x3F82 := by decide +kernel
theorem test_convert_stochastic : xorshift 1 = 0x00042021 ∧
    (fE2M1.convert (fp32 0x40100000) (some 0x00042021) false false).code = 5 := by decide +kernel

/-- Nodes of calderas 12 and 45 and of the command processor, and the header of the example after R177. -/
theorem test_nodes : calNode 12 = 0x070 ∧ calNode 45 = 0x174 ∧ cpNode = 0x0E3 := by decide +kernel
theorem test_header : mkHeader (calNode 45) cpNode 0 (bits 13 [(10, 5)]) = 0xA001C774 := by decide +kernel

/-- The page-table entry of the key stream's example. -/
theorem test_page_entry : spP 0xA01F400307 = true ∧ spCtx 0xA01F400307 = 3 ∧ spPage 0xA01F400307 = 0xA01F400000 := by decide +kernel

/-- The re-arm example's steps 1 to 3: the generation counts, the shadow fills, a third descriptor is refused. -/
theorem test_rearm : (({ gen := 0x14 } : Stream).submit { desc := 1, owner := 0 }).gen = 0x15 ∧
    (((({ gen := 0x14 } : Stream).submit { desc := 1, owner := 0 }).submit { desc := 2, owner := 0 }).submit
      { desc := 3, owner := 0 }).overrun = true := by decide +kernel

/-! ### One step -/

theorem test_idle : next? (step ws) (·.pending) = some [] := by decide +kernel
theorem test_step_takes_the_front : next? (step { ws with pending := [.holdEnd, .evtClear] }) (·.pending) = some [.evtClear] := by
  decide +kernel
/-- GLB_SCRATCH holds what a register write put there, and GLB_IDCODE reads 0x4720_04D7 (R302, R307). -/
theorem test_scratch : next? (exec (.registerWrite 0x40 .b32 5) wr) (fun t => (t.readReg 0x40).2.toNat) = some 5 := by decide +kernel
theorem test_idcode : (wr.readReg 0).2 = 0x472004D7 := by decide +kernel
/-- A completion ring that is not enabled reads full (R268). -/
theorem test_cq_full_after_reset : next? (exec (.cqDisable 0) ws) (fun t => t.cp.cq[(0 : Fin 64)].full) = some true := by decide +kernel
/-- A doorbell at a disabled ring sets DB_ERR (R266). -/
theorem test_doorbell_disabled : next? (exec (.sqTail 0 ⟨1, []⟩) ws) (fun t => t.cp.sq[(0 : Fin 64)].dbErr) = some true := by decide +kernel
/-- The wide read of a broadcast window that is not aligned is answered Unsupported Request (R261). -/
theorem test_unaligned_broadcast : next? (exec (.broadcastRead ⟨0x2000004, .b64⟩) wr) (fun t => t.cp.out.length) = some (wr.cp.out.length + 1) := by
  decide +kernel
/-- A gated caldera wakes, and zeroing follows the wake (R125 to R127). -/
theorem test_wake_zeroes : next? (exec (.wakePowerOn 3) (wc 3 (fun c => { c with waking := true }))) (fun t => t.cals[(3 : Fin 64)].zeroing) = some true := by
  decide +kernel

/-- The hypotheses of StepRunsTheFrontCommand can be met, clause by clause. -/
theorem witness_StepRunsTheFrontCommand :
    (∃ (c : Instr) (rest : List Instr) (s : State),
      s.pending = c :: rest) ∧
    (∃ (s : State),
      s.pending = []) ∧
    (∃ (s : State),
      s.resetDue = none) ∧
    (∃ (s : State) (w : ResetAfter) (v : Word),
      s.resetDue = some (w, v) ∧ ResetAfter.gone s w = false) ∧
    (∃ (s : State) (w : ResetAfter) (v : Word),
      s.resetDue = some (w, v) ∧ ResetAfter.gone s w = true) ∧
    (∃ (s : State) (i : Fin 16),
      s.regions[i].cfg ≠ 2 ∨ s.regions[i].initHeld = true) ∧
    (∃ (s : State),
      (s.plls.any fun p => p.locked) = false) :=
  ⟨⟨.holdEnd, [], { ws with pending := [.holdEnd] }, rfl⟩,
   ⟨ws, rfl⟩,
   ⟨ws, rfl⟩,
   ⟨{ ws with resetDue := some (.rsp pcieNode 0, 1), ifaces := [(pcieNode.toNat, { out := [wnq] })] }, .rsp pcieNode 0, 1, by decide +kernel⟩,
   ⟨{ ws with resetDue := some (.rsp pcieNode 0, 1) }, .rsp pcieNode 0, 1, by decide +kernel⟩,
   ⟨ws, 15, by decide +kernel⟩,
   ⟨ws, by decide +kernel⟩⟩

/-- The hypotheses of CommandsLeaveQueueTimeAndFloor can be met, clause by clause. -/
theorem witness_CommandsLeaveQueueTimeAndFloor :
    ∃ (c : Instr) (s : State) (t : State),
  exec c s = Host.Outcome.next t :=
  ⟨.evtClear, ws, _, rfl⟩

/-- The hypotheses of BeatRegistersChangeOnlyAtBeatCommands can be met, clause by clause. -/
theorem witness_BeatRegistersChangeOnlyAtBeatCommands :
    ∃ (c : Instr) (s : State) (t : State),
  beatCommand c = false ∧ exec c s = Host.Outcome.next t :=
  ⟨.evtClear, ws, _, rfl, rfl⟩

/-- The hypotheses of EveryStepKeepsTheInvariant can be met, clause by clause. -/
theorem witness_EveryStepKeepsTheInvariant :
    ∃ (s : State) (t : State),
  s.Good ∧ step s = Host.Outcome.next t :=
  ⟨{ ws with glb := { ws.glb with floorPace := 850 } }, _, by unfold State.Good; decide, rfl⟩

/-- The hypotheses of BoundariesAndHolds can be met, clause by clause. -/
theorem witness_BoundariesAndHolds :
    (∃ (s : State) (p : Pulse) (ps : List Pulse),
      s.glb.pulses = p :: ps ∧ p.due ≤ s.now ∧ s.running = true) ∧
    (∃ (s : State),
      s.running = false ∨ ∀ (p : Pulse) (ps : List Pulse), s.glb.pulses = p :: ps → s.now < p.due) ∧
    (∃ (s : State) (p : Pulse) (ps : List Pulse),
      s.glb.pulses = p :: ps ∧
      p.due ≤ s.now ∧
        s.running = true ∧ p.handover = none ∧ p.stop = none ∧ s.plans = [] ∧ s.sec.scrubs = [] ∧ s.cp.ember = false ∧ s.glb.holds = []) ∧
    (∃ (s : State) (p : Pulse) (ps : List Pulse) (q : Plan),
      s.glb.pulses = p :: ps ∧
      p.due ≤ s.now ∧
        s.running = true ∧
          p.handover = none ∧
            p.stop = none ∧
              p.load = false ∧
                s.plans = [q] ∧
                  s.sec.scrubs = [] ∧
                    s.cp.ember = false ∧
                      s.glb.holds = [] ∧
                        q.startsAt (s.glb.beatCnt + 1) = true ∧ q.resuming = false ∧ q.beat + 1 < q.beats ∧ s.planWakes q = false) ∧
    (∃ (s : State) (p : Pulse) (ps : List Pulse) (q : Plan),
      s.glb.pulses = p :: ps ∧
      p.due ≤ s.now ∧
        s.running = true ∧
          p.handover = none ∧
            p.stop = none ∧
              p.load = false ∧
                s.plans = [q] ∧
                  s.sec.scrubs = [] ∧
                    s.cp.ember = false ∧
                      s.glb.holds = [] ∧
                        q.startsAt (s.glb.beatCnt + 1) = true ∧ q.resuming = false ∧ q.beat + 1 < q.beats ∧ s.planWakes q = true) ∧
    (∃ (s : State) (p : Pulse) (ps : List Pulse) (q : Plan),
      s.glb.pulses = p :: ps ∧
      p.due ≤ s.now ∧
        s.running = true ∧
          p.handover = none ∧
            p.stop = none ∧
              s.plans = [q] ∧ s.sec.scrubs = [] ∧ s.cp.ember = false ∧ s.glb.holds = [] ∧ q.run = PlanRun.running ∧ q.stopDue = true) ∧
    (∃ (s : State) (q : Plan) (p : Plan),
      s.plans = [q, p] ∧ q.handle ≠ p.handle ∧ s.mayEvict q = true) ∧
    (∃ (s : State) (sc : Scrub),
      s.sec.scrubs = [sc] ∧ sc.startBeat = none ∧ (s.dropFlits sc).scrubReady sc = true) ∧
    (∃ (s : State) (sc : Scrub),
      s.sec.scrubs = [sc] ∧
      sc.startBeat.isSome = true ∧
        sc.late = false ∧ sc.cmd = none ∧ sc.part = none ∧ sc.elapsed s.now = true ∧ s.scrubWorks sc = false ∧ s.scrubImpaired sc = false) ∧
    (∃ (s : State) (sc : Scrub) (e : ℕ × Ctx) (i : Byte),
      s.sec.scrubs = [sc] ∧
      sc.startBeat.isSome = true ∧
        sc.late = false ∧
          sc.cmd = none ∧
            sc.part = none ∧
              sc.elapsed s.now = true ∧ s.scrubWorks sc = false ∧ s.scrubImpaired sc = false ∧ e ∈ s.scrubBoundary.sec.ctxs ∧ i ∈ sc.ctxs) ∧
    (∃ (s : State) (k : Hold) (rest : List Hold),
      s.glb.holds = k :: rest ∧ s.ready k.beat k.quiet = true) ∧
    (∃ (s : State) (k : Hold) (rest : List Hold),
      s.glb.holds = k :: rest ∧ s.ready k.beat k.quiet = false) :=
  ⟨⟨{ wr with glb := { ws.glb with pulses := [{ beat := 1, due := 0, period := 512 }] } }, _, _, rfl, by decide +kernel⟩,
   ⟨ws, Or.inl (by decide +kernel)⟩,
   ⟨{ wr with glb := { ws.glb with pulses := [{ beat := 1, due := 0, period := 512 }] } }, _, _, rfl, by decide +kernel⟩,
   ⟨{ wr with glb := { ws.glb with pulses := [{ beat := 1, due := 0, period := 512 }] }, plans := [{ wpl with run := .waiting, beat := 0 }] }, _, _, { wpl with run := .waiting, beat := 0 }, rfl, by decide +kernel⟩,
   ⟨{ wr.modCal 63 (fun c => { c with waking := true }) with glb := { ws.glb with pulses := [{ beat := 1, due := 0, period := 512 }] }, plans := [{ wpl with run := .waiting, beat := 0 }] }, _, _, { wpl with run := .waiting, beat := 0 }, rfl, by decide +kernel⟩,
   ⟨{ wr with glb := { ws.glb with pulses := [{ beat := 1, due := 0, period := 512 }] }, plans := [{ wpl with stopDue := true }] }, _, _, { wpl with stopDue := true }, rfl, by decide +kernel⟩,
   ⟨{ ws with plans := [{ wpl with run := .suspended }, { wpl with handle := 2, ctx := 1, run := .waiting, resident := false }] }, _, _, rfl, by decide +kernel⟩,
   ⟨{ ws with sec := { ws.sec with scrubs := [{ wscr false with startBeat := none }] } }, _, rfl, by decide +kernel⟩,
   ⟨wscrs false, _, rfl, by decide +kernel⟩,
   ⟨{ wscrs false with sec := { (wscrs false).sec with ctxs := [(0, { part := 0 }), (1, { part := 0 })] } }, wscr false, (1, { part := 0 }), 0, by decide +kernel⟩,
   ⟨{ ws with glb := { ws.glb with holds := [{ beat := 1, since := 0 }] } }, _, _, rfl, by decide +kernel⟩,
   ⟨{ (wrun (wc 3 (fun c => { c with queue := [{ beat := 1, raw := 0x21 }] }))) with glb := { ws.glb with holds := [{ beat := 1, since := 0 }] } }, _, _, rfl, by decide +kernel⟩⟩

/-- The hypotheses of GeyserPulsesAndReports can be met, clause by clause. -/
theorem witness_GeyserPulsesAndReports :
    (∃ (s : State),
      s.running = true ∧
      s.glb.isSource = true ∧
        s.glb.source.announced = none ∧
          s.glb.source.stretchS = 0 ∧
            s.glb.source.squallL = 0 ∧
              s.glb.pulses = [] ∧ s.glb.source.sets = [] ∧ s.glb.source.notices = [] ∧ s.glb.source.lastEmit + s.glb.period.toNat ≤ s.now) ∧
    (∃ (s : State),
      s.running = true ∧ s.glb.isSource = true ∧ (s.glb.pulses.all fun p => (s.heirOf p).isNone) = true ∧ s.glb.nextEmission ≤ s.now) ∧
    (∃ (s : State),
      s.running = false ∨ s.glb.isSource = false ∨ s.now < s.glb.nextEmission ∨ (s.glb.pulses.any fun p => (s.heirOf p).isSome) = true) ∧
    (∃ (s : State),
      s.running = true ∧
      s.glb.isSource = true ∧
        s.fab.outMask ≠ 0 ∧
          s.glb.source.announced = none ∧
            (s.glb.pulses.all fun p => (s.heirOf p).isNone) = true ∧ s.glb.nextEmission ≤ s.now + s.fab.delay.toNat) ∧
    (∃ (s : State) (p : Pulse),
      s.glb.source.announced = some p ∧ s.glb.isSource = true ∧ s.glb.source.secondSent = false ∧ p.due + 16 ≤ s.now + s.fab.delay.toNat) ∧
    (∃ (s : State) (p : Fin 12) (f : Data2048) (rest : List (Fin 12 × Data2048)),
      takeFlit (fun e => flType e.2 == 16) s.fab.inbox = (some (p, f), rest) ∧
      s.glb.isSource = true ∧
        s.heir = none ∧
          s.glb.source.announced = none ∧
            (s.now + if s.fab.outMask = 0 then 0 else s.fab.delay.toNat) < s.glb.nextEmission ∧ bitAt (flPayload f) 112 = false) ∧
    (∃ (s : State) (p : Fin 12) (f : Data2048) (rest : List (Fin 12 × Data2048)),
      takeFlit (fun e => flType e.2 == 17) s.fab.inbox = (some (p, f), rest) ∧
      s.glb.isSource = true ∧
        s.heir = none ∧ s.glb.source.announced = none ∧ (s.now + if s.fab.outMask = 0 then 0 else s.fab.delay.toNat) < s.glb.nextEmission) ∧
    (∃ (s : State),
      (s.fab.inbox.any fun e => flType e.2 == 16) = false) ∧
    (∃ (s : State),
      (s.fab.inbox.any fun e => flType e.2 == 17) = false) ∧
    (∃ (p : Fin 12) (s : State),
      s.ports[p].st = PortState.off) ∧
    (∃ (p : Fin 12) (s : State),
      s.ports[p].st ≠ PortState.off ∧ s.ports[p].loop = 0) ∧
    (∃ (s : State) (u : State) (p : Fin 12) (b : Data256),
      cbType b = 85 ∧
      s.lineIn p (LineItem.ctl b) = (u, true) ∧
        s.ports[p].badLeft = 0 ∧ cbGood b s.ports[p].rxId = true ∧ s.ports[p].carries = true ∧ s.fab.inValid = false) ∧
    (∃ (s : State) (u : State) (p : Fin 12) (b : Data256),
      cbType b = 85 ∧
      s.lineIn p (LineItem.ctl b) = (u, true) ∧
        s.ports[p].badLeft = 0 ∧
          cbGood b s.ports[p].rxId = true ∧
            s.ports[p].carries = true ∧
              s.fab.inValid = true ∧ s.fab.inPort.toNat = ↑p ∧ s.glb.isSource = false ∧ rfld b 4 0 64 = s.glb.lastBeat + 1) ∧
    (∃ (s : State) (u : State) (p : Fin 12) (b : Data256),
      cbType b = 85 ∧ s.lineIn p (LineItem.ctl b) = (u, false)) ∧
    (∃ (s : State),
      s.glb.isSource = false ∧ s.fab.lastGeyser + BitVec.toNat s.fab.geyserTo ≤ s.now ∧ s.plans = []) :=
  ⟨⟨{ wr with now := 512 }, by decide +kernel⟩,
   ⟨{ wr with now := 512 }, by decide +kernel⟩,
   ⟨ws, by decide +kernel⟩,
   ⟨{ wr with fab := { ws.fab with outMask := 1 }, now := 256 }, by decide +kernel⟩,
   ⟨{ ws with glb := { ws.glb with source := { announced := some { beat := 1, due := 512, period := 512 } } }, now := 272 }, _, rfl, by decide +kernel⟩,
   ⟨{ ws with fab := { ws.fab with inbox := [(0, mkFlit 0 0 3 16 0 false 0)] } }, 0, mkFlit 0 0 3 16 0 false 0, [], by decide +kernel⟩,
   ⟨{ ws with fab := { ws.fab with inbox := [(0, mkFlit 0 0 3 17 0 false 0)] } }, 0, mkFlit 0 0 3 17 0 false 0, [], by decide +kernel⟩,
   ⟨ws, by decide +kernel⟩,
   ⟨ws, by decide +kernel⟩,
   ⟨2, wq 2 (fun q => { q with st := .off }), by decide +kernel⟩,
   ⟨2, wq 2 (fun q => { q with st := .admitted }), by decide +kernel⟩,
   ⟨wq 2 (fun q => { q with st := .admitted }), wq 2 (fun q => { q with st := .admitted }), 2, mkBlock 85 0 0, by decide +kernel, rfl, by decide +kernel⟩,
   ⟨{ (wq 2 (fun q => { q with st := .admitted })) with fab := { ws.fab with inValid := true, inPort := 2 }, glb := { ws.glb with isSource := false } }, _, 2, mkBlock 85 (geyserBody { beat := 1, due := 0, period := 512 } 0) 0, by decide +kernel, rfl, by decide +kernel⟩,
   ⟨wq 2 (fun q => { q with loop := 3 }), _, 2, mkBlock 85 0 0, by decide +kernel, rfl⟩,
   ⟨{ ws with glb := { ws.glb with isSource := false }, now := 0x09502F90 }, by decide +kernel⟩⟩

/-- The hypotheses of WeightSlotsAndRelays can be met, clause by clause. -/
theorem witness_WeightSlotsAndRelays :
    (∃ (n : Fin 64) (t : Fin 4) (s : State) (q : QInstr) (i : Fin 16),
      s.cals[n].nextOf t = some q ∧
      opOf q.raw = 34 ∧
        s.mayIssue n t q.beat = true ∧
          i = arrIdx (wlTile q.raw) (Fin.ofNat 4 (wlArray q.raw)) ∧
            ((s.cals[n].arrs[i].slot (wlSlotB q.raw)).st = SlotState.ready ∨ (s.cals[n].arrs[i].slot (wlSlotB q.raw)).st = SlotState.empty)) ∧
    (∃ (n : Fin 64) (t : Fin 4) (s : State) (q : QInstr) (i : Fin 16),
      s.cals[n].nextOf t = some q ∧
      opOf q.raw = 34 ∧
        s.mayIssue n t q.beat = true ∧
          i = arrIdx (wlTile q.raw) (Fin.ofNat 4 (wlArray q.raw)) ∧
            ((s.cals[n].arrs[i].slot (wlSlotB q.raw)).st = SlotState.loading ∨ (s.cals[n].arrs[i].slot (wlSlotB q.raw)).st = SlotState.pinned)) ∧
    (∃ (n : Fin 64) (i : Fin 16) (b : Bool) (s : State),
      (s.cals[n].arrs[i].slot b).st = SlotState.loading ∧ (s.cals[n].arrs[i].slot b).chain = none) ∧
    (∃ (n : Fin 64) (t : Fin 4) (s : State) (q : QInstr) (raw : BitVec 256) (i : Fin 16),
      s.cals[n].nextOf t = some q ∧
      opOf q.raw = 35 ∧
        s.mayIssue n t q.beat = true ∧
          raw = BitVec.setWidth 256 q.raw ∧ i = arrIdx (rlTile raw) (Fin.ofNat 4 (rlArray raw)) ∧ rlToSlot raw = false) ∧
    (∃ (n : Fin 64) (t : Fin 4) (s : State) (q : QInstr) (raw : BitVec 256) (i : Fin 16),
      s.cals[n].nextOf t = some q ∧
      opOf q.raw = 35 ∧
        s.mayIssue n t q.beat = true ∧
          raw = BitVec.setWidth 256 q.raw ∧
            i = arrIdx (rlTile raw) (Fin.ofNat 4 (rlArray raw)) ∧ rlToSlot raw = true ∧ (s.cals[n].arrs[i].slot (rlSlotB raw)).loadable = true) ∧
    (∃ (n : Fin 64) (t : Fin 4) (s : State) (q : QInstr) (raw : BitVec 256) (i : Fin 16),
      s.cals[n].nextOf t = some q ∧
      opOf q.raw = 35 ∧
        s.mayIssue n t q.beat = true ∧
          raw = BitVec.setWidth 256 q.raw ∧
            i = arrIdx (rlTile raw) (Fin.ofNat 4 (rlArray raw)) ∧ rlToSlot raw = true ∧ (s.cals[n].arrs[i].slot (rlSlotB raw)).loadable = false) ∧
    (∃ (n : Fin 64) (k : ℕ) (s : State) (r : Relay) (e : Fin 64) (w : CWord),
      s.cals[n].relays[k]? = some r ∧
      rlForward r.raw = false ∧
        rlFromSram r.raw = false ∧
          rlToSlot r.raw = false ∧
            rlToSram r.raw = true ∧
              r.accepted < rlLen r.raw ∧
                e = Fin.ofNat 64 (rlInEp r.raw) ∧
                  s.cals[n].eps[e].en = true ∧ s.cals[n].eps[e].out = false ∧ s.cals[n].eps[e].word = some w ∧ mayAccept s.cals[n] k r = true) ∧
    (∃ (n : Fin 64) (k : ℕ) (s : State) (r : Relay) (e : Fin 64) (w : CWord) (m : Fin 64) (src : ℕ),
      s.cals[n].relays[k]? = some r ∧
      s.chainHead n r.idx r.raw = some (m, src) ∧
        rlForward r.raw = false ∧
          rlFromSram r.raw = false ∧
            rlToSlot r.raw = true ∧
              rlToSram r.raw = false ∧
                r.accepted + 1 = rlLen r.raw ∧
                  e = Fin.ofNat 64 (rlInEp r.raw) ∧
                    s.cals[n].eps[e].en = true ∧ s.cals[n].eps[e].out = false ∧ s.cals[n].eps[e].word = some w ∧ mayAccept s.cals[n] k r = true) ∧
    (∃ (n : Fin 64) (k : ℕ) (s : State) (r : Relay) (e : Fin 64),
      s.cals[n].relays[k]? = some r ∧
      rlForward r.raw = true ∧
        r.forwarded < r.accepted ∧
          e = Fin.ofNat 64 (rlOutEp r.raw) ∧
            s.cals[n].eps[e].en = true ∧ s.cals[n].eps[e].out = true ∧ s.cals[n].eps[e].word = none ∧ mayForward s.cals[n] k r = true) ∧
    (∃ (n : Fin 64) (k : ℕ) (s : State) (r : Relay) (e : Fin 64),
      s.cals[n].relays[k]? = some r ∧
      rlForward r.raw = true ∧
        r.forwarded < r.accepted ∧
          e = Fin.ofNat 64 (rlOutEp r.raw) ∧
            s.cals[n].eps[e].en = true ∧
              s.cals[n].eps[e].out = true ∧ r.forwarded < rlLen r.raw ∧ (s.cals[n].eps[e].word.isSome = true ∨ mayForward s.cals[n] k r = false)) ∧
    (∃ (n : Fin 64) (k : ℕ) (s : State) (r : Relay) (o : Fin 64),
      s.cals[n].relays[k]? = some r ∧
      rlForward r.raw = true ∧
        rlToSlot r.raw = false ∧
          r.forwarded = r.accepted ∧
            r.accepted < rlLen r.raw ∧
              o = Fin.ofNat 64 (rlOutEp r.raw) ∧
                s.cals[n].eps[o].en = true ∧
                  s.cals[n].eps[o].out = true ∧
                    s.cals[n].eps[o].word = none ∧
                      mayForward s.cals[n] k r = true ∧ r.image.length = 64 * r.accepted ∧ rlFromSram r.raw = true ∧ rlToSram r.raw = false) ∧
    (∃ (n : Fin 64) (k : ℕ) (s : State) (r : Relay) (o : Fin 64) (e : Fin 64) (w : CWord),
      s.cals[n].relays[k]? = some r ∧
      rlForward r.raw = true ∧
        rlToSlot r.raw = false ∧
          r.forwarded = r.accepted ∧
            r.accepted < rlLen r.raw ∧
              o = Fin.ofNat 64 (rlOutEp r.raw) ∧
                s.cals[n].eps[o].en = true ∧
                  s.cals[n].eps[o].out = true ∧
                    s.cals[n].eps[o].word = none ∧
                      mayForward s.cals[n] k r = true ∧
                        r.image.length = 64 * r.accepted ∧
                          rlFromSram r.raw = false ∧
                            e = Fin.ofNat 64 (rlInEp r.raw) ∧
                              s.cals[n].eps[e].en = true ∧
                                s.cals[n].eps[e].out = false ∧ s.cals[n].eps[e].word = some w ∧ mayAccept s.cals[n] k r = true) ∧
    (∃ (n : Fin 64) (k : ℕ) (s : State) (r : Relay),
      s.cals[n].relays[k]? = some r ∧
      rlForward r.raw = true ∧
        r.accepted = rlLen r.raw ∧ r.forwarded = rlLen r.raw ∧ s.conduitDrained (EpRef.cal n (Fin.ofNat 64 (rlOutEp r.raw))) = true) ∧
    (∃ (n : Fin 64) (k : ℕ) (s : State) (r : Relay),
      s.cals[n].relays[k]? = some r ∧
      rlForward r.raw = true ∧
        r.accepted = rlLen r.raw ∧ r.forwarded = rlLen r.raw ∧ s.conduitDrained (EpRef.cal n (Fin.ofNat 64 (rlOutEp r.raw))) = false) :=
  ⟨⟨3, 0, wrun (wc 3 (fun c => { c with queue := [{ beat := 1, raw := 0x22 }] })), { beat := 1, raw := 0x22 }, 0, by decide +kernel⟩,
   ⟨3, 0, wrun (wc 3 (fun c => { c with queue := [{ beat := 1, raw := 0x22 }], arrs := vmod c.arrs 0 (fun a => { a with slotA := { st := .loading } }) })), { beat := 1, raw := 0x22 }, 0, by decide +kernel⟩,
   ⟨3, 15, true, wc 3 (fun c => { c with arrs := vmod c.arrs 15 (fun a => { a with slotB := { st := .loading } }) }), by decide +kernel⟩,
   ⟨3, 0, wrun (wc 3 (fun c => { c with queue := [{ beat := 1, raw := 0x23 }] })), { beat := 1, raw := 0x23 }, 0x23, 0, by decide +kernel⟩,
   ⟨3, 0, wrun (wc 3 (fun c => { c with queue := [{ beat := 1, raw := bits 1024 [(0, 0x23), (24, 1)] }] })), { beat := 1, raw := bits 1024 [(0, 0x23), (24, 1)] }, bits 256 [(0, 0x23), (24, 1)], 0, by decide +kernel⟩,
   ⟨3, 0, wrun (wc 3 (fun c => { c with queue := [{ beat := 1, raw := bits 1024 [(0, 0x23), (24, 1)] }], arrs := vmod c.arrs 0 (fun a => { a with slotA := { st := .pinned } }) })), { beat := 1, raw := bits 1024 [(0, 0x23), (24, 1)] }, bits 256 [(0, 0x23), (24, 1)], 0, by decide +kernel⟩,
   ⟨3, 0, wc 3 (fun c => { c with relays := [{ raw := bits 256 [(23, 1), (64, 1)] }], eps := vmod c.eps 0 (fun x => { x with en := true, word := some 7 }) }), { raw := bits 256 [(23, 1), (64, 1)] }, 0, 7, by decide +kernel⟩,
   ⟨3, 0, wc 3 (fun c => { c with relays := [{ raw := bits 256 [(8, 1), (24, 1), (64, 1)], idx := 1 }], relayLog := [bits 256 [(14, 1), (22, 1), (64, 1)], bits 256 [(8, 1), (24, 1), (64, 1)]], xps := [(129, 9)], eps := vmod (c.eps.map (fun x => { x with en := true })) 1 (fun x => { x with word := some 7 }) }), { raw := bits 256 [(8, 1), (24, 1), (64, 1)], idx := 1 }, 1, 7, 3, 0, by decide +kernel⟩,
   ⟨3, 0, wc 3 (fun c => { c with relays := [{ raw := bits 256 [(22, 1), (64, 1)], accepted := 1 }], eps := vmod c.eps 0 (fun x => { x with en := true, out := true }) }), { raw := bits 256 [(22, 1), (64, 1)], accepted := 1 }, 0, by decide +kernel⟩,
   ⟨3, 0, wc 3 (fun c => { c with relays := [{ raw := bits 256 [(22, 1), (64, 1)], accepted := 1 }], eps := vmod c.eps 0 (fun x => { x with en := true, out := true, word := some 7 }) }), { raw := bits 256 [(22, 1), (64, 1)], accepted := 1 }, 0, by decide +kernel⟩,
   ⟨3, 0, wc 3 (fun c => { c with relays := [{ raw := bits 256 [(14, 1), (22, 1), (64, 1)] }], eps := vmod c.eps 0 (fun x => { x with en := true, out := true }) }), { raw := bits 256 [(14, 1), (22, 1), (64, 1)] }, 0, by decide +kernel⟩,
   ⟨3, 0, wc 3 (fun c => { c with relays := [{ raw := bits 256 [(8, 1), (22, 1), (64, 1)] }], eps := vmod (vmod c.eps 0 (fun x => { x with en := true, out := true })) 1 (fun x => { x with en := true, word := some 7 }) }), { raw := bits 256 [(8, 1), (22, 1), (64, 1)] }, 0, 1, 7, by decide +kernel⟩,
   ⟨3, 0, wc 3 (fun c => { c with relays := [{ raw := bits 256 [(22, 1), (64, 1)], accepted := 1, forwarded := 1 }] }), { raw := bits 256 [(22, 1), (64, 1)], accepted := 1, forwarded := 1 }, by decide +kernel⟩,
   ⟨3, 0, wc 3 (fun c => { c with relays := [{ raw := bits 256 [(22, 1), (64, 1)], accepted := 1, forwarded := 1 }], eps := vmod c.eps 0 (fun x => { x with en := true, out := true, word := some 7 }) }), { raw := bits 256 [(22, 1), (64, 1)], accepted := 1, forwarded := 1 }, by decide +kernel⟩⟩

/-- The hypotheses of PassesIssueInOrder can be met, clause by clause. -/
theorem witness_PassesIssueInOrder :
    (∃ (n : Fin 64) (t : Fin 4) (s : State) (pl : Plan) (q : QInstr),
      s.planOn n = some pl ∧
      s.cals[n].sarmDue pl.beat = false ∧
        s.cals[n].replays = [] ∧ s.cals[n].nextOf t = some q ∧ opOf q.raw = 33 ∧ pl.run = PlanRun.running ∧ pl.beat < q.beat) ∧
    (∃ (n : Fin 64) (t : Fin 4) (s : State) (pl : Plan) (q : QInstr),
      s.planOn n = some pl ∧
      s.cals[n].sarmDue pl.beat = false ∧
        s.cals[n].replays = [] ∧
          s.cals[n].nextOf t = some q ∧
            opOf q.raw = 33 ∧
              pl.run = PlanRun.running ∧ q.beat ≤ pl.beat ∧ issueWaits s.cals[n] q.raw pl.beat none ≠ 0 ∧ fmtClash s.cals[n] q.raw = false) ∧
    (∃ (n : Fin 64) (t : Fin 4) (s : State) (pl : Plan) (q : QInstr),
      s.planOn n = some pl ∧
      s.cals[n].sarmDue pl.beat = false ∧
        s.cals[n].replays = [] ∧
          s.cals[n].nextOf t = some q ∧
            opOf q.raw = 33 ∧
              pl.run = PlanRun.running ∧ q.beat ≤ pl.beat ∧ issueWaits s.cals[n] q.raw pl.beat none = 0 ∧ fmtClash s.cals[n] q.raw = false) ∧
    (∃ (n : Fin 64) (t : Fin 4) (s : State) (pl : Plan) (q : QInstr),
      s.planOn n = some pl ∧
      s.cals[n].sarmDue pl.beat = false ∧
        s.cals[n].replays = [] ∧
          s.cals[n].nextOf t = some q ∧
            opOf q.raw = 33 ∧
              pl.run = PlanRun.running ∧ q.beat ≤ pl.beat ∧ fmtClash s.cals[n] q.raw = true ∧ pl.stop = none ∧ s.findPlan pl.handle = some pl) ∧
    (∃ (n : Fin 64) (s : State) (pl : Plan) (q : QInstr),
      s.planOn n = some pl ∧ pl.run = PlanRun.running ∧ s.cals[n].replays = [] ∧ List.find? (fun q => opOf q.raw == 33) s.cals[n].queue = some q) ∧
    (∃ (n : Fin 64) (t : Fin 4) (s : State) (pl : Plan) (r : Pass) (rest : List Pass),
      s.planOn n = some pl ∧
      s.cals[n].sarmDue pl.beat = false ∧
        s.cals[n].replays = r :: rest ∧
          pl.run = PlanRun.running ∧
            s.cals[n].tileParked ↑t = false ∧
              apTile r.raw = ↑t ∧
                r.issueBeat ≤ pl.beat ∧ fmtClash s.cals[n] r.raw = false ∧ issueWaits (s.cals[n].without r.again) r.raw pl.beat (some r) = 0) ∧
    (∃ (n : Fin 64) (t : Fin 4) (s : State) (pl : Plan) (r : Pass) (rest : List Pass),
      s.planOn n = some pl ∧ s.cals[n].replays = r :: rest ∧ s.cals[n].tileParked (apTile r.raw) = false ∧ apTile r.raw ≠ ↑t) ∧
    (∃ (n : Fin 64) (t : Fin 4) (s : State),
      s.cals[n].tileParked ↑t = true) :=
  ⟨⟨3, 0, wrun (wc 3 (fun c => { c with queue := [{ beat := 2, raw := 0x21 }] })), wpl, { beat := 2, raw := 0x21 }, by decide +kernel⟩,
   ⟨3, 0, wrun (wc 3 (fun c => { c with queue := [{ beat := 1, raw := bits 1024 [(0, 0x21), (12, 1)] }] })), wpl, { beat := 1, raw := bits 1024 [(0, 0x21), (12, 1)] }, by decide +kernel⟩,
   ⟨3, 0, wrun (wc 3 wpass), wpl, { beat := 1, raw := wap }, by decide +kernel⟩,
   ⟨3, 0, wrun (wc 3 (fun c => { c with queue := [{ beat := 1, raw := bits 1024 [(0, 0x21), (12, 1)] }], arrs := vmod c.arrs 0 (fun a => { a with slotA := { st := .ready, fmt := 8 } }) })), wpl, { beat := 1, raw := bits 1024 [(0, 0x21), (12, 1)] }, by decide +kernel⟩,
   ⟨3, wrun (wc 3 wpass), wpl, { beat := 1, raw := wap }, by decide +kernel⟩,
   ⟨3, 0, wrun (wc 3 (fun c => { wpass c with queue := [], replays := [wps] })), wpl, wps, [], by decide +kernel⟩,
   ⟨3, 1, wrun (wc 3 (fun c => { wpass c with replays := [{ raw := wap, handle := 1, issueBeat := 1, dueBeat := 2 }] })), wpl, { raw := wap, handle := 1, issueBeat := 1, dueBeat := 2 }, [], by decide +kernel⟩,
   ⟨3, 0, wc 3 (fun c => { c with replays := [{ wps with parked := true }] }), by decide +kernel⟩⟩

/-- The hypotheses of RowsAccumulate can be met, clause by clause. -/
theorem witness_RowsAccumulate :
    (∃ (n : Fin 64) (t : Fin 4) (s : State) (p : Pass) (k : Fin 64) (row : List Byte) (place : ℕ),
      List.find? (fun p => p.st == PassState.feed && apTile p.raw == ↑t) s.cals[n].passes = some p ∧
      k = Fin.ofNat 64 (apActStream p.raw) ∧
        place = p.actStart + p.rows * p.rowLen - s.cals[n].streams[k].base ∧
          s.cals[n].stagedAt k place p.rowLen = some row ∧
            (s.cals[n].streams[k].st = StmState.armed ∨ s.cals[n].streams[k].st = StmState.active ∨ s.cals[n].streams[k].st = StmState.halted) ∧
              p.rows < chainDrained s.cals[n] p + 512 ∧ s.cals[n].feedsNow k p = true) ∧
    (∃ (n : Fin 64) (t : Fin 4) (s : State) (p : Pass) (k : Fin 64) (row : List Byte) (place : ℕ),
      List.find? (fun p => p.st == PassState.feed && apTile p.raw == ↑t) s.cals[n].passes = some p ∧
      k = Fin.ofNat 64 (apActStream p.raw) ∧
        place = p.actStart + p.rows * p.rowLen - s.cals[n].streams[k].base ∧
          s.cals[n].stagedAt k place p.rowLen = some row ∧
            (s.cals[n].streams[k].st = StmState.armed ∨ s.cals[n].streams[k].st = StmState.active ∨ s.cals[n].streams[k].st = StmState.halted) ∧
              (chainDrained s.cals[n] p + 512 ≤ p.rows ∨ s.cals[n].feedsNow k p = false)) :=
  ⟨⟨3, 0, wrun (wc 3 (fun c => { wpass c with passes := [{ wps with rowLen := 66 }] })), { wps with rowLen := 66 }, 0, List.replicate 66 0, 0, by decide +kernel⟩,
   ⟨3, 0, wrun (wc 3 (fun c => { wpass c with passes := [{ wps with rowLen := 66, rows := 512 }], streams := vmod c.streams 0 (fun t => { t with st := .armed, base := 33792 }) })), { wps with rowLen := 66, rows := 512 }, 0, List.replicate 66 0, 0, by decide +kernel⟩⟩

/-- The hypotheses of PassesDrainAndCommit can be met, clause by clause. -/
theorem witness_PassesDrainAndCommit :
    (∃ (n : Fin 64) (t : Fin 4) (s : State) (p : Pass) (b : ℕ) (ring : DrainRing),
      List.find? (fun p => apTile p.raw == ↑t && !apChainOpen p.raw && decide (p.drained < apRows p.raw)) s.cals[n].passes = some p ∧
      b = drainBlockRows p.raw p.drained ∧
        ring = ringOf s.cals[n] p.raw ∧
          ring ∈ s.cals[n].rings ∧
            p.drained + b ≤ p.rows ∧ s.cals[n].ringTaken p = false ∧ ring.wr - ring.freed + b * drainRowBytes p.raw ≤ ring.len.toNat) ∧
    (∃ (n : Fin 64) (t : Fin 4) (s : State) (p : Pass) (b : ℕ) (ring : DrainRing),
      List.find? (fun p => apTile p.raw == ↑t && !apChainOpen p.raw && decide (p.drained < apRows p.raw)) s.cals[n].passes = some p ∧
      b = drainBlockRows p.raw p.drained ∧
        ring = ringOf s.cals[n] p.raw ∧
          ring ∈ s.cals[n].rings ∧
            (p.rows < p.drained + b ∨ s.cals[n].ringTaken p = true ∨ ring.len.toNat < ring.wr - ring.freed + b * drainRowBytes p.raw)) ∧
    (∃ (n : Fin 64) (t : Fin 4) (s : State) (pl : Plan) (p : Pass),
      committable s n t = some p ∧ s.planOn n = some pl) ∧
    (∃ (n : Fin 64) (t : Fin 4) (s : State) (pl : Plan) (p : Pass),
      s.planOn n = some pl ∧
      pl.run = PlanRun.running ∧ s.cals[n].passes = [p] ∧ p.st = PassState.commit ∧ apTile p.raw = ↑t ∧ p.dueBeat ≤ pl.commitBeat s.glb.beatCnt) ∧
    (∃ (n : Fin 64) (t : Fin 4) (s : State),
      committable s n t = none) ∧
    (∃ (n : Fin 64) (s : State) (p : Pass) (o : Occ),
      (chainOcc (List.filter (fun q => q.chain == p.chain) s.cals[n].passes)).1 = some o ∧
      o.arr < 16 ∧ o.row < 2 ^ 32 ∧ o.col < 64 ∧ s.cals[n].xlog.recs.length < 64) ∧
    (∃ (n : Fin 64) (s : State) (p : Pass) (o : Occ),
      (chainOcc (List.filter (fun q => q.chain == p.chain) s.cals[n].passes)).1 = some o ∧
      o.arr < 16 ∧ o.row < 2 ^ 32 ∧ o.col < 64 ∧ 64 ≤ s.cals[n].xlog.recs.length) :=
  ⟨⟨3, 0, wrun (wc 3 (fun c => { wpass c with passes := [{ wps with st := .drain, rows := 1 }], rings := [{ base := 0x8000, len := 0x1000 }] })), { wps with st := .drain, rows := 1 }, _, _, by decide +kernel, rfl, rfl, by decide +kernel⟩,
   ⟨3, 0, wrun (wc 3 (fun c => { wpass c with passes := [{ wps with st := .drain, rows := 1, raw := wap &&& ~~~(bits 1024 [(192, 0xFFFFFF)]) }], rings := [{ base := 0x8000, len := 0 }] })), { wps with st := .drain, rows := 1, raw := wap &&& ~~~(bits 1024 [(192, 0xFFFFFF)]) }, _, _, by decide +kernel, rfl, rfl, by decide +kernel⟩,
   ⟨3, 0, wrun (wc 3 (fun c => { wpass c with passes := [{ wps with st := .commit, rows := 1, drained := 1, dueBeat := 1 }] })), wpl, { wps with st := .commit, rows := 1, drained := 1, dueBeat := 1 }, by decide +kernel⟩,
   ⟨3, 0, wrun (wc 3 (fun c => { c with passes := [{ wps with st := .commit }] })), wpl, { wps with st := .commit }, by decide +kernel⟩,
   ⟨3, 0, ws, by decide +kernel⟩,
   ⟨3, wc 3 (fun c => { c with passes := [{ wps with occ := some { row := 0, kgroup := 0, arr := 15, col := 63 } }] }), wps, { row := 0, kgroup := 0, arr := 15, col := 63 }, by decide +kernel⟩,
   ⟨3, wc 3 (fun c => { c with passes := [{ wps with occ := some { row := 0, kgroup := 0, arr := 15, col := 63 } }], xlog := { recs := List.replicate 64 0 } }), wps, { row := 0, kgroup := 0, arr := 15, col := 63 }, by decide +kernel⟩⟩

/-- The hypotheses of GatingWakingAndZeroing can be met, clause by clause. -/
theorem witness_GatingWakingAndZeroing :
    (∃ (n : Fin 64) (s : State),
      5 ≤ s.pwr.phase.toNat ∧ s.gateRefused n false = false) ∧
    (∃ (n : Fin 64) (s : State),
      5 ≤ s.pwr.phase.toNat ∧ s.gateRefused n false = true) ∧
    (∃ (s : State),
      5 ≤ s.pwr.phase.toNat) ∧
    (∃ (n : Fin 64) (s : State),
      s.cals[n].gatePending = true) ∧
    (∃ (n : Fin 64) (s : State),
      s.cals[n].waking = true) ∧
    (∃ (n : Fin 64) (s : State),
      s.cals[n].zeroing = true) :=
  ⟨⟨3, ws, by decide +kernel⟩,
   ⟨3, wrun ws, by decide +kernel⟩,
   ⟨ws, by decide +kernel⟩,
   ⟨3, wc 3 (fun c => { c with gatePending := true }), by decide +kernel⟩,
   ⟨3, wc 3 (fun c => { c with waking := true }), by decide +kernel⟩,
   ⟨3, wc 3 (fun c => { c with zeroing := true }), by decide +kernel⟩⟩

/-- The hypotheses of DspRegisterInstructionsFrame can be met, clause by clause. -/
theorem witness_DspRegisterInstructionsFrame :
    (∃ (e : (Fin 64 → Instr) × ℕ) (n : Fin 64) (s : State) (i : DWord),
      e ∈
        [(Instr.vadd, 16), (Instr.vsub, 17), (Instr.vmul, 18), (Instr.vfma, 19), (Instr.vmax, 20), (Instr.vmin, 21), (Instr.vcmul, 22),
          (Instr.vrsum, 24), (Instr.vrmax, 25), (Instr.vexp, 32), (Instr.vlog, 33), (Instr.vrsqrt, 34), (Instr.vrcp, 35), (Instr.vsigm, 36),
          (Instr.vtanh, 37), (Instr.vcvti, 48), (Instr.vcvto, 49)] ∧
      s.dspNext n e.2 = some i) ∧
    (∃ (e : (Fin 64 → Instr) × ℕ) (n : Fin 64) (s : State),
      e ∈
        [(Instr.vadd, 16), (Instr.vsub, 17), (Instr.vmul, 18), (Instr.vfma, 19), (Instr.vmax, 20), (Instr.vmin, 21), (Instr.vcmul, 22),
          (Instr.vrsum, 24), (Instr.vrmax, 25), (Instr.vexp, 32), (Instr.vlog, 33), (Instr.vrsqrt, 34), (Instr.vrcp, 35), (Instr.vsigm, 36),
          (Instr.vtanh, 37), (Instr.vcvti, 48), (Instr.vcvto, 49)] ∧
      s.dspNext n e.2 = none) :=
  ⟨⟨(.vcvto, 0x31), 3, wdsp 0x31 id, 0x31, by simp, by decide +kernel⟩,
   ⟨(.vadd, 0x10), 3, wdsp 0x31 id, by simp, by decide +kernel⟩⟩

/-- The hypotheses of DspArithmetic can be met, clause by clause. -/
theorem witness_DspArithmetic :
    (∃ (e : (Fin 64 → Instr) × ℕ × (Machine.Num → Machine.Num → Machine.Num → Machine.Num)) (n : Fin 64) (s : State) (i : DWord),
      e ∈
        [(Instr.vadd, 16, fun a b x => a.add b), (Instr.vsub, 17, fun a b x => a.add b.neg), (Instr.vmul, 18, fun a b x => a.mul b),
          (Instr.vfma, 19, fun a b c => (a.mul b).add c)] ∧
      s.dspNext n e.2.1 = some i ∧ dspType i < 3) ∧
    (∃ (e : (Fin 64 → Instr) × ℕ) (n : Fin 64) (s : State) (i : DWord),
      e ∈ [(Instr.vmul, 18), (Instr.vfma, 19)] ∧ s.dspNext n e.2 = some i) :=
  ⟨⟨(.vfma, 0x13, fun a b c => (a.mul b).add c), 3, wdsp 0x2000_0013 id, 0x2000_0013, by simp, by decide +kernel⟩,
   ⟨(.vmul, 0x12), 3, wdsp 0x12 id, 0x12, by simp, by decide +kernel⟩⟩

/-- The hypotheses of DspSelectionFunctionsAndConversion can be met, clause by clause. -/
theorem witness_DspSelectionFunctionsAndConversion :
    (∃ (e : (Fin 64 → Instr) × ℕ × (Machine.Num → Machine.Num → Machine.Num)) (n : Fin 64) (s : State) (i : DWord),
      e ∈ [(Instr.vmax, 20, Num.max), (Instr.vmin, 21, Num.min)] ∧ s.dspNext n e.2.1 = some i ∧ dspType i < 3) ∧
    (∃ (n : Fin 64) (s : State) (i : DWord),
      s.dspNext n 22 = some i) ∧
    (∃ (e : (Fin 64 → Instr) × ℕ × (Word → Word → Word)) (n : Fin 64) (s : State) (i : DWord),
      e ∈ [(Instr.vrsum, 24, fun a b => roundFP32 ((fp32 a).add (fp32 b))), (Instr.vrmax, 25, fun a b => roundFP32 ((fp32 a).max (fp32 b)))] ∧
      s.dspNext n e.2.1 = some i) ∧
    (∃ (e : (Fin 64 → Instr) × ℕ) (n : Fin 64) (s : State) (i : DWord),
      e ∈ [(Instr.vexp, 32), (Instr.vlog, 33), (Instr.vrsqrt, 34), (Instr.vrcp, 35), (Instr.vsigm, 36), (Instr.vtanh, 37)] ∧
      s.dspNext n e.2 = some i ∧ dspType i = 0) ∧
    (∃ (e : (Fin 64 → Instr) × ℕ × ℕ × ℕ) (n : Fin 64) (s : State) (i : DWord),
      e ∈
        [(Instr.vexp, 32, 2139095040, 2139095040), (Instr.vexp, 32, 4286578688, 0), (Instr.vexp, 32, 0, 1065353216),
          (Instr.vexp, 32, 2147483648, 1065353216), (Instr.vlog, 33, 2139095040, 2139095040), (Instr.vlog, 33, 4286578688, 2143289344),
          (Instr.vlog, 33, 0, 4286578688), (Instr.vlog, 33, 2147483648, 4286578688), (Instr.vrsqrt, 34, 2139095040, 0),
          (Instr.vrsqrt, 34, 4286578688, 2143289344), (Instr.vrsqrt, 34, 0, 2139095040), (Instr.vrsqrt, 34, 2147483648, 4286578688),
          (Instr.vrcp, 35, 2139095040, 0), (Instr.vrcp, 35, 4286578688, 2147483648), (Instr.vrcp, 35, 0, 2139095040),
          (Instr.vrcp, 35, 2147483648, 4286578688), (Instr.vsigm, 36, 2139095040, 1065353216), (Instr.vsigm, 36, 4286578688, 0),
          (Instr.vsigm, 36, 0, 1056964608), (Instr.vsigm, 36, 2147483648, 1056964608), (Instr.vtanh, 37, 2139095040, 1065353216),
          (Instr.vtanh, 37, 4286578688, 3212836864), (Instr.vtanh, 37, 0, 0), (Instr.vtanh, 37, 2147483648, 2147483648)] ∧
      s.dspNext n e.2.1 = some i ∧ dspType i = 0) ∧
    (∃ (e : (Fin 64 → Instr) × ℕ × Bool) (n : Fin 64) (s : State) (i : DWord),
      e ∈
        [(Instr.vexp, 32, false), (Instr.vlog, 33, true), (Instr.vrsqrt, 34, true), (Instr.vrcp, 35, false), (Instr.vsigm, 36, false),
          (Instr.vtanh, 37, false)] ∧
      s.dspNext n e.2.1 = some i ∧ dspType i = 0) ∧
    (∃ (n : Fin 64) (s : State) (i : DWord) (f : Fmt),
      s.dspNext n 49 = some i ∧ (dspImm i % 16 = 8 ∨ dspImm i % 16 = 9) ∧ fmtOf (dspImm i % 16) = some f ∧ s.cals[n].dsp.mode.getLsbD 0 = false) ∧
    (∃ (n : Fin 64) (s : State) (i : DWord) (f : Fmt),
      s.dspNext n 48 = some i ∧ (dspImm i % 16 = 8 ∨ dspImm i % 16 = 9) ∧ fmtOf (dspImm i % 16) = some f) ∧
    (∃ (n : Fin 64) (s : State) (i : DWord) (f : Fmt),
      s.dspNext n 48 = some i ∧ dspImm i % 16 ≤ 5 ∧ fmtOf (dspImm i % 16) = some f ∧ nfld s.cals[n].dsp.v[dspVa i] (8 * elemBytes f 32) 8 = 255) :=
  ⟨⟨(.vmax, 0x14, Machine.Num.max), 3, wdsp 0x2000_0014 id, 0x2000_0014, by simp, by decide +kernel⟩,
   ⟨3, wdsp 0x16 id, 0x16, by decide +kernel⟩,
   ⟨(.vrsum, 0x18, fun a b => roundFP32 ((fp32 a).add (fp32 b))), 3, wdsp 0x18 id, 0x18, by simp, by decide +kernel⟩,
   ⟨(.vexp, 0x20), 3, wdsp 0x20 id, 0x20, by simp, by decide +kernel⟩,
   ⟨(.vexp, 0x20, 0, 0x3F800000), 3, wdsp 0x20 id, 0x20, by simp, by decide +kernel⟩,
   ⟨(.vexp, 32, false), 3, wdsp 0x20 id, 0x20, by simp, by decide +kernel⟩,
   ⟨3, wdsp 0x90000000031 id, 0x90000000031, fFP16, by decide +kernel⟩,
   ⟨3, wdsp 0x80000000030 id, 0x80000000030, fBF16, by decide +kernel⟩,
   ⟨3, wdsp 0x50000000030 (fun c => { c with dsp := { c.dsp with v := Vector.replicate 32 (bits 1024 [(256, 255)]) } }), 0x50000000030, fINT8, by decide +kernel⟩⟩

/-- The hypotheses of DspMemoryInstructions can be met, clause by clause. -/
theorem witness_DspMemoryInstructions :
    (∃ (n : Fin 64) (s : State) (i : DWord) (g : AddrGen),
      s.dspNext n 1 = some i ∧ g = s.cals[n].dsp.ag[dspAg i] ∧ agFault s.cals[n] g 27 = none ∧ g.target = false) ∧
    (∃ (n : Fin 64) (s : State) (i : DWord) (g : AddrGen) (b : List Byte),
      s.dspNext n 1 = some i ∧
      g = s.cals[n].dsp.ag[dspAg i] ∧
        agFault s.cals[n] g 27 = none ∧
          g.target = true ∧
            s.cals[n].streams[g.stream].st ≠ StmState.halted ∧ s.cals[n].staged g.stream (dRec s.cals[n].streams[g.stream].desc) = some b) ∧
    (∃ (n : Fin 64) (s : State) (i : DWord) (g : AddrGen),
      s.dspNext n 2 = some i ∧ g = s.cals[n].dsp.ag[dspAg i] ∧ agFault s.cals[n] g 28 = none ∧ g.target = false) ∧
    (∃ (n : Fin 64) (s : State) (i : DWord) (g : AddrGen),
      s.dspNext n 72 = some i ∧ g = s.cals[n].dsp.ag[dspAg i]) ∧
    (∃ (g : AddrGen),
      g.circ = true) ∧
    (∃ (g : AddrGen),
      g.circ = false) ∧
    (∃ (g : AddrGen),
      g.circ = false ∧ BitVec.toNat g.lenM1 < BitVec.toNat g.ptr) ∧
    (∃ (g : AddrGen),
      g.target = false ∧ 12582912 < g.sramAddr + g.esize) ∧
    (∃ (g : AddrGen),
      (g.circ = true ∨ BitVec.toNat g.ptr ≤ BitVec.toNat g.lenM1) ∧ g.target = false ∧ g.sramAddr + g.esize ≤ 12582912) ∧
    (∃ (n : Fin 64) (s : State) (i : DWord) (f : ℕ),
      s.dspNext n 1 = some i ∧ agFault s.cals[n] s.cals[n].dsp.ag[dspAg i] 27 = some f) ∧
    (∃ (n : Fin 64) (s : State) (i : DWord) (f : ℕ),
      s.dspNext n 2 = some i ∧ agFault s.cals[n] s.cals[n].dsp.ag[dspAg i] 28 = some f) :=
  ⟨⟨3, wdsp 0x01 (fun c => { c with segs := Vector.replicate 32 wseg }), 0x01, {}, by decide +kernel⟩,
   ⟨3, wdsp 0x01 (fun c => { wpass c with dsp := { c.dsp with ag := Vector.replicate 16 wagS } }), 0x01, wagS, [1], by decide +kernel⟩,
   ⟨3, wdsp 0x02 (fun c => { c with segs := Vector.replicate 32 wseg }), 0x02, {}, by decide +kernel⟩,
   ⟨3, wdsp 0x48 id, 0x48, {}, by decide +kernel⟩,
   ⟨{ ctl := 0x10004 }, by decide +kernel⟩,
   ⟨{}, by decide +kernel⟩,
   ⟨{ ptr := 1 }, by decide +kernel⟩,
   ⟨{ base := 12582911, ctl := 2 }, by decide +kernel⟩,
   ⟨{ base := 12582908 }, by decide +kernel⟩,
   ⟨3, wdsp 0x01 (fun c => { c with dsp := { c.dsp with ag := Vector.replicate 16 { ptr := 1 } } }), 0x01, 1, by decide +kernel⟩,
   ⟨3, wdsp 0x02 (fun c => { c with dsp := { c.dsp with ag := Vector.replicate 16 { ptr := 1 } } }), 0x02, 1, by decide +kernel⟩⟩

/-- The hypotheses of DspSearchWaitsAndEnd can be met, clause by clause. -/
theorem witness_DspSearchWaitsAndEnd :
    (∃ (e : (Fin 64 → Instr) × ℕ × Bool) (n : Fin 64) (s : State) (i : DWord) (kept : ℕ × Option (Word × ℕ)) (r : SearchRun),
      e ∈ [(Instr.vsrchmax, 56, false), (Instr.vsrchmin, 57, true)] ∧
      s.dspNext n e.2.1 = some i ∧
        kept = s.cals[n].dsp.srch.getD (0, none) ∧
          r =
              searchRead (laneFmt (dspType i)) e.2.2
                (if dspImm i % 2 = 1 then some (fp32 (rfld s.cals[n].dsp.v[dspVa i] 0 0 32), rnum s.cals[n].dsp.v[dspVa i] 4 0 32) else none)
                (dspAg i) (BitVec.toNat s.cals[n].dsp.ag[dspAg i].lenM1 + 1 - kept.1)
                { cal := s.cals[n], idx := kept.1, best := Option.map (fun b => (fp32 b.1, b.2)) kept.2 } ∧
            r.stop = none) ∧
    (∃ (e : (Fin 64 → Instr) × ℕ × Bool) (n : Fin 64) (s : State) (i : DWord) (kept : ℕ × Option (Word × ℕ)) (r : SearchRun),
      e ∈ [(Instr.vsrchmax, 56, false), (Instr.vsrchmin, 57, true)] ∧
      s.dspNext n e.2.1 = some i ∧
        kept = s.cals[n].dsp.srch.getD (0, none) ∧
          r =
              searchRead (laneFmt (dspType i)) e.2.2
                (if dspImm i % 2 = 1 then some (fp32 (rfld s.cals[n].dsp.v[dspVa i] 0 0 32), rnum s.cals[n].dsp.v[dspVa i] 4 0 32) else none)
                (dspAg i) (BitVec.toNat s.cals[n].dsp.ag[dspAg i].lenM1 + 1 - kept.1)
                { cal := s.cals[n], idx := kept.1, best := Option.map (fun b => (fp32 b.1, b.2)) kept.2 } ∧
            r.stop = some AgRead.wait) ∧
    (∃ (f : Fmt) (mn : Bool) (key : Option (Machine.Num × ℕ)) (k : Fin 16) (m : ℕ) (r : SearchRun) (g : AddrGen) (t : Machine.Stream) (es : List (List Byte)),
      r.stop = none ∧
      g = r.cal.dsp.ag[k] ∧
        t = r.cal.streams[g.stream] ∧
          es =
              List.map
                (fun j =>
                  if g.target = true then (r.cal.stagedAt g.stream (t.pos + j * dRec t.desc) (dRec t.desc)).getD []
                  else mreadN r.cal.sram (g.advanceN j).sramAddr (min g.esize 128))
                (List.range m) ∧
            (searchRead f mn key k m r).stop = none) ∧
    (∃ (mn : Bool) (key : Option (Machine.Num × ℕ)) (es : List Machine.Num) (v : Machine.Num) (j : ℕ),
      List.foldl (fun b x => searchBest mn key b x.1 x.2) none es.zipIdx = some (v, j)) ∧
    (∃ (mn : Bool) (key : Option (Machine.Num × ℕ)) (es : List Machine.Num) (v : Machine.Num) (j : ℕ) (k : Machine.Num × ℕ),
      List.foldl (fun b x => searchBest mn key b x.1 x.2) none es.zipIdx = some (v, j) ∧ key = some k) ∧
    (∃ (es : List Machine.Num),
      es ≠ []) ∧
    (∃ (es : List Machine.Num) (look : Option (Machine.Num × ℕ) → Option (Machine.Num × ℕ)),
      es = List.map fp32 [1077936128, 2143289344, 1084227584, 1084227584, 2147483648, 0] ∧
      look = fun key => List.foldl (fun b x => searchBest false key b x.1 x.2) none es.zipIdx) ∧
    (∃ (n : Fin 64) (s : State) (i : DWord) (u : Fin 2) (m : ℕ),
      s.dspNext n 64 = some i ∧
      u = Fin.ofNat 2 (dspImm i % 2) ∧ m = min (laneCount (dspType i)) (dspImm i / 256 % 256 + 1) ∧ s.cals[n].chk[u].queue.length + m ≤ 64) ∧
    (∃ (n : Fin 64) (s : State) (i : DWord) (u : Fin 2) (m : ℕ),
      s.dspNext n 64 = some i ∧
      u = Fin.ofNat 2 (dspImm i % 2) ∧ m = min (laneCount (dspType i)) (dspImm i / 256 % 256 + 1) ∧ 64 < s.cals[n].chk[u].queue.length + m) ∧
    (∃ (n : Fin 64) (s : State) (i : DWord) (p : Plan),
      s.dspNext n 80 = some i ∧ s.planOn n = some p) ∧
    (∃ (d : Dsp),
      d.waiting = true ∧ 1 < d.waitBeats) ∧
    (∃ (d : Dsp),
      d.waiting = true ∧ d.waitBeats ≤ 1) ∧
    (∃ (d : Dsp),
      d.waiting = false ∧ d.busy = true) ∧
    (∃ (d : Dsp),
      d.waiting = false ∧ d.busy = false) ∧
    (∃ (n : Fin 64) (s : State) (i : DWord) (t : Fin 4),
      s.dspNext n 81 = some i ∧ t = Fin.ofNat 4 (dspImm i % 4) ∧ ↑(dspImm i / 4) ≤ s.cals[n].dsp.rowsSince[t]) ∧
    (∃ (n : Fin 64) (s : State) (i : DWord) (t : Fin 4),
      s.dspNext n 81 = some i ∧ t = Fin.ofNat 4 (dspImm i % 4) ∧ s.cals[n].dsp.rowsSince[t] < ↑(dspImm i / 4)) ∧
    (∃ (n : Fin 64) (s : State) (i : DWord) (p : Plan),
      s.dspNext n 95 = some i ∧ s.planOn n = some p) ∧
    (∃ (s : State) (p : Plan),
      s.findPlan p.handle = some p ∧ p.beat + 1 < p.beats) ∧
    (∃ (n : Fin 64) (s : State),
      s.calShut n = false ∧ s.runsPlan n = false ∧ s.cals[n].gated = false ∧ s.cals[n].waking = false) ∧
    (∃ (n : Fin 64) (s : State),
      s.calShut n = false ∧ (s.runsPlan n = true ∨ s.cals[n].gated = true ∨ s.cals[n].waking = true)) ∧
    (∃ (n : Fin 64) (s : State),
      s.calShut n = true) :=
  ⟨⟨(.vsrchmax, 0x38, false), 3, wdsp 0x38 (fun c => { c with segs := Vector.replicate 32 wseg }), 0x38, _, _, by simp, by decide +kernel, rfl, rfl, by decide +kernel⟩,
   ⟨(.vsrchmax, 0x38, false), 3, wdsp 0x38 (fun c => { c with segs := Vector.replicate 32 wseg, dsp := { c.dsp with ag := Vector.replicate 16 wagS } }), 0x38, _, _, by simp, by decide +kernel, rfl, rfl, by decide +kernel⟩,
   ⟨fFP16, true, none, 0, 1, { cal := (wdsp 0x38 (fun c => { c with segs := Vector.replicate 32 wseg })).cals[3] }, _, _, _, by decide +kernel, rfl, rfl, rfl, by decide +kernel⟩,
   ⟨false, none, [fp32 0], fp32 0, 0, by decide +kernel⟩,
   ⟨false, some (fp32 0x40000000, 0), [fp32 0], fp32 0, 0, (fp32 0x40000000, 0), by decide +kernel⟩,
   ⟨[fp32 0], by simp⟩,
   ⟨_, _, rfl, rfl⟩,
   ⟨3, wdsp 0x40 (fun c => { c with chk := Vector.replicate 2 { queue := List.replicate 63 (.bytes [0]) } }), 0x40, 0, 1, by decide +kernel⟩,
   ⟨3, wdsp 0x40 (fun c => { c with chk := Vector.replicate 2 { queue := List.replicate 64 (.bytes [0]) } }), 0x40, 0, 1, by decide +kernel⟩,
   ⟨3, wdsp 0x50 id, 0x50, wpl, by decide +kernel⟩,
   ⟨{ waiting := true, waitBeats := 2 }, by decide +kernel⟩,
   ⟨{ waiting := true, waitBeats := 1 }, by decide +kernel⟩,
   ⟨{ busy := true }, by decide +kernel⟩,
   ⟨{}, by decide +kernel⟩,
   ⟨3, wdsp 0x51 id, 0x51, 0, by decide +kernel⟩,
   ⟨3, wdsp 0x40000000051 id, 0x40000000051, 0, by decide +kernel⟩,
   ⟨3, wdsp 0x5F id, 0x5F, wpl, by decide +kernel⟩,
   ⟨wrun ws, wpl, by decide +kernel⟩,
   ⟨3, ws, by decide +kernel⟩,
   ⟨3, wrun ws, by decide +kernel⟩,
   ⟨3, State.reset, by decide +kernel⟩⟩

/-- The hypotheses of CheckUnitsAndExceptionLog can be met, clause by clause. -/
theorem witness_CheckUnitsAndExceptionLog :
    (∃ (e : (ChkRef → Word → Instr) × ℕ) (r : ChkRef) (s : State),
      e ∈
        [(fun r w => Instr.chkData8 r (BitVec.setWidth 8 w), 1), (fun r w => Instr.chkData16 r (BitVec.setWidth 16 w), 2),
          (fun r w => Instr.chkData32 r w, 4)] ∧
      s.chkShut r = false ∧
        s.chkRefused r = false ∧ ((s.chk r).src = 0 ∧ (s.chk r).widthOk = true ∨ (s.chk r).queue ≠ []) ∧ (s.chk r).queue.length < 64) ∧
    (∃ (e : (ChkRef → Word → Instr) × ℕ) (r : ChkRef) (s : State) (x : ChkEntry) (q : List ChkEntry),
      e ∈
        [(fun r w => Instr.chkData8 r (BitVec.setWidth 8 w), 1), (fun r w => Instr.chkData16 r (BitVec.setWidth 16 w), 2),
          (fun r w => Instr.chkData32 r w, 4)] ∧
      s.chkShut r = false ∧ s.chkRefused r = false ∧ (s.chk r).queue = x :: q ∧ 64 ≤ (s.chk r).queue.length) ∧
    (∃ (e : (ChkRef → Word → Instr) × ℕ) (r : ChkRef) (s : State),
      e ∈
        [(fun r w => Instr.chkData8 r (BitVec.setWidth 8 w), 1), (fun r w => Instr.chkData16 r (BitVec.setWidth 16 w), 2),
          (fun r w => Instr.chkData32 r w, 4)] ∧
      s.chkShut r = false ∧ s.chkRefused r = false ∧ (s.chk r).queue = [] ∧ (s.chk r).src = 0 ∧ (s.chk r).widthOk = false) ∧
    (∃ (e : (ChkRef → Word → Instr) × ℕ) (r : ChkRef) (s : State),
      e ∈
        [(fun r w => Instr.chkData8 r (BitVec.setWidth 8 w), 1), (fun r w => Instr.chkData16 r (BitVec.setWidth 16 w), 2),
          (fun r w => Instr.chkData32 r w, 4)] ∧
      s.chkShut r = false ∧ s.chkRefused r = false ∧ (s.chk r).queue = [] ∧ (s.chk r).src ≠ 0) ∧
    (∃ (r : ChkRef) (s : State),
      s.chkShut r = false ∧ s.chkRefused r = false ∧ (s.chk r).queue = []) ∧
    (∃ (r : ChkRef) (s : State),
      s.chkShut r = false ∧ s.chkRefused r = false ∧ (s.chk r).queue ≠ [] ∧ (s.chk r).queue.length < 64) ∧
    (∃ (n : Fin 64) (k : Fin 2) (s : State) (w : Word) (c : Instr),
      s.calShut n = false ∧
      s.runsPlan n = true ∧
        c ∈
          [Instr.chkData8 (ChkRef.cal n k) (BitVec.setWidth 8 w), Instr.chkData16 (ChkRef.cal n k) (BitVec.setWidth 16 w),
            Instr.chkData32 (ChkRef.cal n k) w, Instr.chkStart (ChkRef.cal n k) w]) ∧
    (∃ (r : ChkRef) (s : State) (b : Byte) (bs : List Byte) (q : List ChkEntry),
      (s.chk r).queue = ChkEntry.bytes (b :: bs) :: q ∧ (s.chk r).src = 0 ∧ (s.chk r).widthOk = true) ∧
    (∃ (r : ChkRef) (s : State) (b : Byte) (bs : List Byte) (q : List ChkEntry),
      (s.chk r).queue = ChkEntry.bytes (b :: bs) :: q ∧ (s.chk r).src ≠ 0) ∧
    (∃ (r : ChkRef) (s : State),
      (s.chk r).queue = []) ∧
    (∃ (e : BitVec 24 × DWord × DWord × BitVec 24 × DWord × DWord),
      e ∈
      [(8, 7, 0, 0, 0, 244), (16, 4129, 65535, 0, 0, 10673), (32, 79764919, 4294967295, 384, 4294967295, 3421780262),
        (32, 517762881, 4294967295, 384, 4294967295, 3808858755),
        (64, 4823603603198064275, 18446744073709551615, 384, 18446744073709551615, 11051210869376104954)]) ∧
    (∃ (o : SnoopOrigin) (bytes : List Byte) (s : State),
      0 < bytes.length ∧ bytes.length ≤ 4096 ∧ s.snoopHidden o = false) ∧
    (∃ (o : SnoopOrigin) (bytes : List Byte) (s : State) (c : Byte),
      0 < bytes.length ∧ bytes.length ≤ 4096 ∧ o = SnoopOrigin.context c ∧ s.ctxConf c = true) ∧
    (∃ (o : SnoopOrigin) (bytes : List Byte) (s : State) (h : Word),
      0 < bytes.length ∧ bytes.length ≤ 4096 ∧ o = SnoopOrigin.packet h ∧ (s.confNode (hdSrc h) = true ∨ s.confNode (hdDst h) = true)) ∧
    (∃ (bytes : List Byte),
      0 < bytes.length ∧ bytes.length ≤ 4096) ∧
    (∃ (n : Fin 64) (s : State),
      s.calShut n = false) ∧
    (∃ (c : Caldera),
      c.xlog.recs.length < 64) ∧
    (∃ (c : Caldera),
      64 ≤ c.xlog.recs.length) :=
  ⟨⟨(fun r w => .chkData32 r w, 4), .cfg 0, { ws with cfg := { ws.cfg with chk := Vector.replicate 2 { queue := List.replicate 63 (.bytes [0]) } } }, by simp, by decide +kernel⟩,
   ⟨(fun r w => .chkData32 r w, 4), .cfg 0, { ws with cfg := { ws.cfg with chk := Vector.replicate 2 { queue := List.replicate 64 (.bytes [0]) } } }, .bytes [0], List.replicate 63 (.bytes [0]), by simp, by decide +kernel⟩,
   ⟨(fun r w => .chkData32 r w, 4), .cfg 0, { ws with cfg := { ws.cfg with chk := Vector.replicate 2 { ctl := 0 } } }, by simp, by decide +kernel⟩,
   ⟨(fun r w => .chkData32 r w, 4), .cfg 0, { ws with cfg := { ws.cfg with chk := Vector.replicate 2 { ctl := 0x1020 } } }, by simp, by decide +kernel⟩,
   ⟨.mc 0, ws, by decide +kernel⟩,
   ⟨.mc 3, { ws with pwr := { ws.pwr with chk := Vector.replicate 4 { queue := List.replicate 63 (.bytes [0]) } } }, by decide +kernel⟩,
   ⟨3, 1, wrun ws, 7, .chkStart (.cal 3 1) 7, by decide +kernel⟩,
   ⟨.cfg 0, { ws with cfg := { ws.cfg with chk := Vector.replicate 2 { queue := [.bytes [5]] } } }, 5, [], [], by decide +kernel⟩,
   ⟨.cfg 0, { ws with cfg := { ws.cfg with chk := Vector.replicate 2 { ctl := 0x1020, queue := [.bytes [5]] } } }, 5, [], [], by decide +kernel⟩,
   ⟨.cfg 0, ws, by decide +kernel⟩,
   ⟨(8, 7, 0, 0, 0, 244), by simp⟩,
   ⟨.shared, [0], ws, by decide +kernel⟩,
   ⟨.context 1, [0], { ws with sec := wsec }, 1, by decide +kernel⟩,
   ⟨.packet (mkHeader pcieNode (calNode 3) 0 0), [0], { (wrun ws) with plans := [{ wpl with ctx := 1 }], sec := wsec }, mkHeader pcieNode (calNode 3) 0 0, by decide +kernel⟩,
   ⟨List.replicate 4096 0, by decide +kernel⟩,
   ⟨3, ws, by decide +kernel⟩,
   ⟨{ xlog := { recs := List.replicate 63 0 } }, by decide +kernel⟩,
   ⟨{ xlog := { recs := List.replicate 64 0 } }, by decide +kernel⟩⟩

set_option maxRecDepth 100000 in
/-- The hypotheses of StreamArmings can be met, clause by clause. -/
theorem witness_StreamArmings :
    (∃ (n : Fin 64) (k : Fin 64) (s : State) (t : Machine.Stream),
      t = s.cals[n].streams[k] ∧ s.calShut n = false ∧ s.runsPlan n = true) ∧
    (∃ (n : Fin 64) (k : Fin 64) (s : State) (w : Word) (t : Machine.Stream),
      t = s.cals[n].streams[k] ∧ s.calShut n = false ∧ s.runsPlan n = false ∧ bitAt w 26 = false) ∧
    (∃ (n : Fin 64) (k : Fin 64) (s : State) (w : Word) (t : Machine.Stream),
      t = s.cals[n].streams[k] ∧ s.calShut n = false ∧ s.runsPlan n = false ∧ bitAt w 26 = true) ∧
    (∃ (n : Fin 64) (s : State) (p : Plan) (q : QInstr) (k : Fin 64) (d : CWord),
      s.planOn n = some p ∧
      p.run = PlanRun.running ∧
        s.cals[n].firstSarm p.beat = some q ∧ k = Fin.ofNat 64 (saStream q.raw) ∧ d = ofBytes 512 (mreadN s.cals[n].sram (saDesc q.raw) 64)) ∧
    (∃ (n : Fin 64) (k : Fin 64) (s : State) (t : Machine.Stream),
      t = s.cals[n].streams[k] ∧ s.armFinished (SlotRef.cal n k) = true ∧ t.cmd = none) ∧
    (∃ (r : SlotRef) (s : State),
      s.armFinished r = false) ∧
    (∃ (n : Fin 64) (k : Fin 64) (s : State),
      s.cals[n].streams[k].st = StmState.active ∧ s.cals[n].wdog.toNat ≤ s.cals[n].streams[k].idle.toNat) ∧
    (∃ (r : SlotRef) (s : State),
      (s.stm r).idle.toNat < (s.wdogLimit r).toNat) :=
  ⟨⟨3, 63, wrun ws, {}, by decide +kernel⟩,
   ⟨3, 63, ws, 0, {}, by decide +kernel⟩,
   ⟨3, 63, ws, 0x04000000, {}, by decide +kernel⟩,
   ⟨3, wrun (wc 3 (fun c => { c with queue := [{ beat := 1, raw := 0x24 }] })), wpl, { beat := 1, raw := 0x24 }, 0, 0, by decide +kernel⟩,
   ⟨3, 0, wst { st := .active, pos := 1 } id, { st := .active, pos := 1 }, by decide +kernel⟩,
   ⟨.cp 31, ws, by decide +kernel⟩,
   ⟨3, 0, wst { st := .active, idle := 0x03E8 } id, by decide +kernel⟩,
   ⟨.cp 31, ws, by decide +kernel⟩⟩

set_option maxRecDepth 100000 in
/-- The hypotheses of StreamTransfersAndTranslation can be met, clause by clause. -/
theorem witness_StreamTransfersAndTranslation :
    (∃ (a : ℤ),
      a < 0 ∨ 2 ^ 40 ≤ a) ∧
    (∃ (s : State) (a : ℤ) (e : DWord),
      0 ≤ a ∧ a < 2 ^ 40 ∧ e = tget 0 s.spt (a.toNat / 524288) ∧ spP e = false) ∧
    (∃ (s : State) (ctx : Option Byte) (a : ℤ) (e : DWord),
      0 ≤ a ∧ a < 2 ^ 40 ∧ e = tget 0 s.spt (a.toNat / 524288) ∧ spP e = true ∧ ctx ≠ some (spCtx e)) ∧
    (∃ (s : State) (ctx : Option Byte) (a : ℤ) (write : Bool) (e : DWord),
      0 ≤ a ∧
      a < 2 ^ 40 ∧ e = tget 0 s.spt (a.toNat / 524288) ∧ spP e = true ∧ ctx = some (spCtx e) ∧ (if write = true then spW e else spR e) = false) ∧
    (∃ (s : State) (ctx : Option Byte) (a : ℤ) (write : Bool) (e : DWord),
      0 ≤ a ∧
      a < 2 ^ 40 ∧
        e = tget 0 s.spt (a.toNat / 524288) ∧
          spP e = true ∧ ctx = some (spCtx e) ∧ (if write = true then spW e else spR e) = true ∧ spHost e = false) ∧
    (∃ (s : State) (ctx : Option Byte) (a : ℤ) (write : Bool) (e : DWord),
      0 ≤ a ∧
      a < 2 ^ 40 ∧
        e = tget 0 s.spt (a.toNat / 524288) ∧
          spP e = true ∧ ctx = some (spCtx e) ∧ (if write = true then spW e else spR e) = true ∧ spHost e = true) ∧
    (∃ (n : Fin 64) (k : Fin 64) (s : State) (t : Machine.Stream) (m : ℕ) (a : ℕ),
      t = s.cals[n].streams[k] ∧
      s.demandOk t = true ∧
        dDstKind t.desc = 0 ∧
          dSrcKind t.desc ≠ 5 ∧
            t.outWords = [] ∧
              t.inBuf ≠ [] ∧
                t.bufPos = t.pos ∧
                  m = min t.inBuf.length (max 1 (dRec t.desc) - t.pos % max 1 (dRec t.desc)) ∧
                    a = (endAddr t.desc false t.pos).toNat ∧ recordSeg s.cals[n] t.desc false (t.pos / max 1 (dRec t.desc)) = true) ∧
    (∃ (n : Fin 64) (k : Fin 64) (s : State) (t : Machine.Stream),
      t = s.cals[n].streams[k] ∧
      s.demandOk t = true ∧
        dDstKind t.desc = 0 ∧
          dSrcKind t.desc ≠ 5 ∧
            t.outWords = [] ∧ t.inBuf ≠ [] ∧ t.bufPos = t.pos ∧ recordSeg s.cals[n] t.desc false (t.pos / max 1 (dRec t.desc)) = false) ∧
    (∃ (n : Fin 64) (k : Fin 64) (s : State) (t : Machine.Stream) (m : ℕ),
      t = s.cals[n].streams[k] ∧
      s.demandOk t = true ∧
        dDstKind t.desc = 0 ∧
          dSrcKind t.desc = 0 ∧
            t.outWords = [] ∧
              t.inBuf = [] ∧
                t.bufPos = t.pos ∧
                  t.pos < dTotal t.desc ∧
                    0 < dRec t.desc ∧
                      m = dRec t.desc - t.pos % dRec t.desc ∧
                        s.cals[n].ringBytes k = none ∧
                          recordSeg s.cals[n] t.desc true (t.pos / dRec t.desc) = true ∧
                            recordSeg s.cals[n] t.desc false (t.pos / dRec t.desc) = true) ∧
    (∃ (r : SlotRef) (s : State),
      s.demandOk (s.stm r) = false) :=
  ⟨⟨2 ^ 40, by decide +kernel⟩,
   ⟨ws, 2 ^ 40 - 1, 0, by decide +kernel⟩,
   ⟨{ ws with spt := [(0, 1)] }, none, 0, 1, by decide +kernel⟩,
   ⟨{ ws with spt := [(0, 1)] }, some 0, 524287, false, 1, by decide +kernel⟩,
   ⟨{ ws with spt := [(0, 3)] }, some 0, 0, false, 3, by decide +kernel⟩,
   ⟨{ ws with spt := [(0, 0x15)] }, some 0, 0, true, 0x15, by decide +kernel⟩,
   ⟨3, 0, wst { st := .active, desc := 3, inBuf := [7] } (fun c => { c with segs := Vector.replicate 32 wseg }), { st := .active, desc := 3, inBuf := [7] }, 1, 0, by decide +kernel⟩,
   ⟨3, 0, wst { st := .active, desc := 3, inBuf := [7] } id, { st := .active, desc := 3, inBuf := [7] }, by decide +kernel⟩,
   ⟨3, 0, wst { st := .active } (fun c => { c with segs := Vector.replicate 32 wseg }), { st := .active }, 1, by decide +kernel⟩,
   ⟨.cp 0, ws, by decide +kernel⟩⟩

set_option maxRecDepth 100000 in
/-- The hypotheses of StagingPlacesRecords can be met, clause by clause. -/
theorem witness_StagingPlacesRecords :
    (∃ (n : Fin 64) (k : Fin 64) (s : State) (c : Caldera),
      c = s.cals[n].syncFill k ∧
      s.demandOk s.cals[n].streams[k] = true ∧
        dStaged s.cals[n].streams[k].desc = true ∧ dRec s.cals[n].streams[k].desc ≤ c.streams[k].inBuf.length ∧ c.stageRoom k true = true) ∧
    (∃ (n : Fin 64) (k : Fin 64) (s : State) (c : Caldera),
      c = s.cals[n].syncFill k ∧ s.demandOk s.cals[n].streams[k] = true ∧ dStaged s.cals[n].streams[k].desc = true ∧ c.stageRoom k true = false) ∧
    (∃ (n : Fin 64) (k : Fin 64) (io : HostIO) (s : State) (c : Caldera) (u : State),
      c = s.cals[n].syncFill k ∧
      s.demandOk s.cals[n].streams[k] = true ∧
        dStaged s.cals[n].streams[k].desc = true ∧
          c.streams[k].inBuf.length < dRec s.cals[n].streams[k].desc ∧
            c.stageRoom k true = true ∧ (s.modCal n fun c => c.syncFill k).fill (SlotRef.cal n k) io false = Move.ok u) ∧
    (∃ (n : Fin 64) (k : Fin 64) (io : HostIO) (s : State) (c : Caldera),
      c = s.cals[n].syncFill k ∧
      s.demandOk s.cals[n].streams[k] = true ∧
        dStaged s.cals[n].streams[k].desc = true ∧
          c.streams[k].inBuf.length < dRec s.cals[n].streams[k].desc ∧
            c.stageRoom k true = true ∧ (s.modCal n fun c => c.syncFill k).fill (SlotRef.cal n k) io false = Move.wait) ∧
    (∃ (n : Fin 64) (k : Fin 64) (s : State) (c : Caldera) (b : ℕ),
      c = s.cals[n].syncFill k ∧
      s.cals[n].streams[k].st = StmState.armed ∧
        dPf s.cals[n].streams[k].desc = true ∧
          s.beatOf s.cals[n].streams[k] = some b ∧
            b < s.cals[n].streams[k].first ∧
              s.cals[n].streams[k].first ≤ b + 2 ∧
                dStaged s.cals[n].streams[k].desc = true ∧
                  s.cals[n].streams[k].raStop = false ∧
                    (dSrcKind s.cals[n].streams[k].desc = 2 ∨ dSrcKind s.cals[n].streams[k].desc = 3 ∨ dSrcKind s.cals[n].streams[k].desc = 5) ∧
                      dRec s.cals[n].streams[k].desc ≤ c.streams[k].inBuf.length ∧ c.stageRoom k false = true) ∧
    (∃ (n : Fin 64) (k : Fin 64) (s : State) (c : Caldera) (b : ℕ),
      c = s.cals[n].syncFill k ∧
      s.cals[n].streams[k].st = StmState.armed ∧
        dPf s.cals[n].streams[k].desc = true ∧
          s.beatOf s.cals[n].streams[k] = some b ∧
            b < s.cals[n].streams[k].first ∧
              s.cals[n].streams[k].first ≤ b + 2 ∧
                dStaged s.cals[n].streams[k].desc = true ∧
                  s.cals[n].streams[k].raStop = false ∧
                    (dSrcKind s.cals[n].streams[k].desc = 2 ∨ dSrcKind s.cals[n].streams[k].desc = 3 ∨ dSrcKind s.cals[n].streams[k].desc = 5) ∧
                      c.stageRoom k false = false) ∧
    (∃ (n : Fin 64) (k : Fin 64) (s : State),
      s.cals[n].streams[k].st ≠ StmState.armed ∨ dPf s.cals[n].streams[k].desc = false ∨ s.cals[n].streams[k].raStop = true) ∧
    (∃ (c : Caldera),
      c.pool = []) ∧
    (∃ (c : Caldera) (d : Caldera) (k : Fin 64),
      c.stage k false = some d) ∧
    (∃ (c : Caldera) (d : Caldera) (k : Fin 64) (q : PoolSlot),
      c.stage k false = some d ∧ q ∈ c.pool) ∧
    (∃ (c : Caldera) (k : Fin 64) (v : PoolSlot),
      (List.map (fun x => x.idx) c.pool).Nodup ∧
      c.pool.any (c.joins k true) = false ∧ (∀ i ∈ c.ownSlots k, ∃ q ∈ c.pool, q.idx = i) ∧ c.victim k = some v) ∧
    (∃ (c : Caldera) (k : Fin 64) (v : PoolSlot) (q : PoolSlot),
      (List.map (fun x => x.idx) c.pool).Nodup ∧
      c.pool.any (c.joins k true) = false ∧
        (∀ i ∈ c.ownSlots k, ∃ q ∈ c.pool, q.idx = i) ∧
          c.victim k = some v ∧ q ∈ c.pool ∧ q.owner ≠ ↑k ∧ q.demand = false ∧ c.shared q.idx = true) ∧
    (∃ (c : Caldera) (d : Caldera) (k : Fin 64),
      c.stage k true = some d ∧ (c.pool.any (c.joins k true) = true ∨ ∃ i ∈ c.ownSlots k, ∀ q ∈ c.pool, q.idx ≠ i)) ∧
    (∃ (c : Caldera) (d : Caldera) (k : Fin 64) (dem : Bool),
      c.stage k dem = some d) :=
  ⟨⟨3, 0, wst { st := .active, desc := 0x43, inBuf := [7] } id, _, rfl, by decide +kernel⟩,
   ⟨3, 0, wst { st := .active, desc := 0x43, inBuf := [7] } (fun c => { c with pool := (List.range 128).map (fun i => { idx := i, owner := 5, demand := true, order := 0, pos := 0, len := 66 }) }), _, rfl, by decide +kernel⟩,
   ⟨3, 0, .none, wst { st := .active, desc := 0x40 } (fun c => { c with segs := Vector.replicate 32 wseg }), _, _, rfl, by decide +kernel, by decide +kernel, by decide +kernel, by decide +kernel, rfl⟩,
   ⟨3, 0, .none, wst { st := .active, desc := 0x43 } id, _, rfl, by decide +kernel⟩,
   ⟨3, 0, wrun (wst { st := .armed, desc := 0x4042, inBuf := [7], plan := some 1, first := 2 } id), _, 1, rfl, by decide +kernel⟩,
   ⟨3, 0, wrun (wst { st := .armed, desc := 0x4042, inBuf := [7], plan := some 1, first := 2 } (fun c => { c with pool := (List.range 128).map (fun i => { idx := i, owner := 5, demand := true, order := 0, pos := 0, len := 66 }) })), _, 1, rfl, by decide +kernel⟩,
   ⟨3, 63, ws, by decide +kernel⟩,
   ⟨{}, rfl⟩,
   ⟨{}, _, 0, rfl⟩,
   ⟨{ pool := [{ idx := 5, owner := 1, demand := true, order := 0, pos := 0, len := 1 }] }, _, 0, _, rfl, List.mem_cons_self⟩,
   ⟨{ pool := [⟨0, 1, false, 0, 0, 66⟩, ⟨1, 1, false, 1, 0, 66⟩] }, 0, ⟨1, 1, false, 1, 0, 66⟩, by decide +kernel⟩,
   ⟨{ pool := [⟨0, 1, false, 0, 0, 66⟩, ⟨1, 1, false, 1, 0, 66⟩] }, 0, ⟨1, 1, false, 1, 0, 66⟩, ⟨0, 1, false, 0, 0, 66⟩, by decide +kernel⟩,
   ⟨{}, _, 0, rfl, by decide +kernel⟩,
   ⟨{}, _, 0, true, rfl⟩⟩

/-- The hypotheses of NocRequestsAndRoutes can be met, clause by clause. -/
theorem witness_NocRequestsAndRoutes :
    (∃ (die : ℕ) (lane : ℕ),
      die < 2 ∧ lane < 8) ∧
    (∃ (i : ℕ) (n : BitVec 9),
      i < 256 ∧ rtTarget i = some n) ∧
    (∃ (i : ℕ) (j : ℕ) (n : BitVec 9),
      rtTarget i = some n ∧ rtTarget j = some n) ∧
    (∃ (s : State),
      5 ≤ s.pwr.phase.toNat) ∧
    (∃ (n : BitVec 9) (route : BitVec 8) (k : BitVec 4) (d : Data256) (s : State) (r : ℕ) (dst : BitVec 9),
      k.toNat ≠ 8 ∧
      (nodeIndex n).isSome = true ∧
        injectionRefused n k.toNat r = false ∧
          (if k.toNat < 2 then addrRoute (npAddr d) else some route.toNat) = some r ∧ dst = fld (s.rtEntry r) 0 9 ∧ s.quietNode n = true) ∧
    (∃ (n : BitVec 9) (route : BitVec 8) (k : BitVec 4) (d : Data256) (s : State) (r : ℕ) (dst : BitVec 9),
      k.toNat ≠ 8 ∧
      (nodeIndex n).isSome = true ∧
        injectionRefused n k.toNat r = false ∧
          (if k.toNat < 2 then addrRoute (npAddr d) else some route.toNat) = some r ∧
            dst = fld (s.rtEntry r) 0 9 ∧
              s.quietNode n = false ∧
                isNode dst = true ∧
                  (r < 192 ∧ (rtTarget r).isSome = true ∨ 192 ≤ r ∧ k = 4) ∧
                    (s.iface n).used.length ≤ 1016 ∧ (s.iface n).out.length < 8 ∧ ∀ q ∈ (s.iface n).out, s.keepsBack q dst = false) ∧
    (∃ (n : BitVec 9) (route : BitVec 8) (k : BitVec 4) (d : Data256) (s : State) (r : ℕ) (dst : BitVec 9),
      k.toNat ≠ 8 ∧
      (nodeIndex n).isSome = true ∧
        injectionRefused n k.toNat r = false ∧
          (if k.toNat < 2 then addrRoute (npAddr d) else some route.toNat) = some r ∧
            dst = fld (s.rtEntry r) 0 9 ∧
              s.quietNode n = false ∧
                isNode dst = true ∧
                  (r < 192 ∧ (rtTarget r).isSome = true ∨ 192 ≤ r ∧ k = 4) ∧
                    (s.iface n).used.length ≤ 1016 ∧ (8 ≤ (s.iface n).out.length ∨ ∃ q ∈ (s.iface n).out, s.keepsBack q dst = true)) ∧
    (∃ (n : BitVec 9) (route : BitVec 8) (k : BitVec 4) (s : State),
      2 ≤ k.toNat ∧ k.toNat ≠ 8 ∧ (nodeIndex n).isSome = true ∧ s.quietNode n = false ∧ injectionRefused n k.toNat route.toNat = true) ∧
    (∃ (n : BitVec 9) (route : BitVec 8) (k : BitVec 4) (s : State),
      2 ≤ k.toNat ∧
      k.toNat ≠ 8 ∧
        (nodeIndex n).isSome = true ∧
          s.quietNode n = false ∧ injectionRefused n k.toNat route.toNat = false ∧ route.toNat < 192 ∧ rtTarget route.toNat = none) ∧
    (∃ (n : BitVec 9) (route : BitVec 8) (k : BitVec 4) (s : State),
      2 ≤ k.toNat ∧
      k.toNat ≠ 8 ∧
        (nodeIndex n).isSome = true ∧
          s.quietNode n = false ∧
            injectionRefused n k.toNat route.toNat = false ∧
              route.toNat < 192 ∧
                (rtTarget route.toNat).isSome = true ∧ isNode (fld (s.rtEntry route.toNat) 0 9) = true ∧ 1016 < (s.iface n).used.length) :=
  ⟨⟨0, 0, by decide +kernel⟩,
   ⟨0x86, _, by decide +kernel, rfl⟩,
   ⟨0, 0, _, rfl, rfl⟩,
   ⟨ws, by decide +kernel⟩,
   ⟨regionNode 0, 0xC0, 4, 0, ws, 0xC0, _, by decide +kernel, by decide +kernel, by decide +kernel, by decide +kernel, rfl, by decide +kernel⟩,
   ⟨pcieNode, 0, 0, 0, ws, 0x80, glbNode, by decide +kernel⟩,
   ⟨pcieNode, 0, 0, 0, { ws with ifaces := [(pcieNode.toNat, { out := [{ tag := 0, dst := glbNode, hdr := 0, data := 0, since := 0 }] })] }, 0x80, glbNode, by decide +kernel⟩,
   ⟨portNode 0, 0, 3, ws, by decide +kernel⟩,
   ⟨pcieNode, 0x4C, 3, ws, by decide +kernel⟩,
   ⟨pcieNode, 0, 3, { ws with ifaces := [(pcieNode.toNat, { lost := (List.range 1017).map (BitVec.ofNat 10) })] }, by decide +kernel⟩⟩

/-- The hypotheses of NocHopsMovePackets can be met, clause by clause. -/
theorem witness_NocHopsMovePackets :
    (∃ (die : Bool) (x : Fin 8) (y : Fin 8) (s : State) (p : NPkt),
      List.filter (fun p => p.die == die && p.x == x && p.y == y) s.mesh = [p] ∧ p.port ≠ 5 ∧ p.aim = (↑x, ↑y, false)) ∧
    (∃ (die : Bool) (x : Fin 8) (y : Fin 8) (s : State) (p : NPkt) (port : ℕ),
      List.filter (fun p => p.die == die && p.x == x && p.y == y) s.mesh = [p] ∧ p.productive = some port) ∧
    (∃ (die : Bool) (x : Fin 8) (y : Fin 8) (s : State) (p : NPkt),
      List.filter (fun p => p.die == die && p.x == x && p.y == y) s.mesh = [p] ∧ p.port ≠ 5 ∧ p.aim = (↑x, ↑y, true)) ∧
    (∃ (p : NPkt) (port : ℕ),
      p.productive = some port) :=
  ⟨⟨false, 2, 3, { ws with mesh := [wpk] }, wpk, by decide +kernel⟩,
   ⟨false, 1, 3, { ws with mesh := [{ wpk with x := 1 }] }, { wpk with x := 1 }, 3, by decide +kernel⟩,
   ⟨true, 0, 0, { ws with mesh := [{ wpk with die := true, x := 0, y := 0 }] }, { wpk with die := true, x := 0, y := 0 }, by decide +kernel⟩,
   ⟨{ wpk with x := 1 }, 3, by decide +kernel⟩⟩

/-- The hypotheses of NocAnswersOnce can be met, clause by clause. -/
theorem witness_NocAnswersOnce :
    (∃ (n : BitVec 9) (s : State) (p : Word × Data256) (q : NReq),
      List.find? (fun p => hdType p.1 == 8) (s.iface n).rxq = some p ∧
      List.find? (fun q => q.tag == npTag p.2) (s.iface n).out = some q ∧ npStatus p.2 ≠ 2) ∧
    (∃ (n : BitVec 9) (s : State) (p : Word × Data256) (q : NReq),
      List.find? (fun p => hdType p.1 == 8) (s.iface n).rxq = some p ∧
      List.find? (fun q => q.tag == npTag p.2) (s.iface n).out = some q ∧ npStatus p.2 = 2) ∧
    (∃ (n : BitVec 9) (s : State) (p : Word × Data256),
      List.find? (fun p => hdType p.1 == 8) (s.iface n).rxq = some p ∧ ∀ q ∈ (s.iface n).out, q.tag ≠ npTag p.2) ∧
    (∃ (n : BitVec 9) (tag : BitVec 10) (s : State) (q : NReq),
      List.find? (fun q => q.tag == tag && q.busy) (s.iface n).out = some q) ∧
    (∃ (n : BitVec 9) (tag : BitVec 10) (s : State) (q : NReq),
      List.find? (fun q => q.tag == tag && q.sent) (s.iface n).out = some q ∧
      q.since + (s.noc[(if nodeDie n then 1 else 0 : Fin 2)]).timeout.toNat ≤ s.now) ∧
    (∃ (n : BitVec 9) (tag : BitVec 10) (s : State) (q : NReq),
      List.find? (fun q => q.tag == tag && q.sent) (s.iface n).out = some q ∧
      s.now < q.since + (s.noc[(if nodeDie n then 1 else 0 : Fin 2)]).timeout.toNat) ∧
    (∃ (n : BitVec 9) (tag : BitVec 10) (s : State),
      ∀ q ∈ (s.iface n).out, q.tag = tag → q.sent = false) ∧
    (∃ (n : BitVec 9) (s : State),
      n ≠ mcNode ∨ s.fab.job = none) ∧
    (∃ (tag : BitVec 10) (s : State) (j : MgJob),
      s.fab.job = some j ∧ j.asked = some tag) ∧
    (∃ (n : BitVec 9) (s : State) (p : Word × Data256) (s0 : State),
      (List.filter (fun p => hdType p.1 != 8) (s.iface n).rxq).length ≤ max 1 Config.nocQueue ∧
      List.find? (fun p => !s.reqWaits n p) (List.filter (fun p => hdType p.1 != 8) (s.iface n).rxq) = some p ∧
        forFan n p = false ∧
          s.forLogic n p = none ∧
            (s0 = s.modIface n fun i => { i with rxq := i.rxq.erase p }) ∧
              hdType p.1 = 0 ∧ accessFits n p.2 = true ∧ s0.foreign (hdSrc p.1) n = false ∧ (s0.readAt (npAddr p.2) (npLen p.2)).1 < 256) ∧
    (∃ (n : BitVec 9) (s : State) (p : Word × Data256) (s0 : State) (x : ℕ × State),
      (List.filter (fun p => hdType p.1 != 8) (s.iface n).rxq).length ≤ max 1 Config.nocQueue ∧
      List.find? (fun p => !s.reqWaits n p) (List.filter (fun p => hdType p.1 != 8) (s.iface n).rxq) = some p ∧
        forFan n p = false ∧
          s.forLogic n p = none ∧
            (s0 = s.modIface n fun i => { i with rxq := i.rxq.erase p }) ∧
              hdType p.1 = 1 ∧
                accessFits n p.2 = true ∧
                  s0.foreign (hdSrc p.1) n = false ∧ x = s0.writeAt (whoOf (hdSrc p.1)) (npAddr p.2) (npWords p.2) ∧ x.1 < 256) ∧
    (∃ (n : BitVec 9) (s : State) (p : Word × Data256) (s0 : State),
      (List.filter (fun p => hdType p.1 != 8) (s.iface n).rxq).length ≤ max 1 Config.nocQueue ∧
      List.find? (fun p => !s.reqWaits n p) (List.filter (fun p => hdType p.1 != 8) (s.iface n).rxq) = some p ∧
        forFan n p = false ∧
          s.forLogic n p = none ∧
            (s0 = s.modIface n fun i => { i with rxq := i.rxq.erase p }) ∧
              hdType p.1 < 2 ∧ accessFits n p.2 = false ∧ s0.foreign (hdSrc p.1) n = false) ∧
    (∃ (n : BitVec 9) (s : State) (p : Word × Data256) (s0 : State),
      (List.filter (fun p => hdType p.1 != 8) (s.iface n).rxq).length ≤ max 1 Config.nocQueue ∧
      List.find? (fun p => !s.reqWaits n p) (List.filter (fun p => hdType p.1 != 8) (s.iface n).rxq) = some p ∧
        forFan n p = false ∧
          s.forLogic n p = none ∧
            (s0 = s.modIface n fun i => { i with rxq := i.rxq.erase p }) ∧
              s0.foreign (hdSrc p.1) n = true) ∧
    (∃ (p : Word × Data256) (st : ℕ),
      hdType p.1 = 1 ∧ st = 0 ∧ npAddr p.2 = 32 ∧ glbResets (fld (npData p.2) 0 32) = true) ∧
    (∃ (p : Word × Data256) (st : ℕ),
      hdType p.1 ≠ 1 ∨ st ≠ 0 ∨ npAddr p.2 ≠ 32 ∨ glbResets (fld (npData p.2) 0 32) = false) ∧
    (∃ (n : BitVec 9) (s : State) (q : Word × Data256),
      max 1 Config.nocQueue < (List.filter (fun p => hdType p.1 != 8) (s.iface n).rxq).length ∧
      (List.filter (fun p => hdType p.1 != 8) (s.iface n).rxq).getLast? = some q) ∧
    (∃ (n : BitVec 9) (s : State) (p : Word × Data256) (r : Fin 16),
      (List.filter (fun p => hdType p.1 != 8) (s.iface n).rxq).length ≤ max 1 Config.nocQueue ∧
      List.find? (fun p => !s.reqWaits n p) (List.filter (fun p => hdType p.1 != 8) (s.iface n).rxq) = some p ∧
        forFan n p = false ∧ s.forLogic n p = some r) ∧
    (∃ (n : BitVec 9) (s : State),
      (List.filter (fun p => hdType p.1 != 8) (s.iface n).rxq).length ≤ max 1 Config.nocQueue ∧
      ∀ p ∈ (s.iface n).rxq, hdType p.1 ≠ 8 → s.reqWaits n p = true) :=
  ⟨⟨pcieNode, { ws with ifaces := [(pcieNode.toNat, { out := [wnq], rxq := [wrsp 0] })] }, wrsp 0, wnq, by decide +kernel⟩,
   ⟨pcieNode, { ws with ifaces := [(pcieNode.toNat, { out := [wnq], rxq := [wrsp 2] })] }, wrsp 2, wnq, by decide +kernel⟩,
   ⟨pcieNode, { ws with ifaces := [(pcieNode.toNat, { rxq := [wrsp 0] })] }, wrsp 0, by decide +kernel⟩,
   ⟨pcieNode, 0, { ws with ifaces := [(pcieNode.toNat, { out := [{ wnq with busy := true }] })] }, { wnq with busy := true }, by decide +kernel⟩,
   ⟨pcieNode, 0, { ws with ifaces := [(pcieNode.toNat, { out := [wnq] })], now := 10000 }, wnq, by decide +kernel⟩,
   ⟨pcieNode, 0, { ws with ifaces := [(pcieNode.toNat, { out := [wnq] })], now := 9999 }, wnq, by decide +kernel⟩,
   ⟨pcieNode, 0, ws, by decide +kernel⟩,
   ⟨mcNode, ws, by decide +kernel⟩,
   ⟨0, { ws with fab := { ws.fab with job := some wjob } }, wjob, by decide +kernel⟩,
   ⟨glbNode, { ws with ifaces := [(glbNode.toNat, { rxq := [(mkHeader glbNode pcieNode 0 0, 0)] })] }, (mkHeader glbNode pcieNode 0 0, 0), _, le_max_left _ _, by decide +kernel, by decide +kernel, by decide +kernel, rfl, by decide +kernel⟩,
   ⟨glbNode, { ws with ifaces := [(glbNode.toNat, { rxq := [(mkHeader glbNode pcieNode 1 0, 0x40)] })] }, (mkHeader glbNode pcieNode 1 0, 0x40), _, _, le_max_left _ _, by decide +kernel, by decide +kernel, by decide +kernel, rfl, by decide +kernel, by decide +kernel, by decide +kernel, rfl, by decide +kernel⟩,
   ⟨glbNode, { ws with ifaces := [(glbNode.toNat, { rxq := [(mkHeader glbNode pcieNode 0 0, 1)] })] }, (mkHeader glbNode pcieNode 0 0, 1), _, le_max_left _ _, by decide +kernel, by decide +kernel, by decide +kernel, rfl, by decide +kernel⟩,
   ⟨regionNode 0, { wforeign with ifaces := [((regionNode 0).toNat, { rxq := [(mkHeader (regionNode 0) (calNode 3) 0 0, 0)] })] }, (mkHeader (regionNode 0) (calNode 3) 0 0, 0), _, le_max_left _ _, by decide +kernel, by decide +kernel, by decide +kernel, rfl, by decide +kernel⟩,
   ⟨(mkHeader glbNode pcieNode 1 0, bits 256 [(0, 0x20), (128, 0xD05E0001)]), 0, by decide +kernel⟩,
   ⟨(mkHeader glbNode pcieNode 1 0, 0x40), 0, by decide +kernel⟩,
   ⟨glbNode, { ws with ifaces := [(glbNode.toNat, { rxq := List.replicate (max 1 Config.nocQueue + 1) (0, 0) })] }, (0, 0),
    by show max 1 Config.nocQueue < (List.filter _ (List.replicate (max 1 Config.nocQueue + 1) ((0, 0) : Word × Data256))).length; rw [List.filter_replicate_of_pos (by decide)]; simp,
    by show (List.filter _ (List.replicate (max 1 Config.nocQueue + 1) ((0, 0) : Word × Data256))).getLast? = some (0, 0); rw [List.filter_replicate_of_pos (by decide)]; simp [List.getLast?_replicate]⟩,
   ⟨regionNode 15, { ws with ifaces := [((regionNode 15).toNat, { rxq := [(mkHeader (regionNode 15) pcieNode 4 0, 0)] })] }, (mkHeader (regionNode 15) pcieNode 4 0, 0), 15, le_max_left _ _, by decide +kernel⟩,
   ⟨glbNode, { ws with fan := some wfanj, ifaces := [(glbNode.toNat, { rxq := [(mkHeader glbNode pcieNode 0 0, 0x2000000)] })] }, le_max_left _ _, fun p h _ => by rw [List.mem_singleton.mp h]; decide +kernel⟩⟩

/-- The hypotheses of ConduitWordsMove can be met, clause by clause. -/
theorem witness_ConduitWordsMove :
    (∃ (n : Fin 64) (a : Fin 64) (b : Fin 64) (s : State) (w : CWord),
      s.cals[n].drives 4 ↑a = [(4, ↑b)] ∧
      s.cals[n].eps[a].en = true ∧
        s.cals[n].eps[a].out = true ∧
          s.cals[n].eps[a].word = some w ∧ s.cals[n].eps[b].en = true ∧ s.cals[n].eps[b].out = false ∧ s.cals[n].eps[b].word = none) ∧
    (∃ (n : Fin 64) (a : Fin 64) (b : Fin 64) (s : State) (w : CWord),
      s.cals[n].drives 4 ↑a = [(4, ↑b)] ∧
      s.cals[n].eps[a].en = true ∧
        s.cals[n].eps[a].out = true ∧
          s.cals[n].eps[a].word = some w ∧ s.cals[n].eps[b].en = true ∧ s.cals[n].eps[b].out = false ∧ s.cals[n].eps[b].word.isSome = true) ∧
    (∃ (n : Fin 64) (a : Fin 64) (b : Fin 64) (c : Fin 64) (s : State) (w : CWord),
      s.cals[n].drives 4 ↑a = [(4, ↑b), (4, ↑c)] ∧
      b ≠ c ∧
        s.cals[n].eps[a].en = true ∧
          s.cals[n].eps[a].out = true ∧
            s.cals[n].eps[a].word = some w ∧
              (∀ e ∈ [b, c], s.cals[n].eps[e].en = true ∧ s.cals[n].eps[e].out = false) ∧
                s.cals[n].eps[b].word = none ∧ s.cals[n].eps[c].word = none) ∧
    (∃ (n : Fin 64) (a : Fin 64) (b : Fin 64) (c : Fin 64) (s : State) (w : CWord),
      s.cals[n].drives 4 ↑a = [(4, ↑b), (4, ↑c)] ∧
      b ≠ c ∧
        s.cals[n].eps[a].en = true ∧
          s.cals[n].eps[a].out = true ∧
            s.cals[n].eps[a].word = some w ∧
              (∀ e ∈ [b, c], s.cals[n].eps[e].en = true ∧ s.cals[n].eps[e].out = false) ∧
                (s.cals[n].eps[b].word.isSome = true ∨ s.cals[n].eps[c].word.isSome = true)) ∧
    (∃ (n : Fin 64) (port : Fin 5) (t : Fin 64) (s : State),
      s.cals[n].drives ↑port ↑t = []) ∧
    (∃ (n : Fin 64) (port : Fin 5) (t : Fin 64) (s : State) (o : ℕ × ℕ),
      o ∈ s.cals[n].drives ↑port ↑t ∧ s.outputFree n o = false) :=
  ⟨⟨3, 0, 1, wc 3 (fun c => { c with xps := [(129, 9)], eps := vmod (vmod c.eps 0 (fun e => { e with en := true, out := true, word := some 7 })) 1 (fun e => { e with en := true }) }), 7, by decide +kernel⟩,
   ⟨3, 0, 1, wc 3 (fun c => { c with xps := [(129, 9)], eps := vmod (vmod c.eps 0 (fun e => { e with en := true, out := true, word := some 7 })) 1 (fun e => { e with en := true, word := some 1 }) }), 7, by decide +kernel⟩,
   ⟨3, 0, 1, 2, wc 3 (fun c => { c with xps := [(129, 9), (130, 9)], eps := vmod (c.eps.map (fun e => { e with en := true })) 0 (fun e => { e with out := true, word := some 7 }) }), 7, by decide +kernel⟩,
   ⟨3, 0, 1, 2, wc 3 (fun c => { c with xps := [(129, 9), (130, 9)], eps := vmod (vmod (c.eps.map (fun e => { e with en := true })) 0 (fun e => { e with out := true, word := some 7 })) 2 (fun e => { e with word := some 1 }) }), 7, by decide +kernel⟩,
   ⟨3, 4, 63, ws, by decide +kernel⟩,
   ⟨3, 4, 0, wc 3 (fun c => { c with xps := [(129, 9)] }), (4, 1), by decide +kernel⟩⟩

/-- The hypotheses of BlockPlacesAreDistinct can be met, clause by clause. -/
theorem witness_BlockPlacesAreDistinct :
    ∃ (a : Word) (b : Word),
  blockPlace a = blockPlace b :=
  ⟨0, 0, by decide +kernel⟩

/-- The hypotheses of MemoryRequestsAndCommands can be met, clause by clause. -/
theorem witness_MemoryRequestsAndCommands :
    (∃ (k : Fin 8) (c : Fin 32) (port : MemPort) (s : State) (l : LaneWord),
      List.find? (fun l => l.stack == k && l.ch == c && l.port == port) s.lanes = some l ∧
      rqBad l.word = false ∧
        (blockPlace (rqBlock l.word)).mapped = true ∧
          port = MemPort.free ∧ ∀ (w : SlotRef), l.who = some w → (∃ i, w = SlotRef.cp i) ∧ (s.stm w).epoch = l.epoch) ∧
    (∃ (k : Fin 8) (c : Fin 32) (port : MemPort) (s : State) (l : LaneWord) (n : Fin 64) (i : Fin 64),
      List.find? (fun l => l.stack == k && l.ch == c && l.port == port) s.lanes = some l ∧
      l.who = some (SlotRef.cal n i) ∧ s.cals[n].streams[i].epoch = l.epoch ∧ rqBad l.word = true) ∧
    (∃ (k : Fin 8) (c : Fin 32) (port : MemPort) (s : State) (l : LaneWord) (n : Fin 64) (i : Fin 64),
      List.find? (fun l => l.stack == k && l.ch == c && l.port == port) s.lanes = some l ∧
      l.who = some (SlotRef.cal n i) ∧
        s.cals[n].streams[i].epoch = l.epoch ∧
          rqBad l.word = false ∧
            ((blockPlace (rqBlock l.word)).mapped = false ∨
              port = MemPort.rt ∧ ((blockPlace (rqBlock l.word)).stack ≠ ↑k ∨ (blockPlace (rqBlock l.word)).ch ≠ ↑c))) ∧
    (∃ (k : Fin 8) (c : Fin 32) (port : MemPort) (s : State) (l : LaneWord) (n : Fin 64) (i : Fin 64),
      List.find? (fun l => l.stack == k && l.ch == c && l.port == port) s.lanes = some l ∧
      l.who = some (SlotRef.cal n i) ∧
        s.cals[n].streams[i].epoch = l.epoch ∧
          rqBad l.word = false ∧
            (blockPlace (rqBlock l.word)).mapped = true ∧
              rqWrite l.word = false ∧ (port = MemPort.rt → (blockPlace (rqBlock l.word)).stack = ↑k ∧ (blockPlace (rqBlock l.word)).ch = ↑c)) ∧
    (∃ (k : Fin 8) (c : Fin 32) (port : MemPort) (s : State) (l : LaneWord) (n : Fin 64) (i : Fin 64) (m : ℕ),
      List.find? (fun l => l.stack == k && l.ch == c && l.port == port) s.lanes = some l ∧
      l.who = some (SlotRef.cal n i) ∧
        s.cals[n].streams[i].epoch = l.epoch ∧
          rqBad l.word = false ∧
            port = MemPort.rt ∧
              (blockPlace (rqBlock l.word)).mapped = true ∧
                (blockPlace (rqBlock l.word)).stack = ↑k ∧
                  (blockPlace (rqBlock l.word)).ch = ↑c ∧
                    rqWrite l.word = true ∧
                      m = BitVec.toNat (rqLast l.word) + 1 - BitVec.toNat (rqFirst l.word) ∧ s.hbmStacks[k].ch[c].wdata.length < (m + 63) / 64) ∧
    (∃ (k : Fin 8) (c : Fin 32) (port : MemPort) (s : State) (l : LaneWord) (n : Fin 64) (i : Fin 64) (m : ℕ),
      List.find? (fun l => l.stack == k && l.ch == c && l.port == port) s.lanes = some l ∧
      l.who = some (SlotRef.cal n i) ∧
        s.cals[n].streams[i].epoch = l.epoch ∧
          rqBad l.word = false ∧
            port = MemPort.rt ∧
              (blockPlace (rqBlock l.word)).mapped = true ∧
                (blockPlace (rqBlock l.word)).stack = ↑k ∧
                  (blockPlace (rqBlock l.word)).ch = ↑c ∧
                    rqWrite l.word = true ∧
                      m = BitVec.toNat (rqLast l.word) + 1 - BitVec.toNat (rqFirst l.word) ∧ (m + 63) / 64 ≤ s.hbmStacks[k].ch[c].wdata.length) ∧
    (∃ (k : Fin 8) (e : Fin 32) (s : State) (w : CWord) (n : Fin 64) (i : Fin 64),
      s.hbmStacks[k].eps[e].word = some w ∧
      s.hbmStacks[k].eps[e].dest = true ∧
        s.conduitSource (EpRef.stack k e) = some (EpRef.cal n i) ∧ s.stackEnd n i = some (k, e) ∧ 0 < s.hbmStacks[k].ch[e].writeFree) ∧
    (∃ (k : Fin 8) (e : Fin 32) (s : State) (w : CWord) (n : Fin 64) (i : Fin 64),
      s.hbmStacks[k].eps[e].word = some w ∧
      s.hbmStacks[k].eps[e].dest = true ∧
        s.conduitSource (EpRef.stack k e) = some (EpRef.cal n i) ∧ s.stackEnd n i = some (k, e) ∧ s.hbmStacks[k].ch[e].writeFree = 0) ∧
    (∃ (k : Fin 8) (e : Fin 32) (s : State),
      s.hbmStacks[k].eps[e].word = none) ∧
    (∃ (k : Fin 8) (e : Fin 32) (s : State) (x : CWord × LaneNote) (xs : List (CWord × LaneNote)),
      s.hbmStacks[k].ch[e].rbuf = x :: xs ∧ s.hbmStacks[k].eps[e].source = true ∧ s.hbmStacks[k].eps[e].word = none) ∧
    (∃ (k : Fin 8) (e : Fin 32) (s : State) (x : CWord × LaneNote) (xs : List (CWord × LaneNote)) (n : Fin 64) (i : Fin 64),
      s.hbmStacks[k].ch[e].rbuf = x :: xs ∧
      s.hbmStacks[k].eps[e].source = true ∧ s.hbmStacks[k].eps[e].word = none ∧ EpRef.cal n i ∈ s.conduitDests (EpRef.stack k e)) ∧
    (∃ (k : Fin 8) (e : Fin 32) (s : State) (x : CWord × LaneNote) (xs : List (CWord × LaneNote)),
      s.hbmStacks[k].ch[e].rbuf = x :: xs ∧ s.hbmStacks[k].eps[e].word.isSome = true) ∧
    (∃ (n : Fin 64) (k : Fin 64) (s : State) (w : CWord) (x : LaneNote) (xs : List LaneNote),
      s.cals[n].eps[k].word = some w ∧ s.cals[n].eps[k].coming = x :: xs) ∧
    (∃ (k : Fin 8) (c : Fin 32) (s : State) (r : MemReq),
      s.hbmStacks[k].ch[c].queue = [r] ∧
      s.hbmStacks[k].ch[c].inflight = [] ∧
        s.stale r = false ∧
          s.hbmStacks[k].ch[c].refreshOf s.hbmStacks[k].postMax.toNat = none ∧
            r.write = true ∧ r.first = 0 ∧ r.last = 255 ∧ s.memKey r.ctx = none) ∧
    (∃ (k : Fin 8) (c : Fin 32) (s : State) (r : MemReq),
      s.hbmStacks[k].ch[c].queue = [r] ∧
      s.hbmStacks[k].ch[c].inflight = [] ∧
        s.stale r = false ∧ s.hbmStacks[k].ch[c].refreshOf s.hbmStacks[k].postMax.toNat = none ∧ r.partialWrite = true) ∧
    (∃ (k : Fin 8) (c : Fin 32) (s : State) (r : MemReq),
      s.hbmStacks[k].ch[c].queue = [r] ∧
      s.hbmStacks[k].ch[c].inflight = [] ∧
        s.stale r = false ∧
          s.hbmStacks[k].ch[c].refreshOf s.hbmStacks[k].postMax.toNat = none ∧ r.write = false ∧ s.hbmStacks[k].ch[c].readRoom r = true) ∧
    (∃ (k : Fin 8) (c : Fin 32) (s : State) (r : MemReq),
      s.hbmStacks[k].ch[c].queue = [r] ∧
      s.hbmStacks[k].ch[c].inflight = [] ∧
        s.stale r = false ∧
          s.hbmStacks[k].ch[c].refreshOf s.hbmStacks[k].postMax.toNat = none ∧ r.write = false ∧ s.hbmStacks[k].ch[c].readRoom r = false) ∧
    (∃ (k : Fin 8) (c : Fin 32) (s : State),
      (∀ r ∈ s.hbmStacks[k].ch[c].queue, s.stale r = true) ∧ s.hbmStacks[k].ch[c].refreshOf s.hbmStacks[k].postMax.toNat = none) ∧
    (∃ (k : Fin 8) (c : Fin 32) (s : State) (i : Fin 2) (x : ℕ),
      s.hbmStacks[k].ch[c].queue = [] ∧ s.hbmStacks[k].ch[c].refreshOf s.hbmStacks[k].postMax.toNat = some (i, x)) ∧
    (∃ (k : Fin 8) (c : Fin 32) (s : State),
      s.hbmStacks[k].ch[c].queue = [] ∧ s.hbmStacks[k].ch[c].refreshOf s.hbmStacks[k].postMax.toNat = none) :=
  ⟨⟨2, 1, .free, { ws with lanes := [{ stack := 2, ch := 1, port := .free, word := 0 }] }, { stack := 2, ch := 1, port := .free, word := 0 }, by decide +kernel⟩,
   ⟨2, 1, .rt, { ws with lanes := [{ stack := 2, ch := 1, port := .rt, word := bits 64 [(34, 1)], who := some (.cal 3 0) }] }, { stack := 2, ch := 1, port := .rt, word := bits 64 [(34, 1)], who := some (.cal 3 0) }, 3, 0, by decide +kernel⟩,
   ⟨2, 1, .rt, { ws with lanes := [{ stack := 2, ch := 1, port := .rt, word := 0, who := some (.cal 3 0) }] }, { stack := 2, ch := 1, port := .rt, word := 0, who := some (.cal 3 0) }, 3, 0, by decide +kernel⟩,
   ⟨0, 0, .rt, { ws with lanes := [{ stack := 0, ch := 0, port := .rt, word := 0, who := some (.cal 3 0) }] }, { stack := 0, ch := 0, port := .rt, word := 0, who := some (.cal 3 0) }, 3, 0, by decide +kernel⟩,
   ⟨0, 0, .rt, { ws with lanes := [{ stack := 0, ch := 0, port := .rt, word := bits 64 [(32, 1)], who := some (.cal 3 0) }] }, { stack := 0, ch := 0, port := .rt, word := bits 64 [(32, 1)], who := some (.cal 3 0) }, 3, 0, 1, by decide +kernel⟩,
   ⟨0, 0, .rt, { ws with lanes := [{ stack := 0, ch := 0, port := .rt, word := bits 64 [(32, 1), (42, 255)], who := some (.cal 3 0) }], hbmStacks := vmod ws.hbmStacks 0 (fun k => { k with ch := vmod k.ch 0 (fun c => { c with wdata := List.replicate 4 0 }) }) }, { stack := 0, ch := 0, port := .rt, word := bits 64 [(32, 1), (42, 255)], who := some (.cal 3 0) }, 3, 0, 256, by decide +kernel⟩,
   ⟨0, 0, wcon (fun e => { e with en := true, out := true }) (fun k => { k with eps := vmod k.eps 0 (fun e => { e with en := true, word := some 7 }) }), 7, 0, 0, by decide +kernel⟩,
   ⟨0, 0, wcon (fun e => { e with en := true, out := true }) (fun k => { k with eps := vmod k.eps 0 (fun e => { e with en := true, word := some 7 }), ch := vmod k.ch 0 (fun c => { c with wdata := List.replicate 64 0 }) }), 7, 0, 0, by decide +kernel⟩,
   ⟨2, 1, ws, by decide +kernel⟩,
   ⟨2, 1, wk 2 (fun k => { k with eps := vmod k.eps 1 (fun e => { e with en := true, out := true }), ch := vmod k.ch 1 (fun c => { c with rbuf := [(7, wnote)] }) }), (7, wnote), [], by decide +kernel⟩,
   ⟨0, 0, wcon (fun e => { e with en := true }) (fun k => { k with eps := vmod k.eps 0 (fun e => { e with en := true, out := true }), ch := vmod k.ch 0 (fun c => { c with rbuf := [(7, wnote)] }) }), (7, wnote), [], 0, 0, by decide +kernel⟩,
   ⟨2, 1, wk 2 (fun k => { k with eps := vmod k.eps 1 (fun e => { e with en := true, out := true, word := some 1 }), ch := vmod k.ch 1 (fun c => { c with rbuf := [(7, wnote)] }) }), (7, wnote), [], by decide +kernel⟩,
   ⟨3, 0, wc 3 (fun c => { c with eps := vmod c.eps 0 (fun e => { e with word := some 7, coming := [wnote] }) }), 7, wnote, [], by decide +kernel⟩,
   ⟨2, 1, wch (fun c => { c with queue := [{ wrq with write := true }] }), { wrq with write := true }, by decide +kernel⟩,
   ⟨2, 1, wch (fun c => { c with queue := [{ wrq with write := true, last := 254 }] }), { wrq with write := true, last := 254 }, by decide +kernel⟩,
   ⟨2, 1, wch (fun c => { c with queue := [wrq] }), wrq, by decide +kernel⟩,
   ⟨2, 1, wch (fun c => { c with queue := [wrq], rbuf := List.replicate 64 (0, wnote) }), wrq, by decide +kernel⟩,
   ⟨2, 1, wch (fun c => { c with queue := [{ wrq with epoch := 1 }] }), by decide +kernel⟩,
   ⟨2, 1, wch (fun c => { c with due := #v[0, 1] }), 1, 3, by decide +kernel⟩,
   ⟨2, 1, ws, by decide +kernel⟩⟩

set_option maxRecDepth 100000 in
/-- The hypotheses of MemoryReadsAndChecks can be met, clause by clause. -/
theorem witness_MemoryReadsAndChecks :
    (∃ (k : Fin 8) (c : Fin 32) (s : State) (flip : Data2048) (fc : Word) (r : MemReq) (x : Data2048 × Word) (n : Fin 64) (i : Fin 64),
      s.hbmStacks[k].ch[c].due? = some r ∧
      r.rereads = 0 ∧
        s.stale r = false ∧
          x = s.returned r.block flip fc ∧
            blockCheck r.block (toBytes x.1 256) = x.2 ∧
              r.write = false ∧
                r.who = some (SlotRef.cal n i) ∧
                  s.memKey r.ctx = none ∧
                    r.port = MemPort.free ∧
                      s.cals[n].streams[i].epoch = r.epoch ∧ s.cals[n].streams[i].bufPos + s.cals[n].streams[i].inBuf.length = r.pos) ∧
    (∃ (k : Fin 8) (c : Fin 32) (s : State) (flip : Data2048) (fc : Word) (r : MemReq) (x : Data2048 × Word) (n : Fin 64) (i : Fin 64),
      s.hbmStacks[k].ch[c].due? = some r ∧
      r.rereads = 0 ∧
        s.stale r = false ∧
          x = s.returned r.block flip fc ∧
            blockCheck r.block (toBytes x.1 256) = x.2 ∧
              r.write = false ∧ r.who = some (SlotRef.cal n i) ∧ s.memKey r.ctx = none ∧ r.port = MemPort.rt) ∧
    (∃ (k : Fin 8) (c : Fin 32) (s : State) (flip : Data2048) (fc : Word) (r : MemReq) (x : Data2048 × Word),
      s.hbmStacks[k].ch[c].due? = some r ∧
      r.rereads = 0 ∧ s.stale r = false ∧ x = s.returned r.block flip fc ∧ blockCheck r.block (toBytes x.1 256) ≠ x.2 ∧ r.spec = false) ∧
    (∃ (k : Fin 8) (c : Fin 32) (s : State) (flip : Data2048) (fc : Word) (r : MemReq) (x : Data2048 × Word) (n : Fin 64) (i : Fin 64),
      s.hbmStacks[k].ch[c].due? = some r ∧
      r.rereads = 0 ∧
        s.stale r = false ∧
          x = s.returned r.block flip fc ∧
            blockCheck r.block (toBytes x.1 256) ≠ x.2 ∧ r.spec = true ∧ r.who = some (SlotRef.cal n i) ∧ s.cals[n].streams[i].epoch = r.epoch) ∧
    (∃ (k : Fin 8) (c : Fin 32) (s : State) (flip : Data2048) (fc : Word) (r : MemReq) (x : Data2048 × Word),
      s.hbmStacks[k].ch[c].due? = some r ∧
      r.rereads = 0 ∧
        s.stale r = false ∧ x = s.returned r.block flip fc ∧ blockCheck r.block (toBytes x.1 256) = x.2 ∧ r.write = true ∧ s.memKey r.ctx = none) ∧
    (∃ (k : Fin 8) (c : Fin 32) (s : State) (flip : Data2048) (fc : Word) (r : MemReq) (x : Data2048 × Word),
      s.hbmStacks[k].ch[c].due? = some r ∧ r.rereads ≠ 0 ∧ x = s.returned r.block flip fc ∧ blockCheck r.block (toBytes x.1 256) = x.2) ∧
    (∃ (k : Fin 8) (c : Fin 32) (s : State) (flip : Data2048) (fc : Word) (r : MemReq) (x : Data2048 × Word),
      s.hbmStacks[k].ch[c].due? = some r ∧
      r.rereads ≠ 0 ∧ x = s.returned r.block flip fc ∧ blockCheck r.block (toBytes x.1 256) ≠ x.2 ∧ r.rereads < 3) ∧
    (∃ (k : Fin 8) (c : Fin 32) (s : State) (flip : Data2048) (fc : Word) (r : MemReq) (x : Data2048 × Word) (n : Fin 64) (i : Fin 64),
      s.hbmStacks[k].ch[c].due? = some r ∧
      r.rereads ≠ 0 ∧
        x = s.returned r.block flip fc ∧
          blockCheck r.block (toBytes x.1 256) ≠ x.2 ∧
            3 ≤ r.rereads ∧ r.who = some (SlotRef.cal n i) ∧ s.glb.bbl.recs.length < 64 ∧ ∀ e ∈ s.glb.bbl.recs, fld e 0 32 ≠ r.block) ∧
    (∃ (s : State) (ctx : Byte) (b : Word) (d : Data2048) (t : State),
      t = s.storeBlock ctx b d) ∧
    (∃ (s : State) (ctx : Byte) (b : Word) (d : Data2048) (t : State) (fc : Word),
      t = s.storeBlock ctx b d ∧ fc ≠ 0) ∧
    (∃ (s : State) (ctx : Byte) (b : Word) (d : Data2048) (t : State) (i : ℕ),
      t = s.storeBlock ctx b d ∧ i < 2048) :=
  ⟨⟨2, 1, wch (fun c => { c with inflight := [{ wrq with port := .free }] }), 0, 0, { wrq with port := .free }, _, 3, 0, by decide +kernel, by decide +kernel, by decide +kernel, rfl, by decide +kernel⟩,
   ⟨2, 1, wch (fun c => { c with inflight := [wrq] }), 0, 0, wrq, _, 3, 0, by decide +kernel, by decide +kernel, by decide +kernel, rfl, by decide +kernel⟩,
   ⟨2, 1, wch (fun c => { c with inflight := [wrq] }), 0, 1, wrq, _, by decide +kernel, by decide +kernel, by decide +kernel, rfl, by decide +kernel⟩,
   ⟨2, 1, wch (fun c => { c with inflight := [{ wrq with spec := true }] }), 0, 1, { wrq with spec := true }, _, 3, 0, by decide +kernel, by decide +kernel, by decide +kernel, rfl, by decide +kernel⟩,
   ⟨2, 1, wch (fun c => { c with inflight := [{ wrq with write := true, last := 254 }] }), 0, 0, { wrq with write := true, last := 254 }, _, by decide +kernel, by decide +kernel, by decide +kernel, rfl, by decide +kernel⟩,
   ⟨2, 1, wch (fun c => { c with inflight := [{ wrq with rereads := 3 }] }), 0, 0, { wrq with rereads := 3 }, _, by decide +kernel, by decide +kernel, rfl, by decide +kernel⟩,
   ⟨2, 1, wch (fun c => { c with inflight := [{ wrq with rereads := 2 }] }), 0, 1, { wrq with rereads := 2 }, _, by decide +kernel, by decide +kernel, rfl, by decide +kernel⟩,
   ⟨2, 1, wch (fun c => { c with inflight := [{ wrq with rereads := 3 }] }), 0, 1, { wrq with rereads := 3 }, _, 3, 0, by decide +kernel, by decide +kernel, rfl, by decide +kernel, by decide +kernel, by decide +kernel, by decide +kernel, fun _ h => absurd h List.not_mem_nil⟩,
   ⟨ws, 0, 0, 0, _, rfl⟩,
   ⟨ws, 0, 0, 0, _, 1, rfl, by decide +kernel⟩,
   ⟨ws, 0, 0, 0, _, 2047, rfl, by decide +kernel⟩⟩

/-- The hypotheses of StackHousekeepingAndTraining can be met, clause by clause. -/
theorem witness_StackHousekeepingAndTraining :
    (∃ (idle : ℕ),
      idle = 0) ∧
    (∃ (idle : ℕ),
      idle ≠ 0) ∧
    (∃ (b : Word) (x : ℕ),
      x ≠ (blockPlace b).bank) ∧
    (∃ (k : Fin 8) (c : Fin 32) (pc : Bool) (b : Fin 16) (s : State) (d : ℕ),
      tfind s.hbmStacks[k].ch[c].rowDue (16 * pc.toNat + ↑b) = some d ∧ d ≤ s.now) ∧
    (∃ (k : Fin 8) (c : Fin 32) (pc : Bool) (b : Fin 16) (s : State),
      ∀ (d : ℕ), tfind s.hbmStacks[k].ch[c].rowDue (16 * pc.toNat + ↑b) = some d → s.now < d) ∧
    (∃ (pc : Bool) (i : Fin 2),
      i = if pc = true then 1 else 0) ∧
    (∃ (s : State),
      5 ≤ s.pwr.phase.toNat) ∧
    (∃ (k : Fin 8) (rows : BitVec 18) (s : State),
      s.hbmStacks[k].st = 1 ∧ s.hbmStacks[k].step ≠ 8 ∧ (s.hbmStacks[k].step = 2 → 68672 ≤ rows.toNat)) ∧
    (∃ (k : Fin 8) (s : State),
      s.hbmStacks[k].st = 1 ∧ s.hbmStacks[k].step = 8) ∧
    (∃ (k : Fin 8) (cause : Fin 6) (s : State),
      s.hbmStacks[k].st = 1 ∧ ↑cause ≠ 0 ∧ trainCause s.hbmStacks[k].step.toNat = ↑cause ∧ s.hbmStacks[k].attempts.toNat < 3) ∧
    (∃ (k : Fin 8) (cause : Fin 6) (s : State),
      s.hbmStacks[k].st = 1 ∧ ↑cause ≠ 0 ∧ trainCause s.hbmStacks[k].step.toNat = ↑cause ∧ 3 ≤ s.hbmStacks[k].attempts.toNat) ∧
    (∃ (k : Fin 8) (rows : BitVec 18) (s : State),
      s.hbmStacks[k].st = 1 ∧ s.hbmStacks[k].step = 2 ∧ rows.toNat < 68672 ∧ s.hbmStacks[k].attempts.toNat < 3) ∧
    (∃ (k : Fin 8) (b : Word) (s : State),
      s.hbmStacks[k].st = 1 ∧ s.hbmStacks[k].step = 7 ∧ s.glb.bbl.recs.length < 64 ∧ ∀ e ∈ s.glb.bbl.recs, fld e 0 32 ≠ b) ∧
    (∃ (k : Fin 8) (s : State),
      s.hbmStacks[k].st ≠ 1) :=
  ⟨⟨0, rfl⟩,
   ⟨1, by decide +kernel⟩,
   ⟨0, 5, by decide +kernel⟩,
   ⟨2, 1, true, 3, wch (fun c => { c with rowDue := [(19, 0)] }), 0, by decide +kernel⟩,
   ⟨2, 1, true, 3, wch (fun c => { c with rowDue := [(19, 5)] }), by rw [show tfind (wch (fun c => { c with rowDue := [(19, 5)] })).hbmStacks[(2 : Fin 8)].ch[(1 : Fin 32)].rowDue (16 * true.toNat + ((3 : Fin 16) : Nat)) = some 5 by decide +kernel]; rintro d ⟨⟩; decide +kernel⟩,
   ⟨true, 1, rfl⟩,
   ⟨ws, by decide +kernel⟩,
   ⟨0, 68672, wk 0 (fun k => { k with st := 1, step := 2 }), by decide +kernel⟩,
   ⟨7, wk 7 (fun k => { k with st := 1, step := 8 }), by decide +kernel⟩,
   ⟨0, 1, wk 0 (fun k => { k with st := 1, step := 2, attempts := 2 }), by decide +kernel⟩,
   ⟨0, 1, wk 0 (fun k => { k with st := 1, step := 2, attempts := 3 }), by decide +kernel⟩,
   ⟨0, 68671, wk 0 (fun k => { k with st := 1, step := 2, attempts := 2 }), by decide +kernel⟩,
   ⟨7, 0, wk 7 (fun k => { k with st := 1, step := 7 }), by decide +kernel, by decide +kernel, by decide +kernel, fun _ h => absurd h List.not_mem_nil⟩,
   ⟨7, ws, by decide +kernel⟩⟩

/-- The hypotheses of PortTraining can be met, clause by clause. -/
theorem witness_PortTraining :
    (∃ (p : Fin 12) (s : State),
      s.ports[p].inTraining = true ∧ s.ports[p].step = 1 ∧ s.now ≤ s.ports[p].stepSince + 1562500) ∧
    (∃ (p : Fin 12) (s : State),
      s.ports[p].inTraining = true ∧ s.ports[p].step = 2 ∧ s.now ≤ s.ports[p].stepSince + 312500 ∧ ∃ l : Fin 4, (s.ports[p].lanes[l] : Lane).goodFrames < 3) ∧
    (∃ (p : Fin 12) (s : State),
      s.ports[p].inTraining = true ∧
      s.ports[p].step = 2 ∧ s.now ≤ s.ports[p].stepSince + 312500 ∧ ∀ (l : Fin 4), 3 ≤ (s.ports[p].lanes[l] : Lane).goodFrames) ∧
    (∃ (p : Fin 12) (s : State),
      s.ports[p].inTraining = true ∧
      s.ports[p].step = 5 ∧ (∀ (l : Fin 4), s.ports[p].lanes[l].mark.isSome = true) ∧ s.now ≤ s.ports[p].stepSince + 156250) ∧
    (∃ (p : Fin 12) (s : State),
      s.ports[p].inTraining = true ∧ (s.ports[p].step = 3 ∨ s.ports[p].step = 4) ∧ s.now ≤ s.ports[p].stepSince + 7812500) ∧
    (∃ (p : Fin 12) (s : State) (sk : Vector Byte 4),
      s.ports[p].inTraining = true ∧
      s.ports[p].step = 6 ∧
        (∀ (l : Fin 4), BitVec.toNat sk[l] ≤ 200) ∧
          ∀ (l : Fin 4), s.ports[p].lanes[l].mark.isSome = true ∧ s.ports[p].lanes[l].mark = s.ports[p].lanes[0].mark) ∧
    (∃ (p : Fin 12) (s : State) (sk : Vector Byte 4),
      s.ports[p].inTraining = true ∧ s.ports[p].step = 6 ∧ (∃ l : Fin 4, 200 < BitVec.toNat sk[l]) ∧ s.ports[p].attempts < 3) ∧
    (∃ (p : Fin 12) (s : State),
      s.ports[p].inTraining = true ∧ s.ports[p].step = 7 ∧ s.now ≤ s.ports[p].stepSince + 156250) ∧
    (∃ (p : Fin 12) (s : State),
      s.ports[p].inTraining = true ∧ s.ports[p].step = 8 ∧ s.ports[p].rttOk = true ∧ s.ports[p].presOk = true) ∧
    (∃ (p : Fin 12) (s : State),
      s.ports[p].inTraining = true ∧ s.ports[p].step = 8 ∧ s.ports[p].rttOk = true ∧ s.ports[p].presOk = true ∧ s.ports[p].conf = false) ∧
    (∃ (p : Fin 12) (s : State),
      s.ports[p].inTraining = true ∧ s.ports[p].step = 8 ∧ s.ports[p].rttOk = true ∧ s.ports[p].presOk = true ∧ s.ports[p].conf = true) ∧
    (∃ (p : Fin 12) (s : State),
      s.ports[p].inTraining = true ∧ s.ports[p].step = 8 ∧ (s.ports[p].rttOk = false ∨ s.ports[p].presOk = false)) ∧
    (∃ (p : Fin 12) (s : State) (c : Fin 7),
      s.ports[p].inTraining = true ∧ (causeStep ↑c).contains s.ports[p].step = true ∧ s.ports[p].spent s.now = true ∧ s.ports[p].attempts < 3) ∧
    (∃ (p : Fin 12) (s : State) (c : Fin 7),
      s.ports[p].inTraining = true ∧
      (causeStep ↑c).contains s.ports[p].step = true ∧ s.ports[p].spent s.now = true ∧ 3 ≤ s.ports[p].attempts ∧ s.ports[p].afterFast = false) ∧
    (∃ (p : Fin 12) (s : State) (c : Fin 7),
      s.ports[p].inTraining = true ∧
      (causeStep ↑c).contains s.ports[p].step = true ∧
        s.ports[p].spent s.now = true ∧ 3 ≤ s.ports[p].attempts ∧ s.ports[p].afterFast = true ∧ ↑c ≠ 1 ∧ ↑c ≠ 2) ∧
    (∃ (p : Fin 12) (s : State),
      s.ports[p].inTraining = false) ∧
    (∃ (p : Fin 12) (o : PortOutcome) (s : State),
      (∀ (c : Fin 7), o ≠ PortOutcome.fail c) ∧ s.ports[p].late s.now = true) ∧
    (∃ (p : Fin 12) (s : State),
      s.ports[p].st ≠ PortState.off ∧ s.ports[p].loop = 0) ∧
    (∃ (p : Fin 12) (s : State),
      s.ports[p].st = PortState.off) ∧
    (∃ (p : Fin 12) (l : Fin 4) (c : BitVec 16) (st : BitVec 16) (k : BitVec 16) (s : State) (v : State) (b : Bool),
      s.lineIn p (LineItem.frame l c st k 0) = (v, b) ∧ b = true ∧ s.ports[p].inTraining = true ∧ s.ports[p].step = 2) ∧
    (∃ (p : Fin 12) (l : Fin 4) (c : BitVec 16) (st : BitVec 16) (k : BitVec 16) (s : State) (v : State) (b : Bool),
      s.lineIn p (LineItem.frame l c st k 0) = (v, b) ∧
      b = true ∧ s.ports[p].inTraining = true ∧ (s.ports[p].step = 3 ∨ s.ports[p].step = 4) ∧ frameCheck c st = k) ∧
    (∃ (p : Fin 12) (l : Fin 4) (c : BitVec 16) (st : BitVec 16) (k : BitVec 16) (s : State) (v : State) (b : Bool),
      s.lineIn p (LineItem.frame l c st k 0) = (v, b) ∧
      (b = false ∨ s.ports[p].inTraining = false ∨ s.ports[p].step < 2 ∨ 4 < s.ports[p].step ∨ s.ports[p].step ≠ 2 ∧ frameCheck c st ≠ k)) ∧
    (∃ (p : Fin 12) (s : State),
      s.ports[p].prbsOn = false ∧ s.ports[p].framing = true ∧ s.ports[p].loop = 0) ∧
    (∃ (lo : ℤ) (hi : ℤ) (v : ℤ),
      lo ≤ v ∧ v ≤ hi) ∧
    (∃ (lo : ℤ) (hi : ℤ) (v : ℤ) (req : ℕ),
      lo ≤ v ∧ v ≤ hi ∧ req = 1 ∧ v < hi) ∧
    (∃ (lo : ℤ) (hi : ℤ) (v : ℤ) (req : ℕ),
      lo ≤ v ∧ v ≤ hi ∧ req = 1 ∧ v = hi) ∧
    (∃ (lo : ℤ) (hi : ℤ) (v : ℤ) (req : ℕ),
      lo ≤ v ∧ v ≤ hi ∧ req = 2 ∧ lo < v) ∧
    (∃ (lo : ℤ) (hi : ℤ) (v : ℤ) (req : ℕ),
      lo ≤ v ∧ v ≤ hi ∧ req = 0) ∧
    (∃ (l : Lane) (m : Lane) (c : BitVec 16),
      m = (l.taps c).1 ∧
      l.cm3.toNat ≤ 6 ∧
        l.cm2.toNat ≤ 8 ∧
          -24 ≤ l.cm1.toInt ∧
            l.cm1.toInt ≤ 0 ∧ -16 ≤ l.cp1.toInt ∧ l.cp1.toInt ≤ 0 ∧ ↑l.cm3.toNat + ↑l.cm2.toNat - l.cm1.toInt - l.cp1.toInt ≤ 32) :=
  ⟨⟨11, { (wq 11 (fun q => { q with st := .training, step := 1 })) with now := 1562500 }, by decide +kernel⟩,
   ⟨11, { (wq 11 (fun q => { q with st := .training, step := 2 })) with now := 312500 }, by decide +kernel⟩,
   ⟨11, { (wq 11 (fun q => { q with st := .training, step := 2, lanes := Vector.replicate 4 { goodFrames := 3 } })) with now := 312500 }, by decide +kernel⟩,
   ⟨11, { (wq 11 (fun q => { q with st := .training, step := 5, lanes := Vector.replicate 4 { mark := some 0 } })) with now := 156250 }, by decide +kernel⟩,
   ⟨11, { (wq 11 (fun q => { q with st := .training, step := 4 })) with now := 7812500 }, by decide +kernel⟩,
   ⟨11, wq 11 (fun q => { q with st := .training, step := 6, lanes := Vector.replicate 4 { mark := some 0 } }), Vector.replicate 4 200, by decide +kernel⟩,
   ⟨11, wq 11 (fun q => { q with st := .training, step := 6, attempts := 2 }), #v[200, 200, 200, 201], by decide +kernel⟩,
   ⟨11, { (wq 11 (fun q => { q with st := .training, step := 7 })) with now := 156250 }, by decide +kernel⟩,
   ⟨11, wq 11 (fun q => { q with st := .training, step := 8, rttOk := true, presOk := true, conf := true }), by decide +kernel⟩,
   ⟨11, wq 11 (fun q => { q with st := .training, step := 8, rttOk := true, presOk := true }), by decide +kernel⟩,
   ⟨11, wq 11 (fun q => { q with st := .training, step := 8, rttOk := true, presOk := true, conf := true }), by decide +kernel⟩,
   ⟨11, wq 11 (fun q => { q with st := .training, step := 8 }), by decide +kernel⟩,
   ⟨11, { (wq 11 (fun q => { q with st := .training, step := 1, attempts := 2 })) with now := 1562500 }, 1, by decide +kernel⟩,
   ⟨11, { (wq 11 (fun q => { q with st := .training, step := 1, attempts := 3 })) with now := 1562500 }, 1, by decide +kernel⟩,
   ⟨11, { (wq 11 (fun q => { q with st := .training, step := 3, attempts := 3, afterFast := true })) with now := 7812500 }, 3, by decide +kernel⟩,
   ⟨11, ws, by decide +kernel⟩,
   ⟨11, .detect, { (wq 11 (fun q => { q with st := .training, step := 1 })) with now := 1562501 }, fun _ h => (nomatch h), by decide +kernel⟩,
   ⟨11, wq 11 (fun q => { q with st := .training }), by decide +kernel⟩,
   ⟨11, wq 11 (fun q => { q with st := .off }), by decide +kernel⟩,
   ⟨11, 0, 0, 0, frameCheck 0 0, wq 11 (fun q => { q with st := .training, step := 2 }), _, _, rfl, by decide +kernel⟩,
   ⟨11, 0, 0, 0, frameCheck 0 0, wq 11 (fun q => { q with st := .training, step := 4 }), _, _, rfl, by decide +kernel⟩,
   ⟨11, 0, 0, 0, frameCheck 0 0 + 1, wq 11 (fun q => { q with st := .training, step := 4 }), _, _, rfl, by decide +kernel⟩,
   ⟨11, wq 11 (fun q => { q with st := .training, step := 4 }), by decide +kernel⟩,
   ⟨-8, 0, -8, by decide +kernel⟩,
   ⟨-8, 0, -8, 1, by decide +kernel⟩,
   ⟨-8, 0, 0, 1, by decide +kernel⟩,
   ⟨-8, 0, 0, 2, by decide +kernel⟩,
   ⟨-8, 0, 0, 0, by decide +kernel⟩,
   ⟨{}, _, 0, rfl, by decide +kernel⟩⟩

/-- The hypotheses of RetrainsAndFullTraining can be met, clause by clause. -/
theorem witness_RetrainsAndFullTraining :
    (∃ (p : Fin 12) (s : State),
      7 ≤ s.pwr.phase.toNat ∧ s.ports[p].st = PortState.down ∧ s.ports[p].en = true ∧ s.ports[p].downSince + 15625000 ≤ s.now) ∧
    (∃ (p : Fin 12) (s : State),
      7 ≤ s.pwr.phase.toNat ∧ s.ports[p].st = PortState.down ∧ s.ports[p].en = true ∧ s.now < s.ports[p].downSince + 15625000) ∧
    (∃ (p : Fin 12) (lk : Vector Bool 4) (sk : Vector Byte 4) (s : State),
      s.ports[p].st = PortState.retrain ∧
      (∀ (l : Fin 4), lk[l] = true ∧ BitVec.toNat sk[l] ≤ 200) ∧
        s.ports[p].lined = true ∧ s.ports[p].rttOk = true ∧ s.ports[p].presOk = true ∧ s.now ≤ s.ports[p].retrainSince + 6250) ∧
    (∃ (p : Fin 12) (lk : Vector Bool 4) (sk : Vector Byte 4) (s : State),
      s.ports[p].st = PortState.retrain ∧
      ((∃ l : Fin 4, lk[l] = false ∨ 200 < BitVec.toNat sk[l]) ∨
        s.ports[p].lined = false ∨ s.ports[p].rttOk = false ∨ s.ports[p].presOk = false ∨ s.ports[p].retrainSince + 6250 < s.now)) ∧
    (∃ (p : Fin 12) (s : State),
      s.ports[p].st = PortState.retrain ∧ s.ports[p].retrainSince + 6250 ≤ s.now) ∧
    (∃ (p : Fin 12) (l : Fin 4) (s : State),
      s.ports[p].up = true ∧ s.ports[p].lanes[l].lastMark + 3072 ≤ s.now) ∧
    (∃ (p : Fin 12) (l : Fin 4) (s : State),
      s.ports[p].up = true ∧ s.now < s.ports[p].lanes[l].lastMark + 3072) ∧
    (∃ (p : Fin 12) (s : State),
      s.ports[p].up = true ∧ 5 ≤ s.pwr.phase.toNat) ∧
    (∃ (p : Fin 12) (s : State),
      s.ports[p].up = true ∧ (List.filter (fun t => decide (s.now < t + 156250000)) s.ports[p].retrainLog).length < s.ports[p].retrainMax.toNat) ∧
    (∃ (p : Fin 12) (s : State),
      s.ports[p].up = true ∧ s.ports[p].retrainMax.toNat ≤ (List.filter (fun t => decide (s.now < t + 156250000)) s.ports[p].retrainLog).length) ∧
    (∃ (p : Fin 12) (s : State),
      5 ≤ s.pwr.phase.toNat ∧ (s.ports[p].up = true ∨ s.ports[p].st = PortState.down)) :=
  ⟨⟨11, { ws with now := 15625000 }, by decide +kernel⟩,
   ⟨11, { ws with now := 15624999 }, by decide +kernel⟩,
   ⟨11, Vector.replicate 4 true, Vector.replicate 4 200, { (wq 11 (fun q => { q with st := .retrain, rttOk := true, presOk := true, lanes := Vector.replicate 4 { mark := some 7 } })) with now := 6250 }, by decide +kernel⟩,
   ⟨11, Vector.replicate 4 true, Vector.replicate 4 201, wq 11 (fun q => { q with st := .retrain }), by decide +kernel⟩,
   ⟨11, { (wq 11 (fun q => { q with st := .retrain })) with now := 6250 }, by decide +kernel⟩,
   ⟨11, 3, { wq 11 wup with now := 3072 }, by decide +kernel⟩,
   ⟨11, 3, { wq 11 wup with now := 3071 }, by decide +kernel⟩,
   ⟨11, wq 11 wup, by decide +kernel⟩,
   ⟨11, wq 11 (fun q => { wup q with retrainLog := [0, 0, 0] }), by decide +kernel⟩,
   ⟨11, wq 11 (fun q => { wup q with retrainLog := [0, 0, 0, 0] }), by decide +kernel⟩,
   ⟨11, ws, by decide +kernel⟩⟩

/-- The hypotheses of LinkControlAndPrbs can be met, clause by clause. -/
theorem witness_LinkControlAndPrbs :
    (∃ (s : State),
      5 ≤ s.pwr.phase.toNat) ∧
    (∃ (p : Fin 12) (s : State),
      5 ≤ s.pwr.phase.toNat ∧ s.ports[p].st = PortState.off) ∧
    (∃ (p : Fin 12) (s : State),
      5 ≤ s.pwr.phase.toNat ∧ s.ports[p].st ≠ PortState.off) ∧
    (∃ (p : Fin 12) (s : State) (on : Bool),
      5 ≤ s.pwr.phase.toNat ∧ (s.ports[p].st ≠ PortState.linked ∨ on = false)) ∧
    (∃ (p : Fin 12) (s : State),
      5 ≤ s.pwr.phase.toNat ∧ s.ports[p].st = PortState.linked ∧ s.ports[p].authStart = none ∧ s.ports[p].authDone = false) ∧
    (∃ (p : Fin 12) (s : State),
      5 ≤ s.pwr.phase.toNat ∧ s.ports[p].st = PortState.degraded) ∧
    (∃ (p : Fin 12) (s : State),
      5 ≤ s.pwr.phase.toNat ∧ s.ports[p].st ≠ PortState.degraded) ∧
    (∃ (p : Fin 12) (s : State) (m : BitVec 2),
      5 ≤ s.pwr.phase.toNat ∧
      m ≠ 0 ∧
        m ≠ s.ports[p].loop ∧
          s.ports[p].admitOn = false ∧
            (s.ports[p].st = PortState.linked ∨ s.ports[p].st = PortState.down ∨ s.ports[p].st = PortState.off ∨ s.ports[p].st = PortState.test)) ∧
    (∃ (p : Fin 12) (s : State),
      5 ≤ s.pwr.phase.toNat ∧ s.ports[p].st = PortState.test ∧ s.ports[p].loop ≠ 0 ∧ s.ports[p].admitOn = false) ∧
    (∃ (p : Fin 12) (s : State),
      5 ≤ s.pwr.phase.toNat ∧ s.ports[p].admitOn = true) ∧
    (∃ (p : Fin 12) (l : Fin 4) (s : State) (n : ℕ) (taps : List ℕ),
      s.ports[p].st = PortState.test ∧
      (s.ports[p].loop = 0 ∨ s.ports[p].loop = 3) ∧
        prbsTaps s.ports[p].lanes[l].chk.toNat = some (n, taps) ∧ BitVec.toNat s.ports[p].lanes[l].bits + 31 < 2 ^ 64) ∧
    (∃ (p : Fin 12) (l : Fin 4) (s : State) (n : ℕ × List ℕ) (g : ℕ × List ℕ),
      s.ports[p].st = PortState.test ∧
      (s.ports[p].loop = 1 ∨ s.ports[p].loop = 2) ∧
        prbsTaps s.ports[p].lanes[l].chk.toNat = some n ∧ prbsTaps s.ports[p].lanes[l].gen.toNat = some g) ∧
    (∃ (p : Fin 12) (l : Fin 4) (s : State),
      s.ports[p].st ≠ PortState.test ∨ s.ports[p].lanes[l].chk = 0 ∨ (s.ports[p].loop = 1 ∨ s.ports[p].loop = 2) ∧ s.ports[p].lanes[l].gen = 0) :=
  ⟨⟨ws, by decide +kernel⟩,
   ⟨11, wq 11 (fun q => { q with st := .off }), by decide +kernel⟩,
   ⟨11, ws, by decide +kernel⟩,
   ⟨11, ws, true, by decide +kernel⟩,
   ⟨11, wq 11 (fun q => { q with st := .linked }), by decide +kernel⟩,
   ⟨11, wq 11 (fun q => { q with st := .degraded }), by decide +kernel⟩,
   ⟨11, ws, by decide +kernel⟩,
   ⟨11, wq 11 (fun q => { q with st := .linked }), 3, by decide +kernel⟩,
   ⟨11, wq 11 (fun q => { q with st := .test, loop := 1 }), by decide +kernel⟩,
   ⟨11, wq 11 (fun q => { q with admitOn := true }), by decide +kernel⟩,
   ⟨11, 3, wq 11 (fun q => { q with st := .test, lanes := Vector.replicate 4 { chk := 1, locked := true, bits := 0xFFFFFFFFFFFFFFE0 } }), 7, [7, 6], by decide +kernel⟩,
   ⟨11, 3, wq 11 (fun q => { q with st := .test, loop := 1, lanes := Vector.replicate 4 { gen := 1, chk := 1 } }), _, _, by decide +kernel, by decide +kernel, rfl, rfl⟩,
   ⟨11, 3, ws, by decide +kernel⟩⟩

/-- The hypotheses of ControlBlocksAndPresence can be met, clause by clause. -/
theorem witness_ControlBlocksAndPresence :
    (∃ (p : Fin 12) (s : State),
      s.ports[p].st ≠ PortState.off ∧ s.ports[p].loop = 0) ∧
    (∃ (e : (Fin 12 → Data256 → Instr) × ℕ) (p : Fin 12) (b : Data256) (s : State) (v : State) (on : Bool),
      e ∈
        [(fun p b => Instr.fill p b true false, 30), (fun p b => Instr.align p 0 b, 45), (Instr.pres, 75), (Instr.rttReq, 102),
          (Instr.rttRsp, 103)] ∧
      s.lineIn p (LineItem.ctl b) = (v, on) ∧ cbType b = e.2 ∧ on = true ∧ s.blockGood p b s.ports[p].rxId = false) ∧
    (∃ (e : (Fin 12 → Data256 → Instr) × ℕ) (p : Fin 12) (b : Data256) (s : State) (v : State) (on : Bool),
      e ∈
        [(fun p b => Instr.fill p b true false, 30), (fun p b => Instr.align p 0 b, 45), (Instr.pres, 75), (Instr.rttReq, 102),
          (Instr.rttRsp, 103)] ∧
      s.lineIn p (LineItem.ctl b) = (v, on) ∧ cbType b = e.2 ∧ on = false) ∧
    (∃ (e : (Fin 12 → Data256 → Instr) × ℕ) (p : Fin 12) (b : Data256) (s : State) (v : State) (on : Bool),
      e ∈
        [(fun p b => Instr.fill p b true false, 30), (fun p b => Instr.align p 0 b, 45), (Instr.pres, 75), (Instr.rttReq, 102),
          (Instr.rttRsp, 103)] ∧
      s.lineIn p (LineItem.ctl b) = (v, on) ∧ cbType b ≠ e.2) ∧
    (∃ (p : Fin 12) (b : Data256) (s : State) (v : State) (w : State),
      s.lineIn p (LineItem.ctl b) = (v, true) ∧ w = v.tookBlocks p 1 ∧ s.blockGood p b s.ports[p].rxId = true ∧ cbType b = 30) ∧
    (∃ (p : Fin 12) (b : Data256) (s : State) (v : State) (w : State),
      s.lineIn p (LineItem.ctl b) = (v, true) ∧ w = v.tookBlocks p 1 ∧ s.blockGood p b s.ports[p].rxId = true ∧ cbType b = 45) ∧
    (∃ (p : Fin 12) (b : Data256) (s : State) (v : State) (w : State),
      s.lineIn p (LineItem.ctl b) = (v, true) ∧
      w = v.tookBlocks p 1 ∧
        s.blockGood p b s.ports[p].rxId = true ∧ cbType b = 75 ∧ (s.ports[p].st = PortState.linked ∨ s.ports[p].st = PortState.admitted)) ∧
    (∃ (p : Fin 12) (b : Data256) (s : State) (v : State) (w : State),
      s.lineIn p (LineItem.ctl b) = (v, true) ∧
      w = v.tookBlocks p 1 ∧
        s.blockGood p b s.ports[p].rxId = true ∧
          cbType b = 75 ∧
            s.ports[p].st = PortState.retrain ∧ s.ports[p].admittedIdent.isSome = true ∧ s.ports[p].admittedIdent ≠ some (rfld b 1 0 64)) ∧
    (∃ (p : Fin 12) (b : Data256) (s : State) (v : State) (w : State),
      s.lineIn p (LineItem.ctl b) = (v, true) ∧
      w = v.tookBlocks p 1 ∧ s.blockGood p b s.ports[p].rxId = true ∧ cbType b = 75 ∧ s.ports[p].linkUp = false) ∧
    (∃ (p : Fin 12) (b : Data256) (s : State) (v : State) (w : State),
      s.lineIn p (LineItem.ctl b) = (v, true) ∧ w = v.tookBlocks p 1 ∧ s.blockGood p b s.ports[p].rxId = true ∧ cbType b = 102) ∧
    (∃ (p : Fin 12) (b : Data256) (s : State) (v : State) (w : State) (t : ℕ),
      s.lineIn p (LineItem.ctl b) = (v, true) ∧
      w = v.tookBlocks p 1 ∧
        s.blockGood p b s.ports[p].rxId = true ∧ cbType b = 103 ∧ s.ports[p].rttNum = rfld b 1 0 16 ∧ s.ports[p].rttSince = some t) ∧
    (∃ (p : Fin 12) (b : Data256) (s : State) (v : State) (w : State),
      s.lineIn p (LineItem.ctl b) = (v, true) ∧
      w = v.tookBlocks p 1 ∧ s.blockGood p b s.ports[p].rxId = true ∧ cbType b = 103 ∧ s.ports[p].rttNum ≠ rfld b 1 0 16) ∧
    (∃ (p : Fin 12) (b : Data256) (s : State) (v : State) (w : State),
      s.lineIn p (LineItem.ctl b) = (v, true) ∧
      w = v.tookBlocks p 1 ∧ s.blockGood p b s.ports[p].rxId = true ∧ cbType b ∉ [30, 45, 51, 75, 85, 102, 103]) ∧
    (∃ (s : State) (p : Fin 12),
      s.ports[p].st = PortState.retrain ∧ s.ports[p].lined = true ∧ s.ports[p].rttSince = none ∧ s.ports[p].rttOk = false) ∧
    (∃ (s : State) (p : Fin 12),
      s.ports[p].st ≠ PortState.retrain ∨ s.ports[p].lined = false ∨ s.ports[p].rttSince.isSome = true ∨ s.ports[p].rttOk = true) ∧
    (∃ (p : Fin 12) (b : Data256) (s : State) (v : State),
      s.lineIn p (LineItem.ctl b) = (v, true) ∧ s.blockGood p b s.ports[p].rxId = false) ∧
    (∃ (p : Fin 12) (b : Data256) (s : State) (v : State),
      s.lineIn p (LineItem.ctl b) = (v, true) ∧
      cbType b = 51 ∧ s.blockGood p b (rfld b 1 0 16) = true ∧ s.ports[p].inTraining = true ∧ s.ports[p].step = 7) ∧
    (∃ (ty : ℕ) (body : Data256),
      ty < 256 ∧ BitVec.toNat body < 2 ^ 216) ∧
    (∃ (ty : ℕ) (body : Data256) (x : Word),
      ty < 256 ∧ BitVec.toNat body < 2 ^ 216 ∧ x ≠ 0) ∧
    (∃ (p : Fin 12) (s : State),
      (s.ports[p].up = true ∨ s.ports[p].st = PortState.retrain ∨ s.ports[p].inTraining = true ∧ s.ports[p].step = 8) ∧
      s.ports[p].lastPresSent + s.ports[p].presPeriod.toNat ≤ s.now) ∧
    (∃ (p : Fin 12) (s : State),
      (s.ports[p].up = true ∨ s.ports[p].st = PortState.retrain ∨ s.ports[p].inTraining = true ∧ s.ports[p].step = 8) ∧
      s.now < s.ports[p].lastPresSent + s.ports[p].presPeriod.toNat) ∧
    (∃ (p : Fin 12) (s : State),
      s.ports[p].up = true ∧ s.ports[p].lastPres + 4 * s.ports[p].presPeriod.toNat ≤ s.now) ∧
    (∃ (p : Fin 12) (s : State),
      s.ports[p].up = true ∧ s.now < s.ports[p].lastPres + 4 * s.ports[p].presPeriod.toNat) ∧
    (∃ (p : Fin 12) (s : State),
      s.ports[p].errLog = [] ∧ s.ports[p].errMax ≠ 0) :=
  ⟨⟨11, wq 11 wup, by decide +kernel⟩,
   ⟨(.pres, 75), 0, 75, ws, _, _, by simp, rfl, by decide +kernel⟩,
   ⟨(.pres, 75), 0, 75, wq 0 (fun q => { q with loop := 3 }), _, _, by simp, rfl, by decide +kernel⟩,
   ⟨(.pres, 75), 0, 0, ws, _, _, by simp, rfl, by decide +kernel⟩,
   ⟨0, mkBlock 30 0 0, ws, _, _, rfl, rfl, by decide +kernel⟩,
   ⟨0, mkBlock 45 0 0, ws, _, _, rfl, rfl, by decide +kernel⟩,
   ⟨0, mkBlock 75 0 0, wq 0 wup, _, _, rfl, rfl, by decide +kernel⟩,
   ⟨0, mkBlock 75 0 0, wq 0 (fun q => { q with st := .retrain, admittedIdent := some 7 }), _, _, rfl, rfl, by decide +kernel⟩,
   ⟨0, mkBlock 75 0 0, ws, _, _, rfl, rfl, by decide +kernel⟩,
   ⟨0, mkBlock 102 0 0, ws, _, _, rfl, rfl, by decide +kernel⟩,
   ⟨0, mkBlock 103 0 0, wq 0 (fun q => { q with rttSince := some 0 }), _, _, 0, rfl, rfl, by decide +kernel⟩,
   ⟨0, mkBlock 103 0 0, wq 0 (fun q => { q with rttNum := 1 }), _, _, rfl, rfl, by decide +kernel⟩,
   ⟨0, mkBlock 0 0 0, ws, _, _, rfl, rfl, by decide +kernel⟩,
   ⟨wq 11 (fun q => { q with st := .retrain, lanes := Vector.replicate 4 { mark := some 7 } }), 11, by decide +kernel⟩,
   ⟨ws, 11, by decide +kernel⟩,
   ⟨0, 0, ws, _, rfl, by decide +kernel⟩,
   ⟨0, mkBlock 51 7 7, wq 0 (fun q => { q with st := .training, step := 7 }), _, rfl, by decide +kernel⟩,
   ⟨255, BitVec.ofNat 256 (2 ^ 216 - 1), by decide +kernel⟩,
   ⟨255, BitVec.ofNat 256 (2 ^ 216 - 1), 1, by decide +kernel⟩,
   ⟨11, { (wq 11 wup) with now := 0x061B }, by decide +kernel⟩,
   ⟨11, wq 11 wup, by decide +kernel⟩,
   ⟨11, { (wq 11 wup) with now := 4 * 0x061B }, by decide +kernel⟩,
   ⟨11, wq 11 wup, by decide +kernel⟩,
   ⟨11, ws, by decide +kernel⟩⟩

/-- The hypotheses of FlitsLeave can be met, clause by clause. -/
theorem witness_FlitsLeave :
    (∃ (p : Fin 12) (s : State),
      s.ports[p].prbsOn = false ∧ s.ports[p].fillOnly = true) ∧
    (∃ (p : Fin 12) (s : State),
      s.ports[p].prbsOn = false ∧ s.ports[p].fillOnly = false ∧ s.ports[p].up = false ∧ s.ports[p].framing = false) ∧
    (∃ (p : Fin 12) (s : State),
      s.ports[p].prbsOn = true) ∧
    (∃ (p : Fin 12) (s : State) (q : Port),
      s.ports[p].up = true ∧ q = (List.foldl (fun q e => q.absorb e) s.ports[p] (List.finRange 8)).watchCredits s.now ∧ q.chooseSlot = Slot.fill) ∧
    (∃ (p : Fin 12) (s : State) (q : Port) (f : Data2048) (rest : List Data2048),
      s.ports[p].up = true ∧
      q = (List.foldl (fun q e => q.absorb e) s.ports[p] (List.finRange 8)).watchCredits s.now ∧
        q.chooseSlot = Slot.replay ∧ q.resend = f :: rest) ∧
    (∃ (p : Fin 12) (s : State) (q : Port) (vc : Fin 4) (f : Data2048),
      s.ports[p].up = true ∧
      q = (List.foldl (fun q e => q.absorb e) s.ports[p] (List.finRange 8)).watchCredits s.now ∧
        q.chooseSlot = Slot.queued vc ∧ q.waitingFlit ↑vc = some (none, f)) ∧
    (∃ (p : Fin 12) (s : State) (q : Port) (vc : Fin 4) (a : Fin 12) (f : Data2048),
      s.ports[p].up = true ∧
      q = (List.foldl (fun q e => q.absorb e) s.ports[p] (List.finRange 8)).watchCredits s.now ∧
        q.chooseSlot = Slot.queued vc ∧ q.waitingFlit ↑vc = some (some a, f) ∧ a ≠ p) ∧
    (∃ (p : Fin 12) (s : State) (q : Port) (e : Fin 8),
      s.ports[p].up = true ∧
      q = (List.foldl (fun q e => q.absorb e) s.ports[p] (List.finRange 8)).watchCredits s.now ∧ q.chooseSlot = Slot.sched e) ∧
    (∃ (p : Fin 12) (s : State) (q : Port),
      s.ports[p].up = true ∧ q = (List.foldl (fun q e => q.absorb e) s.ports[p] (List.finRange 8)).watchCredits s.now ∧ q.chooseSlot = Slot.null) ∧
    (∃ (q : Port) (r : Fin 4 → Bool),
      (r = fun v => q.mayNew v && (q.waitingFlit ↑v).isSome) ∧ 256 ≤ q.sinceFill) ∧
    (∃ (q : Port) (r : Fin 4 → Bool),
      (r = fun v => q.mayNew v && (q.waitingFlit ↑v).isSome) ∧ q.sinceFill < 256 ∧ q.resend ≠ []) ∧
    (∃ (q : Port) (r : Fin 4 → Bool),
      (r = fun v => q.mayNew v && (q.waitingFlit ↑v).isSome) ∧ q.sinceFill < 256 ∧ q.resend = [] ∧ r 3 = true) ∧
    (∃ (q : Port) (r : Fin 4 → Bool),
      (r = fun v => q.mayNew v && (q.waitingFlit ↑v).isSome) ∧ q.sinceFill < 256 ∧ q.resend = [] ∧ r 3 = false ∧ r 2 = true ∧ 63 ≤ q.sinceVc2) ∧
    (∃ (q : Port) (r : Fin 4 → Bool),
      (r = fun v => q.mayNew v && (q.waitingFlit ↑v).isSome) ∧
      q.sinceFill < 256 ∧ q.resend = [] ∧ r 3 = false ∧ (r 2 = false ∨ q.sinceVc2 < 63) ∧ r 0 = true) ∧
    (∃ (q : Port) (r : Fin 4 → Bool) (e : Fin 8),
      (r = fun v => q.mayNew v && (q.waitingFlit ↑v).isSome) ∧
      q.sinceFill < 256 ∧
        q.resend = [] ∧ r 3 = false ∧ (r 2 = false ∨ q.sinceVc2 < 63) ∧ r 0 = false ∧ q.carries = true ∧ q.mayNew 0 = true ∧ q.schedEp = some e) ∧
    (∃ (q : Port) (r : Fin 4 → Bool),
      (r = fun v => q.mayNew v && (q.waitingFlit ↑v).isSome) ∧
      q.sinceFill < 256 ∧
        q.resend = [] ∧
          r 3 = false ∧ (r 2 = false ∨ q.sinceVc2 < 63) ∧ r 0 = false ∧ (q.carries = false ∨ q.mayNew 0 = false ∨ q.schedEp = none) ∧ r 2 = true) ∧
    (∃ (q : Port) (r : Fin 4 → Bool),
      (r = fun v => q.mayNew v && (q.waitingFlit ↑v).isSome) ∧
      q.sinceFill < 256 ∧
        q.resend = [] ∧
          r 3 = false ∧
            (r 2 = false ∨ q.sinceVc2 < 63) ∧
              r 0 = false ∧ (q.carries = false ∨ q.mayNew 0 = false ∨ q.schedEp = none) ∧ r 2 = false ∧ r 1 = true) ∧
    (∃ (q : Port) (r : Fin 4 → Bool),
      (r = fun v => q.mayNew v && (q.waitingFlit ↑v).isSome) ∧
      q.sinceFill < 256 ∧
        q.resend = [] ∧
          r 3 = false ∧
            (r 2 = false ∨ q.sinceVc2 < 63) ∧
              r 0 = false ∧ (q.carries = false ∨ q.mayNew 0 = false ∨ q.schedEp = none) ∧ r 2 = false ∧ r 1 = false) ∧
    (∃ (q : Port) (r : Fin 4 → Bool) (vc : Fin 4),
      (r = fun v => q.mayNew v && (q.waitingFlit ↑v).isSome) ∧ q.chooseSlot = Slot.queued vc) ∧
    (∃ (q : Port) (r : Fin 4 → Bool) (e : Fin 8),
      (r = fun v => q.mayNew v && (q.waitingFlit ↑v).isSome) ∧ q.chooseSlot = Slot.sched e) ∧
    (∃ (q : Port) (r : Fin 4 → Bool) (vc : Fin 4),
      (r = fun v => q.mayNew v && (q.waitingFlit ↑v).isSome) ∧ q.mayNew vc = true) :=
  ⟨⟨11, wq 11 (fun q => { q with st := .disabled }), by decide +kernel⟩,
   ⟨11, wq 11 (fun q => { q with st := .down }), by decide +kernel⟩,
   ⟨11, wq 11 (fun q => { q with st := .test, lanes := Vector.replicate 4 { gen := 1 } }), by decide +kernel⟩,
   ⟨11, wq 11 wup, _, by decide +kernel, rfl, by decide +kernel⟩,
   ⟨11, wq 11 (fun q => { wup q with resend := [0] }), _, 0, [], by decide +kernel, rfl, by decide +kernel⟩,
   ⟨11, wq 11 (fun q => { wup q with txq := [(none, mkFlit 0 0 3 16 0 false 0)] }), _, 3, mkFlit 0 0 3 16 0 false 0, by decide +kernel, rfl, by decide +kernel⟩,
   ⟨11, wq 11 (fun q => { wup q with txq := [(some 0, mkFlit 0 0 3 16 0 false 0)] }), _, 3, 0, mkFlit 0 0 3 16 0 false 0, by decide +kernel, rfl, by decide +kernel⟩,
   ⟨11, wq 11 (fun q => { wup q with txBytes := Vector.replicate 8 [1] }), _, 0, by decide +kernel, rfl, by decide +kernel⟩,
   ⟨11, wq 11 (fun q => { wup q with ackDue := true }), _, by decide +kernel, rfl, by decide +kernel⟩,
   ⟨{ sinceFill := 256 }, _, rfl, by decide +kernel⟩,
   ⟨{ sinceFill := 255, resend := [0] }, _, rfl, by decide +kernel⟩,
   ⟨{ wup {} with sinceFill := 255, txq := [(none, mkFlit 0 0 3 16 0 false 0)] }, _, rfl, by decide +kernel⟩,
   ⟨{ wup {} with sinceVc2 := 63, txq := [(none, mkFlit 0 0 2 8 0 false 0)] }, _, rfl, by decide +kernel⟩,
   ⟨{ wup {} with sinceVc2 := 62, txq := [(none, mkFlit 0 0 2 8 0 false 0), (none, mkFlit 0 0 0 1 0 false 0)] }, _, rfl, by decide +kernel⟩,
   ⟨{ wup {} with txBytes := Vector.replicate 8 [1] }, _, 0, rfl, by decide +kernel⟩,
   ⟨{ wup {} with sinceVc2 := 62, txq := [(none, mkFlit 0 0 2 8 0 false 0)] }, _, rfl, by decide +kernel⟩,
   ⟨{ wup {} with txq := [(none, mkFlit 0 0 1 4 0 false 0)] }, _, rfl, by decide +kernel⟩,
   ⟨wup {}, _, rfl, by decide +kernel⟩,
   ⟨{ wup {} with txq := [(none, mkFlit 0 0 3 16 0 false 0)] }, _, 3, rfl, by decide +kernel⟩,
   ⟨{ wup {} with txBytes := Vector.replicate 8 [1] }, _, 0, rfl, by decide +kernel⟩,
   ⟨{ wup {} with replayBuf := List.replicate 2046 0 }, _, 3, rfl, by decide +kernel⟩⟩

set_option maxRecDepth 100000 in
/-- The hypotheses of FlitsArrive can be met, clause by clause. -/
theorem witness_FlitsArrive :
    (∃ (p : Fin 12) (s : State),
      s.ports[p].st ≠ PortState.off ∧ s.ports[p].loop = 0) ∧
    (∃ (p : Fin 12) (f : Data2048) (on : Bool) (s : State) (v : State) (w : State),
      s.lineIn p (LineItem.flit f) = (v, on) ∧ w = v.tookBlocks p 8 ∧ on = false) ∧
    (∃ (p : Fin 12) (f : Data2048) (on : Bool) (s : State) (v : State) (w : State),
      s.lineIn p (LineItem.flit f) = (v, on) ∧ w = v.tookBlocks p 8 ∧ on = true ∧ s.ports[p].up = false ∧ s.ports[p].st ≠ PortState.retrain) ∧
    (∃ (p : Fin 12) (f : Data2048) (bad : Bool) (on : Bool) (s : State) (v : State) (w : State),
      s.lineIn p (LineItem.flit f) = (v, on) ∧
      w = v.tookBlocks p 8 ∧
        on = true ∧
          s.ports[p].st = PortState.retrain ∧ bad = false ∧ s.ports[p].badLeft = 0 ∧ flitCheck f s.ports[p].rxId = flCheck f ∧ flNack f = true) ∧
    (∃ (p : Fin 12) (f : Data2048) (bad : Bool) (on : Bool) (s : State) (v : State) (w : State),
      s.lineIn p (LineItem.flit f) = (v, on) ∧
      w = v.tookBlocks p 8 ∧
        on = true ∧
          s.ports[p].st = PortState.retrain ∧ (bad = true ∨ 0 < s.ports[p].badLeft ∨ flitCheck f s.ports[p].rxId ≠ flCheck f ∨ flNack f = false)) ∧
    (∃ (p : Fin 12) (f : Data2048) (bad : Bool) (on : Bool) (s : State) (v : State) (w : State),
      s.lineIn p (LineItem.flit f) = (v, on) ∧
      w = v.tookBlocks p 8 ∧
        on = true ∧
          s.ports[p].up = true ∧
            (bad = true ∨ 0 < s.ports[p].badLeft ∨ flitCheck f s.ports[p].rxId ≠ flCheck f) ∧ s.ports[p].errLog = [] ∧ s.ports[p].errMax ≠ 0) ∧
    (∃ (p : Fin 12) (f : Data2048) (s : State) (v : State) (w : State),
      s.lineIn p (LineItem.flit f) = (v, true) ∧
      w = v.tookBlocks p 8 ∧
        s.ports[p].up = true ∧
          s.ports[p].badLeft = 0 ∧
            flitCheck f s.ports[p].rxId = flCheck f ∧
              flType f ≠ 0 ∧ 1 ≤ (flSeq f - s.ports[p].rxNext).toNat ∧ (flSeq f - s.ports[p].rxNext).toNat ≤ 2047) ∧
    (∃ (p : Fin 12) (f : Data2048) (s : State) (v : State) (w : State),
      s.lineIn p (LineItem.flit f) = (v, true) ∧
      w = v.tookBlocks p 8 ∧
        s.ports[p].up = true ∧
          s.ports[p].badLeft = 0 ∧ flitCheck f s.ports[p].rxId = flCheck f ∧ flType f ≠ 0 ∧ 2049 ≤ (flSeq f - s.ports[p].rxNext).toNat) ∧
    (∃ (p : Fin 12) (f : Data2048) (s : State) (v : State) (w : State),
      s.lineIn p (LineItem.flit f) = (v, true) ∧
      w = v.tookBlocks p 8 ∧
        s.ports[p].up = true ∧
          s.ports[p].badLeft = 0 ∧ flitCheck f s.ports[p].rxId = flCheck f ∧ flType f ≠ 0 ∧ (flSeq f - s.ports[p].rxNext).toNat = 2048) ∧
    (∃ (p : Fin 12) (f : Data2048) (s : State) (v : State) (w : State) (q1 : Port),
      s.lineIn p (LineItem.flit f) = (v, true) ∧
      w = v.tookBlocks p 8 ∧
        s.ports[p].up = true ∧
          s.ports[p].badLeft = 0 ∧
            flitCheck f s.ports[p].rxId = flCheck f ∧ flType f = 0 ∧ headerOk f = true ∧ w.ports[p].ackField s.now f = some q1) ∧
    (∃ (p : Fin 12) (f : Data2048) (s : State) (v : State) (w : State) (q1 : Port),
      s.lineIn p (LineItem.flit f) = (v, true) ∧
      w = v.tookBlocks p 8 ∧
        s.ports[p].up = true ∧
          s.ports[p].badLeft = 0 ∧
            flitCheck f s.ports[p].rxId = flCheck f ∧
              flType f ≠ 0 ∧
                flSeq f = s.ports[p].rxNext ∧
                  ({ w.ports[p] with rxNext := s.ports[p].rxNext + 1, ackDue := true }).ackField
                      s.now f =
                    some q1) ∧
    (∃ (p : Fin 12) (f : Data2048) (s : State) (v : Fin 4),
      headerOk f = true ∧ flEnc f = false ∧ s.ports[p].encrypting = false ∧ ↑v = flVc f ∧ s.ports[p].carries = false ∧ flType f ∉ [9, 10, 12]) ∧
    (∃ (p : Fin 12) (f : Data2048) (s : State) (v : Fin 4),
      headerOk f = true ∧
      flEnc f = false ∧
        s.ports[p].encrypting = false ∧
          ↑v = flVc f ∧
            s.ports[p].carries = true ∧
              BitVec.getLsbD s.ports[p].permit[Fin.ofNat 32 ((flSrc f).toNat / 32)] ((flSrc f).toNat % 32) = true ∧
                flBeat f - BitVec.setWidth 16 s.glb.beatCnt ≠ 32768) ∧
    (∃ (p : Fin 12) (f : Data2048) (s : State) (v : Fin 4),
      headerOk f = true ∧
      flEnc f = false ∧
        s.ports[p].encrypting = false ∧
          ↑v = flVc f ∧
            s.ports[p].carries = true ∧ BitVec.getLsbD s.ports[p].permit[Fin.ofNat 32 ((flSrc f).toNat / 32)] ((flSrc f).toNat % 32) = false) ∧
    (∃ (p : Fin 12) (f : Data2048) (s : State) (v : Fin 4),
      headerOk f = true ∧ flEnc f = false ∧ s.ports[p].encrypting = false ∧ ↑v = flVc f ∧ (flType f = 9 ∨ flType f = 10) ∧ s.probeShut p = true) ∧
    (∃ (p : Fin 12) (f : Data2048) (s : State) (v : Fin 4),
      headerOk f = true ∧
      flEnc f = false ∧
        s.ports[p].encrypting = false ∧
          ↑v = flVc f ∧
            (flType f = 12 ∨
              (flType f = 9 ∨ flType f = 10) ∧ s.probeShut p = false ∨
                s.fab.idValid = true ∧ flDst f = s.fab.id ∧ flType f ∈ [4, 5, 6, 8, 16, 17])) ∧
    (∃ (p : Fin 12) (f : Data2048) (s : State) (v : Fin 4) (q : Fin 12),
      headerOk f = true ∧
      flEnc f = false ∧
        s.ports[p].encrypting = false ∧
          ↑v = flVc f ∧
            s.fab.idValid = true ∧
              flDst f ≠ s.fab.id ∧ flType f ∉ [9, 10, 12] ∧ s.routePort (flDst f) = some q ∧ q ≠ p ∧ s.ports[q].carries = true) ∧
    (∃ (p : Fin 12) (f : Data2048) (s : State) (v : Fin 4),
      headerOk f = true ∧
      flEnc f = false ∧
        s.ports[p].encrypting = false ∧
          ↑v = flVc f ∧
            s.fab.idValid = true ∧
              flDst f ≠ s.fab.id ∧ flType f ∉ [9, 10, 12] ∧ ∀ (q : Fin 12), s.routePort (flDst f) = some q → q = p ∨ s.ports[q].carries = false) ∧
    (∃ (p : Fin 12) (f : Data2048) (s : State) (v : Fin 4),
      headerOk f = true ∧
      flEnc f = false ∧
        s.ports[p].encrypting = false ∧
          ↑v = flVc f ∧
            s.fab.idValid = true ∧
              flDst f ≠ s.fab.id ∧
                flType f ∉ [9, 10, 12] ∧
                  (∀ (q : Fin 12), s.routePort (flDst f) = some q → q = p ∨ s.ports[q].carries = false) ∧ s.fab.event.getLsbD 5 = true) ∧
    (∃ (p : Fin 12) (f : Data2048) (s : State) (v : Fin 4) (e : Fin 8),
      headerOk f = true ∧
      flEnc f = false ∧
        s.ports[p].encrypting = false ∧
          ↑v = flVc f ∧
            s.fab.idValid = true ∧
              flDst f = s.fab.id ∧ flType f = 1 ∧ flEp f = ↑e ∧ s.ports[p].eps[e].en = true ∧ s.ports[p].eps[e].word.isSome = true) :=
  ⟨⟨11, wq 11 wup, by decide +kernel⟩,
   ⟨11, 0, _, wq 11 (fun q => { q with loop := 3 }), _, _, rfl, rfl, by decide +kernel⟩,
   ⟨11, 0, _, ws, _, _, rfl, rfl, by decide +kernel⟩,
   ⟨11, wfl (bits 2048 [(1996, 1)]), false, _, wq 11 (fun q => { q with st := .retrain }), _, _, rfl, rfl, by decide +kernel⟩,
   ⟨11, 0, true, _, wq 11 (fun q => { q with st := .retrain }), _, _, rfl, rfl, by decide +kernel⟩,
   ⟨11, 0, true, _, wq 11 wup, _, _, rfl, rfl, by decide +kernel⟩,
   ⟨11, wfl (mkFlit 0 0 0 1 0 false 0 ||| natAt 2048 28 1), wq 11 wup, _, _, rfl, rfl, by decide +kernel⟩,
   ⟨11, wfl (mkFlit 0 0 0 1 0 false 0 ||| natAt 2048 28 2049), wq 11 wup, _, _, rfl, rfl, by decide +kernel⟩,
   ⟨11, wfl (mkFlit 0 0 0 1 0 false 0 ||| natAt 2048 28 2048), wq 11 wup, _, _, rfl, rfl, by decide +kernel⟩,
   ⟨11, wfl 0, wq 11 wup, _, _, _, rfl, rfl, by decide +kernel, by decide +kernel, by decide +kernel, by decide +kernel, by decide +kernel, (Option.some_get (by decide +kernel)).symm⟩,
   ⟨11, wfl (mkFlit 0 0 0 1 0 false 0), wq 11 wup, _, _, _, rfl, rfl, by decide +kernel, by decide +kernel, by decide +kernel, by decide +kernel, by decide +kernel, (Option.some_get (by decide +kernel)).symm⟩,
   ⟨11, 0, ws, 0, by decide +kernel⟩,
   ⟨11, 0, wq 11 (fun q => { wup q with permit := Vector.replicate 32 1 }), 0, by decide +kernel⟩,
   ⟨11, 0, wq 11 wup, 0, by decide +kernel⟩,
   ⟨11, mkFlit 0 0 2 9 0 false 0, wq 11 (fun q => { q with conf := true }), 2, by decide +kernel⟩,
   ⟨11, mkFlit 0 0 2 8 0 false 0, { ws with fab := { ws.fab with idValid := true } }, 2, by decide +kernel⟩,
   ⟨11, mkFlit 5 0 2 8 0 false 0, { wq 3 wup with fab := { ws.fab with idValid := true, routes := [(5, 0x31)] } }, 2, 3, by decide +kernel⟩,
   ⟨11, mkFlit 5 0 2 8 0 false 0, { ws with fab := { ws.fab with idValid := true } }, 2, by decide +kernel⟩,
   ⟨11, mkFlit 5 0 2 8 0 false 0, { ws with fab := { ws.fab with idValid := true, event := 0x20 } }, 2, by decide +kernel⟩,
   ⟨11, mkFlit 0 0 0 1 7 false 0, { (wq 11 (fun q => { q with eps := Vector.replicate 8 { en := true, word := some 7 } })) with fab := { ws.fab with idValid := true } }, 0, 7, by decide +kernel⟩⟩

/-- The hypotheses of RepeatsTimeoutsAndAuthentication can be met, clause by clause. -/
theorem witness_RepeatsTimeoutsAndAuthentication :
    (∃ (p : Fin 12) (s : State) (t : ℕ),
      s.ports[p].nackSince = some t ∧ t + s.ports[p].tReplay ≤ s.now) ∧
    (∃ (p : Fin 12) (s : State) (t : ℕ),
      s.ports[p].nackSince = some t ∧ s.now < t + s.ports[p].tReplay) ∧
    (∃ (p : Fin 12) (vc : Fin 4) (s : State) (t : ℕ),
      s.ports[p].starved[vc] = some t ∧
      s.ports[p].credits[vc] = 0 ∧
        ((s.ports[p].txq.any fun e => flVc e.2 == ↑vc) = true ∨ vc = 0 ∧ (s.ports[p].txBytes.any fun b => !b.isEmpty) = true) ∧
          s.ports[p].st = PortState.admitted ∧ t + s.ports[p].creditTo.toNat ≤ s.now) ∧
    (∃ (p : Fin 12) (vc : Fin 4) (s : State) (t : ℕ),
      s.ports[p].starved[vc] = some t ∧
      s.ports[p].credits[vc] = 0 ∧
        ((s.ports[p].txq.any fun e => flVc e.2 == ↑vc) = true ∨ vc = 0 ∧ (s.ports[p].txBytes.any fun b => !b.isEmpty) = true) ∧
          (s.ports[p].st ≠ PortState.admitted ∨ s.now < t + s.ports[p].creditTo.toNat)) ∧
    (∃ (p : Fin 12) (vc : Fin 4) (s : State),
      0 < s.ports[p].credits[vc]) ∧
    (∃ (p : Fin 12) (s : State) (t : ℕ),
      s.ports[p].authStart = some t ∧ s.ports[p].up = true ∧ t + 15625000 ≤ s.now) ∧
    (∃ (p : Fin 12) (s : State) (t : ℕ),
      s.ports[p].authStart = some t ∧ s.ports[p].up = true ∧ s.now < t + 15625000) ∧
    (∃ (p : Fin 12) (s : State) (v : State) (w : State) (f : Data2048) (rest : List (Fin 12 × Data2048)),
      takeFlit (fun e => e.1 == p && flType e.2 == 12) s.fab.inbox = (some (p, f), rest) ∧
      v = (s.tookFlit rest p f).startAuth p ∧
        w =
          v.modPort p fun q => { q with authTheirs := vmod q.authTheirs (Fin.ofNat 3 (v.ports[p].authStep - 1)) fun x => x ++ toBytes (flPayload f) 240 }) ∧
    (∃ (p : Fin 12) (s : State) (v : State) (w : State) (f : Data2048) (rest : List (Fin 12 × Data2048)),
      takeFlit (fun e => e.1 == p && flType e.2 == 12) s.fab.inbox = (some (p, f), rest) ∧
      v = (s.tookFlit rest p f).startAuth p ∧
        (w =
            v.modPort p fun q => { q with authTheirs := vmod q.authTheirs (Fin.ofNat 3 (v.ports[p].authStep - 1)) fun x => x ++ toBytes (flPayload f) 240 }) ∧
          (s.ports[p].authStart.isSome = true ∨ s.ports[p].authDone = true)) ∧
    (∃ (p : Fin 12) (s : State) (v : State) (w : State) (f : Data2048) (rest : List (Fin 12 × Data2048)),
      takeFlit (fun e => e.1 == p && flType e.2 == 12) s.fab.inbox = (some (p, f), rest) ∧
      v = (s.tookFlit rest p f).startAuth p ∧
        (w =
            v.modPort p fun q => { q with authTheirs := vmod q.authTheirs (Fin.ofNat 3 (v.ports[p].authStep - 1)) fun x => x ++ toBytes (flPayload f) 240 }) ∧
          s.ports[p].authStart = none ∧ s.ports[p].authDone = false) :=
  ⟨⟨11, { (wq 11 (fun q => { q with nackSince := some 0 })) with now := 10 }, 0, by decide +kernel⟩,
   ⟨11, { (wq 11 (fun q => { q with nackSince := some 0 })) with now := 9 }, 0, by decide +kernel⟩,
   ⟨11, 3, { (wq 11 (fun q => { wup q with credits := Vector.replicate 4 0, txq := [(none, mkFlit 0 0 3 16 0 false 0)], starved := Vector.replicate 4 (some 0) })) with now := 0x02625A }, 0, by decide +kernel⟩,
   ⟨11, 3, { (wq 11 (fun q => { wup q with credits := Vector.replicate 4 0, txq := [(none, mkFlit 0 0 3 16 0 false 0)], starved := Vector.replicate 4 (some 0) })) with now := 0x026259 }, 0, by decide +kernel⟩,
   ⟨11, 3, wq 11 wup, by decide +kernel⟩,
   ⟨11, { (wq 11 (fun q => { wup q with authStart := some 0 })) with now := 15625000 }, 0, by decide +kernel⟩,
   ⟨11, { (wq 11 (fun q => { wup q with authStart := some 0 })) with now := 15624999 }, 0, by decide +kernel⟩,
   ⟨0, win (mkFlit 0 0 2 12 0 false 0), _, _, mkFlit 0 0 2 12 0 false 0, [], by decide +kernel, rfl, rfl⟩,
   ⟨0, winq (mkFlit 0 0 2 12 0 false 0) (fun q => { q with authStart := some 0 }), _, _, mkFlit 0 0 2 12 0 false 0, [], by decide +kernel, rfl, rfl, by decide +kernel⟩,
   ⟨0, win (mkFlit 0 0 2 12 0 false 0), _, _, mkFlit 0 0 2 12 0 false 0, [], by decide +kernel, rfl, rfl, by decide +kernel⟩⟩

/-- The hypotheses of ProbesTravel can be met, clause by clause. -/
theorem witness_ProbesTravel :
    (∃ (p : BitVec 1920) (s : State) (q : Fin 12),
      pbFollow p = false ∧ pbHop p < pbHops p ∧ s.probePort (pbRoute p (pbHop p)) = some q) ∧
    (∃ (p : BitVec 1920) (s : State),
      pbFollow p = false ∧ pbHop p < pbHops p ∧ s.probePort (pbRoute p (pbHop p)) = none) ∧
    (∃ (p : BitVec 1920),
      pbFollow p = false ∧ pbHops p ≤ pbHop p) ∧
    (∃ (p : BitVec 1920) (s : State),
      pbFollow p = true ∧ s.fab.idValid = true ∧ s.fab.id = pbTarget p) ∧
    (∃ (p : BitVec 1920) (s : State),
      pbFollow p = true ∧ s.fab.idValid = true ∧ s.fab.id ≠ pbTarget p ∧ 12 ≤ pbHop p) ∧
    (∃ (p : BitVec 1920) (s : State) (q : Fin 12),
      pbFollow p = true ∧
      s.fab.idValid = true ∧ s.fab.id ≠ pbTarget p ∧ pbHop p < 12 ∧ pbHops p < 15 ∧ s.routePort (pbTarget p) = some q ∧ s.ports[q].up = true) ∧
    (∃ (p : BitVec 1920) (s : State),
      pbFollow p = true ∧
      s.fab.idValid = true ∧
        s.fab.id ≠ pbTarget p ∧ pbHop p < 12 ∧ pbHops p < 15 ∧ ∀ (q : Fin 12), s.routePort (pbTarget p) = some q → s.ports[q].up = false) ∧
    (∃ (a : Fin 12) (f : Data2048) (rest : List (Fin 12 × Data2048)) (s : State) (q : Fin 12) (p1 : BitVec 1920),
      s.fab.inbox = (a, f) :: rest ∧ flType f = 9 ∧ s.probeStep (probeArrived (flPayload f) a) = ProbeStep.forward q p1) ∧
    (∃ (a : Fin 12) (f : Data2048) (rest : List (Fin 12 × Data2048)) (s : State) (st : ℕ),
      s.fab.inbox = (a, f) :: rest ∧ flType f = 9 ∧ s.probeStep (probeArrived (flPayload f) a) = ProbeStep.answer st) ∧
    (∃ (a : Fin 12) (f : Data2048) (rest : List (Fin 12 × Data2048)) (s : State) (op : ℕ),
      s.fab.inbox = (a, f) :: rest ∧ flType f = 9 ∧ 3 < op ∧ s.probeStep (probeArrived (flPayload f) a) = ProbeStep.perform op) ∧
    (∃ (a : Fin 12) (f : Data2048) (rest : List (Fin 12 × Data2048)) (s : State) (q : Fin 12),
      s.fab.inbox = (a, f) :: rest ∧
      flType f = 10 ∧ 1 ≤ pbHop (flPayload f) ∧ pbHop (flPayload f) ≤ 12 ∧ s.probePort (pbBack (flPayload f) (pbHop (flPayload f) - 1)) = some q) ∧
    (∃ (a : Fin 12) (f : Data2048) (rest : List (Fin 12 × Data2048)) (s : State),
      s.fab.inbox = (a, f) :: rest ∧
      flType f = 10 ∧ 1 ≤ pbHop (flPayload f) ∧ (12 < pbHop (flPayload f) ∨ s.probePort (pbBack (flPayload f) (pbHop (flPayload f) - 1)) = none)) ∧
    (∃ (a : Fin 12) (f : Data2048) (rest : List (Fin 12 × Data2048)) (s : State),
      s.fab.inbox = (a, f) :: rest ∧ flType f = 10 ∧ pbHop (flPayload f) = 0) :=
  ⟨⟨bits 1920 [(4, 1)], wq 0 wup, 0, by decide +kernel⟩,
   ⟨bits 1920 [(4, 1)], ws, by decide +kernel⟩,
   ⟨0, by decide +kernel⟩,
   ⟨bits 1920 [(12, 1)], { ws with fab := { ws.fab with idValid := true } }, by decide +kernel⟩,
   ⟨bits 1920 [(8, 12), (12, 1)], { ws with fab := { ws.fab with idValid := true, id := 1 } }, by decide +kernel⟩,
   ⟨bits 1920 [(12, 1), (208, 5)], { wq 3 wup with fab := { ws.fab with idValid := true, routes := [(5, 0x31)] } }, 3, by decide +kernel⟩,
   ⟨bits 1920 [(12, 1), (208, 5)], { ws with fab := { ws.fab with idValid := true, routes := [(5, 0x31)] } }, by decide +kernel⟩,
   ⟨0, wpr [(4, 1)], [], winq (wpr [(4, 1)]) wup, 0, putFld (bits 1920 [(4, 1)]) 8 (1 : BitVec 4), by decide +kernel⟩,
   ⟨0, wpr [(4, 1)], [], win (wpr [(4, 1)]), 1, by decide +kernel⟩,
   ⟨0, wpr [(0, 5)], [], win (wpr [(0, 5)]), 5, by decide +kernel⟩,
   ⟨0, wpa [(8, 12)], [], winq (wpa [(8, 12)]) wup, 0, by decide +kernel⟩,
   ⟨0, wpa [(8, 1)], [], win (wpa [(8, 1)]), by decide +kernel⟩,
   ⟨0, wpa [], [], win (wpa []), by decide +kernel⟩⟩

/-- The hypotheses of ProbesAct can be met, clause by clause. -/
theorem witness_ProbesAct :
    (∃ (a : Fin 12) (f : Data2048) (rest : List (Fin 12 × Data2048)) (s : State),
      s.fab.inbox = (a, f) :: rest ∧ flType f = 9 ∧ s.probeStep (probeArrived (flPayload f) a) = ProbeStep.perform 0) ∧
    (∃ (a : Fin 12) (f : Data2048) (rest : List (Fin 12 × Data2048)) (s : State),
      s.fab.inbox = (a, f) :: rest ∧
      flType f = 9 ∧
        s.probeStep (probeArrived (flPayload f) a) = ProbeStep.perform 1 ∧ probeReads (pbAddr (probeArrived (flPayload f) a)) = false) ∧
    (∃ (a : Fin 12) (f : Data2048) (rest : List (Fin 12 × Data2048)) (s : State) (w : Word),
      s.fab.inbox = (a, f) :: rest ∧
      flType f = 9 ∧
        s.probeStep (probeArrived (flPayload f) a) = ProbeStep.perform 1 ∧
          probeReads (pbAddr (probeArrived (flPayload f) a)) = true ∧
            (s.tookFlit rest a f).readReg (pbAddr (probeArrived (flPayload f) a)) = (0, w)) ∧
    (∃ (a : Fin 12) (f : Data2048) (rest : List (Fin 12 × Data2048)) (s : State),
      s.fab.inbox = (a, f) :: rest ∧
      flType f = 9 ∧
        s.probeStep (probeArrived (flPayload f) a) = ProbeStep.perform 2 ∧
          probeWrites (pbAddr (probeArrived (flPayload f) a)) = true ∧ s.probeMay (probeArrived (flPayload f) a) = false) ∧
    (∃ (a : Fin 12) (f : Data2048) (rest : List (Fin 12 × Data2048)) (s : State),
      s.fab.inbox = (a, f) :: rest ∧
      flType f = 9 ∧
        s.probeStep (probeArrived (flPayload f) a) = ProbeStep.perform 2 ∧
          probeWrites (pbAddr (probeArrived (flPayload f) a)) = true ∧
            s.probeMay (probeArrived (flPayload f) a) = true ∧
              pbAddr (probeArrived (flPayload f) a) = 1048608 ∧ 5 ≤ s.pwr.phase.toNat ∧ s.sec.lifecycle ≠ 4) ∧
    (∃ (a : Fin 12) (f : Data2048) (rest : List (Fin 12 × Data2048)) (s : State),
      s.fab.inbox = (a, f) :: rest ∧
      flType f = 9 ∧ s.probeStep (probeArrived (flPayload f) a) = ProbeStep.perform 3 ∧ s.probeMay (probeArrived (flPayload f) a) = false) ∧
    (∃ (a : Fin 12) (f : Data2048) (rest : List (Fin 12 × Data2048)) (s : State),
      s.fab.inbox = (a, f) :: rest ∧
      flType f = 9 ∧
        s.probeStep (probeArrived (flPayload f) a) = ProbeStep.perform 3 ∧
          s.probeMay (probeArrived (flPayload f) a) = true ∧ s.glb.isSource = true ∧ s.runsAnyPlan = false) ∧
    (∃ (a : Fin 12) (f : Data2048) (rest : List (Fin 12 × Data2048)) (s : State),
      s.fab.inbox = (a, f) :: rest ∧
      flType f = 9 ∧
        s.probeStep (probeArrived (flPayload f) a) = ProbeStep.perform 3 ∧
          s.probeMay (probeArrived (flPayload f) a) = true ∧ (s.glb.isSource = false ∨ s.runsAnyPlan = true)) ∧
    (∃ (cmd : ℕ) (s : State) (a : Awaited),
      List.find? (fun a => a.cmd == cmd) s.fab.probesOut = some a ∧ a.since + s.fab.probeTo.toNat ≤ s.now) ∧
    (∃ (cmd : ℕ) (s : State) (a : Awaited),
      List.find? (fun a => a.cmd == cmd) s.fab.probesOut = some a ∧ s.now < a.since + s.fab.probeTo.toNat) ∧
    (∃ (s : State),
      5 ≤ s.pwr.phase.toNat ∧ s.ports.any Port.carries = false ∧ s.plans = []) ∧
    (∃ (s : State),
      5 ≤ s.pwr.phase.toNat ∧ (s.ports.any Port.carries = true ∨ s.plans ≠ [])) :=
  ⟨⟨0, wpr [], [], win (wpr []), by decide +kernel⟩,
   ⟨0, wpr [(0, 1), (320, 2)], [], win (wpr [(0, 1), (320, 2)]), by decide +kernel⟩,
   ⟨0, wpr [(0, 1), (320, 0x40)], [], win (wpr [(0, 1), (320, 0x40)]), 0, by decide +kernel⟩,
   ⟨0, wpr [(0, 2), (320, 0x100000)], [], winf (wpr [(0, 2), (320, 0x100000)]) (fun b => { b with mgrValid := true }), by decide +kernel⟩,
   ⟨0, wpr [(0, 2), (320, 0x100020)], [], win (wpr [(0, 2), (320, 0x100020)]), by decide +kernel⟩,
   ⟨0, wpr [(0, 3)], [], winf (wpr [(0, 3)]) (fun b => { b with mgrValid := true }), by decide +kernel⟩,
   ⟨0, wpr [(0, 3)], [], win (wpr [(0, 3)]), by decide +kernel⟩,
   ⟨0, wpr [(0, 3)], [], { win (wpr [(0, 3)]) with glb := { ws.glb with isSource := false } }, by decide +kernel⟩,
   ⟨5, { ws with fab := { ws.fab with probesOut := [{ tag := 0, since := 0, cmd := 5 }] }, now := 0x02625A }, { tag := 0, since := 0, cmd := 5 }, by decide +kernel⟩,
   ⟨5, { ws with fab := { ws.fab with probesOut := [{ tag := 0, since := 0, cmd := 5 }] }, now := 0x026259 }, { tag := 0, since := 0, cmd := 5 }, by decide +kernel⟩,
   ⟨ws, by decide +kernel⟩,
   ⟨wrun ws, by decide +kernel, Or.inr (List.cons_ne_nil _ _)⟩⟩

/-- The hypotheses of ManagementPackets can be met, clause by clause. -/
theorem witness_ManagementPackets :
    (∃ (a : Fin 12) (f : Data2048) (rest : List (Fin 12 × Data2048)) (s : State) (e : Instr × ℕ × Bool),
      s.fab.inbox = (a, f) :: rest ∧
      e ∈ [(Instr.mgmtRegRd, 0, false), (Instr.mgmtRegWr, 1, true)] ∧ isMgmt e.2.1 f = true ∧ s.fab.job = none ∧ s.isManager (flSrc f) = false) ∧
    (∃ (a : Fin 12) (f : Data2048) (rest : List (Fin 12 × Data2048)) (s : State) (e : Instr × ℕ × Bool),
      s.fab.inbox = (a, f) :: rest ∧
      e ∈ [(Instr.mgmtRegRd, 0, false), (Instr.mgmtRegWr, 1, true)] ∧
        isMgmt e.2.1 f = true ∧ s.fab.job = none ∧ s.isManager (flSrc f) = true ∧ (mgAddr (flPayload f) % 4 ≠ 0 ∨ 56 < mgWords (flPayload f))) ∧
    (∃ (a : Fin 12) (f : Data2048) (rest : List (Fin 12 × Data2048)) (s : State) (e : Instr × ℕ × Bool),
      s.fab.inbox = (a, f) :: rest ∧
      e ∈ [(Instr.mgmtRegRd, 0, false), (Instr.mgmtRegWr, 1, true)] ∧
        isMgmt e.2.1 f = true ∧ s.fab.job = none ∧ s.isManager (flSrc f) = true ∧ mgAddr (flPayload f) % 4 = 0 ∧ mgWords (flPayload f) ≤ 56) ∧
    (∃ (a : Fin 12) (f : Data2048) (rest : List (Fin 12 × Data2048)) (s : State),
      s.fab.inbox = (a, f) :: rest ∧ s.fab.job.isSome = true) ∧
    (∃ (a : Fin 12) (f : Data2048) (rest : List (Fin 12 × Data2048)) (s : State) (x : Awaited),
      s.fab.inbox = (a, f) :: rest ∧
      isMgmt 2 f = true ∧ List.find? (fun y => y.tag == BitVec.setWidth 32 (mgTag (flPayload f))) s.fab.mgmtOut = some x) ∧
    (∃ (a : Fin 12) (f : Data2048) (rest : List (Fin 12 × Data2048)) (s : State),
      s.fab.inbox = (a, f) :: rest ∧
      isMgmt 2 f = true ∧ List.find? (fun y => y.tag == BitVec.setWidth 32 (mgTag (flPayload f))) s.fab.mgmtOut = none) ∧
    (∃ (a : Fin 12) (f : Data2048) (rest : List (Fin 12 × Data2048)) (s : State),
      s.fab.inbox = (a, f) :: rest ∧ isMgmt 5 f = true) ∧
    (∃ (a : Fin 12) (f : Data2048) (rest : List (Fin 12 × Data2048)) (s : State) (dev : BitVec 10),
      s.fab.inbox = (a, f) :: rest ∧
      isMgmt 4 f = true ∧
        s.pwr.mctpHere (mgMctp (flPayload f)) = false ∧ tfind s.pwr.eids (BitVec.toNat (mctpDst (mgMctp (flPayload f)))) = some dev) ∧
    (∃ (a : Fin 12) (f : Data2048) (rest : List (Fin 12 × Data2048)) (s : State),
      s.fab.inbox = (a, f) :: rest ∧
      isMgmt 4 f = true ∧
        s.pwr.mctpHere (mgMctp (flPayload f)) = false ∧ tfind s.pwr.eids (BitVec.toNat (mctpDst (mgMctp (flPayload f)))) = none) ∧
    (∃ (a : ℕ) (n : ℕ) (ws : List Word) (x : ℕ × ℕ × List Word),
      a % 4 = 0 ∧ 1 ≤ n ∧ x ∈ mgUnits a n ws) ∧
    (∃ (s : State) (j : MgJob),
      s.fab.job = some j ∧ j.asked.isSome = true) ∧
    (∃ (s : State) (j : MgJob),
      s.fab.job = some j ∧ j.asked = none ∧ j.left = []) ∧
    (∃ (s : State) (j : MgJob) (x : ℕ × ℕ × List Word) (rest : List (ℕ × ℕ × List Word)),
      s.fab.job = some j ∧
      j.asked = none ∧
        j.left = x :: rest ∧
          s.byPacket x.1 = false ∧
            fanAddr x.1 = false ∧ s.mustWait mcNode (s.addrNode x.1) = false ∧ j.write = false ∧ s.readHeld (s.addrNode x.1) = false) ∧
    (∃ (s : State) (j : MgJob) (x : ℕ × ℕ × List Word) (rest : List (ℕ × ℕ × List Word)),
      s.fab.job = some j ∧
      j.asked = none ∧
        j.left = x :: rest ∧ s.byPacket x.1 = false ∧ fanAddr x.1 = false ∧ s.mustWait mcNode (s.addrNode x.1) = false ∧ j.write = true) ∧
    (∃ (s : State) (j : MgJob) (x : ℕ × ℕ × List Word) (rest : List (ℕ × ℕ × List Word)) (tag : BitVec 10) (t : State),
      s.fab.job = some j ∧
      j.asked = none ∧
        j.left = x :: rest ∧
          (s.byPacket x.1 = true ∨ fanAddr x.1 = true) ∧
            s.issueNoc mcNode 0 (if j.write = true then 1 else 0)
                (reqData x.1 x.2.1 (List.foldl (fun v y => v ||| at_ 128 (32 * y.2) y.1) 0 x.2.2.zipIdx)) =
              Issued.sent tag t) ∧
    (∃ (j : MgJob),
      j.reset = none) ∧
    (∃ (tag : BitVec 10) (s : State) (x : Awaited),
      List.find? (fun y => y.tag == BitVec.setWidth 32 tag) s.fab.mgmtOut = some x ∧ x.since + s.fab.probeTo.toNat ≤ s.now) ∧
    (∃ (tag : BitVec 10) (s : State) (x : Awaited),
      List.find? (fun y => y.tag == BitVec.setWidth 32 tag) s.fab.mgmtOut = some x ∧ s.now < x.since + s.fab.probeTo.toNat) :=
  ⟨⟨0, wmg [(0, 1)], [], win (wmg [(0, 1)]), (.mgmtRegWr, 1, true), by decide +kernel, by simp, by decide +kernel⟩,
   ⟨0, wmg [(32, 2)], [], winf (wmg [(32, 2)]) (fun x => { x with mgrValid := true }), (.mgmtRegRd, 0, false), by decide +kernel, by simp, by decide +kernel⟩,
   ⟨0, wmg [(32, 0x40), (64, 55)], [], winf (wmg [(32, 0x40), (64, 55)]) (fun x => { x with mgrValid := true }), (.mgmtRegRd, 0, false), by decide +kernel, by simp, by decide +kernel⟩,
   ⟨0, wmg [], [], winf (wmg []) (fun x => { x with job := some wjob }), by decide +kernel⟩,
   ⟨0, wmg [(0, 2)], [], winf (wmg [(0, 2)]) (fun b => { b with mgmtOut := [{ tag := 0, since := 0 }] }), { tag := 0, since := 0 }, by decide +kernel⟩,
   ⟨0, wmg [(0, 2)], [], win (wmg [(0, 2)]), by decide +kernel⟩,
   ⟨0, wmg [(0, 5)], [], win (wmg [(0, 5)]), by decide +kernel⟩,
   ⟨0, wmg [(0, 4), (136, 9)], [], { win (wmg [(0, 4), (136, 9)]) with pwr := { ws.pwr with eids := [(9, 5)] } }, 5, by decide +kernel⟩,
   ⟨0, wmg [(0, 4), (136, 9)], [], win (wmg [(0, 4), (136, 9)]), by decide +kernel⟩,
   ⟨0x4C, 2, [1, 2], (0x50, 1, [2]), by decide +kernel⟩,
   ⟨{ ws with fab := { ws.fab with job := some wjob } }, wjob, by decide +kernel⟩,
   ⟨{ ws with fab := { ws.fab with job := some { wjob with asked := none, left := [] } } }, { wjob with asked := none, left := [] }, by decide +kernel⟩,
   ⟨{ ws with fab := { ws.fab with job := some { wjob with asked := none } } }, { wjob with asked := none }, (0x40, 1, []), [], by decide +kernel⟩,
   ⟨{ ws with fab := { ws.fab with job := some { wjob with asked := none, write := true, left := [(0x40, 1, [5])] } } }, { wjob with asked := none, write := true, left := [(0x40, 1, [5])] }, (0x40, 1, [5]), [], by decide +kernel⟩,
   ⟨{ ws with fab := { ws.fab with job := some { wjob with asked := none, left := [(0x2000000, 1, [])] } } }, { wjob with asked := none, left := [(0x2000000, 1, [])] }, (0x2000000, 1, []), [], _, _, by decide +kernel, by decide +kernel, by decide +kernel, by decide +kernel, rfl⟩,
   ⟨wjob, rfl⟩,
   ⟨0, { ws with fab := { ws.fab with mgmtOut := [{ tag := 0, since := 0 }] }, now := 0x02625A }, { tag := 0, since := 0 }, by decide +kernel⟩,
   ⟨0, { ws with fab := { ws.fab with mgmtOut := [{ tag := 0, since := 0 }] }, now := 0x026259 }, { tag := 0, since := 0 }, by decide +kernel⟩⟩

/-- The hypotheses of RemoteAccesses can be met, clause by clause. -/
theorem witness_RemoteAccesses :
    (∃ (a : Fin 12) (f : Data2048) (rest : List (Fin 12 × Data2048)) (s : State),
      s.fab.inbox = (a, f) :: rest ∧ flType f = 4 ∧ s.freeDenied a f = some true) ∧
    (∃ (a : Fin 12) (f : Data2048) (rest : List (Fin 12 × Data2048)) (s : State),
      s.fab.inbox = (a, f) :: rest ∧ flType f = 4 ∧ s.freeDenied a f = some false) ∧
    (∃ (a : Fin 12) (f : Data2048) (rest : List (Fin 12 × Data2048)) (s : State),
      s.fab.inbox = (a, f) :: rest ∧ flType f = 4 ∧ s.freeDenied a f = none ∧ 224 < frLen (flPayload f)) ∧
    (∃ (a : Fin 12) (f : Data2048) (rest : List (Fin 12 × Data2048)) (s : State) (c : ℕ),
      s.fab.inbox = (a, f) :: rest ∧
      flType f = 4 ∧ s.freeDenied a f = none ∧ frLen (flPayload f) ≤ 224 ∧ partsFault (s.freeParts (flPayload f) true) = some c) ∧
    (∃ (a : Fin 12) (f : Data2048) (rest : List (Fin 12 × Data2048)) (s : State) (fails : List BlockFail) (r : State × Bool),
      s.fab.inbox = (a, f) :: rest ∧
      flType f = 4 ∧
        s.freeDenied a f = none ∧
          frLen (flPayload f) ≤ 224 ∧
            partsFault (s.freeParts (flPayload f) true) = none ∧
              (s.tookFlit rest a f).freePut (frCtx (flPayload f)) fails (s.freeParts (flPayload f) true) (frData (flPayload f)) = r) ∧
    (∃ (a : Fin 12) (f : Data2048) (rest : List (Fin 12 × Data2048)) (s : State),
      s.fab.inbox = (a, f) :: rest ∧ flType f = 5 ∧ s.freeDenied a f = some true) ∧
    (∃ (a : Fin 12) (f : Data2048) (rest : List (Fin 12 × Data2048)) (s : State),
      s.fab.inbox = (a, f) :: rest ∧ flType f = 5 ∧ s.freeDenied a f = some false) ∧
    (∃ (a : Fin 12) (f : Data2048) (rest : List (Fin 12 × Data2048)) (s : State),
      s.fab.inbox = (a, f) :: rest ∧ flType f = 5 ∧ s.freeDenied a f = none ∧ 224 < frLen (flPayload f)) ∧
    (∃ (a : Fin 12) (f : Data2048) (rest : List (Fin 12 × Data2048)) (s : State) (c : ℕ),
      s.fab.inbox = (a, f) :: rest ∧
      flType f = 5 ∧ s.freeDenied a f = none ∧ frLen (flPayload f) ≤ 224 ∧ partsFault (s.freeParts (flPayload f) false) = some c) ∧
    (∃ (a : Fin 12) (f : Data2048) (rest : List (Fin 12 × Data2048)) (s : State),
      s.fab.inbox = (a, f) :: rest ∧
      flType f = 5 ∧
        s.freeDenied a f = none ∧
          frLen (flPayload f) ≤ 224 ∧
            partsFault (s.freeParts (flPayload f) false) = none ∧ (List.map partHost (s.freeParts (flPayload f) false)).sum = 0) ∧
    (∃ (a : Fin 12) (f : Data2048) (rest : List (Fin 12 × Data2048)) (s : State) (io : HostIO) (b : List Byte),
      s.fab.inbox = (a, f) :: rest ∧
      flType f = 5 ∧
        s.freeDenied a f = none ∧
          frLen (flPayload f) ≤ 224 ∧
            partsFault (s.freeParts (flPayload f) false) = none ∧
              (List.map partHost (s.freeParts (flPayload f) false)).sum ≠ 0 ∧
                io = HostIO.data b ∧ b.length = (List.map partHost (s.freeParts (flPayload f) false)).sum) ∧
    (∃ (a : Fin 12) (f : Data2048) (rest : List (Fin 12 × Data2048)) (s : State) (io : HostIO),
      s.fab.inbox = (a, f) :: rest ∧
      flType f = 5 ∧
        s.freeDenied a f = none ∧
          frLen (flPayload f) ≤ 224 ∧
            partsFault (s.freeParts (flPayload f) false) = none ∧
              (List.map partHost (s.freeParts (flPayload f) false)).sum ≠ 0 ∧ io = HostIO.error) ∧
    (∃ (a : Fin 12) (f : Data2048) (rest : List (Fin 12 × Data2048)) (s : State) (x : Awaited) (r : SlotRef),
      s.fab.inbox = (a, f) :: rest ∧
      flType f = 6 ∧
        List.find? (fun y => y.tag == BitVec.setWidth 32 (frTag (flPayload f))) s.fab.freeOut = some x ∧
          x.slot = some r ∧ x.epoch = (s.stm r).epoch ∧ frStatus (flPayload f) ≠ 0) ∧
    (∃ (a : Fin 12) (f : Data2048) (rest : List (Fin 12 × Data2048)) (s : State) (x : Awaited) (r : SlotRef),
      s.fab.inbox = (a, f) :: rest ∧
      flType f = 6 ∧
        List.find? (fun y => y.tag == BitVec.setWidth 32 (frTag (flPayload f))) s.fab.freeOut = some x ∧
          x.slot = some r ∧ x.epoch = (s.stm r).epoch ∧ frStatus (flPayload f) = 0 ∧ x.write = true) ∧
    (∃ (a : Fin 12) (f : Data2048) (rest : List (Fin 12 × Data2048)) (s : State) (x : Awaited) (r : SlotRef),
      s.fab.inbox = (a, f) :: rest ∧
      flType f = 6 ∧
        List.find? (fun y => y.tag == BitVec.setWidth 32 (frTag (flPayload f))) s.fab.freeOut = some x ∧
          x.slot = some r ∧ x.epoch = (s.stm r).epoch ∧ frStatus (flPayload f) = 0 ∧ x.write = false) ∧
    (∃ (tag : BitVec 16) (s : State) (x : Awaited) (r : SlotRef),
      List.find? (fun y => y.tag == BitVec.setWidth 32 tag) s.fab.freeOut = some x ∧
      x.slot = some r ∧ x.epoch = (s.stm r).epoch ∧ x.since + s.fab.probeTo.toNat ≤ s.now) ∧
    (∃ (tag : BitVec 16) (s : State) (x : Awaited) (r : SlotRef),
      List.find? (fun y => y.tag == BitVec.setWidth 32 tag) s.fab.freeOut = some x ∧
      x.slot = some r ∧ x.epoch = (s.stm r).epoch ∧ s.now < x.since + s.fab.probeTo.toNat) :=
  ⟨⟨0, wfr 4 [], [], win (wfr 4 []), by decide +kernel⟩,
   ⟨0, wfr 4 [], [], { win (wfr 4 []) with sec := { ws.sec with ctxs := [(0, { part := 0, conf := true })] } }, by decide +kernel⟩,
   ⟨0, wfr 4 [(64, 224)], [], wfree (wfr 4 [(64, 224)]) [], by decide +kernel⟩,
   ⟨0, wfr 4 [(64, 223)], [], wfree (wfr 4 [(64, 223)]) [], 1, by decide +kernel⟩,
   ⟨0, wfr 4 [(64, 223)], [], wfree (wfr 4 [(64, 223)]) [(0, 5)], [], _, by decide +kernel, by decide +kernel, by decide +kernel, by decide +kernel, by decide +kernel, rfl⟩,
   ⟨0, wfr 5 [], [], win (wfr 5 []), by decide +kernel⟩,
   ⟨0, wfr 5 [], [], { win (wfr 5 []) with sec := { ws.sec with ctxs := [(0, { part := 0, conf := true })] } }, by decide +kernel⟩,
   ⟨0, wfr 5 [(64, 224)], [], wfree (wfr 5 [(64, 224)]) [], by decide +kernel⟩,
   ⟨0, wfr 5 [(64, 223)], [], wfree (wfr 5 [(64, 223)]) [], 1, by decide +kernel⟩,
   ⟨0, wfr 5 [(64, 223)], [], wfree (wfr 5 [(64, 223)]) [(0, 3)], by decide +kernel⟩,
   ⟨0, wfr 5 [(64, 223)], [], wfree (wfr 5 [(64, 223)]) [(0, 0x13)], _, List.replicate 224 0, by decide +kernel, by decide +kernel, by decide +kernel, by decide +kernel, by decide +kernel, by decide +kernel, rfl, by decide +kernel⟩,
   ⟨0, wfr 5 [(64, 223)], [], wfree (wfr 5 [(64, 223)]) [(0, 0x13)], .error, by decide +kernel⟩,
   ⟨0, wfr 6 [(96, 1)], [], winf (wfr 6 [(96, 1)]) (fun b => { b with freeOut := [{ tag := 0, since := 0, slot := some (.cal 3 0) }] }), { tag := 0, since := 0, slot := some (.cal 3 0) }, .cal 3 0, by decide +kernel⟩,
   ⟨0, wfr 6 [], [], winf (wfr 6 []) (fun b => { b with freeOut := [{ tag := 0, since := 0, slot := some (.cal 3 0), write := true }] }), { tag := 0, since := 0, slot := some (.cal 3 0), write := true }, .cal 3 0, by decide +kernel⟩,
   ⟨0, wfr 6 [], [], winf (wfr 6 []) (fun b => { b with freeOut := [{ tag := 0, since := 0, slot := some (.cal 3 0) }] }), { tag := 0, since := 0, slot := some (.cal 3 0) }, .cal 3 0, by decide +kernel⟩,
   ⟨0, { ws with fab := { ws.fab with freeOut := [{ tag := 0, since := 0, slot := some (.cal 3 0) }] }, now := 0x02625A }, { tag := 0, since := 0, slot := some (.cal 3 0) }, .cal 3 0, by decide +kernel⟩,
   ⟨0, { ws with fab := { ws.fab with freeOut := [{ tag := 0, since := 0, slot := some (.cal 3 0) }] }, now := 0x026259 }, { tag := 0, since := 0, slot := some (.cal 3 0) }, .cal 3 0, by decide +kernel⟩⟩

/-- The hypotheses of RingControlAndDoorbells can be met, clause by clause. -/
theorem witness_RingControlAndDoorbells :
    (∃ (r : Fin 64) (s : State),
      5 ≤ s.pwr.phase.toNat ∧ s.cp.sq[r].en = false) ∧
    (∃ (r : Fin 64) (s : State),
      5 ≤ s.pwr.phase.toNat ∧ s.cp.sq[r].en = true) ∧
    (∃ (s : State),
      5 ≤ s.pwr.phase.toNat) ∧
    (∃ (r : Fin 64) (s : State),
      5 ≤ s.pwr.phase.toNat ∧ s.cp.cq[r].en = false) ∧
    (∃ (r : Fin 64) (s : State),
      5 ≤ s.pwr.phase.toNat ∧ s.cp.cq[r].en = true) ∧
    (∃ (r : Fin 64) (w : Word) (s : State),
      5 ≤ s.pwr.phase.toNat ∧ (s.cp.sq[r].en = false ∨ s.cp.sq[r].size ≤ BitVec.toNat w)) ∧
    (∃ (r : Fin 64) (w : Word) (s : State) (n : ℕ),
      5 ≤ s.pwr.phase.toNat ∧
      s.cp.sq[r].en = true ∧
        BitVec.toNat w < s.cp.sq[r].size ∧
          n = (s.cp.sq[r].size + BitVec.toNat w - s.cp.sq[r].tail.toNat) % s.cp.sq[r].size ∧ s.cp.sq[r].size - 1 < n + s.cp.sq[r].unfetched) ∧
    (∃ (r : Fin 64) (w : Word) (s : State) (n : ℕ),
      5 ≤ s.pwr.phase.toNat ∧
      s.cp.sq[r].en = true ∧
        BitVec.toNat w < s.cp.sq[r].size ∧
          n = (s.cp.sq[r].size + BitVec.toNat w - s.cp.sq[r].tail.toNat) % s.cp.sq[r].size ∧ n + s.cp.sq[r].unfetched ≤ s.cp.sq[r].size - 1) ∧
    (∃ (r : Fin 64) (w : Word) (s : State),
      5 ≤ s.pwr.phase.toNat ∧ (s.cp.cq[r].en = false ∨ s.cp.cq[r].size ≤ BitVec.toNat w)) ∧
    (∃ (r : Fin 64) (w : Word) (s : State),
      5 ≤ s.pwr.phase.toNat ∧ s.cp.cq[r].en = true ∧ BitVec.toNat w < s.cp.cq[r].size) :=
  ⟨⟨63, ws, by decide +kernel⟩,
   ⟨63, wsq { en := true }, by decide +kernel⟩,
   ⟨ws, by decide +kernel⟩,
   ⟨63, ws, by decide +kernel⟩,
   ⟨63, wcq { en := true }, by decide +kernel⟩,
   ⟨63, 64, wsq { en := true }, by decide +kernel⟩,
   ⟨63, 1, wsq { en := true, head := 1 }, 1, by decide +kernel⟩,
   ⟨63, 63, wsq { en := true }, 63, by decide +kernel⟩,
   ⟨63, 64, wcq { en := true }, by decide +kernel⟩,
   ⟨63, 63, wcq { en := true }, by decide +kernel⟩⟩

set_option maxRecDepth 100000 in
/-- The hypotheses of CommandsStartAndComplete can be met, clause by clause. -/
theorem witness_CommandsStartAndComplete :
    (∃ (r : Fin 64) (k : Cmd) (s : State) (o : Cmd),
      s.cp.sq[r].en = true ∧
      s.cp.sq[r].head ≠ s.cp.sq[r].tail ∧
        s.cp.sq[r].head.toNat < s.cp.sq[r].size ∧
          s.cp.sq[r].tail.toNat < s.cp.sq[r].size ∧
            List.find? (fun k => k.ring == r && k.phase == CmdPhase.submitted && k.slot == s.cp.sq[r].head) s.cp.cmds = some k ∧
              List.find? (fun k => k.ring == r && (k.phase == CmdPhase.submitted || k.phase == CmdPhase.fetched && pkOpcode k.packet != 50))
                    s.cp.cmds =
                  some o ∧
                (s.cp.sq[r].size + k.slot.toNat - o.slot.toNat) % s.cp.sq[r].size ≤ 8) ∧
    (∃ (r : Fin 64) (k : Cmd) (s : State) (o : Cmd),
      s.cp.sq[r].en = true ∧
      s.cp.sq[r].head ≠ s.cp.sq[r].tail ∧
        s.cp.sq[r].head.toNat < s.cp.sq[r].size ∧
          s.cp.sq[r].tail.toNat < s.cp.sq[r].size ∧
            List.find? (fun k => k.ring == r && k.phase == CmdPhase.submitted && k.slot == s.cp.sq[r].head) s.cp.cmds = some k ∧
              List.find? (fun k => k.ring == r && (k.phase == CmdPhase.submitted || k.phase == CmdPhase.fetched && pkOpcode k.packet != 50))
                    s.cp.cmds =
                  some o ∧
                8 < (s.cp.sq[r].size + k.slot.toNat - o.slot.toNat) % s.cp.sq[r].size) ∧
    (∃ (r : Fin 64) (s : State),
      s.cp.sq[r].en = false) ∧
    (∃ (r : Fin 64) (k : Cmd) (s : State),
      List.find? (fun k => k.ring == r && (k.phase == CmdPhase.submitted || k.phase == CmdPhase.fetched && pkOpcode k.packet != 50)) s.cp.cmds =
        some k ∧
      k.phase = CmdPhase.fetched ∧ s.mayStart k = true ∧ s.checks k = none ∧ (pkOpcode k.packet ≠ 96 ∨ s.cp.fwOpen = false)) ∧
    (∃ (r : Fin 64) (k : Cmd) (s : State) (st : ℕ) (d : Word),
      List.find? (fun k => k.ring == r && (k.phase == CmdPhase.submitted || k.phase == CmdPhase.fetched && pkOpcode k.packet != 50)) s.cp.cmds =
        some k ∧
      k.phase = CmdPhase.fetched ∧ s.mayStart k = true ∧ s.checks k = some (st, d) ∧ (pkOpcode k.packet ≠ 96 ∨ s.cp.fwOpen = false)) ∧
    (∃ (r : Fin 64) (k : Cmd) (s : State),
      List.find? (fun k => k.ring == r && (k.phase == CmdPhase.submitted || k.phase == CmdPhase.fetched && pkOpcode k.packet != 50)) s.cp.cmds =
        some k ∧
      k.phase = CmdPhase.fetched ∧ s.mayStart k = true ∧ pkOpcode k.packet = 96 ∧ s.cp.fwOpen = true ∧ packetBad k = false) ∧
    (∃ (serial : ℕ) (k : Cmd) (s : State),
      s.findCmd serial = some k) ∧
    (∃ (k : Cmd),
      packetBad k = true) ∧
    (∃ (r : Fin 64) (c : Completion) (s : State),
      (s.readyFor r).head? = some c ∧ s.cp.cq[r].full = true) ∧
    (∃ (r : Fin 64) (c : Completion) (s : State),
      (s.readyFor r).head? = some c ∧ s.cp.cq[r].full = false) ∧
    (∃ (s : State) (k : Cmd),
      s.findCmd k.serial = some k) :=
  ⟨⟨63, { serial := 7, ring := 63, slot := 0 }, { wsq { en := true, tail := 1 } with cp := { (wsq { en := true, tail := 1 }).cp with cmds := [{ serial := 7, ring := 63, slot := 0 }] } }, { serial := 7, ring := 63, slot := 0 }, by decide +kernel⟩,
   ⟨63, { serial := 8, ring := 63, slot := 9 }, { wsq { en := true, head := 9, tail := 10 } with cp := { (wsq { en := true, head := 9, tail := 10 }).cp with cmds := [{ serial := 7, ring := 63, slot := 0, phase := .fetched }, { serial := 8, ring := 63, slot := 9 }] } }, { serial := 7, ring := 63, slot := 0, phase := .fetched }, by decide +kernel⟩,
   ⟨63, ws, by decide +kernel⟩,
   ⟨0, wcf 1 [], wcs (wcf 1 []), by decide +kernel⟩,
   ⟨0, { wcf 1 [] with packet := 1 }, wcs { wcf 1 [] with packet := 1 }, 0x10, 0, by decide +kernel⟩,
   ⟨0, wcf 96 [], { wcs (wcf 96 []) with cp := { (wcs (wcf 96 [])).cp with fwOpen := true } }, by decide +kernel⟩,
   ⟨7, wcm 1 [], wcs (wcm 1 []), by decide +kernel⟩,
   ⟨wcm 1 [], by decide +kernel⟩,
   ⟨63, wcompl, wwait {}, by decide +kernel⟩,
   ⟨63, wcompl, wwait { en := true }, by decide +kernel⟩,
   ⟨wcs (wcm 1 []), wcm 1 [], by decide +kernel⟩⟩

/-- The hypotheses of ContextAndPageCommands can be met, clause by clause. -/
theorem witness_ContextAndPageCommands :
    (∃ (cmd : ℕ) (s : State) (c : Instr),
      (∀ (k : Cmd), s.findCmd cmd = some k → k.phase ≠ CmdPhase.started ∨ k.begun = true) ∧
      c ∈
        [Instr.nop cmd, Instr.ctxCreate cmd, Instr.ctxDestroy cmd, Instr.mapPages cmd [], Instr.unmapPages cmd, Instr.loadPlan cmd [],
          Instr.runPlan cmd [], Instr.resume cmd, Instr.copy cmd, Instr.keyImport cmd [], Instr.fabricDiscover cmd, Instr.fabricRouteSet cmd [],
          Instr.geyserSet cmd]) ∧
    (∃ (cmd : ℕ) (k : Cmd) (s : State),
      s.findCmd cmd = some k ∧ k.phase = CmdPhase.started ∧ k.begun = false ∧ pkOpcode k.packet = 1) ∧
    (∃ (cmd : ℕ) (k : Cmd) (s : State),
      s.findCmd cmd = some k ∧
      k.phase = CmdPhase.started ∧ k.begun = false ∧ pkOpcode k.packet = 16 ∧ (s.part (Fin.ofNat 8 (rnum k.packet 16 0 3))).resetting = true) ∧
    (∃ (cmd : ℕ) (k : Cmd) (s : State),
      s.findCmd cmd = some k ∧
      k.phase = CmdPhase.started ∧
        k.begun = false ∧
          pkOpcode k.packet = 16 ∧
            (s.part (Fin.ofNat 8 (rnum k.packet 16 0 3))).resetting = false ∧
              ((s.part (Fin.ofNat 8 (rnum k.packet 16 0 3))).valid = false ∨
                16 ≤ List.length (s.ctxsOf (Fin.ofNat 8 (rnum k.packet 16 0 3))) ∨ bitAt k.packet 131 = true ∧ s.cp.ideActive = false)) ∧
    (∃ (cmd : ℕ) (k : Cmd) (s : State),
      s.findCmd cmd = some k ∧
      k.phase = CmdPhase.started ∧
        k.begun = false ∧
          pkOpcode k.packet = 16 ∧
            (s.part (Fin.ofNat 8 (rnum k.packet 16 0 3))).resetting = false ∧
              (s.part (Fin.ofNat 8 (rnum k.packet 16 0 3))).valid = true ∧
                List.length (s.ctxsOf (Fin.ofNat 8 (rnum k.packet 16 0 3))) < 16 ∧ bitAt k.packet 131 = false ∧ s.cp.ember = true) ∧
    (∃ (cmd : ℕ) (k : Cmd) (s : State) (s1 : State) (area : List (Fin 8 × ℕ)),
      s.findCmd cmd = some k ∧
      k.phase = CmdPhase.started ∧
        k.begun = false ∧
          pkOpcode k.packet = 16 ∧
            (s.part (Fin.ofNat 8 (rnum k.packet 16 0 3))).resetting = false ∧
              (s.part (Fin.ofNat 8 (rnum k.packet 16 0 3))).valid = true ∧
                List.length (s.ctxsOf (Fin.ofNat 8 (rnum k.packet 16 0 3))) < 16 ∧
                  bitAt k.packet 131 = false ∧
                    s.cp.ember = false ∧ s.reserveArea (s.part (Fin.ofNat 8 (rnum k.packet 16 0 3))) = some (s1, area)) ∧
    (∃ (cmd : ℕ) (k : Cmd) (s : State),
      s.findCmd cmd = some k ∧
      k.phase = CmdPhase.started ∧
        k.begun = false ∧ pkOpcode k.packet = 17 ∧ (Option.map (fun x => x.scrubbing) (s.ctx (pkCtx k.packet))).getD false = true) ∧
    (∃ (cmd : ℕ) (k : Cmd) (s : State),
      s.findCmd cmd = some k ∧
      k.phase = CmdPhase.started ∧
        k.begun = false ∧ pkOpcode k.packet = 17 ∧ (Option.map (fun x => x.scrubbing) (s.ctx (pkCtx k.packet))).getD false = false) ∧
    (∃ (cmd : ℕ) (k : Cmd) (s : State) (l : List DWord) (i : ℕ),
      s.findCmd cmd = some k ∧
      k.phase = CmdPhase.started ∧
        k.begun = false ∧
          pkOpcode k.packet = 32 ∧
            l.length = rnum k.packet 20 0 17 ∧ mapScan s (pkCtx k.packet) 0 (rnum k.packet 16 0 21) s.mappedFrames l = some i) ∧
    (∃ (cmd : ℕ) (k : Cmd) (s : State) (l : List DWord),
      s.findCmd cmd = some k ∧
      k.phase = CmdPhase.started ∧
        k.begun = false ∧
          pkOpcode k.packet = 32 ∧
            l.length = rnum k.packet 20 0 17 ∧ mapScan s (pkCtx k.packet) 0 (rnum k.packet 16 0 21) s.mappedFrames l = none) ∧
    (∃ (cmd : ℕ) (k : Cmd) (s : State),
      s.findCmd cmd = some k ∧ k.phase = CmdPhase.started ∧ k.begun = false ∧ pkOpcode k.packet = 33) ∧
    (∃ (cmd : ℕ) (k : Cmd) (s : State),
      s.findCmd cmd = some k ∧ k.phase = CmdPhase.started ∧ pkOpcode k.packet = 33 ∧ k.begun = true ∧ s.pagesBusy k.packet = true) ∧
    (∃ (cmd : ℕ) (k : Cmd) (s : State),
      s.findCmd cmd = some k ∧ k.phase = CmdPhase.started ∧ pkOpcode k.packet = 33 ∧ k.begun = true ∧ s.pagesBusy k.packet = false) ∧
    (∃ (s : State),
      s.cp.cmds = []) :=
  ⟨⟨7, ws, .nop 7, fun k h => absurd h (by rw [show ws.findCmd 7 = none by decide +kernel]; exact fun e => nomatch e), by decide +kernel⟩,
   ⟨7, wcm 1 [], wcs (wcm 1 []), by decide +kernel⟩,
   ⟨7, wcm 16 [], { wcs (wcm 16 []) with sec := { wsec with parts := vmod wsec.parts 0 (fun p => { p with resetting := true }) } }, by decide +kernel⟩,
   ⟨7, wcm 16 [(128, 7)], { wcs (wcm 16 [(128, 7)]) with sec := { wsec with parts := vmod wsec.parts 7 (fun p => { p with valid := false }) } }, by decide +kernel⟩,
   ⟨7, wcm 16 [], { wcs (wcm 16 []) with cp := { (wcs (wcm 16 [])).cp with ember := true } }, by decide +kernel⟩,
   ⟨7, wcm 16 [], wcs (wcm 16 []), wcs (wcm 16 []), [], by decide +kernel, by decide +kernel, by decide +kernel, by decide +kernel, by decide +kernel, by decide +kernel, by decide +kernel, by decide +kernel, by decide +kernel, by unfold State.reserveArea; rw [if_neg (by decide +kernel)]; exact congrArg some (wtake _ _ _ (by decide +kernel))⟩,
   ⟨7, wcm 17 [], { wcs (wcm 17 []) with sec := { wsec with ctxs := [(0, { part := 0, scrubbing := true })] } }, by decide +kernel⟩,
   ⟨7, wcm 17 [], wcs (wcm 17 []), by decide +kernel⟩,
   ⟨7, wcm 32 [(160, 1)], wcs (wcm 32 [(160, 1)]), [0x10001], 0, by decide +kernel⟩,
   ⟨7, wcm 32 [(160, 1)], wcs (wcm 32 [(160, 1)]), [0], by decide +kernel⟩,
   ⟨7, wcm 33 [], wcs (wcm 33 []), by decide +kernel⟩,
   ⟨7, wcb 33 [(160, 1)], { wcs (wcb 33 [(160, 1)]) with hbmStacks := (wch (fun c => { c with queue := [wrq] })).hbmStacks }, by decide +kernel⟩,
   ⟨7, wcb 33 [(160, 1)], wcs (wcb 33 [(160, 1)]), by decide +kernel⟩,
   ⟨ws, by decide +kernel⟩⟩

set_option maxRecDepth 100000 in
/-- The hypotheses of PlanCommands can be met, clause by clause. -/
theorem witness_PlanCommands :
    (∃ (cmd : ℕ) (k : Cmd) (s : State),
      s.findCmd cmd = some k ∧
      k.phase = CmdPhase.started ∧
        k.begun = false ∧ pkOpcode k.packet = 48 ∧ (s.findPlan (BitVec.setWidth 17 (rfld k.packet 16 0 16))).isSome = true) ∧
    (∃ (cmd : ℕ) (k : Cmd) (s : State) (img : List Byte) (o : ℕ),
      s.findCmd cmd = some k ∧
      k.phase = CmdPhase.started ∧
        k.begun = false ∧
          pkOpcode k.packet = 48 ∧
            (s.findPlan (BitVec.setWidth 17 (rfld k.packet 16 0 16))).isSome = false ∧
              img.length = rnum k.packet 32 0 32 ∧ s.planBad (pkCtx k.packet) img (rnum k.packet 32 0 32) = some o) ∧
    (∃ (cmd : ℕ) (k : Cmd) (s : State) (img : List Byte) (p : Plan),
      s.findCmd cmd = some k ∧
      k.phase = CmdPhase.started ∧
        k.begun = false ∧
          pkOpcode k.packet = 48 ∧
            (s.findPlan (BitVec.setWidth 17 (rfld k.packet 16 0 16))).isSome = false ∧
              img.length = rnum k.packet 32 0 32 ∧
                s.planBad (pkCtx k.packet) img (rnum k.packet 32 0 32) = none ∧
                  p = planOf (BitVec.setWidth 17 (rfld k.packet 16 0 16)) (pkCtx k.packet) img ∧ s.mayInstall p = true) ∧
    (∃ (cmd : ℕ) (k : Cmd) (s : State) (img : List Byte) (p : Plan),
      s.findCmd cmd = some k ∧
      k.phase = CmdPhase.started ∧
        k.begun = false ∧
          pkOpcode k.packet = 48 ∧
            (s.findPlan (BitVec.setWidth 17 (rfld k.packet 16 0 16))).isSome = false ∧
              img.length = rnum k.packet 32 0 32 ∧
                s.planBad (pkCtx k.packet) img (rnum k.packet 32 0 32) = none ∧
                  p = planOf (BitVec.setWidth 17 (rfld k.packet 16 0 16)) (pkCtx k.packet) img ∧
                    s.mayInstall p = false ∧ s.heldAgainst p.ctx p.cals = false) ∧
    (∃ (cmd : ℕ) (k : Cmd) (s : State),
      s.findCmd cmd = some k ∧
      k.phase = CmdPhase.started ∧
        k.begun = false ∧ pkOpcode k.packet = 49 ∧ bitAt k.packet 145 = false ∧ s.findPlan (BitVec.setWidth 17 (rfld k.packet 16 0 16)) = none) ∧
    (∃ (cmd : ℕ) (k : Cmd) (s : State) (p : Plan),
      s.findCmd cmd = some k ∧
      k.phase = CmdPhase.started ∧
        k.begun = false ∧
          pkOpcode k.packet = 49 ∧
            bitAt k.packet 145 = false ∧
              s.findPlan (BitVec.setWidth 17 (rfld k.packet 16 0 16)) = some p ∧ (p.ctx ≠ pkCtx k.packet ∨ p.run ≠ PlanRun.loaded)) ∧
    (∃ (cmd : ℕ) (k : Cmd) (s : State) (p : Plan),
      s.findCmd cmd = some k ∧
      k.phase = CmdPhase.started ∧
        k.begun = false ∧
          pkOpcode k.packet = 49 ∧
            bitAt k.packet 145 = false ∧
              s.findPlan (BitVec.setWidth 17 (rfld k.packet 16 0 16)) = some p ∧
                p.ctx = pkCtx k.packet ∧ p.run = PlanRun.loaded ∧ s.cp.ember = true) ∧
    (∃ (cmd : ℕ) (k : Cmd) (s : State) (p : Plan),
      s.findCmd cmd = some k ∧
      k.phase = CmdPhase.started ∧
        k.begun = false ∧
          pkOpcode k.packet = 49 ∧
            bitAt k.packet 145 = false ∧
              s.findPlan (BitVec.setWidth 17 (rfld k.packet 16 0 16)) = some p ∧
                p.ctx = pkCtx k.packet ∧
                  p.run = PlanRun.loaded ∧
                    s.cp.ember = false ∧ bitAt k.packet 144 = false ∧ (rfld k.packet 24 0 64).toNat ≤ BitVec.toNat s.glb.beatCnt) ∧
    (∃ (cmd : ℕ) (k : Cmd) (s : State) (p : Plan),
      s.findCmd cmd = some k ∧
      k.phase = CmdPhase.started ∧
        k.begun = false ∧
          pkOpcode k.packet = 49 ∧
            bitAt k.packet 145 = false ∧
              s.findPlan (BitVec.setWidth 17 (rfld k.packet 16 0 16)) = some p ∧
                p.ctx = pkCtx k.packet ∧
                  p.run = PlanRun.loaded ∧
                    s.cp.ember = false ∧ bitAt k.packet 144 = false ∧ BitVec.toNat s.glb.beatCnt < (rfld k.packet 24 0 64).toNat) ∧
    (∃ (cmd : ℕ) (k : Cmd) (s : State) (p : Plan),
      s.findCmd cmd = some k ∧
      k.phase = CmdPhase.started ∧
        k.begun = false ∧
          pkOpcode k.packet = 49 ∧
            bitAt k.packet 145 = false ∧
              s.findPlan (BitVec.setWidth 17 (rfld k.packet 16 0 16)) = some p ∧
                p.ctx = pkCtx k.packet ∧ p.run = PlanRun.loaded ∧ s.cp.ember = false ∧ bitAt k.packet 144 = true) ∧
    (∃ (cmd : ℕ) (k : Cmd) (s : State),
      s.findCmd cmd = some k ∧
      k.phase = CmdPhase.started ∧
        k.begun = false ∧
          pkOpcode k.packet = 49 ∧
            s.cp.ember = false ∧
              bitAt k.packet 145 = true ∧ bitAt k.packet 144 = false ∧ (rfld k.packet 24 0 64).toNat ≤ BitVec.toNat s.glb.beatCnt) ∧
    (∃ (cmd : ℕ) (k : Cmd) (s : State) (img : List Byte) (o : ℕ),
      s.findCmd cmd = some k ∧
      k.phase = CmdPhase.started ∧
        k.begun = false ∧
          pkOpcode k.packet = 49 ∧
            s.cp.ember = false ∧
              bitAt k.packet 145 = true ∧
                bitAt k.packet 144 = true ∧ img.length = rnum k.packet 40 0 32 ∧ s.planBad (pkCtx k.packet) img (rnum k.packet 40 0 32) = some o) ∧
    (∃ (cmd : ℕ) (k : Cmd) (s : State) (img : List Byte) (o : ℕ),
      s.findCmd cmd = some k ∧
      k.phase = CmdPhase.started ∧
        k.begun = false ∧
          pkOpcode k.packet = 49 ∧
            s.cp.ember = true ∧
              bitAt k.packet 145 = true ∧
                bitAt k.packet 146 = false ∧ bitAt k.packet 144 = true ∧ img.length = rnum k.packet 40 0 32 ∧ s.emberBad img = some o) ∧
    (∃ (cmd : ℕ) (k : Cmd) (s : State),
      s.findCmd cmd = some k ∧
      k.phase = CmdPhase.started ∧ k.begun = false ∧ pkOpcode k.packet = 51 ∧ s.suspendedCmd (pkCtx k.packet) (rfld k.packet 16 0 32) = none) ∧
    (∃ (cmd : ℕ) (k : Cmd) (s : State) (w : Cmd) (p : Plan),
      s.findCmd cmd = some k ∧
      k.phase = CmdPhase.started ∧
        k.begun = false ∧
          pkOpcode k.packet = 51 ∧
            s.suspendedCmd (pkCtx k.packet) (rfld k.packet 16 0 32) = some w ∧
              s.suspendedPlan w.serial = some p ∧ s.planSlots p = [] ∧ p.saved = [] ∧ bitAt k.packet 160 = true) ∧
    (∃ (cmd : ℕ) (k : Cmd) (s : State) (w : Cmd) (i : Fin 32),
      s.findCmd cmd = some k ∧
      k.phase = CmdPhase.started ∧
        k.begun = false ∧
          pkOpcode k.packet = 51 ∧
            s.suspendedCmd (pkCtx k.packet) (rfld k.packet 16 0 32) = some w ∧
              s.suspendedPlan w.serial = none ∧ s.haltedSlot w.serial = some i ∧ s.cp.streams[i].beyondRepair = true) ∧
    (∃ (cmd : ℕ) (k : Cmd) (s : State) (w : Cmd) (i : Fin 32),
      s.findCmd cmd = some k ∧
      k.phase = CmdPhase.started ∧
        k.begun = false ∧
          pkOpcode k.packet = 51 ∧
            s.suspendedCmd (pkCtx k.packet) (rfld k.packet 16 0 32) = some w ∧
              s.suspendedPlan w.serial = none ∧
                s.haltedSlot w.serial = some i ∧ s.cp.streams[i].beyondRepair = false ∧ bitAt k.packet 160 = true) ∧
    (∃ (cmd : ℕ) (k : Cmd) (s : State) (w : Cmd) (i : Fin 32),
      s.findCmd cmd = some k ∧
      k.phase = CmdPhase.started ∧
        k.begun = false ∧
          pkOpcode k.packet = 51 ∧
            s.suspendedCmd (pkCtx k.packet) (rfld k.packet 16 0 32) = some w ∧
              s.suspendedPlan w.serial = none ∧
                s.haltedSlot w.serial = some i ∧
                  s.cp.streams[i].beyondRepair = false ∧ bitAt k.packet 160 = false ∧ (rfld k.packet 24 0 64).toNat ≤ BitVec.toNat s.glb.beatCnt) ∧
    (∃ (cmd : ℕ) (k : Cmd) (s : State) (w : Cmd) (i : Fin 32),
      s.findCmd cmd = some k ∧
      k.phase = CmdPhase.started ∧
        k.begun = false ∧
          pkOpcode k.packet = 51 ∧
            s.suspendedCmd (pkCtx k.packet) (rfld k.packet 16 0 32) = some w ∧
              s.suspendedPlan w.serial = none ∧
                s.haltedSlot w.serial = some i ∧
                  s.cp.streams[i].beyondRepair = false ∧ bitAt k.packet 160 = false ∧ BitVec.toNat s.glb.beatCnt < (rfld k.packet 24 0 64).toNat) :=
  ⟨⟨7, wcm 48 [(128, 1)], wrun (wcs (wcm 48 [(128, 1)])), by decide +kernel⟩,
   ⟨7, wcm 48 [(128, 1)], wcs (wcm 48 [(128, 1)]), [], 0, by decide +kernel⟩,
   ⟨7, wld, wlds, wimg, _, by decide +kernel, by decide +kernel, by decide +kernel, by decide +kernel, by decide +kernel, by decide +kernel, by decide +kernel, rfl, by decide +kernel⟩,
   ⟨7, wld, { wlds with plans := [{ wpl with handle := 2 }] }, wimg, _, by decide +kernel, by decide +kernel, by decide +kernel, by decide +kernel, by decide +kernel, by decide +kernel, by decide +kernel, rfl, by decide +kernel, by decide +kernel⟩,
   ⟨7, wcm 49 [], wcs (wcm 49 []), by decide +kernel⟩,
   ⟨7, wcm 49 [(128, 1)], wrun (wcs (wcm 49 [(128, 1)])), wpl, by decide +kernel⟩,
   ⟨7, wcm 49 [(128, 1)], { wcs (wcm 49 [(128, 1)]) with plans := [{ wpl with run := .loaded }], cp := { (wcs (wcm 49 [(128, 1)])).cp with ember := true } }, { wpl with run := .loaded }, by decide +kernel⟩,
   ⟨7, wcm 49 [(128, 1)], { wcs (wcm 49 [(128, 1)]) with plans := [{ wpl with run := .loaded }] }, { wpl with run := .loaded }, by decide +kernel⟩,
   ⟨7, wcm 49 [(128, 1), (192, 1)], { wcs (wcm 49 [(128, 1), (192, 1)]) with plans := [{ wpl with run := .loaded }] }, { wpl with run := .loaded }, by decide +kernel⟩,
   ⟨7, wcm 49 [(128, 1), (144, 1)], { wcs (wcm 49 [(128, 1), (144, 1)]) with plans := [{ wpl with run := .loaded }] }, { wpl with run := .loaded }, by decide +kernel⟩,
   ⟨7, wcm 49 [(145, 1)], wcs (wcm 49 [(145, 1)]), by decide +kernel⟩,
   ⟨7, wcm 49 [(144, 3)], wcs (wcm 49 [(144, 3)]), [], 0, by decide +kernel⟩,
   ⟨7, wcm 49 [(144, 3), (320, 64)], { wcs (wcm 49 [(144, 3), (320, 64)]) with cp := { (wcs (wcm 49 [(144, 3), (320, 64)])).cp with ember := true } }, List.replicate 17 0 ++ [1] ++ List.replicate 46 0, 0x10, by decide +kernel⟩,
   ⟨7, wcm 51 [], wcs (wcm 51 []), by decide +kernel⟩,
   ⟨7, wcm 51 [(160, 1)], { wsusp (wcm 51 [(160, 1)]) with plans := [{ wpl with cals := 0x8000000000000000, run := .suspended, work := some 3 }] }, { wcm 49 [] with serial := 3, phase := .suspended }, { wpl with cals := 0x8000000000000000, run := .suspended, work := some 3 }, by decide +kernel⟩,
   ⟨7, wcm 51 [(160, 1)], { wsusp (wcm 51 [(160, 1)]) with cp := { (wsusp (wcm 51 [(160, 1)])).cp with streams := vmod ws.cp.streams 31 (fun t => { t with st := .halted, cause := 5, work := some 3 }) } }, { wcm 49 [] with serial := 3, phase := .suspended }, 31, by decide +kernel⟩,
   ⟨7, wcm 51 [(160, 1)], { wsusp (wcm 51 [(160, 1)]) with cp := { (wsusp (wcm 51 [(160, 1)])).cp with streams := vmod ws.cp.streams 31 (fun t => { t with st := .halted, work := some 3 }) } }, { wcm 49 [] with serial := 3, phase := .suspended }, 31, by decide +kernel⟩,
   ⟨7, wcm 51 [], { wsusp (wcm 51 []) with cp := { (wsusp (wcm 51 [])).cp with streams := vmod ws.cp.streams 31 (fun t => { t with st := .halted, work := some 3 }) } }, { wcm 49 [] with serial := 3, phase := .suspended }, 31, by decide +kernel⟩,
   ⟨7, wcm 51 [(192, 1)], { wsusp (wcm 51 [(192, 1)]) with cp := { (wsusp (wcm 51 [(192, 1)])).cp with streams := vmod ws.cp.streams 31 (fun t => { t with st := .halted, work := some 3 }) } }, { wcm 49 [] with serial := 3, phase := .suspended }, 31, by decide +kernel⟩⟩

set_option maxRecDepth 100000 in
/-- The hypotheses of CopyAbortAndPreemption can be met, clause by clause. -/
theorem witness_CopyAbortAndPreemption :
    (∃ (cmd : ℕ) (k : Cmd) (s : State),
      s.findCmd cmd = some k ∧
      k.phase = CmdPhase.started ∧ k.begun = false ∧ pkOpcode k.packet = 64 ∧ s.ctxConf (pkCtx k.packet) = false ∧ s.copySlot k.packet = none) ∧
    (∃ (cmd : ℕ) (k : Cmd) (s : State) (i : Fin 32) (s1 : State) (o : ℕ),
      s.findCmd cmd = some k ∧
      k.phase = CmdPhase.started ∧
        k.begun = false ∧
          pkOpcode k.packet = 64 ∧
            s.ctxConf (pkCtx k.packet) = false ∧
              s.copySlot k.packet = some i ∧
                s1 =
                    s.submit (SlotRef.cp i)
                      { desc := rfld k.packet 16 0 512, owner := 1, ctx := some (pkCtx k.packet), cmd := some k.serial,
                        remote := if bitAt k.packet 650 = true then some (rfld k.packet 80 0 10, rfld k.packet 82 0 8) else none } ∧
                  firstOff (descRules (rfld k.packet 16 0 512) true) = some o) ∧
    (∃ (cmd : ℕ) (k : Cmd) (s : State) (i : Fin 32) (s1 : State),
      s.findCmd cmd = some k ∧
      k.phase = CmdPhase.started ∧
        k.begun = false ∧
          pkOpcode k.packet = 64 ∧
            s.ctxConf (pkCtx k.packet) = false ∧
              s.copySlot k.packet = some i ∧
                s1 =
                    s.submit (SlotRef.cp i)
                      { desc := rfld k.packet 16 0 512, owner := 1, ctx := some (pkCtx k.packet), cmd := some k.serial,
                        remote := if bitAt k.packet 650 = true then some (rfld k.packet 80 0 10, rfld k.packet 82 0 8) else none } ∧
                  firstOff (descRules (rfld k.packet 16 0 512) true) = none ∧
                    s.cp.streams[i].st ≠ StmState.idle ∧ s.cp.streams[i].shadow.isSome = true) ∧
    (∃ (cmd : ℕ) (k : Cmd) (s : State) (i : Fin 32) (s1 : State),
      s.findCmd cmd = some k ∧
      k.phase = CmdPhase.started ∧
        k.begun = false ∧
          pkOpcode k.packet = 64 ∧
            s.ctxConf (pkCtx k.packet) = false ∧
              s.copySlot k.packet = some i ∧
                s1 =
                    s.submit (SlotRef.cp i)
                      { desc := rfld k.packet 16 0 512, owner := 1, ctx := some (pkCtx k.packet), cmd := some k.serial,
                        remote := if bitAt k.packet 650 = true then some (rfld k.packet 80 0 10, rfld k.packet 82 0 8) else none } ∧
                  firstOff (descRules (rfld k.packet 16 0 512) true) = none ∧
                    (s.cp.streams[i].st = StmState.idle ∨ s.cp.streams[i].shadow = none)) ∧
    (∃ (cmd : ℕ) (k : Cmd) (s : State) (st : ℕ) (d : Word),
      s.findCmd cmd = some k ∧ k.phase = CmdPhase.fetched ∧ pkOpcode k.packet = 50 ∧ s.checks k = some (st, d)) ∧
    (∃ (cmd : ℕ) (k : Cmd) (s : State) (t : Cmd),
      s.findCmd cmd = some k ∧
      k.phase = CmdPhase.fetched ∧
        pkOpcode k.packet = 50 ∧
          s.checks k = none ∧
            bitAt k.packet 160 = false ∧
              List.find? (fun x => x.holdsTag (pkCtx k.packet) (rfld k.packet 16 0 32)) s.cp.cmds = some t ∧
                pkOpcode t.packet ≠ 50 ∧ (t.phase = CmdPhase.submitted ∨ t.phase = CmdPhase.fetched)) ∧
    (∃ (cmd : ℕ) (k : Cmd) (s : State),
      s.findCmd cmd = some k ∧
      k.phase = CmdPhase.fetched ∧
        pkOpcode k.packet = 50 ∧
          s.checks k = none ∧
            bitAt k.packet 160 = false ∧ List.find? (fun x => x.holdsTag (pkCtx k.packet) (rfld k.packet 16 0 32)) s.cp.cmds = none) ∧
    (∃ (h : PlanId) (s : State) (p : Plan) (b : DWord),
      s.findPlan h = some p ∧ p.run = PlanRun.stopping ∧ p.stopAt = some b ∧ BitVec.toNat b + BitVec.toNat p.waitMax ≤ BitVec.toNat s.glb.beatCnt) ∧
    (∃ (h : PlanId) (s : State) (p : Plan),
      s.findPlan h = some p ∧ (p.run ≠ PlanRun.stopping ∨ p.stopAt = none)) ∧
    (∃ (h : PlanId) (s : State) (p : Plan) (b : DWord),
      s.findPlan h = some p ∧ p.stopAt = some b ∧ BitVec.toNat s.glb.beatCnt < BitVec.toNat b + BitVec.toNat p.waitMax) :=
  ⟨⟨7, wcm 64 [(672, 128)], { wcs (wcm 64 [(672, 128)]) with cp := { (wcs (wcm 64 [(672, 128)])).cp with streams := Vector.replicate 32 { st := .armed } } }, by decide +kernel⟩,
   ⟨7, wcm 64 [], wcs (wcm 64 []), 0, _, 0, by decide +kernel, by decide +kernel, by decide +kernel, by decide +kernel, by decide +kernel, by decide +kernel, rfl, by decide +kernel⟩,
   ⟨7, wcm 64 [(672, 31), (128, 0x1023)], { wcs (wcm 64 [(672, 31), (128, 0x1023)]) with cp := { (wcs (wcm 64 [(672, 31), (128, 0x1023)])).cp with streams := vmod ws.cp.streams 31 (fun t => { t with st := .active, shadow := some 0 }) } }, 31, _, by decide +kernel, by decide +kernel, by decide +kernel, by decide +kernel, by decide +kernel, by decide +kernel, rfl, by decide +kernel, by decide +kernel, by decide +kernel⟩,
   ⟨7, wcm 64 [(672, 31), (128, 0x1023)], wcs (wcm 64 [(672, 31), (128, 0x1023)]), 31, _, by decide +kernel, by decide +kernel, by decide +kernel, by decide +kernel, by decide +kernel, by decide +kernel, rfl, by decide +kernel, by decide +kernel⟩,
   ⟨7, { wcf 50 [] with packet := 50 }, wcs { wcf 50 [] with packet := 50 }, 0x10, 0, by decide +kernel⟩,
   ⟨7, wab, { wcs wab with cp := { (wcs wab).cp with cmds := [wab, wtgt] } }, wtgt, by decide +kernel⟩,
   ⟨7, wab, wcs wab, by decide +kernel⟩,
   ⟨1, { ws with plans := [{ wpl with run := .stopping, stopAt := some 0 }] }, { wpl with run := .stopping, stopAt := some 0 }, 0, by decide +kernel⟩,
   ⟨1, wrun ws, wpl, by decide +kernel⟩,
   ⟨1, { ws with plans := [{ wpl with run := .stopping, stopAt := some 1 }] }, { wpl with run := .stopping, stopAt := some 1 }, 1, by decide +kernel⟩⟩

/-- The hypotheses of KeyRouteAndBeatCommands can be met, clause by clause. -/
theorem witness_KeyRouteAndBeatCommands :
    (∃ (cmd : ℕ) (k : Cmd) (s : State),
      s.findCmd cmd = some k ∧ k.phase = CmdPhase.started ∧ k.begun = false ∧ pkOpcode k.packet = 97 ∧ s.ctxConf (pkCtx k.packet) = false) ∧
    (∃ (cmd : ℕ) (k : Cmd) (s : State) (b : List Byte) (o : ℕ),
      s.findCmd cmd = some k ∧
      k.phase = CmdPhase.started ∧
        k.begun = false ∧
          pkOpcode k.packet = 97 ∧ s.ctxConf (pkCtx k.packet) = true ∧ b.length = 228 ∧ firstBad (keyChecks s k.packet b) = some o) ∧
    (∃ (cmd : ℕ) (k : Cmd) (s : State) (b : List Byte),
      s.findCmd cmd = some k ∧
      k.phase = CmdPhase.started ∧
        k.begun = false ∧
          pkOpcode k.packet = 97 ∧ s.ctxConf (pkCtx k.packet) = true ∧ b.length = 228 ∧ ∀ x ∈ keyChecks s k.packet b, x.2 ≠ 212 → x.1 = false) ∧
    (∃ (cmd : ℕ) (k : Cmd) (s : State) (es : List DWord),
      s.findCmd cmd = some k ∧ k.phase = CmdPhase.started ∧ k.begun = false ∧ pkOpcode k.packet = 113 ∧ es.length = rnum k.packet 18 0 11) ∧
    (∃ (cmd : ℕ) (k : Cmd) (s : State),
      s.findCmd cmd = some k ∧ k.phase = CmdPhase.started ∧ k.begun = false ∧ pkOpcode k.packet = 114 ∧ s.glb.isSource = false) ∧
    (∃ (cmd : ℕ) (k : Cmd) (s : State),
      s.findCmd cmd = some k ∧
      k.phase = CmdPhase.started ∧
        k.begun = false ∧ pkOpcode k.packet = 114 ∧ s.glb.isSource = true ∧ rfld k.packet 16 0 16 ≠ 0 ∧ (rfld k.packet 16 0 16).toNat < 64) ∧
    (∃ (cmd : ℕ) (k : Cmd) (s : State),
      s.findCmd cmd = some k ∧
      k.phase = CmdPhase.started ∧
        k.begun = false ∧
          pkOpcode k.packet = 114 ∧
            s.glb.isSource = true ∧ rfld k.packet 16 0 16 = 0 ∧ (rfld k.packet 24 0 64).toNat ≤ BitVec.toNat s.glb.fixedBeat) ∧
    (∃ (cmd : ℕ) (k : Cmd) (s : State),
      s.findCmd cmd = some k ∧
      k.phase = CmdPhase.started ∧
        k.begun = false ∧
          pkOpcode k.packet = 114 ∧
            s.glb.isSource = true ∧
              (rfld k.packet 16 0 16 = 0 ∨ 64 ≤ (rfld k.packet 16 0 16).toNat ∧ s.fab.delay.toNat < (rfld k.packet 16 0 16).toNat) ∧
                BitVec.toNat s.glb.fixedBeat < (rfld k.packet 24 0 64).toNat) ∧
    (∃ (cmd : ℕ) (k : Cmd) (s : State) (p : BitVec 1920) (q : Fin 12) (p1 : BitVec 1920),
      s.findCmd cmd = some k ∧
      k.phase = CmdPhase.started ∧
        k.begun = false ∧
          pkOpcode k.packet = 112 ∧ p = putFld (at_ 1920 0 (rfld k.packet 16 0 384)) 256 s.glb.beatCnt ∧ s.probeStep p = ProbeStep.forward q p1) :=
  ⟨⟨7, wcm 97 [], wcs (wcm 97 []), by decide +kernel⟩,
   ⟨7, wkey, wcs wkey, List.replicate 228 0, 0, by decide +kernel⟩,
   ⟨7, wkey, wkeys, wkeyb, by decide +kernel, by decide +kernel, by decide +kernel, by decide +kernel, by decide +kernel, by decide +kernel, wkey_good⟩,
   ⟨7, wcm 113 [(144, 2)], wcs (wcm 113 [(144, 2)]), [0, 0], by decide +kernel⟩,
   ⟨7, wcm 114 [], { wcs (wcm 114 []) with glb := { ws.glb with isSource := false } }, by decide +kernel⟩,
   ⟨7, wcm 114 [(128, 63)], wcs (wcm 114 [(128, 63)]), by decide +kernel⟩,
   ⟨7, wcm 114 [], wcs (wcm 114 []), by decide +kernel⟩,
   ⟨7, wcm 114 [(192, 0xFFFFFFFFFFFFFFFF)], wcs (wcm 114 [(192, 0xFFFFFFFFFFFFFFFF)]), by decide +kernel⟩,
   ⟨7, wdis, wdiss, wdisp, 0, putFld wdisp 8 (1 : BitVec 4), by decide +kernel⟩⟩

/-- The hypotheses of HostAccesses can be met, clause by clause. -/
theorem witness_HostAccesses :
    (∃ (len : ℕ),
      ¬(0 < len ∧ len ≤ 4096)) ∧
    (∃ (off : Word) (len : ℕ) (s : State) (c : ℕ) (v : BitVec 21),
      0 < len ∧ len ≤ 4096 ∧ firstFault (s.bar4Parts off len false) = some (c, v)) ∧
    (∃ (off : Word) (len : ℕ) (s : State),
      0 < len ∧ len ≤ 4096 ∧ firstFault (s.bar4Parts off len false) = none ∧ hostLen (s.bar4Parts off len false) = 0) ∧
    (∃ (off : Word) (len : ℕ) (s : State) (b : List Byte),
      0 < len ∧
      len ≤ 4096 ∧
        firstFault (s.bar4Parts off len false) = none ∧ hostLen (s.bar4Parts off len false) ≠ 0 ∧ b.length = hostLen (s.bar4Parts off len false)) ∧
    (∃ (off : Word) (len : ℕ) (s : State),
      0 < len ∧ len ≤ 4096 ∧ firstFault (s.bar4Parts off len false) = none ∧ hostLen (s.bar4Parts off len false) ≠ 0) ∧
    (∃ (len : ℕ) (s : State),
      0 < len ∧ len ≤ 4096 ∧ s.cp.bar4En = false) ∧
    (∃ (off : Word) (b : List Byte) (s : State) (a : ℕ) (e : DWord),
      0 < b.length ∧
      b.length ≤ 4096 ∧
        s.cp.bar4En = true ∧
          s.ctxConf s.cp.bar4Ctx = false ∧
            a = BitVec.toNat s.cp.bar4Base * 2 ^ 32 + BitVec.toNat off ∧
              a % 524288 + b.length ≤ 524288 ∧
                e = tget 0 s.spt (a / 524288) ∧ bitAt e 0 = true ∧ spCtx e = s.cp.bar4Ctx ∧ nfld e 4 2 = 1 ∧ bitAt e 1 = true) ∧
    (∃ (off : Word) (b : List Byte) (s : State) (a : ℕ) (e : DWord),
      0 < b.length ∧
      b.length ≤ 4096 ∧
        s.cp.bar4En = true ∧
          s.ctxConf s.cp.bar4Ctx = false ∧
            a = BitVec.toNat s.cp.bar4Base * 2 ^ 32 + BitVec.toNat off ∧
              a % 524288 + b.length ≤ 524288 ∧
                e = tget 0 s.spt (a / 524288) ∧ bitAt e 0 = true ∧ spCtx e = s.cp.bar4Ctx ∧ nfld e 4 2 = 1 ∧ bitAt e 2 = true) ∧
    (∃ (bytes : List Byte),
      ¬(0 < bytes.length ∧ bytes.length ≤ 4096)) ∧
    (∃ (off : Word) (bytes : List Byte) (s : State) (c : ℕ) (v : BitVec 21),
      0 < bytes.length ∧ bytes.length ≤ 4096 ∧ firstFault (s.bar4Parts off bytes.length true) = some (c, v)) ∧
    (∃ (off : Word) (bytes : List Byte) (fails : List BlockFail) (s : State) (u : State),
      0 < bytes.length ∧
      bytes.length ≤ 4096 ∧
        firstFault (s.bar4Parts off bytes.length true) = none ∧ s.bar4Put fails (s.bar4Parts off bytes.length true) bytes = (u, true)) ∧
    (∃ (s : State),
      s.cp.bar4Fail = true) ∧
    (∃ (s : State),
      s.cp.bar4Fail = false) ∧
    (∃ (r : SlotRef) (s : State) (v : BitVec 21),
      s.demandOk (s.stm r) = true ∧ s.hostRead r = some v) ∧
    (∃ (i : Fin 32) (s : State),
      s.cp.streams[i].st = StmState.active ∧ s.cp.streams[i].plan = none ∧ dSrcKind s.cp.streams[i].desc = 3) ∧
    (∃ (o : List Byte),
      262144 < o.length) ∧
    (∃ (o : List Byte),
      o.length ≤ 262144) ∧
    (∃ (a : Word) (z : AccessSize) (s : State),
      s.hostMay a z = false) ∧
    (∃ (s : State),
      s.portUp = false) ∧
    (∃ (a : Word) (z : AccessSize) (s : State),
      s.portUp = true ∧ s.hostMay a z = false) ∧
    (∃ (a : Word) (z : AccessSize) (s : State),
      s.hostMay a z = true ∧ fanAddr (BitVec.toNat a) = false) ∧
    (∃ (a : Word) (z : AccessSize) (s : State),
      s.hostMay a z = true ∧ fanAddr (BitVec.toNat a) = true) ∧
    (∃ (a : Word) (z : AccessSize) (s : State) (n : ℕ),
      s.hostMay a z = true ∧ (n = if z = AccessSize.b64 then 2 else 1) ∧ s.byPacket (BitVec.toNat a) = true) ∧
    (∃ (a : Word) (z : AccessSize) (s : State) (n : ℕ),
      s.hostMay a z = true ∧
      (n = if z = AccessSize.b64 then 2 else 1) ∧ s.byPacket (BitVec.toNat a) = false ∧ s.mustWait pcieNode (s.addrNode (BitVec.toNat a)) = true) ∧
    (∃ (a : Word) (z : AccessSize) (s : State) (n : ℕ),
      s.hostMay a z = true ∧
      (n = if z = AccessSize.b64 then 2 else 1) ∧
        s.byPacket (BitVec.toNat a) = false ∧ s.mustWait pcieNode (s.addrNode (BitVec.toNat a)) = false ∧ fanAddr (BitVec.toNat a) = false) ∧
    (∃ (a : Word) (z : AccessSize) (s : State) (n : ℕ),
      s.hostMay a z = true ∧
      (n = if z = AccessSize.b64 then 2 else 1) ∧
        s.byPacket (BitVec.toNat a) = false ∧
          s.mustWait pcieNode (s.addrNode (BitVec.toNat a)) = false ∧
            fanAddr (BitVec.toNat a) = false ∧ s.readHeld (s.addrNode (BitVec.toNat a)) = true) ∧
    (∃ (a : Word) (z : AccessSize) (s : State) (n : ℕ),
      s.hostMay a z = true ∧
      (n = if z = AccessSize.b64 then 2 else 1) ∧
        s.byPacket (BitVec.toNat a) = false ∧
          s.mustWait pcieNode (s.addrNode (BitVec.toNat a)) = false ∧
            fanAddr (BitVec.toNat a) = false ∧ s.readHeld (s.addrNode (BitVec.toNat a)) = false) ∧
    (∃ (a : Word) (z : AccessSize) (s : State) (n : ℕ),
      s.hostMay a z = true ∧
      (n = if z = AccessSize.b64 then 2 else 1) ∧
        s.byPacket (BitVec.toNat a) = false ∧
          s.mustWait pcieNode (s.addrNode (BitVec.toNat a)) = false ∧ fanAddr (BitVec.toNat a) = true ∧ s.fan.isSome = true) ∧
    (∃ (a : Word) (z : AccessSize) (s : State) (n : ℕ),
      s.hostMay a z = true ∧
      (n = if z = AccessSize.b64 then 2 else 1) ∧
        s.byPacket (BitVec.toNat a) = false ∧
          s.mustWait pcieNode (s.addrNode (BitVec.toNat a)) = false ∧ fanAddr (BitVec.toNat a) = true ∧ s.fan = none) ∧
    (∃ (s : State),
      s.hostUp = true ∧ s.sec.lifecycle ≠ 4 ∧ s.byPacket 64 = false ∧ s.mustWait pcieNode (s.addrNode 64) = false) ∧
    (∃ (a : Word) (s : State),
      s.hostMay a AccessSize.b32 = true ∧
      winOf (BitVec.toNat a) = none ∧ s.byPacket (BitVec.toNat a) = false ∧ s.mustWait pcieNode (s.addrNode (BitVec.toNat a)) = false) ∧
    (∃ (n : ℕ),
      n ≤ 4) ∧
    (∃ (n : ℕ) (st : ℕ),
      n ≤ 4 ∧ (st = 3 ∨ st = 4)) ∧
    (∃ (d : Data256) (s : State) (win : Win) (off : ℕ) (l : List Win),
      winOf (npAddr d) = some (win, off) ∧ s.members win = some l ∧ s.winOpen win off = true) ∧
    (∃ (lost : List Byte) (m : Win),
      lost.contains (BitVec.ofNat 8 m.index) = true) ∧
    (∃ (lost : List Byte) (s : State) (j : FanJob) (m : Win),
      lost.contains (BitVec.ofNat 8 m.index) = false ∧ userWin m (fanOffset j.data) = none ∧ s.foreign (hdSrc j.hdr) m.node = true) ∧
    (∃ (lost : List Byte) (s : State) (j : FanJob) (m : Win),
      lost.contains (BitVec.ofNat 8 m.index) = false ∧
      userWin m (fanOffset j.data) = none ∧ s.foreign (hdSrc j.hdr) m.node = false ∧ j.reads = true) ∧
    (∃ (lost : List Byte) (s : State) (j : FanJob) (m : Win) (r : ℕ × State),
      lost.contains (BitVec.ofNat 8 m.index) = false ∧
      userWin m (fanOffset j.data) = none ∧
        s.foreign (hdSrc j.hdr) m.node = false ∧ j.reads = false ∧ r = s.winWrite (whoOf (hdSrc j.hdr)) m (fanOffset j.data) (npWords j.data)) ∧
    (∃ (lost : List Byte) (s : State) (j : FanJob) (m : Win) (r : Fin 16),
      lost.contains (BitVec.ofNat 8 m.index) = false ∧ userWin m (fanOffset j.data) = some r ∧ s.gatewayRefuses r j.hdr = none) ∧
    (∃ (j : FanJob),
      j.waiting ≠ []) ∧
    (∃ (j : FanJob),
      j.waiting = [] ∧ j.host = true) ∧
    (∃ (j : FanJob),
      j.waiting = [] ∧ j.host = false) ∧
    (∃ (s : State) (j : FanJob),
      s.fan = some j ∧ j.since + s.noc[0].timeout.toNat / 2 ≤ s.now) ∧
    (∃ (s : State) (j : FanJob),
      s.fan = some j ∧ s.now < j.since + s.noc[0].timeout.toNat / 2) ∧
    (∃ (a : Word) (lost : List Byte) (isRead : Bool) (z : AccessSize) (v : DWord) (s : State) (d : Data256),
      s.fan = none ∧
      s.hostMay a z = true ∧
        s.byPacket (BitVec.toNat a) = false ∧
          s.mustWait pcieNode (s.addrNode (BitVec.toNat a)) = false ∧
            d = reqData (BitVec.toNat a) (if z = AccessSize.b64 then 2 else 1) (if isRead = true then 0 else BitVec.setWidth 128 v) ∧
              s.fanMeets lost d = true) ∧
    (∃ (j : FanJob) (m : BitVec 9) (rest : List (BitVec 9)),
      j.waiting = m :: rest ∧ j.host = true ∧ j.reads = true ∧ j.status ≤ 1) :=
  ⟨⟨4097, by decide +kernel⟩,
   ⟨0, 4096, ws, 5, 0, by decide +kernel⟩,
   ⟨0, 4096, wbar [(0, 3)], by decide +kernel⟩,
   ⟨0, 64, wbar [(0, 0x13)], List.replicate 64 0, by decide +kernel⟩,
   ⟨0, 1, wbar [(0, 0x13)], by decide +kernel⟩,
   ⟨4096, ws, by decide +kernel⟩,
   ⟨0, [0], wbar [(0, 0x13)], _, _, by decide +kernel, by decide +kernel, by decide +kernel, by decide +kernel, rfl, by decide +kernel, rfl, by decide +kernel⟩,
   ⟨0, [0], wbar [(0, 0x15)], _, _, by decide +kernel, by decide +kernel, by decide +kernel, by decide +kernel, rfl, by decide +kernel, rfl, by decide +kernel⟩,
   ⟨[], by decide +kernel⟩,
   ⟨0, [0], ws, 5, 0, by decide +kernel⟩,
   ⟨0, [0], [], wbar [(0, 0x15)], _, by decide +kernel, by decide +kernel, by decide +kernel, rfl⟩,
   ⟨{ ws with cp := { ws.cp with bar4Fail := true } }, by decide +kernel⟩,
   ⟨ws, by decide +kernel⟩,
   ⟨.cal 3 0, wst { st := .armed, desc := 3 } id, 0, by decide +kernel⟩,
   ⟨31, { ws with cp := { ws.cp with streams := vmod ws.cp.streams 31 (fun t => { t with st := .active, desc := 3 }) } }, by decide +kernel⟩,
   ⟨List.replicate 262145 0, by rw [List.length_replicate]; decide⟩,
   ⟨[], by decide +kernel⟩,
   ⟨4, .b64, wr, by decide +kernel⟩,
   ⟨ws, by decide +kernel⟩,
   ⟨0, .b16, wr, by decide +kernel⟩,
   ⟨0x500000, .b32, wr, by decide +kernel⟩,
   ⟨0x2000000, .b64, wr, by decide +kernel⟩,
   ⟨0xC0C000, .b64, wr, 2, by decide +kernel⟩,
   ⟨0x40, .b32, { wr with ifaces := [(pcieNode.toNat, { out := List.replicate 8 wnq })] }, 1, by decide +kernel⟩,
   ⟨0x40, .b64, wr, 2, by decide +kernel⟩,
   ⟨0x1000000, .b32, { wr with fan := some { wfanj with hdr := mkHeader glbNode pcieNode 1 0, waiting := [] } }, 1, by decide +kernel⟩,
   ⟨0x40, .b32, wr, 1, by decide +kernel⟩,
   ⟨0x2000000, .b32, { wr with fan := some wfanj }, 1, by decide +kernel⟩,
   ⟨0x2000000, .b32, wr, 1, by decide +kernel⟩,
   ⟨wr, by decide +kernel⟩,
   ⟨0x500000, wr, by decide +kernel⟩,
   ⟨4, by decide +kernel⟩,
   ⟨4, 3, by decide +kernel⟩,
   ⟨0x2000000, wr, _, _, _, rfl, rfl, by decide +kernel⟩,
   ⟨[3], .cal 3, by decide +kernel⟩,
   ⟨[], wforeign, { wfanj with hdr := mkHeader glbNode (calNode 3) 0 0, data := 0xD00000 }, .plr 0, by decide +kernel⟩,
   ⟨[3], wr, wfanj, .cal 4, by decide +kernel⟩,
   ⟨[3], wr, { wfanj with hdr := mkHeader glbNode pcieNode 1 0 }, .cal 4, _, by decide +kernel, by decide +kernel, by decide +kernel, by decide +kernel, rfl⟩,
   ⟨[3], wrx 2 0, { wfanj with data := 0xD0C000 }, .plr 15, 15, by decide +kernel⟩,
   ⟨wfanj, by decide +kernel⟩,
   ⟨{ wfanj with waiting := [] }, by decide +kernel⟩,
   ⟨{ wfanj with waiting := [], host := false }, by decide +kernel⟩,
   ⟨{ wr with fan := some wfanj, now := 5000 }, wfanj, by decide +kernel⟩,
   ⟨{ wr with fan := some wfanj, now := 4999 }, wfanj, by decide +kernel⟩,
   ⟨0x2000000, [3], true, .b32, 0, wr, _, by decide +kernel, by decide +kernel, by decide +kernel, by decide +kernel, rfl, by decide +kernel⟩,
   ⟨wfanj, calNode 0, [], by decide +kernel⟩⟩

set_option maxRecDepth 100000 in
/-- The hypotheses of FrameCheckCorrectsSingleErrors can be met, clause by clause. -/
theorem witness_FrameCheckCorrectsSingleErrors :
    (∃ (i : ℕ),
      i < 13) ∧
    (∃ (d : BitVec 4096) (c : BitVec 14) (s : ℕ) (p : Bool),
      s = (BitVec.setWidth 13 (cfgFrameCheck d) ^^^ BitVec.setWidth 13 c).toNat ∧
      p = (List.foldl (fun b j => b != d.getLsbD j) false (List.range 4096) != List.foldl (fun b i => b != c.getLsbD i) false (List.range 14)) ∧
        s = 0 ∧ p = false) ∧
    (∃ (d : BitVec 4096) (c : BitVec 14) (s : ℕ) (p : Bool),
      s = (BitVec.setWidth 13 (cfgFrameCheck d) ^^^ BitVec.setWidth 13 c).toNat ∧
      p = (List.foldl (fun b j => b != d.getLsbD j) false (List.range 4096) != List.foldl (fun b i => b != c.getLsbD i) false (List.range 14)) ∧
        p = true ∧ s ≤ 4109) ∧
    (∃ (d : BitVec 4096) (c : BitVec 14) (s : ℕ) (p : Bool),
      s = (BitVec.setWidth 13 (cfgFrameCheck d) ^^^ BitVec.setWidth 13 c).toNat ∧
      p = (List.foldl (fun b j => b != d.getLsbD j) false (List.range 4096) != List.foldl (fun b i => b != c.getLsbD i) false (List.range 14)) ∧
        (s ≠ 0 ∧ p = false ∨ 4109 < s)) ∧
    (∃ (d : BitVec 4096) (p : ℕ) (d' : BitVec 4096) (c' : BitVec 14),
      p < 4110 ∧ flipPos (d, cfgFrameCheck d) p = (d', c')) :=
  ⟨⟨12, by decide +kernel⟩,
   ⟨0, 0, 0, false, by rw [wfc]; decide, by rw [wfold]; decide, rfl, rfl⟩,
   ⟨0, 1, 1, true, by rw [wfc]; decide, by rw [wfold]; decide, rfl, by decide⟩,
   ⟨0, 3, 3, false, by rw [wfc]; decide, by rw [wfold]; decide, by decide⟩,
   ⟨0, 4109, _, _, by decide +kernel, rfl⟩⟩

set_option maxRecDepth 100000 in
/-- The hypotheses of FramesAndFumarole can be met, clause by clause. -/
theorem witness_FramesAndFumarole :
    (∃ (far : Word),
      farValid far = false) ∧
    (∃ (far : Word),
      farValid far = true) ∧
    (∃ (far : Word) (s : State),
      s.cfg.scrubEn = true ∧ s.swept far = true ∧ frameTest (s.cfg.frame far) (s.cfg.check far) = (0, 0)) ∧
    (∃ (far : Word) (s : State),
      s.cfg.scrubEn = true ∧ s.swept far = true ∧ s.cfg.check far = cfgFrameCheck (s.cfg.frame far)) ∧
    (∃ (far : Word) (s : State) (fl : List (Fin 4110)) (x : BitVec 4096 × BitVec 14) (k : ℕ),
      s.cfg.scrubEn = true ∧
      s.swept far = true ∧ List.foldl (fun x p => flipPos x ↑p) (s.cfg.frame far, s.cfg.check far) fl = x ∧ frameTest x.1 x.2 = (2, k)) ∧
    (∃ (s : State),
      s.cfg.scrubEn = false) ∧
    (∃ (far : Word) (s : State),
      s.swept far = false) ∧
    (∃ (far : Word) (s : State),
      tfind s.cfg.refStore (BitVec.toNat far) = none) ∧
    (∃ (far : Word) (fl : List (Fin 4110)) (s : State) (d : BitVec 4096) (x : BitVec 4096 × BitVec 14) (k : ℕ),
      s.cfg.scrubEn = true ∧
      tfind s.cfg.refStore (BitVec.toNat far) = some d ∧
        List.foldl (fun x p => flipPos x ↑p) (d, tget 0 s.cfg.refChecks (BitVec.toNat far)) fl = x ∧ frameTest x.1 x.2 = (2, k)) ∧
    (∃ (s : State),
      s.cfg.scrubEn = true ∧ ∀ i ∈ s.sweepItems, i ∈ s.cfg.covered) ∧
    (∃ (s : State),
      s.cfg.scrubEn = false ∨ ∃ i ∈ s.sweepItems, i ∉ s.cfg.covered) ∧
    (∃ (b : HardRef) (g : BitVec 384) (s : State),
      tfind s.cfg.golden (hardKey b) = some g ∧ s.cfg.scrubEn = false) ∧
    (∃ (b : HardRef) (g : BitVec 384) (fl : List ℕ) (s : State) (s1 : State),
      tfind s.cfg.golden (hardKey b) = some g ∧
      s.cfg.scrubEn = true ∧ s1 = (List.foldl (fun s i => s.upset b i) s fl).cover (2 ^ 34 + hardKey b) ∧ sha384 (s1.blockBytes b) = g) ∧
    (∃ (b : HardRef) (g : BitVec 384) (fl : List ℕ) (s : State) (s1 : State),
      tfind s.cfg.golden (hardKey b) = some g ∧
      s.cfg.scrubEn = true ∧
        s1 = (List.foldl (fun s i => s.upset b i) s fl).cover (2 ^ 34 + hardKey b) ∧
          sha384 (s1.blockBytes b) ≠ g ∧ ∃ x ∈ s1.cfg.refFrames b, BitVec.ofNat 32 x.1 ∈ s1.cfg.refBad) ∧
    (∃ (b : HardRef) (g : BitVec 384) (fl : List ℕ) (s : State) (s1 : State),
      tfind s.cfg.golden (hardKey b) = some g ∧
      s.cfg.scrubEn = true ∧
        s1 = (List.foldl (fun s i => s.upset b i) s fl).cover (2 ^ 34 + hardKey b) ∧
          sha384 (s1.blockBytes b) ≠ g ∧ ∀ x ∈ s1.cfg.refFrames b, BitVec.ofNat 32 x.1 ∉ s1.cfg.refBad) :=
  ⟨⟨0x265F0000, by decide +kernel⟩,
   ⟨0x005F2500, by decide +kernel⟩,
   ⟨0x80000000, ws, by decide +kernel, by rw [show ws.cfg.frame 0x80000000 = 0 by decide +kernel, show ws.cfg.check 0x80000000 = 0 by decide +kernel]; simp only [frameTest, wham, wpar]; decide⟩,
   ⟨0x80000000, ws, by decide +kernel, by rw [show ws.cfg.frame 0x80000000 = 0 by decide +kernel, wfc]; decide +kernel⟩,
   ⟨0x80000000, ws, [1, 2], (0, 3), 3, by decide +kernel, by decide +kernel, by simp only [frameTest, wham, wpar]; decide⟩,
   ⟨{ ws with cfg := { ws.cfg with scrubEn := false } }, by decide +kernel⟩,
   ⟨0, ws, by decide +kernel⟩,
   ⟨0, ws, by decide +kernel⟩,
   ⟨5, [1, 2], { ws with cfg := { ws.cfg with refStore := [(5, 0)] } }, 0, (0, 3), 3, by decide +kernel, by decide +kernel, by decide +kernel, by simp only [frameTest, wham, wpar]; decide⟩,
   ⟨{ ws with cfg := { ws.cfg with covered := ws.sweepItems } }, rfl, by rw [wsweep]; exact fun _ h => h⟩,
   ⟨{ ws with cfg := { ws.cfg with scrubEn := false } }, Or.inl rfl⟩,
   ⟨.microcode 63, 5, { ws with cfg := { ws.cfg with golden := [(63, 5)], scrubEn := false } }, by decide +kernel⟩,
   ⟨.microcode 63, sha384 (ws.blockBytes (.microcode 63)), [], { ws with cfg := { ws.cfg with golden := [(63, sha384 (ws.blockBytes (.microcode 63)))] } }, _, rfl, rfl, rfl, rfl⟩,
   ⟨.microcode 63, ~~~ sha384 (ws.blockBytes (.microcode 63)), [], { ws with cfg := { ws.cfg with golden := [(63, ~~~ sha384 (ws.blockBytes (.microcode 63)))], refStore := [(refBase (.microcode 63), 0)], refBad := [BitVec.ofNat 32 (refBase (.microcode 63))] } }, _, rfl, rfl, rfl, fun h => wneg _ h, by decide +kernel⟩,
   ⟨.microcode 63, ~~~ sha384 (ws.blockBytes (.microcode 63)), [], { ws with cfg := { ws.cfg with golden := [(63, ~~~ sha384 (ws.blockBytes (.microcode 63)))] } }, _, rfl, rfl, rfl, fun h => wneg _ h, fun _ _ => List.not_mem_nil⟩⟩

/-- The hypotheses of LogicLoads can be met, clause by clause. -/
theorem witness_LogicLoads :
    (∃ (cmd : ℕ) (k : Cmd) (s : State),
      s.findCmd cmd = some k ∧ k.phase = CmdPhase.started ∧ k.begun = false ∧ pkOpcode k.packet = 80 ∧ s.cfg.streaming = true) ∧
    (∃ (cmd : ℕ) (k : Cmd) (s : State),
      s.findCmd cmd = some k ∧ k.phase = CmdPhase.started ∧ k.begun = false ∧ pkOpcode k.packet = 80 ∧ s.cfg.streaming = false ∧ s.plans ≠ []) ∧
    (∃ (cmd : ℕ) (k : Cmd) (s : State) (x : State × Load),
      s.findCmd cmd = some k ∧
      k.phase = CmdPhase.started ∧
        k.begun = false ∧ pkOpcode k.packet = 80 ∧ s.cfg.streaming = false ∧ s.plans = [] ∧ (s.begin k.serial).cmdLoad k true = x) ∧
    (∃ (cmd : ℕ) (k : Cmd) (s : State),
      s.findCmd cmd = some k ∧ k.phase = CmdPhase.started ∧ k.begun = false ∧ pkOpcode k.packet = 81 ∧ s.cfg.streaming = true) ∧
    (∃ (cmd : ℕ) (k : Cmd) (s : State),
      s.findCmd cmd = some k ∧ k.phase = CmdPhase.started ∧ k.begun = false) ∧
    (∃ (cmd : ℕ) (k : Cmd) (s : State) (r : Fin 16),
      s.findCmd cmd = some k ∧
      k.phase = CmdPhase.started ∧
        k.begun = false ∧
          pkOpcode k.packet = 81 ∧
            s.cfg.streaming = false ∧
              ↑r = rnum k.packet 16 0 4 ∧ ((s.ctxPart (pkCtx k.packet)).regions.getLsbD ↑r = false ∨ s.regionInPlan r = true)) ∧
    (∃ (cmd : ℕ) (k : Cmd) (s : State) (r : Fin 16) (x : State × Load),
      s.findCmd cmd = some k ∧
      k.phase = CmdPhase.started ∧
        k.begun = false ∧
          pkOpcode k.packet = 81 ∧
            s.cfg.streaming = false ∧
              ↑r = rnum k.packet 16 0 4 ∧
                (s.ctxPart (pkCtx k.packet)).regions.getLsbD ↑r = true ∧ s.regionInPlan r = false ∧ (s.begin k.serial).cmdLoad k false = x) ∧
    (∃ (l : Load),
      l.forward = false) ∧
    (∃ (l : Load) (b : List Byte) (s : State),
      s.cfg.load = some l ∧ l.source = 0 ∧ l.outcome = none ∧ l.forward = false ∧ l.seen < l.frames ∧ b.length < 520) ∧
    (∃ (l : Load) (b : List Byte) (s : State),
      s.cfg.load = some l ∧ l.source = 0 ∧ l.outcome = none ∧ l.forward = false ∧ l.seen < l.frames ∧ b.length = 520) ∧
    (∃ (l : Load) (b : List Byte) (s : State),
      s.cfg.load = some l ∧ l.source = 0 ∧ l.outcome = none ∧ l.forward = false ∧ l.frames ≤ l.seen ∧ b.length = 32) ∧
    (∃ (l : Load) (s : State),
      s.cfg.load = some l ∧ l.source = 0 ∧ l.outcome = none ∧ l.forward = false ∧ l.seen < l.frames) ∧
    (∃ (l : Load) (b : List Byte),
      l.trailerOk b = false) ∧
    (∃ (l : Load) (b : List Byte),
      l.trailerOk b = true ∧ sha384 (l.body ++ b) ≠ l.digest) ∧
    (∃ (l : Load) (b : List Byte),
      l.trailerOk b = true ∧ sha384 (l.body ++ b) = l.digest) ∧
    (∃ (s : State),
      s.cfg.fwdOpen.isSome = true ∧ s.cfg.fwdTick + s.cfg.streamTo.toNat < s.now) ∧
    (∃ (s : State),
      s.cfg.fwdOpen.isSome = true ∧ s.now ≤ s.cfg.fwdTick + s.cfg.streamTo.toNat) ∧
    (∃ (p : Fin 12) (f : Data2048) (rest : List (Fin 12 × Data2048)) (s : State),
      s.fab.inbox = (p, f) :: rest ∧ isMgmt 3 f = true ∧ (s.cfg.cfgInValid = false ∨ s.cfg.cfgInPort.toNat ≠ ↑p ∨ s.cfg.cfgInId ≠ flSrc f)) ∧
    (∃ (p : Fin 12) (f : Data2048) (rest : List (Fin 12 × Data2048)) (s : State),
      s.fab.inbox = (p, f) :: rest ∧ isMgmt 3 f = true ∧ s.cfg.cfgInValid = true ∧ s.cfg.cfgInPort.toNat = ↑p ∧ s.cfg.cfgInId = flSrc f) ∧
    (∃ (p : Fin 12) (f : Data2048) (rest : List (Fin 12 × Data2048)) (s : State),
      s.fab.inbox = (p, f) :: rest ∧ isMgmt 3 f = true) :=
  ⟨⟨7, wcm 80 [], { wcs (wcm 80 []) with cfg := { ws.cfg with load := some wload } }, by decide +kernel⟩,
   ⟨7, wcm 80 [], wrun (wcs (wcm 80 [])), by decide +kernel, by decide +kernel, by decide +kernel, by decide +kernel, by decide +kernel, List.cons_ne_nil _ _⟩,
   ⟨7, wcm 80 [], wcs (wcm 80 []), _, by decide +kernel, by decide +kernel, by decide +kernel, by decide +kernel, by decide +kernel, by decide +kernel, rfl⟩,
   ⟨7, wlr, { wcs wlr with cfg := { ws.cfg with load := some wload } }, by decide +kernel⟩,
   ⟨7, wlr, wcs wlr, by decide +kernel⟩,
   ⟨7, wlr, wcs wlr, 15, by decide +kernel⟩,
   ⟨7, wlr, wlrs, 15, _, by decide +kernel, by decide +kernel, by decide +kernel, by decide +kernel, by decide +kernel, by decide +kernel, by decide +kernel, by decide +kernel, rfl⟩,
   ⟨wload, rfl⟩,
   ⟨wload, List.replicate 519 0, wlo wload, by decide +kernel⟩,
   ⟨wload, List.replicate 520 0, wlo wload, by decide +kernel⟩,
   ⟨{ wload with seen := 1 }, List.replicate 32 0, wlo { wload with seen := 1 }, by decide +kernel⟩,
   ⟨wload, wlo wload, by decide +kernel⟩,
   ⟨wload, [], by decide +kernel⟩,
   ⟨{ wload with digest := ~~~(sha384 ([] ++ wtr)) }, wtr, by decide +kernel, fun h => wneg _ h⟩,
   ⟨{ wload with digest := sha384 ([] ++ wtr) }, wtr, by decide +kernel, rfl⟩,
   ⟨{ ws with cfg := { ws.cfg with fwdOpen := some 0 }, now := 0x02625B }, by decide +kernel⟩,
   ⟨{ ws with cfg := { ws.cfg with fwdOpen := some 0 }, now := 0x02625A }, by decide +kernel⟩,
   ⟨0, wmg [(0, 3)], [], win (wmg [(0, 3)]), by decide +kernel⟩,
   ⟨0, wmg [(0, 3)], [], { win (wmg [(0, 3)]) with cfg := { ws.cfg with cfgInValid := true, cfgInId := flSrc (wmg [(0, 3)]) } }, by decide +kernel⟩,
   ⟨0, wmg [(0, 3)], [], win (wmg [(0, 3)]), by decide +kernel⟩⟩

/-- The hypotheses of GatewaysAndClocks can be met, clause by clause. -/
theorem witness_GatewaysAndClocks :
    (∃ (r : Fin 16) (e : Fin 16) (s : State),
      s.gwOpen r e = false) ∧
    (∃ (r : Fin 16) (e : Fin 16) (s : State) (w : GwEp) (x : CWord) (rest : List CWord),
      s.gwOpen r e = true ∧ s.regions[r].gw[e].absorb = w ∧ w.inBuf = x :: rest ∧ w.ep.dest = true) ∧
    (∃ (r : Fin 16) (e : Fin 16) (s : State) (w : GwEp),
      s.gwOpen r e = true ∧ s.regions[r].gw[e].absorb = w ∧ w.ep.source = true ∧ w.outBuf.length < 4) ∧
    (∃ (r : Fin 16) (h : Word) (d : Data256) (rest : List (Word × Data256)) (s : State) (st : ℕ),
      s.regions[r].rxq = (h, d) :: rest ∧ hdType h = 4 ∧ s.gatewayRefuses r h = some st) ∧
    (∃ (r : Fin 16) (h : Word) (d : Data256) (rest : List (Word × Data256)) (s : State),
      s.regions[r].rxq = (h, d) :: rest ∧ hdType h = 4 ∧ s.gatewayRefuses r h = none) ∧
    (∃ (r : Fin 16) (h : Word) (d : Data256) (rest : List (Word × Data256)) (s : State) (st : ℕ),
      s.regions[r].rxq = (h, d) :: rest ∧ hdType h < 2 ∧ (hdType h = 1 ∨ s.readHeld (regionNode ↑r) = false) ∧ s.gatewayRefuses r h = some st) ∧
    (∃ (r : Fin 16) (h : Word) (d : Data256) (rest : List (Word × Data256)) (s : State),
      s.regions[r].rxq = (h, d) :: rest ∧ hdType h < 2 ∧ (hdType h = 1 ∨ s.readHeld (regionNode ↑r) = false) ∧ s.gatewayRefuses r h = none) ∧
    (∃ (r : Fin 16) (h : Word) (s : State),
      s.foreign (hdSrc h) (regionNode ↑r) = true) ∧
    (∃ (r : Fin 16) (h : Word) (s : State),
      s.foreign (hdSrc h) (regionNode ↑r) = false ∧ s.regions[r].isolated = true) ∧
    (∃ (r : Fin 16) (h : Word) (s : State),
      s.foreign (hdSrc h) (regionNode ↑r) = false ∧ s.regions[r].isolated = false ∧ (2 ≤ hdType h ∨ s.nodeCtx (hdSrc h) = none)) ∧
    (∃ (r : Fin 16) (h : Word) (s : State) (c : Byte),
      s.foreign (hdSrc h) (regionNode ↑r) = false ∧
      s.regions[r].isolated = false ∧ hdType h < 2 ∧ s.nodeCtx (hdSrc h) = some c ∧ s.ctxConf c = true ∧ c ∉ s.regions[r].owners) ∧
    (∃ (h : Word) (d : Data256),
      2 ≤ hdType h ∨ fanAddr (npAddr d) = false) ∧
    (∃ (r : Fin 16) (s : State),
      s.regions[r].handed = []) ∧
    (∃ (r : Fin 16) (s : State) (h : Word) (d : Data256) (rest : List (Word × Data256)),
      s.regions[r].handed = (h, d) :: rest ∧ s.regions[r].isolated = true) ∧
    (∃ (r : Fin 16) (st : Byte) (s : State) (h : Word) (d : Data256) (rest : List (Word × Data256)),
      s.regions[r].handed = (h, d) :: rest ∧ s.regions[r].isolated = false ∧ (st = 0 ∨ st = 1 ∨ st = 3 ∨ st = 4 ∧ 2 ≤ hdType h)) ∧
    (∃ (r : Fin 16) (s : State),
      s.regions[r].resync = true) ∧
    (∃ (r : Fin 16) (s : State),
      s.regions[r].resync = false) ∧
    (∃ (k : Fin 8) (s : State),
      s.plls[k].div ≠ 0) ∧
    (∃ (k : Fin 8) (s : State),
      s.plls[k].div = 0) ∧
    (∃ (k : Fin 8) (s : State),
      s.plls[k].locked = false) ∧
    (∃ (k : Fin 8) (s : State),
      s.plls[k].locked = true ∧ s.plls[k].lockedOnce = true) :=
  ⟨⟨15, 15, ws, by decide +kernel⟩,
   ⟨15, 15, wgw { used := true, inBuf := [5], ep := { en := true } }, { used := true, inBuf := [5], ep := { en := true } }, 5, [], by decide +kernel⟩,
   ⟨15, 15, wgw { used := true, ep := { en := true, out := true } }, { used := true, ep := { en := true, out := true } }, by decide +kernel⟩,
   ⟨15, mkHeader 0 glbNode 4 0, 0, [], wrx 0 (mkHeader 0 glbNode 4 0), 3, by decide +kernel⟩,
   ⟨15, mkHeader 0 glbNode 4 0, 0, [], wrx 2 (mkHeader 0 glbNode 4 0), by decide +kernel⟩,
   ⟨15, mkHeader 0 glbNode 0 0, 0, [], wrx 0 (mkHeader 0 glbNode 0 0), 3, by decide +kernel⟩,
   ⟨15, mkHeader 0 glbNode 1 0, 0, [], wrx 2 (mkHeader 0 glbNode 1 0), by decide +kernel⟩,
   ⟨0, mkHeader (regionNode 0) (calNode 3) 4 0, wforeign, by decide +kernel⟩,
   ⟨15, mkHeader 0 glbNode 4 0, ws, by decide +kernel⟩,
   ⟨15, mkHeader 0 glbNode 0 0, wrx 2 0, by decide +kernel⟩,
   ⟨15, mkHeader (regionNode 15) (calNode 3) 1 0, { wrun (wrx 2 0) with sec := { ws.sec with ctxs := [(0, { part := 0, conf := true })] } }, 0, by decide +kernel⟩,
   ⟨mkHeader 0 glbNode 0 0, 0xC0C000, by decide +kernel⟩,
   ⟨15, ws, by decide +kernel⟩,
   ⟨15, { ws with regions := vmod ws.regions 15 (fun r => { r with handed := [(0, 0)] }) }, 0, 0, [], by decide +kernel⟩,
   ⟨15, 4, { ws with regions := vmod ws.regions 15 (fun r => { r with cfg := 2, handed := [(mkHeader 0 glbNode 4 0, 0)] }) }, mkHeader 0 glbNode 4 0, 0, [], by decide +kernel⟩,
   ⟨15, { ws with regions := vmod ws.regions 15 (fun r => { r with resync := true }) }, by decide +kernel⟩,
   ⟨15, ws, by decide +kernel⟩,
   ⟨7, { ws with plls := Vector.replicate 8 { cfg := 0x100 } }, by decide +kernel⟩,
   ⟨7, { ws with plls := Vector.replicate 8 {} }, by decide +kernel⟩,
   ⟨7, { ws with plls := Vector.replicate 8 {} }, by decide +kernel⟩,
   ⟨7, { ws with plls := Vector.replicate 8 { locked := true, lockedOnce := true } }, by decide +kernel⟩⟩

set_option maxRecDepth 100000 in
/-- The hypotheses of TelemetryCapSetupAndAttestation can be met, clause by clause. -/
theorem witness_TelemetryCapSetupAndAttestation :
    (∃ (cmd : ℕ) (k : Cmd) (s : State) (b : List Byte),
      s.findCmd cmd = some k ∧
      k.phase = CmdPhase.started ∧
        k.begun = false ∧
          pkOpcode k.packet = 144 ∧
            s.telemetryBody (rnum k.packet 16 0 16) s.draw.1 = some b ∧ 16 + b.length ≤ rnum k.packet 32 0 32 ∧ rnum k.packet 16 0 16 ≠ 6) ∧
    (∃ (cmd : ℕ) (k : Cmd) (s : State) (g : ℕ) (n : ℕ),
      s.findCmd cmd = some k ∧
      k.phase = CmdPhase.started ∧
        k.begun = false ∧
          pkOpcode k.packet = 144 ∧
            rnum k.packet 16 0 16 = g ∧ (g = 1 ∧ n = 80 ∨ g = 2 ∧ n = 1040 ∨ g = 3 ∧ n = 240) ∧ n ≤ rnum k.packet 32 0 32) ∧
    (∃ (cmd : ℕ) (k : Cmd) (s : State) (b : List Byte),
      s.findCmd cmd = some k ∧
      k.phase = CmdPhase.started ∧
        k.begun = false ∧
          pkOpcode k.packet = 144 ∧ s.telemetryBody (rnum k.packet 16 0 16) s.draw.1 = some b ∧ rnum k.packet 32 0 32 < 16 + b.length) ∧
    (∃ (cmd : ℕ) (k : Cmd) (s : State),
      s.findCmd cmd = some k ∧
      k.phase = CmdPhase.started ∧ k.begun = false ∧ pkOpcode k.packet = 144 ∧ s.telemetryBody (rnum k.packet 16 0 16) s.draw.1 = none) ∧
    (∃ (cmd : ℕ) (k : Cmd) (s : State),
      s.findCmd cmd = some k ∧ k.phase = CmdPhase.started ∧ k.begun = false ∧ pkOpcode k.packet = 160) ∧
    (∃ (cmd : ℕ) (k : Cmd) (s : State),
      s.findCmd cmd = some k ∧ k.phase = CmdPhase.started ∧ k.begun = false ∧ pkOpcode k.packet = 240 ∧ s.pwr.flash.op.isSome = true) ∧
    (∃ (cmd : ℕ) (k : Cmd) (s : State) (j : Cmd),
      s.findCmd cmd = some k ∧
      k.phase = CmdPhase.started ∧
        k.begun = false ∧ pkOpcode k.packet = 240 ∧ j ∈ s.cp.cmds ∧ j.phase = CmdPhase.started ∧ pkOpcode j.packet = 240 ∧ j.startNo < k.startNo) ∧
    (∃ (cmd : ℕ) (k : Cmd) (s : State) (img : BitVec 32768) (o : ℕ),
      s.findCmd cmd = some k ∧
      k.phase = CmdPhase.started ∧
        k.begun = false ∧
          pkOpcode k.packet = 240 ∧
            s.pwr.flash.op = none ∧
              (∀ j ∈ s.cp.cmds, j.phase = CmdPhase.started → pkOpcode j.packet = 240 → k.startNo ≤ j.startNo) ∧ firstBad (suChecks img) = some o) ∧
    (∃ (cmd : ℕ) (k : Cmd) (s : State) (img : BitVec 32768),
      s.findCmd cmd = some k ∧
      k.phase = CmdPhase.started ∧
        k.begun = false ∧
          pkOpcode k.packet = 240 ∧
            s.pwr.flash.op = none ∧
              (∀ j ∈ s.cp.cmds, j.phase = CmdPhase.started → pkOpcode j.packet = 240 → k.startNo ≤ j.startNo) ∧ firstBad (suChecks img) = none) ∧
    (∃ (cmd : ℕ) (k : Cmd) (s : State) (n : BitVec 256),
      s.findCmd cmd = some k ∧
      k.phase = CmdPhase.started ∧ k.begun = false ∧ pkOpcode k.packet = 96 ∧ rfld k.packet 16 0 256 = n ∧ s.sec.lifecycle = 3) ∧
    (∃ (cmd : ℕ) (k : Cmd) (s : State) (n : BitVec 256),
      s.findCmd cmd = some k ∧
      k.phase = CmdPhase.started ∧
        k.begun = false ∧ pkOpcode k.packet = 96 ∧ rfld k.packet 16 0 256 = n ∧ s.sec.lifecycle ≠ 3 ∧ rnum k.packet 56 0 32 < s.reportLen) ∧
    (∃ (cmd : ℕ) (k : Cmd) (s : State) (n : BitVec 256),
      s.findCmd cmd = some k ∧
      k.phase = CmdPhase.started ∧
        k.begun = false ∧ pkOpcode k.packet = 96 ∧ rfld k.packet 16 0 256 = n ∧ s.sec.lifecycle ≠ 3 ∧ s.reportLen ≤ rnum k.packet 56 0 32) ∧
    (∃ (cmd : ℕ) (k : Cmd) (t : ℕ) (s : State),
      s.findCmd cmd = some k ∧
      k.heldSince = some t ∧ k.phase = CmdPhase.fetched ∧ pkOpcode k.packet = 96 ∧ s.cp.fwOpen = true ∧ t + 312500000 ≤ s.now) ∧
    (∃ (cmd : ℕ) (k : Cmd) (t : ℕ) (s : State),
      s.findCmd cmd = some k ∧
      k.heldSince = some t ∧ k.phase = CmdPhase.fetched ∧ pkOpcode k.packet = 96 ∧ s.cp.fwOpen = true ∧ s.now < t + 312500000) :=
  ⟨⟨7, wcm 144 [(128, 3), (256, 0xFFFFFFFF)], wcs (wcm 144 [(128, 3), (256, 0xFFFFFFFF)]), ((wcs (wcm 144 [(128, 3), (256, 0xFFFFFFFF)])).telemetryBody 3 0).getD [], by decide +kernel⟩,
   ⟨7, wcm 144 [(128, 3), (256, 240)], wcs (wcm 144 [(128, 3), (256, 240)]), 3, 240, by decide +kernel⟩,
   ⟨7, wcm 144 [(128, 3)], wcs (wcm 144 [(128, 3)]), ((wcs (wcm 144 [(128, 3)])).telemetryBody 3 0).getD [], by decide +kernel⟩,
   ⟨7, wcm 144 [(128, 7)], wcs (wcm 144 [(128, 7)]), by decide +kernel⟩,
   ⟨7, wcm 160 [], wcs (wcm 160 []), by decide +kernel⟩,
   ⟨7, wcm 240 [], wfls (wcs (wcm 240 [])) (some (.eraseSlot 3)) none, by decide +kernel⟩,
   ⟨7, { wcm 240 [] with startNo := 2 }, { wcs (wcm 240 []) with cp := { (wcs (wcm 240 [])).cp with cmds := [{ wcm 240 [] with startNo := 2 }, { wcm 240 [] with serial := 9, startNo := 1 }] } }, { wcm 240 [] with serial := 9, startNo := 1 }, by decide +kernel⟩,
   ⟨7, wcm 240 [], wfls (wcs (wcm 240 [])) none none, 0, 0, by decide +kernel⟩,
   ⟨7, wcm 240 [], wfls (wcs (wcm 240 [])) none none, wset, by decide +kernel, by decide +kernel, by decide +kernel, by decide +kernel, by decide +kernel, by decide +kernel, wset_good⟩,
   ⟨7, wcm 96 [], { wcs (wcm 96 []) with sec := { wsec with lifecycle := 3 } }, 0, by decide +kernel⟩,
   ⟨7, wcm 96 [], wcs (wcm 96 []), 0, by decide +kernel, by decide +kernel, by decide +kernel, by decide +kernel, by decide +kernel, by decide +kernel, by rw [show rnum (wcm 96 []).packet 56 0 32 = 0 by decide +kernel]; unfold State.reportLen; omega⟩,
   ⟨7, wcm 96 [(448, 0x5E0)], { wcs (wcm 96 [(448, 0x5E0)]) with sec := { wsec with lifecycle := 1 } }, 0, by decide +kernel⟩,
   ⟨7, watt, 0, watts 312500000, by decide +kernel⟩,
   ⟨7, watt, 0, watts 312499999, by decide +kernel⟩⟩

/-- The hypotheses of FirmwareUpdates can be met, clause by clause. -/
theorem witness_FirmwareUpdates :
    (∃ (cmd : ℕ) (k : Cmd) (s : State),
      s.findCmd cmd = some k ∧ k.phase = CmdPhase.started ∧ k.begun = false ∧ pkOpcode k.packet = 128 ∧ s.cp.fwOpen = true) ∧
    (∃ (cmd : ℕ) (k : Cmd) (s : State),
      s.findCmd cmd = some k ∧
      k.phase = CmdPhase.started ∧
        k.begun = false ∧
          pkOpcode k.packet = 128 ∧
            s.cp.fwOpen = false ∧
              rnum k.packet 16 0 4 = 0 ∧ 672 ≤ rnum k.packet 20 0 32 ∧ rnum k.packet 20 0 32 ≤ 268435456 ∧ s.pwr.flash.op = none) ∧
    (∃ (cmd : ℕ) (k : Cmd) (s : State),
      s.findCmd cmd = some k ∧ k.phase = CmdPhase.started ∧ k.begun = false ∧ pkOpcode k.packet = 129 ∧ s.pwr.update = none) ∧
    (∃ (cmd : ℕ) (k : Cmd) (s : State) (x : FwUpdate),
      s.findCmd cmd = some k ∧
      k.phase = CmdPhase.started ∧
        k.begun = false ∧ pkOpcode k.packet = 129 ∧ s.pwr.update = some x ∧ s.pwr.flash.op = none ∧ rnum k.packet 20 0 32 ≠ x.data.length) ∧
    (∃ (cmd : ℕ) (k : Cmd) (s : State) (d : List Byte) (x : FwUpdate),
      s.findCmd cmd = some k ∧
      k.phase = CmdPhase.started ∧
        k.begun = false ∧
          pkOpcode k.packet = 129 ∧
            s.pwr.update = some x ∧
              s.pwr.flash.op = none ∧
                rnum k.packet 20 0 32 = x.data.length ∧ x.data.length + rnum k.packet 32 0 32 ≤ x.total ∧ d.length = rnum k.packet 32 0 32) ∧
    (∃ (cmd : ℕ) (k : Cmd) (s : State) (x : FwUpdate),
      s.findCmd cmd = some k ∧
      k.phase = CmdPhase.started ∧ k.begun = false ∧ pkOpcode k.packet = 129 ∧ s.pwr.update = some x ∧ s.pwr.flash.op.isSome = true) ∧
    (∃ (cmd : ℕ) (k : Cmd) (s : State) (x : FwUpdate),
      s.findCmd cmd = some k ∧
      k.phase = CmdPhase.started ∧ k.begun = false ∧ pkOpcode k.packet = 130 ∧ s.pwr.update = some x ∧ s.pwr.flash.op = none) ∧
    (∃ (n : ℕ) (k : Cmd) (s : State),
      s.findCmd n = some k ∧ (pkOpcode k.packet = 129 ∨ pkOpcode k.packet = 130)) ∧
    (∃ (x : FwUpdate) (s : State),
      s.pwr.update = some x ∧ x.lastTick + 9375000000 ≤ s.now) ∧
    (∃ (x : FwUpdate) (s : State),
      s.pwr.update = some x ∧ s.now < x.lastTick + 9375000000) ∧
    (∃ (s : State),
      s.pwr.flash.op = none) ∧
    (∃ (s : State) (cmd : ℕ),
      s.pwr.flash.op = some (FlashOp.eraseSlot cmd)) ∧
    (∃ (s : State) (cmd : ℕ) (d : List Byte) (x : FwUpdate),
      s.pwr.flash.op = some (FlashOp.programData cmd d) ∧ s.pwr.update = some x) ∧
    (∃ (s : State) (cmd : ℕ) (copy : Fin 2) (img : BitVec 32768) (t : ℕ),
      s.pwr.flash.op = some (FlashOp.programSetup cmd copy img t)) ∧
    (∃ (s : State) (cmd : ℕ) (copy : Fin 2) (img : BitVec 32768) (t : ℕ),
      s.pwr.flash.op = some (FlashOp.programSetup cmd copy img t) ∧ t = 0) ∧
    (∃ (s : State) (cmd : ℕ) (copy : Fin 2) (img : BitVec 32768) (t : ℕ),
      s.pwr.flash.op = some (FlashOp.programSetup cmd copy img t) ∧ t ≠ 0) :=
  ⟨⟨7, wcm 128 [], { wcs (wcm 128 []) with cp := { (wcs (wcm 128 [])).cp with fwOpen := true } }, by decide +kernel⟩,
   ⟨7, wcm 128 [(160, 672)], wfls (wcs (wcm 128 [(160, 672)])) none none, by decide +kernel⟩,
   ⟨7, wcm 129 [], wfls (wcs (wcm 129 [])) none none, by decide +kernel⟩,
   ⟨7, wcm 129 [(160, 1)], wfls (wcs (wcm 129 [(160, 1)])) none (some wupd), wupd, by decide +kernel⟩,
   ⟨7, wcm 129 [(256, 1)], wfls (wcs (wcm 129 [(256, 1)])) none (some wupd), [0], wupd, by decide +kernel⟩,
   ⟨7, wcm 129 [], wfls (wcs (wcm 129 [])) (some (.eraseSlot 3)) (some wupd), wupd, by decide +kernel⟩,
   ⟨7, wcm 130 [], wfls (wcs (wcm 130 [])) none (some wupd), wupd, by decide +kernel⟩,
   ⟨7, wcm 130 [], wcs (wcm 130 []), by decide +kernel⟩,
   ⟨wupd, { wfls ws none (some wupd) with now := 9375000000 }, by decide +kernel⟩,
   ⟨wupd, { wfls ws none (some wupd) with now := 9374999999 }, by decide +kernel⟩,
   ⟨wfls ws none none, by decide +kernel⟩,
   ⟨wfls ws (some (.eraseSlot 7)) none, 7, by decide +kernel⟩,
   ⟨wfls ws (some (.programData 7 [0])) (some wupd), 7, [0], wupd, by decide +kernel⟩,
   ⟨wfls ws (some (.programSetup 7 1 0 2)) none, 7, 1, 0, 2, by decide +kernel⟩,
   ⟨wfls ws (some (.programSetup 7 1 0 0)) none, 7, 1, 0, 0, by decide +kernel⟩,
   ⟨wfls ws (some (.programSetup 7 1 0 1)) none, 7, 1, 0, 1, by decide +kernel⟩⟩

/-- The hypotheses of WarmResetRetrainsStacks can be met, clause by clause. -/
theorem witness_WarmResetRetrainsStacks :
    (∃ (s : State) (k : Fin 8),
      s.hbmStacks[k].st = 3) ∧
    (∃ (s : State) (k : Fin 8),
      s.hbmStacks[k].st ≠ 3) ∧
    (∃ (s : State),
      s.running = true ∧ s.pwr.phase = 5 ∧ ∀ (n : Fin 64), ↑n < 8 → s.cals[n].zeroing = false) :=
  ⟨⟨wk 7 (fun k => { k with st := 3 }), 7, by decide +kernel⟩,
   ⟨ws, 7, by decide +kernel⟩,
   ⟨wph 5, by decide +kernel⟩⟩

/-- The hypotheses of GlbResetStartsAReset can be met, clause by clause. -/
theorem witness_GlbResetStartsAReset :
    (∃ (s : State),
      s.running = true ∧ s.winOpen Win.glb 32 = true) ∧
    (∃ (s : State),
      s.hostUp = true ∧ s.sec.lifecycle ≠ 4 ∧ s.byPacket 32 = false ∧ s.mustWait pcieNode (s.addrNode 32) = false) ∧
    (∃ (p : Word × Data256),
      hdType p.1 = 1 ∧ npAddr p.2 = 32 ∧ glbResets (fld (npData p.2) 0 32) = true) ∧
    (∃ (w : ResetAfter) (v : Word) (s : State),
      s.resetDue = some (w, v) ∧ ResetAfter.gone s w = false) ∧
    (∃ (w : ResetAfter) (v : Word) (s : State),
      s.resetDue = some (w, v) ∧ ResetAfter.gone s w = true) ∧
    (∃ (w : Word),
      nfld w 16 16 = 53342 ∧ bitAt w 0 = true ∧ bitAt w 1 = false) ∧
    (∃ (w : Word),
      nfld w 16 16 = 53342 ∧ bitAt w 0 = false ∧ bitAt w 1 = true) ∧
    (∃ (w : Word),
      nfld w 16 16 ≠ 53342 ∨ bitAt w 0 = bitAt w 1) :=
  ⟨⟨wr, by decide +kernel⟩,
   ⟨wr, by decide +kernel⟩,
   ⟨(mkHeader glbNode pcieNode 1 0, bits 256 [(0, 0x20), (128, 0xD05E0002)]), by decide +kernel⟩,
   ⟨.rsp pcieNode 0, 1, { ws with resetDue := some (.rsp pcieNode 0, 1), ifaces := [(pcieNode.toNat, { out := [wnq] })] }, by decide +kernel⟩,
   ⟨.rsp pcieNode 0, 1, { ws with resetDue := some (.rsp pcieNode 0, 1) }, by decide +kernel⟩,
   ⟨0xD05E0001, by decide +kernel⟩,
   ⟨0xD05E0002, by decide +kernel⟩,
   ⟨0xD05E0003, by decide +kernel⟩⟩

/-- The hypotheses of ResetsAndScrubs can be met, clause by clause. -/
theorem witness_ResetsAndScrubs :
    (∃ (s : State),
      s.portUp = true) ∧
    (∃ (s : State),
      s.portUp = false) ∧
    (∃ (s : State),
      s.pins.perstN = true ∧ s.running = true) ∧
    (∃ (s : State),
      s.pins.perstN = false ∧ s.running = true ∧ s.pwr.phase = 1 ∧ s.pwr.phaseDone = true) ∧
    (∃ (s : State),
      s.pins.perstN = false ∧ s.pwr.phase ≠ 1) ∧
    (∃ (n : ℕ) (s : State),
      s.pins.pwrOk = true ∧ n < 1000) ∧
    (∃ (n : ℕ) (s : State),
      s.pins.pwrOk = true ∧ 10000 ≤ n) ∧
    (∃ (n : ℕ) (s : State),
      s.pins.pwrOk = false ∧ 1000 ≤ n) ∧
    (∃ (s : State),
      s.pins.coldRstN = false) ∧
    (∃ (s : State),
      s.pins.pwrOk = false) ∧
    (∃ (s : State),
      s.running = true ∧ ∃ i : Fin 96, 460 ≤ s.pwr.temps[i].toInt) ∧
    (∃ (s : State),
      ∀ (i : Fin 96), s.pwr.temps[i].toInt < 460) ∧
    (∃ (w : Word) (s : State) (p : Fin 8),
      s.winOpen Win.sec 32 = true ∧ ↑p = nfld w 0 3 ∧ (nfld w 16 16 ≠ 53342 ∨ bitAt w 3 = false ∨ s.sec.parts[p].resetting = true)) ∧
    (∃ (w : Word) (s : State) (p : Fin 8),
      s.winOpen Win.sec 32 = true ∧ ↑p = nfld w 0 3 ∧ nfld w 16 16 = 53342 ∧ bitAt w 3 = true ∧ s.sec.parts[p].resetting = false ∧ s.cp.cmds = []) ∧
    (∃ (c : Byte) (sc : Scrub) (s : State),
      List.find? (fun x => x.startBeat.isSome && x.ctxs.contains c) s.sec.scrubs = some sc ∧ (sc.late = false ∨ s.scrubWorks sc = true)) ∧
    (∃ (c : Byte) (sc : Scrub) (s : State),
      List.find? (fun x => x.startBeat.isSome && x.ctxs.contains c) s.sec.scrubs = some sc ∧ sc.late = true ∧ s.scrubWorks sc = false) :=
  ⟨⟨wr, by decide +kernel⟩,
   ⟨ws, by decide +kernel⟩,
   ⟨wr, by decide +kernel⟩,
   ⟨{ wph 1 with pins := { pwrOk := true }, pwr := { ws.pwr with phase := 1, phaseDone := true } }, by decide +kernel⟩,
   ⟨ws, by decide +kernel⟩,
   ⟨999, wr, by decide +kernel⟩,
   ⟨10000, wr, by decide +kernel⟩,
   ⟨1000, ws, by decide +kernel⟩,
   ⟨{ ws with pins := { coldRstN := false } }, by decide +kernel⟩,
   ⟨ws, by decide +kernel⟩,
   ⟨{ wr with pwr := { wr.pwr with temps := vmod wr.pwr.temps 95 (fun _ => 460) } }, by decide +kernel, 95, by decide +kernel⟩,
   ⟨{ wr with pwr := { wr.pwr with temps := vmod wr.pwr.temps 95 (fun _ => 459) } }, by decide +kernel⟩,
   ⟨7, wr, 7, by decide +kernel⟩,
   ⟨0xD05E000F, wr, 7, by decide +kernel⟩,
   ⟨0, wscr false, wscrs false, by decide +kernel⟩,
   ⟨0, wscr true, wscrs true, by decide +kernel⟩⟩

/-- The hypotheses of BringUpPhases can be met, clause by clause. -/
theorem witness_BringUpPhases :
    (∃ (s : State),
      s.running = false) ∧
    (∃ (s : State),
      s.running = true ∧ s.pwr.phase = 1 ∧ s.pins.perstN = true) ∧
    (∃ (s : State),
      s.running = true ∧ s.pwr.phase = 1 ∧ s.pins.perstN = false) ∧
    (∃ (s : State),
      s.running = true ∧ s.pwr.phase = 2 ∧ s.pins.perstN = true ∧ s.sec.lifecycle ≠ 4) ∧
    (∃ (s : State),
      s.running = true ∧ s.pwr.phase = 2 ∧ s.sec.lifecycle = 4) ∧
    (∃ (s : State),
      s.running = true ∧ s.pwr.phase = 3 ∧ s.pwr.bootFail = true) ∧
    (∃ (s : State),
      s.running = true ∧ s.pwr.phase = 3 ∧ s.pwr.bootFail = false) ∧
    (∃ (s : State),
      s.running = true ∧ s.pwr.phase = 4) ∧
    (∃ (s : State),
      s.running = true ∧ s.pwr.phase = 5 ∧ ∀ (n : Fin 64), ↑n < 8 → s.cals[n].zeroing = false) ∧
    (∃ (s : State),
      s.running = true ∧ s.pwr.phase = 5 ∧ ∃ n : Fin 64, ↑n < 8 ∧ s.cals[n].zeroing = true) ∧
    (∃ (s : State),
      s.running = true ∧ s.pwr.phase = 6 ∧ ∀ (k : Fin 8), s.hbmStacks[k].st ≠ 1) ∧
    (∃ (s : State),
      s.running = true ∧ s.pwr.phase = 7 ∧ ∀ (p : Fin 12), s.ports[p].st ≠ PortState.training) ∧
    (∃ (s : State),
      s.running = true ∧ s.pwr.phase = 8 ∧ s.pwr.phaseDone = true) ∧
    (∃ (s : State),
      s.running = true ∧ s.pwr.phase = 8 ∧ s.pwr.phaseDone = false) ∧
    (∃ (s : State),
      s.running = true ∧ s.pwr.phase = 9 ∧ s.sec.svn < s.svnTarget ∧ s.sec.svn < 128) ∧
    (∃ (s : State),
      s.running = true ∧ s.pwr.phase = 9 ∧ s.svnTarget ≤ s.sec.svn) :=
  ⟨⟨ws, by decide +kernel⟩,
   ⟨wph 1, by decide +kernel⟩,
   ⟨{ wph 1 with pins := { pwrOk := true } }, by decide +kernel⟩,
   ⟨wph 2, by decide +kernel⟩,
   ⟨{ wph 2 with sec := { ws.sec with lifecycle := 4 } }, by decide +kernel⟩,
   ⟨{ wph 3 with pwr := { (wph 3).pwr with bootFail := true } }, by decide +kernel⟩,
   ⟨wslots 3 0, by decide +kernel⟩,
   ⟨wph 4, by decide +kernel⟩,
   ⟨wph 5, by decide +kernel⟩,
   ⟨{ wph 5 with cals := vmod ws.cals 7 (fun c => { c with zeroing := true }) }, by decide +kernel, by decide +kernel, 7, by decide +kernel⟩,
   ⟨wph 6, by decide +kernel⟩,
   ⟨wph 7, by decide +kernel⟩,
   ⟨{ wph 8 with pwr := { (wph 8).pwr with phaseDone := true } }, by decide +kernel⟩,
   ⟨wph 8, by decide +kernel⟩,
   ⟨wslots 9 1, by decide +kernel⟩,
   ⟨wslots 9 0, by decide +kernel⟩⟩

/-- The hypotheses of PowerCapSquallsAndRails can be met, clause by clause. -/
theorem witness_PowerCapSquallsAndRails :
    (∃ (avg : ℕ) (cap : ℕ),
      cap < avg) ∧
    (∃ (avg : ℕ) (cap : ℕ),
      avg ≤ cap ∧ 100 * avg < 97 * cap) ∧
    (∃ (avg : ℕ) (cap : ℕ),
      avg ≤ cap ∧ 97 * cap ≤ 100 * avg) ∧
    (∃ (s : State),
      s.running = false ∨ s.now < s.pwr.capAt + 15625) ∧
    (∃ (s : State),
      s.running = true ∧ s.pwr.capAt + 15625 ≤ s.now) ∧
    (∃ (s : State),
      s.running = false ∨ s.now < s.pwr.ilimAt + 156250) ∧
    (∃ (s : State) (t : ℕ),
      s.running = true ∧ s.pwr.ilimAt + 156250 ≤ s.now ∧ s.pwr.overSince = some t ∧ t + 1562500 ≤ s.now) ∧
    (∃ (s : State) (t : ℕ),
      s.running = true ∧
      s.pwr.ilimAt + 156250 ≤ s.now ∧ s.pwr.overSince = none ∧ s.pwr.capLimiting = true ∧ s.pwr.underSince = some t ∧ t + 1562500 ≤ s.now) ∧
    (∃ (n : Fin 64) (s : State),
      s.cals[n].squall.isSome = true ∨ s.running = false) ∧
    (∃ (s : State) (a : BitVec 16),
      a.toNat ≤ s.pwr.ilimEff.toNat) ∧
    (∃ (n : Fin 64) (s : State),
      ∀ i ∈ sensorsOf n, s.pwr.temps[i].toInt < 400) ∧
    (∃ (n : Fin 64) (s : State) (a : BitVec 16),
      s.running = true ∧ s.cals[n].squall = none ∧ s.pwr.ilimEff.toNat < a.toNat) ∧
    (∃ (n : Fin 64) (s : State) (i : Fin 96),
      i ∈ sensorsOf n ∧ s.running = true ∧ s.cals[n].squall = none ∧ 400 ≤ s.pwr.temps[i].toInt) ∧
    (∃ (n : Fin 64) (s : State),
      s.cals[n].squall = none) ∧
    (∃ (n : Fin 64) (s : State) (q : Squall) (t : ℕ),
      s.cals[n].squall = some q ∧ q.calmSince = some t ∧ t + 15625 ≤ s.now) ∧
    (∃ (n : Fin 64) (s : State) (q : Squall) (t : ℕ),
      s.cals[n].squall = some q ∧ q.calmSince = some t ∧ s.now < t + 15625) ∧
    (∃ (die : Bool) (d : Fin 2) (r : Fin 13) (s : State),
      (↑d = if die = true then 1 else 0) ∧ (↑r = if die = true then 1 else 0) ∧ s.squallStart ↑d = none) ∧
    (∃ (die : Bool) (d : Fin 2) (r : Fin 13) (s : State) (t : ℕ),
      (↑d = if die = true then 1 else 0) ∧
      (↑r = if die = true then 1 else 0) ∧
        s.squallStart ↑d = some t ∧ s.running = true ∧ (s.pwr.railAt[d] ≤ t ∨ s.pwr.railAt[d] + 15625 ≤ s.now + 1)) ∧
    (∃ (die : Bool) (d : Fin 2) (r : Fin 13) (s : State) (t : ℕ),
      (↑d = if die = true then 1 else 0) ∧
      (↑r = if die = true then 1 else 0) ∧ s.squallStart ↑d = some t ∧ t < s.pwr.railAt[d] ∧ s.now + 1 < s.pwr.railAt[d] + 15625) ∧
    (∃ (s : State),
      s.running = true) ∧
    (∃ (r : Fin 13) (mv : BitVec 16) (s : State),
      s.running = true ∧ railInRange r s.pwr.rails[r] mv.toNat = true) ∧
    (∃ (r : Fin 13) (mv : BitVec 16) (s : State) (t : ℕ),
      s.running = true ∧ railInRange r s.pwr.rails[r] mv.toNat = false ∧ s.pwr.rails[r].badSince = some t ∧ t + 156250 ≤ s.now) ∧
    (∃ (r : Fin 13) (s : State),
      s.running = true ∧ s.pwr.rails[r].retry = false ∧ s.pwr.rails[r].wrote = none) ∧
    (∃ (r : Fin 13) (s : State) (a : AvsAnswer),
      s.running = true ∧ s.pwr.rails[r].retry = true ∧ (a = AvsAnswer.ack ∨ a = AvsAnswer.none)) ∧
    (∃ (r : Fin 13) (s : State),
      s.running = true ∧ s.pwr.rails[r].retry = true) ∧
    (∃ (r : Fin 13) (s : State) (t : ℕ),
      s.running = true ∧ s.pwr.rails[r].retry = false ∧ s.pwr.rails[r].wrote = some t ∧ s.now ≤ t + 156) ∧
    (∃ (s : State),
      s.running = false) :=
  ⟨⟨1501, 1500, by decide +kernel⟩,
   ⟨1454, 1500, by decide +kernel⟩,
   ⟨1455, 1500, by decide +kernel⟩,
   ⟨wpw 15624 id, by decide +kernel⟩,
   ⟨wpw 15625 id, by decide +kernel⟩,
   ⟨wpw 156249 id, by decide +kernel⟩,
   ⟨wpw 1562500 (fun p => { p with overSince := some 0 }), 0, by decide +kernel⟩,
   ⟨wpw 1562500 (fun p => { p with capLimiting := true, underSince := some 0 }), 0, by decide +kernel⟩,
   ⟨63, wc 63 (fun c => { c with gated := true }), by decide +kernel⟩,
   ⟨wr, wr.pwr.ilimEff, by decide +kernel⟩,
   ⟨63, wr, by decide +kernel⟩,
   ⟨63, wr, wr.pwr.ilimEff + 1, by decide +kernel⟩,
   ⟨63, { wr with pwr := { wr.pwr with temps := vset wr.pwr.temps 63 400 } }, 63, by decide +kernel⟩,
   ⟨63, ws, by decide +kernel⟩,
   ⟨63, wsq1 wcalm 15625, wcalm, 0, by decide +kernel⟩,
   ⟨63, wsq1 wcalm 15624, wcalm, 0, by decide +kernel⟩,
   ⟨true, 1, 1, ws, by decide +kernel⟩,
   ⟨true, 1, 1, wsq1 wcalm 15625, 0, by decide +kernel⟩,
   ⟨true, 1, 1, { wsq1 wcalm 15623 with pwr := { ws.pwr with railAt := Vector.replicate 2 1 } }, 0, by decide +kernel⟩,
   ⟨wr, by decide +kernel⟩,
   ⟨12, 1890, wr, by decide +kernel⟩,
   ⟨12, 1891, { wrail { badSince := some 0 } with now := 156250 }, 0, by decide +kernel⟩,
   ⟨12, wr, by decide +kernel⟩,
   ⟨12, wrail { retry := true }, .ack, by decide +kernel⟩,
   ⟨12, wrail { retry := true }, by decide +kernel⟩,
   ⟨12, { wrail { wrote := some 0 } with now := 156 }, 0, by decide +kernel⟩,
   ⟨ws, by decide +kernel⟩⟩

/-- The hypotheses of EventsSensorsSidebandAndJtag can be met, clause by clause. -/
theorem witness_EventsSensorsSidebandAndJtag :
    (∃ (l : RingLog (BitVec 256)),
      64 ≤ l.recs.length) ∧
    (∃ (l : RingLog (BitVec 256)),
      l.recs.length < 64) ∧
    (∃ (l : RingLog (BitVec 256)) (x : BitVec 256) (t : List (BitVec 256)),
      l.recs = x :: t) ∧
    (∃ (s : State),
      s.running = true ∧ s.pins.tapOn = true) ∧
    (∃ (s : State),
      s.running = true ∧ s.pins.tapOn = true ∧ s.anyConf = true) ∧
    (∃ (s : State),
      s.running = true ∧ s.pins.tapOn = true ∧ s.anyConf = false ∧ (s.sec.lifecycle = 1 ∨ s.sec.lifecycle = 3)) ∧
    (∃ (s : State) (t : BitVec 3),
      s.running = true ∧ s.pins.tapOn = true ∧ s.anyConf = false ∧ s.sec.lifecycle.toNat < t.toNat ∧ t.toNat ≤ 4) ∧
    (∃ (s : State),
      s.running = true ∧ s.pins.tapOn = true ∧ s.anyConf = false) ∧
    (∃ (s : State) (t : BitVec 3),
      s.running = true ∧ s.pins.tapOn = true ∧ t.toNat ≤ s.sec.lifecycle.toNat) ∧
    (∃ (s : State),
      s.running = false ∨ s.pins.tapOn = false) ∧
    (∃ (s : State) (b : List Byte),
      s.running = true ∧ s.pwr.sidebandMctp b = none) ∧
    (∃ (s : State) (b : List Byte) (m : List Byte) (dev : BitVec 10),
      s.running = true ∧ s.pwr.sidebandMctp b = some m ∧ s.pwr.mctpHere m = false ∧ tfind s.pwr.eids (BitVec.toNat (mctpDst m)) = some dev) :=
  ⟨⟨{ recs := List.replicate 64 0 }, by decide +kernel⟩,
   ⟨{ recs := List.replicate 63 0 }, by decide +kernel⟩,
   ⟨{ recs := [5] }, 5, [], by decide +kernel⟩,
   ⟨wr, by decide +kernel⟩,
   ⟨{ wr with sec := wsec }, by decide +kernel⟩,
   ⟨wtap 3, by decide +kernel⟩,
   ⟨wtap 3, 4, by decide +kernel⟩,
   ⟨wtap 2, by decide +kernel⟩,
   ⟨wtap 3, 3, by decide +kernel⟩,
   ⟨ws, by decide +kernel⟩,
   ⟨wr, [], by decide +kernel⟩,
   ⟨{ wr with pwr := { wr.pwr with eids := [(8, 5)] } }, wsmb ++ [pec wsmb], [1, 8, 0, 0], 5, by decide +kernel⟩⟩

end Sys2Proof.Tests
end

section
/-! Proofs of the statements about levels and timing: the step, resets, calderas, the geyser and beats. -/

namespace Sys2Proof.Machine

/-! ### The step -/

theorem step_cons (c : Instr) (rest : List Instr) (s : State) (h : s.pending = c :: rest) :
    step s = exec c { s with pending := rest } := by
  simp only [step, h]

theorem step_nil (s : State) (h : s.pending = []) : step s = .next s.tick.resetNow := by
  simp only [step, h]

theorem resetNow_none (s : State) (h : s.resetDue = none) : s.resetNow = s := by
  simp only [State.resetNow, h]

theorem resetNow_some (s : State) (w : ResetAfter) (v : Word) (h : s.resetDue = some (w, v)) :
    s.resetNow = if w.gone s then ({ s with resetDue := none } : State).glbReset v else s := by
  simp only [State.resetNow, h]

/-- Of the state, the logic of a tick changes the regions, the PLLs and the counter of free values. -/
theorem logicTick_frame (s : State) :
    s.logicTick = { s with regions := s.logicTick.regions, plls := s.logicTick.plls, free := s.logicTick.free } := by
  unfold State.logicTick
  split <;> rfl

theorem tick_regions (s : State) : s.tick.regions = s.logicTick.regions := rfl
theorem tick_plls (s : State) : s.tick.plls = s.logicTick.plls := rfl
theorem tick_free (s : State) : s.tick.free = s.logicTick.free := rfl

theorem tick_frame (s : State) : s.tick = { s with
    now := s.now + 1, regions := s.tick.regions, plls := s.tick.plls, free := s.tick.free
    glb := { s.glb with conds := s.tick.glb.conds, holds := s.tick.glb.holds } } := by
  unfold State.tick State.modGlb
  rw [logicTick_frame]
  dsimp only
  split
  · rename_i h
    simp only [h]
  · rfl

/-- The first held boundary may get more causes; which beats are held, and since when, stays. -/
theorem tick_holds (s : State) :
    s.tick.glb.holds.map (fun k => (k.beat, k.since)) = s.glb.holds.map (fun k => (k.beat, k.since)) := by
  unfold State.tick State.modGlb
  rw [logicTick_frame]
  dsimp only
  split
  · rfl
  · rename_i h
    simp only [h, List.map_cons]

theorem regionTick_idle (s : State) (up : Bool) (i : Fin 16) (h : (s.regions[i]).cfg ≠ 2 ∨ (s.regions[i]).initHeld = true) :
    s.regionTick up i = s.regions[i] := by
  unfold State.regionTick
  rw [if_neg]
  rintro ⟨hc, hi⟩
  rcases h with h | h
  · exact h hc
  · rw [Bool.not_eq_true'] at hi
    exact Bool.noConfusion (hi.symm.trans h)

theorem logicTick_region (s : State) (i : Fin 16) : ∃ up, s.logicTick.regions[i] = s.regionTick up i := by
  unfold State.logicTick
  split
  · exact ⟨_, Vector.getElem_ofFn i.isLt⟩
  · exact ⟨_, Vector.getElem_ofFn i.isLt⟩

theorem Pll.edges_unlocked (p : Pll) (k : Fin 8) (j : Fin 4) (h : p.locked = false) : p.edges k j = 0 := by
  simp [Pll.edges, h]

/-- A net has no edge while no PLL is locked. -/
theorem netEdges_unlocked (s : State) (r net : Fin 16) (h : s.plls.any (fun p => p.locked) = false) : s.netEdges r net = 0 := by
  have hk : (s.plls[netPll r net.val]).locked = false := by
    simpa using Vector.any_eq_false.1 h (netPll r net.val) (netPll r net.val).isLt
  exact Pll.edges_unlocked _ _ _ hk

/-- Without an edge a region's flip-flops take what the asynchronous set-resets force, and nothing else changes. -/
theorem regionTick_unlocked (s : State) (up : Bool) (i : Fin 16) (h : s.plls.any (fun p => p.locked) = false) :
    s.regionTick up i = { s.regions[i] with ffs := (s.regionTick up i).ffs, paused := (s.regionTick up i).paused } := by
  have hn : (List.finRange 16).filter (fun n => s.netEdges i n != 0) = [] := by
    simp [netEdges_unlocked s i _ h]
  unfold State.regionTick
  rw [hn]
  simp only [List.reverse_nil, ite_self, List.flatMap_nil, List.mergeSort_nil, List.foldl_nil]
  split <;> rfl

/-- Settles O1: `step` by the queue, and what one tick changes. -/
theorem stepRunsTheFrontCommand : Obligations.StepRunsTheFrontCommand := by
  unfold Obligations.StepRunsTheFrontCommand
  refine ⟨⟨fun c s => step_cons c s.pending _ rfl, step_cons⟩, step_nil, resetNow_none, fun s w v h => ?_, fun s => ?_⟩
  · rw [resetNow_some s w v h]
    exact ⟨fun g => by rw [if_neg (by simp [g])], fun g => if_pos g⟩
  · refine ⟨tick_frame s, tick_holds s, fun i h => ?_, fun h => ⟨?_, ?_, fun i => ?_⟩⟩
    · obtain ⟨up, e⟩ := logicTick_region s i
      rw [tick_regions, e, regionTick_idle s up i h]
    · rw [tick_free, State.logicTick, h]; rfl
    · rw [tick_plls, State.logicTick, h]; rfl
    · obtain ⟨up, e⟩ := logicTick_region s i
      rw [tick_regions, e]
      exact regionTick_unlocked s up i h

/-! ### What commands and steps keep -/

/-- A command that answers a next state keeps what `Keeps` says of it. -/
theorem exec_keeps {c : Instr} {s t : State} (h : exec c s = .next t) : Keeps false s t := by
  have k := keeps_exec c s
  rwa [h] at k

/-- Settles O2. -/
theorem commandsLeaveQueueTimeAndFloor : Obligations.CommandsLeaveQueueTimeAndFloor := by
  unfold Obligations.CommandsLeaveQueueTimeAndFloor
  intro c s t h
  exact ⟨(exec_keeps h).pending, (exec_keeps h).now, (exec_keeps h).floor⟩

theorem State.Good.of_keeps {bb : Bool} {s t : State} (h : Keeps bb s t) (g : s.Good) : t.Good := by
  obtain ⟨hm, hb, he, hf⟩ := g
  exact ⟨h.hbm hm, h.bbl hb, h.ev he, by rw [h.floor]; exact hf⟩

theorem State.Good.tick {s : State} (g : s.Good) : s.tick.Good := by
  unfold State.Good
  rw [tick_frame]
  exact g

/-- Settles O5: a command keeps the invariant through `Keeps`, a tick leaves its fields alone, and the reset that may
follow the tick keeps it as a command does. -/
theorem everyStepKeepsTheInvariant : Obligations.EveryStepKeepsTheInvariant := by
  unfold Obligations.EveryStepKeepsTheInvariant
  intro s t g h
  cases hp : s.pending with
  | nil =>
    rw [step_nil s hp] at h
    cases h
    exact g.tick.of_keeps (keeps_resetNow _ (keeps_refl _))
  | cons c rest =>
    rw [step_cons c rest s hp] at h
    exact State.Good.of_keeps (s := { s with pending := rest }) (exec_keeps h) g

/-- Settles O4. -/
theorem resetMeetsTheInvariant : Obligations.ResetMeetsTheInvariant := by
  have hf : 850 ≤ floorPaceFused.toNat := by
    unfold floorPaceFused
    split
    · decide
    · omega
  exact ⟨rfl, Nat.zero_le _, Nat.zero_le _, hf⟩

/-- Settles O6: every element of a unit array of the reset state is the one that fills it. -/
theorem resetRegisterValues : Obligations.ResetRegisterValues := by
  have hc : ∀ n : Fin 64, State.reset.cals[n] = {} := fun n => Vector.getElem_replicate n.isLt
  have hk : ∀ k : Fin 8, State.reset.hbmStacks[k] = {} := fun k => Vector.getElem_replicate k.isLt
  have hp : ∀ p : Fin 12, State.reset.ports[p] = {} := fun p => Vector.getElem_replicate p.isLt
  unfold Obligations.ResetRegisterValues
  refine ⟨⟨rfl, rfl, rfl, rfl, rfl⟩, fun n => ?_, fun k => ?_, fun p => ?_, ?_⟩
  · rw [hc n]; exact ⟨rfl, rfl, rfl, rfl, rfl⟩
  · rw [hk k]; exact ⟨rfl, rfl, rfl, rfl⟩
  · rw [hp p]; exact ⟨rfl, rfl, rfl, rfl, rfl⟩
  · exact ⟨rfl, rfl, rfl, rfl, rfl, rfl, rfl, rfl, rfl⟩

/-! ### Which commands can change the beat registers -/

/-- A host's read reaches no register write, so no reset follows it. -/
theorem hostUnit_read_keeps {bb : Bool} {q0 : State} (s : State) (addr : Word) (n : Nat) (v : DWord) (h : Keeps bb q0 s) :
    Keeps bb q0 (s.hostUnit addr true n v) := by
  unfold State.hostUnit
  rw [if_pos rfl]
  exact keeps_hostOutcome _ _ _ _ _ _ h

theorem hostAccess_read_keeps {bb : Bool} {q0 : State} (s : State) (addr : Word) (size : AccessSize) (v : DWord) (h : Keeps bb q0 s) :
    KeepsOut bb q0 (s.hostAccess addr true size v) := by
  unfold State.hostAccess
  refine keepsOut_ite (fun _ => keeps_execNocRequest _ _ _ _ _ h) (fun _ => ?_)
  refine keepsOut_ite (fun _ => h) (fun _ => ?_)
  refine keepsOut_ite (fun _ => keepsOut_ite (fun _ => h) (fun _ => keeps_fanStart _ _ _ _ _ h)) (fun _ => ?_)
  exact keepsOut_ite (fun _ => h) (fun _ => hostUnit_read_keeps _ _ _ _ h)

theorem execBroadcastRead_keeps {bb : Bool} {q0 : State} (read : HostRead) (s : State) (h : Keeps bb q0 s) :
    KeepsOut bb q0 (execBroadcastRead read s) := by
  unfold execBroadcastRead
  refine keepsOut_ite (fun _ => h) (fun _ => ?_)
  exact keepsOut_ite (fun _ => hostAccess_read_keeps _ _ _ _ h) (fun _ => keeps_emit _ _ h)

/-- One case per command: those of `beatCommand` have none, and every other one keeps the beat registers too. -/
theorem exec_keeps_beats : ∀ (c : Instr) (s : State), beatCommand c = false → KeepsOut true s (exec c s)
  | .beatBoundary _, _, h => nomatch h
  | .holdEnd, _, h => nomatch h
  | .geyserBlockSend, s, _ => keeps_execGeyserBlockSend s (keeps_refl s)
  | .geyserCopySend, s, _ => keeps_execGeyserCopySend s (keeps_refl s)
  | .pulseEmission, s, _ => keeps_execPulseEmission s (keeps_refl s)
  | .stretchReceive, s, _ => keeps_execStretchReceive s (keeps_refl s)
  | .squallReceive, s, _ => keeps_execSquallReceive s (keeps_refl s)
  | .geyserReceive a b, s, _ => keeps_execGeyserReceive a b s (keeps_refl s)
  | .geyserTimeout, s, _ => keeps_execGeyserTimeout s (keeps_refl s)
  | .wload a b, s, _ => keeps_execWload a b s (keeps_refl s)
  | .wloadComplete a b c, s, _ => keeps_execWloadComplete a b c s (keeps_refl s)
  | .relay a b, s, _ => keeps_execRelay a b s (keeps_refl s)
  | .relayGranule a b, s, _ => keeps_execRelayGranule a b s (keeps_refl s)
  | .passIssue a b, s, _ => keeps_execPassIssue a b s (keeps_refl s)
  | .rowAdmit a b, s, _ => keeps_execRowAdmit a b s (keeps_refl s)
  | .drainBlock a b, s, _ => keeps_execDrainBlock a b s (keeps_refl s)
  | .passCommit a b, s, _ => keeps_execPassCommit a b s (keeps_refl s)
  | .preemptWaitExpiry a, s, _ => keeps_execPreemptWaitExpiry a s (keeps_refl s)
  | .sarm a, s, _ => keeps_execSarm a s (keeps_refl s)
  | .zeroingComplete a, s, _ => keeps_execZeroingComplete a s (keeps_refl s)
  | .gate a b, s, _ => keeps_execGate a b s (keeps_refl s)
  | .gateEffect a, s, _ => keeps_execGateEffect a s (keeps_refl s)
  | .wake a, s, _ => keeps_execWake a s (keeps_refl s)
  | .wakePowerOn a, s, _ => keeps_execWakePowerOn a s (keeps_refl s)
  | .paceMinClr a, s, _ => keeps_execPaceMinClr a s (keeps_refl s)
  | .vld a, s, _ => keeps_execVld a s (keeps_refl s)
  | .vst a, s, _ => keeps_execVst a s (keeps_refl s)
  | .vadd a, s, _ => keeps_execVadd a s (keeps_refl s)
  | .vsub a, s, _ => keeps_execVsub a s (keeps_refl s)
  | .vmul a, s, _ => keeps_execVmul a s (keeps_refl s)
  | .vfma a, s, _ => keeps_execVfma a s (keeps_refl s)
  | .vmax a, s, _ => keeps_execVmax a s (keeps_refl s)
  | .vmin a, s, _ => keeps_execVmin a s (keeps_refl s)
  | .vcmul a, s, _ => keeps_execVcmul a s (keeps_refl s)
  | .vrsum a, s, _ => keeps_execVrsum a s (keeps_refl s)
  | .vrmax a, s, _ => keeps_execVrmax a s (keeps_refl s)
  | .vexp a, s, _ => keeps_execVexp a s (keeps_refl s)
  | .vlog a, s, _ => keeps_execVlog a s (keeps_refl s)
  | .vrsqrt a, s, _ => keeps_execVrsqrt a s (keeps_refl s)
  | .vrcp a, s, _ => keeps_execVrcp a s (keeps_refl s)
  | .vsigm a, s, _ => keeps_execVsigm a s (keeps_refl s)
  | .vtanh a, s, _ => keeps_execVtanh a s (keeps_refl s)
  | .vcvti a, s, _ => keeps_execVcvti a s (keeps_refl s)
  | .vcvto a, s, _ => keeps_execVcvto a s (keeps_refl s)
  | .vsrchmax a, s, _ => keeps_execVsrchmax a s (keeps_refl s)
  | .vsrchmin a, s, _ => keeps_execVsrchmin a s (keeps_refl s)
  | .chkf a, s, _ => keeps_execChkf a s (keeps_refl s)
  | .agset a, s, _ => keeps_execAgset a s (keeps_refl s)
  | .wbeat a, s, _ => keeps_execWbeat a s (keeps_refl s)
  | .wdrain a, s, _ => keeps_execWdrain a s (keeps_refl s)
  | .dspEnd a, s, _ => keeps_execDspEnd a s (keeps_refl s)
  | .dspSeedWrite a b, s, _ => keeps_execDspSeedWrite a b s (keeps_refl s)
  | .chkData8 a b, s, _ => keeps_execChkData8 a b s (keeps_refl s)
  | .chkData16 a b, s, _ => keeps_execChkData16 a b s (keeps_refl s)
  | .chkData32 a b, s, _ => keeps_execChkData32 a b s (keeps_refl s)
  | .chkStart a b, s, _ => keeps_execChkStart a b s (keeps_refl s)
  | .chkFeed a, s, _ => keeps_execChkFeed a s (keeps_refl s)
  | .chkSnoopBlock a b c d, s, _ => keeps_execChkSnoopBlock a b c d s (keeps_refl s)
  | .xlogPop a, s, _ => keeps_execXlogPop a s (keeps_refl s)
  | .xlogClear a, s, _ => keeps_execXlogClear a s (keeps_refl s)
  | .streamArm a b, s, _ => keeps_execStreamArm a b s (keeps_refl s)
  | .armingComplete a, s, _ => keeps_execArmingComplete a s (keeps_refl s)
  | .demandFill a b c, s, _ => keeps_execDemandFill a b c s (keeps_refl s)
  | .runAhead a b c, s, _ => keeps_execRunAhead a b c s (keeps_refl s)
  | .streamTransfer a b, s, _ => keeps_execStreamTransfer a b s (keeps_refl s)
  | .streamWdog a, s, _ => keeps_execStreamWdog a s (keeps_refl s)
  | .stagingSlotFree a b, s, _ => keeps_execStagingSlotFree a b s (keeps_refl s)
  | .nocRequest a b c d, s, _ => keeps_execNocRequest a b c d s (keeps_refl s)
  | .nocHop a b c, s, _ => keeps_execNocHop a b c s (keeps_refl s)
  | .nocDeliver _, _, h => nomatch h
  | .nocRspReceive a, s, _ => keeps_execNocRspReceive a s (keeps_refl s)
  | .nocBusyRetry a b, s, _ => keeps_execNocBusyRetry a b s (keeps_refl s)
  | .nocTimeoutExpiry a b, s, _ => keeps_execNocTimeoutExpiry a b s (keeps_refl s)
  | .nocRtWrite a b c, s, _ => keeps_execNocRtWrite a b c s (keeps_refl s)
  | .traceClear a, s, _ => keeps_execTraceClear a s (keeps_refl s)
  | .conduitWord a b c, s, _ => keeps_execConduitWord a b c s (keeps_refl s)
  | .memRequest a b c, s, _ => keeps_execMemRequest a b c s (keeps_refl s)
  | .memCommandIssue a b, s, _ => keeps_execMemCommandIssue a b s (keeps_refl s)
  | .memReadReturn a b c d, s, _ => keeps_execMemReadReturn a b c d s (keeps_refl s)
  | .memRereadReturn a b c d, s, _ => keeps_execMemRereadReturn a b c d s (keeps_refl s)
  | .rowIdleExpiry a b c d, s, _ => keeps_execRowIdleExpiry a b c d s (keeps_refl s)
  | .refreshDue a b c, s, _ => keeps_execRefreshDue a b c s (keeps_refl s)
  | .hbmTempPoll a b c, s, _ => keeps_execHbmTempPoll a b c s (keeps_refl s)
  | .stackTraining a b, s, _ => keeps_execStackTraining a b s (keeps_refl s)
  | .hbmCntClr a, s, _ => keeps_execHbmCntClr a s (keeps_refl s)
  | .bblPop, s, _ => keeps_execBblPop s (keeps_refl s)
  | .bblClear, s, _ => keeps_execBblClear s (keeps_refl s)
  | .portTraining a b, s, _ => keeps_execPortTraining a b s (keeps_refl s)
  | .trainingFrame a b c d e, s, _ => keeps_execTrainingFrame a b c d e s (keeps_refl s)
  | .downRetry a, s, _ => keeps_execDownRetry a s (keeps_refl s)
  | .fastRetrain a b c, s, _ => keeps_execFastRetrain a b c s (keeps_refl s)
  | .fastRetrainFail a, s, _ => keeps_execFastRetrainFail a s (keeps_refl s)
  | .laneLockLoss a b, s, _ => keeps_execLaneLockLoss a b s (keeps_refl s)
  | .lnkEn a b, s, _ => keeps_execLnkEn a b s (keeps_refl s)
  | .admitPort a b, s, _ => keeps_execAdmitPort a b s (keeps_refl s)
  | .conf a b, s, _ => keeps_execConf a b s (keeps_refl s)
  | .clrDegraded a, s, _ => keeps_execClrDegraded a s (keeps_refl s)
  | .retrain a, s, _ => keeps_execRetrain a s (keeps_refl s)
  | .fullTrain a, s, _ => keeps_execFullTrain a s (keeps_refl s)
  | .loop a b, s, _ => keeps_execLoop a b s (keeps_refl s)
  | .prbsClr a b, s, _ => keeps_execPrbsClr a b s (keeps_refl s)
  | .lnkCntClr a, s, _ => keeps_execLnkCntClr a s (keeps_refl s)
  | .fill a b c d, s, _ => keeps_execFill a b c d s (keeps_refl s)
  | .align a b c, s, _ => keeps_execAlign a b c s (keeps_refl s)
  | .linkUp a b, s, _ => keeps_execLinkUp a b s (keeps_refl s)
  | .pres a b, s, _ => keeps_execPres a b s (keeps_refl s)
  | .presSend a, s, _ => keeps_execPresSend a s (keeps_refl s)
  | .presTimeout a, s, _ => keeps_execPresTimeout a s (keeps_refl s)
  | .rttReq a b, s, _ => keeps_execRttReq a b s (keeps_refl s)
  | .rttRsp a b, s, _ => keeps_execRttRsp a b s (keeps_refl s)
  | .flitTransmit a, s, _ => keeps_execFlitTransmit a s (keeps_refl s)
  | .flitReceive a b c, s, _ => keeps_execFlitReceive a b c s (keeps_refl s)
  | .nackRepeat a, s, _ => keeps_execNackRepeat a s (keeps_refl s)
  | .creditTimeout a b, s, _ => keeps_execCreditTimeout a b s (keeps_refl s)
  | .auth a, s, _ => keeps_execAuth a s (keeps_refl s)
  | .authTimeout a, s, _ => keeps_execAuthTimeout a s (keeps_refl s)
  | .probeForward, s, _ => keeps_execProbeForward s (keeps_refl s)
  | .probeIdentify, s, _ => keeps_execProbeIdentify s (keeps_refl s)
  | .probeRead, s, _ => keeps_execProbeRead s (keeps_refl s)
  | .probeWrite, s, _ => keeps_execProbeWrite s (keeps_refl s)
  | .probeSync, _, h => nomatch h
  | .probeRspReceive, s, _ => keeps_execProbeRspReceive s (keeps_refl s)
  | .discoverTimeout a, s, _ => keeps_execDiscoverTimeout a s (keeps_refl s)
  | .fabIdWrite a, s, _ => keeps_execFabIdWrite a s (keeps_refl s)
  | .mgmtRegRd, s, _ => keeps_execMgmtRegRd s (keeps_refl s)
  | .mgmtRegWr, _, h => nomatch h
  | .mgmtRegRsp, s, _ => keeps_execMgmtRegRsp s (keeps_refl s)
  | .mgmtTimeout a, s, _ => keeps_execMgmtTimeout a s (keeps_refl s)
  | .mgmtCfg, s, _ => keeps_execMgmtCfg s (keeps_refl s)
  | .mgmtMctp, s, _ => keeps_execMgmtMctp s (keeps_refl s)
  | .mgmtEvent, s, _ => keeps_execMgmtEvent s (keeps_refl s)
  | .freeWr a, s, _ => keeps_execFreeWr a s (keeps_refl s)
  | .freeRd a b, s, _ => keeps_execFreeRd a b s (keeps_refl s)
  | .freeRsp, s, _ => keeps_execFreeRsp s (keeps_refl s)
  | .sqTail a b, s, _ => keeps_execSqTail a b s (keeps_refl s)
  | .cqHead a b, s, _ => keeps_execCqHead a b s (keeps_refl s)
  | .sqEnable a b, s, _ => keeps_execSqEnable a b s (keeps_refl s)
  | .sqDisable a, s, _ => keeps_execSqDisable a s (keeps_refl s)
  | .cqEnable a b, s, _ => keeps_execCqEnable a b s (keeps_refl s)
  | .cqDisable a, s, _ => keeps_execCqDisable a s (keeps_refl s)
  | .commandFetch a b, s, _ => keeps_execCommandFetch a b s (keeps_refl s)
  | .commandStart a, s, _ => keeps_execCommandStart a s (keeps_refl s)
  | .completionWrite a, s, _ => keeps_execCompletionWrite a s (keeps_refl s)
  | .nop a, s, _ => keeps_execNop a s (keeps_refl s)
  | .ctxCreate a, s, _ => keeps_execCtxCreate a s (keeps_refl s)
  | .ctxDestroy a, s, _ => keeps_execCtxDestroy a s (keeps_refl s)
  | .mapPages a b, s, _ => keeps_execMapPages a b s (keeps_refl s)
  | .unmapPages a, s, _ => keeps_execUnmapPages a s (keeps_refl s)
  | .unmapDrainDone a, s, _ => keeps_execUnmapDrainDone a s (keeps_refl s)
  | .loadPlan a b, s, _ => keeps_execLoadPlan a b s (keeps_refl s)
  | .runPlan a b, s, _ => keeps_execRunPlan a b s (keeps_refl s)
  | .abort a, s, _ => keeps_execAbort a s (keeps_refl s)
  | .resume a, s, _ => keeps_execResume a s (keeps_refl s)
  | .copy a, s, _ => keeps_execCopy a s (keeps_refl s)
  | .loadLogic a b, s, _ => keeps_execLoadLogic a b s (keeps_refl s)
  | .loadRegion a b, s, _ => keeps_execLoadRegion a b s (keeps_refl s)
  | .frameRecord a, s, _ => keeps_execFrameRecord a s (keeps_refl s)
  | .loadCommit a, s, _ => keeps_execLoadCommit a s (keeps_refl s)
  | .cfgStreamTimeout, s, _ => keeps_execCfgStreamTimeout s (keeps_refl s)
  | .attest a, s, _ => keeps_execAttest a s (keeps_refl s)
  | .attestHoldTimeout a, s, _ => keeps_execAttestHoldTimeout a s (keeps_refl s)
  | .keyImport a b, s, _ => keeps_execKeyImport a b s (keeps_refl s)
  | .fabricDiscover _, _, h => nomatch h
  | .fabricRouteSet a b, s, _ => keeps_execFabricRouteSet a b s (keeps_refl s)
  | .geyserSet a, s, _ => keeps_execGeyserSet a s (keeps_refl s)
  | .fwUpdateBegin a, s, _ => keeps_execFwUpdateBegin a s (keeps_refl s)
  | .fwUpdateData a b, s, _ => keeps_execFwUpdateData a b s (keeps_refl s)
  | .fwUpdateCommit a, s, _ => keeps_execFwUpdateCommit a s (keeps_refl s)
  | .fwUpdateTimeout, s, _ => keeps_execFwUpdateTimeout s (keeps_refl s)
  | .telemetryRead a, s, _ => keeps_execTelemetryRead a s (keeps_refl s)
  | .powerCapSet a, s, _ => keeps_execPowerCapSet a s (keeps_refl s)
  | .setupWrite a b, s, _ => keeps_execSetupWrite a b s (keeps_refl s)
  | .bar4Read a b c d, s, _ => keeps_execBar4Read a b c d s (keeps_refl s)
  | .bar4Write a b c, s, _ => keeps_execBar4Write a b c s (keeps_refl s)
  | .registerWrite _ _ _, _, h => nomatch h
  | .broadcastWrite _ _ _, _, h => nomatch h
  | .broadcastRead a, s, _ => execBroadcastRead_keeps a s (keeps_refl s)
  | .fanoutTimeout a b c d e, s, _ => keeps_execFanoutTimeout a b c d e s (keeps_refl s)
  | .doeMessage a, s, _ => keeps_execDoeMessage a s (keeps_refl s)
  | .functionLevelReset, _, h => nomatch h
  | .glbResetWarm _, _, h => nomatch h
  | .glbResetCold _, _, h => nomatch h
  | .partitionReset a, s, _ => keeps_execPartitionReset a s (keeps_refl s)
  | .scrubWorkDone a, s, _ => keeps_execScrubWorkDone a s (keeps_refl s)
  | .plPacket a, s, _ => keeps_execPlPacket a s (keeps_refl s)
  | .plUserReg a, s, _ => keeps_execPlUserReg a s (keeps_refl s)
  | .gatewayWord a b c, s, _ => keeps_execGatewayWord a b c s (keeps_refl s)
  | .gwResyncDone a, s, _ => keeps_execGwResyncDone a s (keeps_refl s)
  | .pllLock a, s, _ => keeps_execPllLock a s (keeps_refl s)
  | .pllUnlock a, s, _ => keeps_execPllUnlock a s (keeps_refl s)
  | .cfgWrite a b c, s, _ => keeps_execCfgWrite a b c s (keeps_refl s)
  | .cfgRead a b, s, _ => keeps_execCfgRead a b s (keeps_refl s)
  | .cfgScrub a b c, s, _ => keeps_execCfgScrub a b c s (keeps_refl s)
  | .fumaroleSweep, s, _ => keeps_execFumaroleSweep s (keeps_refl s)
  | .hardenedBlockCheck a b, s, _ => keeps_execHardenedBlockCheck a b s (keeps_refl s)
  | .bringUpPhase, s, _ => keeps_execBringUpPhase s (keeps_refl s)
  | .capControl a, s, _ => keeps_execCapControl a s (keeps_refl s)
  | .ilimStep, s, _ => keeps_execIlimStep s (keeps_refl s)
  | .squallBegin a b, s, _ => keeps_execSquallBegin a b s (keeps_refl s)
  | .squallRailStep a, s, _ => keeps_execSquallRailStep a s (keeps_refl s)
  | .squallEnd a, s, _ => keeps_execSquallEnd a s (keeps_refl s)
  | .thermalTrip, _, h => nomatch h
  | .evtPop, s, _ => keeps_execEvtPop s (keeps_refl s)
  | .evtClear, s, _ => keeps_execEvtClear s (keeps_refl s)
  | .telemetrySample a, s, _ => keeps_execTelemetrySample a s (keeps_refl s)
  | .avsPoll a b c d, s, _ => keeps_execAvsPoll a b c d s (keeps_refl s)
  | .avsRetry a b, s, _ => keeps_execAvsRetry a b s (keeps_refl s)
  | .sidebandMessage a, s, _ => keeps_execSidebandMessage a s (keeps_refl s)
  | .jtagAccess a, s, _ => keeps_execJtagAccess a s (keeps_refl s)
  | .powerGood, _, h => nomatch h
  | .powerLoss, _, h => nomatch h
  | .coldResetPin _, _, h => nomatch h
  | .perst, _, h => nomatch h
  | .freeRspTimeout a, s, _ => keeps_execFreeRspTimeout a s (keeps_refl s)
  | .pcieCompletionTimeout a, s, _ => keeps_execPcieCompletionTimeout a s (keeps_refl s)
  | .badControlBlock a b, s, _ => keeps_execBadControlBlock a b s (keeps_refl s)
  | .uncorrectableCodeword a b c, s, _ => keeps_execUncorrectableCodeword a b c s (keeps_refl s)
  | .prbsCheckerLock a b c, s, _ => keeps_execPrbsCheckerLock a b c s (keeps_refl s)
  | .perstRelease, s, _ => keeps_execPerstRelease s (keeps_refl s)
  | .coldResetRelease, s, _ => keeps_execColdResetRelease s (keeps_refl s)
  | .userLogicAnswer a b c, s, _ => keeps_execUserLogicAnswer a b c s (keeps_refl s)
  | .flashOperationDone a, s, _ => keeps_execFlashOperationDone a s (keeps_refl s)

/-- Settles O3. -/
theorem beatRegistersChangeOnlyAtBeatCommands : Obligations.BeatRegistersChangeOnlyAtBeatCommands := by
  unfold Obligations.BeatRegistersChangeOnlyAtBeatCommands
  intro c s t hc h
  have k := exec_keeps_beats c s hc
  rw [h] at k
  exact k.beats rfl

/-! ### Gating, wakes and zeroing of a caldera -/

theorem Caldera.startWake_eq (c : Caldera) : c.startWake = { c with gated := false, waking := c.waking || c.gated } := by
  obtain ⟨gated⟩ := c
  cases gated
  · simp [Caldera.startWake]
  · simp [Caldera.startWake]

theorem State.modCal_at (s : State) (n : Fin 64) (f : Caldera → Caldera) : (s.modCal n f).cals[n] = f s.cals[n] :=
  vmod_get_same _ _ _

theorem State.modCal_other (s : State) (n m : Fin 64) (f : Caldera → Caldera) (h : m ≠ n) :
    (s.modCal n f).cals[m] = s.cals[m] :=
  vmod_get_ne _ _ _ _ h

/-- A caldera whose SRAM, accumulators, weight slots, DSP registers and check units read as zeroed, while its sticky flags
and its counters are those of `c` (R103, R127). -/
structure Caldera.Blank (c d : Caldera) : Prop where
  sram : d.sram = []
  arr : ∀ i : Fin 16, d.arrs[i] = { c.arrs[i] with acc := [], slotA := {}, slotB := {}, gen := 0x9E3779B9#32 }
  v : ∀ v : Fin 32, d.dsp.v[v] = 0
  ag : ∀ g : Fin 16, d.dsp.ag[g] = {}
  seed : d.dsp.seed = 0x9E3779B9#32
  chk : ∀ i : Fin 2, d.chk[i] = (c.chk[i]).sticky
  passCommits : d.passCommits = c.passCommits
  paceMin : d.paceMin = c.paceMin

theorem Caldera.zeroed_blank (c : Caldera) (wake : Bool) : c.Blank (c.zeroed wake) where
  sram := rfl
  arr _ := Vector.getElem_map ..
  v i := Vector.getElem_replicate i.isLt
  ag i := Vector.getElem_replicate i.isLt
  seed := rfl
  chk _ := Vector.getElem_map ..
  passCommits := rfl
  paceMin := rfl

/-- What a GATE that takes effect leaves of the caldera. -/
def Caldera.gatedOff (c : Caldera) (x : BitVec 512) : Caldera :=
  { (c.zeroed true) with gated := true, gatePending := false, dsp := (c.zeroed true).dsp.unkept x }

theorem Caldera.gatedOff_blank (c : Caldera) (x : BitVec 512) : c.Blank (c.gatedOff x) :=
  { c.zeroed_blank true with }

/-- What the end of the zeroing engine leaves of it. -/
def Caldera.wiped (c : Caldera) : Caldera := { c.zeroed c.waking with zeroing := false, waking := false }

theorem Caldera.wiped_blank (c : Caldera) : c.Blank c.wiped :=
  { c.zeroed_blank c.waking with }

theorem Caldera.wiped_xlog_waking (c : Caldera) (h : c.waking = true) : c.wiped.xlog = c.xlog := if_pos h

theorem Caldera.wiped_xlog (c : Caldera) (h : c.waking = false) : c.wiped.xlog = c.xlog.clear := if_neg (by simp [h])

theorem execGateEffect_pending (n : Fin 64) (s : State) (h : (s.cals[n]).gatePending = true) :
    execGateEffect n s = .next (s.draw.2.modCal n (fun c => c.gatedOff s.draw.1)) :=
  if_pos h

theorem execZeroingComplete_zeroing (n : Fin 64) (s : State) (h : (s.cals[n]).zeroing = true) :
    execZeroingComplete n s = .next (s.noteLate.modCal n Caldera.wiped) :=
  if_pos h

theorem exec_gate (n : Fin 64) (w : Bool) (s : State) (hs : s.serving = true) : exec (.gate n w) s =
    if s.gateRefused n w then .next (s.modCal n (fun c => if w then { c with gateRefused := true }.startWake else { c with gateRefused := true }))
    else .next (s.modCal n (fun c => { c with gatePending := !c.gated })) := by
  show execGate n w s = _
  unfold execGate
  rw [if_neg (by simp [hs])]

/-- Settles O13. -/
theorem gatingWakingAndZeroing : Obligations.GatingWakingAndZeroing := by
  unfold Obligations.GatingWakingAndZeroing
  refine ⟨fun n s hp => ?_, fun n s h => ?_, fun n s h => if_pos h, fun n s h => ?_⟩
  · have hs : s.serving = true := decide_eq_true hp
    have hn : ¬ (!s.serving) = true := by simp [hs]
    refine ⟨fun h => ?_, fun h => ?_, ?_, ?_, if_neg hn⟩
    · rw [exec_gate n _ s hs, h]; rfl
    · rw [exec_gate n _ s hs, h]; rfl
    · rw [exec_gate n _ s hs, if_pos (by simp [State.gateRefused])]
      simp only [if_true, Caldera.startWake_eq]
    · rw [← funext Caldera.startWake_eq]
      exact if_neg hn
  · have b : (s.cals[n]).Blank (s.draw.2.cals[n].gatedOff s.draw.1) := Caldera.gatedOff_blank _ _
    refine ⟨_, execGateEffect_pending n s h, rfl, fun m hm => State.modCal_other _ _ _ _ hm, ?_⟩
    rw [State.modCal_at]
    exact ⟨rfl, rfl, b.sram, rfl, fun i => by rw [b.arr i]; exact ⟨rfl, rfl, rfl, rfl⟩, b.v, b.ag, b.chk, rfl, rfl,
      b.passCommits, b.paceMin⟩
  · have b : (s.cals[n]).Blank (s.noteLate.cals[n]).wiped := Caldera.wiped_blank _
    refine ⟨_, execZeroingComplete_zeroing n s h, rfl, fun m hm => State.modCal_other _ _ _ _ hm, ?_⟩
    rw [State.modCal_at]
    refine ⟨rfl, rfl, fun _ => by rw [b.sram]; rfl, fun i => ?_, b.seed, b.v, Caldera.wiped_xlog_waking _, fun h => ?_⟩
    · rw [b.arr i]
      exact ⟨rfl, rfl, rfl, rfl, fun _ => rfl⟩
    · rw [Caldera.wiped_xlog (s.noteLate.cals[n]) h]
      exact ⟨rfl, rfl⟩

/-! ### Keys, routes, the beat's settings and probes as commands -/

theorem withCmd_started (s : State) (cmd op : Nat) (f : Cmd → State) (k : Cmd) (hk : s.findCmd cmd = some k)
    (hp : k.phase = .started) (hb : k.begun = false) (ho : pkOpcode k.packet = op) : s.withCmd cmd op f = .next (f k) := by
  simp [State.withCmd, hk, hp, hb, ho]

theorem findCmd_serial {s : State} {cmd : Nat} {k : Cmd} (h : s.findCmd cmd = some k) : k.serial = cmd := by
  simpa using List.find?_some h

/-- A completion changes the command processor alone. -/
theorem completeTo_frame (s : State) (serial : Nat) (ph : CmdPhase) (st : Nat) (d r0 : Word) (r1 : DWord) :
    s.completeTo serial ph st d r0 r1 = { s with cp := (s.completeTo serial ph st d r0 r1).cp } := by
  unfold State.completeTo
  split <;> rfl

theorem completeOk_frame (s : State) (serial : Nat) : s.completeOk serial = { s with cp := (s.completeOk serial).cp } :=
  completeTo_frame _ _ _ _ _ _ _

theorem completeOk_waiting (s : State) (serial : Nat) (k : Cmd) (h : s.findCmd serial = some k) :
    (s.completeOk serial).cp.waiting.length = s.cp.waiting.length + 1 := by
  simp [State.completeOk, State.complete, State.completeTo, h, State.modCp, State.modCmd]

/-- Where every check but those at one offset passes, a failed check is one at that offset. -/
theorem firstBad_only (l : List (Bool × Nat)) (o : Nat) (ho : ∀ x ∈ l, x.2 ≠ o → x.1 = false) (hm : (true, o) ∈ l) :
    firstBad l = some o := by
  have hs : (l.find? (fun x => x.1)).isSome := List.find?_isSome.2 ⟨_, hm, rfl⟩
  obtain ⟨x, hx⟩ := Option.isSome_iff_exists.1 hs
  have hxo : x.2 = o := by
    by_contra h
    have ht := List.find?_some hx
    rw [ho x (List.mem_of_find?_eq_some hx) h] at ht
    exact Bool.noConfusion ht
  simp [firstBad, hx, hxo]

theorem firstBad_none (l : List (Bool × Nat)) (h : ∀ x ∈ l, x.1 = false) : firstBad l = none := by
  have : l.find? (fun x => x.1) = none := List.find?_eq_none.2 (fun x hx => by simp [h x hx])
  simp [firstBad, this]

/-- Of the fields of a wrapped key, the one at 0xD4 fails exactly when the key does not open. -/
theorem keyChecks_opens (s : State) (p : Data1024) (b : List Byte) :
    ∀ x ∈ keyChecks s p b, x.2 = 0xD4 → x.1 = (openKey s b).isNone := by
  simp [keyChecks]

theorem keyChecks_mem (s : State) (p : Data1024) (b : List Byte) : ((openKey s b).isNone, 0xD4) ∈ keyChecks s p b := by
  simp [keyChecks]

/-- What a started KEY_IMPORT does, by the checks of its key. -/
theorem exec_keyImport (cmd : Nat) (b : List Byte) (k : Cmd) (s : State) (hk : s.findCmd cmd = some k)
    (hp : k.phase = .started) (hb : k.begun = false) (ho : pkOpcode k.packet = 0x61) :
    (s.ctxConf (pkCtx k.packet) = false → exec (.keyImport cmd b) s = .next (s.badParam k.serial 8 0x03)) ∧
    (s.ctxConf (pkCtx k.packet) = true → b.length = 228 →
      (∀ o, firstBad (keyChecks s k.packet b) = some o → exec (.keyImport cmd b) s = .next (s.keyFail k o)) ∧
      (∀ key, firstBad (keyChecks s k.packet b) = none → openKey s b = some key → exec (.keyImport cmd b) s =
        .next ((s.modSec (fun c => { c with ctxs := c.ctxs.map (fun x =>
          (x.1, if x.1 = (pkCtx k.packet).toNat then { x.2 with modelKey := some (ofBytes 256 key) } else x.2)) })).completeOk k.serial))) := by
  have e := fun f => withCmd_started s cmd 0x61 f k hk hp hb ho
  refine ⟨fun hc => ?_, fun hc hl => ⟨fun o h => ?_, fun key h hkey => ?_⟩⟩
  all_goals (refine (e _).trans ?_)
  · simp [hc]
  · simp [hc, hl, h]
  · simp [hc, hl, h, hkey]

/-- Route entries written in order at the places from `base + n` on. -/
def writeEntries (base n : Nat) (es : List DWord) (t : Tbl (BitVec 52)) : Tbl (BitVec 52) :=
  ((List.range' n es.length).zip es).foldl (fun t x => tset (0 : BitVec 52) t (base + x.1) (fld x.2 0 52)) t

theorem writeEntries_cons (base n : Nat) (e : DWord) (es : List DWord) (t : Tbl (BitVec 52)) :
    writeEntries base n (e :: es) t = writeEntries base (n + 1) es (tset 0 t (base + n) (fld e 0 52)) := by
  simp [writeEntries, List.range'_succ]

theorem tget_writeEntries_below (base n : Nat) (es : List DWord) (t : Tbl (BitVec 52)) (j : Nat) (h : j < base + n) :
    tget 0 (writeEntries base n es t) j = tget 0 t j := by
  induction es generalizing n t with
  | nil => simp [writeEntries]
  | cons e es ih => rw [writeEntries_cons, ih _ _ (by omega), tget_tset, if_neg (by omega)]

theorem tget_writeEntries (base n : Nat) (es : List DWord) (t : Tbl (BitVec 52)) (i : Nat) (e : DWord) (h : es[i]? = some e) :
    tget 0 (writeEntries base n es t) (base + n + i) = fld e 0 52 := by
  induction es generalizing n t i with
  | nil => simp at h
  | cons d es ih =>
    rw [writeEntries_cons]
    cases i with
    | zero =>
      obtain rfl : d = e := by simpa using h
      rw [tget_writeEntries_below _ _ _ _ _ (by omega), tget_tset]
      exact if_pos rfl
    | succ i =>
      rw [show base + n + (i + 1) = base + (n + 1) + i by omega]
      exact ih _ _ _ (by simpa using h)

/-- What a started FABRIC_ROUTE_SET does. -/
theorem exec_fabricRouteSet (cmd : Nat) (es : List DWord) (k : Cmd) (s : State) (hk : s.findCmd cmd = some k)
    (hp : k.phase = .started) (hb : k.begun = false) (ho : pkOpcode k.packet = 0x71) (hl : es.length = rnum k.packet 0x12 0 11) :
    exec (.fabricRouteSet cmd es) s =
      .next ((s.modFab (fun b => { b with routes := writeEntries (rnum k.packet 0x10 0 10) 0 es b.routes })).completeOk k.serial) := by
  refine (withCmd_started s cmd 0x71 _ k hk hp hb ho).trans ?_
  rw [if_neg (not_not.2 hl), List.range_eq_range']
  rfl

/-- What a started GEYSER_SET does: it is refused at its first bad field, or the source takes its setting. -/
theorem exec_geyserSet (cmd : Nat) (k : Cmd) (s : State) (hk : s.findCmd cmd = some k)
    (hp : k.phase = .started) (hb : k.begun = false) (ho : pkOpcode k.packet = 0x72) :
    exec (.geyserSet cmd) s = .next
      (if s.glb.isSource = false then s.badParam k.serial 8 0x10
      else if (rfld k.packet 0x10 0 16 : BitVec 16) ≠ 0 ∧ ((rfld k.packet 0x10 0 16 : BitVec 16).toNat < 64
        ∨ (rfld k.packet 0x10 0 16 : BitVec 16).toNat ≤ s.fab.delay.toNat) then s.badParam k.serial 8 0x10
      else if (rfld k.packet 0x18 0 64 : DWord).toNat ≤ s.glb.fixedBeat.toNat then s.badParam k.serial 8 0x18
      else (s.modGlb (fun g => { g with source := { g.source with sets := g.source.sets ++ [(rfld k.packet 0x18 0 64, rfld k.packet 0x10 0 16,
        if bitAt k.packet 144 then some (rfld k.packet 0x14 0 10) else none)] } })).completeOk k.serial) := by
  refine (withCmd_started s cmd 0x72 _ k hk hp hb ho).trans ?_
  simp only [Bool.not_eq_true', Nat.reduceMul]

/-- A started FABRIC_DISCOVER whose probe leaves by a port. -/
theorem exec_fabricDiscover_forward (cmd : Nat) (k : Cmd) (s : State) (hk : s.findCmd cmd = some k)
    (hp : k.phase = .started) (hb : k.begun = false) (ho : pkOpcode k.packet = 0x70) (q : Fin 12) (p1 : BitVec 1920)
    (hf : s.probeStep (putFld (at_ 1920 0 (rfld k.packet 0x10 0 384)) 256 s.glb.beatCnt) = .forward q p1) :
    exec (.fabricDiscover cmd) s = .next (((s.begin k.serial).modFab (fun b => { b with probesOut := b.probesOut ++
      [{ tag := pbReq (putFld (at_ 1920 0 (rfld k.packet 0x10 0 384)) 256 s.glb.beatCnt), since := s.now, cmd := k.serial }] })).sendOn
        q none (mkFlit 0 (pbOrig (putFld (at_ 1920 0 (rfld k.packet 0x10 0 384)) 256 s.glb.beatCnt)) 2 9 0 false p1)) := by
  refine (withCmd_started s cmd 0x70 _ k hk hp hb ho).trans ?_
  simp only [Nat.reduceMul, hf]
  rfl

/-- Settles O47: each command by its checks, its route entries by induction on their list. -/
theorem keyRouteAndBeatCommands : Obligations.KeyRouteAndBeatCommands := by
  unfold Obligations.KeyRouteAndBeatCommands
  intro cmd k s hk hp hb
  refine ⟨fun b ho => ?_, fun es ho hl => ?_, fun ho => ?_, fun ho p hpl q p1 hf => ?_⟩
  · obtain ⟨hopen, hconf⟩ := exec_keyImport cmd b k s hk hp hb ho
    refine ⟨hopen, fun hc hl => ?_⟩
    obtain ⟨hbad, hgood⟩ := hconf hc hl
    refine ⟨hbad, fun hall => ?_⟩
    cases hkey : openKey s b with
    | none =>
      have hm : (true, 0xD4) ∈ keyChecks s k.packet b := by
        simpa [hkey] using keyChecks_mem s k.packet b
      exact ⟨_, hbad _ (firstBad_only _ _ hall hm), fun _ => rfl, nofun⟩
    | some key =>
      have hnone : firstBad (keyChecks s k.packet b) = none := firstBad_none _ fun x hx => by
        by_cases hx2 : x.2 = 0xD4
        · rw [keyChecks_opens s k.packet b x hx hx2, hkey]; rfl
        · exact hall x hx hx2
      refine ⟨_, hgood key hnone hkey, nofun, ?_⟩
      rintro key' ⟨⟩
      rw [completeOk_frame]
      exact ⟨rfl, rfl⟩
  · refine ⟨_, exec_fabricRouteSet cmd es k s hk hp hb ho hl, ?_, ?_, fun i e hi => ?_⟩
    · rw [completeOk_frame]; rfl
    · exact completeOk_waiting _ _ k (by rw [findCmd_serial hk]; exact hk)
    · rw [completeOk_frame]
      exact tget_writeEntries _ 0 es _ i e hi
  · have e := exec_geyserSet cmd k s hk hp hb ho
    refine ⟨fun hs => ?_, fun hs => ⟨fun h0 h64 => ?_, fun h0 hbeat => ?_, fun hn hbeat => ?_⟩⟩
    all_goals (rw [e, hs])
    · rw [if_pos rfl]
    · rw [if_neg Bool.noConfusion, if_pos ⟨h0, .inl h64⟩]
    · rw [if_neg Bool.noConfusion, if_neg (fun h => h.1 h0), if_pos hbeat]
    · have hok : ¬((rfld k.packet 0x10 0 16 : BitVec 16) ≠ 0 ∧ ((rfld k.packet 0x10 0 16 : BitVec 16).toNat < 64
          ∨ (rfld k.packet 0x10 0 16 : BitVec 16).toNat ≤ s.fab.delay.toNat)) := by
        rintro ⟨h0, hlow⟩
        rcases hn with h | h
        · exact h0 h
        · omega
      rw [if_neg Bool.noConfusion, if_neg hok, if_neg (by omega)]
      refine ⟨_, if bitAt k.packet 144 then some (rfld k.packet 0x14 0 10) else none, rfl, ?_⟩
      rw [completeOk_frame]
      exact ⟨rfl, fun h => by rw [h]; rfl, fun h => if_pos h, rfl, rfl⟩
  · subst hpl
    refine ⟨_, exec_fabricDiscover_forward cmd k s hk hp hb ho q p1 hf, ?_, fun r hr => vmod_get_ne _ _ _ _ hr,
      _, rfl, rfl, rfl, rfl⟩
    rw [State.sendOn, State.modPort_ports, vmod_get_same]
    rfl

/-! ### What raising an event changes, field by field -/

/-- Raising an event changes, beside the ports' queues, the event registers and the logs, packets and counters that carry
events (R395, R396). -/
def EventOnly (s t : State) : Prop :=
  t = { s with
    pwr := { s.pwr with event := t.pwr.event, evlog := t.pwr.evlog, sideband := t.pwr.sideband }
    cp := { s.cp with out := t.cp.out }
    fab := { s.fab with event := t.fab.event, routeDrop := t.fab.routeDrop, mgmtIn := t.fab.mgmtIn }
    ports := t.ports }

theorem EventOnly.refl (s : State) : EventOnly s s := rfl

theorem EventOnly.trans {s t u : State} (h : EventOnly s t) (k : EventOnly t u) : EventOnly s u := by
  unfold EventOnly at *
  rw [k, h]

theorem EventOnly.pwr {s t : State} (h : EventOnly s t) :
    t.pwr = { s.pwr with event := t.pwr.event, evlog := t.pwr.evlog, sideband := t.pwr.sideband } :=
  congrArg State.pwr h

theorem EventOnly.cp {s t : State} (h : EventOnly s t) : t.cp = { s.cp with out := t.cp.out } :=
  congrArg State.cp h

theorem EventOnly.fab {s t : State} (h : EventOnly s t) :
    t.fab = { s.fab with event := t.fab.event, routeDrop := t.fab.routeDrop, mgmtIn := t.fab.mgmtIn } :=
  congrArg State.fab h

theorem EventOnly.raised {s t : State} (h : EventOnly s t) : Raised s t := by
  unfold Raised
  rw [h]

theorem sendTo_eventOnly (s : State) (a : Option (Fin 12)) (f : Data2048) : EventOnly s (s.sendTo a f).1 := by
  unfold State.sendTo
  split
  · split <;> rfl
  · rfl

theorem logEvent_eventOnly (s : State) (cls : Nat) (r : BitVec 256) : EventOnly s (s.logEvent cls r).1 := by
  unfold State.logEvent
  extract_lets s1 s2
  have h2 : EventOnly s s2 := by
    unfold s2
    split <;> rfl
  clear_value s2
  split
  · split
    · exact h2.trans rfl
    · exact h2.trans (sendTo_eventOnly _ _ _)
  · exact h2

theorem noteRouteDrop_eventOnly (s : State) : EventOnly s s.noteRouteDrop := by
  unfold State.noteRouteDrop
  split
  · exact EventOnly.refl s
  · refine EventOnly.trans ?_ (logEvent_eventOnly _ _ _)
    rfl

theorem raise_eventOnly (s : State) (cls code unit sev : Nat) (d0 d1 : Word) : EventOnly s (s.raise cls code unit sev d0 d1) := by
  unfold State.raise
  dsimp only
  split
  · exact (logEvent_eventOnly _ _ _).trans (noteRouteDrop_eventOnly _)
  · exact logEvent_eventOnly _ _ _

theorem pwrEvent_eventOnly (s : State) (bit unit sev : Nat) (d1 : Word) : EventOnly s (s.pwrEvent bit unit sev d1) := by
  unfold State.pwrEvent
  split
  · exact EventOnly.refl s
  · refine EventOnly.trans ?_ (raise_eventOnly _ _ _ _ _ _ _)
    rfl

theorem fabEvent_eventOnly (s : State) (bit unit : Nat) : EventOnly s (s.fabEvent bit unit) := by
  unfold State.fabEvent
  split
  · exact EventOnly.refl s
  · refine EventOnly.trans ?_ (raise_eventOnly _ _ _ _ _ _ _)
    rfl

theorem secEvent_set (s : State) (bit unit : Nat) (d1 : Word) (hb : bit < 4) :
    (s.secEvent bit unit d1).sec.event.getLsbD bit = true := by
  unfold State.secEvent
  split
  · assumption
  · dsimp only
    rw [(raise_frame _ _ _ _ _ _ _).sec]
    simp [State.modSec, hb]

/-! ### What a reset leaves (R305) -/

/-- A flash operation that is cut off changes the flash, and may draw a free value. -/
theorem cutFlash_frame (s : State) : s.cutFlash = { s with pwr := { s.pwr with flash := s.cutFlash.pwr.flash }, free := s.cutFlash.free } := by
  unfold State.cutFlash
  split <;> rfl

/-- The event of an update that a reset cut off. -/
def State.noteUpdate (s : State) (update : Bool) : State := if update then s.pwrEvent 9 0 1 s.pwrStatus else s

theorem noteUpdate_eventOnly (s : State) (u : Bool) : EventOnly s (s.noteUpdate u) := by
  unfold State.noteUpdate
  split
  · exact pwrEvent_eventOnly _ _ _ _ _
  · exact EventOnly.refl s

/-- What every class of reset leaves of `s`: the waiting commands, the fuses and the time stay, and no plan, command or
byte of stacked memory is left. -/
structure WipedFrom (s t : State) : Prop where
  pending : t.pending = s.pending
  now : t.now = s.now
  floor : t.glb.floorPace = s.glb.floorPace
  lifecycle : t.sec.lifecycle = s.sec.lifecycle
  svn : t.sec.svn = s.sec.svn
  coldRstN : t.pins.coldRstN = s.pins.coldRstN
  plans : t.plans = []
  cmds : t.cp.cmds = []
  hbm : t.hbm = []
  beatStart : t.glb.beatStart = s.now
  lastEmit : t.glb.source.lastEmit = s.now

theorem clear_wiped (s : State) : WipedFrom s s.cutFlash.clear := by
  rw [cutFlash_frame]
  exact ⟨rfl, rfl, rfl, rfl, rfl, rfl, rfl, rfl, rfl, rfl, rfl⟩

/-- Raising an event takes nothing of it away. -/
theorem WipedFrom.raised {s t u : State} (h : WipedFrom s t) (k : EventOnly t u) : WipedFrom s u := by
  obtain ⟨hq, hn, hf, hl, hv, hc, hp, hm, hh, hb, he⟩ := h
  rw [k]
  exact ⟨hq, hn, hf, hl, hv, hc, hp, hm, hh, hb, he⟩

/-- The state of a cold reset before the event of an update that it cut off. -/
def State.coldCleared (s : State) (cause : Nat) : State :=
  s.cutFlash.clear.modGlb (fun g => { g with resetCause := BitVec.twoPow 6 cause })

theorem coldReset_eventOnly (s : State) (c : Nat) : EventOnly (s.coldCleared c) (s.coldReset c) :=
  noteUpdate_eventOnly (s.coldCleared c) s.pwr.update.isSome

theorem coldCleared_wiped (s : State) (c : Nat) : WipedFrom s (s.coldCleared c) := by
  obtain ⟨hq, hn, hf, hl, hv, hc, hp, hm, hh, hb, he⟩ := clear_wiped s
  exact ⟨hq, hn, hf, hl, hv, hc, hp, hm, hh, hb, he⟩

theorem coldReset_wiped (s : State) (c : Nat) : WipedFrom s (s.coldReset c) :=
  (coldCleared_wiped s c).raised (coldReset_eventOnly s c)

theorem coldReset_glb (s : State) (c : Nat) : (s.coldReset c).glb = (s.coldCleared c).glb :=
  (coldReset_eventOnly s c).raised.glb

theorem coldReset_phase (s : State) (c : Nat) : (s.coldReset c).pwr.phase = 1 ∧ (s.coldReset c).pwr.phaseDone = false := by
  rw [(coldReset_eventOnly s c).pwr]
  exact ⟨rfl, rfl⟩

/-- The state of a warm reset before the event of an update that it cut off. -/
def State.warmCleared (s : State) (cause : Nat) : State :=
  let s1 := s.cutFlash.clear
  { s1 with
    glb := { s1.glb with beatCnt := s.glb.beatCnt, scratch := s.glb.scratch, bbl := s.glb.bbl
                         resetCause := s.glb.resetCause ||| BitVec.twoPow 6 cause }
    hbmStacks := s.hbmStacks.map Stack.afterWarm
    cfg := { s1.cfg with refBad := s.cfg.refBad }
    sec := { s1.sec with debugUsed := s.sec.debugUsed }
    pwr := { s1.pwr with phase := if s.pwr.phase == 1 && !s.pwr.phaseDone then 1 else 2 } }

theorem warmReset_eventOnly (s : State) (c : Nat) : EventOnly (s.warmCleared c) (s.warmReset c) :=
  noteUpdate_eventOnly (s.warmCleared c) s.pwr.update.isSome

theorem warmReset_wiped (s : State) (c : Nat) : WipedFrom s (s.warmReset c) := by
  obtain ⟨hq, hn, hf, hl, hv, hc, hp, hm, hh, hb, he⟩ := clear_wiped s
  have h : WipedFrom s (s.warmCleared c) := ⟨hq, hn, hf, hl, hv, hc, hp, hm, hh, hb, he⟩
  exact h.raised (warmReset_eventOnly s c)

/-- What a warm reset leaves that a cold one loses (R305). -/
theorem warmReset_retained (s : State) (c : Nat) : (s.warmReset c).glb.beatCnt = s.glb.beatCnt
    ∧ (s.warmReset c).glb.scratch = s.glb.scratch ∧ (s.warmReset c).glb.bbl = s.glb.bbl := by
  rw [(warmReset_eventOnly s c).raised.glb]
  exact ⟨rfl, rfl, rfl⟩

/-- At 115 °C or more a running device trips: what a power loss loses is lost (R399). -/
theorem exec_thermalTrip (s : State) : exec .thermalTrip s = .next
    (if s.running ∧ s.pwr.temps.any (fun t => decide (460 ≤ t.toInt)) then
      { s.cutFlash.clear with
        glb := { s.cutFlash.clear.glb with resetCause := 1 }, cfg := {}
        pins := { s.cutFlash.clear.pins with thermtripN := false }
        pwr := { s.cutFlash.clear.pwr with tripped := true } }
    else s) := by
  show execThermalTrip s = _
  unfold execThermalTrip
  split <;> rfl

/-! ### Partition resets and the end of a scrub (R369, R371) -/

theorem abortAll_nil (s : State) (ctxs : List Byte) (x : Option Nat) (h : s.cp.cmds = []) : s.abortAll ctxs x = s := by
  simp [State.abortAll, h]

theorem runDestroys_nil (s : State) (p : Fin 8) (h : s.cp.cmds = []) : s.runDestroys p = s := by
  simp [State.runDestroys, h]

theorem exec_partitionReset (w : Word) (s : State) (h : s.winOpen .sec 0x20 = true) :
    exec (.partitionReset w) s = .next (s.partitionReset w) :=
  if_pos h

/-- With no command outstanding, a scrub that begins puts itself at the end of those due. -/
theorem beginScrub_nil (s : State) (ctxs : List Byte) (part : Option (Fin 8)) (cmd : Option Nat) (h : s.cp.cmds = []) :
    (s.beginScrub ctxs part cmd).sec.parts = s.sec.parts ∧ ∃ x : Scrub,
      (s.beginScrub ctxs part cmd).sec.scrubs = s.sec.scrubs ++ [x] ∧ x.part = part ∧ x.ctxs = ctxs ∧ x.cmd = cmd ∧ x.startBeat = none := by
  unfold State.beginScrub
  dsimp only
  rw [abortAll_nil]
  · exact ⟨rfl, _, rfl, rfl, rfl, rfl, rfl⟩
  · exact h

/-- What the end of a scrub leaves in the SEC block: the scrub and its contexts are gone, its budget is noted. -/
structure ScrubGone (sc : Scrub) (t : State) : Prop where
  scrubs : sc ∉ t.sec.scrubs
  budget : t.sec.scrubBudget = BitVec.ofNat 64 sc.budget
  ctxs : ∀ e ∈ t.sec.ctxs, ∀ i ∈ sc.ctxs, i.toNat ≠ e.1

theorem ScrubGone.congr {sc : Scrub} {s t : State} (h : ScrubGone sc s) (hs : t.sec.scrubs = s.sec.scrubs)
    (hb : t.sec.scrubBudget = s.sec.scrubBudget) (hc : t.sec.ctxs = s.sec.ctxs) : ScrubGone sc t :=
  ⟨hs ▸ h.scrubs, hb ▸ h.budget, hc ▸ h.ctxs⟩

/-- The lists of a scrub's end: it and its contexts are filtered out, and TAP access follows the scrubs that are left. -/
def State.dropScrub (s : State) (sc : Scrub) : State :=
  let s1 := s.modSec (fun c =>
    { c with
      scrubs := c.scrubs.filter (fun x => x != sc), scrubBudget := BitVec.ofNat 64 sc.budget, scrubBeats := BitVec.ofNat 32 sc.beats
      ctxs := c.ctxs.filter (fun x => !sc.ctxs.any (fun i => i.toNat == x.1)) })
  { s1 with pins := { s1.pins with tapOn := !s1.sec.scrubs.any (fun x => x.startBeat.isSome) } }

theorem dropScrub_gone (s : State) (sc : Scrub) : ScrubGone sc (s.dropScrub sc) where
  scrubs h := by
    have h2 := List.of_mem_filter h
    simp at h2
  budget := rfl
  ctxs e he i hi hie := by
    have h2 := List.of_mem_filter he
    rw [Bool.not_eq_true', List.any_eq_false] at h2
    exact h2 i hi (by simp [hie])

theorem endScrub_gone (s : State) (sc : Scrub) : ScrubGone sc (s.endScrub sc) := by
  unfold State.endScrub
  extract_lets beats s1 pins s2 s3
  have h2 : ScrubGone sc s2 := dropScrub_gone s sc
  have h3 : ScrubGone sc s3 := by
    unfold s3
    split
    · rw [State.complete, completeTo_frame]
      exact h2.congr rfl rfl rfl
    · exact h2
  clear_value s3
  split
  · exact h3.congr rfl rfl rfl
  · exact h3

theorem execScrubWorkDone_found (c : Byte) (sc : Scrub) (s : State)
    (h : s.sec.scrubs.find? (fun x => x.startBeat.isSome && x.ctxs.contains c) = some sc) : execScrubWorkDone c s = .next
      (if sc.late ∧ !s.scrubWorks sc then (s.endScrub sc).secEvent 1 (((s.ctx c).map (fun x => x.part.val)).getD 0) (c.setWidth 32) else s) := by
  unfold execScrubWorkDone
  rw [h]
  dsimp only
  split <;> rfl

theorem secEvent_gone {sc : Scrub} {s : State} (h : ScrubGone sc s) (bit unit : Nat) (d1 : Word) : ScrubGone sc (s.secEvent bit unit d1) := by
  have e := (secEvent_frame s bit unit d1).sec
  exact h.congr (by rw [e]) (by rw [e]) (by rw [e])

/-! ### The causes of a reset -/

theorem twoPow_cold : BitVec.twoPow 6 0 = 1 ∧ BitVec.twoPow 6 1 = 2 := by decide

/-- PWR_OK rises: a cold reset of the state in which, for a tripped device, a free value has been drawn. -/
theorem powerGood_reset (s : State) (h : s.pins.pwrOk = false) : ∃ (d : State) (still : Bool) (u : State),
    exec .powerGood s = .next u ∧ d.now = s.now ∧ (s.pwr.tripped = false → still = false) ∧
    u = { d.coldReset (if s.pins.coldRstN then 0 else 1) with
      pins := { (d.coldReset (if s.pins.coldRstN then 0 else 1)).pins with pwrOk := true, thermtripN := !still }
      pwr := { (d.coldReset (if s.pins.coldRstN then 0 else 1)).pwr with tripped := still } } := by
  refine ⟨(if s.pwr.tripped then s.draw else (0, s)).2, s.pwr.tripped && !bitAt (if s.pwr.tripped then s.draw else (0, s)).1 0, _,
    if_neg (by simp [h]), ?_, fun ht => by simp [ht], rfl⟩
  split <;> rfl

theorem exec_perst (s : State) (hp : s.pins.perstN = true) (hr : s.running = true) :
    exec .perst s = .next { s.warmReset 3 with pins := { (s.warmReset 3).pins with perstN := false } } := by
  show execPerst s = _
  simp [execPerst, hp, hr]

/-- PERST_N rises: phase 2 follows a phase 1 that is done. -/
theorem exec_perstRelease (s : State) (hp : s.pins.perstN = false) : exec .perstRelease s = .next
    (if s.running ∧ s.pwr.phase = 1 ∧ s.pwr.phaseDone then
      { s with pins := { s.pins with perstN := true }, pwr := { s.pwr with phase := 2, phaseDone := false } }
    else { s with pins := { s.pins with perstN := true } }) := by
  show execPerstRelease s = _
  unfold execPerstRelease
  rw [if_neg (by simp [hp])]
  dsimp only
  split <;> rfl

theorem exec_coldResetPin_long (n : Nat) (s : State) (hp : s.pins.pwrOk = true) (hn : 10000 ≤ n) : exec (.coldResetPin n) s =
    .next { s.coldReset 1 with
      pins := { (s.coldReset 1).pins with coldRstN := false }, pwr := { (s.coldReset 1).pwr with tripped := s.pwr.tripped } } := by
  show execColdResetPin n s = _
  simp [execColdResetPin, hp, hn, show ¬n < 1000 by omega]

theorem exec_coldResetPin_noPower (n : Nat) (s : State) (hp : s.pins.pwrOk = false) (hn : 1000 ≤ n) :
    exec (.coldResetPin n) s = .next { s with pins := { s.pins with coldRstN := false } } := by
  show execColdResetPin n s = _
  simp [execColdResetPin, hp, show ¬n < 1000 by omega]

/-- A junction at 115 °C or more is one of the sensors that the trip looks at. -/
theorem hot_iff (t : Vector (BitVec 16) 96) :
    t.any (fun t => decide (460 ≤ t.toInt)) = true ↔ ∃ i : Fin 96, 460 ≤ (t[i] : BitVec 16).toInt := by
  simp only [Vector.any_eq_true, decide_eq_true_eq, Fin.getElem_fin]
  exact ⟨fun ⟨i, hi, h⟩ => ⟨⟨i, hi⟩, h⟩, fun ⟨i, h⟩ => ⟨i.val, i.isLt, h⟩⟩

theorem partitionReset_ignored (w : Word) (s : State) (p : Fin 8) (hp : p.val = nfld w 0 3)
    (h : nfld w 16 16 ≠ 0xD05E ∨ bitAt w 3 = false ∨ (s.sec.parts[p]).resetting = true) : s.partitionReset w = s := by
  obtain rfl : p = Fin.ofNat 8 (nfld w 0 3) := Fin.ext (hp.trans (Nat.mod_eq_of_lt (hp ▸ p.isLt)).symm)
  refine if_neg ?_
  rintro ⟨hk, hr, hs⟩
  rcases h with h | h | h
  · exact h hk
  · exact Bool.noConfusion (h.symm.trans hr)
  · rw [h] at hs
    exact Bool.noConfusion hs

/-- With its key, and no command outstanding: the partition is RESETTING and one scrub of its contexts is due. -/
theorem partitionReset_keyed (w : Word) (s : State) (p : Fin 8) (hp : p.val = nfld w 0 3) (hk : nfld w 16 16 = 0xD05E)
    (hr : bitAt w 3 = true) (hs : (s.sec.parts[p]).resetting = false) (hc : s.cp.cmds = []) : ∃ x : Scrub,
      ((s.partitionReset w).sec.parts[p]).resetting = true ∧ (s.partitionReset w).sec.scrubs = s.sec.scrubs ++ [x] ∧ x.part = some p
        ∧ x.ctxs = ((s.ctxsOf p).filter (fun e => !e.2.scrubbing)).map (fun e => BitVec.ofNat 8 e.1) ∧ x.cmd = none ∧ x.startBeat = none := by
  obtain rfl : p = Fin.ofNat 8 (nfld w 0 3) := Fin.ext (hp.trans (Nat.mod_eq_of_lt (hp ▸ p.isLt)).symm)
  rw [State.partitionReset, if_pos ⟨hk, hr, by rw [hs]; rfl⟩]
  dsimp only
  rw [runDestroys_nil _ _ hc]
  obtain ⟨hparts, x, hx, hpart, hctx, hcmd, hstart⟩ := beginScrub_nil (s.modSec _) (((State.ctxsOf _ _).filter _).map _) _ _ hc
  exact ⟨x, (congrArg (fun v : Vector Part 8 => v[Fin.ofNat 8 (nfld w 0 3)].resetting) hparts).trans
    (congrArg Part.resetting (vmod_get_same _ _ _)), hx, hpart, hctx, hcmd, hstart⟩

/-- Settles O57: every reset through `WipedFrom`, a partition reset with no command outstanding, and the end of a scrub. -/
theorem resetsAndScrubs : Obligations.ResetsAndScrubs := by
  unfold Obligations.ResetsAndScrubs
  refine ⟨⟨fun c s => ?_, fun c s => ?_, fun s => ⟨fun h => if_pos h, fun h => if_neg (by simp [h])⟩, exec_perst,
    fun s hp => ⟨fun hr h1 hd => ?_, fun h1 => ?_⟩, fun n s hp => ⟨fun hn => if_pos hn, fun hn => ?_⟩, exec_coldResetPin_noPower,
    fun s hc => if_neg (by simp [hc]), fun s => ?_, fun s hp => ?_, fun s => ⟨fun hr ht => ?_, fun ht => ?_⟩⟩,
    fun w s hw p hp => ⟨fun h => ?_, fun hk hr hs hc => ?_⟩, fun c sc s hf => ⟨fun h => ?_, fun hl hw => ?_⟩⟩
  · have k := warmReset_wiped s c
    obtain ⟨hcnt, hscratch, hbbl⟩ := warmReset_retained s c
    exact ⟨k.pending, k.now, hcnt, hscratch, hbbl, k.plans, k.cmds,
      k.lifecycle, k.svn, k.floor⟩
  · have k := coldReset_wiped s c
    have hg := coldReset_glb s c
    exact ⟨k.pending, k.now, congrArg Glb.beatCnt hg, k.hbm, congrArg Glb.resetCause hg, (coldReset_phase s c).1,
      congrArg Glb.scratch hg, k.lifecycle, k.plans⟩
  · exact ⟨_, (exec_perstRelease s hp).trans (by rw [if_pos ⟨hr, h1, hd⟩]), rfl⟩
  · rw [exec_perstRelease s hp, if_neg (fun h => h1 h.2.1)]
  · exact ⟨_, exec_coldResetPin_long n s hp hn, rfl, (congrArg Glb.resetCause (coldReset_glb s 1)).trans twoPow_cold.2,
      (coldReset_phase s 1).1, (coldReset_wiped s 1).hbm, rfl⟩
  · exact ⟨_, rfl, rfl, (clear_wiped s).hbm, (clear_wiped s).plans, rfl, rfl⟩
  · obtain ⟨d, still, u, he, hn, hst, rfl⟩ := powerGood_reset s hp
    have k := coldReset_wiped d (if s.pins.coldRstN then 0 else 1)
    have hg := coldReset_glb d (if s.pins.coldRstN then 0 else 1)
    obtain ⟨hph, hdone⟩ := coldReset_phase d (if s.pins.coldRstN then 0 else 1)
    refine ⟨_, he, rfl, rfl, hph, hdone, hst, (congrArg Glb.resetCause hg).trans ?_, congrArg Glb.beatCnt hg,
      k.beatStart.trans hn, k.lastEmit.trans hn, k.hbm, k.plans⟩
    cases s.pins.coldRstN
    · exact twoPow_cold.2
    · exact twoPow_cold.1
  · rw [exec_thermalTrip, if_pos ⟨hr, (hot_iff _).2 ht⟩]
    exact ⟨_, rfl, rfl, rfl, Bool.and_false _, (clear_wiped s).hbm⟩
  · rw [exec_thermalTrip, if_neg]
    rintro ⟨-, h⟩
    obtain ⟨i, hi⟩ := (hot_iff _).1 h
    exact absurd (ht i) (not_lt.2 hi)
  · rw [exec_partitionReset w s hw, partitionReset_ignored w s p hp h]
  · obtain ⟨x, h⟩ := partitionReset_keyed w s p hp hk hr hs hc
    exact ⟨_, x, exec_partitionReset w s hw, h⟩
  · refine (execScrubWorkDone_found c sc s hf).trans ?_
    rw [if_neg]
    rintro ⟨hl, hw⟩
    rcases h with h | h
    · exact Bool.noConfusion (h.symm.trans hl)
    · rw [h] at hw
      exact Bool.noConfusion hw
  · refine ⟨_, (execScrubWorkDone_found c sc s hf).trans (by rw [if_pos ⟨hl, by rw [hw]; rfl⟩]), secEvent_set _ _ _ _ (by omega), ?_⟩
    obtain ⟨hscrubs, hbudget, hctxs⟩ := secEvent_gone (endScrub_gone s sc) 1 (((s.ctx c).map (fun x => x.part.val)).getD 0) (c.setWidth 32)
    exact ⟨hscrubs, hbudget, hctxs⟩

/-! ### The next pulse and its emission (R24, R27, R245) -/

/-- What PULSE_EMISSION does where its event occurs. -/
def State.emitted (s : State) : State :=
  let p := s.glb.source.announced.getD (s.glb.nextPulse s.fab.id)
  let o := if s.glb.source.announced.isSome then s.glb.source else s.glb.source.announce p
  s.modGlb (fun g => { g with
    pulses := g.pulses ++ [p]
    source := { o with announced := none, secondSent := false, lastEmit := p.due, stretchS := o.stretchT, squallL := o.squallM,
                       stretchT := 0, squallM := 0 } })

theorem exec_pulseEmission (s : State) : exec .pulseEmission s = .next
    (if s.running ∧ s.glb.isSource ∧ s.glb.pulses.all (fun p => (s.heirOf p).isNone) ∧ s.glb.nextEmission ≤ s.now
      then s.emitted else s) := by
  show execPulseEmission s = _
  unfold execPulseEmission
  dsimp only
  split <;> rfl

/-- The pulse that is emitted is due at the emission, whether it has been announced or not. -/
theorem emitted_due (s : State) : s.emitted.glb.source.lastEmit = s.glb.nextEmission := by
  show (s.glb.source.announced.getD (s.glb.nextPulse s.fab.id)).due = _
  cases h : s.glb.source.announced with
  | none => rfl
  | some p => simp [Glb.nextEmission, h]

/-- A source with nothing announced, reported or set. -/
structure Glb.Quiet (g : Glb) : Prop where
  announced : g.source.announced = none
  stretchS : g.source.stretchS = 0
  squallL : g.source.squallL = 0
  pulses : g.pulses = []
  sets : g.source.sets = []
  notices : g.source.notices = []

theorem Glb.Quiet.nextEmission {g : Glb} (h : g.Quiet) : g.nextEmission = g.source.lastEmit + g.period.toNat := by
  simp [Glb.nextEmission, Glb.lastPeriod, h.announced, h.stretchS, h.squallL, h.pulses]

theorem Glb.Quiet.nextPulse {g : Glb} (h : g.Quiet) (src : BitVec 10) : g.nextPulse src =
    { beat := g.beatCnt + 1, due := g.source.lastEmit + g.period.toNat, period := g.period, srcId := src } := by
  simp [Glb.nextPulse, h.nextEmission, Glb.lastBeat, Glb.lastPeriod, h.stretchS, h.squallL, h.pulses, h.sets, h.notices]

/-! ### The blocks of a pulse on the output ports (R243, R245) -/

theorem geyserOut_modPort_ne (s : State) (p q : Fin 12) (f : Port → Port) (h : q ≠ p) :
    (s.modPort p f).geyserOut q = s.geyserOut q := by
  unfold State.geyserOut
  rw [State.modPort_ports, vmod_get_ne _ _ _ _ h]
  rfl

/-- One port's turn of a GEYSER block. -/
def State.geyserOn (body : Data256) (s : State) (p : Fin 12) : State :=
  if s.geyserOut p then s.modPort p (fun q => q.sendBlock 0x55 body) else s

theorem geyserOn_frame (body : Data256) (s : State) (p : Fin 12) : s.geyserOn body p = { s with ports := (s.geyserOn body p).ports } := by
  unfold State.geyserOn
  split <;> rfl

theorem geyserOn_same (body : Data256) (s : State) (p : Fin 12) : (s.geyserOn body p).ports[p] =
    if s.geyserOut p then (s.ports[p]).sendBlock 0x55 body else s.ports[p] := by
  unfold State.geyserOn
  split
  · exact vmod_get_same _ _ _
  · rfl

theorem geyserOn_other (body : Data256) (s : State) (p q : Fin 12) (h : q ≠ p) :
    (s.geyserOn body p).ports[q] = s.ports[q] ∧ (s.geyserOn body p).geyserOut q = s.geyserOut q := by
  unfold State.geyserOn
  split
  · exact ⟨vmod_get_ne _ _ _ _ h, geyserOut_modPort_ne s p q _ h⟩
  · exact ⟨rfl, rfl⟩

theorem foldl_geyserOn_frame (body : Data256) (l : List (Fin 12)) (s : State) :
    l.foldl (State.geyserOn body) s = { s with ports := (l.foldl (State.geyserOn body) s).ports } := by
  induction l generalizing s with
  | nil => rfl
  | cons p l ih =>
    rw [List.foldl_cons, ih (s.geyserOn body p), geyserOn_frame]

/-- Each port has one turn, which no other port's turn changes. -/
theorem foldl_geyserOn_port (body : Data256) (l : List (Fin 12)) (hl : l.Nodup) (s : State) (q : Fin 12) :
    (l.foldl (State.geyserOn body) s).ports[q] =
      if q ∈ l ∧ s.geyserOut q = true then (s.ports[q]).sendBlock 0x55 body else s.ports[q] := by
  induction l generalizing s with
  | nil => simp
  | cons p l ih =>
    obtain ⟨hp, hl⟩ := List.nodup_cons.1 hl
    rw [List.foldl_cons, ih hl]
    by_cases h : q = p
    · subst h
      rw [if_neg (fun k => hp k.1), geyserOn_same]
      simp
    · obtain ⟨hports, hout⟩ := geyserOn_other body s p q h
      rw [hports, hout]
      simp [h]

theorem sendGeyser_frame (s : State) (body : Data256) : s.sendGeyser body = { s with ports := (s.sendGeyser body).ports } :=
  foldl_geyserOn_frame body _ s

theorem sendGeyser_port (s : State) (body : Data256) (q : Fin 12) : (s.sendGeyser body).ports[q] =
    if s.geyserOut q then (s.ports[q]).sendBlock 0x55 body else s.ports[q] := by
  refine (foldl_geyserOn_port body _ (List.nodup_finRange 12) s q).trans ?_
  simp

/-! ### Reports at the source (R27, R28) -/

/-- A report that comes while the next pulse of a source is open, and no heir takes the role over. -/
theorem applyReport_open (s : State) (d l : Nat) (hh : s.heir = none) (ha : s.glb.source.announced = none)
    (ho : s.now + (if s.fab.outMask = 0 then 0 else s.fab.delay.toNat) < s.glb.nextEmission) :
    s.applyReport d l = s.modGlb (fun g => { g with source := { g.source with
      stretchS := max g.source.stretchS d, squallL := max g.source.squallL l } }) := by
  have hf : s.pulseFixed = false := Bool.or_eq_false_iff.2 ⟨by rw [ha]; rfl, decide_eq_false (not_le.2 ho)⟩
  simp [State.applyReport, hh, hf]

theorem takeFlit_none (f : Fin 12 × Data2048 → Bool) (l : List (Fin 12 × Data2048)) (h : l.any f = false) : takeFlit f l = (none, l) := by
  have : l.find? f = none := List.find?_eq_none.2 (fun x hx => by simpa using List.any_eq_false.1 h x hx)
  simp [takeFlit, this]

/-! ### Reception of a block (R243, R246 to R248) -/

/-- What is delivered from the line leaves the state but for what a port in loopback has still to receive. -/
theorem lineIn_delivered {s u : State} {p : Fin 12} {x : LineItem} (h : s.lineIn p x = (u, true)) :
    u = s ∨ ∃ l, u = s.modPort p (fun q => { q with loopq := l }) := by
  unfold State.lineIn at h
  dsimp only at h
  split at h
  · cases h
  · split at h
    · cases h
      exact .inl rfl
    · split at h
      · cases h
      · split at h
        · split at h
          · cases h
            exact .inr ⟨_, rfl⟩
          · cases h
        · cases h

/-- A good block that is delivered acts on the state in which its port has counted it. -/
theorem exec_geyserReceive {s u : State} {p : Fin 12} {b : Data256} (ht : cbType b = 0x55) (hl : s.lineIn p (.ctl b) = (u, true))
    (hb : (s.ports[p]).badLeft = 0) (hg : cbGood b (s.ports[p]).rxId = true) (hc : (s.ports[p]).carries = true) :
    exec (.geyserReceive p b) s = .next
      (if s.fab.inValid ∧ s.fab.inPort.toNat = p.val then (u.tookBlocks p 1).actOnPulse p b
      else (u.tookBlocks p 1).modFab (fun f => { f with ignored := satInc f.ignored })) := by
  have hgood : s.blockGood p b (s.ports[p]).rxId = true :=
    Bool.and_eq_true_iff.2 ⟨hg, beq_iff_eq.2 hb⟩
  have hfab : (u.tookBlocks p 1).fab = s.fab := by
    rcases lineIn_delivered hl with rfl | ⟨l, rfl⟩ <;> rfl
  have hcar : ((u.tookBlocks p 1).ports[p]).carries = true := by
    rw [State.tookBlocks, State.modPort_ports, vmod_get_same]
    rcases lineIn_delivered hl with rfl | ⟨l, rfl⟩
    · exact hc
    · rw [State.modPort_ports, vmod_get_same]
      exact hc
  show execGeyserReceive p b s = _
  unfold execGeyserReceive State.withBlock
  rw [if_neg (by simp [ht]), hl]
  dsimp only
  rw [hgood, hcar, hfab]
  simp

theorem satAdd_zero {n : Nat} (w : BitVec n) : satAdd w 0 = w := by
  simp [satAdd, w.isLt]

/-- What the block of the next beat does at a device that follows a source, before it goes on down the tree. -/
def State.follow (s : State) (p : Fin 12) (b : Data256) (r : Int) : State :=
  let s2 := (s.modGlb (fun g => { g with pulses := g.pulses ++ [blockPulse b (s.now + ((r + 8) / 16).toNat)] })).modFab
    (fun f => { f with lastGeyser := s.now })
  if r ≤ 0 then s2.fabEvent 0 p.val else s2

theorem follow_effect (s : State) (p : Fin 12) (b : Data256) (r : Int) :
    (s.follow p b r).glb = { s.glb with pulses := s.glb.pulses ++ [blockPulse b (s.now + ((r + 8) / 16).toNat)] }
      ∧ (s.follow p b r).fab.lastGeyser = s.now ∧ (s.follow p b r).fab.miss = s.fab.miss
      ∧ (r ≤ 0 → (s.follow p b r).fab.event.getLsbD 0 = true) := by
  unfold State.follow
  extract_lets s2
  by_cases hr : r ≤ 0
  · rw [if_pos hr]
    have h := fabEvent_eventOnly s2 0 p.val
    exact ⟨h.raised.glb, congrArg Fab.lastGeyser h.fab, (congrArg Fab.miss h.fab).trans rfl, fun _ => fabEvent_set _ _ _ (by omega)⟩
  · rw [if_neg hr]
    exact ⟨rfl, rfl, rfl, fun k => absurd k hr⟩

theorem actOnPulse_next (s : State) (p : Fin 12) (b : Data256) (hs : s.glb.isSource = false)
    (hb : (rfld b 4 0 64 : DWord) = s.glb.lastBeat + 1) :
    ∃ body, s.actOnPulse p b = (s.follow p b ((rnum b 12 0 24 : Int) - 8 * ((s.ports[p]).rtt.toNat : Int))).sendGeyser body := by
  have hk : ∀ due, ((blockPulse b due).beat - s.glb.lastBeat).toNat = 1 := fun due => by
    rw [show (blockPulse b due).beat = _ from hb]
    simp
  unfold State.actOnPulse
  rw [if_neg (by simp [hs])]
  dsimp only
  rw [hk, if_neg (by omega)]
  simp only [Nat.sub_self, missedPulses, List.append_nil, satAdd_zero, Nat.add_zero]
  exact ⟨_, rfl⟩

/-! ### Each event of the geyser -/

theorem exec_geyserBlockSend (s : State) (hr : s.running = true) (hs : s.glb.isSource = true) (ho : s.fab.outMask ≠ 0)
    (ha : s.glb.source.announced = none) (hh : s.glb.pulses.all (fun p => (s.heirOf p).isNone) = true)
    (hd : s.glb.nextEmission ≤ s.now + s.fab.delay.toNat) : exec .geyserBlockSend s = .next
      ((s.modGlb (fun g => { g with source := g.source.announce (s.glb.nextPulse s.fab.id) })).sendGeyser
        (geyserBody (s.glb.nextPulse s.fab.id) (16 * s.fab.delay.toNat))) :=
  if_pos ⟨hr, hs, ho, ha, hh, hd⟩

theorem exec_geyserCopySend (s : State) (p : Pulse) (ha : s.glb.source.announced = some p) (hs : s.glb.isSource = true)
    (h2 : s.glb.source.secondSent = false) (hd : p.due + 16 ≤ s.now + s.fab.delay.toNat) : exec .geyserCopySend s = .next
      ((s.modGlb (fun g => { g with source := { g.source with secondSent := true } })).sendGeyser
        (geyserBody p (16 * s.fab.delay.toNat - 256))) := by
  show execGeyserCopySend s = _
  simp [execGeyserCopySend, ha, hs, h2, hd]

/-- A STRETCH flit without a stop notice, or a SQUALL flit, that reaches a source whose next pulse is open. -/
theorem takeReport_open (s : State) (pl : BitVec 1920) (squall : Bool) (hs : s.glb.isSource = true) (hh : s.heir = none)
    (ha : s.glb.source.announced = none) (hb : squall = false → bitAt pl 112 = false)
    (ho : s.now + (if s.fab.outMask = 0 then 0 else s.fab.delay.toNat) < s.glb.nextEmission) :
    s.takeReport pl squall = s.modGlb (fun g => { g with source := { g.source with
      stretchS := max g.source.stretchS (if squall then 0 else rnum pl 8 0 32)
      squallL := max g.source.squallL (if squall then rnum pl 8 0 32 else 0) } }) := by
  cases squall with
  | true => simp [State.takeReport, hs, applyReport_open s _ _ hh ha ho]
  | false => simp [State.takeReport, hs, hb, applyReport_open s _ _ hh ha ho]

theorem exec_stretchReceive {s : State} {p : Fin 12} {f : Data2048} {rest : List (Fin 12 × Data2048)}
    (h : takeFlit (fun e => flType e.2 == 0x10) s.fab.inbox = (some (p, f), rest)) :
    exec .stretchReceive s = .next ((s.tookFlit rest p f).takeReport (flPayload f) false) := by
  show execStretchReceive s = _
  simp only [execStretchReceive, h]

theorem exec_squallReceive {s : State} {p : Fin 12} {f : Data2048} {rest : List (Fin 12 × Data2048)}
    (h : takeFlit (fun e => flType e.2 == 0x11) s.fab.inbox = (some (p, f), rest)) :
    exec .squallReceive s = .next ((s.tookFlit rest p f).takeReport (flPayload f) true) := by
  show execSquallReceive s = _
  simp only [execSquallReceive, h]

theorem exec_geyserReceive_undelivered {s u : State} {p : Fin 12} {b : Data256} (ht : cbType b = 0x55)
    (hl : s.lineIn p (.ctl b) = (u, false)) : exec (.geyserReceive p b) s = .next u := by
  show execGeyserReceive p b s = _
  simp [execGeyserReceive, State.withBlock, ht, hl]

/-- The geyser beat is lost at a device without plans: it becomes its own source (R249). -/
theorem exec_geyserTimeout (s : State) (hs : s.glb.isSource = false) (hd : s.fab.lastGeyser + s.fab.geyserTo.toNat ≤ s.now)
    (hp : s.plans = []) : exec .geyserTimeout s = .next
      ((s.modGlb (fun g => { g with isSource := true, source := { lastEmit := s.now } })).fabEvent 1 s.fab.inPort.toNat) := by
  have hplans : ((s.modGlb (fun g => { g with isSource := true, source := { lastEmit := s.now } })).fabEvent 1 s.fab.inPort.toNat).plans = [] :=
    (fabEvent_frame _ _ _).plans.trans hp
  show execGeyserTimeout s = _
  unfold execGeyserTimeout
  rw [if_pos ⟨by simp [hs], hd⟩]
  dsimp only
  rw [hplans, List.foldl_nil]

/-- Where the block of the next beat is followed, the state of its port is the one before the block. -/
theorem took_lineIn {s u : State} {p : Fin 12} {x : LineItem} (h : s.lineIn p x = (u, true)) :
    u.tookBlocks p 1 = { s with ports := (u.tookBlocks p 1).ports } ∧ ((u.tookBlocks p 1).ports[p]).rtt = (s.ports[p]).rtt := by
  rw [State.tookBlocks, State.modPort_ports, vmod_get_same]
  rcases lineIn_delivered h with rfl | ⟨l, rfl⟩
  · exact ⟨rfl, rfl⟩
  · rw [State.modPort_ports, vmod_get_same]
    exact ⟨rfl, rfl⟩

/-- Settles O8: the source's pulse, its blocks port by port, reports at an open pulse, and reception by the line's verdict. -/
theorem geyserPulsesAndReports : Obligations.GeyserPulsesAndReports := by
  unfold Obligations.GeyserPulsesAndReports
  refine ⟨⟨fun s hr hs ha hS hL hp hsets hnot hd => ?_, fun s hr hs hh hd => ?_, fun s h => ?_⟩,
    ⟨fun s hr hs ho ha hh hd => ?_, fun s p ha hs h2 hd => ?_⟩,
    ⟨fun s p f rest hf hs hh ha ho hb => ?_, fun s p f rest hf hs hh ha ho => ?_, fun s h => ?_, fun s h => ?_⟩,
    ⟨fun p x s => ⟨fun h => if_pos h, fun h h0 => (if_neg h).trans (if_pos h0)⟩, fun s u p b ht hl hb hg hc hv => ?_,
      fun s u p b ht hl hb hg hc hv hin hs hbeat => ?_, fun s u p b ht hl => exec_geyserReceive_undelivered ht hl,
      fun s hs hd hp => ?_⟩⟩
  · have hq : s.glb.Quiet := ⟨ha, hS, hL, hp, hsets, hnot⟩
    have hh : s.glb.pulses.all (fun p => (s.heirOf p).isNone) = true := by rw [hp]; rfl
    rw [exec_pulseEmission, if_pos ⟨hr, hs, hh, by rw [hq.nextEmission]; exact hd⟩]
    refine ⟨_, rfl, rfl, ?_, ?_, rfl⟩
    · show s.glb.pulses ++ [s.glb.source.announced.getD (s.glb.nextPulse s.fab.id)] = _
      rw [hp, ha, hq.nextPulse]
      rfl
    · rw [emitted_due, hq.nextEmission]
  · rw [exec_pulseEmission, if_pos ⟨hr, hs, hh, hd⟩]
    exact ⟨_, rfl, rfl, emitted_due s, rfl⟩
  · rw [exec_pulseEmission, if_neg]
    rintro ⟨hr, hs, hh, hd⟩
    rcases h with h | h | h | h
    · exact Bool.noConfusion (h.symm.trans hr)
    · exact Bool.noConfusion (h.symm.trans hs)
    · omega
    · obtain ⟨p, hp, hsome⟩ := List.any_eq_true.1 h
      have hnone := List.all_eq_true.1 hh p hp
      rw [Option.isNone_iff_eq_none.1 hnone] at hsome
      exact Bool.noConfusion hsome
  · refine ⟨_, exec_geyserBlockSend s hr hs ho ha hh hd, ?_⟩
    rw [sendGeyser_frame]
    exact ⟨rfl, rfl, rfl, rfl, fun p => sendGeyser_port _ _ p⟩
  · refine ⟨_, exec_geyserCopySend s p ha hs h2 hd, ?_⟩
    rw [sendGeyser_frame]
    exact ⟨rfl, rfl, ha, rfl, fun q => sendGeyser_port _ _ q⟩
  · rw [exec_stretchReceive hf, takeReport_open (s.tookFlit rest p f) _ _ hs hh ha (fun _ => hb) ho]
    rfl
  · rw [exec_squallReceive hf, takeReport_open (s.tookFlit rest p f) _ true hs hh ha nofun ho]
    rfl
  · show execStretchReceive s = _
    rw [execStretchReceive, takeFlit_none _ _ h]
  · show execSquallReceive s = _
    rw [execSquallReceive, takeFlit_none _ _ h]
  · obtain ⟨hframe, -⟩ := took_lineIn hl
    rw [exec_geyserReceive ht hl hb hg hc, if_neg (by simp [hv]), hframe]
    rfl
  · obtain ⟨hframe, hrtt⟩ := took_lineIn hl
    intro r
    have hs' : (u.tookBlocks p 1).glb = s.glb := by rw [hframe]
    have hnow : (u.tookBlocks p 1).now = s.now := by rw [hframe]
    have hfab : (u.tookBlocks p 1).fab = s.fab := by rw [hframe]
    obtain ⟨body, hact⟩ := actOnPulse_next (u.tookBlocks p 1) p b (by rw [hs']; exact hs) (by rw [hs']; exact hbeat)
    rw [hrtt] at hact
    obtain ⟨hglb, hlast, hmiss, hlate⟩ := follow_effect (u.tookBlocks p 1) p b r
    rw [exec_geyserReceive ht hl hb hg hc, if_pos ⟨hv, hin⟩, hact, sendGeyser_frame]
    refine ⟨_, rfl, ?_, hlast.trans hnow, ?_, hmiss.trans (congrArg Fab.miss hfab), hlate⟩
    · show Glb.beats (State.glb _) = _
      rw [hglb, hs']
      rfl
    · show Glb.pulses (State.glb _) = _
      rw [hglb, hs', hnow]
  · have h := fabEvent_frame (s.modGlb (fun g => { g with isSource := true, source := { lastEmit := s.now } })) 1 s.fab.inPort.toNat
    refine ⟨_, exec_geyserTimeout s hs hd hp, ?_, ?_, fabEvent_set _ _ _ (by omega), ?_⟩
    all_goals (rw [h.glb])
    all_goals rfl

/-! ### What a boundary's parts leave alone -/

/-- The hold registers, the start of the beat, the scrubs and ember mode; and the loaded plans. -/
def State.roster (s : State) : (Nat × List Hold × BitVec 6 × List Scrub × Bool) × List Plan :=
  ((s.glb.beatStart, s.glb.holds, s.glb.holdCause, s.sec.scrubs, s.cp.ember), s.plans)

theorem roster_iff {s t : State} : t.roster = s.roster ↔
    (t.glb.beatStart = s.glb.beatStart ∧ t.glb.holds = s.glb.holds ∧ t.glb.holdCause = s.glb.holdCause
      ∧ t.sec.scrubs = s.sec.scrubs ∧ t.cp.ember = s.cp.ember) ∧ t.plans = s.plans := by
  simp only [State.roster, Prod.mk.injEq]

theorem roster_fst_iff {s t : State} : t.roster.1 = s.roster.1 ↔
    t.glb.beatStart = s.glb.beatStart ∧ t.glb.holds = s.glb.holds ∧ t.glb.holdCause = s.glb.holdCause
      ∧ t.sec.scrubs = s.sec.scrubs ∧ t.cp.ember = s.cp.ember := by
  simp only [State.roster, Prod.mk.injEq]

theorem plans_of_roster {s t : State} (h : t.roster = s.roster) : t.plans = s.plans := (roster_iff.1 h).2

theorem EventOnly.roster {s t : State} (h : EventOnly s t) : t.roster = s.roster := by
  unfold State.roster
  rw [h.raised.glb, h.raised.sec, h.raised.plans, h.cp]

/-- What every step of a fold keeps, the fold keeps. -/
theorem foldl_keeps_view {α β : Type} (view : State → β) (f : State → α → State) (hf : ∀ s a, view (f s a) = view s)
    (l : List α) (s : State) : view (l.foldl f s) = view s := by
  induction l generalizing s with
  | nil => rfl
  | cons a l ih => exact (ih _).trans (hf s a)

@[simp] theorem roster_foldl {α : Type} (f : State → α → State) (l : List α) (s : State)
    (hf : ∀ s a, (f s a).roster = s.roster) : (l.foldl f s).roster = s.roster :=
  foldl_keeps_view State.roster f hf l s

@[simp] theorem roster_fst_foldl {α : Type} (f : State → α → State) (l : List α) (s : State)
    (hf : ∀ s a, (f s a).roster.1 = s.roster.1) : (l.foldl f s).roster.1 = s.roster.1 :=
  foldl_keeps_view (fun s => s.roster.1) f hf l s

@[simp] theorem modCal_roster (s : State) (n : Fin 64) (f : Caldera → Caldera) : (s.modCal n f).roster = s.roster := rfl
@[simp] theorem modStack_roster (s : State) (k : Fin 8) (f : Stack → Stack) : (s.modStack k f).roster = s.roster := rfl
@[simp] theorem modCfg_roster (s : State) (f : Cfg → Cfg) : (s.modCfg f).roster = s.roster := rfl
@[simp] theorem modChan_roster (s : State) (k : Fin 8) (c : Fin 32) (f : Chan → Chan) : (s.modChan k c f).roster = s.roster := rfl
@[simp] theorem modPlan_roster_fst (s : State) (h : PlanId) (f : Plan → Plan) : (s.modPlan h f).roster.1 = s.roster.1 := rfl
@[simp] theorem modCals_roster (s : State) (p : Plan) (f : Fin 64 → Caldera → Caldera) : (s.modCals p f).roster = s.roster :=
  roster_foldl _ _ _ fun _ _ => rfl

@[simp] theorem modEp_roster (s : State) (r : EpRef) (f : Endpoint → Endpoint) : (s.modEp r f).roster = s.roster := by
  cases r <;> rfl

@[simp] theorem modStm_roster (s : State) (r : SlotRef) (f : Stream → Stream) : (s.modStm r f).roster = s.roster := by
  cases r <;> rfl

@[simp] theorem completeTo_roster (s : State) (serial : Nat) (ph : CmdPhase) (st : Nat) (d r0 : Word) (r1 : DWord) :
    (s.completeTo serial ph st d r0 r1).roster = s.roster := by
  unfold State.completeTo
  split <;> rfl

@[simp] theorem complete_roster (s : State) (serial st : Nat) (d r0 : Word) (r1 : DWord) :
    (s.complete serial st d r0 r1).roster = s.roster := completeTo_roster _ _ _ _ _ _ _

@[simp] theorem stopWork_roster (s : State) (serial : Nat) (w : Option Nat) (st : Nat) (d r0 : Word) (r1 : DWord) :
    (s.stopWork serial w st d r0 r1).roster = s.roster := completeTo_roster _ _ _ _ _ _ _

@[simp] theorem endWork_roster (s : State) (w : Option Nat) (c : Nat) : (s.endWork w c).roster = s.roster := by
  unfold State.endWork State.freeTag
  split
  · split
    · rfl
    · split <;> rfl
  · rfl

@[simp] theorem submit_roster (s : State) (r : SlotRef) (x : Submit) : (s.submit r x).roster = s.roster := modStm_roster _ _ _

@[simp] theorem pauseStream_roster (s : State) (r : SlotRef) : (s.pauseStream r).roster = s.roster := by
  cases r <;> rfl

@[simp] theorem idleCount_roster (s : State) (r : SlotRef) : (s.idleCount r).roster = s.roster := modStm_roster _ _ _

@[simp] theorem writeConduit_roster (s : State) (w : Word × Word) : (s.writeConduit w).roster = s.roster := by
  unfold State.writeConduit
  split <;> simp

@[simp] theorem setupConduits_roster (s : State) (ws : List (Word × Word)) : (s.setupConduits ws).roster = s.roster := by
  unfold State.setupConduits State.captureConduits
  split <;> simp

@[simp] theorem discardWords_roster (s : State) (ws : List (Word × Word)) : (s.discardWords ws).roster = s.roster := by
  unfold State.discardWords
  refine (roster_foldl _ _ _ fun s r => ?_).trans (roster_foldl _ _ _ fun _ _ => rfl)
  cases r <;> rfl

@[simp] theorem clearConduits_roster (s : State) (ws : List (Word × Word)) : (s.clearConduits ws).roster = s.roster := by
  unfold State.clearConduits
  split
  · rfl
  · refine (roster_foldl _ _ _ fun s r => ?_).trans (by simp)
    cases r <;> rfl


@[simp] theorem countFrame_roster (s : State) (f : Fin 8 × Nat) : (s.countFrame f).roster = s.roster := rfl

@[simp] theorem saveCal_roster (s : State) (ctx : Byte) (x : Fin 64 × Caldera) : (s.saveCal ctx x).roster = s.roster :=
  roster_foldl _ _ _ fun _ _ => rfl

/-! ### Reports -/

@[simp] theorem report_roster (s : State) (ty : Nat) (pl : BitVec 1920) : (s.report ty pl).roster = s.roster := by
  unfold State.report
  dsimp only
  split
  · exact ((sendTo_eventOnly _ _ _).trans (noteRouteDrop_eventOnly _)).roster
  · exact (sendTo_eventOnly _ _ _).roster

@[simp] theorem applyReport_roster (s : State) (d l : Nat) : (s.applyReport d l).roster = s.roster := by
  unfold State.applyReport
  split
  · rfl
  · split <;> rfl

@[simp] theorem reportHold_roster (s : State) (b : DWord) (d : Nat) : (s.reportHold b d).roster = s.roster := by
  unfold State.reportHold
  split <;> simp

@[simp] theorem reportSquall_roster (s : State) (l : Nat) : (s.reportSquall l).roster = s.roster := by
  unfold State.reportSquall
  split <;> simp

/-! ### Plans: what changes beside the plans themselves -/

@[simp] theorem dspRecords_roster (s : State) (p : Plan) (b : Nat) : (s.dspRecords p b).roster = s.roster := modCals_roster _ _ _

@[simp] theorem haltPlan_roster (s : State) (p : Plan) : (s.haltPlan p).roster = s.roster := by
  simp [State.haltPlan]

@[simp] theorem stopCompletion_roster (s : State) (p : Plan) : (s.stopCompletion p).roster = s.roster := by
  unfold State.stopCompletion
  split
  · rfl
  · split <;> exact stopWork_roster _ _ _ _ _ _ _

@[simp] theorem inlineResult_roster (s : State) (p : Plan) : (s.inlineResult p).roster = s.roster := by
  unfold State.inlineResult
  split
  · split <;> rfl
  · rfl

@[simp] theorem fusedItems_roster (s : State) (p : Plan) (b : Nat) : (s.fusedItems p b).roster = s.roster := by
  refine roster_foldl _ _ _ fun s ch => roster_foldl _ _ _ fun s g => ?_
  split
  · rfl
  · dsimp only
    rw [modCal_roster]
    split <;> split <;> simp

@[simp] theorem startResync_roster (s : State) (p : Plan) : (s.startResync p).roster = s.roster :=
  roster_foldl _ _ _ fun _ _ => rfl

@[simp] theorem restartPlan_roster (s : State) (p : Plan) : (s.restartPlan p).roster = s.roster := by
  unfold State.restartPlan
  dsimp only
  split
  · rw [modCals_roster]
    exact roster_foldl _ _ _ fun _ _ => rfl
  · rw [startResync_roster, modCals_roster]
    exact roster_foldl _ _ _ fun _ _ => rfl

@[simp] theorem suspendPlan_roster_fst (s : State) (h : PlanId) : (s.suspendPlan h).roster.1 = s.roster.1 := by
  unfold State.suspendPlan
  split
  · rfl
  · simp only [modPlan_roster_fst, stopCompletion_roster]
    split <;> simp

@[simp] theorem trySuspend_roster_fst (s : State) (h : PlanId) : (s.trySuspend h).roster.1 = s.roster.1 := by
  unfold State.trySuspend
  split
  · split <;> simp
  · rfl

@[simp] theorem unload_roster_fst (s : State) (p : Plan) : (s.unload p).roster.1 = s.roster.1 := by
  change (if p.resident then (s.clearConduits p.conduits).modCals p (fun _ c => c.clearPlan p.handle) else s).roster.1 = _
  split <;> simp

@[simp] theorem tryFinish_roster_fst (s : State) (h : PlanId) : (s.tryFinish h).roster.1 = s.roster.1 := by
  unfold State.tryFinish
  split
  · rfl
  · split
    · dsimp only
      rw [unload_roster_fst]
      split <;> simp
    · rfl

@[simp] theorem openPlanBeat_roster_fst (s : State) (p : Plan) (b : Nat) : (s.openPlanBeat p b).roster.1 = s.roster.1 := by
  unfold State.openPlanBeat
  dsimp only
  rw [tryFinish_roster_fst, fusedItems_roster]
  split <;> simp

@[simp] theorem openPlan_roster_fst (s : State) (b : DWord) (h : PlanId) : (s.openPlan b h).roster.1 = s.roster.1 := by
  unfold State.openPlan
  split
  · rfl
  · split
    · split
      · simp
      · split
        · rw [openPlanBeat_roster_fst]
          split <;> simp
        · rfl
    · split
      · simp
      · dsimp only
        split <;> simp
    · simp
    · rfl

@[simp] theorem openPlans_roster_fst (s : State) (b : DWord) : (s.openPlans b).roster.1 = s.roster.1 :=
  roster_fst_foldl _ _ _ fun _ _ => openPlan_roster_fst _ _ _

/-! ### The order of a boundary (R23, R26, R31) -/

/-- The beat has closed and the pulse has taken effect. -/
def State.closed (s : State) (p : Pulse) (cycles : Vector Word 64) : State :=
  (s.closeBeat p.due cycles).modGlb (fun g => g.takePulse p)

/-- The boundary's work that moves no plan: ports, squall request, scrubs, the end of ember mode. -/
def State.afterOpen (s : State) : State := s.portsBoundary.squallRequest.scrubBoundary.emberExit


theorem exec_beatBoundary {s : State} {p : Pulse} {ps : List Pulse} (cycles : Vector Word 64) (hp : s.glb.pulses = p :: ps)
    (hd : p.due ≤ s.now) (hr : s.running = true) : exec (.beatBoundary cycles) s = .next (s.boundary p cycles) := by
  change execBeatBoundary cycles s = _
  unfold execBeatBoundary
  rw [hp]
  exact if_pos ⟨hr, hd⟩

theorem exec_beatBoundary_early {s : State} (cycles : Vector Word 64)
    (h : s.running = false ∨ ∀ p ps, s.glb.pulses = p :: ps → s.now < p.due) : exec (.beatBoundary cycles) s = .next s := by
  change execBeatBoundary cycles s = _
  unfold execBeatBoundary
  split
  · rename_i p ps hp
    refine if_neg ?_
    rintro ⟨hr, hd⟩
    rcases h with h | h
    · exact Bool.noConfusion (h.symm.trans hr)
    · exact Nat.not_lt.2 hd (h p ps hp)
  · rfl

/-- A hand-over that the pulse carries (R250). -/
def State.handed (s : State) (p : Pulse) : State := match p.handover with
  | some n => s.handOver p n
  | none => s

/-- A stop notice that the pulse carries (R254). -/
def State.noticed (s : State) (p : Pulse) : State := match p.stop with
  | some (k, h) => s.takeNotice k h
  | none => s

/-- The stops that fall due at this boundary; behind a held one, the suspensions alone (R31, R65). -/
def State.stopsDue (s : State) : State :=
  if s.glb.holds.isEmpty then s.stopPlans s.glb.beatCnt else s.plans.foldl (fun s q => s.trySuspend q.handle) s

theorem boundary_eq (s : State) (p : Pulse) (cycles : Vector Word 64) : s.boundary p cycles =
    (((((s.forceWaits.closed p cycles).idleCounts.handed p).noticed p).stopsDue.openOrHold
      (s.forceWaits.beatConds ||| s.forceWaits.floorCond cycles (p.due - s.forceWaits.glb.beatStart))).afterOpen).switchContexts := rfl

theorem handed_keeps {r s : State} (p : Pulse) (h : Keeps true r s) : Keeps true r (s.handed p) := by
  unfold State.handed
  split
  · exact keeps_handOver _ _ _ h
  · exact h

theorem noticed_keeps {r s : State} (p : Pulse) (h : Keeps true r s) : Keeps true r (s.noticed p) := by
  unfold State.noticed
  split
  · exact keeps_takeNotice _ _ _ h
  · exact h

theorem stopsDue_keeps {r s : State} (h : Keeps true r s) : Keeps true r s.stopsDue := by
  unfold State.stopsDue
  split
  · exact keeps_stopPlans _ _ h
  · exact keeps_foldl _ (fun _ _ h => keeps_trySuspend _ _ h) _ _ h

/-- Once the pulse has taken effect, the rest of the boundary leaves the beat registers alone. -/
theorem boundary_keeps (s : State) (p : Pulse) (cycles : Vector Word 64) :
    Keeps true (s.forceWaits.closed p cycles) (s.boundary p cycles) := by
  rw [boundary_eq]
  exact keeps_switchContexts _ (keeps_emberExit _ (keeps_scrubBoundary _ (keeps_squallRequest _ (keeps_portsBoundary _
    (keeps_openOrHold _ _ (stopsDue_keeps (noticed_keeps p (handed_keeps p (keeps_idleCounts _ (keeps_refl _))))))))))

theorem forceWaits_roster_fst (s : State) : s.forceWaits.roster.1 = s.roster.1 :=
  roster_fst_foldl _ _ _ fun s p => by split <;> simp

/-- What a boundary leaves in the beat registers: the pulse's part, over those before it (R23, R30). -/
theorem boundary_beats (s : State) (p : Pulse) (cycles : Vector Word 64) : (s.boundary p cycles).glb.beats =
    (if p.load then p.beat else s.glb.beatCnt + 1, p.period, BitVec.ofNat 32 (p.due - s.glb.beatStart),
      if p.stretched then satInc s.glb.stretchCnt else s.glb.stretchCnt, s.glb.holdCnt, s.glb.holdTicks) := by
  have h0 : s.forceWaits.glb.beats = s.glb.beats := (keeps_forceWaits s (keeps_refl s)).beats rfl
  have hs : s.forceWaits.glb.beatStart = s.glb.beatStart := (roster_fst_iff.1 (forceWaits_roster_fst s)).1
  obtain ⟨hc, -, -, ht, hn, hk⟩ : s.forceWaits.glb.beatCnt = s.glb.beatCnt ∧ s.forceWaits.glb.period = s.glb.period
      ∧ s.forceWaits.glb.beatLast = s.glb.beatLast ∧ s.forceWaits.glb.stretchCnt = s.glb.stretchCnt
      ∧ s.forceWaits.glb.holdCnt = s.glb.holdCnt ∧ s.forceWaits.glb.holdTicks = s.glb.holdTicks := by
    simpa only [Glb.beats, Prod.mk.injEq] using h0
  rw [← hc, ← hs, ← ht, ← hn, ← hk]
  exact (boundary_keeps s p cycles).beats rfl

/-! ### The end of a hold (R30) -/

@[simp] theorem nextHold_holdCause (s : State) (m : Bool) : (s.nextHold m).glb.holdCause = s.glb.holdCause := by
  unfold State.nextHold
  split <;> rfl

/-- The hold counted and taken off the list. -/
def State.holdCounted (s : State) (k : Hold) (rest : List Hold) : State :=
  s.modGlb (fun g => { g with
    conds := 0, holds := rest, holdCnt := satInc g.holdCnt, holdTicks := satAdd g.holdTicks (s.now - k.since)
    holdCause := g.holdCause ||| holdCauseBits (k.cause ||| s.beatConds) })

/-- The hold reported to the source, unless a suspension alone made it (R252). -/
def State.holdReported (s : State) (k : Hold) (d : Nat) : State := if k.mute then s else s.reportHold k.beat d

theorem holdReported_roster (s : State) (k : Hold) (d : Nat) : (s.holdReported k d).roster = s.roster := by
  unfold State.holdReported
  split <;> simp

theorem holdReported_keeps (s : State) (k : Hold) (d : Nat) : Keeps true s (s.holdReported k d) := by
  unfold State.holdReported
  split
  · exact keeps_refl s
  · exact keeps_reportHold _ _ _ (keeps_refl s)

theorem endHold_eq (s : State) (k : Hold) (rest : List Hold) : s.endHold k rest =
    ((((s.holdCounted k rest).holdReported k (s.now - k.since)).openPlans k.beat).nextHold k.mute) := rfl

theorem endHold_keeps (s : State) (k : Hold) (rest : List Hold) : Keeps true (s.holdCounted k rest) (s.endHold k rest) := by
  rw [endHold_eq]
  exact keeps_nextHold _ _ (keeps_openPlans _ _ (holdReported_keeps _ _ _))

theorem endHold_holdCause (s : State) (k : Hold) (rest : List Hold) :
    (s.endHold k rest).glb.holdCause = s.glb.holdCause ||| holdCauseBits (k.cause ||| s.beatConds) := by
  have h : (((s.holdCounted k rest).holdReported k (s.now - k.since)).openPlans k.beat).roster.1 = (s.holdCounted k rest).roster.1 := by
    rw [openPlans_roster_fst, holdReported_roster]
  rw [endHold_eq, nextHold_holdCause, (roster_fst_iff.1 h).2.2.1]
  rfl

theorem exec_holdEnd {s : State} {k : Hold} {rest : List Hold} (hk : s.glb.holds = k :: rest) :
    exec .holdEnd s = if s.ready k.beat k.quiet then .next (s.endHold k rest) else .next s := by
  change execHoldEnd s = _
  unfold execHoldEnd
  rw [hk]

/-! ### The boundary's work that moves no plan -/

theorem freeForwarded_frame (s : State) (p : Fin 12) : (s.freeForwarded p).roster = s.roster ∧ (s.freeForwarded p).cals = s.cals := by
  have h := foldl_keeps_view (fun s => (s.roster, s.cals)) (fun (s : State) (e : Option (Fin 12) × Data2048) => match e.1 with
    | some a => s.modPort a (fun q => q.release (Fin.ofNat 4 (flVc e.2)))
    | none => s) (fun s e => by split <;> rfl)
    ((s.ports[p]).txq.filter (fun e => flVc e.2 != 2)) s
  unfold State.freeForwarded
  dsimp only
  split
  · exact Prod.mk.inj h
  · exact ⟨rfl, rfl⟩

theorem portsBoundary_frame (s : State) : s.portsBoundary.roster = s.roster ∧ s.portsBoundary.cals = s.cals := by
  have h := foldl_keeps_view (fun s => (s.roster, s.cals)) State.freeForwarded
    (fun s p => Prod.ext (freeForwarded_frame s p).1 (freeForwarded_frame s p).2) (List.finRange 12) s
  unfold State.portsBoundary
  generalize (List.finRange 12).foldl State.freeForwarded s = u at h ⊢
  exact Prod.mk.inj h

theorem report_cals (s : State) (ty : Nat) (pl : BitVec 1920) : (s.report ty pl).cals = s.cals := by
  unfold State.report
  dsimp only
  split
  · exact ((sendTo_eventOnly _ _ _).trans (noteRouteDrop_eventOnly _)).raised.cals
  · exact (sendTo_eventOnly _ _ _).raised.cals

theorem reportSquall_cals (s : State) (l : Nat) : (s.reportSquall l).cals = s.cals := by
  unfold State.reportSquall State.applyReport
  split
  · split
    · rfl
    · split <;> rfl
  · exact report_cals _ _ _

theorem squallRequest_frame (s : State) : s.squallRequest.roster = s.roster ∧ s.squallRequest.cals = s.cals := by
  unfold State.squallRequest
  dsimp only
  split
  · exact ⟨rfl, rfl⟩
  · exact ⟨reportSquall_roster _ _, reportSquall_cals _ _⟩

/-- No scrub is late: the boundary notes nothing. -/
theorem noteLate_none (s : State) (h : ∀ x ∈ s.sec.scrubs, (x.startBeat.isSome && x.elapsed s.now && s.scrubWorks x) = false) :
    s.noteLate = s := by
  have hm : s.sec.scrubs.map (fun x => if x.startBeat.isSome && x.elapsed s.now && s.scrubWorks x then { x with late := true } else x)
      = s.sec.scrubs :=
    (List.map_congr_left fun x hx => by rw [h x hx]; rfl).trans (List.map_id _)
  calc s.noteLate = { s with sec := { s.sec with scrubs := s.sec.scrubs.map _ } } := rfl
    _ = s := by rw [hm]

theorem scrubBoundary_nil (s : State) (h : s.sec.scrubs = []) : s.scrubBoundary = s := by
  unfold State.scrubBoundary
  rw [noteLate_none s (by simp [h]), h, List.foldl_nil]

theorem emberExit_off (s : State) (h : s.cp.ember = false) : s.emberExit = s := by
  unfold State.emberExit
  rw [if_neg]
  rw [h]
  exact fun e => Bool.noConfusion e.1

/-- Without scrubs and outside ember mode the work after the opening leaves plans, holds and calderas alone. -/
theorem afterOpen_frame (s : State) (hs : s.sec.scrubs = []) (he : s.cp.ember = false) :
    s.afterOpen.roster = s.roster ∧ s.afterOpen.cals = s.cals := by
  have hq : s.portsBoundary.squallRequest.roster = s.roster := (squallRequest_frame _).1.trans (portsBoundary_frame _).1
  obtain ⟨⟨-, -, -, hsc, hem⟩, -⟩ := roster_iff.1 hq
  have hc : s.portsBoundary.squallRequest.cals = s.cals := (squallRequest_frame _).2.trans (portsBoundary_frame _).2
  unfold State.afterOpen
  rw [scrubBoundary_nil _ (hsc.trans hs), emberExit_off _ (hem.trans he)]
  exact ⟨hq, hc⟩

/-! ### The no-progress counts (R155) -/

/-- Of the calderas, at most the stream slots differ. -/
def StreamsOnly (s t : State) : Prop := ∀ n : Fin 64, t.cals[n] = { s.cals[n] with streams := (t.cals[n]).streams }

theorem StreamsOnly.refl (s : State) : StreamsOnly s s := fun _ => rfl

theorem StreamsOnly.trans {s t u : State} (h : StreamsOnly s t) (k : StreamsOnly t u) : StreamsOnly s u := fun n => by
  rw [k n, h n]

theorem idleCount_streamsOnly (s : State) (r : SlotRef) : StreamsOnly s (s.idleCount r) := by
  intro n
  unfold State.idleCount State.modStm
  cases r with
  | cal m k =>
    by_cases h : n = m
    · subst h
      simp only [State.modCal_at]
    · simp only [State.modCal_other _ _ _ _ h]
  | cp k => rfl

theorem foldl_streamsOnly {α : Type} (f : State → α → State) (hf : ∀ s a, StreamsOnly s (f s a)) (l : List α) (s : State) :
    StreamsOnly s (l.foldl f s) := by
  induction l generalizing s with
  | nil => exact StreamsOnly.refl s
  | cons a l ih => exact (hf s a).trans (ih _)

theorem idleCounts_streamsOnly (s : State) : StreamsOnly s s.idleCounts := by
  refine StreamsOnly.trans (foldl_streamsOnly _ (fun s n => foldl_streamsOnly _ (fun s k => ?_) _ s) (List.finRange 64) s)
    (foldl_streamsOnly _ (fun s k => ?_) _ _)
  · split
    · exact idleCount_streamsOnly _ _
    · exact StreamsOnly.refl _
  · split
    · exact idleCount_streamsOnly _ _
    · exact StreamsOnly.refl _

theorem idleCounts_roster (s : State) : s.idleCounts.roster = s.roster := by
  refine (roster_foldl _ _ _ fun s k => ?_).trans (roster_foldl _ _ _ fun s n => roster_foldl _ _ _ fun s k => ?_)
  · split <;> simp
  · split <;> simp

theorem StreamsOnly.waking {s t : State} (h : StreamsOnly s t) (n : Fin 64) : (t.cals[n]).waking = (s.cals[n]).waking := by
  rw [h n]

theorem planWakes_congr {s t : State} (h : ∀ n : Fin 64, (t.cals[n]).waking = (s.cals[n]).waking) (q : Plan) :
    t.planWakes q = s.planWakes q := by
  unfold State.planWakes
  simp only [h]

/-! ### Moves of calderas (R364) -/

theorem switchContexts_nil (s : State) (h : s.plans = []) : s.switchContexts = s := by
  unfold State.switchContexts
  rw [h]
  exact (congrArg (fun l : List Plan => l.foldl _ s) h)

theorem findPlan_single {s : State} {q : Plan} (h : s.plans = [q]) : s.findPlan q.handle = some q := by
  unfold State.findPlan
  rw [h]
  exact List.find?_cons_of_pos (by simp)

/-- A plan alone gives way to none, and is not switched in while it is resident or does not wait. -/
theorem switchContexts_single {s : State} {q : Plan} (h : s.plans = [q]) (hq : q.resident = true ∨ q.run ≠ .waiting) :
    s.switchContexts = s := by
  have he : s.mayEvict q = false := by
    unfold State.mayEvict
    rw [h]
    cases hr : q.resident <;> simp [hr]
  have hi : ¬((!q.resident) = true ∧ q.run = .waiting ∧ (!s.heldAgainst q.ctx q.cals) = true ∧ s.calsReady q.cals = true) := by
    rintro ⟨hn, hw, -⟩
    rcases hq with hq | hq
    · rw [hq] at hn
      exact Bool.noConfusion hn
    · exact hq hw
  unfold State.switchContexts
  simp only [h, List.foldl_cons, List.foldl_nil, findPlan_single h, he, Bool.false_eq_true, if_false, if_neg hi]

/-! ### Opening a beat -/

theorem waitExpired_not_stopping (s : State) (q : Plan) (h : q.run ≠ .stopping) : s.waitExpired q = false := by
  unfold State.waitExpired
  split
  · simp [h]
  · rfl

theorem forceWaits_self (s : State) (h : ∀ q ∈ s.plans, q.run ≠ .stopping) : s.forceWaits = s := by
  unfold State.forceWaits
  generalize hl : s.plans = l at h
  clear hl
  induction l with
  | nil => rfl
  | cons q l ih =>
    rw [List.foldl_cons, waitExpired_not_stopping s q (h q List.mem_cons_self)]
    exact ih fun x hx => h x (List.mem_cons_of_mem _ hx)

theorem openOrHold_open (s : State) (cause : BitVec 6) (hh : s.glb.holds = []) (hr : s.ready s.glb.beatCnt false = true) :
    s.openOrHold cause = (s.openPlans s.glb.beatCnt).modGlb (fun g => { g with conds := 0 }) :=
  if_pos ⟨by rw [hh]; rfl, hr⟩

/-- What the clauses about a boundary say of the state in which it opens or holds its beat. -/
structure State.Calm (s : State) : Prop where
  holds : s.glb.holds = []
  scrubs : s.sec.scrubs = []
  ember : s.cp.ember = false

theorem State.Calm.of_roster {s t : State} (h : s.Calm) (e : t.roster.1 = s.roster.1) : t.Calm := by
  obtain ⟨-, hh, -, hs, he⟩ := roster_fst_iff.1 e
  exact ⟨hh.trans h.holds, hs.trans h.scrubs, he.trans h.ember⟩

/-- The state whose beat is about to open: the beat has closed, the pulse is in force, the no-progress counts are taken. -/
def State.turned (s : State) (p : Pulse) (cycles : Vector Word 64) : State := (s.closed p cycles).idleCounts

theorem turned_roster (s : State) (p : Pulse) (cycles : Vector Word 64) :
    (s.turned p cycles).roster = ((p.due, s.glb.holds, s.glb.holdCause, s.sec.scrubs, s.cp.ember), s.plans) := by
  unfold State.turned
  rw [idleCounts_roster]
  rfl

theorem turned_plans (s : State) (p : Pulse) (cycles : Vector Word 64) : (s.turned p cycles).plans = s.plans := by
  have h := turned_roster s p cycles
  simp only [State.roster, Prod.mk.injEq] at h
  exact h.2

theorem turned_beatStart (s : State) (p : Pulse) (cycles : Vector Word 64) : (s.turned p cycles).glb.beatStart = p.due := by
  have h := turned_roster s p cycles
  simp only [State.roster, Prod.mk.injEq] at h
  exact h.1.1

theorem turned_calm {s : State} (p : Pulse) (cycles : Vector Word 64) (h : s.Calm) : (s.turned p cycles).Calm := by
  have e := turned_roster s p cycles
  simp only [State.roster, Prod.mk.injEq] at e
  obtain ⟨⟨-, hh, -, hs, he⟩, -⟩ := e
  exact ⟨hh.trans h.holds, hs.trans h.scrubs, he.trans h.ember⟩

theorem turned_beatCnt (s : State) (p : Pulse) (cycles : Vector Word 64) :
    (s.turned p cycles).glb.beatCnt = if p.load then p.beat else s.glb.beatCnt + 1 := by
  have h := (keeps_idleCounts (s.closed p cycles) (keeps_refl (bb := true) _)).beats rfl
  unfold State.turned
  rw [(Prod.mk.inj h).1]
  rfl

theorem turned_streamsOnly (s : State) (p : Pulse) (cycles : Vector Word 64) : StreamsOnly (s.closed p cycles) (s.turned p cycles) := by
  unfold State.turned
  exact idleCounts_streamsOnly _

theorem closed_cal (s : State) (p : Pulse) (cycles : Vector Word 64) (n : Fin 64) : (s.closed p cycles).cals[n] =
    (s.cals[n]).latchPace cycles[n] s.glb.floorPace.toNat (BitVec.ofNat 32 (p.due - s.glb.beatStart)).toNat := by
  unfold State.closed State.closeBeat State.modGlb
  exact Vector.getElem_ofFn n.isLt

theorem turned_planWakes (s : State) (p : Pulse) (cycles : Vector Word 64) (q : Plan) :
    (s.turned p cycles).planWakes q = s.planWakes q :=
  planWakes_congr (fun n => by rw [(turned_streamsOnly s p cycles).waking n, closed_cal]; rfl) q

/-- What follows once the stops have been taken. -/
def State.rest (s : State) (cause : BitVec 6) : State := ((s.openOrHold cause).afterOpen).switchContexts

/-- A boundary with no hand-over, notice or held boundary before it. -/
theorem boundary_calm {s : State} {p : Pulse} (cycles : Vector Word 64) (hc : s.Calm) (hn : p.handover = none) (ht : p.stop = none)
    (hq : ∀ q ∈ s.plans, q.run ≠ .stopping) : ∃ cause : BitVec 6, s.boundary p cycles =
      ((s.turned p cycles).stopPlans (s.turned p cycles).glb.beatCnt).rest cause := by
  have h1 : (((s.closed p cycles).idleCounts.handed p).noticed p) = s.turned p cycles := by
    unfold State.noticed State.handed
    rw [hn, ht]
    rfl
  have h2 : (s.turned p cycles).stopsDue = (s.turned p cycles).stopPlans (s.turned p cycles).glb.beatCnt :=
    if_pos (by rw [(turned_calm p cycles hc).holds]; rfl)
  refine ⟨s.beatConds ||| s.floorCond cycles (p.due - s.glb.beatStart), ?_⟩
  rw [boundary_eq, forceWaits_self s hq, h1, h2]
  rfl

/-- The state after the opening of a calm boundary: its plans, holds and beat start. -/
theorem afterOpen_calm {s : State} (hs : s.sec.scrubs = []) (he : s.cp.ember = false) :
    s.afterOpen.plans = s.plans ∧ s.afterOpen.glb.holds = s.glb.holds ∧ s.afterOpen.glb.beatStart = s.glb.beatStart :=
  have h := roster_iff.1 (afterOpen_frame s hs he).1
  ⟨h.2, h.1.2.1, h.1.1⟩

/-! ### The state after a boundary that opens, or holds, its beat -/

/-- An opening boundary, up to the moves of calderas. -/
theorem openOrHold_afterOpen {s : State} (cause : BitVec 6) (hc : s.Calm) (hr : s.ready s.glb.beatCnt false = true) :
    (s.openOrHold cause).afterOpen.plans = (s.openPlans s.glb.beatCnt).plans ∧ (s.openOrHold cause).afterOpen.glb.holds = []
      ∧ (s.openOrHold cause).afterOpen.glb.beatStart = s.glb.beatStart
      ∧ (s.openOrHold cause).afterOpen.cals = (s.openPlans s.glb.beatCnt).cals := by
  have hro : ((s.openPlans s.glb.beatCnt).modGlb (fun g => { g with conds := 0 })).roster.1 = s.roster.1 := openPlans_roster_fst _ _
  have ho := hc.of_roster hro
  rw [openOrHold_open _ _ hc.holds hr]
  obtain ⟨hf, hcal⟩ := afterOpen_frame _ ho.scrubs ho.ember
  obtain ⟨⟨hs, hh, -⟩, hp⟩ := roster_iff.1 hf
  exact ⟨hp, hh.trans ho.holds, hs.trans (roster_fst_iff.1 hro).1, hcal⟩

theorem rest_opens_single {s : State} {r : Plan} (cause : BitVec 6) (hc : s.Calm) (hr : s.ready s.glb.beatCnt false = true)
    (hp : (s.openPlans s.glb.beatCnt).plans = [r]) (hq : r.resident = true ∨ r.run ≠ .waiting) :
    (s.rest cause).plans = [r] ∧ (s.rest cause).glb.holds = [] := by
  obtain ⟨hpl, hh, -, -⟩ := openOrHold_afterOpen cause hc hr
  unfold State.rest
  rw [switchContexts_single (hpl.trans hp) hq]
  exact ⟨hpl.trans hp, hh⟩

theorem rest_opens_nil {s : State} (cause : BitVec 6) (hc : s.Calm) (hp : s.plans = []) :
    (s.rest cause).glb.holds = [] ∧ (s.rest cause).glb.beatStart = s.glb.beatStart ∧ (s.rest cause).cals = s.cals := by
  have hr : s.ready s.glb.beatCnt false = true := by
    unfold State.ready
    rw [hp]
    rfl
  obtain ⟨hpl, hh, hs, hcal⟩ := openOrHold_afterOpen cause hc hr
  have ho : s.openPlans s.glb.beatCnt = s.modCp (fun c => { c with streams := c.streams.map (fun t => t.resumeOn s.glb.beatCnt) }) := by
    unfold State.openPlans
    rw [hp, List.foldl_nil]
  rw [ho] at hpl hcal
  unfold State.rest
  rw [switchContexts_nil _ (hpl.trans hp)]
  exact ⟨hh, hs, hcal⟩

/-- A boundary that is held waits behind the opening of its beat; no plan moves. -/
theorem rest_held {s : State} {q : Plan} (cause : BitVec 6) (hc : s.Calm) (hr : s.ready s.glb.beatCnt false = false) (hp : s.plans = [q])
    (hres : q.resident = true) (hw : s.wakeHolds s.glb.beatCnt = true) : (s.rest cause).plans = [q] ∧
      (s.rest cause).glb.holds.map (fun k => (k.beat, k.since, k.cause.getLsbD 5)) = [(s.glb.beatCnt, s.glb.beatStart, true)] := by
  obtain ⟨u, hu⟩ : ∃ u, u = s.openOrHold cause := ⟨_, rfl⟩
  have he : u = s.modGlb (fun g => { g with
      conds := 0
      holds := g.holds ++ [{ beat := s.glb.beatCnt, since := g.beatStart, late := !s.glb.holds.isEmpty
                             cause := if !s.glb.holds.isEmpty then cause &&& 4
                               else cause ||| s.glb.conds ||| s.holdConds ||| flagAt 6 5 (s.wakeHolds s.glb.beatCnt) }] }) :=
    hu.trans (if_neg fun c => Bool.noConfusion (hr.symm.trans c.2))
  have hup : u.plans = [q] := by rw [he]; exact hp
  obtain ⟨hap, hah, -⟩ := afterOpen_calm (s := u) (by rw [he]; exact hc.scrubs) (by rw [he]; exact hc.ember)
  unfold State.rest
  rw [← hu, switchContexts_single (hap.trans hup) (.inl hres)]
  refine ⟨hap.trans hup, ?_⟩
  rw [hah, he]
  simp [State.modGlb, hc.holds, hw, flagAt]

/-! ### A boundary with no plan: the pace registers (R19, R20) -/

theorem boundary_without_plans {s : State} {p : Pulse} (cycles : Vector Word 64) (hc : s.Calm) (hn : p.handover = none)
    (ht : p.stop = none) (hq : s.plans = []) : (s.boundary p cycles).glb.holds = [] ∧ (s.boundary p cycles).glb.beatStart = p.due
      ∧ StreamsOnly (s.closed p cycles) (s.boundary p cycles) := by
  obtain ⟨cause, e⟩ := boundary_calm cycles hc hn ht (by simp [hq])
  have hv := turned_streamsOnly s p cycles
  have hb := turned_beatStart s p cycles
  have hp : (s.turned p cycles).plans = [] := (turned_plans s p cycles).trans hq
  have hcv := turned_calm p cycles hc
  generalize s.turned p cycles = v at e hv hb hp hcv
  have hst : v.stopPlans v.glb.beatCnt = v := by
    unfold State.stopPlans
    rw [hp, List.foldl_nil]
  rw [hst] at e
  obtain ⟨hh, hs, hcal⟩ := rest_opens_nil cause hcv hp
  rw [e]
  refine ⟨hh, hs.trans hb, fun n => ?_⟩
  rw [hcal]
  exact hv n

/-! ### A plan's first beat -/

/-- The plan with its beat open. -/
def Plan.opened (q : Plan) (b : Nat) : Plan := { q with run := .running, beat := b, start := none, resuming := false }

theorem modPlan_single {s : State} {q : Plan} (f : Plan → Plan) (h : s.plans = [q]) : (s.modPlan q.handle f).plans = [f q] := by
  unfold State.modPlan
  rw [h, List.map_cons, List.map_nil, if_pos rfl]

theorem tryFinish_running {s : State} {q : Plan} (h : s.findPlan q.handle = some q) (hb : q.beat + 1 < q.beats) :
    s.tryFinish q.handle = s := by
  unfold State.tryFinish
  rw [h]
  exact if_neg fun c => Nat.not_le.2 hb c.2.1

/-- A plan beat that is not the last one opens. -/
theorem openPlanBeat_plans {s : State} {q : Plan} {b : Nat} (h : s.plans = [q]) (hb : b + 1 < q.beats) :
    (s.openPlanBeat q b).plans = [q.opened b] := by
  unfold State.openPlanBeat
  extract_lets s1 s2
  have h1 : s1.plans = [q.opened b] := modPlan_single _ h
  have h2 : s2.roster = s1.roster := by
    simp only [s2]
    split <;> simp
  have h3 : (s2.fusedItems q b).plans = [q.opened b] := (plans_of_roster ((fusedItems_roster _ _ _).trans h2)).trans h1
  clear_value s2
  have h4 : (s2.fusedItems q b).tryFinish q.handle = s2.fusedItems q b := tryFinish_running (q := q.opened b) (findPlan_single h3) hb
  rw [h4, h3]

theorem startsAt_iff (q : Plan) (b : DWord) : q.startsAt b = true ↔
    q.run = .waiting ∧ q.stopDue = false ∧ q.resident = true ∧ (q.start.map (fun x => decide (x.toNat ≤ b.toNat))).getD true = true := by
  simp [Plan.startsAt, and_assoc]

/-- A plan that starts at the boundary begins its plan beat. -/
theorem openPlan_starts {s : State} {q : Plan} {b : DWord} (h : s.plans = [q]) (hs : q.startsAt b = true) (hr : q.resuming = false)
    (hb : q.beat + 1 < q.beats) : (s.openPlan b q.handle).plans = [q.opened q.beat] := by
  obtain ⟨hw, hd, hres, hst⟩ := (startsAt_iff q b).1 hs
  unfold State.openPlan
  simp only [findPlan_single h, hw, hd, hres, hst, hr, Bool.false_eq_true, if_false, and_self, if_true]
  exact openPlanBeat_plans h hb

theorem openPlans_starts {s : State} {q : Plan} {b : DWord} (h : s.plans = [q]) (hs : q.startsAt b = true) (hr : q.resuming = false)
    (hb : q.beat + 1 < q.beats) : (s.openPlans b).plans = [q.opened q.beat] := by
  unfold State.openPlans
  rw [h, List.foldl_cons, List.foldl_nil]
  exact openPlan_starts h hs hr hb

theorem trySuspend_not_stopping {s : State} {q : Plan} (h : s.findPlan q.handle = some q) (hq : q.run ≠ .stopping) :
    s.trySuspend q.handle = s := by
  unfold State.trySuspend
  rw [h]
  exact if_neg fun c => hq c.1

theorem stopPlans_waiting {s : State} {q : Plan} (b : DWord) (h : s.plans = [q]) (hw : q.run = .waiting) : s.stopPlans b = s := by
  have hf := findPlan_single h
  have hn : q.run ≠ .running := by rw [hw]; decide
  unfold State.stopPlans
  rw [h, List.foldl_cons, List.foldl_nil]
  simp only [hf, hn, false_and, if_false]
  exact trySuspend_not_stopping hf (by rw [hw]; decide)

theorem ready_single {s : State} {q : Plan} (h : s.plans = [q]) (b : DWord) (quiet : Bool) : s.ready b quiet = s.planReady b quiet q := by
  unfold State.ready
  rw [h]
  simp

theorem planReady_waiting {s : State} {q : Plan} (b : DWord) (quiet : Bool) (h : q.run = .waiting) :
    s.planReady b quiet q = !(q.startsAt b && s.planWakes q) := by
  unfold State.planReady
  rw [h]

/-- The boundary at which a plan's first beat is due: it begins, unless the wake of a caldera holds the boundary. -/
theorem boundary_starts {s : State} {p : Pulse} {q : Plan} (cycles : Vector Word 64) (hc : s.Calm) (hn : p.handover = none)
    (ht : p.stop = none) (hl : p.load = false) (hq : s.plans = [q]) (hs : q.startsAt (s.glb.beatCnt + 1) = true)
    (hr : q.resuming = false) (hb : q.beat + 1 < q.beats) :
    (s.planWakes q = false → (s.boundary p cycles).glb.holds = [] ∧ (s.boundary p cycles).plans = [q.opened q.beat]) ∧
    (s.planWakes q = true → (s.boundary p cycles).plans = [q] ∧
      (s.boundary p cycles).glb.holds.map (fun k => (k.beat, k.since, k.cause.getLsbD 5)) = [(s.glb.beatCnt + 1, p.due, true)]) := by
  obtain ⟨hw, -, hres, -⟩ := (startsAt_iff q _).1 hs
  obtain ⟨cause, e⟩ := boundary_calm cycles hc hn ht (by simp [hq, hw])
  have hp : (s.turned p cycles).plans = [q] := (turned_plans s p cycles).trans hq
  have hcv := turned_calm p cycles hc
  have hcnt : (s.turned p cycles).glb.beatCnt = s.glb.beatCnt + 1 := (turned_beatCnt s p cycles).trans (by simp [hl])
  have hb0 := turned_beatStart s p cycles
  rw [← turned_planWakes s p cycles q]
  generalize s.turned p cycles = v at *
  have hrd : v.ready v.glb.beatCnt false = !v.planWakes q := by
    rw [ready_single hp, planReady_waiting _ _ hw, hcnt, hs, Bool.true_and]
  rw [stopPlans_waiting _ hp hw] at e
  rw [← hcnt] at hs ⊢
  constructor
  · intro hwk
    rw [e]
    exact (rest_opens_single cause hcv (by rw [hrd, hwk]; rfl) (openPlans_starts hp hs hr hb) (.inl hres)).symm
  · intro hwk
    rw [e, ← hb0]
    exact rest_held cause hcv (by rw [hrd, hwk]; rfl) hp hres (by simp [State.wakeHolds, hp, hs, hwk])

/-! ### A stop that falls due at a boundary (R31, R65) -/

/-- The plan has stopped at the boundary that opened beat `b`: it is suspended there, or waits for its passes. -/
structure Plan.StoppedAt (q : Plan) (b : DWord) (r : Plan) : Prop where
  handle : r.handle = q.handle
  beat : r.beat = q.beat + 1
  run : r.run = .suspended ∧ r.stopDue = false ∨ r.run = .stopping ∧ r.stopAt = some b

/-- A suspended plan. -/
def Plan.suspended (r : Plan) : Plan :=
  { r with run := .suspended, stop := none, stopDue := false, stopAt := none, noticed := false, cmd := none }

theorem suspendPlan_plans {s : State} {r : Plan} (h : s.plans = [r]) : (s.suspendPlan r.handle).plans = [r.suspended] := by
  have hs : ((if r.resident then s.haltPlan r else s).stopCompletion r).plans = [r] := by
    refine (plans_of_roster ((stopCompletion_roster _ _).trans ?_)).trans h
    split <;> simp
  unfold State.suspendPlan
  rw [findPlan_single h]
  exact modPlan_single _ hs

theorem trySuspend_stopped {s : State} {q r : Plan} {b : DWord} (h : s.plans = [r]) (hr : q.StoppedAt b r) :
    ∃ r', (s.trySuspend r.handle).plans = [r'] ∧ q.StoppedAt b r' := by
  unfold State.trySuspend
  rw [findPlan_single h]
  dsimp only
  split
  · exact ⟨_, suspendPlan_plans h, hr.handle, hr.beat, .inl ⟨rfl, rfl⟩⟩
  · exact ⟨r, h, hr⟩

theorem stopPlans_due {s : State} {q : Plan} (b : DWord) (h : s.plans = [q]) (hq : q.run = .running) (hd : q.stopDue = true) :
    ∃ r, (s.stopPlans b).plans = [r] ∧ q.StoppedAt b r := by
  have h1 : ((s.dspRecords q q.beat).modPlan q.handle (fun q => q.stopAtBoundary b s.glb.preemptMax)).plans
      = [q.stopAtBoundary b s.glb.preemptMax] :=
    modPlan_single _ ((plans_of_roster (dspRecords_roster _ _ _)).trans h)
  have h2 : q.StoppedAt b (q.stopAtBoundary b s.glb.preemptMax) := ⟨rfl, if_pos hq, .inr ⟨rfl, rfl⟩⟩
  unfold State.stopPlans
  rw [h, List.foldl_cons, List.foldl_nil]
  simp only [findPlan_single h, hq, hd, and_self, if_true]
  exact trySuspend_stopped (r := q.stopAtBoundary b s.glb.preemptMax) h1 h2

theorem stopPlans_roster_fst (s : State) (b : DWord) : (s.stopPlans b).roster.1 = s.roster.1 :=
  roster_fst_foldl _ _ _ fun s p => by
    split
    · rfl
    · split <;> simp

theorem openPlan_stopped {s : State} {q r : Plan} {b : DWord} (b' : DWord) (h : s.plans = [r]) (hr : q.StoppedAt b r) :
    ∃ r', (s.openPlan b' r.handle).plans = [r'] ∧ q.StoppedAt b r' := by
  unfold State.openPlan
  rcases hr.run with ⟨hrun, -⟩ | ⟨hrun, -⟩
  · simp only [findPlan_single h, hrun]
    exact ⟨r, h, hr⟩
  · simp only [findPlan_single h, hrun]
    exact trySuspend_stopped h hr

theorem openPlans_stopped {s : State} {q r : Plan} {b : DWord} (b' : DWord) (h : s.plans = [r]) (hr : q.StoppedAt b r) :
    ∃ r', (s.openPlans b').plans = [r'] ∧ q.StoppedAt b r' := by
  unfold State.openPlans
  rw [h, List.foldl_cons, List.foldl_nil]
  exact openPlan_stopped b' h hr

/-- A stopped plan keeps no boundary held that is not held already. -/
theorem planReady_stopped (s : State) {q r : Plan} {b : DWord} (b' : DWord) (hr : q.StoppedAt b r) : s.planReady b' false r = true := by
  unfold State.planReady
  rcases hr.run with ⟨hrun, -⟩ | ⟨hrun, -⟩
  · rw [hrun]
  · rw [hrun]
    rfl

theorem Plan.StoppedAt.not_waiting {q r : Plan} {b : DWord} (hr : q.StoppedAt b r) : r.run ≠ .waiting := by
  rcases hr.run with ⟨hrun, -⟩ | ⟨hrun, -⟩ <;> rw [hrun] <;> decide

/-- The boundary at which a running plan's stop falls due. -/
theorem boundary_stops {s : State} {p : Pulse} {q : Plan} (cycles : Vector Word 64) (hc : s.Calm) (hn : p.handover = none)
    (ht : p.stop = none) (hq : s.plans = [q]) (hrun : q.run = .running) (hd : q.stopDue = true) :
    ∃ r, (s.boundary p cycles).plans = [r] ∧ q.StoppedAt (s.boundary p cycles).glb.beatCnt r ∧ (s.boundary p cycles).glb.holds = [] := by
  obtain ⟨cause, e⟩ := boundary_calm cycles hc hn ht (by simp [hq, hrun])
  have hcnt : (s.boundary p cycles).glb.beatCnt = (s.turned p cycles).glb.beatCnt := by
    have hb := boundary_beats s p cycles
    unfold Glb.beats at hb
    rw [turned_beatCnt, (Prod.mk.inj hb).1]
  rw [hcnt]
  have hp : (s.turned p cycles).plans = [q] := (turned_plans s p cycles).trans hq
  have hcv := turned_calm p cycles hc
  generalize s.turned p cycles = v at e hp hcv ⊢
  generalize v.glb.beatCnt = b at e ⊢
  obtain ⟨r, hr, hst⟩ := stopPlans_due b hp hrun hd
  have hcs := hcv.of_roster (stopPlans_roster_fst v b)
  obtain ⟨r', hr', hst'⟩ := openPlans_stopped (v.stopPlans b).glb.beatCnt hr hst
  obtain ⟨hpl, hh⟩ := rest_opens_single cause hcs (by rw [ready_single hr, planReady_stopped _ _ hst]) hr' (.inr hst'.not_waiting)
  rw [e]
  exact ⟨r', hpl, hst', hh⟩

/-! ### A plan that gives way (R364, R365) -/

/-- What a plan that is switched out keeps: its run goes on as it stood. -/
structure Plan.Away (q r : Plan) : Prop where
  handle : r.handle = q.handle
  resident : r.resident = false
  evict : r.evict = false
  run : r.run = q.run

theorem switchOut_plans {s : State} {q p : Plan} (h : s.plans = [q, p]) (hne : q.handle ≠ p.handle) :
    ∃ r, (s.switchOut q).plans = [r, p] ∧ q.Away r := by
  unfold State.switchOut
  extract_lets gw cals s1
  have h1 : s1.plans = [q, p] := by
    refine (plans_of_roster ?_).trans h
    simp only [s1, modCals_roster, clearConduits_roster]
    exact roster_foldl _ _ _ fun s x => saveCal_roster s q.ctx x
  clear_value s1
  refine ⟨{ q with resident := false, evict := false, saved := cals.map (s.savedCal q.ctx), savedGw := gw }, ?_, rfl, rfl, rfl, rfl⟩
  simp [State.modPlan, h1, hne.symm]

theorem switchIn_plans {s : State} {r p : Plan} (h : s.plans = [r, p]) (hne : r.handle ≠ p.handle) :
    ∃ p', (s.switchIn p).plans = [r, p'] := by
  unfold State.switchIn
  extract_lets s1 s2
  have h1 : s1.roster = s.roster := by
    refine roster_foldl _ _ _ fun t x => ?_
    rw [modCal_roster]
    exact roster_foldl _ _ _ fun t f => countFrame_roster t f
  have h2 : s2.plans = [r, p] := by
    have h3 : s2.roster = (s1.setupConduits p.conduits).roster := roster_foldl _ _ _ fun t x => rfl
    exact (plans_of_roster (h3.trans ((setupConduits_roster _ _).trans h1))).trans h
  clear_value s2
  exact ⟨{ p with resident := true, saved := [], savedGw := [] }, by simp [State.modPlan, h2, hne]⟩

theorem findPlan_first {s : State} {q p : Plan} (h : s.plans = [q, p]) : s.findPlan q.handle = some q := by
  unfold State.findPlan
  rw [h]
  exact List.find?_cons_of_pos (by simp)

theorem findPlan_second {s : State} {q p : Plan} (h : s.plans = [q, p]) (hne : q.handle ≠ p.handle) : s.findPlan p.handle = some p := by
  unfold State.findPlan
  rw [h]
  rw [List.find?_cons_of_neg (by simp [hne]), List.find?_cons_of_pos (by simp)]

/-- A plan that gives way is resident and does not wait, and the other plan is switched out. -/
theorem mayEvict_pair {s : State} {q p : Plan} (h : s.plans = [q, p]) (he : s.mayEvict q = true) :
    q.run ≠ .waiting ∧ p.resident = false := by
  unfold State.mayEvict at he
  simp only [h, Bool.and_eq_true, Bool.or_eq_true, List.any_cons, List.any_nil, Bool.or_false, beq_iff_eq, Bool.not_eq_true'] at he
  obtain ⟨⟨⟨hres, hrun⟩, hp⟩, -⟩ := he
  refine ⟨fun hw => ?_, ?_⟩
  · rcases hrun with hrun | ⟨hrun, -⟩ <;> exact PlanRun.noConfusion (hrun.symm.trans hw)
  · rcases hp with ⟨⟨⟨hn, -⟩, -⟩, -⟩ | ⟨⟨⟨hn, -⟩, -⟩, -⟩
    · exact Bool.noConfusion (hres.symm.trans hn)
    · exact hn

theorem mayEvict_away (s : State) {p : Plan} (h : p.resident = false) : s.mayEvict p = false := by
  simp [State.mayEvict, h]

theorem switchContexts_evicts {s : State} {q p : Plan} (h : s.plans = [q, p]) (hne : q.handle ≠ p.handle) (he : s.mayEvict q = true) :
    ∃ r, s.switchContexts.findPlan q.handle = some r ∧ q.Away r := by
  obtain ⟨hw, hp⟩ := mayEvict_pair h he
  obtain ⟨r, h1, hr⟩ := switchOut_plans h hne
  have hne1 : r.handle ≠ p.handle := by rw [hr.handle]; exact hne
  have hrw : r.run ≠ .waiting := by rw [hr.run]; exact hw
  unfold State.switchContexts
  rw [h]
  simp only [List.foldl_cons, List.foldl_nil, findPlan_first h, he, if_true, findPlan_second h1 hne1, mayEvict_away _ hp,
    Bool.false_eq_true, if_false, h1, findPlan_first h1, hrw, false_and, and_false]
  rw [← hr.handle]
  split
  · obtain ⟨p', h2⟩ := switchIn_plans h1 hne1
    exact ⟨r, findPlan_first h2, hr⟩
  · exact ⟨r, findPlan_first h1, hr⟩

/-! ### What a scrub's work leaves alone (R366) -/

@[simp] theorem storeBlock_roster (s : State) (ctx : Byte) (b : Word) (d : Data2048) : (s.storeBlock ctx b d).roster = s.roster := by
  unfold State.storeBlock
  rfl

@[simp] theorem zeroBlocks_roster (s : State) (a n : Nat) : (s.zeroBlocks a n).roster = s.roster := by
  unfold State.zeroBlocks
  rfl

@[simp] theorem feed_roster (s : State) (r : SlotRef) (b : List Byte) : (s.feed r b).roster = s.roster := modStm_roster _ _ _

theorem wordsOf_roster (n : Nat) (s : State) (b : List Byte) : (State.wordsOf n s b).2.roster = s.roster := by
  induction n generalizing s b with
  | zero => rfl
  | succ n ih =>
    unfold State.wordsOf State.openWord
    split
    · rfl
    · dsimp only
      rw [ih]
      split <;> rfl

@[simp] theorem offerStack_roster (s : State) (k : Fin 8) (e : Fin 32) : (s.offerStack k e).roster = s.roster := by
  unfold State.offerStack
  dsimp only
  split
  · split
    · exact roster_foldl _ _ _ fun s r => modEp_roster s r _
    · rfl
  · rfl

@[simp] theorem deliver_roster (s : State) (k : Fin 8) (c : Fin 32) (r : MemReq) (d : Data2048) : (s.deliver k c r d).roster = s.roster := by
  unfold State.deliver
  dsimp only
  split
  · rfl
  · split
    · rw [offerStack_roster, modChan_roster, wordsOf_roster]
    · split <;> simp

@[simp] theorem issueReq_roster (s : State) (k : Fin 8) (c : Fin 32) (r : MemReq) : (s.issueReq k c r).roster = s.roster := by
  unfold State.issueReq
  split
  · split <;> rfl
  · rfl

@[simp] theorem goodReturn_roster (s : State) (k : Fin 8) (c : Fin 32) (r : MemReq) (d : Data2048) : (s.goodReturn k c r d).roster = s.roster := by
  unfold State.goodReturn
  dsimp only
  split <;> simp

@[simp] theorem serveNow_roster (s : State) (k : Fin 8) (c : Fin 32) (r : MemReq) : (s.serveNow k c r).roster = s.roster := by
  unfold State.serveNow
  extract_lets queued s1 s2
  have h : s1.roster = s.roster := by
    simp only [s1]
    split <;> simp
  split
  · rfl
  · split
    · exact (goodReturn_roster _ _ _ _ _).trans h
    · exact h

@[simp] theorem zeroFrame_roster (s : State) (dma : Nat) : (s.zeroFrame dma).roster = s.roster := by
  unfold State.zeroFrame State.frameSettle State.runRequests
  dsimp only
  rw [modStack_roster, zeroBlocks_roster]
  split
  · exact roster_foldl _ _ _ fun s r => serveNow_roster s _ _ r
  · rfl

@[simp] theorem abortPlan_roster_fst (s : State) (h : PlanId) : (s.abortPlan h).roster.1 = s.roster.1 := by
  unfold State.abortPlan
  split
  · rfl
  · rw [unload_roster_fst]
    split <;> simp

theorem scrubEffects_scrubs (s : State) (ctxs : List Byte) : (s.scrubEffects ctxs).sec.scrubs = s.sec.scrubs := by
  unfold State.scrubEffects
  extract_lets mine frames regions s1 s2 s3 s4
  have h2 : s2.roster.1 = s1.roster.1 := roster_fst_foldl _ _ _ fun s p => abortPlan_roster_fst s p.handle
  have h3 : s3.roster.1 = s2.roster.1 := rfl
  have h4 : s4.roster = s3.roster :=
    (roster_foldl State.blankRegion regions _ fun _ _ => rfl).trans (roster_foldl _ _ _ fun s d => zeroFrame_roster s d)
  exact (roster_fst_iff.1 (((congrArg Prod.fst h4).trans h3).trans h2)).2.2.2.1

/-! ### A scrub's start and end at a boundary (R367, R368) -/

/-- The scrub as it starts: its place in time, its budget and what it covers. -/
def State.begun (s : State) (sc : Scrub) : Scrub :=
  { sc with startBeat := some s.glb.beatCnt, startTick := s.now, budget := s.scrubBudget sc.ctxs, cals := s.heldCals sc.ctxs
            onStacks := (s.ctxFrames sc.ctxs).foldl (fun w d => w ||| BitVec.twoPow 8 (d / 2 ^ 37)) 0
            blanks := !(s.ownedRegions sc.ctxs).isEmpty }

theorem modScrub_single {s : State} {sc : Scrub} (f : Scrub → Scrub) (h : s.sec.scrubs = [sc]) : (s.modScrub sc f).sec.scrubs = [f sc] := by
  unfold State.modScrub State.modSec
  simp [h]

theorem startScrub_scrubs {s : State} {sc : Scrub} (h : s.sec.scrubs = [sc]) : (s.startScrub sc).sec.scrubs = [s.begun sc] := by
  unfold State.startScrub
  dsimp only
  rw [scrubEffects_scrubs]
  exact modScrub_single _ h

theorem startScrub_tapOn (s : State) (sc : Scrub) : (s.startScrub sc).pins.tapOn = false := rfl

theorem scrubBoundary_single {s : State} {sc : Scrub} (h : s.sec.scrubs = [sc])
    (hl : (sc.startBeat.isSome && sc.elapsed s.now && s.scrubWorks sc) = false) : s.scrubBoundary = s.scrubStep sc := by
  unfold State.scrubBoundary
  rw [noteLate_none s (by simpa [h] using hl), h, List.foldl_cons, List.foldl_nil]

theorem scrubStep_starts {s : State} {sc : Scrub} (hb : sc.startBeat = none) (hr : (s.dropFlits sc).scrubReady sc = true) :
    s.scrubStep sc = (s.dropFlits sc).startScrub sc := by
  unfold State.scrubStep
  rw [if_neg (by rw [hb]; exact Bool.noConfusion)]
  exact if_pos hr

/-- The scrub with one boundary more. -/
def Scrub.older (sc : Scrub) : Scrub := { sc with beats := sc.beats + 1 }

theorem scrubStep_ends {s : State} {sc : Scrub} (hb : sc.startBeat.isSome = true) (hl : sc.late = false) (he : sc.elapsed s.now = true)
    (hi : s.scrubImpaired sc = false) : s.scrubStep sc = (s.modScrub sc (fun _ => sc.older)).endScrub sc.older := by
  unfold State.scrubStep
  rw [if_pos hb]
  refine (if_pos ⟨he, by rw [hl]; rfl⟩).trans ?_
  unfold State.tryEndScrub
  exact if_neg fun c => Bool.noConfusion (hi.symm.trans c)

/-- The last scrub ends: none is left, the registers hold its length and budget, the test port is open again. -/
theorem endScrub_last {s : State} {sc : Scrub} (h : s.sec.scrubs = [sc]) (hc : sc.cmd = none) (hp : sc.part = none) :
    (s.endScrub sc).sec.scrubs = [] ∧ (s.endScrub sc).sec.scrubBeats = BitVec.ofNat 32 sc.beats
      ∧ (s.endScrub sc).sec.scrubBudget = BitVec.ofNat 64 sc.budget ∧ (s.endScrub sc).pins.tapOn = true
      ∧ ∀ e ∈ (s.endScrub sc).sec.ctxs, ∀ i ∈ sc.ctxs, i.toNat ≠ e.1 := by
  have hf : s.sec.scrubs.filter (fun x => x != sc) = [] := by simp [h]
  unfold State.endScrub
  simp only [hc, hp, State.modSec, hf, List.any_nil, Bool.not_false]
  refine ⟨trivial, trivial, trivial, trivial, fun e he i hi hie => ?_⟩
  simp only [List.mem_filter, Bool.not_eq_true', List.any_eq_false, beq_iff_eq] at he
  exact he.2 i hi hie

/-- Settles O7: the registers of a boundary and of a hold's end follow from what their parts keep; the clauses about plans
follow the one plan through the boundary, those about scrubs the one scrub. -/
theorem boundariesAndHolds : Obligations.BoundariesAndHolds := by
  unfold Obligations.BoundariesAndHolds
  refine ⟨⟨fun s cycles p ps hp hd hr => ?pulse, fun s cycles h => exec_beatBoundary_early cycles h,
    fun s cycles p ps hp hd hr hn ht hq hs he hh => ?pace, fun s cycles p ps q hp hd hr hn ht hl hq hs he hh hst hres hb => ?starts,
    fun s cycles p ps q hp hd hr hn ht hq hs he hh hrun hdue => ?stops, fun s q p h hne he => ?evicts, fun s sc h hb hr => ?scrubStarts,
    fun s sc h hb hl hc hp he hw hi => ?scrubEnds⟩, fun s k rest hk hr => ?holdEnds, fun s k rest hk hr => ?holdStays⟩
  case pulse =>
    have hbeats := boundary_beats s p cycles
    simp only [Glb.beats, Prod.mk.injEq] at hbeats
    exact ⟨_, exec_beatBoundary cycles hp hd hr, hbeats⟩
  case pace =>
    obtain ⟨hholds, hstart, hcal⟩ := boundary_without_plans cycles ⟨hh, hs, he⟩ hn ht hq
    have hbeats := boundary_beats s p cycles
    simp only [Glb.beats, Prod.mk.injEq] at hbeats
    refine ⟨_, exec_beatBoundary cycles hp hd hr, hholds, hstart, fun n => ?_⟩
    dsimp only
    rw [hcal n, closed_cal, hbeats.2.2.1]
    exact ⟨rfl, rfl, rfl, rfl, rfl⟩
  case starts =>
    obtain ⟨hopen, hheld⟩ := boundary_starts cycles ⟨hh, hs, he⟩ hn ht hl hq hst hres hb
    constructor
    · intro hw
      obtain ⟨hholds, hplans⟩ := hopen hw
      refine ⟨_, exec_beatBoundary cycles hp hd hr, hholds, ?_⟩
      rw [show q.handle = (q.opened q.beat).handle from rfl, findPlan_single hplans]
      rfl
    · intro hw
      obtain ⟨hplans, hholds⟩ := hheld hw
      exact ⟨_, exec_beatBoundary cycles hp hd hr, findPlan_single hplans, hholds⟩
  case stops =>
    obtain ⟨r, hplans, hr', hholds⟩ := boundary_stops cycles ⟨hh, hs, he⟩ hn ht hq hrun hdue
    refine ⟨_, r, exec_beatBoundary cycles hp hd hr, ?_, hr'.beat, hholds, hr'.run⟩
    rw [← hr'.handle, findPlan_single hplans]
  case evicts =>
    obtain ⟨r, hf, hr⟩ := switchContexts_evicts h hne he
    exact ⟨r, hf, hr.resident, hr.evict, hr.run⟩
  case scrubStarts =>
    rw [scrubBoundary_single h (by rw [hb]; rfl), scrubStep_starts hb hr]
    exact ⟨_, startScrub_scrubs h, rfl, rfl, rfl, rfl, startScrub_tapOn _ _⟩
  case scrubEnds =>
    rw [scrubBoundary_single h (by rw [hw, Bool.and_false]), scrubStep_ends hb hl he hi]
    exact endScrub_last (modScrub_single _ h) hc hp
  case holdEnds =>
    have hk' := (endHold_keeps s k rest).beats rfl
    simp only [Prod.mk.injEq] at hk'
    obtain ⟨hcnt, hper, -, hstr, hhc, hht⟩ := hk'
    exact ⟨_, (exec_holdEnd hk).trans (if_pos hr), hhc, hht, endHold_holdCause s k rest, hcnt, hper, hstr⟩
  case holdStays =>
    exact (exec_holdEnd hk).trans (if_neg (by rw [hr]; exact Bool.noConfusion))

end Sys2Proof.Machine
end

section
/-! Proofs of the statements about matrix arrays: weight slots and relay chains, the life of a pass from its issue to its
commit, and the commands that copy, abort and preempt. -/

namespace Sys2Proof.Machine

/-! ### One caldera changed -/

theorem State.modCal_congr {s : State} {n : Fin 64} {f g : Caldera → Caldera} (h : f s.cals[n] = g s.cals[n]) :
    s.modCal n f = s.modCal n g := by
  simp only [State.modCal, vmod_const, h]

theorem State.modCal_modCal (s : State) (n : Fin 64) (f g : Caldera → Caldera) :
    (s.modCal n f).modCal n g = s.modCal n (fun c => g (f c)) := by
  simp only [State.modCal, vmod_const, vset_vset, vset_get_same]

theorem State.modCal_self {s : State} {n : Fin 64} {f : Caldera → Caldera} (h : f s.cals[n] = s.cals[n]) : s.modCal n f = s := by
  simp only [State.modCal, vmod_const, h, vset_self]

theorem onlyCal_modCal (s : State) (n : Fin 64) (f : Caldera → Caldera) : OnlyCal n s (s.modCal n f) :=
  State.modCal_congr (State.modCal_at s n f).symm

/-! ### Bytes of a word (R7) -/

theorem getLsbD_ofBytes (n : Nat) (l : List Byte) (i : Nat) :
    (ofBytes n l).getLsbD i = (decide (i < n) && (l.getD (i / 8) 0).getLsbD (i % 8)) := by
  induction l generalizing i with
  | nil => simp [ofBytes]
  | cons b l ih =>
    simp only [ofBytes, BitVec.getLsbD_or, BitVec.getLsbD_shiftLeft, BitVec.getLsbD_setWidth, ih]
    by_cases hi : i < 8
    · simp [hi, Nat.div_eq_of_lt hi, Nat.mod_eq_of_lt hi]
    · have hd : i / 8 = (i - 8) / 8 + 1 := by omega
      have hm : (i - 8) % 8 = i % 8 := by omega
      have hb : b.getLsbD i = false := BitVec.getLsbD_of_ge _ _ (by omega)
      by_cases hn : i < n
      · simp [hi, hd, hm, hb, hn, show i - 8 < n by omega]
      · simp [hn]

theorem length_toBytes {n : Nat} (w : BitVec n) (len : Nat) : (toBytes w len).length = len := by simp [toBytes]

theorem ofBytes_toBytes {n : Nat} (w : BitVec n) (len : Nat) (h : n ≤ 8 * len) : ofBytes n (toBytes w len) = w := by
  apply BitVec.eq_of_getLsbD_eq
  intro i hi
  have hl : i / 8 < len := by omega
  rw [getLsbD_ofBytes]
  simp [toBytes, hi, hl, show i % 8 < 8 by omega, show 8 * (i / 8) + i % 8 = i by omega]

/-- Of bytes appended to a list, the slice from the list's end on. -/
theorem slice_append_right (l g : List Byte) (off len : Nat) (ho : l.length = off) (hg : g.length = len) : slice (l ++ g) off len = g := by
  subst ho hg
  simp [slice]

/-! ### Weight loads (R40, R41) -/

theorem WSlot.loadable_iff (w : WSlot) : w.loadable = true ↔ w.st = .ready ∨ w.st = .empty := by
  simp [WSlot.loadable]

theorem WSlot.not_loadable {w : WSlot} (h : w.st = .loading ∨ w.st = .pinned) : w.loadable = false := by
  rcases h with h | h <;> simp [WSlot.loadable, h]

/-- What WLOAD does once it is its tile's next instruction and its beat is open. -/
theorem exec_wload {n : Fin 64} {t : Fin 4} {s : State} {q : QInstr} (hq : (s.cals[n]).nextOf t = some q) (ho : opOf q.raw = 0x22)
    (hm : s.mayIssue n t q.beat = true) : exec (.wload n t) s =
      if ((s.cals[n]).arrs[arrIdx (wlTile q.raw) (Fin.ofNat 4 (wlArray q.raw))].slot (wlSlotB q.raw)).loadable = true then
        .next (s.modCal n (fun c => wloadStart c t q.raw))
      else .next s := by
  show execWload n t s = _
  simp only [execWload, hq, ho, hm, true_and]

theorem exec_wloadComplete {n : Fin 64} {i : Fin 16} {b : Bool} {s : State} (hl : (((s.cals[n]).arrs[i]).slot b).st = .loading)
    (hc : (((s.cals[n]).arrs[i]).slot b).chain = none) : exec (.wloadComplete n i b) s =
      .next (s.modCal n (fun c => c.modArr i (fun a => a.setSlot b (loadSlot c (((s.cals[n]).arrs[i]).slot b))))) :=
  if_pos ⟨hl, hc⟩

theorem Caldera.modArr_congr {c : Caldera} {i : Fin 16} {f g : Arr → Arr} (h : f c.arrs[i] = g c.arrs[i]) : c.modArr i f = c.modArr i g := by
  simp only [Caldera.modArr, vmod_const, h]

/-! ### Relay chains (R42, R43) -/

/-- What a RELAY leaves of its caldera, its slot apart. -/
def Caldera.joinRelay (c : Caldera) (t : Fin 4) (raw : BitVec 256) : Caldera :=
  { c with queue := dropFirst t.val c.queue, relays := c.relays ++ [{ raw := raw, idx := c.relayLog.length }], relayLog := c.relayLog ++ [raw] }

/-- What RELAY does once it is its tile's next instruction and its beat is open. -/
theorem exec_relay {n : Fin 64} {t : Fin 4} {s : State} {q : QInstr} {raw : BitVec 256} {i : Fin 16}
    (hq : (s.cals[n]).nextOf t = some q) (ho : opOf q.raw = 0x23) (hm : s.mayIssue n t q.beat = true) (hr : raw = q.raw.setWidth 256)
    (hi : i = arrIdx (rlTile raw) (Fin.ofNat 4 (rlArray raw))) : exec (.relay n t) s =
      if rlToSlot raw = true then
        if ((s.cals[n]).arrs[i].slot (rlSlotB raw)).loadable = true then
          .next (s.modCal n (fun c => (c.modArr i (fun a => a.setSlot (rlSlotB raw) { a.slot (rlSlotB raw) with
            st := .loading, fmt := BitVec.ofNat 4 (rlFmt raw), kValid := BitVec.ofNat 8 (rlKValid raw), blockId := rlBlockId raw
            src := BitVec.ofNat 24 (rlAddr raw), chain := some n, far := false, image := [] })).joinRelay t raw))
        else .next s
      else .next (s.modCal n (fun c => c.joinRelay t raw)) := by
  subst hr hi
  show execRelay n t s = _
  cases hs : rlToSlot (q.raw.setWidth 256) with
  | false =>
    simp only [execRelay, hq, ho, hm, hs, Bool.not_false, Bool.true_or, and_self, if_true, Bool.false_eq_true, if_false]
    rfl
  | true =>
    simp only [execRelay, hq, ho, hm, hs, Bool.not_true, Bool.false_or, true_and, if_true]
    rfl

/-- A source endpoint that holds a word has not drained. -/
theorem conduitDrained_of_word (s : State) (r : EpRef) (h : (s.endpoint r).word.isSome = true) : s.conduitDrained r = false := by
  simp [State.conduitDrained, Option.isSome_iff_ne_none.1 h]

theorem relayDone_stays {s : State} {n : Fin 64} {k : Nat} {r : Relay} (hr : (s.cals[n]).relays[k]? = some r)
    (h : r.accepted ≠ rlLen r.raw ∨ (rlForward r.raw = true ∧
      (r.forwarded ≠ rlLen r.raw ∨ s.conduitDrained (.cal n (Fin.ofNat 64 (rlOutEp r.raw))) = false))) : s.relayDone n k = s := by
  simp only [State.relayDone, hr]
  refine if_neg ?_
  rintro ⟨ha, hf⟩
  rcases h with h | ⟨hw, h⟩
  · exact h ha
  · rcases hf with hf | ⟨hl, hd⟩
    · simp [hw] at hf
    · rcases h with h | h
      · exact h hl
      · exact Bool.noConfusion (h.symm.trans hd)

theorem relayDone_leaves {s : State} {n : Fin 64} {k : Nat} {r : Relay} (hr : (s.cals[n]).relays[k]? = some r)
    (ha : r.accepted = rlLen r.raw) (hf : rlForward r.raw = false ∨
      (r.forwarded = rlLen r.raw ∧ s.conduitDrained (.cal n (Fin.ofNat 64 (rlOutEp r.raw))) = true)) :
    s.relayDone n k = s.modCal n (fun c => { c with relays := c.relays.eraseIdx k }) := by
  simp only [State.relayDone, hr]
  refine if_pos ⟨ha, ?_⟩
  simpa using hf

/-- The member's granule leaves: its endpoint is enabled, an output and free, and no earlier member has to send there. -/
theorem relayForward_sends {c : Caldera} {k : Nat} {r : Relay} {e : Fin 64} (hr : c.relays[k]? = some r) (hf : rlForward r.raw = true)
    (hk : r.forwarded < r.accepted) (he : e = Fin.ofNat 64 (rlOutEp r.raw)) (hen : (c.eps[e]).en = true) (hout : (c.eps[e]).out = true)
    (hw : (c.eps[e]).word = none) (hm : mayForward c k r = true) :
    relayForward c k = { c with eps := vmod c.eps e (fun x => x.put (ofBytes 512 (slice r.image (64 * r.forwarded) 64)))
                                relays := c.relays.set k { r with forwarded := r.forwarded + 1 } } := by
  subst he
  simp only [relayForward, hr]
  exact if_pos ⟨hf, hk, hen, hout, hw, hm⟩

theorem relayForward_holds {c : Caldera} {k : Nat} {r : Relay} (hr : c.relays[k]? = some r)
    (h : ¬(rlForward r.raw = true ∧ (c.eps[Fin.ofNat 64 (rlOutEp r.raw)]).word = none ∧ mayForward c k r = true)) : relayForward c k = c := by
  simp only [relayForward, hr]
  exact if_neg fun ⟨hf, _, _, _, hw, hm⟩ => h ⟨hf, hw, hm⟩

/-- The granule that a member takes from its endpoint. -/
theorem relayInput_endpoint {c : Caldera} {k : Nat} {r : Relay} {e : Fin 64} {w : CWord} (ha : r.accepted < rlLen r.raw)
    (hf : rlFromSram r.raw = false) (he : e = Fin.ofNat 64 (rlInEp r.raw)) (hen : (c.eps[e]).en = true) (hout : (c.eps[e]).out = false)
    (hw : (c.eps[e]).word = some w) (hm : mayAccept c k r = true) : relayInput c k r = some (toBytes w 64) := by
  subst he
  simp only [relayInput, if_neg (Nat.not_le.2 ha), hf, Bool.false_eq_true, if_false, hen, hout, hm, hw]
  rfl

theorem exec_relayGranule_forward {n : Fin 64} {k : Nat} {s : State} {r : Relay} (hr : (s.cals[n]).relays[k]? = some r)
    (hf : rlForward r.raw = true) (hk : r.forwarded < r.accepted) :
    exec (.relayGranule n k) s = .next ((s.modCal n (fun c => relayForward c k)).relayDone n k) := by
  show execRelayGranule n k s = _
  simp only [execRelayGranule, hr]
  exact if_pos ⟨hf, hk⟩

theorem exec_relayGranule_accept {n : Fin 64} {k : Nat} {s : State} {r : Relay} {g : List Byte} (hr : (s.cals[n]).relays[k]? = some r)
    (hk : rlForward r.raw = false ∨ r.forwarded = r.accepted) (hg : relayInput (s.cals[n]) k r = some g) :
    exec (.relayGranule n k) s =
      .next ((s.modCal n (fun c => relayForward (relayAccept c k r g (s.chainHead n r.idx r.raw)) k)).relayDone n k) := by
  show execRelayGranule n k s = _
  simp only [execRelayGranule, hr, hg]
  refine if_neg ?_
  rintro ⟨hf, hlt⟩
  rcases hk with hk | hk
  · exact Bool.noConfusion (hk.symm.trans hf)
  · omega

theorem exec_relayGranule_full {n : Fin 64} {k : Nat} {s : State} {r : Relay} (hr : (s.cals[n]).relays[k]? = some r)
    (ha : r.accepted = rlLen r.raw) (hf : r.forwarded = rlLen r.raw) : exec (.relayGranule n k) s = .next (s.relayDone n k) := by
  have hg : relayInput (s.cals[n]) k r = none := if_pos ha.ge
  show execRelayGranule n k s = _
  simp only [execRelayGranule, hr, hg]
  exact if_neg (by omega)

theorem put_holds (v : Vector Endpoint 64) (o : Fin 64) (w : CWord) : ((vmod v o (fun x => x.put w))[o]).word.isSome = true := by
  rw [vmod_get_same]
  rfl

/-- A changed member that forwards and whose endpoint holds a word, or that has granules left, stays. -/
theorem relayDone_modCal_stays {s : State} {n : Fin 64} {k : Nat} {c : Caldera} {r : Relay} (hr : c.relays[k]? = some r)
    (h : r.accepted ≠ rlLen r.raw ∨ (rlForward r.raw = true ∧ ((c.eps[Fin.ofNat 64 (rlOutEp r.raw)]).word.isSome = true))) :
    (s.modCal n (fun _ => c)).relayDone n k = s.modCal n (fun _ => c) := by
  refine relayDone_stays (by rw [State.modCal_at]; exact hr) (h.imp_right fun ⟨hf, hw⟩ => ⟨hf, .inr (conduitDrained_of_word _ _ ?_)⟩)
  rw [State.endpoint, State.modCal_at]
  exact hw

/-- A changed member that only keeps leaves with its last granule. -/
theorem relayDone_modCal_leaves {s : State} {n : Fin 64} {k : Nat} {c : Caldera} {r : Relay} (hr : c.relays[k]? = some r)
    (ha : r.accepted = rlLen r.raw) (hf : rlForward r.raw = false) :
    (s.modCal n (fun _ => c)).relayDone n k = s.modCal n (fun _ => { c with relays := c.relays.eraseIdx k }) := by
  rw [relayDone_leaves (by rw [State.modCal_at]; exact hr) ha (.inl hf), State.modCal_modCal]

/-- The member at a place after it has been replaced there. -/
theorem getElem?_set_relay {l : List Relay} {k : Nat} {r : Relay} (r' : Relay) (h : l[k]? = some r) : (l.set k r')[k]? = some r' := by
  rw [List.getElem?_set_self (List.getElem?_eq_some_iff.1 h).1]

/-- Which earlier members have to send does not depend on the member itself. -/
theorem mayForward_congr {c d : Caldera} {k : Nat} {r r' : Relay} (hl : d.relays = c.relays.set k r') (hr : r'.raw = r.raw) :
    mayForward d k r' = mayForward c k r := by
  rw [mayForward, mayForward, hl, hr, List.take_set_of_le (Nat.le_refl k)]

/-- The member after it has taken a granule. -/
def Relay.took (r : Relay) (g : List Byte) : Relay := { r with accepted := r.accepted + 1, image := r.image ++ g }

/-- The caldera after its member at place `k` has taken a granule, its slot apart. -/
def Caldera.tookGranule (c : Caldera) (k : Nat) (r : Relay) (g : List Byte) : Caldera :=
  { c with
    sram := if rlToSram r.raw then mwriteN c.sram (rlAddr r.raw + 64 * r.accepted) g else c.sram
    eps := if rlFromSram r.raw then c.eps else vmod c.eps (Fin.ofNat 64 (rlInEp r.raw)) Endpoint.take
    relays := c.relays.set k (r.took g) }

/-- An endpoint that the member does not take from is as it was. -/
theorem tookGranule_other (c : Caldera) (k : Nat) {r : Relay} (g : List Byte) {o : Fin 64}
    (h : rlFromSram r.raw = true ∨ o ≠ Fin.ofNat 64 (rlInEp r.raw)) : (c.tookGranule k r g).eps[o] = c.eps[o] := by
  show (if rlFromSram r.raw = true then c.eps else vmod c.eps (Fin.ofNat 64 (rlInEp r.raw)) Endpoint.take)[o] = _
  split
  next => rfl
  next hf => exact vmod_get_ne _ _ _ _ (h.resolve_left hf)

/-- An array whose slot the member's image fills: READY, with the chain's head as its source (R41). -/
def Arr.filled (a : Arr) (r : Relay) (image : List Byte) (head : Option (Fin 64 × Nat)) : Arr :=
  a.setSlot (rlSlotB r.raw) { a.slot (rlSlotB r.raw) with
    st := .ready, image := image, far := head.isNone, src := BitVec.ofNat 24 ((head.map (·.2)).getD (rlAddr r.raw))
    chain := (head.map (·.1)).or (a.slot (rlSlotB r.raw)).chain }

/-- A granule taken: it is kept, and the last one fills the slot. -/
theorem relayAccept_eq (c : Caldera) (k : Nat) (r : Relay) (g : List Byte) (head : Option (Fin 64 × Nat)) : relayAccept c k r g head =
    if rlToSlot r.raw = true ∧ r.accepted + 1 = rlLen r.raw then
      (c.tookGranule k r g).modArr (arrIdx (rlTile r.raw) (Fin.ofNat 4 (rlArray r.raw))) (fun a => a.filled r (r.image ++ g) head)
    else c.tookGranule k r g := by
  unfold relayAccept
  extract_lets c1 c2 r1 c3
  have h : c3 = c.tookGranule k r g := by
    unfold c3 c2 c1 Caldera.tookGranule
    split <;> split <;> rfl
  rw [h]
  rfl

theorem relayAccept_relays (c : Caldera) (k : Nat) (r : Relay) (g : List Byte) (head : Option (Fin 64 × Nat)) :
    (relayAccept c k r g head).relays = c.relays.set k (r.took g) := by
  rw [relayAccept_eq]
  split <;> rfl

theorem relayAccept_keeps {c : Caldera} {k : Nat} {r : Relay} {g : List Byte} {head : Option (Fin 64 × Nat)} (hs : rlToSlot r.raw = false) :
    relayAccept c k r g head = c.tookGranule k r g := by
  rw [relayAccept_eq, if_neg (by rw [hs]; exact fun h => Bool.noConfusion h.1)]

/-- A granule kept by a member that forwards none: with its last one the member leaves. -/
theorem exec_relayGranule_kept {n : Fin 64} {k : Nat} {s : State} {r : Relay} {g : List Byte} (hr : (s.cals[n]).relays[k]? = some r)
    (hf : rlForward r.raw = false) (hs : rlToSlot r.raw = false) (hg : relayInput (s.cals[n]) k r = some g) :
    exec (.relayGranule n k) s = .next (s.modCal n (fun c => { c.tookGranule k r g with
      relays := if r.accepted + 1 = rlLen r.raw then c.relays.eraseIdx k else c.relays.set k (r.took g) })) := by
  have hset := getElem?_set_relay (r.took g) hr
  have hc : s.modCal n (fun c => relayForward (relayAccept c k r g (s.chainHead n r.idx r.raw)) k)
      = s.modCal n (fun _ => (s.cals[n]).tookGranule k r g) := by
    apply State.modCal_congr
    rw [relayAccept_keeps hs]
    exact relayForward_holds hset (by simp [Relay.took, hf])
  rw [exec_relayGranule_accept hr (.inl hf) hg, hc]
  by_cases hlast : r.accepted + 1 = rlLen r.raw
  · rw [relayDone_modCal_leaves (r := r.took g) hset hlast hf]
    simp only [Caldera.tookGranule, List.eraseIdx_set_eq, if_pos hlast]
    exact congrArg _ (State.modCal_congr rfl)
  · rw [relayDone_modCal_stays (r := r.took g) hset (.inl hlast)]
    simp only [if_neg hlast]
    exact congrArg _ (State.modCal_congr rfl)

/-- A granule taken and sent on at once: the member's endpoint holds it, so the member stays. -/
theorem exec_relayGranule_through {n : Fin 64} {k : Nat} {s : State} {r : Relay} {o : Fin 64} {g : List Byte} (hr : (s.cals[n]).relays[k]? = some r)
    (hf : rlForward r.raw = true) (hs : rlToSlot r.raw = false) (hk : r.forwarded = r.accepted) (ho : o = Fin.ofNat 64 (rlOutEp r.raw))
    (hen : ((s.cals[n]).eps[o]).en = true) (hout : ((s.cals[n]).eps[o]).out = true) (hw : ((s.cals[n]).eps[o]).word = none)
    (hm : mayForward (s.cals[n]) k r = true) (hl : r.image.length = 64 * r.accepted) (hg : relayInput (s.cals[n]) k r = some g)
    (hlen : g.length = 64) (hne : rlFromSram r.raw = true ∨ o ≠ Fin.ofNat 64 (rlInEp r.raw)) :
    exec (.relayGranule n k) s = .next (s.modCal n (fun c => { c.tookGranule k r g with
      eps := vmod (c.tookGranule k r g).eps o (fun x => x.put (ofBytes 512 g))
      relays := c.relays.set k { r.took g with forwarded := r.forwarded + 1 } })) := by
  have hset := getElem?_set_relay (r.took g) hr
  have hep := tookGranule_other (s.cals[n]) k g hne
  have hslice : slice (r.took g).image (64 * (r.took g).forwarded) 64 = g := slice_append_right _ _ _ _ (by rw [hl, Relay.took, hk]) hlen
  have hc : s.modCal n (fun c => relayForward (relayAccept c k r g (s.chainHead n r.idx r.raw)) k)
      = s.modCal n (fun _ => { (s.cals[n]).tookGranule k r g with
          eps := vmod ((s.cals[n]).tookGranule k r g).eps o (fun x => x.put (ofBytes 512 g))
          relays := (s.cals[n]).relays.set k { r.took g with forwarded := r.forwarded + 1 } }) := by
    apply State.modCal_congr
    rw [relayAccept_keeps hs, relayForward_sends (r := r.took g) hset hf (Nat.lt_succ_of_le hk.le) ho (by rw [hep, hen])
      (by rw [hep, hout]) (by rw [hep, hw]) ((mayForward_congr rfl rfl).trans hm), hslice]
    simp only [Caldera.tookGranule, List.set_set]
    rfl
  rw [exec_relayGranule_accept hr (.inr hk) hg, hc, relayDone_modCal_stays (r := { r.took g with forwarded := r.forwarded + 1 })
    (getElem?_set_relay _ hr) (.inr ⟨hf, ?_⟩)]
  · exact congrArg _ (State.modCal_congr rfl)
  · subst ho
    exact put_holds _ _ _

/-- The last granule of a member that fills a slot: the slot is READY with the chain's head, and the member leaves. -/
theorem exec_relayGranule_fills {n : Fin 64} {k : Nat} {s : State} {r : Relay} {g : List Byte} {m : Fin 64} {src : Nat}
    (hr : (s.cals[n]).relays[k]? = some r) (hh : s.chainHead n r.idx r.raw = some (m, src)) (hf : rlForward r.raw = false)
    (hs : rlToSlot r.raw = true) (hlast : r.accepted + 1 = rlLen r.raw) (hg : relayInput (s.cals[n]) k r = some g) :
    exec (.relayGranule n k) s = .next (s.modCal n (fun c => { c.tookGranule k r g with
      arrs := vmod c.arrs (arrIdx (rlTile r.raw) (Fin.ofNat 4 (rlArray r.raw))) (fun a => a.setSlot (rlSlotB r.raw)
        { a.slot (rlSlotB r.raw) with
          st := .ready, image := r.image ++ g, far := false, src := BitVec.ofNat 24 src, chain := some m })
      relays := c.relays.eraseIdx k })) := by
  have hset := getElem?_set_relay (r.took g) hr
  have hc : s.modCal n (fun c => relayForward (relayAccept c k r g (s.chainHead n r.idx r.raw)) k)
      = s.modCal n (fun _ => { (s.cals[n]).tookGranule k r g with
          arrs := vmod (s.cals[n]).arrs (arrIdx (rlTile r.raw) (Fin.ofNat 4 (rlArray r.raw))) (fun a => a.setSlot (rlSlotB r.raw)
            { a.slot (rlSlotB r.raw) with
              st := .ready, image := r.image ++ g, far := false, src := BitVec.ofNat 24 src, chain := some m }) }) := by
    apply State.modCal_congr
    rw [hh, relayForward_holds (r := r.took g) (by rw [relayAccept_relays]; exact hset) (by simp [Relay.took, hf])]
    rw [relayAccept_eq, if_pos ⟨hs, hlast⟩]
    rfl
  rw [exec_relayGranule_accept hr (.inl hf) hg, hc, relayDone_modCal_leaves (r := r.took g) hset hlast hf]
  simp only [Caldera.tookGranule, List.eraseIdx_set_eq]
  exact congrArg _ (State.modCal_congr rfl)

/-- A kept granule that leaves: the member's endpoint holds it, so the member stays. -/
theorem exec_relayGranule_sends {n : Fin 64} {k : Nat} {s : State} {r : Relay} {e : Fin 64} (hr : (s.cals[n]).relays[k]? = some r)
    (hf : rlForward r.raw = true) (hk : r.forwarded < r.accepted) (he : e = Fin.ofNat 64 (rlOutEp r.raw))
    (hen : ((s.cals[n]).eps[e]).en = true) (hout : ((s.cals[n]).eps[e]).out = true) (hw : ((s.cals[n]).eps[e]).word = none)
    (hm : mayForward (s.cals[n]) k r = true) :
    exec (.relayGranule n k) s = .next (s.modCal n (fun c => { c with
      eps := vmod c.eps e (fun x => x.put (ofBytes 512 (slice r.image (64 * r.forwarded) 64)))
      relays := c.relays.set k { r with forwarded := r.forwarded + 1 } })) := by
  have hc : s.modCal n (fun c => relayForward c k) = s.modCal n (fun _ => { s.cals[n] with
      eps := vmod (s.cals[n]).eps e (fun x => x.put (ofBytes 512 (slice r.image (64 * r.forwarded) 64)))
      relays := (s.cals[n]).relays.set k { r with forwarded := r.forwarded + 1 } }) :=
    State.modCal_congr (relayForward_sends hr hf hk he hen hout hw hm)
  rw [exec_relayGranule_forward hr hf hk, hc, relayDone_modCal_stays (r := { r with forwarded := r.forwarded + 1 })
    (getElem?_set_relay _ hr) (.inr ⟨hf, ?_⟩)]
  · exact congrArg _ (State.modCal_congr rfl)
  · subst he
    exact put_holds _ _ _

/-- A kept granule waits for its endpoint, and for the earlier members that send there. -/
theorem exec_relayGranule_waits {n : Fin 64} {k : Nat} {s : State} {r : Relay} (hr : (s.cals[n]).relays[k]? = some r)
    (hf : rlForward r.raw = true) (hk : r.forwarded < r.accepted) (hl : r.forwarded < rlLen r.raw)
    (hw : (((s.cals[n]).eps[Fin.ofNat 64 (rlOutEp r.raw)]).word.isSome = true) ∨ mayForward (s.cals[n]) k r = false) :
    exec (.relayGranule n k) s = .next s := by
  have hh : relayForward (s.cals[n]) k = s.cals[n] := relayForward_holds hr <| by
    rintro ⟨-, hn, hm⟩
    rcases hw with hw | hw
    · rw [hn] at hw
      exact Bool.noConfusion hw
    · exact Bool.noConfusion (hw.symm.trans hm)
  rw [exec_relayGranule_forward hr hf hk, State.modCal_self hh, relayDone_stays hr (.inr ⟨hf, .inl (Nat.ne_of_lt hl)⟩)]

/-- Settles O9: WLOAD and RELAY by their slot's state, and each granule by what its member does with it. -/
theorem weightSlotsAndRelays : Obligations.WeightSlotsAndRelays := by
  unfold Obligations.WeightSlotsAndRelays
  refine ⟨⟨?wload, ?wloadComplete⟩, ?relay, ?kept, ?fills, ?sends, ?through, ?full⟩
  case wload =>
    rintro n t s q i hq ho hm rfl
    rw [exec_wload hq ho hm]
    exact ⟨fun h => if_pos ((WSlot.loadable_iff _).2 h), fun h => if_neg (by rw [WSlot.not_loadable h]; exact Bool.noConfusion)⟩
  case wloadComplete =>
    intro n i b s hl hc
    rw [exec_wloadComplete hl hc]
    exact congrArg _ (State.modCal_congr (Caldera.modArr_congr rfl))
  case relay =>
    intro n t s q raw i hq ho hm hr hi
    rw [exec_relay hq ho hm hr hi]
    refine ⟨fun hs => ?_, fun hs hl => ?_, fun hs hl => ?_⟩
    · rw [if_neg (by rw [hs]; exact Bool.noConfusion)]
      rfl
    · rw [if_pos hs, if_pos hl]
      rfl
    · rw [if_pos hs, if_neg (by rw [hl]; exact Bool.noConfusion)]
  case kept =>
    rintro n k s r e w hr hf hfs hs hto ha rfl hen hout hw hm
    rw [exec_relayGranule_kept hr hf hs (relayInput_endpoint ha hfs rfl hen hout hw hm)]
    simp only [Caldera.tookGranule, Relay.took, hto, hfs, if_true, Bool.false_eq_true, if_false]
  case fills =>
    rintro n k s r e w m src hr hh hf hfs hs hto hlast rfl hen hout hw hm
    rw [exec_relayGranule_fills hr hh hf hs hlast (relayInput_endpoint (by omega) hfs rfl hen hout hw hm)]
    simp only [Caldera.tookGranule, hto, hfs, Bool.false_eq_true, if_false]
  case sends =>
    rintro n k s r e hr hf hk rfl hen hout
    exact ⟨exec_relayGranule_sends hr hf hk rfl hen hout, exec_relayGranule_waits hr hf hk⟩
  case through =>
    intro n k s r o hr hf hs hk ha ho hen hout hw hm hl
    refine ⟨fun hfs hto => ?_, ?_⟩
    · have hg : relayInput (s.cals[n]) k r = some (mreadN (s.cals[n]).sram (rlAddr r.raw + 64 * r.accepted) 64) := by
        rw [relayInput, if_neg (Nat.not_le.2 ha), if_pos hfs]
      rw [exec_relayGranule_through hr hf hs hk ho hen hout hw hm hl hg (by simp [mreadN]) (.inl hfs)]
      simp only [Caldera.tookGranule, Relay.took, hto, hfs, if_true, Bool.false_eq_true, if_false]
      exact congrArg _ (State.modCal_congr rfl)
    · rintro e w hfs rfl hine hinout hinw hinm
      have hne : o ≠ Fin.ofNat 64 (rlInEp r.raw) := by
        rintro rfl
        exact Bool.noConfusion (hinout.symm.trans hout)
      rw [exec_relayGranule_through hr hf hs hk ho hen hout hw hm hl (relayInput_endpoint ha hfs rfl hine hinout hinw hinm)
        (length_toBytes w 64) (.inr hne), ofBytes_toBytes w 64 (by decide)]
      simp only [Caldera.tookGranule, Relay.took, hfs, Bool.false_eq_true, if_false]
  case full =>
    intro n k s r hr hf ha hs
    rw [exec_relayGranule_full hr ha hs]
    exact ⟨fun hd => by rw [relayDone_leaves hr ha (.inr ⟨hs, hd⟩)], fun hd => by rw [relayDone_stays hr (.inr ⟨hf, .inr hd⟩)]⟩

/-! ### The arrays of a pass, one after the other -/

/-- What each step of a fold sets and no step undoes holds at its end. -/
theorem foldl_establishes {α β : Type} {P : α → β → Prop} {f : β → α → β} (hset : ∀ c a, P a (f c a))
    (hkeep : ∀ c a b, P b c → P b (f c a)) (l : List α) (c : β) : ∀ a ∈ l, P a (l.foldl f c) := by
  induction l generalizing c with
  | nil => exact fun _ h => absurd h List.not_mem_nil
  | cons x l ih =>
    intro a ha
    rcases List.mem_cons.1 ha with rfl | ha
    · exact List.foldlRecOn (motive := P a) l f (hset c a) fun c h b _ => hkeep c b a h
    · exact ih _ a ha

/-- Of a caldera, only the arrays differ. -/
def ArrsOnly (c d : Caldera) : Prop := ∃ v, d = { c with arrs := v }

theorem ArrsOnly.refl (c : Caldera) : ArrsOnly c c := ⟨_, rfl⟩

theorem ArrsOnly.trans {c d e : Caldera} : ArrsOnly c d → ArrsOnly d e → ArrsOnly c e := by
  rintro ⟨v, rfl⟩ ⟨w, rfl⟩
  exact ⟨w, rfl⟩

theorem ArrsOnly.modArr (c : Caldera) (i : Fin 16) (f : Arr → Arr) : ArrsOnly c (c.modArr i f) := ⟨_, rfl⟩

theorem ArrsOnly.foldl {α : Type} {f : Caldera → α → Caldera} (hf : ∀ c a, ArrsOnly c (f c a)) (l : List α) (c : Caldera) :
    ArrsOnly c (l.foldl f c) := by
  induction l generalizing c with
  | nil => exact .refl c
  | cons a l ih => exact (hf c a).trans (ih _)

theorem Caldera.modArr_get (c : Caldera) (i j : Fin 16) (f : Arr → Arr) : (c.modArr i f).arrs[j] = if j = i then f c.arrs[j] else c.arrs[j] := by
  split
  next h => subst h; exact vmod_get_same _ _ _
  next h => exact vmod_get_ne _ _ _ _ h

/-- What the change of one array gives at its place and leaves to hold everywhere, holds everywhere it held. -/
theorem Caldera.modArr_keeps {P : Arr → Prop} {c : Caldera} {i j : Fin 16} {f : Arr → Arr} (hf : ∀ a, P a → P (f a)) (h : P c.arrs[j]) :
    P ((c.modArr i f).arrs[j]) := by
  rw [Caldera.modArr_get]
  split
  · exact hf _ h
  · exact h

@[simp] theorem Arr.slot_setSlot (a : Arr) (b b' : Bool) (w : WSlot) : (a.setSlot b w).slot b' = if b' = b then w else a.slot b' := by
  cases b <;> cases b' <;> rfl

/-! ### Issue of a pass (R49 to R51, R58, R63) -/

/-- The pass pins the slot of one of its arrays and advances its generator. -/
def Arr.pin (r : Arr) (b : Bool) (g : Word) : Arr := { (r.setSlot b { r.slot b with st := .pinned }) with gen := g }

theorem Arr.pin_pinned (r : Arr) (b b' : Bool) (g : Word) (h : b' = b ∨ (r.slot b').st = .pinned) : ((r.pin b g).slot b').st = .pinned := by
  show ((r.setSlot b { r.slot b with st := .pinned }).slot b').st = .pinned
  rw [Arr.slot_setSlot]
  split
  next => rfl
  next hne => exact h.resolve_left hne

/-- What an issue makes of a caldera: the pass `p` at the end of the passes, in FEED, with its generators and its slots. -/
structure PassIssued (c d : Caldera) (raw : Data1024) (beat due : Nat) (replay : Option Pass) (p : Pass) : Prop where
  frame : d = { c with arrs := d.arrs, passes := c.passes ++ [p], issued := if replay.isSome then c.issued else c.issued + 1, rings := d.rings }
  instr : p.raw = raw
  serial : p.serial = (replay.map (·.serial)).getD c.issued
  chain : ∀ r, replay = some r → p.chain = r.chain ∧ p.chainPos = r.chainPos
  beats : p.issueBeat = beat ∧ p.dueBeat = due
  fresh : p.st = .feed ∧ p.rows = 0 ∧ p.drained = 0
  gens : p.gens = startGens c raw replay ∧ p.snaps = startGens c raw replay
  pinned : ∀ a ∈ apArrays raw, ((d.arrs[arrIdx (apTile raw) a]).slot (apSlotB raw a.val)).st = .pinned

theorem issuePass_passIssued (c : Caldera) (raw : Data1024) (h : PlanId) (beat due : Nat) (replay : Option Pass) :
    ∃ p, PassIssued c (issuePass c raw h beat due replay) raw beat due replay p := by
  unfold issuePass
  extract_lets gens prev p c1 drain rings
  have hc1 : c1 = (apArrays raw).foldl (fun c a => c.modArr (arrIdx (apTile raw) a)
    (fun r => r.pin (apSlotB raw a.val) (advance (passDraws raw a) gens[a]))) c := rfl
  have hpin : ∀ a ∈ apArrays raw, ((c1.arrs[arrIdx (apTile raw) a]).slot (apSlotB raw a.val)).st = .pinned := by
    rw [hc1]
    refine foldl_establishes (P := fun a c => (((c : Caldera).arrs[arrIdx (apTile raw) a]).slot (apSlotB raw a.val)).st = .pinned)
      (fun c a => ?_) (fun c a b hb => ?_) _ _
    · rw [Caldera.modArr_get, if_pos rfl]
      exact Arr.pin_pinned _ _ _ _ (.inl rfl)
    · exact Caldera.modArr_keeps (P := fun r => (r.slot (apSlotB raw b.val)).st = .pinned) (fun r hr => Arr.pin_pinned _ _ _ _ (.inr hr)) hb
  obtain ⟨v, hv⟩ : ArrsOnly c c1 := hc1 ▸ ArrsOnly.foldl (fun c a => .modArr c _ _) _ _
  clear_value c1
  subst hv
  exact ⟨p, { frame := rfl, instr := rfl, serial := rfl, chain := by rintro r rfl; exact ⟨rfl, rfl⟩, beats := ⟨rfl, rfl⟩
              fresh := ⟨rfl, rfl, rfl⟩, gens := ⟨rfl, rfl⟩, pinned := hpin }⟩

/-- A replay's generators start from its snapshot. -/
theorem startGens_replay (c : Caldera) (raw : Data1024) (r : Pass) : startGens c raw (some r) = r.snaps := by
  apply Vector.ext
  intro i hi
  simp [startGens]

/-- What PASS_ISSUE does for the candidate of a tile in a running plan. -/
theorem exec_passIssue {n : Fin 64} {t : Fin 4} {s : State} {pl : Plan} {d : Candidate} (hp : s.planOn n = some pl) (hr : pl.run = .running)
    (hs : (s.cals[n]).sarmDue pl.beat = false) (hd : (s.cals[n]).candidate t = some d) : exec (.passIssue n t) s =
      if pl.beat < d.beat then .next s
      else if fmtClash (s.cals[n]) d.raw = true then .next ((s.modCal n (fun c => c.fmtFail d.raw)).planStop pl.handle .fmtErr n.val)
      else if issueWaits ((s.cals[n]).without d) d.raw pl.beat d.replay = 0 then .next (s.modCal n (fun c => c.issue t pl.handle d))
      else .next s := by
  show execPassIssue n t s = _
  simp only [execPassIssue, hp, hr, hs, hd, ne_eq, not_true_eq_false, Bool.false_eq_true, or_self, if_false]

/-- A candidate before its beat, or with an unmet condition, waits. -/
theorem exec_passIssue_waits {n : Fin 64} {t : Fin 4} {s : State} {pl : Plan} {d : Candidate} (hp : s.planOn n = some pl)
    (hr : pl.run = .running) (hs : (s.cals[n]).sarmDue pl.beat = false) (hd : (s.cals[n]).candidate t = some d)
    (h : pl.beat < d.beat ∨ (fmtClash (s.cals[n]) d.raw = false ∧ issueWaits ((s.cals[n]).without d) d.raw pl.beat d.replay ≠ 0)) :
    exec (.passIssue n t) s = .next s := by
  rw [exec_passIssue hp hr hs hd]
  rcases h with hb | ⟨hf, hw⟩
  · exact if_pos hb
  · simp only [hf, Bool.false_eq_true, if_false, if_neg hw, ite_self]

theorem exec_passIssue_issues {n : Fin 64} {t : Fin 4} {s : State} {pl : Plan} {d : Candidate} (hp : s.planOn n = some pl)
    (hr : pl.run = .running) (hs : (s.cals[n]).sarmDue pl.beat = false) (hd : (s.cals[n]).candidate t = some d) (hb : d.beat ≤ pl.beat)
    (hf : fmtClash (s.cals[n]) d.raw = false) (hw : issueWaits ((s.cals[n]).without d) d.raw pl.beat d.replay = 0) :
    exec (.passIssue n t) s = .next (s.modCal n (fun c => c.issue t pl.handle d)) := by
  rw [exec_passIssue hp hr hs hd, if_neg (Nat.not_lt.2 hb), hf, if_neg Bool.noConfusion, if_pos hw]

theorem exec_passIssue_clashes {n : Fin 64} {t : Fin 4} {s : State} {pl : Plan} {d : Candidate} (hp : s.planOn n = some pl)
    (hr : pl.run = .running) (hs : (s.cals[n]).sarmDue pl.beat = false) (hd : (s.cals[n]).candidate t = some d) (hb : d.beat ≤ pl.beat)
    (hf : fmtClash (s.cals[n]) d.raw = true) :
    exec (.passIssue n t) s = .next ((s.modCal n (fun c => c.fmtFail d.raw)).planStop pl.handle .fmtErr n.val) := by
  rw [exec_passIssue hp hr hs hd, if_neg (Nat.not_lt.2 hb), if_pos hf]

/-- With no candidate nothing happens. -/
theorem exec_passIssue_none {n : Fin 64} {t : Fin 4} {s : State} (hd : (s.cals[n]).candidate t = none) : exec (.passIssue n t) s = .next s := by
  show execPassIssue n t s = _
  unfold execPassIssue
  split
  · rfl
  · split
    · rfl
    · rw [hd]

theorem candidate_queued {c : Caldera} {t : Fin 4} {q : QInstr} (hr : c.replays = []) (hq : c.nextOf t = some q) (ho : opOf q.raw = 0x21) :
    c.candidate t = some { raw := q.raw, beat := q.beat, due := q.beat + apBeats q.raw - 1 } := by
  simp [Caldera.candidate, Caldera.tileParked, Caldera.due, Caldera.queuedPass, hr, hq, ho]

theorem candidate_parked {c : Caldera} {t : Fin 4} (h : c.tileParked t.val = true) : c.candidate t = none := if_pos h

/-- The oldest pass that awaits its replay goes first, unless a fault holds its tile back. -/
theorem due_cons {c : Caldera} {r : Pass} {rest : List Pass} (hr : c.replays = r :: rest) (hp : c.tileParked (apTile r.raw) = false) :
    ∃ l, c.due = r :: l := by
  rw [Caldera.due, hr, List.filter_cons_of_pos (by simp [hp])]
  exact ⟨_, rfl⟩

theorem candidate_replay {c : Caldera} {t : Fin 4} {r : Pass} {rest : List Pass} (hr : c.replays = r :: rest)
    (hp : c.tileParked (apTile r.raw) = false) : c.candidate t = if apTile r.raw = t.val then some r.again else none := by
  obtain ⟨l, hl⟩ := due_cons hr hp
  unfold Caldera.candidate
  split
  next ht =>
    rw [if_neg]
    intro he
    rw [he, ht] at hp
    exact Bool.noConfusion hp
  next => rw [hl]

/-! ### A plan stopped by a format clash (R50, R67, R254) -/

theorem findPlan_modPlan (s : State) (h : PlanId) {f : Plan → Plan} (hf : ∀ q, (f q).handle = q.handle) :
    (s.modPlan h f).findPlan h = (s.findPlan h).map f := by
  have hg : (fun q : Plan => q.handle == h) ∘ (fun q => if q.handle = h then f q else q) = fun q => q.handle == h := by
    funext q
    by_cases hq : q.handle = h <;> simp [hq, hf]
  simp only [State.findPlan, State.modPlan, List.find?_map, hg]
  cases hfind : s.plans.find? (fun q => q.handle == h) with
  | none => rfl
  | some q => simp [show q.handle = h by simpa using List.find?_some hfind]

theorem forwardNotice_raised (s : State) (n : BitVec 10) (pl : BitVec 1920) : Raised s (s.forwardNotice n pl) := by
  unfold State.forwardNotice
  dsimp only
  split
  · exact ((sendTo_eventOnly _ _ _).trans (noteRouteDrop_eventOnly _)).raised
  · exact (sendTo_eventOnly _ _ _).raised

/-- A flit sent leaves the calderas and the plans. -/
theorem sendStopNotice_frame (s : State) (kind : BitVec 2) (fplan : BitVec 16) :
    (s.sendStopNotice kind fplan).cals = s.cals ∧ (s.sendStopNotice kind fplan).plans = s.plans := by
  unfold State.sendStopNotice State.placeNotice
  split
  · split
    · exact ⟨(forwardNotice_raised _ _ _).cals, (forwardNotice_raised _ _ _).plans⟩
    · exact ⟨rfl, rfl⟩
  · exact ⟨report_cals _ _ _, plans_of_roster (report_roster _ _ _)⟩

theorem stopIfHeld_cals (s : State) (h : PlanId) : (s.stopIfHeld h).cals = s.cals := by
  unfold State.stopIfHeld
  split
  · dsimp only
    split
    · rfl
    · split <;> rfl
  · rfl

/-- A stop that takes effect at a held boundary keeps its reason. -/
theorem stopIfHeld_stop (s : State) (h : PlanId) : ((s.stopIfHeld h).findPlan h).map (·.stop) = (s.findPlan h).map (·.stop) := by
  unfold State.stopIfHeld
  split
  · dsimp only
    split
    · show ((s.modPlan h (fun q => q.stopAtBoundary _ _)).findPlan h).map (·.stop) = _
      rw [findPlan_modPlan, Option.map_map]
      · rfl
      · exact fun _ => rfl
    · split <;> rfl
  · rfl

theorem planStop_cals (s : State) (h : PlanId) (why : StopReason) (cal : Nat) : (s.planStop h why cal).cals = s.cals := by
  unfold State.planStop
  split
  · rfl
  · split
    · rfl
    · dsimp only
      split
      · exact (sendStopNotice_frame _ _ _).1
      · exact stopIfHeld_cals _ _

/-- A running plan that has no stop gets one. -/
theorem planStop_stop {s : State} {h : PlanId} {pl : Plan} (why : StopReason) (cal : Nat) (hp : s.findPlan h = some pl)
    (hs : pl.stop = none) (hr : pl.run = .running) : ((s.planStop h why cal).findPlan h).map (·.stop) = some (some why) := by
  simp only [State.planStop, hp, hs, hr, Option.isSome_none, Bool.false_eq_true, true_or, not_true_eq_false, or_self, if_false]
  split
  · rw [State.findPlan, (sendStopNotice_frame _ _ _).2, ← State.findPlan, findPlan_modPlan, hp]
    · rfl
    · exact fun _ => rfl
  · rw [stopIfHeld_stop, findPlan_modPlan, hp]
    · rfl
    · exact fun _ => rfl

theorem fmtFail_arrsOnly (c : Caldera) (raw : Data1024) : ArrsOnly c (c.fmtFail raw) := ArrsOnly.foldl (fun c _ => .modArr c _ _) _ _

theorem fmtFail_fmtErr (c : Caldera) (raw : Data1024) : ∀ a ∈ apArrays raw, ((c.fmtFail raw).arrs[arrIdx (apTile raw) a]).fmtErr = true :=
  foldl_establishes (P := fun a c => ((c : Caldera).arrs[arrIdx (apTile raw) a]).fmtErr = true)
    (fun c a => by rw [Caldera.modArr_get, if_pos rfl])
    (fun c a b hb => Caldera.modArr_keeps (P := fun r => r.fmtErr = true) (fun _ _ => rfl) hb) _ _

/-- Settles O10: each clause by the candidate that the dispatcher finds. -/
theorem passesIssueInOrder : Obligations.PassesIssueInOrder := by
  unfold Obligations.PassesIssueInOrder
  refine ⟨⟨?queued, ?waitBits⟩, ?replay, ?otherTile, fun n t s h => exec_passIssue_none (candidate_parked h)⟩
  case queued =>
    intro n t s pl q hp hs hr hq ho hrun
    have hc := candidate_queued hr hq ho
    refine ⟨fun hb => exec_passIssue_waits hp hrun hs hc (.inl hb), fun hb hw hf => exec_passIssue_waits hp hrun hs hc (.inr ⟨hf, hw⟩),
      fun hb hw hf => ?_, fun hb hf hstop hfind => ?_⟩
    · rw [exec_passIssue_issues hp hrun hs hc hb hf hw]
      obtain ⟨p, hi⟩ := issuePass_passIssued (s.cals[n]) q.raw pl.handle q.beat (q.beat + apBeats q.raw - 1) none
      obtain ⟨hst, hrows, hdrained⟩ := hi.fresh
      refine ⟨_, p, rfl, onlyCal_modCal _ _ _, ?_⟩
      rw [State.modCal_at]
      exact ⟨(congrArg Caldera.passes hi.frame :), hi.instr, hi.serial, hst, hi.beats.1, hi.beats.2, hrows, hdrained, hi.gens.2.trans hi.gens.1.symm,
        (congrArg Caldera.issued hi.frame :), rfl, (congrArg Caldera.sram hi.frame :), hi.pinned⟩
    · rw [exec_passIssue_clashes hp hrun hs hc hb hf]
      obtain ⟨v, hv⟩ := fmtFail_arrsOnly (s.cals[n]) q.raw
      refine ⟨_, rfl, ?_, ?_, planStop_stop _ _ hfind hstop hrun, ?_⟩
      all_goals rw [planStop_cals, State.modCal_at]
      · rw [hv]
      · rw [hv]
      · exact fmtFail_fmtErr _ _
  case waitBits =>
    intro n s pl q hp hrun hr hq
    have hn : (s.cals[n]).nextPass = some { raw := q.raw, beat := q.beat, due := q.beat + apBeats q.raw - 1 } := by
      simp only [Caldera.nextPass, hr, hq, Option.map_some]
    have hopen : (s.planOn n).bind (·.openBeat) = some pl.beat := by
      simp [hp, Plan.openBeat, hrun]
    simp only [State.issueWait, hn, hopen, Option.any_some, Option.getD_some, Caldera.without]
    by_cases hb : q.beat ≤ pl.beat
    · simp only [hb, decide_true, Bool.not_true, if_true]
      rfl
    · simp only [hb, decide_false, Bool.not_false, if_false]
      rfl
  case replay =>
    intro n t s pl r rest hp hs hr hrun hpark ht hb hf hw
    have hc : (s.cals[n]).candidate t = some r.again := by
      rw [candidate_replay hr (by rw [ht]; exact hpark), if_pos ht]
    rw [exec_passIssue_issues hp hrun hs hc hb hf hw]
    obtain ⟨p, hi⟩ := issuePass_passIssued ((s.cals[n]).without r.again) r.raw r.handle r.issueBeat r.dueBeat (some r)
    obtain ⟨hchain, hpos⟩ := hi.chain r rfl
    refine ⟨_, p, rfl, onlyCal_modCal _ _ _, ?_⟩
    rw [State.modCal_at]
    exact ⟨(congrArg Caldera.passes hi.frame :), hi.instr, hi.beats.1, hi.beats.2, hi.serial, hchain, hpos, hi.fresh.1,
      hi.gens.1.trans (startGens_replay _ _ _), hi.gens.2.trans (startGens_replay _ _ _), (congrArg Caldera.replays hi.frame :),
      (congrArg Caldera.queue hi.frame :), (congrArg (fun c => satInc (Caldera.passReplays c)) hi.frame :)⟩
  case otherTile =>
    intro n t s pl r rest _ hr hpark ht
    refine exec_passIssue_none ?_
    rw [candidate_replay hr hpark, if_neg ht]

/-! ### A row admitted (R34, R37, R52, R53) -/

/-- Of a pass, only its flags and the occurrences it has captured differ. -/
def FlagsOnly (p q : Pass) : Prop := ∃ a b o k, q = { p with inv := a, flush := b, occ := o, occCnt := k }

theorem FlagsOnly.refl (p : Pass) : FlagsOnly p p := ⟨_, _, _, _, rfl⟩

theorem FlagsOnly.trans {p q r : Pass} : FlagsOnly p q → FlagsOnly q r → FlagsOnly p r := by
  rintro ⟨a, b, o, k, rfl⟩ ⟨a', b', o', k', rfl⟩
  exact ⟨a', b', o', k', rfl⟩

theorem FlagsOnly.capture (p : Pass) (o : Occ) : FlagsOnly p (p.capture o) := by
  unfold Pass.capture
  split <;> exact ⟨_, _, _, _, rfl⟩

theorem FlagsOnly.foldl {α : Type} {f : Pass → α → Pass} (hf : ∀ p a, FlagsOnly p (f p a)) (l : List α) (p : Pass) : FlagsOnly p (l.foldl f p) := by
  induction l generalizing p with
  | nil => exact .refl p
  | cons a l ih => exact (hf p a).trans (ih _)

/-- The accumulator value at a place: an array and the key of a row and a column. -/
def Caldera.accAt (c : Caldera) (k : Fin 16 × Nat) : Word := tget (0 : Word) (c.arrs[k.1]).acc k.2

/-- While a row is admitted to a caldera `c` for a pass `p`, only accumulators, flags and occurrences change. -/
structure Admitting (c : Caldera) (p : Pass) (x : Caldera × Pass) : Prop where
  arrsOnly : ArrsOnly c x.1
  arrs : ∀ i : Fin 16, ∃ v, x.1.arrs[i] = { c.arrs[i] with acc := v }
  pass : FlagsOnly p x.2

theorem Admitting.refl (c : Caldera) (p : Pass) : Admitting c p (c, p) := ⟨.refl c, fun _ => ⟨_, rfl⟩, .refl p⟩

theorem Admitting.slot {c : Caldera} {p : Pass} {x : Caldera × Pass} (h : Admitting c p x) (i : Fin 16) (b : Bool) :
    (x.1.arrs[i]).slot b = (c.arrs[i]).slot b := by
  obtain ⟨v, hv⟩ := h.arrs i
  rw [hv]
  rfl

/-- Where a pass's row puts column `n` of array `a`. -/
def Pass.place (p : Pass) (a : Fin 4) (n : Nat) : Fin 16 × Nat := (arrIdx (apTile p.raw) a, (apAccBase p.raw + p.rows) % 512 * 64 + n)

/-- The initial value of an accumulator depends, besides the pass, on the SRAM and on what the accumulator holds. -/
theorem Admitting.initAcc {c : Caldera} {p : Pass} {x : Caldera × Pass} (h : Admitting c p x) (a : Fin 4) (j e n : Nat)
    (hv : x.1.accAt (p.place a n) = c.accAt (p.place a n)) : initAcc x.1 x.2 a j e p.rows n = initAcc c p a j e p.rows n := by
  obtain ⟨⟨v, hc⟩, -, ⟨_, _, _, _, hp⟩⟩ := h
  have hraw : x.2.raw = p.raw := by rw [hp]
  have hpos : x.2.chainPos = p.chainPos := by rw [hp]
  have hsram : x.1.sram = c.sram := by rw [hc]
  simp only [Caldera.accAt, Pass.place] at hv
  simp only [Machine.initAcc, hraw, hpos, hsram, hv]

/-- What the row gives column `n` of array `a`, the `j`-th of `e`: its sum over the K groups in order, from the initial value. -/
def rowValue (c : Caldera) (p : Pass) (row : List Byte) (j e : Nat) (a : Fin 4) (n : Nat) : Word :=
  (column ((c.arrs[arrIdx (apTile p.raw) a]).slot (apSlotB p.raw a.val)) (apAFmt p.raw) row (apKMask p.raw a.val) (apStrict p.raw)
    (apMaxr p.raw) (apFlush p.raw) n (initAcc c p a j e p.rows n).1).acc

theorem admitCol_caldera {c : Caldera} {p : Pass} {x : Caldera × Pass} (h : Admitting c p x) (row : List Byte) (a : Fin 4) (j e n : Nat)
    (hv : x.1.accAt (p.place a n) = c.accAt (p.place a n)) : (admitCol row a j e p.rows x n).1 =
      x.1.modArr (p.place a n).1 (fun r => { r with acc := tput r.acc (p.place a n).2 (rowValue c p row j e a n) }) := by
  have hraw : x.2.raw = p.raw := by
    obtain ⟨-, -, ⟨_, _, _, _, hp⟩⟩ := h
    rw [hp]
  simp only [admitCol, h.initAcc a j e n hv, h.slot, hraw]
  rfl

theorem admitCol_admitting {c : Caldera} {p : Pass} {x : Caldera × Pass} (h : Admitting c p x) (row : List Byte) (a : Fin 4) (j e r n : Nat) :
    Admitting c p (admitCol row a j e r x n) where
  arrsOnly := h.arrsOnly.trans (.modArr _ _ _)
  arrs i := by
    obtain ⟨v, hv⟩ := h.arrs i
    show ∃ v, (x.1.modArr _ _).arrs[i] = _
    rw [Caldera.modArr_get, hv]
    split <;> exact ⟨_, rfl⟩
  pass := (h.pass.trans (FlagsOnly.foldl (fun q _ => .capture q _) _ _)).trans ⟨_, _, _, _, rfl⟩

/-- The change of one accumulator value. -/
theorem accAt_put (c : Caldera) (k k' : Fin 16 × Nat) (v : Word) :
    (c.modArr k.1 (fun r => { r with acc := tput r.acc k.2 v })).accAt k' = if k' = k then v else c.accAt k' := by
  obtain ⟨i, x⟩ := k
  obtain ⟨i', x'⟩ := k'
  simp only [Caldera.accAt, Caldera.modArr_get, Prod.mk.injEq]
  by_cases hi : i' = i
  · simp only [hi, if_true, true_and, tget_tput]
  · simp only [hi, if_false, false_and]

/-- A row's cells: the array's number among the enabled ones, the array and the column. -/
def rowCells (raw : Data1024) : List (Nat × Fin 4 × Nat) :=
  (List.zip (List.range (apArrays raw).length) (apArrays raw)).flatMap (fun ja =>
    (setBits (apNMask raw ja.2.val)).map (fun n => (ja.1, ja.2, n)))

theorem mem_rowCells {raw : Data1024} {j : Nat} {a : Fin 4} {n : Nat} :
    (j, a, n) ∈ rowCells raw ↔ (apArrays raw)[j]? = some a ∧ n ∈ setBits (apNMask raw a.val) := by
  have hz : ∀ x, x ∈ List.zip (List.range (apArrays raw).length) (apArrays raw) ↔ (apArrays raw)[x.1]? = some x.2 := by
    intro x
    simp only [List.mem_iff_getElem?, List.getElem?_zip_eq_some]
    constructor
    · rintro ⟨i, hi, ha⟩
      have hx : i = x.1 := by
        simp only [List.getElem?_eq_some_iff, List.getElem_range] at hi
        exact hi.2
      rw [← hx, ha]
    · intro h
      exact ⟨x.1, List.getElem?_range (List.getElem?_eq_some_iff.1 h).1, h⟩
  simp only [rowCells, List.mem_flatMap, List.mem_map, hz, Prod.mk.injEq]
  constructor
  · rintro ⟨⟨j', a'⟩, h, m, hm, rfl, rfl, rfl⟩
    exact ⟨h, hm⟩
  · rintro ⟨h, hm⟩
    exact ⟨(j, a), h, n, hm, rfl, rfl, rfl⟩

theorem arrIdx_injective (t : Nat) : Function.Injective (arrIdx t) := by
  intro a b h
  have hv : (4 * t + a.val) % 16 = (4 * t + b.val) % 16 := congrArg Fin.val h
  omega

/-- Different cells of a row lie at different places. -/
theorem rowCells_places_nodup (p : Pass) : ((rowCells p.raw).map (fun x => p.place x.2.1 x.2.2)).Nodup := by
  have he : (rowCells p.raw).map (fun x => p.place x.2.1 x.2.2)
      = (apArrays p.raw).flatMap (fun a => (setBits (apNMask p.raw a.val)).map (p.place a)) := by
    have hz : (List.zip (List.range (apArrays p.raw).length) (apArrays p.raw)).map Prod.snd = apArrays p.raw :=
      List.map_snd_zip (by simp)
    conv_rhs => rw [← hz]
    simp only [rowCells, List.map_flatMap, List.map_map, List.flatMap_map]
    rfl
  rw [he, List.nodup_flatMap]
  refine ⟨fun a _ => ?_, ?_⟩
  · refine List.Nodup.map ?_ (List.nodup_range.filter _)
    intro m n h
    have := congrArg Prod.snd h
    simp only [Pass.place] at this
    omega
  · refine List.Pairwise.imp ?_ ((List.nodup_finRange 4).filter _)
    intro a b hab k ha hb
    obtain ⟨m, -, rfl⟩ := List.mem_map.1 ha
    obtain ⟨n, -, h⟩ := List.mem_map.1 hb
    exact hab (arrIdx_injective _ (congrArg Prod.fst h).symm)

/-- Cells admitted one after the other at different places: each gets its value, and every other accumulator stays. -/
theorem admitCells (c : Caldera) (p : Pass) (row : List Byte) (e : Nat) (l : List (Nat × Fin 4 × Nat)) (x : Caldera × Pass) (hx : Admitting c p x)
    (hn : (l.map (fun y => p.place y.2.1 y.2.2)).Nodup) (hl : ∀ y ∈ l, x.1.accAt (p.place y.2.1 y.2.2) = c.accAt (p.place y.2.1 y.2.2)) :
    Admitting c p (l.foldl (fun x y => admitCol row y.2.1 y.1 e p.rows x y.2.2) x) ∧
    (∀ y ∈ l, (l.foldl (fun x y => admitCol row y.2.1 y.1 e p.rows x y.2.2) x).1.accAt (p.place y.2.1 y.2.2) = rowValue c p row y.1 e y.2.1 y.2.2) ∧
    (∀ k, (∀ y ∈ l, k ≠ p.place y.2.1 y.2.2) → (l.foldl (fun x y => admitCol row y.2.1 y.1 e p.rows x y.2.2) x).1.accAt k = x.1.accAt k) := by
  induction l generalizing x with
  | nil => exact ⟨hx, fun _ h => absurd h List.not_mem_nil, fun _ _ => rfl⟩
  | cons y l ih =>
    obtain ⟨hy, hnl⟩ := List.nodup_cons.1 hn
    have hne : ∀ z ∈ l, p.place z.2.1 z.2.2 ≠ p.place y.2.1 y.2.2 := fun z hz he => hy (List.mem_map.2 ⟨z, hz, he⟩)
    have hstep : ∀ k, (admitCol row y.2.1 y.1 e p.rows x y.2.2).1.accAt k
        = if k = p.place y.2.1 y.2.2 then rowValue c p row y.1 e y.2.1 y.2.2 else x.1.accAt k := fun k => by
      rw [admitCol_caldera hx row y.2.1 y.1 e y.2.2 (hl y List.mem_cons_self), accAt_put]
    obtain ⟨ha, hval, hrest⟩ := ih _ (admitCol_admitting hx row y.2.1 y.1 e p.rows y.2.2) hnl fun z hz => by
      rw [hstep, if_neg (hne z hz), hl z (List.mem_cons_of_mem y hz)]
    refine ⟨ha, fun z hz => ?_, fun k hk => ?_⟩
    · rcases List.mem_cons.1 hz with rfl | hz
      · rw [List.foldl_cons, hrest _ fun w hw => (hne w hw).symm, hstep, if_pos rfl]
      · exact hval z hz
    · rw [List.foldl_cons, hrest k fun z hz => hk z (List.mem_cons_of_mem y hz), hstep, if_neg (hk y List.mem_cons_self)]

/-- A row admitted, cell by cell. -/
theorem admitRow_eq (c : Caldera) (p : Pass) (row : List Byte) : admitRow c p row =
    let x := (rowCells p.raw).foldl (fun x y => admitCol row y.2.1 y.1 (apArrays p.raw).length p.rows x y.2.2) (c, p)
    (x.1, { x.2 with rows := p.rows + 1
                     st := if p.rows + 1 < apRows p.raw then .feed else if apChainOpen p.raw then .held else .drain }) := by
  simp only [admitRow, rowCells, List.foldl_flatMap, List.foldl_map]

/-- What the admission of a row leaves of its caldera and its pass. -/
theorem admitRow_spec (c : Caldera) (p : Pass) (row : List Byte) :
    ArrsOnly c (admitRow c p row).1 ∧
    FlagsOnly { p with rows := p.rows + 1
                       st := if p.rows + 1 < apRows p.raw then .feed else if apChainOpen p.raw then .held else .drain } (admitRow c p row).2 ∧
    (∀ j a n, (apArrays p.raw)[j]? = some a → n ∈ setBits (apNMask p.raw a.val) →
      (admitRow c p row).1.accAt (p.place a n) = rowValue c p row j (apArrays p.raw).length a n) ∧
    (∀ k, (∀ a ∈ apArrays p.raw, ∀ n ∈ setBits (apNMask p.raw a.val), k ≠ p.place a n) → (admitRow c p row).1.accAt k = c.accAt k) := by
  obtain ⟨⟨harrs, -, ⟨a, b, o, k, hp⟩⟩, hval, hrest⟩ := admitCells c p row (apArrays p.raw).length (rowCells p.raw) (c, p) (.refl c p)
    (rowCells_places_nodup p) fun _ _ => rfl
  rw [admitRow_eq]
  dsimp only
  refine ⟨harrs, ?_, fun j a n ha hn => hval (j, a, n) (mem_rowCells.2 ⟨ha, hn⟩), fun k hk => hrest k ?_⟩
  · rw [hp]
    exact ⟨a, b, o, k, rfl⟩
  · rintro ⟨j, a, n⟩ hy
    obtain ⟨ha, hn⟩ := mem_rowCells.1 hy
    exact hk a (List.mem_of_getElem? ha) n hn

/-- A pass put back under its serial is among the passes. -/
theorem mem_putPass {c : Caldera} {p q : Pass} (hp : p ∈ c.passes) (hs : q.serial = p.serial) : q ∈ (c.putPass q).passes :=
  List.mem_map.2 ⟨p, hp, if_pos hs.symm⟩

/-- What ROW_ADMIT does once the pass's next row is staged. -/
theorem exec_rowAdmit {n : Fin 64} {t : Fin 4} {s : State} {p : Pass} {k : Fin 64} {row : List Byte} {place : Nat}
    (hp : (s.cals[n]).passes.find? (fun p => p.st == .feed && apTile p.raw == t.val) = some p) (hk : k = Fin.ofNat 64 (apActStream p.raw))
    (hplace : place = p.actStart + p.rows * p.rowLen - ((s.cals[n]).streams[k]).base) (hrow : (s.cals[n]).stagedAt k place p.rowLen = some row)
    (hst : ((s.cals[n]).streams[k]).st = .armed ∨ ((s.cals[n]).streams[k]).st = .active ∨ ((s.cals[n]).streams[k]).st = .halted) :
    exec (.rowAdmit n t) s =
      if p.rows < chainDrained (s.cals[n]) p + 512 ∧ (s.cals[n]).feedsNow k p = true then
        .next (s.modCal n (fun c => (admitRow (c.consumeTo k (place + p.rowLen)) p row).1.putPass (admitRow (c.consumeTo k (place + p.rowLen)) p row).2))
      else .next s := by
  subst hk hplace
  have hd : (p.rows - chainDrained (s.cals[n]) p < 512) = (p.rows < chainDrained (s.cals[n]) p + 512) := propext ⟨by omega, by omega⟩
  show execRowAdmit n t s = _
  simp only [execRowAdmit, hp, hrow, hst, true_and, hd]

/-- Settles O11: the cells of the row lie at different places, so each takes its value from what the caldera held before. -/
theorem rowsAccumulate : Obligations.RowsAccumulate := by
  unfold Obligations.RowsAccumulate
  intro n t s p k row place hp hk hplace hrow hst
  rw [exec_rowAdmit hp hk hplace hrow hst]
  refine ⟨fun hd hf => ?_, fun h => if_neg ?_⟩
  · rw [if_pos ⟨hd, hf⟩]
    obtain ⟨⟨v, hv⟩, ⟨_, _, _, _, hq⟩, hval, hrest⟩ := admitRow_spec ((s.cals[n]).consumeTo k (place + p.rowLen)) p row
    refine ⟨_, (admitRow ((s.cals[n]).consumeTo k (place + p.rowLen)) p row).2, rfl, onlyCal_modCal _ _ _, ?_⟩
    rw [State.modCal_at]
    refine ⟨mem_putPass (p := p) ?_ ?_, ?_, ?_, ?_, ?_, ?_, ?_, ?_, ?_, hval, fun i x hx => hrest (i, x) ?_⟩
    · rw [hv]
      exact List.mem_of_find?_eq_some hp
    · rw [hq]
    · rw [hq]
    · rw [hq]
    · rw [hq]
    · rw [hq]
    · rw [hq]
    · rw [Caldera.putPass, hv]
      exact congrArg Stream.pos (vmod_get_same _ _ _)
    · rw [Caldera.putPass, hv]
      rfl
    · rw [Caldera.putPass, hv]
      rfl
    · intro a ha m hm he
      exact hx a ha m hm (Prod.mk.inj he)
  · rintro ⟨hd, hf⟩
    rcases h with h | h
    · omega
    · exact Bool.noConfusion (h.symm.trans hf)

/-! ### Drain of a block (R55 to R57) -/

theorem ringOf_window (c : Caldera) (raw : Data1024) : (ringOf c raw).base = apDrainBase raw ∧ (ringOf c raw).len = apDrainLen raw := by
  unfold ringOf
  split
  next h => simpa using List.find?_some h
  next => exact ⟨rfl, rfl⟩

/-- A ring that is in use is the first one with its window. -/
theorem find?_ringOf {c : Caldera} {raw : Data1024} (h : ringOf c raw ∈ c.rings) :
    c.rings.find? (fun r => r.base == apDrainBase raw && r.len == apDrainLen raw) = some (ringOf c raw) := by
  cases hf : c.rings.find? (fun r => r.base == apDrainBase raw && r.len == apDrainLen raw) with
  | none =>
    have hw := List.find?_eq_none.1 hf _ h
    obtain ⟨hb, hl⟩ := ringOf_window c raw
    simp [hb, hl] at hw
  | some r => rw [ringOf, hf]

/-- The rings after a change, which keeps the window, of those with the window of `g`. -/
theorem ringOf_map {c d : Caldera} {raw : Data1024} {f : DrainRing → DrainRing} (hc : ringOf c raw ∈ c.rings)
    (hf : ∀ r, (f r).base = r.base ∧ (f r).len = r.len)
    (hd : d.rings = c.rings.map (fun r => if r.base = (ringOf c raw).base ∧ r.len = (ringOf c raw).len then f r else r)) :
    ringOf d raw = f (ringOf c raw) := by
  have hg : (fun r : DrainRing => r.base == apDrainBase raw && r.len == apDrainLen raw) ∘
      (fun r => if r.base = (ringOf c raw).base ∧ r.len = (ringOf c raw).len then f r else r)
      = fun r => r.base == apDrainBase raw && r.len == apDrainLen raw := by
    funext r
    simp only [Function.comp]
    split
    · rw [(hf r).1, (hf r).2]
    · rfl
  have hfind : d.rings.find? (fun r => r.base == apDrainBase raw && r.len == apDrainLen raw) = some (f (ringOf c raw)) := by
    rw [hd, List.find?_map, hg, find?_ringOf hc, Option.map_some, if_pos ⟨rfl, rfl⟩]
  rw [ringOf, hfind]

/-- Of a pass, only its generators and its drain's flags differ. -/
def DrainedOnly (p q : Pass) : Prop := ∃ g a b, q = { p with gens := g, sat := a, flush := b }

theorem DrainedOnly.refl (p : Pass) : DrainedOnly p p := ⟨_, _, _, rfl⟩

theorem DrainedOnly.trans {p q r : Pass} : DrainedOnly p q → DrainedOnly q r → DrainedOnly p r := by
  rintro ⟨g, a, b, rfl⟩ ⟨g', a', b', rfl⟩
  exact ⟨g', a', b', rfl⟩

theorem drainRow_drainedOnly (c : Caldera) (p : Pass) (r : Nat) : DrainedOnly p (drainRow c p r).2 :=
  List.foldlRecOn (motive := fun x : List Byte × Pass => DrainedOnly p x.2) _ _ (.refl p) fun _ h _ _ => h.trans ⟨_, _, _, rfl⟩

theorem drainRows_drainedOnly (c : Caldera) (p : Pass) (r n : Nat) : DrainedOnly p (drainRows c p r n).2 :=
  List.foldlRecOn (motive := fun x : List Byte × Pass => DrainedOnly p x.2) _ _ (.refl p) fun _ h _ _ => h.trans (drainRow_drainedOnly _ _ _)

/-- The pass after its next block has been drained. -/
def drainedPass (c : Caldera) (p : Pass) : Pass :=
  { (drainRows c p p.drained (drainBlockRows p.raw p.drained)).2 with
    drained := p.drained + drainBlockRows p.raw p.drained
    st := if p.drained + drainBlockRows p.raw p.drained = apRows p.raw then .commit
      else (drainRows c p p.drained (drainBlockRows p.raw p.drained)).2.st }

/-- The ring of a pass after its next block has been written. -/
def DrainRing.wrote (r : DrainRing) (n : Nat) : DrainRing := { r with wr := r.wr + n, blocks := r.blocks ++ [r.wr + n] }

theorem ringOf_drainBlock {c : Caldera} {p : Pass} (h : ringOf c p.raw ∈ c.rings) :
    ringOf (drainBlock c p) p.raw = (ringOf c p.raw).wrote (drainRows c p p.drained (drainBlockRows p.raw p.drained)).1.length :=
  ringOf_map (f := fun r => r.wrote _) h (fun _ => ⟨rfl, rfl⟩) rfl

/-- What DRAIN_BLOCK does for the pass of its tile that drains next. -/
theorem exec_drainBlock {n : Fin 64} {t : Fin 4} {s : State} {p : Pass} (hp : (s.cals[n]).draining t = some p) : exec (.drainBlock n t) s =
    if (s.cals[n]).blockReady p = true ∧ (s.cals[n]).ringRoom p = true then .next (s.modCal n (fun c => drainBlock c p)) else .next s := by
  show execDrainBlock n t s = _
  simp only [execDrainBlock, hp]

theorem blockReady_iff {c : Caldera} {p : Pass} : c.blockReady p = true ↔ p.drained + drainBlockRows p.raw p.drained ≤ p.rows ∧ c.ringTaken p = false := by
  simp [Caldera.blockReady]

theorem ringRoom_iff {c : Caldera} {p : Pass} : c.ringRoom p = true ↔
    (ringOf c p.raw).wr - (ringOf c p.raw).freed + drainBlockRows p.raw p.drained * drainRowBytes p.raw ≤ (ringOf c p.raw).len.toNat := by
  simp [Caldera.ringRoom]

/-! ### Commit of a pass (R60, R61, R90, R125) -/

/-- The flags that a pass has set on an array are in its status. -/
def FlagsIn (q : Pass) (a : Fin 4) (r : Arr) : Prop :=
  (q.inv.getLsbD a.val = true → r.invalid = true) ∧ (q.sat.getLsbD a.val = true → r.sat = true) ∧ (q.flush.getLsbD a.val = true → r.flush = true)

theorem FlagsIn.of_mergeFlags (q : Pass) (a : Fin 4) (r : Arr) :
    FlagsIn q a (r.mergeFlags (q.inv.getLsbD a.val) (q.sat.getLsbD a.val) (q.flush.getLsbD a.val)) := by
  simp only [FlagsIn, Arr.mergeFlags, Bool.or_eq_true]
  exact ⟨.inr, .inr, .inr⟩

theorem FlagsIn.mergeFlags {q : Pass} {a : Fin 4} {r : Arr} (h : FlagsIn q a r) (x y z : Bool) : FlagsIn q a (r.mergeFlags x y z) := by
  simp only [FlagsIn, Arr.mergeFlags, Bool.or_eq_true]
  exact ⟨fun e => .inl (h.1 e), fun e => .inl (h.2.1 e), fun e => .inl (h.2.2 e)⟩

theorem FlagsIn.setSlot {q : Pass} {a : Fin 4} {r : Arr} (h : FlagsIn q a r) (b : Bool) (w : WSlot) : FlagsIn q a (r.setSlot b w) := by
  cases b <;> exact h

/-- The flags of a pass merged into the status of its arrays. -/
def Caldera.mergePass (c : Caldera) (q : Pass) : Caldera :=
  (apArrays q.raw).foldl (fun c a => c.modArr (arrIdx (apTile q.raw) a)
    (fun r => r.mergeFlags (q.inv.getLsbD a.val) (q.sat.getLsbD a.val) (q.flush.getLsbD a.val))) c

theorem mergePass_arrsOnly (c : Caldera) (q : Pass) : ArrsOnly c (c.mergePass q) := ArrsOnly.foldl (fun c _ => .modArr c _ _) _ _

/-- The flags of every pass of a chain are in the status of its arrays once the chain's flags have been merged. -/
theorem mergePass_flagsIn (chain : List Pass) (c : Caldera) : ∀ q ∈ chain, ∀ a ∈ apArrays q.raw,
    FlagsIn q a ((chain.foldl Caldera.mergePass c).arrs[arrIdx (apTile q.raw) a]) := by
  refine foldl_establishes (P := fun (q : Pass) c => ∀ a ∈ apArrays q.raw, FlagsIn q a ((c : Caldera).arrs[arrIdx (apTile q.raw) a]))
    (fun c q => ?_) (fun c r q hq a ha => ?_) _ _
  · refine foldl_establishes (P := fun (a : Fin 4) c => FlagsIn q a ((c : Caldera).arrs[arrIdx (apTile q.raw) a])) (fun c a => ?_)
      (fun c b a ha => Caldera.modArr_keeps (P := FlagsIn q a) (fun _ h => h.mergeFlags _ _ _) ha) _ _
    rw [Caldera.modArr_get, if_pos rfl]
    exact .of_mergeFlags _ _ _
  · exact List.foldlRecOn (motive := fun c : Caldera => FlagsIn q a (c.arrs[arrIdx (apTile q.raw) a])) _ _ (hq a ha)
      fun c h b _ => Caldera.modArr_keeps (P := FlagsIn q a) (fun _ h => h.mergeFlags _ _ _) h

theorem unpinPass_arrsOnly (rest : List Pass) (c : Caldera) (p : Pass) : ArrsOnly c (unpinPass rest c p) :=
  ArrsOnly.foldl (fun c a => by
    dsimp only
    split
    · exact .refl c
    · exact .modArr c _ _) _ _

/-- Unpinning leaves the status of the arrays. -/
theorem unpinPass_flagsIn {rest : List Pass} {c : Caldera} (p : Pass) {q : Pass} {a : Fin 4} {i : Fin 16} (h : FlagsIn q a c.arrs[i]) :
    FlagsIn q a ((unpinPass rest c p).arrs[i]) := by
  refine List.foldlRecOn (motive := fun c : Caldera => FlagsIn q a c.arrs[i]) _ _ h fun c h b _ => ?_
  dsimp only
  split
  · exact h
  · exact Caldera.modArr_keeps (P := FlagsIn q a) (fun _ h => h.setSlot _ _) h

/-- The record of a chain's occurrences appended to the exception log. -/
def Caldera.logChain (c : Caldera) (s : State) (ctx : Byte) (chain : List Pass) (p : Pass) : Caldera :=
  match (chainOcc chain).1 with
  | some o => c.xlogAppend (occRecord s ctx o (chainOcc chain).2 (chain.headD p))
  | none => c

/-- The rings after a commit: the committed position of the pass's own is the pass's end. -/
def Caldera.commitRings (c : Caldera) (p : Pass) : List DrainRing :=
  c.rings.map (fun r => if r.base = (ringOf c p.raw).base ∧ r.len = (ringOf c p.raw).len then
      if apToStream p.raw then { r with committed := p.ringStop }
      else ({ r with committed := p.ringStop, rd := max r.rd p.ringStop }).free p.ringStop
    else r)

/-- The rings, the count and the passes that remain. -/
def Caldera.commitCounts (c : Caldera) (p : Pass) (chain rest : List Pass) : Caldera :=
  { c with
    rings := c.commitRings p
    passCommits := satAdd c.passCommits chain.length
    passes := rest }

/-- The chain of a pass, and the passes beside it. -/
def Caldera.chainOf (c : Caldera) (p : Pass) : List Pass := c.passes.filter (fun q => q.chain == p.chain)
def Caldera.beside (c : Caldera) (p : Pass) : List Pass := c.passes.filter (fun q => q.chain != p.chain)

/-- The caldera that a commit leaves. -/
def Caldera.committed (c : Caldera) (s : State) (p : Pass) (ctx : Byte) : Caldera :=
  (c.chainOf p).foldl (unpinPass (c.beside p ++ c.replays))
    ((((c.chainOf p).foldl Caldera.mergePass c).logChain s ctx (c.chainOf p) p).commitCounts p (c.chainOf p) (c.beside p))

theorem mergeChain_arrsOnly (c : Caldera) (chain : List Pass) : ArrsOnly c (chain.foldl Caldera.mergePass c) := ArrsOnly.foldl mergePass_arrsOnly _ _

theorem logChain_frame (c : Caldera) (s : State) (ctx : Byte) (chain : List Pass) (p : Pass) :
    ∃ x o, c.logChain s ctx chain p = { c with xlog := x, xlogOvf := o } := by
  unfold Caldera.logChain
  split <;> exact ⟨_, _, rfl⟩

theorem commitPass_eq (s : State) (n : Fin 64) (p : Pass) (ctx : Byte) : commitPass s n p ctx = s.modCal n (fun _ => (s.cals[n]).committed s p ctx) := by
  have hr : ((((s.cals[n]).chainOf p).foldl Caldera.mergePass s.cals[n]).logChain s ctx ((s.cals[n]).chainOf p) p).replays = (s.cals[n]).replays := by
    obtain ⟨v, hv⟩ := mergeChain_arrsOnly (s.cals[n]) ((s.cals[n]).chainOf p)
    obtain ⟨x, o, hx⟩ := logChain_frame (((s.cals[n]).chainOf p).foldl Caldera.mergePass s.cals[n]) s ctx ((s.cals[n]).chainOf p) p
    rw [hx, hv]
  rw [Caldera.committed, ← hr]
  rfl

/-- The caldera that a commit leaves, the arrays, the log and the rings apart. -/
theorem committed_frame (c : Caldera) (s : State) (p : Pass) (ctx : Byte) : c.committed s p ctx =
    { c with arrs := (c.committed s p ctx).arrs, xlog := (c.logChain s ctx (c.chainOf p) p).xlog, xlogOvf := (c.logChain s ctx (c.chainOf p) p).xlogOvf
             rings := c.commitRings p, passCommits := satAdd c.passCommits (c.chainOf p).length
             passes := c.beside p } := by
  obtain ⟨v, hv⟩ := mergeChain_arrsOnly c (c.chainOf p)
  obtain ⟨w, hw⟩ := ArrsOnly.foldl (unpinPass_arrsOnly (c.beside p ++ c.replays)) (c.chainOf p)
    ((((c.chainOf p).foldl Caldera.mergePass c).logChain s ctx (c.chainOf p) p).commitCounts p (c.chainOf p) (c.beside p))
  unfold Caldera.committed
  rw [hw, hv]
  unfold Caldera.logChain
  split <;> rfl

/-- The flags of every pass of the chain are in the array status after the commit. -/
theorem committed_flagsIn (c : Caldera) (s : State) (p : Pass) (ctx : Byte) : ∀ q ∈ c.chainOf p, ∀ a ∈ apArrays q.raw,
    FlagsIn q a ((c.committed s p ctx).arrs[arrIdx (apTile q.raw) a]) := by
  intro q hq a ha
  refine List.foldlRecOn (motive := fun d : Caldera => FlagsIn q a (d.arrs[arrIdx (apTile q.raw) a])) _ _ ?_ fun d h r _ => unpinPass_flagsIn r h
  obtain ⟨x, o, hx⟩ := logChain_frame ((c.chainOf p).foldl Caldera.mergePass c) s ctx (c.chainOf p) p
  rw [hx]
  exact mergePass_flagsIn _ _ q hq a ha

theorem mem_commitRings {c : Caldera} {p : Pass} {r : DrainRing} (hr : r ∈ c.commitRings p)
    (hb : r.base = apDrainBase p.raw) (hl : r.len = apDrainLen p.raw) : r.committed = p.ringStop := by
  obtain ⟨g, -, rfl⟩ := List.mem_map.1 hr
  obtain ⟨hob, hol⟩ := ringOf_window c p.raw
  split at hb
  next hg =>
    rw [if_pos hg]
    split <;> rfl
  next hg =>
    rw [if_neg hg] at hl
    exact absurd ⟨hb.trans hob.symm, hl.trans hol.symm⟩ hg

/-! ### The exception record of an occurrence (R90, R124) -/

/-- A number placed at a bit above a field leaves the field 0. -/
theorem extractLsb'_natAt_above (m lo v s k : Nat) (h : s + k ≤ lo) : (natAt m lo v).extractLsb' s k = 0 := by
  apply BitVec.eq_of_getLsbD_eq
  intro i hi
  simp [natAt, hi, BitVec.getLsbD_ofNat, Nat.testBit_shiftLeft, show ¬lo ≤ s + i by omega]

/-- A number placed at a bit, and short enough to end below a field, leaves the field 0. -/
theorem extractLsb'_natAt_below (m lo v s k w : Nat) (hv : v < 2 ^ w) (h : lo + w ≤ s) : (natAt m lo v).extractLsb' s k = 0 := by
  apply BitVec.eq_of_getLsbD_eq
  intro i hi
  have hz : v.testBit (s + i - lo) = false := Nat.testBit_lt_two_pow (Nat.lt_of_lt_of_le hv (Nat.pow_le_pow_right (by omega) (by omega)))
  simp [natAt, hi, BitVec.getLsbD_ofNat, Nat.testBit_shiftLeft, hz]

/-- The field that holds a number. -/
theorem toNat_extractLsb'_natAt (m lo v k : Nat) (hv : v < 2 ^ k) (h : lo + k ≤ m) : ((natAt m lo v).extractLsb' lo k).toNat = v := by
  have he : (natAt m lo v).extractLsb' lo k = BitVec.ofNat k v := by
    apply BitVec.eq_of_getLsbD_eq
    intro i hi
    rw [BitVec.getLsbD_extractLsb', natAt, BitVec.getLsbD_ofNat, BitVec.getLsbD_ofNat, Nat.testBit_shiftLeft]
    simp [hi, show lo + i < m by omega]
  rw [he, BitVec.toNat_ofNat, Nat.mod_eq_of_lt hv]

theorem extractLsb'_at_above (m lo s k : Nat) {j : Nat} (v : BitVec j) (h : s + k ≤ lo) : (at_ m lo v).extractLsb' s k = 0 := by
  apply BitVec.eq_of_getLsbD_eq
  intro i hi
  simp [at_, hi, show s + i < lo by omega]

/-- The kind, the array, the row and the column in the record of an occurrence. -/
theorem occRecord_fields (s : State) (ctx : Byte) (o : Occ) (k : Nat) (q : Pass) (ha : o.arr < 16) (hr : o.row < 2 ^ 32) (hc : o.col < 64) :
    rnum (occRecord s ctx o k q) 0 0 4 = 1 ∧ rnum (occRecord s ctx o k q) 0 4 4 = o.arr ∧ rnum (occRecord s ctx o k q) 4 0 32 = o.row
      ∧ rnum (occRecord s ctx o k q) 8 0 6 = o.col := by
  have hkind : ∀ i j, 1 ≤ i → (natAt 256 0 1).extractLsb' i j = 0 := fun i j h => extractLsb'_natAt_below 256 0 1 i j 1 (by decide) (by omega)
  have harr : ∀ i j, 8 ≤ i → (natAt 256 4 o.arr).extractLsb' i j = 0 := fun i j h => extractLsb'_natAt_below 256 4 _ i j 4 ha (by omega)
  have hcount : ∀ i j, 32 ≤ i → (natAt 256 16 (min k 65535)).extractLsb' i j = 0 :=
    fun i j h => extractLsb'_natAt_below 256 16 _ i j 16 (by omega) (by omega)
  have hrow : ∀ i j, 64 ≤ i → (natAt 256 32 o.row).extractLsb' i j = 0 := fun i j h => extractLsb'_natAt_below 256 32 _ i j 32 hr (by omega)
  simp only [rnum, rfld, occRecord, BitVec.extractLsb'_or, Nat.reduceMul, Nat.reduceAdd]
  refine ⟨?_, ?_, ?_, ?_⟩
  · simp [-BitVec.extractLsb'_toNat, extractLsb'_natAt_above, extractLsb'_at_above, toNat_extractLsb'_natAt]
  · simp [-BitVec.extractLsb'_toNat, extractLsb'_natAt_above, extractLsb'_at_above, hkind, toNat_extractLsb'_natAt, ha]
  · simp [-BitVec.extractLsb'_toNat, extractLsb'_natAt_above, extractLsb'_at_above, hkind, harr, hcount, toNat_extractLsb'_natAt 256 32 o.row 32 hr]
  · simp [-BitVec.extractLsb'_toNat, extractLsb'_natAt_above, extractLsb'_at_above, hkind, harr, hcount, hrow, toNat_extractLsb'_natAt, hc]

/-- What the commit of a chain with an occurrence leaves of the exception log (R125). -/
theorem committed_xlog (c : Caldera) (s : State) (p : Pass) (ctx : Byte) {o : Occ} (ho : (chainOcc (c.chainOf p)).1 = some o) :
    (c.committed s p ctx).xlog = c.xlog.push (occRecord s ctx o (chainOcc (c.chainOf p)).2 ((c.chainOf p).headD p))
      ∧ (c.committed s p ctx).xlogOvf = (c.xlogOvf || decide (64 ≤ c.xlog.recs.length)) := by
  rw [committed_frame]
  simp only [Caldera.logChain, ho, Caldera.xlogAppend]
  exact ⟨trivial, trivial⟩

/-- What PASS_COMMIT does for the pass that may commit. -/
theorem exec_passCommit {n : Fin 64} {t : Fin 4} {s : State} {pl : Plan} {p : Pass} (hc : committable s n t = some p) (hp : s.planOn n = some pl) :
    exec (.passCommit n t) s = .next ((commitPass s n p pl.ctx).tryFinish pl.handle) := by
  show execPassCommit n t s = _
  simp only [execPassCommit, hc, hp]

/-- A drained pass that is alone on its caldera may commit once its beat is due. -/
theorem committable_alone {n : Fin 64} {t : Fin 4} {s : State} {pl : Plan} {p : Pass} (hp : s.planOn n = some pl) (hr : pl.run = .running)
    (hs : (s.cals[n]).passes = [p]) (hst : p.st = .commit) (ht : apTile p.raw = t.val) (hd : p.dueBeat ≤ pl.commitBeat s.glb.beatCnt) :
    committable s n t = some p := by
  simp only [committable, hp, hs]
  exact List.find?_cons_of_pos (by simp [hr, hst, ht, hd])

/-- Settles O12: the drain by its ring, the commit by what it leaves of its caldera. -/
theorem passesDrainAndCommit : Obligations.PassesDrainAndCommit := by
  unfold Obligations.PassesDrainAndCommit
  refine ⟨?drain, ⟨?commit, fun n t s pl p => committable_alone, fun n t s h => ?noPass⟩, ?occurrence⟩
  case drain =>
    rintro n t s p b ring hp rfl rfl hring
    rw [exec_drainBlock hp]
    refine ⟨fun hb ht hroom => ?_, fun h => if_neg ?_⟩
    · obtain ⟨g, x, y, hq⟩ := drainRows_drainedOnly (s.cals[n]) p p.drained (drainBlockRows p.raw p.drained)
      rw [if_pos ⟨blockReady_iff.2 ⟨hb, ht⟩, ringRoom_iff.2 hroom⟩]
      refine ⟨_, drainedPass (s.cals[n]) p, rfl, onlyCal_modCal _ _ _, ?_⟩
      rw [State.modCal_at]
      refine ⟨mem_putPass (List.mem_of_find?_eq_some hp) ?_, ?_, rfl, ?_, rfl, ringOf_drainBlock hring, fun r hr hne => ?_, rfl, rfl⟩
      · simp only [hq]
      · rw [drainedPass, hq]
      · rw [drainedPass, hq]
      · refine List.mem_map.2 ⟨r, hr, if_neg ?_⟩
        rintro ⟨hbase, hlen⟩
        exact hne.elim (· hbase) (· hlen)
    · rintro ⟨hready, hroom⟩
      obtain ⟨hb, ht⟩ := blockReady_iff.1 hready
      have hroom := ringRoom_iff.1 hroom
      rcases h with h | h | h
      · omega
      · exact Bool.noConfusion (ht.symm.trans h)
      · omega
  case commit =>
    intro n t s pl p hc hp
    rw [exec_passCommit hc hp, commitPass_eq]
    refine ⟨_, rfl, onlyCal_modCal _ _ _, fun hf hb => congrArg _ (tryFinish_running hf hb), ?_⟩
    rw [State.modCal_at]
    have hframe := committed_frame (s.cals[n]) s p pl.ctx
    refine ⟨(congrArg Caldera.passes hframe :), (congrArg Caldera.passCommits hframe :), fun q a hq hqc ha => ?_, fun r hr hb hl => ?_,
      (congrArg Caldera.sram hframe :), (congrArg Caldera.queue hframe :), (congrArg Caldera.replays hframe :)⟩
    · exact committed_flagsIn _ s p pl.ctx q (List.mem_filter.2 ⟨hq, by simp [hqc]⟩) a ha
    · rw [hframe] at hr
      exact mem_commitRings hr hb hl
  case noPass =>
    show execPassCommit n t s = _
    simp only [execPassCommit, h]
  case occurrence =>
    intro n s p ctx o ho ha hr hc
    obtain ⟨hlog, hovf⟩ := committed_xlog (s.cals[n]) s p ctx ho
    rw [commitPass_eq, State.modCal_at, hlog, hovf]
    refine ⟨fun h => ?_, fun h => ?_⟩
    · rw [RingLog.push, if_neg (Nat.not_le.2 h)]
      exact ⟨_, rfl, rfl, occRecord_fields s ctx o _ _ ha hr hc⟩
    · rw [RingLog.push, if_pos h]
      exact ⟨rfl, rfl, by rw [decide_eq_true h, Bool.or_true]⟩

/-! ### COPY (R134, R286; log 61, log 63) -/

/-- The submission that a COPY makes. -/
def Cmd.copied (k : Cmd) : Submit :=
  { desc := rfld k.packet 0x10 0 512, owner := 1, ctx := some (pkCtx k.packet), cmd := some k.serial
    remote := if bitAt k.packet 650 then some (rfld k.packet 0x50 0 10, rfld k.packet 0x52 0 8) else none }

/-- A started COPY of a context that is not confidential waits while no slot is free. -/
theorem exec_copy_waits {cmd : Nat} {k : Cmd} {s : State} (hk : s.findCmd cmd = some k) (hp : k.phase = .started) (hb : k.begun = false)
    (ho : pkOpcode k.packet = 0x40) (hc : s.ctxConf (pkCtx k.packet) = false) (hs : s.copySlot k.packet = none) :
    exec (.copy cmd) s = .next s := by
  refine (withCmd_started s cmd 0x40 _ k hk hp hb ho).trans ?_
  simp only [hc, hs, Bool.false_eq_true, false_and, if_false]

/-- With a slot it submits its descriptor there, and is refused with the field in error or on a full slot. -/
theorem exec_copy_submits {cmd : Nat} {k : Cmd} {s : State} {i : Fin 32} (hk : s.findCmd cmd = some k) (hp : k.phase = .started)
    (hb : k.begun = false) (ho : pkOpcode k.packet = 0x40) (hc : s.ctxConf (pkCtx k.packet) = false) (hs : s.copySlot k.packet = some i) :
    (∀ o, firstOff (descRules (rfld k.packet 0x10 0 512) true) = some o →
      exec (.copy cmd) s = .next ((s.submit (.cp i) k.copied).badParam k.serial 8 (0x10 + o))) ∧
    (firstOff (descRules (rfld k.packet 0x10 0 512) true) = none → exec (.copy cmd) s = .next
      (if (s.cp.streams[i]).st ≠ .idle ∧ (s.cp.streams[i]).shadow.isSome = true then (s.submit (.cp i) k.copied).badParam k.serial 8 0x54
      else (s.submit (.cp i) k.copied).begin k.serial)) := by
  refine ⟨fun o h => ?_, fun h => ?_⟩
  all_goals
    refine (withCmd_started s cmd 0x40 _ k hk hp hb ho).trans ?_
    simp only [hc, hs, h, Bool.false_eq_true, false_and, if_false, Nat.reduceMul, Nat.reduceAdd, Bool.and_eq_true, bne_iff_ne, Cmd.copied]

/-! ### ABORT (R278, R290, R291; log 62) -/

/-- A completion waits behind those before it. -/
theorem complete_cp {s : State} {serial : Nat} {k : Cmd} (h : s.findCmd serial = some k) (st : Nat) (d r0 : Word) (r1 : DWord) :
    ∃ c : Completion, (s.complete serial st d r0 r1).cp =
      { s.cp with cmds := s.cp.cmds.map (fun x => if x.serial = serial then { x with phase := .finished } else x), waiting := s.cp.waiting ++ [c] }
      ∧ c.serial = serial ∧ c.status = BitVec.ofNat 16 st ∧ c.detail = d := by
  simp only [State.complete, State.completeTo, h]
  exact ⟨_, rfl, rfl, rfl, rfl⟩

theorem complete_frame (s : State) (serial st : Nat) (d r0 : Word) (r1 : DWord) :
    s.complete serial st d r0 r1 = { s with cp := (s.complete serial st d r0 r1).cp } := completeTo_frame _ _ _ _ _ _ _

/-- The completion of one command leaves another one as it was. -/
theorem findCmd_complete_other {s : State} {serial other : Nat} (hne : other ≠ serial) (st : Nat) (d r0 : Word) (r1 : DWord) :
    (s.complete serial st d r0 r1).findCmd other = s.findCmd other := by
  cases h : s.findCmd serial with
  | none =>
    simp only [State.complete, State.completeTo, h]
  | some k =>
    obtain ⟨c, hc, -⟩ := complete_cp h st d r0 r1
    have hg : (fun x : Cmd => x.serial == other) ∘ (fun x => if x.serial = serial then { x with phase := .finished } else x)
        = fun x => x.serial == other := by
      funext x
      by_cases hx : x.serial = serial <;> simp [hx]
    rw [State.findCmd, hc, List.find?_map, hg, ← State.findCmd]
    cases hf : s.findCmd other with
    | none => rfl
    | some x => rw [Option.map_some, if_neg (by rw [findCmd_serial hf]; exact hne)]

/-- What a fetched ABORT does. -/
theorem exec_abort {cmd : Nat} {k : Cmd} {s : State} (hk : s.findCmd cmd = some k) (hp : k.phase = .fetched) (ho : pkOpcode k.packet = 0x32) :
    exec (.abort cmd) s = .next (s.abortOn k (s.checks k)) := by
  show execAbort cmd s = _
  simp only [execAbort, hk, hp]
  exact if_neg (by simp [ho, opABORT])

/-- An ABORT that names a tag, on what the tag names. -/
theorem abortOn_tag {s : State} {k : Cmd} (hb : bitAt k.packet 160 = false) :
    s.abortOn k none = s.abortGo k (s.abortByTag k (rfld k.packet 0x10 0 32)) := by
  simp only [State.abortOn, State.abortNamed, Nat.reduceMul, hb, Bool.false_eq_true, if_false]

theorem completesAfter_frame (s t : State) (serial : Nat) (target : Option Nat) (h : t = { s with cp := t.cp }) :
    t.completesAfter serial target = { s with cp := (t.completesAfter serial target).cp } := by
  rw [h]
  rfl

/-- A command that has not started is aborted by its own completion. -/
theorem abortByTag_unstarted {s : State} {k t : Cmd} {tag : Word} (ht : s.cp.cmds.find? (fun x => x.holdsTag (pkCtx k.packet) tag) = some t)
    (ho : pkOpcode t.packet ≠ 0x32) (hp : t.phase = .submitted ∨ t.phase = .fetched) :
    s.abortByTag k tag = some (s.complete t.serial 2 0 0 0, 4, 0, 0) := by
  simp only [State.abortByTag, ht, if_neg (show ¬pkOpcode t.packet = opABORT from ho)]
  rcases hp with hp | hp <;> simp only [State.abortCmd, hp, State.abortPlain, abortDone] <;> rfl

theorem abortByTag_none {s : State} {k : Cmd} {tag : Word} (ht : s.cp.cmds.find? (fun x => x.holdsTag (pkCtx k.packet) tag) = none) :
    s.abortByTag k tag = some (s, if s.cp.recent.contains (pkCtx k.packet, tag) then 1 else 3, 0, 0) := by
  simp only [State.abortByTag, ht]
  split <;> rfl

/-- Where the ABORT completes a command, that command's completion comes first. -/
theorem abortTarget_appended {s s1 : State} {k : Cmd} {c : Completion} (h : s1.cp.waiting = s.cp.waiting ++ [c]) :
    s.abortTarget s1 k = some c.serial := by
  simp [State.abortTarget, h]

/-- The two completions that an ABORT of a command that has not started leaves. -/
theorem abortGo_waiting {s : State} {k t : Cmd} (hk : s.findCmd k.serial = some k) (ht : s.findCmd t.serial = some t) (hne : t.serial ≠ k.serial)
    (hw : ∀ c ∈ s.cp.waiting, c.serial ≠ k.serial) :
    ∃ a b : Completion, (s.abortGo k (some (s.complete t.serial 2 0 0 0, 4, 0, 0))).cp.waiting = s.cp.waiting ++ [a, b] ∧ a.serial = t.serial
      ∧ a.status = 2 ∧ b.serial = k.serial ∧ b.status = 4 ∧ b.detail = 0 ∧ b.after = some t.serial := by
  obtain ⟨a, ha, has, hast, -⟩ := complete_cp ht 2 0 0 0
  obtain ⟨b, hb, hbs, hbst, hbd⟩ := complete_cp ((findCmd_complete_other hne.symm 2 0 0 0).trans hk) 4 0 0 0
  have haw : (s.complete t.serial 2 0 0 0).cp.waiting = s.cp.waiting ++ [a] := by rw [ha]
  refine ⟨a, { b with after := some t.serial }, ?_, has, hast, hbs, hbst, hbd, rfl⟩
  have hold : s.cp.waiting.map (fun c => if c.serial = k.serial then { c with after := some t.serial } else c) = s.cp.waiting :=
    (List.map_congr_left fun c hc => if_neg (hw c hc)).trans (List.map_id' _)
  simp only [State.abortGo, abortTarget_appended haw, has, State.completesAfter, State.modCp_cp, hb, haw, List.map_append, hold,
    List.map_cons, List.map_nil, if_neg hne, hbs, if_true, List.append_assoc, List.singleton_append]

/-! ### The suspension of a stopping plan (R62, R65) -/

/-- The passes of each caldera: those in progress and those that await their replay. -/
def State.passView (s : State) (n : Fin 64) : List Pass × List Pass := ((s.cals[n]).passes, (s.cals[n]).replays)

theorem modCal_passView (s : State) (n : Fin 64) {f : Caldera → Caldera}
    (hf : ∀ c, (f c).passes = c.passes ∧ (f c).replays = c.replays := by exact fun _ => ⟨rfl, rfl⟩) :
    (s.modCal n f).passView = s.passView := by
  funext m
  by_cases h : m = n
  · subst h
    rw [State.passView, State.modCal_at, (hf _).1, (hf _).2]
    rfl
  · rw [State.passView, State.modCal_other _ _ _ _ h]
    rfl

theorem modCals_passView (s : State) (p : Plan) {f : Fin 64 → Caldera → Caldera}
    (hf : ∀ n c, (f n c).passes = c.passes ∧ (f n c).replays = c.replays := by exact fun _ _ => ⟨rfl, rfl⟩) :
    (s.modCals p f).passView = s.passView :=
  foldl_keeps_view State.passView _ (fun _ n => modCal_passView _ _ (hf n)) _ _

theorem modStm_passView (s : State) (r : SlotRef) (f : Stream → Stream) : (s.modStm r f).passView = s.passView := by
  cases r with
  | cal n k => exact modCal_passView _ _
  | cp k => rfl

theorem modEp_passView (s : State) (r : EpRef) (f : Endpoint → Endpoint) : (s.modEp r f).passView = s.passView := by
  cases r with
  | cal n e => exact modCal_passView _ _
  | stack k e => rfl
  | port p e => rfl
  | region r e => rfl

theorem pauseStream_passView (s : State) (r : SlotRef) : (s.pauseStream r).passView = s.passView := by
  cases r with
  | cal n k => exact (modCal_passView _ n).trans (modStm_passView _ _ _)
  | cp k => exact modStm_passView _ _ _

theorem discardWords_passView (s : State) (ws : List (Word × Word)) : (s.discardWords ws).passView = s.passView := by
  refine (foldl_keeps_view State.passView _ (fun s r => ?_) _ _).trans
    (foldl_keeps_view State.passView _ (fun s x => modCal_passView _ _) _ _)
  cases r with
  | cal n e => exact modEp_passView _ _ _
  | stack k e => exact modEp_passView s (.stack k e) (fun x => { x with word := none, coming := [] })
  | port p e => exact modEp_passView s (.port p e) (fun x => { x with word := none, coming := [] })
  | region g e => exact modEp_passView s (.region g e) (fun x => { x with word := none, coming := [] })

theorem dspRecords_passView (s : State) (p : Plan) (b : Nat) : (s.dspRecords p b).passView = s.passView :=
  modCals_passView _ _ fun _ c => by split <;> exact ⟨rfl, rfl⟩

/-- A caldera after every caldera of a plan has changed. -/
theorem modCals_cal (s : State) (p : Plan) (f : Fin 64 → Caldera → Caldera) (n : Fin 64) :
    (s.modCals p f).cals[n] = if p.names n then f n s.cals[n] else s.cals[n] := by
  have hl : ∀ (l : List (Fin 64)) (s : State), l.Nodup → (l.foldl (fun s m => s.modCal m (f m)) s).cals[n] = if n ∈ l then f n s.cals[n] else s.cals[n] := by
    intro l
    induction l with
    | nil => intro s _; rfl
    | cons m l ih =>
      intro s hnd
      obtain ⟨hm, hnd⟩ := List.nodup_cons.1 hnd
      rw [List.foldl_cons, ih _ hnd]
      by_cases h : n = m
      · subst h
        rw [if_neg hm, if_pos List.mem_cons_self, State.modCal_at]
      · simp only [State.modCal_other _ _ _ _ h, List.mem_cons, h, false_or]
  rw [State.modCals, Plan.calList, hl _ _ ((List.nodup_finRange 64).filter _)]
  simp

/-- Where every pass is struck, every pass is abandoned. -/
theorem abandonSet_all (ps : List Pass) : ∀ p ∈ ps, p.serial ∈ abandonSet ps (fun _ => true) := by
  refine List.foldlRecOn (motive := fun hit : List Nat => ∀ p ∈ ps, p.serial ∈ hit) _ _ ?_ fun hit h _ _ p hp => ?_
  · intro p hp
    exact List.mem_map.2 ⟨p, List.mem_filter.2 ⟨hp, rfl⟩, rfl⟩
  · exact List.mem_map.2 ⟨p, List.mem_filter.2 ⟨hp, by simp [h p hp]⟩, rfl⟩

theorem mem_insertPass (p : Pass) (l : List Pass) (x : Pass) : x ∈ insertPass p l ↔ x = p ∨ x ∈ l := by
  induction l with
  | nil => simp [insertPass]
  | cons q l ih =>
    unfold insertPass
    split
    · simp
    · simp only [List.mem_cons, ih]
      exact or_left_comm

/-- Every pass abandoned: none is left, and each waits for its replay. -/
theorem abandon_all (c : Caldera) : (c.abandon (fun _ => true) true).passes = [] ∧
    ∀ x ∈ c.passes, x.reset ∈ (c.abandon (fun _ => true) true).replays := by
  have hall : ∀ p ∈ c.passes, (abandonSet c.passes (fun _ => true)).contains p.serial = true := fun p hp => by
    simpa using abandonSet_all c.passes p hp
  have hgone : c.passes.filter (fun p => (abandonSet c.passes (fun _ => true)).contains p.serial) = c.passes := List.filter_eq_self.2 hall
  refine ⟨List.filter_eq_nil_iff.2 fun p hp => by rw [hall p hp]; exact Bool.noConfusion, fun x hx => ?_⟩
  show x.reset ∈ (c.passes.filter (fun p => (abandonSet c.passes (fun _ => true)).contains p.serial)).foldl (fun l p => insertPass p.reset l) c.replays
  rw [hgone]
  exact foldl_establishes (P := fun (x : Pass) (l : List Pass) => x.reset ∈ l) (fun l p => (mem_insertPass _ _ _).2 (.inl rfl))
    (fun l p x hx => (mem_insertPass _ _ _).2 (.inr hx)) _ _ x hx

/-- What the suspension leaves of the passes: those of the abandon. -/
theorem haltPlan_passView (s : State) (p : Plan) :
    (s.haltPlan p).passView = (s.modCals p (fun _ c => c.abandon (fun _ => true) true)).passView := by
  simp only [State.haltPlan]
  rw [dspRecords_passView, discardWords_passView, modCals_passView, modCals_passView, foldl_keeps_view State.passView]
  exact fun _ _ => pauseStream_passView _ _

theorem stopWork_cals (s : State) (serial : Nat) (w : Option Nat) (st : Nat) (d r0 : Word) (r1 : DWord) :
    (s.stopWork serial w st d r0 r1).cals = s.cals := by
  rw [State.stopWork, completeTo_frame]

theorem stopCompletion_cals (s : State) (p : Plan) : (s.stopCompletion p).cals = s.cals := by
  unfold State.stopCompletion
  split
  · rfl
  · split <;> exact stopWork_cals _ _ _ _ _ _ _

/-- The plans after a suspension. -/
theorem suspendPlan_plans_map {s : State} {h : PlanId} {p : Plan} (hp : s.findPlan h = some p) :
    (s.suspendPlan h).plans = s.plans.map (fun q => if q.handle = h then q.suspended else q) := by
  have hs : ((if p.resident then s.haltPlan p else s).stopCompletion p).plans = s.plans := by
    refine plans_of_roster ((stopCompletion_roster _ _).trans ?_)
    split <;> simp
  simp only [State.suspendPlan, hp]
  show (((if p.resident then s.haltPlan p else s).stopCompletion p).plans).map _ = _
  rw [hs]
  rfl

/-- The passes of the plan's calderas after a suspension. -/
theorem suspendPlan_passView {s : State} {h : PlanId} {p : Plan} (hp : s.findPlan h = some p) (hr : p.resident = true) :
    (s.suspendPlan h).passView = (s.modCals p (fun _ c => c.abandon (fun _ => true) true)).passView := by
  simp only [State.suspendPlan, hp, hr, if_true]
  rw [← haltPlan_passView]
  funext n
  show (((s.haltPlan p).stopCompletion p).passView n) = _
  rw [State.passView, stopCompletion_cals]
  rfl

theorem waitExpired_iff {s : State} {p : Plan} {b : DWord} (hb : p.stopAt = some b) :
    s.waitExpired p = true ↔ p.run = .stopping ∧ b.toNat + p.waitMax.toNat ≤ s.glb.beatCnt.toNat := by
  simp [State.waitExpired, hb]

/-- What PREEMPT_WAIT_EXPIRY does with a plan. -/
theorem exec_preemptWaitExpiry {h : PlanId} {s : State} {p : Plan} (hp : s.findPlan h = some p) : exec (.preemptWaitExpiry h) s =
    if s.waitExpired p = true then .next (s.suspendPlan h) else .next s := by
  show execPreemptWaitExpiry h s = _
  simp only [execPreemptWaitExpiry, hp]

/-- Settles O46: COPY by its slot, ABORT by what its tag names, the suspension by the abandon of every pass. -/
theorem copyAbortAndPreemption : Obligations.CopyAbortAndPreemption := by
  unfold Obligations.CopyAbortAndPreemption
  refine ⟨?copy, ?abort, ?expiry⟩
  case copy =>
    intro cmd k s hk hp hb ho hc
    refine ⟨exec_copy_waits hk hp hb ho hc, ?_⟩
    rintro i s1 hs rfl
    obtain ⟨hbad, hgood⟩ := exec_copy_submits hk hp hb ho hc hs
    refine ⟨hbad, fun h => ?_⟩
    rw [hgood h]
    refine ⟨fun hst hsh => congrArg _ (if_pos ⟨hst, hsh⟩), fun hfree => congrArg _ (if_neg ?_)⟩
    rintro ⟨hst, hsh⟩
    rcases hfree with h | h
    · exact hst h
    · rw [h] at hsh
      exact Bool.noConfusion hsh
  case abort =>
    intro cmd k s hk hp ho
    have hks : s.findCmd k.serial = some k := by rw [findCmd_serial hk, hk]
    rw [exec_abort hk hp ho]
    refine ⟨fun st d h => by rw [h]; rfl, fun h hb => ?_⟩
    rw [h, abortOn_tag hb]
    refine ⟨fun t ht hto htp => ?_, fun ht => ?_⟩
    · rw [abortByTag_unstarted ht hto htp]
      refine ⟨_, rfl, completesAfter_frame s _ _ _ ?_, fun hts hne hw => abortGo_waiting hks hts hne hw⟩
      rw [complete_frame, complete_frame s]
    · rw [abortByTag_none ht]
      obtain ⟨c, hc, hcs, hcst, -⟩ := complete_cp hks (if s.cp.recent.contains (pkCtx k.packet, rfld k.packet 0x10 0 32) then 1 else 3) 0 0 0
      refine ⟨_, rfl, completesAfter_frame s _ _ _ (complete_frame _ _ _ _ _ _), { c with after := s.abortTarget s k }, ?_, hcs, ?_⟩
      · simp only [State.abortGo, State.completesAfter, State.modCp_cp, hc]
        exact List.mem_map.2 ⟨c, by simp, if_pos hcs⟩
      · rw [hcst]
        split <;> rfl
  case expiry =>
    intro h s p hp
    rw [exec_preemptWaitExpiry hp]
    refine ⟨fun b hr hb hd => ?_, fun hno => if_neg ?_, fun b hb hd => if_neg ?_⟩
    · refine ⟨_, if_pos ((waitExpired_iff hb).2 ⟨hr, hd⟩), rfl, ?_, ?_, ?_, fun hres n hn => ?_⟩
      · rw [suspendPlan_plans_map hp, List.length_map]
      · intro q hq hqh
        rw [suspendPlan_plans_map hp] at hq
        obtain ⟨r, -, rfl⟩ := List.mem_map.1 hq
        by_cases he : r.handle = h
        · rw [if_pos he]
          exact ⟨rfl, rfl, rfl, rfl⟩
        · rw [if_neg he] at hqh
          exact absurd hqh he
      · intro q hq hqh
        rw [suspendPlan_plans_map hp] at hq
        obtain ⟨r, hr, rfl⟩ := List.mem_map.1 hq
        by_cases he : r.handle = h
        · rw [if_pos he] at hqh
          exact absurd he hqh
        · rw [if_neg he]
          exact hr
      · have hview := congrFun (suspendPlan_passView hp hres) n
        simp only [State.passView, modCals_cal, show p.names n = true from hn, if_true, Prod.mk.injEq] at hview
        obtain ⟨hpasses, hreplays⟩ := hview
        obtain ⟨hnone, hall⟩ := abandon_all (s.cals[n])
        rw [hpasses, hreplays]
        exact ⟨hnone, fun x hx => ⟨x.reset, hall x hx, rfl, rfl⟩⟩
    · rcases hno with hno | hno
      · unfold State.waitExpired
        split <;> simp [hno]
      · simp [State.waitExpired, hno]
    · intro he
      have := ((waitExpired_iff hb).1 he).2
      omega

end Sys2Proof.Machine
end

section
/-! Proofs of the statements about the vector-DSP unit: the instructions on registers, the memory instructions, the
search, the waits and the end of a program. -/

namespace Sys2Proof.Machine

/-! ### A unit's registers after an instruction (R105 to R109) -/

/-- Caldera `n` with another state of its vector-DSP unit. -/
def State.withDsp (s : State) (n : Fin 64) (d : Dsp) : State := s.modCal n (fun c => { c with dsp := d })

@[simp] theorem withDsp_cal (s : State) (n : Fin 64) (d : Dsp) : (s.withDsp n d).cals[n] = { s.cals[n] with dsp := d } :=
  State.modCal_at s n _

@[simp] theorem withDsp_cal_val (s : State) (n : Fin 64) (d : Dsp) : (s.withDsp n d).cals[n.val] = { s.cals[n] with dsp := d } :=
  withDsp_cal s n d

theorem onlyDsp_withDsp (s : State) (n : Fin 64) (d : Dsp) : OnlyDsp n s (s.withDsp n d) := by
  unfold OnlyDsp
  rw [withDsp_cal]
  rfl

theorem dspReg_next {s : State} {n : Fin 64} {op : Nat} {i : DWord} (f : Dsp → DWord → Dsp) (h : s.dspNext n op = some i) :
    s.dspReg n op f = .next (s.withDsp n (f (s.cals[n]).dsp i)) := by
  simp only [State.dspReg, h]
  exact congrArg _ (State.modCal_congr rfl)

theorem dspReg_none {s : State} {n : Fin 64} {op : Nat} (f : Dsp → DWord → Dsp) (h : s.dspNext n op = none) :
    s.dspReg n op f = .next s := by
  simp only [State.dspReg, h]

theorem capture_frame (d : Dsp) (l : List Nat) : d.capture l = { d with occ := (d.capture l).occ, occCnt := (d.capture l).occCnt } := by
  unfold Dsp.capture
  induction l generalizing d with
  | nil => rfl
  | cons j l ih =>
    rw [List.foldl_cons, ih]
    cases h : d.occ <;> rfl

theorem finish_eq (d : Dsp) (vd : Fin 32) (v : Data1024) (r : LaneRes) : d.finish vd v r = { d with
    v := vset d.v vd v, seed := r.gen, invalid := d.invalid || !r.inv.isEmpty, sat := d.sat || r.sat, flush := d.flush || r.flush
    pc := d.pc + 1, occ := (d.capture r.inv).occ, occCnt := (d.capture r.inv).occCnt } := by
  unfold Dsp.finish
  rw [capture_frame]
  rfl

@[simp] theorem finish_v (d : Dsp) (vd : Fin 32) (v : Data1024) (r : LaneRes) : (d.finish vd v r).v = vset d.v vd v := by rw [finish_eq]
@[simp] theorem finish_seed (d : Dsp) (vd : Fin 32) (v : Data1024) (r : LaneRes) : (d.finish vd v r).seed = r.gen := by rw [finish_eq]
@[simp] theorem finish_invalid (d : Dsp) (vd : Fin 32) (v : Data1024) (r : LaneRes) :
    (d.finish vd v r).invalid = (d.invalid || !r.inv.isEmpty) := by rw [finish_eq]

/-- What an instruction on registers with destination `vd` keeps of its unit: every other register, the generators, the
mode, the program's place and the flags that are set; the program counter advances. -/
structure Dsp.RegStep (vd : Fin 32) (d e : Dsp) : Prop where
  pc : e.pc = d.pc + 1
  regs : ∀ v : Fin 32, v ≠ vd → e.v[v] = d.v[v]
  ag : e.ag = d.ag
  mode : e.mode = d.mode
  progBase : e.progBase = d.progBase
  srchNone : e.srchNone = d.srchNone
  fault : e.fault = d.fault
  busy : e.busy = d.busy
  invalid : d.invalid = true → e.invalid = true
  sat : d.sat = true → e.sat = true
  flush : d.flush = true → e.flush = true

theorem finish_regStep (d : Dsp) (vd : Fin 32) (v : Data1024) (r : LaneRes) : Dsp.RegStep vd d (d.finish vd v r) := by
  rw [finish_eq]
  exact ⟨rfl, fun w hw => vset_get_ne _ _ _ _ hw, rfl, rfl, rfl, rfl, rfl, rfl, fun h => by simp [h], fun h => by simp [h], fun h => by simp [h]⟩

theorem cvtIn_regStep (d : Dsp) (i : DWord) : Dsp.RegStep (dspVd i) d (cvtIn d i) := by
  unfold cvtIn
  split
  · exact ⟨rfl, fun _ _ => rfl, rfl, rfl, rfl, rfl, rfl, rfl, id, id, id⟩
  · exact finish_regStep _ _ _ _

/-- Settles O14: each of the instructions runs one function of the unit, and that function writes back by `Dsp.finish`. -/
theorem dspRegisterInstructionsFrame : Obligations.DspRegisterInstructionsFrame := by
  unfold Obligations.DspRegisterInstructionsFrame
  intro e he n s
  have hf : ∃ f : Dsp → DWord → Dsp, exec (e.1 n) s = s.dspReg n e.2 f ∧ ∀ d i, Dsp.RegStep (dspVd i) d (f d i) := by
    simp only [List.mem_cons, List.not_mem_nil, or_false] at he
    rcases he with rfl | rfl | rfl | rfl | rfl | rfl | rfl | rfl | rfl | rfl | rfl | rfl | rfl | rfl | rfl | rfl | rfl
    iterate 15 exact ⟨_, rfl, fun _ _ => finish_regStep _ _ _ _⟩
    · exact ⟨_, rfl, cvtIn_regStep⟩
    · exact ⟨_, rfl, fun _ _ => finish_regStep _ _ _ _⟩
  obtain ⟨f, hx, hs⟩ := hf
  refine ⟨fun i hi => ⟨_, hx.trans (dspReg_next f hi), onlyDsp_withDsp _ _ _, ?_⟩, fun hi => hx.trans (dspReg_none f hi)⟩
  obtain ⟨hpc, hregs, hag, hmode, hprog, hsrch, hfault, hbusy, hinv, hsat, hflush⟩ := hs (s.cals[n]).dsp i
  rw [withDsp_cal]
  exact ⟨hpc, hregs, hag, hmode, hprog, hsrch, hfault, hbusy, hinv, hsat, hflush⟩

/-! ### Lanes and packed elements (R7, R39, R105) -/

theorem nfld_eq {n : Nat} (w : BitVec n) (lo k : Nat) : nfld w lo k = w.toNat / 2 ^ lo % 2 ^ k := by
  simp only [nfld, BitVec.extractLsb'_toNat, Nat.shiftRight_eq_div_pow]

theorem byteNat_toBytes {n : Nat} (w : BitVec n) (len i : Nat) (h : i < len) : byteNat (toBytes w len) i = nfld w (8 * i) 8 := by
  simp [byteNat, toBytes, nfld, h]

/-- The code of a two-byte element of a register's bytes. -/
theorem elemCode_toBytes {f : Fmt} (hf : f.width = 16) (v : Data1024) (j : Nat) (hj : j < 64) :
    elemCode f (toBytes v 128) j = nfld v (16 * j) 16 := by
  simp only [elemCode, hf]
  rw [if_neg (by decide), if_neg (by decide), if_neg (by decide), if_pos trivial, byteNat_toBytes _ _ _ (by omega),
    byteNat_toBytes _ _ _ (by omega), nfld_eq, nfld_eq, nfld_eq, show 8 * (2 * j) = 16 * j by omega,
    show 8 * (2 * j + 1) = 16 * j + 8 by omega, pow_add, ← Nat.div_div_eq_div_mul]
  omega

theorem packCodes_cons {f : Fmt} (h : f.width ≠ 4) (c : Nat) (cs : List Nat) :
    packCodes f (c :: cs) = toBytes (BitVec.ofNat 32 c) (Max.max 1 (f.width / 8)) ++ packCodes f cs := by
  rw [packCodes.eq_def]
  exact if_neg h

theorem getD_packCodes {f : Fmt} {w : Nat} (hf : f.width = 8 * w) (hw : 0 < w) (cs : List Nat) (j q : Nat) (hq : q < w) :
    (packCodes f cs).getD (w * j + q) 0 = (BitVec.ofNat 32 (cs.getD j 0)).extractLsb' (8 * q) 8 := by
  have hlen (c : Nat) : (toBytes (BitVec.ofNat 32 c) w).length = w := length_toBytes _ _
  induction cs generalizing j with
  | nil => simp [packCodes]
  | cons c cs ih =>
    rw [packCodes_cons (by omega), show Max.max 1 (f.width / 8) = w by omega]
    cases j with
    | zero =>
      rw [List.getD_append _ _ _ _ (by rw [hlen]; omega)]
      simp [toBytes, hq]
    | succ j =>
      rw [List.getD_append_right _ _ _ _ (by rw [hlen, Nat.mul_succ]; omega), hlen,
        show w * (j + 1) + q - w = w * j + q by rw [Nat.mul_succ]; omega, ih]
      rfl

/-- Field `j` of a register written with packed codes is code `j`. -/
theorem nfld_packCodes {f : Fmt} {w : Nat} (hf : f.width = 8 * w) (hw : 0 < w) (h4 : w ≤ 4) (n : Nat) (cs : List Nat) (j : Nat)
    (hj : (j + 1) * f.width ≤ n) : nfld (ofBytes n (packCodes f cs)) (j * f.width) f.width = cs.getD j 0 % 2 ^ f.width := by
  have hb : (ofBytes n (packCodes f cs)).extractLsb' (j * f.width) f.width = BitVec.ofNat f.width (cs.getD j 0) := by
    refine BitVec.eq_of_getLsbD_eq fun i hi => ?_
    have hd : (j * f.width + i) / 8 = w * j + i / 8 := by
      rw [hf, show j * (8 * w) = 8 * (w * j) by ring]
      omega
    have hm : (j * f.width + i) % 8 = i % 8 := by
      rw [hf, show j * (8 * w) = 8 * (w * j) by ring]
      omega
    have hn : j * f.width + i < n := by
      rw [Nat.succ_mul] at hj
      omega
    rw [BitVec.getLsbD_extractLsb', getLsbD_ofBytes, hd, hm, getD_packCodes hf hw _ _ _ (by omega), BitVec.getLsbD_extractLsb',
      BitVec.getLsbD_ofNat, BitVec.getLsbD_ofNat, show 8 * (i / 8) + i % 8 = i by omega]
    simp [hi, hn, show i < 32 by omega, show i % 8 < 8 by omega]
  rw [nfld, hb, BitVec.toNat_ofNat]

theorem laneFmt_width (ty : Nat) : (laneFmt ty).width = 8 * (if ty = 0 then 4 else 2) := by
  unfold laneFmt
  split
  · rfl
  · split <;> rfl

theorem laneFmt_fill (ty : Nat) : laneCount ty * (laneFmt ty).width = 1024 := by
  rw [laneFmt_width, laneCount]
  split <;> rfl

/-- A lane of a register written from lane codes. -/
theorem lane_ofLanes (ty : Nat) (cs : List Nat) (j : Nat) (hj : j < laneCount ty) :
    lane ty (ofLanes ty cs) j = cs.getD j 0 % 2 ^ (laneFmt ty).width := by
  have hle : (j + 1) * (laneFmt ty).width ≤ 1024 := by
    rw [← laneFmt_fill ty]
    exact Nat.mul_le_mul_right _ hj
  refine nfld_packCodes (laneFmt_width ty) ?_ ?_ 1024 cs j hle <;> split <;> decide

theorem lane_ofLanes_map (ty : Nat) (g : Nat → Nat) (j : Nat) (hj : j < laneCount ty) :
    lane ty (ofLanes ty ((List.range (laneCount ty)).map g)) j = g j % 2 ^ (laneFmt ty).width := by
  rw [lane_ofLanes _ _ _ hj]
  simp [hj]

theorem lane_lt (ty : Nat) (v : Data1024) (j : Nat) : lane ty v j < 2 ^ (laneFmt ty).width := (v.extractLsb' _ _).isLt

theorem toNat_mod_lane (w : Word) : w.toNat % 2 ^ (laneFmt 0).width = w.toNat := Nat.mod_eq_of_lt w.isLt

/-! ### One operation on every lane (R93, R108, R109) -/

theorem advance_succ (m : Nat) (g : Word) : advance (m + 1) g = xorshift (advance m g) := by
  induction m generalizing g with
  | zero => rfl
  | succ m ih => exact ih (xorshift g)

/-- The lane code of an exact value: FP32 to nearest; BF16 and FP16 under DSP_MODE, lane `j` with the draw `j + 1` after the
seed. -/
def laneCode (mode : BitVec 3) (ty : Nat) (seed : Word) (j : Nat) (x : Num) : Nat :=
  if ty = 0 then (roundFP32 x).toNat
  else ((laneFmt ty).convert x (if mode.getLsbD 0 then some (advance (j + 1) seed) else none) (mode.getLsbD 1) (mode.getLsbD 2)).code

/-- The generator after `m` lanes. -/
def laneGen (mode : BitVec 3) (ty : Nat) (seed : Word) (m : Nat) : Word := if ty ≠ 0 ∧ mode.getLsbD 0 = true then advance m seed else seed

/-- One lane taken: its value rounded, its zero times infinity noted. -/
def laneStep (mode : BitVec 3) (ty : Nat) (x : Nat → Num) (z : Nat → Bool) (r : LaneRes) (j : Nat) : LaneRes :=
  let r1 := roundLane mode ty r (x j)
  if z j then { r1 with inv := r1.inv ++ [j] } else r1

/-- The first `m` lanes, ascending. -/
def laneRun (mode : BitVec 3) (ty : Nat) (x : Nat → Num) (z : Nat → Bool) (seed : Word) (m : Nat) : LaneRes :=
  (List.range m).foldl (laneStep mode ty x z) { gen := seed }

theorem roundLane_eq (mode : BitVec 3) (ty : Nat) (r : LaneRes) (x : Num) (seed : Word) (m : Nat) (hg : r.gen = laneGen mode ty seed m) :
    (roundLane mode ty r x).codes = r.codes ++ [laneCode mode ty seed m x] ∧ (roundLane mode ty r x).gen = laneGen mode ty seed (m + 1)
      ∧ (roundLane mode ty r x).inv = r.inv := by
  by_cases ht : ty = 0
  · simp [roundLane, laneCode, laneGen, ht, hg]
  · by_cases hm : mode.getLsbD 0 = true <;>
      simp [-BitVec.getLsbD_eq_getElem, roundLane, laneCode, laneGen, ht, hg, hm, advance_succ]

theorem laneRun_eq (mode : BitVec 3) (ty : Nat) (x : Nat → Num) (z : Nat → Bool) (seed : Word) (m : Nat) :
    (laneRun mode ty x z seed m).codes = (List.range m).map (fun j => laneCode mode ty seed j (x j))
      ∧ (laneRun mode ty x z seed m).gen = laneGen mode ty seed m ∧ (laneRun mode ty x z seed m).inv = (List.range m).filter z := by
  induction m with
  | zero => exact ⟨rfl, by unfold laneGen; split <;> rfl, rfl⟩
  | succ m ih =>
    obtain ⟨hc, hg, hi⟩ := ih
    obtain ⟨hc', hg', hi'⟩ := roundLane_eq mode ty _ (x m) seed m hg
    have hs : laneRun mode ty x z seed (m + 1) = laneStep mode ty x z (laneRun mode ty x z seed m) m := by
      simp only [laneRun, List.range_succ, List.foldl_append, List.foldl_cons, List.foldl_nil]
    rw [hs, List.range_succ, List.map_append, List.filter_append]
    simp only [laneStep]
    split
    · rename_i hz
      simp [hc', hg', hi', hc, hi, hz]
    · rename_i hz
      simp [hc', hg', hi', hc, hi, hz]

/-- A unit after one operation on every lane: the exact values `x`, the lanes `z` with zero times infinity. -/
def Dsp.laned (d : Dsp) (i : DWord) (x : Nat → Num) (z : Nat → Bool) : Dsp :=
  let r := laneRun d.mode (dspType i) x z d.seed (laneCount (dspType i))
  d.finish (dspVd i) (ofLanes (dspType i) r.codes) r

theorem laneOp_laned (d : Dsp) (i : DWord) (f : Num → Num → Num → Num) (z : Num → Num → Bool) : laneOp d i f z = d.laned i
    (fun j => f (laneNum (dspType i) d.v[dspVa i] j) (laneNum (dspType i) d.v[dspVb i] j) (laneNum (dspType i) d.v[dspVc i] j))
    (fun j => z (laneNum (dspType i) d.v[dspVa i] j) (laneNum (dspType i) d.v[dspVb i] j)) := rfl

theorem laneFunc_laned (op : Nat) (d : Dsp) (i : DWord) : laneFunc op d i = d.laned i
    (fun j => fp32 (dspFunc op (dspType i) (roundFP32 (laneNum (dspType i) d.v[dspVa i] j)))) (fun _ => false) := rfl

theorem lane_laned (d : Dsp) (i : DWord) (x : Nat → Num) (z : Nat → Bool) (j : Nat) (hj : j < laneCount (dspType i)) :
    lane (dspType i) (d.laned i x z).v[dspVd i] j = laneCode d.mode (dspType i) d.seed j (x j) % 2 ^ (laneFmt (dspType i)).width := by
  unfold Dsp.laned
  rw [finish_v, vset_get_same, (laneRun_eq ..).1, lane_ofLanes_map _ _ _ hj]

theorem laned_seed (d : Dsp) (i : DWord) (x : Nat → Num) (z : Nat → Bool) :
    (d.laned i x z).seed = laneGen d.mode (dspType i) d.seed (laneCount (dspType i)) := by
  unfold Dsp.laned
  rw [finish_seed, (laneRun_eq ..).2.1]

theorem laned_invalid (d : Dsp) (i : DWord) (x : Nat → Num) (z : Nat → Bool) :
    (d.laned i x z).invalid = (d.invalid || (List.range (laneCount (dspType i))).any z) := by
  unfold Dsp.laned
  rw [finish_invalid, (laneRun_eq ..).2.2]
  congr 1
  rw [Bool.eq_iff_iff]
  simp [List.filter_eq_nil_iff]

theorem lane_laned_fp32 {d : Dsp} {i : DWord} {x : Nat → Num} {z : Nat → Bool} {j : Nat} (ht : dspType i = 0) (hj : j < 32) :
    lane 0 (d.laned i x z).v[dspVd i] j = (roundFP32 (x j)).toNat := by
  have h := lane_laned d i x z j (by rw [ht]; exact hj)
  rw [ht] at h
  rw [h, laneCode, if_pos rfl, toNat_mod_lane]

/-- Settles O15: the four instructions are `laneOp`, whose lanes are each rounded once under the draws taken so far. -/
theorem dspArithmetic : Obligations.DspArithmetic := by
  unfold Obligations.DspArithmetic
  refine ⟨fun e he n s i hi ht3 => ?_, fun e he n s i hi => ?_⟩
  · obtain ⟨z, hx⟩ : ∃ z, exec (e.1 n) s = s.dspReg n e.2.1 (fun d i => laneOp d i e.2.2 z) := by
      simp only [List.mem_cons, List.not_mem_nil, or_false] at he
      rcases he with rfl | rfl | rfl | rfl
      iterate 2 exact ⟨fun _ _ => false, rfl⟩
      iterate 2 exact ⟨zeroTimesInf, rfl⟩
    refine ⟨_, hx.trans (dspReg_next _ hi), fun j x hj hxj => ?_⟩
    rw [withDsp_cal, laneOp_laned]
    dsimp only
    rw [laned_seed]
    refine ⟨fun ht => ?_, fun ht hm => ?_, fun ht hm => ?_⟩
    · rw [ht] at hj hxj ⊢
      rw [lane_laned_fp32 ht hj, ← hxj]
      exact ⟨rfl, if_neg (by simp)⟩
    · rw [lane_laned _ _ _ _ _ hj, ← hxj, laneFmt_width, if_neg ht, laneCode, if_neg ht, hm]
      exact ⟨if_neg (by simp only [hm]; simp), rfl⟩
    · rw [lane_laned _ _ _ _ _ hj, ← hxj, laneFmt_width, if_neg ht, laneCode, if_neg ht, hm, laneCount, if_neg ht]
      exact ⟨if_pos ⟨ht, hm⟩, rfl⟩
  · obtain ⟨f, hx⟩ : ∃ f, exec (e.1 n) s = s.dspReg n e.2 (fun d i => laneOp d i f zeroTimesInf) := by
      simp only [List.mem_cons, List.not_mem_nil, or_false] at he
      rcases he with rfl | rfl <;> exact ⟨_, rfl⟩
    refine ⟨_, hx.trans (dspReg_next _ hi), ?_⟩
    rw [withDsp_cal, laneOp_laned]
    exact laned_invalid _ _ _ _

/-! ### Registers with FP32 results (R110, R113) -/

theorem lane_twoLanes (a b : Word) (j : Nat) : lane 0 (twoLanes a b) j = if j = 0 then a.toNat else if j = 1 then b.toNat else 0 := by
  have hb : (twoLanes a b).extractLsb' (j * 32) 32 = if j = 0 then a else if j = 1 then b else 0 := by
    refine BitVec.eq_of_getLsbD_eq fun i hi => ?_
    rw [BitVec.getLsbD_extractLsb', decide_eq_true hi, Bool.true_and]
    simp only [twoLanes, at_, BitVec.getLsbD_or, BitVec.getLsbD_shiftLeft, BitVec.getLsbD_setWidth]
    rcases j with _ | _ | j
    · simp [show i < 1024 by omega, hi]
    · simp [show i < 1024 by omega, show 32 + i < 1024 by omega]
    · have ha : a.getLsbD ((j + 1 + 1) * 32 + i) = false := BitVec.getLsbD_of_ge _ _ (by omega)
      have hb : b.getLsbD ((j + 1 + 1) * 32 + i - 32) = false := BitVec.getLsbD_of_ge _ _ (by omega)
      simp [ha, hb]
  have hn : lane 0 (twoLanes a b) j = ((twoLanes a b).extractLsb' (j * 32) 32).toNat := rfl
  rw [hn, hb]
  split
  · rfl
  · split <;> rfl

theorem at_zero_eq_twoLanes (w : Word) : at_ 1024 0 w = twoLanes w 0 := by simp [twoLanes, at_]

theorem getD_flatMap_pair {α : Type} (p q : α → Nat) (l : List α) (j : Nat) (h : j < l.length) :
    (l.flatMap (fun r => [p r, q r])).getD (2 * j) 0 = p l[j] ∧ (l.flatMap (fun r => [p r, q r])).getD (2 * j + 1) 0 = q l[j] := by
  induction l generalizing j with
  | nil => exact absurd h (Nat.not_lt_zero j)
  | cons r l ih =>
    cases j with
    | zero => exact ⟨rfl, rfl⟩
    | succ j => exact ih j (by simpa using h)

theorem lane_ofLanes_pairs (g : Nat → Word × Word × Bool) (j : Nat) (hj : j < 16) :
    lane 0 (ofLanes 0 (((List.range 16).map g).flatMap (fun r => [r.1.toNat, r.2.1.toNat]))) (2 * j) = (g j).1.toNat
      ∧ lane 0 (ofLanes 0 (((List.range 16).map g).flatMap (fun r => [r.1.toNat, r.2.1.toNat]))) (2 * j + 1) = (g j).2.1.toNat := by
  obtain ⟨h1, h2⟩ := getD_flatMap_pair (fun r : Word × Word × Bool => r.1.toNat) (fun r => r.2.1.toNat) ((List.range 16).map g) j
    (by simpa using hj)
  have hc : laneCount 0 = 32 := rfl
  rw [lane_ofLanes _ _ _ (by omega), lane_ofLanes _ _ _ (by omega), h1, h2, toNat_mod_lane, toNat_mod_lane]
  simp

theorem foldl_appends {α β γ : Type} {proj : β → List γ} {step : β → α → β} {g : α → γ}
    (h : ∀ r a, proj (step r a) = proj r ++ [g a]) (l : List α) (r : β) : proj (l.foldl step r) = proj r ++ l.map g := by
  induction l generalizing r with
  | nil => simp
  | cons a l ih => rw [List.foldl_cons, ih, h, List.append_assoc]; rfl

/-! ### FP32 values and their codes (R75, R82) -/

theorem fp32_value_nan {x : Nat} (h : 0x7F800000 < x % 2 ^ 31) : fFP32.value x = .nan := by
  have he : fFP32.expField x = fFP32.expTop := by
    simp only [Fmt.expField, Fmt.expTop, fFP32]
    omega
  have hm : fFP32.manField x ≠ 0 := by
    simp only [Fmt.manField, fFP32]
    omega
  unfold Fmt.value
  rw [he]
  exact (if_pos rfl).trans (if_neg hm)

/-- The exact value of a finite code: a mantissa below 2^24, normal or at the lowest exponent. -/
theorem fp32_value_fin {x : Nat} (h : x % 2 ^ 31 < 0x7F800000) : ∃ (m : Nat) (q : Int), fFP32.value x = .fin (fFP32.signBit x) m q
    ∧ (m = 0 ↔ x % 2 ^ 31 = 0) ∧ m < 2 ^ 24 ∧ -149 ≤ q ∧ q ≤ 104 ∧ (q = -149 ∨ 2 ^ 23 ≤ m) ∧ (q + 149).toNat * 2 ^ 23 + m = x % 2 ^ 31 := by
  have he : fFP32.expField x = x % 2 ^ 31 / 2 ^ 23 := rfl
  have hm : fFP32.manField x = x % 2 ^ 31 % 2 ^ 23 := by
    simp only [Fmt.manField, fFP32]
    omega
  have ht : ¬fFP32.expField x = fFP32.expTop := by
    rw [he]
    simp only [Fmt.expTop, fFP32]
    omega
  have hv : fFP32.value x = if fFP32.expField x = 0 then .fin (fFP32.signBit x) (fFP32.manField x) (-149)
      else .fin (fFP32.signBit x) (fFP32.manField x + 2 ^ 23) ((fFP32.expField x : Int) - 127 - 23) := by
    unfold Fmt.value
    exact if_neg ht
  rw [hv]
  split
  · exact ⟨_, _, rfl, by omega⟩
  · exact ⟨_, _, rfl, by omega⟩

/-- A value with a mantissa of FP32 converts to it unrounded. -/
theorem fp32_convert_exact {neg : Bool} {m : Nat} {q : Int} (h0 : m ≠ 0) (hm : m < 2 ^ 24) (hq : -149 ≤ q) (hq' : q ≤ 104)
    (hn : q = -149 ∨ 2 ^ 23 ≤ m) : (fFP32.convert (.fin neg m q) none true false).code =
      fFP32.signed neg (Nat.min ((q + 149).toNat * 2 ^ 23 + m) 0x7F7FFFFF) := by
  have hg : geMag m q fFP32.tm fFP32.te = false := by
    have hlo : q - min q 103 = if q = 104 then 1 else 0 := by split <;> omega
    have hp : 1 ≤ 2 ^ (103 - min q 103).toNat := Nat.one_le_two_pow
    refine decide_eq_false (Nat.not_le.2 ?_)
    simp only [fFP32, hlo]
    split <;> simp <;> omega
  have hl : Max.max ((Nat.log2 m : Int) + q - 23) (-149) = q := by
    have hlt : Nat.log2 m < 24 := (Nat.log2_lt h0).2 hm
    rcases hn with rfl | hn
    · omega
    · have hge : 23 ≤ Nat.log2 m := (Nat.le_log2 h0).2 hn
      omega
  have hr : roundUnits m q q none = m := by simp [roundUnits]
  unfold Fmt.convert
  simp only [h0, hg]
  rw [if_neg (by decide), if_neg (by decide), if_neg (by decide)]
  change fFP32.signed neg (Nat.min ((Max.max _ _ - (-149) : Int).toNat * 2 ^ 23 + roundUnits m q (Max.max _ _) none) _) = _
  rw [show fFP32.emin - fFP32.mbits = -149 from rfl, show (fFP32.mbits : Int) = 23 from rfl, hl, hr]
  rfl

theorem signBit_fp32 (x : Nat) (h : x < 2 ^ 32) : fFP32.signBit x = decide (2 ^ 31 ≤ x) := by
  rw [Bool.eq_iff_iff]
  simp only [Fmt.signBit, fFP32, beq_iff_eq, decide_eq_true_eq]
  omega

theorem fp32_signed (neg : Bool) (c : Nat) : fFP32.signed neg c = if neg then c + 2 ^ 31 else c := if_neg (by decide)

/-- Rounding gives a finite code back. -/
theorem roundFP32_value {x : Nat} (hx : x < 2 ^ 32) (h : x % 2 ^ 31 < 0x7F800000) (h0 : x % 2 ^ 31 ≠ 0) :
    (roundFP32 (fFP32.value x)).toNat = x := by
  obtain ⟨m, q, hv, hz, hm, hq, hq', hn, hc⟩ := fp32_value_fin h
  have hmin : Nat.min ((q + 149).toNat * 2 ^ 23 + m) 0x7F7FFFFF = x % 2 ^ 31 := by rw [hc]; exact Nat.min_eq_left (by omega)
  have hs : fFP32.signed (fFP32.signBit x) (x % 2 ^ 31) = x := by
    rw [signBit_fp32 x hx, fp32_signed]
    split <;> rename_i hb <;> simp only [decide_eq_true_eq] at hb <;> omega
  rw [roundFP32, hv, fp32_convert_exact (fun e => h0 (hz.1 e)) hm hq hq' hn, hmin, hs, BitVec.toNat_ofNat, Nat.mod_eq_of_lt hx]

theorem dspFunc_special {op ty : Nat} {x w : Word} (h : funcSpecial op (fp32 x) = some w) : dspFunc op ty x = w := by
  unfold dspFunc
  rw [h]

/-- The FP32 result of a function on one FP32 lane code (R111). -/
def funcLane (op x : Nat) : Nat := (roundFP32 (fp32 (dspFunc op 0 (roundFP32 (fFP32.value x))))).toNat

theorem funcLane_special {op x : Nat} {w : Word} (h : funcSpecial op (fp32 (roundFP32 (fFP32.value x))) = some w) :
    funcLane op x = (roundFP32 (fp32 w)).toNat := by
  rw [funcLane, dspFunc_special h]

theorem funcLane_nan {op x : Nat} (h : 0x7F800000 < x % 2 ^ 31) : funcLane op x = 0x7FC00000 := by
  have hn : fp32 (roundFP32 .nan) = .nan := by decide
  have hs : funcSpecial op (fp32 (roundFP32 (fFP32.value x))) = some 0x7FC00000#32 := by
    rw [fp32_value_nan h, hn]
    rfl
  rw [funcLane_special hs]
  decide

theorem funcLane_negative {op x : Nat} (ho : op = 0x21 ∨ op = 0x22) (h : 0x80000000 < x) (h' : x < 0xFF800000) :
    funcLane op x = 0x7FC00000 := by
  have hx : x < 2 ^ 32 := by omega
  have hf : x % 2 ^ 31 < 0x7F800000 := by omega
  have h0 : x % 2 ^ 31 ≠ 0 := by omega
  obtain ⟨m, q, hv, hz, -⟩ := fp32_value_fin hf
  have hs : funcSpecial op (fp32 (roundFP32 (fFP32.value x))) = some 0x7FC00000#32 := by
    have hb : fFP32.signBit x = true := by rw [signBit_fp32 x hx]; exact decide_eq_true (by omega)
    rw [fp32, roundFP32_value hx hf h0, hv, hb]
    simp only [funcSpecial]
    rw [if_neg (fun e => h0 (hz.1 e)), if_pos ⟨trivial, ho⟩]
  rw [funcLane_special hs]
  decide

/-- The special values of R111's table, by opcode, operand code and result code. -/
theorem funcLane_table : ∀ e ∈ ([(0x20, 0x7F800000, 0x7F800000), (0x20, 0xFF800000, 0), (0x20, 0, 0x3F800000), (0x20, 0x80000000, 0x3F800000),
    (0x21, 0x7F800000, 0x7F800000), (0x21, 0xFF800000, 0x7FC00000), (0x21, 0, 0xFF800000), (0x21, 0x80000000, 0xFF800000),
    (0x22, 0x7F800000, 0), (0x22, 0xFF800000, 0x7FC00000), (0x22, 0, 0x7F800000), (0x22, 0x80000000, 0xFF800000),
    (0x23, 0x7F800000, 0), (0x23, 0xFF800000, 0x80000000), (0x23, 0, 0x7F800000), (0x23, 0x80000000, 0xFF800000),
    (0x24, 0x7F800000, 0x3F800000), (0x24, 0xFF800000, 0), (0x24, 0, 0x3F000000), (0x24, 0x80000000, 0x3F000000),
    (0x25, 0x7F800000, 0x3F800000), (0x25, 0xFF800000, 0xBF800000), (0x25, 0, 0), (0x25, 0x80000000, 0x80000000)] : List (Nat × Nat × Nat)),
    funcLane e.1 e.2.1 = e.2.2 := by decide

theorem lane_laneFunc {op : Nat} {d : Dsp} {i : DWord} {j : Nat} (ht : dspType i = 0) (hj : j < 32) :
    lane 0 (laneFunc op d i).v[dspVd i] j = funcLane op (lane 0 d.v[dspVa i] j) := by
  rw [laneFunc_laned, lane_laned_fp32 ht hj, ht]
  rfl

/-! ### Conversions on a register (R87, R112) -/

theorem fmtOf_two_bytes {c : Nat} {f : Fmt} (hc : c = 8 ∨ c = 9) (hf : fmtOf c = some f) : f.width = 16 ∧ f.mx = false := by
  rcases hc with rfl | rfl <;> cases hf <;> exact ⟨rfl, rfl⟩

theorem fmtOf_mx {c : Nat} {f : Fmt} (hc : c ≤ 5) (hf : fmtOf c = some f) : f.mx = true ∧ elemBytes f 32 < 128 := by
  interval_cases c <;> cases hf <;> decide

/-- The FP32 code of element `j` of a row that VCVTI converts. -/
def cvtInCode (d : Dsp) (i : DWord) (f : Fmt) (j : Nat) : Nat :=
  let row := toBytes d.v[dspVa i] 128
  let x := f.value (elemCode f row j)
  (fFP32.convert (if f.mx then (scaleNum (byteNat row (elemBytes f 32))).mul x else x) none true (d.mode.getLsbD 2)).code

theorem lane_cvtIn {d : Dsp} {i : DWord} {f : Fmt} (hf : fmtOf (dspImm i % 16) = some f) {j : Nat} (hj : j < 32) :
    lane 0 (cvtIn d i).v[dspVd i] j = cvtInCode d i f j % 2 ^ 32 := by
  unfold cvtIn
  rw [hf]
  simp only [finish_v]
  rw [vset_get_same, foldl_appends (proj := LaneRes.codes) (g := cvtInCode d i f) (fun _ _ => rfl)]
  exact lane_ofLanes_map 0 _ j hj

/-- The code of element `j` that VCVTO writes without draws. -/
def cvtOutCode (d : Dsp) (i : DWord) (f : Fmt) (j : Nat) : Nat :=
  (f.convert (fp32 (rfld d.v[dspVa i] (4 * j) 0 32)) none (d.mode.getLsbD 1) (d.mode.getLsbD 2)).code

theorem cvtOut_v {d : Dsp} {i : DWord} {f : Fmt} (hf : fmtOf (dspImm i % 16) = some f) (hw : f.width = 16) (hm : f.mx = false)
    (hd : d.mode.getLsbD 0 = false) :
    (cvtOut d i).v = vset d.v (dspVd i) (ofBytes 1024 (packCodes f ((List.range 32).map (cvtOutCode d i f)))) := by
  unfold cvtOut drainArray
  rw [hf]
  simp only [hm, hw, hd, finish_v]
  rw [if_neg (by decide), foldl_appends (proj := ConvRow.codes) (g := fun x => (f.convert x none (d.mode.getLsbD 1) (d.mode.getLsbD 2)).code)]
  · simp only [List.map_map]
    rfl
  · intro r x
    simp [convDraw]

/-! ### Selection, trees, functions and conversions by instruction (R108 to R112) -/

section
variable {x : Out} {n : Fin 64} {s : State} {i : DWord} {op : Nat}

theorem select_lanes {g : Machine.Num → Machine.Num → Machine.Num} (hx : x = s.dspReg n op (fun d i => laneSelect d i g))
    (hi : s.dspNext n op = some i) : ∃ u, x = .next u ∧ (u.cals[n]).dsp.seed = (s.cals[n]).dsp.seed ∧ ∀ j, j < laneCount (dspType i) →
      lane (dspType i) (u.cals[n]).dsp.v[dspVd i] j = ((laneFmt (dspType i)).convert
        (g (laneNum (dspType i) (s.cals[n]).dsp.v[dspVa i] j) (laneNum (dspType i) (s.cals[n]).dsp.v[dspVb i] j))
        none true false).code % 2 ^ (laneFmt (dspType i)).width := by
  refine ⟨_, hx.trans (dspReg_next _ hi), ?_⟩
  rw [withDsp_cal]
  refine ⟨finish_seed _ _ _ _, fun j hj => ?_⟩
  simp only [laneSelect, finish_v]
  rw [vset_get_same, lane_ofLanes_map _ _ _ hj]

theorem vcmul_lanes (hi : s.dspNext n 0x16 = some i) : ∃ u, exec (.vcmul n) s = .next u
    ∧ (u.cals[n]).dsp.seed = (s.cals[n]).dsp.seed ∧ ∀ j, j < 16 →
      lane 0 (u.cals[n]).dsp.v[dspVd i] (2 * j) = (cmulLane (s.cals[n]).dsp.v[dspVa i] (s.cals[n]).dsp.v[dspVb i] j).1.toNat
      ∧ lane 0 (u.cals[n]).dsp.v[dspVd i] (2 * j + 1) = (cmulLane (s.cals[n]).dsp.v[dspVa i] (s.cals[n]).dsp.v[dspVb i] j).2.1.toNat
      ∧ ((cmulLane (s.cals[n]).dsp.v[dspVa i] (s.cals[n]).dsp.v[dspVb i] j).2.2 = true → (u.cals[n]).dsp.invalid = true) := by
  refine ⟨_, dspReg_next _ hi, ?_⟩
  rw [withDsp_cal]
  refine ⟨finish_seed _ _ _ _, fun j hj => ?_⟩
  simp only [finish_v, finish_invalid]
  rw [vset_get_same]
  obtain ⟨h1, h2⟩ := lane_ofLanes_pairs (cmulLane (s.cals[n]).dsp.v[dspVa i] (s.cals[n]).dsp.v[dspVb i]) j hj
  refine ⟨h1, h2, fun hz => ?_⟩
  have hmem : ¬(List.range 16).filter (fun j =>
      (((List.range 16).map (cmulLane (s.cals[n]).dsp.v[dspVa i] (s.cals[n]).dsp.v[dspVb i])).getD j (0, 0, false)).2.2) = [] :=
    List.ne_nil_of_mem (a := j) (by simp [hj]; exact hz)
  simp only [Bool.or_eq_true, Bool.not_eq_true', List.isEmpty_eq_false_iff]
  exact .inr hmem

theorem reduce_lanes {g : Word → Word → Word} (hx : x = s.dspReg n op (fun d i => laneReduce d i g)) (hi : s.dspNext n op = some i) :
    ∃ u, x = .next u ∧ (u.cals[n]).dsp.seed = (s.cals[n]).dsp.seed
      ∧ lane 0 (u.cals[n]).dsp.v[dspVd i] 0 = ((treeReduce g 6 ((List.range (laneCount (dspType i))).map
          (fun j => roundFP32 (laneNum (dspType i) (s.cals[n]).dsp.v[dspVa i] j)))).headD 0).toNat
      ∧ ∀ j, 0 < j → j < 32 → lane 0 (u.cals[n]).dsp.v[dspVd i] j = 0 := by
  refine ⟨_, hx.trans (dspReg_next _ hi), ?_⟩
  rw [withDsp_cal]
  simp only [laneReduce, finish_v, finish_seed, at_zero_eq_twoLanes]
  rw [vset_get_same]
  refine ⟨trivial, lane_twoLanes _ _ _, fun j hj _ => ?_⟩
  rw [lane_twoLanes, if_neg (by omega)]
  split <;> rfl

theorem func_lanes (hx : x = s.dspReg n op (laneFunc op)) (hi : s.dspNext n op = some i) (ht : dspType i = 0) :
    ∃ u, x = .next u ∧ ∀ j, j < 32 → lane 0 (u.cals[n]).dsp.v[dspVd i] j = funcLane op (lane 0 (s.cals[n]).dsp.v[dspVa i] j) := by
  refine ⟨_, hx.trans (dspReg_next _ hi), fun j hj => ?_⟩
  rw [withDsp_cal]
  exact lane_laneFunc ht hj

theorem vcvto_elements {f : Fmt} (hi : s.dspNext n 0x31 = some i) (hk : dspImm i % 16 = 8 ∨ dspImm i % 16 = 9)
    (hf : fmtOf (dspImm i % 16) = some f) (hm : (s.cals[n]).dsp.mode.getLsbD 0 = false) : ∃ u, exec (.vcvto n) s = .next u ∧ ∀ j, j < 32 →
      nfld (u.cals[n]).dsp.v[dspVd i] (16 * j) 16 =
        (f.convert (fp32 (rfld (s.cals[n]).dsp.v[dspVa i] (4 * j) 0 32)) none ((s.cals[n]).dsp.mode.getLsbD 1)
          ((s.cals[n]).dsp.mode.getLsbD 2)).code % 2 ^ 16
      ∧ nfld (u.cals[n]).dsp.v[dspVd i] (512 + 16 * j) 16 = 0 := by
  obtain ⟨hw, hmx⟩ := fmtOf_two_bytes hk hf
  refine ⟨_, dspReg_next _ hi, fun j hj => ?_⟩
  rw [withDsp_cal]
  simp only [cvtOut_v hf hw hmx hm]
  rw [vset_get_same]
  have hl (k : Nat) (hk : k < 64) : nfld (ofBytes 1024 (packCodes f ((List.range 32).map (cvtOutCode (s.cals[n]).dsp i f)))) (16 * k) 16
      = ((List.range 32).map (cvtOutCode (s.cals[n]).dsp i f)).getD k 0 % 2 ^ 16 := by
    have h := nfld_packCodes (w := 2) hw (by decide) (by decide) 1024 ((List.range 32).map (cvtOutCode (s.cals[n]).dsp i f)) k
      (by rw [hw]; omega)
    rwa [hw, Nat.mul_comm k] at h
  rw [hl j (by omega), show 512 + 16 * j = 16 * (32 + j) by omega, hl (32 + j) (by omega)]
  simp [hj, cvtOutCode]

theorem vcvti_lanes {f : Fmt} (hi : s.dspNext n 0x30 = some i) (hk : dspImm i % 16 = 8 ∨ dspImm i % 16 = 9)
    (hf : fmtOf (dspImm i % 16) = some f) : ∃ u, exec (.vcvti n) s = .next u ∧ ∀ j, j < 32 → lane 0 (u.cals[n]).dsp.v[dspVd i] j =
      (fFP32.convert (f.value (nfld (s.cals[n]).dsp.v[dspVa i] (16 * j) 16)) none true ((s.cals[n]).dsp.mode.getLsbD 2)).code % 2 ^ 32 := by
  obtain ⟨hw, hmx⟩ := fmtOf_two_bytes hk hf
  refine ⟨_, dspReg_next _ hi, fun j hj => ?_⟩
  rw [withDsp_cal]
  simp only [lane_cvtIn hf hj, cvtInCode, hmx, elemCode_toBytes hw _ j (by omega)]
  rfl

theorem vcvti_lanes_nan {f : Fmt} (hi : s.dspNext n 0x30 = some i) (hk : dspImm i % 16 ≤ 5) (hf : fmtOf (dspImm i % 16) = some f)
    (hx : nfld (s.cals[n]).dsp.v[dspVa i] (8 * elemBytes f 32) 8 = 0xFF) :
    ∃ u, exec (.vcvti n) s = .next u ∧ ∀ j, j < 32 → lane 0 (u.cals[n]).dsp.v[dspVd i] j = 0x7FC00000 := by
  obtain ⟨hmx, he⟩ := fmtOf_mx hk hf
  refine ⟨_, dspReg_next _ hi, fun j hj => ?_⟩
  rw [withDsp_cal]
  simp only [lane_cvtIn hf hj, cvtInCode, hmx, byteNat_toBytes _ _ _ he, hx]
  rfl
end

/-- Settles O16: the lanes of a selection, of VCMUL, of the tree, of a function and of a conversion, each read off its list of
lane codes; the special values come from `funcSpecial`, after FP32 has given the operand's code back. -/
theorem dspSelectionFunctionsAndConversion : Obligations.DspSelectionFunctionsAndConversion := by
  unfold Obligations.DspSelectionFunctionsAndConversion
  refine ⟨⟨fun e he n s i hi _ => ?_, fun n s i hi => vcmul_lanes hi, fun e he n s i hi => ?_⟩,
    ⟨fun e he n s i hi ht => ?_, fun e he n s i hi ht => ?_, fun e he n s i hi ht => ?_⟩,
    fun n s i f hi hk hf hm => vcvto_elements hi hk hf hm, fun n s i f hi hk hf => vcvti_lanes hi hk hf,
    fun n s i f hi hk hf hx => vcvti_lanes_nan hi hk hf hx⟩
  · refine select_lanes ?_ hi
    simp only [List.mem_cons, List.not_mem_nil, or_false] at he
    rcases he with rfl | rfl <;> rfl
  · refine reduce_lanes ?_ hi
    simp only [List.mem_cons, List.not_mem_nil, or_false] at he
    rcases he with rfl | rfl <;> rfl
  · refine func_lanes ?_ hi ht
    simp only [List.mem_cons, List.not_mem_nil, or_false] at he
    rcases he with rfl | rfl | rfl | rfl | rfl | rfl <;> rfl
  · have hx : exec (e.1 n) s = s.dspReg n e.2.1 (laneFunc e.2.1) := by
      simp only [List.mem_cons, List.not_mem_nil, or_false] at he
      rcases he with rfl | rfl | rfl | rfl | rfl | rfl | rfl | rfl | rfl | rfl | rfl | rfl | rfl | rfl | rfl | rfl | rfl | rfl | rfl | rfl
        | rfl | rfl | rfl | rfl <;> rfl
    obtain ⟨u, hu, hl⟩ := func_lanes hx hi ht
    refine ⟨u, hu, fun j hj hv => ?_⟩
    rw [hl j hj, hv]
    exact funcLane_table e.2 (List.mem_map_of_mem (f := Prod.snd) he)
  · have hx : exec (e.1 n) s = s.dspReg n e.2.1 (laneFunc e.2.1) ∧ (e.2.2 = true → e.2.1 = 0x21 ∨ e.2.1 = 0x22) := by
      simp only [List.mem_cons, List.not_mem_nil, or_false] at he
      rcases he with rfl | rfl | rfl | rfl | rfl | rfl <;> exact ⟨rfl, by decide⟩
    obtain ⟨u, hu, hl⟩ := func_lanes hx.1 hi ht
    refine ⟨u, hu, fun j x hj hxj => ⟨fun hn => ?_, fun hb h h' => ?_⟩⟩
    · have hlt : x < 2 ^ 32 := hxj ▸ lane_lt 0 _ _
      rw [hl j hj, ← hxj]
      exact funcLane_nan (by omega)
    · rw [hl j hj, ← hxj]
      exact funcLane_negative (hx.2 hb) h h'

/-! ### Address generators (R114, R115) -/

theorem advance_circ {g : AddrGen} (h : g.circ = true) :
    g.advance = { g with ptr := BitVec.ofInt 32 (((g.ptr.toNat : Int) + g.stride.toInt) % ((g.lenM1.toNat : Int) + 1)) } := if_pos h

theorem advance_linear {g : AddrGen} (h : g.circ = false) : g.advance = { g with ptr := g.ptr + g.stride } := if_neg (by simp [h])

theorem advance_frame (g : AddrGen) : g.advance = { g with ptr := g.advance.ptr } := by
  unfold AddrGen.advance
  split <;> rfl

@[simp] theorem advance_esize (g : AddrGen) : g.advance.esize = g.esize := by rw [advance_frame]; rfl
@[simp] theorem advance_target (g : AddrGen) : g.advance.target = g.target := by rw [advance_frame]; rfl
@[simp] theorem advance_stream (g : AddrGen) : g.advance.stream = g.stream := by rw [advance_frame]; rfl

theorem advance_ptr_circ {g : AddrGen} (h : g.circ = true) :
    (g.advance.ptr.toNat : Int) = ((g.ptr.toNat : Int) + g.stride.toInt) % ((g.lenM1.toNat : Int) + 1) := by
  have hm : (0 : Int) < (g.lenM1.toNat : Int) + 1 := by omega
  have h0 := Int.emod_nonneg ((g.ptr.toNat : Int) + g.stride.toInt) hm.ne'
  have h1 := Int.emod_lt_of_pos ((g.ptr.toNat : Int) + g.stride.toInt) hm
  have h2 := g.lenM1.isLt
  rw [advance_circ h]
  simp only [BitVec.toNat_ofInt]
  rw [Int.emod_eq_of_lt h0 (by omega), Int.toNat_of_nonneg h0]

theorem agFault_linear {c : Caldera} {g : AddrGen} (perm : Nat) (hc : g.circ = false) (hp : g.lenM1.toNat < g.ptr.toNat) :
    agFault c g perm = some 1 := if_pos (by simp [hc, hp])

theorem agFault_beyond {c : Caldera} {g : AddrGen} (perm : Nat) (ht : g.target = false) (ha : 12582912 < g.sramAddr + g.esize) :
    agFault c g perm = some 1 := by
  unfold agFault
  split
  · rfl
  · rw [if_neg (Bool.eq_false_iff.1 ht)]
    exact if_pos ha

theorem agFault_within {c : Caldera} {g : AddrGen} (perm : Nat) (hp : g.circ = true ∨ g.ptr.toNat ≤ g.lenM1.toNat) (ht : g.target = false)
    (ha : g.sramAddr + g.esize ≤ 12582912) : agFault c g perm = if segOk c g.sramAddr g.esize perm then none else some 2 := by
  have hl : ¬(!g.circ && decide (g.lenM1.toNat < g.ptr.toNat)) = true := by
    rcases hp with hp | hp <;> simp [hp]
  unfold agFault
  rw [if_neg hl, if_neg (Bool.eq_false_iff.1 ht), if_neg (show ¬sramSize < _ from Nat.not_lt.2 ha)]
  cases segOk c g.sramAddr g.esize perm <;> rfl

/-- A caldera whose generator `k` has advanced. -/
def Caldera.agAdvance (c : Caldera) (k : Fin 16) : Caldera := c.modDsp (fun d => { d with ag := vmod d.ag k AddrGen.advance })

@[simp] theorem agAdvance_ag (c : Caldera) (k : Fin 16) : (c.agAdvance k).dsp.ag[k] = (c.dsp.ag[k]).advance := vmod_get_same _ _ _

theorem agAdvance_sram (c : Caldera) (k : Fin 16) : (c.agAdvance k).sram = c.sram := rfl
theorem agAdvance_streams (c : Caldera) (k : Fin 16) : (c.agAdvance k).streams = c.streams := rfl

theorem agRead_sram {c : Caldera} {k : Fin 16} (hf : agFault c c.dsp.ag[k] 27 = none) (ht : (c.dsp.ag[k]).target = false) :
    agRead c k = .data (mreadN c.sram (c.dsp.ag[k]).sramAddr (min (c.dsp.ag[k]).esize 128)) (c.agAdvance k) := by
  unfold agRead
  simp only [hf]
  exact if_neg (Bool.eq_false_iff.1 ht)

theorem agRead_halted {c : Caldera} {k : Fin 16} (hf : agFault c c.dsp.ag[k] 27 = none) (ht : (c.dsp.ag[k]).target = true)
    (hs : (c.streams[(c.dsp.ag[k]).stream]).st = .halted) : agRead c k = .fault 3 := by
  unfold agRead
  simp only [hf]
  rw [if_pos ht, if_pos hs]

theorem agRead_waits {c : Caldera} {k : Fin 16} (hf : agFault c c.dsp.ag[k] 27 = none) (ht : (c.dsp.ag[k]).target = true)
    (hs : (c.streams[(c.dsp.ag[k]).stream]).st ≠ .halted)
    (hb : c.staged (c.dsp.ag[k]).stream (dRec (c.streams[(c.dsp.ag[k]).stream]).desc) = none) : agRead c k = .wait := by
  unfold agRead
  simp only [hf]
  rw [if_pos ht, if_neg hs, hb]

theorem agRead_staged {c : Caldera} {k : Fin 16} {b : List Byte} (hf : agFault c c.dsp.ag[k] 27 = none) (ht : (c.dsp.ag[k]).target = true)
    (hs : (c.streams[(c.dsp.ag[k]).stream]).st ≠ .halted)
    (hb : c.staged (c.dsp.ag[k]).stream (dRec (c.streams[(c.dsp.ag[k]).stream]).desc) = some b) :
    agRead c k = .data b ((c.consume (c.dsp.ag[k]).stream (dRec (c.streams[(c.dsp.ag[k]).stream]).desc)).agAdvance k) := by
  unfold agRead
  simp only [hf]
  rw [if_pos ht, if_neg hs, hb]
  rfl

theorem agRead_fault {c : Caldera} {k : Fin 16} {f : Nat} (hf : agFault c c.dsp.ag[k] 27 = some f) : agRead c k = .fault f := by
  unfold agRead
  simp only [hf]

/-! ### VLD, VST and AGSET (R108, R115) -/

/-- A caldera after VLD has read bytes `b`. -/
def Caldera.loaded (c : Caldera) (i : DWord) (b : List Byte) : Caldera := c.modDsp (fun d =>
  ({ d with v := vset d.v (dspVd i) (ofBytes 1024 (b.take (min (c.dsp.ag[dspAg i]).esize 128))) }).advancePc)

theorem loaded_dsp (c : Caldera) (i : DWord) (b : List Byte) : ((c.agAdvance (dspAg i)).loaded i b).dsp = { c.dsp with
    v := vset c.dsp.v (dspVd i) (ofBytes 1024 (b.take (min (c.dsp.ag[dspAg i]).esize 128)))
    ag := vset c.dsp.ag (dspAg i) (c.dsp.ag[dspAg i]).advance, pc := c.dsp.pc + 1 } := by
  have he : ((c.agAdvance (dspAg i)).dsp.ag[dspAg i]).esize = (c.dsp.ag[dspAg i]).esize := by rw [agAdvance_ag, advance_esize]
  unfold Caldera.loaded
  rw [he]
  rfl

theorem loaded_sram (c : Caldera) (i : DWord) (b : List Byte) : (c.loaded i b).sram = c.sram := rfl
theorem loaded_streams (c : Caldera) (i : DWord) (b : List Byte) : (c.loaded i b).streams = c.streams := rfl

theorem length_mreadN (m : Memory) (a n : Nat) : (mreadN m a n).length = n := by simp [mreadN]

theorem exec_vld_data {n : Fin 64} {s : State} {i : DWord} {b : List Byte} {c : Caldera} (hi : s.dspNext n 0x01 = some i)
    (hr : agRead s.cals[n] (dspAg i) = .data b c) : exec (.vld n) s = .next (s.modCal n (fun _ => c.loaded i b)) := by
  simp only [exec, execVld, hi, hr]
  rfl

theorem exec_vld_sram {n : Fin 64} {s : State} {i : DWord} {b : List Byte} (hi : s.dspNext n 0x01 = some i)
    (hr : agRead s.cals[n] (dspAg i) = .data b ((s.cals[n]).agAdvance (dspAg i))) :
    exec (.vld n) s = .next (s.withDsp n (((s.cals[n]).agAdvance (dspAg i)).loaded i b).dsp) :=
  (exec_vld_data hi hr).trans (congrArg _ (State.modCal_congr rfl))

theorem exec_vld_fault {n : Fin 64} {s : State} {i : DWord} {f : Nat} (hi : s.dspNext n 0x01 = some i)
    (hf : agFault s.cals[n] (s.cals[n]).dsp.ag[dspAg i] 27 = some f) : exec (.vld n) s = .next (s.dspFault n f (dspAg i)) := by
  simp only [exec, execVld, hi, agRead_fault hf]

theorem exec_vst_fault {n : Fin 64} {s : State} {i : DWord} {f : Nat} (hi : s.dspNext n 0x02 = some i)
    (hf : agFault s.cals[n] (s.cals[n]).dsp.ag[dspAg i] 28 = some f) : exec (.vst n) s = .next (s.dspFault n f (dspAg i)) := by
  simp only [exec, execVst, hi, hf]

/-- A caldera after VST through generator `k` into SRAM. -/
def Caldera.stored (c : Caldera) (i : DWord) : Caldera :=
  { c with
    sram := mwriteN c.sram (c.dsp.ag[dspAg i]).sramAddr (toBytes c.dsp.v[dspVd i] (min (c.dsp.ag[dspAg i]).esize 128))
    dsp := { c.dsp with ag := vmod c.dsp.ag (dspAg i) AddrGen.advance, pc := c.dsp.pc + 1 } }

theorem stored_sram (c : Caldera) (i : DWord) : (c.stored i).sram =
    mwriteN c.sram (c.dsp.ag[dspAg i]).sramAddr (toBytes c.dsp.v[dspVd i] (min (c.dsp.ag[dspAg i]).esize 128)) := rfl

theorem exec_vst_sram {n : Fin 64} {s : State} {i : DWord} (hi : s.dspNext n 0x02 = some i)
    (hf : agFault s.cals[n] (s.cals[n]).dsp.ag[dspAg i] 28 = none) (ht : ((s.cals[n]).dsp.ag[dspAg i]).target = false) :
    exec (.vst n) s = .next (s.modCal n (fun c => c.stored i)) := by
  simp only [exec, execVst, hi, hf]
  rw [if_neg (Bool.eq_false_iff.1 ht)]
  exact congrArg _ (State.modCal_congr rfl)

theorem dspFault_cal (s : State) (n : Fin 64) (f : Nat) (k : Fin 16) : (s.dspFault n f k).cals[n] = { s.cals[n] with
    fault := true
    dsp := { (s.cals[n]).dsp with fault := true, faultCause := BitVec.ofNat 4 f, stopped := true, faultPc := (s.cals[n]).dsp.pc
                                  faultAg := BitVec.ofNat 4 k.val } } := by
  unfold State.dspFault
  split
  · simp only [planStop_cals]
    exact State.modCal_at _ _ _
  · exact State.modCal_at _ _ _

theorem consume_sram (c : Caldera) (k : Fin 64) (n : Nat) : (c.consume k n).sram = c.sram := rfl
theorem consume_dsp (c : Caldera) (k : Fin 64) (n : Nat) : (c.consume k n).dsp = c.dsp := rfl

theorem consume_desc (c : Caldera) (k : Fin 64) (n : Nat) : ((c.consume k n).streams[k]).desc = (c.streams[k]).desc := by
  simp only [Caldera.consume, Caldera.consumeTo]
  rw [vmod_get_same]

theorem consume_pos (c : Caldera) (k : Fin 64) (n : Nat) : ((c.consume k n).streams[k]).pos = (c.streams[k]).pos + n := by
  simp only [Caldera.consume, Caldera.consumeTo]
  rw [vmod_get_same]
  exact Nat.max_eq_right (Nat.le_add_right _ _)

theorem getElem_toBytes {n : Nat} (w : BitVec n) (len k : Nat) (h : k < (toBytes w len).length) : (toBytes w len)[k] = fld w (8 * k) 8 := by
  simp [toBytes, fld]

theorem exec_agset {n : Fin 64} {s : State} {i : DWord} (hi : s.dspNext n 0x48 = some i) : ∃ u, exec (.agset n) s = .next u
    ∧ OnlyCal n s u ∧ (u.cals[n]).dsp = { (s.cals[n]).dsp with
        ag := vset (s.cals[n]).dsp.ag (dspAg i) { (s.cals[n]).dsp.ag[dspAg i] with ptr := rfld (s.cals[n]).dsp.v[dspVa i] 0 0 32 }
        pc := (s.cals[n]).dsp.pc + 1 }
    ∧ (u.cals[n]).sram = (s.cals[n]).sram
    ∧ (((s.cals[n]).dsp.ag[dspAg i]).target = false → OnlyDsp n s u) := by
  simp only [exec, execAgset, hi]
  refine ⟨_, rfl, onlyCal_modCal _ _ _, ?_⟩
  unfold OnlyDsp
  rw [State.modCal_at]
  by_cases ht : ((s.cals[n]).dsp.ag[dspAg i]).target = true
  · rw [if_pos ht]
    exact ⟨rfl, rfl, fun h => absurd (ht.symm.trans h) (by decide)⟩
  · rw [if_neg ht]
    exact ⟨rfl, rfl, fun _ => State.modCal_congr (if_neg ht)⟩

/-- Settles O17: what each of the three instructions answers, the generator's arithmetic, and the refusals of `agFault`. -/
theorem dspMemoryInstructions : Obligations.DspMemoryInstructions := by
  unfold Obligations.DspMemoryInstructions
  refine ⟨⟨fun n s i g hi hg hf ht => ?_, fun n s i g b hi hg hf ht hs hb => ?_, fun n s i g hi hg hf ht => ?_, fun n s i g hi hg => ?_⟩,
    ⟨fun g h => advance_ptr_circ h, fun g h => by rw [advance_linear h], fun g h => ?_, fun g => ?_⟩,
    fun c g perm hc hp => agFault_linear perm hc hp, fun c g perm ht ha => agFault_beyond perm ht ha,
    fun c g perm hp ht ha => agFault_within perm hp ht ha, fun n s i f hi hf => ?_, fun n s i f hi hf => ?_⟩
  · subst hg
    refine ⟨_, exec_vld_sram hi (agRead_sram hf ht), onlyDsp_withDsp _ _ _, ?_⟩
    rw [withDsp_cal, loaded_dsp, List.take_of_length_le (Nat.le_of_eq (length_mreadN _ _ _))]
  · subst hg
    refine ⟨_, exec_vld_data hi (agRead_staged hf ht hs hb), onlyCal_modCal _ _ _, ?_⟩
    rw [State.modCal_at, loaded_dsp, consume_dsp, loaded_sram, agAdvance_sram, consume_sram, loaded_streams, agAdvance_streams, consume_pos]
    exact ⟨rfl, rfl, rfl⟩
  · subst hg
    refine ⟨_, exec_vst_sram hi hf ht, onlyCal_modCal _ _ _, ?_⟩
    rw [State.modCal_at]
    refine ⟨rfl, fun k hk => ?_, fun a ha => ?_, rfl, rfl, rfl⟩
    · rw [stored_sram, mread_mwriteN_in _ _ _ k (by rwa [length_toBytes]), getElem_toBytes]
    · rw [stored_sram, mread_mwriteN_out _ _ _ _ (by rwa [length_toBytes])]
  · subst hg
    exact exec_agset hi
  · have := advance_ptr_circ h
    have hm := Int.emod_lt_of_pos ((g.ptr.toNat : Int) + g.stride.toInt) (show (0 : Int) < (g.lenM1.toNat : Int) + 1 by omega)
    omega
  · rw [advance_frame]
    exact ⟨rfl, rfl, rfl, rfl⟩
  · refine ⟨_, exec_vld_fault hi hf, ?_⟩
    rw [dspFault_cal]
    exact ⟨rfl, rfl, rfl⟩
  · refine ⟨_, exec_vst_fault hi hf, ?_⟩
    rw [dspFault_cal]
    exact ⟨rfl, rfl, rfl⟩

/-! ### The records that a search reads (R113, R114, R141) -/

theorem stagedRead_congr {c d : Caldera} (hp : d.pool = c.pool) (hs : d.sram = c.sram) (hb : d.stgBase = c.stgBase) (hz : d.stgShape = c.stgShape)
    (k fuel pos n : Nat) : stagedRead d k fuel pos n = stagedRead c k fuel pos n := by
  have ha : d.poolAddr = c.poolAddr := by
    unfold Caldera.poolAddr Caldera.poolSize
    rw [hb, hz]
  induction fuel generalizing pos n with
  | zero => rfl
  | succ fuel ih => simp only [stagedRead, hp, hs, ha, ih]

theorem consume_stagedAt (c : Caldera) (k k' : Fin 64) (m pos n : Nat) : (c.consume k m).stagedAt k' pos n = c.stagedAt k' pos n :=
  stagedRead_congr (d := c.consume k m) (c := c) rfl rfl rfl rfl _ _ _ _

theorem agAdvance_stagedAt (c : Caldera) (k : Fin 16) (k' : Fin 64) (pos n : Nat) : (c.agAdvance k).stagedAt k' pos n = c.stagedAt k' pos n :=
  stagedRead_congr (d := c.agAdvance k) (c := c) rfl rfl rfl rfl _ _ _ _

/-- Record `j` from the current one on that generator `k` addresses: in SRAM, or staged on its stream. -/
def Caldera.record (c : Caldera) (k : Fin 16) (j : Nat) : List Byte :=
  let g := c.dsp.ag[k]
  let t := c.streams[g.stream]
  if g.target then (c.stagedAt g.stream (t.pos + j * dRec t.desc) (dRec t.desc)).getD []
  else mreadN c.sram (g.advanceN j).sramAddr (min g.esize 128)

theorem record_sram {c : Caldera} {k : Fin 16} (ht : (c.dsp.ag[k]).target = false) (j : Nat) :
    c.record k j = mreadN c.sram ((c.dsp.ag[k]).advanceN j).sramAddr (min (c.dsp.ag[k]).esize 128) := if_neg (Bool.eq_false_iff.1 ht)

theorem record_staged {c : Caldera} {k : Fin 16} {a : Fin 64} (ht : (c.dsp.ag[k]).target = true) (ha : (c.dsp.ag[k]).stream = a) (j : Nat) :
    c.record k j = (c.stagedAt a ((c.streams[a]).pos + j * dRec (c.streams[a]).desc) (dRec (c.streams[a]).desc)).getD [] := by
  subst ha
  exact if_pos ht

/-- A record read at a generator, and the caldera left: the generator advanced, a stream's record consumed. -/
theorem agRead_data {c d : Caldera} {k : Fin 16} {b : List Byte} (h : agRead c k = .data b d) :
    ((c.dsp.ag[k]).target = false ∧ b = mreadN c.sram (c.dsp.ag[k]).sramAddr (min (c.dsp.ag[k]).esize 128) ∧ d = c.agAdvance k)
    ∨ ((c.dsp.ag[k]).target = true ∧ c.staged (c.dsp.ag[k]).stream (dRec (c.streams[(c.dsp.ag[k]).stream]).desc) = some b
      ∧ d = (c.consume (c.dsp.ag[k]).stream (dRec (c.streams[(c.dsp.ag[k]).stream]).desc)).agAdvance k) := by
  cases hf : agFault c c.dsp.ag[k] 27 with
  | some f =>
    rw [agRead_fault hf] at h
    cases h
  | none =>
    cases ht : (c.dsp.ag[k]).target with
    | false =>
      rw [agRead_sram hf ht] at h
      cases h
      exact .inl ⟨rfl, rfl, rfl⟩
    | true =>
      by_cases hs : (c.streams[(c.dsp.ag[k]).stream]).st = .halted
      · rw [agRead_halted hf ht hs] at h
        cases h
      · cases hb : c.staged (c.dsp.ag[k]).stream (dRec (c.streams[(c.dsp.ag[k]).stream]).desc) with
        | none =>
          rw [agRead_waits hf ht hs hb] at h
          cases h
        | some b' =>
          rw [agRead_staged hf ht hs hb] at h
          cases h
          exact .inr ⟨rfl, rfl, rfl⟩

theorem record_staged_next {c d : Caldera} {k : Fin 16} {a : Fin 64} (ht : (c.dsp.ag[k]).target = true) (ha : (c.dsp.ag[k]).stream = a)
    (hg : d.dsp.ag[k] = (c.dsp.ag[k]).advance) (hd : (d.streams[a]).desc = (c.streams[a]).desc)
    (hp : (d.streams[a]).pos = (c.streams[a]).pos + dRec (c.streams[a]).desc)
    (hs : ∀ k' p n, d.stagedAt k' p n = c.stagedAt k' p n) (j : Nat) : d.record k j = c.record k (j + 1) := by
  have htd : (d.dsp.ag[k]).target = true := by rw [hg, advance_target, ht]
  have had : (d.dsp.ag[k]).stream = a := by rw [hg, advance_stream, ha]
  have hpos : (c.streams[a]).pos + dRec (c.streams[a]).desc + j * dRec (c.streams[a]).desc
      = (c.streams[a]).pos + (j + 1) * dRec (c.streams[a]).desc := by ring
  rw [record_staged htd had, record_staged ht ha, hs, hd, hp, hpos]

theorem agRead_record {c d : Caldera} {k : Fin 16} {b : List Byte} (h : agRead c k = .data b d) :
    b = c.record k 0 ∧ ∀ j, d.record k j = c.record k (j + 1) := by
  rcases agRead_data h with ⟨ht, rfl, rfl⟩ | ⟨ht, hb, rfl⟩
  · have hg := agAdvance_ag c k
    refine ⟨(record_sram ht 0).symm, fun j => ?_⟩
    rw [record_sram ht, record_sram (by rw [hg, advance_target, ht]), hg, advance_esize, agAdvance_sram]
    rfl
  · refine ⟨?_, fun j => ?_⟩
    · rw [record_staged ht rfl, Nat.zero_mul, Nat.add_zero]
      exact (congrArg (·.getD []) hb).symm
    · refine record_staged_next
        (d := (c.consume (c.dsp.ag[k]).stream (dRec (c.streams[(c.dsp.ag[k]).stream]).desc)).agAdvance k) ht rfl (agAdvance_ag _ _) ?_ ?_ (fun k' p n => ?_) j
      · rw [agAdvance_streams, consume_desc]
      · rw [agAdvance_streams, consume_pos]
      · rw [agAdvance_stagedAt, consume_stagedAt]

theorem searchRead_stopped {f : Fmt} {mn : Bool} {key : Option (Num × Nat)} {k : Fin 16} {m : Nat} {r : SearchRun}
    (h : (searchRead f mn key k (m + 1) r).stop = none) : ∃ b c, agRead r.cal k = .data b c ∧ searchRead f mn key k (m + 1) r =
      searchRead f mn key k m { r with cal := c, idx := r.idx + 1, best := searchBest mn key r.best (f.value (elemCode f b 0)) r.idx } := by
  simp only [searchRead] at h ⊢
  split at h
  · rename_i b c hr
    exact ⟨b, c, hr, rfl⟩
  · cases h

/-- A search that nothing stops has read the records that the generator addresses, in order. -/
theorem searchRead_reads (f : Fmt) (mn : Bool) (key : Option (Num × Nat)) (k : Fin 16) (m : Nat) (r : SearchRun)
    (h : (searchRead f mn key k m r).stop = none) : (searchRead f mn key k m r).idx = r.idx + m
      ∧ (searchRead f mn key k m r).best = (((List.range m).map (r.cal.record k)).zipIdx r.idx).foldl
          (fun b x => searchBest mn key b (f.value (elemCode f x.1 0)) x.2) r.best := by
  induction m generalizing r with
  | zero => exact ⟨rfl, rfl⟩
  | succ m ih =>
    obtain ⟨b, c, hr, hs⟩ := searchRead_stopped h
    obtain ⟨hb, hc⟩ := agRead_record hr
    rw [hs] at h ⊢
    obtain ⟨hi, he⟩ := ih _ h
    refine ⟨hi.trans (by simp only []; omega), he.trans ?_⟩
    simp only [List.range_succ_eq_map, List.map_cons, List.map_map, List.zipIdx_cons, List.foldl_cons, ← hb]
    rw [show c.record k = r.cal.record k ∘ Nat.succ from funext hc]

/-! ### The first element in the search order (R113) -/

theorem searchBest_if (mn : Bool) (key b : Option (Num × Nat)) (v : Num) (i : Nat) : searchBest mn key b v i =
    if key.all (fun k => searchBefore mn k.1 k.2 v i) && b.all (fun x => searchBefore mn v i x.1 x.2) then some (v, i) else b := by
  unfold searchBest
  cases key with
  | none => cases b <;> simp
  | some k => cases h : searchBefore mn k.1 k.2 v i <;> cases b <;> simp [h]

theorem searchBest_eq (mn : Bool) (key b : Option (Num × Nat)) (v : Num) (i : Nat) :
    searchBest mn key b v i = b ∨ searchBest mn key b v i = some (v, i) ∧ ∀ k, key = some k → searchBefore mn k.1 k.2 v i = true := by
  rw [searchBest_if]
  split
  · rename_i h
    refine .inr ⟨rfl, fun k hk => ?_⟩
    subst hk
    exact (Bool.and_eq_true_iff.1 h).1
  · exact .inl rfl

theorem searchBest_isSome (mn : Bool) (b : Option (Num × Nat)) (v : Num) (i : Nat) : (searchBest mn none b v i).isSome = true := by
  rw [searchBest_if]
  cases b with
  | none => rfl
  | some x => split <;> rfl

theorem searchFold_mem {mn : Bool} {key : Option (Num × Nat)} {l : List (Num × Nat)} {b : Option (Num × Nat)} {x : Num × Nat}
    (h : l.foldl (fun b x => searchBest mn key b x.1 x.2) b = some x) :
    b = some x ∨ x ∈ l ∧ ∀ k, key = some k → searchBefore mn k.1 k.2 x.1 x.2 = true := by
  induction l generalizing b with
  | nil => exact .inl h
  | cons y l ih =>
    rcases ih h with h | ⟨hm, hk⟩
    · rcases searchBest_eq mn key b y.1 y.2 with hb | ⟨hb, hk⟩
      · exact .inl (hb.symm.trans h)
      · obtain rfl : y = x := Option.some.inj (hb.symm.trans h)
        exact .inr ⟨List.mem_cons_self, hk⟩
    · exact .inr ⟨List.mem_cons_of_mem _ hm, hk⟩

theorem searchFold_isSome {mn : Bool} {l : List (Num × Nat)} {b : Option (Num × Nat)} (h : b.isSome = true ∨ l ≠ []) :
    (l.foldl (fun b x => searchBest mn none b x.1 x.2) b).isSome = true := by
  induction l generalizing b with
  | nil => exact h.resolve_right (fun e => e rfl)
  | cons y l ih => exact ih (.inl (searchBest_isSome mn b y.1 y.2))

/-! ### A search instruction's answer (R113, R116) -/

/-- The search that instruction `i` of caldera `n` makes, from its saved progress on. -/
def State.search (s : State) (n : Fin 64) (mn : Bool) (i : DWord) : SearchRun :=
  let c := s.cals[n]
  let kept := c.dsp.srch.getD (0, none)
  searchRead (laneFmt (dspType i)) mn (if dspImm i % 2 = 1 then
      some (fp32 (rfld c.dsp.v[dspVa i] 0 0 32), rnum c.dsp.v[dspVa i] 4 0 32) else none)
    (dspAg i) (c.dsp.ag[dspAg i].lenM1.toNat + 1 - kept.1) { cal := c, idx := kept.1, best := kept.2.map (fun b => (fp32 b.1, b.2)) }

theorem searchExec_done {n : Fin 64} {op : Nat} {mn : Bool} {s : State} {i : DWord} (hi : s.dspNext n op = some i)
    (hs : (s.search n mn i).stop = none) : searchExec n op mn s = .next (s.modCal n (fun _ => (s.search n mn i).result (dspVd i))) := by
  unfold State.search at hs
  simp only [searchExec, hi, hs]
  rfl

theorem searchExec_waits {n : Fin 64} {op : Nat} {mn : Bool} {s : State} {i : DWord} (hi : s.dspNext n op = some i)
    (hs : (s.search n mn i).stop = some .wait) : searchExec n op mn s = .next (s.modCal n (fun _ => (s.search n mn i).keep)) := by
  unfold State.search at hs
  simp only [searchExec, hi, hs]
  rfl

/-- The register that a search leaves. -/
def searchResult (best : Option (Num × Nat)) : Data1024 :=
  match best with
  | some (v, j) => twoLanes (roundFP32 v) (BitVec.ofNat 32 j)
  | none => twoLanes 0x7FC00000#32 0xFFFFFFFF#32

theorem result_vd (r : SearchRun) (vd : Fin 32) : (r.result vd).dsp.v[vd] = searchResult r.best := vset_get_same _ _ _

theorem result_srchNone (r : SearchRun) (vd : Fin 32) : (r.result vd).dsp.srchNone = r.best.isNone := rfl

theorem lane_searchResult (best : Option (Num × Nat)) {j : Nat} (h : 1 < j) : lane 0 (searchResult best) j = 0 := by
  unfold searchResult
  split <;> rw [lane_twoLanes, if_neg (by omega), if_neg (by omega)]

/-- The five searches of the manual's example (R113). -/
theorem searches_example : (let look := fun key => ((([0x40400000, 0x7FC00000, 0x40A00000, 0x40A00000, 0x80000000, 0] : List Word).map fp32).zipIdx.foldl
      (fun b x => searchBest false key b x.1 x.2) none)
    look none = some (fp32 0x7FC00000, 1) ∧ look (some (fp32 0x7FC00000, 1)) = some (fp32 0x40A00000, 2)
    ∧ look (some (fp32 0x40A00000, 2)) = some (fp32 0x40A00000, 3) ∧ look (some (fp32 0x40A00000, 3)) = some (fp32 0x40400000, 0)
    ∧ look (some (fp32 0x40400000, 0)) = some (fp32 0, 5)) := by decide

/-- Settles O18: a search ends with its fold over the records read, and the waits and the program's end are read off their
definitions. -/
theorem dspSearchWaitsAndEnd : Obligations.DspSearchWaitsAndEnd := by
  unfold Obligations.DspSearchWaitsAndEnd
  refine ⟨⟨fun e he n s i kept r hi hk hr => ?_, fun f mn key k m r g t es hr hg ht hes h => ?_, fun mn key es v j h => ?_, fun mn es h => ?_,
    fun es look he hl => ?_⟩, fun n s i u m hi hu hm => ⟨fun h => ?_, fun h => ?_⟩, fun n s i p hi hp => ?_, fun d => ?_,
    fun n s i t hi ht => ⟨fun h => ?_, fun h => ?_⟩, fun n s i p hi hp => ?_, fun s p hp hb => tryFinish_running hp hb,
    fun n s w h => ⟨fun hr hg hw => ?_, fun hr => ?_⟩, fun n s w h => ?_⟩
  · have hx : exec (e.1 n) s = searchExec n e.2.1 e.2.2 s := by
      simp only [List.mem_cons, List.not_mem_nil, or_false] at he
      rcases he with rfl | rfl <;> rfl
    obtain rfl : r = s.search n e.2.2 i := by rw [hr, hk]; rfl
    refine ⟨fun hs => ⟨_, hx.trans (searchExec_done hi hs), onlyCal_modCal _ _ _, ?_⟩,
      fun hs => ⟨_, hx.trans (searchExec_waits hi hs), onlyCal_modCal _ _ _, ?_⟩⟩
    · rw [State.modCal_at]
      refine ⟨rfl, rfl, fun v hv => vset_get_ne _ _ _ _ hv, ?_, fun j h1 _ => ?_⟩
      · rw [result_vd, result_srchNone]
        cases hb : (s.search n e.2.2 i).best with
        | none => exact ⟨lane_twoLanes _ _ _, lane_twoLanes _ _ _, rfl⟩
        | some b => exact ⟨lane_twoLanes _ _ _, (lane_twoLanes _ _ _).trans (BitVec.toNat_ofNat _ _), rfl⟩
      · rw [result_vd]
        exact lane_searchResult _ h1
    · rw [State.modCal_at]
      exact ⟨rfl, rfl, rfl, rfl⟩
  · subst hes ht hg
    exact searchRead_reads f mn key k m r h
  · rcases searchFold_mem h with h | ⟨hm, hk⟩
    · cases h
    · exact ⟨List.mk_mem_zipIdx_iff_getElem?.1 hm, hk⟩
  · exact searchFold_isSome (.inr (by simpa using h))
  · subst he hl
    exact searches_example
  · subst hm hu
    simp only [exec, execChkf, hi]
    rw [if_neg (Nat.not_lt.2 h)]
    rfl
  · subst hm hu
    simp only [exec, execChkf, hi]
    exact if_pos h
  · simp only [exec, execWbeat, hi, hp]
    rfl
  · refine ⟨fun hw h1 => ?_, fun hw h1 => ?_, fun hw hb => ?_, fun hw hb => ?_⟩
    · rw [Dsp.countBeat, if_pos hw, if_neg (by omega)]
    · rw [Dsp.countBeat, if_pos hw, if_pos h1]
      rfl
    · rw [Dsp.countBeat, if_neg (Bool.eq_false_iff.1 hw), if_pos hb]
    · rw [Dsp.countBeat, if_neg (Bool.eq_false_iff.1 hw), if_neg (Bool.eq_false_iff.1 hb)]
  · subst ht
    simp only [exec, execWdrain, hi]
    rw [if_pos h]
    rfl
  · subst ht
    simp only [exec, execWdrain, hi]
    exact if_neg (by omega)
  · simp only [exec, execDspEnd, hi, hp]
    rfl
  · simp only [exec, execDspSeedWrite, h, hr, hg, hw]
    rfl
  · have hr' : (s.runsPlan n || (s.cals[n]).gated || (s.cals[n]).waking) = true := by
      simpa [or_assoc] using hr
    simp only [exec, execDspSeedWrite]
    rw [if_neg (Bool.eq_false_iff.1 h), if_pos hr']
  · simp only [exec, execDspSeedWrite]
    exact if_pos h

end Sys2Proof.Machine
end

section
/-! Proofs of the statements about streams: the checks of an access, and the transfers to a caldera's memory. -/

namespace Sys2Proof.Machine

/-! ### The checks of an access by context and page (R145 to R147) -/

theorem xlate_outside {s : State} {ctx : Option Byte} {a : Int} {write : Bool} (h : a < 0 ∨ 2 ^ 40 ≤ a) : s.xlate ctx a write = .fault 5 0 :=
  if_pos h

/-- An access within the address space is checked against its page's entry. -/
theorem xlate_page {s : State} {ctx : Option Byte} {a : Int} {write : Bool} {e : DWord} (h0 : 0 ≤ a) (h1 : a < 2 ^ 40)
    (he : e = tget (0 : DWord) s.spt (a.toNat / 524288)) : s.xlate ctx a write =
      if spP e = false then .fault 1 (BitVec.ofNat 21 (a.toNat / 524288))
      else if ctx ≠ some (spCtx e) then .fault 2 (BitVec.ofNat 21 (a.toNat / 524288))
      else if (if write then spW e else spR e) = false then .fault 2 (BitVec.ofNat 21 (a.toNat / 524288))
      else if spHost e = true then .host (spPage e + a.toNat % 524288) (spEnc e) (bitAt e 6) (bitAt e 7)
      else .stack (spPage e + a.toNat % 524288) := by
  subst he
  unfold State.xlate
  rw [if_neg (by omega)]
  simp only [Bool.not_eq_true']

/-! ### Bytes that a slot of a caldera delivers and accepts (R57, R132) -/

/-- Bytes put behind the delivered ones of slot `k`. -/
def Caldera.fed (c : Caldera) (k : Fin 64) (b : List Byte) : Caldera :=
  { c with streams := vmod c.streams k (fun t => { t with inBuf := t.inBuf ++ b, moved := true }) }

/-- Bytes of slot `k` written to SRAM at `a`. -/
def Caldera.landed (c : Caldera) (k : Fin 64) (a m : Nat) : Caldera :=
  { c with
    sram := mwriteN c.sram a ((c.streams[k]).inBuf.take m)
    streams := vmod c.streams k (fun t => { t with
      inBuf := t.inBuf.drop m, bufPos := t.bufPos + m, pos := t.pos + m, moved := true, st := if t.st = .armed then .active else t.st })
    rings := c.rings.map (fun g => if g.stream = some k.val ∧ g.readBy (c.streams[k]).desc then g.moved m else g) }

theorem feed_cal (s : State) (n k : Fin 64) (b : List Byte) : s.feed (.cal n k) b = s.modCal n (·.fed k b) := rfl

theorem vmod_vmod {α : Type} {n : Nat} (v : Vector α n) (i : Fin n) (f g : α → α) : vmod (vmod v i f) i g = vmod v i (fun x => g (f x)) := by
  simp only [vmod_const, vset_vset, vset_get_same]

/-- What a drain to SRAM does to its caldera. -/
theorem landed_eq (s : State) (n k : Fin 64) (a m : Nat) :
    ((s.modCal n (fun c => { c with sram := mwriteN c.sram a (((s.cals[n]).streams[k]).inBuf.take m) })).unfeed (.cal n k) m).accepted (.cal n k) m
      = s.modCal n (·.landed k a m) := by
  simp only [State.accepted, State.unfeed, State.modStm, State.modCal_modCal]
  refine State.modCal_congr ?_
  simp only [Caldera.landed, vmod_vmod]
  rw [vmod_get_same]

theorem landed_sram (c : Caldera) (k : Fin 64) (a m : Nat) : (c.landed k a m).sram = mwriteN c.sram a ((c.streams[k]).inBuf.take m) := rfl
theorem landed_arrs (c : Caldera) (k : Fin 64) (a m : Nat) : (c.landed k a m).arrs = c.arrs := rfl
theorem landed_dsp (c : Caldera) (k : Fin 64) (a m : Nat) : (c.landed k a m).dsp = c.dsp := rfl

theorem landed_stream (c : Caldera) (k : Fin 64) (a m : Nat) : ((c.landed k a m).streams[k]).pos = (c.streams[k]).pos + m
    ∧ ((c.landed k a m).streams[k]).inBuf = (c.streams[k]).inBuf.drop m := by
  simp only [Caldera.landed]
  rw [vmod_get_same]
  exact ⟨rfl, rfl⟩

theorem landed_other (c : Caldera) {k j : Fin 64} (a m : Nat) (h : j ≠ k) : (c.landed k a m).streams[j] = c.streams[j] :=
  vmod_get_ne _ _ _ _ h

theorem fed_sram (c : Caldera) (k : Fin 64) (b : List Byte) : (c.fed k b).sram = c.sram := rfl
theorem fed_stream (c : Caldera) (k : Fin 64) (b : List Byte) : (c.fed k b).streams[k] =
    { c.streams[k] with inBuf := (c.streams[k]).inBuf ++ b, moved := true } := vmod_get_same _ _ _
theorem fed_recordSeg (c : Caldera) (k : Fin 64) (b : List Byte) (d : CWord) (src : Bool) (r : Nat) :
    recordSeg (c.fed k b) d src r = recordSeg c d src r := rfl

/-! ### STREAM_TRANSFER with an SRAM destination (R132, R134, R150) -/

/-- The bytes that slot `k` moves next: what it holds, up to the end of a record. -/
def Stream.piece (t : Stream) : Nat := min t.inBuf.length (max 1 (dRec t.desc) - t.pos % max 1 (dRec t.desc))

theorem drain_sram {s : State} {n k : Fin 64} {t : Stream} (ht : s.stm (.cal n k) = t) (hk : dDstKind t.desc = 0) (hb : t.bufPos = t.pos)
    (hne : t.inBuf ≠ []) : s.drain (.cal n k) =
      if recordSeg s.cals[n] t.desc false (t.pos / max 1 (dRec t.desc)) = true then
        .ok (s.modCal n (·.landed k (endAddr t.desc false t.pos).toNat t.piece))
      else .fault 7 0 := by
  subst ht
  rw [← landed_eq]
  unfold State.drain
  dsimp only
  rw [if_neg (by rw [hb]; omega), if_neg hne, hk, hb]
  by_cases hr : recordSeg s.cals[n] (s.stm (.cal n k)).desc false ((s.stm (.cal n k)).pos / max 1 (dRec (s.stm (.cal n k)).desc)) = true
  · rw [if_pos hr]
    exact if_neg (by rw [hr]; decide)
  · rw [if_neg hr]
    exact if_pos (by rw [Bool.eq_false_iff.2 hr]; rfl)

theorem drain_empty {s : State} {r : SlotRef} (h : (s.stm r).inBuf = []) : s.drain r = .wait := by
  unfold State.drain
  dsimp only
  rw [if_neg (fun e => e.2.1 h), if_pos h]

theorem sendFirst_none {s : State} {n k : Fin 64} (m : Move) (h : (s.stm (.cal n k)).outWords = []) : s.sendFirst (.cal n k) m = m := by
  have h' : ((s.cals[n]).streams[k]).outWords = [] := h
  simp only [State.sendFirst, h']

section
/-! A slot with an SRAM destination, on demand, no word of it waiting for its endpoint. -/

variable {s : State} {n k : Fin 64} {t : Stream} (io : HostIO) (ht : s.stm (.cal n k) = t) (hd : s.demandOk t = true)
  (hk : dDstKind t.desc = 0) (hs : dSrcKind t.desc ≠ 5) (ho : t.outWords = [])
include ht hd hk hs ho

theorem streamTransfer_moves {s1 : State} (h : s.drain (.cal n k) = .ok s1) : exec (.streamTransfer (.cal n k) io) s = .next s1 := by
  have hst : ¬(!s.demandOk t ∨ dStaged t.desc = true) := by simp [dStaged, hk, hs, hd]
  simp only [exec, execStreamTransfer, ht]
  rw [if_neg hst, if_neg (by omega), sendFirst_none _ (by rw [ht, ho]), h]

theorem streamTransfer_faults {c : Nat} {v : BitVec 21} (h : s.drain (.cal n k) = .fault c v) :
    exec (.streamTransfer (.cal n k) io) s = .next (s.haltStream (.cal n k) c v) := by
  have hst : ¬(!s.demandOk t ∨ dStaged t.desc = true) := by simp [dStaged, hk, hs, hd]
  simp only [exec, execStreamTransfer, ht]
  rw [if_neg hst, if_neg (by omega), sendFirst_none _ (by rw [ht, ho]), h]

theorem streamTransfer_fills {s1 s2 : State} (h : s.drain (.cal n k) = .wait) (hf : s.fill (.cal n k) io false = .ok s1)
    (h1 : s1.drain (.cal n k) = .ok s2) : exec (.streamTransfer (.cal n k) io) s = .next s2 := by
  have hst : ¬(!s.demandOk t ∨ dStaged t.desc = true) := by simp [dStaged, hk, hs, hd]
  have h5 : ¬(dDstKind t.desc = 5 ∨ t.outWords ≠ []) := by simp [hk, ho]
  simp only [exec, execStreamTransfer, ht]
  rw [if_neg hst, if_neg (by omega), sendFirst_none _ (by rw [ht, ho]), h]
  dsimp only
  rw [if_neg h5, hf]
  dsimp only
  rw [h1]

end

/-- The source of a slot in SRAM that no drain ring bounds delivers the rest of a record. -/
theorem fill_sram {s : State} {n k : Fin 64} {t : Stream} (io : HostIO) (ht : s.stm (.cal n k) = t) (hk : dSrcKind t.desc = 0)
    (hi : t.inBuf = []) (hb : t.bufPos = t.pos) (hp : t.pos < dTotal t.desc) (h0 : 0 < dRec t.desc)
    (hr : (s.cals[n]).ringBytes k = none) (hg : recordSeg s.cals[n] t.desc true (t.pos / dRec t.desc) = true) :
    s.fill (.cal n k) io false =
      .ok (s.feed (.cal n k) (mreadN (s.cals[n]).sram (endAddr t.desc true t.pos).toNat (dRec t.desc - t.pos % dRec t.desc))) := by
  have hf : t.bufPos + t.inBuf.length = t.pos := by simp [hi, hb]
  have hm : max 1 (dRec t.desc) = dRec t.desc := Nat.max_eq_right h0
  have hlt := Nat.mod_lt t.pos h0
  unfold State.fill
  simp only [ht, hf, hm]
  rw [if_neg (by omega), hk]
  refine (if_neg (by rw [hg]; decide)).trans ?_
  rw [hr]
  exact if_neg (Nat.sub_ne_zero_of_lt hlt)

/-- With SRAM at both ends the rest of a record is delivered and lands in one step. -/
theorem streamTransfer_copies {s : State} {n k : Fin 64} {t : Stream} (io : HostIO) (ht : s.stm (.cal n k) = t) (hd : s.demandOk t = true)
    (hk : dDstKind t.desc = 0) (hs : dSrcKind t.desc = 0) (ho : t.outWords = []) (hi : t.inBuf = []) (hb : t.bufPos = t.pos)
    (hp : t.pos < dTotal t.desc) (h0 : 0 < dRec t.desc) (hr : (s.cals[n]).ringBytes k = none)
    (hg : recordSeg s.cals[n] t.desc true (t.pos / dRec t.desc) = true) (hg' : recordSeg s.cals[n] t.desc false (t.pos / dRec t.desc) = true) :
    exec (.streamTransfer (.cal n k) io) s = .next (s.modCal n (fun c =>
      (c.fed k (mreadN (s.cals[n]).sram (endAddr t.desc true t.pos).toNat (dRec t.desc - t.pos % dRec t.desc))).landed k
        (endAddr t.desc false t.pos).toNat (dRec t.desc - t.pos % dRec t.desc))) := by
  have hfill := fill_sram io ht hs hi hb hp h0 hr hg
  generalize hbd : mreadN (s.cals[n]).sram (endAddr t.desc true t.pos).toNat (dRec t.desc - t.pos % dRec t.desc) = b at hfill ⊢
  have hbl : b.length = dRec t.desc - t.pos % dRec t.desc := by rw [← hbd, length_mreadN]
  have hmax : max 1 (dRec t.desc) = dRec t.desc := Nat.max_eq_right h0
  have hmod := Nat.mod_lt t.pos h0
  rw [feed_cal] at hfill
  have ht1 : (s.modCal n (·.fed k b)).stm (.cal n k) = { t with inBuf := b, moved := true } := by
    simp only [State.stm] at ht ⊢
    rw [State.modCal_at, fed_stream, ht, hi, List.nil_append]
  have hpc : Stream.piece { t with inBuf := b, moved := true } = dRec t.desc - t.pos % dRec t.desc := by
    simp only [Stream.piece, hbl, hmax, Nat.min_self]
  have hdr := drain_sram ht1 hk hb (List.ne_nil_of_length_pos (by rw [hbl]; omega))
  rw [hpc, State.modCal_at, fed_recordSeg, hmax, if_pos hg', State.modCal_modCal] at hdr
  exact streamTransfer_fills io ht hd hk (by omega) ho (drain_empty (by rw [ht, hi])) hfill hdr

/-! ### The halt of a stream (R67, R150) -/

/-- The parts of a stream's state that a rewind keeps. -/
def Stream.fate (t : Stream) : StmState × BitVec 4 := (t.st, t.cause)

theorem rewindStream_fate (ts : Vector Stream 64) (p : Pass) (k : Fin 64) : ((rewindStream ts p)[k]).fate = (ts[k]).fate := by
  unfold rewindStream
  split
  · by_cases h : k = Fin.ofNat 64 (apDrainStream p.raw)
    · rw [← h, vmod_get_same]
      unfold Stream.backTo
      split <;> rfl
    · rw [vmod_get_ne _ _ _ _ h]
  · rfl

theorem rewinds_fate (gone : List Pass) (ts : Vector Stream 64) (k : Fin 64) : ((gone.foldl rewindStream ts)[k]).fate = (ts[k]).fate := by
  induction gone generalizing ts with
  | nil => rfl
  | cons p gone ih => exact (ih _).trans (rewindStream_fate ts p k)

theorem restoreGens_arrsOnly (c : Caldera) (p : Pass) : ArrsOnly c (restoreGens c p) := ArrsOnly.foldl (fun c _ => .modArr c _ _) _ _

theorem faultAbandon_keeps (c : Caldera) (struck : Pass → Bool) (k : Fin 64) :
    (c.faultAbandon struck).sram = c.sram ∧ ((c.faultAbandon struck).streams[k]).fate = (c.streams[k]).fate := by
  obtain ⟨v, hv⟩ := ArrsOnly.foldl restoreGens_arrsOnly (c.passes.filter (fun p => (abandonSet c.passes struck).contains p.serial)).reverse c
  unfold Caldera.faultAbandon Caldera.abandon
  dsimp only
  rw [hv]
  exact ⟨rfl, rewinds_fate _ _ k⟩

/-- A caldera whose slot `k` has halted with a cause. -/
structure Caldera.Halted (c d : Caldera) (k : Fin 64) (cause : Nat) : Prop where
  fate : (d.streams[k]).fate = (.halted, BitVec.ofNat 4 cause)
  sram : d.sram = c.sram

theorem Caldera.Halted.faultAbandon {c d : Caldera} {k : Fin 64} {cause : Nat} (h : c.Halted d k cause) (struck : Pass → Bool) :
    c.Halted (d.faultAbandon struck) k cause where
  fate := (faultAbandon_keeps d struck k).2.trans h.fate
  sram := (faultAbandon_keeps d struck k).1.trans h.sram

/-- A caldera with slot `k` halted. -/
def Caldera.haltSlot (c : Caldera) (k : Fin 64) (cause : Nat) (v : BitVec 21) (save : Nat) : Caldera :=
  { c with streams := vmod c.streams k (fun t =>
      { t with st := .halted, cause := BitVec.ofNat 4 cause, savePos := save, vpn := if causeHasVpn cause then v else t.vpn
               inBuf := [], outWords := [], epoch := t.epoch + 1 }) }

theorem haltSlot_halted (c : Caldera) (k : Fin 64) (cause : Nat) (v : BitVec 21) (save : Nat) : c.Halted (c.haltSlot k cause v save) k cause :=
  ⟨congrArg Stream.fate (vmod_get_same _ _ _), rfl⟩

/-- A halt changes its own caldera only: the slot is halted with its cause, SRAM stays. -/
theorem haltStream_cals (s : State) (n k : Fin 64) (cause : Nat) (v : BitVec 21) : ∃ f : Caldera → Caldera,
    (s.haltStream (.cal n k) cause v).cals = vmod s.cals n f ∧ (s.cals[n]).Halted (f s.cals[n]) k cause := by
  have hglb (b : Prop) [Decidable b] (s1 : State) (f : Glb → Glb) : (if b then s1.modGlb f else s1).cals = s1.cals := by split <;> rfl
  unfold State.haltStream
  dsimp only
  split
  · rename_i heq _
    cases heq
    simp only [planStop_cals, State.modCal_cals, hglb, State.modStm, vmod_vmod]
    exact ⟨fun c => (c.haltSlot k cause v _).faultAbandon _, rfl, (haltSlot_halted _ _ _ _ _).faultAbandon _⟩
  · simp only [stopWork_cals, hglb, State.modStm]
    exact ⟨fun c => c.haltSlot k cause v _, rfl, haltSlot_halted _ _ _ _ _⟩
  · simp only [hglb, State.modStm]
    exact ⟨fun c => c.haltSlot k cause v _, rfl, haltSlot_halted _ _ _ _ _⟩

/-- Settles O21: the checks of `xlate` in their order, and the drain to SRAM, alone or behind a fill from SRAM. -/
theorem streamTransfersAndTranslation : Obligations.StreamTransfersAndTranslation := by
  unfold Obligations.StreamTransfersAndTranslation
  refine ⟨fun s ctx a write => ⟨xlate_outside, fun e h0 h1 he => ⟨fun hp => ?_, fun hp hc => ?_, fun hp hc hw => ?_, fun hp hc hw hh => ?_,
      fun hp hc hw hh => ?_⟩⟩,
    fun n k io s t m a ht hd hk hs ho hne hb hm ha hg => ?_, fun n k io s t ht hd hk hs ho hne hb hg => ?_,
    fun n k io s t m ht hd hk hs ho hi hb hp h0 hm hr hg hg' => ?_, fun r io s h => ?_⟩
  · rw [xlate_page h0 h1 he, if_pos hp]
  · rw [xlate_page h0 h1 he, if_neg (by rw [hp]; decide), if_pos hc]
  · rw [xlate_page h0 h1 he, if_neg (by rw [hp]; decide), if_neg (not_not.2 hc), if_pos hw]
  · rw [xlate_page h0 h1 he, if_neg (by rw [hp]; decide), if_neg (not_not.2 hc), if_neg (by rw [hw]; decide), if_neg (by rw [hh]; decide)]
    rfl
  · rw [xlate_page h0 h1 he, if_neg (by rw [hp]; decide), if_neg (not_not.2 hc), if_neg (by rw [hw]; decide), if_pos hh]
    rfl
  · have hs' : s.stm (.cal n k) = t := ht.symm
    obtain rfl : m = t.piece := hm
    refine ⟨_, streamTransfer_moves io hs' hd hk hs ho ((drain_sram hs' hk hb hne).trans (if_pos hg)), onlyCal_modCal _ _ _, ?_⟩
    rw [State.modCal_at, landed_sram, landed_arrs, landed_dsp, (landed_stream _ _ _ _).1, (landed_stream _ _ _ _).2, ← ht, ← ha]
    have hl : (t.inBuf.take t.piece).length = t.piece := by rw [List.length_take]; exact Nat.min_eq_left (Nat.min_le_left _ _)
    refine ⟨fun i hi => ?_, fun x hx => mread_mwriteN_out _ _ _ _ (by rwa [hl]), rfl, rfl, rfl, rfl, fun j hj => landed_other _ _ _ hj⟩
    have hi' : i < t.inBuf.length := Nat.lt_of_lt_of_le hi (Nat.min_le_left _ _)
    rw [mread_mwriteN_in _ _ _ i (by rwa [hl]), List.getElem_take, List.getD_eq_getElem _ _ hi']
  · have hs' : s.stm (.cal n k) = t := ht.symm
    obtain ⟨f, hf, hfate, hsram⟩ := haltStream_cals s n k 7 0
    obtain ⟨hst, hcause⟩ := Prod.mk.inj hfate
    refine ⟨_, streamTransfer_faults io hs' hd hk hs ho ((drain_sram hs' hk hb hne).trans (if_neg (Bool.eq_false_iff.1 hg))), ?_⟩
    rw [hf, vmod_get_same]
    refine ⟨hst, hcause, fun m => ?_⟩
    by_cases hm : m = n
    · rw [hm, vmod_get_same, hsram]
    · rw [vmod_get_ne _ _ _ _ hm]
  · subst hm
    refine ⟨_, streamTransfer_copies io ht.symm hd hk hs ho hi hb hp h0 hr hg hg', onlyCal_modCal _ _ _, ?_⟩
    rw [State.modCal_at, landed_sram, (landed_stream _ _ _ _).1, (landed_stream _ _ _ _).2, fed_stream, fed_sram, ← ht]
    simp only [hi, List.nil_append]
    rw [List.take_of_length_le (length_mreadN _ _ _).le]
    exact ⟨rfl, trivial, List.drop_eq_nil_of_le (length_mreadN _ _ _).le⟩
  · have hst : (!s.demandOk (s.stm r)) = true ∨ dStaged (s.stm r).desc = true := by simp [h]
    simp only [exec, execStreamTransfer]
    exact if_pos hst

end Sys2Proof.Machine
end

section
/-! Proofs of the statements about check units and the exception log. -/

namespace Sys2Proof.Machine

/-! ### A check unit's place in the state -/

theorem chk_modChk (s : State) (r : ChkRef) (f : Chk → Chk) : (s.modChk r f).chk r = f (s.chk r) := by
  cases r with
  | cal n u =>
    have hc : (s.modChk (.cal n u) f).cals[n].chk = vmod s.cals[n].chk u f := congrArg Caldera.chk (State.modCal_at s n _)
    exact (congrArg (fun v : Vector Chk 2 => v[u]) hc).trans (vmod_get_same _ _ _)
  | cfg u => exact vmod_get_same _ _ _
  | mc u => exact vmod_get_same _ _ _

theorem modChk_congr {s : State} {r : ChkRef} {f g : Chk → Chk} (h : f (s.chk r) = g (s.chk r)) : s.modChk r f = s.modChk r g := by
  cases r with
  | cal n u =>
    refine State.modCal_congr ?_
    simp only [vmod_const]
    exact congrArg (fun x => { s.cals[n] with chk := vset (s.cals[n]).chk u x }) h
  | cfg u => exact congrArg (fun x => { s with cfg := { s.cfg with chk := vset s.cfg.chk u x } }) h
  | mc u => exact congrArg (fun x => { s with pwr := { s.pwr with chk := vset s.pwr.chk u x } }) h

theorem modChk_self {s : State} {r : ChkRef} {f : Chk → Chk} (h : f (s.chk r) = s.chk r) : s.modChk r f = s := by
  rw [modChk_congr (g := id) h]
  cases r with
  | cal n u => exact State.modCal_self (by simp only [vmod_const, id]; rw [vset_self])
  | cfg u => exact congrArg (fun x => { s with cfg := { s.cfg with chk := x } }) (vset_self _ _)
  | mc u => exact congrArg (fun x => { s with pwr := { s.pwr with chk := x } }) (vset_self _ _)

/-- A unit changed is that unit written, and nothing else. -/
theorem modChk_chk (s : State) (r : ChkRef) (f : Chk → Chk) : s.modChk r f = s.modChk r (fun _ => (s.modChk r f).chk r) :=
  modChk_congr (chk_modChk s r f).symm

/-! ### Writes to a unit (R117, R119, R373) -/

theorem chkWrite_reaches {s : State} {r : ChkRef} (f : Chk → Chk) (hs : s.chkShut r = false) (hr : s.chkRefused r = false) :
    s.chkWrite r f = s.modChk r f := by
  unfold State.chkWrite
  rw [if_neg (Bool.eq_false_iff.1 hs), if_neg (Bool.eq_false_iff.1 hr)]

theorem chkWrite_refused {s : State} {n : Fin 64} (u : Fin 2) (f : Chk → Chk) (hs : s.calShut n = false) (hr : s.runsPlan n = true) :
    s.chkWrite (.cal n u) f = s.modCal n (fun c => { c with accessRefused := true }) := by
  rw [State.chkWrite, if_neg (Bool.eq_false_iff.1 (by exact hs)), if_pos (by simp [State.chkRefused, hr])]

theorem enqueue_room {k : Chk} (e : ChkEntry) (h : k.queue.length < 64) : k.enqueue e = { k with queue := k.queue ++ [e] } := by
  have hr : k.makeRoom = k := by
    unfold Chk.makeRoom
    split
    · exact if_neg (by omega)
    · rfl
  rw [Chk.enqueue, hr]

theorem enqueue_full {k : Chk} (e x : ChkEntry) {q : List ChkEntry} (hq : k.queue = x :: q) (h : 64 ≤ k.queue.length) :
    k.enqueue e = { k.pumps x.steps with queue := (k.pumps x.steps).queue ++ [e] } := by
  have hr : k.makeRoom = k.pumps x.steps := by
    unfold Chk.makeRoom
    rw [hq]
    exact if_pos (by rw [← hq]; exact h)
  rw [Chk.enqueue, hr]

theorem write_enqueues {k : Chk} (b : List Byte) (h : k.src = 0 ∧ k.widthOk = true ∨ k.queue ≠ []) : k.write b = k.enqueue (.bytes b) := by
  rcases h with ⟨h0, hw⟩ | hq
  · rw [Chk.write, if_neg (fun e => e.2 h0), if_neg (by simp [hw])]
  · rw [Chk.write, if_neg (by simp [hq]), if_neg (by simp [hq])]

theorem write_invalid {k : Chk} (b : List Byte) (hq : k.queue = []) (h0 : k.src = 0) (hw : k.widthOk = false) : k.write b = k := by
  rw [Chk.write, if_neg (fun e => e.2 h0), if_pos ⟨by simp [hq], by simp [hw]⟩]

theorem write_snooping {k : Chk} (b : List Byte) (hq : k.queue = []) (h0 : k.src ≠ 0) : k.write b = { k with paramErr := true } := by
  rw [Chk.write, if_pos ⟨by simp [hq], h0⟩]

theorem toBytes_setWidth (w : Word) {m len : Nat} (h : 8 * len ≤ m) : toBytes (w.setWidth m) len = toBytes w len := by
  refine List.map_congr_left fun i hi => ?_
  rw [List.mem_range] at hi
  refine BitVec.eq_of_getLsbD_eq fun j hj => ?_
  simp [hj, show 8 * i + j < m by omega]

/-- The three data writes. -/
theorem exec_chkData : ∀ e ∈ ([(fun r w => Instr.chkData8 r (w.setWidth 8), 1), (fun r w => Instr.chkData16 r (w.setWidth 16), 2),
    (fun r w => Instr.chkData32 r w, 4)] : List ((ChkRef → Word → Instr) × Nat)), ∀ (r : ChkRef) (w : Word) (s : State),
    exec (e.1 r w) s = .next (s.chkWrite r (·.write (toBytes w e.2))) := by
  intro e he r w s
  simp only [List.mem_cons, List.not_mem_nil, or_false] at he
  rcases he with rfl | rfl | rfl
  · have h8 : toBytes w 1 = [w.setWidth 8] := by simp [toBytes, BitVec.setWidth_eq_extractLsb']
    rw [h8]
    rfl
  · rw [← toBytes_setWidth w (m := 16) (by decide)]
    rfl
  · rfl

/-! ### Fields of CHK_CTL -/

theorem getLsbD_putFld {n m : Nat} (w : BitVec n) (lo : Nat) (v : BitVec m) (i : Nat) (hi : i < n) :
    (putFld w lo v).getLsbD i = if lo ≤ i ∧ i < lo + m then v.getLsbD (i - lo) else w.getLsbD i := by
  simp only [putFld, BitVec.getLsbD_or, BitVec.getLsbD_and, BitVec.getLsbD_not, BitVec.getLsbD_shiftLeft, BitVec.getLsbD_setWidth,
    BitVec.getLsbD_allOnes]
  by_cases hl : lo ≤ i
  · by_cases hm : i < lo + m
    · simp [hi, hl, hm, show ¬ i < lo by omega, show i - lo < n by omega, show i - lo < m by omega]
    · simp [hi, hl, hm, show ¬ i < lo by omega, show i - lo < n by omega, show ¬ i - lo < m by omega, BitVec.getLsbD_of_ge v (i - lo) (by omega)]
  · simp [hi, hl, show i < lo by omega]

theorem nfld_congr {n m : Nat} {x : BitVec n} {y : BitVec m} {lo k : Nat} (h : ∀ i < k, x.getLsbD (lo + i) = y.getLsbD (lo + i)) :
    nfld x lo k = nfld y lo k :=
  congrArg BitVec.toNat (BitVec.eq_of_getLsbD_eq fun i hi => by simp [hi, h i hi])

/-- The word that a write of CHK_CTL leaves, before BLOCK is judged: a reserved code keeps the field (R304). -/
def Chk.kept (k : Chk) (w : Word) : Word :=
  let w1 := if nfld w 9 2 = 3 then putFld w 9 (fld k.ctl 9 2) else w
  if 4 < nfld w 12 3 then putFld w1 12 (fld k.ctl 12 3) else w1

/-- The fields without reserved codes, and SRC where its code is a source, come from the word written. -/
theorem kept_bit (k : Chk) (w : Word) {i : Nat} (hi : i < 32) (h : i < 9 ∨ i = 11 ∨ 15 ≤ i ∨ 12 ≤ i ∧ nfld w 12 3 ≤ 4) :
    (k.kept w).getLsbD i = w.getLsbD i := by
  have h1 : (if nfld w 9 2 = 3 then putFld w 9 (fld k.ctl 9 2) else w).getLsbD i = w.getLsbD i := by
    split
    · rw [getLsbD_putFld _ _ _ _ hi, if_neg (by omega)]
    · rfl
  by_cases hs : 4 < nfld w 12 3
  · rw [Chk.kept, if_pos hs, getLsbD_putFld _ _ _ _ hi, if_neg (by omega), h1]
  · rw [Chk.kept, if_neg hs, h1]

/-- BLOCK is set for a source without a block check (R122). -/
def noBlock (w : BitVec 24) : Bool := bitAt w 15 && !(nfld w 12 3 == 2 || nfld w 12 3 == 3)

/-- CHK_CTL as it is judged: BLOCK dropped where its source has none. -/
def heldCtl (c : BitVec 24) : BitVec 24 := if noBlock c then putFld c 15 (0#1) else c

/-- PARAM_ERR is raised: an invalid width, or BLOCK on a snoop source that has none (R118, R122). -/
def Chk.ctlBad (k : Chk) (c : BitVec 24) : Bool := !k.widthOk || (noBlock c && k.src != 0)

/-- PARAM_ERR raised for a word judged. -/
def Chk.judge (c : BitVec 24) (k : Chk) : Chk := if k.ctlBad c then { k with paramErr := true } else k

theorem judge_eq (c : BitVec 24) (k : Chk) : k.judge c = { k with paramErr := k.ctlBad c || k.paramErr } := by
  unfold Chk.judge
  cases k.ctlBad c <;> rfl

theorem putCtl_start (k : Chk) {w : Word} (h : bitAt w 24 = true) :
    k.putCtl w = (Chk.judge (fld (k.kept w) 0 24) { k with ctl := heldCtl (fld (k.kept w) 0 24) }).start := by
  have hh : (if noBlock (fld (k.kept w) 0 24) then { k with ctl := putFld (fld (k.kept w) 0 24) 15 (0#1) }
      else { k with ctl := fld (k.kept w) 0 24 }) = { k with ctl := heldCtl (fld (k.kept w) 0 24) } := by
    unfold heldCtl
    cases noBlock (fld (k.kept w) 0 24) <;> rfl
  exact (if_pos h).trans (congrArg (fun x => (Chk.judge (fld (k.kept w) 0 24) x).start) hh)

/-! ### START (R121) -/

/-- The parts of CHK_CTL that START's write gives: the width, and BLOCK refused for the sources 1 and 4. -/
theorem heldCtl_kept (k : Chk) (w : Word) :
    nfld (heldCtl (fld (k.kept (w ||| 0x01000000#32)) 0 24)) 0 7 = nfld w 0 7 ∧ (bitAt w 15 = true → (nfld w 12 3 = 1 ∨ nfld w 12 3 = 4) →
      noBlock (fld (k.kept (w ||| 0x01000000#32)) 0 24) = true ∧ bitAt (heldCtl (fld (k.kept (w ||| 0x01000000#32)) 0 24)) 15 = false
      ∧ nfld (heldCtl (fld (k.kept (w ||| 0x01000000#32)) 0 24)) 12 3 ≠ 0) := by
  have hor : ∀ i < 24, (w ||| 0x01000000#32).getLsbD i = w.getLsbD i := fun i hi => by
    have h0 : ∀ i < 24, (0x01000000#32).getLsbD i = false := by decide
    rw [BitVec.getLsbD_or, h0 i hi, Bool.or_false]
  have hsrc : nfld (w ||| 0x01000000#32) 12 3 = nfld w 12 3 := nfld_congr fun i hi => hor _ (by omega)
  generalize hc : fld (k.kept (w ||| 0x01000000#32)) 0 24 = c
  have hcb : ∀ i < 24, i < 9 ∨ 15 ≤ i ∨ 12 ≤ i ∧ nfld w 12 3 ≤ 4 → c.getLsbD i = w.getLsbD i := fun i hi h => by
    rw [← hc, ← hor i hi, ← kept_bit k (w ||| 0x01000000#32) (i := i) (by omega) (by omega)]
    simp [fld, hi]
  have hput : ∀ i < 24, i ≠ 15 → (heldCtl c).getLsbD i = c.getLsbD i := fun i hi h => by
    unfold heldCtl
    split
    · rw [getLsbD_putFld _ _ _ _ hi, if_neg (by omega)]
    · rfl
  refine ⟨nfld_congr fun i hi => by rw [hput _ (by omega) (by omega), hcb _ (by omega) (by omega)], fun h15 hs => ?_⟩
  have hcs : nfld c 12 3 = nfld w 12 3 := nfld_congr fun i hi => hcb _ (by omega) (by omega)
  have hn : noBlock c = true := by
    have h15' : bitAt c 15 = true := (hcb 15 (by omega) (by omega)).trans h15
    rcases hs with hs | hs <;> simp [noBlock, h15', hcs, hs]
  refine ⟨hn, ?_, ?_⟩
  · rw [heldCtl, if_pos hn, bitAt, getLsbD_putFld _ _ _ _ (by decide)]
    rfl
  · rw [nfld_congr (y := c) fun i hi => hput _ (by omega) (by omega), hcs]
    omega

/-- START on an empty queue. -/
theorem queueCtl_start {k : Chk} (w : Word) (hq : k.queue = []) :
    k.queueCtl (w ||| 0x01000000#32) = (Chk.judge (fld (k.kept (w ||| 0x01000000#32)) 0 24)
      { k with ctl := heldCtl (fld (k.kept (w ||| 0x01000000#32)) 0 24) }).start := by
  rw [Chk.queueCtl, if_pos (by rw [hq]; rfl)]
  exact putCtl_start k (by simp [bitAt])

theorem start_effect (k : Chk) (c : BitVec 24) (x : Chk) (hx : x = (Chk.judge c { k with ctl := heldCtl c }).start) :
    (x.count = 0 ∧ x.mismatch = 0 ∧ x.blocks = 0) ∧ x.value.toNat = k.init.toNat % 2 ^ x.width ∧ x.ctl = heldCtl c
    ∧ (noBlock c = true → nfld (heldCtl c) 12 3 ≠ 0 → x.paramErr = true) ∧ x.poly = k.poly ∧ x.init = k.init ∧ x.xorout = k.xorout := by
  rw [judge_eq] at hx
  subst hx
  refine ⟨⟨rfl, rfl, rfl⟩, ?_, rfl, fun hn h0 => ?_, rfl, rfl, rfl⟩
  · refine (BitVec.toNat_ofNat _ _).trans (Nat.mod_eq_of_lt (lt_of_le_of_lt (Nat.mod_le _ _) k.init.isLt))
  · have hb : ({ k with ctl := heldCtl c } : Chk).ctlBad c = true := by
      rw [Chk.ctlBad, hn, Bool.or_eq_true, Bool.true_and]
      exact .inr (bne_iff_ne.2 h0)
    exact Bool.or_eq_true_iff.2 (.inl hb)

theorem exec_chkStart (r : ChkRef) (w : Word) (s : State) :
    exec (.chkStart r w) s = .next (s.chkWrite r (·.queueCtl (w ||| 0x01000000#32))) := rfl

/-! ### The queue (R118, R119) -/

theorem exec_chkFeed (r : ChkRef) (s : State) : exec (.chkFeed r) s = .next (s.modChk r Chk.pump) := rfl

theorem pump_byte {k : Chk} {b : Byte} {bs : List Byte} {q : List ChkEntry} (hq : k.queue = .bytes (b :: bs) :: q) :
    k.pump = ({ k with queue := if bs = [] then q else .bytes bs :: q } : Chk).takeByte b := by
  unfold Chk.pump
  rw [hq]
  cases bs <;> rfl

theorem takeByte_feed {k : Chk} (b : Byte) (h0 : k.src = 0) (hw : k.widthOk = true) : k.takeByte b = k.feed b :=
  (if_neg (not_not.2 h0)).trans (if_pos hw)

theorem takeByte_snooping {k : Chk} (b : Byte) (h0 : k.src ≠ 0) : k.takeByte b = { k with paramErr := true } := if_pos h0

theorem pump_empty {k : Chk} (hq : k.queue = []) : k.pump = k := by
  unfold Chk.pump
  rw [hq]

/-! ### Bytes through the check (R118) -/

/-- Feeding bytes changes the value and the count alone. -/
theorem foldl_feed (bs : List Byte) (k : Chk) : bs.foldl Chk.feed k = { k with
    value := (bs.foldl Chk.feed k).value, count := k.count + BitVec.ofNat 64 bs.length } := by
  induction bs generalizing k with
  | nil => exact congrArg (fun n => { k with count := n }) (BitVec.add_zero k.count).symm
  | cons b bs ih =>
    refine (ih (k.feed b)).trans (congrArg (fun n => { k with value := (bs.foldl Chk.feed (k.feed b)).value, count := n }) ?_)
    refine (BitVec.add_assoc _ _ _).trans (congrArg (k.count + ·) ?_)
    rw [List.length_cons, Nat.add_comm, BitVec.ofNat_add]
    rfl

/-! ### The check of a byte string (R118) -/

theorem crcGenBit_lt {p : CrcParam} (hp : p.poly < 2 ^ p.width) (reg : Nat) (bit : Bool) : crcGenBit p reg bit < 2 ^ p.width := by
  simp only [crcGenBit]
  split
  · exact Nat.xor_lt_two_pow (Nat.mod_lt _ (Nat.two_pow_pos _)) hp
  · exact Nat.mod_lt _ (Nat.two_pow_pos _)

theorem crcGenByte_lt {p : CrcParam} (hp : p.poly < 2 ^ p.width) {reg : Nat} (hr : reg < 2 ^ p.width) (b : Byte) :
    crcGenByte p reg b < 2 ^ p.width := by
  unfold crcGenByte
  generalize (if p.refin = true then List.range 8 else (List.range 8).reverse) = l
  induction l generalizing reg with
  | nil => exact hr
  | cons i l ih => exact ih (crcGenBit_lt hp reg _)

theorem param_poly_lt (k : Chk) : k.param.poly < 2 ^ k.param.width := Nat.mod_lt _ (Nat.two_pow_pos _)

/-- A register within the width holds the check of the bytes fed, as a number. -/
theorem foldl_feed_value (bs : List Byte) {k : Chk} (hw : k.width ≤ 64) (hv : k.value.toNat < 2 ^ k.width) :
    (bs.foldl Chk.feed k).value.toNat = bs.foldl (crcGenByte k.param) k.value.toNat
    ∧ (bs.foldl Chk.feed k).value.toNat < 2 ^ k.width := by
  induction bs generalizing k with
  | nil => exact ⟨rfl, hv⟩
  | cons b bs ih =>
    have hlt : crcGenByte k.param k.value.toNat b < 2 ^ k.width := crcGenByte_lt (param_poly_lt k) hv b
    have hb : (k.feed b).value.toNat = crcGenByte k.param k.value.toNat b := by
      refine (BitVec.toNat_ofNat _ _).trans ?_
      rw [Nat.mod_eq_of_lt hv]
      exact Nat.mod_eq_of_lt (hlt.trans_le (Nat.pow_le_pow_right (by decide) hw))
    obtain ⟨h1, h2⟩ := ih (k := k.feed b) hw (hb.trans_lt hlt)
    exact ⟨h1.trans (congrArg (bs.foldl (crcGenByte k.param)) hb), h2⟩

/-- CHK_RESULT after START and bytes, where nothing is folded in. -/
theorem result_start_feed (bs : List Byte) (k : Chk) (hw : k.widthOk = true) (hf : k.foldLen = 0) :
    (bs.foldl Chk.feed k.start).result = BitVec.ofNat 64 (crcGenFinal k.param (bs.foldl (crcGenByte k.param) k.param.init)) := by
  have h64 : k.width ≤ 64 := of_decide_eq_true (Bool.and_eq_true_iff.1 hw).2
  have hi : k.start.value.toNat = k.param.init :=
    (BitVec.toNat_ofNat _ _).trans (Nat.mod_eq_of_lt (lt_of_le_of_lt (Nat.mod_le _ _) k.init.isLt))
  obtain ⟨hv, hlt⟩ := foldl_feed_value bs (k := k.start) h64 (hi.trans_lt (Nat.mod_lt _ (Nat.two_pow_pos _)))
  have hfb : ∀ t, k.foldBytes t = [] := fun t => (congrArg (toBytes _) hf)
  have hr : ∀ v t, (bs.foldl Chk.feed k.start).resultOf v t = BitVec.ofNat 64 (crcGenFinal k.param (v % 2 ^ k.width)) := fun v t => by
    rw [foldl_feed]
    refine (if_pos hw).trans ?_
    exact congrArg (fun l : List Byte => BitVec.ofNat 64 (crcGenFinal k.param (l.foldl (crcGenByte k.param) (v % 2 ^ k.width)))) (hfb t)
  rw [Chk.result, hr]
  exact congrArg (fun v => BitVec.ofNat 64 (crcGenFinal k.param v))
    ((Nat.mod_eq_of_lt hlt).trans (hv.trans (congrArg (bs.foldl (crcGenByte k.param) ·) hi)))

/-! ### Snooped steps (R120, R122, R123) -/

theorem exec_snoop_hidden {r : ChkRef} {o : SnoopOrigin} {bytes : List Byte} {tag carried : DWord} {s : State} (h0 : 0 < bytes.length)
    (h : bytes.length ≤ 4096) (hh : s.snoopHidden o = true) : exec (.chkSnoopBlock r ⟨o, bytes⟩ tag carried) s = .next s :=
  (if_neg (by simp [Instr.wellFormed, h0, h])).trans (if_pos hh)

theorem exec_snoop_seen {r : ChkRef} {o : SnoopOrigin} {bytes : List Byte} {tag carried : DWord} {s : State} (h0 : 0 < bytes.length)
    (h : bytes.length ≤ 4096) (hh : s.snoopHidden o = false) :
    exec (.chkSnoopBlock r ⟨o, bytes⟩ tag carried) s = .next (s.modChk r (·.snoop bytes tag carried)) :=
  (if_neg (by simp [Instr.wellFormed, h0, h])).trans (if_neg (Bool.eq_false_iff.1 hh))

theorem snoop_frozen {k : Chk} (bytes : List Byte) (tag carried : DWord) (h : k.frozen = true) : k.snoop bytes tag carried = k :=
  if_pos (.inr (.inr (.inr h)))

section
variable {k : Chk} {bytes : List Byte} (tag carried : DWord) (h1 : 1 ≤ k.src) (h4 : k.src ≤ 4) (hw : k.widthOk = true) (hf : k.frozen = false)
include h1 h4 hw hf

theorem snoop_runs : ¬ (k.src = 0 ∨ 4 < k.src ∨ (!k.widthOk) = true ∨ k.frozen = true) := by
  simp only [hw, hf, Bool.not_true, Bool.false_eq_true, or_false]
  omega

theorem snoop_stream (hb : k.block = false) (hl : bytes.length ≤ 256) : k.snoop bytes tag carried = bytes.foldl Chk.feed k := by
  refine (if_neg (snoop_runs h1 h4 hw hf)).trans ((if_neg (Bool.eq_false_iff.1 hb)).trans ((if_neg (by omega)).trans ?_))
  rw [List.take_of_length_le hl]

theorem snoop_stream_overrun (hb : k.block = false) (hl : 256 < bytes.length) :
    k.snoop bytes tag carried = { ((bytes.take 256).foldl Chk.feed k) with overrun := true, frozen := true } :=
  (if_neg (snoop_runs h1 h4 hw hf)).trans ((if_neg (Bool.eq_false_iff.1 hb)).trans (if_pos hl))

theorem snoop_block_overrun (hb : k.block = true) (hl : 256 < bytes.length) :
    k.snoop bytes tag carried = { k with overrun := true, frozen := true } :=
  (if_neg (snoop_runs h1 h4 hw hf)).trans ((if_pos hb).trans (if_pos hl))

theorem snoop_block {x : Chk} (hb : k.block = true) (hl : bytes.length ≤ 256) (hx : x = k.snoop bytes tag carried) :
    x.blocks = satInc k.blocks ∧ x.frozen = false ∧ x.tag = tag
    ∧ x.value = (bytes.foldl Chk.feed { k with value := BitVec.ofNat 64 (k.init.toNat % 2 ^ k.width) }).value
    ∧ x.mismatch = (if x.resultOf x.value.toNat (some tag) = BitVec.ofNat 64 (carried.toNat % 2 ^ k.width)
        then k.mismatch else satInc k.mismatch) := by
  rw [show k.snoop bytes tag carried = _ from (if_neg (snoop_runs h1 h4 hw hf)).trans ((if_pos hb).trans (if_neg (by omega)))] at hx
  rw [foldl_feed] at hx
  subst hx
  exact ⟨rfl, hf, rfl, rfl, ite_not ..⟩
end

/-! ### The exception log (R125) -/

theorem exec_xlogPop {n : Fin 64} {s : State} (hs : s.calShut n = false) :
    exec (.xlogPop n) s = .next (s.modCal n (fun c => { c with xlog := c.xlog.pop })) := if_neg (Bool.eq_false_iff.1 hs)

theorem exec_xlogClear {n : Fin 64} {s : State} (hs : s.calShut n = false) :
    exec (.xlogClear n) s = .next (s.modCal n (fun c => { c with xlog := c.xlog.clear })) := if_neg (Bool.eq_false_iff.1 hs)

theorem pop_effect {α : Type} (l : RingLog α) :
    l.pop.recs = l.recs.tail ∧ l.pop.drop = l.drop ∧ (l.recs = [] → l.pop.oldest = l.oldest) ∧ (l.recs ≠ [] → l.pop.oldest = l.oldest + 1) := by
  unfold RingLog.pop
  cases h : l.recs <;> simp [h]

theorem xlogAppend_room {c : Caldera} (r : BitVec 256) (h : c.xlog.recs.length < 64) :
    (c.xlogAppend r).xlog.recs = c.xlog.recs ++ [r] ∧ (c.xlogAppend r).xlogOvf = c.xlogOvf := by
  simp [Caldera.xlogAppend, RingLog.push, show ¬ 64 ≤ c.xlog.recs.length by omega]

theorem xlogAppend_full {c : Caldera} (r : BitVec 256) (h : 64 ≤ c.xlog.recs.length) :
    (c.xlogAppend r).xlog.recs = c.xlog.recs ∧ (c.xlogAppend r).xlog.drop = satInc c.xlog.drop ∧ (c.xlogAppend r).xlogOvf = true := by
  simp [Caldera.xlogAppend, RingLog.push, h]

/-! ### The obligation -/

/-- Data writes that reach a unit. -/
theorem chkData_enters : ∀ e ∈ ([(fun r w => Instr.chkData8 r (w.setWidth 8), 1), (fun r w => Instr.chkData16 r (w.setWidth 16), 2),
      (fun r w => Instr.chkData32 r w, 4)] : List ((ChkRef → Word → Instr) × Nat)),
    ∀ (r : ChkRef) (w : Word) (s : State), s.chkShut r = false → s.chkRefused r = false →
      (((s.chk r).src = 0 ∧ (s.chk r).widthOk = true ∨ (s.chk r).queue ≠ []) → (s.chk r).queue.length < 64 →
        exec (e.1 r w) s = .next (s.modChk r (fun k => { k with queue := k.queue ++ [.bytes (toBytes w e.2)] }))) ∧
      (∀ x q, (s.chk r).queue = x :: q → 64 ≤ (s.chk r).queue.length →
        exec (e.1 r w) s = .next (s.modChk r (fun k => { k.pumps x.steps with
          queue := (k.pumps x.steps).queue ++ [.bytes (toBytes w e.2)] }))) ∧
      ((s.chk r).queue = [] → (s.chk r).src = 0 → (s.chk r).widthOk = false → exec (e.1 r w) s = .next s) ∧
      ((s.chk r).queue = [] → (s.chk r).src ≠ 0 → exec (e.1 r w) s = .next (s.modChk r (fun k => { k with paramErr := true }))) := by
  intro e he r w s hs hr
  rw [exec_chkData e he, chkWrite_reaches _ hs hr]
  refine ⟨fun h hl => ?_, fun x q hq hl => ?_, fun hq h0 hw => ?_, fun hq h0 => ?_⟩
  · exact congrArg Host.Outcome.next (modChk_congr ((write_enqueues _ h).trans (enqueue_room _ hl)))
  · exact congrArg Host.Outcome.next (modChk_congr ((write_enqueues _ (.inr (by simp [hq]))).trans (enqueue_full _ _ hq hl)))
  · exact congrArg Host.Outcome.next (modChk_self (write_invalid _ hq h0 hw))
  · exact congrArg Host.Outcome.next (modChk_congr (write_snooping _ hq h0))

theorem chkStart_starts (r : ChkRef) (w : Word) (s : State) (hs : s.chkShut r = false) (hr : s.chkRefused r = false)
    (hq : (s.chk r).queue = []) : ∃ u, exec (.chkStart r w) s = .next u ∧ (u.chk r).count = 0 ∧ (u.chk r).mismatch = 0 ∧ (u.chk r).blocks = 0
      ∧ (u.chk r).value.toNat = (s.chk r).init.toNat % 2 ^ (u.chk r).width ∧ (u.chk r).width = nfld w 0 7
      ∧ (bitAt w 15 = true → (nfld w 12 3 = 1 ∨ nfld w 12 3 = 4) → (u.chk r).block = false ∧ (u.chk r).paramErr = true)
      ∧ (u.chk r).poly = (s.chk r).poly ∧ (u.chk r).init = (s.chk r).init ∧ (u.chk r).xorout = (s.chk r).xorout
      ∧ u = s.modChk r (fun _ => u.chk r) := by
  refine ⟨_, (exec_chkStart r w s).trans (congrArg Host.Outcome.next (chkWrite_reaches _ hs hr)), ?_⟩
  obtain ⟨⟨hc, hm, hb⟩, hv, hctl, hpe, hp, hi, hx⟩ := start_effect (s.chk r) _ _
    ((chk_modChk s r (·.queueCtl (w ||| 0x01000000#32))).trans (queueCtl_start w hq))
  obtain ⟨hw, hblk⟩ := heldCtl_kept (s.chk r) w
  refine ⟨hc, hm, hb, hv, (congrArg (nfld · 0 7) hctl).trans hw, fun h15 h4 => ?_, hp, hi, hx, modChk_chk s r _⟩
  obtain ⟨hn, h15', h0⟩ := hblk h15 h4
  exact ⟨(congrArg (bitAt · 15) hctl).trans h15', hpe hn h0⟩

theorem chkStart_waits (r : ChkRef) (w : Word) (s : State) (hs : s.chkShut r = false) (hr : s.chkRefused r = false)
    (hq : (s.chk r).queue ≠ []) (hl : (s.chk r).queue.length < 64) : ∃ x : Word, x.getLsbD 24 = true ∧ exec (.chkStart r w) s =
      .next (s.modChk r (fun k => { k with queue := k.queue ++ [.ctl x] })) := by
  refine ⟨w ||| 0x01000000#32, by simp, ?_⟩
  rw [exec_chkStart, chkWrite_reaches _ hs hr]
  exact congrArg Host.Outcome.next (modChk_congr ((if_neg (by simp [hq])).trans (enqueue_room _ hl)))

theorem chkWrites_refused (n : Fin 64) (k : Fin 2) (s : State) (w : Word) (hs : s.calShut n = false) (hr : s.runsPlan n = true) :
    ∀ c ∈ [Instr.chkData8 (.cal n k) (w.setWidth 8), Instr.chkData16 (.cal n k) (w.setWidth 16), Instr.chkData32 (.cal n k) w,
        Instr.chkStart (.cal n k) w],
      exec c s = .next (s.modCal n (fun c => { c with accessRefused := true })) := by
  simp only [List.forall_mem_cons]
  exact ⟨congrArg Host.Outcome.next (chkWrite_refused k _ hs hr), congrArg Host.Outcome.next (chkWrite_refused k _ hs hr),
    congrArg Host.Outcome.next (chkWrite_refused k _ hs hr), congrArg Host.Outcome.next (chkWrite_refused k _ hs hr), List.forall_mem_nil _⟩

theorem chkFeed_feeds (r : ChkRef) (s : State) (b : Byte) (bs : List Byte) (q : List ChkEntry) (hq : (s.chk r).queue = .bytes (b :: bs) :: q)
    (h0 : (s.chk r).src = 0) (hw : (s.chk r).widthOk = true) : ∃ u, exec (.chkFeed r) s = .next u ∧ u = s.modChk r (fun _ => u.chk r)
      ∧ u.chk r = { s.chk r with
          queue := if bs = [] then q else .bytes bs :: q
          value := BitVec.ofNat 64 (crcGenByte (s.chk r).param ((s.chk r).value.toNat % 2 ^ (s.chk r).width) b)
          count := (s.chk r).count + 1 } :=
  ⟨_, exec_chkFeed r s, modChk_chk s r _, (chk_modChk s r _).trans ((pump_byte hq).trans (takeByte_feed b h0 hw))⟩

theorem standardChecks : ∀ e ∈ ([(8, 0x07, 0, 0, 0, 0xF4), (16, 0x1021, 0xFFFF, 0, 0, 0x29B1), (32, 0x04C11DB7, 0xFFFFFFFF, 0x180, 0xFFFFFFFF, 0xCBF43926),
      (32, 0x1EDC6F41, 0xFFFFFFFF, 0x180, 0xFFFFFFFF, 0xE3069283),
      (64, 0x42F0E1EBA9EA3693, 0xFFFFFFFFFFFFFFFF, 0x180, 0xFFFFFFFFFFFFFFFF, 0x995DC9BBDF1939FA)] :
      List (BitVec 24 × DWord × DWord × BitVec 24 × DWord × DWord)),
    ((([0x31, 0x32, 0x33, 0x34, 0x35, 0x36, 0x37, 0x38, 0x39] : List Byte).foldl Chk.feed
      (Chk.start { poly := e.2.1, init := e.2.2.1, xorout := e.2.2.2.2.1, ctl := e.1 ||| e.2.2.2.1 })).result) = e.2.2.2.2.2 := by
  have h : ∀ (k : Chk) (p : CrcParam) (v : DWord), k.widthOk = true → k.foldLen = 0 → k.param = p →
      crcGenFinal p (List.foldl (crcGenByte p) p.init [0x31, 0x32, 0x33, 0x34, 0x35, 0x36, 0x37, 0x38, 0x39]) = v.toNat →
      (List.foldl Chk.feed k.start [0x31, 0x32, 0x33, 0x34, 0x35, 0x36, 0x37, 0x38, 0x39]).result = v := fun k p v hw hf hp hv => by
    rw [result_start_feed _ k hw hf, hp, hv, BitVec.ofNat_toNat, BitVec.setWidth_eq]
  simp only [List.forall_mem_cons]
  exact ⟨h _ ⟨8, 0x07, 0, 0, false, false⟩ _ (by decide) (by decide) (by decide) (by decide +kernel),
    h _ ⟨16, 0x1021, 0xFFFF, 0, false, false⟩ _ (by decide) (by decide) (by decide) (by decide +kernel),
    h _ ⟨32, 0x04C11DB7, 0xFFFFFFFF, 0xFFFFFFFF, true, true⟩ _ (by decide) (by decide) (by decide) (by decide +kernel),
    h _ ⟨32, 0x1EDC6F41, 0xFFFFFFFF, 0xFFFFFFFF, true, true⟩ _ (by decide) (by decide) (by decide) (by decide +kernel),
    h _ ⟨64, 0x42F0E1EBA9EA3693, 2 ^ 64 - 1, 2 ^ 64 - 1, true, true⟩ _ (by decide) (by decide) (by decide) (by decide +kernel),
    List.forall_mem_nil _⟩

theorem chkSnoop_effect (r : ChkRef) (o : SnoopOrigin) (bytes : List Byte) (tag carried : DWord) (s : State) (h0 : 0 < bytes.length)
    (hl : bytes.length ≤ 4096) (hh : s.snoopHidden o = false) :
    ∃ u, exec (.chkSnoopBlock r ⟨o, bytes⟩ tag carried) s = .next u ∧ u = s.modChk r (fun _ => u.chk r) ∧
    u.chk r = (s.chk r).snoop bytes tag carried :=
  ⟨_, exec_snoop_seen h0 hl hh, modChk_chk s r _, chk_modChk s r _⟩

/-- Settles O19: each write, feed and snoop changes one unit, by the case of its queue, source and width; START's fields are
read bit by bit; the standard values are computed. -/
theorem checkUnitsAndExceptionLog : Obligations.CheckUnitsAndExceptionLog := by
  refine ⟨⟨chkData_enters, chkStart_starts, chkStart_waits, chkWrites_refused⟩,
    ⟨chkFeed_feeds, fun r s b bs q hq h0 => ?_, fun r s hq => ?_, standardChecks, fun k bs cs => ⟨List.foldl_append, ?_⟩⟩,
    ⟨fun r o bytes tag carried s h0 hl hh => ?_, fun r o bytes tag carried s h0 hl => ⟨fun c ho hc => ?_, fun h ho hn => ?_, rfl⟩⟩,
    fun n s hs => ⟨?_, ?_⟩, fun c r => ⟨xlogAppend_room r, xlogAppend_full r⟩⟩
  · exact congrArg Host.Outcome.next (modChk_congr ((pump_byte hq).trans (takeByte_snooping b h0)))
  · exact congrArg Host.Outcome.next (modChk_self (pump_empty hq))
  · rw [foldl_feed]
  · obtain ⟨u, hu, hm, hc⟩ := chkSnoop_effect r o bytes tag carried s h0 hl hh
    refine ⟨u, hu, hm, fun hf => hc.trans (snoop_frozen bytes tag carried hf), fun h1 h4 hw hf => ⟨fun hb h => ?_, fun hb h => ?_, fun hb h => ?_, fun hb h => ?_⟩⟩
    · exact hc.trans (snoop_stream tag carried h1 h4 hw hf hb h)
    · exact hc.trans (snoop_stream_overrun tag carried h1 h4 hw hf hb h)
    · exact hc.trans (snoop_block_overrun tag carried h1 h4 hw hf hb h)
    · exact snoop_block tag carried h1 h4 hw hf hb h hc
  · exact exec_snoop_hidden h0 hl (by rw [ho]; exact hc)
  · exact exec_snoop_hidden h0 hl (by rw [ho]; exact Bool.or_eq_true_iff.2 hn)
  · obtain ⟨hr, hd, he, hne⟩ := pop_effect s.cals[n].xlog
    refine ⟨_, exec_xlogPop hs, onlyCal_modCal s n _, ?_⟩
    rw [State.modCal_at]
    refine ⟨hr, hd, rfl, ?_⟩
    split
    · exact he ‹_›
    · exact hne ‹_›
  · refine ⟨_, exec_xlogClear hs, onlyCal_modCal s n _, ?_⟩
    rw [State.modCal_at]
    exact ⟨rfl, rfl, rfl⟩

end Sys2Proof.Machine
end

section
/-! Proofs of the statements about staging: the place of a record in the pool. -/

namespace Sys2Proof.Machine

/-! ### A record put into the pool (R141) -/

/-- Slot `k` after its record has gone into the pool. -/
theorem putRecord_stream (c : Caldera) (k : Fin 64) (i : Nat) (dem : Bool) : (c.putRecord k i dem).streams[k] =
    { c.streams[k] with
      inBuf := (c.streams[k]).inBuf.drop (dRec (c.streams[k]).desc), bufPos := (c.streams[k]).bufPos + dRec (c.streams[k]).desc
      moved := dem || (c.streams[k]).moved, st := if dem ∧ (c.streams[k]).st = .armed then .active else (c.streams[k]).st } :=
  vmod_get_same _ _ _

theorem find?_idx_none {l : List PoolSlot} {i : Nat} (h : ∀ q ∈ l, q.idx ≠ i) : l.find? (fun q => q.idx == i) = none :=
  List.find?_eq_none.2 fun q hq => by simpa using h q hq

theorem putRecord_pool_held {c : Caldera} {q : PoolSlot} (k : Fin 64) (dem : Bool) (hq : q ∈ c.pool) :
    (c.putRecord k q.idx dem).pool = c.pool.map (fun x =>
      if x.idx = q.idx then { x with len := x.len + dRec (c.streams[k]).desc, demand := x.demand || dem, order := c.fillOrder } else x) := by
  have hs : (c.pool.find? (fun x => x.idx == q.idx)).isSome = true := List.find?_isSome.2 ⟨q, hq, beq_self_eq_true _⟩
  obtain ⟨x, hx⟩ := Option.isSome_iff_exists.1 hs
  simp only [Caldera.putRecord, hx, Option.map_some]

theorem putRecord_free {c : Caldera} (k : Fin 64) {i : Nat} (dem : Bool) (h : ∀ q ∈ c.pool, q.idx ≠ i) :
    (c.putRecord k i dem).pool = c.pool ++ [⟨i, k.val, dem, c.fillOrder, (c.streams[k]).bufPos, dRec (c.streams[k]).desc⟩]
    ∧ (c.putRecord k i dem).sram = mwriteN c.sram (c.poolAddr i) ((c.streams[k]).inBuf.take (dRec (c.streams[k]).desc)) := by
  simp only [Caldera.putRecord, find?_idx_none h, Option.map_none, Option.getD_none, Nat.add_zero]
  exact ⟨trivial, trivial⟩

/-! ### Where a record goes (R141, R142) -/

/-- The pool slot `i` is one that the stream may take, and nothing is in it. -/
def Caldera.freeFor (c : Caldera) (k : Fin 64) (i : Nat) : Prop := i ∈ c.ownSlots k ∧ ∀ q ∈ c.pool, q.idx ≠ i

/-- The pool with the record of `v` given up. -/
def Caldera.evicted (c : Caldera) (v : PoolSlot) : Caldera := { c with pool := c.pool.erase v, evictCnt := satInc c.evictCnt }

theorem joins_iff {c : Caldera} {k : Fin 64} {dem : Bool} {q : PoolSlot} (h : c.joins k dem q = true) :
    q.owner = k.val ∧ q.pos + q.len = (c.streams[k]).bufPos := by
  simp only [Caldera.joins, Bool.and_eq_true, beq_iff_eq] at h
  exact h.1.1

theorem find?_free_none {c : Caldera} {k : Fin 64} (h : ∀ i ∈ c.ownSlots k, ∃ q ∈ c.pool, q.idx = i) :
    (c.ownSlots k).find? (fun i => !(c.pool.any (fun q => q.idx == i))) = none := by
  simpa [List.find?_eq_none] using h

/-- A record goes behind the slot's last one, else into a free slot, else, on demand, into one that run-ahead had filled. -/
theorem stage_cases {c d : Caldera} {k : Fin 64} {dem : Bool} (h : c.stage k dem = some d) :
    (∃ q ∈ c.pool, c.joins k dem q = true ∧ d = c.putRecord k q.idx dem)
    ∨ (∃ i, c.freeFor k i ∧ d = c.putRecord k i dem)
    ∨ (c.pool.any (c.joins k dem) = false ∧ (∀ i, ¬c.freeFor k i) ∧ dem = true
        ∧ ∃ v, c.victim k = some v ∧ d = (c.evicted v).putRecord k v.idx dem) := by
  unfold Caldera.stage at h
  dsimp only at h
  split at h
  · rename_i q hq
    exact .inl ⟨q, List.mem_of_find?_eq_some hq, List.find?_some hq, (Option.some.inj h).symm⟩
  · rename_i hj
    split at h
    · rename_i i hi
      have hf := List.find?_some hi
      refine .inr (.inl ⟨i, ⟨List.mem_of_find?_eq_some hi, fun q hq e => ?_⟩, (Option.some.inj h).symm⟩)
      simp [List.any_eq_false] at hf
      exact hf q hq e
    · rename_i hi
      rw [List.find?_eq_none] at hj hi
      split at h
      · rename_i v hv
        cases dem
        · simp at hv
        · refine .inr (.inr ⟨by simpa using hj, fun i hf => ?_, rfl, v, hv, (Option.some.inj h).symm⟩)
          have := hi i hf.1
          simp only [Bool.not_eq_true', Bool.not_eq_false, List.any_eq_true, beq_iff_eq] at this
          obtain ⟨q, hq, e⟩ := this
          exact hf.2 q hq e
      · cases h

theorem stage_isSome (c : Caldera) (k : Fin 64) (dem : Bool) : (c.stage k dem).isSome = c.stageRoom k dem := by
  unfold Caldera.stage Caldera.stageRoom
  dsimp only
  rw [← List.isSome_find? (f := c.joins k dem), ← List.isSome_find? (xs := c.ownSlots k)]
  split
  · rename_i q hq
    simp [hq]
  · rename_i hj
    rw [hj]
    split
    · rename_i i hi
      simp [hi]
    · rename_i hi
      rw [hi]
      cases dem <;> simp
      cases c.victim k <;> rfl

/-! ### The record that is given up (R142) -/

/-- Of two run-ahead records, the one filled later. -/
def newer : Option PoolSlot → PoolSlot → Option PoolSlot
  | none, q => some q
  | some v, q => if v.order < q.order then some q else some v

/-- A record that the pool may give up for slot `k`. -/
def Caldera.yields (c : Caldera) (k : Fin 64) (q : PoolSlot) : Prop := q.owner ≠ k.val ∧ !q.demand ∧ c.shared q.idx

theorem victim_eq (c : Caldera) (k : Fin 64) : c.victim k =
    c.pool.foldl (fun m q => if q.owner ≠ k.val ∧ !q.demand ∧ c.shared q.idx then newer m q else m) none := by
  unfold Caldera.victim
  congr 1
  funext m q
  cases m <;> rfl

theorem newer_some (m : Option PoolSlot) (q : PoolSlot) : ∃ v, newer m q = some v ∧ (v = q ∨ m = some v) ∧ q.order ≤ v.order
    ∧ ∀ w, m = some w → w.order ≤ v.order := by
  cases m with
  | none => exact ⟨q, rfl, .inl rfl, le_rfl, fun w h => nomatch h⟩
  | some w =>
    by_cases h : w.order < q.order
    · exact ⟨q, if_pos h, .inl rfl, le_rfl, fun x hx => by cases hx; omega⟩
    · exact ⟨w, if_neg h, .inr rfl, by omega, fun x hx => by cases hx; exact le_rfl⟩

/-- The fold keeps the newest of the records that have the property. -/
theorem foldl_newer (p : PoolSlot → Prop) [DecidablePred p] (l : List PoolSlot) : ∀ (m : Option PoolSlot) (v : PoolSlot),
    l.foldl (fun m q => if p q then newer m q else m) m = some v →
      (m = some v ∨ v ∈ l ∧ p v) ∧ (∀ w, m = some w → w.order ≤ v.order) ∧ ∀ q ∈ l, p q → q.order ≤ v.order := by
  induction l with
  | nil => exact fun m v h => ⟨.inl h, fun w hw => by cases hw.symm.trans h; exact le_rfl, fun q hq => nomatch hq⟩
  | cons x l ih =>
    intro m v h
    rw [List.foldl_cons] at h
    obtain ⟨hv, hm, hl⟩ := ih _ v h
    by_cases hx : p x
    · rw [if_pos hx] at hv hm
      obtain ⟨y, hy, hor, hge, hgm⟩ := newer_some m x
      have hyv := hm y hy
      refine ⟨?_, fun w hw => (hgm w hw).trans hyv, fun q hq hp => ?_⟩
      · rcases hv with e | ⟨hv, hpv⟩
        · cases hy.symm.trans e
          exact hor.symm.imp_right fun e => by rw [e]; exact ⟨List.mem_cons_self, hx⟩
        · exact .inr ⟨List.mem_cons_of_mem _ hv, hpv⟩
      · rcases List.mem_cons.1 hq with rfl | hq
        · exact hge.trans hyv
        · exact hl q hq hp
    · rw [if_neg hx] at hv hm
      refine ⟨hv.imp_right fun e => ⟨List.mem_cons_of_mem _ e.1, e.2⟩, hm, fun q hq hp => ?_⟩
      rcases List.mem_cons.1 hq with rfl | hq
      · exact absurd hp hx
      · exact hl q hq hp

/-- The record given up is the shared run-ahead record of another stream that was filled last. -/
theorem victim_newest {c : Caldera} {k : Fin 64} {v : PoolSlot} (h : c.victim k = some v) :
    (v ∈ c.pool ∧ c.yields k v) ∧ ∀ q ∈ c.pool, c.yields k q → q.order ≤ v.order := by
  rw [victim_eq] at h
  obtain ⟨hv, -, hl⟩ := foldl_newer (fun q => q.owner ≠ k.val ∧ !q.demand ∧ c.shared q.idx) c.pool none v h
  exact ⟨hv.resolve_left nofun, hl⟩

theorem yields_iff {c : Caldera} {k : Fin 64} {q : PoolSlot} : c.yields k q ↔ q.owner ≠ k.val ∧ q.demand = false ∧ c.shared q.idx = true := by
  unfold Caldera.yields
  rw [Bool.not_eq_true']

/-- Of a pool with one record per slot, nothing is left in the slot that is given up. -/
theorem evicted_free {c : Caldera} {v : PoolSlot} (hn : (c.pool.map (·.idx)).Nodup) (hv : v ∈ c.pool) : ∀ q ∈ (c.evicted v).pool, q.idx ≠ v.idx := by
  intro q hq e
  obtain ⟨hne, hq⟩ := (hn.of_map).mem_erase_iff.1 hq
  exact hne (List.inj_on_of_nodup_map hn hq hv e)

/-! ### The record of a slot in its caldera -/

theorem stage_streams {c d : Caldera} {k : Fin 64} {dem : Bool} (h : c.stage k dem = some d) : d.streams[k] =
    { c.streams[k] with
      inBuf := (c.streams[k]).inBuf.drop (dRec (c.streams[k]).desc), bufPos := (c.streams[k]).bufPos + dRec (c.streams[k]).desc
      moved := dem || (c.streams[k]).moved, st := if dem ∧ (c.streams[k]).st = .armed then .active else (c.streams[k]).st } := by
  rcases stage_cases h with ⟨q, -, -, rfl⟩ | ⟨i, -, rfl⟩ | ⟨-, -, -, v, -, rfl⟩ <;> exact putRecord_stream _ _ _ _

/-- The slot's next record is due behind the one that has gone into the pool. -/
theorem stage_holds {c d : Caldera} {k : Fin 64} {dem : Bool} (h : c.stage k dem = some d) (hn : dem = true → (c.pool.map (·.idx)).Nodup) :
    ∃ q ∈ d.pool, q.owner = k.val ∧ q.pos + q.len = (c.streams[k]).bufPos + dRec (c.streams[k]).desc := by
  rcases stage_cases h with ⟨q, hq, hj, rfl⟩ | ⟨i, hi, rfl⟩ | ⟨-, -, hdem, v, hv, rfl⟩
  · obtain ⟨ho, hp⟩ := joins_iff hj
    rw [putRecord_pool_held k dem hq]
    refine ⟨_, List.mem_map_of_mem hq, ?_⟩
    rw [if_pos rfl]
    exact ⟨ho, by dsimp only; omega⟩
  · rw [(putRecord_free k dem hi.2).1]
    exact ⟨_, List.mem_append_right _ List.mem_cons_self, rfl, rfl⟩
  · rw [(putRecord_free k dem (evicted_free (hn hdem) (victim_newest hv).1.1)).1]
    exact ⟨_, List.mem_append_right _ List.mem_cons_self, rfl, rfl⟩

/-- Where the slot has a place of its own for the record nothing is given up. -/
theorem stage_evictCnt {c d : Caldera} {k : Fin 64} {dem : Bool} (h : c.stage k dem = some d)
    (hp : dem = false ∨ c.pool.any (c.joins k dem) = true ∨ ∃ i, c.freeFor k i) : d.evictCnt = c.evictCnt := by
  rcases stage_cases h with ⟨q, -, -, rfl⟩ | ⟨i, -, rfl⟩ | ⟨hj, hf, hdem, v, -, rfl⟩
  · rfl
  · rfl
  · rcases hp with hp | hp | ⟨i, hp⟩
    · rw [hp] at hdem; cases hdem
    · rw [hp] at hj; cases hj
    · exact absurd hp (hf i)

/-- Without an eviction every record of the pool stays where it is. -/
theorem stage_keeps_records {c d : Caldera} {k : Fin 64} (h : c.stage k false = some d) :
    ∀ q ∈ c.pool, ∃ q' ∈ d.pool, q'.idx = q.idx ∧ q'.owner = q.owner ∧ q'.pos = q.pos := by
  intro x hx
  rcases stage_cases h with ⟨q, hq, -, rfl⟩ | ⟨i, hi, rfl⟩ | ⟨-, -, hdem, -⟩
  · rw [putRecord_pool_held k false hq]
    refine ⟨_, List.mem_map_of_mem hx, ?_⟩
    split <;> exact ⟨rfl, rfl, rfl⟩
  · rw [(putRecord_free k false hi.2).1]
    exact ⟨x, List.mem_append_left _ hx, rfl, rfl, rfl⟩
  · cases hdem

/-- A full pool gives up a run-ahead record to a demanded one. -/
theorem stage_evicts {c : Caldera} {k : Fin 64} {v : PoolSlot} (hj : c.pool.any (c.joins k true) = false)
    (hf : ∀ i ∈ c.ownSlots k, ∃ q ∈ c.pool, q.idx = i) (hv : c.victim k = some v) :
    c.stage k true = some ((c.evicted v).putRecord k v.idx true) := by
  have hjn : c.pool.find? (fun q => c.joins k true q) = none := List.find?_eq_none.2 fun q hq => by
    rw [List.any_eq_false] at hj
    exact hj q hq
  unfold Caldera.stage
  simp only [hjn, find?_free_none hf, if_true, hv]
  rfl

/-- An empty pool has room. -/
theorem stageRoom_empty {c : Caldera} (k : Fin 64) (dem : Bool) (h : c.pool = []) : c.stageRoom k dem = true := by
  simp [Caldera.stageRoom, h, Caldera.ownSlots]

theorem syncFill_stream (c : Caldera) (k : Fin 64) : ((c.syncFill k).streams[k]).desc = (c.streams[k]).desc
    ∧ ((c.syncFill k).streams[k]).st = (c.streams[k]).st := by
  simp only [Caldera.syncFill]
  rw [vmod_get_same]
  split <;> exact ⟨rfl, rfl⟩

/-! ### DEMAND_FILL and RUN_AHEAD (R141 to R143) -/

theorem tryStage_whole {s : State} {n k : Fin 64} {dem : Bool} (h : dRec ((s.cals[n]).streams[k]).desc ≤ ((s.cals[n]).streams[k]).inBuf.length) :
    s.tryStage n k dem = ((s.cals[n]).stage k dem).map (fun c => s.modCal n (fun _ => c)) := if_pos h

theorem tryStage_part {s : State} {n k : Fin 64} {dem : Bool} (h : ((s.cals[n]).streams[k]).inBuf.length < dRec ((s.cals[n]).streams[k]).desc) :
    s.tryStage n k dem = none := if_neg (by omega)

theorem tryStage_full {s : State} {n k : Fin 64} {dem : Bool} (h : (s.cals[n]).stageRoom k dem = false) : s.tryStage n k dem = none := by
  rw [← stage_isSome, Option.isSome_eq_false_iff, Option.isNone_iff_eq_none] at h
  unfold State.tryStage
  dsimp only
  rw [h]
  split <;> rfl

/-- The state with the buffer of slot `k` at its fill position. -/
def State.synced (s : State) (n k : Fin 64) : State := s.modCal n (fun c => c.syncFill k)

theorem synced_cal (s : State) (n k : Fin 64) : (s.synced n k).cals[n] = (s.cals[n]).syncFill k := State.modCal_at _ _ _

/-- A whole record and room for it: the caldera takes it. -/
theorem synced_stages {s : State} {n k : Fin 64} {dem : Bool} {c : Caldera} (hc : c = (s.cals[n]).syncFill k)
    (hw : dRec (c.streams[k]).desc ≤ (c.streams[k]).inBuf.length) (hr : c.stageRoom k dem = true) :
    ∃ d, c.stage k dem = some d ∧ (s.synced n k).tryStage n k dem = some (s.modCal n (fun _ => d)) := by
  rw [← stage_isSome] at hr
  obtain ⟨d, hd⟩ := Option.isSome_iff_exists.1 hr
  refine ⟨d, hd, ?_⟩
  subst hc
  rw [tryStage_whole (by rw [synced_cal]; exact hw), synced_cal, hd, Option.map_some, State.synced, State.modCal_modCal]

theorem demandFill_works {s : State} {t : Stream} (hd : s.demandOk t = true) (hs : dStaged t.desc = true) :
    ¬((!s.demandOk t) = true ∨ (!dStaged t.desc) = true) := by simp [hd, hs]

section
/-! A staging slot whose first beat has opened. -/

variable {s : State} {n k : Fin 64} (io : HostIO) (hd : s.demandOk ((s.cals[n]).streams[k]) = true)
  (hs : dStaged ((s.cals[n]).streams[k]).desc = true)
include hd hs

theorem demandFill_places {u : State} (h : (s.synced n k).tryStage n k true = some u) : exec (.demandFill n k io) s = .next u := by
  simp only [exec, execDemandFill]
  rw [if_neg (demandFill_works hd hs)]
  unfold State.synced at h
  rw [h]

theorem demandFill_full (h : ((s.cals[n]).syncFill k).stageRoom k true = false) : exec (.demandFill n k io) s = .next (s.synced n k) := by
  have ht := tryStage_full (s := s.synced n k) (by rw [synced_cal]; exact h)
  unfold State.synced at ht
  simp only [exec, execDemandFill]
  rw [if_neg (demandFill_works hd hs), ht]
  dsimp only
  rw [if_pos (.inr (by rw [State.modCal_at, h]; rfl))]
  rfl

/-- What a record that is not yet whole waits for: the slot's next bytes. -/
theorem demandFill_fills (hp : (((s.cals[n]).syncFill k).streams[k]).inBuf.length < dRec ((s.cals[n]).streams[k]).desc)
    (h : ((s.cals[n]).syncFill k).stageRoom k true = true) :
    (∀ u, (s.synced n k).fill (.cal n k) io false = .ok u → exec (.demandFill n k io) s = .next ((u.tryStage n k true).getD u)) ∧
    ((s.synced n k).fill (.cal n k) io false = .wait → exec (.demandFill n k io) s = .next (s.synced n k)) := by
  have hdesc := (syncFill_stream (s.cals[n]) k).1
  have ht := tryStage_part (s := s.synced n k) (n := n) (k := k) (dem := true) (by rw [synced_cal, hdesc]; exact hp)
  have hmore : ¬(dRec ((s.cals[n]).streams[k]).desc ≤ ((s.synced n k).cals[n].streams[k]).inBuf.length
      ∨ (!(s.synced n k).cals[n].stageRoom k true) = true) := by
    rw [synced_cal, h]
    simp only [Bool.not_true, Bool.false_eq_true, or_false]
    omega
  unfold State.synced at ht hmore ⊢
  refine ⟨fun u hu => ?_, fun hu => ?_⟩ <;>
  · simp only [exec, execDemandFill]
    rw [if_neg (demandFill_works hd hs), ht]
    dsimp only
    rw [if_neg hmore, hu]

end

/-- The manual gives run-ahead work on a slot: the slot is ARMED with PF, its first beat is at most two beats away, its source
is one of those of R143 and no access of it has failed. -/
structure State.mayRunAhead (s : State) (t : Stream) : Prop where
  armed : t.st = .armed
  pf : dPf t.desc = true
  early : ∃ b, s.beatOf t = some b ∧ b < t.first ∧ t.first ≤ b + 2
  staged : dStaged t.desc = true
  going : t.raStop = false
  source : dSrcKind t.desc = 2 ∨ dSrcKind t.desc = 3 ∨ dSrcKind t.desc = 5

theorem runAhead_works {t : Stream} {b : Nat} (ha : t.st = .armed) (hp : dPf t.desc = true) (h1 : b < t.first) (h2 : t.first ≤ b + 2)
    (hs : dStaged t.desc = true) (hg : t.raStop = false) (hk : dSrcKind t.desc = 2 ∨ dSrcKind t.desc = 3 ∨ dSrcKind t.desc = 5) :
    ¬(t.st ≠ .armed ∨ (!dPf t.desc) = true ∨ (!(decide (b < t.first) && decide (t.first ≤ b + 2))) = true ∨ (!dStaged t.desc) = true
      ∨ t.raStop = true ∨ (!(dSrcKind t.desc == 2 || dSrcKind t.desc == 3 || dSrcKind t.desc == 5)) = true) := by
  rcases hk with hk | hk | hk <;> simp [ha, hp, h1, h2, hs, hg, hk]

section
variable {s : State} {n k : Fin 64} (io : HostIO) (h : s.mayRunAhead ((s.cals[n]).streams[k]))
include h

theorem runAhead_places {u : State} (ht : (s.synced n k).tryStage n k false = some u) : exec (.runAhead n k io) s = .next u := by
  obtain ⟨ha, hp, ⟨b, hb, h1, h2⟩, hs, hg, hk⟩ := h
  unfold State.synced at ht
  simp only [exec, execRunAhead, hb]
  rw [if_neg (runAhead_works ha hp h1 h2 hs hg hk), ht]

theorem runAhead_full (hr : ((s.cals[n]).syncFill k).stageRoom k false = false) : exec (.runAhead n k io) s = .next (s.synced n k) := by
  obtain ⟨ha, hp, ⟨b, hb, h1, h2⟩, hs, hg, hk⟩ := h
  have ht := tryStage_full (s := s.synced n k) (by rw [synced_cal]; exact hr)
  unfold State.synced at ht
  simp only [exec, execRunAhead, hb]
  rw [if_neg (runAhead_works ha hp h1 h2 hs hg hk), ht]
  dsimp only
  rw [if_pos (.inr (by rw [State.modCal_at, hr]; rfl))]
  rfl

end

theorem runAhead_idle {s : State} {n k : Fin 64} (io : HostIO) (h : ((s.cals[n]).streams[k]).st ≠ .armed
    ∨ dPf ((s.cals[n]).streams[k]).desc = false ∨ ((s.cals[n]).streams[k]).raStop = true) : exec (.runAhead n k io) s = .next s := by
  simp only [exec, execRunAhead]
  rw [if_pos]
  rcases h with h | h | h
  · exact .inl h
  · exact .inr (.inl (by rw [h]; rfl))
  · exact .inr (.inr (.inr (.inr (.inl h))))

/-- Settles O22: the place that `stage` gives a record, case by case, and DEMAND_FILL and RUN_AHEAD as calls of it. -/
theorem stagingPlacesRecords : Obligations.StagingPlacesRecords := by
  unfold Obligations.StagingPlacesRecords
  refine ⟨fun n k io s c hc hd hs => ⟨fun hw hr => ?_, fun hr => ?_, fun hp hr => ⟨fun u hu => ?_, fun hu => ?_⟩⟩,
    fun n k io s c b hc ha hpf hb h1 h2 hs hg hk => ⟨fun hw hr => ?_, fun hr => ?_⟩,
    fun n k io s h => runAhead_idle io h, fun c k dem h => stageRoom_empty k dem h,
    fun c d k h => ⟨stage_evictCnt h (.inl rfl), by rw [stage_streams h]; rfl, stage_keeps_records h⟩,
    fun c k v hn hj hf hv => ⟨?_, _, stage_evicts hj hf hv, rfl, ?_⟩,
    fun c d k h hp => stage_evictCnt h (.inr hp), fun c d k dem h => ?_⟩
  · have hdesc : (c.streams[k]).desc = ((s.cals[n]).streams[k]).desc := by rw [hc]; exact (syncFill_stream _ _).1
    obtain ⟨d, hd', ht⟩ := synced_stages hc (by rw [hdesc]; exact hw) hr
    refine ⟨_, demandFill_places io hd hs ht, onlyCal_modCal _ _ _, ?_⟩
    rw [State.modCal_at, stage_streams hd', ← hdesc]
    exact ⟨hd', rfl, rfl, fun hn => stage_holds hd' fun _ => hn⟩
  · subst hc
    exact demandFill_full io hd hs hr
  · subst hc
    exact (demandFill_fills io hd hs hp hr).1 u hu
  · subst hc
    exact (demandFill_fills io hd hs hp hr).2 hu
  · have hdesc : (c.streams[k]).desc = ((s.cals[n]).streams[k]).desc := by rw [hc]; exact (syncFill_stream _ _).1
    have hst : (c.streams[k]).st = .armed := by rw [hc, (syncFill_stream _ _).2]; exact ha
    obtain ⟨d, hd', ht⟩ := synced_stages hc (by rw [hdesc]; exact hw) hr
    refine ⟨_, runAhead_places io ⟨ha, hpf, ⟨b, hb, h1, h2⟩, hs, hg, hk⟩ ht, onlyCal_modCal _ _ _, ?_⟩
    rw [State.modCal_at, stage_streams hd', ← hdesc]
    exact ⟨hd', stage_evictCnt hd' (.inl rfl), hst, stage_holds hd' nofun⟩
  · subst hc
    exact runAhead_full io ⟨ha, hpf, ⟨b, hb, h1, h2⟩, hs, hg, hk⟩ hr
  · obtain ⟨⟨hm, hy⟩, hmax⟩ := victim_newest hv
    obtain ⟨ho, hdem, hsh⟩ := yields_iff.1 hy
    exact ⟨hm, ho, hdem, hsh, fun q hq h1 h2 h3 => hmax q hq (yields_iff.2 ⟨h1, h2, h3⟩)⟩
  · exact putRecord_free k true (evicted_free hn (victim_newest hv).1.1)
  · rw [← stage_isSome, h, stage_streams h]
    exact ⟨rfl, rfl, rfl⟩

end Sys2Proof.Machine
end

section
/-! Proofs of the statements about stream armings: submissions, the end of an arming, and the watchdog. -/

namespace Sys2Proof.Machine

/-! ### Submissions (R134 to R137) -/

/-- Slot `k` of a caldera offered a submission. -/
def Caldera.offered (c : Caldera) (k : Fin 64) (x : Submit) : Caldera :=
  { c with streams := vmod c.streams k (fun t => if descBad c k x.desc 1 then { t with descErr := true } else t.submit x) }

theorem submit_cal (s : State) (n k : Fin 64) (x : Submit) : s.submit (.cal n k) x = s.modCal n (·.offered k x) := State.modCal_congr rfl

theorem offered_stream (c : Caldera) (k : Fin 64) (x : Submit) : (c.offered k x).streams[k] =
    if descBad c k x.desc 1 then { c.streams[k] with descErr := true } else (c.streams[k]).submit x := vmod_get_same _ _ _

theorem offered_other (c : Caldera) {k j : Fin 64} (x : Submit) (h : j ≠ k) : (c.offered k x).streams[j] = c.streams[j] :=
  vmod_get_ne _ _ _ _ h

theorem submit_idle {t : Stream} (x : Submit) (h : t.st = .idle) : t.submit x = t.activate x := if_pos h

theorem submit_shadow {t : Stream} (x : Submit) (h : t.st ≠ .idle) (hs : t.shadow = none) : t.submit x =
    { t with shadow := some (sealDesc x.desc (t.gen + 1) x.owner), shadowCtx := x.ctx, shadowCmd := x.cmd, shadowPlan := x.plan
             shadowFirst := x.first, shadowDone := x.done, shadowItem := x.item, shadowRemote := x.remote } := by
  unfold Stream.submit
  rw [if_neg h, hs]

theorem submit_overrun {t : Stream} (x : Submit) (h : t.st ≠ .idle) (hs : t.shadow.isSome = true) : t.submit x = { t with overrun := true } := by
  obtain ⟨d, hd⟩ := Option.isSome_iff_exists.1 hs
  unfold Stream.submit
  rw [if_neg h, hd]

theorem submit_wbuf (t : Stream) (x : Submit) : (t.submit x).wbuf = t.wbuf := by
  unfold Stream.submit
  split
  · rfl
  · split <;> rfl

/-- The tests of R134 look at a slot's segments, pool and staging register only. -/
theorem descBad_congr {c d : Caldera} {k : Fin 64} (hs : d.segs = c.segs) (hg : (d.streams[k]).stg = (c.streams[k]).stg) (hz : d.stgShape = c.stgShape)
    (x : CWord) (n : Nat) : descBad d k x n = descBad c k x n := by
  have hrec (src : Bool) (r : Nat) : recordSeg d x src r = recordSeg c x src r := by unfold recordSeg segOk; rw [hs]
  have hsize : d.poolSize = c.poolSize := by unfold Caldera.poolSize; rw [hz]
  have hpair : d.pairOk k = c.pairOk k := by unfold Caldera.pairOk; rw [hg, hz]
  simp only [descBad, descErrors, hrec, hsize, hpair]

/-! ### STREAM_ARM and SARM (R135, R138) -/

/-- A slot with word 0 of its write buffer stored. -/
def Stream.withWord (t : Stream) (w : Word) : Stream := { t with wbuf := putFld t.wbuf 0 w }

/-- Slot `k` with word 0 of its write buffer stored. -/
def Caldera.wordStored (c : Caldera) (k : Fin 64) (w : Word) : Caldera :=
  { c with streams := vmod c.streams k (·.withWord w) }

theorem wordStored_stream (c : Caldera) (k : Fin 64) (w : Word) : (c.wordStored k w).streams[k] = (c.streams[k]).withWord w := vmod_get_same _ _ _

theorem wordStored_descBad (c : Caldera) (k : Fin 64) (w : Word) (x : CWord) (n : Nat) : descBad (c.wordStored k w) k x n = descBad c k x n := by
  have hg : ((c.wordStored k w).streams[k]).stg = (c.streams[k]).stg := by rw [wordStored_stream]; rfl
  exact descBad_congr (c := c) (d := c.wordStored k w) rfl hg rfl x n

/-- What a write of word 0 with ARM submits. -/
def State.written (s : State) (n k : Fin 64) (w : Word) : Submit :=
  { desc := putFld ((s.cals[n]).streams[k]).wbuf 0 w, owner := 2, ctx := s.calCtx n }

section
variable {s : State} {n : Fin 64} (k : Fin 64) (w : Word) (hs : s.calShut n = false)
include hs

theorem streamArm_refused (hr : s.runsPlan n = true) :
    exec (.streamArm (.cal n k) w) s = .next (s.modCal n (fun c => { c with accessRefused := true })) := by
  simp only [exec, execStreamArm, State.stmShut, State.stmRefused, hs, hr]
  rfl

theorem streamArm_stores (hr : s.runsPlan n = false) (hw : bitAt w 26 = false) :
    exec (.streamArm (.cal n k) w) s = .next (s.modCal n (·.wordStored k w)) := by
  simp only [exec, execStreamArm, State.stmShut, State.stmRefused, hs, hr, hw]
  rfl

theorem streamArm_submits (hr : s.runsPlan n = false) (hw : bitAt w 26 = true) :
    exec (.streamArm (.cal n k) w) s = .next (s.modCal n (fun c => (c.wordStored k w).offered k (s.written n k w))) := by
  have hb : ((s.modCal n (·.wordStored k w)).stm (.cal n k)).wbuf = putFld ((s.cals[n]).streams[k]).wbuf 0 w := by
    simp only [State.stm]
    rw [State.modCal_at, wordStored_stream]
    rfl
  have e : exec (.streamArm (.cal n k) w) s = .next ((s.modCal n (·.wordStored k w)).submit (.cal n k)
      { desc := ((s.modCal n (·.wordStored k w)).stm (.cal n k)).wbuf, owner := 2, ctx := s.calCtx n }) := by
    simp only [exec, execStreamArm, State.stmShut, State.stmRefused, hs, hr, hw]
    rfl
  rw [e, hb, submit_cal, State.modCal_modCal]
  rfl

end

/-- What the SARM `q` of plan `p` submits. -/
def Plan.armed (p : Plan) (q : QInstr) (d : CWord) : Submit :=
  { desc := d, owner := 0, ctx := some p.ctx, plan := some p.handle, first := q.beat + saStart q.raw
    done := q.beat + saStart q.raw + saDone q.raw }

theorem exec_sarm {n : Fin 64} {s : State} {p : Plan} {q : QInstr} (hp : s.planOn n = some p) (hr : p.run = .running)
    (hq : (s.cals[n]).firstSarm p.beat = some q) : exec (.sarm n) s =
      .next (s.modCal n (fun c => ({ c with queue := c.queue.erase q } : Caldera).offered (Fin.ofNat 64 (saStream q.raw))
        (p.armed q (ofBytes 512 (mreadN (s.cals[n]).sram (saDesc q.raw) 64))))) := by
  simp only [exec, execSarm, hp, hr, hq, ne_eq, not_true_eq_false, if_false, submit_cal, State.modCal_modCal]
  rfl

/-! ### The end of an arming (R137) -/

/-- Of the state, only the regions differ. -/
def RegionsOnly (s t : State) : Prop := t = { s with regions := t.regions }

theorem RegionsOnly.trans {s t u : State} (h : RegionsOnly s t) (k : RegionsOnly t u) : RegionsOnly s u := by
  unfold RegionsOnly at *
  rw [k, h]

theorem RegionsOnly.foldl {α : Type} {f : State → α → State} (hf : ∀ s a, RegionsOnly s (f s a)) (l : List α) (s : State) :
    RegionsOnly s (l.foldl f s) := by
  induction l generalizing s with
  | nil => exact rfl
  | cons a l ih => exact (hf s a).trans (ih _)

/-- The gateways count the words of an arming in their own registers. -/
theorem armGateway_regionsOnly (s : State) (n k : Fin 64) : RegionsOnly s (s.armGateway n k) := by
  unfold State.armGateway
  extract_lets t words add dst s1
  have hadd : ∀ (s : State) (r : EpRef), RegionsOnly s (add s r) := by
    intro s r
    unfold add
    split <;> rfl
  have h1 : RegionsOnly s s1 := by
    unfold s1
    split
    · exact RegionsOnly.foldl hadd _ _
    · rfl
  clear_value s1
  split
  · split
    · exact h1.trans (hadd _ _)
    · exact h1
  · exact h1

/-- Slot `k` of a caldera at the end of its arming, its pool slots free. -/
def Caldera.armEnded (c : Caldera) (k : Fin 64) : Caldera :=
  { c with streams := vmod c.streams k Stream.finish, pool := c.pool.filter (fun q => q.owner != k.val) }

theorem armEnded_stream (c : Caldera) (k : Fin 64) : (c.armEnded k).streams[k] = (c.streams[k]).finish := vmod_get_same _ _ _

theorem armDone_cal {s : State} {n k : Fin 64} (h : ((s.cals[n]).streams[k]).cmd = none) : s.armDone (.cal n k) = s.modCal n (·.armEnded k) := by
  unfold State.armDone
  dsimp only [State.stm]
  rw [h]
  simp only [State.modStm, State.modCal_modCal]
  rfl

theorem exec_armingComplete {s : State} {n k : Fin 64} {t : Stream} (ht : t = (s.cals[n]).streams[k]) (hf : s.armFinished (.cal n k) = true)
    (hc : t.cmd = none) : exec (.armingComplete (.cal n k)) s =
      .next (match t.plan with
        | some h => ((s.armGateway n k).modCal n (·.armEnded k)).tryFinish h
        | none => (s.armGateway n k).modCal n (·.armEnded k)) := by
  have hcal : (s.armGateway n k).cals = s.cals := by rw [armGateway_regionsOnly]
  subst ht
  simp only [exec, execArmingComplete, hf, if_true, State.stm]
  rw [armDone_cal (by rw [hcal]; exact hc)]
  cases ((s.cals[n]).streams[k]).plan <;> rfl

theorem finish_idle {t : Stream} (h : t.shadow = none) : t.finish.st = .idle ∧ t.finish.gen = t.gen ∧ t.finish.genDone = t.gen := by
  unfold Stream.finish
  rw [h]
  exact ⟨rfl, rfl, rfl⟩

theorem finish_shadow {t : Stream} {d : CWord} (h : t.shadow = some d) : t.finish =
    { (t.activate (t.shadowSubmit d)) with genDone := t.gen, shadow := none, base := t.base + dTotal t.desc } := by
  unfold Stream.finish
  rw [h]

theorem finish_genDone (t : Stream) : t.finish.genDone = t.gen := by
  cases h : t.shadow with
  | none => exact (finish_idle h).2.2
  | some d => rw [finish_shadow h]

/-! ### STAGING_SLOT_FREE (R141) -/

theorem fin?_eq_some {n k : Nat} {i : Fin n} : fin? n k = some i ↔ k = i.val := by
  unfold fin?
  split
  · rw [Option.some.injEq, Fin.ext_iff]
  · exact ⟨nofun, fun h => by have := i.isLt; omega⟩

/-- The consumer of a record has not read all of it. -/
def Caldera.unread (c : Caldera) (q : PoolSlot) : Bool :=
  match fin? 64 q.owner with
  | some k => decide ((c.streams[k]).pos < q.pos + q.len)
  | none => false

theorem unread_iff {c : Caldera} {q : PoolSlot} : c.unread q = true ↔ ∃ k : Fin 64, q.owner = k.val ∧ (c.streams[k]).pos < q.pos + q.len := by
  unfold Caldera.unread
  cases h : fin? 64 q.owner with
  | none => exact ⟨nofun, fun ⟨k, hk, _⟩ => by rw [fin?_eq_some.2 hk] at h; cases h⟩
  | some k =>
    simp only [decide_eq_true_eq]
    refine ⟨fun hp => ⟨k, fin?_eq_some.1 h, hp⟩, fun ⟨j, hj, hp⟩ => ?_⟩
    obtain rfl := Option.some.inj (h.symm.trans (fin?_eq_some.2 hj))
    exact hp

theorem exec_stagingSlotFree (n : Fin 64) (i : Fin 256) (s : State) : exec (.stagingSlotFree n i) s =
    .next (s.modCal n (fun c => { c with pool := c.pool.filter (fun q => q.idx != i.val || c.unread q) })) := rfl

/-! ### The watchdog (R155) -/

/-- A view of a stream that a rewind keeps is kept by the abandon of passes. -/
theorem faultAbandon_view {α : Type} {view : Stream → α} (hv : ∀ t p, view (t.backTo p) = view t) (c : Caldera) (struck : Pass → Bool) (k : Fin 64) :
    view ((c.faultAbandon struck).streams[k]) = view (c.streams[k]) := by
  have hrw (ts : Vector Stream 64) (p : Pass) : view ((rewindStream ts p)[k]) = view (ts[k]) := by
    unfold rewindStream
    split
    · by_cases h : k = Fin.ofNat 64 (apDrainStream p.raw)
      · rw [← h, vmod_get_same, hv]
      · rw [vmod_get_ne _ _ _ _ h]
    · rfl
  have hrws (gone : List Pass) : ∀ ts : Vector Stream 64, view ((gone.foldl rewindStream ts)[k]) = view (ts[k]) := by
    induction gone with
    | nil => exact fun _ => rfl
    | cons p gone ih => exact fun ts => (ih _).trans (hrw ts p)
  obtain ⟨v, hva⟩ := ArrsOnly.foldl restoreGens_arrsOnly (c.passes.filter (fun p => (abandonSet c.passes struck).contains p.serial)).reverse c
  unfold Caldera.faultAbandon Caldera.abandon
  dsimp only
  rw [hva]
  exact hrws _ _

/-- A view of a stream that a rewind keeps shows the slot as its halt left it. -/
theorem haltStream_view {α : Type} {view : Stream → α} (hv : ∀ t p, view (t.backTo p) = view t) (s : State) (n k : Fin 64) (cause : Nat)
    (v : BitVec 21) : ∃ f : Caldera → Caldera, (s.haltStream (.cal n k) cause v).cals = vmod s.cals n f ∧
      view ((f s.cals[n]).streams[k]) = view (((s.cals[n]).haltSlot k cause v (s.savedPos (.cal n k))).streams[k]) := by
  have hglb (b : Prop) [Decidable b] (s1 : State) (f : Glb → Glb) : (if b then s1.modGlb f else s1).cals = s1.cals := by split <;> rfl
  unfold State.haltStream
  dsimp only
  split
  · rename_i heq _
    cases heq
    simp only [planStop_cals, State.modCal_cals, hglb, State.modStm, vmod_vmod]
    exact ⟨fun c => (c.haltSlot k cause v _).faultAbandon _, rfl, faultAbandon_view hv _ _ _⟩
  · simp only [stopWork_cals, hglb, State.modStm]
    exact ⟨fun c => c.haltSlot k cause v _, rfl, rfl⟩
  · simp only [hglb, State.modStm]
    exact ⟨fun c => c.haltSlot k cause v _, rfl, rfl⟩

/-- What a halt leaves of a slot for its restart. -/
def Stream.saved (t : Stream) : CWord × Nat := (t.desc, t.savePos)

theorem backTo_saved (t : Stream) (p : Nat) : (t.backTo p).saved = t.saved := by
  unfold Stream.backTo
  split <;> rfl

/-- A halted slot keeps its descriptor and notes where it starts again. -/
theorem haltStream_saved (s : State) (n k : Fin 64) (cause : Nat) (v : BitVec 21) :
    (((s.haltStream (.cal n k) cause v).cals[n]).streams[k]).saved = (((s.cals[n]).streams[k]).desc, s.savedPos (.cal n k)) := by
  obtain ⟨f, hf, hview⟩ := haltStream_view backTo_saved s n k cause v
  rw [hf, vmod_get_same, hview]
  exact congrArg Stream.saved (vmod_get_same _ _ _)

theorem report_raised (s : State) (ty : Nat) (pl : BitVec 1920) : Raised s (s.report ty pl) := by
  unfold State.report
  dsimp only
  split
  · exact ((sendTo_eventOnly _ _ _).trans (noteRouteDrop_eventOnly _)).raised
  · exact (sendTo_eventOnly _ _ _).raised

theorem planStop_sptFaultCnt (s : State) (h : PlanId) (why : StopReason) (cal : Nat) : (s.planStop h why cal).glb.sptFaultCnt = s.glb.sptFaultCnt := by
  have hnotice (s : State) (kind : BitVec 2) (f : BitVec 16) : (s.sendStopNotice kind f).glb.sptFaultCnt = s.glb.sptFaultCnt := by
    unfold State.sendStopNotice State.placeNotice
    split
    · split
      · rw [(forwardNotice_raised _ _ _).glb]
      · rfl
    · rw [(report_raised _ _ _).glb]
  have hheld (s : State) : (s.stopIfHeld h).glb.sptFaultCnt = s.glb.sptFaultCnt := by
    unfold State.stopIfHeld
    split
    · dsimp only
      split
      · rfl
      · split <;> rfl
    · rfl
  unfold State.planStop
  split
  · rfl
  · split
    · rfl
    · dsimp only
      split
      · exact hnotice _ _ _
      · exact hheld _

/-- A halt that is no page fault is not counted as one. -/
theorem haltStream_sptFaultCnt (s : State) (n k : Fin 64) {cause : Nat} (v : BitVec 21) (hc : ¬(cause = 1 ∨ cause = 2 ∨ cause = 5)) :
    (s.haltStream (.cal n k) cause v).glb.sptFaultCnt = s.glb.sptFaultCnt := by
  unfold State.haltStream
  dsimp only
  rw [if_neg hc]
  split
  · rw [planStop_sptFaultCnt]
    rename_i heq _
    cases heq
    rfl
  · rw [State.stopWork, completeTo_frame]
    rfl
  · rfl

theorem exec_streamWdog_halts {s : State} {r : SlotRef} (ha : (s.stm r).st = .active) (hl : (s.wdogLimit r).toNat ≤ (s.stm r).idle.toNat) :
    exec (.streamWdog r) s = .next (s.haltStream r 6 0) := if_pos ⟨by simp [State.counts, ha], hl⟩

theorem exec_streamWdog_runs {s : State} {r : SlotRef} (hl : (s.stm r).idle.toNat < (s.wdogLimit r).toNat) :
    exec (.streamWdog r) s = .next s := if_neg fun h => by omega

/-- Settles O20: each command as one update of its caldera. -/
theorem streamArmings : Obligations.StreamArmings := by
  unfold Obligations.StreamArmings
  refine ⟨fun n k s w t ht hs => ⟨streamArm_refused k w hs, streamArm_stores k w hs, fun hr hw => ?arm⟩,
    fun n s p q k d hp hr hq hk hd => ?sarm, fun n k s t ht hf hc => ?complete, fun r s h => ?idle, fun n i s => ?free,
    fun n k s ha hl => ?wdog, fun r s => exec_streamWdog_runs⟩
  case arm =>
    have hbad : descBad ((s.cals[n]).wordStored k w) k (s.written n k w).desc 1 = descBad (s.cals[n]) k (putFld t.wbuf 0 w) 1 := by
      rw [show (s.written n k w).desc = putFld t.wbuf 0 w by rw [ht]; rfl]
      exact wordStored_descBad _ _ _ _ _
    have hstm : ((s.cals[n]).wordStored k w).streams[k] = t.withWord w := by rw [wordStored_stream, ht]
    refine ⟨_, streamArm_submits k w hs hr hw, onlyCal_modCal _ _ _, ?_⟩
    rw [State.modCal_at, offered_stream, hbad, hstm]
    refine ⟨rfl, rfl, fun j hj => (offered_other _ _ hj).trans (vmod_get_ne _ _ _ _ hj), ?_, fun hb => if_pos hb, fun hb hi => ?_, fun hb hi hn => ?_,
      fun hb hi hn => ?_⟩
    · split
      · rfl
      · exact submit_wbuf _ _
    · rw [hb, if_neg (by decide), submit_idle (t := t.withWord w) _ hi]
      exact ⟨rfl, rfl, rfl, by rw [ht]; rfl, rfl, rfl⟩
    · rw [hb, if_neg (by decide), submit_shadow (t := t.withWord w) _ hi hn]
      exact ⟨by rw [ht]; rfl, rfl, rfl, rfl, rfl⟩
    · rw [hb, if_neg (by decide), submit_overrun (t := t.withWord w) _ hi hn]
      rfl
  case sarm =>
    subst hk hd
    refine ⟨_, exec_sarm hp hr hq, onlyCal_modCal _ _ _, ?_⟩
    rw [State.modCal_at, offered_stream]
    refine ⟨rfl, rfl, fun j hj => offered_other _ _ hj, fun hb => if_pos hb, fun hb hi => ?_⟩
    have hsub := submit_idle (p.armed q (ofBytes 512 (mreadN (s.cals[n]).sram (saDesc q.raw) 64))) hi
    rw [if_neg (by exact Bool.eq_false_iff.1 hb), hsub]
    exact ⟨rfl, rfl, rfl, rfl, rfl, rfl⟩
  case complete =>
    have hcal : (s.armGateway n k).cals = s.cals := by rw [armGateway_regionsOnly]
    refine ⟨_, exec_armingComplete ht hf hc, ?_, fun m hm => ?_, ?_⟩
    · rw [armGateway_regionsOnly]
      rfl
    · rw [State.modCal_other _ _ _ _ hm, hcal]
    · rw [State.modCal_at, hcal, armEnded_stream, ← ht]
      refine ⟨rfl, rfl, finish_genDone t, fun h => ?_, fun d h => ?_⟩
      · obtain ⟨hst, hgen, -⟩ := finish_idle h
        exact ⟨hst, hgen⟩
      · rw [finish_shadow h]
        exact ⟨rfl, rfl, rfl, rfl⟩
  case idle =>
    simp only [exec, execArmingComplete, h]
    rfl
  case free =>
    refine ⟨_, exec_stagingSlotFree n i s, onlyCal_modCal _ _ _, ?_⟩
    rw [State.modCal_at]
    refine ⟨rfl, rfl, fun q => ?_⟩
    rw [List.mem_filter, Bool.or_eq_true, bne_iff_ne, unread_iff]
    exact and_congr_right' (by rw [← imp_iff_not_or])
  case wdog =>
    obtain ⟨f, hf, hfate, -⟩ := haltStream_cals s n k 6 0
    obtain ⟨hst, hcause⟩ := Prod.mk.inj hfate
    obtain ⟨hdesc, hsave⟩ := Prod.mk.inj (haltStream_saved s n k 6 0)
    refine ⟨_, exec_streamWdog_halts ha hl, ?_, ?_, hsave, hdesc, haltStream_sptFaultCnt s n k 0 (by decide)⟩
    · rw [hf, vmod_get_same, hst]
    · rw [hf, vmod_get_same, hcause]
      rfl

end Sys2Proof.Machine
end

section
/-! Proofs of the statements about contexts and pages. -/

namespace Sys2Proof.Machine

/-! ### Commands that have no work to do -/

theorem withCmd_idle {s : State} {cmd : Nat} (h : ∀ k, s.findCmd cmd = some k → k.phase ≠ .started ∨ k.begun = true) (op : Nat) (f : Cmd → State) :
    s.withCmd cmd op f = .next s := by
  unfold State.withCmd
  split
  · rename_i k hk
    refine if_neg fun ⟨hp, _, hb⟩ => ?_
    rcases h k hk with h | h
    · exact h hp
    · rw [h] at hb
      exact Bool.noConfusion hb
  · rfl

theorem exec_idle {s : State} {cmd : Nat} (h : ∀ k, s.findCmd cmd = some k → k.phase ≠ .started ∨ k.begun = true) :
    ∀ c ∈ [Instr.nop cmd, .ctxCreate cmd, .ctxDestroy cmd, .mapPages cmd [], .unmapPages cmd, .loadPlan cmd [], .runPlan cmd [], .resume cmd,
      .copy cmd, .keyImport cmd [], .fabricDiscover cmd, .fabricRouteSet cmd [], .geyserSet cmd], exec c s = .next s := by
  simp only [List.forall_mem_cons, List.not_mem_nil, false_implies, implies_true, and_true]
  refine ⟨?_, ?_, ?_, ?_, ?_, ?_, ?_, ?_, ?_, ?_, ?_, ?_, ?_⟩ <;> exact withCmd_idle h _ _

/-! ### Contexts (R360, R362, R386) -/

/-- The partition that a CTX_CREATE names. -/
def Cmd.partIdx (k : Cmd) : Fin 8 := Fin.ofNat 8 (rnum k.packet 0x10 0 3)

section
/-! A started command. -/

variable {s : State} {cmd : Nat} {k : Cmd} (hk : s.findCmd cmd = some k) (hp : k.phase = .started) (hb : k.begun = false)
include hk hp hb

theorem exec_nop (ho : pkOpcode k.packet = 0x01) : exec (.nop cmd) s = .next (s.completeOk k.serial) :=
  withCmd_started s cmd 0x01 _ k hk hp hb ho

theorem exec_ctxCreate_waits (ho : pkOpcode k.packet = 0x10) (hr : (s.part k.partIdx).resetting = true) : exec (.ctxCreate cmd) s = .next s := by
  refine (withCmd_started s cmd 0x10 _ k hk hp hb ho).trans ?_
  exact congrArg Host.Outcome.next (if_pos hr)

theorem exec_ctxCreate_refused (ho : pkOpcode k.packet = 0x10) (hr : (s.part k.partIdx).resetting = false)
    (hbad : (s.part k.partIdx).valid = false ∨ 16 ≤ (s.ctxsOf k.partIdx).length ∨ (bitAt k.packet 131 = true ∧ s.cp.ideActive = false)) :
    exec (.ctxCreate cmd) s = .next (s.badParam k.serial 8 0x10) := by
  refine (withCmd_started s cmd 0x10 _ k hk hp hb ho).trans ?_
  refine congrArg Host.Outcome.next ((if_neg (Bool.eq_false_iff.1 hr)).trans (if_pos ?_))
  rw [Bool.not_eq_true', Bool.not_eq_true']
  exact hbad

/-- A context without confidentiality takes the save area that its partition reserves; none in ember mode. -/
theorem exec_ctxCreate_adds (ho : pkOpcode k.packet = 0x10) (hr : (s.part k.partIdx).resetting = false) (hv : (s.part k.partIdx).valid = true)
    (hn : (s.ctxsOf k.partIdx).length < 16) (hc : bitAt k.packet 131 = false) {s1 : State} {area : List (Fin 8 × Nat)}
    (ha : (if s.cp.ember = true then some (s, []) else s.reserveArea (s.part k.partIdx)) = some (s1, area)) : exec (.ctxCreate cmd) s =
      .next ((s1.putCtx (pkCtx k.packet) { part := k.partIdx, conf := false, xtsKey := 0, saveArea := area, ember := s.cp.ember }).completeOk k.serial) := by
  refine (withCmd_started s cmd 0x10 _ k hk hp hb ho).trans ?_
  have hok : ¬((!(s.part k.partIdx).valid) = true ∨ 16 ≤ (s.ctxsOf k.partIdx).length ∨ bitAt k.packet 131 = true ∧ (!s.cp.ideActive) = true) := by
    rw [hv, hc]
    simp
    omega
  refine congrArg Host.Outcome.next ((if_neg (Bool.eq_false_iff.1 hr)).trans ((if_neg hok).trans ?_))
  unfold Cmd.partIdx at ha
  rw [ha]
  dsimp only
  rw [hc]
  rfl

theorem exec_ctxDestroy_again (ho : pkOpcode k.packet = 0x11) (hs : ((s.ctx (pkCtx k.packet)).map (·.scrubbing)).getD false = true) :
    exec (.ctxDestroy cmd) s = .next (s.complete k.serial 0x40 0 0 0) := by
  refine (withCmd_started s cmd 0x11 _ k hk hp hb ho).trans ?_
  exact congrArg Host.Outcome.next (if_pos hs)

theorem exec_ctxDestroy_scrubs (ho : pkOpcode k.packet = 0x11) (hs : ((s.ctx (pkCtx k.packet)).map (·.scrubbing)).getD false = false) :
    exec (.ctxDestroy cmd) s = .next ((s.begin k.serial).beginScrub [pkCtx k.packet] none (some k.serial)) := by
  refine (withCmd_started s cmd 0x11 _ k hk hp hb ho).trans ?_
  exact congrArg Host.Outcome.next (if_neg (Bool.eq_false_iff.1 hs))

/-! ### Pages (R148) -/

theorem exec_mapPages {l : List DWord} (ho : pkOpcode k.packet = 0x20) (hl : l.length = rnum k.packet 0x14 0 17) :
    (∀ i, mapScan s (pkCtx k.packet) 0 (rnum k.packet 0x10 0 21) s.mappedFrames l = some i →
      exec (.mapPages cmd l) s = .next (s.badData k.serial 8 (8 * i))) ∧
    (mapScan s (pkCtx k.packet) 0 (rnum k.packet 0x10 0 21) s.mappedFrames l = none →
      exec (.mapPages cmd l) s = .next (({ s with spt := mapWrite s.spt (rnum k.packet 0x10 0 21) l }).completeOk k.serial)) := by
  refine ⟨fun i hi => ?_, fun hn => ?_⟩
  · refine (withCmd_started s cmd 0x20 _ k hk hp hb ho).trans (congrArg Host.Outcome.next ?_)
    rw [if_neg (not_not.2 hl), hi]
  · refine (withCmd_started s cmd 0x20 _ k hk hp hb ho).trans (congrArg Host.Outcome.next ?_)
    rw [if_neg (not_not.2 hl), hn]

/-- The state with the entries of an UNMAP_PAGES gone and the command begun. -/
def State.unmapped (s : State) (k : Cmd) : State :=
  { (s.modCmd k.serial (fun c => { c with begun := true, released := (s.spt.filter (fun x => inRange k.packet x.1)).filterMap (fun x => spFrame x.2) })) with
    spt := s.spt.filter (fun x => !inRange k.packet x.1) }

theorem exec_unmapPages (ho : pkOpcode k.packet = 0x21) : exec (.unmapPages cmd) s = .next (s.unmapped k) :=
  withCmd_started s cmd 0x21 _ k hk hp hb ho

end

theorem modCmd_cmds (s : State) (serial : Nat) (f : Cmd → Cmd) :
    (s.modCmd serial f).cp.cmds = s.cp.cmds.map (fun k => if k.serial = serial then f k else k) := rfl

/-- Every command with the serial number of one that has begun has begun. -/
theorem unmapped_begun {s : State} {k c : Cmd} (hc : c ∈ (s.unmapped k).cp.cmds) (hs : c.serial = k.serial) : c.begun = true := by
  have hc : c ∈ (s.modCmd k.serial (fun c => { c with begun := true, released := _ })).cp.cmds := hc
  rw [modCmd_cmds, List.mem_map] at hc
  obtain ⟨d, -, rfl⟩ := hc
  by_cases h : d.serial = k.serial
  · rw [if_pos h]
  · rw [if_neg h] at hs
    exact absurd hs h

theorem exec_unmapDrainDone {s : State} {cmd : Nat} {k : Cmd} (hk : s.findCmd cmd = some k) (hp : k.phase = .started)
    (ho : pkOpcode k.packet = 0x21) (hb : k.begun = true) : exec (.unmapDrainDone cmd) s =
      if s.pagesBusy k.packet = true then .next s else .next ((k.released.foldl State.zeroFrame s).completeOk k.serial) := by
  simp only [exec, execUnmapDrainDone, hk, hp, ho, hb]
  cases s.pagesBusy k.packet <;> rfl

/-- With no command outstanding, a scrub that begins changes the SEC block alone: its contexts are SCRUBBING and it is due. -/
theorem beginScrub_sec {s : State} (ctxs : List Byte) (part : Option (Fin 8)) (cmd : Option Nat) (h : s.cp.cmds = []) :
    ∃ (u : State) (x : Scrub), s.beginScrub ctxs part cmd = u ∧ u = { s with sec := u.sec } ∧ u.sec.scrubs = s.sec.scrubs ++ [x]
      ∧ x.ctxs = ctxs ∧ x.part = part ∧ x.cmd = cmd ∧ ∀ i c, (i, c) ∈ u.sec.ctxs → (∃ b ∈ ctxs, b.toNat = i) → c.scrubbing = true := by
  unfold State.beginScrub
  dsimp only
  rw [abortAll_nil]
  · refine ⟨_, _, rfl, rfl, rfl, rfl, rfl, rfl, fun i c hc hb => ?_⟩
    simp only [State.modSec_sec, List.mem_map] at hc
    obtain ⟨x, -, hx⟩ := hc
    obtain ⟨rfl, rfl⟩ := Prod.mk.inj hx
    obtain ⟨b, hm, hbx⟩ := hb
    have hany : ctxs.any (fun i => i.toNat == x.1) = true := List.any_eq_true.2 ⟨b, hm, beq_iff_eq.2 hbx⟩
    rw [if_pos hany]
  · exact h

/-- Settles O44, command by command: what each answers, and for CTX_DESTROY and UNMAP_PAGES what it leaves due. -/
theorem contextAndPageCommands : Obligations.ContextAndPageCommands := by
  unfold Obligations.ContextAndPageCommands
  refine ⟨fun cmd s h => exec_idle h, fun cmd k s hk hp hb => ⟨exec_nop hk hp hb, exec_ctxCreate_waits hk hp hb,
      fun ho hr => ⟨exec_ctxCreate_refused hk hp hb ho hr, fun hv hn hc he => ?_, fun s1 area hv hn hc he ha => ?_⟩,
      exec_ctxDestroy_again hk hp hb, exec_ctxDestroy_scrubs hk hp hb, fun l ho hl => exec_mapPages hk hp hb ho hl,
      fun ho => ⟨_, exec_unmapPages hk hp hb ho, rfl, rfl, rfl, fun c => unmapped_begun⟩⟩,
    fun cmd k s hk hp ho hb => ⟨fun h => ?_, fun h => ?_⟩, fun s ctxs part cmd h => beginScrub_sec ctxs part cmd h⟩
  · rw [exec_ctxCreate_adds hk hp hb ho hr hv hn hc (if_pos he), he]
    rfl
  · rw [exec_ctxCreate_adds hk hp hb ho hr hv hn hc ((if_neg (Bool.eq_false_iff.1 he)).trans ha), he]
    rfl
  · rw [exec_unmapDrainDone hk hp ho hb, if_pos h]
  · rw [exec_unmapDrainDone hk hp ho hb, if_neg (Bool.eq_false_iff.1 h)]

end Sys2Proof.Machine
end

section
/-! Proofs of the statements about BAR 4 and the DOE mailbox. -/

namespace Sys2Proof.Machine

/-! ### The length and the parts of a BAR 4 access (R263, R298) -/

theorem bar4Read_wellFormed_iff (off : Word) (len : Nat) (io : HostIO) (fails : List BlockFail) :
    (Instr.bar4Read off len io fails).wellFormed = true ↔ 0 < len ∧ len ≤ 4096 := by simp [Instr.wellFormed]

theorem bar4Write_wellFormed_iff (off : Word) (b : List Byte) (fails : List BlockFail) :
    (Instr.bar4Write off b fails).wellFormed = true ↔ 0 < b.length ∧ b.length ≤ 4096 := by simp [Instr.wellFormed]

theorem exec_bar4Read_illFormed {len : Nat} (off : Word) (io : HostIO) (fails : List BlockFail) (s : State) (h : ¬(0 < len ∧ len ≤ 4096)) :
    exec (.bar4Read off len io fails) s = .fault .illFormed := by
  rw [← bar4Read_wellFormed_iff off len io fails, Bool.not_eq_true] at h
  exact if_pos (by rw [h]; rfl)

theorem exec_bar4Write_illFormed {b : List Byte} (off : Word) (fails : List BlockFail) (s : State) (h : ¬(0 < b.length ∧ b.length ≤ 4096)) :
    exec (.bar4Write off b fails) s = .fault .illFormed := by
  rw [← bar4Write_wellFormed_iff off b fails, Bool.not_eq_true] at h
  exact if_pos (by rw [h]; rfl)

/-- An access that stays in one page has one part. -/
theorem bar4Parts_inPage {s : State} {off : Word} {len : Nat} (write : Bool) (h0 : 0 < len) (h : s.bar4Addr off % 524288 + len ≤ 524288) :
    s.bar4Parts off len write = [(s.bar4Xlate (s.bar4Addr off) write, len)] := by
  have hm : min len (pageBytes - s.bar4Addr off % pageBytes) = len := by unfold pageBytes; omega
  simp only [State.bar4Parts, pageParts, hm, Nat.sub_self, if_neg (Nat.pos_iff_ne_zero.1 h0), if_true, List.map_cons, List.map_nil]

/-- With the window disabled the first part of an access fails with RANGE. -/
theorem firstFault_disabled {s : State} {len : Nat} (off : Word) (write : Bool) (h0 : 0 < len) (he : s.cp.bar4En = false) :
    firstFault (s.bar4Parts off len write) = some (5, BitVec.ofNat 21 (s.bar4Addr off / 524288)) := by
  have hx : s.bar4Xlate (s.bar4Addr off) write = .fault 5 (BitVec.ofNat 21 (s.bar4Addr off / 524288)) := if_pos (by rw [he]; rfl)
  simp only [State.bar4Parts, pageParts, if_neg (Nat.pos_iff_ne_zero.1 h0), List.map_cons, hx, firstFault]

theorem bar4Addr_lt (s : State) (off : Word) : s.bar4Addr off < 2 ^ 40 := by
  have hb := s.cp.bar4Base.isLt
  have ho := off.isLt
  unfold State.bar4Addr
  omega

/-- An access to a host page of the window's context goes to the page's host address with its attributes. -/
theorem bar4Xlate_host {s : State} {a : Nat} {e : DWord} {write : Bool} (ha : a < 2 ^ 40) (hen : s.cp.bar4En = true)
    (hc : s.ctxConf s.cp.bar4Ctx = false) (he : e = tget (0 : DWord) s.spt (a / 524288)) (hp : spP e = true) (hx : spCtx e = s.cp.bar4Ctx)
    (hh : spHost e = true) (hw : (if write then spW e else spR e) = true) :
    s.bar4Xlate a write = .host (spPage e + a % 524288) (spEnc e) (bitAt e 6) (bitAt e 7) := by
  have hxl := xlate_page (s := s) (ctx := some s.cp.bar4Ctx) (a := (a : Int)) (write := write) (e := e) (by omega) (by omega) he
  rw [if_neg (by rw [hp]; decide), if_neg (not_not.2 (by rw [hx])), if_neg (by rw [hw]; decide), if_pos hh, Int.toNat_natCast] at hxl
  unfold State.bar4Xlate
  dsimp only
  rw [if_neg (by rw [hen]; decide), if_neg (by rw [hc]; decide), hxl]

theorem bar4Fails_recorded {s : State} {c : Nat} {v : BitVec 21} (h : s.cp.bar4Fail = true) : s.bar4Fails c v = s := if_pos h

theorem bar4Fails_first {s : State} {c : Nat} {v : BitVec 21} (h : s.cp.bar4Fail = false) : s.bar4Fails c v =
    s.modCp (fun x => { x with bar4Fail := true, bar4Cause := BitVec.ofNat 4 c, bar4Vpn := v }) := if_neg (by rw [h]; decide)

/-- The part of an access inside a host page of the window's context. -/
theorem bar4Parts_hostPage {s : State} {off : Word} {len : Nat} {write : Bool} {e : DWord} (h0 : 0 < len) (hen : s.cp.bar4En = true)
    (hc : s.ctxConf s.cp.bar4Ctx = false) (hin : s.bar4Addr off % 524288 + len ≤ 524288) (he : e = tget (0 : DWord) s.spt (s.bar4Addr off / 524288))
    (hp : bitAt e 0 = true) (hx : spCtx e = s.cp.bar4Ctx) (hh : nfld e 4 2 = 1) (hw : (if write then spW e else spR e) = true) :
    s.bar4Parts off len write = [(.host (spPage e + s.bar4Addr off % 524288) (spEnc e) (bitAt e 6) (bitAt e 7), len)] := by
  rw [bar4Parts_inPage write h0 hin, bar4Xlate_host (bar4Addr_lt s off) hen hc he hp hx (beq_iff_eq.2 hh) hw]

/-! ### Reads and writes of BAR 4 (R263) -/

section
/-! A read whose length an access can have. -/

variable {s : State} {off : Word} {len : Nat} (io : HostIO) (fails : List BlockFail) (h0 : 0 < len) (hl : len ≤ 4096)
include h0 hl

theorem exec_bar4Read_fails {c : Nat} {v : BitVec 21} (hf : firstFault (s.bar4Parts off len false) = some (c, v)) :
    exec (.bar4Read off len io fails) s = .next ((s.bar4Fails c v).emit (.readData (List.replicate len 0xFF))) := by
  have hwf := (bar4Read_wellFormed_iff off len io fails).2 ⟨h0, hl⟩
  simp only [exec, execBar4Read]
  rw [if_neg (by rw [hwf]; decide), hf]

theorem exec_bar4Read_device (hf : firstFault (s.bar4Parts off len false) = none) (hh : hostLen (s.bar4Parts off len false) = 0) :
    exec (.bar4Read off len io fails) s = .next (s.bar4Serve off len fails (s.bar4Parts off len false) []) := by
  have hwf := (bar4Read_wellFormed_iff off len io fails).2 ⟨h0, hl⟩
  simp only [exec, execBar4Read]
  rw [if_neg (by rw [hwf]; decide), hf]
  exact if_pos hh

theorem exec_bar4Read_host {b : List Byte} (hf : firstFault (s.bar4Parts off len false) = none) (hh : hostLen (s.bar4Parts off len false) ≠ 0)
    (hb : b.length = hostLen (s.bar4Parts off len false)) :
    exec (.bar4Read off len (.data b) fails) s = .next (s.bar4Serve off len fails (s.bar4Parts off len false) b) := by
  have hwf := (bar4Read_wellFormed_iff off len (.data b) fails).2 ⟨h0, hl⟩
  simp only [exec, execBar4Read]
  rw [if_neg (by rw [hwf]; decide), hf]
  exact (if_neg hh).trans (if_pos hb)

theorem exec_bar4Read_hostError (hf : firstFault (s.bar4Parts off len false) = none) (hh : hostLen (s.bar4Parts off len false) ≠ 0) :
    exec (.bar4Read off len .error fails) s =
      .next ((s.bar4Fails 4 (BitVec.ofNat 21 (s.bar4Addr off / 524288))).emit (.readData (List.replicate len 0xFF))) := by
  have hwf := (bar4Read_wellFormed_iff off len .error fails).2 ⟨h0, hl⟩
  simp only [exec, execBar4Read]
  rw [if_neg (by rw [hwf]; decide), hf]
  exact if_neg hh

end

section
variable {s : State} {off : Word} {b : List Byte} (fails : List BlockFail) (h0 : 0 < b.length) (hl : b.length ≤ 4096)
include h0 hl

theorem exec_bar4Write_fails {c : Nat} {v : BitVec 21} (hf : firstFault (s.bar4Parts off b.length true) = some (c, v)) :
    exec (.bar4Write off b fails) s = .next (s.bar4Fails c v) := by
  have hwf := (bar4Write_wellFormed_iff off b fails).2 ⟨h0, hl⟩
  simp only [exec, execBar4Write]
  rw [if_neg (by rw [hwf]; decide), hf]

theorem exec_bar4Write_puts {u : State} (hf : firstFault (s.bar4Parts off b.length true) = none)
    (hu : s.bar4Put fails (s.bar4Parts off b.length true) b = (u, true)) : exec (.bar4Write off b fails) s = .next u := by
  have hwf := (bar4Write_wellFormed_iff off b fails).2 ⟨h0, hl⟩
  simp only [exec, execBar4Write]
  rw [if_neg (by rw [hwf]; decide), hf]
  dsimp only
  rw [hu]
  rfl

/-- A read inside a host page is one request of the host, whose bytes answer it. -/
theorem exec_bar4Read_hostPage {x : Nat} {enc ns rlx : Bool} (hp : s.bar4Parts off b.length false = [(.host x enc ns rlx, b.length)]) :
    exec (.bar4Read off b.length (.data b) fails) s = .next ((s.emit (.read (BitVec.ofNat 64 x) b.length ns rlx)).emit (.readData b)) := by
  have hlen : hostLen (s.bar4Parts off b.length false) = b.length := by rw [hp]; rfl
  rw [exec_bar4Read_host fails h0 hl (by rw [hp]; rfl) (by omega) hlen.symm, hp]
  simp [State.bar4Serve, State.bar4Get]

theorem exec_bar4Write_hostPage {x : Nat} {enc ns rlx : Bool} (hp : s.bar4Parts off b.length true = [(.host x enc ns rlx, b.length)]) :
    exec (.bar4Write off b fails) s = .next (s.emit (.write (BitVec.ofNat 64 x) b ns rlx)) := by
  refine exec_bar4Write_puts fails h0 hl (by rw [hp]; rfl) ?_
  rw [hp]
  simp [State.bar4Put]

end

/-! ### Reads that get no completion (R147, R260), and the DOE mailbox (R264) -/

theorem exec_pcieCompletionTimeout {s : State} {r : SlotRef} {v : BitVec 21} (hd : s.demandOk (s.stm r) = true) (hh : s.hostRead r = some v) :
    exec (.pcieCompletionTimeout r) s = .next (s.haltStream r 4 v) := by
  simp only [exec, execPcieCompletionTimeout, hd, if_true, hh]

theorem demandOk_active {s : State} {t : Stream} (ha : t.st = .active) (hp : t.plan = none) : s.demandOk t = true := by
  simp [State.demandOk, ha, hp]

theorem hostRead_hostEnd {s : State} {r : SlotRef} (h : dSrcKind (s.stm r).desc = 3) : s.hostRead r = some 0 := if_pos h

theorem completeTo_streams (s : State) (serial : Nat) (ph : CmdPhase) (st : Nat) (d r0 : Word) (r1 : DWord) :
    (s.completeTo serial ph st d r0 r1).cp.streams = s.cp.streams := by
  unfold State.completeTo
  split <;> rfl

/-- A halted slot of the command processor. -/
theorem haltStream_cp (s : State) (i : Fin 32) (cause : Nat) (v : BitVec 21) :
    ((s.haltStream (.cp i) cause v).cp.streams[i]).fate = (.halted, BitVec.ofNat 4 cause) := by
  have hglb (b : Prop) [Decidable b] (s1 : State) (f : Glb → Glb) : (if b then s1.modGlb f else s1).cp = s1.cp := by split <;> rfl
  have hstr : (s.haltStream (.cp i) cause v).cp.streams = vmod s.cp.streams i (fun t =>
      { t with st := .halted, cause := BitVec.ofNat 4 cause, savePos := s.savedPos (.cp i), vpn := if causeHasVpn cause then v else t.vpn
               inBuf := [], outWords := [], epoch := t.epoch + 1 }) := by
    unfold State.haltStream
    dsimp only
    split
    · rename_i heq _
      cases heq
    · rw [State.stopWork, completeTo_streams, hglb]
      rfl
    · rw [hglb]
      rfl
  rw [hstr, vmod_get_same]
  rfl

theorem exec_doeMessage {o : List Byte} {s : State} (h : o.length ≤ 262144) : ∃ u a, exec (.doeMessage o) s = .next u
    ∧ u = { s with cp := u.cp, free := s.free + 1 } ∧ u.cp.out = s.cp.out ++ [.doe a] :=
  ⟨_, _, if_neg (by omega), rfl, rfl⟩

end Sys2Proof.Machine
end

section
/-! Proofs of the statements about the host's accesses of BAR0 and the fan-out unit. -/

namespace Sys2Proof.Machine

/-! ### The outcome of an access (R302) -/

theorem accessFail_glb (s : State) (bit : Nat) (a : Word) : (s.accessFail bit a).glb =
    if bitAt s.glb.accessErr 5 = true then { s.glb with accessErr := s.glb.accessErr ||| BitVec.twoPow 6 bit }
    else { s.glb with accessErr := s.glb.accessErr ||| BitVec.twoPow 6 bit ||| 0x20, accessAddr := a } := rfl

theorem accessFail_sets (s : State) {bit : Nat} (a : Word) (h : bit < 6) : (s.accessFail bit a).glb.accessErr.getLsbD bit = true := by
  have hb : (s.glb.accessErr ||| BitVec.twoPow 6 bit).getLsbD bit = true := by simp [h]
  rw [accessFail_glb]
  split
  · exact hb
  · rw [BitVec.getLsbD_or, hb, Bool.true_or]

theorem accessFail_addr {s : State} (bit : Nat) (a : Word) (h : bitAt s.glb.accessErr 5 = false) : (s.accessFail bit a).glb.accessAddr = a := by
  rw [accessFail_glb, if_neg (by rw [h]; decide)]

theorem accessFail_member (s : State) (bit : Nat) (a : Word) : (s.accessFail bit a).glb.fanoutMember = s.glb.fanoutMember := by
  rw [accessFail_glb]
  split <;> rfl

/-- What goes to the host: the status, and the data of a read. -/
theorem hostOutcome_out (s : State) (write : Bool) (a : Word) (n st : Nat) (x : BitVec 128) : (s.hostOutcome write a n st x).cp.out =
    s.cp.out ++ .accessStatus (BitVec.ofNat 8 st) :: if write then [] else
      [.readData (if st < 2 then toBytes x (4 * n) else List.replicate (4 * n) (if st = 0xF then 0xFF else 0))] := by
  unfold State.hostOutcome
  extract_lets s1 s2
  have h1 : s1.cp = s.cp := by
    unfold s1
    split
    · split <;> rfl
    · rfl
  cases write <;> simp [s2, h1]

/-- A read that is answered with WR_DROPPED records no failure of its own. -/
theorem hostOutcome_read_dropped (s : State) (a : Word) (n : Nat) (x : BitVec 128) : s.hostOutcome false a n 1 x =
    (s.emit (.accessStatus 1)).emit (.readData (toBytes x (4 * n))) := rfl

theorem hostOutcome_write_decode (s : State) (a : Word) (n : Nat) (x : BitVec 128) : s.hostOutcome true a n 3 x =
    (s.accessFail 1 a).emit (.accessStatus 3) := rfl

/-! ### The words of a request (R165) -/

theorem npLen_reqData {a n : Nat} (ws : BitVec 128) (ha : a < 2 ^ 32) (h0 : 0 < n) (hn : n ≤ 4) : npLen (reqData a n ws) = n := by
  have e : rfld (reqData a n ws) 4 12 2 = (natAt 256 44 (n - 1)).extractLsb' 44 2 := by
    simp only [rfld, reqData, BitVec.extractLsb'_or]
    rw [extractLsb'_natAt_below 256 0 a (8 * 4 + 12) 2 32 ha (by decide), extractLsb'_at_above 256 128 (8 * 4 + 12) 2 ws (by decide)]
    simp
  unfold npLen rnum
  rw [e, toNat_extractLsb'_natAt 256 44 (n - 1) 2 (by omega) (by decide)]
  omega

theorem npData_reqData {a n : Nat} (ws : BitVec 128) (ha : a < 2 ^ 32) (hn : n ≤ 4) : npData (reqData a n ws) = ws := by
  have hw : (at_ 256 128 ws).extractLsb' 128 128 = ws := by
    apply BitVec.eq_of_getLsbD_eq
    intro i hi
    simp [at_, hi, show 128 + i < 256 by omega]
  simp only [npData, rfld, reqData, BitVec.extractLsb'_or]
  rw [extractLsb'_natAt_below 256 0 a (8 * 0x10 + 0) 128 32 ha (by decide),
    extractLsb'_natAt_below 256 44 (n - 1) (8 * 0x10 + 0) 128 2 (by omega) (by decide), hw]
  simp

theorem npWords_reqData_one {a : Nat} (w : DWord) (ha : a < 2 ^ 32) : npWords (reqData a 1 (w.setWidth 128)) = [w.setWidth 32] := by
  unfold npWords
  rw [npLen_reqData _ ha (by decide) (by decide), npData_reqData _ ha (by decide)]
  have hw : (w.setWidth 128 : BitVec 128).extractLsb' 0 32 = w.setWidth 32 := by
    apply BitVec.eq_of_getLsbD_eq
    intro i hi
    simp [hi]
    omega
  exact congrArg (fun x => [x]) hw

theorem npLen_le (d : Data256) : npLen d ≤ 4 := Nat.succ_le_of_lt (rfld d 4 12 2).isLt

/-- All ones in `n` words are all ones in their bytes. -/
theorem toBytes_ones {n : Nat} (hn : n ≤ 4) : toBytes (BitVec.ofNat 128 (2 ^ (32 * n) - 1)) (4 * n) = List.replicate (4 * n) 0xFF := by
  unfold toBytes
  refine List.eq_replicate_iff.2 ⟨by simp, fun b hb => ?_⟩
  obtain ⟨i, hi, rfl⟩ := List.mem_map.1 hb
  rw [List.mem_range] at hi
  show _ = BitVec.allOnes 8
  apply BitVec.eq_of_getLsbD_eq
  intro j hj
  simp only [BitVec.getLsbD_extractLsb', BitVec.getLsbD_ofNat, Nat.testBit_two_pow_sub_one, BitVec.getLsbD_allOnes, hj]
  simp
  omega

/-! ### Accesses of the host (R261, R302) -/

theorem hostMay_iff (s : State) (a : Word) (z : AccessSize) :
    s.hostMay a z = true ↔ s.hostUp = true ∧ (z = .b32 ∧ a.toNat % 4 = 0 ∨ z = .b64 ∧ a.toNat % 8 = 0) := by
  cases z <;> simp [State.hostMay, accessBytes]

theorem hostMay_hostUp {s : State} {a : Word} {z : AccessSize} (h : s.hostMay a z = true) : s.hostUp = true := ((hostMay_iff s a z).1 h).1

theorem hostUp_portUp {s : State} (h : s.hostUp = true) : s.portUp = true := (Bool.and_eq_true_iff.1 h).1

theorem accessWords_eq (z : AccessSize) : accessWords z = if z = .b64 then 2 else 1 := by cases z <;> rfl

theorem registerWrite_dropped {s : State} {a : Word} {z : AccessSize} (v : DWord) (h : s.hostMay a z = false) :
    exec (.registerWrite a z v) s = .next s := if_neg (by simp [h])

theorem broadcastWrite_dropped {s : State} {a : Word} {z : AccessSize} (v : DWord) (h : s.hostMay a z = false ∨ fanAddr a.toNat = false) :
    exec (.broadcastWrite a z v) s = .next s := if_neg (by rcases h with h | h <;> simp [h])

theorem broadcastRead_down {s : State} (a : Word) (z : AccessSize) (h : s.portUp = false) : exec (.broadcastRead ⟨a, z⟩) s = .next s :=
  if_pos (by simp [h])

theorem broadcastRead_unsupported {s : State} {a : Word} {z : AccessSize} (hp : s.portUp = true) (h : s.hostMay a z = false) :
    exec (.broadcastRead ⟨a, z⟩) s = .next (s.emit .unsupported) := (if_neg (by simp [hp])).trans (if_neg (by simp [h]))

section
variable {s : State} {a : Word} {z : AccessSize} (h : s.hostMay a z = true)
include h

theorem registerWrite_access (v : DWord) : exec (.registerWrite a z v) s = s.hostAccess a false z v := if_pos h

theorem broadcastWrite_access (v : DWord) (hf : fanAddr a.toNat = true) : exec (.broadcastWrite a z v) s = s.hostAccess a false z v :=
  if_pos ⟨h, hf⟩

theorem broadcastRead_access : exec (.broadcastRead ⟨a, z⟩) s = s.hostAccess a true z 0 :=
  (if_neg (by simp [hostUp_portUp (hostMay_hostUp h)])).trans (if_pos h)

end

section
variable {s : State} {a : Word} (r : Bool) (z : AccessSize) (v : DWord)

theorem hostAccess_packet (hb : s.byPacket a.toNat = true) : s.hostAccess a r z v =
    exec (.nocRequest pcieNode 0 (if r then 0 else 1) (reqData a.toNat (accessWords z) (if r then 0 else v.setWidth 128))) s := if_pos hb

variable (hb : s.byPacket a.toNat = false)
include hb

theorem hostAccess_waits (hw : s.mustWait pcieNode (s.addrNode a.toNat) = true) : s.hostAccess a r z v = .next s :=
  (if_neg (by simp [hb])).trans (if_pos hw)

variable (hw : s.mustWait pcieNode (s.addrNode a.toNat) = false)
include hw

theorem hostAccess_fan_busy (hf : fanAddr a.toNat = true) (hj : s.fan.isSome = true) : s.hostAccess a r z v = .next s :=
  (if_neg (by simp [hb])).trans ((if_neg (by simp [hw])).trans ((if_pos hf).trans (if_pos hj)))

theorem hostAccess_fan (hf : fanAddr a.toNat = true) (hj : s.fan = none) : s.hostAccess a r z v =
    .next (s.fanStart true (mkHeader glbNode pcieNode (if r then 0 else 1) 0)
      (reqData a.toNat (accessWords z) (if r then 0 else v.setWidth 128)) []) :=
  (if_neg (by simp [hb])).trans ((if_neg (by simp [hw])).trans ((if_pos hf).trans (if_neg (by simp [hj]))))

theorem hostAccess_held (hf : fanAddr a.toNat = false) (hr : r = true ∧ s.readHeld (s.addrNode a.toNat) = true) : s.hostAccess a r z v = .next s :=
  (if_neg (by simp [hb])).trans ((if_neg (by simp [hw])).trans ((if_neg (by simp [hf])).trans (if_pos hr)))

theorem hostAccess_unit (hf : fanAddr a.toNat = false) (hr : r = false ∨ s.readHeld (s.addrNode a.toNat) = false) : s.hostAccess a r z v =
    .next (s.hostUnit a r (accessWords z) v) :=
  (if_neg (by simp [hb])).trans ((if_neg (by simp [hw])).trans ((if_neg (by simp [hf])).trans (if_neg (by rcases hr with hr | hr <;> simp [hr]))))

end

theorem reqData_value (a n : Nat) (v : DWord) : reqData a n (v.setWidth 128) = natAt 256 0 a ||| natAt 256 44 (n - 1) ||| at_ 256 128 v := by
  have h : at_ 256 128 (v.setWidth 128) = at_ 256 128 v := by
    have hv : ((v.setWidth 128 : BitVec 128).setWidth 256 : Data256) = v.setWidth 256 := by
      apply BitVec.eq_of_getLsbD_eq
      intro i hi
      rw [BitVec.getLsbD_setWidth, BitVec.getLsbD_setWidth, BitVec.getLsbD_setWidth]
      by_cases h : i < 128
      · rw [decide_eq_true h, Bool.true_and]
      · rw [BitVec.getLsbD_of_ge v i (by omega), Bool.and_false]
    unfold at_
    rw [hv]
  rw [reqData, h]

theorem reqData_zero (a n : Nat) : reqData a n 0 = natAt 256 0 a ||| natAt 256 44 (n - 1) := by simp [reqData, at_]

/-! ### Writes of one word (R302, R306) -/

/-- A register of the GLB block that stands takes a word written to it. -/
theorem winWrite_glb {s : State} {off : Nat} (who : Who) (w : Word) (h : (s.winRead .glb off).1 = 0) :
    s.winWrite who .glb off [w] = (0, s.glbWrite off w) := by
  unfold State.winWrite
  dsimp only
  rw [if_neg (by rw [h]; decide)]
  have hp : packetOrder .glb off ((List.range 1).zip [w]) = [(0, w)] := by
    have hb : bank off 0x4000 0x40 0 = none := if_neg (by omega)
    unfold packetOrder
    dsimp only
    rw [hb]
    rfl
  rw [show ([w] : List Word).length = 1 from rfl, hp]
  simp only [List.foldl_cons, List.foldl_nil, Nat.mul_zero, Nat.add_zero]
  rw [if_pos h]
  rfl

theorem winRead_glb {s : State} {off : Nat} (ho : s.winOpen .glb off = true) : s.winRead .glb off = answer (s.glbRead off) :=
  if_neg (by simp [ho])

theorem winOpen_glb {s : State} (off : Nat) (hp : 2 ≤ s.pwr.phase.toNat) (hl : s.sec.lifecycle ≠ 4) : s.winOpen .glb off = true := by
  unfold State.winOpen
  rw [if_neg (by omega), if_neg hl]
  split <;> rfl

theorem glbRead_scratch (s : State) : s.glbRead 0x40 = some s.glb.scratch := rfl

theorem hostUnit_word (s : State) (a : Word) (w : DWord) : s.hostUnit a false 1 w =
    ((s.writeAt .host a.toNat [w.setWidth 32]).2.hostOutcome true a 1 (s.writeAt .host a.toNat [w.setWidth 32]).1 0).afterWrite
      (s.writeAt .host a.toNat [w.setWidth 32]).1 a.toNat [w.setWidth 32] := by
  rw [← npWords_reqData_one w a.isLt]
  rfl

/-- GLB_SCRATCH takes the word, and the host its status. -/
theorem hostUnit_scratch {s : State} (w : DWord) (hu : s.hostUp = true) (hl : s.sec.lifecycle ≠ 4) :
    s.hostUnit 0x40 false 1 w = (s.modGlb (fun g => { g with scratch := w.setWidth 32 })).emit (.accessStatus 0) := by
  have hphase : 2 ≤ s.pwr.phase.toNat := by
    have := hostUp_portUp hu
    unfold State.portUp at this
    simp only [Bool.and_eq_true, decide_eq_true_eq] at this
    exact this.2
  have hr : (s.winRead .glb 0x40).1 = 0 := by
    rw [winRead_glb (winOpen_glb _ hphase hl), glbRead_scratch]
    rfl
  have hw : s.writeAt .host (0x40 : Word).toNat [w.setWidth 32] = (0, s.glbWrite 0x40 (w.setWidth 32)) := winWrite_glb .host _ hr
  rw [hostUnit_word, hw]
  rfl

/-- A write to an address outside every window is answered ERR_DECODE. -/
theorem hostUnit_decode {s : State} {a : Word} (n : Nat) (v : DWord) (h : winOf a.toNat = none) :
    s.hostUnit a false n v = (s.accessFail 1 a).emit (.accessStatus 3) := by
  have hw (ws : List Word) : s.writeAt .host a.toNat ws = (3, s) := by
    unfold State.writeAt
    rw [h]
  unfold State.hostUnit
  rw [if_neg (by decide)]
  dsimp only
  rw [hw, hostOutcome_write_decode]
  exact if_neg fun e => by cases e.2

theorem fanAddr_none {a : Nat} (h : winOf a = none) : fanAddr a = false := by
  unfold fanAddr
  rw [h]

/-! ### One access of the fan-out unit (R297 to R300) -/

/-- The access that the unit starts: no member has answered. -/
def fanJobOf (host : Bool) (h : Word) (d : Data256) (members : List (BitVec 9)) (now : Nat) : FanJob :=
  { host := host, hdr := h, data := d, members := members, waiting := members, status := 0, value := 0, since := now }

theorem fanStart_members {s : State} {win : Win} {off : Nat} {l : List Win} (host : Bool) (h : Word) {d : Data256} (lost : List Byte)
    (hw : winOf (npAddr d) = some (win, off)) (hm : s.members win = some l) (ho : s.winOpen win off = true) :
    s.fanStart host h d lost = (l.foldl (fanOne lost) (s, fanJobOf host h d (l.map Win.node) s.now)).1.fanSettle
      (l.foldl (fanOne lost) (s, fanJobOf host h d (l.map Win.node) s.now)).2 := by
  simp only [State.fanStart, hw, hm, ho]
  rfl

theorem fanOne_lost {lost : List Byte} {m : Win} (s : State) (j : FanJob) (h : lost.contains (BitVec.ofNat 8 m.index) = true) :
    fanOne lost (s, j) m = (s, j) := if_pos h

/-- The registers of a member answer its request. -/
theorem fanOne_registers {lost : List Byte} {m : Win} (s : State) {j : FanJob} (h : lost.contains (BitVec.ofNat 8 m.index) = false)
    (hu : userWin m (fanOffset j.data) = none) :
    fanOne lost (s, j) m = ((s.memberAccess j m).1, j.answered m.node (s.memberAccess j m).2.1 (s.memberAccess j m).2.2) := by
  simp only [fanOne]
  rw [if_neg (by rw [h]; decide), hu]

/-- A request to user registers that the gateway lets through waits for the logic. -/
theorem fanOne_logic {lost : List Byte} {m : Win} {s : State} {j : FanJob} {r : Fin 16} (h : lost.contains (BitVec.ofNat 8 m.index) = false)
    (hu : userWin m (fanOffset j.data) = some r) (hg : s.gatewayRefuses r j.hdr = none) :
    fanOne lost (s, j) m = (s.modRegion r (fun q => { q with rxq := q.rxq ++ [(j.hdr, j.data)] }), j) := by
  simp only [fanOne]
  rw [if_neg (by rw [h]; decide), hu]
  dsimp only
  rw [hg]

theorem memberAccess_foreign {s : State} {j : FanJob} {m : Win} (h : s.foreign (hdSrc j.hdr) m.node = true) : s.memberAccess j m = (s, 4, 0) :=
  if_pos h

theorem memberAccess_read {s : State} {j : FanJob} {m : Win} (h : s.foreign (hdSrc j.hdr) m.node = false) (hr : j.reads = true) :
    s.memberAccess j m = (s, s.unitRead m (fanOffset j.data) (npLen j.data)) := (if_neg (Bool.eq_false_iff.1 h)).trans (if_pos hr)

theorem memberAccess_write {s : State} {j : FanJob} {m : Win} (h : s.foreign (hdSrc j.hdr) m.node = false) (hr : j.reads = false) :
    s.memberAccess j m = ((s.winWrite (whoOf (hdSrc j.hdr)) m (fanOffset j.data) (npWords j.data)).2,
      (s.winWrite (whoOf (hdSrc j.hdr)) m (fanOffset j.data) (npWords j.data)).1, 0) :=
  (if_neg (Bool.eq_false_iff.1 h)).trans (if_neg (Bool.eq_false_iff.1 hr))

theorem fanSettle_waits {s : State} {j : FanJob} (h : j.waiting ≠ []) : s.fanSettle j = { s with fan := some j } :=
  if_neg (by rwa [List.isEmpty_iff])

theorem fanSettle_ends {s : State} {j : FanJob} (h : j.waiting = []) : s.fanSettle j = s.fanEnd j := if_pos (by rw [h]; rfl)

theorem fanEnd_host {s : State} {j : FanJob} (h : j.host = true) : s.fanEnd j =
    ({ s with fan := none } : State).hostOutcome (!j.reads) (BitVec.ofNat 32 (npAddr j.data)) (npLen j.data) j.status j.value := if_pos h

theorem fanEnd_packet {s : State} {j : FanJob} (h : j.host = false) : s.fanEnd j =
    ({ s with fan := none } : State).respond glbNode j.hdr j.data j.status j.value := if_neg (Bool.eq_false_iff.1 h)

theorem readHeld_iff (s : State) (m : BitVec 9) : s.readHeld m = true ↔ ∃ j, s.fan = some j ∧ j.reads = false ∧ m ∈ j.members ∧ m ∉ j.waiting := by
  unfold State.readHeld
  cases h : s.fan with
  | none => simp
  | some j => simp [and_assoc]

/-! ### Members that do not answer (R172, R300) -/

theorem exec_fanoutTimeout_expires {s : State} {j : FanJob} (a : Option Word) (lost : List Byte) (r : Bool) (z : AccessSize) (v : DWord)
    (hj : s.fan = some j) (ht : j.since + (s.noc[(0 : Fin 2)]).timeout.toNat / 2 ≤ s.now) :
    exec (.fanoutTimeout a lost r z v) s = .next (s.fanExpire j) := by
  simp only [exec, execFanoutTimeout, hj]
  exact if_pos ht

theorem exec_fanoutTimeout_runs {s : State} {j : FanJob} (a : Option Word) (lost : List Byte) (r : Bool) (z : AccessSize) (v : DWord)
    (hj : s.fan = some j) (ht : s.now < j.since + (s.noc[(0 : Fin 2)]).timeout.toNat / 2) :
    exec (.fanoutTimeout a lost r z v) s = .next s := by
  simp only [exec, execFanoutTimeout, hj]
  exact if_neg (Nat.not_le.2 ht)

theorem exec_fanoutTimeout_starts {s : State} {a : Word} {lost : List Byte} {r : Bool} {z : AccessSize} {v : DWord} {d : Data256} (hj : s.fan = none)
    (hm : s.hostMay a z = true) (hb : s.byPacket a.toNat = false) (hw : s.mustWait pcieNode (s.addrNode a.toNat) = false)
    (hd : d = reqData a.toNat (accessWords z) (if r then 0 else v.setWidth 128)) (hf : s.fanMeets lost d = true) :
    exec (.fanoutTimeout (some a) lost r z v) s = .next (s.fanStart true (mkHeader glbNode pcieNode (if r then 0 else 1) 0) d lost) := by
  have hstart : ¬((!s.hostMay a z) = true ∨ s.byPacket a.toNat = true ∨ s.mustWait pcieNode (s.addrNode a.toNat) = true ∨
      (!s.fanMeets lost d) = true) := by
    rw [hm, hb, hw, hf]
    decide
  rw [hd] at hstart ⊢
  simp only [exec, execFanoutTimeout, hj]
  exact if_neg hstart

theorem loseMember_out (s : State) (m : BitVec 9) : (s.loseMember m).cp = s.cp := rfl

theorem loseMember_glb (s : State) (m : BitVec 9) : (s.loseMember m).glb = if bitAt s.glb.accessErr 4 = true then s.glb else
    { s.glb with accessErr := s.glb.accessErr ||| 0x10, fanoutMember := BitVec.ofNat 8 (((nodeWin m).map Win.index).getD 0) } := rfl

theorem loseMember_bit (s : State) (m : BitVec 9) : bitAt (s.loseMember m).glb.accessErr 4 = true := by
  rw [loseMember_glb]
  split
  · assumption
  · simp only [bitAt, BitVec.getLsbD_or]
    rw [show (0x10 : BitVec 6).getLsbD 4 = true by decide, Bool.or_true]

/-- No write is lost with a read: the member's timer alone is drawn for. -/
theorem lostWrite_read (s : State) {j : FanJob} (m : BitVec 9) (hr : j.reads = true) : s.lostWrite j m = s.draw.2 := by
  unfold State.lostWrite
  dsimp only
  split
  · exact if_neg fun h => by simp [hr] at h
  · rfl

/-- The members of a read whose timers have run out are given up. -/
def State.lost (j : FanJob) (s : State) (l : List (BitVec 9)) : State := l.foldl (fun s m => (s.lostWrite j m).loseMember m) s

theorem lost_cons (j : FanJob) (s : State) (m : BitVec 9) (l : List (BitVec 9)) : s.lost j (m :: l) = ((s.lostWrite j m).loseMember m).lost j l := rfl

theorem lost_cp {j : FanJob} (hr : j.reads = true) (l : List (BitVec 9)) : ∀ s : State, (s.lost j l).cp = s.cp := by
  induction l with
  | nil => exact fun _ => rfl
  | cons m l ih => exact fun s => by rw [lost_cons, ih, loseMember_out, lostWrite_read s m hr, State.draw_cp]

/-- Once FANOUT_TIMEOUT is set, further members change nothing. -/
theorem lost_glb_set {j : FanJob} (hr : j.reads = true) (l : List (BitVec 9)) : ∀ s : State, bitAt s.glb.accessErr 4 = true → (s.lost j l).glb = s.glb := by
  induction l with
  | nil => exact fun _ _ => rfl
  | cons m l ih =>
    intro s h
    have hg : ((s.lostWrite j m).loseMember m).glb = s.glb := by
      rw [lostWrite_read s m hr, loseMember_glb, State.draw_glb, if_pos h]
    rw [lost_cons, ih _ (by rw [hg]; exact h), hg]

theorem lost_glb {j : FanJob} (hr : j.reads = true) (s : State) (m : BitVec 9) (l : List (BitVec 9)) :
    (s.lost j (m :: l)).glb = (s.loseMember m).glb := by
  rw [lost_cons, lost_glb_set hr l _ (loseMember_bit _ m), loseMember_glb, lostWrite_read s m hr, State.draw_glb, loseMember_glb]

/-- What is left of an access once its members are given up. -/
def FanJob.expired (j : FanJob) : FanJob :=
  { j with waiting := [], status := max 1 j.status, value := if j.reads then BitVec.ofNat 128 (2 ^ (32 * npLen j.data) - 1) else 0 }

theorem fanExpire_host {s : State} {j : FanJob} (h : j.host = true) :
    s.fanExpire j = ((s.lost j j.waiting).accessFail 4 (BitVec.ofNat 32 (npAddr j.data))).fanEnd j.expired := by
  unfold State.fanExpire
  dsimp only
  rw [if_pos h]
  rfl

/-- A host's read whose members are given up: WR_DROPPED with all ones, FANOUT_TIMEOUT and the access's address. -/
theorem fanExpire_hostRead {s : State} {j : FanJob} (hh : j.host = true) (hr : j.reads = true) (hs : j.status ≤ 1) :
    s.fanExpire j = ((({ ((s.lost j j.waiting).accessFail 4 (BitVec.ofNat 32 (npAddr j.data))) with fan := none } : State).emit
      (.accessStatus 1)).emit (.readData (List.replicate (4 * npLen j.data) 0xFF))) := by
  have hx : j.expired.reads = true := hr
  have hst : j.expired.status = 1 := Nat.max_eq_left hs
  have hv : j.expired.value = BitVec.ofNat 128 (2 ^ (32 * npLen j.data) - 1) := if_pos hr
  rw [fanExpire_host hh, fanEnd_host (by exact hh), hx, hst, hv, Bool.not_true, hostOutcome_read_dropped]
  exact congrArg (State.emit _ <| .readData ·) (toBytes_ones (npLen_le _))

/-- The answer to such a read, and the first of its members in FANOUT_MEMBER. -/
theorem fanExpire_hostRead_first {s : State} {j : FanJob} {m : BitVec 9} {rest : List (BitVec 9)} (hw : j.waiting = m :: rest) (hh : j.host = true)
    (hr : j.reads = true) (hs : j.status ≤ 1) : (s.fanExpire j).fan = none ∧ (s.fanExpire j).glb.accessErr.getLsbD 4 = true ∧
      (bitAt s.glb.accessErr 4 = false → (s.fanExpire j).glb.fanoutMember = BitVec.ofNat 8 (((nodeWin m).map Win.index).getD 0)) ∧
      (s.fanExpire j).cp.out = s.cp.out ++ [.accessStatus 1, .readData (List.replicate (4 * npLen j.data) 0xFF)] := by
  rw [fanExpire_hostRead hh hr hs]
  refine ⟨rfl, accessFail_sets _ _ (by decide), fun hb => ?_, ?_⟩
  · refine (accessFail_member _ _ _).trans ?_
    rw [hw, lost_glb hr, loseMember_glb, if_neg (by rw [hb]; decide)]
  · have hcp : (s.lost j j.waiting).cp.out = s.cp.out := by rw [lost_cp hr]
    show ((s.lost j j.waiting).cp.out ++ [_]) ++ [_] = _
    rw [hcp, List.append_assoc]
    rfl

/-! ### The accesses of BAR0, clause by clause -/

/-- A host access that is admitted: the packet, the wait, the unit and the fan-out unit. -/
theorem hostAccess_cases {s : State} {a : Word} {z : AccessSize} (v : DWord) {n : Nat} (hm : s.hostMay a z = true) (hn : n = accessWords z) :
    (s.byPacket a.toNat = true →
      exec (.registerWrite a z v) s = exec (.nocRequest pcieNode 0 1 (natAt 256 0 a.toNat ||| natAt 256 44 (n - 1) ||| at_ 256 128 v)) s
      ∧ exec (.broadcastRead ⟨a, z⟩) s = exec (.nocRequest pcieNode 0 0 (natAt 256 0 a.toNat ||| natAt 256 44 (n - 1))) s) ∧
    (s.byPacket a.toNat = false → s.mustWait pcieNode (s.addrNode a.toNat) = true →
      exec (.registerWrite a z v) s = .next s ∧ exec (.broadcastRead ⟨a, z⟩) s = .next s) ∧
    (s.byPacket a.toNat = false → s.mustWait pcieNode (s.addrNode a.toNat) = false → fanAddr a.toNat = false →
      exec (.registerWrite a z v) s = .next (s.hostUnit a false n v)
      ∧ (s.readHeld (s.addrNode a.toNat) = true → exec (.broadcastRead ⟨a, z⟩) s = .next s)
      ∧ (s.readHeld (s.addrNode a.toNat) = false → exec (.broadcastRead ⟨a, z⟩) s =
          .next (s.hostOutcome false a n (s.readAt a.toNat n).1 (s.readAt a.toNat n).2))) ∧
    (s.byPacket a.toNat = false → s.mustWait pcieNode (s.addrNode a.toNat) = false → fanAddr a.toNat = true →
      (s.fan.isSome = true → exec (.broadcastWrite a z v) s = .next s ∧ exec (.broadcastRead ⟨a, z⟩) s = .next s) ∧
      (s.fan = none → exec (.broadcastWrite a z v) s =
          .next (s.fanStart true (mkHeader glbNode pcieNode 1 0) (reqData a.toNat n (v.setWidth 128)) [])
        ∧ exec (.broadcastRead ⟨a, z⟩) s = .next (s.fanStart true (mkHeader glbNode pcieNode 0 0) (reqData a.toNat n 0) []))) := by
  subst hn
  rw [registerWrite_access hm, broadcastRead_access hm]
  refine ⟨fun hb => ?_, fun hb hw => ?_, fun hb hw hf => ?_, fun hb hw hf => ?_⟩
  · rw [← reqData_value, ← reqData_zero]
    exact ⟨hostAccess_packet false z v hb, hostAccess_packet true z 0 hb⟩
  · exact ⟨hostAccess_waits _ _ _ hb hw, hostAccess_waits _ _ _ hb hw⟩
  · exact ⟨hostAccess_unit _ _ _ hb hw hf (.inl rfl), fun hr => hostAccess_held _ _ _ hb hw hf ⟨rfl, hr⟩,
      fun hr => hostAccess_unit _ _ _ hb hw hf (.inr hr)⟩
  · rw [broadcastWrite_access hm v hf]
    exact ⟨fun hj => ⟨hostAccess_fan_busy _ _ _ hb hw hf hj, hostAccess_fan_busy _ _ _ hb hw hf hj⟩,
      fun hj => ⟨hostAccess_fan _ _ _ hb hw hf hj, hostAccess_fan _ _ _ hb hw hf hj⟩⟩

/-- A word written to GLB_SCRATCH by the host. -/
theorem registerWrite_scratch {s : State} (w : DWord) (hu : s.hostUp = true) (hl : s.sec.lifecycle ≠ 4) (hb : s.byPacket 0x40 = false)
    (hw : s.mustWait pcieNode (s.addrNode 0x40) = false) :
    exec (.registerWrite 0x40 .b32 w) s = .next ((s.modGlb (fun g => { g with scratch := w.setWidth 32 })).emit (.accessStatus 0)) := by
  have ha : (0x40 : Word).toNat = 0x40 := rfl
  have hm : s.hostMay 0x40 .b32 = true := (hostMay_iff s _ _).2 ⟨hu, .inl ⟨rfl, rfl⟩⟩
  have hf : fanAddr (0x40 : Word).toNat = false := by
    rw [ha]
    decide
  rw [← ha] at hb hw
  rw [registerWrite_access hm, hostAccess_unit false .b32 w hb hw hf (.inl rfl), ← hostUnit_scratch w hu hl]
  rfl

/-- A word written to an address outside every window. -/
theorem registerWrite_decode {s : State} {a : Word} (v : DWord) (hm : s.hostMay a .b32 = true) (ha : winOf a.toNat = none)
    (hb : s.byPacket a.toNat = false) (hw : s.mustWait pcieNode (s.addrNode a.toNat) = false) :
    exec (.registerWrite a .b32 v) s = .next ((s.accessFail 1 a).emit (.accessStatus 3)) := by
  rw [registerWrite_access hm, hostAccess_unit _ _ _ hb hw (fanAddr_none ha) (.inl rfl), hostUnit_decode _ v ha]

/-- Settles O48: BAR 4 through the parts of an access, BAR0 through the cases of an admitted access and the fan-out unit's job. -/
theorem hostAccesses : Obligations.HostAccesses := by
  unfold Obligations.HostAccesses
  refine ⟨⟨?_, ?_, ?_, ?_, ?_, ?_, ?_⟩, ?_, ?_, ?_, ?_, ?_, ?_, ?_, ?_, ?_, ?_, ?_, ?_⟩
  · intro off len io fails s
    refine ⟨exec_bar4Read_illFormed off io fails s, fun h0 hl => ⟨fun c v hf => ?_, fun hf hh => ?_, fun b hf hh hb => ?_, fun hf hh => ?_, fun he => ?_⟩⟩
    · exact exec_bar4Read_fails io fails h0 hl hf
    · exact exec_bar4Read_device io fails h0 hl hf hh
    · exact exec_bar4Read_host fails h0 hl hf hh hb
    · exact exec_bar4Read_hostError fails h0 hl hf hh
    · exact firstFault_disabled off false h0 he
  · intro off b fails s a e h0 hl hen hc ha hin he hp hx hh
    obtain rfl : a = s.bar4Addr off := ha
    exact ⟨fun hr => exec_bar4Read_hostPage fails h0 hl (bar4Parts_hostPage h0 hen hc hin he hp hx hh hr),
      fun hw => exec_bar4Write_hostPage fails h0 hl (bar4Parts_hostPage h0 hen hc hin he hp hx hh hw)⟩
  · intro off bytes fails s
    exact ⟨exec_bar4Write_illFormed off fails s,
      fun h0 hl => ⟨fun c v hf => exec_bar4Write_fails fails h0 hl hf, fun u hf hu => exec_bar4Write_puts fails h0 hl hf hu⟩⟩
  · exact fun c v s => ⟨bar4Fails_recorded, bar4Fails_first⟩
  · exact fun r s v hd hh => exec_pcieCompletionTimeout hd hh
  · intro i s ha hp hk
    obtain ⟨hst, hcause⟩ := Prod.mk.inj (haltStream_cp s i 4 0)
    exact ⟨_, exec_pcieCompletionTimeout (r := .cp i) (demandOk_active ha hp) (hostRead_hostEnd hk), rfl, hst, hcause⟩
  · exact fun o s => ⟨fun h => if_pos h, exec_doeMessage⟩
  · intro a z v s
    refine ⟨hostMay_iff s a z, fun h => ⟨registerWrite_dropped v h, broadcastWrite_dropped v (.inl h)⟩, broadcastRead_down a z,
      broadcastRead_unsupported, fun _ hf => broadcastWrite_dropped v (.inr hf), fun h hf => ?_, fun n h hn => ?_⟩
    · rw [broadcastWrite_access h v hf, registerWrite_access h]
    · exact hostAccess_cases v h (hn.trans (accessWords_eq z).symm)
  · exact fun w s hu hl hb hw => ⟨_, registerWrite_scratch w hu hl hb hw, rfl, rfl⟩
  · exact fun a v s hm ha hb hw => ⟨_, registerWrite_decode v hm ha hb hw, accessFail_sets s a (by decide), accessFail_addr 1 a, rfl⟩
  · intro a n x s _
    refine ⟨hostOutcome_out s false a n 0 x, fun st hst => ?_, hostOutcome_out s false a n 0xF x⟩
    rcases hst with rfl | rfl <;> exact hostOutcome_out s false a n _ x
  · exact fun host h d lost s win off l hw hm ho => ⟨_, fanStart_members host h lost hw hm ho, rfl, rfl, rfl, rfl, rfl, rfl, rfl, rfl⟩
  · intro lost s j m
    refine ⟨fanOne_lost s j, fun hl hu => ⟨fun hf => ?_, fun hf hr => ?_, fun hf hr r hw => ?_⟩, fun r hl hu hg => fanOne_logic hl hu hg⟩
    · rw [fanOne_registers s hl hu, memberAccess_foreign hf]
    · rw [fanOne_registers s hl hu, memberAccess_read hf hr]
    · rw [fanOne_registers s hl hu, memberAccess_write hf hr, hw]
  · exact fun _ _ _ _ => rfl
  · exact fun s j => ⟨fanSettle_waits, fun h hh => (fanSettle_ends h).trans (fanEnd_host hh), fun h hh => (fanSettle_ends h).trans (fanEnd_packet hh)⟩
  · exact readHeld_iff
  · exact fun a lost r z v s j hj => ⟨exec_fanoutTimeout_expires a lost r z v hj, exec_fanoutTimeout_runs a lost r z v hj⟩
  · intro a lost r z v s d hj hm hb hw hd hf
    rw [← accessWords_eq] at hd
    exact exec_fanoutTimeout_starts hj hm hb hw hd hf
  · exact fun s j m rest hw hh hr hs => ⟨_, rfl, fanExpire_hostRead_first hw hh hr hs⟩

end Sys2Proof.Machine
end

section
/-! Proof of the statement about the routes and the requests of the control network. -/

namespace Sys2Proof.Machine

/-! ### Fields of a record put together from parts -/

theorem extractLsb'_at_same (m lo : Nat) {k : Nat} (v : BitVec k) (h : lo + k ≤ m) : (at_ m lo v).extractLsb' lo k = v := by
  apply BitVec.eq_of_getLsbD_eq
  intro i hi
  simp [at_, hi, show lo + i < m by omega]

/-- A part leaves a field above its end 0. -/
theorem extractLsb'_at_below (m lo s k : Nat) {j : Nat} (v : BitVec j) (h : lo + j ≤ s) : (at_ m lo v).extractLsb' s k = 0 := by
  apply BitVec.eq_of_getLsbD_eq
  intro i hi
  simp [at_, hi, BitVec.getLsbD_of_ge v (s + i - lo) (by omega)]

/-- A number that fits a field is placed as that field's word. -/
theorem natAt_eq_at (m lo k : Nat) {v : Nat} (h : v < 2 ^ k) : natAt m lo v = at_ m lo (BitVec.ofNat k v) := by
  apply BitVec.eq_of_toNat_eq
  simp [natAt, at_, Nat.shiftLeft_eq, Nat.mod_eq_of_lt h]

/-- A field that a replaced one does not meet. -/
theorem extractLsb'_putFld_apart {n m : Nat} (w : BitVec n) (lo : Nat) (v : BitVec m) (s k : Nat) (hn : s + k ≤ n)
    (h : s + k ≤ lo ∨ lo + m ≤ s) : (putFld w lo v).extractLsb' s k = w.extractLsb' s k := by
  apply BitVec.eq_of_getLsbD_eq
  intro i hi
  simp only [BitVec.getLsbD_extractLsb', hi, decide_true, Bool.true_and]
  rw [getLsbD_putFld _ _ _ _ (by omega), if_neg (by omega)]

theorem extractLsb'_putFld_same {n m : Nat} (w : BitVec n) (lo : Nat) (v : BitVec m) (hn : lo + m ≤ n) :
    (putFld w lo v).extractLsb' lo m = v := by
  apply BitVec.eq_of_getLsbD_eq
  intro i hi
  rw [BitVec.getLsbD_extractLsb', getLsbD_putFld _ _ _ _ (by omega), if_pos (by omega)]
  simp [hi]

/-! ### Packets (R163 to R165) -/

theorem mkHeader_fields (dst src : BitVec 9) {kind : Nat} (e : BitVec 13) (hk : kind < 16) :
    hdDst (mkHeader dst src kind e) = dst ∧ hdSrc (mkHeader dst src kind e) = src ∧ hdType (mkHeader dst src kind e) = kind
      ∧ hdAge (mkHeader dst src kind e) = 0 := by
  have hw : kind < 2 ^ 4 := hk
  simp (disch := omega) only [hdDst, hdSrc, hdType, hdAge, fld, nfld, mkHeader, natAt_eq_at 32 18 4 hw, BitVec.extractLsb'_or,
    extractLsb'_at_above, extractLsb'_at_below, extractLsb'_at_same]
  simp [Nat.mod_eq_of_lt hk]

theorem rspData_fields (tag : BitVec 10) {words status : Nat} (v : BitVec 128) (h0 : 0 < words) (h4 : words ≤ 4) (hs : status < 256) :
    npTag (rspData tag words status v) = tag ∧ npLen (rspData tag words status v) = words
      ∧ npStatus (rspData tag words status v) = status ∧ npData (rspData tag words status v) = v := by
  have hw : (words - 1) % 4 < 2 ^ 2 := by omega
  have hs' : status < 2 ^ 8 := hs
  simp (disch := omega) only [npTag, npLen, npStatus, npData, rnum, rfld, rspData, natAt_eq_at 256 44 2 hw, natAt_eq_at 256 64 8 hs',
    BitVec.extractLsb'_or, extractLsb'_at_above, extractLsb'_at_below, extractLsb'_at_same]
  simp
  omega

/-- The data of a request with its tag put in. -/
theorem tagged_fields (d : Data256) (tag : BitVec 10) :
    npTag (putFld d 32 tag) = tag ∧ npAddr (putFld d 32 tag) = npAddr d ∧ npData (putFld d 32 tag) = npData d := by
  refine ⟨extractLsb'_putFld_same d 32 tag (by decide), ?_, ?_⟩
  · exact congrArg BitVec.toNat (extractLsb'_putFld_apart d 32 tag 0 32 (by decide) (by decide))
  · exact extractLsb'_putFld_apart d 32 tag 128 128 (by decide) (by decide)

/-! ### Interfaces -/

theorem iface_congr {s t : State} (h : t.ifaces = s.ifaces) (n : BitVec 9) : t.iface n = s.iface n :=
  congrArg (fun x => tget ({} : Iface) x n.toNat) h

@[simp] theorem modIface_iface (s : State) (n : BitVec 9) (f : Iface → Iface) : (s.modIface n f).iface n = f (s.iface n) :=
  (tget_tput _ _ _ _ _).trans (if_pos rfl)

@[simp] theorem modIface_noc (s : State) (n : BitVec 9) (f : Iface → Iface) : (s.modIface n f).noc = s.noc := rfl
@[simp] theorem injectPkt_iface (s : State) (n m : BitVec 9) (h : Word) (d : Data256) : (s.injectPkt n h d).iface m = s.iface m := rfl
@[simp] theorem modNoc_iface (s : State) (die : Bool) (f : NocDie → NocDie) (m : BitVec 9) : (s.modNoc die f).iface m = s.iface m := rfl

/-! ### Routes (R162, R166) -/

theorem nodeX_lt (n : BitVec 9) : nodeX n < 8 := (n.extractLsb' 2 3).isLt
theorem nodeY_lt (n : BitVec 9) : nodeY n < 8 := (n.extractLsb' 5 3).isLt

theorem rtTarget_lt {i : Nat} {n : BitVec 9} (h : rtTarget i = some n) : i < 0x87 := by
  by_contra hc
  have : rtTarget i = none := by simp (disch := omega) only [rtTarget, if_neg]
  rw [this] at h
  cases h

/-- A node with a fixed route index has one. -/
theorem nodeIndex_of_rtTarget {i : Nat} {n : BitVec 9} (h : rtTarget i = some n) : nodeIndex n = some i := by
  have hall : ∀ i < 0x87, (rtTarget i).all (fun n => nodeIndex n == some i) = true := by decide +kernel
  have := hall i (rtTarget_lt h)
  rw [h] at this
  exact beq_iff_eq.1 this

theorem laneNode_isNode : ∀ die < 2, ∀ lane < 8, isNode (laneNode die lane) = true := by decide +kernel

theorem rtReset_fields {i : Nat} {n : BitVec 9} (h : rtTarget i = some n) :
    fld (rtReset i) 0 9 = n ∧ bitAt (rtReset i) 9 = false ∧ nfld (rtReset i) 10 3 = nodeX n := by
  have hx : nodeX n < 2 ^ 3 := nodeX_lt n
  have hr : rtReset i = at_ 13 0 n ||| at_ 13 10 (BitVec.ofNat 3 (nodeX n)) := by
    simp only [rtReset, h, natAt_eq_at 13 10 3 hx]
  rw [hr]
  refine ⟨?_, ?_, ?_⟩
  · simp (disch := omega) only [fld, BitVec.extractLsb'_or, extractLsb'_at_same, extractLsb'_at_above]
    exact BitVec.or_zero
  · simp [bitAt, at_]
  · simp (disch := omega) only [nfld, BitVec.extractLsb'_or, extractLsb'_at_same, extractLsb'_at_below]
    simpa using hx

theorem tfind_getD {α : Type} (d : α) (t : Tbl α) (k : Nat) : (tfind t k).getD d = tget d t k := by
  induction t with
  | nil => rfl
  | cons e t ih =>
    obtain ⟨j, v⟩ := e
    by_cases h : j = k
    · simp [tfind, tget, h]
    · simp [tfind, tget, h, ih]

theorem writeRt_rtEntry (s : State) (i : Nat) (v : BitVec 13) (j : Nat) :
    (s.writeRt i v).rtEntry j = if j = i then v else s.rtEntry j := by
  simp only [State.rtEntry, State.writeRt, tfind_getD]
  by_cases hv : v = rtReset i
  · rw [if_pos hv, tget_tdel]
    by_cases hj : j = i
    · simp only [hj, hv, if_true]
    · simp only [hj, if_false]
  · rw [if_neg hv, tget_tput]

/-! ### Tags (R170) -/

/-- A search that ends on a tag in use has passed only tags in use. -/
theorem used_of_freeTag_used {i : Iface} {n : Nat} {t : BitVec 10} (h : i.freeTag n t ∈ i.used) (k : Nat) (hk : k ≤ n) :
    t + BitVec.ofNat 10 k ∈ i.used := by
  induction n generalizing t k with
  | zero =>
    obtain rfl : k = 0 := by omega
    simpa [Iface.freeTag] using h
  | succ n ih =>
    have ht : t ∈ i.used := by
      by_contra hc
      simp [Iface.freeTag, hc] at h
    have h' : i.freeTag n (t + 1) ∈ i.used := by simpa [Iface.freeTag, ht] using h
    cases k with
    | zero => simpa using ht
    | succ k =>
      have := ih h' k (by omega)
      rwa [show t + BitVec.ofNat 10 (k + 1) = t + 1 + BitVec.ofNat 10 k by rw [BitVec.ofNat_add, BitVec.add_assoc, BitVec.add_comm (BitVec.ofNat 10 k)]; rfl]

/-- With a tag to spare the search among all tags finds a free one. -/
theorem freeTag_unused {i : Iface} (t : BitVec 10) (h : i.used.length < 1024) : i.freeTag 1024 t ∉ i.used := by
  intro hu
  have hall (b : BitVec 10) : b ∈ i.used := by
    have := used_of_freeTag_used hu (b - t).toNat (by omega)
    rwa [BitVec.ofNat_toNat, BitVec.setWidth_eq, add_sub_cancel] at this
  have hle := (((List.nodup_finRange 1024).map (f := BitVec.ofFin (w := 10)) fun _ _ e => congrArg BitVec.toFin e).subperm
    (fun b _ => hall b)).length_le
  rw [List.length_map, List.length_finRange] at hle
  omega

/-! ### Requests (R164, R170, R172, R173) -/

/-- A request that leaves an interface under a tag: the interface keeps it, and its packet waits at the leaf. -/
def State.launch (s : State) (node dst : BitVec 9) (tag : BitVec 10) (h : Word) (d : Data256) : State :=
  (s.modIface node (fun i =>
    { i with nextTag := tag + 1, out := i.out ++ [{ tag := tag, dst := dst, hdr := h, data := d, since := s.now }] })).injectPkt node h d

/-- The route index by which a request is sent: its address selects it for a register access. -/
def routeOf (route k : Nat) (data : Data256) : Option Nat := if k < 2 then addrRoute (npAddr data) else some route

theorem issueNoc_refused {node : BitVec 9} {route k : Nat} (s : State) (data : Data256) (hk : 2 ≤ k) (h : injectionRefused node k route = true) :
    s.issueNoc node route k data = .ended 4 (s.modNoc (nodeDie node) (fun d => { d with dropCnt := satInc d.dropCnt, refusedInj := true })) := by
  have hsel : (if k < 2 then addrRoute (npAddr data) else some route) = some route := if_neg (by omega)
  unfold State.issueNoc
  dsimp only
  rw [hsel]
  exact if_pos h

section
variable {s : State} {node : BitVec 9} {route k r : Nat} {data : Data256} (hs : routeOf route k data = some r)
  (hr : injectionRefused node k r = false)
include hs hr

/-- A reserved route index. -/
theorem issueNoc_reserved (hlt : r < 0xC0) (ht : rtTarget r = none) : s.issueNoc node route k data = .ended 3 s := by
  unfold routeOf at hs
  unfold State.issueNoc
  dsimp only
  rw [hs]
  exact (if_neg (by simp [hr])).trans (if_pos (.inl ⟨hlt, by rw [ht]; rfl⟩))

variable (hd : isNode (fld (s.rtEntry r) 0 9) = true) (hok : r < 0xC0 ∧ (rtTarget r).isSome = true ∨ 0xC0 ≤ r ∧ k = 4)
include hd hok

/-- A request whose route names a node: it fails for want of tags, waits, or leaves. -/
theorem issueNoc_routed : s.issueNoc node route k data =
    if 1016 < (s.iface node).used.length then
      .ended 0xF (s.modNoc (nodeDie node) (fun d => { d with tagExhaust := true, timeoutCnt := satInc d.timeoutCnt }))
    else if s.mustWait node (fld (s.rtEntry r) 0 9) then .waits
    else .sent ((s.iface node).freeTag 1024 (s.iface node).nextTag)
      (s.launch node (fld (s.rtEntry r) 0 9) ((s.iface node).freeTag 1024 (s.iface node).nextTag)
        (mkHeader (fld (s.rtEntry r) 0 9) node k (s.rtEntry r))
        (putFld data 32 ((s.iface node).freeTag 1024 (s.iface node).nextTag))) := by
  have hgood : ¬((r < 0xC0 ∧ (rtTarget r).isNone) ∨ (0xC0 ≤ r ∧ k ≠ 4) ∨ !isNode (fld (s.rtEntry r) 0 9)) := by
    rw [hd]
    rintro (⟨hlt, hn⟩ | ⟨hge, hk⟩ | h)
    · rcases hok with ⟨_, hsome⟩ | ⟨hge, _⟩
      · rw [Option.isNone_iff_eq_none.1 hn] at hsome
        cases hsome
      · omega
    · rcases hok with ⟨hlt, _⟩ | ⟨_, h4⟩
      · omega
      · exact hk h4
    · cases h
  have htag : (1024 - (s.iface node).used.length < 8) = (1016 < (s.iface node).used.length) := propext (by omega)
  unfold routeOf at hs
  unfold State.issueNoc
  dsimp only
  rw [hs]
  dsimp only
  rw [if_neg (by simp [hr]), if_neg hgood]
  simp only [htag]
  rfl

end

section
variable {s : State} {node : BitVec 9} {route : BitVec 8} {kind : BitVec 4} {data : Data256}

theorem exec_nocRequest_quiet (h : s.quietNode node = true) : exec (.nocRequest node route kind data) s = .next s :=
  if_pos (.inr (.inr h))

variable (hk : kind.toNat ≠ 8) (hn : (nodeIndex node).isSome = true) (hq : s.quietNode node = false)
include hk hn hq

theorem exec_nocRequest_issues : exec (.nocRequest node route kind data) s =
    match s.issueNoc node route.toNat kind.toNat data with
    | .waits => .next s
    | .ended status t =>
      .next (t.finishReq node (t.iface node).nextTag kind.toNat (npAddr data) (npLen data) status (rspData 0 (npLen data) status 0))
    | .sent _ t => .next t := by
  refine if_neg ?_
  rintro (h | h | h)
  · exact hk (by rw [h]; rfl)
  · rw [Option.isNone_iff_eq_none.1 h] at hn
    cases hn
  · rw [hq] at h
    cases h

theorem exec_nocRequest_waits (h : s.issueNoc node route.toNat kind.toNat data = .waits) : exec (.nocRequest node route kind data) s = .next s := by
  rw [exec_nocRequest_issues hk hn hq, h]

theorem exec_nocRequest_sent {tag : BitVec 10} {t : State} (h : s.issueNoc node route.toNat kind.toNat data = .sent tag t) :
    exec (.nocRequest node route kind data) s = .next t := by
  rw [exec_nocRequest_issues hk hn hq, h]

/-- A request that completes at once, and is no register access, leaves its status with its interface. -/
theorem exec_nocRequest_ended {status : Nat} {t : State} (h2 : 2 ≤ kind.toNat)
    (h : s.issueNoc node route.toNat kind.toNat data = .ended status t) : ∃ tag v,
    exec (.nocRequest node route kind data) s = .next (t.modIface node (fun i => { i with done := i.done ++ [(tag, BitVec.ofNat 8 status, v)] })) := by
  refine ⟨(t.iface node).nextTag, rspData 0 (npLen data) status 0, ?_⟩
  rw [exec_nocRequest_issues hk hn hq, h]
  exact congrArg Host.Outcome.next (if_neg fun hc => absurd hc.2 (by omega))

end

theorem mustWait_iff (s : State) (n dst : BitVec 9) :
    s.mustWait n dst = true ↔ 8 ≤ (s.iface n).out.length ∨ ∃ q ∈ (s.iface n).out, s.keepsBack q dst = true := by
  simp [State.mustWait]

/-- The packet and the request of a launch that has a tag to spare. -/
theorem launch_effect {s : State} {n dst : BitVec 9} {tag : BitVec 10} (k : BitVec 4) (e : BitVec 13) (d : Data256)
    (ht : tag ∉ (s.iface n).used) :
    ∃ (u : State) (p : NPkt) (q : NReq), s.launch n dst tag (mkHeader dst n k.toNat e) (putFld d 32 tag) = u
        ∧ u = { s with mesh := s.mesh ++ [p], ifaces := u.ifaces }
        ∧ (u.iface n).out = (s.iface n).out ++ [q] ∧ (u.iface n).rxq = (s.iface n).rxq ∧ (u.iface n).nextTag = q.tag + 1
        ∧ q.tag ∉ (s.iface n).used ∧ q.dst = dst ∧ q.sent = false ∧ q.hdr = p.hdr ∧ q.data = p.data
        ∧ hdDst p.hdr = dst ∧ hdSrc p.hdr = n ∧ hdType p.hdr = k.toNat ∧ hdAge p.hdr = 0 ∧ npTag p.data = q.tag
        ∧ npAddr p.data = npAddr d ∧ npData p.data = npData d ∧ p.port = 5 ∧ p.die = nodeDie n
        ∧ p.x.val = nodeX n ∧ p.y.val = nodeY n := by
  obtain ⟨hdst, hsrc, htype, hage⟩ := mkHeader_fields dst n e k.isLt
  obtain ⟨htag, haddr, hdata⟩ := tagged_fields d tag
  refine ⟨_, ⟨mkHeader dst n k.toNat e, putFld d 32 tag, nodeDie n, Fin.ofNat 8 (nodeX n), Fin.ofNat 8 (nodeY n), 5, 0⟩,
    ⟨tag, dst, mkHeader dst n k.toNat e, putFld d 32 tag, s.now, false, false⟩, rfl, rfl, ?_, ?_, ?_, ht, rfl, rfl, rfl, rfl, hdst, hsrc, htype,
    hage, htag, haddr, hdata, rfl, rfl, Nat.mod_eq_of_lt (nodeX_lt n), Nat.mod_eq_of_lt (nodeY_lt n)⟩
  · simp [State.launch]
  · simp [State.launch]
  · simp [State.launch]

/-- Settles O23: the routes by the table of fixed targets, and a request by what its interface does with it. -/
theorem nocRequestsAndRoutes : Obligations.NocRequestsAndRoutes := by
  unfold Obligations.NocRequestsAndRoutes
  refine ⟨⟨by decide, by decide, fun die lane hd hl => laneNode_isNode die hd lane hl, fun i n _ h => rtReset_fields h, fun i j n hi hj => ?_⟩,
    ⟨fun die i w s h => ⟨s.writeRt i.toNat (fld w 0 13), if_neg (by simp [State.serving, h]), rfl, ?_, fun j hj => ?_⟩,
      fun die s h => if_neg (by simp [State.serving, h])⟩,
    fun n route k d s r dst hk hn hr hs hdst => ⟨exec_nocRequest_quiet, fun hq hnode hok hu => ⟨fun hlen hfree => ?_, fun hwait => ?_⟩⟩,
    fun n route k d s h2 hk hn hq hr => ?_, fun n route k d s h2 hk hn hq hr hlt ht => ?_,
    fun n route k d s h2 hk hn hq hr hlt ht hnode hu => ?_⟩
  · exact Option.some.inj ((nodeIndex_of_rtTarget hi).symm.trans (nodeIndex_of_rtTarget hj))
  · exact (writeRt_rtEntry _ _ _ _).trans (if_pos rfl)
  · exact (writeRt_rtEntry _ _ _ _).trans (if_neg hj)
  · have hnw : s.mustWait n dst = false := by
      rw [Bool.eq_false_iff, Ne, mustWait_iff]
      rintro (h | ⟨q, hq, h⟩)
      · omega
      · rw [hfree q hq] at h
        cases h
    subst hdst
    have hi := issueNoc_routed hs hr hnode (hok.imp_right (And.imp_right (congrArg BitVec.toNat)))
    rw [if_neg (by omega), hnw] at hi
    rw [exec_nocRequest_sent hk hn hq hi]
    obtain ⟨u, p, q, hu, h⟩ := launch_effect k (s.rtEntry r) d (freeTag_unused (s.iface n).nextTag (i := s.iface n) (by omega))
    exact ⟨u, p, q, congrArg _ hu, h⟩
  · subst hdst
    have hi := issueNoc_routed hs hr hnode (hok.imp_right (And.imp_right (congrArg BitVec.toNat)))
    rw [if_neg (by omega), if_pos ((mustWait_iff _ _ _).2 hwait)] at hi
    exact exec_nocRequest_waits hk hn hq hi
  · obtain ⟨tag, v, h⟩ := exec_nocRequest_ended hk hn hq h2 (issueNoc_refused s d h2 hr)
    exact ⟨_, h, rfl, by simp, by simp, _, by simp; rfl, rfl⟩
  · obtain ⟨tag, v, h⟩ := exec_nocRequest_ended hk hn hq h2 (issueNoc_reserved (if_neg (by omega)) hr hlt ht)
    exact ⟨_, h, rfl, _, by simp; rfl, rfl⟩
  · have hi := issueNoc_routed (data := d) (if_neg (by omega)) hr hnode (.inl ⟨hlt, ht⟩)
    rw [if_pos hu] at hi
    obtain ⟨tag, v, h⟩ := exec_nocRequest_ended hk hn hq h2 hi
    exact ⟨_, h, rfl, by simp, _, by simp; rfl, rfl⟩

end Sys2Proof.Machine
end

section
/-! Proof of the statement about the hops of the control network. -/

namespace Sys2Proof.Machine

/-! ### Ports (R167) -/

theorem aim_lt (p : NPkt) : p.aim.1 < 8 ∧ p.aim.2.1 < 8 := by
  unfold NPkt.aim
  split
  · exact ⟨nodeX_lt _, nodeY_lt _⟩
  · exact ⟨(p.hdr.extractLsb' 29 3).isLt, Nat.zero_lt_succ 7⟩

/-- A productive port leads toward the router that the packet aims at. -/
theorem productive_cases {p : NPkt} {port : Nat} (h : p.productive = some port) :
    port = 0 ∧ p.aim.2.1 < p.y.val ∨ port = 1 ∧ p.y.val < p.aim.2.1 ∨ port = 2 ∧ p.aim.1 < p.x.val ∨ port = 3 ∧ p.x.val < p.aim.1 := by
  unfold NPkt.productive at h
  extract_lets x y t col row at h
  have hcol (h : col = some port) : port = 2 ∧ t.1 < x ∨ port = 3 ∧ x < t.1 := by
    unfold col at h
    split_ifs at h with h1 h2
    · exact .inl ⟨(Option.some.inj h).symm, h1⟩
    · exact .inr ⟨(Option.some.inj h).symm, h2⟩
  have hrow (h : row = some port) : port = 0 ∧ t.2.1 < y ∨ port = 1 ∧ y < t.2.1 := by
    unfold row at h
    split_ifs at h with h1 h2
    · exact .inl ⟨(Option.some.inj h).symm, h1⟩
    · exact .inr ⟨(Option.some.inj h).symm, h2⟩
  have hone : col = some port ∨ row = some port := by
    split at h
    · exact ((Option.orElse_eq_some _ _ _).1 h).symm.imp_left And.right
    · exact ((Option.orElse_eq_some _ _ _).1 h).imp_right And.right
  rcases hone with h | h
  · exact .inr (.inr (hcol h))
  · exact (hrow h).imp_right .inl

theorem productive_mem_meshPorts {p : NPkt} {port : Nat} (h : p.productive = some port) : port ∈ meshPorts p.x.val p.y.val := by
  obtain ⟨hx, hy⟩ := aim_lt p
  rcases productive_cases h with ⟨rfl, hlt⟩ | ⟨rfl, hlt⟩ | ⟨rfl, hlt⟩ | ⟨rfl, hlt⟩
  · simp [meshPorts]; omega
  · simp [meshPorts]; omega
  · simp [meshPorts]; omega
  · simp [meshPorts]; omega

theorem productive_off_target {p : NPkt} {port : Nat} (h : p.productive = some port) : ¬(p.x.val = p.aim.1 ∧ p.y.val = p.aim.2.1) := by
  rcases productive_cases h with ⟨_, hlt⟩ | ⟨_, hlt⟩ | ⟨_, hlt⟩ | ⟨_, hlt⟩ <;> omega

/-- The hops between two coordinates. -/
def apart (a b : Nat) : Nat := max (a - b) (b - a)

theorem apart_pred {a : Nat} {i : Fin 8} (h : a < i.val) : apart a (i - 1).val + 1 = apart a i.val := by
  have : (i - 1).val = i.val - 1 := by omega
  unfold apart
  omega

theorem apart_succ {a : Nat} {i : Fin 8} (h : i.val < a) (ha : a < 8) : apart a (i + 1).val + 1 = apart a i.val := by
  have : (i + 1).val = i.val + 1 := by omega
  unfold apart
  omega

/-- A productive hop brings the packet one hop nearer. -/
theorem through_nearer {p : NPkt} {port : Nat} (h : p.productive = some port) :
    apart p.aim.1 (p.through port).x.val + apart p.aim.2.1 (p.through port).y.val + 1 = apart p.aim.1 p.x.val + apart p.aim.2.1 p.y.val := by
  obtain ⟨hx, hy⟩ := aim_lt p
  rcases productive_cases h with ⟨rfl, hlt⟩ | ⟨rfl, hlt⟩ | ⟨rfl, hlt⟩ | ⟨rfl, hlt⟩
  · exact congrArg (apart p.aim.1 p.x.val + ·) (apart_pred hlt)
  · exact congrArg (apart p.aim.1 p.x.val + ·) (apart_succ hlt hy)
  · have := apart_pred hlt
    simp only [NPkt.through, Nat.reduceEqDiff, if_false, if_true]
    omega
  · have := apart_succ hlt hx
    simp only [NPkt.through, Nat.reduceEqDiff, if_false]
    omega

/-! ### What a hop leaves unchanged (R167 to R169) -/

/-- Of the state a hop of a router changes packets, interfaces, probes and the free-value counter; a packet elsewhere stays. -/
def Hopped (die : Bool) (x y : Fin 8) (s t : State) : Prop :=
  t = { s with mesh := t.mesh, ifaces := t.ifaces, noc := t.noc, free := t.free }
    ∧ ∀ q ∈ s.mesh, ¬(q.die = die ∧ q.x = x ∧ q.y = y) → q ∈ t.mesh

section
variable {die : Bool} {x y : Fin 8}

theorem Hopped.refl (s : State) : Hopped die x y s s := ⟨rfl, fun _ h _ => h⟩

theorem Hopped.trans {s t u : State} (h : Hopped die x y s t) (k : Hopped die x y t u) : Hopped die x y s u := by
  refine ⟨?_, fun q hq ha => k.2 q (h.2 q hq ha) ha⟩
  rw [k.1, h.1]

theorem Hopped.of_mesh {s t : State} (h : t = { s with mesh := t.mesh, ifaces := t.ifaces, noc := t.noc, free := t.free })
    {p : NPkt} (hp : p.die = die ∧ p.x = x ∧ p.y = y) {l : List NPkt} (hm : t.mesh = s.mesh.erase p ++ l) : Hopped die x y s t := by
  refine ⟨h, fun q hq ha => ?_⟩
  have hne : q ≠ p := fun e => ha (e ▸ hp)
  rw [hm]
  exact List.mem_append_left _ ((List.mem_erase_of_ne hne).2 hq)

end

theorem noteInjected_frame (s : State) (p : NPkt) : s.noteInjected p = { s with ifaces := (s.noteInjected p).ifaces } := by
  unfold State.noteInjected
  split <;> rfl

theorem noteInjected_mesh (s : State) (p : NPkt) : (s.noteInjected p).mesh = s.mesh := by
  rw [noteInjected_frame]

theorem moveTo_state (h : HopState) (p : NPkt) (port : Nat) :
    (h.moveTo p port).s = { h.s with mesh := h.s.mesh.erase p ++ [p.through port] }.noteInjected p := rfl

theorem moveTo_hopped {die : Bool} {x y : Fin 8} (h : HopState) {p : NPkt} (hp : p.die = die ∧ p.x = x ∧ p.y = y) (port : Nat) :
    Hopped die x y h.s (h.moveTo p port).s := by
  rw [moveTo_state]
  refine .of_mesh ?_ hp (noteInjected_mesh _ _)
  rw [noteInjected_frame]

theorem deflect_hopped {die : Bool} {x y : Fin 8} (h : HopState) {p : NPkt} (hp : p.die = die ∧ p.x = x ∧ p.y = y) :
    Hopped die x y h.s (h.deflect p).s := by
  unfold HopState.deflect
  dsimp only
  split
  · have hd : Hopped die x y h.s h.s.draw.2 := ⟨rfl, fun _ hq _ => hq⟩
    exact hd.trans (moveTo_hopped _ hp _)
  · exact .refl _

theorem serve_hopped {die : Bool} {x y : Fin 8} (h : HopState) {p : NPkt} (hp : p.die = die ∧ p.x = x ∧ p.y = y) :
    Hopped die x y h.s (h.serve p).s := by
  unfold HopState.serve
  dsimp only
  split
  · exact .of_mesh (l := []) rfl hp (List.append_nil _).symm
  · split
    · exact .of_mesh rfl hp rfl
    · split
      · split
        · exact moveTo_hopped h hp _
        · exact deflect_hopped h hp
      · exact deflect_hopped h hp

/-- Only the control networks of the dies change. -/
def NocOnly (s t : State) : Prop := t = { s with noc := t.noc }

theorem NocOnly.trans {s t u : State} (h : NocOnly s t) (k : NocOnly t u) : NocOnly s u := by
  unfold NocOnly at *
  rw [k, h]

theorem applySeen_nocOnly (s : State) (l : List Seen) : NocOnly s (s.applySeen l) := by
  unfold State.applySeen
  extract_lets s1 traced put
  have hcount : NocOnly s s1 := List.foldlRecOn (motive := NocOnly s) l _ rfl fun t h m _ => h.trans rfl
  have hput (t : State) (die : Bool) : NocOnly t (put t die) := by
    unfold put
    split <;> rfl
  exact (hcount.trans (hput _ _)).trans (hput _ _)

theorem applySeen_hopped {die : Bool} {x y : Fin 8} (s : State) (l : List Seen) : Hopped die x y s (s.applySeen l) := by
  have h := applySeen_nocOnly s l
  exact ⟨by rw [h], fun q hq _ => by rw [h]; exact hq⟩

/-! ### A hop of a router (R168) -/

theorem mem_of_mem_presentPkts {l : List NPkt} {p : NPkt} (h : p ∈ presentPkts l) : p ∈ l := by
  refine List.foldlRecOn (motive := fun a => ∀ q ∈ a, q ∈ l) l _ (fun _ h => absurd h List.not_mem_nil) (fun a ha q hq r hr => ?_) p h
  split at hr
  · exact ha r hr
  · rcases List.mem_append.1 hr with hr | hr
    · exact ha r hr
    · rw [List.mem_singleton.1 hr]
      exact hq

/-- The packets at a router. -/
def State.pktsAt (s : State) (die : Bool) (x y : Fin 8) : List NPkt := s.mesh.filter (fun p => p.die == die && p.x == x && p.y == y)

theorem mem_pktsAt {s : State} {die : Bool} {x y : Fin 8} {p : NPkt} :
    p ∈ s.pktsAt die x y ↔ p ∈ s.mesh ∧ p.die = die ∧ p.x = x ∧ p.y = y := by
  simp [State.pktsAt, and_assoc]

/-- The order in which a router serves packets: those that have arrived before those that their leaves inject. -/
def hopOrder (l : List NPkt) : List NPkt :=
  ((presentPkts l).filter (·.port != 5)).mergeSort NPkt.before ++ ((presentPkts l).filter (·.port == 5)).mergeSort NPkt.before

theorem mem_of_mem_hopOrder {l : List NPkt} {p : NPkt} (h : p ∈ hopOrder l) : p ∈ l := by
  simp only [hopOrder, List.mem_append, List.mem_mergeSort, List.mem_filter] at h
  rcases h with h | h <;> exact mem_of_mem_presentPkts h.1

theorem hopOrder_alone (p : NPkt) : hopOrder [p] = [p] := by
  have h1 : presentPkts [p] = [p] := rfl
  by_cases h : p.port = 5
  · simp [hopOrder, h1, h]
  · simp [hopOrder, h1, h]

/-- A router at the start of a hop. -/
def State.hopStart (s : State) (x y : Fin 8) : HopState := { s := s, mesh := meshPorts x.val y.val, leaves := [0, 1, 2, 3], bridge := true, seen := [] }

theorem exec_nocHop (die : Bool) (x y : Fin 8) (s : State) : exec (.nocHop die x y) s =
    .next (((hopOrder (s.pktsAt die x y)).foldl HopState.serve (s.hopStart x y)).s.applySeen
      ((hopOrder (s.pktsAt die x y)).foldl HopState.serve (s.hopStart x y)).seen) := rfl

theorem exec_nocHop_hopped (die : Bool) (x y : Fin 8) (s : State) : ∃ u, exec (.nocHop die x y) s = .next u ∧ Hopped die x y s u := by
  refine ⟨_, exec_nocHop die x y s, Hopped.trans ?_ (applySeen_hopped _ _)⟩
  exact List.foldlRecOn (motive := fun h : HopState => Hopped die x y s h.s) _ _ (.refl s) fun h hh p hp =>
    hh.trans (serve_hopped h (mem_pktsAt.1 (mem_of_mem_hopOrder hp)).2)

/-- A hop of one packet alone: the packets and the interfaces are as it leaves them. -/
theorem exec_nocHop_alone {die : Bool} {x y : Fin 8} {s : State} {p : NPkt} (h : s.pktsAt die x y = [p]) :
    ∃ u, exec (.nocHop die x y) s = .next u ∧ u.mesh = ((s.hopStart x y).serve p).s.mesh ∧ u.ifaces = ((s.hopStart x y).serve p).s.ifaces := by
  refine ⟨_, exec_nocHop die x y s, ?_⟩
  rw [h, hopOrder_alone, List.foldl_cons, List.foldl_nil, applySeen_nocOnly]
  exact ⟨rfl, rfl⟩

/-! ### One packet served (R168) -/

theorem leaf_listed (n : BitVec 9) : [0, 1, 2, 3].contains (nfld n 0 2) = true := by
  have h : nfld n 0 2 < 4 := (n.extractLsb' 0 2).isLt
  simp
  omega

section
variable {h : HopState} {p : NPkt}

/-- A packet at its target router goes to its leaf. -/
theorem serve_ejects (hp : p.port ≠ 5) (ha : p.aim = (p.x.val, p.y.val, false)) (hl : h.leaves = [0, 1, 2, 3]) : (h.serve p).s =
    { h.s with mesh := h.s.mesh.erase p }.modIface (hdDst p.hdr) (fun i => { i with rxq := i.rxq ++ [(p.hdr, p.data)] }) := by
  unfold HopState.serve
  dsimp only
  rw [if_pos (by rw [ha, hl]; exact ⟨hp, by simp, rfl, leaf_listed _⟩)]

/-- A packet for the other die crosses the bridge. -/
theorem serve_crosses (hp : p.port ≠ 5) (ha : p.aim = (p.x.val, p.y.val, true)) (hb : h.bridge = true) : (h.serve p).s =
    { h.s with mesh := h.s.mesh.erase p ++ [{ p with die := !p.die, port := 4 }] } := by
  unfold HopState.serve
  dsimp only
  rw [if_neg (by rw [ha]; simp), if_pos (by rw [ha, hb]; exact ⟨hp, by simp, rfl, rfl⟩)]

/-- Elsewhere a packet takes its productive port while it is free. -/
theorem serve_moves {port : Nat} (hq : p.productive = some port) (hf : port ∈ h.mesh) : h.serve p = h.moveTo p port := by
  have haway := productive_off_target hq
  unfold HopState.serve
  dsimp only
  rw [if_neg (by simp [haway]), if_neg (by simp [haway]), hq]
  exact if_pos (List.contains_iff_mem.2 hf)

end

/-- The timer of a request starts as its packet is injected. -/
theorem noteInjected_out {s : State} {p : NPkt} (h5 : p.port = 5) (h8 : hdType p.hdr ≠ 8) :
    ((s.noteInjected p).iface (hdSrc p.hdr)).out = (s.iface (hdSrc p.hdr)).out.map (fun q =>
      if q.tag = npTag p.data ∧ q.sent = false then { q with sent := true, since := s.now } else q) := by
  unfold State.noteInjected
  rw [if_pos ⟨h5, h8⟩, modIface_iface]

theorem noteInjected_arrived {s : State} {p : NPkt} (h : p.port ≠ 5) : s.noteInjected p = s := if_neg fun hc => h hc.1

/-- Settles O24: a hop alone by what becomes of its packet, and the rest by what no packet served changes. -/
theorem nocHopsMovePackets : Obligations.NocHopsMovePackets := by
  unfold Obligations.NocHopsMovePackets
  refine ⟨exec_nocHop_hopped, fun die x y s p halone => ?_, fun p port hp => through_nearer hp⟩
  obtain ⟨u, hu, hmesh, hif⟩ := exec_nocHop_alone halone
  obtain ⟨-, -, rfl, rfl⟩ := mem_pktsAt.1 (show p ∈ s.pktsAt die x y from (show s.pktsAt die x y = [p] from halone) ▸ List.mem_singleton_self p)
  refine ⟨fun hp ha => ⟨u, hu, ?_⟩, fun port hq => ⟨u, hu, ?_⟩, fun hp ha => ⟨u, hu, ?_⟩⟩
  · rw [iface_congr hif, hmesh, serve_ejects hp ha rfl, modIface_iface]
    exact ⟨rfl, rfl⟩
  · rw [serve_moves hq (productive_mem_meshPorts hq), moveTo_state] at hmesh hif
    refine ⟨hmesh.trans (noteInjected_mesh _ _), fun hp => ?_, fun h5 h8 _ => ?_⟩
    · rw [hif, noteInjected_arrived hp]
      rfl
    · rw [iface_congr hif, noteInjected_out h5 h8]
      rfl
  · rw [serve_crosses hp ha rfl] at hmesh hif
    exact ⟨hmesh, hif⟩

end Sys2Proof.Machine
end

section
/-! Proof of the statement about deliveries and answers of the control network. -/

namespace Sys2Proof.Machine

/-! ### Requests that complete (R172, R302) -/

theorem hostOutcome_frame (s : State) (write : Bool) (a : Word) (n st : Nat) (x : BitVec 128) :
    s.hostOutcome write a n st x = { s with glb := (s.hostOutcome write a n st x).glb, cp := (s.hostOutcome write a n st x).cp } := by
  unfold State.hostOutcome
  extract_lets s1 s2
  have h1 : s1 = { s with glb := s1.glb } := by
    unfold s1
    split
    · split <;> rfl
    · rfl
  have h2 : s2 = { s with glb := s2.glb, cp := s2.cp } := by
    unfold s2 State.emit State.modCp
    rw [h1]
  split
  · exact h2
  · rw [h2]
    rfl

theorem hostOutcome_write_ok (s : State) (a : Word) (n : Nat) (x : BitVec 128) : s.hostOutcome true a n 0 x = s.emit (.accessStatus 0) := rfl

/-- A request taken from its interface and completed with a status and data. -/
def State.concluded (s : State) (n : BitVec 9) (q : NReq) (status : Nat) (data : Data256) : State :=
  (s.modIface n (fun i => { i with out := i.out.erase q })).finishReq n q.tag (hdType q.hdr) (npAddr q.data) (npLen q.data) status data

theorem endReq_eq (s : State) (n : BitVec 9) (q : NReq) (status : Nat) (data : Data256) :
    s.endReq n q status data = (s.concluded n q status data).mcAnswered n q.tag status (npData data) := rfl

/-- What the interface keeps of a completed request. -/
def Iface.closed (i : Iface) (q : NReq) (status : Nat) (data : Data256) : Iface :=
  { i with out := i.out.erase q, done := i.done ++ [(q.tag, BitVec.ofNat 8 status, data)] }

section
variable (s : State) (n : BitVec 9) (q : NReq) (status : Nat) (data : Data256)

theorem concluded_frame : s.concluded n q status data =
    { s with ifaces := (s.concluded n q status data).ifaces, glb := (s.concluded n q status data).glb, cp := (s.concluded n q status data).cp } := by
  unfold State.concluded State.finishReq
  dsimp only
  split
  · rw [hostOutcome_frame]
    rfl
  · rfl

theorem concluded_iface : (s.concluded n q status data).iface n = (s.iface n).closed q status data := by
  have h : (s.concluded n q status data).ifaces =
      ((s.modIface n (fun i => { i with out := i.out.erase q })).modIface n (fun i =>
        { i with done := i.done ++ [(q.tag, BitVec.ofNat 8 status, data)] })).ifaces := by
    unfold State.concluded State.finishReq
    dsimp only
    split
    · rw [hostOutcome_frame]
    · rfl
  rw [iface_congr h, modIface_iface, modIface_iface]
  rfl

/-- Of a node other than the host's only the interface changes. -/
theorem concluded_other (hn : n ≠ pcieNode) :
    s.concluded n q status data = { s with ifaces := (s.concluded n q status data).ifaces } := by
  unfold State.concluded State.finishReq
  dsimp only
  rw [if_neg fun h => hn h.1]
  rfl

variable {q}

/-- The host sees the outcome of its write. -/
theorem concluded_hostWrite (hw : hdType q.hdr = 1) : s.concluded pcieNode q status data =
    ((s.modIface pcieNode (fun i => { i with out := i.out.erase q })).modIface pcieNode (fun i =>
      { i with done := i.done ++ [(q.tag, BitVec.ofNat 8 status, data)] })).hostOutcome true (BitVec.ofNat 32 (npAddr q.data)) (npLen q.data)
        status (npData data) := by
  unfold State.concluded State.finishReq
  dsimp only
  rw [if_pos ⟨rfl, by omega⟩, hw]
  rfl

end

/-! ### Answers that arrive (R171, R172) -/

/-- The state once a packet has left a node's receive queue. -/
def State.dequeued (s : State) (n : BitVec 9) (p : Word × Data256) : State := s.modIface n (fun i => { i with rxq := i.rxq.erase p })

@[simp] theorem dequeued_iface (s : State) (n : BitVec 9) (p : Word × Data256) :
    (s.dequeued n p).iface n = { s.iface n with rxq := (s.iface n).rxq.erase p } := modIface_iface _ _ _
@[simp] theorem dequeued_noc (s : State) (n : BitVec 9) (p : Word × Data256) : (s.dequeued n p).noc = s.noc := rfl

section
variable {n : BitVec 9} {s : State} {p : Word × Data256} (hp : (s.iface n).rxq.find? (fun p => hdType p.1 == 8) = some p)
include hp

theorem exec_nocRspReceive_late (hq : (s.iface n).out.find? (fun q => q.tag == npTag p.2) = none) : exec (.nocRspReceive n) s =
    .next (((s.dequeued n p).modIface n (fun i =>
      { i with lost := i.lost.erase (npTag p.2) })).modNoc (nodeDie n) (fun d => { d with lateCnt := satInc d.lateCnt })) := by
  simp only [exec, execNocRspReceive, hp, hq, State.dequeued]

variable {q : NReq} (hq : (s.iface n).out.find? (fun q => q.tag == npTag p.2) = some q)
include hq

theorem exec_nocRspReceive_busy (hb : npStatus p.2 = 2) : exec (.nocRspReceive n) s =
    .next ((s.dequeued n p).modIface n (fun i =>
      { i with out := i.out.map (fun x => if x.tag = q.tag then { x with busy := true } else x) })) := by
  simp only [exec, execNocRspReceive, hp, hq, hb, if_true, State.dequeued]

theorem exec_nocRspReceive_ends (hb : npStatus p.2 ≠ 2) : exec (.nocRspReceive n) s =
    .next (((s.dequeued n p).concluded n q (npStatus p.2) p.2).mcAnswered n q.tag (npStatus p.2)
      (npData p.2)) := by
  simp only [exec, execNocRspReceive, hp, hq, hb, if_false, endReq_eq, State.dequeued]

end

/-! ### Timers and retries (R171, R172) -/

theorem exec_nocBusyRetry {n : BitVec 9} {tag : BitVec 10} {s : State} {q : NReq}
    (hq : (s.iface n).out.find? (fun q => q.tag == tag && q.busy) = some q) : exec (.nocBusyRetry n tag) s =
    .next ((s.modIface n (fun i => { i with out := i.out.map (fun x => if x.tag = tag then { x with busy := false } else x) })).injectPkt
      n q.hdr q.data) := by
  simp only [exec, execNocBusyRetry, hq]

section
variable {n : BitVec 9} {tag : BitVec 10} {s : State}

/-- Whether a request's timer has run out. -/
def State.expired (s : State) (n : BitVec 9) (q : NReq) : Prop :=
  q.since + (s.noc[if nodeDie n then (1 : Fin 2) else 0]).timeout.toNat ≤ s.now

theorem exec_nocTimeoutExpiry_idle (hq : (s.iface n).out.find? (fun q => q.tag == tag && q.sent) = none) :
    exec (.nocTimeoutExpiry n tag) s = .next s := by
  simp only [exec, execNocTimeoutExpiry, hq]

variable {q : NReq} (hq : (s.iface n).out.find? (fun q => q.tag == tag && q.sent) = some q)
include hq

theorem exec_nocTimeoutExpiry_runs (h : ¬s.expired n q) : exec (.nocTimeoutExpiry n tag) s = .next s := by
  simp only [exec, execNocTimeoutExpiry, hq]
  exact if_neg h

theorem exec_nocTimeoutExpiry_ends (h : s.expired n q) : exec (.nocTimeoutExpiry n tag) s =
    .next ((((s.modIface n (fun i => { i with lost := i.lost ++ [tag] })).modNoc (nodeDie n) (fun d =>
      { d with timeoutCnt := satInc d.timeoutCnt })).concluded n q 0xF 0).mcAnswered n q.tag 0xF (npData 0)) := by
  simp only [exec, execNocTimeoutExpiry, hq]
  exact if_pos h

end

/-! ### The management controller's own request (R256) -/

theorem mcAnswered_idle {s : State} {n : BitVec 9} (tag : BitVec 10) (status : Nat) (v : BitVec 128) (h : n ≠ mcNode ∨ s.fab.job = none) :
    s.mcAnswered n tag status v = s := by
  have hj : (if n = mcNode then s.fab.job else none) = none := by
    rcases h with h | h
    · exact if_neg h
    · rw [h, ite_self]
  unfold State.mcAnswered
  rw [hj]

theorem mcAnswered_job {s : State} {tag : BitVec 10} (status : Nat) (v : BitVec 128) {j : MgJob} (hj : s.fab.job = some j)
    (ha : j.asked = some tag) : s.mcAnswered mcNode tag status v = (s.modFab (fun b => { b with job := some (j.took status v) })).mcRun := by
  unfold State.mcAnswered
  rw [if_pos rfl, hj]
  exact if_pos ha

/-! ### Requests performed (R165, R361) -/

section
variable {s : State} {n : BitVec 9} {h : Word} {d : Data256}

theorem perform_foreign (hf : s.foreign (hdSrc h) n = true) : s.perform n h d = (s, 4, 0) := if_pos hf

variable (hf : s.foreign (hdSrc h) n = false)
include hf

theorem perform_unfit (ht : hdType h < 2) (ha : accessFits n d = false) : s.perform n h d = (s, 3, 0) := by
  unfold State.perform
  dsimp only
  rw [hf, ha]
  split
  · contradiction
  · split
    · rfl
    · rw [if_pos (by omega)]

theorem perform_read (ht : hdType h = 0) (ha : accessFits n d = true) : s.perform n h d = (s, s.readAt (npAddr d) (npLen d)) := by
  unfold State.perform
  dsimp only
  rw [hf, ha, ht]
  rfl

theorem perform_write (ht : hdType h = 1) (ha : accessFits n d = true) : s.perform n h d =
    ((s.writeAt (whoOf (hdSrc h)) (npAddr d) (npWords d)).2, (s.writeAt (whoOf (hdSrc h)) (npAddr d) (npWords d)).1, 0) := by
  unfold State.perform
  dsimp only
  rw [hf, ha, ht]
  rfl

end

/-! ### The RSP of a request (R165, R166) -/

/-- The packet of an answer at its leaf. -/
def rspPkt (e : BitVec 13) (n : BitVec 9) (h : Word) (d : Data256) (status : Nat) (v : BitVec 128) : NPkt :=
  { hdr := mkHeader (hdSrc h) n 8 e, data := rspData (npTag d) (npLen d) status v
    die := nodeDie n, x := Fin.ofNat 8 (nodeX n), y := Fin.ofNat 8 (nodeY n), port := 5 }

theorem respondBy_eq (s : State) (e : BitVec 13) (n : BitVec 9) (h : Word) (d : Data256) (status : Nat) (v : BitVec 128) :
    s.respondBy e n h d status v = { s with mesh := s.mesh ++ [rspPkt e n h d status v] } := rfl

theorem rspPkt_header (e : BitVec 13) (n : BitVec 9) (h : Word) (d : Data256) (status : Nat) (v : BitVec 128) :
    hdType (rspPkt e n h d status v).hdr = 8 ∧ hdDst (rspPkt e n h d status v).hdr = hdSrc h ∧ hdSrc (rspPkt e n h d status v).hdr = n := by
  obtain ⟨hdst, hsrc, htype, -⟩ := mkHeader_fields (hdSrc h) n (kind := 8) e (by decide)
  exact ⟨htype, hdst, hsrc⟩

theorem rspPkt_data (e : BitVec 13) (n : BitVec 9) (h : Word) (d : Data256) {status : Nat} (v : BitVec 128) (hs : status < 256) :
    npTag (rspPkt e n h d status v).data = npTag d ∧ npLen (rspPkt e n h d status v).data = npLen d
      ∧ npStatus (rspPkt e n h d status v).data = status ∧ npData (rspPkt e n h d status v).data = v :=
  rspData_fields (npTag d) v (Nat.succ_pos _) (npLen_le d) hs

theorem resetAfter_due {s : State} {p : Word × Data256} {st : Nat}
    (h : hdType p.1 = 1 ∧ st = 0 ∧ npAddr p.2 = 0x20 ∧ glbResets (fld (npData p.2) 0 32) = true) :
    s.resetAfter p st = { s with resetDue := some (.rsp (hdSrc p.1) (npTag p.2), fld (npData p.2) 0 32) } := if_pos h

theorem resetAfter_none (s : State) {p : Word × Data256} {st : Nat}
    (h : hdType p.1 ≠ 1 ∨ st ≠ 0 ∨ npAddr p.2 ≠ 0x20 ∨ glbResets (fld (npData p.2) 0 32) = false) : s.resetAfter p st = s := by
  refine if_neg ?_
  rintro ⟨h1, h2, h3, h4⟩
  rcases h with h | h | h | h
  · exact h h1
  · exact h h2
  · exact h h3
  · rw [h] at h4
    cases h4

/-! ### Delivery (R171) -/

/-- The requests in a node's receive queue. -/
def Iface.reqs (i : Iface) : List (Word × Data256) := i.rxq.filter (fun p => hdType p.1 != 8)

section
variable {n : BitVec 9} {s : State} {p : Word × Data256}

/-- Over the size of the queue the newest request is answered BUSY. -/
theorem exec_nocDeliver_full (hlen : max 1 Config.nocQueue < (s.iface n).reqs.length) (hlast : (s.iface n).reqs.getLast? = some p) :
    exec (.nocDeliver n) s = .next ((s.dequeued n p).respond n p.1 p.2 2 0) := by
  simp only [exec, execNocDeliver]
  refine (if_pos hlen).trans ?_
  simp only [show ((s.iface n).rxq.filter (fun p => hdType p.1 != 8)).getLast? = some p from hlast]
  rfl

variable (hlen : (s.iface n).reqs.length ≤ max 1 Config.nocQueue)
include hlen

theorem exec_nocDeliver_idle (hf : (s.iface n).reqs.find? (fun p => !s.reqWaits n p) = none) : exec (.nocDeliver n) s = .next s := by
  simp only [exec, execNocDeliver]
  refine (if_neg (Nat.not_lt.2 hlen)).trans ?_
  simp only [show ((s.iface n).rxq.filter (fun p => hdType p.1 != 8)).find? (fun p => !s.reqWaits n p) = none from hf]

variable (hf : (s.iface n).reqs.find? (fun p => !s.reqWaits n p) = some p) (hfan : forFan n p = false)
include hf hfan

theorem exec_nocDeliver_logic {r : Fin 16} (hl : s.forLogic n p = some r) : exec (.nocDeliver n) s =
    .next ((s.dequeued n p).modRegion r (fun x => { x with rxq := x.rxq ++ [p] })) := by
  simp only [exec, execNocDeliver]
  refine (if_neg (Nat.not_lt.2 hlen)).trans ?_
  simp only [show ((s.iface n).rxq.filter (fun p => hdType p.1 != 8)).find? (fun p => !s.reqWaits n p) = some p from hf, hfan, hl]
  rfl

/-- A request performed: its RSP leaves by the route entry from before. -/
theorem exec_nocDeliver_serves (hl : s.forLogic n p = none) {t : State} {st : Nat} {v : BitVec 128}
    (hr : (s.dequeued n p).perform n p.1 p.2 = (t, st, v)) : exec (.nocDeliver n) s =
    .next (({ t with mesh := t.mesh ++ [rspPkt ((s.dequeued n p).nodeRoute (hdSrc p.1)) n p.1 p.2 st v] } : State).resetAfter p st) := by
  have hs : exec (.nocDeliver n) s = .next ((s.dequeued n p).serveNoc n p) := by
    simp only [exec, execNocDeliver]
    refine (if_neg (Nat.not_lt.2 hlen)).trans ?_
    simp only [show ((s.iface n).rxq.filter (fun p => hdType p.1 != 8)).find? (fun p => !s.reqWaits n p) = some p from hf, hfan, hl]
    rfl
  rw [hs]
  unfold State.serveNoc
  dsimp only
  rw [hr, respondBy_eq]

end

/-- Settles O25: an answer, a retry and a timer by what they leave of the request, a delivery by what the node performs. -/
theorem nocAnswersOnce : Obligations.NocAnswersOnce := by
  unfold Obligations.NocAnswersOnce
  refine ⟨⟨fun n s p q hp hq => ⟨fun hb => ?_, fun hb => ?_⟩, fun n s p hp hq => ?_, fun n tag s q hq => ?_,
      fun n tag s q hq => ⟨fun hdue => ?_, fun hrun => exec_nocTimeoutExpiry_runs hq (Nat.not_le.2 hrun)⟩, fun n tag s hq => ?_,
      fun n tag status v s h => mcAnswered_idle tag status v h, fun tag status v s j hj ha => mcAnswered_job status v hj ha⟩,
    fun n s p s0 hlen hf hfan hl hs0 => ?_, fun s p st => ⟨fun h1 h2 h3 h4 => resetAfter_due ⟨h1, h2, h3, h4⟩, resetAfter_none s⟩,
    fun n s q hlen hlast => ?_, fun n s p r hlen hf hfan hl => exec_nocDeliver_logic hlen hf hfan hl, fun n s hlen hw => ?_⟩
  · have hfr := concluded_frame (s.dequeued n p) n q (npStatus p.2) p.2
    have hif := concluded_iface (s.dequeued n p) n q (npStatus p.2) p.2
    refine ⟨_, exec_nocRspReceive_ends hp hq hb, ?_, ?_, fun hn => ?_, fun hn hw h0 => ?_, fun hn hw h3 => ?_, ?_, ?_, ?_, ?_⟩
    · rw [hfr]; rfl
    · rw [hfr]; rfl
    · rw [concluded_other _ _ _ _ _ hn]; rfl
    · subst hn
      rw [concluded_hostWrite _ _ _ hw, h0, hostOutcome_write_ok]
      exact ⟨rfl, rfl⟩
    · subst hn
      rw [concluded_hostWrite _ _ _ hw, h3, hostOutcome_write_decode]
      exact accessFail_sets _ _ (by decide)
    all_goals simp [hif, Iface.closed]
  · refine ⟨_, exec_nocRspReceive_busy hp hq hb, rfl, ?_, ?_, ?_⟩ <;> simp
  · have hnone : (s.iface n).out.find? (fun q => q.tag == npTag p.2) = none := by
      simpa using hq
    refine ⟨_, exec_nocRspReceive_late hp hnone, rfl, ?_, ?_, ?_⟩ <;> simp
  · refine ⟨_, _, exec_nocBusyRetry hq, rfl, rfl, rfl, rfl, ?_⟩
    simp
  · have htag : q.tag = tag := beq_iff_eq.1 (Bool.and_eq_true_iff.1 (List.find?_some (p := fun q : NReq => q.tag == tag && q.sent) hq)).1
    have hexec := exec_nocTimeoutExpiry_ends hq hdue
    rw [htag] at hexec
    refine ⟨_, hexec, fun hn => ?_, ?_, ?_, ?_, ⟨(q.tag, 0xF, 0), ?_, htag, rfl⟩, ?_⟩
    · rw [concluded_other _ _ _ _ _ hn]; rfl
    · simp [concluded_iface, Iface.closed]
    · rw [concluded_frame]; rfl
    · simp [concluded_iface, Iface.closed]
    · simp [concluded_iface, Iface.closed]
    · rw [concluded_frame]; simp
  · refine exec_nocTimeoutExpiry_idle (List.find?_eq_none.2 fun q hm hc => ?_)
    obtain ⟨ht, hs⟩ := Bool.and_eq_true_iff.1 hc
    rw [hq q hm (beq_iff_eq.1 ht)] at hs
    cases hs
  · subst hs0
    have hserve {t : State} {st : Nat} {v : BitVec 128} := exec_nocDeliver_serves hlen hf hfan hl (t := t) (st := st) (v := v)
    refine ⟨fun ht ha hfo hst => ?_, fun x ht ha hfo hx hst => ?_, fun ht ha hfo => ?_, fun hfo => ?_⟩
    · have hexec := hserve (perform_read hfo ht ha)
      rw [resetAfter_none _ (.inl (by omega))] at hexec
      obtain ⟨htype, hdst, hsrc⟩ := rspPkt_header _ n p.1 p.2 _ _
      obtain ⟨htag, hlen, hstatus, hdata⟩ := rspPkt_data _ n p.1 p.2 _ hst
      exact ⟨_, _, hexec, rfl, htype, hdst, hsrc, htag, hstatus, hdata, hlen⟩
    · subst hx
      obtain ⟨htype, hdst, -⟩ := rspPkt_header _ n p.1 p.2 _ _
      obtain ⟨htag, -, hstatus, -⟩ := rspPkt_data _ n p.1 p.2 _ hst
      exact ⟨_, _, hserve (perform_write hfo ht ha), rfl, rfl, htype, hdst, htag, hstatus⟩
    · have hexec := hserve (perform_unfit hfo ht ha)
      rw [resetAfter_none _ (.inr (.inl (by decide)))] at hexec
      obtain ⟨htag, -, hstatus, -⟩ := rspPkt_data _ n p.1 p.2 0 (status := 3) (by decide)
      exact ⟨_, _, hexec, rfl, htag, hstatus⟩
    · have hexec := hserve (perform_foreign hfo)
      rw [resetAfter_none _ (.inr (.inl (by decide)))] at hexec
      obtain ⟨htag, -, hstatus, -⟩ := rspPkt_data _ n p.1 p.2 0 (status := 4) (by decide)
      exact ⟨_, _, hexec, rfl, htag, hstatus⟩
  · obtain ⟨htag, -, hstatus, -⟩ := rspPkt_data _ n q.1 q.2 0 (status := 2) (by decide)
    exact ⟨_, _, exec_nocDeliver_full hlen hlast, rfl, htag, hstatus⟩
  · refine exec_nocDeliver_idle hlen (List.find?_eq_none.2 fun p hm => ?_)
    obtain ⟨hm, ht⟩ := List.mem_filter.1 hm
    simp [hw p hm (by simpa using ht)]

end Sys2Proof.Machine
end

section
/-! Proof of the statement about conduit words. -/

namespace Sys2Proof.Machine

/-! ### Conduit words (R182) -/

/-- An endpoint of a caldera at its own track. -/
theorem farSide_local (n e : Fin 64) : farSide n 4 e.val = .ep (.cal n e) := by
  simp [farSide]

section
variable {n a : Fin 64} {s : State} {w : CWord}

theorem inputWord_local (he : ((s.cals[n]).eps[a]).en = true) (ho : ((s.cals[n]).eps[a]).out = true)
    (hw : ((s.cals[n]).eps[a]).word = some w) : s.inputWord n 4 a.val = some w := by
  unfold State.inputWord
  rw [farSide_local]
  exact (if_pos (by simp only [State.endpoint, Endpoint.source, State.epQuiet, he, ho]; rfl)).trans hw

theorem outputFree_local {b : Fin 64} (he : ((s.cals[n]).eps[b]).en = true) (ho : ((s.cals[n]).eps[b]).out = false) :
    s.outputFree n (4, b.val) = ((s.cals[n]).eps[b]).word.isNone := by
  unfold State.outputFree
  rw [farSide_local]
  simp only [State.endpoint, Endpoint.dest, State.epQuiet, he, ho, Bool.not_false, Bool.and_true, Bool.true_and]

theorem takeInput_local (s : State) (n a : Fin 64) : s.takeInput n 4 a.val = s.modCal n (fun c => { c with
    eps := vmod c.eps a (fun e => { e with word := none }) }) := by
  unfold State.takeInput
  rw [farSide_local]
  rfl

theorem pushOutput_local (w : CWord) (n b : Fin 64) (s : State) : s.pushOutput w n (4, b.val) = s.modCal n (fun c => { c with
    eps := vmod c.eps b (fun e => e.put w) }) := by
  unfold State.pushOutput
  rw [farSide_local]
  rfl
end

theorem exec_conduitWord_moves {n t : Fin 64} {p : Fin 5} {s : State} {w : CWord} {outs : List (Nat × Nat)}
    (hd : (s.cals[n]).drives p.val t.val = outs) (hw : s.inputWord n p.val t.val = some w) (hne : outs ≠ [])
    (hf : ∀ o ∈ outs, s.outputFree n o = true) :
    exec (.conduitWord n p t) s = .next (outs.foldl (State.pushOutput w n) (s.takeInput n p.val t.val)) := by
  simp only [exec, execConduitWord, hw, hd]
  exact if_pos ⟨hne, List.all_eq_true.2 hf⟩

/-- An input that drives nothing, or a branch that is not free, keeps the word where it is. -/
theorem exec_conduitWord_waits {n t : Fin 64} {p : Fin 5} {s : State} {outs : List (Nat × Nat)}
    (hd : (s.cals[n]).drives p.val t.val = outs) (h : outs = [] ∨ ∃ o ∈ outs, s.outputFree n o = false) :
    exec (.conduitWord n p t) s = .next s := by
  simp only [exec, execConduitWord, hd]
  split
  · rfl
  · refine if_neg fun ⟨hne, hall⟩ => ?_
    rcases h with h | ⟨o, ho, hf⟩
    · exact hne h
    · rw [List.all_eq_true.1 hall o ho] at hf
      cases hf

/-- The word of an endpoint of the caldera leaves it for every branch. -/
theorem exec_conduitWord_leaves {n a : Fin 64} {s : State} {w : CWord} {outs : List (Nat × Nat)} (hd : (s.cals[n]).drives 4 a.val = outs)
    (hen : ((s.cals[n]).eps[a]).en = true) (hout : ((s.cals[n]).eps[a]).out = true) (hw : ((s.cals[n]).eps[a]).word = some w)
    (hne : outs ≠ []) (hf : ∀ o ∈ outs, s.outputFree n o = true) : exec (.conduitWord n 4 a) s =
      .next (outs.foldl (State.pushOutput w n) (s.modCal n (fun c => { c with eps := vmod c.eps a (fun e => { e with word := none }) }))) := by
  rw [← takeInput_local]
  exact exec_conduitWord_moves (p := 4) hd (inputWord_local hen hout hw) hne hf

/-- A branch to an endpoint that holds a word is not free. -/
theorem outputFree_busy {n b : Fin 64} {s : State} (h : ((s.cals[n]).eps[b]).word.isSome = true) : s.outputFree n (4, b.val) = false := by
  unfold State.outputFree
  rw [farSide_local]
  simp only [State.endpoint, Option.isNone_eq_false_iff.2 h, Bool.and_false, Bool.false_and]

/-- Settles O26: the outputs that lead to endpoints of the same caldera, and the two answers of the command. -/
theorem conduitWordsMove : Obligations.ConduitWordsMove := by
  unfold Obligations.ConduitWordsMove
  refine ⟨fun n a b s w hd hen hout hw hben hbout => ⟨fun hb => ?_, fun hb => ?_⟩,
    fun n a b c s w hd hbc hen hout hw hbr => ⟨fun hb hc => ?_, fun hbusy => ?_⟩,
    fun n p t s hd => exec_conduitWord_waits hd (.inl rfl), fun n p t s o ho hf => exec_conduitWord_waits rfl (.inr ⟨o, ho, hf⟩)⟩
  · have hfree : ∀ o ∈ [(4, b.val)], s.outputFree n o = true := by
      rintro _ (_ | ⟨_, ⟨⟩⟩)
      rw [outputFree_local hben hbout, hb]
      rfl
    rw [exec_conduitWord_leaves hd hen hout hw (List.cons_ne_nil _ _) hfree]
    simp only [List.foldl_cons, List.foldl_nil, pushOutput_local, State.modCal_modCal]
    rfl
  · exact exec_conduitWord_waits (p := 4) hd (.inr ⟨_, List.mem_cons_self, outputFree_busy hb⟩)
  · obtain ⟨⟨hben, hbout⟩, hcen, hcout⟩ := And.intro (hbr b (by simp)) (hbr c (by simp))
    have hab : a ≠ b := fun h => by rw [h, hbout] at hout; cases hout
    have hac : a ≠ c := fun h => by rw [h, hcout] at hout; cases hout
    have hfree : ∀ o ∈ [(4, b.val), (4, c.val)], s.outputFree n o = true := by
      rintro _ (_ | ⟨_, _ | ⟨_, ⟨⟩⟩⟩)
      · rw [outputFree_local hben hbout, hb]; rfl
      · rw [outputFree_local hcen hcout, hc]; rfl
    rw [exec_conduitWord_leaves hd hen hout hw (List.cons_ne_nil _ _) hfree]
    simp only [List.foldl_cons, List.foldl_nil, pushOutput_local, State.modCal_modCal]
    refine ⟨_, rfl, onlyCal_modCal _ _ _, ?_, ?_, ?_⟩
    · simp [hab, hac]
    · simp [Endpoint.put, hbc]
    · simp [Endpoint.put]
  · rcases hbusy with h | h
    · exact exec_conduitWord_waits (p := 4) hd (.inr ⟨_, List.mem_cons_self, outputFree_busy h⟩)
    · exact exec_conduitWord_waits (p := 4) hd (.inr ⟨_, List.mem_cons_of_mem _ List.mem_cons_self, outputFree_busy h⟩)

end Sys2Proof.Machine
end

section
/-! Proofs of the statements about the stacks: the address mapping, requests and commands. -/

namespace Sys2Proof.Machine

/-! ### Where a block lies (R190) -/

/-- The places of a block as fields of its number. -/
theorem blockPlace_fields (a : Word) : blockPlace a =
    { stack := a.toNat / 536870912, ch := a.toNat / 2048 % 32, bank := 16 * (a.toNat % 2) + ((a.toNat / 8 % 16) ^^^ (a.toNat / 128 % 16))
      row := a.toNat / 65536 % 8192 * 16 + a.toNat / 128 % 16, colblk := a.toNat / 2 % 4
      mapped := decide (a.toNat * 256 % 2 ^ 37 < 72000000000) } := by
  have hb : a.toNat * 256 % 2 ^ 37 / 256 % 2048 = a.toNat % 2048 := by omega
  have hf : a.toNat * 256 % 2 ^ 37 / 524288 = a.toNat / 2048 % 262144 := by omega
  simp only [blockPlace, hb, hf, BlockPlace.mk.injEq, stackBytes]
  have h128 : a.toNat % 2048 / 128 % 16 = a.toNat / 128 % 16 := by omega
  refine ⟨by omega, by omega, ?_, by rw [h128]; omega, by omega, rfl⟩
  rw [show a.toNat % 2048 % 2 = a.toNat % 2 by omega, show a.toNat % 2048 / 8 % 16 = a.toNat / 8 % 16 by omega, h128]

theorem xor_lt_sixteen (x y : Nat) : (x % 16) ^^^ (y % 16) < 16 :=
  Nat.xor_lt_two_pow (n := 4) (Nat.mod_lt _ (by omega)) (Nat.mod_lt _ (by omega))

/-- A pair of digits gives back both: the low one below the base. -/
theorem digits_eq {m x y x' y' : Nat} (hy : y < m) (hy' : y' < m) (h : m * x + y = m * x' + y') : x = x' ∧ y = y' := by
  have hm : y = y' := by simpa [Nat.mul_add_mod, Nat.mod_eq_of_lt, hy, hy'] using congrArg (· % m) h
  subst hm
  exact ⟨Nat.eq_of_mul_eq_mul_left (Nat.zero_lt_of_lt hy) (Nat.add_right_cancel h), rfl⟩

/-- Numbers that agree in a quotient and in the remainder are equal. -/
theorem eq_of_div_mod {m a b : Nat} (hd : a / m = b / m) (hm : a % m = b % m) : a = b := by
  rw [← Nat.div_add_mod a m, ← Nat.div_add_mod b m, hd, hm]

/-- Settles O27: the fields of a place give back every bit of the block's number. -/
theorem blockPlacesAreDistinct : Obligations.BlockPlacesAreDistinct := by
  refine ⟨fun a b h => ?_, fun a => ?_⟩
  · simp only [blockPlace_fields, BlockPlace.mk.injEq] at h
    obtain ⟨hs, hc, hbank, hrow, hcol, -⟩ := h
    obtain ⟨h1, hx⟩ := digits_eq (xor_lt_sixteen _ _) (xor_lt_sixteen _ _) hbank
    rw [Nat.mul_comm, Nat.mul_comm (b.toNat / 65536 % 8192)] at hrow
    obtain ⟨h65536, h128⟩ := digits_eq (Nat.mod_lt _ (by omega)) (Nat.mod_lt _ (by omega)) hrow
    rw [h128] at hx
    have h8 : a.toNat / 8 % 16 = b.toNat / 8 % 16 := Nat.xor_left_injective hx
    apply BitVec.eq_of_toNat_eq
    have d65536 : a.toNat / 65536 = b.toNat / 65536 := eq_of_div_mod (m := 8192) (by omega) h65536
    have d2048 : a.toNat / 2048 = b.toNat / 2048 := eq_of_div_mod (m := 32) (by omega) hc
    have d128 : a.toNat / 128 = b.toNat / 128 := eq_of_div_mod (m := 16) (by omega) h128
    have d8 : a.toNat / 8 = b.toNat / 8 := eq_of_div_mod (m := 16) (by omega) h8
    have d2 : a.toNat / 2 = b.toNat / 2 := eq_of_div_mod (m := 4) (by omega) hcol
    exact eq_of_div_mod d2 h1
  · have hx := xor_lt_sixteen (a.toNat / 8) (a.toNat / 128)
    have hlt := a.isLt
    rw [blockPlace_fields]
    refine ⟨?_, ?_, ?_, fun k => ?_, decide_eq_true_iff⟩ <;> dsimp only [BlockPlace.col] <;> omega


/-! ### One stack and one controller changed -/

theorem stack_modStack (s : State) (k : Fin 8) (f : Stack → Stack) : (s.modStack k f).hbmStacks[k] = f s.hbmStacks[k] := vmod_get_same _ _ _

theorem stack_modStack_ne (s : State) {k j : Fin 8} (f : Stack → Stack) (h : j ≠ k) : (s.modStack k f).hbmStacks[j] = s.hbmStacks[j] :=
  vmod_get_ne _ _ _ _ h

theorem State.modStack_congr {s : State} {k : Fin 8} {f g : Stack → Stack} (h : f s.hbmStacks[k] = g s.hbmStacks[k]) :
    s.modStack k f = s.modStack k g := by
  simp only [State.modStack, vmod_const, h]

theorem State.modStack_modStack (s : State) (k : Fin 8) (f g : Stack → Stack) :
    (s.modStack k f).modStack k g = s.modStack k (fun t => g (f t)) := by
  simp only [State.modStack, vmod_vmod]

theorem State.modStack_self {s : State} {k : Fin 8} {f : Stack → Stack} (h : f s.hbmStacks[k] = s.hbmStacks[k]) : s.modStack k f = s := by
  simp only [State.modStack, vmod_const, h, vset_self]

theorem onlyStack_modStack (s : State) (k : Fin 8) (f : Stack → Stack) : OnlyStack k s (s.modStack k f) :=
  State.modStack_congr (stack_modStack s k f).symm

theorem OnlyStack.refl (k : Fin 8) (s : State) : OnlyStack k s s := (State.modStack_self rfl).symm

theorem OnlyStack.trans {k : Fin 8} {s t u : State} (h : OnlyStack k s t) (g : OnlyStack k t u) : OnlyStack k s u := by
  unfold OnlyStack at *
  rw [g, h, State.modStack_modStack, stack_modStack]

theorem OnlyStack.cals {k : Fin 8} {s t : State} (h : OnlyStack k s t) : t.cals = s.cals := by rw [h, State.modStack_cals]

theorem chan_modChan (s : State) (k : Fin 8) (c : Fin 32) (f : Chan → Chan) :
    ((s.modChan k c f).hbmStacks[k]).ch[c] = f (s.hbmStacks[k]).ch[c] := by
  rw [State.modChan, stack_modStack]
  exact vmod_get_same _ _ _

theorem State.modChan_congr {s : State} {k : Fin 8} {c : Fin 32} {f g : Chan → Chan}
    (h : f (s.hbmStacks[k]).ch[c] = g (s.hbmStacks[k]).ch[c]) : s.modChan k c f = s.modChan k c g := by
  refine State.modStack_congr ?_
  rw [vmod_const, vmod_const, h]

theorem State.modChan_self {s : State} {k : Fin 8} {c : Fin 32} {f : Chan → Chan} (h : f (s.hbmStacks[k]).ch[c] = (s.hbmStacks[k]).ch[c]) :
    s.modChan k c f = s := by
  refine State.modStack_self ?_
  rw [vmod_const, h, vset_self]

/-! ### Panic (R194) -/

/-- A controller without what its panic state says. -/
def Chan.calm (c : Chan) : Chan := { c with panicRd := false, panicWr := false, panicCnt := 0 }

theorem watchPanic_onlyStack (s : State) (k : Fin 8) (c : Fin 32) : OnlyStack k s (s.watchPanic k c) := onlyStack_modStack _ _ _

theorem watchPanic_stack (s : State) (k : Fin 8) (c : Fin 32) : (s.watchPanic k c).hbmStacks[k] = { s.hbmStacks[k] with
    ch := vmod (s.hbmStacks[k]).ch c (fun ch => ch.watch (s.hbmStacks[k]).low.toNat (s.hbmStacks[k]).high.toNat) } := stack_modStack _ _ _

theorem watchPanic_chan (s : State) (k : Fin 8) (c : Fin 32) : ((s.watchPanic k c).hbmStacks[k]).ch[c] =
    (s.hbmStacks[k]).ch[c].watch (s.hbmStacks[k]).low.toNat (s.hbmStacks[k]).high.toNat := by
  rw [watchPanic_stack]
  exact vmod_get_same _ _ _

theorem watchPanic_calm (s : State) (k : Fin 8) (c : Fin 32) : (((s.watchPanic k c).hbmStacks[k]).ch[c]).calm = ((s.hbmStacks[k]).ch[c]).calm := by
  rw [watchPanic_chan]
  rfl

theorem watchPanic_eps (s : State) (k : Fin 8) (c : Fin 32) : ((s.watchPanic k c).hbmStacks[k]).eps = (s.hbmStacks[k]).eps := by
  rw [watchPanic_stack]

/-! ### The words of a memory endpoint (R161, R178, R194) -/

section
variable {k : Fin 8} {e : Fin 32} {s : State} {w : CWord}

theorem absorbStack_idle (h : ((s.hbmStacks[k]).eps[e]).word = none) : s.absorbStack k e = s := by
  simp only [State.absorbStack, h]

section
variable {n i : Fin 64} (hw : ((s.hbmStacks[k]).eps[e]).word = some w) (hd : ((s.hbmStacks[k]).eps[e]).dest = true)
  (hc : s.conduitSource (.stack k e) = some (.cal n i)) (hs : s.stackEnd n i = some (k, e))
include hw hd hc hs

theorem absorbStack_full (h : ((s.hbmStacks[k]).ch[e]).writeFree = 0) : s.absorbStack k e = s := by
  simp only [State.absorbStack, hw, hc, hd, hs, h, Bool.not_true, Bool.false_eq_true, ne_eq, not_true_eq_false, if_false, if_true]

theorem absorbStack_enters (h : 0 < ((s.hbmStacks[k]).ch[e]).writeFree) : s.absorbStack k e =
    (s.modStack k (fun st => { st with ch := vmod st.ch e (fun c => { c with wdata := c.wdata ++ [w] })
                                       eps := vmod st.eps e (fun p => { p with word := none }) })).watchPanic k e := by
  simp only [State.absorbStack, hw, hc, hd, hs, Nat.pos_iff_ne_zero.1 h, Bool.not_true, Bool.false_eq_true, ne_eq, not_true_eq_false, if_false]

end

/-- A word taken into the write buffer changes nothing else of the stack but its endpoint and its panic. -/
theorem absorbStack_frame (s : State) (k : Fin 8) (e : Fin 32) : OnlyStack k s (s.absorbStack k e)
    ∧ { (((s.absorbStack k e).hbmStacks[k]).ch[e]).calm with wdata := [] } = { ((s.hbmStacks[k]).ch[e]).calm with wdata := [] } := by
  unfold State.absorbStack
  dsimp only
  split
  · split
    · exact ⟨.refl _ _, rfl⟩
    · split
      · refine ⟨onlyStack_modStack _ _ _, ?_⟩
        simp only [State.modEp, stack_modStack]
      · split
        · exact ⟨.refl _ _, rfl⟩
        · refine ⟨(onlyStack_modStack _ _ _).trans (watchPanic_onlyStack _ _ _), ?_⟩
          rw [watchPanic_calm, stack_modStack]
          dsimp only
          rw [vmod_get_same]
          rfl
  · exact ⟨.refl _ _, rfl⟩

end

section
variable {k : Fin 8} {e : Fin 32} {s : State}

theorem offerStack_held (h : ((s.hbmStacks[k]).eps[e]).word.isSome = true) : s.offerStack k e = s := by
  unfold State.offerStack
  dsimp only
  split
  · exact if_neg fun hc => by rw [hc.2] at h; exact Bool.noConfusion h
  · rfl

/-- Each destination of a conduit learns of a word that is coming. -/
def State.foretell (x : LaneNote) (s : State) (d : EpRef) : State := s.modEp d (fun p => { p with coming := p.coming ++ [x] })

/-- The state after the oldest word of a read buffer has entered its endpoint. -/
def State.shifted (s : State) (k : Fin 8) (e : Fin 32) (x : CWord) (xs : List (CWord × LaneNote)) : State :=
  s.modStack k (fun st => { st with ch := vmod st.ch e (fun c => { c with rbuf := xs }), eps := vmod st.eps e (fun p => p.put x) })

theorem offerStack_leaves {x : CWord × LaneNote} {xs : List (CWord × LaneNote)} (hb : ((s.hbmStacks[k]).ch[e]).rbuf = x :: xs)
    (hs : ((s.hbmStacks[k]).eps[e]).source = true) (hw : ((s.hbmStacks[k]).eps[e]).word = none) :
    s.offerStack k e = ((s.conduitDests (.stack k e)).foldl (State.foretell x.2) (s.shifted k e x.1 xs)).watchPanic k e := by
  simp only [State.offerStack, hb, hs, hw, and_self, if_true]
  rfl

/-- Word and notes of an endpoint, as an announcement leaves them. -/
theorem foretell_stack (x : LaneNote) (s : State) (d : EpRef) (k : Fin 8) (e : Fin 32) :
    ((s.foretell x d).hbmStacks[k]).ch = (s.hbmStacks[k]).ch ∧ (((s.foretell x d).hbmStacks[k]).eps[e]).word = ((s.hbmStacks[k]).eps[e]).word := by
  cases d with
  | stack k' e' =>
    rw [State.foretell, State.modEp]
    obtain rfl | hk := eq_or_ne k k'
    · rw [stack_modStack]
      obtain rfl | he := eq_or_ne e e'
      · exact ⟨rfl, (congrArg Endpoint.word (vmod_get_same _ _ _) :)⟩
      · exact ⟨rfl, congrArg Endpoint.word (vmod_get_ne _ _ _ _ he)⟩
    · rw [stack_modStack_ne _ _ hk]
      exact ⟨rfl, rfl⟩
  | _ => exact ⟨rfl, rfl⟩

theorem foretell_cal (x : LaneNote) (s : State) (d : EpRef) (n i : Fin 64) :
    (((s.foretell x d).cals[n]).eps[i]).word = ((s.cals[n]).eps[i]).word
      ∧ (x ∈ ((s.cals[n]).eps[i]).coming ∨ d = .cal n i → x ∈ (((s.foretell x d).cals[n]).eps[i]).coming) := by
  cases d with
  | cal m j =>
    rw [State.foretell, State.modEp, EpRef.cal.injEq]
    obtain rfl | hn := eq_or_ne n m
    · rw [State.modCal_at]
      obtain rfl | hi := eq_or_ne i j
      · refine ⟨(congrArg Endpoint.word (vmod_get_same _ _ _) :), fun _ => ?_⟩
        rw [vmod_get_same]
        exact List.mem_append_right _ (List.mem_singleton.2 rfl)
      · rw [vmod_get_ne _ _ _ _ hi]
        exact ⟨rfl, fun h => h.elim id fun hc => absurd hc.2.symm hi⟩
    · rw [State.modCal_other _ _ _ _ hn]
      exact ⟨rfl, fun h => h.elim id fun hc => absurd hc.1.symm hn⟩
  | _ => exact ⟨rfl, fun h => h.elim id nofun⟩

theorem foldl_foretell_stack (x : LaneNote) (l : List EpRef) (s : State) (k : Fin 8) (e : Fin 32) :
    ((l.foldl (State.foretell x) s).hbmStacks[k]).ch = (s.hbmStacks[k]).ch
      ∧ (((l.foldl (State.foretell x) s).hbmStacks[k]).eps[e]).word = ((s.hbmStacks[k]).eps[e]).word := by
  induction l generalizing s with
  | nil => exact ⟨rfl, rfl⟩
  | cons d l ih => exact ⟨(ih _).1.trans (foretell_stack x s d k e).1, (ih _).2.trans (foretell_stack x s d k e).2⟩

theorem foldl_foretell_word (x : LaneNote) (l : List EpRef) (s : State) (n i : Fin 64) :
    (((l.foldl (State.foretell x) s).cals[n]).eps[i]).word = ((s.cals[n]).eps[i]).word := by
  induction l generalizing s with
  | nil => rfl
  | cons d l ih => exact (ih _).trans (foretell_cal x s d n i).1

theorem mem_coming_foldl_foretell (x : LaneNote) (l : List EpRef) (s : State) (n i : Fin 64)
    (h : x ∈ ((s.cals[n]).eps[i]).coming ∨ EpRef.cal n i ∈ l) : x ∈ (((l.foldl (State.foretell x) s).cals[n]).eps[i]).coming := by
  induction l generalizing s with
  | nil => exact h.elim id nofun
  | cons d l ih =>
    refine ih _ ?_
    rcases h with h | h
    · exact .inl ((foretell_cal x s d n i).2 (.inl h))
    · exact (List.mem_cons.1 h).imp (fun hd => (foretell_cal x s d n i).2 (.inr hd.symm)) id

theorem shifted_ch {x : CWord} {xs : List (CWord × LaneNote)} : ((s.shifted k e x xs).hbmStacks[k]).ch[e] = { (s.hbmStacks[k]).ch[e] with rbuf := xs } := by
  rw [State.shifted, stack_modStack]
  exact vmod_get_same _ _ _

theorem shifted_word {x : CWord} {xs : List (CWord × LaneNote)} : (((s.shifted k e x xs).hbmStacks[k]).eps[e]).word = some x := by
  rw [State.shifted, stack_modStack]
  dsimp only
  rw [vmod_get_same]
  rfl

/-- A word of the read buffer on its way: it holds the endpoint, and each destination knows of it. -/
theorem offerStack_effect {x : CWord × LaneNote} {xs : List (CWord × LaneNote)} (hb : ((s.hbmStacks[k]).ch[e]).rbuf = x :: xs)
    (hs : ((s.hbmStacks[k]).eps[e]).source = true) (hw : ((s.hbmStacks[k]).eps[e]).word = none) :
    (((s.offerStack k e).hbmStacks[k]).ch[e]).calm = { ((s.hbmStacks[k]).ch[e]).calm with rbuf := xs }
      ∧ (((s.offerStack k e).hbmStacks[k]).eps[e]).word = some x.1
      ∧ ∀ n i : Fin 64, EpRef.cal n i ∈ s.conduitDests (.stack k e) →
          x.2 ∈ (((s.offerStack k e).cals[n]).eps[i]).coming ∧ (((s.offerStack k e).cals[n]).eps[i]).word = ((s.cals[n]).eps[i]).word := by
  rw [offerStack_leaves hb hs hw, watchPanic_calm, watchPanic_eps]
  obtain ⟨hch, hword⟩ := foldl_foretell_stack x.2 (s.conduitDests (.stack k e)) (s.shifted k e x.1 xs) k e
  refine ⟨?_, hword.trans shifted_word, fun n i hm => ?_⟩
  · rw [hch, shifted_ch]
    rfl
  · exact ⟨mem_coming_foldl_foretell _ _ _ _ _ (.inr hm), foldl_foretell_word _ _ _ _ _⟩

end

/-- The word that has come to a slot's endpoint is taken; its bytes join the delivered ones where the slot waits for them. -/
theorem takeLane_effect {n k : Fin 64} {s : State} {w : CWord} {x : LaneNote} {xs : List LaneNote} (hw : ((s.cals[n]).eps[k]).word = some w)
    (hx : ((s.cals[n]).eps[k]).coming = x :: xs) : ∃ u, s.takeLane n k = some u ∧ OnlyCal n s u ∧ ((u.cals[n]).eps[k]).word = none
      ∧ ((u.cals[n]).eps[k]).coming = xs
      ∧ (x.who = .cal n k → x.epoch = ((s.cals[n]).streams[k]).epoch →
          x.pos = ((s.cals[n]).streams[k]).bufPos + ((s.cals[n]).streams[k]).inBuf.length →
          ((u.cals[n]).streams[k]).inBuf = ((s.cals[n]).streams[k]).inBuf ++ toBytes w x.len) := by
  have hlane : s.takeLane n k = some (if x.who = .cal n k ∧ x.epoch = ((s.cals[n]).streams[k]).epoch
      ∧ x.pos = ((s.cals[n]).streams[k]).bufPos + ((s.cals[n]).streams[k]).inBuf.length
      then (s.modEp (.cal n k) Endpoint.take).feed (.cal n k) (toBytes w x.len) else s.modEp (.cal n k) Endpoint.take) := by
    simp only [State.takeLane, hw, hx]
  have htake : ((Endpoint.take ((s.cals[n]).eps[k])).word = none) ∧ (Endpoint.take ((s.cals[n]).eps[k])).coming = xs := by
    simp only [Endpoint.take, hx, List.drop_succ_cons, List.drop_zero, and_self]
  by_cases h : x.who = .cal n k ∧ x.epoch = ((s.cals[n]).streams[k]).epoch ∧ x.pos = ((s.cals[n]).streams[k]).bufPos + ((s.cals[n]).streams[k]).inBuf.length
  · rw [if_pos h, feed_cal, State.modEp, State.modCal_modCal] at hlane
    refine ⟨_, hlane, onlyCal_modCal _ _ _, ?_⟩
    rw [State.modCal_at, fed_stream]
    dsimp only [Caldera.fed]
    rw [vmod_get_same]
    exact ⟨htake.1, htake.2, fun _ _ _ => rfl⟩
  · rw [if_neg h, State.modEp] at hlane
    refine ⟨_, hlane, onlyCal_modCal _ _ _, ?_⟩
    rw [State.modCal_at]
    dsimp only
    rw [vmod_get_same]
    exact ⟨htake.1, htake.2, fun h1 h2 h3 => absurd ⟨h1, h2, h3⟩ h⟩

/-! ### What a halt leaves of the memory (R150) -/

/-- Memory and its check bits, the stacks, and the bad-block log. -/
def State.memories (s : State) : Memory × Tbl (Vector (BitVec 4) 8) × Vector Stack 8 × RingLog (BitVec 256) :=
  (s.hbm, s.hbmMeta, s.hbmStacks, s.glb.bbl)

theorem memories_iff {s t : State} : t.memories = s.memories ↔
    t.hbm = s.hbm ∧ t.hbmMeta = s.hbmMeta ∧ t.hbmStacks = s.hbmStacks ∧ t.glb.bbl = s.glb.bbl := by
  simp only [State.memories, Prod.mk.injEq]

theorem Raised.memories {s t : State} (h : Raised s t) : t.memories = s.memories := by rw [h]; rfl

theorem modStm_memories (s : State) (r : SlotRef) (f : Stream → Stream) : (s.modStm r f).memories = s.memories := by cases r <;> rfl

theorem completeTo_memories (s : State) (serial : Nat) (ph : CmdPhase) (st : Nat) (d r0 : Word) (r1 : DWord) :
    (s.completeTo serial ph st d r0 r1).memories = s.memories := by rw [completeTo_frame]; rfl

theorem sendStopNotice_memories (s : State) (kind : BitVec 2) (f : BitVec 16) : (s.sendStopNotice kind f).memories = s.memories := by
  unfold State.sendStopNotice State.placeNotice
  split
  · split
    · exact (forwardNotice_raised _ _ _).memories
    · rfl
  · exact (report_raised _ _ _).memories

theorem stopIfHeld_memories (s : State) (h : PlanId) : (s.stopIfHeld h).memories = s.memories := by
  unfold State.stopIfHeld
  split
  · dsimp only
    split
    · rfl
    · split <;> rfl
  · rfl

theorem planStop_memories (s : State) (h : PlanId) (why : StopReason) (cal : Nat) : (s.planStop h why cal).memories = s.memories := by
  unfold State.planStop
  split
  · rfl
  · split
    · rfl
    · dsimp only
      split
      · exact sendStopNotice_memories _ _ _
      · exact stopIfHeld_memories _ _

theorem haltStream_memories (s : State) (r : SlotRef) (cause : Nat) (v : BitVec 21) : (s.haltStream r cause v).memories = s.memories := by
  have hglb (b : Prop) [Decidable b] (s1 : State) (f : Word → Word) :
      (if b then s1.modGlb (fun g => { g with sptFaultCnt := f g.sptFaultCnt }) else s1).memories = s1.memories := by split <;> rfl
  unfold State.haltStream
  dsimp only
  split
  · rw [planStop_memories]
    exact (hglb _ _ satInc).trans (modStm_memories _ _ _)
  · exact (completeTo_memories _ _ _ _ _ _ _).trans ((hglb _ _ satInc).trans (modStm_memories _ _ _))
  · exact (hglb _ _ satInc).trans (modStm_memories _ _ _)

/-- The parts of a stream that a halt sets and a rewind keeps. -/
def Stream.plight (t : Stream) : StmState × BitVec 4 × BitVec 21 × Nat := (t.st, t.cause, t.vpn, t.savePos)

theorem backTo_plight (t : Stream) (p : Nat) : (t.backTo p).plight = t.plight := by
  unfold Stream.backTo
  split <;> rfl

theorem haltStream_plight (s : State) (n k : Fin 64) (cause : Nat) (v : BitVec 21) :
    (((s.haltStream (.cal n k) cause v).cals[n]).streams[k]).plight =
      (.halted, BitVec.ofNat 4 cause, if causeHasVpn cause then v else ((s.cals[n]).streams[k]).vpn, s.savedPos (.cal n k)) := by
  obtain ⟨f, hf, hview⟩ := haltStream_view backTo_plight s n k cause v
  rw [hf, vmod_get_same, hview]
  exact congrArg Stream.plight (vmod_get_same _ _ _)

/-! ### The arrival of a request word (R189, R191, R194) -/

/-- A request word leaves its lane. -/
def State.dropLane (s : State) (l : LaneWord) : State := { s with lanes := s.lanes.erase l }

/-- A slot that a request names is halted. -/
def State.haltFor (s : State) (who : Option SlotRef) (cause : Nat) (v : BitVec 21) : State := who.elim s (fun w => s.haltStream w cause v)

/-- The request that a word asks for, its data not yet taken from the write buffer. -/
def State.asked (s : State) (port : MemPort) (l : LaneWord) : MemReq :=
  { id := s.cp.memId, block := rqBlock l.word, write := rqWrite l.word, spec := rqSpec l.word && !rqWrite l.word
    first := rqFirst l.word, last := rqLast l.word, data := l.data, port := port, who := l.who, ctx := l.ctx
    pos := l.pos, epoch := l.epoch, vpn := l.vpn, gen := l.gen, arrived := s.now }

/-- The words of the write buffer that a request takes. -/
def MemReq.bufWords (r : MemReq) : Nat := if r.port = .rt ∧ r.write then r.entries else 0

/-- A request with the data that the write buffer holds for it. -/
def Chan.filled (c : Chan) (q : MemReq) : MemReq := if q.bufWords = 0 then q else { q with data := c.writeData q.first.toNat q.bytes }

/-- A controller with one more request in its queue. -/
def Chan.joined (c : Chan) (q : MemReq) : Chan := { c with wdata := c.wdata.drop q.bufWords }.enqueue (c.filled q)

/-- The bytes of a write count as accepted at its stream. -/
def State.acceptFor (s : State) (q : MemReq) : State := if q.write then q.who.elim s (fun w => s.accepted w q.bytes) else s

/-- A request in its controller's queue. -/
def State.queued (s : State) (k : Fin 8) (c : Fin 32) (l : LaneWord) (q : MemReq) : State :=
  (((s.dropLane l).modCp (fun p => { p with memId := p.memId + 1 })).modChan k c (fun ch => ch.joined q)).acceptFor q

theorem filled_cases (c : Chan) (q : MemReq) : ∃ d, c.filled q = { q with data := d } := by
  unfold Chan.filled
  split
  · exact ⟨q.data, rfl⟩
  · exact ⟨_, rfl⟩

section
variable {k : Fin 8} {c : Fin 32} {port : MemPort} {s : State} {l : LaneWord}
  (hl : s.lanes.find? (fun l => l.stack == k && l.ch == c && l.port == port) = some l)
  (hw : ∀ w, l.who = some w → (s.stm w).epoch = l.epoch)
include hl hw

theorem exec_memRequest_bad (hb : rqBad l.word = true) : exec (.memRequest k c port) s =
    .next (((s.dropLane l).modChan k c (fun ch => { ch with badReq := satInc ch.badReq })).haltFor l.who 5 0) := by
  simp only [exec, execMemRequest, hl, hb, if_true]
  cases h : l.who with
  | none => rfl
  | some w => simp only [hw w h, BEq.rfl, Bool.not_true, Bool.false_eq_true, if_false]; rfl

variable (hb : rqBad l.word = false)
include hb

theorem exec_memRequest_outside (ho : (blockPlace (rqBlock l.word)).mapped = false
      ∨ port = .rt ∧ ((blockPlace (rqBlock l.word)).stack ≠ k.val ∨ (blockPlace (rqBlock l.word)).ch ≠ c.val)) :
    exec (.memRequest k c port) s = .next ((s.dropLane l).haltFor l.who 2 l.vpn) := by
  have ho' : (!(blockPlace (rqBlock l.word)).mapped) = true
      ∨ port = .rt ∧ ((blockPlace (rqBlock l.word)).stack ≠ k.val ∨ (blockPlace (rqBlock l.word)).ch ≠ c.val) :=
    ho.imp (fun h => by rw [h]; rfl) id
  simp only [exec, execMemRequest, hl, hb, ho', if_true, Bool.false_eq_true, if_false]
  cases h : l.who with
  | none => rfl
  | some w => simp only [hw w h, BEq.rfl, Bool.not_true, Bool.false_eq_true, if_false]; rfl

variable (hm : (blockPlace (rqBlock l.word)).mapped = true)
  (hp : port = .rt → (blockPlace (rqBlock l.word)).stack = k.val ∧ (blockPlace (rqBlock l.word)).ch = c.val)
include hm hp

theorem exec_memRequest_placed : exec (.memRequest k c port) s =
    if ((s.hbmStacks[k]).ch[c]).wdata.length < (s.asked port l).bufWords then .next s
    else .next (((s.queued k c l (s.asked port l)).watchPanic k c).absorbStack k c) := by
  have ho : ¬((!(blockPlace (rqBlock l.word)).mapped) = true
      ∨ port = .rt ∧ ((blockPlace (rqBlock l.word)).stack ≠ k.val ∨ (blockPlace (rqBlock l.word)).ch ≠ c.val)) := by
    rintro (h | ⟨h, h'⟩)
    · rw [hm] at h
      exact Bool.noConfusion h
    · exact h'.elim (fun h' => h' (hp h).1) (fun h' => h' (hp h).2)
  have hlive : (!(match l.who with
      | some w => (s.stm w).epoch == l.epoch
      | none => true)) = false := by
    cases h : l.who with
    | none => rfl
    | some w => simp only [hw w h, BEq.rfl, Bool.not_true]
  show execMemRequest k c port s = _
  unfold execMemRequest
  rw [hl]
  dsimp -zeta only
  extract_lets s0 live _ p ch q words r s1 s2
  rw [if_neg (show ¬(!live) = true from ne_of_eq_of_ne hlive Bool.false_ne_true), if_neg (by rw [hb]; exact Bool.noConfusion), if_neg ho]
  have hs1 : s1 = (((s.dropLane l).modCp (fun p => { p with memId := p.memId + 1 })).modChan k c (fun ch => ch.joined (s.asked port l))) :=
    State.modChan_congr rfl
  have hs2 : s2 = s.queued k c l (s.asked port l) := by
    obtain ⟨d, hd⟩ := filled_cases ch q
    have hr : r = { q with data := d } := hd
    have hq : (s.asked port l).who = l.who := rfl
    have hqr : q = s.asked port l := rfl
    simp only [s2, State.queued, State.acceptFor, hs1, hr, hq, hqr]
    cases (s.asked port l).write with
    | false => rfl
    | true => cases l.who <;> rfl
  rw [hs2]
  rfl

end

/-! ### What a queued request leaves (R132, R189, R194) -/

/-- A controller apart from its panic and its write buffer. -/
def Chan.core (c : Chan) : Chan := { c.calm with wdata := [] }

/-- The tests at the end of an arrival: panic, then a word that waits at the endpoint. -/
def State.settled (s : State) (k : Fin 8) (c : Fin 32) : State := (s.watchPanic k c).absorbStack k c

theorem settled_onlyStack (s : State) (k : Fin 8) (c : Fin 32) : OnlyStack k s (s.settled k c) :=
  (watchPanic_onlyStack _ _ _).trans (absorbStack_frame _ _ _).1

theorem settled_core (s : State) (k : Fin 8) (c : Fin 32) :
    (((s.settled k c).hbmStacks[k]).ch[c]).core = ((s.hbmStacks[k]).ch[c]).core :=
  (absorbStack_frame _ _ _).2.trans (congrArg (fun x : Chan => { x with wdata := [] }) (watchPanic_calm _ _ _))

theorem settled_wdata {s : State} {k : Fin 8} {c : Fin 32} (h : ((s.hbmStacks[k]).eps[c]).word = none) :
    (((s.settled k c).hbmStacks[k]).ch[c]).wdata = ((s.hbmStacks[k]).ch[c]).wdata := by
  rw [State.settled, absorbStack_idle (by rw [watchPanic_eps]; exact h)]
  exact (congrArg Chan.wdata (watchPanic_calm s k c) :)

theorem joined_queue (ch : Chan) (q : MemReq) : (ch.joined q).queue = ch.queue ++ [ch.filled q] := rfl
theorem joined_wdata (ch : Chan) (q : MemReq) : (ch.joined q).wdata = ch.wdata.drop q.bufWords := rfl
theorem joined_badReq (ch : Chan) (q : MemReq) : (ch.joined q).badReq = ch.badReq := rfl

theorem accepted_stacks (s : State) (w : SlotRef) (m : Nat) : (s.accepted w m).hbmStacks = s.hbmStacks := by cases w <;> rfl

theorem acceptFor_stacks (s : State) (q : MemReq) : (s.acceptFor q).hbmStacks = s.hbmStacks := by
  unfold State.acceptFor
  split
  · cases q.who with
    | none => rfl
    | some w => exact accepted_stacks _ _ _
  · rfl

theorem acceptFor_read (s : State) {q : MemReq} (h : q.write = false) : s.acceptFor q = s := if_neg (by rw [h]; exact Bool.noConfusion)

theorem acceptFor_write (s : State) {q : MemReq} {w : SlotRef} (h : q.write = true) (hw : q.who = some w) : s.acceptFor q = s.accepted w q.bytes := by
  rw [State.acceptFor, if_pos h, hw, Option.elim_some]

/-- The position of a slot after bytes of it have been accepted (R132). -/
theorem accepted_pos (s : State) (n i : Fin 64) (m : Nat) :
    (((s.accepted (.cal n i) m).cals[n]).streams[i]).pos = ((s.cals[n]).streams[i]).pos + m := by
  rw [State.accepted, State.modStm, State.modCal_modCal, State.modCal_at]
  exact (congrArg Stream.pos (vmod_get_same _ _ _) :)

theorem acceptFor_cp (s : State) {q : MemReq} (h : ∀ w, q.who = some w → ∃ i, w = .cp i) : ∃ v,
    s.acceptFor q = { s with cp := { s.cp with streams := v } } := by
  unfold State.acceptFor
  split
  · cases hw : q.who with
    | none => exact ⟨_, rfl⟩
    | some w =>
      obtain ⟨i, rfl⟩ := h w hw
      exact ⟨_, rfl⟩
  · exact ⟨_, rfl⟩

section
variable (s : State) (k : Fin 8) (c : Fin 32) (l : LaneWord) (q : MemReq)

theorem queued_chan : ((s.queued k c l q).hbmStacks[k]).ch[c] = ((s.hbmStacks[k]).ch[c]).joined q := by
  rw [State.queued, acceptFor_stacks]
  exact chan_modChan _ _ _ _

theorem queued_eps : ((s.queued k c l q).hbmStacks[k]).eps = (s.hbmStacks[k]).eps := by
  rw [State.queued, acceptFor_stacks, State.modChan, stack_modStack]
  rfl

/-- The controller once a request has arrived. -/
theorem settled_queued_chan : ((((s.queued k c l q).settled k c).hbmStacks[k]).ch[c]).queue = ((s.hbmStacks[k]).ch[c]).queue ++ [((s.hbmStacks[k]).ch[c]).filled q]
    ∧ ((((s.queued k c l q).settled k c).hbmStacks[k]).ch[c]).badReq = ((s.hbmStacks[k]).ch[c]).badReq := by
  have h := settled_core (s.queued k c l q) k c
  rw [queued_chan] at h
  exact ⟨(congrArg Chan.queue h :), (congrArg Chan.badReq h :)⟩

theorem settled_queued_wdata (h : ((s.hbmStacks[k]).eps[c]).word = none) :
    ((((s.queued k c l q).settled k c).hbmStacks[k]).ch[c]).wdata = ((s.hbmStacks[k]).ch[c]).wdata.drop q.bufWords := by
  rw [settled_wdata (by rw [queued_eps]; exact h), queued_chan, joined_wdata]

end

/-- A request of the free port, or a read, takes nothing from the write buffer. -/
theorem filled_self (ch : Chan) {q : MemReq} (h : q.bufWords = 0) : ch.filled q = q := if_pos h

theorem bufWords_free {q : MemReq} (h : q.port = .free) : q.bufWords = 0 := if_neg fun hc => by rw [h] at hc; exact nomatch hc.1
theorem bufWords_read {q : MemReq} (h : q.write = false) : q.bufWords = 0 := if_neg fun hc => by rw [h] at hc; exact Bool.noConfusion hc.2

section
variable {k : Fin 8} {c : Fin 32} {port : MemPort} {s : State} {l : LaneWord}
  (hl : s.lanes.find? (fun l => l.stack == k && l.ch == c && l.port == port) = some l)
  (hw : ∀ w, l.who = some w → (s.stm w).epoch = l.epoch) (hb : rqBad l.word = false)
  (hm : (blockPlace (rqBlock l.word)).mapped = true)
  (hp : port = .rt → (blockPlace (rqBlock l.word)).stack = k.val ∧ (blockPlace (rqBlock l.word)).ch = c.val)
include hl hw hb hm hp

theorem exec_memRequest_queues (hr : (s.asked port l).bufWords ≤ ((s.hbmStacks[k]).ch[c]).wdata.length) :
    exec (.memRequest k c port) s = .next ((s.queued k c l (s.asked port l)).settled k c) :=
  (exec_memRequest_placed hl hw hb hm hp).trans (if_neg (Nat.not_lt.2 hr))

theorem exec_memRequest_waits (hr : ((s.hbmStacks[k]).ch[c]).wdata.length < (s.asked port l).bufWords) :
    exec (.memRequest k c port) s = .next s :=
  (exec_memRequest_placed hl hw hb hm hp).trans (if_pos hr)

end

section
/-! A request word of the free port from a slot of the command processor, or from none. -/

theorem memRequest_arrives {k : Fin 8} {c : Fin 32} {s : State} {l : LaneWord}
    (hl : s.lanes.find? (fun l => l.stack == k && l.ch == c && l.port == MemPort.free) = some l) (hb : rqBad l.word = false)
    (hm : (blockPlace (rqBlock l.word)).mapped = true) (hw : ∀ w, l.who = some w → (∃ i, w = .cp i) ∧ (s.stm w).epoch = l.epoch) :
    ∃ (u : State) (r : MemReq), exec (.memRequest k c .free) s = .next u
      ∧ u = { s with lanes := s.lanes.erase l, cp := u.cp, hbmStacks := u.hbmStacks } ∧ u.cp.memId = s.cp.memId + 1
      ∧ ((u.hbmStacks[k]).ch[c]).queue = ((s.hbmStacks[k]).ch[c]).queue ++ [r] ∧ r.id = s.cp.memId
      ∧ r.block = fld l.word 0 32 ∧ r.write = bitAt l.word 32 ∧ r.first = fld l.word 34 8 ∧ r.last = fld l.word 42 8
      ∧ r.data = l.data ∧ r.who = l.who ∧ r.ctx = l.ctx ∧ r.arrived = s.now ∧ r.rereads = 0
      ∧ ((u.hbmStacks[k]).ch[c]).badReq = ((s.hbmStacks[k]).ch[c]).badReq := by
  have h0 : (s.asked .free l).bufWords = 0 := bufWords_free rfl
  have hx := exec_memRequest_queues hl (fun w h => (hw w h).2) hb hm nofun (by rw [h0]; exact Nat.zero_le _)
  obtain ⟨hqueue, hbad⟩ := settled_queued_chan s k c l (s.asked .free l)
  rw [filled_self _ h0] at hqueue
  obtain ⟨v, hv⟩ := acceptFor_cp (((s.dropLane l).modCp (fun p => { p with memId := p.memId + 1 })).modChan k c (fun ch => ch.joined (s.asked .free l)))
    (q := s.asked .free l) (fun w h => (hw w h).1)
  have honly := settled_onlyStack (s.queued k c l (s.asked .free l)) k c
  generalize (s.queued k c l (s.asked .free l)).settled k c = u at hx hqueue hbad honly
  have hu : u = { s with lanes := s.lanes.erase l, cp := { s.cp with memId := s.cp.memId + 1, streams := v }, hbmStacks := u.hbmStacks } := by
    rw [OnlyStack, State.queued, hv] at honly
    rw [honly]
    rfl
  have hcp := congrArg State.cp hu
  refine ⟨u, _, hx, ?_, congrArg CmdProc.memId hcp, hqueue, rfl, rfl, rfl, rfl, rfl, rfl, rfl, rfl, rfl, rfl, hbad⟩
  rw [hcp]
  exact hu

end

section
/-! A request word from a slot of a caldera, in the slot's present epoch. -/

variable {k : Fin 8} {c : Fin 32} {port : MemPort} {s : State} {l : LaneWord} {n i : Fin 64}
  (hl : s.lanes.find? (fun l => l.stack == k && l.ch == c && l.port == port) = some l)
  (hw : l.who = some (.cal n i)) (he : ((s.cals[n]).streams[i]).epoch = l.epoch)
include hl hw he

theorem memRequest_counted (hb : rqBad l.word = true) : ∃ u, exec (.memRequest k c port) s = .next u ∧ ((u.cals[n]).streams[i]).st = .halted
    ∧ ((u.cals[n]).streams[i]).cause = 5 ∧ u.hbm = s.hbm
    ∧ ((u.hbmStacks[k]).ch[c]).badReq = satInc ((s.hbmStacks[k]).ch[c]).badReq ∧ ((u.hbmStacks[k]).ch[c]).queue = ((s.hbmStacks[k]).ch[c]).queue := by
  have hx := exec_memRequest_bad hl (fun w h => by cases hw.symm.trans h; exact he) hb
  rw [hw, State.haltFor, Option.elim_some] at hx
  obtain ⟨hhbm, -, hst, -⟩ := memories_iff.1 (haltStream_memories ((s.dropLane l).modChan k c (fun ch => { ch with badReq := satInc ch.badReq })) (.cal n i) 5 0)
  obtain ⟨hhalt, hcause, -⟩ := Prod.mk.inj (haltStream_plight ((s.dropLane l).modChan k c (fun ch => { ch with badReq := satInc ch.badReq })) n i 5 0) |>.imp id Prod.mk.inj
  refine ⟨_, hx, hhalt, hcause, hhbm, ?_⟩
  rw [hst, chan_modChan]
  exact ⟨rfl, rfl⟩

theorem memRequest_refused (hb : rqBad l.word = false) (ho : (blockPlace (rqBlock l.word)).mapped = false
      ∨ port = .rt ∧ ((blockPlace (rqBlock l.word)).stack ≠ k.val ∨ (blockPlace (rqBlock l.word)).ch ≠ c.val)) :
    ∃ u, exec (.memRequest k c port) s = .next u ∧ ((u.cals[n]).streams[i]).st = .halted ∧ ((u.cals[n]).streams[i]).cause = 2
      ∧ ((u.cals[n]).streams[i]).vpn = l.vpn ∧ u.hbm = s.hbm ∧ u.hbmStacks = s.hbmStacks := by
  have hx := exec_memRequest_outside hl (fun w h => by cases hw.symm.trans h; exact he) hb ho
  rw [hw, State.haltFor, Option.elim_some] at hx
  obtain ⟨hhbm, -, hst, -⟩ := memories_iff.1 (haltStream_memories (s.dropLane l) (.cal n i) 2 l.vpn)
  have hp := haltStream_plight (s.dropLane l) n i 2 l.vpn
  simp only [Stream.plight, Prod.mk.injEq] at hp
  obtain ⟨hhalt, hcause, hvpn, -⟩ := hp
  exact ⟨_, hx, hhalt, hcause, hvpn, hhbm, hst⟩

variable (hb : rqBad l.word = false) (hm : (blockPlace (rqBlock l.word)).mapped = true)
include hb hm

theorem memRequest_reads (hr : rqWrite l.word = false)
    (hp : port = .rt → (blockPlace (rqBlock l.word)).stack = k.val ∧ (blockPlace (rqBlock l.word)).ch = c.val) :
    ∃ (u : State) (r : MemReq), exec (.memRequest k c port) s = .next u ∧ u.cals = s.cals
      ∧ ((u.hbmStacks[k]).ch[c]).queue = ((s.hbmStacks[k]).ch[c]).queue ++ [r] ∧ r.write = false ∧ r.who = l.who
      ∧ r.block = fld l.word 0 32 ∧ r.first = fld l.word 34 8 ∧ r.last = fld l.word 42 8 := by
  have h0 : (s.asked port l).bufWords = 0 := bufWords_read hr
  have hx := exec_memRequest_queues hl (fun w h => by cases hw.symm.trans h; exact he) hb hm hp (by rw [h0]; exact Nat.zero_le _)
  obtain ⟨hqueue, -⟩ := settled_queued_chan s k c l (s.asked port l)
  rw [filled_self _ h0] at hqueue
  refine ⟨_, _, hx, ?_, hqueue, hr, rfl, rfl, rfl, rfl⟩
  rw [(settled_onlyStack _ k c).cals, State.queued, acceptFor_read _ hr]
  rfl

theorem memRequest_writes {m : Nat} (hport : port = .rt) (hs : (blockPlace (rqBlock l.word)).stack = k.val)
    (hc : (blockPlace (rqBlock l.word)).ch = c.val) (hr : rqWrite l.word = true) (hn : m = (rqLast l.word).toNat + 1 - (rqFirst l.word).toNat) :
    (((s.hbmStacks[k]).ch[c]).wdata.length < (m + 63) / 64 → exec (.memRequest k c port) s = .next s) ∧
    ((m + 63) / 64 ≤ ((s.hbmStacks[k]).ch[c]).wdata.length →
      ∃ (u : State) (r : MemReq), exec (.memRequest k c port) s = .next u
        ∧ ((u.hbmStacks[k]).ch[c]).queue = ((s.hbmStacks[k]).ch[c]).queue ++ [r]
        ∧ r.data = ((s.hbmStacks[k]).ch[c]).writeData (rqFirst l.word).toNat m ∧ r.write = true
        ∧ (((s.hbmStacks[k]).eps[c]).word = none →
            ((u.hbmStacks[k]).ch[c]).wdata = ((s.hbmStacks[k]).ch[c]).wdata.drop ((m + 63) / 64))
        ∧ ((u.cals[n]).streams[i]).pos = ((s.cals[n]).streams[i]).pos + m) := by
  subst hn hport
  have hwords : (s.asked .rt l).bufWords = ((rqLast l.word).toNat + 1 - (rqFirst l.word).toNat + 63) / 64 := if_pos ⟨rfl, hr⟩
  have hlive : ∀ w, l.who = some w → (s.stm w).epoch = l.epoch := fun w h => by cases hw.symm.trans h; exact he
  rw [← hwords]
  refine ⟨exec_memRequest_waits hl hlive hb hm (fun _ => ⟨hs, hc⟩), fun hlen => ?_⟩
  have hle : (rqFirst l.word).toNat ≤ (rqLast l.word).toNat := by
    simp only [rqBad, Bool.or_eq_false_iff, decide_eq_false_iff_not, Nat.not_lt] at hb
    exact hb.1
  have h0 : (s.asked .rt l).bufWords ≠ 0 := by rw [hwords]; omega
  obtain ⟨hqueue, -⟩ := settled_queued_chan s k c l (s.asked .rt l)
  rw [Chan.filled, if_neg h0] at hqueue
  refine ⟨_, _, exec_memRequest_queues hl hlive hb hm (fun _ => ⟨hs, hc⟩) hlen, hqueue, rfl, hr, settled_queued_wdata s k c l _, ?_⟩
  rw [(settled_onlyStack _ k c).cals, State.queued, acceptFor_write _ hr hw, accepted_pos]
  rfl

end

/-! ### The next command of a controller (R193, R195, R196) -/

theorem find?_range_self {m x : Nat} (h : x < m) (p : Nat → Bool) (hp : ∀ j, p j = true ↔ x = j) : (List.range m).find? p = some x := by
  rw [List.find?_range_eq_some]
  exact ⟨(hp x).2 rfl, List.mem_range.2 h, fun j hj => by rw [Bool.not_eq_true', Bool.eq_false_iff]; exact fun hc => (Nat.ne_of_gt hj) ((hp j).1 hc)⟩

theorem classOf_lt (ch : Chan) (now : Nat) (r : MemReq) : ch.classOf now r < 7 := by
  unfold Chan.classOf
  repeat' split
  all_goals decide

theorem pick_alone (ch : Chan) (r : MemReq) : ch.pick [r] = some r := by
  cases h : ch.rowHit r <;> simp [Chan.pick, h]

/-- Requests that their streams no longer want leave the queue. -/
def State.pruned (s : State) (k : Fin 8) (c : Fin 32) : State := s.modChan k c (fun ch => { ch with queue := ch.queue.filter (fun r => !s.stale r) })

theorem pruned_live {s : State} {k : Fin 8} {c : Fin 32} (h : ∀ r ∈ ((s.hbmStacks[k]).ch[c]).queue, s.stale r = false) : s.pruned k c = s := by
  refine State.modChan_self ?_
  have hq : ((s.hbmStacks[k]).ch[c]).queue.filter (fun r => !s.stale r) = ((s.hbmStacks[k]).ch[c]).queue :=
    List.filter_eq_self.2 fun r hr => by rw [h r hr]; rfl
  rw [hq]

section
/-! The issue from the requests of `t`, the state without those that their streams no longer want. -/

variable {k : Fin 8} {c : Fin 32} {s t : State} {ch : Chan} (ht : s.pruned k c = t) (hc : ((t.hbmStacks[k]).ch[c]) = ch)
include ht hc

theorem exec_memCommandIssue_idle (hr : ch.queue.filter ch.mayIssueReq = []) (hf : ch.refreshOf (s.hbmStacks[k]).postMax.toNat = none) :
    exec (.memCommandIssue k c) s = .next (t.watchPanic k c) := by
  have hnone : (List.range 7).find? (fun j => ([] : List MemReq).any (fun r => ch.classOf s.now r == j)) = none :=
    List.find?_eq_none.2 fun _ _ => by rw [List.any_nil]; exact Bool.noConfusion
  show execMemCommandIssue k c s = _
  unfold execMemCommandIssue
  extract_lets st s0 ch' ready cls req
  obtain rfl : s0 = t := ht
  obtain rfl : ch' = ch := hc
  have hcls : cls = none := by rw [← hnone, ← hr]
  have hreq : req = none := by simp only [req, hcls, Option.bind_none]
  rw [show ch'.refreshOf st.postMax.toNat = none from hf, hreq]

theorem exec_memCommandIssue_refresh {i : Fin 2} {x : Nat} (hr : ch.queue.filter ch.mayIssueReq = [])
    (hf : ch.refreshOf (s.hbmStacks[k]).postMax.toNat = some (i, x)) :
    exec (.memCommandIssue k c) s = .next (t.draw.2.modChan k c (fun ch => ch.refresh i (nfld t.draw.1 0 4) (s.hbmStacks[k]).postMax.toNat)) := by
  have hnone : (List.range 7).find? (fun j => ([] : List MemReq).any (fun r => ch.classOf s.now r == j)) = none :=
    List.find?_eq_none.2 fun _ _ => by rw [List.any_nil]; exact Bool.noConfusion
  show execMemCommandIssue k c s = _
  unfold execMemCommandIssue
  extract_lets st s0 ch' ready cls req
  obtain rfl : s0 = t := ht
  obtain rfl : ch' = ch := hc
  have hcls : cls = none := by rw [← hnone, ← hr]
  rw [show ch'.refreshOf st.postMax.toNat = some (i, x) from hf, hcls]

theorem exec_memCommandIssue_issues {r : MemReq} (hr : ch.queue.filter ch.mayIssueReq = [r]) (hf : ch.refreshOf (s.hbmStacks[k]).postMax.toNat = none) :
    exec (.memCommandIssue k c) s = .next ((t.issueReq k c r).watchPanic k c) := by
  have hsome : (List.range 7).find? (fun j => [r].any (fun r => ch.classOf s.now r == j)) = some (ch.classOf s.now r) :=
    find?_range_self (classOf_lt _ _ _) _ fun j => by simp
  show execMemCommandIssue k c s = _
  unfold execMemCommandIssue
  extract_lets st s0 ch' ready cls req
  obtain rfl : s0 = t := ht
  obtain rfl : ch' = ch := hc
  have hcls : cls = some (ch'.classOf s.now r) := by rw [← hsome, ← hr]
  have hpick : ready.filter (fun q => ch'.classOf s.now q == ch'.classOf s.now r) = [r] := by
    rw [show ready = [r] from hr, List.filter_cons_of_pos (by simp), List.filter_nil]
  have hreq : req = some r := by
    simp only [req, hcls, Option.bind_some, hpick, pick_alone]
  rw [show ch'.refreshOf st.postMax.toNat = none from hf, hreq]

end

/-! ### A block in memory with its check (R198, R199) -/

theorem tfind_tins {α : Type} (k : Nat) (v : α) (t : Tbl α) (j : Nat) (hk : ∀ e ∈ t, e.1 ≠ k) :
    tfind (tins k v t) j = if j = k then some v else tfind t j := by
  induction t with
  | nil => simp [tins, tfind, eq_comm]
  | cons f t ih =>
    obtain ⟨i, w⟩ := f
    have hi : i ≠ k := hk (i, w) (by simp)
    have ih' := ih (fun e he => hk e (by simp [he]))
    unfold tins
    split
    · simp only [tfind, eq_comm (a := k)]
    · by_cases hij : i = j
      · subst hij
        simp [tfind, hi]
      · simp [tfind, hij, ih']

theorem tfind_filter {α : Type} (p : Nat → Bool) (t : Tbl α) (j : Nat) :
    tfind (t.filter (fun e => p e.1)) j = if p j then tfind t j else none := by
  induction t with
  | nil => simp [tfind]
  | cons f t ih =>
    obtain ⟨i, w⟩ := f
    rw [List.filter_cons]
    by_cases hij : i = j
    · subst hij
      cases hp : p i <;> simp [tfind, ih, hp]
    · cases hp : p i <;> simp [tfind, ih, hij]

theorem tfind_tdel {α : Type} (t : Tbl α) (k j : Nat) : tfind (tdel t k) j = if j = k then none else tfind t j := by
  rw [tdel, tfind_filter (fun i => i != k)]
  by_cases h : j = k <;> simp [h]

theorem tfind_tput {α : Type} (t : Tbl α) (k : Nat) (v : α) (j : Nat) : tfind (tput t k v) j = if j = k then some v else tfind t j := by
  rw [tput, tfind_tins k v _ j (tdel_ne t k), tfind_tdel]
  split <;> rfl

theorem metaOf_get (w : Word) (k : Fin 8) : (metaOf w)[k] = fld w (4 * k.val) 4 := by
  simp [metaOf, burstBits]

/-- A nibble of a word, put back in its place. -/
theorem getLsbD_nibble (w : Word) (k i : Nat) (hi : i < 32) : (at_ 32 (4 * k) (fld w (4 * k) 4)).getLsbD i = (decide (i / 4 = k) && w.getLsbD i) := by
  simp only [at_, fld, BitVec.getLsbD_shiftLeft, BitVec.getLsbD_setWidth, BitVec.getLsbD_extractLsb']
  by_cases h : i / 4 = k
  · simp [h, hi, show ¬i < 4 * k by omega, show i - 4 * k < 32 by omega, show i - 4 * k < 4 by omega, show 4 * k + (i - 4 * k) = i by omega]
  · by_cases h' : i < 4 * k
    · simp [h, h']
    · simp [h, show ¬i - 4 * k < 4 by omega]

/-- The bits of the eight bursts, put together. -/
theorem burstCheck_metaOf (w : Word) : burstCheck (metaOf w) = w := by
  have hl : List.finRange 8 = [0, 1, 2, 3, 4, 5, 6, 7] := by decide
  apply BitVec.eq_of_getLsbD_eq
  intro i hi
  have h8 : i / 4 < 8 := by omega
  simp only [burstCheck, metaOf_get, hl, List.foldl_cons, List.foldl_nil, BitVec.getLsbD_or, getLsbD_nibble w _ i hi]
  generalize i / 4 = j at h8 ⊢
  interval_cases j <;> simp

theorem storedCheck_congr {s t : State} (h : t.hbm = s.hbm) (h' : t.hbmMeta = s.hbmMeta) (b : Word) : t.storedCheck b = s.storedCheck b := by
  unfold State.storedCheck State.storedBlock
  rw [h, h']

theorem storedCheck_storeBlock (s : State) (ctx : Byte) (b : Word) (d : Data2048) :
    (s.storeBlock ctx b d).storedCheck b = blockCheck b (toBytes (cipherBlock (s.memKey ctx) b d) 256) := by
  have hm : tfind (s.storeBlock ctx b d).hbmMeta b.toNat = some (metaOf (blockCheck b (toBytes (cipherBlock (s.memKey ctx) b d) 256))) :=
    (tfind_tput _ _ _ _).trans (if_pos rfl)
  rw [State.storedCheck, hm]
  exact burstCheck_metaOf _

theorem storeBlock_hbm (s : State) (ctx : Byte) (b : Word) (d : Data2048) :
    (s.storeBlock ctx b d).hbm = mwriteN s.hbm (b.toNat * 256) (toBytes (cipherBlock (s.memKey ctx) b d) 256) := by
  simp only [State.storeBlock]

theorem storeBlock_frame (s : State) (ctx : Byte) (b : Word) (d : Data2048) :
    s.storeBlock ctx b d = { s with hbm := (s.storeBlock ctx b d).hbm, hbmMeta := (s.storeBlock ctx b d).hbmMeta } := by
  simp only [State.storeBlock]

theorem mread_storeBlock_in (s : State) (ctx : Byte) (b : Word) (d : Data2048) {i : Nat} (hi : i < 256) :
    mread (s.storeBlock ctx b d).hbm (b.toNat * 256 + i) = fld (cipherBlock (s.memKey ctx) b d) (8 * i) 8 := by
  rw [storeBlock_hbm, mread_mwriteN_in _ _ _ i (by rwa [length_toBytes]), getElem_toBytes]

theorem mread_storeBlock_out (s : State) (ctx : Byte) (b : Word) (d : Data2048) {a : Nat} (ha : a < b.toNat * 256 ∨ b.toNat * 256 + 256 ≤ a) :
    mread (s.storeBlock ctx b d).hbm a = mread s.hbm a := by
  rw [storeBlock_hbm, mread_mwriteN_out _ _ _ _ (by rwa [length_toBytes])]

/-! ### What an issued command leaves (R192, R195, R199) -/

theorem refreshOf_waits {ch : Chan} {m x : Nat} {i : Fin 2} (h : ch.refreshOf m = some (i, x)) :
    m < ch.postponed[i] ∨ 0 < ch.urgent[i] ∨ 0 < ch.due[i] + ch.postponed[i] := by
  unfold Chan.refreshOf at h
  split at h
  · next j hj =>
    have hd : decide (m < ch.postponed[j] ∨ 0 < ch.urgent[j]) = true := List.find?_some (p := fun j => decide (m < ch.postponed[j] ∨ 0 < ch.urgent[j])) hj
    cases h
    exact (of_decide_eq_true hd).imp id .inl
  · split at h
    · cases h
    · split at h
      · next j hj =>
        have hd : decide (0 < ch.due[j] + ch.postponed[j]) = true := List.find?_some (p := fun j => decide (0 < ch.due[j] + ch.postponed[j])) hj
        cases h
        exact .inr (.inr (of_decide_eq_true hd))
      · cases h

/-- A refresh that is issued is one fewer that waits. -/
theorem refresh_counts (ch : Chan) (i : Fin 2) (bank m : Nat) (h : m < ch.postponed[i] ∨ 0 < ch.urgent[i] ∨ 0 < ch.due[i] + ch.postponed[i]) :
    (ch.refresh i bank m).due[i] + (ch.refresh i bank m).postponed[i] + (ch.refresh i bank m).urgent[i] + 1
      = ch.due[i] + ch.postponed[i] + ch.urgent[i] := by
  unfold Chan.refresh
  dsimp only
  split
  · dsimp only [Chan.closeRow]
    rw [vmod_get_same]
    omega
  · split
    · dsimp only [Chan.closeRow]
      rw [vmod_get_same]
      omega
    · split
      · dsimp only [Chan.closeRow]
        rw [vmod_get_same]
        omega
      · dsimp only [Chan.closeRow]
        rw [vmod_get_same]
        omega

/-- A request taken from the queue for issue, its row opened. -/
def Chan.takes (ch : Chan) (now idle : Nat) (r : MemReq) : Chan := { (ch.openRow now r.block idle) with queue := ch.queue.erase r }

theorem openRow_frame (ch : Chan) (now idle : Nat) (b : Word) : ch.openRow now b idle = { ch with
    openRows := (ch.openRow now b idle).openRows, rowDue := (ch.openRow now b idle).rowDue, rowMiss := (ch.openRow now b idle).rowMiss } := by
  unfold Chan.openRow Chan.closeRow
  dsimp only
  split <;> split <;> rfl

theorem takes_frame (ch : Chan) (now idle : Nat) (r : MemReq) : ch.takes now idle r = { ch with
    queue := ch.queue.erase r, openRows := (ch.takes now idle r).openRows, rowDue := (ch.takes now idle r).rowDue, rowMiss := (ch.takes now idle r).rowMiss } := by
  unfold Chan.takes
  rw [openRow_frame]

theorem readRoom_false_iff (ch : Chan) (r : MemReq) : ch.readRoom r = false ↔ r.write = false ∧ r.port = .rt
    ∧ 64 < ch.rbuf.length + ((ch.inflight.filter (fun q => !q.write && q.port == .rt)).map (fun q => (q.bytes + 63) / 64)).sum + (r.bytes + 63) / 64 := by
  rw [Chan.readRoom, Bool.or_eq_false_iff, Bool.or_eq_false_iff, decide_eq_false_iff_not, Nat.not_le, bne_eq_false_iff_eq, and_assoc]
  rfl

section
variable {k : Fin 8} {c : Fin 32} {s : State}

theorem issueReq_whole {r : MemReq} (hw : r.write = true) (hf : r.first = 0) (hl : r.last = 0xFF) : s.issueReq k c r =
    ((s.modStack k (fun st => { st with ch := vmod st.ch c (fun ch => ch.takes s.now st.idle.toNat r) })).storeBlock r.ctx r.block r.data).modChan k c
      (fun ch => { ch with wr := satInc ch.wr }) := by
  rw [State.issueReq]
  dsimp only
  rw [if_pos hw, if_neg (by simp [MemReq.partialWrite, hf, hl])]
  rfl

theorem issueReq_partial {r : MemReq} (hp : r.partialWrite = true) : s.issueReq k c r =
    (s.modStack k (fun st => { st with ch := vmod st.ch c (fun ch => ch.takes s.now st.idle.toNat r) })).modChan k c
      (fun ch => { ch with rmw := satInc ch.rmw, inflight := ch.inflight ++ [r] }) := by
  rw [State.issueReq]
  dsimp only
  rw [if_pos (Bool.and_eq_true_iff.1 hp).1, if_pos hp]
  rfl

theorem issueReq_read {r : MemReq} (hw : r.write = false) : s.issueReq k c r =
    (s.modStack k (fun st => { st with ch := vmod st.ch c (fun ch => ch.takes s.now st.idle.toNat r) })).modChan k c
      (fun ch => { ch with inflight := ch.inflight ++ [r] }) := by
  rw [State.issueReq]
  dsimp only
  rw [if_neg (by rw [hw]; exact Bool.noConfusion)]
  rfl

/-- The controller after a request has been taken and the panic tested. -/
theorem calm_taken {t : State} {r : MemReq} {f : Chan → Chan} (ht : t.hbmStacks =
      ((s.modStack k (fun st => { st with ch := vmod st.ch c (fun ch => ch.takes s.now st.idle.toNat r) })).modChan k c f).hbmStacks) :
    (((t.watchPanic k c).hbmStacks[k]).ch[c]).calm = (f (((s.hbmStacks[k]).ch[c]).takes s.now (s.hbmStacks[k]).idle.toNat r)).calm := by
  rw [watchPanic_calm, ht, chan_modChan, stack_modStack]
  dsimp only
  rw [vmod_get_same]

section
variable {r : MemReq} (hq : ((s.hbmStacks[k]).ch[c]).queue = [r]) (hi : ((s.hbmStacks[k]).ch[c]).inflight = []) (hs : s.stale r = false)
include hq hi hs

omit hi in
theorem pruned_alone : s.pruned k c = s :=
  pruned_live fun q hm => by rw [hq, List.mem_singleton] at hm; rw [hm, hs]

omit hs in
theorem ready_alone : ((s.hbmStacks[k]).ch[c]).queue.filter ((s.hbmStacks[k]).ch[c]).mayIssueReq = if ((s.hbmStacks[k]).ch[c]).readRoom r then [r] else [] := by
  have hm : ((s.hbmStacks[k]).ch[c]).mayIssueReq r = ((s.hbmStacks[k]).ch[c]).readRoom r := by
    rw [Chan.mayIssueReq, hq, hi]
    simp
  rw [hq, List.filter_singleton, hm, cond_eq_ite]

variable (hf : ((s.hbmStacks[k]).ch[c]).refreshOf (s.hbmStacks[k]).postMax.toNat = none)
include hf

theorem exec_memCommandIssue_alone (hr : ((s.hbmStacks[k]).ch[c]).readRoom r = true) :
    exec (.memCommandIssue k c) s = .next ((s.issueReq k c r).watchPanic k c) :=
  exec_memCommandIssue_issues (pruned_alone hq hs) rfl ((ready_alone hq hi).trans (if_pos hr)) hf

theorem exec_memCommandIssue_noRoom (hr : ((s.hbmStacks[k]).ch[c]).readRoom r = false) : exec (.memCommandIssue k c) s = .next (s.watchPanic k c) :=
  exec_memCommandIssue_idle (pruned_alone hq hs) rfl ((ready_alone hq hi).trans (if_neg (by rw [hr]; exact Bool.noConfusion))) hf

theorem memCommandIssue_writes (hw : r.write = true) (h0 : r.first = 0) (hl : r.last = 0xFF) (hk : s.memKey r.ctx = none) :
    ∃ u, exec (.memCommandIssue k c) s = .next u
      ∧ u = { s with hbm := u.hbm, hbmMeta := u.hbmMeta, hbmStacks := u.hbmStacks } ∧ ((u.hbmStacks[k]).ch[c]).queue = []
      ∧ ((u.hbmStacks[k]).ch[c]).wr = satInc ((s.hbmStacks[k]).ch[c]).wr
      ∧ u.storedCheck r.block = blockCheck r.block (toBytes r.data 256)
      ∧ (∀ i, i < 256 → mread u.hbm (r.block.toNat * 256 + i) = fld r.data (8 * i) 8)
      ∧ (∀ a, (a < r.block.toNat * 256 ∨ r.block.toNat * 256 + 256 ≤ a) → mread u.hbm a = mread s.hbm a) := by
  have hx := exec_memCommandIssue_alone hq hi hs hf (by simp [Chan.readRoom, hw])
  rw [issueReq_whole hw h0 hl] at hx
  generalize hs1 : s.modStack k (fun st => { st with ch := vmod st.ch c (fun ch => ch.takes s.now st.idle.toNat r) }) = s1 at hx
  have hkey : cipherBlock (s1.memKey r.ctx) r.block r.data = r.data := by
    rw [show s1.memKey r.ctx = none by rw [← hs1]; exact hk]
    rfl
  have hcheck := storedCheck_storeBlock s1 r.ctx r.block r.data
  have hin (i : Nat) (h : i < 256) := mread_storeBlock_in s1 r.ctx r.block r.data h
  have hout (a : Nat) (h : a < r.block.toNat * 256 ∨ r.block.toNat * 256 + 256 ≤ a) := mread_storeBlock_out s1 r.ctx r.block r.data h
  have hframe := storeBlock_frame s1 r.ctx r.block r.data
  rw [hkey] at hcheck
  simp only [hkey] at hin
  generalize s1.storeBlock r.ctx r.block r.data = s2 at hx hcheck hin hout hframe
  have hcalm := calm_taken (s := s) (k := k) (c := c) (r := r) (f := fun ch => { ch with wr := satInc ch.wr })
    (t := s2.modChan k c (fun ch => { ch with wr := satInc ch.wr })) (by rw [hs1, hframe]; rfl)
  rw [takes_frame] at hcalm
  refine ⟨_, hx, ?_, ?_, (congrArg Chan.wr hcalm :), hcheck, hin, fun a h => (hout a h).trans (by rw [← hs1]; rfl)⟩
  · rw [hframe, ← hs1]
    rfl
  · refine (congrArg Chan.queue hcalm :).trans ?_
    dsimp only [Chan.calm]
    rw [hq, List.erase_cons_head]

theorem memCommandIssue_readsFirst (hp : r.partialWrite = true) : ∃ u, exec (.memCommandIssue k c) s = .next u ∧ u = { s with hbmStacks := u.hbmStacks }
      ∧ ((u.hbmStacks[k]).ch[c]).queue = [] ∧ ((u.hbmStacks[k]).ch[c]).inflight = [r]
      ∧ ((u.hbmStacks[k]).ch[c]).rmw = satInc ((s.hbmStacks[k]).ch[c]).rmw := by
  have hx := exec_memCommandIssue_alone hq hi hs hf (by rw [Chan.readRoom, (Bool.and_eq_true_iff.1 hp).1]; rfl)
  rw [issueReq_partial hp] at hx
  have hcalm := calm_taken (s := s) (k := k) (c := c) (r := r) (f := fun ch => { ch with rmw := satInc ch.rmw, inflight := ch.inflight ++ [r] }) rfl
  rw [takes_frame] at hcalm
  refine ⟨_, hx, rfl, ?_, ?_, (congrArg Chan.rmw hcalm :)⟩
  · refine (congrArg Chan.queue hcalm :).trans ?_
    dsimp only [Chan.calm]
    rw [hq, List.erase_cons_head]
  · refine (congrArg Chan.inflight hcalm :).trans ?_
    dsimp only [Chan.calm]
    rw [hi, List.nil_append]

theorem memCommandIssue_reads (hw : r.write = false) (hr : ((s.hbmStacks[k]).ch[c]).readRoom r = true) : ∃ u, exec (.memCommandIssue k c) s = .next u
      ∧ u = { s with hbmStacks := u.hbmStacks }
      ∧ ((u.hbmStacks[k]).ch[c]).queue = [] ∧ ((u.hbmStacks[k]).ch[c]).inflight = [r]
      ∧ ((u.hbmStacks[k]).ch[c]).rmw = ((s.hbmStacks[k]).ch[c]).rmw := by
  have hx := exec_memCommandIssue_alone hq hi hs hf hr
  rw [issueReq_read hw] at hx
  have hcalm := calm_taken (s := s) (k := k) (c := c) (r := r) (f := fun ch => { ch with inflight := ch.inflight ++ [r] }) rfl
  rw [takes_frame] at hcalm
  refine ⟨_, hx, rfl, ?_, ?_, (congrArg Chan.rmw hcalm :)⟩
  · refine (congrArg Chan.queue hcalm :).trans ?_
    dsimp only [Chan.calm]
    rw [hq, List.erase_cons_head]
  · refine (congrArg Chan.inflight hcalm :).trans ?_
    dsimp only [Chan.calm]
    rw [hi, List.nil_append]

end

theorem exec_memCommandIssue_stale (hq : ∀ r ∈ ((s.hbmStacks[k]).ch[c]).queue, s.stale r = true)
    (hf : ((s.hbmStacks[k]).ch[c]).refreshOf (s.hbmStacks[k]).postMax.toNat = none) :
    exec (.memCommandIssue k c) s = .next ((s.modChan k c (fun ch => { ch with queue := [] })).watchPanic k c) := by
  have hempty : ((s.hbmStacks[k]).ch[c]).queue.filter (fun r => !s.stale r) = [] :=
    List.filter_eq_nil_iff.2 fun r hr => by rw [hq r hr]; exact Bool.noConfusion
  have hp : s.pruned k c = s.modChan k c (fun ch => { ch with queue := [] }) :=
    State.modChan_congr (by rw [hempty])
  exact exec_memCommandIssue_idle hp (chan_modChan _ _ _ _) rfl hf

theorem pruned_empty (hq : ((s.hbmStacks[k]).ch[c]).queue = []) : s.pruned k c = s :=
  pruned_live fun r hr => by rw [hq] at hr; exact nomatch hr

theorem exec_memCommandIssue_nothing (hq : ((s.hbmStacks[k]).ch[c]).queue = [])
    (hf : ((s.hbmStacks[k]).ch[c]).refreshOf (s.hbmStacks[k]).postMax.toNat = none) : exec (.memCommandIssue k c) s = .next (s.watchPanic k c) :=
  exec_memCommandIssue_idle (pruned_empty hq) rfl (by rw [hq]; rfl) hf

theorem memCommandIssue_refreshes {i : Fin 2} {x : Nat} (hq : ((s.hbmStacks[k]).ch[c]).queue = [])
    (hf : ((s.hbmStacks[k]).ch[c]).refreshOf (s.hbmStacks[k]).postMax.toNat = some (i, x)) : ∃ (u : State) (bank : Nat),
      exec (.memCommandIssue k c) s = .next u ∧ bank < 16 ∧ u = { s with hbmStacks := u.hbmStacks, free := s.free + 1 }
      ∧ u.hbmStacks[k] = { (s.hbmStacks[k]) with ch := vmod (s.hbmStacks[k]).ch c (fun ch => ch.refresh i bank (s.hbmStacks[k]).postMax.toNat) }
      ∧ ((u.hbmStacks[k]).ch[c]).due[i] + ((u.hbmStacks[k]).ch[c]).postponed[i] + ((u.hbmStacks[k]).ch[c]).urgent[i] + 1
          = ((s.hbmStacks[k]).ch[c]).due[i] + ((s.hbmStacks[k]).ch[c]).postponed[i] + ((s.hbmStacks[k]).ch[c]).urgent[i] := by
  have hx := exec_memCommandIssue_refresh (pruned_empty hq) rfl (by rw [hq]; rfl) hf
  refine ⟨_, _, hx, (BitVec.extractLsb' 0 4 s.draw.1).isLt, rfl, stack_modStack _ _ _, ?_⟩
  rw [chan_modChan]
  exact refresh_counts _ _ _ _ (refreshOf_waits hf)

end

/-- Settles O28: a request word by what becomes of it, the conduit's words by the state of the endpoint, and each command
by what the controller finds to do. -/
theorem memoryRequestsAndCommands : Obligations.MemoryRequestsAndCommands := by
  unfold Obligations.MemoryRequestsAndCommands
  refine ⟨?requests, ⟨?absorb, fun k e s => absorbStack_idle, ?offer, fun n k s w x xs => takeLane_effect⟩,
    ⟨fun k c s r hq hi hs hf => ?one, fun c r => readRoom_false_iff c r, fun k c s => exec_memCommandIssue_stale,
      fun k c s i x => memCommandIssue_refreshes, fun k c s => exec_memCommandIssue_nothing, fun k c s => ⟨watchPanic_onlyStack s k c, ?watch⟩⟩⟩
  case requests =>
    intro k c port s l hl
    refine ⟨fun hb hm hport hw => ?_, fun n i hw he => ⟨memRequest_counted hl hw he, memRequest_refused hl hw he,
      fun hb hm hr hp => memRequest_reads hl hw he hb hm hr hp, fun m hb hport hm hs hc hr hn => memRequest_writes hl hw he hb hm hport hs hc hr hn⟩⟩
    subst hport
    exact memRequest_arrives hl hb hm hw
  case absorb =>
    intro k e s w n i hw hd hc hs
    refine ⟨fun h => ?_, absorbStack_full hw hd hc hs⟩
    have hx := absorbStack_enters hw hd hc hs h
    have hcore := (absorbStack_frame s k e).2
    refine ⟨(absorbStack_frame s k e).1, ?_, ?_, (congrArg Chan.queue hcore :)⟩
    · rw [hx, watchPanic_eps, stack_modStack]
      exact (congrArg Endpoint.word (vmod_get_same _ _ _) :)
    · rw [hx]
      refine (congrArg Chan.wdata (watchPanic_calm _ _ _) :).trans ?_
      rw [stack_modStack]
      exact (congrArg Chan.wdata (vmod_get_same _ _ _) :)
  case offer =>
    intro k e s x xs hb
    refine ⟨fun hs hw => ?_, offerStack_held⟩
    obtain ⟨hcalm, hword, hdests⟩ := offerStack_effect hb hs hw
    exact ⟨(congrArg Chan.rbuf hcalm :), hword, hdests⟩
  case one =>
    exact ⟨memCommandIssue_writes hq hi hs hf, memCommandIssue_readsFirst hq hi hs hf, memCommandIssue_reads hq hi hs hf,
      fun _ => exec_memCommandIssue_noRoom hq hi hs hf⟩
  case watch =>
    rw [watchPanic_chan]
    rfl

end Sys2Proof.Machine
end

section
/-! Proofs of the statements about the stacks: reads, checks and the bad-block log. -/
namespace Sys2Proof.Machine

/-! ### What CRC-32C detects (R198) -/

theorem crcBit_top (c : Word) : (crcBit c).getLsbD 31 = c.getLsbD 0 := by
  unfold crcBit
  split
  · next h => simp [h]
  · next h => simpa using h

/-- The polynomial's top bit is set, so a step can be undone. -/
theorem crcBit_injective : Function.Injective crcBit := by
  intro a b h
  have h0 : a.getLsbD 0 = b.getLsbD 0 := by rw [← crcBit_top, ← crcBit_top, h]
  have hs : a >>> 1 = b >>> 1 := by
    unfold crcBit at h
    rw [h0] at h
    split at h
    · exact BitVec.xor_left_inj _ |>.1 h
    · exact h
  apply BitVec.eq_of_getLsbD_eq
  intro i hi
  cases i with
  | zero => exact h0
  | succ i => simpa [Nat.add_comm] using congrArg (fun w : Word => w.getLsbD i) hs

theorem crcByte_inj {c d : Word} {x y : Byte} : crcByte c x = crcByte d y ↔ c ^^^ x.setWidth 32 = d ^^^ y.setWidth 32 := by
  simp only [crcByte, crcBit_injective.eq_iff]

theorem crcByte_foldl_inj (l : List Byte) {c d : Word} : l.foldl crcByte c = l.foldl crcByte d ↔ c = d := by
  induction l generalizing c d with
  | nil => rfl
  | cons x l ih => rw [List.foldl_cons, List.foldl_cons, ih, crcByte_inj, BitVec.xor_left_inj]

/-- A changed byte changes the CRC. -/
theorem crc32c_set {l : List Byte} {k : Nat} {x : Byte} (hk : k < l.length) (hx : l[k] ≠ x) : crc32c (l.set k x) ≠ crc32c l := by
  intro h
  rw [crc32c, crc32c, BitVec.not_inj] at h
  rw [List.set_eq_take_append_cons_drop, if_pos hk] at h
  nth_rewrite 3 [← List.take_append_drop k l] at h
  rw [List.drop_eq_getElem_cons hk, List.foldl_append, List.foldl_append, List.foldl_cons, List.foldl_cons, crcByte_foldl_inj, crcByte_inj,
    BitVec.xor_right_inj] at h
  exact hx (by simpa using (congrArg (BitVec.setWidth 8) h).symm)

/-! ### A stored block as it is read (R198, R199) -/

theorem fld_ofBytes {n : Nat} (l : List Byte) {i : Nat} (hi : 8 * i + 8 ≤ n) : fld (ofBytes n l) (8 * i) 8 = l.getD i 0 := by
  apply BitVec.eq_of_getLsbD_eq
  intro j hj
  rw [fld, BitVec.getLsbD_extractLsb', getLsbD_ofBytes, show (8 * i + j) / 8 = i by omega, show (8 * i + j) % 8 = j by omega]
  simp [hj, show 8 * i + j < n by omega]

theorem storedBlock_congr {s t : State} (h : t.hbm = s.hbm) (b : Word) : t.storedBlock b = s.storedBlock b := by
  rw [State.storedBlock, State.storedBlock, h]

theorem storedBlock_storeBlock (s : State) (ctx : Byte) (b : Word) (d : Data2048) :
    (s.storeBlock ctx b d).storedBlock b = cipherBlock (s.memKey ctx) b d := by
  have hread : mreadN (s.storeBlock ctx b d).hbm (b.toNat * 256) 256 = toBytes (cipherBlock (s.memKey ctx) b d) 256 :=
    List.map_congr_left fun i hi => mread_storeBlock_in s ctx b d (List.mem_range.1 hi)
  rw [State.storedBlock, hread, ofBytes_toBytes _ _ (by omega)]

theorem fld_mergeBlock (old new : Data2048) (first last : Byte) {i : Nat} (hi : i < 256) : fld (mergeBlock old new first last) (8 * i) 8 =
    if first.toNat ≤ i ∧ i ≤ last.toNat then fld new (8 * i) 8 else fld old (8 * i) 8 := by
  rw [mergeBlock, fld_ofBytes _ (by omega)]
  simp [hi]

/-- One changed bit of a block is one changed byte. -/
theorem toBytes_flip (d : Data2048) (i : Nat) : toBytes (d ^^^ BitVec.twoPow 2048 i) 256 =
    (toBytes d 256).set (i / 8) (fld (d ^^^ BitVec.twoPow 2048 i) (8 * (i / 8)) 8) := by
  apply List.ext_getElem
  · rw [List.length_set, length_toBytes, length_toBytes]
  · intro j h1 h2
    rw [List.getElem_set, getElem_toBytes]
    split
    · next h => rw [h]
    · next h =>
      rw [getElem_toBytes]
      apply BitVec.eq_of_getLsbD_eq
      intro m hm
      simp only [fld, BitVec.getLsbD_extractLsb', BitVec.getLsbD_xor, BitVec.getLsbD_twoPow]
      have : ¬i = 8 * j + m := by omega
      simp [this]

theorem blockCheck_flip (b : Word) (d : Data2048) {i : Nat} (hi : i < 2048) :
    blockCheck b (toBytes (d ^^^ BitVec.twoPow 2048 i) 256) ≠ blockCheck b (toBytes d 256) := by
  have hl : i / 8 < (toBytes d 256).length := by rw [length_toBytes]; omega
  have hne : (toBytes d 256)[i / 8] ≠ fld (d ^^^ BitVec.twoPow 2048 i) (8 * (i / 8)) 8 := by
    rw [getElem_toBytes]
    intro h
    have hbit := congrArg (fun x : Byte => x.getLsbD (i % 8)) h
    simp only [fld, BitVec.getLsbD_extractLsb', BitVec.getLsbD_xor, BitVec.getLsbD_twoPow, show 8 * (i / 8) + i % 8 = i by omega] at hbit
    simp [hi, show i % 8 < 8 by omega] at hbit
  rw [blockCheck, blockCheck, toBytes_flip d i, ← List.set_append_left _ _ hl]
  refine crc32c_set (by rw [List.length_append]; omega) ?_
  rw [List.getElem_append_left hl]
  exact hne

/-- What is read of a block that has just been written, where bits have flipped. -/
theorem returned_storeBlock (s : State) (ctx : Byte) (b : Word) (d flip : Data2048) (fc : Word) : (s.storeBlock ctx b d).returned b flip fc =
    (cipherBlock (s.memKey ctx) b d ^^^ flip, blockCheck b (toBytes (cipherBlock (s.memKey ctx) b d) 256) ^^^ fc) := by
  rw [State.returned, storedBlock_storeBlock, storedCheck_storeBlock]

theorem storeBlock_checks {s t : State} {ctx : Byte} {b : Word} {d : Data2048} (ht : t = s.storeBlock ctx b d) :
    blockCheck b (toBytes (t.returned b 0 0).1 256) = (t.returned b 0 0).2 ∧
    (∀ fc : Word, fc ≠ 0 → blockCheck b (toBytes (t.returned b 0 fc).1 256) ≠ (t.returned b 0 fc).2) ∧
    (∀ i : Nat, i < 2048 →
      blockCheck b (toBytes (t.returned b (BitVec.twoPow 2048 i) 0).1 256) ≠ (t.returned b (BitVec.twoPow 2048 i) 0).2) := by
  subst ht
  simp only [returned_storeBlock, BitVec.ofNat_eq_ofNat, BitVec.xor_zero]
  generalize cipherBlock (s.memKey ctx) b d = e
  refine ⟨trivial, fun fc hfc h => hfc ?_, fun i hi => blockCheck_flip b e hi⟩
  have hx := congrArg (blockCheck b (toBytes e 256) ^^^ ·) h
  simpa [← BitVec.xor_assoc] using hx.symm

/-! ### Bytes as the words of a conduit (R178) -/

theorem openWord_state (s : State) (b : List Byte) : (s.openWord b).2 = { s with free := (s.openWord b).2.free } := by
  unfold State.openWord
  split <;> rfl

theorem fld_openWord (s : State) {b : List Byte} (hb : b.length ≤ 64) {i : Nat} (hi : i < b.length) : fld (s.openWord b).1 (8 * i) 8 = b.getD i 0 := by
  unfold State.openWord
  split
  · rw [← fld_ofBytes (n := 512) b (by omega)]
    apply BitVec.eq_of_getLsbD_eq
    intro j hj
    have : 8 * i + j < 8 * b.length := by omega
    simp [fld, this]
  · exact fld_ofBytes b (by omega)

theorem wordsOf_state (m : Nat) (s : State) (b : List Byte) : (State.wordsOf m s b).2 = { s with free := (State.wordsOf m s b).2.free } := by
  induction m generalizing s b with
  | zero => rfl
  | succ m ih =>
    rw [State.wordsOf]
    split
    · rfl
    · dsimp only
      rw [ih, openWord_state]

/-- Enough words hold every byte, 64 to a word. -/
theorem wordsOf_bytes (m : Nat) (s : State) (b : List Byte) (hb : b.length ≤ 64 * m) : (State.wordsOf m s b).1.length = (b.length + 63) / 64 ∧
    ∀ j i, i < 64 → 64 * j + i < b.length → fld ((State.wordsOf m s b).1.getD j 0) (8 * i) 8 = b.getD (64 * j + i) 0 := by
  induction m generalizing s b with
  | zero =>
    have h0 : b = [] := List.eq_nil_of_length_eq_zero (by omega)
    subst h0
    exact ⟨rfl, fun j i _ h => absurd h (Nat.not_lt_zero _)⟩
  | succ m ih =>
    rw [State.wordsOf]
    split
    · next h0 =>
      subst h0
      exact ⟨rfl, fun j i _ h => absurd h (Nat.not_lt_zero _)⟩
    · next hne =>
      have hpos : 0 < b.length := List.length_pos_iff.2 hne
      obtain ⟨hlen, hbytes⟩ := ih (s.openWord (b.take 64)).2 (b.drop 64) (by rw [List.length_drop]; omega)
      rw [List.length_drop] at hlen hbytes
      refine ⟨by rw [List.length_cons, hlen]; omega, fun j i hi hj => ?_⟩
      cases j with
      | zero =>
        rw [List.getD_cons_zero, fld_openWord _ (by rw [List.length_take]; omega) (by rw [List.length_take]; omega)]
        simp only [List.getD_eq_getElem?_getD, List.getElem?_take, hi, Nat.mul_zero, Nat.zero_add, if_true]
      | succ j =>
        rw [List.getD_cons_succ, hbytes j i hi (by omega)]
        simp only [List.getD_eq_getElem?_getD, List.getElem?_drop, show 64 + (64 * j + i) = 64 * (j + 1) + i by omega]

/-! ### The return of a read (R189, R194, R199, R200) -/

/-- The read counted, and no longer under way. -/
def Chan.returns (ch : Chan) (r : MemReq) : Chan := { (ch.countRead r) with inflight := (ch.countRead r).inflight.erase r }

section
variable {k : Fin 8} {c : Fin 32} {s : State} {flip : Data2048} {fc : Word} {r : MemReq}
  (hd : ((s.hbmStacks[k]).ch[c]).due? = some r)
include hd

section
variable (h0 : r.rereads = 0) (hs : s.stale r = false)
include h0 hs

theorem exec_memReadReturn_good (hg : blockCheck r.block (toBytes (s.returned r.block flip fc).1 256) = (s.returned r.block flip fc).2) :
    exec (.memReadReturn k c flip fc) s =
      .next (((s.modChan k c (fun ch => ch.countRead r)).goodReturn k c r (s.returned r.block flip fc).1).watchPanic k c) := by
  show execMemReadReturn k c flip fc s = _
  unfold execMemReadReturn
  rw [hd]
  dsimp -zeta only
  rw [if_neg (not_not.2 h0)]
  extract_lets s0 x good _ s1
  rw [show s1 = s0.goodReturn k c r x.1 from (if_neg (by rw [hs]; exact Bool.noConfusion)).trans (if_pos hg)]

theorem exec_memReadReturn_again (hg : blockCheck r.block (toBytes (s.returned r.block flip fc).1 256) ≠ (s.returned r.block flip fc).2)
    (hp : r.spec = false) :
    exec (.memReadReturn k c flip fc) s = .next (((s.modChan k c (fun ch => ch.countRead r)).reread k c r).watchPanic k c) := by
  show execMemReadReturn k c flip fc s = _
  unfold execMemReadReturn
  rw [hd]
  dsimp -zeta only
  rw [if_neg (not_not.2 h0)]
  extract_lets s0 x good _ s1
  rw [show s1 = s0.reread k c r from (if_neg (by rw [hs]; exact Bool.noConfusion)).trans ((if_neg hg).trans (if_neg (by rw [hp]; exact Bool.noConfusion)))]

theorem exec_memReadReturn_spec {w : SlotRef} (hw : r.who = some w)
    (hg : blockCheck r.block (toBytes (s.returned r.block flip fc).1 256) ≠ (s.returned r.block flip fc).2) (hp : r.spec = true) :
    exec (.memReadReturn k c flip fc) s = .next ((((s.modChan k c (fun ch => ch.countRead r)).modChan k c (fun ch =>
        { ch with inflight := ch.inflight.erase r, firstFail := satInc ch.firstFail })).modStm w (fun t =>
          if t.epoch = r.epoch then { t with raStop := true, epoch := t.epoch + 1, reqPos := t.bufPos + t.inBuf.length } else t)).watchPanic k c) := by
  show execMemReadReturn k c flip fc s = _
  unfold execMemReadReturn
  rw [hd]
  dsimp -zeta only
  rw [if_neg (not_not.2 h0)]
  extract_lets s0 x good _ s1
  have h1 : s1 = _ := (if_neg (by rw [hs]; exact Bool.noConfusion)).trans ((if_neg hg).trans (if_pos hp))
  rw [h1, hw]

end

section
variable (h0 : r.rereads ≠ 0)
include h0

theorem exec_memRereadReturn_good (hg : blockCheck r.block (toBytes (s.returned r.block flip fc).1 256) = (s.returned r.block flip fc).2) :
    exec (.memRereadReturn k c flip fc) s = .next (((s.goodReturn k c r (s.returned r.block flip fc).1).modChan k c (fun ch =>
      { ch with firstFail := satInc ch.firstFail, rereadOk := satInc ch.rereadOk, inflight := ch.inflight.filter (fun q => q.id != r.id) })).watchPanic k c) := by
  show execMemRereadReturn k c flip fc s = _
  unfold execMemRereadReturn
  rw [hd]
  dsimp -zeta only
  rw [if_neg h0]
  extract_lets x computed s1
  rw [show s1 = _ from if_pos hg]

theorem exec_memRereadReturn_again (hg : blockCheck r.block (toBytes (s.returned r.block flip fc).1 256) ≠ (s.returned r.block flip fc).2)
    (hn : r.rereads < 3) : exec (.memRereadReturn k c flip fc) s = .next ((s.reread k c r).watchPanic k c) := by
  show execMemRereadReturn k c flip fc s = _
  unfold execMemRereadReturn
  rw [hd]
  dsimp -zeta only
  rw [if_neg h0]
  extract_lets x computed s1
  rw [show s1 = _ from (if_neg hg).trans (if_neg (Nat.not_le.2 hn))]

theorem exec_memRereadReturn_lost (hg : blockCheck r.block (toBytes (s.returned r.block flip fc).1 256) ≠ (s.returned r.block flip fc).2)
    (hn : 3 ≤ r.rereads) : exec (.memRereadReturn k c flip fc) s = .next ((s.badReturn k c r (s.returned r.block flip fc).2
      (blockCheck r.block (toBytes (s.returned r.block flip fc).1 256))).watchPanic k c) := by
  show execMemRereadReturn k c flip fc s = _
  unfold execMemRereadReturn
  rw [hd]
  dsimp -zeta only
  rw [if_neg h0]
  extract_lets x computed s1
  rw [show s1 = _ from (if_neg hg).trans (if_pos hn)]

end

end

/-! ### A read that is repeated (R200) -/

theorem countRead_reads {ch : Chan} {r : MemReq} (h : r.write = false) : ch.countRead r = { ch with rd := satInc ch.rd } :=
  if_neg (by rw [h]; exact Bool.noConfusion)
theorem countRead_writes {ch : Chan} {r : MemReq} (h : r.write = true) : ch.countRead r = ch := if_pos h

/-- Counting a read changes HBM_CH_RD alone. -/
theorem countRead_frame (ch : Chan) (r : MemReq) : ch.countRead r = { ch with rd := (ch.countRead r).rd } := by
  unfold Chan.countRead
  split <;> rfl

theorem returns_frame (ch : Chan) (r : MemReq) : ch.returns r = { ch with rd := (ch.countRead r).rd, inflight := ch.inflight.erase r } := by
  rw [Chan.returns, countRead_frame]

/-- Opening a row leaves it open, or closes it at once with no idle time. -/
theorem openRow_openRows (ch : Chan) (now idle : Nat) (b : Word) : (ch.openRow now b idle).openRows
    = if idle = 0 then tdel ch.openRows (blockPlace b).bank else tput ch.openRows (blockPlace b).bank (blockPlace b).row := by
  unfold Chan.openRow Chan.closeRow
  dsimp only
  split <;> split <;> rfl

theorem openRow_rowDue (ch : Chan) (now idle : Nat) (b : Word) : (ch.openRow now b idle).rowDue
    = if idle = 0 then tdel ch.rowDue (blockPlace b).bank else tput ch.rowDue (blockPlace b).bank (now + idleTicks idle) := by
  unfold Chan.openRow Chan.closeRow
  dsimp only
  split <;> split <;> rfl

/-- The rows that closing and opening leave open depend on those that were open alone. -/
theorem reopen_openRows_congr {ch ch' : Chan} (h : ch.openRows = ch'.openRows) (now idle : Nat) (b : Word) :
    (ch.reopen now b idle).openRows = (ch'.reopen now b idle).openRows := by
  rw [Chan.reopen, Chan.reopen, openRow_openRows, openRow_openRows, Chan.closeRow, Chan.closeRow, h]

/-- A request read again: the re-reads of it counted among those under way. -/
def Chan.again (ch : Chan) (now idle : Nat) (r : MemReq) : Chan :=
  { (ch.reopen now r.block idle) with inflight := ch.inflight.map (fun q => if q.id = r.id then { q with rereads := q.rereads + 1 } else q) }

theorem reread_eq (s : State) (k : Fin 8) (c : Fin 32) (r : MemReq) : s.reread k c r =
    s.modStack k (fun st => { st with ch := vmod st.ch c (fun ch => ch.again s.now st.idle.toNat r) }) := rfl

theorem reread_calm (s : State) (k : Fin 8) (c : Fin 32) (r : MemReq) : ((((s.reread k c r).watchPanic k c).hbmStacks[k]).ch[c]).calm =
    (((s.hbmStacks[k]).ch[c]).again s.now (s.hbmStacks[k]).idle.toNat r).calm := by
  rw [watchPanic_calm, reread_eq, stack_modStack]
  exact (congrArg Chan.calm (vmod_get_same _ _ _) :)

/-! ### Data that is delivered (R161, R188, R194) -/

theorem bytes_le (r : MemReq) : r.bytes ≤ 256 - r.first.toNat := by
  have := r.last.isLt
  unfold MemReq.bytes
  omega

theorem length_slice {l : List Byte} {off len : Nat} (h : off + len ≤ l.length) : (slice l off len).length = len := by
  simp only [slice, List.length_take, List.length_drop]
  omega

/-- What the slot learns of each word of a read. -/
def MemReq.notes (r : MemReq) (w : SlotRef) (i : Nat) : LaneNote :=
  { who := w, pos := r.pos + 64 * i, len := min 64 (r.bytes - 64 * i), epoch := r.epoch }

/-- The words of a read with their notes. -/
def MemReq.words (r : MemReq) (w : SlotRef) (ws : List CWord) : List (CWord × LaneNote) := ws.zipIdx.map (fun y => (y.1, r.notes w y.2))

theorem words_fst (r : MemReq) (w : SlotRef) (ws : List CWord) : (r.words w ws).map (·.1) = ws := by
  rw [MemReq.words, List.map_map]
  exact List.zipIdx_map_fst 0 ws

theorem words_notes (r : MemReq) (w : SlotRef) (ws : List CWord) : (r.words w ws).map (fun y => (y.2.who, y.2.pos, y.2.len, y.2.epoch)) =
    (List.range ws.length).map (fun j => (w, r.pos + 64 * j, min 64 (r.bytes - 64 * j), r.epoch)) := by
  rw [List.range_eq_range', ← List.zipIdx_map_snd, MemReq.words, List.map_map, List.map_map]
  rfl

/-- The words of a read in the read buffer. -/
def State.buffered (s : State) (k : Fin 8) (c : Fin 32) (r : MemReq) (w : SlotRef) (b : List Byte) : State :=
  (State.wordsOf 4 s b).2.modChan k c (fun ch => { ch with rbuf := ch.rbuf ++ r.words w (State.wordsOf 4 s b).1 })

theorem deliver_rt {s : State} {k : Fin 8} {c : Fin 32} {r : MemReq} {w : SlotRef} (d : Data2048) (hw : r.who = some w) (hp : r.port = .rt) :
    s.deliver k c r d = (s.buffered k c r w (slice (toBytes d 256) r.first.toNat r.bytes)).offerStack k c := by
  rw [State.deliver, hw]
  exact if_pos hp

theorem deliver_free {s : State} {k : Fin 8} {c : Fin 32} {r : MemReq} {w : SlotRef} (d : Data2048) (hw : r.who = some w) (hp : r.port = .free) :
    s.deliver k c r d = if (s.stm w).epoch = r.epoch ∧ (s.stm w).bufPos + (s.stm w).inBuf.length = r.pos
      then s.feed w (slice (toBytes d 256) r.first.toNat r.bytes) else s := by
  rw [State.deliver, hw]
  exact if_neg (by rw [hp]; exact nofun)

/-! ### What a good read leaves (R189, R194, R199) -/

/-- The state before the data of a read is delivered. -/
def State.readBack (s : State) (k : Fin 8) (c : Fin 32) (r : MemReq) : State := s.modChan k c (fun ch => ch.returns r)

theorem readBack_chan (s : State) (k : Fin 8) (c : Fin 32) (r : MemReq) : ((s.readBack k c r).hbmStacks[k]).ch[c] = ((s.hbmStacks[k]).ch[c]).returns r :=
  chan_modChan _ _ _ _

theorem readBack_eq (s : State) (k : Fin 8) (c : Fin 32) (r : MemReq) :
    (s.modChan k c (fun ch => ch.countRead r)).modChan k c (fun ch => { ch with inflight := ch.inflight.erase r }) = s.readBack k c r := by
  rw [State.modChan, State.modChan, State.modStack_modStack]
  simp only [vmod_vmod]
  rfl

section
variable {k : Fin 8} {c : Fin 32} {s : State} {flip : Data2048} {fc : Word} {r : MemReq}
  (hd : ((s.hbmStacks[k]).ch[c]).due? = some r) (h0 : r.rereads = 0) (hs : s.stale r = false)
  (hg : blockCheck r.block (toBytes (s.returned r.block flip fc).1 256) = (s.returned r.block flip fc).2) (hk : s.memKey r.ctx = none)
include hd h0 hs hg hk

theorem exec_memReadReturn_delivers (hw : r.write = false) :
    exec (.memReadReturn k c flip fc) s = .next (((s.readBack k c r).deliver k c r (s.returned r.block flip fc).1).watchPanic k c) := by
  rw [exec_memReadReturn_good hd h0 hs hg, State.goodReturn]
  rw [if_neg (by rw [hw]; exact Bool.noConfusion), readBack_eq]
  rw [show plainBlock ((s.modChan k c (fun ch => ch.countRead r)).memKey r.ctx) r.block (s.returned r.block flip fc).1 = (s.returned r.block flip fc).1 from ?_]
  rw [show (s.modChan k c (fun ch => ch.countRead r)).memKey r.ctx = none from hk]
  rfl

theorem memReadReturn_free {n i : Fin 64} (hw : r.write = false) (hwho : r.who = some (.cal n i)) (hp : r.port = .free)
    (he : ((s.cals[n]).streams[i]).epoch = r.epoch) (hpos : ((s.cals[n]).streams[i]).bufPos + ((s.cals[n]).streams[i]).inBuf.length = r.pos) :
    ∃ u, exec (.memReadReturn k c flip fc) s = .next u
      ∧ u = { s with cals := u.cals, hbmStacks := u.hbmStacks } ∧ OnlyCal n { s with hbmStacks := u.hbmStacks } u
      ∧ (∀ m j : Fin 64, (u.cals[m]).sram = (s.cals[m]).sram ∧ (¬(m = n ∧ j = i) → (u.cals[m]).streams[j] = (s.cals[m]).streams[j]))
      ∧ ((u.hbmStacks[k]).ch[c]).rd = satInc ((s.hbmStacks[k]).ch[c]).rd
      ∧ ((u.hbmStacks[k]).ch[c]).inflight = ((s.hbmStacks[k]).ch[c]).inflight.erase r
      ∧ (u.cals[n]).streams[i] = { ((s.cals[n]).streams[i]) with
          inBuf := ((s.cals[n]).streams[i]).inBuf ++ slice (toBytes (s.returned r.block flip fc).1 256) r.first.toNat r.bytes, moved := true } := by
  have hx := exec_memReadReturn_delivers hd h0 hs hg hk hw
  generalize (s.returned r.block flip fc).1 = d at hx
  rw [deliver_free d hwho hp, if_pos ⟨he, hpos⟩, feed_cal] at hx
  generalize hb : slice (toBytes d 256) r.first.toNat r.bytes = b at hx
  have hcalm := watchPanic_calm ((s.readBack k c r).modCal n (·.fed i b)) k c
  have hcal (m : Fin 64) : (((s.readBack k c r).modCal n (·.fed i b)).watchPanic k c).cals[m] = (s.modCal n (·.fed i b)).cals[m] := rfl
  rw [State.modCal_hbmStacks, readBack_chan, returns_frame, countRead_reads hw] at hcalm
  refine ⟨_, hx, rfl, ?_, fun m j => ?_, (congrArg Chan.rd hcalm :), (congrArg Chan.inflight hcalm :), ?_⟩
  · exact onlyCal_modCal { s with hbmStacks := (((s.readBack k c r).modCal n (·.fed i b)).watchPanic k c).hbmStacks } n (·.fed i b)
  · rw [hcal]
    by_cases hm : m = n
    · rw [hm, State.modCal_at, fed_sram]
      exact ⟨rfl, fun h => vmod_get_ne _ _ _ _ fun hj => h ⟨rfl, hj⟩⟩
    · rw [State.modCal_other _ _ _ _ hm]
      exact ⟨rfl, fun _ => rfl⟩
  · rw [hcal, State.modCal_at, fed_stream]

theorem memReadReturn_rt {n i : Fin 64} (hw : r.write = false) (hwho : r.who = some (.cal n i)) (hp : r.port = .rt) :
    ∃ (t : State) (ws : List (CWord × LaneNote)), exec (.memReadReturn k c flip fc) s = .next ((t.offerStack k c).watchPanic k c)
      ∧ t = { s with hbmStacks := t.hbmStacks, free := t.free }
      ∧ ((t.hbmStacks[k]).ch[c]).rd = satInc ((s.hbmStacks[k]).ch[c]).rd
      ∧ ((t.hbmStacks[k]).ch[c]).inflight = ((s.hbmStacks[k]).ch[c]).inflight.erase r
      ∧ ((t.hbmStacks[k]).ch[c]).rbuf = ((s.hbmStacks[k]).ch[c]).rbuf ++ ws
      ∧ ws.map (fun y => (y.2.who, y.2.pos, y.2.len, y.2.epoch)) = (List.range ((r.bytes + 63) / 64)).map (fun j =>
          (SlotRef.cal n i, r.pos + 64 * j, min 64 (r.bytes - 64 * j), r.epoch))
      ∧ ∀ j b, b < 64 → 64 * j + b < r.bytes → fld ((ws.map (·.1)).getD j 0) (8 * b) 8 =
          (slice (toBytes (s.returned r.block flip fc).1 256) r.first.toNat r.bytes).getD (64 * j + b) 0 := by
  have hx := exec_memReadReturn_delivers hd h0 hs hg hk hw
  generalize (s.returned r.block flip fc).1 = d at hx
  rw [deliver_rt d hwho hp] at hx
  have hb := bytes_le r
  have hlen : (slice (toBytes d 256) r.first.toNat r.bytes).length = r.bytes :=
    length_slice (by rw [length_toBytes]; have := r.first.isLt; omega)
  generalize slice (toBytes d 256) r.first.toNat r.bytes = b at hx hlen ⊢
  obtain ⟨hcount, hbytes⟩ := wordsOf_bytes 4 (s.readBack k c r) b (by omega)
  have hstate := wordsOf_state 4 (s.readBack k c r) b
  rw [State.buffered] at hx
  generalize State.wordsOf 4 (s.readBack k c r) b = x at hx hcount hbytes hstate
  have hchan := chan_modChan x.2 k c (fun ch => { ch with rbuf := ch.rbuf ++ r.words (.cal n i) x.1 })
  rw [show x.2.hbmStacks = (s.readBack k c r).hbmStacks from (congrArg State.hbmStacks hstate :), readBack_chan, returns_frame, countRead_reads hw] at hchan
  refine ⟨_, r.words (.cal n i) x.1, hx, by rw [hstate]; rfl, (congrArg Chan.rd hchan :), (congrArg Chan.inflight hchan :), (congrArg Chan.rbuf hchan :), ?_, ?_⟩
  · rw [words_notes, hcount, hlen]
  · rw [words_fst, ← hlen]
    exact hbytes

theorem memReadReturn_merges (hw : r.write = true) : ∃ u, exec (.memReadReturn k c flip fc) s = .next u
      ∧ u = { s with hbm := u.hbm, hbmMeta := u.hbmMeta, hbmStacks := u.hbmStacks }
      ∧ u.storedCheck r.block = blockCheck r.block (toBytes (u.storedBlock r.block) 256)
      ∧ ∀ i, i < 256 → mread u.hbm (r.block.toNat * 256 + i) =
          (if r.first.toNat ≤ i ∧ i ≤ r.last.toNat then fld r.data (8 * i) 8 else fld (s.returned r.block flip fc).1 (8 * i) 8) := by
  have hx := exec_memReadReturn_good hd h0 hs hg
  generalize (s.returned r.block flip fc).1 = d at hx ⊢
  rw [State.goodReturn, if_pos hw, readBack_eq, show (s.modChan k c (fun ch => ch.countRead r)).memKey r.ctx = none from hk,
    show plainBlock none r.block d = d from rfl] at hx
  have hkey : (s.readBack k c r).memKey r.ctx = none := hk
  generalize hm : mergeBlock d r.data r.first r.last = e at hx
  have hframe := storeBlock_frame (s.readBack k c r) r.ctx r.block e
  have hcheck := storedCheck_storeBlock (s.readBack k c r) r.ctx r.block e
  have hblock := storedBlock_storeBlock (s.readBack k c r) r.ctx r.block e
  have hin (i : Nat) (h : i < 256) := mread_storeBlock_in (s.readBack k c r) r.ctx r.block e h
  simp only [hkey, cipherBlock] at hcheck hblock hin
  generalize (s.readBack k c r).storeBlock r.ctx r.block e = t at hx hframe hcheck hblock hin
  refine ⟨_, hx, ?_, ?_, fun i h => ?_⟩
  · rw [hframe]
    rfl
  · have hb := (storedBlock_congr (s := t) rfl r.block).trans hblock
    exact (storedCheck_congr rfl rfl _).trans (hcheck.trans (congrArg (fun x : Data2048 => blockCheck r.block (toBytes x 256)) hb.symm))
  · rw [← fld_mergeBlock d r.data r.first r.last h, hm]
    exact hin i h

end

/-! ### The bad-block log (R201) -/

theorem fld_bblEntry (s : State) (b stored computed : Word) (ctx : Byte) (op port : Nat) : fld (bblEntry s b stored computed ctx op port) 0 32 = b := by
  simp only [fld, bblEntry, BitVec.extractLsb'_or]
  rw [extractLsb'_at_same 256 0 b (by omega), extractLsb'_at_above 256 32 0 32 _ (by omega), extractLsb'_at_above 256 64 0 32 _ (by omega),
    extractLsb'_at_above 256 96 0 32 _ (by omega), extractLsb'_natAt_above 256 104 _ 0 32 (by omega), extractLsb'_natAt_above 256 106 _ 0 32 (by omega),
    extractLsb'_at_above 256 128 0 32 _ (by omega)]
  simp

/-- The state with one more record in its bad-block log. -/
def State.logged (s : State) (e : BitVec 256) : State := s.modGlb (fun g => { g with bbl := { g.bbl with recs := g.bbl.recs ++ [e] } })

/-- A block that the log does not hold gets a record of its own while there is room. -/
theorem logBadBlock_new {s : State} {b : Word} (hlen : s.glb.bbl.recs.length < 64) (hnew : ∀ e ∈ s.glb.bbl.recs, fld e 0 32 ≠ b) (stack : Nat)
    (stored computed : Word) (ctx : Byte) (op port : Nat) :
    ∃ e, fld e 0 32 = b ∧ Raised (s.logged e) (s.logBadBlock stack b stored computed ctx op port) := by
  have hany : s.glb.bbl.recs.any (fun e => fld e 0 32 == b) = false :=
    List.any_eq_false.2 fun e he => by rw [beq_iff_eq]; exact hnew e he
  have hpush (e : BitVec 256) : s.modGlb (fun g => { g with bbl := g.bbl.push e }) = s.logged e := by
    simp only [State.modGlb, State.logged, RingLog.push, if_neg (Nat.not_le.2 hlen)]
  refine ⟨_, fld_bblEntry s b stored computed ctx op port, ?_⟩
  rw [State.logBadBlock, hany]
  simp only [Bool.false_eq_true, if_false, Nat.not_le.2 hlen, decide_false, hpush]
  exact raise_frame _ _ _ _ _ _ _

/-! ### A halt and the position of its stream (R59, R150, R199) -/

theorem backTo_pos_le (t : Stream) (p : Nat) : (t.backTo p).pos ≤ t.pos := by
  unfold Stream.backTo
  split
  · exact Nat.le_of_lt ‹_›
  · exact Nat.le_refl _

theorem rewindStream_pos_le (ts : Vector Stream 64) (p : Pass) (k : Fin 64) : ((rewindStream ts p)[k]).pos ≤ (ts[k]).pos := by
  unfold rewindStream
  split
  · by_cases h : k = Fin.ofNat 64 (apDrainStream p.raw)
    · rw [← h, vmod_get_same]
      exact backTo_pos_le _ _
    · rw [vmod_get_ne _ _ _ _ h]
  · exact Nat.le_refl _

theorem faultAbandon_pos_le (c : Caldera) (struck : Pass → Bool) (k : Fin 64) : ((c.faultAbandon struck).streams[k]).pos ≤ (c.streams[k]).pos := by
  have hrewinds (gone : List Pass) : ∀ ts : Vector Stream 64, ((gone.foldl rewindStream ts)[k]).pos ≤ (ts[k]).pos := by
    induction gone with
    | nil => exact fun _ => Nat.le_refl _
    | cons p gone ih => exact fun ts => (ih _).trans (rewindStream_pos_le ts p k)
  obtain ⟨v, hv⟩ := ArrsOnly.foldl restoreGens_arrsOnly (c.passes.filter (fun p => (abandonSet c.passes struck).contains p.serial)).reverse c
  unfold Caldera.faultAbandon Caldera.abandon
  dsimp only
  rw [hv]
  exact hrewinds _ _

theorem haltSlot_pos (c : Caldera) (k : Fin 64) (cause : Nat) (v : BitVec 21) (save : Nat) :
    ((c.haltSlot k cause v save).streams[k]).pos = (c.streams[k]).pos := (congrArg Stream.pos (vmod_get_same _ _ _) :)

/-- A halt never moves its stream on. -/
theorem haltStream_pos_le (s : State) (n k : Fin 64) (cause : Nat) (v : BitVec 21) :
    (((s.haltStream (.cal n k) cause v).cals[n]).streams[k]).pos ≤ ((s.cals[n]).streams[k]).pos := by
  have hglb (b : Prop) [Decidable b] (s1 : State) (f : Glb → Glb) : (if b then s1.modGlb f else s1).cals = s1.cals := by split <;> rfl
  have hslot (save : Nat) := haltSlot_pos (s.cals[n]) k cause v save
  obtain ⟨f, hf, hle⟩ : ∃ f : Caldera → Caldera, (s.haltStream (.cal n k) cause v).cals = vmod s.cals n f
      ∧ ((f s.cals[n]).streams[k]).pos ≤ ((s.cals[n]).streams[k]).pos := by
    unfold State.haltStream
    dsimp only
    split
    · rename_i heq _
      cases heq
      simp only [planStop_cals, State.modCal_cals, hglb, State.modStm, vmod_vmod]
      exact ⟨fun c => (c.haltSlot k cause v _).faultAbandon _, rfl, (faultAbandon_pos_le _ _ _).trans (hslot _).le⟩
    · simp only [stopWork_cals, hglb, State.modStm]
      exact ⟨fun c => c.haltSlot k cause v _, rfl, (hslot _).le⟩
    · simp only [hglb, State.modStm]
      exact ⟨fun c => c.haltSlot k cause v _, rfl, (hslot _).le⟩
  rw [hf, vmod_get_same]
  exact hle

theorem foldl_le_start {α : Type} {f : Nat → α → Nat} (hf : ∀ m a, f m a ≤ m) (l : List α) (m : Nat) : l.foldl f m ≤ m := by
  induction l generalizing m with
  | nil => exact Nat.le_refl _
  | cons a l ih => exact (ih _).trans (hf m a)

/-- The committed position lies at or before the position reached (R151). -/
theorem savedPos_le (s : State) (r : SlotRef) : s.savedPos r ≤ (s.stm r).pos := by
  unfold State.savedPos
  extract_lets t here
  have hhere : here ≤ (s.stm r).pos := by
    unfold here
    split
    · split
      · exact Nat.min_le_right _ _
      · exact Nat.le_refl _
    · exact Nat.le_refl _
  cases r with
  | cp i => exact hhere
  | cal n k =>
    refine (foldl_le_start (fun m p => ?_) _ _).trans hhere
    split
    · exact Nat.min_le_left _ _
    · split
      · exact Nat.min_le_left _ _
      · exact Nat.le_refl _

/-! ### A block that no re-read recovers (R199 to R201) -/

/-- The failure counted and logged. -/
def State.blockLost (s : State) (k : Fin 8) (c : Fin 32) (r : MemReq) (stored computed : Word) : State :=
  (s.modChan k c (fun ch => { ch with inflight := ch.inflight.erase r, firstFail := satInc ch.firstFail, rereadFail := satInc ch.rereadFail })).logBadBlock
    k.val r.block stored computed r.ctx (if r.write then 1 else 0) (if r.port = .rt then c.val else 32)

theorem badReturn_read {s : State} {k : Fin 8} {c : Fin 32} {r : MemReq} {w : SlotRef} (stored computed : Word) (hw : r.who = some w)
    (h : r.write = false) : s.badReturn k c r stored computed =
      if ((s.blockLost k c r stored computed).stm w).epoch = r.epoch then (s.blockLost k c r stored computed).haltStream w 3 r.vpn
      else s.blockLost k c r stored computed := by
  rw [State.badReturn, hw]
  exact if_neg (by rw [h]; exact Bool.noConfusion)

theorem badReturn_write {s : State} {k : Fin 8} {c : Fin 32} {r : MemReq} {w : SlotRef} (stored computed : Word) (hw : r.who = some w)
    (h : r.write = true) : s.badReturn k c r stored computed = (s.blockLost k c r stored computed).writeLost w r := by
  rw [State.badReturn, hw]
  exact if_pos h

theorem writeLost_memories (s : State) (w : SlotRef) (r : MemReq) : (s.writeLost w r).memories = s.memories := by
  unfold State.writeLost
  dsimp only
  split
  · rfl
  · split
    · exact modStm_memories _ _ _
    · exact (haltStream_memories _ _ _ _).trans (modStm_memories _ _ _)

theorem badReturn_memories {s : State} {k : Fin 8} {c : Fin 32} {r : MemReq} {w : SlotRef} (stored computed : Word) (hw : r.who = some w) :
    (s.badReturn k c r stored computed).memories = (s.blockLost k c r stored computed).memories := by
  cases h : r.write with
  | false =>
    rw [badReturn_read stored computed hw h]
    split
    · exact haltStream_memories _ _ _ _
    · rfl
  | true => exact (congrArg State.memories (badReturn_write stored computed hw h)).trans (writeLost_memories _ _ _)

/-- A partial write lost: its stream halts and stands at the record's place or before it. -/
theorem writeLost_halts {s : State} {n i : Fin 64} {r : MemReq} (hg : ((s.cals[n]).streams[i]).gen = r.gen)
    (hi : ((s.cals[n]).streams[i]).st ≠ .idle) (hh : ((s.cals[n]).streams[i]).st ≠ .halted) {t : Stream}
    (ht : t = ((s.writeLost (.cal n i) r).cals[n]).streams[i]) : t.st = .halted ∧ t.cause = 3 ∧ t.vpn = r.vpn ∧ t.pos ≤ r.pos ∧ t.savePos ≤ r.pos := by
  subst ht
  have hx : s.writeLost (.cal n i) r = (s.modStm (.cal n i) (fun t =>
      if t.gen = r.gen then { t with pos := min t.pos r.pos, savePos := min t.savePos r.pos } else t)).haltStream (.cal n i) 3 r.vpn :=
    (if_neg hi).trans (if_neg hh)
  rw [hx]
  generalize hs1 : s.modStm (.cal n i) _ = s1
  have hpos : ((s1.cals[n]).streams[i]).pos ≤ r.pos := by
    rw [← hs1, State.modStm, State.modCal_at]
    dsimp only
    rw [vmod_get_same, if_pos hg]
    exact Nat.min_le_right _ _
  have hp := haltStream_plight s1 n i 3 r.vpn
  simp only [Stream.plight, Prod.mk.injEq] at hp
  obtain ⟨hst, hcause, hvpn, hsave⟩ := hp
  refine ⟨hst, hcause, hvpn, (haltStream_pos_le s1 n i 3 r.vpn).trans hpos, ?_⟩
  rw [hsave]
  exact (savedPos_le s1 (.cal n i)).trans hpos

/-! ### What a good return leaves alone (R200, R206) -/

/-- The counters of failed reads. -/
def Chan.tally (ch : Chan) : Word × Word × Word := (ch.firstFail, ch.rereadOk, ch.rereadFail)

/-- A state with the same failed reads of a controller, and the same device registers. -/
def SameTally (k : Fin 8) (c : Fin 32) (s t : State) : Prop := ((t.hbmStacks[k]).ch[c]).tally = ((s.hbmStacks[k]).ch[c]).tally ∧ t.glb = s.glb

theorem SameTally.refl (k : Fin 8) (c : Fin 32) (s : State) : SameTally k c s s := ⟨rfl, rfl⟩
theorem SameTally.trans {k : Fin 8} {c : Fin 32} {s t u : State} (h : SameTally k c s t) (g : SameTally k c t u) : SameTally k c s u :=
  ⟨g.1.trans h.1, g.2.trans h.2⟩
theorem SameTally.modChan (s : State) (k : Fin 8) (c : Fin 32) {f : Chan → Chan} (hf : ∀ ch, (f ch).tally = ch.tally) : SameTally k c s (s.modChan k c f) :=
  ⟨by rw [chan_modChan, hf], rfl⟩

theorem foldl_foretell_glb (x : LaneNote) (l : List EpRef) (s : State) : (l.foldl (State.foretell x) s).glb = s.glb := by
  induction l generalizing s with
  | nil => rfl
  | cons d l ih => exact (ih _).trans (by cases d <;> rfl)

theorem offerStack_tally (s : State) (k : Fin 8) (e : Fin 32) : SameTally k e s (s.offerStack k e) := by
  cases hb : ((s.hbmStacks[k]).ch[e]).rbuf with
  | nil => rw [show s.offerStack k e = s by simp only [State.offerStack, hb]]; exact .refl _ _ _
  | cons x xs =>
    by_cases h : ((s.hbmStacks[k]).eps[e]).source = true ∧ ((s.hbmStacks[k]).eps[e]).word = none
    · refine ⟨(congrArg Chan.tally (offerStack_effect hb h.1 h.2).1 :), ?_⟩
      rw [offerStack_leaves hb h.1 h.2]
      exact foldl_foretell_glb _ _ _
    · rw [show s.offerStack k e = s by simp only [State.offerStack, hb, if_neg h]]
      exact .refl _ _ _

theorem buffered_tally (s : State) (k : Fin 8) (c : Fin 32) (r : MemReq) (w : SlotRef) (b : List Byte) : SameTally k c s (s.buffered k c r w b) := by
  rw [State.buffered, wordsOf_state]
  exact .modChan { s with free := _ } k c fun _ => rfl

theorem deliver_tally (s : State) (k : Fin 8) (c : Fin 32) (r : MemReq) (d : Data2048) : SameTally k c s (s.deliver k c r d) := by
  cases hw : r.who with
  | none => rw [show s.deliver k c r d = s by simp only [State.deliver, hw]]; exact .refl _ _ _
  | some w =>
    cases hp : r.port with
    | rt =>
      rw [deliver_rt d hw hp]
      exact (buffered_tally _ _ _ _ _ _).trans (offerStack_tally _ _ _)
    | free =>
      rw [deliver_free d hw hp]
      split
      · cases w <;> exact ⟨rfl, rfl⟩
      · exact .refl _ _ _

theorem goodReturn_tally (s : State) (k : Fin 8) (c : Fin 32) (r : MemReq) (d : Data2048) : SameTally k c s (s.goodReturn k c r d) := by
  have h1 : SameTally k c s (s.modChan k c (fun ch => { ch with inflight := ch.inflight.erase r })) := .modChan s k c fun _ => rfl
  unfold State.goodReturn
  extract_lets plain s1
  split
  · rw [storeBlock_frame]
    exact h1.trans (.modChan { s1 with hbm := _, hbmMeta := _ } k c fun _ => rfl)
  · exact h1.trans (deliver_tally _ _ _ _ _)

section
variable {k : Fin 8} {c : Fin 32} {s : State} {flip : Data2048} {fc : Word} {r : MemReq}
  (hd : ((s.hbmStacks[k]).ch[c]).due? = some r)
include hd

theorem memRereadReturn_recovers (h0 : r.rereads ≠ 0)
    (hg : blockCheck r.block (toBytes (s.returned r.block flip fc).1 256) = (s.returned r.block flip fc).2) :
    ∃ u, exec (.memRereadReturn k c flip fc) s = .next u
      ∧ ((u.hbmStacks[k]).ch[c]).firstFail = satInc ((s.hbmStacks[k]).ch[c]).firstFail
      ∧ ((u.hbmStacks[k]).ch[c]).rereadOk = satInc ((s.hbmStacks[k]).ch[c]).rereadOk
      ∧ ((u.hbmStacks[k]).ch[c]).rereadFail = ((s.hbmStacks[k]).ch[c]).rereadFail
      ∧ (∀ q ∈ ((u.hbmStacks[k]).ch[c]).inflight, q.id ≠ r.id) ∧ u.glb = s.glb := by
  have hx := exec_memRereadReturn_good hd h0 hg
  obtain ⟨htally, hglb⟩ := goodReturn_tally s k c r (s.returned r.block flip fc).1
  generalize s.goodReturn k c r (s.returned r.block flip fc).1 = t at hx htally hglb
  simp only [Chan.tally, Prod.mk.injEq] at htally
  obtain ⟨hfirst, hok, hfail⟩ := htally
  refine ⟨_, hx, ?_⟩
  rw [watchPanic_chan, chan_modChan]
  refine ⟨congrArg satInc hfirst, congrArg satInc hok, hfail, fun q hq => ?_, hglb⟩
  simpa using (List.mem_filter.1 hq).2

theorem memReadReturn_rereads (h0 : r.rereads = 0) (hs : s.stale r = false)
    (hg : blockCheck r.block (toBytes (s.returned r.block flip fc).1 256) ≠ (s.returned r.block flip fc).2) (hp : r.spec = false) :
    ∃ u, exec (.memReadReturn k c flip fc) s = .next u
      ∧ u = { s with hbmStacks := u.hbmStacks }
      ∧ ((u.hbmStacks[k]).ch[c]).inflight = ((s.hbmStacks[k]).ch[c]).inflight.map (fun q => if q.id = r.id then { q with rereads := q.rereads + 1 } else q)
      ∧ ((u.hbmStacks[k]).ch[c]).openRows = (((s.hbmStacks[k]).ch[c]).reopen s.now r.block (s.hbmStacks[k]).idle.toNat).openRows := by
  have hcalm := reread_calm (s.modChan k c (fun ch => ch.countRead r)) k c r
  rw [chan_modChan, countRead_frame, show ((s.modChan k c (fun ch => ch.countRead r)).hbmStacks[k]).idle = (s.hbmStacks[k]).idle from
    (congrArg Stack.idle (stack_modStack _ _ _) :)] at hcalm
  refine ⟨_, exec_memReadReturn_again hd h0 hs hg hp, rfl, (congrArg Chan.inflight hcalm :), (congrArg Chan.openRows hcalm :).trans ?_⟩
  exact reopen_openRows_congr (by rfl) _ _ _

theorem memReadReturn_speculates {n i : Fin 64} (h0 : r.rereads = 0) (hs : s.stale r = false)
    (hg : blockCheck r.block (toBytes (s.returned r.block flip fc).1 256) ≠ (s.returned r.block flip fc).2) (hp : r.spec = true)
    (hw : r.who = some (.cal n i)) (he : ((s.cals[n]).streams[i]).epoch = r.epoch) :
    ∃ u, exec (.memReadReturn k c flip fc) s = .next u ∧ u.hbm = s.hbm ∧ ((u.cals[n]).streams[i]).raStop = true
      ∧ ((u.cals[n]).streams[i]).inBuf = ((s.cals[n]).streams[i]).inBuf ∧ ((u.cals[n]).streams[i]).st = ((s.cals[n]).streams[i]).st
      ∧ ((u.hbmStacks[k]).ch[c]).firstFail = satInc ((s.hbmStacks[k]).ch[c]).firstFail := by
  have hx := exec_memReadReturn_spec hd h0 hs hw hg hp
  generalize hs1 : (s.modChan k c (fun ch => ch.countRead r)).modChan k c (fun ch =>
    { ch with inflight := ch.inflight.erase r, firstFail := satInc ch.firstFail }) = s1 at hx
  have hcals : s1.cals = s.cals := by rw [← hs1]; rfl
  refine ⟨_, hx, by rw [← hs1]; rfl, ?_⟩
  have hstm : ((((s1.modStm (.cal n i) (fun t => if t.epoch = r.epoch then { t with raStop := true, epoch := t.epoch + 1, reqPos := t.bufPos + t.inBuf.length }
      else t)).watchPanic k c).cals[n]).streams[i]) = { (s.cals[n]).streams[i] with raStop := true, epoch := ((s.cals[n]).streams[i]).epoch + 1
                                                                                    reqPos := ((s.cals[n]).streams[i]).bufPos + ((s.cals[n]).streams[i]).inBuf.length } := by
    rw [(watchPanic_onlyStack _ _ _).cals, State.modStm, State.modCal_at]
    dsimp only
    rw [vmod_get_same, hcals, if_pos he]
  rw [hstm]
  refine ⟨rfl, rfl, rfl, ?_⟩
  rw [watchPanic_chan]
  show (((s1.hbmStacks[k]).ch[c]).firstFail) = _
  rw [← hs1, chan_modChan, chan_modChan, countRead_frame]

theorem memRereadReturn_rereads (h0 : r.rereads ≠ 0)
    (hg : blockCheck r.block (toBytes (s.returned r.block flip fc).1 256) ≠ (s.returned r.block flip fc).2) (hn : r.rereads < 3) :
    ∃ u, exec (.memRereadReturn k c flip fc) s = .next u
      ∧ u = { s with hbmStacks := u.hbmStacks }
      ∧ ((u.hbmStacks[k]).ch[c]).inflight
          = ((s.hbmStacks[k]).ch[c]).inflight.map (fun q => if q.id = r.id then { q with rereads := q.rereads + 1 } else q) :=
  ⟨_, exec_memRereadReturn_again hd h0 hg hn, rfl, (congrArg Chan.inflight (reread_calm s k c r) :)⟩

theorem memRereadReturn_fails {n i : Fin 64} (h0 : r.rereads ≠ 0)
    (hg : blockCheck r.block (toBytes (s.returned r.block flip fc).1 256) ≠ (s.returned r.block flip fc).2) (hn : 3 ≤ r.rereads)
    (hw : r.who = some (.cal n i)) (hlen : s.glb.bbl.recs.length < 64) (hnew : ∀ e ∈ s.glb.bbl.recs, fld e 0 32 ≠ r.block) :
    ∃ (u : State) (e : BitVec 256),
      exec (.memRereadReturn k c flip fc) s = .next u ∧ u.hbm = s.hbm ∧ u.glb.bbl.recs = s.glb.bbl.recs ++ [e] ∧ fld e 0 32 = r.block
      ∧ ((u.hbmStacks[k]).ch[c]).rereadFail = satInc ((s.hbmStacks[k]).ch[c]).rereadFail
      ∧ (r.write = false → ((s.cals[n]).streams[i]).epoch = r.epoch → ((u.cals[n]).streams[i]).st = .halted
          ∧ ((u.cals[n]).streams[i]).cause = 3 ∧ ((u.cals[n]).streams[i]).vpn = r.vpn)
      ∧ (r.write = true → ((s.cals[n]).streams[i]).gen = r.gen → ((s.cals[n]).streams[i]).st ≠ .idle →
          ((s.cals[n]).streams[i]).st ≠ .halted → ((u.cals[n]).streams[i]).st = .halted ∧ ((u.cals[n]).streams[i]).cause = 3
          ∧ ((u.cals[n]).streams[i]).vpn = r.vpn ∧ ((u.cals[n]).streams[i]).pos ≤ r.pos ∧ ((u.cals[n]).streams[i]).savePos ≤ r.pos) := by
  have hx := exec_memRereadReturn_lost hd h0 hg hn
  generalize (s.returned r.block flip fc).2 = stored at hx
  generalize blockCheck r.block (toBytes (s.returned r.block flip fc).1 256) = computed at hx
  have hm := badReturn_memories (s := s) (k := k) (c := c) stored computed hw
  obtain ⟨e, he, hraised⟩ := logBadBlock_new (s := s.modChan k c (fun ch =>
      { ch with inflight := ch.inflight.erase r, firstFail := satInc ch.firstFail, rereadFail := satInc ch.rereadFail }))
    hlen hnew k.val stored computed r.ctx (if r.write then 1 else 0) (if r.port = .rt then c.val else 32)
  have hlost : s.blockLost k c r stored computed = _ := rfl
  rw [State.blockLost] at hlost
  rw [← hlost] at hraised
  have hcals : (s.blockLost k c r stored computed).cals = s.cals := hraised.cals
  obtain ⟨hhbm, -, hstacks, hbbl⟩ := memories_iff.1 (hm.trans hraised.memories)
  refine ⟨_, e, hx, hhbm, congrArg RingLog.recs hbbl, he, ?_, fun hr hep => ?_, fun hr hgen hidle hhalt => ?_⟩
  · rw [watchPanic_chan, hstacks]
    show (((s.modChan k c _).hbmStacks[k]).ch[c]).rereadFail = _
    rw [chan_modChan]
  · rw [(watchPanic_onlyStack _ _ _).cals, badReturn_read stored computed hw hr,
      if_pos (by simp only [State.stm, hcals]; exact hep)]
    have hp := haltStream_plight (s.blockLost k c r stored computed) n i 3 r.vpn
    simp only [Stream.plight, Prod.mk.injEq] at hp
    obtain ⟨hst, hcause, hvpn, -⟩ := hp
    exact ⟨hst, hcause, hvpn⟩
  · rw [(watchPanic_onlyStack _ _ _).cals, badReturn_write stored computed hw hr]
    exact writeLost_halts (by rw [hcals]; exact hgen) (by rw [hcals]; exact hidle) (by rw [hcals]; exact hhalt) rfl

end

/-- Settles O29: a return by its check and its re-reads; the check by a step of CRC-32C that can be undone. -/
theorem memoryReadsAndChecks : Obligations.MemoryReadsAndChecks := by
  unfold Obligations.MemoryReadsAndChecks
  refine ⟨fun k c s flip fc r x hd h0 hs hx => ?first, fun k c s flip fc r x hd h0 hx => ?again,
    fun s ctx b d t => storeBlock_checks, metaOf_get, burstCheck_metaOf⟩
  case first =>
    subst hx
    exact ⟨fun n i hg hw hwho hk => ⟨memReadReturn_free hd h0 hs hg hk hw hwho, memReadReturn_rt hd h0 hs hg hk hw hwho⟩,
      memReadReturn_rereads hd h0 hs, fun n i hg hp hw he => memReadReturn_speculates hd h0 hs hg hp hw he,
      fun hg hw hk => memReadReturn_merges hd h0 hs hg hk hw⟩
  case again =>
    subst hx
    exact ⟨memRereadReturn_recovers hd h0, memRereadReturn_rereads hd h0,
      fun n i hg hn hw hlen hnew => memRereadReturn_fails hd h0 hg hn hw hlen hnew⟩

end Sys2Proof.Machine
end

section
/-! Proofs of the statements about the stacks: housekeeping, training and resets; remote accesses; bring-up. -/
namespace Sys2Proof.Machine

/-! ### Rows, refreshes, temperature, counters and logs (R192, R195, R204, R206, R207) -/

theorem openRow_closes (ch : Chan) (now idle : Nat) (b : Word) (h : idle = 0) :
    tfind (ch.openRow now b idle).openRows (blockPlace b).bank = none := by
  rw [openRow_openRows, if_pos h, tfind_tdel, if_pos rfl]

theorem openRow_opens (ch : Chan) (now idle : Nat) (b : Word) (h : idle ≠ 0) :
    tfind (ch.openRow now b idle).openRows (blockPlace b).bank = some (blockPlace b).row
      ∧ tfind (ch.openRow now b idle).rowDue (blockPlace b).bank = some (now + (10 * idle + 63) / 64) := by
  rw [openRow_openRows, openRow_rowDue, if_neg h, if_neg h, tfind_tput, tfind_tput, if_pos rfl, if_pos rfl]
  exact ⟨rfl, rfl⟩

theorem openRow_other (ch : Chan) (now idle : Nat) (b : Word) {x : Nat} (hx : x ≠ (blockPlace b).bank) :
    tfind (ch.openRow now b idle).openRows x = tfind ch.openRows x ∧ tfind (ch.openRow now b idle).rowDue x = tfind ch.rowDue x := by
  rw [openRow_openRows, openRow_rowDue]
  split
  · rw [tfind_tdel, tfind_tdel, if_neg hx, if_neg hx]
    exact ⟨rfl, rfl⟩
  · rw [tfind_tput, tfind_tput, if_neg hx, if_neg hx]
    exact ⟨rfl, rfl⟩

section
variable {k : Fin 8} {c : Fin 32} {pc : Bool} {b : Fin 16} {s : State}

theorem exec_rowIdleExpiry_due {d : Nat} (h : tfind ((s.hbmStacks[k]).ch[c]).rowDue (16 * pc.toNat + b.val) = some d) (hd : d ≤ s.now) :
    exec (.rowIdleExpiry k c pc b) s = .next (s.modChan k c (fun ch => ch.closeRow (16 * pc.toNat + b.val))) :=
  congrArg Host.Outcome.next (State.modChan_congr (if_pos (by rw [h]; exact decide_eq_true hd)))

theorem exec_rowIdleExpiry_waits (h : ∀ d, tfind ((s.hbmStacks[k]).ch[c]).rowDue (16 * pc.toNat + b.val) = some d → s.now < d) :
    exec (.rowIdleExpiry k c pc b) s = .next s := by
  have hany : ¬ ((tfind ((s.hbmStacks[k]).ch[c]).rowDue (16 * pc.toNat + b.val)).any fun d => decide (d ≤ s.now)) = true := by
    rw [Option.any_eq_true]
    rintro ⟨d, hd, hle⟩
    exact Nat.not_lt.2 (of_decide_eq_true hle) (h d hd)
  exact congrArg Host.Outcome.next (State.modChan_self (if_neg hany))

theorem rowIdleExpiry_closes {d : Nat} (h : tfind ((s.hbmStacks[k]).ch[c]).rowDue (16 * pc.toNat + b.val) = some d) (hd : d ≤ s.now) :
    ∃ u, exec (.rowIdleExpiry k c pc b) s = .next u ∧ OnlyStack k s u
      ∧ tfind ((u.hbmStacks[k]).ch[c]).openRows (16 * pc.toNat + b.val) = none
      ∧ (∀ x, x ≠ 16 * pc.toNat + b.val → tfind ((u.hbmStacks[k]).ch[c]).openRows x = tfind ((s.hbmStacks[k]).ch[c]).openRows x)
      ∧ ((u.hbmStacks[k]).ch[c]).queue = ((s.hbmStacks[k]).ch[c]).queue := by
  refine ⟨_, exec_rowIdleExpiry_due h hd, onlyStack_modStack _ _ _, ?_⟩
  rw [chan_modChan]
  refine ⟨?_, fun x hx => ?_, rfl⟩
  · exact (tfind_tdel _ _ _).trans (if_pos rfl)
  · exact (tfind_tdel _ _ _).trans (if_neg hx)

end

section
variable {ch : Chan} {i : Fin 2} {m : Nat}

theorem refreshDue_postpones (h : ch.panicRd = true ∨ ch.panicWr = true) (hm : ch.postponed[i] < m) :
    ch.refreshDue i m = { ch with postponed := vmod ch.postponed i (· + 1), refPostponed := satInc ch.refPostponed } := by
  rw [Chan.refreshDue, if_pos (Bool.or_eq_true _ _ ▸ h), if_pos hm]

theorem refreshDue_presses (h : ch.panicRd = true ∨ ch.panicWr = true) (hm : m ≤ ch.postponed[i]) :
    ch.refreshDue i m = { ch with urgent := vmod ch.urgent i (· + 1) } := by
  rw [Chan.refreshDue, if_pos (Bool.or_eq_true _ _ ▸ h), if_neg (Nat.not_lt.2 hm)]

/-- A refresh that falls due in panic leaves those that are merely due as they are. -/
theorem refreshDue_due (h : ch.panicRd = true ∨ ch.panicWr = true) : (ch.refreshDue i m).due = ch.due := by
  rcases Nat.lt_or_ge ch.postponed[i] m with hm | hm
  · rw [refreshDue_postpones h hm]
  · rw [refreshDue_presses h hm]

theorem refreshDue_calm (h : ch.panicRd = false ∧ ch.panicWr = false) : ch.refreshDue i m = { ch with due := vmod ch.due i (· + 1) } := by
  rw [Chan.refreshDue, if_neg (by rw [h.1, h.2]; exact Bool.noConfusion)]

end

theorem chan_refreshDue (s : State) (k : Fin 8) (c : Fin 32) (i : Fin 2) :
    ((s.modStack k (fun st => { st with ch := vmod st.ch c (fun ch => ch.refreshDue i st.postMax.toNat) })).hbmStacks[k]).ch[c]
      = ((s.hbmStacks[k]).ch[c]).refreshDue i (s.hbmStacks[k]).postMax.toNat := by
  rw [stack_modStack]
  exact vmod_get_same _ _ _

theorem exec_hbmTempPoll (k : Fin 8) (t : Byte) (hot : Bool) (s : State) : ∃ u, exec (.hbmTempPoll k t hot) s = .next u
    ∧ Raised (s.modStack k (fun st => { st with temp := t, tempMax := maxW st.tempMax t, hotNow := hot, hot := st.hot || hot })) u
    ∧ (hot = false → u = s.modStack k (fun st => { st with temp := t, tempMax := maxW st.tempMax t, hotNow := hot, hot := st.hot || hot })) := by
  refine ⟨_, rfl, ?_, fun h => ?_⟩
  · split
    · exact raise_frame _ _ _ _ _ _ _
    · exact .refl _
  · exact if_neg (fun hh => Bool.false_ne_true (h.symm.trans hh.1))

theorem hbmTempPoll_keeps (k : Fin 8) (t : Byte) (hot : Bool) (s : State) : ∃ u, exec (.hbmTempPoll k t hot) s = .next u
    ∧ Raised (s.modStack k (fun _ => u.hbmStacks[k])) u
    ∧ u.hbmStacks[k] = { (s.hbmStacks[k]) with
        temp := t, tempMax := if (s.hbmStacks[k]).tempMax.toNat < t.toNat then t else (s.hbmStacks[k]).tempMax
        hotNow := hot, hot := (s.hbmStacks[k]).hot || hot }
    ∧ (hot = false → OnlyStack k s u) := by
  obtain ⟨u, hu, hr, hcool⟩ := exec_hbmTempPoll k t hot s
  have hstack : u.hbmStacks[k] = _ := (congrArg (·[k]) hr.hbmStacks).trans (stack_modStack _ _ _)
  refine ⟨u, hu, ?_, hstack, fun h => ?_⟩
  · rw [State.modStack_congr (g := fun _ => u.hbmStacks[k]) hstack.symm] at hr
    exact hr
  · rw [hcool h]
    exact onlyStack_modStack _ _ _

theorem exec_hbmCntClr {s : State} (h : 5 ≤ s.pwr.phase.toNat) (k : Fin 8) : exec (.hbmCntClr k) s = .next (s.modStack k (fun st =>
    { st with ch := st.ch.map (fun ch => { ch with rd := 0, wr := 0, rmw := 0, rowMiss := 0, firstFail := 0, rereadOk := 0, rereadFail := 0,
                                                   panicCnt := 0, refPostponed := 0, rawWait := 0, badReq := 0 }) })) :=
  if_neg (by rw [State.serving, decide_eq_true h]; exact Bool.noConfusion)

theorem pop_recs {α : Type} (l : RingLog α) : l.pop.recs = l.recs.tail := by
  unfold RingLog.pop
  split
  next h => rw [h]; rfl
  next h => rw [h]; rfl

/-! ### The training of a stack (R202) -/

theorem tget_filter {α : Type} (d : α) (p : Nat → Bool) (t : Tbl α) (j : Nat) :
    tget d (t.filter (fun e => p e.1)) j = if p j then tget d t j else d := by
  induction t with
  | nil => exact (ite_self d).symm
  | cons e t ih =>
    obtain ⟨i, v⟩ := e
    cases hp : p i with
    | false =>
      rw [List.filter_cons_of_neg (by simp [hp]), ih, tget]
      by_cases hij : i = j
      · rw [← hij, hp]; rfl
      · rw [if_neg hij]
    | true =>
      rw [List.filter_cons_of_pos (by simpa using hp), tget, tget, ih]
      by_cases hij : i = j
      · rw [if_pos hij, if_pos hij, ← hij, hp]; rfl
      · rw [if_neg hij, if_neg hij]

theorem mread_mclear (m : Memory) (a n x : Nat) : mread (mclear m a n) x = if a ≤ x ∧ x < a + n then 0 else mread m x := by
  have h := tget_filter Memory.unlisted (fun i => decide (i < a) || decide (a + n ≤ i)) m x
  rw [mread, mread, mclear, h]
  by_cases hx : a ≤ x ∧ x < a + n
  · rw [if_pos hx, if_neg (by simp; omega)]; rfl
  · rw [if_neg hx, if_pos (by simp; omega)]

section
variable {k : Fin 8} {s : State} (h1 : (s.hbmStacks[k]).st = 1)
include h1

theorem exec_stackTraining (o : StackOutcome) : exec (.stackTraining k o) s = match o with
    | .pass rows =>
      if (s.hbmStacks[k]).step = 2 ∧ rows.toNat < 68672 then .next ((s.modStack k (fun t => { t with rows := rows })).trainFail k 1)
      else if (s.hbmStacks[k]).step = 8 then .next ((s.noteLate.clearStack k).modStack k (fun t => { t with st := 2, cause := 0 }))
      else .next (s.modStack k (fun t => { t with step := t.step + 1, rows := if t.step = 2 then rows else t.rows }))
    | .badBlock block stored computed =>
      if (s.hbmStacks[k]).step = 7 then .next (s.draw.2.logBadBlock k.val block stored computed 0xFF 2 (nfld s.draw.1 0 6)) else .next s
    | .fail cause =>
      if trainCause (s.hbmStacks[k]).step.toNat = cause.val ∧ cause.val ≠ 0 then .next (s.noteLate.trainFail k cause.val) else .next s := by
  refine (if_neg (not_not.2 h1)).trans ?_
  cases o <;> rfl

end

section
variable {k : Fin 8} {s : State}

theorem trainFail_again (h : (s.hbmStacks[k]).attempts.toNat < 3) (cause : Nat) : s.trainFail k cause =
    s.modStack k (fun t => { t with cause := BitVec.ofNat 3 cause, attempts := t.attempts + 1, step := 1 }) := if_pos h

theorem trainFail_last (h : 3 ≤ (s.hbmStacks[k]).attempts.toNat) (cause : Nat) :
    Raised (s.modStack k (fun t => { t with cause := BitVec.ofNat 3 cause, st := 3 })) (s.trainFail k cause) := by
  rw [State.trainFail, if_neg (Nat.not_lt.2 h)]
  exact raise_frame _ _ _ _ _ _ _

variable (h1 : (s.hbmStacks[k]).st = 1)
include h1

theorem stackTraining_passes {rows : BitVec 18} (h8 : (s.hbmStacks[k]).step ≠ 8) (h2 : (s.hbmStacks[k]).step = 2 → 68672 ≤ rows.toNat) :
    ∃ u, exec (.stackTraining k (.pass rows)) s = .next u ∧ OnlyStack k s u
      ∧ (u.hbmStacks[k]).step = (s.hbmStacks[k]).step + 1 ∧ (u.hbmStacks[k]).st = 1
      ∧ (u.hbmStacks[k]).rows = (if (s.hbmStacks[k]).step = 2 then rows else (s.hbmStacks[k]).rows) := by
  refine ⟨_, (exec_stackTraining h1 _).trans ((if_neg (fun h => Nat.not_lt.2 (h2 h.1) h.2)).trans (if_neg h8)), onlyStack_modStack _ _ _, ?_⟩
  rw [stack_modStack]
  exact ⟨rfl, h1, rfl⟩

theorem stackTraining_readies {rows : BitVec 18} (h8 : (s.hbmStacks[k]).step = 8) :
    ∃ u, exec (.stackTraining k (.pass rows)) s = .next u ∧ u = { s with hbm := u.hbm, hbmMeta := u.hbmMeta, hbmStacks := u.hbmStacks, sec := u.sec }
      ∧ (u.hbmStacks[k]).st = 2 ∧ (u.hbmStacks[k]).cause = 0
      ∧ ∀ a, mread u.hbm a = if k.val * 2 ^ 37 ≤ a ∧ a < (k.val + 1) * 2 ^ 37 then 0 else mread s.hbm a := by
  have h2 : ¬ ((s.hbmStacks[k]).step = 2 ∧ rows.toNat < 68672) := by
    rw [h8]
    exact fun h => absurd h.1 (by decide)
  refine ⟨_, (exec_stackTraining h1 _).trans ((if_neg h2).trans (if_pos h8)), rfl, ?_⟩
  rw [stack_modStack]
  refine ⟨rfl, rfl, fun a => ?_⟩
  rw [Nat.add_mul, Nat.one_mul]
  exact mread_mclear _ _ _ _

theorem stackTraining_fails {cause : Fin 6} (h0 : cause.val ≠ 0) (hc : trainCause (s.hbmStacks[k]).step.toNat = cause.val) :
    ((s.hbmStacks[k]).attempts.toNat < 3 → ∃ u, exec (.stackTraining k (.fail cause)) s = .next u
      ∧ (u.hbmStacks[k]).st = 1 ∧ (u.hbmStacks[k]).step = 1 ∧ (u.hbmStacks[k]).attempts = (s.hbmStacks[k]).attempts + 1
      ∧ (u.hbmStacks[k]).cause.toNat = cause.val ∧ u.hbm = s.hbm) ∧
    (3 ≤ (s.hbmStacks[k]).attempts.toNat → ∃ u, exec (.stackTraining k (.fail cause)) s = .next u
      ∧ (u.hbmStacks[k]).st = 3 ∧ (u.hbmStacks[k]).cause.toNat = cause.val ∧ u.hbm = s.hbm) := by
  have hx : exec (.stackTraining k (.fail cause)) s = .next (s.noteLate.trainFail k cause.val) :=
    (exec_stackTraining h1 _).trans (if_pos ⟨hc, h0⟩)
  have hcause : (BitVec.ofNat 3 cause.val).toNat = cause.val := by
    rw [BitVec.toNat_ofNat]
    exact Nat.mod_eq_of_lt (Nat.lt_trans cause.isLt (by decide))
  refine ⟨fun h3 => ⟨_, hx, ?_⟩, fun h3 => ⟨_, hx, ?_⟩⟩
  · rw [trainFail_again (s := s.noteLate) h3, stack_modStack]
    exact ⟨h1, rfl, rfl, hcause, rfl⟩
  · have hr := trainFail_last (s := s.noteLate) (k := k) h3 cause.val
    rw [hr.hbmStacks, hr.hbm, stack_modStack]
    exact ⟨rfl, hcause, rfl⟩

theorem stackTraining_tooFewRows {rows : BitVec 18} (h2 : (s.hbmStacks[k]).step = 2) (hr : rows.toNat < 68672)
    (h3 : (s.hbmStacks[k]).attempts.toNat < 3) : ∃ u, exec (.stackTraining k (.pass rows)) s = .next u ∧ OnlyStack k s u
      ∧ (u.hbmStacks[k]).st = 1 ∧ (u.hbmStacks[k]).step = 1 ∧ (u.hbmStacks[k]).cause = 1 ∧ (u.hbmStacks[k]).rows = rows
      ∧ (u.hbmStacks[k]).attempts = (s.hbmStacks[k]).attempts + 1 := by
  refine ⟨_, (exec_stackTraining h1 _).trans (if_pos ⟨h2, hr⟩), ?_⟩
  rw [trainFail_again (by rw [stack_modStack]; exact h3)]
  refine ⟨(onlyStack_modStack _ _ _).trans (onlyStack_modStack _ _ _), ?_⟩
  rw [stack_modStack, stack_modStack]
  exact ⟨h1, rfl, rfl, rfl, rfl⟩

theorem stackTraining_logsBlock {b : Word} (computed stored : Word) (h7 : (s.hbmStacks[k]).step = 7) (hlen : s.glb.bbl.recs.length < 64)
    (hnew : ∀ e ∈ s.glb.bbl.recs, fld e 0 32 ≠ b) : ∃ (u : State) (e : BitVec 256),
      exec (.stackTraining k (.badBlock b stored computed)) s = .next u ∧ u.hbm = s.hbm ∧ (u.hbmStacks[k]).st = 1 ∧ (u.hbmStacks[k]).step = 7
      ∧ u.glb.bbl.recs = s.glb.bbl.recs ++ [e] ∧ fld e 0 32 = b := by
  obtain ⟨e, he, hr⟩ := logBadBlock_new (s := s.draw.2) hlen hnew k.val stored computed 0xFF 2 (nfld s.draw.1 0 6)
  refine ⟨_, e, (exec_stackTraining h1 _).trans (if_pos h7), hr.hbm, ?_, ?_, ?_, he⟩
  · rw [hr.hbmStacks]
    exact h1
  · rw [hr.hbmStacks]
    exact h7
  · rw [hr.glb]
    rfl

end

/-- Settles O30: the clauses follow the commands of the housekeeping, then the outcomes of a training step. -/
theorem stackHousekeepingAndTraining : Obligations.StackHousekeepingAndTraining := by
  unfold Obligations.StackHousekeepingAndTraining
  refine ⟨⟨fun c now idle b => ⟨openRow_closes c now idle b, openRow_opens c now idle b, fun x hx => openRow_other c now idle b hx⟩,
      fun k c pc b s => ⟨fun d h hd => rowIdleExpiry_closes h hd, exec_rowIdleExpiry_waits⟩, ?_, hbmTempPoll_keeps, fun k s h => ?_,
      fun s => ⟨rfl, pop_recs _, rfl, rfl, rfl⟩⟩,
    fun k rows s h1 h8 h2 => stackTraining_passes h1 h8 h2, fun k rows s h1 h8 => stackTraining_readies h1 h8,
    fun k cause s h1 h0 hc => stackTraining_fails h1 h0 hc, fun k rows s h1 h2 hr h3 => stackTraining_tooFewRows h1 h2 hr h3,
    fun k b computed stored s h1 h7 hlen hnew => stackTraining_logsBlock h1 computed stored h7 hlen hnew, fun k o s h => if_pos h⟩
  · rintro k c pc i s rfl
    refine ⟨_, rfl, onlyStack_modStack _ _ _, ?_⟩
    rw [chan_refreshDue]
    refine ⟨fun hp => ⟨fun hm => ?_, fun hm => ?_, refreshDue_due hp⟩, fun hp => ?_⟩
    · rw [refreshDue_postpones hp hm]
      exact ⟨vmod_get_same _ _ _, rfl, rfl⟩
    · rw [refreshDue_presses hp hm]
      exact ⟨vmod_get_same _ _ _, rfl⟩
    · rw [refreshDue_calm hp]
      exact ⟨vmod_get_same _ _ _, rfl, rfl⟩
  · refine ⟨_, exec_hbmCntClr h k, onlyStack_modStack _ _ _, fun c => ?_⟩
    rw [stack_modStack]
    exact Vector.getElem_map _ _

/-! ### Remote accesses (R258, R286, R370) -/

/-- The flit at the front of the inbox is the first of its type. -/
theorem takeFlit_front {l rest : List (Fin 12 × Data2048)} {e : Fin 12 × Data2048} {n : Nat} (hl : l = e :: rest) (hn : flType e.2 = n) :
    takeFlit (fun e => flType e.2 == n) l = (some e, rest) := by
  rw [takeFlit, hl, List.find?_cons_of_pos (p := fun e : Fin 12 × Data2048 => flType e.2 == n) (beq_iff_eq.2 hn)]
  exact congrArg (Prod.mk _) (List.erase_cons_head _ _)

section
variable {a : Fin 12} {f : Data2048} {rest : List (Fin 12 × Data2048)} {s : State} (hin : s.fab.inbox = (a, f) :: rest)

section
variable {write : Bool} (io : HostIO) (fails : List BlockFail) (ht : flType f = if write then 4 else 5)
include hin ht

theorem serveFree_refused {counted : Bool} (hd : s.freeDenied a f = some counted) : s.serveFree write io fails =
    .next ((if counted then (s.tookFlit rest a f).noteRefusal (frCtx (flPayload f)) else s.tookFlit rest a f).freeAnswer f 6 []) := by
  unfold State.serveFree
  rw [takeFlit_front hin ht]
  simp only [hd]

variable (hd : s.freeDenied a f = none)
include hd

theorem serveFree_tooLong (hlen : 224 < frLen (flPayload f)) :
    s.serveFree write io fails = .next ((s.tookFlit rest a f).freeAnswer f 5 []) := by
  unfold State.serveFree
  rw [takeFlit_front hin ht]
  simp only [hd, hlen, if_true]

variable (hlen : frLen (flPayload f) ≤ 224)
include hlen

theorem serveFree_faults {c : Nat} (hc : partsFault (s.freeParts (flPayload f) write) = some c) :
    s.serveFree write io fails = .next ((s.tookFlit rest a f).freeAnswer f c []) := by
  unfold State.serveFree
  rw [takeFlit_front hin ht]
  simp only [hd, Nat.not_lt.2 hlen, if_false, hc]

end

include hin in
theorem exec_freeWr_done (fails : List BlockFail) (ht : flType f = 4) (hd : s.freeDenied a f = none) (hlen : frLen (flPayload f) ≤ 224)
    (hc : partsFault (s.freeParts (flPayload f) true) = none) {r : State × Bool}
    (hr : (s.tookFlit rest a f).freePut (frCtx (flPayload f)) fails (s.freeParts (flPayload f) true) (frData (flPayload f)) = r) :
    exec (.freeWr fails) s = .next (r.1.freeAnswer f (if r.2 then 0 else 3) []) := by
  show s.serveFree true .none fails = _
  unfold State.serveFree
  rw [takeFlit_front hin (show flType f = if true then 4 else 5 from ht)]
  simp only [hd, Nat.not_lt.2 hlen, if_false, hc, if_true, hr]

include hin in
/-- A remote read that passes its checks asks the host for what it holds, if anything (R258, R286). -/
theorem exec_freeRd_granted (io : HostIO) (fails : List BlockFail) (ht : flType f = 5) (hd : s.freeDenied a f = none)
    (hlen : frLen (flPayload f) ≤ 224) (hc : partsFault (s.freeParts (flPayload f) false) = none) :
    (((s.freeParts (flPayload f) false).map partHost).sum = 0 → exec (.freeRd io fails) s =
      .next ((s.tookFlit rest a f).freeReadAnswer f fails (s.freeParts (flPayload f) false) [])) ∧
    (∀ b, ((s.freeParts (flPayload f) false).map partHost).sum ≠ 0 → io = .data b →
      b.length = ((s.freeParts (flPayload f) false).map partHost).sum → exec (.freeRd io fails) s =
      .next ((s.tookFlit rest a f).freeReadAnswer f fails (s.freeParts (flPayload f) false) b)) ∧
    (((s.freeParts (flPayload f) false).map partHost).sum ≠ 0 → io = .error → exec (.freeRd io fails) s =
      .next ((s.tookFlit rest a f).freeAnswer f 4 [])) := by
  have hx : exec (.freeRd io fails) s = s.serveFree false io fails := rfl
  unfold State.serveFree at hx
  rw [takeFlit_front hin (show flType f = if false then 4 else 5 from ht)] at hx
  simp only [hd, Nat.not_lt.2 hlen, if_false, hc, Bool.false_eq_true] at hx
  refine ⟨fun h0 => hx.trans (if_pos h0), fun b h0 hio hb => (hx.trans (if_neg h0)).trans ?_, fun h0 hio => (hx.trans (if_neg h0)).trans ?_⟩
  · rw [hio]
    exact if_pos hb
  · rw [hio]

include hin in
theorem exec_freeRsp_answers {x : Awaited} {r : SlotRef} (ht : flType f = 6)
    (hx : s.fab.freeOut.find? (fun y => y.tag == (frTag (flPayload f)).setWidth 32) = some x) (hr : x.slot = some r)
    (he : x.epoch = (s.stm r).epoch) : exec .freeRsp s =
      if frStatus (flPayload f) ≠ 0 then .next (((s.tookFlit rest a f).modFab (fun b => { b with freeOut := b.freeOut.erase x })).haltStream r
        (freeCause (frStatus (flPayload f))) x.vpn)
      else if x.write then .next (((s.tookFlit rest a f).modFab (fun b => { b with freeOut := b.freeOut.erase x })).accepted r x.len)
      else .next (((s.tookFlit rest a f).modFab (fun b => { b with freeOut := b.freeOut.erase x })).feed r
        (slice (toBytes (flPayload f) 240) 0x10 x.len)) := by
  show execFreeRsp s = _
  unfold execFreeRsp
  rw [takeFlit_front hin ht]
  simp only [hx, hr, he, ne_eq, not_true_eq_false, if_false]

end

theorem exec_freeRspTimeout {tag : BitVec 16} {s : State} {x : Awaited} {r : SlotRef}
    (hx : s.fab.freeOut.find? (fun y => y.tag == tag.setWidth 32) = some x) (hr : x.slot = some r) (he : x.epoch = (s.stm r).epoch) :
    exec (.freeRspTimeout tag) s = if x.since + s.fab.probeTo.toNat ≤ s.now then
      .next ((s.modFab (fun b => { b with freeOut := b.freeOut.erase x })).haltStream r 4 x.vpn) else .next s := by
  show execFreeRspTimeout tag s = _
  unfold execFreeRspTimeout
  simp only [hx, hr, he, if_true]

/-- Settles O41: each answer is a branch of `State.serveFree`, of the answer's arrival, or of its timeout. -/
theorem remoteAccesses : Obligations.RemoteAccesses := by
  unfold Obligations.RemoteAccesses
  refine ⟨fun a f rest s hin => ⟨fun fails ht => ?_, fun io fails ht => ?_, fun io fails ht hd hlen hc => exec_freeRd_granted hin io fails ht hd hlen hc,
    fun x r ht hx hr he => ?_⟩, fun tag s x r hx hr he => ?_⟩
  · exact ⟨serveFree_refused (write := true) hin .none fails ht, serveFree_refused (write := true) hin .none fails ht, serveFree_tooLong (write := true) hin .none fails ht,
      fun c hd hlen hc => serveFree_faults (write := true) hin .none fails ht hd hlen hc, fun r hd hlen hc hr => exec_freeWr_done hin fails ht hd hlen hc hr⟩
  · exact ⟨serveFree_refused (write := false) hin io fails ht, serveFree_refused (write := false) hin io fails ht, serveFree_tooLong (write := false) hin io fails ht,
      fun c hd hlen hc => serveFree_faults (write := false) hin io fails ht hd hlen hc⟩
  · rw [exec_freeRsp_answers hin ht hx hr he]
    exact ⟨fun h0 => if_pos h0, fun h0 hw => (if_neg (not_not.2 h0)).trans (if_pos hw),
      fun h0 hw => (if_neg (not_not.2 h0)).trans (if_neg (by rw [hw]; exact Bool.noConfusion))⟩
  · rw [exec_freeRspTimeout hx hr he]
    exact ⟨fun h => if_pos h, fun h => if_neg (Nat.not_le.2 h)⟩

/-! ### The stacks across resets, and bring-up (R203, R384, R385) -/

theorem warmReset_stack (s : State) (c : Nat) (k : Fin 8) : (s.warmReset c).hbmStacks[k] = (s.hbmStacks[k]).afterWarm := by
  rw [(warmReset_eventOnly s c).raised.hbmStacks]
  exact Vector.getElem_map _ _

theorem afterWarm_failed {t : Stack} (h : t.st = 3) : t.afterWarm = { st := 3, cause := t.cause, attempts := t.attempts, step := t.step } := if_pos h
theorem afterWarm_untrained {t : Stack} (h : t.st ≠ 3) : t.afterWarm = {} := if_neg h

theorem coldReset_stack (s : State) (c : Nat) (k : Fin 8) : (s.coldReset c).hbmStacks[k] = {} := by
  rw [(coldReset_eventOnly s c).raised.hbmStacks]
  exact Vector.getElem_replicate _

theorem train_failed {t : Stack} (h : t.st = 3) : t.train = t := if_pos h
theorem train_starts {t : Stack} (h : t.st ≠ 3) : t.train.st = 1 ∧ t.train.step = 1 ∧ t.train.attempts = 1 := by
  rw [Stack.train, if_neg h]
  exact ⟨rfl, rfl, rfl⟩

theorem startMemory_stack (s : State) (k : Fin 8) : s.startMemory.hbmStacks[k] = (s.hbmStacks[k]).train := Vector.getElem_map _ _

theorem exec_bringUpPhase_memory {s : State} (hr : s.running = true) (h5 : s.pwr.phase = 5)
    (hz : ∀ n : Fin 64, n.val < 8 → (s.cals[n]).zeroing = false) : exec .bringUpPhase s = .next s.startMemory := by
  have hany : ¬ ((List.finRange 8).any fun n => (s.cals[(Fin.ofNat 64 n.val)] : Caldera).zeroing) = true := by
    rw [List.any_eq_true]
    rintro ⟨n, -, hn⟩
    rw [hz (Fin.ofNat 64 n.val) (Nat.lt_of_le_of_lt (Nat.mod_le _ _) n.isLt)] at hn
    exact Bool.false_ne_true hn
  show execBringUpPhase s = _
  unfold execBringUpPhase
  rw [hr, h5]
  exact congrArg Host.Outcome.next (if_neg hany)

/-- Phase 8 waits while a configuration stream is open: one load runs at a time (R338). -/
theorem exec_bringUpPhase_streaming {s : State} (hr : s.running = true) (h8 : s.pwr.phase = 8) (hs : s.cfg.streaming = true) :
    exec .bringUpPhase s = .next s := by
  show execBringUpPhase s = _
  unfold execBringUpPhase
  rw [hr, h8]
  exact congrArg Host.Outcome.next (if_pos (.inr hs))

/-- Settles O55: what a reset does to each stack, and what the memory phase starts. -/
theorem warmResetRetrainsStacks : Obligations.WarmResetRetrainsStacks := by
  unfold Obligations.WarmResetRetrainsStacks
  refine ⟨fun c s k => ⟨(warmReset_wiped s c).hbm, fun h => ?_, fun h => ?_⟩, fun s hr h5 hz => ?_, fun c s k => ?_⟩
  · rw [warmReset_stack, afterWarm_failed h]
    exact ⟨rfl, rfl⟩
  · rw [warmReset_stack, afterWarm_untrained h]
    exact fun h0 => absurd h0 (by decide)
  · refine ⟨_, exec_bringUpPhase_memory hr h5 hz, rfl, fun k => ?_⟩
    rw [startMemory_stack]
    exact ⟨train_starts, train_failed⟩
  · rw [coldReset_stack]

/-- A device in phase 8 of bring-up into which a configuration stream is being forwarded. -/
def forwardedAtBoot : State :=
  { State.reset with
    pwr := { State.reset.pwr with phase := 8 }
    cfg := { State.reset.cfg with fwdOpen := some 0 }
    pins := { State.reset.pins with pwrOk := true, coldRstN := true } }

/-- Refutes O58: while a forwarded configuration stream is open, phase 8 waits and does not load the logic (R338). -/
theorem not_bringUpPhases : ¬ Obligations.BringUpPhases := by
  unfold Obligations.BringUpPhases
  intro h
  have hwaits : exec .bringUpPhase forwardedAtBoot = .next forwardedAtBoot := exec_bringUpPhase_streaming rfl rfl rfl
  obtain ⟨-, hphases⟩ := h forwardedAtBoot
  obtain ⟨-, -, -, -, -, -, -, -, -, hloads, -⟩ := hphases rfl
  have heq := Host.Outcome.next.inj (hwaits.symm.trans (hloads rfl rfl))
  exact absurd (congrArg (fun t : State => t.pwr.phaseDone) heq) Bool.false_ne_true

end Sys2Proof.Machine
end

section
/-! Lemmas about one link port in the state: a change of it, its line, its events, and the retrains. -/

namespace Sys2Proof.Machine

/-! ### One port changed -/

theorem port_modPort (s : State) (p : Fin 12) (f : Port → Port) : (s.modPort p f).ports[p] = f s.ports[p] :=
  vmod_get_same _ _ _

theorem port_modPort_ne (s : State) {p q : Fin 12} (f : Port → Port) (h : q ≠ p) : (s.modPort p f).ports[q] = s.ports[q] :=
  vmod_get_ne _ _ _ _ h

theorem State.modPort_congr {s : State} {p : Fin 12} {f g : Port → Port} (h : f s.ports[p] = g s.ports[p]) :
    s.modPort p f = s.modPort p g := by
  simp only [State.modPort, vmod_const, h]

theorem State.modPort_modPort (s : State) (p : Fin 12) (f g : Port → Port) :
    (s.modPort p f).modPort p g = s.modPort p (fun q => g (f q)) := by
  simp only [State.modPort, vmod_vmod]

theorem State.modPort_self {s : State} {p : Fin 12} {f : Port → Port} (h : f s.ports[p] = s.ports[p]) : s.modPort p f = s := by
  simp only [State.modPort, vmod_const, h, vset_self]

theorem onlyPort_modPort (s : State) (p : Fin 12) (f : Port → Port) : OnlyPort p s (s.modPort p f) :=
  State.modPort_congr (port_modPort s p f).symm

theorem OnlyPort.refl (p : Fin 12) (s : State) : OnlyPort p s s := (State.modPort_self rfl).symm

theorem OnlyPort.trans {p : Fin 12} {s t u : State} (h : OnlyPort p s t) (g : OnlyPort p t u) : OnlyPort p s u := by
  unfold OnlyPort at *
  rw [g, h, State.modPort_modPort, port_modPort]

/-- The events raised after a change of one port. -/
theorem Raised.of_modPort {s u : State} {p : Fin 12} {f : Port → Port} (h : Raised s u) : Raised (s.modPort p f) u := h

/-! ### What a port puts on the line (R209 to R211, R215) -/

/-- Of a port, sending changes the record of the line: what has been sent, the codewords, and what a near-end loop is to
bring back. -/
def LineOnly (p q : Port) : Prop :=
  q = { p with sent := q.sent, txBlocks := q.txBlocks, loopq := q.loopq, lineTail := q.lineTail, lineNo := q.lineNo, line := q.line }

theorem LineOnly.refl (p : Port) : LineOnly p p := rfl

theorem LineOnly.trans {p q r : Port} (h : LineOnly p q) (k : LineOnly q r) : LineOnly p r := by
  unfold LineOnly at *
  rw [k, h]

theorem wire_lineOnly (p : Port) (x : LineItem) : LineOnly p (p.wire x) := by
  unfold Port.wire
  dsimp only
  split <;> rfl

theorem foldl_wire_lineOnly (l : List LineItem) (p : Port) : LineOnly p (l.foldl Port.wire p) := by
  induction l generalizing p with
  | nil => exact .refl p
  | cons x l ih => exact (wire_lineOnly p x).trans (ih _)

theorem lineOut_lineOnly (p : Port) (x : LineItem) : LineOnly p (p.lineOut x) := by
  unfold Port.lineOut
  split
  · exact foldl_wire_lineOnly _ p
  · split
    · exact .refl p
    · exact wire_lineOnly p x

theorem emit_lineOnly (p : Port) (x : LineItem) : LineOnly p (p.emit x) :=
  (lineOut_lineOnly p x).trans rfl

theorem space_lineOnly (p : Port) (n k : Nat) : LineOnly p (p.space n k) := by
  induction k generalizing p with
  | zero => exact .refl p
  | succ k ih =>
    unfold Port.space
    split
    · exact (emit_lineOnly p _).trans (ih _)
    · split
      · exact (emit_lineOnly p _).trans (ih _)
      · exact .refl p

theorem send_lineOnly (p : Port) (x : LineItem) : LineOnly p (p.send x) := by
  unfold Port.send
  split
  · exact emit_lineOnly p x
  · exact (space_lineOnly p _ _).trans (emit_lineOnly _ x)

theorem sendBlock_lineOnly (p : Port) (ty : Nat) (body : Data256) : LineOnly p (p.sendBlock ty body) :=
  send_lineOnly p _

/-- On a line without a loop the last of what has been sent is what was sent last. -/
theorem emit_sent {p : Port} (x : LineItem) (h : p.loop = 0) : (p.emit x).sent = p.sent ++ [x] := by
  have hout : p.lineOut x = p.wire x := by
    simp only [Port.lineOut, h, BitVec.reduceEq, if_false, false_and]
  rw [Port.emit, hout]
  unfold Port.wire
  dsimp only
  split <;> rfl

theorem send_sent {p : Port} (x : LineItem) (h : p.loop = 0) : (p.send x).sent.getLast? = some x := by
  unfold Port.send
  split
  · rw [emit_sent x h, List.getLast?_concat]
  · rw [emit_sent x ((congrArg Port.loop (space_lineOnly p _ _)).trans h), List.getLast?_concat]

/-! ### What arrives at a receiver (R209, R215) -/

/-- The port after it has taken what came over the line: what a near-end loop is still to bring, and the blocks counted. -/
def Port.took (p : Port) (l : List LineItem) (n : Nat) : Port := { p with loopq := l, badLeft := p.badLeft - n }

theorem lineIn_loopq {s v : State} {p : Fin 12} {x : LineItem} (h : s.lineIn p x = (v, true)) :
    ∃ l, v = s.modPort p (fun q => { q with loopq := l }) := by
  rcases lineIn_delivered h with rfl | h
  · exact ⟨(v.ports[p]).loopq, (State.modPort_self rfl).symm⟩
  · exact h

theorem lineIn_took {s v : State} {p : Fin 12} {x : LineItem} (h : s.lineIn p x = (v, true)) (n : Nat) :
    ∃ l, v.tookBlocks p n = s.modPort p (fun q => q.took l n) := by
  obtain ⟨l, rfl⟩ := lineIn_loopq h
  exact ⟨l, State.modPort_modPort _ _ _ _⟩

theorem lineIn_open {s : State} {p : Fin 12} (x : LineItem) (h : (s.ports[p]).st ≠ .off) (hl : (s.ports[p]).loop = 0) :
    s.lineIn p x = (s, true) := (if_neg h).trans (if_pos hl)

theorem lineIn_off {s : State} {p : Fin 12} (x : LineItem) (h : (s.ports[p]).st = .off) : s.lineIn p x = (s, false) := if_pos h

/-! ### Events of a port and what takes it out of service (R226, R230) -/

theorem lnkEvent_set (s : State) (p : Fin 12) (bit : Nat) (hb : bit < 9) :
    ((s.lnkEvent p bit).ports[p]).event.getLsbD bit = true := by
  rw [congrArg Port.event (lnkEvent_port s p bit)]
  simp [Port.flagged, hb]

theorem lnkEvent_eventOnly (s : State) (p : Fin 12) (bit : Nat) : EventOnly s (s.lnkEvent p bit) := by
  unfold State.lnkEvent
  split
  · exact EventOnly.refl s
  · refine EventOnly.trans ?_ (raise_eventOnly _ _ _ _ _ _ _)
    rfl

/-- A port changed and then an event of it: what of the port is left to tell. -/
theorem modPort_lnkEvent_port (s : State) (p : Fin 12) (f : Port → Port) (bit : Nat) :
    QueuedOnly ((f s.ports[p]).flagged bit) ((s.modPort p f).lnkEvent p bit).ports[p] := by
  have h := lnkEvent_port (s.modPort p f) p bit
  rwa [port_modPort] at h

/-- The port out of the fabric, without keys, since `now`. -/
def Port.downAt (p : Port) (now : Nat) : Port := { p.noKeys with st := .down, downSince := now }

theorem portDown_port (s : State) (p : Fin 12) : QueuedOnly (((s.ports[p]).downAt s.now).flagged 0) (s.portDown p).ports[p] :=
  modPort_lnkEvent_port s p _ 0

theorem portDown_frame (s : State) (p : Fin 12) : Raised s (s.portDown p) :=
  (Raised.modPort s p _).trans (lnkEvent_frame _ p 0)

theorem portDown_event (s : State) (p : Fin 12) : ((s.portDown p).ports[p]).event.getLsbD 0 = true :=
  lnkEvent_set _ p 0 (by decide)

theorem portDisable_port (s : State) (p : Fin 12) (e : Nat) :
    QueuedOnly (({ s.ports[p] with st := .disabled } : Port).flagged e) (s.portDisable p e).ports[p] :=
  modPort_lnkEvent_port s p _ e

theorem portDisable_st (s : State) (p : Fin 12) (e : Nat) : ((s.portDisable p e).ports[p]).st = .disabled :=
  congrArg Port.st (portDisable_port s p e)

theorem portDisable_cnt (s : State) (p : Fin 12) (e : Nat) : ((s.portDisable p e).ports[p]).cnt = (s.ports[p]).cnt :=
  (congrArg Port.cnt (portDisable_port s p e)).trans rfl

theorem portDisable_frame (s : State) (p : Fin 12) (e : Nat) : Raised s (s.portDisable p e) :=
  (Raised.modPort s p _).trans (lnkEvent_frame _ p e)

theorem portDisable_event (s : State) (p : Fin 12) (e : Nat) (he : e < 9) : ((s.portDisable p e).ports[p]).event.getLsbD e = true :=
  lnkEvent_set _ p e he

theorem portAuthFail_cnt (s : State) (p : Fin 12) : ((s.portAuthFail p).ports[p]).cnt.authFail = satInc (s.ports[p]).cnt.authFail := by
  rw [State.portAuthFail, portDisable_cnt, port_modPort]
  rfl

/-- The port with one more violation in its log. -/
def Port.violated (p : Port) (now : Nat) : Port :=
  { (p.modCnt (fun c => { c with viol := satInc c.viol })) with
    violLog := now :: p.violLog.filter (fun t => decide (now < t + p.errWindow.toNat)) }

theorem portViolation_kept {s : State} {p : Fin 12}
    (h : ((s.ports[p]).violLog.filter (fun t => decide (s.now < t + (s.ports[p]).errWindow.toNat))).length < (s.ports[p]).violMax.toNat) :
    s.portViolation p = s.modPort p (fun q => q.violated s.now) :=
  (if_neg (Nat.not_lt.2 h)).trans (State.modPort_congr rfl)

theorem portViolation_viol (s : State) (p : Fin 12) : ((s.portViolation p).ports[p]).cnt.viol = satInc (s.ports[p]).cnt.viol := by
  unfold State.portViolation
  dsimp only
  split
  · rw [portDisable_cnt, port_modPort]
    rfl
  · rw [port_modPort]
    rfl

/-- The port with one more check error in its log. -/
def Port.erred (p : Port) (now : Nat) : Port :=
  { p with errLog := now :: p.errLog.filter (fun t => decide (now < t + p.errWindow.toNat)) }

theorem portError_kept {s : State} {p : Fin 12}
    (h : ((s.ports[p]).errLog.filter (fun t => decide (s.now < t + (s.ports[p]).errWindow.toNat))).length < (s.ports[p]).errMax.toNat) :
    s.portError p = s.modPort p (fun q => q.erred s.now) :=
  (if_neg (Nat.not_lt.2 h)).trans (State.modPort_congr rfl)

/-! ### The start of a fast retrain (R230, R231) -/

/-- The port in RETRAIN from `now` on. -/
def Port.retraining (p : Port) (now : Nat) : Port :=
  { (p.modCnt (fun c => { c with retrains := satInc c.retrains })) with
    st := .retrain, prev := p.st, retrainSince := now
    retrainLog := now :: p.retrainLog.filter (fun t => decide (now < t + 156250000)), presOk := false, rttOk := false, rttSince := none
    heldNack := [], lanes := p.lanes.map (fun l => { l with mark := none }) }

section
variable {s : State} {p : Fin 12} (hup : (s.ports[p]).up = true)
include hup

theorem startRetrain_runs (h : ((s.ports[p]).retrainLog.filter (fun t => decide (s.now < t + 156250000))).length < (s.ports[p]).retrainMax.toNat) :
    s.startRetrain p false = s.modPort p (fun q => q.retraining s.now) :=
  (if_neg (by rw [hup]; decide)).trans ((if_neg (Nat.not_lt.2 h)).trans (State.modPort_congr rfl))

theorem startRetrain_disables (h : (s.ports[p]).retrainMax.toNat ≤ ((s.ports[p]).retrainLog.filter (fun t => decide (s.now < t + 156250000))).length) :
    s.startRetrain p false = (s.modPort p (fun q => q.retraining s.now)).portDisable p 3 :=
  (if_neg (by rw [hup]; decide)).trans ((if_pos (Nat.lt_succ_of_le h)).trans
    (congrArg (fun t : State => t.portDisable p 3) (State.modPort_congr rfl)))

end

end Sys2Proof.Machine
end

section
/-! Proofs of the statement about full training and fast retrains. -/

namespace Sys2Proof.Machine

/-! ### Full training again (R214, R226) -/

theorem exec_downRetry_due {p : Fin 12} {s : State} (h7 : 7 ≤ s.pwr.phase.toNat) (hst : (s.ports[p]).st = .down) (hen : (s.ports[p]).en = true)
    (hd : (s.ports[p]).downSince + 15625000 ≤ s.now) : exec (.downRetry p) s = .next (s.modPort p (fun q => q.train s.now false)) :=
  if_pos ⟨h7, hst, hen, hd⟩

theorem exec_downRetry_waits {p : Fin 12} {s : State} (hd : s.now < (s.ports[p]).downSince + 15625000) :
    exec (.downRetry p) s = .next s :=
  if_neg fun h => Nat.not_lt.2 h.2.2.2 hd

theorem train_st (q : Port) (t : Nat) (b : Bool) : (q.train t b).st = if q.st = .test then .test else .training := rfl

theorem serving_of_phase {s : State} (h : 5 ≤ s.pwr.phase.toNat) : ¬((!s.serving) = true) := by
  rw [State.serving, decide_eq_true h]
  decide

theorem exec_fullTrain {p : Fin 12} {s : State} (h5 : 5 ≤ s.pwr.phase.toNat) (h : (s.ports[p]).up = true ∨ (s.ports[p]).st = .down) :
    exec (.fullTrain p) s = .next (s.modPort p (fun q => q.train s.now false)) :=
  (if_neg (serving_of_phase h5)).trans (if_pos h)

/-! ### The course of a fast retrain (R231) -/

/-- The port back in its state after a fast retrain, with every flit that is not acknowledged to be sent again. -/
def Port.retrained (p : Port) (now : Nat) (skew : Vector Byte 4) : Port :=
  { p with
    st := p.prev, resend := p.replayBuf, credits := p.creditsBack p.replayBuf, lastPres := now, nackDue := false
    nackSince := none, heldNack := []
    lanes := Vector.ofFn (fun i => { p.lanes[i] with skew := skew[i], lastMark := now }) }

theorem skews_iff (sk : Vector Byte 4) : sk.all (fun x => decide (x.toNat ≤ 200)) = true ↔ ∀ l : Fin 4, sk[l].toNat ≤ 200 := by
  simp [Vector.all_eq_true, Fin.forall_iff]

theorem locks_iff (lk : Vector Bool 4) : lk.all (fun b => b) = true ↔ ∀ l : Fin 4, lk[l] = true := by
  simp [Vector.all_eq_true, Fin.forall_iff]

section
variable {p : Fin 12} {s : State} {lk : Vector Bool 4} {sk : Vector Byte 4}

theorem exec_fastRetrain_done (hst : (s.ports[p]).st = .retrain) (hl : ∀ l : Fin 4, lk[l] = true ∧ sk[l].toNat ≤ 200)
    (hlined : (s.ports[p]).lined = true) (hrtt : (s.ports[p]).rttOk = true) (hpres : (s.ports[p]).presOk = true)
    (ht : s.now ≤ (s.ports[p]).retrainSince + 6250) : exec (.fastRetrain p lk sk) s =
      .next ((s.modPort p (fun q => q.retrained s.now sk)).applyNacks p (s.ports[p]).heldNack) :=
  if_pos ⟨hst, (locks_iff lk).2 fun l => (hl l).1, (skews_iff sk).2 fun l => (hl l).2, hlined, hrtt, hpres, ht⟩

theorem exec_fastRetrain_waits (h : (∃ l : Fin 4, lk[l] = false ∨ 200 < sk[l].toNat) ∨ (s.ports[p]).lined = false
    ∨ (s.ports[p]).rttOk = false ∨ (s.ports[p]).presOk = false ∨ (s.ports[p]).retrainSince + 6250 < s.now) :
    exec (.fastRetrain p lk sk) s = .next s := by
  refine if_neg ?_
  rintro ⟨-, hlk, hsk, hlined, hrtt, hpres, ht⟩
  rcases h with ⟨l, h | h⟩ | h | h | h | h
  · exact Bool.false_ne_true (h.symm.trans ((locks_iff lk).1 hlk l))
  · exact Nat.not_lt.2 ((skews_iff sk).1 hsk l) h
  · exact Bool.false_ne_true (h.symm.trans hlined)
  · exact Bool.false_ne_true (h.symm.trans hrtt)
  · exact Bool.false_ne_true (h.symm.trans hpres)
  · exact Nat.not_lt.2 ht h

end

theorem exec_fastRetrainFail_due {p : Fin 12} {s : State} (hst : (s.ports[p]).st = .retrain)
    (hd : (s.ports[p]).retrainSince + 6250 ≤ s.now) : exec (.fastRetrainFail p) s = .next (s.modPort p (fun q => q.train s.now true)) :=
  if_pos ⟨hst, hd⟩

theorem exec_retrain {p : Fin 12} {s : State} (h5 : 5 ≤ s.pwr.phase.toNat) : exec (.retrain p) s = .next (s.startRetrain p false) :=
  if_neg (serving_of_phase h5)

/-- Settles O32: each command by its condition, and a fast retrain by whether the retrains of a second allow it. -/
theorem retrainsAndFullTraining : Obligations.RetrainsAndFullTraining := by
  unfold Obligations.RetrainsAndFullTraining
  refine ⟨fun p s h7 hst hen => ⟨exec_downRetry_due h7 hst hen, exec_downRetry_waits⟩,
    fun q t b => ⟨rfl, rfl, rfl, rfl, rfl, rfl, rfl, rfl, rfl, rfl, rfl, rfl, rfl, rfl, train_st q t b⟩,
    fun p lk sk s hst => ⟨fun hl hlined hrtt hpres ht => ?_, exec_fastRetrain_waits⟩,
    fun p s f l => ⟨rfl, rfl⟩, fun p s => exec_fastRetrainFail_due, fun p l s hup => ⟨fun h => if_pos h, fun h => ?_, exec_retrain, fun h => ?_, fun h => ?_⟩,
    fun p s => exec_fullTrain⟩
  · refine ⟨(s.ports[p]).retrained s.now sk, exec_fastRetrain_done hst hl hlined hrtt hpres ht, rfl, rfl, rfl, rfl, rfl, rfl, rfl, rfl, fun l => ?_⟩
    simp [Port.retrained]
  · exact if_neg (Nat.not_le.2 h)
  · rw [startRetrain_runs hup h, port_modPort]
    refine ⟨onlyPort_modPort _ _ _, rfl, rfl, rfl, rfl, rfl, fun m => ?_, rfl⟩
    simp [Port.retraining]
  · rw [startRetrain_disables hup h]
    exact ⟨portDisable_st _ _ _, portDisable_event _ _ _ (by decide)⟩

end Sys2Proof.Machine
end

section
/-! Proofs of the statement about the fields of LNK_CTL, the counters and the PRBS checkers. -/

namespace Sys2Proof.Machine

/-! ### AUTH messages and the start of an authentication (R228) -/

/-- The AUTH flits that carry a message of a step. -/
def State.authFlits (s : State) (step : Nat) (m : List Byte) : List (Option (Fin 12) × Data2048) :=
  (Config.authPack step m).map (fun pl => (none, mkFlit 0 s.fab.id 2 0x0C 0 false pl))

theorem foldl_sendOn (p : Fin 12) (ps : List (BitVec 1920)) (s : State) :
    ps.foldl (fun (s : State) pl => s.sendOn p none (mkFlit 0 s.fab.id 2 0x0C 0 false pl)) s =
      s.modPort p (fun q => { q with txq := q.txq ++ ps.map (fun pl => (none, mkFlit 0 s.fab.id 2 0x0C 0 false pl)) }) := by
  induction ps generalizing s with
  | nil => exact (State.modPort_self (by simp)).symm
  | cons a ps ih =>
    rw [List.foldl_cons, ih, State.sendOn, State.modPort_modPort]
    exact State.modPort_congr (by simp)

theorem sendAuth_eq (s : State) (p : Fin 12) (step : Nat) (m : List Byte) : ∃ mine, s.sendAuth p step m =
    s.modPort p (fun q => { q with txq := q.txq ++ s.authFlits step m, authMine := vset q.authMine (Fin.ofNat 3 (step - 1)) mine }) := by
  refine ⟨(Config.authPack step m).flatMap (fun pl => toBytes pl 240), ?_⟩
  unfold State.sendAuth
  dsimp only
  rw [foldl_sendOn, State.modPort_modPort]
  rfl

theorem startAuth_running {s : State} {p : Fin 12} (h : (s.ports[p]).authStart.isSome = true ∨ (s.ports[p]).authDone = true) :
    s.startAuth p = s := if_pos h

/-- The port that has begun to authenticate: its nonce and its chain wait to be sent. -/
def Port.authBegun (p : Port) (now : Nat) (secret : BitVec 384) (mine : Vector (List Byte) 3)
    (flits : List (Option (Fin 12) × Data2048)) : Port :=
  { p with authStart := some now, authStep := 1, authSecret := secret, authMine := mine, authTheirs := Vector.replicate 3 []
           txq := p.txq ++ flits }

theorem startAuth_begins {s : State} {p : Fin 12} (h : (s.ports[p]).authStart = none) (hd : (s.ports[p]).authDone = false) :
    ∃ (secret : BitVec 384) (mine : Vector (List Byte) 3) (m : List Byte), m.length = 32 ∧ s.startAuth p =
      s.draw.2.draw.2.modPort p (fun q => q.authBegun s.now secret mine (s.authFlits 1 (m ++ s.sec.certChain))) := by
  have hno : ¬((s.ports[p]).authStart.isSome = true ∨ (s.ports[p]).authDone = true) := by
    rw [h, hd]
    decide
  obtain ⟨mine, hm⟩ := sendAuth_eq (s.draw.2.draw.2.modPort p (fun q =>
    { q with authStart := some s.now, authStep := 1, authSecret := fld s.draw.1 0 384, authMine := Vector.replicate 3 []
             authTheirs := Vector.replicate 3 [] })) p 1 (toBytes s.draw.2.draw.1 32 ++ s.sec.certChain)
  rw [State.modPort_modPort] at hm
  exact ⟨_, _, _, length_toBytes _ 32, (if_neg hno).trans hm⟩

/-- An authentication runs or has been completed before, or it begins. -/
theorem startAuth_cases (s : State) (p : Fin 12) :
    (((s.ports[p]).authStart.isSome = true ∨ (s.ports[p]).authDone = true) ∧ s.startAuth p = s) ∨
    ∃ (secret : BitVec 384) (mine : Vector (List Byte) 3) (flits : List (Option (Fin 12) × Data2048)),
      s.startAuth p = s.draw.2.draw.2.modPort p (fun q => q.authBegun s.now secret mine flits) := by
  by_cases h : (s.ports[p]).authStart.isSome = true ∨ (s.ports[p]).authDone = true
  · exact .inl ⟨h, startAuth_running h⟩
  · rw [not_or, Bool.not_eq_true, Option.isSome_eq_false_iff, Option.isNone_iff_eq_none, Bool.not_eq_true] at h
    obtain ⟨secret, mine, m, -, hs⟩ := startAuth_begins h.1 h.2
    exact .inr ⟨secret, mine, _, hs⟩

theorem startAuth_fab (s : State) (p : Fin 12) : (s.startAuth p).fab = s.fab := by
  rcases startAuth_cases s p with ⟨-, h⟩ | ⟨_, _, _, h⟩ <;> rw [h]
  rfl

/-- Of a port, the start of an authentication changes its exchange and the flits that wait. -/
def AuthOnly (p q : Port) : Prop :=
  q = { p with authStart := q.authStart, authStep := q.authStep, authSecret := q.authSecret, authMine := q.authMine
               authTheirs := q.authTheirs, txq := q.txq }

theorem startAuth_port (s : State) (p : Fin 12) : AuthOnly s.ports[p] (s.startAuth p).ports[p] := by
  rcases startAuth_cases s p with ⟨-, h⟩ | ⟨_, _, _, h⟩ <;> rw [h]
  · rfl
  · rw [port_modPort]
    rfl

theorem startAuth_runs (s : State) (p : Fin 12) :
    ((s.startAuth p).ports[p]).authStart.isSome = true ∨ ((s.startAuth p).ports[p]).authDone = true := by
  rcases startAuth_cases s p with ⟨hr, h⟩ | ⟨_, _, _, h⟩ <;> rw [h]
  · exact hr
  · rw [port_modPort]
    exact .inl rfl

/-! ### Writes of LNK_CTL (R215, R226 to R230) -/

section
variable {p : Fin 12} {s : State} (h5 : 5 ≤ s.pwr.phase.toNat)
include h5

/-- Outside LINKED, and where it writes 0, CONF is stored and nothing else happens. -/
theorem exec_conf_stores {on : Bool} (h : (s.ports[p]).st ≠ .linked ∨ on = false) :
    exec (.conf p on) s = .next (s.modPort p (fun q => { q with conf := on })) := by
  refine (if_neg (serving_of_phase h5)).trans (congrArg Host.Outcome.next (if_neg ?_))
  rintro ⟨hon, hst⟩
  exact h.elim (fun h => h hst) (fun h => Bool.false_ne_true (h.symm.trans hon))

theorem exec_conf_linked (h : (s.ports[p]).st = .linked) :
    exec (.conf p true) s = .next ((s.modPort p (fun q => { q with conf := true })).startAuth p) :=
  (if_neg (serving_of_phase h5)).trans (congrArg Host.Outcome.next (if_pos ⟨rfl, h⟩))

theorem conf_authenticates (h : (s.ports[p]).st = .linked) (ha : (s.ports[p]).authStart = none) (hd : (s.ports[p]).authDone = false) :
    ∃ (u : State) (m : List Byte), exec (.conf p true) s = .next u ∧ u = { s with ports := u.ports, free := s.free + 2 }
      ∧ (∀ q : Fin 12, q ≠ p → u.ports[q] = s.ports[q]) ∧ (u.ports[p]).conf = true ∧ (u.ports[p]).authStart = some s.now
      ∧ (u.ports[p]).authStep = 1 ∧ m.length = 32 ∧ (u.ports[p]).txq = (s.ports[p]).txq
        ++ (Config.authPack 1 (m ++ s.sec.certChain)).map (fun pl => (none, mkFlit 0 s.fab.id 2 0x0C 0 false pl)) := by
  obtain ⟨secret, mine, m, hm, hs⟩ := startAuth_begins (s := s.modPort p (fun q => { q with conf := true })) (p := p)
    (by rw [port_modPort]; exact ha) (by rw [port_modPort]; exact hd)
  refine ⟨_, m, (exec_conf_linked h5 h).trans (congrArg _ hs), rfl, fun q hq => ?_, ?_⟩
  · rw [port_modPort_ne _ _ hq]
    exact port_modPort_ne _ _ hq
  · rw [port_modPort]
    have hp : (s.modPort p (fun q => { q with conf := true })).draw.2.draw.2.ports[p] = { s.ports[p] with conf := true } := port_modPort _ _ _
    rw [hp]
    exact ⟨rfl, rfl, rfl, hm, rfl⟩

theorem exec_clrDegraded : exec (.clrDegraded p) s = .next (s.modPort p (fun q =>
    if q.st = .degraded then { q with st := .admitted, starved := Vector.replicate 4 none } else q)) :=
  if_neg (serving_of_phase h5)

theorem exec_loop_ignored {m : BitVec 2} (h : (s.ports[p]).admitOn = true) : exec (.loop p m) s = .next s :=
  (if_neg (serving_of_phase h5)).trans (if_pos (.inl h))

/-- The port's state lets its loopback mode be changed to a mode other than its own. -/
theorem exec_loop_changes {m : BitVec 2} (hne : m ≠ (s.ports[p]).loop) (ha : (s.ports[p]).admitOn = false)
    (hst : (s.ports[p]).st = .linked ∨ (s.ports[p]).st = .down ∨ (s.ports[p]).st = .off ∨ (s.ports[p]).st = .test) :
    exec (.loop p m) s = if m = 0 then .next ((s.modPort p (fun q => { q with loop := 0 })).portDown p)
      else .next (s.modPort p (fun q =>
        { (({ q with loop := m, st := .test } : Port).train s.now false) with
          step := if m = 3 then 0 else 1, lanes := q.lanes.map (fun l =>
            { l with locked := false, rxReady := false, partnerReady := false, readyFrames := 0, sentReady := 0, goodFrames := 0
                     answer := 0, asked := 0, mark := none }) })) := by
  refine (if_neg (serving_of_phase h5)).trans (if_neg ?_)
  rintro (h | h | h)
  · exact Bool.false_ne_true (ha.symm.trans h)
  · rcases hst with e | e | e | e <;> rw [e] at h <;> exact Bool.false_ne_true h
  · exact hne h

end

/-! ### Counters that saturate -/

theorem satInc_of_lt {n : Nat} {w : BitVec n} (h : w.toNat + 1 < 2 ^ n) : satInc w = w + 1 :=
  if_neg fun e => by
    rw [e, BitVec.toNat_allOnes] at h
    omega

theorem le_satInc {n : Nat} (w : BitVec n) : w.toNat ≤ (satInc w).toNat := by
  unfold satInc
  split
  next h => exact le_of_eq rfl
  next h =>
    have hn : w.toNat ≠ 2 ^ n - 1 := fun e => h (BitVec.eq_of_toNat_eq (e.trans (BitVec.toNat_allOnes).symm))
    have hlt := w.isLt
    have h1 : (1 : BitVec n).toNat = 1 := (BitVec.toNat_ofNat 1 n).trans (Nat.mod_eq_of_lt (by omega))
    rw [BitVec.toNat_add, h1, Nat.mod_eq_of_lt (by omega)]
    omega

/-! ### A PRBS checker (R216) -/

theorem prbsBit_frame (l : Lane) (taps : List Nat) (b : Bool) : l.prbsBit taps b =
    { l with prbsState := (l.prbsBit taps b).prbsState, bits := satInc l.bits, errs := (l.prbsBit taps b).errs } := rfl

theorem prbsBit_errs (l : Lane) (taps : List Nat) (b : Bool) :
    (l.prbsBit taps b).errs = if prbsNext taps l.prbsState = (b != l.inv) then l.errs else satInc l.errs := by
  simp only [Lane.prbsBit, beq_iff_eq]

theorem prbsBit_errs_le (l : Lane) (taps : List Nat) (b : Bool) : l.errs.toNat ≤ (l.prbsBit taps b).errs.toNat := by
  rw [prbsBit_errs]
  split
  · exact le_refl _
  · exact le_satInc _

/-- Bits that are compared change the checker's state and its two counters. -/
theorem foldl_prbsBit_frame (taps : List Nat) (bs : List Bool) (l : Lane) : ∃ st n e,
    bs.foldl (fun l b => l.prbsBit taps b) l = { l with prbsState := st, bits := n, errs := e } ∧ l.errs.toNat ≤ e.toNat
      ∧ (l.bits.toNat + bs.length < 2 ^ 64 → n = l.bits + BitVec.ofNat 64 bs.length) := by
  induction bs generalizing l with
  | nil => exact ⟨_, _, _, rfl, le_refl _, fun _ => (BitVec.add_zero _).symm⟩
  | cons b bs ih =>
    obtain ⟨st, n, e, hf, he, hn⟩ := ih (l.prbsBit taps b)
    refine ⟨st, n, e, ?_, (prbsBit_errs_le l taps b).trans he, fun h => ?_⟩
    · rw [List.foldl_cons, hf, prbsBit_frame]
    · have hb : (l.prbsBit taps b).bits = l.bits + 1 := satInc_of_lt (by rw [List.length_cons] at h; omega)
      have hlt : (l.bits + 1).toNat = l.bits.toNat + 1 := by
        rw [List.length_cons] at h
        bv_omega
      rw [hn (by rw [hb, hlt]; simpa [Nat.add_assoc, Nat.add_comm] using h), hb, List.length_cons, BitVec.ofNat_add, BitVec.add_assoc]
      congr 1
      exact BitVec.add_comm _ _

/-- What a checker that has taken bits holds: it is locked, and those beyond the ones that became its state are counted. -/
theorem check_frame (l : Lane) (n : Nat) (taps : List Nat) (bs : List Bool) : ∃ st k e,
    l.check n taps bs = { l with locked := true, prbsState := st, bits := k, errs := e } ∧ l.errs.toNat ≤ e.toNat
      ∧ (l.bits.toNat + bs.length < 2 ^ 64 →
        k = l.bits + BitVec.ofNat 64 (if l.locked = true then bs.length else bs.length - n)) := by
  unfold Lane.check
  split
  next h =>
    obtain ⟨st, k, e, hf, he, hk⟩ := foldl_prbsBit_frame taps bs l
    exact ⟨st, k, e, by rw [hf, ← h], he, hk⟩
  next h =>
    dsimp only
    obtain ⟨st, k, e, hf, he, hk⟩ := foldl_prbsBit_frame taps (bs.drop n)
      { l with locked := true, prbsState := (bs.take n).foldl (fun (v : BitVec 31) b => (v <<< 1) ||| flagAt 31 0 (b != l.inv)) 0 }
    refine ⟨st, k, e, by rw [hf], he, fun hlt => ?_⟩
    rw [List.length_drop] at hk
    exact hk (lt_of_le_of_lt (Nat.add_le_add_left (Nat.sub_le _ _) _) hlt)

theorem seed_frame (l : Lane) (x : BitVec 31) :
    l.seed x = { l with genState := (l.seed x).genState, loopState := (l.seed x).loopState } := by
  unfold Lane.seed
  split <;> rfl

theorem seed_running {l : Lane} (x : BitVec 31) (h : l.genState ≠ 0) : l.seed x = l := if_neg h

theorem heard_line (l : Lane) {loop : BitVec 2} (bits : BitVec 31) (h : loop = 0 ∨ loop = 3) :
    ∃ bs, l.heard loop bits = some (l, bs) ∧ bs.length = 31 := by
  refine ⟨_, if_neg ?_, by simp⟩
  rcases h with rfl | rfl <;> decide

theorem heard_near {l : Lane} {loop : BitVec 2} (bits : BitVec 31) (h : loop = 1 ∨ loop = 2) {g : Nat × List Nat}
    (hg : prbsTaps l.gen.toNat = some g) :
    ∃ bs, l.heard loop bits = some ({ l with loopState := (prbsRun g.2 l.loopState 31).2 }, bs) := by
  refine ⟨(prbsRun g.2 l.loopState 31).1.map (· != l.inv), (if_pos h).trans ?_⟩
  rw [hg]
  rfl

section
variable {p : Fin 12} {l : Fin 4} {bits : BitVec 31} {s : State}

theorem exec_prbsCheckerLock_counts {n : Nat} {taps : List Nat} {x : Lane} {bs : List Bool}
    (hc : prbsTaps (((s.ports[p]).lanes[l]).chk).toNat = some (n, taps)) (hst : (s.ports[p]).st = .test)
    (hh : (((s.ports[p]).lanes[l]).seed (fld s.draw.1 0 31)).heard (s.ports[p]).loop bits = some (x, bs)) :
    exec (.prbsCheckerLock p l bits) s = .next (s.draw.2.modPort p (fun q => { q with lanes := vset q.lanes l (x.check n taps bs) })) := by
  show execPrbsCheckerLock p l bits s = _
  unfold execPrbsCheckerLock
  simp only [hc, hst, hh, ne_eq, not_true_eq_false, if_false]

theorem exec_prbsCheckerLock_ignored (h : (s.ports[p]).st ≠ .test ∨ ((s.ports[p]).lanes[l]).chk = 0
    ∨ (((s.ports[p]).loop = 1 ∨ (s.ports[p]).loop = 2) ∧ ((s.ports[p]).lanes[l]).gen = 0)) :
    exec (.prbsCheckerLock p l bits) s = .next s := by
  show execPrbsCheckerLock p l bits s = _
  unfold execPrbsCheckerLock
  dsimp only
  split
  next => rfl
  next n taps hc =>
    split
    next => rfl
    next hst =>
      rcases h with h | h | ⟨hl, hg⟩
      · exact absurd h hst
      · rw [h] at hc
        exact nomatch hc
      · have hgen : (((s.ports[p]).lanes[l]).seed (fld s.draw.1 0 31)).gen = 0 := (congrArg Lane.gen (seed_frame _ _)).trans hg
        have hno : (((s.ports[p]).lanes[l]).seed (fld s.draw.1 0 31)).heard (s.ports[p]).loop bits = none := by
          refine (if_pos hl).trans ?_
          rw [hgen]
          rfl
        rw [hno]

/-- A checker on the line. -/
theorem prbsCheckerLock_line {n : Nat} {taps : List Nat} (hst : (s.ports[p]).st = .test) (hl : (s.ports[p]).loop = 0 ∨ (s.ports[p]).loop = 3)
    (hc : prbsTaps (((s.ports[p]).lanes[l]).chk).toNat = some (n, taps)) (hb : ((s.ports[p]).lanes[l]).bits.toNat + 31 < 2 ^ 64) :
    ∃ u, exec (.prbsCheckerLock p l bits) s = .next u ∧ u = { s with ports := u.ports, free := s.free + 1 }
      ∧ (∀ q : Fin 12, q ≠ p → u.ports[q] = s.ports[q]) ∧ ((u.ports[p]).lanes[l]).locked = true
      ∧ (((s.ports[p]).lanes[l]).locked = false → ((u.ports[p]).lanes[l]).bits = ((s.ports[p]).lanes[l]).bits + BitVec.ofNat 64 (31 - n))
      ∧ (((s.ports[p]).lanes[l]).locked = true → ((u.ports[p]).lanes[l]).bits = ((s.ports[p]).lanes[l]).bits + 31)
      ∧ ((s.ports[p]).lanes[l]).errs.toNat ≤ ((u.ports[p]).lanes[l]).errs.toNat
      ∧ ∀ m : Fin 4, m ≠ l → (u.ports[p]).lanes[m] = (s.ports[p]).lanes[m] := by
  obtain ⟨bs, hh, hlen⟩ := heard_line (((s.ports[p]).lanes[l]).seed (fld s.draw.1 0 31)) bits hl
  obtain ⟨st, k, e, hx, he, hk⟩ := check_frame (((s.ports[p]).lanes[l]).seed (fld s.draw.1 0 31)) n taps bs
  rw [seed_frame] at he hk
  specialize hk (by rw [hlen]; exact hb)
  refine ⟨_, exec_prbsCheckerLock_counts hc hst hh, rfl, fun q hq => port_modPort_ne _ _ hq, ?_⟩
  rw [port_modPort]
  dsimp only [State.draw_ports]
  rw [vset_get_same, hx]
  refine ⟨rfl, fun hlk => ?_, fun hlk => ?_, he, fun m hm => vset_get_ne _ _ _ _ hm⟩
  · rw [hk, hlk, hlen]
    rfl
  · rw [hk, hlk, hlen]
    rfl

/-- A checker of a near-end loop hears the lane's own generator. -/
theorem prbsCheckerLock_near {n g : Nat × List Nat} (hst : (s.ports[p]).st = .test) (hl : (s.ports[p]).loop = 1 ∨ (s.ports[p]).loop = 2)
    (hc : prbsTaps (((s.ports[p]).lanes[l]).chk).toNat = some n) (hg : prbsTaps (((s.ports[p]).lanes[l]).gen).toNat = some g) :
    ∃ u, exec (.prbsCheckerLock p l bits) s = .next u ∧ u = { s with ports := u.ports, free := s.free + 1 }
      ∧ ((u.ports[p]).lanes[l]).locked = true
      ∧ (((s.ports[p]).lanes[l]).genState ≠ 0 → ((u.ports[p]).lanes[l]).loopState = (prbsRun g.2 ((s.ports[p]).lanes[l]).loopState 31).2) := by
  have hgen : prbsTaps (((s.ports[p]).lanes[l]).seed (fld s.draw.1 0 31)).gen.toNat = some g := by
    rw [seed_frame]
    exact hg
  obtain ⟨bs, hh⟩ := heard_near bits hl hgen
  obtain ⟨st, k, e, hx, -, -⟩ := check_frame { (((s.ports[p]).lanes[l]).seed (fld s.draw.1 0 31)) with
    loopState := (prbsRun g.2 (((s.ports[p]).lanes[l]).seed (fld s.draw.1 0 31)).loopState 31).2 } n.1 n.2 bs
  refine ⟨_, exec_prbsCheckerLock_counts (n := n.1) (taps := n.2) hc hst hh, rfl, ?_⟩
  rw [port_modPort]
  dsimp only [State.draw_ports]
  rw [vset_get_same, hx]
  refine ⟨rfl, fun h0 => ?_⟩
  rw [seed_running _ h0]

end

/-- Settles O33: each field of LNK_CTL by its own write, and the checkers by what they hear. -/
theorem linkControlAndPrbs : Obligations.LinkControlAndPrbs := by
  unfold Obligations.LinkControlAndPrbs
  refine ⟨fun p s h5 => ⟨?_, fun hst => ?_, fun hst => ?_, fun on => if_neg (serving_of_phase h5), fun on => exec_conf_stores h5, conf_authenticates h5,
      fun hst => ?_, fun hst => ?_, fun m h0 hne ha hst => ?_, fun hst hl ha => ?_, fun m => exec_loop_ignored h5,
      fun l => if_neg (serving_of_phase h5), if_neg (serving_of_phase h5)⟩,
    fun p l bits s n taps => prbsCheckerLock_line, fun p l bits s n g => prbsCheckerLock_near,
    fun taps l b => ⟨prbsBit_errs l taps b, rfl⟩, fun p l bits s => exec_prbsCheckerLock_ignored⟩
  · refine ⟨_, if_neg (serving_of_phase h5), onlyPort_modPort _ _ _, ?_⟩
    rw [port_modPort]
    exact ⟨rfl, rfl, rfl, rfl, rfl⟩
  · refine ⟨_, if_neg (serving_of_phase h5), onlyPort_modPort _ _ _, ?_⟩
    rw [port_modPort, if_neg (by decide), if_pos hst]
    exact ⟨rfl, rfl, rfl⟩
  · exact (if_neg (serving_of_phase h5)).trans (congrArg _ (State.modPort_congr (if_neg hst)))
  · exact (exec_clrDegraded h5).trans (congrArg _ (State.modPort_congr (if_pos hst)))
  · exact (exec_clrDegraded h5).trans (congrArg _ (State.modPort_self (if_neg hst)))
  · refine ⟨_, (exec_loop_changes h5 hne ha hst).trans (if_neg h0), onlyPort_modPort _ _ _, ?_⟩
    rw [port_modPort]
    exact ⟨rfl, rfl⟩
  · refine ⟨_, (exec_loop_changes h5 (Ne.symm hl) ha (.inr (.inr (.inr hst)))).trans (if_pos rfl), ?_, ?_⟩
    · exact ((Raised.modPort s p (fun q => { q with loop := 0 })).trans (portDown_frame _ p)).of_modPort
    · refine ⟨(congrArg Port.st (portDown_port _ p)).trans rfl, ?_⟩
      have hp := congrArg Port.loop (portDown_port (s.modPort p (fun q => { q with loop := 0 })) p)
      rw [port_modPort] at hp
      exact hp

end Sys2Proof.Machine
end

section
/-! Proofs of the statement about repeats, timeouts and authentication. -/

namespace Sys2Proof.Machine

/-! ### Timeouts of a link (R224, R230) -/

theorem exec_nackRepeat {p : Fin 12} {s : State} {t : Nat} (h : (s.ports[p]).nackSince = some t) : exec (.nackRepeat p) s =
    if t + (s.ports[p]).tReplay ≤ s.now then .next (s.modPort p (fun q => { q with nackDue := true, nackSince := none })) else .next s := by
  show execNackRepeat p s = _
  unfold execNackRepeat
  dsimp only
  rw [h]

/-- Something waits for credits of a virtual channel. -/
def Port.awaits (p : Port) (vc : Fin 4) : Bool :=
  p.txq.any (fun e => flVc e.2 == vc.val) || (vc.val == 0 && p.txBytes.any (fun b => !b.isEmpty))

theorem watchCredits_starved (p : Port) (now : Nat) (vc : Fin 4) : (p.watchCredits now).starved[vc] =
    if p.awaits vc = true ∧ p.credits[vc] = 0 then (match p.starved[vc] with | some t => some t | none => some now) else none :=
  Vector.getElem_ofFn vc.isLt

theorem exec_creditTimeout_starved {p : Fin 12} {vc : Fin 4} {s : State} {t : Nat} (hs : (s.ports[p]).starved[vc] = some t)
    (hc : (s.ports[p]).credits[vc] = 0) (hw : (s.ports[p]).awaits vc = true) : exec (.creditTimeout p vc) s =
    if (s.ports[p]).st = .admitted ∧ t + (s.ports[p]).creditTo.toNat ≤ s.now then
      .next ((s.modPort p (fun q => { q with st := .degraded })).lnkEvent p 1)
    else .next s := by
  have h : ((s.ports[p]).watchCredits s.now).starved[vc] = some t := by
    rw [watchCredits_starved, if_pos ⟨hw, hc⟩, hs]
  show execCreditTimeout p vc s = _
  unfold execCreditTimeout
  dsimp only
  rw [h]
  rfl

theorem exec_creditTimeout_credited {p : Fin 12} {vc : Fin 4} {s : State} (hc : 0 < (s.ports[p]).credits[vc]) :
    exec (.creditTimeout p vc) s = .next s := by
  have h : ((s.ports[p]).watchCredits s.now).starved[vc] = none := by
    rw [watchCredits_starved, if_neg (fun h => Nat.ne_of_gt hc h.2)]
  show execCreditTimeout p vc s = _
  unfold execCreditTimeout
  dsimp only
  rw [h]

theorem exec_authTimeout {p : Fin 12} {s : State} {t : Nat} (h : (s.ports[p]).authStart = some t) : exec (.authTimeout p) s =
    if t + 15625000 ≤ s.now ∧ (s.ports[p]).up = true then .next (s.portAuthFail p) else .next s := by
  show execAuthTimeout p s = _
  unfold execAuthTimeout
  rw [h]
  rfl

/-! ### A failed authentication (R230) -/

theorem portAuthFail_frame (s : State) (p : Fin 12) : Raised s (s.portAuthFail p) :=
  (Raised.modPort s p _).trans (portDisable_frame _ p 6)

theorem portAuthFail_st (s : State) (p : Fin 12) : ((s.portAuthFail p).ports[p]).st = .disabled := portDisable_st _ p 6

theorem portAuthFail_event (s : State) (p : Fin 12) : ((s.portAuthFail p).ports[p]).event.getLsbD 6 = true :=
  portDisable_event _ p 6 (by decide)

/-! ### A received AUTH flit (R228) -/

/-- A flit that leaves its receive buffer changes of a port the buffers held and the credits owed. -/
theorem release_frame (p : Port) (vc : Fin 4) : p.release vc = { p with held := (p.release vc).held, owed := (p.release vc).owed } := by
  unfold Port.release
  split <;> rfl

theorem tookFlit_port (s : State) (rest : List (Fin 12 × Data2048)) (p : Fin 12) (f : Data2048) :
    (s.tookFlit rest p f).ports[p] = (s.ports[p]).release (Fin.ofNat 4 (flVc f)) := port_modPort _ p _

theorem tookFlit_authStart (s : State) (rest : List (Fin 12 × Data2048)) (p : Fin 12) (f : Data2048) :
    ((s.tookFlit rest p f).ports[p]).authStart = (s.ports[p]).authStart := by
  rw [tookFlit_port, release_frame]

theorem tookFlit_authDone (s : State) (rest : List (Fin 12 × Data2048)) (p : Fin 12) (f : Data2048) :
    ((s.tookFlit rest p f).ports[p]).authDone = (s.ports[p]).authDone := by
  rw [tookFlit_port, release_frame]

section
variable {p : Fin 12} {s v w : State} {f : Data2048} {rest : List (Fin 12 × Data2048)}
  (ht : takeFlit (fun e => e.1 == p && flType e.2 == 0x0C) s.fab.inbox = (some (p, f), rest))
  (hv : v = (s.tookFlit rest p f).startAuth p)
  (hw : w = v.modPort p (fun q => { q with
    authTheirs := vmod q.authTheirs (Fin.ofNat 3 ((v.ports[p]).authStep - 1)) (· ++ toBytes (flPayload f) 240) }))
include ht hv hw

theorem exec_auth : exec (.auth p) s =
    if (w.ports[p]).authDone = true ∨ ((w.ports[p]).peerMessage (w.ports[p]).authStep).isNone = true then .next w
    else if (w.ports[p]).authStep < 3 then
      .next ((w.modPort p (fun q => { q with authStep := q.authStep + 1 })).sendAuth p ((w.ports[p]).authStep + 1)
        (w.authMessage p ((w.ports[p]).authStep + 1)))
    else if w.authAccepts p = true then
      .next (w.modPort p (fun q => { q with
        authDone := true, authStart := none, txKey := (w.authKeys p).1.1, txSalt := (w.authKeys p).1.2
        rxKey := (w.authKeys p).2.1, rxSalt := (w.authKeys p).2.2, txIv := 0, rxIv := 0 }))
    else .next (w.portAuthFail p) := by
  subst hw hv
  show execAuth p s = _
  unfold execAuth
  dsimp only
  rw [ht]

omit ht in
theorem authTaken_keeps : w.fab = { s.fab with inbox := rest } ∧ (w.ports[p]).st = (s.ports[p]).st ∧ (w.ports[p]).cnt = (s.ports[p]).cnt := by
  have hport := startAuth_port (s.tookFlit rest p f) p
  rw [tookFlit_port, release_frame, ← hv] at hport
  rw [hw, port_modPort]
  exact ⟨(congrArg State.fab hv).trans (startAuth_fab _ p), (congrArg Port.st hport).trans rfl, (congrArg Port.cnt hport).trans rfl⟩

/-- A port that has not all of the partner's message waits for the rest. -/
theorem auth_waits (h : (w.ports[p]).authDone = true ∨ (w.ports[p]).peerMessage (w.ports[p]).authStep = none) :
    exec (.auth p) s = .next w :=
  (exec_auth ht hv hw).trans (if_pos (h.imp_right Option.isNone_iff_eq_none.2))

section
variable (hd : (w.ports[p]).authDone = false) (hm : ((w.ports[p]).peerMessage (w.ports[p]).authStep).isSome = true)
include hd hm

theorem exec_auth_whole : exec (.auth p) s =
    if (w.ports[p]).authStep < 3 then
      .next ((w.modPort p (fun q => { q with authStep := q.authStep + 1 })).sendAuth p ((w.ports[p]).authStep + 1)
        (w.authMessage p ((w.ports[p]).authStep + 1)))
    else if w.authAccepts p = true then
      .next (w.modPort p (fun q => { q with
        authDone := true, authStart := none, txKey := (w.authKeys p).1.1, txSalt := (w.authKeys p).1.2
        rxKey := (w.authKeys p).2.1, rxSalt := (w.authKeys p).2.2, txIv := 0, rxIv := 0 }))
    else .next (w.portAuthFail p) := by
  refine (exec_auth ht hv hw).trans (if_neg ?_)
  rw [hd, Option.isNone_iff_eq_none]
  rintro (h | h)
  · exact Bool.false_ne_true h
  · rw [h] at hm
    exact Bool.false_ne_true hm

theorem auth_answers (h3 : (w.ports[p]).authStep < 3) : ∃ u, exec (.auth p) s = .next u ∧ OnlyPort p w u
    ∧ (u.ports[p]).authStep = (w.ports[p]).authStep + 1
    ∧ (u.ports[p]).txq = (w.ports[p]).txq ++ (Config.authPack ((w.ports[p]).authStep + 1) (w.authMessage p ((w.ports[p]).authStep + 1))).map
        (fun pl => (none, mkFlit 0 s.fab.id 2 0x0C 0 false pl)) := by
  have hid : w.fab.id = s.fab.id := (congrArg Fab.id (authTaken_keeps hv hw).1).trans rfl
  obtain ⟨mine, hs⟩ := sendAuth_eq (w.modPort p (fun q => { q with authStep := q.authStep + 1 })) p ((w.ports[p]).authStep + 1)
    (w.authMessage p ((w.ports[p]).authStep + 1))
  rw [State.modPort_modPort] at hs
  refine ⟨_, (exec_auth_whole ht hv hw hd hm).trans ((if_pos h3).trans (congrArg _ hs)), onlyPort_modPort _ _ _, ?_⟩
  rw [port_modPort, ← hid]
  exact ⟨rfl, rfl⟩

theorem auth_completes (h3 : 3 ≤ (w.ports[p]).authStep) (ha : w.authAccepts p = true) : ∃ u, exec (.auth p) s = .next u ∧ OnlyPort p w u
    ∧ (u.ports[p]).authDone = true ∧ (u.ports[p]).txIv = 0 ∧ (u.ports[p]).rxIv = 0
    ∧ (((u.ports[p]).txKey, (u.ports[p]).txSalt), ((u.ports[p]).rxKey, (u.ports[p]).rxSalt)) = w.authKeys p
    ∧ (u.ports[p]).st = (s.ports[p]).st := by
  obtain ⟨-, hst, -⟩ := authTaken_keeps hv hw
  refine ⟨_, (exec_auth_whole ht hv hw hd hm).trans ((if_neg (Nat.not_lt.2 h3)).trans (if_pos ha)), onlyPort_modPort _ _ _, ?_⟩
  rw [port_modPort]
  exact ⟨rfl, rfl, rfl, rfl, hst⟩

theorem auth_fails (h3 : 3 ≤ (w.ports[p]).authStep) (ha : w.authAccepts p = false) : ∃ u, exec (.auth p) s = .next u
    ∧ (u.ports[p]).st = .disabled ∧ (u.ports[p]).cnt.authFail = satInc (s.ports[p]).cnt.authFail := by
  obtain ⟨-, -, hcnt⟩ := authTaken_keeps hv hw
  refine ⟨_, (exec_auth_whole ht hv hw hd hm).trans ((if_neg (Nat.not_lt.2 h3)).trans (if_neg (by rw [ha]; decide))), portAuthFail_st _ p, ?_⟩
  rw [portAuthFail_cnt, hcnt]

end

end

/-- Settles O37: each timeout by its time, and a received AUTH flit by what of the exchange it completes. -/
theorem repeatsTimeoutsAndAuthentication : Obligations.RepeatsTimeoutsAndAuthentication := by
  unfold Obligations.RepeatsTimeoutsAndAuthentication
  refine ⟨fun p s t h => ⟨fun hd => ?_, fun hd => ?_⟩, fun p vc s => ⟨fun t hs hc hw => ?_, exec_creditTimeout_credited⟩,
    fun p s t h hup => ⟨fun hd => ?_, fun hd => ?_⟩, fun p s v w f rest ht hv hw => ⟨?_, ?_, fun h => ?_, fun ha hd => ?_⟩⟩
  · exact (exec_nackRepeat h).trans (if_pos hd)
  · exact (exec_nackRepeat h).trans (if_neg (Nat.not_le.2 hd))
  · have hawait : (s.ports[p]).awaits vc = true := by
      unfold Port.awaits
      rw [Bool.or_eq_true, Bool.and_eq_true, beq_iff_eq]
      exact hw.imp_right fun h => ⟨congrArg Fin.val h.1, h.2⟩
    have hx := exec_creditTimeout_starved hs hc hawait
    refine ⟨fun hst hd => ⟨_, hx.trans (if_pos ⟨hst, hd⟩), ?_, ?_, lnkEvent_set _ p 1 (by decide)⟩, fun h => hx.trans (if_neg ?_)⟩
    · exact ((Raised.modPort s p _).trans (lnkEvent_frame _ p 1)).of_modPort
    · exact congrArg Port.st (modPort_lnkEvent_port s p _ 1)
    · rintro ⟨hst, hd⟩
      exact h.elim (fun h => h hst) (fun h => Nat.not_le.2 h hd)
  · exact ⟨_, (exec_authTimeout h).trans (if_pos ⟨hd, hup⟩), (portAuthFail_frame s p).of_modPort, portAuthFail_st s p,
      portAuthFail_cnt s p, portAuthFail_event s p⟩
  · exact (exec_authTimeout h).trans (if_neg fun k => Nat.not_le.2 hd k.1)
  · by_cases h : (w.ports[p]).authDone = true ∨ (w.ports[p]).peerMessage (w.ports[p]).authStep = none
    · refine ⟨w, auth_waits ht hv hw h, fun _ => rfl, fun hd hm => ?_⟩
      rcases h with h | h
      · exact absurd (hd.symm.trans h) Bool.false_ne_true
      · rw [h] at hm
        exact absurd hm Bool.false_ne_true
    · have hd : (w.ports[p]).authDone = false := Bool.eq_false_iff.2 fun e => h (.inl e)
      have hm : ((w.ports[p]).peerMessage (w.ports[p]).authStep).isSome = true := Option.isSome_iff_ne_none.2 fun e => h (.inr e)
      rcases Nat.lt_or_ge (w.ports[p]).authStep 3 with h3 | h3
      · obtain ⟨u, hx, hu⟩ := auth_answers ht hv hw hd hm h3
        exact ⟨u, hx, fun k => absurd k h, fun _ _ => ⟨fun _ => hu, fun k => absurd h3 (Nat.not_lt.2 k), fun k => absurd h3 (Nat.not_lt.2 k)⟩⟩
      · cases ha : w.authAccepts p with
        | true =>
          obtain ⟨u, hx, hu⟩ := auth_completes ht hv hw hd hm h3 ha
          exact ⟨u, hx, fun k => absurd k h, fun _ _ => ⟨fun k => absurd k (Nat.not_lt.2 h3), fun _ _ => hu, nofun⟩⟩
        | false =>
          obtain ⟨u, hx, hu⟩ := auth_fails ht hv hw hd hm h3 ha
          exact ⟨u, hx, fun k => absurd k h, fun _ _ => ⟨fun k => absurd k (Nat.not_lt.2 h3), nofun, fun _ _ => hu⟩⟩
  · rw [(authTaken_keeps hv hw).1]
  · rw [hv]
    refine startAuth_running ?_
    rw [tookFlit_authStart, tookFlit_authDone]
    exact h
  · obtain ⟨secret, mine, m, -, hs⟩ := startAuth_begins (s := s.tookFlit rest p f) (p := p) ((tookFlit_authStart s rest p f).trans ha)
      ((tookFlit_authDone s rest p f).trans hd)
    rw [hv, hs, port_modPort]
    exact ⟨rfl, rfl⟩

end Sys2Proof.Machine
end

section
/-! Lemmas about the steps of full training. -/

namespace Sys2Proof.Machine

/-! ### The time of a step (R214) -/

theorem late_iff {p : Port} {l : Nat} (h : stepLimit p.step = some l) (now : Nat) : p.late now = true ↔ p.stepSince + l < now := by
  rw [Port.late, h]
  exact decide_eq_true_iff

theorem not_late {p : Port} {l now : Nat} (h : stepLimit p.step = some l) (ht : now ≤ p.stepSince + l) : ¬p.late now = true :=
  fun k => Nat.not_lt.2 ht ((late_iff h now).1 k)

theorem untimed_not_late {p : Port} {now : Nat} (h : stepLimit p.step = none) : ¬p.late now = true := by
  rw [Port.late, h]
  exact Bool.false_ne_true

/-! ### A step of a port that trains (R214) -/

theorem exec_portTraining_idle {p : Fin 12} {s : State} (o : PortOutcome) (h : (s.ports[p]).inTraining = false) :
    exec (.portTraining p o) s = .next s := if_pos (by rw [h]; decide)

section
variable {p : Fin 12} {s : State} (hin : (s.ports[p]).inTraining = true)
include hin

theorem training_not_idle : ¬(!(s.ports[p]).inTraining) = true := by
  rw [hin]
  decide

theorem exec_portTraining_late {o : PortOutcome} (ho : ∀ c, o ≠ .fail c) (h : (s.ports[p]).late s.now = true) :
    exec (.portTraining p o) s = .next s := by
  refine (if_neg (training_not_idle hin)).trans ?_
  cases o with
  | fail c => exact absurd rfl (ho c)
  | _ => exact if_pos h

theorem exec_detect (h1 : (s.ports[p]).step = 1) (ht : s.now ≤ (s.ports[p]).stepSince + 1562500) :
    exec (.portTraining p .detect) s = .next (s.modPort p (fun q => q.toStep s.now 2)) :=
  (if_neg (training_not_idle hin)).trans ((if_neg (not_late (by rw [h1]; rfl) ht)).trans (congrArg _ (if_pos h1)))

theorem exec_frameLock (h2 : (s.ports[p]).step = 2) (ht : s.now ≤ (s.ports[p]).stepSince + 312500) :
    exec (.portTraining p .frameLock) s = .next (if (s.ports[p]).step = 2 ∧ (s.ports[p]).lanes.all (fun l => decide (3 ≤ l.goodFrames)) = true then
      s.modPort p (fun q => Port.toStep { q with lanes := q.lanes.map (fun l => l.preset 2) } s.now 3) else s) :=
  (if_neg (training_not_idle hin)).trans (if_neg (not_late (by rw [h2]; rfl) ht))

theorem exec_fecLock (h5 : (s.ports[p]).step = 5) (hm : ∀ l : Fin 4, ((s.ports[p]).lanes[l]).mark.isSome = true)
    (ht : s.now ≤ (s.ports[p]).stepSince + 156250) : exec (.portTraining p .fecLock) s = .next (s.modPort p (fun q => q.toStep s.now 6)) := by
  have hlock : (s.ports[p]).locked = true := by
    rw [Port.locked, Vector.all_eq_true]
    exact fun i hi => hm ⟨i, hi⟩
  exact (if_neg (training_not_idle hin)).trans ((if_neg (not_late (by rw [h5]; rfl) ht)).trans (congrArg _ (if_pos ⟨h5, hlock⟩)))

end

/-! ### The end of equalisation (R214 step 4) -/

/-- Both sides of every lane have sent RX_READY in three frames. -/
def Port.ready (p : Port) : Prop := ∀ m : Fin 4, (p.lanes[m]).rxReady = true ∧ 3 ≤ (p.lanes[m]).sentReady ∧ 3 ≤ (p.lanes[m]).readyFrames

theorem ready_iff (p : Port) :
    p.lanes.all (fun l => l.rxReady && decide (3 ≤ l.sentReady) && decide (3 ≤ l.readyFrames)) = true ↔ p.ready := by
  simp [Port.ready, Fin.forall_iff, Vector.all_eq_true, and_assoc]

theorem equalised_frame (p : Port) (now : Nat) :
    p.equalised now = { p with step := (p.equalised now).step, stepSince := (p.equalised now).stepSince } := by
  unfold Port.equalised
  split <;> rfl

theorem equalised_lanes (p : Port) (now : Nat) : (p.equalised now).lanes = p.lanes :=
  (congrArg Port.lanes (equalised_frame p now)).trans rfl

theorem equalised_sent (p : Port) (now : Nat) : (p.equalised now).sent = p.sent :=
  (congrArg Port.sent (equalised_frame p now)).trans rfl

theorem equalised_ready {p : Port} (now : Nat) (h : p.step = 4) (hr : p.ready) : (p.equalised now).step = 5 :=
  congrArg Port.step (if_pos ⟨.inr h, (ready_iff p).2 hr⟩)

theorem equalised_waits {p : Port} (now : Nat) (hr : ¬p.ready) : p.equalised now = p :=
  if_neg fun h => hr ((ready_iff p).1 h.2)

/-- The lane with an eye that was measured: it is ready once the eye meets its minimum. -/
def Lane.measured (l : Lane) (h w : Byte) : Lane :=
  { l with eyeH := h, eyeW := w
           rxReady := l.rxReady || (decide (l.eyeMinH.toNat ≤ h.toNat) && decide (l.eyeMinW.toNat ≤ w.toNat)) }

section
variable {p : Fin 12} {s : State} (hin : (s.ports[p]).inTraining = true)
include hin

theorem exec_equalised (l : Fin 4) (h w : Byte) (h34 : (s.ports[p]).step = 3 ∨ (s.ports[p]).step = 4)
    (ht : s.now ≤ (s.ports[p]).stepSince + 7812500) : exec (.portTraining p (.equalised l h w)) s =
      .next (s.modPort p (fun q => Port.equalised { q with step := 4, lanes := vmod q.lanes l (fun x => x.measured h w) } s.now)) := by
  have hlim : stepLimit (s.ports[p]).step = some 7812500 := by rcases h34 with e | e <;> rw [e] <;> rfl
  exact (if_neg (training_not_idle hin)).trans ((if_neg (not_late hlim ht)).trans (congrArg _ (if_pos h34)))

theorem equalised_measures (l : Fin 4) (h w : Byte) (h34 : (s.ports[p]).step = 3 ∨ (s.ports[p]).step = 4)
    (ht : s.now ≤ (s.ports[p]).stepSince + 7812500) :
    ∃ u, exec (.portTraining p (.equalised l h w)) s = .next u ∧ OnlyPort p s u ∧ ((u.ports[p]).lanes[l]).eyeH = h
      ∧ ((u.ports[p]).lanes[l]).eyeW = w ∧ ((u.ports[p]).step = 4 ∨ (u.ports[p]).step = 5)
      ∧ ((u.ports[p]).step = 5 ↔ ∀ m : Fin 4, ((u.ports[p]).lanes[m]).rxReady = true ∧ 3 ≤ ((u.ports[p]).lanes[m]).sentReady
          ∧ 3 ≤ ((u.ports[p]).lanes[m]).readyFrames)
      ∧ (((s.ports[p]).lanes[l]).eyeMinH.toNat ≤ h.toNat → ((s.ports[p]).lanes[l]).eyeMinW.toNat ≤ w.toNat →
          ((u.ports[p]).lanes[l]).rxReady = true)
      ∧ ∀ m : Fin 4, m ≠ l → (u.ports[p]).lanes[m] = (s.ports[p]).lanes[m] := by
  refine ⟨_, exec_equalised hin l h w h34 ht, onlyPort_modPort _ _ _, ?_⟩
  rw [port_modPort, equalised_lanes]
  dsimp only
  rw [vmod_get_same]
  have hstep : ∀ q : Port, q.step = 4 → ((q.equalised s.now).step = 4 ∨ (q.equalised s.now).step = 5)
      ∧ ((q.equalised s.now).step = 5 ↔ q.ready) := by
    intro q h4
    by_cases hr : q.ready
    · rw [equalised_ready s.now h4 hr]
      exact ⟨.inr rfl, fun _ => hr, fun _ => rfl⟩
    · rw [equalised_waits s.now hr, h4]
      exact ⟨.inl rfl, fun k => absurd k (by decide), fun k => absurd k hr⟩
  obtain ⟨h45, hready⟩ := hstep { s.ports[p] with step := 4, lanes := vmod (s.ports[p]).lanes l (fun x => x.measured h w) } rfl
  refine ⟨rfl, rfl, h45, hready, fun hh hw => ?_, fun m hm => vmod_get_ne _ _ _ _ hm⟩
  show ((((s.ports[p]).lanes[l]).rxReady || (decide _ && decide _)) : Bool) = true
  rw [decide_eq_true hh, decide_eq_true hw]
  exact Bool.or_true _

end

/-! ### A failed attempt (R214, R230) -/

/-- The port at the start of another attempt. -/
def Port.failed (p : Port) (now cause : Nat) : Port :=
  { p.train now p.afterFast with attempts := p.attempts + 1, cause := BitVec.ofNat 3 cause }

section
variable {p : Fin 12} {s : State}

theorem trainingFail_again (h : (s.ports[p]).attempts < 3) (cause : Nat) :
    s.trainingFail p cause = s.modPort p (fun q => q.failed s.now cause) :=
  (if_pos h).trans (State.modPort_modPort _ _ _ _)

theorem trainingFail_down (h : 3 ≤ (s.ports[p]).attempts) (ha : (s.ports[p]).afterFast = false) (cause : Nat) :
    s.trainingFail p cause = (s.modPort p (fun q => { q with cause := BitVec.ofNat 3 cause })).portDown p :=
  (if_neg (Nat.not_lt.2 h)).trans (if_neg fun k => Bool.false_ne_true (ha.symm.trans k.1))

theorem trainingFail_disables (h : 3 ≤ (s.ports[p]).attempts) (ha : (s.ports[p]).afterFast = true) {cause : Nat} (h1 : cause ≠ 1) (h2 : cause ≠ 2) :
    s.trainingFail p cause = (s.modPort p (fun q => { q with cause := BitVec.ofNat 3 cause })).portDisable p 3 :=
  (if_neg (Nat.not_lt.2 h)).trans (if_pos ⟨ha, h1, h2⟩)

variable (hin : (s.ports[p]).inTraining = true)
include hin

theorem exec_portTraining_fail {c : Fin 7} (hc : (causeStep c.val).contains (s.ports[p]).step = true) (hs : (s.ports[p]).spent s.now = true) :
    exec (.portTraining p (.fail c)) s = .next (s.trainingFail p c.val) :=
  (if_neg (training_not_idle hin)).trans (congrArg _ (if_pos ⟨hc, hs⟩))

/-- A port that trains keeps its state through another attempt. -/
theorem failed_st (now cause : Nat) : ((s.ports[p]).failed now cause).st = (s.ports[p]).st := by
  show (if (s.ports[p]).st = .test then PortState.test else .training) = _
  split
  next h => exact h.symm
  next h =>
    simp only [Port.inTraining, Bool.or_eq_true, Bool.and_eq_true, beq_iff_eq] at hin
    exact (hin.resolve_right fun k => h k.1.1).symm

theorem portTraining_fails {c : Fin 7} (hc : (causeStep c.val).contains (s.ports[p]).step = true) (hs : (s.ports[p]).spent s.now = true) :
    ((s.ports[p]).attempts < 3 → ∃ u, exec (.portTraining p (.fail c)) s = .next u ∧ OnlyPort p s u ∧ (u.ports[p]).st = (s.ports[p]).st
      ∧ (u.ports[p]).step = 1 ∧ (u.ports[p]).attempts = (s.ports[p]).attempts + 1 ∧ (u.ports[p]).cause.toNat = c.val) ∧
    (3 ≤ (s.ports[p]).attempts → (s.ports[p]).afterFast = false → ∃ u, exec (.portTraining p (.fail c)) s = .next u
      ∧ Raised (s.modPort p (fun _ => u.ports[p])) u ∧ (u.ports[p]).st = .down ∧ (u.ports[p]).downSince = s.now
      ∧ (u.ports[p]).event.getLsbD 0 = true) ∧
    (3 ≤ (s.ports[p]).attempts → (s.ports[p]).afterFast = true → c.val ≠ 1 → c.val ≠ 2 → ∃ u, exec (.portTraining p (.fail c)) s = .next u
      ∧ (u.ports[p]).st = .disabled ∧ (u.ports[p]).event.getLsbD 3 = true) := by
  have hx := exec_portTraining_fail hin hc hs
  refine ⟨fun h => ?_, fun h ha => ?_, fun h ha h1 h2 => ?_⟩
  · refine ⟨_, hx.trans (congrArg _ (trainingFail_again h _)), onlyPort_modPort _ _ _, ?_⟩
    rw [port_modPort]
    exact ⟨failed_st hin _ _, rfl, rfl, (BitVec.toNat_ofNat _ 3).trans (Nat.mod_eq_of_lt (by omega))⟩
  · have hport := portDown_port (s.modPort p (fun q => { q with cause := BitVec.ofNat 3 c.val })) p
    exact ⟨_, hx.trans (congrArg _ (trainingFail_down h ha _)), ((Raised.modPort s p _).trans (portDown_frame _ p)).of_modPort,
      (congrArg Port.st hport).trans rfl, (congrArg Port.downSince hport).trans rfl, portDown_event _ p⟩
  · exact ⟨_, hx.trans (congrArg _ (trainingFail_disables h ha h1 h2)), portDisable_st _ p 3, portDisable_event _ p 3 (by decide)⟩

end

/-! ### Deskew (R214 step 6) -/

theorem lined_iff (p : Port) : p.lined = true ↔ ∀ l : Fin 4, (p.lanes[l]).mark.isSome = true ∧ (p.lanes[l]).mark = (p.lanes[(0 : Fin 4)]).mark := by
  simp [Port.lined, Fin.forall_iff, Vector.all_eq_true]

theorem skewed_iff (sk : Vector Byte 4) : sk.any (fun x => decide (200 < x.toNat)) = true ↔ ∃ l : Fin 4, 200 < sk[l].toNat := by
  simp [Vector.any_eq_true, Fin.exists_iff]

/-- The port with its lanes in line, at the start of step 7. -/
def Port.deskewed (p : Port) (now : Nat) (inv : Vector Bool 4) (sk : Vector Byte 4) : Port :=
  Port.toStep { p with lanes := Vector.ofFn (fun i => { p.lanes[i] with inverted := inv[i], skew := sk[i] }) } now 7

section
variable {p : Fin 12} {s : State} (hin : (s.ports[p]).inTraining = true) (h6 : (s.ports[p]).step = 6)
  (inv : Vector Bool 4) (sk : Vector Byte 4)
include hin h6

theorem exec_deskewed : exec (.portTraining p (.deskewed inv sk)) s =
    if sk.any (fun x => decide (200 < x.toNat)) = true then .next (s.trainingFail p 5)
    else if (!(s.ports[p]).lined) = true then .next s else .next (s.modPort p (fun q => q.deskewed s.now inv sk)) :=
  (if_neg (training_not_idle hin)).trans ((if_neg (untimed_not_late (by rw [h6]; rfl))).trans (if_neg (not_not.2 h6)))

theorem deskewed_lines (hsk : ∀ l : Fin 4, sk[l].toNat ≤ 200)
    (hl : ∀ l : Fin 4, ((s.ports[p]).lanes[l]).mark.isSome = true ∧ ((s.ports[p]).lanes[l]).mark = ((s.ports[p]).lanes[(0 : Fin 4)]).mark) :
    ∃ u, exec (.portTraining p (.deskewed inv sk)) s = .next u ∧ OnlyPort p s u
      ∧ (u.ports[p]).step = 7 ∧ (u.ports[p]).stepSince = s.now ∧ ∀ l : Fin 4, ((u.ports[p]).lanes[l]).phys = ((s.ports[p]).lanes[l]).phys
        ∧ ((u.ports[p]).lanes[l]).inverted = inv[l] ∧ ((u.ports[p]).lanes[l]).skew = sk[l] := by
  have hany : ¬sk.any (fun x => decide (200 < x.toNat)) = true := fun k =>
    ((skewed_iff sk).1 k).elim fun l h => Nat.not_lt.2 (hsk l) h
  have hline : ¬(!(s.ports[p]).lined) = true := by
    rw [(lined_iff _).2 hl]
    decide
  refine ⟨_, (exec_deskewed hin h6 inv sk).trans ((if_neg hany).trans (if_neg hline)), onlyPort_modPort _ _ _, ?_⟩
  rw [port_modPort]
  refine ⟨rfl, rfl, fun l => ?_⟩
  simp [Port.deskewed, Port.toStep]

theorem deskewed_fails (hsk : ∃ l : Fin 4, 200 < sk[l].toNat) (ha : (s.ports[p]).attempts < 3) :
    ∃ u, exec (.portTraining p (.deskewed inv sk)) s = .next u ∧ OnlyPort p s u ∧ (u.ports[p]).step = 1
      ∧ (u.ports[p]).attempts = (s.ports[p]).attempts + 1 ∧ (u.ports[p]).cause = 5 := by
  refine ⟨_, (exec_deskewed hin h6 inv sk).trans ((if_pos ((skewed_iff sk).2 hsk)).trans (congrArg _ (trainingFail_again ha 5))),
    onlyPort_modPort _ _ _, ?_⟩
  rw [port_modPort]
  exact ⟨rfl, rfl, rfl⟩

end

/-! ### Steps 7 and 8 (R214) -/

theorem sendRtt_lineOnly (p : Port) (now : Nat) : LineOnly { p with rttSince := some now, rttNum := p.rttNum + 1 } (p.sendRtt now) := by
  unfold Port.sendRtt
  rw [sendBlock_lineOnly]
  rfl

/-- The port at the start of step 8: its RTT_REQ has left. -/
def Port.exchanging (p : Port) (now : Nat) : Port := { p.sendRtt now with step := 8, stepSince := now }

/-- The port that has finished training, with the partner's buffers as credits. -/
def Port.linkedAt (p : Port) (now : Nat) : Port :=
  { p with st := .linked, credits := #v[512, 256, 64, 16], lastPres := now, sinceVc2 := 0, sinceFlit := 0, sinceFill := 0
           lanes := p.lanes.map (fun l => { l with lastMark := now }) }

theorem portLinked_eq (s : State) (p : Fin 12) : s.portLinked p =
    if (s.ports[p]).conf = true then (s.modPort p (fun q => q.linkedAt s.now)).startAuth p else s.modPort p (fun q => q.linkedAt s.now) := by
  have hc : ((s.modPort p (fun q => q.linkedAt s.now)).ports[p]).conf = (s.ports[p]).conf := by
    rw [port_modPort]
    rfl
  rw [← hc]
  rfl

theorem portLinked_port (s : State) (p : Fin 12) : AuthOnly ((s.ports[p]).linkedAt s.now) (s.portLinked p).ports[p] := by
  rw [portLinked_eq]
  split
  · have h := startAuth_port (s.modPort p (fun q => q.linkedAt s.now)) p
    rwa [port_modPort] at h
  · rw [port_modPort]
    rfl

theorem portLinked_keeps (s : State) (p : Fin 12) : ((s.portLinked p).ports[p]).step = (s.ports[p]).step
    ∧ ((s.portLinked p).ports[p]).txId = (s.ports[p]).txId ∧ ((s.portLinked p).ports[p]).linkUpTx = (s.ports[p]).linkUpTx :=
  ⟨(congrArg Port.step (portLinked_port s p)).trans rfl, (congrArg Port.txId (portLinked_port s p)).trans rfl,
    (congrArg Port.linkUpTx (portLinked_port s p)).trans rfl⟩

/-- Step 7: both LINK_UP blocks are there. -/
def State.exchangeStep (s : State) (p : Fin 12) : State :=
  if (s.ports[p]).step = 7 ∧ (s.ports[p]).linkUpTx = true ∧ (s.ports[p]).linkUpRx = true then s.modPort p (fun q => q.exchanging s.now) else s

/-- Step 8: the round trip is measured and PRES has arrived. -/
def State.finishStep (s : State) (p : Fin 12) : State :=
  if (s.ports[p]).step = 8 ∧ (s.ports[p]).rttOk = true ∧ (s.ports[p]).presOk = true ∧ (s.ports[p]).inTraining = true then s.portLinked p else s

theorem linkSteps_eq (s : State) (p : Fin 12) : s.linkSteps p = (s.exchangeStep p).finishStep p := rfl

section
variable {p : Fin 12} {s : State}

theorem finishStep_waits (h : (s.ports[p]).step = 8 → (s.ports[p]).rttOk = false ∨ (s.ports[p]).presOk = false) : s.finishStep p = s := by
  refine if_neg ?_
  rintro ⟨e, hr, hp, -⟩
  exact (h e).elim (fun k => Bool.false_ne_true (k.symm.trans hr)) (fun k => Bool.false_ne_true (k.symm.trans hp))

/-- Where neither step has what it waits for, nothing happens. -/
theorem linkSteps_waits (h7 : (s.ports[p]).step = 7 → (s.ports[p]).linkUpTx = true → (s.ports[p]).linkUpRx = false)
    (h8 : (s.ports[p]).step = 8 → (s.ports[p]).rttOk = false ∨ (s.ports[p]).presOk = false) : s.linkSteps p = s := by
  have hex : s.exchangeStep p = s := if_neg fun ⟨e, htx, hrx⟩ => Bool.false_ne_true ((h7 e htx).symm.trans hrx)
  rw [linkSteps_eq, hex, finishStep_waits h8]

theorem linkSteps_finishes (h8 : (s.ports[p]).step = 8) (hr : (s.ports[p]).rttOk = true) (hp : (s.ports[p]).presOk = true)
    (hin : (s.ports[p]).inTraining = true) : s.linkSteps p = s.portLinked p := by
  have hex : s.exchangeStep p = s := if_neg fun h => absurd (h8.symm.trans h.1) (by decide)
  rw [linkSteps_eq, hex]
  exact if_pos ⟨h8, hr, hp, hin⟩

theorem exchanging_port (q : Port) (now : Nat) : (q.exchanging now).step = 8 ∧ (q.exchanging now).txId = q.txId
    ∧ (q.exchanging now).linkUpTx = q.linkUpTx ∧ (q.exchanging now).rttOk = q.rttOk := by
  unfold Port.exchanging
  rw [sendRtt_lineOnly]
  exact ⟨rfl, rfl, rfl, rfl⟩

/-- LINK_UP of both sides leads to step 8, and on to LINKED where the round trip and PRES are there already. -/
theorem linkSteps_exchanges (h7 : (s.ports[p]).step = 7) (htx : (s.ports[p]).linkUpTx = true) (hrx : (s.ports[p]).linkUpRx = true) :
    s.linkSteps p = (s.modPort p (fun q => q.exchanging s.now)).finishStep p := by
  have hex : s.exchangeStep p = s.modPort p (fun q => q.exchanging s.now) := if_pos ⟨h7, htx, hrx⟩
  rw [linkSteps_eq, hex]

/-- Either way the port is in step 8 with what it held of the LINK_IDs. -/
theorem linkSteps_exchanges_port (h7 : (s.ports[p]).step = 7) (htx : (s.ports[p]).linkUpTx = true) (hrx : (s.ports[p]).linkUpRx = true) :
    ((s.linkSteps p).ports[p]).step = 8 ∧ ((s.linkSteps p).ports[p]).txId = (s.ports[p]).txId ∧ ((s.linkSteps p).ports[p]).linkUpTx = true := by
  obtain ⟨h8, hid, htx8, -⟩ := exchanging_port (s.ports[p]) s.now
  rw [← port_modPort s p (fun q => q.exchanging s.now)] at h8 hid htx8
  rw [linkSteps_exchanges h7 htx hrx, State.finishStep]
  split
  · obtain ⟨k8, kid, ktx⟩ := portLinked_keeps (s.modPort p (fun q => q.exchanging s.now)) p
    exact ⟨k8.trans h8, kid.trans hid, ktx.trans (htx8.trans htx)⟩
  · exact ⟨h8, hid, htx8.trans htx⟩

/-- The port with its LINK_ID chosen: its LINK_UP block has left. -/
def Port.linkUpSent (p : Port) (id : BitVec 16) (port : Nat) : Port :=
  Port.sendBlock { p with linkUpTx := true, txId := id } 0x33 (at_ 256 0 id ||| natAt 256 16 port)

theorem linkUpSent_lineOnly (q : Port) (id : BitVec 16) (port : Nat) : LineOnly { q with linkUpTx := true, txId := id } (q.linkUpSent id port) :=
  sendBlock_lineOnly _ _ _

theorem exec_portTraining_linkUp (hin : (s.ports[p]).inTraining = true) (id : BitVec 16) (h7 : (s.ports[p]).step = 7)
    (ht : s.now ≤ (s.ports[p]).stepSince + 156250) :
    exec (.portTraining p (.linkUp id)) s = .next ((s.modPort p (fun q => q.linkUpSent id p.val)).linkSteps p) :=
  (if_neg (training_not_idle hin)).trans ((if_neg (not_late (by rw [h7]; rfl) ht)).trans (if_pos h7))

theorem portTraining_linkUp (hin : (s.ports[p]).inTraining = true) (id : BitVec 16) (h7 : (s.ports[p]).step = 7)
    (ht : s.now ≤ (s.ports[p]).stepSince + 156250) : ∃ u, exec (.portTraining p (.linkUp id)) s = .next u
      ∧ ((s.ports[p]).rttOk = false → OnlyPort p s u) ∧ (u.ports[p]).txId = id ∧ (u.ports[p]).linkUpTx = true
      ∧ (u.ports[p]).step = (if (s.ports[p]).linkUpRx then 8 else 7) := by
  have hport : ((s.modPort p (fun q => q.linkUpSent id p.val)).ports[p]).step = 7
      ∧ ((s.modPort p (fun q => q.linkUpSent id p.val)).ports[p]).linkUpTx = true
      ∧ ((s.modPort p (fun q => q.linkUpSent id p.val)).ports[p]).txId = id
      ∧ ((s.modPort p (fun q => q.linkUpSent id p.val)).ports[p]).linkUpRx = (s.ports[p]).linkUpRx
      ∧ ((s.modPort p (fun q => q.linkUpSent id p.val)).ports[p]).rttOk = (s.ports[p]).rttOk := by
    rw [port_modPort, linkUpSent_lineOnly]
    exact ⟨h7, rfl, rfl, rfl, rfl⟩
  obtain ⟨hst, htx, hid, hrx, hrtt⟩ := hport
  refine ⟨_, exec_portTraining_linkUp hin id h7 ht, ?_⟩
  cases hl : (s.ports[p]).linkUpRx with
  | false =>
    rw [linkSteps_waits (fun _ _ => hrx.trans hl) (fun h8 => by rw [hst] at h8; exact absurd h8 (by decide))]
    exact ⟨fun _ => onlyPort_modPort _ _ _, hid, htx, hst⟩
  | true =>
    obtain ⟨h8, hid8, htx8⟩ := linkSteps_exchanges_port hst htx (hrx.trans hl)
    refine ⟨fun hr => ?_, hid8.trans hid, htx8, h8⟩
    rw [linkSteps_exchanges hst htx (hrx.trans hl), finishStep_waits fun _ => .inl ?_]
    · exact (onlyPort_modPort _ _ _).trans (onlyPort_modPort _ _ _)
    · obtain ⟨-, -, -, hr8⟩ := exchanging_port ((s.modPort p (fun q => q.linkUpSent id p.val)).ports[p]) s.now
      rw [port_modPort]
      exact hr8.trans (hrtt.trans hr)

/-- Step 8 ends in LINKED with the partner's buffers as credits. -/
theorem linkSteps_links (hin : (s.ports[p]).inTraining = true) (h8 : (s.ports[p]).step = 8) (hr : (s.ports[p]).rttOk = true)
    (hp : (s.ports[p]).presOk = true) :
    ((s.linkSteps p).ports[p]).st = .linked ∧ ((s.linkSteps p).ports[p]).credits = #v[512, 256, 64, 16]
      ∧ ((s.ports[p]).conf = false → OnlyPort p s (s.linkSteps p))
      ∧ ((s.ports[p]).conf = true → ((s.linkSteps p).ports[p]).authStart.isSome = true ∨ ((s.linkSteps p).ports[p]).authDone = true) := by
  rw [linkSteps_finishes h8 hr hp hin]
  refine ⟨(congrArg Port.st (portLinked_port s p)).trans rfl, (congrArg Port.credits (portLinked_port s p)).trans rfl, fun hc => ?_, fun hc => ?_⟩
  · rw [portLinked_eq, if_neg (by rw [hc]; decide)]
    exact onlyPort_modPort _ _ _
  · rw [portLinked_eq, if_pos hc]
    exact startAuth_runs _ p

end

end Sys2Proof.Machine
end

section
/-! Proofs of the statement about the training of a port: its steps, training frames and taps. -/

namespace Sys2Proof.Machine

/-! ### Requests to the taps (R212, R213) -/

theorem tapStep_range {lo hi v : Int} (hl : lo ≤ v) (hh : v ≤ hi) (req : Nat) :
    lo ≤ (tapStep lo hi v req).1 ∧ (tapStep lo hi v req).1 ≤ hi := by
  unfold tapStep
  dsimp only
  generalize (if req = 1 then v + 1 else if req = 2 then v - 1 else v) = n
  split
  · split
    next h => exact h
    next => exact ⟨hl, hh⟩
  · exact ⟨hl, hh⟩

theorem tapStep_up {lo hi v : Int} (hl : lo ≤ v) : (v < hi → tapStep lo hi v 1 = (v + 1, 1)) ∧ (v = hi → tapStep lo hi v 1 = (v, 2)) := by
  refine ⟨fun h => ?_, fun h => ?_⟩
  · exact if_pos ⟨by simp only [if_true]; omega, by simp only [if_true]; omega⟩
  · refine if_neg ?_
    simp only [if_true]
    omega

theorem tapStep_down {lo hi v : Int} (hh : v ≤ hi) (h : lo < v) : tapStep lo hi v 2 = (v - 1, 1) :=
  if_pos ⟨by simp; omega, by simp; omega⟩

theorem tapStep_hold (lo hi v : Int) : tapStep lo hi v 0 = (v, 0) := rfl

/-- A tap that a frame asks for, held where together with the others it would exceed the sum. -/
def tapSettled (ex : Prop) [Decidable ex] (old : Int) (t : Int × Nat) : Int × Nat :=
  if ex ∧ old.natAbs < t.1.natAbs then (old, 2) else t

theorem tapSettled_range {ex : Prop} [Decidable ex] {lo hi old : Int} {t : Int × Nat} (h : lo ≤ old ∧ old ≤ hi)
    (ht : lo ≤ t.1 ∧ t.1 ≤ hi) : lo ≤ (tapSettled ex old t).1 ∧ (tapSettled ex old t).1 ≤ hi := by
  unfold tapSettled
  split
  · exact h
  · exact ht

theorem tapSettled_natAbs {ex : Prop} [Decidable ex] (ho : ex) (old : Int) (t : Int × Nat) :
    (tapSettled ex old t).1.natAbs ≤ old.natAbs := by
  unfold tapSettled
  split
  · exact le_refl _
  next h => exact Nat.not_lt.1 fun k => h ⟨ho, k⟩

theorem tapSettled_free {ex : Prop} [Decidable ex] (ho : ¬ex) (old : Int) (t : Int × Nat) : tapSettled ex old t = t :=
  if_neg fun h => ho h.1

theorem tapSettled_same (ex : Prop) [Decidable ex] (old : Int) (k : Nat) : tapSettled ex old (old, k) = (old, k) :=
  if_neg fun h => Nat.lt_irrefl _ h.2

/-- The four requests of a frame, each applied to its tap alone. -/
def Lane.asks (l : Lane) (c : BitVec 16) : (Int × Nat) × (Int × Nat) × (Int × Nat) × (Int × Nat) :=
  (tapStep 0 6 l.cm3.toNat (nfld c 0 2), tapStep 0 8 l.cm2.toNat (nfld c 2 2),
    tapStep (-24) 0 l.cm1.toInt (nfld c 4 2), tapStep (-16) 0 l.cp1.toInt (nfld c 6 2))

/-- The requests together exceed the sum that leaves c(0) at least 32. -/
abbrev Lane.overAsked (l : Lane) (c : BitVec 16) : Prop :=
  32 < (l.asks c).1.1.natAbs + (l.asks c).2.1.1.natAbs + (l.asks c).2.2.1.1.natAbs + (l.asks c).2.2.2.1.natAbs

/-- The taps as the frame leaves them. -/
def Lane.settled (l : Lane) (c : BitVec 16) : Int × Int × Int × Int :=
  ((tapSettled (l.overAsked c) l.cm3.toNat (l.asks c).1).1, (tapSettled (l.overAsked c) l.cm2.toNat (l.asks c).2.1).1,
    (tapSettled (l.overAsked c) l.cm1.toInt (l.asks c).2.2.1).1, (tapSettled (l.overAsked c) l.cp1.toInt (l.asks c).2.2.2).1)

theorem taps_eq (l : Lane) (c : BitVec 16) : (l.taps c).1 = { l with
    cm3 := BitVec.ofInt 4 (l.settled c).1, cm2 := BitVec.ofInt 4 (l.settled c).2.1, cm1 := BitVec.ofInt 6 (l.settled c).2.2.1
    cp1 := BitVec.ofInt 6 (l.settled c).2.2.2
    c0 := BitVec.ofNat 7 (64 - ((l.settled c).1.natAbs + (l.settled c).2.1.natAbs + (l.settled c).2.2.1.natAbs
      + (l.settled c).2.2.2.natAbs)) } := by
  by_cases h : l.overAsked c
  · have hs := h
    simp only [Lane.overAsked, Lane.asks, Nat.add_assoc] at hs
    simp [Lane.taps, Lane.settled, tapSettled, Lane.overAsked, Lane.asks, Nat.add_assoc, hs, Nat.not_le.2 hs]
  · have hs := h
    simp only [Lane.overAsked, Lane.asks, Nat.add_assoc] at hs
    simp [Lane.taps, Lane.settled, tapSettled, Lane.overAsked, Lane.asks, Nat.add_assoc, hs, Nat.not_lt.1 hs]

/-- The ranges of the taps, and the sum of their magnitudes that c(0) leaves room for (R213). -/
def Lane.tapsOk (l : Lane) : Prop :=
  l.cm3.toNat ≤ 6 ∧ l.cm2.toNat ≤ 8 ∧ -24 ≤ l.cm1.toInt ∧ l.cm1.toInt ≤ 0 ∧ -16 ≤ l.cp1.toInt ∧ l.cp1.toInt ≤ 0
    ∧ (l.cm3.toNat : Int) + l.cm2.toNat - l.cm1.toInt - l.cp1.toInt ≤ 32

section
variable {l : Lane} (h : l.tapsOk) (c : BitVec 16)
include h

/-- Each tap that is asked for lies in its range. -/
theorem asks_ranges : (0 ≤ (l.asks c).1.1 ∧ (l.asks c).1.1 ≤ 6) ∧ (0 ≤ (l.asks c).2.1.1 ∧ (l.asks c).2.1.1 ≤ 8)
    ∧ (-24 ≤ (l.asks c).2.2.1.1 ∧ (l.asks c).2.2.1.1 ≤ 0) ∧ (-16 ≤ (l.asks c).2.2.2.1 ∧ (l.asks c).2.2.2.1 ≤ 0) := by
  obtain ⟨h3, h2, l1, u1, lp, up, -⟩ := h
  exact ⟨tapStep_range (by omega) (by omega) _, tapStep_range (by omega) (by omega) _, tapStep_range l1 u1 _, tapStep_range lp up _⟩

/-- Each tap that a frame leaves lies in its range. -/
theorem settled_ranges : (0 ≤ (l.settled c).1 ∧ (l.settled c).1 ≤ 6) ∧ (0 ≤ (l.settled c).2.1 ∧ (l.settled c).2.1 ≤ 8)
    ∧ (-24 ≤ (l.settled c).2.2.1 ∧ (l.settled c).2.2.1 ≤ 0) ∧ (-16 ≤ (l.settled c).2.2.2 ∧ (l.settled c).2.2.2 ≤ 0) := by
  obtain ⟨a3, a2, a1, ap⟩ := asks_ranges h c
  obtain ⟨h3, h2, l1, u1, lp, up, -⟩ := h
  exact ⟨tapSettled_range ⟨by omega, by omega⟩ a3, tapSettled_range ⟨by omega, by omega⟩ a2, tapSettled_range ⟨l1, u1⟩ a1,
    tapSettled_range ⟨lp, up⟩ ap⟩

/-- Where the requests together exceed the sum, no tap grows; else the sum is the one asked for. -/
theorem settled_sum : (l.settled c).1.natAbs + (l.settled c).2.1.natAbs + (l.settled c).2.2.1.natAbs + (l.settled c).2.2.2.natAbs ≤ 32 := by
  by_cases ho : l.overAsked c
  · obtain ⟨-, -, -, u1, -, up, hsum⟩ := h
    have k3 : (l.settled c).1.natAbs ≤ _ := tapSettled_natAbs ho _ _
    have k2 : (l.settled c).2.1.natAbs ≤ _ := tapSettled_natAbs ho _ _
    have k1 : (l.settled c).2.2.1.natAbs ≤ _ := tapSettled_natAbs ho _ _
    have kp : (l.settled c).2.2.2.natAbs ≤ _ := tapSettled_natAbs ho _ _
    omega
  · unfold Lane.settled
    simp only [tapSettled_free ho]
    exact Nat.not_lt.1 ho

theorem taps_keep_ranges : (l.taps c).1.tapsOk ∧ ((l.taps c).1.c0.toNat : Int) + (l.taps c).1.cm3.toNat + (l.taps c).1.cm2.toNat
    - (l.taps c).1.cm1.toInt - (l.taps c).1.cp1.toInt = 64 := by
  obtain ⟨⟨b3, k3⟩, ⟨b2, k2⟩, ⟨b1, k1⟩, ⟨bp, kp⟩⟩ := settled_ranges h c
  have hsum := settled_sum h c
  rw [taps_eq]
  unfold Lane.tapsOk
  generalize l.settled c = v at *
  obtain ⟨v3, v2, v1, vp⟩ := v
  dsimp only at *
  have e3 : (BitVec.ofInt 4 v3).toNat = v3.toNat := by rw [BitVec.toNat_ofInt]; omega
  have e2 : (BitVec.ofInt 4 v2).toNat = v2.toNat := by rw [BitVec.toNat_ofInt]; omega
  have e1 : (BitVec.ofInt 6 v1).toInt = v1 := by rw [BitVec.toInt_ofInt, Int.bmod_eq_of_le (by omega) (by omega)]
  have ep : (BitVec.ofInt 6 vp).toInt = vp := by rw [BitVec.toInt_ofInt, Int.bmod_eq_of_le (by omega) (by omega)]
  rw [e3, e2, e1, ep, BitVec.toNat_ofNat, Nat.mod_eq_of_lt (by omega)]
  omega

end

/-- A frame without requests leaves the taps. -/
theorem taps_without_requests (l : Lane) {c : BitVec 16} (h : nfld c 0 10 = 0) : (l.taps c).1.cm3 = l.cm3 ∧ (l.taps c).1.cm2 = l.cm2
    ∧ (l.taps c).1.cm1 = l.cm1 ∧ (l.taps c).1.cp1 = l.cp1 := by
  have hz : nfld c 0 2 = 0 ∧ nfld c 2 2 = 0 ∧ nfld c 4 2 = 0 ∧ nfld c 6 2 = 0 := by
    rw [nfld_eq] at *
    simp only [nfld_eq]
    omega
  obtain ⟨z3, z2, z1, zp⟩ := hz
  have hs : l.settled c = ((l.cm3.toNat : Int), (l.cm2.toNat : Int), l.cm1.toInt, l.cp1.toInt) := by
    unfold Lane.settled Lane.asks
    simp only [z3, z2, z1, zp, tapStep_hold, tapSettled_same]
  rw [taps_eq, hs]
  refine ⟨?_, ?_, BitVec.ofInt_toInt, BitVec.ofInt_toInt⟩
  · exact (BitVec.ofInt_natCast _ _).trans ((BitVec.ofNat_toNat _ _).trans (BitVec.setWidth_eq _))
  · exact (BitVec.ofInt_natCast _ _).trans ((BitVec.ofNat_toNat _ _).trans (BitVec.setWidth_eq _))

/-! ### A received training frame (R212 to R214) -/

/-- The lane after a good frame: presets and requests applied, the answer and RX_READY noted. -/
def Lane.framed (l : Lane) (control status : BitVec 16) : Lane :=
  let r := if nfld control 8 2 ≠ 0 then (l.preset (nfld control 8 2), 0x100) else l.taps control
  { r.1 with
    partnerReady := r.1.partnerReady || bitAt control 10
    readyFrames := if bitAt control 10 then l.readyFrames + 1 else l.readyFrames
    asked := if status = 0 then l.asked else 0, answer := if r.2 = 0 then l.answer else BitVec.ofNat 16 r.2 }

theorem framed_preset {l : Lane} {c : BitVec 16} (st : BitVec 16) (h : nfld c 8 2 ≠ 0) : l.framed c st =
    { l.preset (nfld c 8 2) with
      partnerReady := (l.preset (nfld c 8 2)).partnerReady || bitAt c 10, readyFrames := if bitAt c 10 then l.readyFrames + 1 else l.readyFrames
      asked := if st = 0 then l.asked else 0, answer := 0x100 } := by
  unfold Lane.framed
  rw [if_pos h]
  rfl

theorem framed_requests {l : Lane} {c : BitVec 16} (st : BitVec 16) (h : nfld c 8 2 = 0) : l.framed c st =
    { (l.taps c).1 with
      partnerReady := (l.taps c).1.partnerReady || bitAt c 10, readyFrames := if bitAt c 10 then l.readyFrames + 1 else l.readyFrames
      asked := if st = 0 then l.asked else 0, answer := if (l.taps c).2 = 0 then l.answer else BitVec.ofNat 16 (l.taps c).2 } := by
  unfold Lane.framed
  rw [if_neg (not_not.2 h)]

/-- RX_READY of the partner is noted and counted. -/
theorem framed_ready (l : Lane) {c : BitVec 16} (st : BitVec 16) (h : bitAt c 10 = true) :
    (l.framed c st).partnerReady = true ∧ (l.framed c st).readyFrames = l.readyFrames + 1 :=
  ⟨(congrArg _ h).trans (Bool.or_true _), if_pos h⟩

section
variable {p : Fin 12} {l : Fin 4} {c st k : BitVec 16} {s v : State}

theorem exec_trainingFrame {b : Bool} (hl : s.lineIn p (.frame l c st k 0) = (v, b)) : exec (.trainingFrame p l c st k) s =
    if (!b) = true ∨ (!(v.ports[p]).inTraining) = true then .next v
    else if (v.ports[p]).step = 2 then .next (v.modPort p (fun q => { q with
      lanes := vmod q.lanes l (fun x => { x with goodFrames := if (frameCheck c st == k) = true then x.goodFrames + 1 else 0 }) }))
    else if (!(frameCheck c st == k)) = true ∨ (v.ports[p]).step < 2 ∨ 4 < (v.ports[p]).step then .next v
    else .next (v.modPort p (fun q => Port.equalised { q with lanes := vset q.lanes l ((v.ports[p]).lanes[l].framed c st) } v.now)) := by
  show execTrainingFrame p l c st k s = _
  unfold execTrainingFrame
  dsimp only
  rw [hl]
  rfl

theorem exec_trainingFrame_ignored {b : Bool} (hl : s.lineIn p (.frame l c st k 0) = (v, b))
    (h : b = false ∨ (v.ports[p]).inTraining = false ∨ ((v.ports[p]).step ≠ 2 ∧ (frameCheck c st ≠ k ∨ (v.ports[p]).step < 2 ∨ 4 < (v.ports[p]).step))) :
    exec (.trainingFrame p l c st k) s = .next v := by
  rw [exec_trainingFrame hl]
  rcases h with h | h | ⟨h2, h⟩
  · exact if_pos (.inl (by rw [h]; rfl))
  · exact if_pos (.inr (by rw [h]; rfl))
  · rw [if_neg h2, if_pos (h.imp_left fun e => by rw [beq_false_of_ne e]; rfl), ite_self]

variable (hl : s.lineIn p (.frame l c st k 0) = (v, true)) (hin : (v.ports[p]).inTraining = true)
include hl hin

theorem exec_trainingFrame_taken : exec (.trainingFrame p l c st k) s =
    if (v.ports[p]).step = 2 then .next (v.modPort p (fun q => { q with
      lanes := vmod q.lanes l (fun x => { x with goodFrames := if (frameCheck c st == k) = true then x.goodFrames + 1 else 0 }) }))
    else if (!(frameCheck c st == k)) = true ∨ (v.ports[p]).step < 2 ∨ 4 < (v.ports[p]).step then .next v
    else .next (v.modPort p (fun q => Port.equalised { q with lanes := vset q.lanes l ((v.ports[p]).lanes[l].framed c st) } v.now)) :=
  (exec_trainingFrame hl).trans (if_neg (by rw [hin]; decide))

theorem exec_trainingFrame_counts (h2 : (v.ports[p]).step = 2) : exec (.trainingFrame p l c st k) s = .next (v.modPort p (fun q =>
    { q with lanes := vmod q.lanes l (fun x => { x with goodFrames := if frameCheck c st = k then x.goodFrames + 1 else 0 }) })) := by
  rw [exec_trainingFrame_taken hl hin, if_pos h2]
  simp only [beq_iff_eq]

theorem exec_trainingFrame_answers (h34 : (v.ports[p]).step = 3 ∨ (v.ports[p]).step = 4) (hk : frameCheck c st = k) :
    exec (.trainingFrame p l c st k) s =
      .next (v.modPort p (fun q => Port.equalised { q with lanes := vset q.lanes l ((v.ports[p]).lanes[l].framed c st) } v.now)) := by
  have hgo : ¬((!(frameCheck c st == k)) = true ∨ (v.ports[p]).step < 2 ∨ 4 < (v.ports[p]).step) := by
    rw [hk, beq_self_eq_true]
    rintro (h | h)
    · exact absurd h (by decide)
    · omega
  rw [exec_trainingFrame_taken hl hin, if_neg (by omega), if_neg hgo]

end

/-- What is delivered leaves the training of its port. -/
theorem lineIn_training {p : Fin 12} {x : LineItem} {s v : State} (hl : s.lineIn p x = (v, true)) :
    (v.ports[p]).inTraining = (s.ports[p]).inTraining ∧ (v.ports[p]).step = (s.ports[p]).step := by
  obtain ⟨r, rfl⟩ := lineIn_loopq hl
  rw [port_modPort]
  exact ⟨rfl, rfl⟩

/-- What a good frame leaves during equalisation. -/
theorem trainingFrame_answers {p : Fin 12} {l : Fin 4} {c st k : BitVec 16} {s v : State}
    (hl : s.lineIn p (.frame l c st k 0) = (v, true)) (hin : (s.ports[p]).inTraining = true)
    (h34 : (s.ports[p]).step = 3 ∨ (s.ports[p]).step = 4) (hk : frameCheck c st = k) :
    ∃ u : State, exec (.trainingFrame p l c st k) s = .next u ∧ u = { s with ports := u.ports }
      ∧ (∀ q : Fin 12, q ≠ p → u.ports[q] = s.ports[q]) ∧ (u.ports[p]).sent = (v.ports[p]).sent
      ∧ (u.ports[p]).lanes[l] = ((s.ports[p]).lanes[l]).framed c st
      ∧ (∀ m : Fin 4, m ≠ l → (u.ports[p]).lanes[m] = (s.ports[p]).lanes[m]) := by
  obtain ⟨r, rfl⟩ := lineIn_loopq hl
  have hp := port_modPort s p (fun q => { q with loopq := r })
  refine ⟨_, exec_trainingFrame_answers hl (by rw [hp]; exact hin) (by rw [hp]; exact h34) hk, rfl, fun q hq => ?_, ?_⟩
  · rw [port_modPort_ne _ _ hq, port_modPort_ne _ _ hq]
  · rw [port_modPort, equalised_lanes, hp]
    exact ⟨equalised_sent _ _, vset_get_same _ _ _, fun m hm => vset_get_ne _ _ _ _ hm⟩

/-! ### The frames that a port sends (R212, R216) -/

theorem length_prbsRun (taps : List Nat) (st : BitVec 31) (n : Nat) : (prbsRun taps st n).1.length = n := by
  induction n generalizing st with
  | zero => rfl
  | succ n ih => exact congrArg Nat.succ (ih _)

theorem length_grayPairs (l : List Bool) : (grayPairs l).length = l.length / 2 := by
  induction l using grayPairs.induct with
  | case1 a b l ih =>
    rw [grayPairs, List.length_cons, ih, List.length_cons, List.length_cons]
    omega
  | case2 l h =>
    match l, h with
    | [], _ => rfl
    | [_], _ => simp [grayPairs]
    | a :: b :: l, h => exact (h a b l rfl).elim

theorem frameSymbols_shape (c st k : BitVec 16) (f : BitVec 31) : (frameSymbols c st k f).1.length = 8192
    ∧ (frameSymbols c st k f).1.take 32 = List.replicate 16 3 ++ List.replicate 16 0 := by
  unfold frameSymbols
  dsimp only
  refine ⟨?_, ?_⟩
  · simp only [List.length_append, List.length_replicate, List.length_map, List.length_range, length_grayPairs, length_prbsRun]
  · simp only [List.append_assoc]
    rw [← List.append_assoc]
    exact List.take_left' rfl

section
variable {q : Port} (h : q.loop = 0)
include h

/-- A lane sends its frame: RX_READY and its answer in it; the other lanes and their frames are not concerned. -/
theorem sendFrame_sends (i : Fin 4) (x : BitVec 17) : ∃ (c : BitVec 16) (f : BitVec 31),
    (q.sendFrame i x).sent = q.sent ++ [.frame i c (q.lanes[i]).answer (frameCheck c (q.lanes[i]).answer) f]
      ∧ bitAt c 10 = (q.lanes[i]).rxReady ∧ (q.sendFrame i x).loop = 0
      ∧ ∀ m : Fin 4, m ≠ i → (q.sendFrame i x).lanes[m] = q.lanes[m] := by
  unfold Port.sendFrame
  extract_lets l ask c fill
  refine ⟨c, fill, emit_sent _ h, ?_, (congrArg Port.loop (emit_lineOnly _ _)).trans h, fun m hm => ?_⟩
  · have hask : (at_ 16 0 ask).getLsbD 10 = false := by simp [at_]
    have hflag : ∀ b : Bool, (flagAt 16 10 b).getLsbD 10 = b := by decide
    rw [bitAt, BitVec.getLsbD_or, hflag, hask, Bool.or_false]
  · rw [emit_lineOnly]
    exact vset_get_ne _ _ _ _ hm

end

/-- What a lane sends as its training frame: RX_READY and its answer in it. -/
def FrameOf (l : Lane) (i : Fin 4) (y : LineItem) : Prop :=
  ∃ (c : BitVec 16) (f : BitVec 31), y = .frame i c l.answer (frameCheck c l.answer) f ∧ bitAt c 10 = l.rxReady

/-- Each lane of a list sends one frame in its turn. -/
theorem foldl_sendFrame (x : Fin 4 → BitVec 17) (ls : Vector Lane 4) (is : List (Fin 4)) (hn : is.Nodup) (q : Port) (h : q.loop = 0)
    (hl : ∀ i ∈ is, q.lanes[i] = ls[i]) : ∃ xs : List LineItem,
      (is.foldl (fun (q : Port) i => q.sendFrame i (x i)) q).sent = q.sent ++ xs ∧ List.Forall₂ (fun i y => FrameOf ls[i] i y) is xs := by
  induction is generalizing q with
  | nil => exact ⟨[], (List.append_nil _).symm, .nil⟩
  | cons i is ih =>
    obtain ⟨hi, hn⟩ := List.nodup_cons.1 hn
    obtain ⟨c, f, hsent, hc, hloop, hlanes⟩ := sendFrame_sends h i (x i)
    rw [hl i List.mem_cons_self] at hsent hc
    obtain ⟨xs, hxs, hall⟩ := ih hn _ hloop fun m hm =>
      (hlanes m fun e => hi (e ▸ hm)).trans (hl m (List.mem_cons_of_mem _ hm))
    refine ⟨_ :: xs, ?_, .cons ⟨c, f, rfl, hc⟩ hall⟩
    rw [List.foldl_cons, hxs, hsent, List.append_assoc]
    rfl

/-- One frame on every lane. -/
theorem sendFrames_sends {q : Port} (h : q.loop = 0) (x : BitVec 512) (now : Nat) : ∃ xs : List LineItem,
    (q.sendFrames x now).sent = q.sent ++ xs ∧ xs.length = 4
      ∧ ∀ l : Fin 4, ∃ y, xs[l.val]? = some y ∧ FrameOf q.lanes[l] l y := by
  obtain ⟨xs, hxs, hall⟩ := foldl_sendFrame (fun i => fld x (32 * i.val) 17) q.lanes (List.finRange 4) (List.nodup_finRange 4) q h
    fun _ _ => rfl
  have hlen : xs.length = 4 := hall.length_eq.symm
  refine ⟨xs, (equalised_sent _ _).trans hxs, hlen, fun l => ?_⟩
  have hl : l.val < xs.length := by rw [hlen]; exact l.isLt
  refine ⟨xs[l.val], List.getElem?_eq_getElem hl, ?_⟩
  have hget := hall.get (i := l.val) l.isLt hl
  rw [List.get_eq_getElem, List.getElem_finRange] at hget
  exact hget

theorem exec_flitTransmit_frames {p : Fin 12} {s : State} (hp : (s.ports[p]).prbsOn = false) (hf : (s.ports[p]).framing = true) :
    exec (.flitTransmit p) s = .next (s.draw.2.modPort p (fun q => q.sendFrames s.draw.1 s.now)) :=
  (if_neg (by rw [hp]; decide)).trans (if_pos hf)

theorem frameLock_locks {p : Fin 12} {s : State} (hin : (s.ports[p]).inTraining = true) (h2 : (s.ports[p]).step = 2)
    (ht : s.now ≤ (s.ports[p]).stepSince + 312500) :
    ((∃ l : Fin 4, ((s.ports[p]).lanes[l]).goodFrames < 3) → exec (.portTraining p .frameLock) s = .next s) ∧
    ((∀ l : Fin 4, 3 ≤ ((s.ports[p]).lanes[l]).goodFrames) → ∃ u, exec (.portTraining p .frameLock) s = .next u ∧ OnlyPort p s u
      ∧ (u.ports[p]).step = 3 ∧ (u.ports[p]).stepSince = s.now ∧ (u.ports[p]).sent = (s.ports[p]).sent
      ∧ ∀ l : Fin 4, ((u.ports[p]).lanes[l]).cm2 = 2 ∧ ((u.ports[p]).lanes[l]).cm1 = -8 ∧ ((u.ports[p]).lanes[l]).cp1 = -4
        ∧ ((u.ports[p]).lanes[l]).c0 = 50) := by
  have hall : (s.ports[p]).lanes.all (fun l => decide (3 ≤ l.goodFrames)) = true ↔ ∀ l : Fin 4, 3 ≤ ((s.ports[p]).lanes[l]).goodFrames := by
    simp [Vector.all_eq_true, Fin.forall_iff]
  refine ⟨fun ⟨l, hl⟩ => (exec_frameLock hin h2 ht).trans (congrArg _ (if_neg fun h => Nat.not_lt.2 (hall.1 h.2 l) hl)), fun hl => ?_⟩
  refine ⟨_, (exec_frameLock hin h2 ht).trans (congrArg _ (if_pos ⟨h2, hall.2 hl⟩)), onlyPort_modPort _ _ _, ?_⟩
  rw [port_modPort]
  refine ⟨rfl, rfl, rfl, fun l => ?_⟩
  simp [Port.toStep, Lane.preset]

theorem trainingFrame_takes {p : Fin 12} {l : Fin 4} {c st k : BitVec 16} {s v : State}
    (hl : s.lineIn p (.frame l c st k 0) = (v, true)) (hin : (s.ports[p]).inTraining = true)
    (h34 : (s.ports[p]).step = 3 ∨ (s.ports[p]).step = 4) (hk : frameCheck c st = k) :
    ∃ u : State, exec (.trainingFrame p l c st k) s = .next u
      ∧ u = { s with ports := u.ports } ∧ (∀ q : Fin 12, q ≠ p → u.ports[q] = s.ports[q])
      ∧ (u.ports[p]).sent = (v.ports[p]).sent
      ∧ (∀ m : Fin 4, m ≠ l → (u.ports[p]).lanes[m] = (s.ports[p]).lanes[m])
      ∧ (bitAt c 10 = true → ((u.ports[p]).lanes[l]).partnerReady = true
          ∧ ((u.ports[p]).lanes[l]).readyFrames = ((s.ports[p]).lanes[l]).readyFrames + 1)
      ∧ (nfld c 8 2 = 1 → ((u.ports[p]).lanes[l]).c0 = 64 ∧ ((u.ports[p]).lanes[l]).cm1 = 0)
      ∧ (nfld c 8 2 = 2 → ((u.ports[p]).lanes[l]).c0 = 50 ∧ ((u.ports[p]).lanes[l]).cm1 = -8)
      ∧ (nfld c 8 2 = 3 → ((u.ports[p]).lanes[l]).c0 = 40 ∧ ((u.ports[p]).lanes[l]).cm1 = -12)
      ∧ (nfld c 8 2 ≠ 0 → ((u.ports[p]).lanes[l]).answer = 0x100)
      ∧ (nfld c 8 2 = 0 → (((s.ports[p]).lanes[l]).taps c).2 ≠ 0 →
          ((u.ports[p]).lanes[l]).answer = BitVec.ofNat 16 (((s.ports[p]).lanes[l]).taps c).2)
      ∧ (nfld c 0 10 = 0 → ((u.ports[p]).lanes[l]).cm3 = ((s.ports[p]).lanes[l]).cm3 ∧ ((u.ports[p]).lanes[l]).cm2 = ((s.ports[p]).lanes[l]).cm2
          ∧ ((u.ports[p]).lanes[l]).cm1 = ((s.ports[p]).lanes[l]).cm1 ∧ ((u.ports[p]).lanes[l]).cp1 = ((s.ports[p]).lanes[l]).cp1) := by
  obtain ⟨u, hx, hu, hother, hsent, hlane, hlanes⟩ := trainingFrame_answers hl hin h34 hk
  refine ⟨u, hx, hu, hother, hsent, hlanes, ?_⟩
  rw [hlane]
  refine ⟨framed_ready _ st, fun h => ?_, fun h => ?_, fun h => ?_, fun h => ?_, fun h h0 => ?_, fun h => ?_⟩
  · rw [framed_preset st (by omega), h]
    exact ⟨rfl, rfl⟩
  · rw [framed_preset st (by omega), h]
    exact ⟨rfl, rfl⟩
  · rw [framed_preset st (by omega), h]
    exact ⟨rfl, rfl⟩
  · rw [framed_preset st h]
  · rw [framed_requests st h]
    exact if_neg h0
  · have h8 : nfld c 8 2 = 0 := by
      rw [nfld_eq] at *
      omega
    rw [framed_requests st h8]
    exact taps_without_requests _ h

theorem flitTransmit_frames {p : Fin 12} {s : State} (hp : (s.ports[p]).prbsOn = false) (hf : (s.ports[p]).framing = true)
    (hloop : (s.ports[p]).loop = 0) : ∃ (u : State) (xs : List LineItem), exec (.flitTransmit p) s = .next u
      ∧ u = { s with ports := u.ports, free := s.free + 1 }
      ∧ (∀ q : Fin 12, q ≠ p → u.ports[q] = s.ports[q]) ∧ (u.ports[p]).sent = (s.ports[p]).sent ++ xs ∧ xs.length = 4
      ∧ ∀ l : Fin 4, ∃ (c : BitVec 16) (f : BitVec 31), xs[l.val]? = some (.frame l c ((s.ports[p]).lanes[l]).answer
          (frameCheck c ((s.ports[p]).lanes[l]).answer) f) ∧ bitAt c 10 = ((s.ports[p]).lanes[l]).rxReady := by
  obtain ⟨xs, hsent, hlen, hall⟩ := sendFrames_sends hloop s.draw.1 s.now
  refine ⟨_, xs, exec_flitTransmit_frames hp hf, rfl, fun q hq => port_modPort_ne _ _ hq, ?_, hlen, fun l => ?_⟩
  · rw [port_modPort]
    exact hsent
  · obtain ⟨y, hy, c, f, rfl, hc⟩ := hall l
    exact ⟨c, f, hy, hc⟩

/-- Settles O31: PORT_TRAINING step by step, a received frame by the step of its port, and the taps by their ranges. -/
theorem portTraining : Obligations.PortTraining := by
  unfold Obligations.PortTraining
  refine ⟨⟨fun p s hin => ⟨exec_detect hin, frameLock_locks hin, exec_fecLock hin, fun l h w => equalised_measures hin l h w,
      fun inv sk h6 => ⟨deskewed_lines hin h6 inv sk, deskewed_fails hin h6 inv sk⟩, portTraining_linkUp hin, linkSteps_links hin, fun h8 h => ?_,
      fun c hc hs => portTraining_fails hin hc hs⟩,
    fun p o s => exec_portTraining_idle o, fun p o s ho hlate => ?_⟩,
    fun p x s => ⟨lineIn_open x, lineIn_off x⟩, fun p l c st k s v b hl => ⟨fun hb hin h2 => ?_, fun hb => ?_, fun h => ?_⟩,
    fun p s => flitTransmit_frames, frameSymbols_shape, fun lo hi v req hlo hhi => ?_, fun l m c hm h3 h2 l1 u1 lp up hsum => ?_⟩
  · exact linkSteps_waits (fun h7 => absurd (h8.symm.trans h7) (by decide)) fun _ => h
  · cases hin : (s.ports[p]).inTraining with
    | false => exact exec_portTraining_idle o hin
    | true => exact exec_portTraining_late hin ho hlate
  · subst hb
    obtain ⟨htr, hstep⟩ := lineIn_training hl
    exact exec_trainingFrame_counts hl (htr.trans hin) (hstep.trans h2)
  · subst hb
    exact trainingFrame_takes hl
  · refine exec_trainingFrame_ignored hl ?_
    cases b with
    | false => exact .inl rfl
    | true =>
      obtain ⟨htr, hstep⟩ := lineIn_training hl
      rw [htr, hstep]
      rcases h with h | h | h | h | ⟨h2, hk⟩
      · exact .inl h
      · exact .inr (.inl h)
      · exact .inr (.inr ⟨by omega, .inr (.inl h)⟩)
      · exact .inr (.inr ⟨by omega, .inr (.inr h)⟩)
      · exact .inr (.inr ⟨h2, .inl hk⟩)
  · obtain ⟨hl, hh⟩ := tapStep_range hlo hhi req
    refine ⟨hl, hh, ?_, ?_, ?_, ?_⟩ <;> rintro rfl
    · exact (tapStep_up hlo).1
    · exact (tapStep_up hlo).2
    · exact tapStep_down hhi
    · exact tapStep_hold lo hi v
  · subst hm
    obtain ⟨⟨k3, k2, k1, v1, kp, vp, ksum⟩, k64⟩ := taps_keep_ranges (l := l) ⟨h3, h2, l1, u1, lp, up, hsum⟩ c
    exact ⟨k3, k2, k1, v1, kp, vp, ksum, k64⟩

end Sys2Proof.Machine
end

section
/-! Proofs of the statement about control blocks, presence and codeword errors. -/

namespace Sys2Proof.Machine

/-! ### The check of a control block (R217) -/

theorem cbCheck_congr {x y : Data256} (h : toBytes x 28 = toBytes y 28) (id : BitVec 16) : cbCheck x id = cbCheck y id := by
  unfold cbCheck
  rw [h]

/-- The check covers the bytes below it. -/
theorem toBytes_or_check (x : Data256) (w : Word) : toBytes (x ||| at_ 256 224 w) 28 = toBytes x 28 := by
  refine List.map_congr_left fun i hi => ?_
  have hi := List.mem_range.1 hi
  rw [BitVec.extractLsb'_or, extractLsb'_at_above _ _ _ _ _ (by omega)]
  exact BitVec.or_zero

theorem toBytes_xor_check (x : Data256) (w : Word) : toBytes (x ^^^ at_ 256 224 w) 28 = toBytes x 28 := by
  refine List.map_congr_left fun i hi => ?_
  have hi := List.mem_range.1 hi
  rw [BitVec.extractLsb'_xor, extractLsb'_at_above _ _ _ _ _ (by omega)]
  exact BitVec.xor_zero

section
variable {ty : Nat} {body : Data256} (hty : ty < 256) (hb : body.toNat < 2 ^ 216)
include hty hb

/-- A block's type and contents leave the place of its check free. -/
theorem blockBody_check : (natAt 256 0 ty ||| body <<< 8 : Data256).extractLsb' 224 32 = 0 := by
  have hbody : (body <<< 8 : Data256).extractLsb' 224 32 = 0 := by
    apply BitVec.eq_of_toNat_eq
    rw [BitVec.extractLsb'_toNat, BitVec.toNat_shiftLeft, Nat.shiftLeft_eq, Nat.shiftRight_eq_div_pow, Nat.mod_eq_of_lt (by omega),
      Nat.div_eq_of_lt (by omega)]
    rfl
  rw [BitVec.extractLsb'_or, hbody, extractLsb'_natAt_below 256 0 ty 224 32 8 hty (by decide)]
  exact BitVec.or_zero

theorem mkBlock_check (id : BitVec 16) : rfld (mkBlock ty body id) 28 0 32 = cbCheck (mkBlock ty body id) id := by
  unfold mkBlock
  dsimp only
  rw [cbCheck_congr (toBytes_or_check _ _), rfld, BitVec.extractLsb'_or, blockBody_check hty hb,
    extractLsb'_at_same 256 (8 * 28 + 0) _ (by decide)]
  exact BitVec.zero_or

theorem mkBlock_good (id : BitVec 16) : cbGood (mkBlock ty body id) id = true :=
  beq_iff_eq.2 (mkBlock_check hty hb id).symm

/-- A block whose check is changed fails it. -/
theorem mkBlock_flipped (id : BitVec 16) {x : Word} (hx : x ≠ 0) : cbGood (mkBlock ty body id ^^^ at_ 256 224 x) id = false := by
  refine beq_false_of_ne fun h => hx ?_
  rw [cbCheck_congr (toBytes_xor_check _ _), rfld, BitVec.extractLsb'_xor, extractLsb'_at_same 256 (8 * 28 + 0) _ (by decide)] at h
  have hc := mkBlock_check hty hb id
  rw [rfld] at hc
  rw [hc] at h
  exact (BitVec.xor_right_inj (cbCheck (mkBlock ty body id) id)).1 (h.symm.trans (BitVec.xor_zero).symm)

omit hb in
theorem mkBlock_type (id : BitVec 16) : cbType (mkBlock ty body id) = ty := by
  unfold mkBlock cbType nfld
  dsimp only
  have hbody : (body <<< 8 : Data256).extractLsb' 0 8 = 0 := by
    apply BitVec.eq_of_toNat_eq
    rw [BitVec.extractLsb'_toNat, BitVec.toNat_shiftLeft, Nat.shiftLeft_eq]
    simp
  have hlow : (natAt 256 0 ty ||| body <<< 8 ||| at_ 256 224 (cbCheck (natAt 256 0 ty ||| body <<< 8) id) : Data256).extractLsb' 0 8 =
      (natAt 256 0 ty).extractLsb' 0 8 := by
    rw [BitVec.extractLsb'_or, BitVec.extractLsb'_or, hbody, extractLsb'_at_above _ _ _ _ _ (by decide)]
    exact BitVec.or_zero.trans BitVec.or_zero
  rw [hlow]
  exact toNat_extractLsb'_natAt 256 0 ty 8 hty (by decide)

end

/-! ### A received block (R209, R217) -/

theorem blockGood_iff (s : State) (p : Fin 12) (b : Data256) (id : BitVec 16) :
    s.blockGood p b id = true ↔ cbGood b id = true ∧ (s.ports[p]).badLeft = 0 := by
  rw [State.blockGood, Bool.and_eq_true, beq_iff_eq]

/-- The port that has counted a bad control block. -/
def Port.badBlock (p : Port) : Port := { p with cnt := { p.cnt with ctlBad := satInc p.cnt.ctlBad } }

section
variable {s v : State} {p : Fin 12} {ty : Nat} {b : Data256} {f : State → State}

theorem withBlock_other (h : cbType b ≠ ty) : s.withBlock p ty b f = .next s := if_pos h

section
variable (ht : cbType b = ty)
include ht

theorem withBlock_undelivered (hl : s.lineIn p (.ctl b) = (v, false)) : s.withBlock p ty b f = .next v := by
  refine (if_neg (not_not.2 ht)).trans ?_
  dsimp only
  rw [hl]
  rfl

theorem withBlock_delivered (hl : s.lineIn p (.ctl b) = (v, true)) : s.withBlock p ty b f =
    if s.blockGood p b (s.ports[p]).rxId = true then .next (f (v.tookBlocks p 1)) else .next ((v.tookBlocks p 1).modPort p Port.badBlock) := by
  refine (if_neg (not_not.2 ht)).trans ?_
  dsimp only
  rw [hl]
  rfl

theorem withBlock_bad (hl : s.lineIn p (.ctl b) = (v, true)) (hg : s.blockGood p b (s.ports[p]).rxId = false) :
    s.withBlock p ty b f = .next ((v.tookBlocks p 1).modPort p Port.badBlock) :=
  (withBlock_delivered ht hl).trans (if_neg (by rw [hg]; decide))

theorem withBlock_good (hl : s.lineIn p (.ctl b) = (v, true)) (hg : s.blockGood p b (s.ports[p]).rxId = true) :
    s.withBlock p ty b f = .next (f (v.tookBlocks p 1)) :=
  (withBlock_delivered ht hl).trans (if_pos hg)

end

end

/-! ### What the received blocks do (R210, R211, R217, R225, R227, R231) -/

/-- The port that has counted a FILL block deleted or inserted. -/
def Port.filled (p : Port) (above below : Bool) : Port := { p with cnt := { p.cnt with
  fillDel := if above then satInc p.cnt.fillDel else p.cnt.fillDel
  fillIns := if below && !above then satInc p.cnt.fillIns else p.cnt.fillIns } }

/-- The port that has heard an ALIGN block on a lane. -/
def Port.aligned (p : Port) (l : Fin 4) (b : Data256) (now : Nat) : Port :=
  { p with lanes := vmod p.lanes l (fun x => { x with phys := rfld b 1 0 2, mark := some (rfld b 2 0 16), lastMark := now }) }

/-- The port that has heard a PRES block. -/
def Port.presHeard (p : Port) (b : Data256) (now : Nat) : Port :=
  { p with partner := rfld b 1 0 64, partnerPort := rfld b 9 0 4, partnerBeat := some (rfld b 10 0 64), lastPres := now, presOk := true }

/-- The port whose admission another device's PRES has cleared. -/
def Port.dismissed (p : Port) : Port :=
  { p with admitOn := false, admittedIdent := none, prev := if p.st = .retrain then .linked else p.prev }

/-- A PRES block on a port that has its link. -/
def State.presTaken (s : State) (p : Fin 12) (b : Data256) : State :=
  let s1 := s.modPort p (fun q => q.presHeard b s.now)
  if (s1.ports[p]).admittedIdent.isSome = true ∧ (s1.ports[p]).admittedIdent ≠ some (rfld b 1 0 64) then
    (s1.modPort p Port.dismissed).lnkEvent p 7
  else s1

/-- The port with its round trip measured. -/
def Port.rttMeasured (p : Port) (now t : Nat) : Port := { p with rtt := BitVec.ofNat 16 (min 65535 (now - t)), rttOk := true, rttSince := none }

section
variable (s : State) (p : Fin 12) (b : Data256)

theorem exec_fill (above below : Bool) : exec (.fill p b above below) s =
    s.withBlock p 0x1E b (fun t => t.modPort p (fun q => q.filled above below)) := rfl

theorem exec_align (l : Fin 4) : exec (.align p l b) s =
    s.withBlock p 0x2D b (fun t => (t.modPort p (fun q => q.aligned l b t.now)).retrainExchange p) := rfl

theorem exec_pres : exec (.pres p b) s = s.withBlock p 0x4B b (fun t =>
    if (!(t.ports[p]).linkUp) = true then t
    else if ((t.modPort p (fun q => q.presHeard b t.now)).ports[p]).inTraining = true then (t.presTaken p b).linkSteps p
    else t.presTaken p b) := rfl

theorem exec_rttReq : exec (.rttReq p b) s = s.withBlock p 0x66 b (fun t =>
    if (!(t.ports[p]).linkUp) = true then t else t.modPort p (fun q => q.sendBlock 0x67 (at_ 256 0 (rfld b 1 0 16 : BitVec 16)))) := rfl

theorem exec_rttRsp : exec (.rttRsp p b) s = s.withBlock p 0x67 b (fun t =>
    if rfld b 1 0 16 ≠ (t.ports[p]).rttNum then t else
    match (t.ports[p]).rttSince with
    | some since => (t.modPort p (fun q => q.rttMeasured t.now since)).linkSteps p
    | none => t) := rfl

end

/-- The commands of received blocks that act only on a good block of their own type. -/
theorem blockCommands (e : (Fin 12 → Data256 → Instr) × Nat)
    (he : e ∈ ([(fun p b => Instr.fill p b true false, 0x1E), (fun p b => Instr.align p 0 b, 0x2D), (Instr.pres, 0x4B), (Instr.rttReq, 0x66),
      (Instr.rttRsp, 0x67)] : List ((Fin 12 → Data256 → Instr) × Nat))) (p : Fin 12) (b : Data256) (s : State) :
    ∃ f, exec (e.1 p b) s = s.withBlock p e.2 b f := by
  simp only [List.mem_cons, List.not_mem_nil, or_false] at he
  rcases he with rfl | rfl | rfl | rfl | rfl
  · exact ⟨_, exec_fill s p b true false⟩
  · exact ⟨_, exec_align s p b 0⟩
  · exact ⟨_, exec_pres s p b⟩
  · exact ⟨_, exec_rttReq s p b⟩
  · exact ⟨_, exec_rttRsp s p b⟩

/-! ### PRES on a port that has its link (R217, R227) -/

theorem linkUp_of_st {q : Port} (h : q.st = .linked ∨ q.st = .admitted ∨ q.st = .retrain) : q.linkUp = true ∧ q.inTraining = false := by
  rcases h with h | h | h <;> simp [Port.linkUp, Port.up, Port.inTraining, h]

section
variable {s : State} {p : Fin 12} {b : Data256}

theorem presTaken_same (h : (s.ports[p]).admittedIdent = none ∨ (s.ports[p]).admittedIdent = some (rfld b 1 0 64)) :
    s.presTaken p b = s.modPort p (fun q => q.presHeard b s.now) := by
  refine if_neg ?_
  rw [port_modPort]
  rintro ⟨hsome, hne⟩
  rcases h with h | h
  · exact Bool.false_ne_true ((congrArg Option.isSome h).symm.trans hsome)
  · exact hne h

theorem presTaken_other (h : (s.ports[p]).admittedIdent.isSome = true) (hne : (s.ports[p]).admittedIdent ≠ some (rfld b 1 0 64)) :
    s.presTaken p b = (s.modPort p (fun q => (q.presHeard b s.now).dismissed)).lnkEvent p 7 := by
  refine (if_pos ?_).trans (congrArg (fun t : State => t.lnkEvent p 7) (State.modPort_modPort _ _ _ _))
  rw [port_modPort]
  exact ⟨h, hne⟩

theorem presTaken_port (s : State) (p : Fin 12) (b : Data256) : ((s.presTaken p b).ports[p]).partner = rfld b 1 0 64
    ∧ ((s.presTaken p b).ports[p]).partnerPort = rfld b 9 0 4 ∧ ((s.presTaken p b).ports[p]).partnerBeat = some (rfld b 10 0 64)
    ∧ ((s.presTaken p b).ports[p]).lastPres = s.now ∧ ((s.presTaken p b).ports[p]).st = (s.ports[p]).st := by
  by_cases h : (s.ports[p]).admittedIdent.isSome = true ∧ (s.ports[p]).admittedIdent ≠ some (rfld b 1 0 64)
  · have hp := modPort_lnkEvent_port s p (fun q => (q.presHeard b s.now).dismissed) 7
    rw [presTaken_other h.1 h.2]
    exact ⟨(congrArg Port.partner hp).trans rfl, (congrArg Port.partnerPort hp).trans rfl, (congrArg Port.partnerBeat hp).trans rfl,
      (congrArg Port.lastPres hp).trans rfl, (congrArg Port.st hp).trans rfl⟩
  · have hsame : (s.ports[p]).admittedIdent = none ∨ (s.ports[p]).admittedIdent = some (rfld b 1 0 64) := by
      rw [not_and_or, not_not, Bool.not_eq_true, Option.isSome_eq_false_iff, Option.isNone_iff_eq_none] at h
      exact h
    rw [presTaken_same hsame, port_modPort]
    exact ⟨rfl, rfl, rfl, rfl, rfl⟩

/-- Another device's PRES takes back the admission and raises its event. -/
theorem presTaken_dismisses (h : (s.ports[p]).admittedIdent.isSome = true) (hne : (s.ports[p]).admittedIdent ≠ some (rfld b 1 0 64)) :
    ((s.presTaken p b).ports[p]).admitOn = false ∧ ((s.presTaken p b).ports[p]).event.getLsbD 7 = true
      ∧ ((s.presTaken p b).ports[p]).prev = if (s.ports[p]).st = .retrain then .linked else (s.ports[p]).prev := by
  have hp := modPort_lnkEvent_port s p (fun q => (q.presHeard b s.now).dismissed) 7
  rw [presTaken_other h hne]
  exact ⟨(congrArg Port.admitOn hp).trans rfl, lnkEvent_set _ p 7 (by decide), (congrArg Port.prev hp).trans rfl⟩

end

/-! ### Each block in turn -/

section
variable {p : Fin 12} {b : Data256} {s v w : State} (hl : s.lineIn p (.ctl b) = (v, true)) (hw : w = v.tookBlocks p 1)
  (hg : s.blockGood p b (s.ports[p]).rxId = true)
include hl hw

/-- The state in which a delivered block acts differs from the one before in its port's record of the line. -/
theorem delivered_state : ∃ l, w = s.modPort p (fun q => q.took l 1) := hw ▸ lineIn_took hl 1

include hg

theorem fill_counts (above below : Bool) (ht : cbType b = 0x1E) :
    exec (.fill p b above below) s = .next (w.modPort p (fun q => q.filled above below)) := by
  rw [exec_fill, withBlock_good ht hl hg, hw]

theorem align_marks (l : Fin 4) (ht : cbType b = 0x2D) :
    exec (.align p l b) s = .next ((w.modPort p (fun q => q.aligned l b s.now)).retrainExchange p) := by
  obtain ⟨r, hr⟩ := delivered_state hl hw
  have hnow : w.now = s.now := by rw [hr]; rfl
  rw [exec_align, withBlock_good ht hl hg, ← hw, hnow]

theorem pres_taken (ht : cbType b = 0x4B) (hst : (s.ports[p]).st = .linked ∨ (s.ports[p]).st = .admitted ∨ (s.ports[p]).st = .retrain) :
    exec (.pres p b) s = .next (w.presTaken p b) := by
  obtain ⟨r, hr⟩ := delivered_state hl hw
  have hup : ¬(!(w.ports[p]).linkUp) = true := by
    rw [hr, port_modPort]
    show ¬(!(s.ports[p]).linkUp) = true
    rw [(linkUp_of_st hst).1]
    decide
  have hin : ¬((w.modPort p (fun q => q.presHeard b w.now)).ports[p]).inTraining = true := by
    rw [port_modPort, hr, port_modPort]
    show ¬(s.ports[p]).inTraining = true
    rw [(linkUp_of_st hst).2]
    decide
  rw [exec_pres, withBlock_good ht hl hg, ← hw, if_neg hup, if_neg hin]

theorem pres_down (ht : cbType b = 0x4B) (hup : (s.ports[p]).linkUp = false) : exec (.pres p b) s = .next w := by
  obtain ⟨r, hr⟩ := delivered_state hl hw
  have hdown : (!(w.ports[p]).linkUp) = true := by
    rw [hr, port_modPort]
    exact congrArg Bool.not hup
  rw [exec_pres, withBlock_good ht hl hg, ← hw, if_pos hdown]

theorem pres_linked (ht : cbType b = 0x4B) (hst : (s.ports[p]).st = .linked ∨ (s.ports[p]).st = .admitted) : ∃ u, exec (.pres p b) s = .next u
    ∧ (u.ports[p]).partner = rfld b 1 0 64 ∧ (u.ports[p]).partnerPort = rfld b 9 0 4 ∧ (u.ports[p]).partnerBeat = some (rfld b 10 0 64)
    ∧ (u.ports[p]).lastPres = s.now ∧ (u.ports[p]).st = (s.ports[p]).st
    ∧ ((s.ports[p]).admittedIdent = none ∨ (s.ports[p]).admittedIdent = some (rfld b 1 0 64) → OnlyPort p s u ∧ (u.ports[p]).admitOn = (s.ports[p]).admitOn)
    ∧ ((s.ports[p]).admittedIdent.isSome = true → (s.ports[p]).admittedIdent ≠ some (rfld b 1 0 64) → (u.ports[p]).admitOn = false
        ∧ (u.ports[p]).event.getLsbD 7 = true) := by
  refine ⟨_, pres_taken hl hw hg ht (hst.imp_right .inl), ?_⟩
  obtain ⟨r, rfl⟩ := delivered_state hl hw
  have hid : ((s.modPort p (fun q => q.took r 1)).ports[p]).admittedIdent = (s.ports[p]).admittedIdent := by rw [port_modPort]; rfl
  obtain ⟨h1, h2, h3, h4, h5⟩ := presTaken_port (s.modPort p (fun q => q.took r 1)) p b
  refine ⟨h1, h2, h3, h4, h5.trans (by rw [port_modPort]; rfl), fun h => ?_, fun h hne => ?_⟩
  · rw [← hid] at h
    rw [presTaken_same h, State.modPort_modPort, port_modPort]
    exact ⟨onlyPort_modPort _ _ _, rfl⟩
  · rw [← hid] at h hne
    obtain ⟨ha, he, -⟩ := presTaken_dismisses h hne
    exact ⟨ha, he⟩

theorem pres_retrain (ht : cbType b = 0x4B) (hst : (s.ports[p]).st = .retrain) (h : (s.ports[p]).admittedIdent.isSome = true)
    (hne : (s.ports[p]).admittedIdent ≠ some (rfld b 1 0 64)) : ∃ u, exec (.pres p b) s = .next u ∧ (u.ports[p]).admitOn = false
      ∧ (u.ports[p]).prev = .linked ∧ (u.ports[p]).st = .retrain ∧ (u.ports[p]).event.getLsbD 7 = true := by
  refine ⟨_, pres_taken hl hw hg ht (.inr (.inr hst)), ?_⟩
  obtain ⟨r, rfl⟩ := delivered_state hl hw
  have hport := port_modPort s p (fun q => q.took r 1)
  rw [← show ((s.modPort p (fun q => q.took r 1)).ports[p]).admittedIdent = (s.ports[p]).admittedIdent by rw [hport]; rfl] at h hne
  have hst' : ((s.modPort p (fun q => q.took r 1)).ports[p]).st = .retrain := by rw [hport]; exact hst
  obtain ⟨ha, he, hp⟩ := presTaken_dismisses h hne
  obtain ⟨-, -, -, -, h5⟩ := presTaken_port (s.modPort p (fun q => q.took r 1)) p b
  exact ⟨ha, hp.trans (if_pos hst'), h5.trans hst', he⟩

theorem rttReq_echoes (ht : cbType b = 0x66) : exec (.rttReq p b) s = .next (if (s.ports[p]).linkUp then
    w.modPort p (fun q => q.sendBlock 0x67 (at_ 256 0 (rfld b 1 0 16 : BitVec 16))) else w) := by
  obtain ⟨r, hr⟩ := delivered_state hl hw
  have hup : (w.ports[p]).linkUp = (s.ports[p]).linkUp := by rw [hr, port_modPort]; rfl
  rw [exec_rttReq, withBlock_good ht hl hg, ← hw, hup]
  cases (s.ports[p]).linkUp <;> rfl

theorem rttRsp_measures {t : Nat} (ht : cbType b = 0x67) (hn : (s.ports[p]).rttNum = rfld b 1 0 16) (hs : (s.ports[p]).rttSince = some t) :
    exec (.rttRsp p b) s = .next ((w.modPort p (fun q => q.rttMeasured s.now t)).linkSteps p) := by
  obtain ⟨r, hr⟩ := delivered_state hl hw
  have hnum : ¬rfld b 1 0 16 ≠ (w.ports[p]).rttNum := by
    rw [hr, port_modPort]
    exact not_not.2 hn.symm
  have hsince : (w.ports[p]).rttSince = some t := by rw [hr, port_modPort]; exact hs
  have hnow : w.now = s.now := by rw [hr]; rfl
  rw [exec_rttRsp, withBlock_good ht hl hg, ← hw, if_neg hnum, hsince, hnow]

theorem rttRsp_stale (ht : cbType b = 0x67) (hn : (s.ports[p]).rttNum ≠ rfld b 1 0 16) : exec (.rttRsp p b) s = .next w := by
  obtain ⟨r, hr⟩ := delivered_state hl hw
  have hnum : rfld b 1 0 16 ≠ (w.ports[p]).rttNum := by
    rw [hr, port_modPort]
    exact hn.symm
  rw [exec_rttRsp, withBlock_good ht hl hg, ← hw, if_pos hnum]

end

section
variable {p : Fin 12} {b : Data256} {s v : State}

theorem exec_badControlBlock (hl : s.lineIn p (.ctl b) = (v, true)) : exec (.badControlBlock p b) s =
    if (!s.blockGood p b (s.ports[p]).rxId) = true then .next ((v.tookBlocks p 1).modPort p Port.badBlock)
    else if [0x1E, 0x2D, 0x33, 0x4B, 0x55, 0x66, 0x67].contains (cbType b) = true then .next (v.tookBlocks p 1)
    else .next ((v.tookBlocks p 1).portViolation p) := by
  show execBadControlBlock p b s = _
  unfold execBadControlBlock
  dsimp only
  rw [hl]
  rfl

theorem exec_linkUp (hl : s.lineIn p (.ctl b) = (v, true)) (ht : cbType b = 0x33) (hg : s.blockGood p b (rfld b 1 0 16) = true) :
    exec (.linkUp p b) s = if ((v.tookBlocks p 1).ports[p]).step = 7 ∧ ((v.tookBlocks p 1).ports[p]).inTraining = true then
      .next (((v.tookBlocks p 1).modPort p (fun q =>
        { q with rxId := rfld b 1 0 16, partnerPort := rfld b 3 0 4, linkUpRx := true })).linkSteps p)
      else .next (v.tookBlocks p 1) := by
  show execLinkUp p b s = _
  unfold execLinkUp
  rw [if_neg (not_not.2 ht)]
  dsimp only
  rw [hl, hg]
  rfl

theorem badControlBlock_reserved (hl : s.lineIn p (.ctl b) = (v, true)) (hg : s.blockGood p b (s.ports[p]).rxId = true)
    (ht : cbType b ∉ [0x1E, 0x2D, 0x33, 0x4B, 0x55, 0x66, 0x67]) : ∃ u, exec (.badControlBlock p b) s = .next u
      ∧ (u.ports[p]).cnt.viol = satInc (s.ports[p]).cnt.viol
      ∧ ((s.ports[p]).violLog = [] → (s.ports[p]).violMax ≠ 0 → OnlyPort p s u ∧ (u.ports[p]).st = (s.ports[p]).st) := by
  have hno : ¬[0x1E, 0x2D, 0x33, 0x4B, 0x55, 0x66, 0x67].contains (cbType b) = true := fun h => ht (List.contains_iff_mem.1 h)
  refine ⟨_, (exec_badControlBlock hl).trans ((if_neg (by rw [hg]; decide)).trans (if_neg hno)), ?_⟩
  obtain ⟨r, hr⟩ := lineIn_took hl 1
  have hport := port_modPort s p (fun q => q.took r 1)
  rw [hr]
  refine ⟨(portViolation_viol _ p).trans (by rw [hport]; rfl), fun hlog hmax => ?_⟩
  rw [portViolation_kept, State.modPort_modPort, port_modPort]
  · exact ⟨onlyPort_modPort _ _ _, rfl⟩
  · rw [hport]
    show (List.filter _ (s.ports[p]).violLog).length < (s.ports[p]).violMax.toNat
    rw [hlog]
    exact Nat.pos_of_ne_zero fun e => hmax (BitVec.eq_of_toNat_eq e)

theorem linkUp_holds (hl : s.lineIn p (.ctl b) = (v, true)) (ht : cbType b = 0x33) (hg : s.blockGood p b (rfld b 1 0 16) = true)
    (hin : (s.ports[p]).inTraining = true) (h7 : (s.ports[p]).step = 7) : ∃ u, exec (.linkUp p b) s = .next (u.linkSteps p)
      ∧ u = (v.tookBlocks p 1).modPort p (fun q => { q with rxId := rfld b 1 0 16, partnerPort := rfld b 3 0 4, linkUpRx := true })
      ∧ ((s.ports[p]).linkUpTx = false → u.linkSteps p = u)
      ∧ ((s.ports[p]).linkUpTx = true → ((u.linkSteps p).ports[p]).step = 8) := by
  obtain ⟨r, hr⟩ := lineIn_took hl 1
  have hport := port_modPort s p (fun q => q.took r 1)
  have hgo : ((v.tookBlocks p 1).ports[p]).step = 7 ∧ ((v.tookBlocks p 1).ports[p]).inTraining = true := by
    rw [hr, hport]
    exact ⟨h7, hin⟩
  refine ⟨_, (exec_linkUp hl ht hg).trans (if_pos hgo), rfl, fun htx => ?_, fun htx => ?_⟩
  · refine linkSteps_waits (fun _ k => ?_) fun k => ?_
    · rw [port_modPort, hr, hport] at k
      exact absurd (htx.symm.trans k) Bool.false_ne_true
    · rw [port_modPort, hr, hport] at k
      exact absurd (h7.symm.trans k) (by decide)
  · refine (linkSteps_exchanges_port ?_ ?_ ?_).1 <;> rw [port_modPort]
    · exact hgo.1
    · rw [hr, hport]
      exact htx

end

/-! ### Presence and codewords of a port (R209, R230, R231) -/

theorem retrainExchange_waits {s : State} {p : Fin 12} (h : (s.ports[p]).st ≠ .retrain ∨ (s.ports[p]).lined = false
    ∨ (s.ports[p]).rttSince.isSome = true ∨ (s.ports[p]).rttOk = true) : s.retrainExchange p = s := by
  refine if_neg ?_
  rintro ⟨hst, hl, hs, hr⟩
  rcases h with h | h | h | h
  · exact h hst
  · exact Bool.false_ne_true (h.symm.trans hl)
  · exact Bool.false_ne_true ((congrArg Option.isSome hs).symm.trans h)
  · exact Bool.false_ne_true (hr.symm.trans h)

theorem presTimeout_due {p : Fin 12} {s : State} (hup : (s.ports[p]).up = true)
    (hd : (s.ports[p]).lastPres + 4 * (s.ports[p]).presPeriod.toNat ≤ s.now) : ∃ u, exec (.presTimeout p) s = .next u
      ∧ Raised (s.modPort p (fun _ => u.ports[p])) u ∧ (u.ports[p]).st = .down ∧ (u.ports[p]).authDone = false ∧ (u.ports[p]).rxKey = 0
      ∧ (u.ports[p]).event.getLsbD 0 = true := by
  have hp := portDown_port s p
  exact ⟨_, if_pos ⟨hup, hd⟩, (portDown_frame s p).of_modPort, (congrArg Port.st hp).trans rfl, (congrArg Port.authDone hp).trans rfl,
    (congrArg Port.rxKey hp).trans rfl, portDown_event s p⟩

theorem uncorrectableCodeword_lost {p : Fin 12} (k : Nat) {s : State} (hlog : (s.ports[p]).errLog = []) (hmax : (s.ports[p]).errMax ≠ 0) :
    ∃ u, exec (.uncorrectableCodeword p k true) s = .next u
      ∧ OnlyPort p s u ∧ (u.ports[p]).cnt.fecUncorr = satInc (s.ports[p]).cnt.fecUncorr ∧ (u.ports[p]).errLog = [s.now]
      ∧ (u.ports[p]).badLeft = 20 ∧ (u.ports[p]).st = (s.ports[p]).st := by
  refine ⟨_, rfl, ?_⟩
  rw [if_pos rfl, State.modPort_modPort, portError_kept, State.modPort_modPort, port_modPort]
  · exact ⟨onlyPort_modPort _ _ _, rfl, congrArg (fun l => s.now :: List.filter _ l) hlog, rfl, rfl⟩
  · rw [port_modPort]
    show (List.filter _ (s.ports[p]).errLog).length < (s.ports[p]).errMax.toNat
    rw [hlog]
    exact Nat.pos_of_ne_zero fun e => hmax (BitVec.eq_of_toNat_eq e)

/-- Settles O34: each block by the verdict of its check and its type, and presence by its times. -/
theorem controlBlocksAndPresence : Obligations.ControlBlocksAndPresence := by
  unfold Obligations.ControlBlocksAndPresence
  refine ⟨⟨fun p x s => lineIn_open x, blockGood_iff, fun e he p b s v on hl => ?_, fun p b s v w hl hw hg => ?_, fun s p => ⟨fun hst hln hs hr => ?_, retrainExchange_waits⟩,
      fun p b s v hl hg => ?_, fun p b s v hl ht hg => linkUp_holds hl ht hg⟩,
    fun ty body id hty hb => ⟨mkBlock_good hty hb id, mkBlock_type hty id, fun x hx => mkBlock_flipped hty hb id hx⟩,
    fun p s h => ⟨fun hd => if_pos ⟨h, hd⟩, fun hd => if_neg fun k => Nat.not_le.2 hd k.2⟩,
    fun p s hup => ⟨presTimeout_due hup, fun hd => if_neg fun k => Nat.not_le.2 hd k.2⟩, fun p k s => rfl, fun p k s => uncorrectableCodeword_lost k⟩
  · obtain ⟨f, hf⟩ := blockCommands e he p b s
    rw [hf]
    refine ⟨fun ht hon hg => ?_, fun ht hon => ?_, withBlock_other⟩
    · exact withBlock_bad ht (hon ▸ hl) hg
    · exact withBlock_undelivered ht (hon ▸ hl)
  · refine ⟨fill_counts hl hw hg, align_marks hl hw hg, pres_linked hl hw hg, pres_retrain hl hw hg, pres_down hl hw hg,
      rttReq_echoes hl hw hg, fun t ht hn hs => ⟨_, rttRsp_measures hl hw hg ht hn hs, rfl, fun h7 h8 => ?_⟩, rttRsp_stale hl hw hg,
      badControlBlock_reserved hl hg⟩
    obtain ⟨r, rfl⟩ := delivered_state hl hw
    have hstep : (((s.modPort p (fun q => q.took r 1)).modPort p (fun q => q.rttMeasured s.now t)).ports[p]).step = (s.ports[p]).step := by
      rw [port_modPort, port_modPort]
      rfl
    exact linkSteps_waits (fun k => absurd (hstep.symm.trans k) h7) fun k => absurd (hstep.symm.trans k) h8
  · exact if_pos ⟨hst, hln, hs, hr⟩
  · exact (exec_badControlBlock hl).trans (if_pos (by rw [hg]; decide))

end Sys2Proof.Machine
end

section
/-! Proofs of the statement about flits that leave: the slot's choice, sequence numbers, credits and the replay buffer. -/

namespace Sys2Proof.Machine

/-! ### The sequence number of a flit (R219, R222) -/

theorem flSeq_putFld_apart (f : Data2048) (lo : Nat) {m : Nat} (v : BitVec m) (h : 40 ≤ lo) : flSeq (putFld f lo v) = flSeq f :=
  extractLsb'_putFld_apart f lo v 28 12 (by decide) (.inl h)

theorem flSeq_numbered (f : Data2048) (n : BitVec 12) : flSeq (putFld f 28 n) = n := extractLsb'_putFld_same f 28 n (by decide)

theorem seal_frame (p : Port) (f : Data2048) : (p.seal f).1 = { p with txIv := p.txIv + 1 } ∧ flSeq (p.seal f).2 = flSeq f := by
  refine ⟨rfl, (flSeq_putFld_apart _ 64 _ (by decide)).trans ?_⟩
  have henc : (BitVec.twoPow 2048 60).extractLsb' 28 12 = 0#12 := by
    apply BitVec.eq_of_getLsbD_eq
    intro i hi
    rw [BitVec.getLsbD_extractLsb', BitVec.getLsbD_twoPow, decide_eq_false (show ¬60 = 28 + i by omega), Bool.and_false, Bool.and_false,
      BitVec.getLsbD_zero]
  show (f ||| BitVec.twoPow 2048 60).extractLsb' 28 12 = f.extractLsb' 28 12
  rw [BitVec.extractLsb'_or, henc, BitVec.or_zero]

/-! ### A flit leaves (R219 to R224) -/

/-- Of a port, a departing flit changes the record of the line, what is acknowledged and owed, and the slots counted. -/
def Departed (p q : Port) : Prop :=
  q = { p with
    sent := q.sent, txBlocks := q.txBlocks, loopq := q.loopq, lineTail := q.lineTail, lineNo := q.lineNo, line := q.line
    owed := q.owed, ackDue := false, nackDue := false, nackSince := q.nackSince, cnt := { p.cnt with nackTx := q.cnt.nackTx }
    sinceFlit := 0, sinceFill := p.sinceFill + 1, sinceVc2 := q.sinceVc2 }

theorem depart_departed (p : Port) (now : Nat) (f : Data2048) : Departed p (p.depart now f) := by
  unfold Departed Port.depart
  dsimp only
  rw [send_lineOnly]
  cases p.nackDue <;> rfl

/-- On a line without a loop the flit is the last on the line, with its number. -/
theorem depart_sent {p : Port} (now : Nat) (f : Data2048) (h : p.loop = 0) :
    ∃ g, (p.depart now f).sent.getLast? = some (.flit g) ∧ flSeq g = flSeq f :=
  ⟨_, send_sent _ h, (flSeq_putFld_apart _ 2016 _ (by decide)).trans (flSeq_putFld_apart _ 1984 _ (by decide))⟩

/-- The port that has taken a number and a credit for a new flit, and keeps it for replay. -/
def Port.numbered (p : Port) (iv : DWord) (f g : Data2048) : Port :=
  { p with txIv := iv, txSeq := p.txSeq + 1, replayBuf := p.replayBuf ++ [g], credits := vmod p.credits (Fin.ofNat 4 (flVc f)) (· - 1)
           cnt := { p.cnt with txFlits := satInc p.cnt.txFlits } }

theorem transmit_eq (p : Port) (now : Nat) (beat : DWord) (own : Bool) (f : Data2048) : ∃ (iv : DWord) (g : Data2048),
    flSeq g = p.txSeq ∧ p.transmit now beat own f = (p.numbered iv f g).depart now g := by
  unfold Port.transmit
  extract_lets f1 f2 x src cnt r
  have hseq : flSeq f2 = p.txSeq := by
    have h1 : flSeq f1 = p.txSeq := flSeq_numbered f p.txSeq
    unfold f2
    split
    · exact (flSeq_putFld_apart f1 40 _ (le_refl _)).trans h1
    · exact h1
  refine ⟨x.1.txIv, x.2, ?_, congrArg (fun q : Port => q.depart now x.2) ?_⟩
  · unfold x
    split
    · exact (seal_frame p f2).2.trans hseq
    · exact hseq
  · have hx : x.1 = { p with txIv := x.1.txIv } := by
      unfold x
      split <;> rfl
    unfold r src cnt
    rw [hx]
    rfl

/-- What a new flit leaves of its port. -/
theorem transmit_leaves (p : Port) (now : Nat) (beat : DWord) (own : Bool) (f : Data2048) :
    (p.transmit now beat own f).txq = p.txq ∧ (p.transmit now beat own f).txBytes = p.txBytes
      ∧ (p.transmit now beat own f).txSeq = p.txSeq + 1 ∧ (p.transmit now beat own f).replayBuf.length = p.replayBuf.length + 1
      ∧ (p.transmit now beat own f).credits = vmod p.credits (Fin.ofNat 4 (flVc f)) (· - 1)
      ∧ (p.transmit now beat own f).cnt.txFlits = satInc p.cnt.txFlits ∧ (p.transmit now beat own f).nackDue = false
      ∧ (p.loop = 0 → ∃ h, (p.transmit now beat own f).sent.getLast? = some (.flit h) ∧ flSeq h = p.txSeq) := by
  obtain ⟨iv, g, hg, ht⟩ := transmit_eq p now beat own f
  have hd := depart_departed (p.numbered iv f g) now g
  rw [ht]
  refine ⟨(congrArg Port.txq hd).trans rfl, (congrArg Port.txBytes hd).trans rfl, (congrArg Port.txSeq hd).trans rfl, ?_,
    (congrArg Port.credits hd).trans rfl, (congrArg (fun q : Port => q.cnt.txFlits) hd).trans rfl, (congrArg Port.nackDue hd).trans rfl, fun h => ?_⟩
  · exact (congrArg (fun q : Port => q.replayBuf.length) hd).trans List.length_append
  · obtain ⟨k, hk, hs⟩ := depart_sent (p := p.numbered iv f g) now g h
    exact ⟨k, hk, hs.trans hg⟩

/-! ### The choice of a slot (R210, R221) -/

/-- A flit of a virtual channel waits and may go. -/
def Port.readyVc (p : Port) (vc : Fin 4) : Bool := p.mayNew vc && (p.waitingFlit vc.val).isSome

/-- The choice after VC 3, a VC 2 flit that waited long and VC 0. -/
def Port.lateSlot (p : Port) : Slot :=
  match (if p.carries = true ∧ p.mayNew 0 = true then p.schedEp else none) with
  | some e => .sched e
  | none =>
    if p.readyVc 2 = true then .queued 2
    else if p.readyVc 1 = true then .queued 1
    else if p.ackDue = true ∨ p.nackDue = true ∨ p.owedVc.isSome = true ∨ 64 ≤ p.sinceFlit then .null
    else .fill

theorem chooseSlot_eq (p : Port) : p.chooseSlot =
    if 256 ≤ p.sinceFill then .fill
    else if (!p.resend.isEmpty) = true then .replay
    else if p.readyVc 3 = true then .queued 3
    else if p.readyVc 2 = true ∧ 63 ≤ p.sinceVc2 then .queued 2
    else if p.readyVc 0 = true then .queued 0
    else p.lateSlot := rfl

theorem lateSlot_sched {p : Port} {e : Fin 8} (hc : p.carries = true) (hm : p.mayNew 0 = true) (he : p.schedEp = some e) : p.lateSlot = .sched e := by
  unfold Port.lateSlot
  rw [if_pos ⟨hc, hm⟩, he]

theorem lateSlot_rest {p : Port} (h : p.carries = false ∨ p.mayNew 0 = false ∨ p.schedEp = none) : p.lateSlot =
    if p.readyVc 2 = true then .queued 2
    else if p.readyVc 1 = true then .queued 1
    else if p.ackDue = true ∨ p.nackDue = true ∨ p.owedVc.isSome = true ∨ 64 ≤ p.sinceFlit then .null
    else .fill := by
  have hnone : (if p.carries = true ∧ p.mayNew 0 = true then p.schedEp else none) = none := by
    rcases h with h | h | h
    · rw [h, if_neg (fun k => Bool.false_ne_true k.1)]
    · rw [h, if_neg (fun k => Bool.false_ne_true k.2)]
    · rw [h, ite_self]
  unfold Port.lateSlot
  rw [hnone]

theorem lateSlot_cases (p : Port) : (∃ e, p.lateSlot = .sched e ∧ p.mayNew 0 = true ∧ p.carries = true)
    ∨ (∃ vc, p.lateSlot = .queued vc ∧ p.readyVc vc = true) ∨ p.lateSlot = .null ∨ p.lateSlot = .fill := by
  by_cases h : p.carries = false ∨ p.mayNew 0 = false ∨ p.schedEp = none
  · rw [lateSlot_rest h]
    split
    next h2 => exact .inr (.inl ⟨2, rfl, h2⟩)
    split
    next h1 => exact .inr (.inl ⟨1, rfl, h1⟩)
    split
    · exact .inr (.inr (.inl rfl))
    · exact .inr (.inr (.inr rfl))
  · rw [not_or, not_or, Bool.not_eq_false, Bool.not_eq_false] at h
    obtain ⟨hc, hm, he⟩ := h
    obtain ⟨e, he⟩ := Option.ne_none_iff_exists'.1 he
    exact .inl ⟨e, lateSlot_sched hc hm he, hm, hc⟩

/-- A flit that is chosen is one that may go. -/
theorem chooseSlot_cases (p : Port) : (∃ e, p.chooseSlot = .sched e ∧ p.mayNew 0 = true ∧ p.carries = true)
    ∨ (∃ vc, p.chooseSlot = .queued vc ∧ p.readyVc vc = true) ∨ p.chooseSlot = .null ∨ p.chooseSlot = .fill ∨ p.chooseSlot = .replay := by
  rw [chooseSlot_eq]
  split
  · exact .inr (.inr (.inr (.inl rfl)))
  split
  · exact .inr (.inr (.inr (.inr rfl)))
  split
  next h3 => exact .inr (.inl ⟨3, rfl, h3⟩)
  split
  next h2 => exact .inr (.inl ⟨2, rfl, h2.1⟩)
  split
  next h0 => exact .inr (.inl ⟨0, rfl, h0⟩)
  exact (lateSlot_cases p).imp_right (Or.imp_right (Or.imp_right .inl))

theorem chooseSlot_queued {p : Port} {vc : Fin 4} (h : p.chooseSlot = .queued vc) : p.readyVc vc = true := by
  rcases chooseSlot_cases p with ⟨e, k, -⟩ | ⟨v, k, hv⟩ | k | k | k <;> rw [h] at k <;> cases k
  exact hv

theorem chooseSlot_sched {p : Port} {e : Fin 8} (h : p.chooseSlot = .sched e) : p.mayNew 0 = true ∧ p.carries = true := by
  rcases chooseSlot_cases p with ⟨e, k, hm⟩ | ⟨v, k, -⟩ | k | k | k <;> rw [h] at k <;> cases k
  exact hm

section
variable {p : Port} (hf : p.sinceFill < 256) (hr : p.resend = [])
include hf hr

theorem chooseSlot_open : p.chooseSlot =
    if p.readyVc 3 = true then .queued 3
    else if p.readyVc 2 = true ∧ 63 ≤ p.sinceVc2 then .queued 2
    else if p.readyVc 0 = true then .queued 0
    else p.lateSlot := by
  rw [chooseSlot_eq, if_neg (Nat.not_le.2 hf), if_neg (by rw [hr]; decide)]

/-- The order of a slot that has nothing to send again. -/
theorem chooseSlot_order :
    (p.readyVc 3 = true → p.chooseSlot = .queued 3) ∧
    (p.readyVc 3 = false → p.readyVc 2 = true → 63 ≤ p.sinceVc2 → p.chooseSlot = .queued 2) ∧
    (p.readyVc 3 = false → (p.readyVc 2 = false ∨ p.sinceVc2 < 63) →
      (p.readyVc 0 = true → p.chooseSlot = .queued 0) ∧
      (∀ e, p.readyVc 0 = false → p.carries = true → p.mayNew 0 = true → p.schedEp = some e → p.chooseSlot = .sched e) ∧
      (p.readyVc 0 = false → (p.carries = false ∨ p.mayNew 0 = false ∨ p.schedEp = none) →
        (p.readyVc 2 = true → p.chooseSlot = .queued 2) ∧ (p.readyVc 2 = false → p.readyVc 1 = true → p.chooseSlot = .queued 1) ∧
        (p.readyVc 2 = false → p.readyVc 1 = false → p.chooseSlot = .null ∨ p.chooseSlot = .fill))) := by
  have hopen := chooseSlot_open hf hr
  refine ⟨fun h3 => hopen.trans (if_pos h3), fun h3 h2 hw => ?_, fun h3 h2 => ?_⟩
  · exact hopen.trans ((if_neg (by rw [h3]; decide)).trans (if_pos ⟨h2, hw⟩))
  · have h2' : ¬(p.readyVc 2 = true ∧ 63 ≤ p.sinceVc2) := fun ⟨k, hk⟩ =>
      h2.elim (fun e => Bool.false_ne_true (e.symm.trans k)) (fun e => Nat.not_le.2 e hk)
    rw [if_neg (by rw [h3]; decide), if_neg h2'] at hopen
    refine ⟨fun h0 => hopen.trans (if_pos h0), fun e h0 hc hm he => ?_, fun h0 hn => ?_⟩
    · exact hopen.trans ((if_neg (by rw [h0]; decide)).trans (lateSlot_sched hc hm he))
    · rw [if_neg (by rw [h0]; decide), lateSlot_rest hn] at hopen
      refine ⟨fun k2 => hopen.trans (if_pos k2), fun k2 k1 => ?_, fun k2 k1 => ?_⟩
      · exact hopen.trans ((if_neg (by rw [k2]; decide)).trans (if_pos k1))
      · rw [if_neg (by rw [k2]; decide), if_neg (by rw [k1]; decide)] at hopen
        rw [hopen]
        split
        · exact .inl rfl
        · exact .inr rfl

end

/-! ### The flit slot of a port with its link (R210, R220 to R224) -/

/-- The port at its slot: the words that wait at its endpoints have joined their flits' bytes. -/
def Port.atSlot (p : Port) (now : Nat) : Port := ((List.finRange 8).foldl (fun (q : Port) e => q.absorb e) p).watchCredits now

theorem up_st {p : Port} (h : p.up = true) : p.st = .linked ∨ p.st = .admitted ∨ p.st = .degraded := by
  simpa [Port.up, or_assoc] using h

theorem up_branches {p : Port} (h : p.up = true) : ¬p.prbsOn = true ∧ ¬p.framing = true ∧ ¬p.fillOnly = true ∧ ¬(!p.up) = true := by
  rcases up_st h with k | k | k <;> simp [Port.prbsOn, Port.framing, Port.fillOnly, Port.inTraining, Port.up, k]

/-- A flit of the port's own queue, or of another port, that leaves. -/
def Port.flitOut (q : Port) (now : Nat) (beat : DWord) (ctx : Option Byte) (e : Option (Fin 12) × Data2048) : Port :=
  (({ q with txq := q.txq.erase e } : Port).noteCtx ctx).transmit now beat e.1.isNone e.2

/-- A SCHED flit of an endpoint that leaves. -/
def Port.schedOut (q : Port) (now : Nat) (beat : DWord) (ctx : Option Byte) (e : Fin 8) (f : Data2048) : Port :=
  (({ q with txBytes := vmod q.txBytes e (·.drop (if q.encrypting then 224 else 240)) } : Port).noteCtx ctx).transmit now beat true f

/-- A flit that leaves again takes a credit. -/
def Port.flitAgain (q : Port) (now : Nat) (f : Data2048) (rest : List Data2048) : Port :=
  ({ q with resend := rest, credits := vmod q.credits (Fin.ofNat 4 (flVc f)) (· - 1) } : Port).depart now f

/-- What leaves in a slot of a port that carries flits. -/
def State.slotOut (s : State) (p : Fin 12) (q : Port) : Slot → State
  | .replay => s.modPort p (fun _ => match q.resend with
    | [] => q
    | f :: rest => q.flitAgain s.now f rest)
  | .queued vc => match q.waitingFlit vc.val with
    | none => s.modPort p (fun _ => q)
    | some (none, f) => s.modPort p (fun _ => q.flitOut s.now s.glb.beatCnt (s.flitCtx p f) (none, f))
    | some (some a, f) => (s.modPort p (fun _ => q.flitOut s.now s.glb.beatCnt none (some a, f))).modPort a (fun r => r.release vc)
  | .sched e => s.draw.2.modPort p (fun _ => q.schedOut s.now s.glb.beatCnt
      (s.flitCtx p (q.schedFlit s.fab.id (fld s.draw.1 0 10) e)) e (q.schedFlit s.fab.id (fld s.draw.1 0 10) e))
  | .null => s.modPort p (fun _ => q.depart s.now (at_ 2048 28 q.txSeq))
  | .fill => s.modPort p (fun _ => q.fill)

theorem exec_flitTransmit_up {p : Fin 12} {s : State} (hup : (s.ports[p]).up = true) : exec (.flitTransmit p) s =
    .next ((s.slotOut p ((s.ports[p]).atSlot s.now) ((s.ports[p]).atSlot s.now).chooseSlot).modPort p (fun q => q.watchCredits s.now)) := by
  obtain ⟨h1, h2, h3, h4⟩ := up_branches hup
  show execFlitTransmit p s = _
  unfold execFlitTransmit
  dsimp only
  rw [if_neg h1, if_neg h2, if_neg h3, if_neg h4, ← Port.atSlot]
  have hmod (f : Port → Port) : (s.modPort p (fun _ => (s.ports[p]).atSlot s.now)).modPort p f
      = s.modPort p (fun _ => f ((s.ports[p]).atSlot s.now)) := State.modPort_modPort _ _ _ _
  cases ((s.ports[p]).atSlot s.now).chooseSlot with
  | replay =>
    unfold State.slotOut
    dsimp only
    cases hr : ((s.ports[p]).atSlot s.now).resend with
    | nil => rfl
    | cons f rest => exact congrArg (fun t : State => Host.Outcome.next (t.modPort p (fun q => q.watchCredits s.now))) (hmod _)
  | queued vc =>
    unfold State.slotOut
    dsimp only
    rcases hw : ((s.ports[p]).atSlot s.now).waitingFlit vc.val with _ | ⟨_ | a, f⟩
    · rfl
    · exact congrArg (fun t : State => Host.Outcome.next (t.modPort p (fun q => q.watchCredits s.now))) (hmod _)
    · exact congrArg (fun t : State => Host.Outcome.next ((t.modPort a (fun r => r.release vc)).modPort p (fun q => q.watchCredits s.now))) (hmod _)
  | sched e =>
    exact congrArg (fun t : State => Host.Outcome.next (t.modPort p (fun q => q.watchCredits s.now)))
      (State.modPort_modPort s.draw.2 p (fun _ => (s.ports[p]).atSlot s.now) _)
  | null => exact congrArg (fun t : State => Host.Outcome.next (t.modPort p (fun q => q.watchCredits s.now))) (hmod _)
  | fill => exact congrArg (fun t : State => Host.Outcome.next (t.modPort p (fun q => q.watchCredits s.now))) (hmod _)

/-! ### What the rest of the slot leaves of the port -/

section
variable (p : Port) (now : Nat)

@[simp] theorem watchCredits_txq : (p.watchCredits now).txq = p.txq := rfl
@[simp] theorem watchCredits_txBytes : (p.watchCredits now).txBytes = p.txBytes := rfl
@[simp] theorem watchCredits_txSeq : (p.watchCredits now).txSeq = p.txSeq := rfl
@[simp] theorem watchCredits_resend : (p.watchCredits now).resend = p.resend := rfl
@[simp] theorem watchCredits_replayBuf : (p.watchCredits now).replayBuf = p.replayBuf := rfl
@[simp] theorem watchCredits_credits : (p.watchCredits now).credits = p.credits := rfl
@[simp] theorem watchCredits_cnt : (p.watchCredits now).cnt = p.cnt := rfl
@[simp] theorem watchCredits_ackDue : (p.watchCredits now).ackDue = p.ackDue := rfl
@[simp] theorem watchCredits_nackDue : (p.watchCredits now).nackDue = p.nackDue := rfl
@[simp] theorem watchCredits_sent : (p.watchCredits now).sent = p.sent := rfl

end

/-- What a flit sent again leaves of its port. -/
theorem flitAgain_leaves (q : Port) (now : Nat) (f : Data2048) (rest : List Data2048) :
    (q.flitAgain now f rest).resend = rest ∧ (q.flitAgain now f rest).txSeq = q.txSeq ∧ (q.flitAgain now f rest).replayBuf = q.replayBuf
      ∧ (q.flitAgain now f rest).credits = vmod q.credits (Fin.ofNat 4 (flVc f)) (· - 1)
      ∧ (q.loop = 0 → ∃ h, (q.flitAgain now f rest).sent.getLast? = some (.flit h) ∧ flSeq h = flSeq f) := by
  unfold Port.flitAgain
  generalize hr : ({ q with resend := rest, credits := vmod q.credits (Fin.ofNat 4 (flVc f)) (· - 1) } : Port) = r
  have hd := depart_departed r now f
  refine ⟨(congrArg Port.resend hd).trans ?_, (congrArg Port.txSeq hd).trans ?_, (congrArg Port.replayBuf hd).trans ?_,
    (congrArg Port.credits hd).trans ?_, fun h => depart_sent now f ?_⟩
  · exact (congrArg Port.resend hr).symm
  · exact (congrArg Port.txSeq hr).symm
  · exact (congrArg Port.replayBuf hr).symm
  · exact (congrArg Port.credits hr).symm
  · exact (congrArg Port.loop hr).symm.trans h

/-- What a new flit of the queue leaves of its port. -/
theorem flitOut_leaves (q : Port) (now : Nat) (beat : DWord) (ctx : Option Byte) (e : Option (Fin 12) × Data2048) :
    (q.flitOut now beat ctx e).txq = q.txq.erase e ∧ (q.flitOut now beat ctx e).txSeq = q.txSeq + 1
      ∧ (q.flitOut now beat ctx e).replayBuf.length = q.replayBuf.length + 1
      ∧ (q.flitOut now beat ctx e).credits = vmod q.credits (Fin.ofNat 4 (flVc e.2)) (· - 1)
      ∧ (q.flitOut now beat ctx e).cnt.txFlits = satInc q.cnt.txFlits ∧ (q.flitOut now beat ctx e).nackDue = false
      ∧ (q.loop = 0 → ∃ h, (q.flitOut now beat ctx e).sent.getLast? = some (.flit h) ∧ flSeq h = q.txSeq) := by
  obtain ⟨htxq, -, hseq, hbuf, hcred, hcnt, hnack, hsent⟩ :=
    transmit_leaves (({ q with txq := q.txq.erase e } : Port).noteCtx ctx) now beat e.1.isNone e.2
  exact ⟨htxq, hseq, hbuf, hcred, hcnt, hnack, hsent⟩

/-- What a SCHED flit leaves of its port. -/
theorem schedOut_leaves (q : Port) (now : Nat) (beat : DWord) (ctx : Option Byte) (e : Fin 8) (f : Data2048) :
    (q.schedOut now beat ctx e f).txBytes = vmod q.txBytes e (·.drop (if q.encrypting then 224 else 240))
      ∧ (q.schedOut now beat ctx e f).txSeq = q.txSeq + 1 ∧ (q.schedOut now beat ctx e f).replayBuf.length = q.replayBuf.length + 1 := by
  obtain ⟨-, hbytes, hseq, hbuf, -⟩ := transmit_leaves
    (({ q with txBytes := vmod q.txBytes e (·.drop (if q.encrypting then 224 else 240)) } : Port).noteCtx ctx) now beat true f
  exact ⟨hbytes, hseq, hbuf⟩

/-- The first flit that waits in a virtual channel is one of it. -/
theorem waitingFlit_vc {q : Port} {vc : Fin 4} {e : Option (Fin 12) × Data2048} (h : q.waitingFlit vc.val = some e) :
    Fin.ofNat 4 (flVc e.2) = vc := by
  have hm := List.find?_some h
  rw [Bool.and_eq_true, beq_iff_eq] at hm
  rw [hm.1]
  exact Fin.ext (Nat.mod_eq_of_lt vc.isLt)

section
variable {p : Fin 12} {s : State} {q : Port} (hup : (s.ports[p]).up = true) (hq : q = (s.ports[p]).atSlot s.now)
include hup hq

/-- A slot that changes its port alone. -/
theorem flitTransmit_only {sl : Slot} {r : Port} (hs : q.chooseSlot = sl) (ho : s.slotOut p q sl = s.modPort p (fun _ => r)) :
    exec (.flitTransmit p) s = .next (s.modPort p (fun _ => r.watchCredits s.now)) := by
  rw [exec_flitTransmit_up hup, ← hq, hs, ho, State.modPort_modPort]

theorem flitTransmit_replays {f : Data2048} {rest : List Data2048} (hs : q.chooseSlot = .replay) (hr : q.resend = f :: rest) :
    ∃ u, exec (.flitTransmit p) s = .next u ∧ OnlyPort p s u
      ∧ (u.ports[p]).resend = rest ∧ (u.ports[p]).txSeq = q.txSeq ∧ (u.ports[p]).replayBuf = q.replayBuf
      ∧ (u.ports[p]).credits = vmod q.credits (Fin.ofNat 4 (flVc f)) (· - 1)
      ∧ (q.loop = 0 → ∃ h, (u.ports[p]).sent.getLast? = some (.flit h) ∧ flSeq h = flSeq f) := by
  have ho : s.slotOut p q .replay = s.modPort p (fun _ => q.flitAgain s.now f rest) := by
    unfold State.slotOut
    rw [hr]
  refine ⟨_, flitTransmit_only hup hq hs ho, onlyPort_modPort _ _ _, ?_⟩
  rw [port_modPort, watchCredits_resend, watchCredits_txSeq, watchCredits_replayBuf, watchCredits_credits, watchCredits_sent]
  exact flitAgain_leaves q s.now f rest

theorem flitTransmit_own {vc : Fin 4} {f : Data2048} (hs : q.chooseSlot = .queued vc) (hw : q.waitingFlit vc.val = some (none, f)) :
    ∃ u, exec (.flitTransmit p) s = .next u ∧ OnlyPort p s u
      ∧ (u.ports[p]).txq = q.txq.erase (none, f) ∧ (u.ports[p]).txSeq = q.txSeq + 1 ∧ (u.ports[p]).replayBuf.length = q.replayBuf.length + 1
      ∧ (u.ports[p]).credits[vc] = q.credits[vc] - 1 ∧ (u.ports[p]).cnt.txFlits = satInc q.cnt.txFlits ∧ (u.ports[p]).nackDue = false
      ∧ (q.loop = 0 → ∃ h, (u.ports[p]).sent.getLast? = some (.flit h) ∧ flSeq h = q.txSeq) := by
  have ho : s.slotOut p q (.queued vc) = s.modPort p (fun _ => q.flitOut s.now s.glb.beatCnt (s.flitCtx p f) (none, f)) := by
    unfold State.slotOut
    dsimp only
    rw [hw]
  obtain ⟨htxq, hseq, hbuf, hcred, hcnt, hnack, hsent⟩ := flitOut_leaves q s.now s.glb.beatCnt (s.flitCtx p f) (none, f)
  refine ⟨_, flitTransmit_only hup hq hs ho, onlyPort_modPort _ _ _, ?_⟩
  rw [port_modPort, watchCredits_txq, watchCredits_txSeq, watchCredits_replayBuf, watchCredits_credits, watchCredits_cnt, watchCredits_nackDue,
    watchCredits_sent, hcred, waitingFlit_vc hw, vmod_get_same]
  exact ⟨htxq, hseq, hbuf, rfl, hcnt, hnack, hsent⟩

theorem flitTransmit_forwarded {vc : Fin 4} {a : Fin 12} {f : Data2048} (hs : q.chooseSlot = .queued vc)
    (hw : q.waitingFlit vc.val = some (some a, f)) (ha : a ≠ p) :
    ∃ u, exec (.flitTransmit p) s = .next u ∧ (u.ports[p]).txSeq = q.txSeq + 1 ∧ (u.ports[p]).replayBuf.length = q.replayBuf.length + 1
      ∧ u.ports[a] = (s.ports[a]).release vc ∧ ∀ b : Fin 12, b ≠ p → b ≠ a → u.ports[b] = s.ports[b] := by
  have ho : s.slotOut p q (.queued vc) = (s.modPort p (fun _ => q.flitOut s.now s.glb.beatCnt none (some a, f))).modPort a (fun r => r.release vc) := by
    unfold State.slotOut
    dsimp only
    rw [hw]
  obtain ⟨-, hseq, hbuf, -⟩ := flitOut_leaves q s.now s.glb.beatCnt none (some a, f)
  refine ⟨_, (exec_flitTransmit_up hup).trans (by rw [← hq, hs, ho]), ?_⟩
  rw [port_modPort, watchCredits_txSeq, watchCredits_replayBuf, port_modPort_ne _ _ ha.symm, port_modPort, port_modPort_ne _ _ ha, port_modPort,
    port_modPort_ne _ _ ha]
  refine ⟨hseq, hbuf, rfl, fun b hb hba => ?_⟩
  rw [port_modPort_ne _ _ hb, port_modPort_ne _ _ hba, port_modPort_ne _ _ hb]

theorem flitTransmit_sched {e : Fin 8} (hs : q.chooseSlot = .sched e) : ∃ u, exec (.flitTransmit p) s = .next u ∧ u.free = s.free + 1
    ∧ (u.ports[p]).txBytes[e] = (q.txBytes[e]).drop (if q.encrypting then 224 else 240) ∧ (u.ports[p]).txSeq = q.txSeq + 1
    ∧ (u.ports[p]).replayBuf.length = q.replayBuf.length + 1 ∧ ∀ b : Fin 12, b ≠ p → u.ports[b] = s.ports[b] := by
  obtain ⟨hbytes, hseq, hbuf⟩ := schedOut_leaves q s.now s.glb.beatCnt (s.flitCtx p (q.schedFlit s.fab.id (fld s.draw.1 0 10) e)) e
    (q.schedFlit s.fab.id (fld s.draw.1 0 10) e)
  refine ⟨_, (exec_flitTransmit_up hup).trans (by rw [← hq, hs]), rfl, ?_⟩
  rw [State.slotOut, State.modPort_modPort, port_modPort, watchCredits_txBytes, watchCredits_txSeq, watchCredits_replayBuf, hbytes, vmod_get_same]
  exact ⟨rfl, hseq, hbuf, fun b hb => port_modPort_ne _ _ hb⟩

theorem flitTransmit_null (hs : q.chooseSlot = .null) : ∃ u, exec (.flitTransmit p) s = .next u ∧ OnlyPort p s u ∧ (u.ports[p]).txSeq = q.txSeq
    ∧ (u.ports[p]).replayBuf = q.replayBuf ∧ (u.ports[p]).credits = q.credits ∧ (u.ports[p]).ackDue = false := by
  have hd := depart_departed q s.now (at_ 2048 28 q.txSeq)
  refine ⟨_, flitTransmit_only hup hq hs rfl, onlyPort_modPort _ _ _, ?_⟩
  rw [port_modPort, watchCredits_txSeq, watchCredits_replayBuf, watchCredits_credits, watchCredits_ackDue]
  exact ⟨(congrArg Port.txSeq hd).trans rfl, (congrArg Port.replayBuf hd).trans rfl, (congrArg Port.credits hd).trans rfl,
    (congrArg Port.ackDue hd).trans rfl⟩

end

/-! ### Ports that send no flits (R214 to R216, R226) -/

theorem foldl_keeps_port {α β : Type} (view : Port → β) (f : Port → α → Port) (hf : ∀ q a, view (f q a) = view q) (l : List α) (q : Port) :
    view (l.foldl f q) = view q := by
  induction l generalizing q with
  | nil => rfl
  | cons a l ih => exact (ih _).trans (hf q a)

/-- Test patterns leave the state of a port, its numbers and its replay buffer. -/
theorem sendPrbs_keeps (q : Port) (x : BitVec 31) :
    ((q.sendPrbs x).st, (q.sendPrbs x).txSeq, (q.sendPrbs x).replayBuf) = (q.st, q.txSeq, q.replayBuf) := by
  refine foldl_keeps_port (fun q : Port => (q.st, q.txSeq, q.replayBuf)) _ (fun r i => ?_) _ q
  split
  next g _ => rw [emit_lineOnly]
  next => rfl

theorem prbsOn_st {q : Port} (h : q.prbsOn = true) : q.st = .test := by
  rw [Port.prbsOn, Bool.and_eq_true, beq_iff_eq] at h
  exact h.1

theorem fillOnly_not_framing {q : Port} (h : q.fillOnly = true) : ¬q.framing = true := by
  intro hf
  simp only [Port.framing, Bool.and_eq_true, decide_eq_true_eq] at hf
  simp only [Port.fillOnly, Bool.or_eq_true, Bool.and_eq_true, beq_iff_eq, decide_eq_true_eq] at h
  obtain ⟨⟨hin, -⟩, h4⟩ := hf
  rcases h with (h | h) | ⟨-, h⟩
  · simp [Port.inTraining, h] at hin
  · simp [Port.inTraining, h] at hin
  · omega

theorem exec_flitTransmit_fillOnly {p : Fin 12} {s : State} (hp : (s.ports[p]).prbsOn = false) (hf : (s.ports[p]).fillOnly = true) :
    exec (.flitTransmit p) s = .next (s.modPort p Port.fill) := by
  show execFlitTransmit p s = _
  unfold execFlitTransmit
  dsimp only
  rw [if_neg (Bool.eq_false_iff.1 hp), if_neg (fillOnly_not_framing hf), if_pos hf]

theorem exec_flitTransmit_silent {p : Fin 12} {s : State} (hp : (s.ports[p]).prbsOn = false) (hf : (s.ports[p]).fillOnly = false)
    (hup : (s.ports[p]).up = false) (hfr : (s.ports[p]).framing = false) : exec (.flitTransmit p) s = .next s := by
  show execFlitTransmit p s = _
  unfold execFlitTransmit
  dsimp only
  rw [if_neg (Bool.eq_false_iff.1 hp), if_neg (Bool.eq_false_iff.1 hfr), if_neg (Bool.eq_false_iff.1 hf), hup]
  exact if_pos rfl

theorem exec_flitTransmit_prbs {p : Fin 12} {s : State} (hp : (s.ports[p]).prbsOn = true) :
    exec (.flitTransmit p) s = .next (s.draw.2.modPort p (fun q => q.sendPrbs (fld s.draw.1 0 31))) := by
  show execFlitTransmit p s = _
  unfold execFlitTransmit
  dsimp only
  rw [if_pos hp]

/-- A port that sends test patterns changes alone, and keeps its state, its numbers and its replay buffer. -/
theorem flitTransmit_prbs {p : Fin 12} {s : State} (hp : (s.ports[p]).prbsOn = true) : ∃ u, exec (.flitTransmit p) s = .next u
    ∧ u = { s with ports := u.ports, free := s.free + 1 } ∧ (∀ q : Fin 12, q ≠ p → u.ports[q] = s.ports[q])
    ∧ (u.ports[p]).st = .test ∧ (u.ports[p]).txSeq = (s.ports[p]).txSeq ∧ (u.ports[p]).replayBuf = (s.ports[p]).replayBuf := by
  refine ⟨_, exec_flitTransmit_prbs hp, rfl, fun q hq => port_modPort_ne _ _ hq, ?_⟩
  rw [port_modPort]
  have hkeep := sendPrbs_keeps (s.ports[p]) (fld s.draw.1 0 31)
  rw [Prod.mk.injEq, Prod.mk.injEq, prbsOn_st hp] at hkeep
  exact hkeep

/-- Settles O35: the slot's choice by its order, and what each choice leaves of the port. -/
theorem flitsLeave : Obligations.FlitsLeave := by
  unfold Obligations.FlitsLeave
  refine ⟨fun p s hp => ⟨exec_flitTransmit_fillOnly hp, exec_flitTransmit_silent hp⟩, fun p s => flitTransmit_prbs, fun p s q hup hq =>
    ⟨fun hs => flitTransmit_only hup hq hs rfl, fun f rest => flitTransmit_replays hup hq, fun vc f => flitTransmit_own hup hq,
      fun vc a f => flitTransmit_forwarded hup hq, fun e => flitTransmit_sched hup hq, flitTransmit_null hup hq⟩, fun q r hr => ?_⟩
  refine ⟨fun h => if_pos h, fun hf hr => ?_, fun hf hres => ?_, fun vc h => Bool.and_eq_true_iff.1 (chooseSlot_queued h),
    fun e => chooseSlot_sched, fun vc h => ?_⟩
  · rw [chooseSlot_eq, if_neg (Nat.not_le.2 hf), if_pos]
    rw [Bool.not_eq_true', List.isEmpty_eq_false_iff]
    exact hr
  · subst hr
    exact chooseSlot_order hf hres
  · rw [Port.mayNew, Bool.and_eq_true, decide_eq_true_eq, decide_eq_true_eq] at h
    exact h

end Sys2Proof.Machine
end

section
/-! Proofs of the statement about flits that arrive: the checks, the numbers, screening and delivery. -/

namespace Sys2Proof.Machine

/-! ### The order of reception (R223) -/

/-- A flit fails its check, or came in a bad block or in one of a bad codeword. -/
def Port.flitBad (p : Port) (f : Data2048) (bad : Bool) : Bool := bad || decide (0 < p.badLeft) || flitCheck f p.rxId != flCheck f

theorem flitBad_iff {p : Port} {f : Data2048} {bad : Bool} :
    p.flitBad f bad = true ↔ bad = true ∨ 0 < p.badLeft ∨ flitCheck f p.rxId ≠ flCheck f := by
  rw [Port.flitBad, Bool.or_eq_true, Bool.or_eq_true, decide_eq_true_eq, bne_iff_ne, or_assoc]

theorem flitBad_false {p : Port} {f : Data2048} {bad : Bool} (hb : bad = false) (hl : p.badLeft = 0) (hc : flitCheck f p.rxId = flCheck f) :
    p.flitBad f bad = false := by
  rw [Port.flitBad, hb, hl, hc, bne_self_eq_false]
  rfl

/-- The port that has taken the flit it expected. -/
def Port.gotNext (p : Port) : Port := { p with rxNext := p.rxNext + 1, ackDue := true, nackDue := false, nackSince := none }

/-- How far a flit is ahead of the expected one, modulo 4,096. -/
def Port.ahead (p : Port) (f : Data2048) : Nat := (flSeq f - p.rxNext).toNat

/-- The acknowledgement field of an arrived flit is applied to the port, or is a violation. -/
def State.acked (s : State) (p : Fin 12) (f : Data2048) : State :=
  match (s.ports[p]).ackField s.now f with
  | some q1 => s.modPort p (fun _ => q1)
  | none => s.portViolation p

/-- A NULL flit only acknowledges. -/
def State.nullArrives (s : State) (p : Fin 12) (f : Data2048) : State :=
  if headerOk f = true then s.acked p f else (s.acked p f).portViolation p

/-- The expected flit is screened unless its acknowledgement took the port out of service. -/
def State.nextArrives (s : State) (p : Fin 12) (f : Data2048) : State :=
  if (((s.modPort p Port.gotNext).acked p f).ports[p]).st = .disabled then (s.modPort p Port.gotNext).acked p f
  else ((s.modPort p Port.gotNext).acked p f).screenFlit p f

/-- What a flit without a fault in its check does, by its number. -/
def State.flitChecked (s : State) (p : Fin 12) (f : Data2048) : State :=
  if flType f = 0 then s.nullArrives p f
  else if 1 ≤ (s.ports[p]).ahead f ∧ (s.ports[p]).ahead f ≤ 2047 then s.modPort p Port.noteGap
  else if 2049 ≤ (s.ports[p]).ahead f then s.modPort p (fun q => { q with cnt := { q.cnt with dup := satInc q.cnt.dup } })
  else if (s.ports[p]).ahead f = 2048 then s.portViolation p
  else s.nextArrives p f

section
variable {p : Fin 12} {f : Data2048} {bad : Bool} {s v w : State}

theorem exec_flitReceive {b : Bool} (hl : s.lineIn p (.flit f) = (v, b)) (hw : w = v.tookBlocks p 8) : exec (.flitReceive p f bad) s =
    if (!b) = true then .next v
    else if (w.ports[p]).st = .retrain then
      .next (if (!(bad || decide (0 < (v.ports[p]).badLeft) || flitCheck f (w.ports[p]).rxId != flCheck f) && flNack f) = true
        then w.modPort p (fun q => { q with heldNack := q.heldNack ++ [f] }) else w)
    else if (!(w.ports[p]).up) = true then .next w
    else if (bad || decide (0 < (v.ports[p]).badLeft) || flitCheck f (w.ports[p]).rxId != flCheck f) = true then
      .next ((w.modPort p (fun q => (q.modCnt (fun c => { c with crcErr := satInc c.crcErr })).noteGap)).portError p)
    else .next (w.flitChecked p f) := by
  show execFlitReceive p f bad s = _
  unfold execFlitReceive
  dsimp only
  rw [hl]
  dsimp only
  rw [← hw]
  refine if_congr Iff.rfl rfl (if_congr Iff.rfl rfl (if_congr Iff.rfl rfl (if_congr Iff.rfl rfl ?_)))
  unfold State.flitChecked
  by_cases h0 : flType f = 0
  · simp only [h0, decide_true, Bool.not_true, Bool.false_eq_true, false_and, if_false, if_true]
    rfl
  · simp only [h0, decide_false, Bool.not_false, true_and, if_false, apply_ite Host.Outcome.next]
    refine if_congr Iff.rfl rfl (if_congr Iff.rfl rfl (if_congr Iff.rfl rfl ?_))
    unfold State.nextArrives State.acked
    simp only [apply_ite Host.Outcome.next]
    rfl

theorem exec_flitReceive_lost (hl : s.lineIn p (.flit f) = (v, false)) : exec (.flitReceive p f bad) s = .next v :=
  (exec_flitReceive hl rfl).trans (if_pos rfl)

/-- Reception by what the port held before the flit. -/
theorem exec_flitReceive_taken (hl : s.lineIn p (.flit f) = (v, true)) (hw : w = v.tookBlocks p 8) : exec (.flitReceive p f bad) s =
    if (s.ports[p]).st = .retrain then
      .next (if (!(s.ports[p]).flitBad f bad && flNack f) = true then w.modPort p (fun q => { q with heldNack := q.heldNack ++ [f] }) else w)
    else if (!(s.ports[p]).up) = true then .next w
    else if (s.ports[p]).flitBad f bad = true then
      .next ((w.modPort p (fun q => (q.modCnt (fun c => { c with crcErr := satInc c.crcErr })).noteGap)).portError p)
    else .next (w.flitChecked p f) := by
  rw [exec_flitReceive hl hw, if_neg (by decide)]
  obtain ⟨l, rfl⟩ := lineIn_loopq hl
  rw [State.tookBlocks, State.modPort_modPort] at hw
  subst hw
  rw [port_modPort, port_modPort]
  rfl

theorem flitReceive_retrain (hl : s.lineIn p (.flit f) = (v, true)) (hw : w = v.tookBlocks p 8) (hr : (s.ports[p]).st = .retrain) :
    exec (.flitReceive p f bad) s =
      .next (if (!(s.ports[p]).flitBad f bad && flNack f) = true then w.modPort p (fun q => { q with heldNack := q.heldNack ++ [f] }) else w) :=
  (exec_flitReceive_taken hl hw).trans (if_pos hr)

theorem flitReceive_idle (hl : s.lineIn p (.flit f) = (v, true)) (hw : w = v.tookBlocks p 8) (hup : (s.ports[p]).up = false)
    (hr : (s.ports[p]).st ≠ .retrain) : exec (.flitReceive p f bad) s = .next w := by
  rw [exec_flitReceive_taken hl hw, if_neg hr, hup]
  exact if_pos rfl

theorem up_not_retrain {q : Port} (h : q.up = true) : q.st ≠ .retrain := by
  rcases up_st h with k | k | k <;> rw [k] <;> decide

theorem flitReceive_up (hl : s.lineIn p (.flit f) = (v, true)) (hw : w = v.tookBlocks p 8) (hup : (s.ports[p]).up = true) :
    exec (.flitReceive p f bad) s = if (s.ports[p]).flitBad f bad = true then
      .next ((w.modPort p (fun q => (q.modCnt (fun c => { c with crcErr := satInc c.crcErr })).noteGap)).portError p)
    else .next (w.flitChecked p f) := by
  rw [exec_flitReceive_taken hl hw, if_neg (up_not_retrain hup), hup]
  exact if_neg (by decide)

theorem noteGap_frame (q : Port) : q.noteGap = { q with nackDue := q.noteGap.nackDue } := by
  unfold Port.noteGap
  split <;> rfl

theorem noteGap_due {q : Port} (h : q.nackSince = none) : q.noteGap.nackDue = true := by
  rw [Port.noteGap, h]
  rfl

/-- The port that has counted a flit with a fault in its check. -/
def Port.miscounted (q : Port) : Port := (q.modCnt (fun c => { c with crcErr := satInc c.crcErr })).noteGap

theorem miscounted_frame (q : Port) : q.miscounted =
    { q with cnt := { q.cnt with crcErr := satInc q.cnt.crcErr }, nackDue := q.miscounted.nackDue } := noteGap_frame _

/-- A flit that fails its check is counted and asked for again. -/
theorem flitReceive_bad (hl : s.lineIn p (.flit f) = (v, true)) (hup : (s.ports[p]).up = true) (hb : (s.ports[p]).flitBad f bad = true)
    (hlog : (s.ports[p]).errLog = []) (hmax : (s.ports[p]).errMax ≠ 0) : ∃ u, exec (.flitReceive p f bad) s = .next u ∧ OnlyPort p s u
      ∧ (u.ports[p]).cnt.crcErr = satInc (s.ports[p]).cnt.crcErr ∧ (u.ports[p]).rxNext = (s.ports[p]).rxNext
      ∧ ((s.ports[p]).nackSince = none → (u.ports[p]).nackDue = true) ∧ (u.ports[p]).replayBuf = (s.ports[p]).replayBuf := by
  obtain ⟨l, hw⟩ := lineIn_took hl 8
  have hq := miscounted_frame ((s.ports[p]).took l 8)
  have hkept : (s.modPort p (fun q => (q.took l 8).miscounted)).portError p = s.modPort p (fun q => (q.took l 8).miscounted.erred s.now) := by
    rw [portError_kept, State.modPort_modPort]
    · rfl
    · rw [port_modPort, hq]
      show (((s.ports[p]).errLog).filter _).length < (s.ports[p]).errMax.toNat
      rw [hlog]
      exact BitVec.toNat_pos_of_ne_zero hmax
  refine ⟨s.modPort p (fun q => (q.took l 8).miscounted.erred s.now), ?_, onlyPort_modPort _ _ _, ?_⟩
  · rw [flitReceive_up hl hw.symm hup, if_pos hb, State.modPort_modPort]
    exact congrArg Host.Outcome.next hkept
  · rw [port_modPort]
    exact ⟨(congrArg (fun q : Port => q.cnt.crcErr) hq).trans rfl, (congrArg Port.rxNext hq).trans rfl, fun h => noteGap_due h,
      (congrArg Port.replayBuf hq).trans rfl⟩

theorem ackField_frame {q r : Port} {now : Nat} (h : q.ackField now f = some r) :
    r.st = q.st ∧ r.rxNext = q.rxNext ∧ r.ackDue = q.ackDue := by
  unfold Port.ackField at h
  extract_lets n k after at h
  split at h
  · cases h
  split at h
  · cases h
  split at h
  · exact Option.some.inj h ▸ ⟨rfl, rfl, rfl⟩
  · exact Option.some.inj h ▸ ⟨rfl, rfl, rfl⟩

section
variable (hl : s.lineIn p (.flit f) = (v, true)) (hw : w = v.tookBlocks p 8) (hup : (s.ports[p]).up = true) (hb : (s.ports[p]).badLeft = 0)
  (hc : flitCheck f (s.ports[p]).rxId = flCheck f)
include hl hw hup hb hc

theorem flitReceive_checked : exec (.flitReceive p f false) s = .next (w.flitChecked p f) := by
  rw [flitReceive_up hl hw hup, flitBad_false rfl hb hc]
  exact if_neg (by decide)

theorem flitReceive_numbered (h0 : flType f ≠ 0) : exec (.flitReceive p f false) s = .next (
    if 1 ≤ (s.ports[p]).ahead f ∧ (s.ports[p]).ahead f ≤ 2047 then w.modPort p Port.noteGap
    else if 2049 ≤ (s.ports[p]).ahead f then w.modPort p (fun q => { q with cnt := { q.cnt with dup := satInc q.cnt.dup } })
    else if (s.ports[p]).ahead f = 2048 then w.portViolation p
    else w.nextArrives p f) := by
  have hahead : (w.ports[p]).ahead f = (s.ports[p]).ahead f := by
    obtain ⟨l, hw'⟩ := lineIn_took hl 8
    rw [hw, hw', port_modPort]
    rfl
  rw [flitReceive_checked hl hw hup hb hc, State.flitChecked, if_neg h0, hahead]

theorem flitReceive_early (h0 : flType f ≠ 0) (h1 : 1 ≤ (s.ports[p]).ahead f) (h2 : (s.ports[p]).ahead f ≤ 2047) :
    exec (.flitReceive p f false) s = .next (w.modPort p Port.noteGap) := by
  rw [flitReceive_numbered hl hw hup hb hc h0, if_pos ⟨h1, h2⟩]

theorem flitReceive_late (h0 : flType f ≠ 0) (h : 2049 ≤ (s.ports[p]).ahead f) : exec (.flitReceive p f false) s =
    .next (w.modPort p (fun q => { q with cnt := { q.cnt with dup := satInc q.cnt.dup } })) := by
  rw [flitReceive_numbered hl hw hup hb hc h0, if_neg (by omega), if_pos h]

theorem flitReceive_opposite (h0 : flType f ≠ 0) (h : (s.ports[p]).ahead f = 2048) :
    exec (.flitReceive p f false) s = .next (w.portViolation p) := by
  rw [flitReceive_numbered hl hw hup hb hc h0, h]
  rfl

theorem flitReceive_null {q1 : Port} (h0 : flType f = 0) (hh : headerOk f = true) (hq : (w.ports[p]).ackField s.now f = some q1) :
    exec (.flitReceive p f false) s = .next (w.modPort p (fun _ => q1)) := by
  have hnow : w.now = s.now := by
    obtain ⟨l, hw'⟩ := lineIn_took hl 8
    rw [hw, hw']
    rfl
  rw [flitReceive_checked hl hw hup hb hc, State.flitChecked, if_pos h0, State.nullArrives, if_pos hh, State.acked, hnow, hq]

/-- The expected flit advances NEXT, what it acknowledges is applied, and it is screened. -/
theorem flitReceive_next {q1 : Port} (h0 : flType f ≠ 0) (hs : flSeq f = (s.ports[p]).rxNext)
    (hq : ({ w.ports[p] with rxNext := (s.ports[p]).rxNext + 1, ackDue := true, nackDue := false, nackSince := none } : Port).ackField s.now f = some q1) :
    exec (.flitReceive p f false) s = .next ((w.modPort p (fun _ => q1)).screenFlit p f)
      ∧ q1.rxNext = (s.ports[p]).rxNext + 1 ∧ q1.ackDue = true := by
  obtain ⟨hst, hnext, hdue⟩ := ackField_frame hq
  have hahead : (s.ports[p]).ahead f = 0 := by
    rw [Port.ahead, hs, BitVec.sub_self]
    rfl
  obtain ⟨l, hw'⟩ := lineIn_took hl 8
  have hport : w.ports[p] = (s.ports[p]).took l 8 := by rw [hw, hw', port_modPort]
  have hnow : w.now = s.now := by
    rw [hw, hw']
    rfl
  have hgot : ((w.ports[p]).gotNext).ackField s.now f = some q1 := by
    rw [← hq, hport]
    rfl
  have hacked : (w.modPort p Port.gotNext).acked p f = w.modPort p (fun _ => q1) := by
    have h : ((w.modPort p Port.gotNext).ports[p]).ackField (w.modPort p Port.gotNext).now f = some q1 := by
      rw [port_modPort, ← hgot, ← hnow]
      rfl
    rw [State.acked, h]
    exact State.modPort_modPort _ _ _ _
  have hon : ((w.modPort p (fun _ => q1)).ports[p]).st ≠ .disabled := by
    rw [port_modPort, hst, hport]
    show (s.ports[p]).st ≠ _
    rcases up_st hup with k | k | k <;> rw [k] <;> decide
  refine ⟨?_, hnext, hdue⟩
  rw [flitReceive_numbered hl hw hup hb hc h0, hahead, if_neg (by decide), if_neg (by decide), if_neg (by decide), State.nextArrives, hacked, if_neg hon]

end

end

/-! ### Screening (R223, R227, R235) -/

/-- A flit that is dropped gives its receive buffer back. -/
def State.giveBack (s : State) (p : Fin 12) (vc : Fin 4) : State := s.modPort p (fun q => { q with owed := vmod q.owed vc (· + 1) })

theorem vc_ofNat {v : Fin 4} {n : Nat} (h : v.val = n) : Fin.ofNat 4 n = v := h ▸ Fin.ext (Nat.mod_eq_of_lt v.isLt)

section
variable {p : Fin 12} {f : Data2048} {s : State} (hh : headerOk f = true) (he : flEnc f = false) (hk : (s.ports[p]).encrypting = false)
  {v : Fin 4} (hv : v.val = flVc f)
include hh he hk hv

theorem screenFlit_plain : s.screenFlit p f =
    if (!(s.ports[p]).carries) = true ∧ (!([9, 0xA, 0xC].contains (flType f))) = true then
      (s.modPort p (fun q => q.modCnt (fun c => { c with preadmitDrop := satInc c.preadmitDrop }))).giveBack p v
    else if (!((s.ports[p]).permit[(Fin.ofNat 32 ((flSrc f).toNat / 32))]).getLsbD ((flSrc f).toNat % 32)) = true then
      ((s.modPort p (fun q => q.modCnt (fun c => { c with filterDrop := satInc c.filterDrop }))).giveBack p v).lnkEvent p 4
    else if flBeat f - s.glb.beatCnt.setWidth 16 = 0x8000 then ((s.giveBack p v).lnkEvent p 8).startRetrain p false
    else s.deliverFlit p f false := by
  have hself : s.modPort p (fun _ => s.ports[p]) = s := State.modPort_self rfl
  unfold State.screenFlit
  simp only [hh, he, hk, vc_ofNat hv, Bool.false_eq_true, Bool.not_true, false_and, and_false, if_false, hself]
  rfl

theorem screenFlit_preadmit (hc : (s.ports[p]).carries = false) (ht : flType f ∉ [9, 0xA, 0xC]) : s.screenFlit p f = s.modPort p (fun q =>
    { q with cnt := { q.cnt with preadmitDrop := satInc q.cnt.preadmitDrop }, owed := vmod q.owed v (· + 1) }) := by
  have hcont : [9, 0xA, 0xC].contains (flType f) = false := by
    rw [Bool.eq_false_iff, ne_eq, List.contains_iff_mem]
    exact ht
  rw [screenFlit_plain hh he hk hv, hc, hcont, if_pos ⟨rfl, rfl⟩]
  exact State.modPort_modPort _ _ _ _

theorem screenFlit_passes (hc : (s.ports[p]).carries = true)
    (hp : ((s.ports[p]).permit[(Fin.ofNat 32 ((flSrc f).toNat / 32))]).getLsbD ((flSrc f).toNat % 32) = true)
    (hb : flBeat f - s.glb.beatCnt.setWidth 16 ≠ 0x8000) : s.screenFlit p f = s.deliverFlit p f false := by
  rw [screenFlit_plain hh he hk hv, if_neg (by rw [hc]; exact fun h => Bool.false_ne_true h.1), if_neg (by rw [hp]; decide), if_neg hb]

theorem screenFlit_filtered (hc : (s.ports[p]).carries = true)
    (hp : ((s.ports[p]).permit[(Fin.ofNat 32 ((flSrc f).toNat / 32))]).getLsbD ((flSrc f).toNat % 32) = false) :
    ((s.screenFlit p f).ports[p]).cnt.filterDrop = satInc (s.ports[p]).cnt.filterDrop ∧ ((s.screenFlit p f).ports[p]).event.getLsbD 4 = true
      ∧ (s.screenFlit p f).fab.inbox = s.fab.inbox := by
  rw [screenFlit_plain hh he hk hv, if_neg (by rw [hc]; exact fun h => Bool.false_ne_true h.1), if_pos (by rw [hp]; rfl)]
  rw [State.giveBack, State.modPort_modPort]
  refine ⟨?_, lnkEvent_set _ p 4 (by decide), ?_⟩
  · exact (congrArg (fun q : Port => q.cnt.filterDrop) (modPort_lnkEvent_port s p _ 4)).trans rfl
  · exact (congrArg (fun t : State => t.fab.inbox) (lnkEvent_eventOnly _ p 4)).trans rfl

end

/-! ### Delivery (R220, R221, R234, R235, R240, R242) -/

/-- The port that has counted a flit that passed. -/
def Port.passed (q : Port) : Port := q.modCnt (fun c => { c with rxFlits := satInc c.rxFlits })

/-- The port that has counted a flit and holds a receive buffer for it. -/
def Port.holding (q : Port) (v : Fin 4) : Port := { q.passed with held := vmod q.held v (· + 1) }

/-- The port to whose endpoint the bytes of a SCHED flit have come. -/
def Port.joined (q : Port) (e : Fin 8) (b : List Byte) : Port :=
  { q with rxBytes := vmod q.rxBytes e (· ++ b), rxLens := vmod q.rxLens e (· ++ [b.length]) }

theorem noteRouteDrop_sets (s : State) : s.noteRouteDrop.fab.event.getLsbD 5 = true := by
  unfold State.noteRouteDrop
  split
  next h => exact h
  next =>
    dsimp only
    rw [logEvent_fab_event]
    simp [State.modFab]

/-- A buffer held for a flit that is dropped after all is given back. -/
theorem holding_release (q : Port) (v : Fin 4) : (q.holding v).release v = { q.passed with owed := vmod q.owed v (· + 1) } := by
  have hheld : (q.holding v).held[v] = q.held[v] + 1 := vmod_get_same _ _ _
  have hback : vmod (vmod q.held v (· + 1)) v (· - 1) = q.held := by
    rw [vmod_vmod, vmod_const, Nat.add_sub_cancel, vset_self]
  rw [Port.release, if_neg (by omega)]
  unfold Port.holding
  rw [hback]
  rfl

section
variable {p : Fin 12} {f : Data2048} {s : State} {v : Fin 4} (hv : v.val = flVc f)
include hv

theorem deliverFlit_shut (ht : flType f = 9 ∨ flType f = 0xA) (hs : s.probeShut p = true) :
    s.deliverFlit p f false = ((s.modPort p Port.passed).giveBack p v).dropProbe := by
  unfold State.deliverFlit
  rw [vc_ofNat hv]
  exact if_pos ⟨ht, hs⟩

theorem deliverFlit_handled (h : flType f = 0xC ∨ ((flType f = 9 ∨ flType f = 0xA) ∧ s.probeShut p = false)
      ∨ (s.fab.idValid = true ∧ flDst f = s.fab.id ∧ flType f ∈ [4, 5, 6, 8, 0x10, 0x11])) :
    s.deliverFlit p f false = (s.modPort p (·.holding v)).modFab (fun b => { b with inbox := b.inbox ++ [(p, f)] }) := by
  have hhold : (s.modPort p Port.passed).modPort p (fun q => { q with held := vmod q.held v (· + 1) }) = s.modPort p (·.holding v) :=
    State.modPort_modPort _ _ _ _
  rw [← hhold]
  unfold State.deliverFlit
  rw [vc_ofNat hv]
  rcases h with h | ⟨h, hs⟩ | ⟨hid, hd, hm⟩
  · rw [h]
    rfl
  · rw [hs]
    exact (if_neg (fun k => Bool.false_ne_true k.2)).trans (if_pos (h.imp_right .inl))
  · have hne : flType f ≠ 9 ∧ flType f ≠ 0xA ∧ flType f ≠ 0xC ∧ flType f ≠ 1 := by
      simp only [List.mem_cons, List.not_mem_nil, or_false] at hm
      omega
    simp only [hne, hid, hd, Bool.not_true, Bool.false_eq_true, false_and, or_false, if_false, if_true]
    rfl

/-- A flit for another device. -/
theorem deliverFlit_onward (hid : s.fab.idValid = true) (hd : flDst f ≠ s.fab.id) (ht : flType f ∉ [9, 0xA, 0xC]) :
    s.deliverFlit p f false = if ((s.modPort p (·.holding v)).sendTo (some p) f).2 = true then
      ((((s.modPort p (·.holding v)).sendTo (some p) f).1).modPort p (fun q => q.release v)).noteRouteDrop
    else (((s.modPort p (·.holding v)).sendTo (some p) f).1).modFab (fun b => { b with fwdCnt := satInc b.fwdCnt }) := by
  have hhold : (s.modPort p Port.passed).modPort p (fun q => { q with held := vmod q.held v (· + 1) }) = s.modPort p (·.holding v) :=
    State.modPort_modPort _ _ _ _
  simp only [List.mem_cons, List.not_mem_nil, or_false, not_or] at ht
  rw [← hhold]
  unfold State.deliverFlit
  rw [vc_ofNat hv]
  simp only [ht, hid, hd, Bool.not_true, Bool.false_eq_true, false_and, or_false, if_false]
  rfl

theorem deliverFlit_probeDrop (ht : flType f = 9 ∨ flType f = 0xA) (hs : s.probeShut p = true) :
    ∃ u, s.deliverFlit p f false = u ∧ u.fab.inbox = s.fab.inbox
      ∧ u.fab.probeDrop = satInc s.fab.probeDrop ∧ (u.ports[p]).owed = vmod (s.ports[p]).owed v (· + 1) := by
  refine ⟨_, deliverFlit_shut hv ht hs, rfl, rfl, ?_⟩
  show ((((s.modPort p Port.passed).giveBack p v)).ports[p]).owed = _
  rw [State.giveBack, State.modPort_modPort, port_modPort]
  rfl

theorem deliverFlit_inbox (h : flType f = 0xC ∨ ((flType f = 9 ∨ flType f = 0xA) ∧ s.probeShut p = false)
      ∨ (s.fab.idValid = true ∧ flDst f = s.fab.id ∧ flType f ∈ [4, 5, 6, 8, 0x10, 0x11])) :
    ∃ u, s.deliverFlit p f false = u ∧ u.fab.inbox = s.fab.inbox ++ [(p, f)] ∧ (u.ports[p]).cnt.rxFlits = satInc (s.ports[p]).cnt.rxFlits
      ∧ (u.ports[p]).owed = (s.ports[p]).owed ∧ (u.ports[p]).held = vmod (s.ports[p]).held v (· + 1) := by
  refine ⟨_, deliverFlit_handled hv h, rfl, ?_⟩
  rw [State.modFab_ports, port_modPort]
  exact ⟨rfl, rfl, rfl⟩

section
variable (hid : s.fab.idValid = true) (hd : flDst f ≠ s.fab.id) (ht : flType f ∉ [9, 0xA, 0xC])
include hid hd ht

/-- A flit goes on by the first port of its route. -/
theorem deliverFlit_forwards {q : Fin 12} (hr : s.routePort (flDst f) = some q) (hq : q ≠ p) (hc : (s.ports[q]).carries = true) :
    ((s.deliverFlit p f false).ports[q]).txq = (s.ports[q]).txq ++ [(some p, f)]
      ∧ (s.deliverFlit p f false).fab = { s.fab with fwdCnt := satInc s.fab.fwdCnt }
      ∧ ((s.deliverFlit p f false).ports[p]).held = vmod (s.ports[p]).held v (· + 1) := by
  have hsend : (s.modPort p (·.holding v)).sendTo (some p) f = ((s.modPort p (·.holding v)).sendOn q (some p) f, false) := by
    have hroute : (s.modPort p (·.holding v)).routePort (flDst f) = some q := hr
    rw [State.sendTo, hroute]
    dsimp only
    rw [port_modPort_ne _ _ hq, if_pos ⟨hc, fun h => hq (Option.some.inj h)⟩]
  have hon : s.deliverFlit p f false
      = ((s.modPort p (·.holding v)).sendOn q (some p) f).modFab (fun b => { b with fwdCnt := satInc b.fwdCnt }) := by
    rw [deliverFlit_onward hv hid hd ht, hsend]
    rfl
  have hports (r : Fin 12) : (s.deliverFlit p f false).ports[r] = ((s.modPort p (·.holding v)).sendOn q (some p) f).ports[r] := by
    rw [hon, State.modFab_ports]
  refine ⟨?_, ?_, ?_⟩
  · rw [hports, State.sendOn, port_modPort, port_modPort_ne _ _ hq]
  · rw [hon]
    rfl
  · rw [hports, State.sendOn, port_modPort_ne _ _ hq.symm, port_modPort]
    rfl

/-- A flit without a port that carries it is dropped and counted. -/
theorem deliverFlit_stranded (hno : ∀ q : Fin 12, s.routePort (flDst f) = some q → q = p ∨ (s.ports[q]).carries = false) :
    s.deliverFlit p f false = ((s.modPort p (fun q => (q.holding v).release v)).modFab
      (fun b => { b with routeDrop := satInc b.routeDrop })).noteRouteDrop := by
  have hsend : (s.modPort p (·.holding v)).sendTo (some p) f
      = ((s.modPort p (·.holding v)).modFab (fun b => { b with routeDrop := satInc b.routeDrop }), true) := by
    have hroute : (s.modPort p (·.holding v)).routePort (flDst f) = s.routePort (flDst f) := rfl
    rw [State.sendTo, hroute]
    cases hr : s.routePort (flDst f) with
    | none => rfl
    | some q =>
      refine if_neg fun ⟨hc, hne⟩ => ?_
      have hq : q ≠ p := fun h => hne (congrArg some h)
      rw [port_modPort_ne _ _ hq] at hc
      exact (hno q hr).elim hq fun h => Bool.false_ne_true (h.symm.trans hc)
  rw [deliverFlit_onward hv hid hd ht, hsend, if_pos rfl, ← State.modPort_modPort s p (·.holding v) (·.release v)]
  rfl

theorem deliverFlit_drops (hno : ∀ q : Fin 12, s.routePort (flDst f) = some q → q = p ∨ (s.ports[q]).carries = false) :
    (s.deliverFlit p f false).fab.event.getLsbD 5 = true ∧ ((s.deliverFlit p f false).ports[p]).held = (s.ports[p]).held
      ∧ ((s.deliverFlit p f false).ports[p]).owed = vmod (s.ports[p]).owed v (· + 1)
      ∧ (s.fab.event.getLsbD 5 = true → (s.deliverFlit p f false).fab = { s.fab with routeDrop := satInc s.fab.routeDrop }
        ∧ ∀ q : Fin 12, ((s.deliverFlit p f false).ports[q]).txq = (s.ports[q]).txq) := by
  rw [deliverFlit_stranded hv hid hd ht hno]
  have hothers (q : Fin 12) (hq : q ≠ p) : ((s.modPort p (fun q => (q.holding v).release v)).modFab
      (fun b => { b with routeDrop := satInc b.routeDrop })).ports[q] = s.ports[q] := by rw [State.modFab_ports, port_modPort_ne s _ hq]
  generalize ht : (s.modPort p (fun q => (q.holding v).release v)).modFab (fun b => { b with routeDrop := satInc b.routeDrop }) = t at hothers ⊢
  have hport : t.ports[p] = { (s.ports[p]).passed with owed := vmod (s.ports[p]).owed v (· + 1) } := by
    rw [← ht, ← holding_release, State.modFab_ports, port_modPort]
  have hfab : t.fab = { s.fab with routeDrop := satInc s.fab.routeDrop } := by
    rw [← ht]
    rfl
  have hnote : QueuedOnly t.ports[p] t.noteRouteDrop.ports[p] := noteRouteDrop_port t p
  rw [hport] at hnote
  refine ⟨noteRouteDrop_sets t, (congrArg Port.held hnote).trans rfl, (congrArg Port.owed hnote).trans rfl, fun h5 => ?_⟩
  have hquiet : t.noteRouteDrop = t := if_pos (by rw [hfab]; exact h5)
  rw [hquiet]
  refine ⟨hfab, fun q => ?_⟩
  by_cases hq : q = p
  · rw [hq, hport]
    rfl
  · rw [hothers q hq]

end

/-- A SCHED flit for an endpoint joins the bytes that its words are taken from. -/
theorem deliverFlit_sched {e : Fin 8} (hid : s.fab.idValid = true) (hd : flDst f = s.fab.id) (ht : flType f = 1) (hep : flEp f = e.val)
    (hen : ((s.ports[p]).eps[e]).en = true) : s.deliverFlit p f false =
      s.modPort p (fun q => ((q.holding v).joined e (flitBytes f false)).offer e) := by
  have he : Fin.ofNat 8 (flEp f) = e := hep ▸ Fin.ext (Nat.mod_eq_of_lt e.isLt)
  have hhold : (s.modPort p Port.passed).modPort p (fun q => { q with held := vmod q.held v (· + 1) }) = s.modPort p (·.holding v) :=
    State.modPort_modPort _ _ _ _
  rw [← State.modPort_modPort s p (·.holding v) (fun q => (q.joined e (flitBytes f false)).offer e), ← hhold]
  unfold State.deliverFlit
  rw [vc_ofNat hv]
  simp only [he, hen, hid, ht, hd, Bool.not_true, Bool.false_eq_true, if_false, if_true]
  rfl

theorem deliverFlit_endpoint {e : Fin 8} (hid : s.fab.idValid = true) (hd : flDst f = s.fab.id) (ht : flType f = 1) (hep : flEp f = e.val)
    (hen : ((s.ports[p]).eps[e]).en = true) (hw : ((s.ports[p]).eps[e]).word.isSome = true) :
    OnlyPort p s (s.deliverFlit p f false)
      ∧ ((s.deliverFlit p f false).ports[p]).rxBytes = vmod (s.ports[p]).rxBytes e (· ++ flitBytes f false)
      ∧ ((s.deliverFlit p f false).ports[p]).held = vmod (s.ports[p]).held v (· + 1) := by
  have hfull : (((s.ports[p]).holding v).joined e (flitBytes f false)).offer e = ((s.ports[p]).holding v).joined e (flitBytes f false) :=
    if_neg fun ⟨_, hnone, _⟩ => Option.isSome_iff_ne_none.1 hw hnone
  rw [deliverFlit_sched hv hid hd ht hep hen]
  refine ⟨onlyPort_modPort _ _ _, ?_⟩
  rw [port_modPort, hfull]
  exact ⟨rfl, rfl⟩

end

/-- Settles O36: the order of reception, then screening and delivery branch by branch. -/
theorem flitsArrive : Obligations.FlitsArrive := by
  unfold Obligations.FlitsArrive
  refine ⟨fun p x s => lineIn_open x, fun p f bad on s v w hl hw => ⟨fun hon => ?_, fun hon hup hr => ?_, fun hon hr => ⟨fun hb h0 hc hn => ?_, fun h => ?_⟩,
    fun hon hup hb => ?_⟩, fun p f s v w hl hw hup hb hc => ?_, fun p f s hh he hk v hv => ?_⟩
  · subst hon
    exact exec_flitReceive_lost hl
  · subst hon
    exact flitReceive_idle hl hw hup hr
  · subst hon
    rw [flitReceive_retrain hl hw hr, flitBad_false hb h0 hc, hn]
    rfl
  · subst hon
    rw [flitReceive_retrain hl hw hr, if_neg fun k => ?_]
    rw [Bool.and_eq_true, Bool.not_eq_true', Bool.eq_false_iff, ne_eq, flitBad_iff, not_or, not_or] at k
    obtain ⟨⟨hb, h0, hc⟩, hn⟩ := k
    rcases h with h | h | h | h
    · exact hb h
    · exact h0 h
    · exact hc h
    · exact Bool.false_ne_true (h.symm.trans hn)
  · subst hon
    exact flitReceive_bad hl hup (flitBad_iff.2 hb)
  · exact ⟨flitReceive_early hl hw hup hb hc, flitReceive_late hl hw hup hb hc, flitReceive_opposite hl hw hup hb hc,
      fun q1 => flitReceive_null hl hw hup hb hc, fun q1 => flitReceive_next hl hw hup hb hc⟩
  · exact ⟨screenFlit_preadmit hh he hk hv, screenFlit_passes hh he hk hv, screenFlit_filtered hh he hk hv, deliverFlit_probeDrop hv,
      deliverFlit_inbox hv, fun hid hd ht => ⟨fun q => deliverFlit_forwards hv hid hd ht, deliverFlit_drops hv hid hd ht⟩,
      fun e => deliverFlit_endpoint hv⟩

end Sys2Proof.Machine
end
